-- ==== Sys2Proof/Word.lean ====
section
/-!
DEFINITION. The word types of the FQ7840 and the byte lists they are kept in. Byte order is little-endian (R14).
-/

namespace Sys2Proof

/-- One byte. -/
abbrev Byte := BitVec 8

/-- A BAR0 register or a 32-bit field of an entry. -/
abbrev Word32 := BitVec 32

/-- A 64-bit field of an entry, an address or a tag. -/
abbrev Word64 := BitVec 64

/-- A run of bytes, lowest address first. -/
abbrev Bytes := List Byte

/-- A sparse table: entries with strictly rising keys, none of them holding the default. -/
abbrev Sparse (α : Type) := List (Nat × α)

end Sys2Proof
end

