-- ==== Sys2Proof/Machine/Events.lean ====
section
/-!
DEFINITION. What commands carry besides numbers: the outcomes and happenings of the world around the device.
-/

namespace Sys2Proof.Machine

/-- The two request classes of R194. -/
inductive SClass where
  | stream | table
deriving DecidableEq, Repr

/-- An error in a sector: which, uncorrectable or not, and the ECC syndrome. -/
structure MemErr where
  sector : BitVec 2
  bad : Bool
  ecc : BitVec 8
deriving DecidableEq, Repr

/-- What asks for a retrain (R229): software with a channel number, a temperature move, or a burst of corrected errors. -/
inductive RetrainCause where
  | software (channel : BitVec 7)
  | temperature (channel : BitVec 7)
  | errorBurst (channel : BitVec 7)
deriving DecidableEq, Repr

/-- A check of a line or tag that fails on a hit (R211). -/
inductive SillErr where
  | single (word : BitVec 4) (syndrome : BitVec 8)
  | double (word : BitVec 4) (syndrome : BitVec 8)
  | tagOne
  | tagBoth
deriving DecidableEq, Repr

/-- A residue or comparator mismatch: the cell and the two residues (R90, R423). -/
structure Residue where
  cell : BitVec 2
  operands : BitVec 4
  result : BitVec 4
deriving DecidableEq, Repr

/-- A DIMM as its SPD describes it (R218): registered, x4 devices, ECC; capacity in GiB, ranks, device density in Gb, rated
speed in MT/s. -/
structure Dimm where
  rdimm : Bool
  x4 : Bool
  ecc : Bool
  gib : BitVec 16
  ranks : BitVec 8
  density : BitVec 16
  rated : BitVec 16
deriving DecidableEq, Repr

/-- Outcomes of a bring-up that the spec leaves to the part: stacks and far channels that fail training, Panes and Louvre banks
(4 × Casement + bank) that fail their self-tests, Casements whose microcode does not load (assumption log 73). -/
structure Tests where
  nearFail : BitVec 6 := 0
  farFail : BitVec 8 := 0
  badPanes : BitVec 96 := 0
  badBanks : BitVec 16 := 0
  microFail : BitVec 4 := 0
deriving DecidableEq, Repr

/-- What a board brings at a power-on: the images of both slots, the certificate, the two copies of the boot record (SEQ,
PREFERRED), the copies of the persisted objects (sequence number, then index, subindex and value of each object), the fuse
words, and the ordering code (R1, R394, R439, R440, R456). -/
structure Board where
  lintelA : Bytes
  lintelB : Bytes
  microA : Bytes
  microB : Bytes
  cert : Bytes
  boot : List (BitVec 32 × BitVec 1)
  persisted : List (BitVec 32 × List (BitVec 16 × BitVec 8 × Bytes))
  fuses : List (BitVec 7 × BitVec 32)
  ordering288 : Bool
deriving DecidableEq, Repr

/-- What a window measured on a Casement: its rate and its temperature. -/
structure Crate where
  rate : BitVec 16
  tj : BitVec 8
deriving DecidableEq, Repr

/-- A namespace that a drive brings: number, LBA size in bytes, LBA count (R287). -/
structure SpaceSpec where
  nsid : BitVec 32
  lbaSize : BitVec 16
  lbas : BitVec 64
deriving DecidableEq, Repr

/-- A drive as it is inserted (R288): link width and speed as DP_SLOT codes them, volatile write cache, serial number, NGUID,
namespaces, and what stands on it (namespace, byte offset, bytes). -/
structure DriveSpec where
  width : BitVec 3
  speed : BitVec 3
  vwc : Bool
  serial : BitVec 160
  nguid : BitVec 128
  spaces : List SpaceSpec
  data : List (BitVec 32 × BitVec 72 × Bytes)
deriving DecidableEq, Repr

/-- The engine work whose drive command exceeds NVME_TIMEOUT (R287): a FETCH, the drain, or a scan of a context. -/
inductive DriveWork where
  | fetch (id : Nat)
  | drain
  | scan (ctx : BitVec 8)
deriving DecidableEq, Repr

/-- A host access through BAR4 (R413): a read of some bytes, or a write. -/
inductive BarAccess where
  | read (n : BitVec 13)
  | write (bytes : Bytes)
deriving DecidableEq, Repr

/-- The digest work a DIGEST_BLOCK_COMPRESSED ends: a block of a digest context, or a result block of a sealed pipeline. -/
inductive DigestWork where
  | ctx (k : BitVec 6)
  | seal_ (ctx : BitVec 8)
deriving DecidableEq, Repr

end Sys2Proof.Machine
end

