-- ==== Sys2Proof/Syntax.lean ====
section
/-!
DEFINITION. The commands the device takes: one constructor for each row of the opcode table, with the operands that tell one
happening of that kind from another (assumption log 1 and 9).
-/

namespace Sys2Proof

open Sys2Proof.Machine

/-- A command: a doorbell, a register access, a frame or a pin event from outside, or one step of an engine that the device
runs. Command numbers (`id`) are those of ENTRY_FETCH, in fetch order. -/
inductive Instr where
  /-- Software writes a queue's SQ producer doorbell in BAR2; Jamb applies it if the advance is within the ring's free room,
  otherwise ignores it and counts it (R242). -/
  | sqProducerDoorbell (q : BitVec 16) (width : BitVec 7) (value : BitVec 64)
  /-- Software writes a queue's CQ consumer doorbell; Jamb applies it if it is within CQ_PIDX and moves backlogged completions
  into the freed slots (R242). -/
  | cqConsumerDoorbell (q : BitVec 16) (width : BitVec 7) (value : BitVec 64)
  /-- On its turn in the rotation, and once the producer index covers every slot of an entry, Jamb fetches up to WEIGHT
  entries of a queue (R257). -/
  | entryFetch (unrotated : Option (BitVec 16))
  /-- A fetched command is dispatched in fetch order once any FENCE condition it carries is met (R257). -/
  | commandDispatch (q : BitVec 16)
  /-- Jamb writes a completion entry before it advances CQ_PIDX, or places the entry in the backlog when the CQ is full
  (R243). -/
  | completionPost (id : Nat)
  /-- The oldest pending completion of a queue has waited COAL_TIME µs, and the queue's interrupt message is sent (R261). -/
  | coalesceTimeout (q : BitVec 16)
  /-- A QCTL write with CREATE copies the staged configuration into an absent queue, zeroes its four indices and makes the
  queue ACTIVE (R245). -/
  | qctlCreate (q : BitVec 16)
  /-- A QCTL write with DELETE flushes the queue without posting completions and takes it through DELETING to ABSENT (R266).
  -/
  | qctlDelete (q : BitVec 16)
  /-- A QCTL write with FLUSH latches the producer index, discards unfetched entries and stops or aborts the queue's commands
  at their boundaries (R265). -/
  | qctlFlush (q : BitVec 16)
  /-- A QCTL write with RESUME makes a queue in ERROR fetch again from SQ_ERR_IDX (R263). -/
  | qctlResume (q : BitVec 16)
  /-- A write to CANCEL_DOORBELL closes the egress shutter of one context, or of every context, and cancels it (R269). -/
  | cancelDoorbell (ctx : BitVec 8) (all : Bool)
  /-- A NOP command completes with status 0x0000 and a zero result (R254). -/
  | nop (id : Nat)
  /-- PIPE_LOAD reserves a FREE context and region room, copies and checks the image, and leaves the context LOADED or
  completes with 0x0104 or 0x0301 (R48). -/
  | pipeLoad (id : Nat)
  /-- PIPE_RUN takes the snapshot of Panes, drive map and epoch, assigns home Casements and moves the context to RUNNING, or
  completes at once without reading a strip (R54). -/
  | pipeRun (id : Nat)
  /-- PIPE_CANCEL moves a RUNNING, PARKING or PARKED context through CANCELLING to FAILED (R47). -/
  | pipeCancel (id : Nat)
  /-- PIPE_PARK moves a RUNNING context without FABRIC into PARKING, towards a quiescent cut (R47). -/
  | pipePark (id : Nat)
  /-- PIPE_RESUME checks a PARKED context, restores its chunks and tables and moves it to RUNNING (R448). -/
  | pipeResume (id : Nat)
  /-- PIPE_UNLOAD frees a context, cancelling it first when it is RUNNING or PARKING (R47). -/
  | pipeUnload (id : Nat)
  /-- A STORE checks its extent, waits for free Threshold units, pulls its data into Threshold and the staging area, and then
  commits (R277). -/
  | store (id : Nat)
  /-- Once every unit of a STORE has been written and every earlier overlapping STORE has committed or been discarded, its
  commit record lands and the completion is posted (R277). -/
  | storeCommit (id : Nat)
  /-- The engine drains committed STOREs of a slot to its drive in commit order, with NVMe Write and Flush commands (R279). -/
  | storeDrainWrite (slot : BitVec 6) (outcome : Option (BitVec 15))
  /-- When a STORE's writes and the Flush that covers them complete, its Threshold units are released (R279). -/
  | storeRelease (slot : BitVec 6)
  /-- A FETCH waits for earlier overlapping uncommitted STOREs, then serves each LBA from Threshold or the drive and delivers
  LENGTH bytes (R282). -/
  | fetch (id : Nat) (outcome : Option (BitVec 15))
  /-- STORE_SYNC drains the STOREs of its slot that committed before its dispatch ahead of others, and completes when all of
  them have been released (R280). -/
  | storeSync (id : Nat)
  /-- A DMA command runs its descriptor list on a Hinge channel until DESC_COUNT descriptors have run or TOTAL bytes have
  moved (R341). -/
  | dma (id : Nat)
  /-- A descriptor reaches its boundary; the channel takes the next descriptor, or halts for a pending stop, flush, cancel or
  hold (R342). -/
  | hingeDescriptorDone (n : BitVec 6)
  /-- COMPRESS cuts its input into Bifold blocks and writes them to the destination list in block order (R300). -/
  | compress (id : Nat)
  /-- DECOMPRESS decodes the Bifold block sequence in its input and delivers the uncompressed bytes (R304). -/
  | decompress (id : Nat)
  /-- A DIGEST command allocates a digest context, hashes or HMACs its data list and writes the result to RESULT_ADDR (R319).
  -/
  | digest (id : Nat)
  /-- LOUVRE_LOAD with OP CREATE binds free banks to an unbound table number and loads the entry list into them (R104). -/
  | louvreCreate (id : Nat)
  /-- LOUVRE_LOAD with OP WRITE writes the list into a bound table record by record (R105). -/
  | louvreWrite (id : Nat)
  /-- LOUVRE_LOAD with OP SWAP writes a new copy of a table into free banks and rebinds the table when every LOOKUP has
  switched (R103). -/
  | louvreSwap (id : Nat)
  /-- LOUVRE_LOAD with OP UNLOAD unbinds the banks of a table (R104). -/
  | louvreUnload (id : Nat)
  /-- LOUVRE_SEARCH searches a list of keys in one Casement's copy of a table and writes result records (R112). -/
  | louvreSearch (id : Nat) (fail : Option (BitVec 32 × Bool))
  /-- CACHE_MAINT with OP FLUSH writes back dirty lines of the range and leaves them valid and clean (R206). -/
  | cacheFlush (id : Nat)
  /-- CACHE_MAINT with OP INVALIDATE drops the lines of the range (R206). -/
  | cacheInvalidate (id : Nat)
  /-- CACHE_MAINT with OP FLUSH_INVALIDATE writes back the dirty lines of the range and then drops them (R206). -/
  | cacheFlushInvalidate (id : Nat)
  /-- CACHE_MAINT with OP PRELOAD fills the lines of the range that are not present into the ways of CLASS (R206). -/
  | cachePreload (id : Nat)
  /-- ATTEST with KIND 0 builds and signs an identity report and returns it with Q and the certificate (R332). -/
  | attestIdentity (id : Nat)
  /-- ATTEST with KIND 1 re-signs the kept seal of a DONE context with REISSUE set and the new nonce (R332). -/
  | attestSeal (id : Nat)
  /-- Latch gives one strip of a ready node to an eligible Pane, chosen by the affinity, idle, local and cross steps (R177).
  -/
  | stripDispatch (c : BitVec 2)
  /-- A node finishes a strip: its outputs reach successor queues, its state lines are written back and its residue checks
  have passed (R41). -/
  | nodeStripBoundary (p : BitVec 7) (residue : Option Residue) (verify : Option (BitVec 16 × Bool)) (media : Option (BitVec 6 × BitVec 15))
  /-- Once every source is consumed and every result block closed, the engine forms RESULT_DIGEST, signs the statement and
  writes the seal block as the context enters DONE (R331). -/
  | sealWrite (ctx : BitVec 8)
  /-- A node has stayed ready without dispatch for AGING_TIME and rises one ready list (R176). -/
  | agingTimeout (ctx : BitVec 8) (node : BitVec 10)
  /-- AFFINITY_WAIT passes since a node became ready, which opens the local step of Pane choice (R177). -/
  | affinityWaitExpiry (ctx : BitVec 8) (node : BitVec 10) (lapsed : BitVec 96)
  /-- CROSS_WAIT passes since a node became ready, which lets its strips cross to other Casements (R177). -/
  | crossWaitExpiry (ctx : BitVec 8) (node : BitVec 10)
  /-- A write of one to SELFTEST_REQ holds a Pane and drains its strips so that its self-test can run (R187). -/
  | selftestReq (p : BitVec 7)
  /-- A held Pane holds no strip and no unwritten state; its self-test runs and the Pane rejoins on a pass (R187). -/
  | paneSelftestRun (p : BitVec 7) (pass : Bool)
  /-- A Sill request hits, recalls a line, merges into a miss register, or takes a miss register and issues a fill (R198). -/
  | sillRequest (c : BitVec 2) (ctx : BitVec 8) (node : BitVec 10) (p : BitVec 7) (line : BitVec 35) (cls : SClass) (limit : Option (BitVec 35)) (write : List (BitVec 7 × Byte)) (err : Option SillErr)
  /-- A fill lands; the merged requests receive its data, held maintenance acts and the line is installed or not (R207). -/
  | sillFillLand (c : BitVec 2) (line : BitVec 35)
  /-- An outside write to engine memory invalidates the line in each Sill that may hold it, after writing back its dirty words
  (R200). -/
  | sillInvalidation (addr : BitVec 42) (bytes : Bytes)
  /-- The prefetcher issues a fill ahead of a declared or trained stream, or drops it when no register is free (R204). -/
  | sillPrefetch (c : BitVec 2) (bank : BitVec 4) (stream : BitVec 6)
  /-- Each SCRUB_PERIOD the scrubber reads every bound entry of a bank, checks it against the shadow and repairs it (R115). -/
  | louvreScrubPass (c : BitVec 2) (b : BitVec 2) (repaired : List (BitVec 14)) (lost : List (BitVec 14))
  /-- A free Bifold engine takes the oldest request from its Casement's block queue (R305). -/
  | bifoldBlockStart (c : BitVec 2)
  /-- An engine and its digest lane finish a block, with the decode checks and trailer check applied in order (R302). -/
  | bifoldBlockDone (c : BitVec 2) (e : BitVec 4) (parity : Bool)
  /-- tREFI expires and a pseudo-channel or sub-channel receives an all-bank refresh, with pending SH values applied (R224).
  -/
  | refreshInterval (sub : BitVec 8)
  /-- A controller issues a queued request to a bank under the rotation and row and read-write priority rules (R221). -/
  | memoryRequest (sub : BitVec 8) (err : Option MemErr)
  /-- A channel or rank has held no request for the power-down time and enters power-down (R226). -/
  | powerDownTimeout (sub : BitVec 8) (rank : BitVec 3)
  /-- A stack or DIMM crosses 85 °C, or falls back to 82 °C, and its refresh interval halves or returns to normal (R220). -/
  | memoryHot (unit : BitVec 4) (temp : BitVec 8)
  /-- MC_RETRAIN.GO, a temperature move or an error burst requests a retrain of one memory channel (R229). -/
  | mcRetrainGo (cause : RetrainCause)
  /-- A retrain ends; on failure it is repeated once and a second failure retires the channel (R229). -/
  | memoryRetrainDone (far : Bool) (pass : Bool)
  /-- The remap copy of a near channel ends and every access to the channel goes to far memory (R234). -/
  | remapCopyDone
  /-- The patrol scrubber reads every line of both memories once per SCRUB_PERIOD, correcting or poisoning what it finds
  (R232). -/
  | patrolScrubPass (found : List (BitVec 35 × MemErr))
  /-- PWR_FAIL_N asserts; Jamb stops pulling STORE data, in-progress unit writes and commit records finish, and Threshold
  reaches its safe state (R283). -/
  | pwrFailAssert
  /-- PWR_FAIL_N has been deasserted for 1 ms with power present; PF_SAFE clears and STORE data pulling resumes (R283). -/
  | pwrFailDeassert
  /-- A drive command exceeds NVME_TIMEOUT; its engine command completes MEDIA_ERROR and the drive's controller is reset
  (R287). -/
  | nvmeTimeout (slot : BitVec 6) (work : DriveWork)
  /-- A reset drive is not ready within 10 s and its slot is taken as empty (R287). -/
  | driveReadyTimeout (slot : BitVec 6)
  /-- A drive is removed; its commands end, pipelines that need it fail and its staged STOREs are held (R288). -/
  | driveRemoved (slot : BitVec 6)
  /-- A drive is inserted, trained and enumerated; held STOREs resume when it is the original drive (R288). -/
  | driveInserted (slot : BitVec 6) (drive : DriveSpec)
  /-- THR_DISCARD.GO releases the held STOREs of a slot (R290). -/
  | thrDiscard (slot : BitVec 6)
  /-- A failed read on the host link or a drive port halts every Hinge channel (R346). -/
  | hingeBusError (addr : BitVec 64) (kind : BitVec 3) (port : Bool) (slot : BitVec 6)
  /-- HINGE_CTL.RESTART reruns the abandoned descriptors of channels not aborted and ends the aborted ones (R347). -/
  | hingeRestart
  /-- Software has not restarted Hinge within HALT_TIMEOUT; firmware aborts the host-reading channels and restarts (R347). -/
  | haltTimeoutExpiry
  /-- HINGE_CH_CTL_n.STOP stops a channel at its next descriptor boundary, keeping its list (R343). -/
  | hingeChStop (n : BitVec 6)
  /-- HINGE_CH_CTL_n.GO resumes a stopped channel at its next descriptor (R343). -/
  | hingeChGo (n : BitVec 6)
  /-- A read of DG_CTX_ALLOC allocates the lowest free digest context and returns its number (R312). -/
  | dgCtxAllocRead
  /-- DG_CTL_k.START samples the control fields and declared length and starts a new message (R314). -/
  | dgStart (k : BitVec 6) (control : BitVec 16)
  /-- A write to DG_DATA_k appends 4 or 8 message bytes, or is lost and sets LOST while BUSY reads one (R315). -/
  | dgDataWrite (k : BitVec 6) (wide : Bool) (data : BitVec 64)
  /-- DG_CTL_k.FINAL pads the message or completes the HMAC, and sets DONE with the result, a zero result or a key-store
  delivery (R316). -/
  | dgFinal (k : BitVec 6) (control : BitVec 16)
  /-- DG_CTL_k.RELEASE discards any message in progress and frees the context (R318). -/
  | dgRelease (k : BitVec 6) (control : BitVec 16)
  /-- A read of DG_RESULT_k_i returns the result, or returns zero and sets EARLY before DONE (R317). -/
  | dgResultRead (k : BitVec 6) (word : BitVec 4)
  /-- KS_CMD LOAD copies the window into a slot as type HMAC or VERIFY and computes its tag (R322). -/
  | ksLoad (slot : BitVec 6) (type : BitVec 3) (len : BitVec 8)
  /-- KS_CMD CLEAR sets a key-store slot to EMPTY and zeroes its words (R322). -/
  | ksClear (slot : BitVec 6)
  /-- KS_CMD EXPORT copies a slot's contents into the window, whatever its type (R322). -/
  | ksExport (slot : BitVec 6)
  /-- A write to EPOCH_COMMIT commits the staged membership when it is valid, and fails running pipelines whose snapshot loses
  a node (R355). -/
  | epochCommit (epoch : BitVec 32)
  /-- A DATA frame is accepted in FSEQ order and its fragment placed into the SHUFFLE_IN receive pool, or it is dropped or
  rejected (R360). -/
  | dataFrameRx (port : BitVec 1) (good : Bool) (bytes : Bytes)
  /-- An END frame gives a sender's strip count for the flow, and the input ends once every sender's strips have been emitted
  (R369). -/
  | endFrameRx (port : BitVec 1) (good : Bool) (bytes : Bytes)
  /-- A CREDIT frame carries ACK and returned credit units to the sender (R362). -/
  | creditFrameRx (port : BitVec 1) (good : Bool) (bytes : Bytes)
  /-- A PUT frame from a member writes its payload at TAG + OFFSET and is answered with PUT_ACK (R374). -/
  | putFrameRx (port : BitVec 1) (good : Bool) (bytes : Bytes) (reg : Bool)
  /-- A PUT_ACK acknowledges a PUT frame, and the channel sets DONE when every frame is acknowledged (R374). -/
  | putAckRx (port : BitVec 1) (good : Bool) (bytes : Bytes)
  /-- A HELLO frame shows that a peer sharing a running flow is alive (R361). -/
  | helloRx (port : BitVec 1) (good : Bool) (bytes : Bytes)
  /-- A REJECT reports an epoch mismatch on a flow, and the pipeline fails with MEMBERSHIP_CHANGED (R357). -/
  | rejectRx (port : BitVec 1) (good : Bool) (bytes : Bytes)
  /-- A fabric CANCEL closes the matching contexts' shutters, is forwarded down the 16-ary tree and cancels those contexts
  (R372). -/
  | cancelFrameRx (port : BitVec 1) (good : Bool) (bytes : Bytes)
  /-- A FABRIC pipeline that is cancelled or fails sends CANCEL frames to its tree children and a Sash broadcast (R371). -/
  | fabricCancelSend
  /-- A SHUFFLE_OUT staging strip closes and is sent as DATA frames while credit allows, followed by END after the last strip
  (R365). -/
  | shuffleStripSend (ctx : BitVec 8) (node : BitVec 10)
  /-- The oldest unacknowledged frame has waited RETX_TIME, and the sender resends from it onward (R360). -/
  | retxTimeout (node : BitVec 13)
  /-- With nothing else to send within 10 µs of accepting a frame, the receiver sends a CREDIT frame (R360). -/
  | creditAckTimeout (node : BitVec 13)
  /-- Nothing has been sent to a flow peer for a quarter of PEER_TIMEOUT, so a HELLO is sent (R361). -/
  | helloTimer (node : BitVec 13)
  /-- RETX_LIMIT rounds go unacknowledged, or PEER_TIMEOUT passes in silence, and the peer is lost (R361). -/
  | peerLost (node : BitVec 13) (silent : Bool)
  /-- CANCEL_REPEAT expires and an engine resends its CANCEL frames, twice in all (R372). -/
  | cancelRepeatTimer
  /-- A remembered cancel identity passes 1 s and is forgotten (R372). -/
  | cancelMemoryExpiry
  /-- A fabric port link goes down or up, and frames move to the other allowed port (R353). -/
  | fabricPortLinkChange (port : BitVec 1) (up : Bool)
  /-- TR_PUT_CTL_n.GO starts a PUT channel that sends LEN bytes as PUT frames (R374). -/
  | trPutGo (n : BitVec 2) (node : BitVec 13) (reg : Bool)
  /-- A Sash READ addressed to the engine reads an object value, from its snapshot or current value, and answers READ_RSP
  (R387). -/
  | sashRead (out : Bool) (bytes : Bytes)
  /-- A Sash WRITE piece is assembled and the whole value applied when TOTAL is reached, answered with WRITE_RSP (R388). -/
  | sashWrite (out : Bool) (bytes : Bytes)
  /-- An ENUMERATE gives the engine the address BASE + HOPS, is relayed and is answered with ENUM_ACK (R384). -/
  | enumerate (out : Bool) (bytes : Bytes)
  /-- A Sash CANCEL broadcast is relayed and handed to the cancel logic, which acts as on a fabric CANCEL (R396). -/
  | sashCancelRx (out : Bool) (bytes : Bytes)
  /-- A Sash frame not addressed to the engine is relayed with HOPS incremented, or dropped (R382). -/
  | sashRelay (out : Bool) (bytes : Bytes)
  /-- A Sash chain-in or chain-out link changes state, and a NOTIFY is sent upstream (R385). -/
  | sashLinkChange (out : Bool) (up : Bool)
  /-- A read snapshot or a write assembly left idle for 1 s is discarded (R388). -/
  | sashSnapshotTimeout (assembly : Bool)
  /-- DICT_CTL.READ reads the object named in DICT_ADDR into the window (R392). -/
  | dictRead
  /-- DICT_CTL.WRITE writes LEN bytes of the window to the object named in DICT_ADDR (R392). -/
  | dictWrite
  /-- The flash copy of an RWP write has been programmed, and the response is sent (R394). -/
  | rwpPersistDone
  /-- A write of 0x5253_5444 to RESTORE_DEFAULTS returns every RWP object to its default, persisted as one write (R394). -/
  | restoreDefaults
  /-- A fault source is raised; its counter and sticky bit move, and the reaction of its severity is captured, merged, fenced
  or halted (R418). -/
  | faultSourceRaised (n : BitVec 9) (syndrome : BitVec 128) (injected : Bool)
  /-- A self-timed stage has made no progress for 1 ms, which raises the watchdog source (R420). -/
  | handshakeWatchdog (c : BitVec 2)
  /-- A write of one to FC_REC_STAT_i.VALID clears a collector record and its OVERFLOW (R425). -/
  | fcRecordClear (record : BitVec 7)
  /-- FI_CTL.ARM arms an injection that inverts the check bits of one source's checker (R432). -/
  | fiArm (source : BitVec 9) (bits : BitVec 2) (mode : BitVec 2)
  /-- A write of one to UNFENCE runs a fenced Pane's self-test and returns it to service on a pass (R435). -/
  | unfence (p : BitVec 7) (pass : Bool)
  /-- A write to BANK_UNFENCE self-tests the fenced Louvre banks it names and returns them to service unbound (R435). -/
  | bankUnfence (c : BitVec 2) (mask : BitVec 4) (pass : BitVec 4)
  /-- The always-on and main supplies come into range, and the engine runs its power-up sequence to READY (R438). -/
  | powerOn (board : Option Board) (dimms : List (Option Dimm)) (tests : Tests)
  /-- PWR_CTL.DEVICE_RESET or the DEVICE_RESET object restarts the boot ROM, keeping parked contexts and committed STOREs
  (R436). -/
  | deviceReset (tests : Tests)
  /-- PERST_N is asserted; the engine resets with the scope of an FLR and retrains the host link (R436). -/
  | linkReset
  /-- A PCI Express FLR makes every queue ABSENT, drops every command and frees every context that is not PARKED (R267). -/
  | functionLevelReset
  /-- SHELF_DARK is asserted; queues are flushed, contexts park or are cancelled, and state is gathered into the parking
  segment (R444). -/
  | shelfDarkAssert
  /-- Parking is gathered and the memories are in self-refresh, so PARK_OK is asserted and the state is PARKED (R444). -/
  | parkOkAssert (tests : Tests)
  /-- SHELF_DARK is deasserted; the engine resumes, retrains memory, rebuilds slot 0 and reaches READY (R447). -/
  | shelfDarkDeassert (tests : Tests)
  /-- A Casement has been without work for CASEMENT_GATE_TIME and is power-gated (R443). -/
  | casementGateTimeout (c : BitVec 2)
  /-- A node homed on a gated Casement becomes ready, or a block is handed to it, and the Casement is ungated (R443). -/
  | casementUngate (c : BitVec 2)
  /-- The idle conditions have held for IDLE_TIME, and the engine enters IDLE with both memories in self-refresh (R443). -/
  | idleTimeout
  /-- A doorbell, BAR4 access, dictionary write or fabric frame ends IDLE (R443). -/
  | idleExit
  /-- A junction reaches 125 °C; THERMTRIP_N asserts and the engine halts (R463). -/
  | thermtrip
  /-- No REFCLK edge arrives for 1 µs, which raises source 474 (R468). -/
  | refclkLoss
  /-- Every 1 ms firmware sends a new VDD_CORE target by the mode in effect or the override (R467). -/
  | avsStep (vout : BitVec 12) (iout : BitVec 10) (drifted : Bool) (temps : List (Option (BitVec 8)))
  /-- A measurement window closes and every field of CRATE_Cc is replaced together (R27). -/
  | crateWindowClose (windows : List Crate)
  /-- LM_CMD FLASH_WRITE programs an image into the slot not booted and checks it (R452). -/
  | flashWrite (slot : BitVec 1) (micro : Bool) (flashError : Bool)
  /-- LM_CMD ACTIVATE_LINTEL holds dispatch and hands Lintel state to the image in the named slot (R452). -/
  | activateLintel (slot : BitVec 1) (starts : Bool)
  /-- The new Lintel image has not reported start within 15 ms, and the cores return to the old image (R452). -/
  | handoffTimeout
  /-- LM_CMD ACTIVATE_CASEMENT checks microcode, drains and flushes a Casement, loads the microcode, self-tests and returns it
  to service (R451). -/
  | activateCasement (c : BitVec 2) (slot : BitVec 1) (pass : Bool)
  /-- LM_CMD COMMIT rewrites the boot record to prefer the running slot and clears TRIAL (R452). -/
  | firmwareCommit (flashError : Bool)
  /-- LM_CMD RECOVER reads a firmware image from host memory, checks it and runs it (R441). -/
  | recover (tests : Tests)
  /-- FUSE_CTL.READ reads a fuse word into FUSE_DATA (R456). -/
  | fuseRead (word : BitVec 7)
  /-- FUSE_CTL.PROGRAM burns the one bits of FUSE_DATA into a fuse word (R456). -/
  | fuseProgram (word : BitVec 7)
  /-- A host access through BAR4 reads or writes engine memory at the aperture base, with coherence and poison rules (R413).
  -/
  | bar4Access (off : BitVec 36) (access : BarAccess)
  /-- A write to a register that has no row of its own applies all its fields at one moment, under its access types (R402). -/
  | registerWrite (polled : Bool) (off : BitVec 26) (width : BitVec 4) (value : BitVec 64)
  /-- The supplies leave their range, cutting short whatever is in progress; uncommitted STOREs, unparked contexts and
  volatile state are lost (R284). -/
  | powerLoss (always : Bool)
  /-- REFCLK edges return after a loss, and the engine restarts from step 2 of R438 with parked contexts lost (R468). -/
  | refclkReturn (tests : Tests)
  /-- PERST_N is deasserted, ending the link reset and letting the host link train (R438). -/
  | perstNDeassert
  /-- A PFC pause frame arrives on a fabric port and holds transmission of the paused classes, class 7 excepted (R363). -/
  | pfcPauseRx (port : BitVec 1) (named : BitVec 7) (paused : BitVec 7)
  /-- A drive whose controller was reset after a timeout becomes ready again, and its waiting commands proceed (R287). -/
  | driveReadyAgain (slot : BitVec 6)
  /-- The control digest unit finishes compressing a buffered block of a context, freeing an input buffer so that BUSY clears,
  or folding a result block into a running seal digest (R313). -/
  | digestBlockCompressed (work : DigestWork)
deriving DecidableEq, Repr

end Sys2Proof
end

