-- ==== Sys2Proof/WellFormed.lean ====
section
/-!
DEFINITION. Which commands are well formed: operands whose type is wider than what the spec numbers lie within it.
-/

namespace Sys2Proof

open Sys2Proof.Machine

/-- A command whose operands lie within what the spec numbers: Panes below 96 (R18), drive slots below 48 (R286), Bifold engines
below 12 (R294), sub-channels below 208 (R221), records below 105 (R421), error kinds 1 to 4 (R346), writes of 1, 2, 4 or 8
bytes (R399), and lists as long as what they speak of. -/
def Instr.wellFormed : Instr → Bool
  | .sqProducerDoorbell _ width _ => [8, 16, 32, 64].contains width.toNat
  | .cqConsumerDoorbell _ width _ => [8, 16, 32, 64].contains width.toNat
  | .entryFetch _ => true
  | .commandDispatch _ => true
  | .completionPost _ => true
  | .coalesceTimeout _ => true
  | .qctlCreate _ => true
  | .qctlDelete _ => true
  | .qctlFlush _ => true
  | .qctlResume _ => true
  | .cancelDoorbell _ _ => true
  | .nop _ => true
  | .pipeLoad _ => true
  | .pipeRun _ => true
  | .pipeCancel _ => true
  | .pipePark _ => true
  | .pipeResume _ => true
  | .pipeUnload _ => true
  | .store _ => true
  | .storeCommit _ => true
  | .storeDrainWrite slot _ => decide (slot.toNat < 48)
  | .storeRelease slot => decide (slot.toNat < 48)
  | .fetch _ _ => true
  | .storeSync _ => true
  | .dma _ => true
  | .hingeDescriptorDone _ => true
  | .compress _ => true
  | .decompress _ => true
  | .digest _ => true
  | .louvreCreate _ => true
  | .louvreWrite _ => true
  | .louvreSwap _ => true
  | .louvreUnload _ => true
  | .louvreSearch _ _ => true
  | .cacheFlush _ => true
  | .cacheInvalidate _ => true
  | .cacheFlushInvalidate _ => true
  | .cachePreload _ => true
  | .attestIdentity _ => true
  | .attestSeal _ => true
  | .stripDispatch _ => true
  | .nodeStripBoundary p _ _ media => decide (p.toNat < 96) && media.all (fun m => decide (m.1.toNat < 48))
  | .sealWrite _ => true
  | .agingTimeout _ _ => true
  | .affinityWaitExpiry _ _ _ => true
  | .crossWaitExpiry _ _ => true
  | .selftestReq p => decide (p.toNat < 96)
  | .paneSelftestRun p _ => decide (p.toNat < 96)
  | .sillRequest _ _ _ p _ _ _ _ _ => decide (p.toNat < 96)
  | .sillFillLand _ _ => true
  | .sillInvalidation _ _ => true
  | .sillPrefetch _ _ _ => true
  | .louvreScrubPass _ _ _ _ => true
  | .bifoldBlockStart _ => true
  | .bifoldBlockDone _ e _ => decide (e.toNat < 12)
  | .refreshInterval sub => decide (sub.toNat < 208)
  | .memoryRequest sub _ => decide (sub.toNat < 208)
  | .powerDownTimeout sub _ => decide (sub.toNat < 208)
  | .memoryHot unit _ => decide (unit.toNat < 14)
  | .mcRetrainGo _ => true
  | .memoryRetrainDone _ _ => true
  | .remapCopyDone => true
  | .patrolScrubPass _ => true
  | .pwrFailAssert => true
  | .pwrFailDeassert => true
  | .nvmeTimeout slot _ => decide (slot.toNat < 48)
  | .driveReadyTimeout slot => decide (slot.toNat < 48)
  | .driveRemoved slot => decide (slot.toNat < 48)
  | .driveInserted slot _ => decide (slot.toNat < 48)
  | .thrDiscard _ => true
  | .hingeBusError _ kind _ slot => decide (1 ≤ kind.toNat ∧ kind.toNat ≤ 4) && decide (slot.toNat < 48)
  | .hingeRestart => true
  | .haltTimeoutExpiry => true
  | .hingeChStop _ => true
  | .hingeChGo _ => true
  | .dgCtxAllocRead => true
  | .dgStart _ _ => true
  | .dgDataWrite _ _ _ => true
  | .dgFinal _ _ => true
  | .dgRelease _ _ => true
  | .dgResultRead _ _ => true
  | .ksLoad _ _ _ => true
  | .ksClear _ => true
  | .ksExport _ => true
  | .epochCommit _ => true
  | .dataFrameRx _ _ _ => true
  | .endFrameRx _ _ _ => true
  | .creditFrameRx _ _ _ => true
  | .putFrameRx _ _ _ _ => true
  | .putAckRx _ _ _ => true
  | .helloRx _ _ _ => true
  | .rejectRx _ _ _ => true
  | .cancelFrameRx _ _ _ => true
  | .fabricCancelSend => true
  | .shuffleStripSend _ _ => true
  | .retxTimeout _ => true
  | .creditAckTimeout _ => true
  | .helloTimer _ => true
  | .peerLost _ _ => true
  | .cancelRepeatTimer => true
  | .cancelMemoryExpiry => true
  | .fabricPortLinkChange _ _ => true
  | .trPutGo _ _ _ => true
  | .sashRead _ _ => true
  | .sashWrite _ _ => true
  | .enumerate _ _ => true
  | .sashCancelRx _ _ => true
  | .sashRelay _ _ => true
  | .sashLinkChange _ _ => true
  | .sashSnapshotTimeout _ => true
  | .dictRead => true
  | .dictWrite => true
  | .rwpPersistDone => true
  | .restoreDefaults => true
  | .faultSourceRaised _ _ _ => true
  | .handshakeWatchdog _ => true
  | .fcRecordClear record => decide (record.toNat < 105)
  | .fiArm _ _ _ => true
  | .unfence p _ => decide (p.toNat < 96)
  | .bankUnfence _ _ _ => true
  | .powerOn board dimms _ => dimms.length == 16 && board.all (fun b => decide (b.boot.length ≤ 2 ∧ b.persisted.length ≤ 2))
  | .deviceReset _ => true
  | .linkReset => true
  | .functionLevelReset => true
  | .shelfDarkAssert => true
  | .parkOkAssert _ => true
  | .shelfDarkDeassert _ => true
  | .casementGateTimeout _ => true
  | .casementUngate _ => true
  | .idleTimeout => true
  | .idleExit => true
  | .thermtrip => true
  | .refclkLoss => true
  | .avsStep _ _ _ temps => temps.length == 15
  | .crateWindowClose windows => windows.length == 4
  | .flashWrite _ _ _ => true
  | .activateLintel _ _ => true
  | .handoffTimeout => true
  | .activateCasement _ _ _ => true
  | .firmwareCommit _ => true
  | .recover _ => true
  | .fuseRead _ => true
  | .fuseProgram _ => true
  | .bar4Access _ access => (match access with | .read n => decide (n.toNat ≤ 4096) | .write b => decide (b.length ≤ 4096))
  | .registerWrite _ _ width _ => [1, 2, 4, 8].contains width.toNat
  | .powerLoss _ => true
  | .refclkReturn _ => true
  | .perstNDeassert => true
  | .pfcPauseRx _ _ _ => true
  | .driveReadyAgain slot => decide (slot.toNat < 48)
  | .digestBlockCompressed _ => true

end Sys2Proof
end

