-- ==== Sys2Proof/Config.lean ====
section
/-!
DEFINITION. What the spec leaves open, as constants without a body, and the figures it fixes for the device.
-/

namespace Sys2Proof

/-- Value number k of the values the spec leaves open (assumption log 10). -/
opaque Config.freeValue : Nat → BitVec 64

/-- The DEFLATE body the match finder builds for a block at an effort; R298 does not give its hash and tie rules
(assumption log 10). -/
opaque Config.deflateBody : Nat → Bytes → Bytes

/-- Granules of one far-memory row, less one; R217 does not give the row size (assumption log 10). -/
opaque Config.farRowGranules : Nat

/-- Bytes that parking gathers for the context record and the node state areas of a pipeline of n nodes; R445 does not
give their sizes (assumption log 10). -/
opaque Config.parkState : Nat → Nat

/-- HINGE_CH_NEXT for descriptor i of an inline list: R350 gives no address for a descriptor that lies in a command's own
entry (assumption log 10). -/
opaque Config.inlineNext : Nat → BitVec 64

/-- One GiB. -/
def Config.gib : Nat := 2 ^ 30

/-- First engine address of far memory (R215). -/
def Config.farBase : Nat := 0x02000000_0000

/-- First engine address beyond the engine address space (R413). -/
def Config.engineEnd : Nat := 0x04000000_0000

/-- Contexts, Panes, Casements, drive slots, Threshold units and queues. -/
def Config.contexts : Nat := 256
/-- Panes in the device (R18). -/
def Config.panes : Nat := 96
/-- Drive slots (R286). -/
def Config.slots : Nat := 48
/-- Threshold units (R273). -/
def Config.units : Nat := 1024
/-- Bytes of a Threshold unit (R273). -/
def Config.unitBytes : Nat := 262144

end Sys2Proof
end

