-- ==== Sys2Proof/Machine/Bits.lean ====
section
/-!
DEFINITION. Bit fields, little-endian bytes (R14) and sparse tables: the helpers every chapter uses.
-/

namespace Sys2Proof.Machine

/-- Bits [hi:lo] of a number. -/
def bits (n hi lo : Nat) : Nat := (n >>> lo) % 2 ^ (hi + 1 - lo)

/-- Bit i of a number. -/
def bitAt (n i : Nat) : Bool := (n >>> i) % 2 == 1

/-- A Bool as a field of one bit. -/
def b2n (b : Bool) : Nat := if b then 1 else 0

/-- n with bit i set to b. -/
def setBit (n i : Nat) (b : Bool) : Nat :=
  let cleared := n - (if bitAt n i then 2 ^ i else 0)
  if b then cleared + 2 ^ i else cleared

/-- The set bits of n among its low w bits, ascending. -/
def setBits (n w : Nat) : List Nat := (List.range w).filter (bitAt n)

/-- How many of the low w bits of n are set. -/
def popCount (n w : Nat) : Nat := (setBits n w).length

/-- Sum capped at a register's largest value (a saturating counter). -/
def satAdd (w a b : Nat) : Nat := min (a + b) (2 ^ w - 1)

/-- The number the first n bytes spell, little-endian (R14). -/
def leNat : Bytes → Nat
  | [] => 0
  | b :: bs => b.toNat + 256 * leNat bs

/-- The number the bytes spell, most significant first. -/
def beNat (bs : Bytes) : Nat := bs.foldl (fun a b => a * 256 + b.toNat) 0

/-- n bytes of v, little-endian. -/
def leBytes : Nat → Nat → Bytes
  | 0, _ => []
  | n + 1, v => BitVec.ofNat 8 v :: leBytes n (v / 256)

/-- n bytes of v, most significant first. -/
def beBytes (n v : Nat) : Bytes := (leBytes n v).reverse

/-- The n-byte field at offset o of a record; bytes past its end read zero. -/
def fieldAt (bs : Bytes) (o n : Nat) : Nat := leNat ((bs.drop o).take n)

/-- n bytes at offset o of a record, padded with zeros. -/
def sliceAt (bs : Bytes) (o n : Nat) : Bytes :=
  let s := (bs.drop o).take n
  s ++ List.replicate (n - s.length) 0

/-- A run of zero bytes. -/
def zeros (n : Nat) : Bytes := List.replicate n 0

/-- bs padded with zeros to n bytes, or cut to n bytes. -/
def fit (n : Nat) (bs : Bytes) : Bytes := sliceAt bs 0 n

/-- n rounded up to a multiple of m (m as it stands where m is 0). -/
def roundUp (n m : Nat) : Nat := if m = 0 then n else (n + m - 1) / m * m

/-- n divided by m, rounded up. -/
def ceilDiv (n m : Nat) : Nat := if m = 0 then 0 else (n + m - 1) / m

/-- Two's complement reading of the low w bits. -/
def toSigned (w n : Nat) : Int :=
  let v := n % 2 ^ w
  if v < 2 ^ (w - 1) then Int.ofNat v else Int.ofNat v - 2 ^ w

/-- The low w bits of an integer, two's complement. -/
def ofSigned (w : Nat) (i : Int) : Nat := (i % (2 ^ w : Int)).toNat

/-- A name's bytes: one byte per character. -/
def asciiBytes (s : String) : Bytes := s.toList.map (fun c => BitVec.ofNat 8 c.toNat)

/-- What a key reads as. -/
def Sparse.get {α : Type} (dflt : α) : Sparse α → Nat → α
  | [], _ => dflt
  | (k', v) :: rest, k => if k = k' then v else Sparse.get dflt rest k

/-- Drop a key. -/
def Sparse.erase {α : Type} (m : Sparse α) (k : Nat) : Sparse α := m.filter (fun p => decide (p.1 ≠ k))

/-- Put a value under a key, keeping the keys rising. -/
def Sparse.insert {α : Type} : Sparse α → Nat → α → Sparse α
  | [], k, v => [(k, v)]
  | (k', v') :: rest, k, v =>
    if k = k' then (k, v) :: rest
    else if k < k' then (k, v) :: (k', v') :: rest
    else (k', v') :: Sparse.insert rest k v

/-- Write a key; writing the default removes the entry. -/
def Sparse.set {α : Type} [DecidableEq α] (dflt : α) (m : Sparse α) (k : Nat) (v : α) : Sparse α :=
  if v = dflt then Sparse.erase m k else Sparse.insert m k v

/-- Change what a key reads as. -/
def Sparse.modify {α : Type} [DecidableEq α] (dflt : α) (m : Sparse α) (k : Nat) (f : α → α) : Sparse α :=
  Sparse.set dflt m k (f (Sparse.get dflt m k))

/-- The keys an update touches, each written in turn. -/
def Sparse.setAll {α : Type} [DecidableEq α] (dflt : α) (m : Sparse α) : List (Nat × α) → Sparse α
  | [] => m
  | (k, v) :: rest => Sparse.setAll dflt (Sparse.set dflt m k v) rest

/-- Strictly rising keys and no default: the canonical form. -/
def Sparse.wf {α : Type} [DecidableEq α] (dflt : α) : Sparse α → Bool
  | [] => true
  | [(_, v)] => decide (v ≠ dflt)
  | (k, v) :: (k', v') :: rest => decide (k < k') && decide (v ≠ dflt) && Sparse.wf dflt ((k', v') :: rest)

end Sys2Proof.Machine
end

