-- ==== Sys2Proof/Machine/RegTable.lean ====
section
/-!
DEFINITION. The register tables of BAR0 (R4, R26, R53, R91, R117, R190, R213, R236, R271, R290, R309, R334, R350,
R376, R391, R412, R434, R455, R456, R457, R476), placed as R414 and R415 lay BAR0 out: one row per register, one
field row per field, with its access type (R15) and its reset value (R416).
-/

namespace Sys2Proof.Machine

/-- The access types of R15 and R400. -/
inductive Acc where
  | ro | rw | wo | w1c | w1s | rwh | sh
deriving DecidableEq, Repr

/-- The registers of BAR0. -/
inductive RegName where
  | IDENT | IDENT_VENDOR | GL_STAT | APT_BASE | TEST_CTL | PCTX_STAT | LM_STAT | LM_CMD
  | LM_ADDR_LO | LM_ADDR_HI | LM_LEN | LM_RESULT | DICT_ADDR | DICT_LEN | DICT_CTL | DICT_STAT
  | DICT_TOTAL | DICT_DATA | CS_STAT | CS_MC_VER | LT_STAT | LT_PANE_HOLD | LT_PANE_BUSY | LT_CTL
  | LT_DISPATCH_LO | LT_DISPATCH_HI | LT_REDISPATCH | SL_CTL | SL_WAYS | SL_PF_CTL | SL_STAT | SL_HIT_LO
  | SL_HIT_HI | SL_MISS_LO | SL_MISS_HI | SL_PF | SL_RECALL | SL_ECC | SL_STALL | LV_BANK_STAT
  | LV_VERIFY_STAT | LV_CTL | BF_STAT | BF_CTL | BF_OUT | BF_ERR | PN_ARITH_STAT | JB_STAT
  | JB_BACKLOG | QCTL | CANCEL_DOORBELL | JB_BADDB | QSEL | QCFG_SQ_LO | QCFG_SQ_HI | QCFG_CQ_LO
  | QCFG_CQ_HI | QCFG_MIR_LO | QCFG_MIR_HI | QCFG_SIZE | QCFG_IRQ | QI_SQ_PIDX | QI_SQ_CIDX | QI_CQ_CIDX
  | SQ_ERR_IDX | QSTAT | CQ_PIDX | CQSTAT | HINGE_STAT | HINGE_CTL | HINGE_ABORT_LO | HINGE_ABORT_HI
  | HINGE_ERR_ADDR_LO | HINGE_ERR_ADDR_HI | HINGE_ERR_INFO | HINGE_CH_STAT | HINGE_CH_DONE | HINGE_CH_TAG | HINGE_CH_NEXT_LO | HINGE_CH_NEXT_HI
  | HINGE_CH_CTL | DG_CTX_ALLOC | DG_CTX_FREE | KS_CMD | KS_STAT | KS_DATA | KS_META | DG_CTL
  | DG_LEN_LO | DG_LEN_HI | DG_DATA | DG_STAT | DG_COUNT_LO | DG_COUNT_HI | DG_RESULT | MC_STAT
  | MC_RETRAIN | MC_CTL | MC_PD | MC_ECC_NEAR | MC_ECC_FAR | MC_TEMP | MC_TOVR | TR_STAT
  | TR_EPOCH | TR_NODE | TR_CTL | TR_PUT_SRC_LO | TR_PUT_SRC_HI | TR_PUT_DST_LO | TR_PUT_DST_HI | TR_PUT_LEN
  | TR_PUT_CTL | TR_PUT_STAT | FC_STAT | FI_CTL | FI_STAT | FC_STICKY | FC_SRC | FC_REC_STAT
  | FC_REC_SYN | FC_REC_TIME_LO | FC_REC_TIME_HI | DP_STAT | DP_EVENT_LO | DP_EVENT_HI | DP_SLOT | THR_STAT
  | THR_HELD_LO | THR_HELD_HI | THR_DISCARD | THR_WEAR | PWR_STAT | PWR_CTL | TB_LO | TB_HI
  | AVS_STAT | AVS_TARGET | AVS_OVR | CRATE_C | CRATE_CTL | FUSE_CTL | FUSE_DATA | SENS_TEMP
deriving DecidableEq, Repr

/-- One field of a register: bits [hi:lo], access type and reset value. -/
structure FieldRow where
  hi : Nat
  lo : Nat
  acc : Acc
  reset : Nat
deriving DecidableEq, Repr

/-- One register, or an array of them: its offset in BAR0, and the stride and count of each array index. -/
structure RegRow where
  reg : RegName
  base : Nat
  dims : List (Nat × Nat)
  fields : List FieldRow
deriving DecidableEq, Repr

/-- A field by name: where it is kept, its width and the value it reads as while nothing has written it. -/
structure Fld where
  key : Nat
  width : Nat
  reset : Nat
deriving DecidableEq, Repr

/-- The key of the field whose low bit is bit lo of the register at offset off. -/
def fldKey (off lo : Nat) : Nat := off * 32 + lo

/-- The default severity of each fault source (R420); a reserved source holds 0. -/
def faultDefault (n : Nat) : Nat :=
  if n < 384 then [3, 1, 2, 3].getD (n % 4) 0
  else if n < 448 then [1, 2, 1, 4, 3, 3, 1, 4, 4, 3, 0, 4, 4, 1].getD ((n - 384) % 16) 0
  else [1, 2, 3, 1, 2, 3, 1, 0, 0, 2, 1, 1, 5, 1, 1, 0, 0, 1, 1, 1, 1, 1, 1, 5, 1, 1, 5, 5, 0, 5].getD (n - 448) 0

/-- The sources R420 lists; every other number is reserved and never raised. -/
def faultListed (n : Nat) : Bool :=
  if n < 384 then true
  else if n < 448 then (n - 384) % 16 ≤ 13
  else n ≤ 477 && n != 455

/-- Register rows, part 0. -/
def regRows0 : List RegRow := [
  ⟨.IDENT, 0x0, [], [⟨31, 16, .ro, 0x7840⟩, ⟨15, 8, .ro, 0xF1⟩, ⟨7, 0, .ro, 0xB1⟩]⟩,
  ⟨.IDENT_VENDOR, 0x4, [], [⟨31, 16, .ro, 0x0⟩, ⟨15, 0, .ro, 0x1E7C⟩]⟩,
  ⟨.GL_STAT, 0x8, [], [⟨5, 0, .w1c, 0x0⟩, ⟨15, 6, .ro, 0x0⟩, ⟨31, 16, .rwh, 0x0⟩]⟩,
  ⟨.APT_BASE, 0xC, [], [⟨11, 0, .rw, 0x0⟩, ⟨31, 12, .ro, 0x0⟩]⟩,
  ⟨.TEST_CTL, 0x10, [], [⟨3, 0, .rw, 0x0⟩, ⟨7, 4, .rw, 0x0⟩, ⟨23, 8, .rw, 0x2D9B⟩, ⟨31, 24, .ro, 0x0⟩]⟩,
  ⟨.PCTX_STAT, 0x1000, [(0x4, 256)], [⟨3, 0, .ro, 0x0⟩, ⟨4, 4, .ro, 0x0⟩, ⟨5, 5, .ro, 0x0⟩, ⟨15, 6, .ro, 0x0⟩, ⟨31, 16, .ro, 0x0⟩]⟩,
  ⟨.LM_STAT, 0x10000, [], [⟨3, 0, .ro, 0x0⟩, ⟨4, 4, .ro, 0x0⟩, ⟨5, 5, .ro, 0x0⟩, ⟨6, 6, .ro, 0x0⟩, ⟨7, 7, .ro, 0x0⟩, ⟨10, 8, .ro, 0x0⟩, ⟨13, 11, .ro, 0x0⟩, ⟨31, 14, .ro, 0x0⟩]⟩,
  ⟨.LM_CMD, 0x10004, [], [⟨3, 0, .rw, 0x0⟩, ⟨4, 4, .rw, 0x0⟩, ⟨5, 5, .rw, 0x0⟩, ⟨7, 6, .rw, 0x0⟩, ⟨15, 8, .rw, 0x0⟩, ⟨16, 16, .w1s, 0x0⟩, ⟨31, 17, .ro, 0x0⟩]⟩,
  ⟨.LM_ADDR_LO, 0x10008, [], [⟨31, 0, .rw, 0x0⟩]⟩,
  ⟨.LM_ADDR_HI, 0x1000C, [], [⟨31, 0, .rw, 0x0⟩]⟩]

/-- Register rows, part 1. -/
def regRows1 : List RegRow := [
  ⟨.LM_LEN, 0x10010, [], [⟨24, 0, .rw, 0x0⟩, ⟨31, 25, .ro, 0x0⟩]⟩,
  ⟨.LM_RESULT, 0x10014, [], [⟨3, 0, .ro, 0x0⟩, ⟨7, 4, .ro, 0x0⟩, ⟨10, 8, .ro, 0x0⟩, ⟨30, 11, .ro, 0x0⟩, ⟨31, 31, .w1c, 0x0⟩]⟩,
  ⟨.DICT_ADDR, 0x18000, [], [⟨15, 0, .rw, 0x0⟩, ⟨23, 16, .rw, 0x0⟩, ⟨31, 24, .rw, 0x0⟩]⟩,
  ⟨.DICT_LEN, 0x18004, [], [⟨12, 0, .rw, 0x0⟩, ⟨31, 13, .ro, 0x0⟩]⟩,
  ⟨.DICT_CTL, 0x18008, [], [⟨0, 0, .w1s, 0x0⟩, ⟨1, 1, .w1s, 0x0⟩, ⟨7, 2, .rw, 0x0⟩, ⟨15, 8, .rw, 0xD1⟩, ⟨31, 16, .ro, 0x0⟩]⟩,
  ⟨.DICT_STAT, 0x1800C, [], [⟨0, 0, .ro, 0x0⟩, ⟨1, 1, .w1c, 0x0⟩, ⟨2, 2, .w1c, 0x0⟩, ⟨3, 3, .ro, 0x0⟩, ⟨30, 4, .ro, 0x0⟩, ⟨31, 31, .ro, 0x0⟩]⟩,
  ⟨.DICT_TOTAL, 0x18010, [], [⟨12, 0, .ro, 0x0⟩, ⟨31, 13, .ro, 0x0⟩]⟩,
  ⟨.DICT_DATA, 0x19000, [(0x4, 1024)], [⟨31, 0, .rw, 0x0⟩]⟩,
  ⟨.CS_STAT, 0x100000, [(0x100000, 4)], [⟨2, 0, .ro, 0x1⟩, ⟨31, 3, .ro, 0x0⟩]⟩,
  ⟨.CS_MC_VER, 0x100004, [(0x100000, 4)], [⟨31, 0, .ro, 0x0⟩]⟩]

/-- Register rows, part 2. -/
def regRows2 : List RegRow := [
  ⟨.LT_STAT, 0x110000, [(0x100000, 4)], [⟨15, 0, .ro, 0x0⟩, ⟨28, 16, .ro, 0x0⟩, ⟨29, 29, .ro, 0x0⟩, ⟨30, 30, .ro, 0x0⟩, ⟨31, 31, .ro, 0x0⟩]⟩,
  ⟨.LT_PANE_HOLD, 0x110004, [(0x100000, 4)], [⟨23, 0, .rwh, 0x0⟩, ⟨31, 24, .ro, 0x0⟩]⟩,
  ⟨.LT_PANE_BUSY, 0x110008, [(0x100000, 4)], [⟨23, 0, .ro, 0x0⟩, ⟨31, 24, .ro, 0x0⟩]⟩,
  ⟨.LT_CTL, 0x11000C, [(0x100000, 4)], [⟨0, 0, .rw, 0x0⟩, ⟨1, 1, .sh, 0x0⟩, ⟨7, 2, .rw, 0x0⟩, ⟨15, 8, .rw, 0xA5⟩, ⟨31, 16, .ro, 0x0⟩]⟩,
  ⟨.LT_DISPATCH_LO, 0x110010, [(0x100000, 4)], [⟨31, 0, .rwh, 0x0⟩]⟩,
  ⟨.LT_DISPATCH_HI, 0x110014, [(0x100000, 4)], [⟨31, 0, .rwh, 0x0⟩]⟩,
  ⟨.LT_REDISPATCH, 0x110018, [(0x100000, 4)], [⟨15, 0, .rwh, 0x0⟩, ⟨31, 16, .rwh, 0x0⟩]⟩,
  ⟨.SL_CTL, 0x120000, [(0x100000, 4)], [⟨0, 0, .rw, 0x1⟩, ⟨7, 1, .rw, 0x0⟩, ⟨15, 8, .rw, 0x3C⟩, ⟨31, 16, .ro, 0x0⟩]⟩,
  ⟨.SL_WAYS, 0x120004, [(0x100000, 4)], [⟨15, 0, .rw, 0xF⟩, ⟨31, 16, .rw, 0xFFF0⟩]⟩,
  ⟨.SL_PF_CTL, 0x120008, [(0x100000, 4)], [⟨6, 0, .rw, 0x10⟩, ⟨7, 7, .rw, 0x0⟩, ⟨11, 8, .rw, 0x2⟩, ⟨15, 12, .rw, 0x8⟩, ⟨31, 16, .ro, 0x0⟩]⟩]

/-- Register rows, part 3. -/
def regRows3 : List RegRow := [
  ⟨.SL_STAT, 0x12000C, [(0x100000, 4)], [⟨7, 0, .ro, 0x0⟩, ⟨16, 8, .ro, 0x0⟩, ⟨30, 17, .ro, 0x0⟩, ⟨31, 31, .ro, 0x0⟩]⟩,
  ⟨.SL_HIT_LO, 0x120010, [(0x100000, 4)], [⟨31, 0, .rwh, 0x0⟩]⟩,
  ⟨.SL_HIT_HI, 0x120014, [(0x100000, 4)], [⟨31, 0, .rwh, 0x0⟩]⟩,
  ⟨.SL_MISS_LO, 0x120018, [(0x100000, 4)], [⟨31, 0, .rwh, 0x0⟩]⟩,
  ⟨.SL_MISS_HI, 0x12001C, [(0x100000, 4)], [⟨31, 0, .rwh, 0x0⟩]⟩,
  ⟨.SL_PF, 0x120020, [(0x100000, 4)], [⟨15, 0, .rwh, 0x0⟩, ⟨31, 16, .rwh, 0x0⟩]⟩,
  ⟨.SL_RECALL, 0x120024, [(0x100000, 4)], [⟨15, 0, .rwh, 0x0⟩, ⟨31, 16, .rwh, 0x0⟩]⟩,
  ⟨.SL_ECC, 0x120028, [(0x100000, 4)], [⟨15, 0, .rwh, 0x0⟩, ⟨31, 16, .rwh, 0x0⟩]⟩,
  ⟨.SL_STALL, 0x12002C, [(0x100000, 4)], [⟨31, 0, .rwh, 0x0⟩]⟩,
  ⟨.LV_BANK_STAT, 0x140000, [(0x100000, 4), (0x4, 4)], [⟨5, 0, .ro, 0x0⟩, ⟨6, 6, .ro, 0x0⟩, ⟨7, 7, .ro, 0x0⟩, ⟨22, 8, .ro, 0x0⟩, ⟨23, 23, .ro, 0x0⟩, ⟨24, 24, .ro, 0x0⟩, ⟨25, 25, .ro, 0x0⟩, ⟨30, 26, .ro, 0x0⟩, ⟨31, 31, .ro, 0x0⟩]⟩]

/-- Register rows, part 4. -/
def regRows4 : List RegRow := [
  ⟨.LV_VERIFY_STAT, 0x140010, [(0x100000, 4)], [⟨15, 0, .rwh, 0x0⟩, ⟨31, 16, .rwh, 0x0⟩]⟩,
  ⟨.LV_CTL, 0x140020, [(0x100000, 4)], [⟨3, 0, .sh, 0x0⟩, ⟨7, 4, .rw, 0x0⟩, ⟨15, 8, .rw, 0x5A⟩, ⟨31, 16, .ro, 0x0⟩]⟩,
  ⟨.BF_STAT, 0x160000, [(0x100000, 4)], [⟨11, 0, .ro, 0x0⟩, ⟨18, 12, .ro, 0x0⟩, ⟨30, 19, .ro, 0x0⟩, ⟨31, 31, .ro, 0x0⟩]⟩,
  ⟨.BF_CTL, 0x160004, [(0x100000, 4)], [⟨11, 0, .sh, 0x0⟩, ⟨15, 12, .rw, 0x0⟩, ⟨23, 16, .rw, 0xC3⟩, ⟨31, 24, .ro, 0x0⟩]⟩,
  ⟨.BF_OUT, 0x160008, [(0x100000, 4)], [⟨15, 0, .rwh, 0x0⟩, ⟨31, 16, .rwh, 0x0⟩]⟩,
  ⟨.BF_ERR, 0x16000C, [(0x100000, 4)], [⟨15, 0, .rwh, 0x0⟩, ⟨31, 16, .rwh, 0x0⟩]⟩,
  ⟨.PN_ARITH_STAT, 0x180040, [(0x100000, 4), (0x1000, 24)], [⟨15, 0, .rwh, 0x0⟩, ⟨31, 16, .rwh, 0x0⟩]⟩,
  ⟨.JB_STAT, 0x500000, [], [⟨15, 0, .ro, 0x0⟩, ⟨16, 16, .ro, 0x0⟩, ⟨17, 17, .w1c, 0x0⟩, ⟨31, 18, .ro, 0x0⟩]⟩,
  ⟨.JB_BACKLOG, 0x500004, [], [⟨15, 0, .ro, 0x0⟩, ⟨31, 16, .rwh, 0x0⟩]⟩,
  ⟨.QCTL, 0x500008, [], [⟨15, 0, .wo, 0x0⟩, ⟨16, 16, .wo, 0x0⟩, ⟨17, 17, .wo, 0x0⟩, ⟨18, 18, .wo, 0x0⟩, ⟨19, 19, .wo, 0x0⟩, ⟨31, 20, .ro, 0x0⟩]⟩]

/-- Register rows, part 5. -/
def regRows5 : List RegRow := [
  ⟨.CANCEL_DOORBELL, 0x50000C, [], [⟨7, 0, .wo, 0x0⟩, ⟨8, 8, .wo, 0x0⟩, ⟨31, 9, .ro, 0x0⟩]⟩,
  ⟨.JB_BADDB, 0x500010, [], [⟨31, 0, .rwh, 0x0⟩]⟩,
  ⟨.QSEL, 0x501000, [], [⟨15, 0, .rw, 0x0⟩, ⟨31, 16, .ro, 0x0⟩]⟩,
  ⟨.QCFG_SQ_LO, 0x501004, [], [⟨11, 0, .ro, 0x0⟩, ⟨31, 12, .rw, 0x0⟩]⟩,
  ⟨.QCFG_SQ_HI, 0x501008, [], [⟨31, 0, .rw, 0x0⟩]⟩,
  ⟨.QCFG_CQ_LO, 0x50100C, [], [⟨11, 0, .ro, 0x0⟩, ⟨31, 12, .rw, 0x0⟩]⟩,
  ⟨.QCFG_CQ_HI, 0x501010, [], [⟨31, 0, .rw, 0x0⟩]⟩,
  ⟨.QCFG_MIR_LO, 0x501014, [], [⟨5, 0, .ro, 0x0⟩, ⟨31, 6, .rw, 0x0⟩]⟩,
  ⟨.QCFG_MIR_HI, 0x501018, [], [⟨31, 0, .rw, 0x0⟩]⟩,
  ⟨.QCFG_SIZE, 0x50101C, [], [⟨4, 0, .rw, 0x6⟩, ⟨7, 5, .rw, 0x0⟩, ⟨12, 8, .rw, 0x6⟩, ⟨15, 13, .rw, 0x0⟩, ⟨16, 16, .rw, 0x0⟩, ⟨17, 17, .rw, 0x0⟩, ⟨18, 18, .rw, 0x0⟩, ⟨19, 19, .rw, 0x0⟩, ⟨23, 20, .rw, 0x1⟩, ⟨31, 24, .rw, 0x6B⟩]⟩]

/-- Register rows, part 6. -/
def regRows6 : List RegRow := [
  ⟨.QCFG_IRQ, 0x501020, [], [⟨10, 0, .rw, 0x0⟩, ⟨11, 11, .rw, 0x0⟩, ⟨12, 12, .rw, 0x0⟩, ⟨15, 13, .rw, 0x0⟩, ⟨23, 16, .rw, 0x1⟩, ⟨31, 24, .rw, 0x0⟩]⟩,
  ⟨.QI_SQ_PIDX, 0x501024, [], [⟨31, 0, .ro, 0x0⟩]⟩,
  ⟨.QI_SQ_CIDX, 0x501028, [], [⟨31, 0, .ro, 0x0⟩]⟩,
  ⟨.QI_CQ_CIDX, 0x50102C, [], [⟨31, 0, .ro, 0x0⟩]⟩,
  ⟨.SQ_ERR_IDX, 0x501030, [], [⟨31, 0, .ro, 0x0⟩]⟩,
  ⟨.QSTAT, 0x540000, [(0x4, 65536)], [⟨0, 0, .ro, 0x0⟩, ⟨1, 1, .ro, 0x0⟩, ⟨2, 2, .ro, 0x0⟩, ⟨3, 3, .ro, 0x0⟩, ⟨4, 4, .ro, 0x0⟩, ⟨11, 5, .ro, 0x0⟩, ⟨31, 12, .ro, 0x0⟩]⟩,
  ⟨.CQ_PIDX, 0x580000, [(0x8, 65536)], [⟨31, 0, .ro, 0x0⟩]⟩,
  ⟨.CQSTAT, 0x580004, [(0x8, 65536)], [⟨0, 0, .ro, 0x0⟩, ⟨7, 1, .ro, 0x0⟩, ⟨31, 8, .ro, 0x0⟩]⟩,
  ⟨.HINGE_STAT, 0x600000, [], [⟨6, 0, .ro, 0x0⟩, ⟨7, 7, .ro, 0x0⟩, ⟨8, 8, .ro, 0x0⟩, ⟨15, 9, .ro, 0x0⟩, ⟨31, 16, .rwh, 0x0⟩]⟩,
  ⟨.HINGE_CTL, 0x600004, [], [⟨0, 0, .w1s, 0x0⟩, ⟨15, 1, .rw, 0x0⟩, ⟨23, 16, .rw, 0x4E⟩, ⟨31, 24, .ro, 0x0⟩]⟩]

/-- Register rows, part 7. -/
def regRows7 : List RegRow := [
  ⟨.HINGE_ABORT_LO, 0x600008, [], [⟨31, 0, .rwh, 0x0⟩]⟩,
  ⟨.HINGE_ABORT_HI, 0x60000C, [], [⟨31, 0, .rwh, 0x0⟩]⟩,
  ⟨.HINGE_ERR_ADDR_LO, 0x600010, [], [⟨31, 0, .ro, 0x0⟩]⟩,
  ⟨.HINGE_ERR_ADDR_HI, 0x600014, [], [⟨31, 0, .ro, 0x0⟩]⟩,
  ⟨.HINGE_ERR_INFO, 0x600018, [], [⟨2, 0, .ro, 0x0⟩, ⟨3, 3, .ro, 0x0⟩, ⟨9, 4, .ro, 0x0⟩, ⟨10, 10, .ro, 0x0⟩, ⟨31, 11, .ro, 0x0⟩]⟩,
  ⟨.HINGE_CH_STAT, 0x601000, [(0x20, 64)], [⟨0, 0, .ro, 0x0⟩, ⟨1, 1, .ro, 0x0⟩, ⟨2, 2, .ro, 0x0⟩, ⟨3, 3, .ro, 0x0⟩, ⟨31, 4, .ro, 0x0⟩]⟩,
  ⟨.HINGE_CH_DONE, 0x601004, [(0x20, 64)], [⟨31, 0, .ro, 0x0⟩]⟩,
  ⟨.HINGE_CH_TAG, 0x601008, [(0x20, 64)], [⟨31, 0, .ro, 0x0⟩]⟩,
  ⟨.HINGE_CH_NEXT_LO, 0x60100C, [(0x20, 64)], [⟨31, 0, .ro, 0x0⟩]⟩,
  ⟨.HINGE_CH_NEXT_HI, 0x601010, [(0x20, 64)], [⟨31, 0, .ro, 0x0⟩]⟩]

/-- Register rows, part 8. -/
def regRows8 : List RegRow := [
  ⟨.HINGE_CH_CTL, 0x601014, [(0x20, 64)], [⟨0, 0, .w1s, 0x0⟩, ⟨1, 1, .w1s, 0x0⟩, ⟨31, 2, .ro, 0x0⟩]⟩,
  ⟨.DG_CTX_ALLOC, 0x700000, [], [⟨15, 0, .ro, 0x0⟩, ⟨31, 16, .ro, 0x0⟩]⟩,
  ⟨.DG_CTX_FREE, 0x700004, [], [⟨6, 0, .ro, 0x40⟩, ⟨31, 7, .ro, 0x0⟩]⟩,
  ⟨.KS_CMD, 0x700010, [], [⟨5, 0, .rw, 0x0⟩, ⟨7, 6, .rw, 0x0⟩, ⟨10, 8, .rw, 0x0⟩, ⟨11, 11, .rw, 0x0⟩, ⟨14, 12, .rw, 0x0⟩, ⟨15, 15, .rw, 0x0⟩, ⟨23, 16, .rw, 0x0⟩, ⟨24, 24, .w1s, 0x0⟩, ⟨31, 25, .ro, 0x0⟩]⟩,
  ⟨.KS_STAT, 0x700014, [], [⟨0, 0, .ro, 0x0⟩, ⟨1, 1, .w1c, 0x0⟩, ⟨31, 2, .ro, 0x0⟩]⟩,
  ⟨.KS_DATA, 0x700100, [(0x4, 32)], [⟨31, 0, .rw, 0x0⟩]⟩,
  ⟨.KS_META, 0x700200, [(0x4, 64)], [⟨2, 0, .ro, 0x0⟩, ⟨3, 3, .ro, 0x0⟩, ⟨15, 8, .ro, 0x0⟩, ⟨7, 4, .ro, 0x0⟩, ⟨31, 16, .ro, 0x0⟩]⟩,
  ⟨.DG_CTL, 0x701000, [(0x100, 64)], [⟨1, 0, .rw, 0x0⟩, ⟨2, 2, .rw, 0x0⟩, ⟨3, 3, .rw, 0x0⟩, ⟨9, 4, .rw, 0x0⟩, ⟨15, 10, .rw, 0x0⟩, ⟨16, 16, .w1s, 0x0⟩, ⟨17, 17, .w1s, 0x0⟩, ⟨18, 18, .w1s, 0x0⟩, ⟨31, 19, .ro, 0x0⟩]⟩,
  ⟨.DG_LEN_LO, 0x701004, [(0x100, 64)], [⟨31, 0, .rw, 0x0⟩]⟩,
  ⟨.DG_LEN_HI, 0x701008, [(0x100, 64)], [⟨15, 0, .rw, 0x0⟩]⟩]

/-- Register rows, part 9. -/
def regRows9 : List RegRow := [
  ⟨.DG_DATA, 0x701010, [(0x100, 64)], [⟨63, 0, .wo, 0x0⟩]⟩,
  ⟨.DG_STAT, 0x701018, [(0x100, 64)], [⟨0, 0, .ro, 0x0⟩, ⟨1, 1, .ro, 0x0⟩, ⟨2, 2, .ro, 0x0⟩, ⟨3, 3, .w1c, 0x0⟩, ⟨4, 4, .w1c, 0x0⟩, ⟨5, 5, .w1c, 0x0⟩, ⟨6, 6, .ro, 0x0⟩, ⟨7, 7, .ro, 0x0⟩, ⟨8, 8, .ro, 0x0⟩, ⟨9, 9, .ro, 0x0⟩, ⟨31, 10, .ro, 0x0⟩]⟩,
  ⟨.DG_COUNT_LO, 0x701020, [(0x100, 64)], [⟨31, 0, .ro, 0x0⟩]⟩,
  ⟨.DG_COUNT_HI, 0x701024, [(0x100, 64)], [⟨31, 0, .ro, 0x0⟩]⟩,
  ⟨.DG_RESULT, 0x701040, [(0x100, 64), (0x4, 16)], [⟨31, 0, .ro, 0x0⟩]⟩,
  ⟨.MC_STAT, 0x900000, [], [⟨5, 0, .ro, 0x0⟩, ⟨13, 6, .ro, 0x0⟩, ⟨14, 14, .ro, 0x0⟩, ⟨15, 15, .ro, 0x0⟩, ⟨16, 16, .ro, 0x0⟩, ⟨17, 17, .ro, 0x0⟩, ⟨18, 18, .ro, 0x0⟩, ⟨30, 19, .ro, 0x0⟩, ⟨31, 31, .ro, 0x0⟩]⟩,
  ⟨.MC_RETRAIN, 0x900004, [], [⟨6, 0, .rw, 0x0⟩, ⟨7, 7, .rw, 0x0⟩, ⟨8, 8, .w1s, 0x0⟩, ⟨9, 9, .w1c, 0x0⟩, ⟨10, 10, .w1c, 0x0⟩, ⟨31, 11, .ro, 0x0⟩]⟩,
  ⟨.MC_CTL, 0x900008, [], [⟨3, 0, .sh, 0xB⟩, ⟨7, 4, .sh, 0xB⟩, ⟨8, 8, .rw, 0x1⟩, ⟨15, 9, .rw, 0x0⟩, ⟨23, 16, .rw, 0x96⟩, ⟨31, 24, .ro, 0x0⟩]⟩,
  ⟨.MC_PD, 0x90000C, [], [⟨15, 0, .rw, 0x3E8⟩, ⟨31, 16, .rw, 0x3E8⟩]⟩,
  ⟨.MC_ECC_NEAR, 0x900010, [], [⟨15, 0, .rwh, 0x0⟩, ⟨31, 16, .rwh, 0x0⟩]⟩]

/-- Register rows, part 10. -/
def regRows10 : List RegRow := [
  ⟨.MC_ECC_FAR, 0x900014, [], [⟨15, 0, .rwh, 0x0⟩, ⟨31, 16, .rwh, 0x0⟩]⟩,
  ⟨.MC_TEMP, 0x900018, [], [⟨7, 0, .ro, 0x0⟩, ⟨15, 8, .ro, 0x0⟩, ⟨31, 16, .ro, 0x0⟩]⟩,
  ⟨.MC_TOVR, 0x90001C, [], [⟨3, 0, .sh, 0x0⟩, ⟨4, 4, .sh, 0x0⟩, ⟨15, 5, .rw, 0x0⟩, ⟨31, 16, .sh, 0x0⟩]⟩,
  ⟨.TR_STAT, 0xA00000, [], [⟨1, 0, .ro, 0x0⟩, ⟨2, 2, .w1c, 0x0⟩, ⟨15, 3, .ro, 0x0⟩, ⟨29, 16, .ro, 0x0⟩, ⟨30, 30, .ro, 0x0⟩, ⟨31, 31, .ro, 0x0⟩]⟩,
  ⟨.TR_EPOCH, 0xA00004, [], [⟨31, 0, .ro, 0x0⟩]⟩,
  ⟨.TR_NODE, 0xA00008, [], [⟨15, 0, .ro, 0xFFFF⟩, ⟨31, 16, .ro, 0x0⟩]⟩,
  ⟨.TR_CTL, 0xA0000C, [], [⟨2, 0, .sh, 0x3⟩, ⟨7, 3, .rw, 0x0⟩, ⟨15, 8, .rw, 0x71⟩, ⟨31, 16, .ro, 0x0⟩]⟩,
  ⟨.TR_PUT_SRC_LO, 0xA00100, [(0x20, 4)], [⟨31, 0, .rw, 0x0⟩]⟩,
  ⟨.TR_PUT_SRC_HI, 0xA00104, [(0x20, 4)], [⟨31, 0, .rw, 0x0⟩]⟩,
  ⟨.TR_PUT_DST_LO, 0xA00108, [(0x20, 4)], [⟨31, 0, .rw, 0x0⟩]⟩]

/-- Register rows, part 11. -/
def regRows11 : List RegRow := [
  ⟨.TR_PUT_DST_HI, 0xA0010C, [(0x20, 4)], [⟨31, 0, .rw, 0x0⟩]⟩,
  ⟨.TR_PUT_LEN, 0xA00110, [(0x20, 4)], [⟨31, 0, .rw, 0x0⟩]⟩,
  ⟨.TR_PUT_CTL, 0xA00114, [(0x20, 4)], [⟨12, 0, .rw, 0x0⟩, ⟨13, 13, .rw, 0x0⟩, ⟨15, 14, .rw, 0x0⟩, ⟨16, 16, .w1s, 0x0⟩, ⟨31, 17, .ro, 0x0⟩]⟩,
  ⟨.TR_PUT_STAT, 0xA00118, [(0x20, 4)], [⟨0, 0, .ro, 0x0⟩, ⟨1, 1, .w1c, 0x0⟩, ⟨2, 2, .w1c, 0x0⟩, ⟨31, 3, .ro, 0x0⟩]⟩,
  ⟨.FC_STAT, 0xB00000, [], [⟨0, 0, .ro, 0x0⟩, ⟨1, 1, .ro, 0x0⟩, ⟨2, 2, .w1c, 0x0⟩, ⟨3, 3, .ro, 0x0⟩, ⟨31, 4, .ro, 0x0⟩]⟩,
  ⟨.FI_CTL, 0xB00010, [], [⟨8, 0, .rw, 0x0⟩, ⟨10, 9, .rw, 0x0⟩, ⟨12, 11, .rw, 0x0⟩, ⟨15, 13, .ro, 0x0⟩, ⟨16, 16, .w1s, 0x0⟩, ⟨31, 17, .ro, 0x0⟩]⟩,
  ⟨.FI_STAT, 0xB00014, [], [⟨15, 0, .rwh, 0x0⟩, ⟨16, 16, .w1c, 0x0⟩, ⟨17, 17, .w1c, 0x0⟩, ⟨31, 18, .ro, 0x0⟩]⟩,
  ⟨.FC_STICKY, 0xB00100, [(0x4, 16)], [⟨31, 0, .w1c, 0x0⟩]⟩,
  ⟨.FC_SRC, 0xB00800, [(0x4, 512)], [⟨15, 0, .rwh, 0x0⟩, ⟨18, 16, .rw, 0x0⟩, ⟨31, 19, .ro, 0x0⟩]⟩,
  ⟨.FC_REC_STAT, 0xB01000, [(0x40, 105)], [⟨8, 0, .ro, 0x0⟩, ⟨11, 9, .ro, 0x0⟩, ⟨12, 12, .ro, 0x0⟩, ⟨13, 13, .ro, 0x0⟩, ⟨30, 14, .ro, 0x0⟩, ⟨31, 31, .w1c, 0x0⟩]⟩]

/-- Register rows, part 12. -/
def regRows12 : List RegRow := [
  ⟨.FC_REC_SYN, 0xB01004, [(0x40, 105), (0x4, 4)], [⟨31, 0, .ro, 0x0⟩]⟩,
  ⟨.FC_REC_TIME_LO, 0xB01014, [(0x40, 105)], [⟨31, 0, .ro, 0x0⟩]⟩,
  ⟨.FC_REC_TIME_HI, 0xB01018, [(0x40, 105)], [⟨31, 0, .ro, 0x0⟩]⟩,
  ⟨.DP_STAT, 0xC00000, [], [⟨5, 0, .ro, 0x0⟩, ⟨30, 6, .ro, 0x0⟩, ⟨31, 31, .ro, 0x0⟩]⟩,
  ⟨.DP_EVENT_LO, 0xC00004, [], [⟨31, 0, .w1c, 0x0⟩]⟩,
  ⟨.DP_EVENT_HI, 0xC00008, [], [⟨15, 0, .w1c, 0x0⟩, ⟨31, 16, .ro, 0x0⟩]⟩,
  ⟨.DP_SLOT, 0xC00100, [(0x4, 48)], [⟨0, 0, .ro, 0x0⟩, ⟨1, 1, .ro, 0x0⟩, ⟨4, 2, .ro, 0x0⟩, ⟨7, 5, .ro, 0x0⟩, ⟨8, 8, .ro, 0x0⟩, ⟨9, 9, .ro, 0x0⟩, ⟨31, 10, .ro, 0x0⟩]⟩,
  ⟨.THR_STAT, 0xD00000, [], [⟨10, 0, .ro, 0x400⟩, ⟨11, 11, .ro, 0x0⟩, ⟨12, 12, .ro, 0x0⟩, ⟨13, 13, .ro, 0x0⟩, ⟨30, 14, .ro, 0x0⟩, ⟨31, 31, .ro, 0x0⟩]⟩,
  ⟨.THR_HELD_LO, 0xD00004, [], [⟨31, 0, .ro, 0x0⟩]⟩,
  ⟨.THR_HELD_HI, 0xD00008, [], [⟨15, 0, .ro, 0x0⟩, ⟨31, 16, .ro, 0x0⟩]⟩]

/-- Register rows, part 13. -/
def regRows13 : List RegRow := [
  ⟨.THR_DISCARD, 0xD0000C, [], [⟨5, 0, .rw, 0x0⟩, ⟨6, 6, .w1s, 0x0⟩, ⟨31, 7, .ro, 0x0⟩]⟩,
  ⟨.THR_WEAR, 0xD00010, [], [⟨7, 0, .ro, 0x0⟩, ⟨18, 8, .ro, 0x0⟩, ⟨31, 19, .ro, 0x0⟩]⟩,
  ⟨.PWR_STAT, 0xE00000, [], [⟨1, 0, .ro, 0x0⟩, ⟨5, 2, .ro, 0xF⟩, ⟨6, 6, .ro, 0x0⟩, ⟨7, 7, .ro, 0x0⟩, ⟨8, 8, .ro, 0x0⟩, ⟨30, 9, .ro, 0x0⟩, ⟨31, 31, .ro, 0x0⟩]⟩,
  ⟨.PWR_CTL, 0xE00004, [], [⟨0, 0, .w1s, 0x0⟩, ⟨7, 1, .rw, 0x0⟩, ⟨31, 8, .ro, 0x0⟩]⟩,
  ⟨.TB_LO, 0xE00008, [], [⟨31, 0, .ro, 0x0⟩]⟩,
  ⟨.TB_HI, 0xE0000C, [], [⟨31, 0, .ro, 0x0⟩]⟩,
  ⟨.AVS_STAT, 0xE00100, [], [⟨11, 0, .ro, 0x0⟩, ⟨21, 12, .ro, 0x0⟩, ⟨22, 22, .ro, 0x0⟩, ⟨31, 23, .ro, 0x0⟩]⟩,
  ⟨.AVS_TARGET, 0xE00104, [], [⟨11, 0, .ro, 0x320⟩, ⟨13, 12, .ro, 0x0⟩, ⟨31, 14, .ro, 0x0⟩]⟩,
  ⟨.AVS_OVR, 0xE00108, [], [⟨11, 0, .rw, 0x2EE⟩, ⟨12, 12, .rw, 0x0⟩, ⟨15, 13, .rw, 0x0⟩, ⟨31, 16, .ro, 0x0⟩]⟩,
  ⟨.CRATE_C, 0xE00200, [(0x4, 4)], [⟨15, 0, .ro, 0x0⟩, ⟨23, 16, .ro, 0x0⟩, ⟨29, 24, .ro, 0x0⟩, ⟨30, 30, .ro, 0x1⟩, ⟨31, 31, .ro, 0x0⟩]⟩]

/-- Register rows, part 14. -/
def regRows14 : List RegRow := [
  ⟨.CRATE_CTL, 0xE00210, [], [⟨15, 0, .rw, 0xA⟩, ⟨31, 16, .ro, 0x0⟩]⟩,
  ⟨.FUSE_CTL, 0xE00300, [], [⟨6, 0, .rw, 0x0⟩, ⟨7, 7, .rw, 0x0⟩, ⟨8, 8, .w1s, 0x0⟩, ⟨9, 9, .w1s, 0x0⟩, ⟨10, 10, .w1c, 0x0⟩, ⟨31, 11, .ro, 0x0⟩]⟩,
  ⟨.FUSE_DATA, 0xE00304, [], [⟨31, 0, .rw, 0x0⟩]⟩,
  ⟨.SENS_TEMP, 0xE00400, [(0x4, 15)], [⟨7, 0, .ro, 0x0⟩, ⟨8, 8, .ro, 0x0⟩, ⟨31, 9, .ro, 0x0⟩]⟩]

/-- Every register of BAR0, by offset. -/
def regTable : List RegRow :=
  regRows0 ++ regRows1 ++ regRows2 ++ regRows3 ++ regRows4 ++ regRows5 ++ regRows6 ++ regRows7 ++ regRows8 ++ regRows9 ++ regRows10 ++ regRows11 ++ regRows12 ++ regRows13 ++ regRows14

/-- IDENT.DEVICE [31:16], RO (R4). -/
def F.IDENT_DEVICE : Fld := ⟨fldKey (0x0) 16, 16, 0x7840⟩
/-- IDENT.FAMILY [15:8], RO (R4). -/
def F.IDENT_FAMILY : Fld := ⟨fldKey (0x0) 8, 8, 0xF1⟩
/-- IDENT.STEPPING [7:0], RO (R4). -/
def F.IDENT_STEPPING : Fld := ⟨fldKey (0x0) 0, 8, 0xB1⟩
/-- IDENT_VENDOR.VENDOR [15:0], RO (R4). -/
def F.IDENT_VENDOR_VENDOR : Fld := ⟨fldKey (0x4) 0, 16, 0x1E7C⟩
/-- GL_STAT.POST_DROP [5:0], W1C (R412). -/
def F.GL_STAT_POST_DROP : Fld := ⟨fldKey (0x8) 0, 6, 0x0⟩
/-- GL_STAT.DROP_COUNT [31:16], RWH (R412). -/
def F.GL_STAT_DROP_COUNT : Fld := ⟨fldKey (0x8) 16, 16, 0x0⟩
/-- APT_BASE.BASE [11:0], RW (R412). -/
def F.APT_BASE_BASE : Fld := ⟨fldKey (0xC) 0, 12, 0x0⟩
/-- TEST_CTL.MODE [3:0], RW (R412). -/
def F.TEST_CTL_MODE : Fld := ⟨fldKey (0x10) 0, 4, 0x0⟩
/-- TEST_CTL.reserved [7:4], RW (R412). -/
def F.TEST_CTL_RSV4 : Fld := ⟨fldKey (0x10) 4, 4, 0x0⟩
/-- TEST_CTL.reserved [23:8], RW (R412). -/
def F.TEST_CTL_RSV8 : Fld := ⟨fldKey (0x10) 8, 16, 0x2D9B⟩
/-- PCTX_STAT.STATE [3:0], RO (R53). -/
def F.PCTX_STAT_STATE (i : Nat) : Fld := ⟨fldKey (0x1000 + i * 0x4) 0, 4, 0x0⟩
/-- PCTX_STAT.PARTIAL [4:4], RO (R53). -/
def F.PCTX_STAT_PARTIAL (i : Nat) : Fld := ⟨fldKey (0x1000 + i * 0x4) 4, 1, 0x0⟩
/-- PCTX_STAT.SEAL [5:5], RO (R53). -/
def F.PCTX_STAT_SEAL (i : Nat) : Fld := ⟨fldKey (0x1000 + i * 0x4) 5, 1, 0x0⟩
/-- PCTX_STAT.STATUS [31:16], RO (R53). -/
def F.PCTX_STAT_STATUS (i : Nat) : Fld := ⟨fldKey (0x1000 + i * 0x4) 16, 16, 0x0⟩
/-- LM_STAT.STAGE [3:0], RO (R455). -/
def F.LM_STAT_STAGE : Fld := ⟨fldKey (0x10000) 0, 4, 0x0⟩
/-- LM_STAT.SLOT [4:4], RO (R455). -/
def F.LM_STAT_SLOT : Fld := ⟨fldKey (0x10000) 4, 1, 0x0⟩
/-- LM_STAT.FALLBACK [5:5], RO (R455). -/
def F.LM_STAT_FALLBACK : Fld := ⟨fldKey (0x10000) 5, 1, 0x0⟩
/-- LM_STAT.TRIAL [6:6], RO (R455). -/
def F.LM_STAT_TRIAL : Fld := ⟨fldKey (0x10000) 6, 1, 0x0⟩
/-- LM_STAT.RECOVERED [7:7], RO (R455). -/
def F.LM_STAT_RECOVERED : Fld := ⟨fldKey (0x10000) 7, 1, 0x0⟩
/-- LM_STAT.REJECT_A [10:8], RO (R455). -/
def F.LM_STAT_REJECT_A : Fld := ⟨fldKey (0x10000) 8, 3, 0x0⟩
/-- LM_STAT.REJECT_B [13:11], RO (R455). -/
def F.LM_STAT_REJECT_B : Fld := ⟨fldKey (0x10000) 11, 3, 0x0⟩
/-- LM_CMD.OP [3:0], RW (R455). -/
def F.LM_CMD_OP : Fld := ⟨fldKey (0x10004) 0, 4, 0x0⟩
/-- LM_CMD.SLOT [4:4], RW (R455). -/
def F.LM_CMD_SLOT : Fld := ⟨fldKey (0x10004) 4, 1, 0x0⟩
/-- LM_CMD.PART [5:5], RW (R455). -/
def F.LM_CMD_PART : Fld := ⟨fldKey (0x10004) 5, 1, 0x0⟩
/-- LM_CMD.CASEMENT [7:6], RW (R455). -/
def F.LM_CMD_CASEMENT : Fld := ⟨fldKey (0x10004) 6, 2, 0x0⟩
/-- LM_CMD.reserved [15:8], RW (R455). -/
def F.LM_CMD_RSV8 : Fld := ⟨fldKey (0x10004) 8, 8, 0x0⟩
/-- LM_CMD.GO [16:16], W1S (R455). -/
def F.LM_CMD_GO : Fld := ⟨fldKey (0x10004) 16, 1, 0x0⟩
/-- LM_ADDR_LO.ADDR [31:0], RW (R455). -/
def F.LM_ADDR_LO_ADDR : Fld := ⟨fldKey (0x10008) 0, 32, 0x0⟩
/-- LM_ADDR_HI.ADDR [31:0], RW (R455). -/
def F.LM_ADDR_HI_ADDR : Fld := ⟨fldKey (0x1000C) 0, 32, 0x0⟩
/-- LM_LEN.LEN [24:0], RW (R455). -/
def F.LM_LEN_LEN : Fld := ⟨fldKey (0x10010) 0, 25, 0x0⟩
/-- LM_RESULT.OP [3:0], RO (R455). -/
def F.LM_RESULT_OP : Fld := ⟨fldKey (0x10014) 0, 4, 0x0⟩
/-- LM_RESULT.CODE [7:4], RO (R455). -/
def F.LM_RESULT_CODE : Fld := ⟨fldKey (0x10014) 4, 4, 0x0⟩
/-- LM_RESULT.CHECK [10:8], RO (R455). -/
def F.LM_RESULT_CHECK : Fld := ⟨fldKey (0x10014) 8, 3, 0x0⟩
/-- LM_RESULT.DONE [31:31], W1C (R455). -/
def F.LM_RESULT_DONE : Fld := ⟨fldKey (0x10014) 31, 1, 0x0⟩
/-- DICT_ADDR.INDEX [15:0], RW (R391). -/
def F.DICT_ADDR_INDEX : Fld := ⟨fldKey (0x18000) 0, 16, 0x0⟩
/-- DICT_ADDR.SUB [23:16], RW (R391). -/
def F.DICT_ADDR_SUB : Fld := ⟨fldKey (0x18000) 16, 8, 0x0⟩
/-- DICT_ADDR.reserved [31:24], RW (R391). -/
def F.DICT_ADDR_RSV24 : Fld := ⟨fldKey (0x18000) 24, 8, 0x0⟩
/-- DICT_LEN.LEN [12:0], RW (R391). -/
def F.DICT_LEN_LEN : Fld := ⟨fldKey (0x18004) 0, 13, 0x0⟩
/-- DICT_CTL.READ [0:0], W1S (R391). -/
def F.DICT_CTL_READ : Fld := ⟨fldKey (0x18008) 0, 1, 0x0⟩
/-- DICT_CTL.WRITE [1:1], W1S (R391). -/
def F.DICT_CTL_WRITE : Fld := ⟨fldKey (0x18008) 1, 1, 0x0⟩
/-- DICT_CTL.reserved [7:2], RW (R391). -/
def F.DICT_CTL_RSV2 : Fld := ⟨fldKey (0x18008) 2, 6, 0x0⟩
/-- DICT_CTL.reserved [15:8], RW (R391). -/
def F.DICT_CTL_RSV8 : Fld := ⟨fldKey (0x18008) 8, 8, 0xD1⟩
/-- DICT_STAT.BUSY [0:0], RO (R391). -/
def F.DICT_STAT_BUSY : Fld := ⟨fldKey (0x1800C) 0, 1, 0x0⟩
/-- DICT_STAT.DONE [1:1], W1C (R391). -/
def F.DICT_STAT_DONE : Fld := ⟨fldKey (0x1800C) 1, 1, 0x0⟩
/-- DICT_STAT.LENERR [2:2], W1C (R391). -/
def F.DICT_STAT_LENERR : Fld := ⟨fldKey (0x1800C) 2, 1, 0x0⟩
/-- DICT_STAT.APPLIED [3:3], RO (R391). -/
def F.DICT_STAT_APPLIED : Fld := ⟨fldKey (0x1800C) 3, 1, 0x0⟩
/-- DICT_STAT.WPEND [31:31], RO (R391). -/
def F.DICT_STAT_WPEND : Fld := ⟨fldKey (0x1800C) 31, 1, 0x0⟩
/-- DICT_TOTAL.TOTAL [12:0], RO (R391). -/
def F.DICT_TOTAL_TOTAL : Fld := ⟨fldKey (0x18010) 0, 13, 0x0⟩
/-- DICT_DATA.DATA [31:0], RW (R391). -/
def F.DICT_DATA_DATA (i : Nat) : Fld := ⟨fldKey (0x19000 + i * 0x4) 0, 32, 0x0⟩
/-- CS_STAT.STATE [2:0], RO (R457). -/
def F.CS_STAT_STATE (i : Nat) : Fld := ⟨fldKey (0x100000 + i * 0x100000) 0, 3, 0x1⟩
/-- CS_MC_VER.VERSION [31:0], RO (R457). -/
def F.CS_MC_VER_VERSION (i : Nat) : Fld := ⟨fldKey (0x100004 + i * 0x100000) 0, 32, 0x0⟩
/-- LT_STAT.READY [15:0], RO (R190). -/
def F.LT_STAT_READY (i : Nat) : Fld := ⟨fldKey (0x110000 + i * 0x100000) 0, 16, 0x0⟩
/-- LT_STAT.MS_USED [28:16], RO (R190). -/
def F.LT_STAT_MS_USED (i : Nat) : Fld := ⟨fldKey (0x110000 + i * 0x100000) 16, 13, 0x0⟩
/-- LT_STAT.MS_ACTIVE [29:29], RO (R190). -/
def F.LT_STAT_MS_ACTIVE (i : Nat) : Fld := ⟨fldKey (0x110000 + i * 0x100000) 29, 1, 0x0⟩
/-- LT_STAT.DRAINING [30:30], RO (R190). -/
def F.LT_STAT_DRAINING (i : Nat) : Fld := ⟨fldKey (0x110000 + i * 0x100000) 30, 1, 0x0⟩
/-- LT_STAT.HELD [31:31], RO (R190). -/
def F.LT_STAT_HELD (i : Nat) : Fld := ⟨fldKey (0x110000 + i * 0x100000) 31, 1, 0x0⟩
/-- LT_PANE_HOLD.HOLD [23:0], RWH (R190). -/
def F.LT_PANE_HOLD_HOLD (i : Nat) : Fld := ⟨fldKey (0x110004 + i * 0x100000) 0, 24, 0x0⟩
/-- LT_PANE_BUSY.BUSY [23:0], RO (R190). -/
def F.LT_PANE_BUSY_BUSY (i : Nat) : Fld := ⟨fldKey (0x110008 + i * 0x100000) 0, 24, 0x0⟩
/-- LT_CTL.HOLD [0:0], RW (R190). -/
def F.LT_CTL_HOLD (i : Nat) : Fld := ⟨fldKey (0x11000C + i * 0x100000) 0, 1, 0x0⟩
/-- LT_CTL.FORCE_MATCH [1:1], SH (R190). -/
def F.LT_CTL_FORCE_MATCH (i : Nat) : Fld := ⟨fldKey (0x11000C + i * 0x100000) 1, 1, 0x0⟩
/-- LT_CTL.reserved [7:2], RW (R190). -/
def F.LT_CTL_RSV2 (i : Nat) : Fld := ⟨fldKey (0x11000C + i * 0x100000) 2, 6, 0x0⟩
/-- LT_CTL.reserved [15:8], RW (R190). -/
def F.LT_CTL_RSV8 (i : Nat) : Fld := ⟨fldKey (0x11000C + i * 0x100000) 8, 8, 0xA5⟩
/-- LT_DISPATCH_LO.COUNT [31:0], RWH (R190). -/
def F.LT_DISPATCH_LO_COUNT (i : Nat) : Fld := ⟨fldKey (0x110010 + i * 0x100000) 0, 32, 0x0⟩
/-- LT_DISPATCH_HI.COUNT [31:0], RWH (R190). -/
def F.LT_DISPATCH_HI_COUNT (i : Nat) : Fld := ⟨fldKey (0x110014 + i * 0x100000) 0, 32, 0x0⟩
/-- LT_REDISPATCH.COUNT [15:0], RWH (R190). -/
def F.LT_REDISPATCH_COUNT (i : Nat) : Fld := ⟨fldKey (0x110018 + i * 0x100000) 0, 16, 0x0⟩
/-- LT_REDISPATCH.MS_STALL [31:16], RWH (R190). -/
def F.LT_REDISPATCH_MS_STALL (i : Nat) : Fld := ⟨fldKey (0x110018 + i * 0x100000) 16, 16, 0x0⟩
/-- SL_CTL.PF_EN [0:0], RW (R213). -/
def F.SL_CTL_PF_EN (i : Nat) : Fld := ⟨fldKey (0x120000 + i * 0x100000) 0, 1, 0x1⟩
/-- SL_CTL.reserved [7:1], RW (R213). -/
def F.SL_CTL_RSV1 (i : Nat) : Fld := ⟨fldKey (0x120000 + i * 0x100000) 1, 7, 0x0⟩
/-- SL_CTL.reserved [15:8], RW (R213). -/
def F.SL_CTL_RSV8 (i : Nat) : Fld := ⟨fldKey (0x120000 + i * 0x100000) 8, 8, 0x3C⟩
/-- SL_WAYS.STREAM [15:0], RW (R213). -/
def F.SL_WAYS_STREAM (i : Nat) : Fld := ⟨fldKey (0x120004 + i * 0x100000) 0, 16, 0xF⟩
/-- SL_WAYS.TABLE [31:16], RW (R213). -/
def F.SL_WAYS_TABLE (i : Nat) : Fld := ⟨fldKey (0x120004 + i * 0x100000) 16, 16, 0xFFF0⟩
/-- SL_PF_CTL.DISTANCE [6:0], RW (R213). -/
def F.SL_PF_CTL_DISTANCE (i : Nat) : Fld := ⟨fldKey (0x120008 + i * 0x100000) 0, 7, 0x10⟩
/-- SL_PF_CTL.reserved [7:7], RW (R213). -/
def F.SL_PF_CTL_RSV7 (i : Nat) : Fld := ⟨fldKey (0x120008 + i * 0x100000) 7, 1, 0x0⟩
/-- SL_PF_CTL.CONFIRM [11:8], RW (R213). -/
def F.SL_PF_CTL_CONFIRM (i : Nat) : Fld := ⟨fldKey (0x120008 + i * 0x100000) 8, 4, 0x2⟩
/-- SL_PF_CTL.MR_LIMIT [15:12], RW (R213). -/
def F.SL_PF_CTL_MR_LIMIT (i : Nat) : Fld := ⟨fldKey (0x120008 + i * 0x100000) 12, 4, 0x8⟩
/-- SL_STAT.MAINT_ACTIVE [7:0], RO (R213). -/
def F.SL_STAT_MAINT_ACTIVE (i : Nat) : Fld := ⟨fldKey (0x12000C + i * 0x100000) 0, 8, 0x0⟩
/-- SL_STAT.MR_USED [16:8], RO (R213). -/
def F.SL_STAT_MR_USED (i : Nat) : Fld := ⟨fldKey (0x12000C + i * 0x100000) 8, 9, 0x0⟩
/-- SL_STAT.FLUSHING [31:31], RO (R213). -/
def F.SL_STAT_FLUSHING (i : Nat) : Fld := ⟨fldKey (0x12000C + i * 0x100000) 31, 1, 0x0⟩
/-- SL_HIT_LO.COUNT [31:0], RWH (R213). -/
def F.SL_HIT_LO_COUNT (i : Nat) : Fld := ⟨fldKey (0x120010 + i * 0x100000) 0, 32, 0x0⟩
/-- SL_HIT_HI.COUNT [31:0], RWH (R213). -/
def F.SL_HIT_HI_COUNT (i : Nat) : Fld := ⟨fldKey (0x120014 + i * 0x100000) 0, 32, 0x0⟩
/-- SL_MISS_LO.COUNT [31:0], RWH (R213). -/
def F.SL_MISS_LO_COUNT (i : Nat) : Fld := ⟨fldKey (0x120018 + i * 0x100000) 0, 32, 0x0⟩
/-- SL_MISS_HI.COUNT [31:0], RWH (R213). -/
def F.SL_MISS_HI_COUNT (i : Nat) : Fld := ⟨fldKey (0x12001C + i * 0x100000) 0, 32, 0x0⟩
/-- SL_PF.ISSUED [15:0], RWH (R213). -/
def F.SL_PF_ISSUED (i : Nat) : Fld := ⟨fldKey (0x120020 + i * 0x100000) 0, 16, 0x0⟩
/-- SL_PF.USED [31:16], RWH (R213). -/
def F.SL_PF_USED (i : Nat) : Fld := ⟨fldKey (0x120020 + i * 0x100000) 16, 16, 0x0⟩
/-- SL_RECALL.VICTIM [15:0], RWH (R213). -/
def F.SL_RECALL_VICTIM (i : Nat) : Fld := ⟨fldKey (0x120024 + i * 0x100000) 0, 16, 0x0⟩
/-- SL_RECALL.WBUF [31:16], RWH (R213). -/
def F.SL_RECALL_WBUF (i : Nat) : Fld := ⟨fldKey (0x120024 + i * 0x100000) 16, 16, 0x0⟩
/-- SL_ECC.CORRECTED [15:0], RWH (R213). -/
def F.SL_ECC_CORRECTED (i : Nat) : Fld := ⟨fldKey (0x120028 + i * 0x100000) 0, 16, 0x0⟩
/-- SL_ECC.POISONED [31:16], RWH (R213). -/
def F.SL_ECC_POISONED (i : Nat) : Fld := ⟨fldKey (0x120028 + i * 0x100000) 16, 16, 0x0⟩
/-- SL_STALL.MR_FULL [31:0], RWH (R213). -/
def F.SL_STALL_MR_FULL (i : Nat) : Fld := ⟨fldKey (0x12002C + i * 0x100000) 0, 32, 0x0⟩
/-- LV_BANK_STAT.TABLE [5:0], RO (R117). -/
def F.LV_BANK_STAT_TABLE (i j : Nat) : Fld := ⟨fldKey (0x140000 + i * 0x100000 + j * 0x4) 0, 6, 0x0⟩
/-- LV_BANK_STAT.BOUND [6:6], RO (R117). -/
def F.LV_BANK_STAT_BOUND (i j : Nat) : Fld := ⟨fldKey (0x140000 + i * 0x100000 + j * 0x4) 6, 1, 0x0⟩
/-- LV_BANK_STAT.SHADOW [7:7], RO (R117). -/
def F.LV_BANK_STAT_SHADOW (i j : Nat) : Fld := ⟨fldKey (0x140000 + i * 0x100000 + j * 0x4) 7, 1, 0x0⟩
/-- LV_BANK_STAT.VALID_COUNT [22:8], RO (R117). -/
def F.LV_BANK_STAT_VALID_COUNT (i j : Nat) : Fld := ⟨fldKey (0x140000 + i * 0x100000 + j * 0x4) 8, 15, 0x0⟩
/-- LV_BANK_STAT.SWAP_PEND [23:23], RO (R117). -/
def F.LV_BANK_STAT_SWAP_PEND (i j : Nat) : Fld := ⟨fldKey (0x140000 + i * 0x100000 + j * 0x4) 23, 1, 0x0⟩
/-- LV_BANK_STAT.TEST [24:24], RO (R117). -/
def F.LV_BANK_STAT_TEST (i j : Nat) : Fld := ⟨fldKey (0x140000 + i * 0x100000 + j * 0x4) 24, 1, 0x0⟩
/-- LV_BANK_STAT.FENCED [25:25], RO (R117). -/
def F.LV_BANK_STAT_FENCED (i j : Nat) : Fld := ⟨fldKey (0x140000 + i * 0x100000 + j * 0x4) 25, 1, 0x0⟩
/-- LV_BANK_STAT.DAMAGED [31:31], RO (R117). -/
def F.LV_BANK_STAT_DAMAGED (i j : Nat) : Fld := ⟨fldKey (0x140000 + i * 0x100000 + j * 0x4) 31, 1, 0x0⟩
/-- LV_VERIFY_STAT.VERIFY_FAIL [15:0], RWH (R117). -/
def F.LV_VERIFY_STAT_VERIFY_FAIL (i : Nat) : Fld := ⟨fldKey (0x140010 + i * 0x100000) 0, 16, 0x0⟩
/-- LV_VERIFY_STAT.SCRUB_REPAIR [31:16], RWH (R117). -/
def F.LV_VERIFY_STAT_SCRUB_REPAIR (i : Nat) : Fld := ⟨fldKey (0x140010 + i * 0x100000) 16, 16, 0x0⟩
/-- LV_CTL.SHADOW_SEARCH [3:0], SH (R117). -/
def F.LV_CTL_SHADOW_SEARCH (i : Nat) : Fld := ⟨fldKey (0x140020 + i * 0x100000) 0, 4, 0x0⟩
/-- LV_CTL.reserved [7:4], RW (R117). -/
def F.LV_CTL_RSV4 (i : Nat) : Fld := ⟨fldKey (0x140020 + i * 0x100000) 4, 4, 0x0⟩
/-- LV_CTL.reserved [15:8], RW (R117). -/
def F.LV_CTL_RSV8 (i : Nat) : Fld := ⟨fldKey (0x140020 + i * 0x100000) 8, 8, 0x5A⟩
/-- BF_STAT.BUSY [11:0], RO (R309). -/
def F.BF_STAT_BUSY (i : Nat) : Fld := ⟨fldKey (0x160000 + i * 0x100000) 0, 12, 0x0⟩
/-- BF_STAT.QUEUED [18:12], RO (R309). -/
def F.BF_STAT_QUEUED (i : Nat) : Fld := ⟨fldKey (0x160000 + i * 0x100000) 12, 7, 0x0⟩
/-- BF_STAT.STOPPED [31:31], RO (R309). -/
def F.BF_STAT_STOPPED (i : Nat) : Fld := ⟨fldKey (0x160000 + i * 0x100000) 31, 1, 0x0⟩
/-- BF_CTL.ENGINE_OFF [11:0], SH (R309). -/
def F.BF_CTL_ENGINE_OFF (i : Nat) : Fld := ⟨fldKey (0x160004 + i * 0x100000) 0, 12, 0x0⟩
/-- BF_CTL.reserved [15:12], RW (R309). -/
def F.BF_CTL_RSV12 (i : Nat) : Fld := ⟨fldKey (0x160004 + i * 0x100000) 12, 4, 0x0⟩
/-- BF_CTL.reserved [23:16], RW (R309). -/
def F.BF_CTL_RSV16 (i : Nat) : Fld := ⟨fldKey (0x160004 + i * 0x100000) 16, 8, 0xC3⟩
/-- BF_OUT.BUILT [15:0], RWH (R309). -/
def F.BF_OUT_BUILT (i : Nat) : Fld := ⟨fldKey (0x160008 + i * 0x100000) 0, 16, 0x0⟩
/-- BF_OUT.DECODED [31:16], RWH (R309). -/
def F.BF_OUT_DECODED (i : Nat) : Fld := ⟨fldKey (0x160008 + i * 0x100000) 16, 16, 0x0⟩
/-- BF_ERR.DECOMPRESS [15:0], RWH (R309). -/
def F.BF_ERR_DECOMPRESS (i : Nat) : Fld := ⟨fldKey (0x16000C + i * 0x100000) 0, 16, 0x0⟩
/-- BF_ERR.HEADER [31:16], RWH (R309). -/
def F.BF_ERR_HEADER (i : Nat) : Fld := ⟨fldKey (0x16000C + i * 0x100000) 16, 16, 0x0⟩
/-- PN_ARITH_STAT.MISMATCH [15:0], RWH (R91). -/
def F.PN_ARITH_STAT_MISMATCH (i j : Nat) : Fld := ⟨fldKey (0x180040 + i * 0x100000 + j * 0x1000) 0, 16, 0x0⟩
/-- PN_ARITH_STAT.RETRY_OK [31:16], RWH (R91). -/
def F.PN_ARITH_STAT_RETRY_OK (i j : Nat) : Fld := ⟨fldKey (0x180040 + i * 0x100000 + j * 0x1000) 16, 16, 0x0⟩
/-- JB_STAT.INFLIGHT [15:0], RO (R271). -/
def F.JB_STAT_INFLIGHT : Fld := ⟨fldKey (0x500000) 0, 16, 0x0⟩
/-- JB_STAT.HOLD [16:16], RO (R271). -/
def F.JB_STAT_HOLD : Fld := ⟨fldKey (0x500000) 16, 1, 0x0⟩
/-- JB_STAT.CMD_REJECT [17:17], W1C (R271). -/
def F.JB_STAT_CMD_REJECT : Fld := ⟨fldKey (0x500000) 17, 1, 0x0⟩
/-- JB_BACKLOG.USED [15:0], RO (R271). -/
def F.JB_BACKLOG_USED : Fld := ⟨fldKey (0x500004) 0, 16, 0x0⟩
/-- JB_BACKLOG.PEAK [31:16], RWH (R271). -/
def F.JB_BACKLOG_PEAK : Fld := ⟨fldKey (0x500004) 16, 16, 0x0⟩
/-- JB_BADDB.COUNT [31:0], RWH (R271). -/
def F.JB_BADDB_COUNT : Fld := ⟨fldKey (0x500010) 0, 32, 0x0⟩
/-- QSEL.QID [15:0], RW (R271). -/
def F.QSEL_QID : Fld := ⟨fldKey (0x501000) 0, 16, 0x0⟩
/-- QCFG_SQ_LO.BASE [31:12], RW (R271). -/
def F.QCFG_SQ_LO_BASE : Fld := ⟨fldKey (0x501004) 12, 20, 0x0⟩
/-- QCFG_SQ_HI.BASE [31:0], RW (R271). -/
def F.QCFG_SQ_HI_BASE : Fld := ⟨fldKey (0x501008) 0, 32, 0x0⟩
/-- QCFG_CQ_LO.BASE [31:12], RW (R271). -/
def F.QCFG_CQ_LO_BASE : Fld := ⟨fldKey (0x50100C) 12, 20, 0x0⟩
/-- QCFG_CQ_HI.BASE [31:0], RW (R271). -/
def F.QCFG_CQ_HI_BASE : Fld := ⟨fldKey (0x501010) 0, 32, 0x0⟩
/-- QCFG_MIR_LO.ADDR [31:6], RW (R271). -/
def F.QCFG_MIR_LO_ADDR : Fld := ⟨fldKey (0x501014) 6, 26, 0x0⟩
/-- QCFG_MIR_HI.ADDR [31:0], RW (R271). -/
def F.QCFG_MIR_HI_ADDR : Fld := ⟨fldKey (0x501018) 0, 32, 0x0⟩
/-- QCFG_SIZE.SQ_LOG2 [4:0], RW (R271). -/
def F.QCFG_SIZE_SQ_LOG2 : Fld := ⟨fldKey (0x50101C) 0, 5, 0x6⟩
/-- QCFG_SIZE.reserved [7:5], RW (R271). -/
def F.QCFG_SIZE_RSV5 : Fld := ⟨fldKey (0x50101C) 5, 3, 0x0⟩
/-- QCFG_SIZE.CQ_LOG2 [12:8], RW (R271). -/
def F.QCFG_SIZE_CQ_LOG2 : Fld := ⟨fldKey (0x50101C) 8, 5, 0x6⟩
/-- QCFG_SIZE.reserved [15:13], RW (R271). -/
def F.QCFG_SIZE_RSV13 : Fld := ⟨fldKey (0x50101C) 13, 3, 0x0⟩
/-- QCFG_SIZE.SQ_ENG [16:16], RW (R271). -/
def F.QCFG_SIZE_SQ_ENG : Fld := ⟨fldKey (0x50101C) 16, 1, 0x0⟩
/-- QCFG_SIZE.CQ_ENG [17:17], RW (R271). -/
def F.QCFG_SIZE_CQ_ENG : Fld := ⟨fldKey (0x50101C) 17, 1, 0x0⟩
/-- QCFG_SIZE.MIR_ENG [18:18], RW (R271). -/
def F.QCFG_SIZE_MIR_ENG : Fld := ⟨fldKey (0x50101C) 18, 1, 0x0⟩
/-- QCFG_SIZE.MIR_EN [19:19], RW (R271). -/
def F.QCFG_SIZE_MIR_EN : Fld := ⟨fldKey (0x50101C) 19, 1, 0x0⟩
/-- QCFG_SIZE.WEIGHT [23:20], RW (R271). -/
def F.QCFG_SIZE_WEIGHT : Fld := ⟨fldKey (0x50101C) 20, 4, 0x1⟩
/-- QCFG_SIZE.reserved [31:24], RW (R271). -/
def F.QCFG_SIZE_RSV24 : Fld := ⟨fldKey (0x50101C) 24, 8, 0x6B⟩
/-- QCFG_IRQ.VECTOR [10:0], RW (R271). -/
def F.QCFG_IRQ_VECTOR : Fld := ⟨fldKey (0x501020) 0, 11, 0x0⟩
/-- QCFG_IRQ.reserved [11:11], RW (R271). -/
def F.QCFG_IRQ_RSV11 : Fld := ⟨fldKey (0x501020) 11, 1, 0x0⟩
/-- QCFG_IRQ.IRQ_EN [12:12], RW (R271). -/
def F.QCFG_IRQ_IRQ_EN : Fld := ⟨fldKey (0x501020) 12, 1, 0x0⟩
/-- QCFG_IRQ.reserved [15:13], RW (R271). -/
def F.QCFG_IRQ_RSV13 : Fld := ⟨fldKey (0x501020) 13, 3, 0x0⟩
/-- QCFG_IRQ.COAL_COUNT [23:16], RW (R271). -/
def F.QCFG_IRQ_COAL_COUNT : Fld := ⟨fldKey (0x501020) 16, 8, 0x1⟩
/-- QCFG_IRQ.COAL_TIME [31:24], RW (R271). -/
def F.QCFG_IRQ_COAL_TIME : Fld := ⟨fldKey (0x501020) 24, 8, 0x0⟩
/-- QI_SQ_PIDX.INDEX [31:0], RO (R271). -/
def F.QI_SQ_PIDX_INDEX : Fld := ⟨fldKey (0x501024) 0, 32, 0x0⟩
/-- QI_SQ_CIDX.INDEX [31:0], RO (R271). -/
def F.QI_SQ_CIDX_INDEX : Fld := ⟨fldKey (0x501028) 0, 32, 0x0⟩
/-- QI_CQ_CIDX.INDEX [31:0], RO (R271). -/
def F.QI_CQ_CIDX_INDEX : Fld := ⟨fldKey (0x50102C) 0, 32, 0x0⟩
/-- SQ_ERR_IDX.INDEX [31:0], RO (R271). -/
def F.SQ_ERR_IDX_INDEX : Fld := ⟨fldKey (0x501030) 0, 32, 0x0⟩
/-- QSTAT.ACTIVE [0:0], RO (R271). -/
def F.QSTAT_ACTIVE (i : Nat) : Fld := ⟨fldKey (0x540000 + i * 0x4) 0, 1, 0x0⟩
/-- QSTAT.ERR [1:1], RO (R271). -/
def F.QSTAT_ERR (i : Nat) : Fld := ⟨fldKey (0x540000 + i * 0x4) 1, 1, 0x0⟩
/-- QSTAT.FLUSHING [2:2], RO (R271). -/
def F.QSTAT_FLUSHING (i : Nat) : Fld := ⟨fldKey (0x540000 + i * 0x4) 2, 1, 0x0⟩
/-- QSTAT.DELETING [3:3], RO (R271). -/
def F.QSTAT_DELETING (i : Nat) : Fld := ⟨fldKey (0x540000 + i * 0x4) 3, 1, 0x0⟩
/-- QSTAT.INFLIGHT [11:5], RO (R271). -/
def F.QSTAT_INFLIGHT (i : Nat) : Fld := ⟨fldKey (0x540000 + i * 0x4) 5, 7, 0x0⟩
/-- CQ_PIDX.INDEX [31:0], RO (R271). -/
def F.CQ_PIDX_INDEX (i : Nat) : Fld := ⟨fldKey (0x580000 + i * 0x8) 0, 32, 0x0⟩
/-- CQSTAT.STALL [0:0], RO (R271). -/
def F.CQSTAT_STALL (i : Nat) : Fld := ⟨fldKey (0x580004 + i * 0x8) 0, 1, 0x0⟩
/-- CQSTAT.BACKLOG [7:1], RO (R271). -/
def F.CQSTAT_BACKLOG (i : Nat) : Fld := ⟨fldKey (0x580004 + i * 0x8) 1, 7, 0x0⟩
/-- HINGE_STAT.ACTIVE [6:0], RO (R350). -/
def F.HINGE_STAT_ACTIVE : Fld := ⟨fldKey (0x600000) 0, 7, 0x0⟩
/-- HINGE_STAT.HALT [8:8], RO (R350). -/
def F.HINGE_STAT_HALT : Fld := ⟨fldKey (0x600000) 8, 1, 0x0⟩
/-- HINGE_STAT.HALTS [31:16], RWH (R350). -/
def F.HINGE_STAT_HALTS : Fld := ⟨fldKey (0x600000) 16, 16, 0x0⟩
/-- HINGE_CTL.RESTART [0:0], W1S (R350). -/
def F.HINGE_CTL_RESTART : Fld := ⟨fldKey (0x600004) 0, 1, 0x0⟩
/-- HINGE_CTL.reserved [15:1], RW (R350). -/
def F.HINGE_CTL_RSV1 : Fld := ⟨fldKey (0x600004) 1, 15, 0x0⟩
/-- HINGE_CTL.reserved [23:16], RW (R350). -/
def F.HINGE_CTL_RSV16 : Fld := ⟨fldKey (0x600004) 16, 8, 0x4E⟩
/-- HINGE_ABORT_LO.CH [31:0], RWH (R350). -/
def F.HINGE_ABORT_LO_CH : Fld := ⟨fldKey (0x600008) 0, 32, 0x0⟩
/-- HINGE_ABORT_HI.CH [31:0], RWH (R350). -/
def F.HINGE_ABORT_HI_CH : Fld := ⟨fldKey (0x60000C) 0, 32, 0x0⟩
/-- HINGE_ERR_ADDR_LO.ADDR [31:0], RO (R350). -/
def F.HINGE_ERR_ADDR_LO_ADDR : Fld := ⟨fldKey (0x600010) 0, 32, 0x0⟩
/-- HINGE_ERR_ADDR_HI.ADDR [31:0], RO (R350). -/
def F.HINGE_ERR_ADDR_HI_ADDR : Fld := ⟨fldKey (0x600014) 0, 32, 0x0⟩
/-- HINGE_ERR_INFO.KIND [2:0], RO (R350). -/
def F.HINGE_ERR_INFO_KIND : Fld := ⟨fldKey (0x600018) 0, 3, 0x0⟩
/-- HINGE_ERR_INFO.PORT [3:3], RO (R350). -/
def F.HINGE_ERR_INFO_PORT : Fld := ⟨fldKey (0x600018) 3, 1, 0x0⟩
/-- HINGE_ERR_INFO.SLOT [9:4], RO (R350). -/
def F.HINGE_ERR_INFO_SLOT : Fld := ⟨fldKey (0x600018) 4, 6, 0x0⟩
/-- HINGE_ERR_INFO.MORE [10:10], RO (R350). -/
def F.HINGE_ERR_INFO_MORE : Fld := ⟨fldKey (0x600018) 10, 1, 0x0⟩
/-- HINGE_CH_STAT.BUSY [0:0], RO (R350). -/
def F.HINGE_CH_STAT_BUSY (i : Nat) : Fld := ⟨fldKey (0x601000 + i * 0x20) 0, 1, 0x0⟩
/-- HINGE_CH_STAT.STOPPED [1:1], RO (R350). -/
def F.HINGE_CH_STAT_STOPPED (i : Nat) : Fld := ⟨fldKey (0x601000 + i * 0x20) 1, 1, 0x0⟩
/-- HINGE_CH_STAT.ABANDONED [2:2], RO (R350). -/
def F.HINGE_CH_STAT_ABANDONED (i : Nat) : Fld := ⟨fldKey (0x601000 + i * 0x20) 2, 1, 0x0⟩
/-- HINGE_CH_STAT.ENGINE [3:3], RO (R350). -/
def F.HINGE_CH_STAT_ENGINE (i : Nat) : Fld := ⟨fldKey (0x601000 + i * 0x20) 3, 1, 0x0⟩
/-- HINGE_CH_DONE.COUNT [31:0], RO (R350). -/
def F.HINGE_CH_DONE_COUNT (i : Nat) : Fld := ⟨fldKey (0x601004 + i * 0x20) 0, 32, 0x0⟩
/-- HINGE_CH_TAG.TAG [31:0], RO (R350). -/
def F.HINGE_CH_TAG_TAG (i : Nat) : Fld := ⟨fldKey (0x601008 + i * 0x20) 0, 32, 0x0⟩
/-- HINGE_CH_NEXT_LO.ADDR [31:0], RO (R350). -/
def F.HINGE_CH_NEXT_LO_ADDR (i : Nat) : Fld := ⟨fldKey (0x60100C + i * 0x20) 0, 32, 0x0⟩
/-- HINGE_CH_NEXT_HI.ADDR [31:0], RO (R350). -/
def F.HINGE_CH_NEXT_HI_ADDR (i : Nat) : Fld := ⟨fldKey (0x601010 + i * 0x20) 0, 32, 0x0⟩
/-- HINGE_CH_CTL.STOP [0:0], W1S (R350). -/
def F.HINGE_CH_CTL_STOP (i : Nat) : Fld := ⟨fldKey (0x601014 + i * 0x20) 0, 1, 0x0⟩
/-- HINGE_CH_CTL.GO [1:1], W1S (R350). -/
def F.HINGE_CH_CTL_GO (i : Nat) : Fld := ⟨fldKey (0x601014 + i * 0x20) 1, 1, 0x0⟩
/-- DG_CTX_ALLOC.CTX [15:0], RO (R334). -/
def F.DG_CTX_ALLOC_CTX : Fld := ⟨fldKey (0x700000) 0, 16, 0x0⟩
/-- DG_CTX_FREE.COUNT [6:0], RO (R334). -/
def F.DG_CTX_FREE_COUNT : Fld := ⟨fldKey (0x700004) 0, 7, 0x40⟩
/-- KS_CMD.SLOT [5:0], RW (R334). -/
def F.KS_CMD_SLOT : Fld := ⟨fldKey (0x700010) 0, 6, 0x0⟩
/-- KS_CMD.reserved [7:6], RW (R334). -/
def F.KS_CMD_RSV6 : Fld := ⟨fldKey (0x700010) 6, 2, 0x0⟩
/-- KS_CMD.OP [10:8], RW (R334). -/
def F.KS_CMD_OP : Fld := ⟨fldKey (0x700010) 8, 3, 0x0⟩
/-- KS_CMD.reserved [11:11], RW (R334). -/
def F.KS_CMD_RSV11 : Fld := ⟨fldKey (0x700010) 11, 1, 0x0⟩
/-- KS_CMD.TYPE [14:12], RW (R334). -/
def F.KS_CMD_TYPE : Fld := ⟨fldKey (0x700010) 12, 3, 0x0⟩
/-- KS_CMD.reserved [15:15], RW (R334). -/
def F.KS_CMD_RSV15 : Fld := ⟨fldKey (0x700010) 15, 1, 0x0⟩
/-- KS_CMD.LEN [23:16], RW (R334). -/
def F.KS_CMD_LEN : Fld := ⟨fldKey (0x700010) 16, 8, 0x0⟩
/-- KS_CMD.GO [24:24], W1S (R334). -/
def F.KS_CMD_GO : Fld := ⟨fldKey (0x700010) 24, 1, 0x0⟩
/-- KS_STAT.BUSY [0:0], RO (R334). -/
def F.KS_STAT_BUSY : Fld := ⟨fldKey (0x700014) 0, 1, 0x0⟩
/-- KS_STAT.ERR [1:1], W1C (R334). -/
def F.KS_STAT_ERR : Fld := ⟨fldKey (0x700014) 1, 1, 0x0⟩
/-- KS_DATA.DATA [31:0], RW (R334). -/
def F.KS_DATA_DATA (i : Nat) : Fld := ⟨fldKey (0x700100 + i * 0x4) 0, 32, 0x0⟩
/-- KS_META.TYPE [2:0], RO (R334). -/
def F.KS_META_TYPE (i : Nat) : Fld := ⟨fldKey (0x700200 + i * 0x4) 0, 3, 0x0⟩
/-- KS_META.BAD [3:3], RO (R334). -/
def F.KS_META_BAD (i : Nat) : Fld := ⟨fldKey (0x700200 + i * 0x4) 3, 1, 0x0⟩
/-- KS_META.LEN [15:8], RO (R334). -/
def F.KS_META_LEN (i : Nat) : Fld := ⟨fldKey (0x700200 + i * 0x4) 8, 8, 0x0⟩
/-- DG_CTL.ALG [1:0], RW (R334). -/
def F.DG_CTL_ALG (i : Nat) : Fld := ⟨fldKey (0x701000 + i * 0x100) 0, 2, 0x0⟩
/-- DG_CTL.HMAC [2:2], RW (R334). -/
def F.DG_CTL_HMAC (i : Nat) : Fld := ⟨fldKey (0x701000 + i * 0x100) 2, 1, 0x0⟩
/-- DG_CTL.TO_SLOT [3:3], RW (R334). -/
def F.DG_CTL_TO_SLOT (i : Nat) : Fld := ⟨fldKey (0x701000 + i * 0x100) 3, 1, 0x0⟩
/-- DG_CTL.KEY_SLOT [9:4], RW (R334). -/
def F.DG_CTL_KEY_SLOT (i : Nat) : Fld := ⟨fldKey (0x701000 + i * 0x100) 4, 6, 0x0⟩
/-- DG_CTL.DEST_SLOT [15:10], RW (R334). -/
def F.DG_CTL_DEST_SLOT (i : Nat) : Fld := ⟨fldKey (0x701000 + i * 0x100) 10, 6, 0x0⟩
/-- DG_CTL.START [16:16], W1S (R334). -/
def F.DG_CTL_START (i : Nat) : Fld := ⟨fldKey (0x701000 + i * 0x100) 16, 1, 0x0⟩
/-- DG_CTL.FINAL [17:17], W1S (R334). -/
def F.DG_CTL_FINAL (i : Nat) : Fld := ⟨fldKey (0x701000 + i * 0x100) 17, 1, 0x0⟩
/-- DG_CTL.RELEASE [18:18], W1S (R334). -/
def F.DG_CTL_RELEASE (i : Nat) : Fld := ⟨fldKey (0x701000 + i * 0x100) 18, 1, 0x0⟩
/-- DG_LEN_LO.LEN [31:0], RW (R334). -/
def F.DG_LEN_LO_LEN (i : Nat) : Fld := ⟨fldKey (0x701004 + i * 0x100) 0, 32, 0x0⟩
/-- DG_LEN_HI.LEN [15:0], RW (R334). -/
def F.DG_LEN_HI_LEN (i : Nat) : Fld := ⟨fldKey (0x701008 + i * 0x100) 0, 16, 0x0⟩
/-- DG_STAT.ALLOC [0:0], RO (R334). -/
def F.DG_STAT_ALLOC (i : Nat) : Fld := ⟨fldKey (0x701018 + i * 0x100) 0, 1, 0x0⟩
/-- DG_STAT.BUSY [1:1], RO (R334). -/
def F.DG_STAT_BUSY (i : Nat) : Fld := ⟨fldKey (0x701018 + i * 0x100) 1, 1, 0x0⟩
/-- DG_STAT.DONE [2:2], RO (R334). -/
def F.DG_STAT_DONE (i : Nat) : Fld := ⟨fldKey (0x701018 + i * 0x100) 2, 1, 0x0⟩
/-- DG_STAT.EARLY [3:3], W1C (R334). -/
def F.DG_STAT_EARLY (i : Nat) : Fld := ⟨fldKey (0x701018 + i * 0x100) 3, 1, 0x0⟩
/-- DG_STAT.OVERRUN [4:4], W1C (R334). -/
def F.DG_STAT_OVERRUN (i : Nat) : Fld := ⟨fldKey (0x701018 + i * 0x100) 4, 1, 0x0⟩
/-- DG_STAT.LOST [5:5], W1C (R334). -/
def F.DG_STAT_LOST (i : Nat) : Fld := ⟨fldKey (0x701018 + i * 0x100) 5, 1, 0x0⟩
/-- DG_STAT.SHORT [6:6], RO (R334). -/
def F.DG_STAT_SHORT (i : Nat) : Fld := ⟨fldKey (0x701018 + i * 0x100) 6, 1, 0x0⟩
/-- DG_STAT.KEYERR [7:7], RO (R334). -/
def F.DG_STAT_KEYERR (i : Nat) : Fld := ⟨fldKey (0x701018 + i * 0x100) 7, 1, 0x0⟩
/-- DG_STAT.SLOTTED [8:8], RO (R334). -/
def F.DG_STAT_SLOTTED (i : Nat) : Fld := ⟨fldKey (0x701018 + i * 0x100) 8, 1, 0x0⟩
/-- DG_STAT.CMD [9:9], RO (R334). -/
def F.DG_STAT_CMD (i : Nat) : Fld := ⟨fldKey (0x701018 + i * 0x100) 9, 1, 0x0⟩
/-- DG_COUNT_LO.COUNT [31:0], RO (R334). -/
def F.DG_COUNT_LO_COUNT (i : Nat) : Fld := ⟨fldKey (0x701020 + i * 0x100) 0, 32, 0x0⟩
/-- DG_COUNT_HI.COUNT [31:0], RO (R334). -/
def F.DG_COUNT_HI_COUNT (i : Nat) : Fld := ⟨fldKey (0x701024 + i * 0x100) 0, 32, 0x0⟩
/-- DG_RESULT.WORD [31:0], RO (R334). -/
def F.DG_RESULT_WORD (i j : Nat) : Fld := ⟨fldKey (0x701040 + i * 0x100 + j * 0x4) 0, 32, 0x0⟩
/-- MC_STAT.NEAR_UP [5:0], RO (R236). -/
def F.MC_STAT_NEAR_UP : Fld := ⟨fldKey (0x900000) 0, 6, 0x0⟩
/-- MC_STAT.FAR_UP [13:6], RO (R236). -/
def F.MC_STAT_FAR_UP : Fld := ⟨fldKey (0x900000) 6, 8, 0x0⟩
/-- MC_STAT.TRAINING [14:14], RO (R236). -/
def F.MC_STAT_TRAINING : Fld := ⟨fldKey (0x900000) 14, 1, 0x0⟩
/-- MC_STAT.RETRAIN_BUSY [15:15], RO (R236). -/
def F.MC_STAT_RETRAIN_BUSY : Fld := ⟨fldKey (0x900000) 15, 1, 0x0⟩
/-- MC_STAT.REMAP_BUSY [16:16], RO (R236). -/
def F.MC_STAT_REMAP_BUSY : Fld := ⟨fldKey (0x900000) 16, 1, 0x0⟩
/-- MC_STAT.NEAR_HOT [17:17], RO (R236). -/
def F.MC_STAT_NEAR_HOT : Fld := ⟨fldKey (0x900000) 17, 1, 0x0⟩
/-- MC_STAT.FAR_HOT [18:18], RO (R236). -/
def F.MC_STAT_FAR_HOT : Fld := ⟨fldKey (0x900000) 18, 1, 0x0⟩
/-- MC_STAT.WPEND [31:31], RO (R236). -/
def F.MC_STAT_WPEND : Fld := ⟨fldKey (0x900000) 31, 1, 0x0⟩
/-- MC_RETRAIN.CHANNEL [6:0], RW (R236). -/
def F.MC_RETRAIN_CHANNEL : Fld := ⟨fldKey (0x900004) 0, 7, 0x0⟩
/-- MC_RETRAIN.reserved [7:7], RW (R236). -/
def F.MC_RETRAIN_RSV7 : Fld := ⟨fldKey (0x900004) 7, 1, 0x0⟩
/-- MC_RETRAIN.GO [8:8], W1S (R236). -/
def F.MC_RETRAIN_GO : Fld := ⟨fldKey (0x900004) 8, 1, 0x0⟩
/-- MC_RETRAIN.DONE [9:9], W1C (R236). -/
def F.MC_RETRAIN_DONE : Fld := ⟨fldKey (0x900004) 9, 1, 0x0⟩
/-- MC_RETRAIN.FAIL [10:10], W1C (R236). -/
def F.MC_RETRAIN_FAIL : Fld := ⟨fldKey (0x900004) 10, 1, 0x0⟩
/-- MC_CTL.NEAR_K [3:0], SH (R236). -/
def F.MC_CTL_NEAR_K : Fld := ⟨fldKey (0x900008) 0, 4, 0xB⟩
/-- MC_CTL.FAR_K [7:4], SH (R236). -/
def F.MC_CTL_FAR_K : Fld := ⟨fldKey (0x900008) 4, 4, 0xB⟩
/-- MC_CTL.SCRUB_EN [8:8], RW (R236). -/
def F.MC_CTL_SCRUB_EN : Fld := ⟨fldKey (0x900008) 8, 1, 0x1⟩
/-- MC_CTL.reserved [15:9], RW (R236). -/
def F.MC_CTL_RSV9 : Fld := ⟨fldKey (0x900008) 9, 7, 0x0⟩
/-- MC_CTL.reserved [23:16], RW (R236). -/
def F.MC_CTL_RSV16 : Fld := ⟨fldKey (0x900008) 16, 8, 0x96⟩
/-- MC_PD.NEAR_NS [15:0], RW (R236). -/
def F.MC_PD_NEAR_NS : Fld := ⟨fldKey (0x90000C) 0, 16, 0x3E8⟩
/-- MC_PD.FAR_NS [31:16], RW (R236). -/
def F.MC_PD_FAR_NS : Fld := ⟨fldKey (0x90000C) 16, 16, 0x3E8⟩
/-- MC_ECC_NEAR.CORRECTED [15:0], RWH (R236). -/
def F.MC_ECC_NEAR_CORRECTED : Fld := ⟨fldKey (0x900010) 0, 16, 0x0⟩
/-- MC_ECC_NEAR.UNCORRECTED [31:16], RWH (R236). -/
def F.MC_ECC_NEAR_UNCORRECTED : Fld := ⟨fldKey (0x900010) 16, 16, 0x0⟩
/-- MC_ECC_FAR.CORRECTED [15:0], RWH (R236). -/
def F.MC_ECC_FAR_CORRECTED : Fld := ⟨fldKey (0x900014) 0, 16, 0x0⟩
/-- MC_ECC_FAR.UNCORRECTED [31:16], RWH (R236). -/
def F.MC_ECC_FAR_UNCORRECTED : Fld := ⟨fldKey (0x900014) 16, 16, 0x0⟩
/-- MC_TEMP.NEAR_MAX [7:0], RO (R236). -/
def F.MC_TEMP_NEAR_MAX : Fld := ⟨fldKey (0x900018) 0, 8, 0x0⟩
/-- MC_TEMP.FAR_MAX [15:8], RO (R236). -/
def F.MC_TEMP_FAR_MAX : Fld := ⟨fldKey (0x900018) 8, 8, 0x0⟩
/-- MC_TOVR.PARAM [3:0], SH (R236). -/
def F.MC_TOVR_PARAM : Fld := ⟨fldKey (0x90001C) 0, 4, 0x0⟩
/-- MC_TOVR.FAR [4:4], SH (R236). -/
def F.MC_TOVR_FAR : Fld := ⟨fldKey (0x90001C) 4, 1, 0x0⟩
/-- MC_TOVR.reserved [15:5], RW (R236). -/
def F.MC_TOVR_RSV5 : Fld := ⟨fldKey (0x90001C) 5, 11, 0x0⟩
/-- MC_TOVR.VALUE [31:16], SH (R236). -/
def F.MC_TOVR_VALUE : Fld := ⟨fldKey (0x90001C) 16, 16, 0x0⟩
/-- TR_STAT.LINK [1:0], RO (R376). -/
def F.TR_STAT_LINK : Fld := ⟨fldKey (0xA00000) 0, 2, 0x0⟩
/-- TR_STAT.COMMIT_ERR [2:2], W1C (R376). -/
def F.TR_STAT_COMMIT_ERR : Fld := ⟨fldKey (0xA00000) 2, 1, 0x0⟩
/-- TR_STAT.LOST [29:16], RO (R376). -/
def F.TR_STAT_LOST : Fld := ⟨fldKey (0xA00000) 16, 14, 0x0⟩
/-- TR_STAT.WPEND [31:31], RO (R376). -/
def F.TR_STAT_WPEND : Fld := ⟨fldKey (0xA00000) 31, 1, 0x0⟩
/-- TR_EPOCH.EPOCH [31:0], RO (R376). -/
def F.TR_EPOCH_EPOCH : Fld := ⟨fldKey (0xA00004) 0, 32, 0x0⟩
/-- TR_NODE.NODE [15:0], RO (R376). -/
def F.TR_NODE_NODE : Fld := ⟨fldKey (0xA00008) 0, 16, 0xFFFF⟩
/-- TR_CTL.DATA_CLASS [2:0], SH (R376). -/
def F.TR_CTL_DATA_CLASS : Fld := ⟨fldKey (0xA0000C) 0, 3, 0x3⟩
/-- TR_CTL.reserved [7:3], RW (R376). -/
def F.TR_CTL_RSV3 : Fld := ⟨fldKey (0xA0000C) 3, 5, 0x0⟩
/-- TR_CTL.reserved [15:8], RW (R376). -/
def F.TR_CTL_RSV8 : Fld := ⟨fldKey (0xA0000C) 8, 8, 0x71⟩
/-- TR_PUT_SRC_LO.ADDR [31:0], RW (R376). -/
def F.TR_PUT_SRC_LO_ADDR (i : Nat) : Fld := ⟨fldKey (0xA00100 + i * 0x20) 0, 32, 0x0⟩
/-- TR_PUT_SRC_HI.ADDR [31:0], RW (R376). -/
def F.TR_PUT_SRC_HI_ADDR (i : Nat) : Fld := ⟨fldKey (0xA00104 + i * 0x20) 0, 32, 0x0⟩
/-- TR_PUT_DST_LO.ADDR [31:0], RW (R376). -/
def F.TR_PUT_DST_LO_ADDR (i : Nat) : Fld := ⟨fldKey (0xA00108 + i * 0x20) 0, 32, 0x0⟩
/-- TR_PUT_DST_HI.ADDR [31:0], RW (R376). -/
def F.TR_PUT_DST_HI_ADDR (i : Nat) : Fld := ⟨fldKey (0xA0010C + i * 0x20) 0, 32, 0x0⟩
/-- TR_PUT_LEN.LEN [31:0], RW (R376). -/
def F.TR_PUT_LEN_LEN (i : Nat) : Fld := ⟨fldKey (0xA00110 + i * 0x20) 0, 32, 0x0⟩
/-- TR_PUT_CTL.NODE [12:0], RW (R376). -/
def F.TR_PUT_CTL_NODE (i : Nat) : Fld := ⟨fldKey (0xA00114 + i * 0x20) 0, 13, 0x0⟩
/-- TR_PUT_CTL.DST_REG [13:13], RW (R376). -/
def F.TR_PUT_CTL_DST_REG (i : Nat) : Fld := ⟨fldKey (0xA00114 + i * 0x20) 13, 1, 0x0⟩
/-- TR_PUT_CTL.reserved [15:14], RW (R376). -/
def F.TR_PUT_CTL_RSV14 (i : Nat) : Fld := ⟨fldKey (0xA00114 + i * 0x20) 14, 2, 0x0⟩
/-- TR_PUT_CTL.GO [16:16], W1S (R376). -/
def F.TR_PUT_CTL_GO (i : Nat) : Fld := ⟨fldKey (0xA00114 + i * 0x20) 16, 1, 0x0⟩
/-- TR_PUT_STAT.BUSY [0:0], RO (R376). -/
def F.TR_PUT_STAT_BUSY (i : Nat) : Fld := ⟨fldKey (0xA00118 + i * 0x20) 0, 1, 0x0⟩
/-- TR_PUT_STAT.DONE [1:1], W1C (R376). -/
def F.TR_PUT_STAT_DONE (i : Nat) : Fld := ⟨fldKey (0xA00118 + i * 0x20) 1, 1, 0x0⟩
/-- TR_PUT_STAT.ERR [2:2], W1C (R376). -/
def F.TR_PUT_STAT_ERR (i : Nat) : Fld := ⟨fldKey (0xA00118 + i * 0x20) 2, 1, 0x0⟩
/-- FC_STAT.HALTED [0:0], RO (R434). -/
def F.FC_STAT_HALTED : Fld := ⟨fldKey (0xB00000) 0, 1, 0x0⟩
/-- FC_STAT.ANY_RECORD [1:1], RO (R434). -/
def F.FC_STAT_ANY_RECORD : Fld := ⟨fldKey (0xB00000) 1, 1, 0x0⟩
/-- FC_STAT.FENCE_EVENT [2:2], W1C (R434). -/
def F.FC_STAT_FENCE_EVENT : Fld := ⟨fldKey (0xB00000) 2, 1, 0x0⟩
/-- FC_STAT.INJ_ARMED [3:3], RO (R434). -/
def F.FC_STAT_INJ_ARMED : Fld := ⟨fldKey (0xB00000) 3, 1, 0x0⟩
/-- FI_CTL.SOURCE [8:0], RW (R434). -/
def F.FI_CTL_SOURCE : Fld := ⟨fldKey (0xB00010) 0, 9, 0x0⟩
/-- FI_CTL.BITS [10:9], RW (R434). -/
def F.FI_CTL_BITS : Fld := ⟨fldKey (0xB00010) 9, 2, 0x0⟩
/-- FI_CTL.MODE [12:11], RW (R434). -/
def F.FI_CTL_MODE : Fld := ⟨fldKey (0xB00010) 11, 2, 0x0⟩
/-- FI_CTL.ARM [16:16], W1S (R434). -/
def F.FI_CTL_ARM : Fld := ⟨fldKey (0xB00010) 16, 1, 0x0⟩
/-- FI_STAT.INJECTED [15:0], RWH (R434). -/
def F.FI_STAT_INJECTED : Fld := ⟨fldKey (0xB00014) 0, 16, 0x0⟩
/-- FI_STAT.UNSUPPORTED [16:16], W1C (R434). -/
def F.FI_STAT_UNSUPPORTED : Fld := ⟨fldKey (0xB00014) 16, 1, 0x0⟩
/-- FI_STAT.FIRED [17:17], W1C (R434). -/
def F.FI_STAT_FIRED : Fld := ⟨fldKey (0xB00014) 17, 1, 0x0⟩
/-- FC_STICKY.BITS [31:0], W1C (R434). -/
def F.FC_STICKY_BITS (i : Nat) : Fld := ⟨fldKey (0xB00100 + i * 0x4) 0, 32, 0x0⟩
/-- FC_SRC.COUNT [15:0], RWH (R434). -/
def F.FC_SRC_COUNT (i : Nat) : Fld := ⟨fldKey (0xB00800 + i * 0x4) 0, 16, 0x0⟩
/-- FC_SRC.SEV [18:16], RW (R434). -/
def F.FC_SRC_SEV (i : Nat) : Fld := ⟨fldKey (0xB00800 + i * 0x4) 16, 3, faultDefault i⟩
/-- FC_REC_STAT.SOURCE [8:0], RO (R434). -/
def F.FC_REC_STAT_SOURCE (i : Nat) : Fld := ⟨fldKey (0xB01000 + i * 0x40) 0, 9, 0x0⟩
/-- FC_REC_STAT.SEV [11:9], RO (R434). -/
def F.FC_REC_STAT_SEV (i : Nat) : Fld := ⟨fldKey (0xB01000 + i * 0x40) 9, 3, 0x0⟩
/-- FC_REC_STAT.OVERFLOW [12:12], RO (R434). -/
def F.FC_REC_STAT_OVERFLOW (i : Nat) : Fld := ⟨fldKey (0xB01000 + i * 0x40) 12, 1, 0x0⟩
/-- FC_REC_STAT.INJ [13:13], RO (R434). -/
def F.FC_REC_STAT_INJ (i : Nat) : Fld := ⟨fldKey (0xB01000 + i * 0x40) 13, 1, 0x0⟩
/-- FC_REC_STAT.VALID [31:31], W1C (R434). -/
def F.FC_REC_STAT_VALID (i : Nat) : Fld := ⟨fldKey (0xB01000 + i * 0x40) 31, 1, 0x0⟩
/-- FC_REC_SYN.SYN [31:0], RO (R434). -/
def F.FC_REC_SYN_SYN (i j : Nat) : Fld := ⟨fldKey (0xB01004 + i * 0x40 + j * 0x4) 0, 32, 0x0⟩
/-- FC_REC_TIME_LO.TIME [31:0], RO (R434). -/
def F.FC_REC_TIME_LO_TIME (i : Nat) : Fld := ⟨fldKey (0xB01014 + i * 0x40) 0, 32, 0x0⟩
/-- FC_REC_TIME_HI.TIME [31:0], RO (R434). -/
def F.FC_REC_TIME_HI_TIME (i : Nat) : Fld := ⟨fldKey (0xB01018 + i * 0x40) 0, 32, 0x0⟩
/-- DP_STAT.READY_COUNT [5:0], RO (R290). -/
def F.DP_STAT_READY_COUNT : Fld := ⟨fldKey (0xC00000) 0, 6, 0x0⟩
/-- DP_STAT.WPEND [31:31], RO (R290). -/
def F.DP_STAT_WPEND : Fld := ⟨fldKey (0xC00000) 31, 1, 0x0⟩
/-- DP_EVENT_LO.SLOTS [31:0], W1C (R290). -/
def F.DP_EVENT_LO_SLOTS : Fld := ⟨fldKey (0xC00004) 0, 32, 0x0⟩
/-- DP_EVENT_HI.SLOTS [15:0], W1C (R290). -/
def F.DP_EVENT_HI_SLOTS : Fld := ⟨fldKey (0xC00008) 0, 16, 0x0⟩
/-- DP_SLOT.PRESENT [0:0], RO (R290). -/
def F.DP_SLOT_PRESENT (i : Nat) : Fld := ⟨fldKey (0xC00100 + i * 0x4) 0, 1, 0x0⟩
/-- DP_SLOT.READY [1:1], RO (R290). -/
def F.DP_SLOT_READY (i : Nat) : Fld := ⟨fldKey (0xC00100 + i * 0x4) 1, 1, 0x0⟩
/-- DP_SLOT.WIDTH [4:2], RO (R290). -/
def F.DP_SLOT_WIDTH (i : Nat) : Fld := ⟨fldKey (0xC00100 + i * 0x4) 2, 3, 0x0⟩
/-- DP_SLOT.SPEED [7:5], RO (R290). -/
def F.DP_SLOT_SPEED (i : Nat) : Fld := ⟨fldKey (0xC00100 + i * 0x4) 5, 3, 0x0⟩
/-- DP_SLOT.HELD [8:8], RO (R290). -/
def F.DP_SLOT_HELD (i : Nat) : Fld := ⟨fldKey (0xC00100 + i * 0x4) 8, 1, 0x0⟩
/-- DP_SLOT.VWC [9:9], RO (R290). -/
def F.DP_SLOT_VWC (i : Nat) : Fld := ⟨fldKey (0xC00100 + i * 0x4) 9, 1, 0x0⟩
/-- THR_STAT.UNITS_FREE [10:0], RO (R290). -/
def F.THR_STAT_UNITS_FREE : Fld := ⟨fldKey (0xD00000) 0, 11, 0x400⟩
/-- THR_STAT.PF_SAFE [11:11], RO (R290). -/
def F.THR_STAT_PF_SAFE : Fld := ⟨fldKey (0xD00000) 11, 1, 0x0⟩
/-- THR_STAT.DRAINING [12:12], RO (R290). -/
def F.THR_STAT_DRAINING : Fld := ⟨fldKey (0xD00000) 12, 1, 0x0⟩
/-- THR_STAT.HELD [13:13], RO (R290). -/
def F.THR_STAT_HELD : Fld := ⟨fldKey (0xD00000) 13, 1, 0x0⟩
/-- THR_STAT.WPEND [31:31], RO (R290). -/
def F.THR_STAT_WPEND : Fld := ⟨fldKey (0xD00000) 31, 1, 0x0⟩
/-- THR_HELD_LO.SLOTS [31:0], RO (R290). -/
def F.THR_HELD_LO_SLOTS : Fld := ⟨fldKey (0xD00004) 0, 32, 0x0⟩
/-- THR_HELD_HI.SLOTS [15:0], RO (R290). -/
def F.THR_HELD_HI_SLOTS : Fld := ⟨fldKey (0xD00008) 0, 16, 0x0⟩
/-- THR_DISCARD.SLOT [5:0], RW (R290). -/
def F.THR_DISCARD_SLOT : Fld := ⟨fldKey (0xD0000C) 0, 6, 0x0⟩
/-- THR_DISCARD.GO [6:6], W1S (R290). -/
def F.THR_DISCARD_GO : Fld := ⟨fldKey (0xD0000C) 6, 1, 0x0⟩
/-- THR_WEAR.WEAR_PCT [7:0], RO (R290). -/
def F.THR_WEAR_WEAR_PCT : Fld := ⟨fldKey (0xD00010) 0, 8, 0x0⟩
/-- THR_WEAR.RETIRED [18:8], RO (R290). -/
def F.THR_WEAR_RETIRED : Fld := ⟨fldKey (0xD00010) 8, 11, 0x0⟩
/-- PWR_STAT.STATE [1:0], RO (R456). -/
def F.PWR_STAT_STATE : Fld := ⟨fldKey (0xE00000) 0, 2, 0x0⟩
/-- PWR_STAT.GATED [5:2], RO (R456). -/
def F.PWR_STAT_GATED : Fld := ⟨fldKey (0xE00000) 2, 4, 0xF⟩
/-- PWR_STAT.SHELF_DARK [6:6], RO (R456). -/
def F.PWR_STAT_SHELF_DARK : Fld := ⟨fldKey (0xE00000) 6, 1, 0x0⟩
/-- PWR_STAT.PARK_OK [7:7], RO (R456). -/
def F.PWR_STAT_PARK_OK : Fld := ⟨fldKey (0xE00000) 7, 1, 0x0⟩
/-- PWR_STAT.PWR_FAIL [8:8], RO (R456). -/
def F.PWR_STAT_PWR_FAIL : Fld := ⟨fldKey (0xE00000) 8, 1, 0x0⟩
/-- PWR_STAT.WPEND [31:31], RO (R456). -/
def F.PWR_STAT_WPEND : Fld := ⟨fldKey (0xE00000) 31, 1, 0x0⟩
/-- PWR_CTL.DEVICE_RESET [0:0], W1S (R456). -/
def F.PWR_CTL_DEVICE_RESET : Fld := ⟨fldKey (0xE00004) 0, 1, 0x0⟩
/-- PWR_CTL.reserved [7:1], RW (R456). -/
def F.PWR_CTL_RSV1 : Fld := ⟨fldKey (0xE00004) 1, 7, 0x0⟩
/-- TB_LO.TIME [31:0], RO (R456). -/
def F.TB_LO_TIME : Fld := ⟨fldKey (0xE00008) 0, 32, 0x0⟩
/-- TB_HI.TIME [31:0], RO (R456). -/
def F.TB_HI_TIME : Fld := ⟨fldKey (0xE0000C) 0, 32, 0x0⟩
/-- AVS_STAT.VOUT_MV [11:0], RO (R476). -/
def F.AVS_STAT_VOUT_MV : Fld := ⟨fldKey (0xE00100) 0, 12, 0x0⟩
/-- AVS_STAT.IOUT_A [21:12], RO (R476). -/
def F.AVS_STAT_IOUT_A : Fld := ⟨fldKey (0xE00100) 12, 10, 0x0⟩
/-- AVS_STAT.FAULT [22:22], RO (R476). -/
def F.AVS_STAT_FAULT : Fld := ⟨fldKey (0xE00100) 22, 1, 0x0⟩
/-- AVS_TARGET.MV [11:0], RO (R476). -/
def F.AVS_TARGET_MV : Fld := ⟨fldKey (0xE00104) 0, 12, 0x320⟩
/-- AVS_TARGET.MODE [13:12], RO (R476). -/
def F.AVS_TARGET_MODE : Fld := ⟨fldKey (0xE00104) 12, 2, 0x0⟩
/-- AVS_OVR.MV [11:0], RW (R476). -/
def F.AVS_OVR_MV : Fld := ⟨fldKey (0xE00108) 0, 12, 0x2EE⟩
/-- AVS_OVR.EN [12:12], RW (R476). -/
def F.AVS_OVR_EN : Fld := ⟨fldKey (0xE00108) 12, 1, 0x0⟩
/-- AVS_OVR.reserved [15:13], RW (R476). -/
def F.AVS_OVR_RSV13 : Fld := ⟨fldKey (0xE00108) 13, 3, 0x0⟩
/-- CRATE_C.RATE [15:0], RO (R26). -/
def F.CRATE_C_RATE (i : Nat) : Fld := ⟨fldKey (0xE00200 + i * 0x4) 0, 16, 0x0⟩
/-- CRATE_C.TJ [23:16], RO (R26). -/
def F.CRATE_C_TJ (i : Nat) : Fld := ⟨fldKey (0xE00200 + i * 0x4) 16, 8, 0x0⟩
/-- CRATE_C.GATED [30:30], RO (R26). -/
def F.CRATE_C_GATED (i : Nat) : Fld := ⟨fldKey (0xE00200 + i * 0x4) 30, 1, 0x1⟩
/-- CRATE_C.VALID [31:31], RO (R26). -/
def F.CRATE_C_VALID (i : Nat) : Fld := ⟨fldKey (0xE00200 + i * 0x4) 31, 1, 0x0⟩
/-- CRATE_CTL.WINDOW [15:0], RW (R26). -/
def F.CRATE_CTL_WINDOW : Fld := ⟨fldKey (0xE00210) 0, 16, 0xA⟩
/-- FUSE_CTL.WORD [6:0], RW (R456). -/
def F.FUSE_CTL_WORD : Fld := ⟨fldKey (0xE00300) 0, 7, 0x0⟩
/-- FUSE_CTL.reserved [7:7], RW (R456). -/
def F.FUSE_CTL_RSV7 : Fld := ⟨fldKey (0xE00300) 7, 1, 0x0⟩
/-- FUSE_CTL.READ [8:8], W1S (R456). -/
def F.FUSE_CTL_READ : Fld := ⟨fldKey (0xE00300) 8, 1, 0x0⟩
/-- FUSE_CTL.PROGRAM [9:9], W1S (R456). -/
def F.FUSE_CTL_PROGRAM : Fld := ⟨fldKey (0xE00300) 9, 1, 0x0⟩
/-- FUSE_CTL.DONE [10:10], W1C (R456). -/
def F.FUSE_CTL_DONE : Fld := ⟨fldKey (0xE00300) 10, 1, 0x0⟩
/-- FUSE_DATA.DATA [31:0], RW (R456). -/
def F.FUSE_DATA_DATA : Fld := ⟨fldKey (0xE00304) 0, 32, 0x0⟩
/-- SENS_TEMP.TEMP [7:0], RO (R476). -/
def F.SENS_TEMP_TEMP (i : Nat) : Fld := ⟨fldKey (0xE00400 + i * 0x4) 0, 8, 0x0⟩
/-- SENS_TEMP.VALID [8:8], RO (R476). -/
def F.SENS_TEMP_VALID (i : Nat) : Fld := ⟨fldKey (0xE00400 + i * 0x4) 8, 1, 0x0⟩

end Sys2Proof.Machine
end

