-- ==== Sys2Proof/Machine/ObjTable.lean ====
section
/-!
DEFINITION. The object dictionary (R16, R29, R64, R92, R118, R139, R167, R191, R214, R237, R272, R291, R310, R335,
R351, R377, R398, R435, R458, R477): one row per object or run of objects, with its size in bytes, its access and
its default.
-/

namespace Sys2Proof.Machine

/-- Object access types (R16). -/
inductive ObjAcc where
  | ro | rw | wo | rwp
deriving DecidableEq, Repr

/-- Objects idx + i × stride for i < count, subindices sub to sub + subs - 1, of one size, access and default. -/
structure ObjRow where
  idx : Nat
  stride : Nat
  count : Nat
  sub : Nat
  subs : Nat
  size : Nat
  acc : ObjAcc
  dflt : Nat
deriving DecidableEq, Repr

/-- An object by name: its key, its size in bytes and the value it reads as while nothing has written it. -/
structure Obj where
  key : Nat
  size : Nat
  dflt : Nat
deriving DecidableEq, Repr

/-- The key of object index:sub. -/
def objKey (index sub : Nat) : Nat := index * 256 + sub

/-- The near timing defaults of R235, parameters 1 to 11, in 0.1 ns. -/
def nearTimingDefaults : List Nat := [60, 60, 60, 180, 240, 30, 240, 120, 40, 2600, 39000]

/-- Object rows, part 0. -/
def objRows0 : List ObjRow := [
  ⟨0x1000, 0x0, 1, 0x0, 1, 1, .ro, 0x4⟩,
  ⟨0x1000, 0x0, 1, 0x1, 1, 2, .ro, 0x0⟩,
  ⟨0x1000, 0x0, 1, 0x2, 1, 2, .ro, 0x0⟩,
  ⟨0x1000, 0x0, 1, 0x3, 1, 1, .ro, 0x0⟩,
  ⟨0x1000, 0x0, 1, 0x4, 1, 6, .ro, 0x0⟩,
  ⟨0x1010, 0x0, 1, 0x0, 1, 1, .ro, 0x4⟩,
  ⟨0x1010, 0x0, 1, 0x1, 1, 4, .ro, 0x7840F1B1⟩,
  ⟨0x1010, 0x0, 1, 0x2, 1, 4, .ro, 0x1E7C⟩,
  ⟨0x1010, 0x0, 1, 0x3, 1, 16, .ro, 0x0⟩,
  ⟨0x1010, 0x0, 1, 0x4, 1, 12, .ro, 0x0⟩,
  ⟨0x1020, 0x0, 1, 0x0, 1, 1, .ro, 0x3⟩,
  ⟨0x1020, 0x0, 1, 0x1, 1, 1, .ro, 0x0⟩,
  ⟨0x1020, 0x0, 1, 0x2, 1, 4, .wo, 0x0⟩,
  ⟨0x1020, 0x0, 1, 0x3, 1, 4, .ro, 0x0⟩,
  ⟨0x1030, 0x0, 1, 0x0, 1, 1, .ro, 0x3⟩,
  ⟨0x1030, 0x0, 1, 0x1, 1, 1, .rw, 0x1⟩,
  ⟨0x1030, 0x0, 1, 0x2, 1, 1, .rw, 0x1⟩,
  ⟨0x1030, 0x0, 1, 0x3, 1, 1, .rw, 0x1⟩,
  ⟨0x2010, 0x0, 1, 0x0, 1, 2, .ro, 0x100⟩,
  ⟨0x2030, 0x0, 1, 0x0, 1, 1, .ro, 0x2⟩,
  ⟨0x2030, 0x0, 1, 0x1, 1, 1, .ro, 0x0⟩,
  ⟨0x2030, 0x0, 1, 0x2, 1, 1, .ro, 0x10⟩,
  ⟨0x2040, 0x0, 1, 0x0, 1, 1, .ro, 0x2⟩,
  ⟨0x2040, 0x0, 1, 0x1, 1, 8, .ro, 0x0⟩,
  ⟨0x2040, 0x0, 1, 0x2, 1, 8, .ro, 0x0⟩,
  ⟨0x2050, 0x0, 1, 0x0, 1, 1, .ro, 0x2⟩,
  ⟨0x2050, 0x0, 1, 0x1, 1, 8, .ro, 0x0⟩,
  ⟨0x2050, 0x0, 1, 0x2, 1, 8, .ro, 0x0⟩,
  ⟨0x2060, 0x0, 1, 0x0, 1, 1, .ro, 0x3⟩,
  ⟨0x2060, 0x0, 1, 0x1, 1, 2, .ro, 0x400⟩,
  ⟨0x2060, 0x0, 1, 0x2, 1, 4, .ro, 0x0⟩,
  ⟨0x2060, 0x0, 1, 0x3, 1, 1, .ro, 0x0⟩,
  ⟨0x2070, 0x0, 1, 0x0, 1, 1, .ro, 0x31⟩,
  ⟨0x2070, 0x0, 1, 0x1, 48, 1, .ro, 0x0⟩,
  ⟨0x2070, 0x0, 1, 0x31, 1, 4, .ro, 0x0⟩,
  ⟨0x2080, 0x0, 1, 0x0, 1, 1, .ro, 0x1⟩,
  ⟨0x2080, 0x0, 1, 0x1, 1, 1, .ro, 0x30⟩,
  ⟨0x2090, 0x0, 1, 0x0, 1, 1, .ro, 0x1⟩,
  ⟨0x2090, 0x0, 1, 0x1, 1, 1, .ro, 0x0⟩,
  ⟨0x20A0, 0x0, 1, 0x0, 1, 1, .ro, 0x4⟩]

/-- Object rows, part 1. -/
def objRows1 : List ObjRow := [
  ⟨0x20A0, 0x0, 1, 0x1, 1, 1, .ro, 0x0⟩,
  ⟨0x20A0, 0x0, 1, 0x2, 1, 1, .ro, 0x60⟩,
  ⟨0x20A0, 0x0, 1, 0x3, 1, 1, .ro, 0x4⟩,
  ⟨0x20A0, 0x0, 1, 0x4, 1, 96, .ro, 0x0⟩,
  ⟨0x20B0, 0x0, 1, 0x0, 1, 1, .ro, 0x7⟩,
  ⟨0x20B0, 0x0, 1, 0x1, 1, 1, .ro, 0x0⟩,
  ⟨0x20B0, 0x0, 1, 0x2, 1, 2, .ro, 0x0⟩,
  ⟨0x20B0, 0x0, 1, 0x3, 1, 8, .ro, 0x0⟩,
  ⟨0x20B0, 0x0, 1, 0x4, 1, 8, .ro, 0x0⟩,
  ⟨0x20B0, 0x0, 1, 0x5, 1, 4, .wo, 0x0⟩,
  ⟨0x20B0, 0x0, 1, 0x6, 1, 1, .ro, 0x0⟩,
  ⟨0x20B0, 0x0, 1, 0x7, 1, 1, .ro, 0x0⟩,
  ⟨0x20C0, 0x0, 1, 0x0, 1, 1, .ro, 0x5⟩,
  ⟨0x20C0, 0x0, 1, 0x1, 1, 2, .ro, 0x0⟩,
  ⟨0x20C0, 0x0, 1, 0x2, 1, 2, .ro, 0x0⟩,
  ⟨0x20C0, 0x0, 1, 0x3, 1, 2, .ro, 0x0⟩,
  ⟨0x20C0, 0x0, 1, 0x4, 1, 1, .ro, 0x0⟩,
  ⟨0x20C0, 0x0, 1, 0x5, 1, 1, .rw, 0x0⟩,
  ⟨0x2100, 0x1, 256, 0x0, 1, 1, .ro, 0x7⟩,
  ⟨0x2100, 0x1, 256, 0x1, 1, 1, .ro, 0x0⟩,
  ⟨0x2100, 0x1, 256, 0x2, 1, 2, .ro, 0x0⟩,
  ⟨0x2100, 0x1, 256, 0x3, 1, 8, .ro, 0x0⟩,
  ⟨0x2100, 0x1, 256, 0x4, 1, 8, .ro, 0x0⟩,
  ⟨0x2100, 0x1, 256, 0x5, 1, 16, .ro, 0x0⟩,
  ⟨0x2100, 0x1, 256, 0x6, 1, 4, .ro, 0x0⟩,
  ⟨0x2100, 0x1, 256, 0x7, 1, 1, .ro, 0x0⟩,
  ⟨0x3010, 0x0, 1, 0x0, 1, 8, .rwp, 0x1000000000⟩,
  ⟨0x3011, 0x0, 1, 0x0, 1, 1, .rw, 0x4⟩,
  ⟨0x3020, 0x0, 1, 0x0, 1, 1, .rw, 0x1⟩,
  ⟨0x3030, 0x0, 1, 0x0, 1, 8, .rw, 0x1000000000⟩,
  ⟨0x3031, 0x0, 1, 0x0, 1, 8, .rw, 0xFFFFFFFFFFFFFFFF⟩,
  ⟨0x3032, 0x0, 1, 0x0, 1, 1, .rw, 0x8⟩,
  ⟨0x3040, 0x0, 1, 0x0, 1, 4, .rw, 0x180000⟩,
  ⟨0x3041, 0x0, 1, 0x0, 1, 1, .rw, 0x8⟩,
  ⟨0x3050, 0x0, 1, 0x0, 1, 4, .rw, 0x1F40⟩,
  ⟨0x3051, 0x0, 1, 0x0, 1, 4, .rw, 0x3E80⟩,
  ⟨0x3052, 0x0, 1, 0x0, 1, 4, .rw, 0x186A0⟩,
  ⟨0x3053, 0x0, 1, 0x0, 1, 2, .rw, 0x40⟩,
  ⟨0x3070, 0x0, 1, 0x0, 1, 1, .ro, 0xC⟩,
  ⟨0x3070, 0x0, 1, 0x1, 12, 1, .rwp, 0x0⟩]

/-- Object rows, part 2. -/
def objRows2 : List ObjRow := [
  ⟨0x3071, 0x0, 1, 0x0, 1, 1, .ro, 0x2⟩,
  ⟨0x3071, 0x0, 1, 0x1, 1, 4, .rw, 0x7530⟩,
  ⟨0x3071, 0x0, 1, 0x2, 1, 2, .rw, 0xFFFF⟩,
  ⟨0x3090, 0x0, 1, 0x0, 1, 1, .ro, 0x2⟩,
  ⟨0x3090, 0x0, 1, 0x1, 1, 4, .rw, 0x186A0⟩,
  ⟨0x3090, 0x0, 1, 0x2, 1, 2, .rw, 0xFFFF⟩,
  ⟨0x30A0, 0x0, 1, 0x0, 1, 1, .ro, 0x1⟩,
  ⟨0x30A0, 0x0, 1, 0x1, 1, 2, .rw, 0xFFFF⟩,
  ⟨0x30B0, 0x0, 1, 0x0, 1, 1, .ro, 0x3⟩,
  ⟨0x30B0, 0x0, 1, 0x1, 1, 4, .rw, 0x3E8⟩,
  ⟨0x30B0, 0x0, 1, 0x2, 1, 4, .rw, 0x64⟩,
  ⟨0x30B0, 0x0, 1, 0x3, 1, 1, .rw, 0x0⟩,
  ⟨0x30C0, 0x0, 1, 0x0, 1, 1, .ro, 0x7⟩,
  ⟨0x30C0, 0x0, 1, 0x1, 1, 1, .rwp, 0x0⟩,
  ⟨0x30C0, 0x0, 1, 0x2, 1, 2, .rwp, 0x2EE⟩,
  ⟨0x30C0, 0x0, 1, 0x3, 1, 2, .rwp, 0x708⟩,
  ⟨0x30C0, 0x0, 1, 0x4, 1, 2, .rwp, 0x28A⟩,
  ⟨0x30C0, 0x0, 1, 0x5, 1, 2, .rwp, 0x384⟩,
  ⟨0x30C0, 0x0, 1, 0x6, 1, 2, .rwp, 0x190⟩,
  ⟨0x30C0, 0x0, 1, 0x7, 1, 1, .rwp, 0x40⟩,
  ⟨0x3100, 0x1, 256, 0x0, 1, 1, .ro, 0x3⟩,
  ⟨0x3100, 0x1, 256, 0x1, 1, 1, .rw, 0x0⟩,
  ⟨0x3100, 0x1, 256, 0x2, 1, 1, .rw, 0x0⟩,
  ⟨0x3100, 0x1, 256, 0x3, 1, 1, .rw, 0x4⟩,
  ⟨0x3200, 0x1, 256, 0x0, 1, 1, .ro, 0x1⟩,
  ⟨0x3200, 0x1, 256, 0x1, 1, 1, .rw, 0xFF⟩,
  ⟨0x3E00, 0x0, 1, 0x0, 1, 2, .rw, 0xA⟩,
  ⟨0x4010, 0x400, 4, 0x0, 1, 1, .ro, 0x3⟩,
  ⟨0x4010, 0x400, 4, 0x1, 1, 1, .rw, 0x0⟩,
  ⟨0x4010, 0x400, 4, 0x2, 1, 4, .rw, 0xFA0⟩,
  ⟨0x4010, 0x400, 4, 0x3, 1, 1, .rw, 0x1⟩,
  ⟨0x4020, 0x400, 4, 0x0, 1, 1, .ro, 0x3⟩,
  ⟨0x4020, 0x400, 4, 0x1, 1, 4, .rw, 0x0⟩,
  ⟨0x4020, 0x400, 4, 0x2, 1, 2, .ro, 0x0⟩,
  ⟨0x4020, 0x400, 4, 0x3, 1, 2, .ro, 0x0⟩,
  ⟨0x4030, 0x400, 4, 0x0, 1, 1, .ro, 0x6⟩,
  ⟨0x4030, 0x400, 4, 0x1, 1, 2, .rw, 0xF⟩,
  ⟨0x4030, 0x400, 4, 0x2, 1, 2, .rw, 0xFFF0⟩,
  ⟨0x4030, 0x400, 4, 0x3, 1, 1, .rw, 0x1⟩,
  ⟨0x4030, 0x400, 4, 0x4, 1, 1, .rw, 0x10⟩]

/-- Object rows, part 3. -/
def objRows3 : List ObjRow := [
  ⟨0x4030, 0x400, 4, 0x5, 1, 1, .rw, 0x2⟩,
  ⟨0x4030, 0x400, 4, 0x6, 1, 1, .rw, 0x8⟩,
  ⟨0x4040, 0x400, 4, 0x0, 1, 1, .ro, 0x2⟩,
  ⟨0x4040, 0x400, 4, 0x1, 1, 2, .rw, 0x0⟩,
  ⟨0x4040, 0x400, 4, 0x2, 1, 1, .ro, 0x0⟩,
  ⟨0x5002, 0x20, 96, 0x0, 1, 1, .ro, 0x2⟩,
  ⟨0x5002, 0x20, 96, 0x1, 1, 1, .rw, 0x0⟩,
  ⟨0x5002, 0x20, 96, 0x2, 1, 1, .ro, 0x0⟩,
  ⟨0x5004, 0x20, 96, 0x0, 1, 1, .ro, 0x2⟩,
  ⟨0x5004, 0x20, 96, 0x1, 1, 2, .ro, 0x0⟩,
  ⟨0x5004, 0x20, 96, 0x2, 1, 2, .ro, 0x0⟩,
  ⟨0x5008, 0x20, 96, 0x0, 1, 1, .ro, 0x3⟩,
  ⟨0x5008, 0x20, 96, 0x1, 1, 1, .ro, 0x0⟩,
  ⟨0x5008, 0x20, 96, 0x2, 1, 1, .rw, 0x0⟩,
  ⟨0x5008, 0x20, 96, 0x3, 1, 1, .rw, 0x0⟩,
  ⟨0x6000, 0x0, 1, 0x0, 1, 1, .ro, 0x3⟩,
  ⟨0x6000, 0x0, 1, 0x1, 1, 4, .ro, 0x0⟩,
  ⟨0x6000, 0x0, 1, 0x2, 1, 2, .ro, 0x0⟩,
  ⟨0x6000, 0x0, 1, 0x3, 1, 2, .ro, 0x0⟩,
  ⟨0x6010, 0x0, 1, 0x0, 1, 2, .rw, 0x8000⟩,
  ⟨0x6011, 0x0, 1, 0x0, 1, 1, .rw, 0x40⟩,
  ⟨0x6100, 0x0, 1, 0x0, 1, 1, .ro, 0xB⟩,
  ⟨0x6100, 0x0, 1, 0x1, 1, 2, .rwp, 0xFFFF⟩,
  ⟨0x6100, 0x0, 1, 0x2, 1, 16, .rwp, 0x0⟩,
  ⟨0x6100, 0x0, 1, 0x3, 1, 2, .rwp, 0xC660⟩,
  ⟨0x6100, 0x0, 1, 0x4, 1, 2, .rwp, 0x0⟩,
  ⟨0x6100, 0x0, 1, 0x5, 1, 2, .rwp, 0x2328⟩,
  ⟨0x6100, 0x0, 1, 0x6, 1, 8, .rw, 0x0⟩,
  ⟨0x6100, 0x0, 1, 0x7, 1, 1, .rw, 0x3⟩,
  ⟨0x6100, 0x0, 1, 0x8, 1, 1, .rwp, 0x48⟩,
  ⟨0x6100, 0x0, 1, 0x9, 2, 6, .ro, 0x0⟩,
  ⟨0x6100, 0x0, 1, 0xB, 1, 2, .rwp, 0x0⟩,
  ⟨0x6110, 0x0, 1, 0x0, 1, 1, .ro, 0x6⟩,
  ⟨0x6110, 0x0, 1, 0x1, 1, 1024, .rw, 0x0⟩,
  ⟨0x6110, 0x0, 1, 0x2, 1, 4, .wo, 0x0⟩,
  ⟨0x6110, 0x0, 1, 0x3, 1, 4, .ro, 0x0⟩,
  ⟨0x6110, 0x0, 1, 0x4, 1, 2, .ro, 0x0⟩,
  ⟨0x6110, 0x0, 1, 0x5, 1, 1024, .ro, 0x0⟩,
  ⟨0x6110, 0x0, 1, 0x6, 1, 2, .rw, 0xFFFF⟩,
  ⟨0x6120, 0x0, 1, 0x0, 1, 1, .ro, 0x7⟩]

/-- Object rows, part 4. The table of R237 has no row for subindex 0 of 0x7020 and 0x7030: it reads the number of entries, as R16
has it (assumption log 157). -/
def objRows4 : List ObjRow := [
  ⟨0x6120, 0x0, 1, 0x1, 1, 2, .rw, 0x10⟩,
  ⟨0x6120, 0x0, 1, 0x2, 1, 8, .rw, 0x40000000⟩,
  ⟨0x6120, 0x0, 1, 0x3, 1, 4, .rw, 0x40000⟩,
  ⟨0x6120, 0x0, 1, 0x4, 1, 4, .rw, 0x64⟩,
  ⟨0x6120, 0x0, 1, 0x5, 1, 1, .rw, 0x8⟩,
  ⟨0x6120, 0x0, 1, 0x6, 1, 4, .rw, 0x2710⟩,
  ⟨0x6120, 0x0, 1, 0x7, 1, 4, .rw, 0x14⟩,
  ⟨0x7000, 0x0, 1, 0x0, 1, 1, .ro, 0x6⟩,
  ⟨0x7000, 0x0, 1, 0x1, 1, 8, .ro, 0x0⟩,
  ⟨0x7000, 0x0, 1, 0x2, 1, 8, .ro, 0x0⟩,
  ⟨0x7000, 0x0, 1, 0x3, 1, 8, .ro, 0x0⟩,
  ⟨0x7000, 0x0, 1, 0x4, 1, 8, .ro, 0x0⟩,
  ⟨0x7000, 0x0, 1, 0x5, 1, 2, .ro, 0x0⟩,
  ⟨0x7000, 0x0, 1, 0x6, 1, 1, .ro, 0x0⟩,
  ⟨0x7001, 0x0, 1, 0x0, 1, 1, .rwp, 0x2⟩,
  ⟨0x7002, 0x0, 1, 0x0, 1, 8, .rwp, 0x180000000⟩,
  ⟨0x7003, 0x0, 1, 0x0, 1, 1, .rw, 0xB⟩,
  ⟨0x7004, 0x0, 1, 0x0, 1, 1, .rw, 0xB⟩,
  ⟨0x7005, 0x0, 1, 0x0, 1, 1, .rw, 0xA⟩,
  ⟨0x7006, 0x0, 1, 0x0, 1, 4, .rw, 0x5265C00⟩,
  ⟨0x7010, 0x0, 1, 0x0, 1, 1, .ro, 0x68⟩,
  ⟨0x7010, 0x0, 1, 0x1, 104, 1, .rwp, 0x0⟩,
  ⟨0x7020, 0x0, 1, 0x0, 1, 1, .ro, 0xB⟩,
  ⟨0x7020, 0x0, 1, 0x1, 1, 2, .rwp, 0x3C⟩,
  ⟨0x7020, 0x0, 1, 0x2, 1, 2, .rwp, 0x3C⟩,
  ⟨0x7020, 0x0, 1, 0x3, 1, 2, .rwp, 0x3C⟩,
  ⟨0x7020, 0x0, 1, 0x4, 1, 2, .rwp, 0xB4⟩,
  ⟨0x7020, 0x0, 1, 0x5, 1, 2, .rwp, 0xF0⟩,
  ⟨0x7020, 0x0, 1, 0x6, 1, 2, .rwp, 0x1E⟩,
  ⟨0x7020, 0x0, 1, 0x7, 1, 2, .rwp, 0xF0⟩,
  ⟨0x7020, 0x0, 1, 0x8, 1, 2, .rwp, 0x78⟩,
  ⟨0x7020, 0x0, 1, 0x9, 1, 2, .rwp, 0x28⟩,
  ⟨0x7020, 0x0, 1, 0xA, 1, 2, .rwp, 0xA28⟩,
  ⟨0x7020, 0x0, 1, 0xB, 1, 2, .rwp, 0x9858⟩,
  ⟨0x7030, 0x0, 1, 0x0, 1, 1, .ro, 0xB⟩,
  ⟨0x7030, 0x0, 1, 0x1, 11, 2, .rwp, 0x0⟩,
  ⟨0x8000, 0x1, 512, 0x0, 1, 1, .rwp, 0x0⟩,
  ⟨0x9000, 0x0, 1, 0x0, 1, 1, .ro, 0x6⟩,
  ⟨0x9000, 0x0, 1, 0x1, 1, 48, .ro, 0x0⟩,
  ⟨0x9000, 0x0, 1, 0x2, 1, 1, .ro, 0x0⟩,
  ⟨0x9000, 0x0, 1, 0x3, 1, 4, .ro, 0x0⟩,
  ⟨0x9000, 0x0, 1, 0x4, 1, 4, .ro, 0x0⟩]

/-- Object rows, part 5. -/
def objRows5 : List ObjRow := [
  ⟨0x9000, 0x0, 1, 0x5, 1, 4, .ro, 0x0⟩,
  ⟨0x9000, 0x0, 1, 0x6, 1, 1, .ro, 0x0⟩,
  ⟨0x9010, 0x0, 1, 0x0, 1, 1, .ro, 0x40⟩,
  ⟨0x9010, 0x0, 1, 0x1, 64, 1, .ro, 0x0⟩,
  ⟨0x9020, 0x0, 1, 0x0, 1, 1, .ro, 0x40⟩,
  ⟨0xA010, 0x0, 1, 0x0, 1, 1, .ro, 0x4⟩,
  ⟨0xA010, 0x0, 1, 0x1, 4, 2, .ro, 0x0⟩,
  ⟨0xA020, 0x0, 1, 0x0, 1, 1, .ro, 0x6⟩,
  ⟨0xA020, 0x0, 1, 0x1, 1, 8, .ro, 0x0⟩,
  ⟨0xA020, 0x0, 1, 0x2, 1, 8, .ro, 0x0⟩,
  ⟨0xA020, 0x0, 1, 0x3, 1, 8, .ro, 0x0⟩,
  ⟨0xA020, 0x0, 1, 0x4, 1, 4, .ro, 0x0⟩,
  ⟨0xA020, 0x0, 1, 0x5, 1, 4, .ro, 0x0⟩,
  ⟨0xA020, 0x0, 1, 0x6, 1, 8, .ro, 0x0⟩,
  ⟨0xA030, 0x0, 1, 0x0, 1, 1, .ro, 0x6⟩,
  ⟨0xA030, 0x0, 1, 0x1, 1, 8, .ro, 0x0⟩,
  ⟨0xA030, 0x0, 1, 0x2, 1, 8, .ro, 0x0⟩,
  ⟨0xA030, 0x0, 1, 0x3, 1, 8, .ro, 0x0⟩,
  ⟨0xA030, 0x0, 1, 0x4, 1, 8, .ro, 0x0⟩,
  ⟨0xA030, 0x0, 1, 0x5, 1, 8, .ro, 0x0⟩,
  ⟨0xA030, 0x0, 1, 0x6, 1, 4, .ro, 0x0⟩,
  ⟨0xA040, 0x0, 1, 0x0, 1, 1, .ro, 0x6⟩,
  ⟨0xA040, 0x0, 1, 0x1, 1, 8, .ro, 0x0⟩,
  ⟨0xA040, 0x0, 1, 0x2, 1, 4, .ro, 0x0⟩,
  ⟨0xA040, 0x0, 1, 0x3, 1, 8, .ro, 0x0⟩,
  ⟨0xA040, 0x0, 1, 0x4, 1, 8, .ro, 0x0⟩,
  ⟨0xA040, 0x0, 1, 0x5, 1, 8, .ro, 0x0⟩,
  ⟨0xA040, 0x0, 1, 0x6, 1, 8, .ro, 0x0⟩,
  ⟨0xA050, 0x0, 1, 0x0, 1, 1, .ro, 0x7⟩,
  ⟨0xA050, 0x0, 1, 0x1, 1, 8, .ro, 0x0⟩,
  ⟨0xA050, 0x0, 1, 0x2, 1, 8, .ro, 0x0⟩,
  ⟨0xA050, 0x0, 1, 0x3, 1, 8, .ro, 0x0⟩,
  ⟨0xA050, 0x0, 1, 0x4, 1, 8, .ro, 0x0⟩,
  ⟨0xA050, 0x0, 1, 0x5, 1, 8, .ro, 0x0⟩,
  ⟨0xA050, 0x0, 1, 0x6, 1, 8, .ro, 0x0⟩,
  ⟨0xA050, 0x0, 1, 0x7, 1, 4, .ro, 0x0⟩,
  ⟨0xA060, 0x0, 1, 0x0, 1, 1, .ro, 0xA⟩,
  ⟨0xA060, 0x0, 1, 0x1, 1, 8, .ro, 0x0⟩,
  ⟨0xA060, 0x0, 1, 0x2, 1, 8, .ro, 0x0⟩,
  ⟨0xA060, 0x0, 1, 0x3, 1, 8, .ro, 0x0⟩]

/-- Object rows, part 6. -/
def objRows6 : List ObjRow := [
  ⟨0xA060, 0x0, 1, 0x4, 1, 8, .ro, 0x0⟩,
  ⟨0xA060, 0x0, 1, 0x5, 1, 8, .ro, 0x0⟩,
  ⟨0xA060, 0x0, 1, 0x6, 1, 8, .ro, 0x0⟩,
  ⟨0xA060, 0x0, 1, 0x7, 1, 8, .ro, 0x0⟩,
  ⟨0xA060, 0x0, 1, 0x8, 1, 8, .ro, 0x0⟩,
  ⟨0xA060, 0x0, 1, 0x9, 1, 8, .ro, 0x0⟩,
  ⟨0xA060, 0x0, 1, 0xA, 1, 8, .ro, 0x0⟩,
  ⟨0xA070, 0x0, 1, 0x0, 1, 1, .ro, 0x7⟩,
  ⟨0xA070, 0x0, 1, 0x1, 1, 8, .ro, 0x0⟩,
  ⟨0xA070, 0x0, 1, 0x2, 1, 8, .ro, 0x0⟩,
  ⟨0xA070, 0x0, 1, 0x3, 1, 8, .ro, 0x0⟩,
  ⟨0xA070, 0x0, 1, 0x4, 1, 8, .ro, 0x0⟩,
  ⟨0xA070, 0x0, 1, 0x5, 1, 8, .ro, 0x0⟩,
  ⟨0xA070, 0x0, 1, 0x6, 1, 4, .ro, 0x0⟩,
  ⟨0xA070, 0x0, 1, 0x7, 1, 4, .ro, 0x0⟩,
  ⟨0xA080, 0x0, 1, 0x0, 1, 1, .ro, 0x7⟩,
  ⟨0xA080, 0x0, 1, 0x1, 1, 8, .ro, 0x0⟩,
  ⟨0xA080, 0x0, 1, 0x2, 1, 8, .ro, 0x0⟩,
  ⟨0xA080, 0x0, 1, 0x3, 1, 4, .ro, 0x0⟩,
  ⟨0xA080, 0x0, 1, 0x4, 1, 4, .ro, 0x0⟩,
  ⟨0xA080, 0x0, 1, 0x5, 1, 4, .ro, 0x0⟩,
  ⟨0xA080, 0x0, 1, 0x6, 1, 4, .ro, 0x0⟩,
  ⟨0xA080, 0x0, 1, 0x7, 1, 4, .ro, 0x0⟩,
  ⟨0xA090, 0x0, 1, 0x0, 1, 1, .ro, 0x5⟩,
  ⟨0xA090, 0x0, 1, 0x1, 1, 8, .ro, 0x0⟩,
  ⟨0xA090, 0x0, 1, 0x2, 1, 8, .ro, 0x0⟩,
  ⟨0xA090, 0x0, 1, 0x3, 1, 8, .ro, 0x0⟩,
  ⟨0xA090, 0x0, 1, 0x4, 1, 8, .ro, 0x0⟩,
  ⟨0xA090, 0x0, 1, 0x5, 1, 4, .ro, 0x0⟩,
  ⟨0xA0A0, 0x0, 1, 0x0, 1, 1, .ro, 0x7⟩,
  ⟨0xA0A0, 0x0, 1, 0x1, 1, 8, .ro, 0x0⟩,
  ⟨0xA0A0, 0x0, 1, 0x2, 1, 8, .ro, 0x0⟩,
  ⟨0xA0A0, 0x0, 1, 0x3, 1, 8, .ro, 0x0⟩,
  ⟨0xA0A0, 0x0, 1, 0x4, 1, 8, .ro, 0x0⟩,
  ⟨0xA0A0, 0x0, 1, 0x5, 1, 8, .ro, 0x0⟩,
  ⟨0xA0A0, 0x0, 1, 0x6, 1, 4, .ro, 0x0⟩,
  ⟨0xA0A0, 0x0, 1, 0x7, 1, 4, .ro, 0x0⟩,
  ⟨0xA0B0, 0x0, 1, 0x0, 1, 1, .ro, 0x6⟩,
  ⟨0xA0B0, 0x0, 1, 0x1, 1, 8, .ro, 0x0⟩,
  ⟨0xA0B0, 0x0, 1, 0x2, 1, 8, .ro, 0x0⟩]

/-- Object rows, part 7. -/
def objRows7 : List ObjRow := [
  ⟨0xA0B0, 0x0, 1, 0x3, 1, 4, .ro, 0x0⟩,
  ⟨0xA0B0, 0x0, 1, 0x4, 1, 4, .ro, 0x0⟩,
  ⟨0xA0B0, 0x0, 1, 0x5, 1, 4, .ro, 0x0⟩,
  ⟨0xA0B0, 0x0, 1, 0x6, 1, 4, .ro, 0x0⟩,
  ⟨0xA0C0, 0x0, 1, 0x0, 1, 1, .ro, 0x5⟩,
  ⟨0xA0C0, 0x0, 1, 0x1, 1, 8, .ro, 0x0⟩,
  ⟨0xA0C0, 0x0, 1, 0x2, 1, 8, .ro, 0x0⟩,
  ⟨0xA0C0, 0x0, 1, 0x3, 1, 8, .ro, 0x0⟩,
  ⟨0xA0C0, 0x0, 1, 0x4, 1, 4, .ro, 0x0⟩,
  ⟨0xA0C0, 0x0, 1, 0x5, 1, 4, .ro, 0x0⟩,
  ⟨0xA0D0, 0x0, 1, 0x0, 1, 1, .ro, 0x9⟩,
  ⟨0xA0D0, 0x0, 1, 0x1, 1, 8, .ro, 0x0⟩,
  ⟨0xA0D0, 0x0, 1, 0x2, 1, 8, .ro, 0x0⟩,
  ⟨0xA0D0, 0x0, 1, 0x3, 1, 8, .ro, 0x0⟩,
  ⟨0xA0D0, 0x0, 1, 0x4, 1, 8, .ro, 0x0⟩,
  ⟨0xA0D0, 0x0, 1, 0x5, 1, 8, .ro, 0x0⟩,
  ⟨0xA0D0, 0x0, 1, 0x6, 1, 8, .ro, 0x0⟩,
  ⟨0xA0D0, 0x0, 1, 0x7, 1, 8, .ro, 0x0⟩,
  ⟨0xA0D0, 0x0, 1, 0x8, 1, 4, .ro, 0x0⟩,
  ⟨0xA0D0, 0x0, 1, 0x9, 1, 4, .ro, 0x0⟩,
  ⟨0xA0E0, 0x0, 1, 0x0, 1, 1, .ro, 0x7⟩,
  ⟨0xA0E0, 0x0, 1, 0x1, 1, 8, .ro, 0x0⟩,
  ⟨0xA0E0, 0x0, 1, 0x2, 1, 8, .ro, 0x0⟩,
  ⟨0xA0E0, 0x0, 1, 0x3, 1, 8, .ro, 0x0⟩,
  ⟨0xA0E0, 0x0, 1, 0x4, 1, 4, .ro, 0x0⟩,
  ⟨0xA0E0, 0x0, 1, 0x5, 1, 8, .ro, 0x0⟩,
  ⟨0xA0E0, 0x0, 1, 0x6, 1, 8, .ro, 0x0⟩,
  ⟨0xA0E0, 0x0, 1, 0x7, 1, 4, .ro, 0x0⟩,
  ⟨0xA0F0, 0x0, 1, 0x0, 1, 1, .ro, 0x5⟩,
  ⟨0xA0F0, 0x0, 1, 0x1, 1, 8, .ro, 0x0⟩,
  ⟨0xA0F0, 0x0, 1, 0x2, 1, 4, .ro, 0x0⟩,
  ⟨0xA0F0, 0x0, 1, 0x3, 1, 8, .ro, 0x0⟩,
  ⟨0xA0F0, 0x0, 1, 0x4, 1, 8, .ro, 0x0⟩,
  ⟨0xA0F0, 0x0, 1, 0x5, 1, 4, .ro, 0x0⟩,
  ⟨0xA100, 0x1, 256, 0x0, 1, 1, .ro, 0x6⟩,
  ⟨0xA100, 0x1, 256, 0x1, 1, 8, .ro, 0x0⟩,
  ⟨0xA100, 0x1, 256, 0x2, 1, 8, .ro, 0x0⟩,
  ⟨0xA100, 0x1, 256, 0x3, 1, 8, .ro, 0x0⟩,
  ⟨0xA100, 0x1, 256, 0x4, 1, 8, .ro, 0x0⟩,
  ⟨0xA100, 0x1, 256, 0x5, 1, 4, .ro, 0x0⟩]

/-- Object rows, part 8. -/
def objRows8 : List ObjRow := [
  ⟨0xA100, 0x1, 256, 0x6, 1, 4, .ro, 0x0⟩]

/-- Every object, by index and subindex. -/
def objTable : List ObjRow :=
  objRows0 ++ objRows1 ++ objRows2 ++ objRows3 ++ objRows4 ++ objRows5 ++ objRows6 ++ objRows7 ++ objRows8

/-- 0xA010:00, RO (R29). -/
def O.CORE_RATE : Obj := ⟨objKey (0xA010) (0x0), 1, 0x4⟩
/-- 0xA010:01–0xA010:04, RO (R29). -/
def O.CORE_RATE_C (j : Nat) : Obj := ⟨objKey (0xA010) (0x1 + j), 2, 0x0⟩
/-- 0x3E00:00, RW (R29). -/
def O.CORE_RATE_WINDOW : Obj := ⟨objKey (0x3E00) (0x0), 2, 0xA⟩
/-- 0x2010:00, RO (R64). -/
def O.PIPE_FREE_CONTEXTS : Obj := ⟨objKey (0x2010) (0x0), 2, 0x100⟩
/-- 0x2100+n:01, RO (R64). -/
def O.STATE (i : Nat) : Obj := ⟨objKey (0x2100 + i * 0x1) (0x1), 1, 0x0⟩
/-- 0x2100+n:02, RO (R64). -/
def O.FINAL_STATUS (i : Nat) : Obj := ⟨objKey (0x2100 + i * 0x1) (0x2), 2, 0x0⟩
/-- 0x2100+n:03, RO (R64). -/
def O.STRIPS_DONE (i : Nat) : Obj := ⟨objKey (0x2100 + i * 0x1) (0x3), 8, 0x0⟩
/-- 0x2100+n:04, RO (R64). -/
def O.ROWS_EMITTED (i : Nat) : Obj := ⟨objKey (0x2100 + i * 0x1) (0x4), 8, 0x0⟩
/-- 0x2100+n:05, RO (R64). -/
def O.QUERY_ID (i : Nat) : Obj := ⟨objKey (0x2100 + i * 0x1) (0x5), 16, 0x0⟩
/-- 0x2100+n:06, RO (R64). -/
def O.SNAP_EPOCH (i : Nat) : Obj := ⟨objKey (0x2100 + i * 0x1) (0x6), 4, 0x0⟩
/-- 0x2100+n:07, RO (R64). -/
def O.SNAP_PANES (i : Nat) : Obj := ⟨objKey (0x2100 + i * 0x1) (0x7), 1, 0x0⟩
/-- 0x3010:00, RWP (R64). -/
def O.PIPE_REGION_SIZE : Obj := ⟨objKey (0x3010) (0x0), 8, 0x1000000000⟩
/-- 0x3011:00, RW (R64). -/
def O.EDGE_DEPTH_DEFAULT : Obj := ⟨objKey (0x3011) (0x0), 1, 0x4⟩
/-- 0x3100+n:01, RW (R64). -/
def O.SKIP_ON_ERROR (i : Nat) : Obj := ⟨objKey (0x3100 + i * 0x1) (0x1), 1, 0x0⟩
/-- 0x3100+n:02, RW (R64). -/
def O.PANE_LIMIT (i : Nat) : Obj := ⟨objKey (0x3100 + i * 0x1) (0x2), 1, 0x0⟩
/-- 0x3100+n:03, RW (R64). -/
def O.DISPATCH_PRIORITY (i : Nat) : Obj := ⟨objKey (0x3100 + i * 0x1) (0x3), 1, 0x4⟩
/-- 0x5004+p×0x20:01, RO (R92). -/
def O.ARITH_MISMATCH (i : Nat) : Obj := ⟨objKey (0x5004 + i * 0x20) (0x1), 2, 0x0⟩
/-- 0x5004+p×0x20:02, RO (R92). -/
def O.ARITH_RETRY_OK (i : Nat) : Obj := ⟨objKey (0x5004 + i * 0x20) (0x2), 2, 0x0⟩
/-- 0xA100+n:01, RO (R92). -/
def O.OVERFLOW_NULLS (i : Nat) : Obj := ⟨objKey (0xA100 + i * 0x1) (0x1), 8, 0x0⟩
/-- 0xA100+n:02, RO (R92). -/
def O.DIVZERO_NULLS (i : Nat) : Obj := ⟨objKey (0xA100 + i * 0x1) (0x2), 8, 0x0⟩
/-- 0xA100+n:03, RO (R92). -/
def O.CAST_NULLS (i : Nat) : Obj := ⟨objKey (0xA100 + i * 0x1) (0x3), 8, 0x0⟩
/-- 0xA100+n:04, RO (R92). -/
def O.DICT_RANGE_NULLS (i : Nat) : Obj := ⟨objKey (0xA100 + i * 0x1) (0x4), 8, 0x0⟩
/-- 0xA100+n:05, RO (R92). -/
def O.BLOCKS_SKIPPED (i : Nat) : Obj := ⟨objKey (0xA100 + i * 0x1) (0x5), 4, 0x0⟩
/-- 0xA100+n:06, RO (R92). -/
def O.RESIDUE_RETRIES (i : Nat) : Obj := ⟨objKey (0xA100 + i * 0x1) (0x6), 4, 0x0⟩
/-- 0x3020:00, RW (R92). -/
def O.RESIDUE_RETRY : Obj := ⟨objKey (0x3020) (0x0), 1, 0x1⟩
/-- 0x2030:01, RO (R118). -/
def O.LOUVRE_TABLES_BOUND : Obj := ⟨objKey (0x2030) (0x1), 1, 0x0⟩
/-- 0x2030:02, RO (R118). -/
def O.LOUVRE_FREE_BANKS : Obj := ⟨objKey (0x2030) (0x2), 1, 0x10⟩
/-- 0x4010+c×0x400:01, RW (R118). -/
def O.SHADOW_SEARCH (i : Nat) : Obj := ⟨objKey (0x4010 + i * 0x400) (0x1), 1, 0x0⟩
/-- 0x4010+c×0x400:02, RW (R118). -/
def O.LV_SCRUB_PERIOD (i : Nat) : Obj := ⟨objKey (0x4010 + i * 0x400) (0x2), 4, 0xFA0⟩
/-- 0x4010+c×0x400:03, RW (R118). -/
def O.VERIFY_RETRY (i : Nat) : Obj := ⟨objKey (0x4010 + i * 0x400) (0x3), 1, 0x1⟩
/-- 0xA020:01, RO (R118). -/
def O.LOUVRE_SEARCHES : Obj := ⟨objKey (0xA020) (0x1), 8, 0x0⟩
/-- 0xA020:02, RO (R118). -/
def O.LOUVRE_HITS : Obj := ⟨objKey (0xA020) (0x2), 8, 0x0⟩
/-- 0xA020:03, RO (R118). -/
def O.LOUVRE_MULTI : Obj := ⟨objKey (0xA020) (0x3), 8, 0x0⟩
/-- 0xA020:04, RO (R118). -/
def O.LOUVRE_VERIFY_FAIL : Obj := ⟨objKey (0xA020) (0x4), 4, 0x0⟩
/-- 0xA020:05, RO (R118). -/
def O.LOUVRE_SCRUB_REPAIR : Obj := ⟨objKey (0xA020) (0x5), 4, 0x0⟩
/-- 0xA020:06, RO (R118). -/
def O.LOUVRE_BUILD_DROPPED : Obj := ⟨objKey (0xA020) (0x6), 8, 0x0⟩
/-- 0x2040:01, RO (R139). -/
def O.HJ_NEAR_USED : Obj := ⟨objKey (0x2040) (0x1), 8, 0x0⟩
/-- 0x2040:02, RO (R139). -/
def O.HJ_FAR_USED : Obj := ⟨objKey (0x2040) (0x2), 8, 0x0⟩
/-- 0x3030:00, RW (R139). -/
def O.HJ_NEAR_LIMIT : Obj := ⟨objKey (0x3030) (0x0), 8, 0x1000000000⟩
/-- 0x3031:00, RW (R139). -/
def O.HJ_FAR_LIMIT : Obj := ⟨objKey (0x3031) (0x0), 8, 0xFFFFFFFFFFFFFFFF⟩
/-- 0x3032:00, RW (R139). -/
def O.HJ_BUCKET_LOAD : Obj := ⟨objKey (0x3032) (0x0), 1, 0x8⟩
/-- 0xA030:01, RO (R139). -/
def O.HJ_PROBES : Obj := ⟨objKey (0xA030) (0x1), 8, 0x0⟩
/-- 0xA030:02, RO (R139). -/
def O.HJ_MATCHES : Obj := ⟨objKey (0xA030) (0x2), 8, 0x0⟩
/-- 0xA030:03, RO (R139). -/
def O.HJ_NULL_BUILD_KEYS : Obj := ⟨objKey (0xA030) (0x3), 8, 0x0⟩
/-- 0xA030:04, RO (R139). -/
def O.PREFILTER_REJECTS : Obj := ⟨objKey (0xA030) (0x4), 8, 0x0⟩
/-- 0xA030:05, RO (R139). -/
def O.PREFILTER_FALSE_PASS : Obj := ⟨objKey (0xA030) (0x5), 8, 0x0⟩
/-- 0xA030:06, RO (R139). -/
def O.PREFILTER_DROPPED : Obj := ⟨objKey (0xA030) (0x6), 4, 0x0⟩
/-- 0x2050:01, RO (R167). -/
def O.SORT_AGG_NEAR_USED : Obj := ⟨objKey (0x2050) (0x1), 8, 0x0⟩
/-- 0x2050:02, RO (R167). -/
def O.SORT_AGG_FAR_USED : Obj := ⟨objKey (0x2050) (0x2), 8, 0x0⟩
/-- 0x3040:00, RW (R167). -/
def O.AGG_STORE_SHARE : Obj := ⟨objKey (0x3040) (0x0), 4, 0x180000⟩
/-- 0x3041:00, RW (R167). -/
def O.AGG_SPILL_PBITS : Obj := ⟨objKey (0x3041) (0x0), 1, 0x8⟩
/-- 0xA040:01, RO (R167). -/
def O.SORT_ROWS : Obj := ⟨objKey (0xA040) (0x1), 8, 0x0⟩
/-- 0xA040:02, RO (R167). -/
def O.MERGE_PASSES : Obj := ⟨objKey (0xA040) (0x2), 4, 0x0⟩
/-- 0xA040:03, RO (R167). -/
def O.AGG_GROUPS : Obj := ⟨objKey (0xA040) (0x3), 8, 0x0⟩
/-- 0xA040:04, RO (R167). -/
def O.AGG_SPILLS : Obj := ⟨objKey (0xA040) (0x4), 8, 0x0⟩
/-- 0xA040:05, RO (R167). -/
def O.AGG_SPILL_BYTES : Obj := ⟨objKey (0xA040) (0x5), 8, 0x0⟩
/-- 0xA040:06, RO (R167). -/
def O.TRUNC_COMPARES : Obj := ⟨objKey (0xA040) (0x6), 8, 0x0⟩
/-- 0x3050:00, RW (R191). -/
def O.AFFINITY_WAIT : Obj := ⟨objKey (0x3050) (0x0), 4, 0x1F40⟩
/-- 0x3051:00, RW (R191). -/
def O.CROSS_WAIT : Obj := ⟨objKey (0x3051) (0x0), 4, 0x3E80⟩
/-- 0x3052:00, RW (R191). -/
def O.AGING_TIME : Obj := ⟨objKey (0x3052) (0x0), 4, 0x186A0⟩
/-- 0x3053:00, RW (R191). -/
def O.MATCH_RESERVE : Obj := ⟨objKey (0x3053) (0x0), 2, 0x40⟩
/-- 0x3200+n:01, RW (R191). -/
def O.READY_GATES (i : Nat) : Obj := ⟨objKey (0x3200 + i * 0x1) (0x1), 1, 0xFF⟩
/-- 0x4020+c×0x400:01, RW (R191). -/
def O.PANE_HOLD (i : Nat) : Obj := ⟨objKey (0x4020 + i * 0x400) (0x1), 4, 0x0⟩
/-- 0x4020+c×0x400:02, RO (R191). -/
def O.READY_NODES (i : Nat) : Obj := ⟨objKey (0x4020 + i * 0x400) (0x2), 2, 0x0⟩
/-- 0x4020+c×0x400:03, RO (R191). -/
def O.MATCH_USED (i : Nat) : Obj := ⟨objKey (0x4020 + i * 0x400) (0x3), 2, 0x0⟩
/-- 0x5002+p×0x20:01, RW (R191). -/
def O.SELFTEST_REQ (i : Nat) : Obj := ⟨objKey (0x5002 + i * 0x20) (0x1), 1, 0x0⟩
/-- 0x5002+p×0x20:02, RO (R191). -/
def O.DISPATCH_STATE (i : Nat) : Obj := ⟨objKey (0x5002 + i * 0x20) (0x2), 1, 0x0⟩
/-- 0xA050:01, RO (R191). -/
def O.DISPATCHES : Obj := ⟨objKey (0xA050) (0x1), 8, 0x0⟩
/-- 0xA050:02, RO (R191). -/
def O.AFFINITY_DISPATCHES : Obj := ⟨objKey (0xA050) (0x2), 8, 0x0⟩
/-- 0xA050:03, RO (R191). -/
def O.LOCAL_DISPATCHES : Obj := ⟨objKey (0xA050) (0x3), 8, 0x0⟩
/-- 0xA050:04, RO (R191). -/
def O.CROSS_DISPATCHES : Obj := ⟨objKey (0xA050) (0x4), 8, 0x0⟩
/-- 0xA050:05, RO (R191). -/
def O.REDISPATCHED : Obj := ⟨objKey (0xA050) (0x5), 8, 0x0⟩
/-- 0xA050:06, RO (R191). -/
def O.MATCH_ENTRIES : Obj := ⟨objKey (0xA050) (0x6), 8, 0x0⟩
/-- 0xA050:07, RO (R191). -/
def O.PIN_OVERRIDES : Obj := ⟨objKey (0xA050) (0x7), 4, 0x0⟩
/-- 0x4030+c×0x400:01, RW (R214). -/
def O.STREAM_WAYS (i : Nat) : Obj := ⟨objKey (0x4030 + i * 0x400) (0x1), 2, 0xF⟩
/-- 0x4030+c×0x400:02, RW (R214). -/
def O.TABLE_WAYS (i : Nat) : Obj := ⟨objKey (0x4030 + i * 0x400) (0x2), 2, 0xFFF0⟩
/-- 0x4030+c×0x400:03, RW (R214). -/
def O.PF_ENABLE (i : Nat) : Obj := ⟨objKey (0x4030 + i * 0x400) (0x3), 1, 0x1⟩
/-- 0x4030+c×0x400:04, RW (R214). -/
def O.PF_DISTANCE (i : Nat) : Obj := ⟨objKey (0x4030 + i * 0x400) (0x4), 1, 0x10⟩
/-- 0x4030+c×0x400:05, RW (R214). -/
def O.PF_CONFIRM (i : Nat) : Obj := ⟨objKey (0x4030 + i * 0x400) (0x5), 1, 0x2⟩
/-- 0x4030+c×0x400:06, RW (R214). -/
def O.PF_MR_LIMIT (i : Nat) : Obj := ⟨objKey (0x4030 + i * 0x400) (0x6), 1, 0x8⟩
/-- 0xA060:01, RO (R214). -/
def O.SILL_HITS : Obj := ⟨objKey (0xA060) (0x1), 8, 0x0⟩
/-- 0xA060:02, RO (R214). -/
def O.SILL_MISSES : Obj := ⟨objKey (0xA060) (0x2), 8, 0x0⟩
/-- 0xA060:03, RO (R214). -/
def O.SILL_MERGED : Obj := ⟨objKey (0xA060) (0x3), 8, 0x0⟩
/-- 0xA060:04, RO (R214). -/
def O.SILL_PF_ISSUED : Obj := ⟨objKey (0xA060) (0x4), 8, 0x0⟩
/-- 0xA060:05, RO (R214). -/
def O.SILL_PF_USED : Obj := ⟨objKey (0xA060) (0x5), 8, 0x0⟩
/-- 0xA060:06, RO (R214). -/
def O.SILL_RECALLS : Obj := ⟨objKey (0xA060) (0x6), 8, 0x0⟩
/-- 0xA060:07, RO (R214). -/
def O.SILL_WRITEBACKS : Obj := ⟨objKey (0xA060) (0x7), 8, 0x0⟩
/-- 0xA060:08, RO (R214). -/
def O.SILL_CORRECTED : Obj := ⟨objKey (0xA060) (0x8), 8, 0x0⟩
/-- 0xA060:09, RO (R214). -/
def O.SILL_POISONED : Obj := ⟨objKey (0xA060) (0x9), 8, 0x0⟩
/-- 0xA060:0A, RO (R214). -/
def O.SILL_MR_STALLS : Obj := ⟨objKey (0xA060) (0xA), 8, 0x0⟩
/-- 0x7000:01, RO (R237). -/
def O.NEAR_CAPACITY : Obj := ⟨objKey (0x7000) (0x1), 8, 0x0⟩
/-- 0x7000:02, RO (R237). -/
def O.NEAR_IN_SERVICE : Obj := ⟨objKey (0x7000) (0x2), 8, 0x0⟩
/-- 0x7000:03, RO (R237). -/
def O.FAR_CAPACITY : Obj := ⟨objKey (0x7000) (0x3), 8, 0x0⟩
/-- 0x7000:04, RO (R237). -/
def O.FAR_IN_SERVICE : Obj := ⟨objKey (0x7000) (0x4), 8, 0x0⟩
/-- 0x7000:05, RO (R237). -/
def O.FAR_RATE : Obj := ⟨objKey (0x7000) (0x5), 2, 0x0⟩
/-- 0x7000:06, RO (R237). -/
def O.FAR_STATE : Obj := ⟨objKey (0x7000) (0x6), 1, 0x0⟩
/-- 0x7001:00, RWP (R237). -/
def O.PARK_SEG_SIZE : Obj := ⟨objKey (0x7001) (0x0), 1, 0x2⟩
/-- 0x7002:00, RWP (R237). -/
def O.REMAP_RESERVE : Obj := ⟨objKey (0x7002) (0x0), 8, 0x180000000⟩
/-- 0x7003:00, RW (R237). -/
def O.NEAR_RD_K : Obj := ⟨objKey (0x7003) (0x0), 1, 0xB⟩
/-- 0x7004:00, RW (R237). -/
def O.FAR_RD_K : Obj := ⟨objKey (0x7004) (0x0), 1, 0xB⟩
/-- 0x7005:00, RW (R237). -/
def O.RETRAIN_DELTA : Obj := ⟨objKey (0x7005) (0x0), 1, 0xA⟩
/-- 0x7006:00, RW (R237). -/
def O.SCRUB_PERIOD : Obj := ⟨objKey (0x7006) (0x0), 4, 0x5265C00⟩
/-- 0x7010:01–0x7010:68, RWP (R237). -/
def O.CH_STATE (j : Nat) : Obj := ⟨objKey (0x7010) (0x1 + j), 1, 0x0⟩
/-- 0x7020:01–0x7020:0B, RWP (R237). -/
def O.NEAR_TIMING (j : Nat) : Obj := ⟨objKey (0x7020) (0x1 + j), 2, nearTimingDefaults.getD j 0⟩
/-- 0x7030:01–0x7030:0B, RWP (R237). -/
def O.FAR_TIMING (j : Nat) : Obj := ⟨objKey (0x7030) (0x1 + j), 2, 0x0⟩
/-- 0xA070:01, RO (R237). -/
def O.NEAR_CORRECTED : Obj := ⟨objKey (0xA070) (0x1), 8, 0x0⟩
/-- 0xA070:02, RO (R237). -/
def O.NEAR_UNCORRECTED : Obj := ⟨objKey (0xA070) (0x2), 8, 0x0⟩
/-- 0xA070:03, RO (R237). -/
def O.FAR_CORRECTED : Obj := ⟨objKey (0xA070) (0x3), 8, 0x0⟩
/-- 0xA070:04, RO (R237). -/
def O.FAR_UNCORRECTED : Obj := ⟨objKey (0xA070) (0x4), 8, 0x0⟩
/-- 0xA070:05, RO (R237). -/
def O.NEIGHBOUR_REFRESHES : Obj := ⟨objKey (0xA070) (0x5), 8, 0x0⟩
/-- 0xA070:06, RO (R237). -/
def O.RETRAINS : Obj := ⟨objKey (0xA070) (0x6), 4, 0x0⟩
/-- 0xA070:07, RO (R237). -/
def O.SCRUB_PASSES : Obj := ⟨objKey (0xA070) (0x7), 4, 0x0⟩
/-- 0x6000:01, RO (R272). -/
def O.QUEUES_ACTIVE : Obj := ⟨objKey (0x6000) (0x1), 4, 0x0⟩
/-- 0x6000:02, RO (R272). -/
def O.INFLIGHT : Obj := ⟨objKey (0x6000) (0x2), 2, 0x0⟩
/-- 0x6000:03, RO (R272). -/
def O.BACKLOG_USED : Obj := ⟨objKey (0x6000) (0x3), 2, 0x0⟩
/-- 0x6010:00, RW (R272). -/
def O.DEVICE_INFLIGHT_LIMIT : Obj := ⟨objKey (0x6010) (0x0), 2, 0x8000⟩
/-- 0x6011:00, RW (R272). -/
def O.QUEUE_INFLIGHT_LIMIT : Obj := ⟨objKey (0x6011) (0x0), 1, 0x40⟩
/-- 0xA080:01, RO (R272). -/
def O.COMMANDS : Obj := ⟨objKey (0xA080) (0x1), 8, 0x0⟩
/-- 0xA080:02, RO (R272). -/
def O.COMPLETIONS : Obj := ⟨objKey (0xA080) (0x2), 8, 0x0⟩
/-- 0xA080:03, RO (R272). -/
def O.MALFORMED : Obj := ⟨objKey (0xA080) (0x3), 4, 0x0⟩
/-- 0xA080:04, RO (R272). -/
def O.STALLS : Obj := ⟨objKey (0xA080) (0x4), 4, 0x0⟩
/-- 0xA080:05, RO (R272). -/
def O.DOORBELLS_IGNORED : Obj := ⟨objKey (0xA080) (0x5), 4, 0x0⟩
/-- 0xA080:06, RO (R272). -/
def O.CANCEL_DOORBELLS : Obj := ⟨objKey (0xA080) (0x6), 4, 0x0⟩
/-- 0xA080:07, RO (R272). -/
def O.FLUSHES : Obj := ⟨objKey (0xA080) (0x7), 4, 0x0⟩
/-- 0x2060:01, RO (R291). -/
def O.THR_UNITS_FREE : Obj := ⟨objKey (0x2060) (0x1), 2, 0x400⟩
/-- 0x2060:02, RO (R291). -/
def O.THR_STAGED : Obj := ⟨objKey (0x2060) (0x2), 4, 0x0⟩
/-- 0x2060:03, RO (R291). -/
def O.THR_WEAR_PCT : Obj := ⟨objKey (0x2060) (0x3), 1, 0x0⟩
/-- 0x2070:01–0x2070:30, RO (R291). -/
def O.SLOT_STATE (j : Nat) : Obj := ⟨objKey (0x2070) (0x1 + j), 1, 0x0⟩
/-- 0x2070:31, RO (R291). -/
def O.LAST_NVME_STATUS : Obj := ⟨objKey (0x2070) (0x31), 4, 0x0⟩
/-- 0x3070:01–0x3070:0C, RWP (R291). -/
def O.GROUP_BIFURCATION (j : Nat) : Obj := ⟨objKey (0x3070) (0x1 + j), 1, 0x0⟩
/-- 0x3071:01, RW (R291). -/
def O.NVME_TIMEOUT : Obj := ⟨objKey (0x3071) (0x1), 4, 0x7530⟩
/-- 0x3071:02, RW (R291). -/
def O.HOTPLUG_VECTOR : Obj := ⟨objKey (0x3071) (0x2), 2, 0xFFFF⟩
/-- 0xA090:01, RO (R291). -/
def O.STORE_BYTES : Obj := ⟨objKey (0xA090) (0x1), 8, 0x0⟩
/-- 0xA090:02, RO (R291). -/
def O.FETCH_BYTES : Obj := ⟨objKey (0xA090) (0x2), 8, 0x0⟩
/-- 0xA090:03, RO (R291). -/
def O.FETCH_THRESHOLD_HITS : Obj := ⟨objKey (0xA090) (0x3), 8, 0x0⟩
/-- 0xA090:04, RO (R291). -/
def O.DRAIN_BYTES : Obj := ⟨objKey (0xA090) (0x4), 8, 0x0⟩
/-- 0xA090:05, RO (R291). -/
def O.HOTPLUG_EVENTS : Obj := ⟨objKey (0xA090) (0x5), 4, 0x0⟩
/-- 0x2080:01, RO (R310). -/
def O.BIFOLD_ENGINES_READY : Obj := ⟨objKey (0x2080) (0x1), 1, 0x30⟩
/-- 0x4040+c×0x400:01, RW (R310). -/
def O.ENGINE_OFF (i : Nat) : Obj := ⟨objKey (0x4040 + i * 0x400) (0x1), 2, 0x0⟩
/-- 0x4040+c×0x400:02, RO (R310). -/
def O.QUEUED (i : Nat) : Obj := ⟨objKey (0x4040 + i * 0x400) (0x2), 1, 0x0⟩
/-- 0xA0A0:01, RO (R310). -/
def O.BLOCKS_BUILT : Obj := ⟨objKey (0xA0A0) (0x1), 8, 0x0⟩
/-- 0xA0A0:02, RO (R310). -/
def O.BLOCKS_DECODED : Obj := ⟨objKey (0xA0A0) (0x2), 8, 0x0⟩
/-- 0xA0A0:03, RO (R310). -/
def O.COMPRESS_IN_BYTES : Obj := ⟨objKey (0xA0A0) (0x3), 8, 0x0⟩
/-- 0xA0A0:04, RO (R310). -/
def O.COMPRESS_OUT_BYTES : Obj := ⟨objKey (0xA0A0) (0x4), 8, 0x0⟩
/-- 0xA0A0:05, RO (R310). -/
def O.RAW_FALLBACKS : Obj := ⟨objKey (0xA0A0) (0x5), 8, 0x0⟩
/-- 0xA0A0:06, RO (R310). -/
def O.DECOMPRESS_ERRORS : Obj := ⟨objKey (0xA0A0) (0x6), 4, 0x0⟩
/-- 0xA0A0:07, RO (R310). -/
def O.BLOCK_HEADER_ERRORS : Obj := ⟨objKey (0xA0A0) (0x7), 4, 0x0⟩
/-- 0x9000:01, RO (R335). -/
def O.KEY_ID : Obj := ⟨objKey (0x9000) (0x1), 48, 0x0⟩
/-- 0x9000:02, RO (R335). -/
def O.CERT_OK : Obj := ⟨objKey (0x9000) (0x2), 1, 0x0⟩
/-- 0x9000:03, RO (R335). -/
def O.FW_VERSION : Obj := ⟨objKey (0x9000) (0x3), 4, 0x0⟩
/-- 0x9000:04, RO (R335). -/
def O.FW_SVN : Obj := ⟨objKey (0x9000) (0x4), 4, 0x0⟩
/-- 0x9000:05, RO (R335). -/
def O.MIN_SVN : Obj := ⟨objKey (0x9000) (0x5), 4, 0x0⟩
/-- 0x9000:06, RO (R335). -/
def O.SIGNER_REVOKED : Obj := ⟨objKey (0x9000) (0x6), 1, 0x0⟩
/-- 0x9010:01–0x9010:40, RO (R335). -/
def O.SLOT_TYPE (j : Nat) : Obj := ⟨objKey (0x9010) (0x1 + j), 1, 0x0⟩
/-- 0x9020:00, RO (R335). -/
def O.DIGEST_CONTEXTS_FREE : Obj := ⟨objKey (0x9020) (0x0), 1, 0x40⟩
/-- 0xA0B0:01, RO (R335). -/
def O.TRAILERS_WRITTEN : Obj := ⟨objKey (0xA0B0) (0x1), 8, 0x0⟩
/-- 0xA0B0:02, RO (R335). -/
def O.TRAILERS_CHECKED : Obj := ⟨objKey (0xA0B0) (0x2), 8, 0x0⟩
/-- 0xA0B0:03, RO (R335). -/
def O.TRAILER_MISMATCHES : Obj := ⟨objKey (0xA0B0) (0x3), 4, 0x0⟩
/-- 0xA0B0:04, RO (R335). -/
def O.SEALS_WRITTEN : Obj := ⟨objKey (0xA0B0) (0x4), 4, 0x0⟩
/-- 0xA0B0:05, RO (R335). -/
def O.STATEMENTS_SIGNED : Obj := ⟨objKey (0xA0B0) (0x5), 4, 0x0⟩
/-- 0xA0B0:06, RO (R335). -/
def O.KEY_TAG_FAILURES : Obj := ⟨objKey (0xA0B0) (0x6), 4, 0x0⟩
/-- 0x2090:01, RO (R351). -/
def O.HINGE_HALTED : Obj := ⟨objKey (0x2090) (0x1), 1, 0x0⟩
/-- 0x3090:01, RW (R351). -/
def O.HALT_TIMEOUT : Obj := ⟨objKey (0x3090) (0x1), 4, 0x186A0⟩
/-- 0x3090:02, RW (R351). -/
def O.HALT_VECTOR : Obj := ⟨objKey (0x3090) (0x2), 2, 0xFFFF⟩
/-- 0xA0C0:01, RO (R351). -/
def O.HINGE_BYTES_READ : Obj := ⟨objKey (0xA0C0) (0x1), 8, 0x0⟩
/-- 0xA0C0:02, RO (R351). -/
def O.HINGE_BYTES_WRITTEN : Obj := ⟨objKey (0xA0C0) (0x2), 8, 0x0⟩
/-- 0xA0C0:03, RO (R351). -/
def O.HINGE_DESCRIPTORS : Obj := ⟨objKey (0xA0C0) (0x3), 8, 0x0⟩
/-- 0xA0C0:04, RO (R351). -/
def O.HINGE_HALTS : Obj := ⟨objKey (0xA0C0) (0x4), 4, 0x0⟩
/-- 0xA0C0:05, RO (R351). -/
def O.HINGE_ABORTED_CHANNELS : Obj := ⟨objKey (0xA0C0) (0x5), 4, 0x0⟩
/-- 0x6100:01, RWP (R377). -/
def O.NODE_ID : Obj := ⟨objKey (0x6100) (0x1), 2, 0xFFFF⟩
/-- 0x6100:02, RWP (R377). -/
def O.IP_ADDR : Obj := ⟨objKey (0x6100) (0x2), 16, 0x0⟩
/-- 0x6100:03, RWP (R377). -/
def O.UDP_PORT : Obj := ⟨objKey (0x6100) (0x3), 2, 0xC660⟩
/-- 0x6100:04, RWP (R377). -/
def O.VLAN_ID : Obj := ⟨objKey (0x6100) (0x4), 2, 0x0⟩
/-- 0x6100:05, RWP (R377). -/
def O.MTU : Obj := ⟨objKey (0x6100) (0x5), 2, 0x2328⟩
/-- 0x6100:06, RW (R377). -/
def O.PEER_TABLE_ADDR : Obj := ⟨objKey (0x6100) (0x6), 8, 0x0⟩
/-- 0x6100:07, RW (R377). -/
def O.DATA_CLASS : Obj := ⟨objKey (0x6100) (0x7), 1, 0x3⟩
/-- 0x6100:08, RWP (R377). -/
def O.PFC_MASK : Obj := ⟨objKey (0x6100) (0x8), 1, 0x48⟩
/-- 0x6100:09, 0x6100:0A, RO (R377). -/
def O.MAC (j : Nat) : Obj := ⟨objKey (0x6100) (0x9 + j), 6, 0x0⟩
/-- 0x6100:0B, RWP (R377). -/
def O.LANE_POLARITY : Obj := ⟨objKey (0x6100) (0xB), 2, 0x0⟩
/-- 0x6110:01, RW (R377). -/
def O.MEMBER_STAGE : Obj := ⟨objKey (0x6110) (0x1), 1024, 0x0⟩
/-- 0x6110:02, WO (R377). -/
def O.EPOCH_COMMIT : Obj := ⟨objKey (0x6110) (0x2), 4, 0x0⟩
/-- 0x6110:03, RO (R377). -/
def O.EPOCH : Obj := ⟨objKey (0x6110) (0x3), 4, 0x0⟩
/-- 0x6110:04, RO (R377). -/
def O.MEMBERS : Obj := ⟨objKey (0x6110) (0x4), 2, 0x0⟩
/-- 0x6110:05, RO (R377). -/
def O.LOST_MAP : Obj := ⟨objKey (0x6110) (0x5), 1024, 0x0⟩
/-- 0x6110:06, RW (R377). -/
def O.LOST_VECTOR : Obj := ⟨objKey (0x6110) (0x6), 2, 0xFFFF⟩
/-- 0x6120:01, RW (R377). -/
def O.INIT_CREDIT : Obj := ⟨objKey (0x6120) (0x1), 2, 0x10⟩
/-- 0x6120:02, RW (R377). -/
def O.RX_POOL : Obj := ⟨objKey (0x6120) (0x2), 8, 0x40000000⟩
/-- 0x6120:03, RW (R377). -/
def O.FLUSH_BYTES : Obj := ⟨objKey (0x6120) (0x3), 4, 0x40000⟩
/-- 0x6120:04, RW (R377). -/
def O.RETX_TIME : Obj := ⟨objKey (0x6120) (0x4), 4, 0x64⟩
/-- 0x6120:05, RW (R377). -/
def O.RETX_LIMIT : Obj := ⟨objKey (0x6120) (0x5), 1, 0x8⟩
/-- 0x6120:06, RW (R377). -/
def O.PEER_TIMEOUT : Obj := ⟨objKey (0x6120) (0x6), 4, 0x2710⟩
/-- 0x6120:07, RW (R377). -/
def O.CANCEL_REPEAT : Obj := ⟨objKey (0x6120) (0x7), 4, 0x14⟩
/-- 0xA0D0:01, RO (R377). -/
def O.FRAMES_TX : Obj := ⟨objKey (0xA0D0) (0x1), 8, 0x0⟩
/-- 0xA0D0:02, RO (R377). -/
def O.FRAMES_RX : Obj := ⟨objKey (0xA0D0) (0x2), 8, 0x0⟩
/-- 0xA0D0:03, RO (R377). -/
def O.BYTES_TX : Obj := ⟨objKey (0xA0D0) (0x3), 8, 0x0⟩
/-- 0xA0D0:04, RO (R377). -/
def O.BYTES_RX : Obj := ⟨objKey (0xA0D0) (0x4), 8, 0x0⟩
/-- 0xA0D0:05, RO (R377). -/
def O.RETRANSMITS : Obj := ⟨objKey (0xA0D0) (0x5), 8, 0x0⟩
/-- 0xA0D0:06, RO (R377). -/
def O.FRAMES_DROPPED : Obj := ⟨objKey (0xA0D0) (0x6), 8, 0x0⟩
/-- 0xA0D0:07, RO (R377). -/
def O.FLOW_UNKNOWN : Obj := ⟨objKey (0xA0D0) (0x7), 8, 0x0⟩
/-- 0xA0D0:08, RO (R377). -/
def O.CANCELS_RX : Obj := ⟨objKey (0xA0D0) (0x8), 4, 0x0⟩
/-- 0xA0D0:09, RO (R377). -/
def O.PEERS_LOST : Obj := ⟨objKey (0xA0D0) (0x9), 4, 0x0⟩
/-- 0x1000:01, RO (R398). -/
def O.CHAIN_ADDR : Obj := ⟨objKey (0x1000) (0x1), 2, 0x0⟩
/-- 0x1000:02, RO (R398). -/
def O.CHAIN_HOPS : Obj := ⟨objKey (0x1000) (0x2), 2, 0x0⟩
/-- 0x1000:03, RO (R398). -/
def O.LINK_STATE : Obj := ⟨objKey (0x1000) (0x3), 1, 0x0⟩
/-- 0x1000:04, RO (R398). -/
def O.SASH_MAC : Obj := ⟨objKey (0x1000) (0x4), 6, 0x0⟩
/-- 0x1010:01, RO (R398). -/
def O.IDENT : Obj := ⟨objKey (0x1010) (0x1), 4, 0x7840F1B1⟩
/-- 0x1010:02, RO (R398). -/
def O.VENDOR : Obj := ⟨objKey (0x1010) (0x2), 4, 0x1E7C⟩
/-- 0x1010:03, RO (R398). -/
def O.SERIAL : Obj := ⟨objKey (0x1010) (0x3), 16, 0x0⟩
/-- 0x1010:04, RO (R398). -/
def O.ORDERING_CODE : Obj := ⟨objKey (0x1010) (0x4), 12, 0x0⟩
/-- 0x1020:01, RO (R398). -/
def O.PERSIST_STATE : Obj := ⟨objKey (0x1020) (0x1), 1, 0x0⟩
/-- 0x1020:02, WO (R398). -/
def O.RESTORE_DEFAULTS : Obj := ⟨objKey (0x1020) (0x2), 4, 0x0⟩
/-- 0x1020:03, RO (R398). -/
def O.PERSIST_WRITES : Obj := ⟨objKey (0x1020) (0x3), 4, 0x0⟩
/-- 0x1030:01, RW (R398). -/
def O.NOTIFY_EN : Obj := ⟨objKey (0x1030) (0x1), 1, 0x1⟩
/-- 0x1030:02, RW (R398). -/
def O.CANCEL_TX : Obj := ⟨objKey (0x1030) (0x2), 1, 0x1⟩
/-- 0x1030:03, RW (R398). -/
def O.CANCEL_RX : Obj := ⟨objKey (0x1030) (0x3), 1, 0x1⟩
/-- 0xA0E0:01, RO (R398). -/
def O.SASH_FRAMES_RX : Obj := ⟨objKey (0xA0E0) (0x1), 8, 0x0⟩
/-- 0xA0E0:02, RO (R398). -/
def O.SASH_FRAMES_TX : Obj := ⟨objKey (0xA0E0) (0x2), 8, 0x0⟩
/-- 0xA0E0:03, RO (R398). -/
def O.SASH_FRAMES_RELAYED : Obj := ⟨objKey (0xA0E0) (0x3), 8, 0x0⟩
/-- 0xA0E0:04, RO (R398). -/
def O.SASH_FRAMES_DROPPED : Obj := ⟨objKey (0xA0E0) (0x4), 4, 0x0⟩
/-- 0xA0E0:05, RO (R398). -/
def O.DICT_READS : Obj := ⟨objKey (0xA0E0) (0x5), 8, 0x0⟩
/-- 0xA0E0:06, RO (R398). -/
def O.DICT_WRITES : Obj := ⟨objKey (0xA0E0) (0x6), 8, 0x0⟩
/-- 0xA0E0:07, RO (R398). -/
def O.SASH_CANCELS_RX : Obj := ⟨objKey (0xA0E0) (0x7), 4, 0x0⟩
/-- 0x20A0:01, RO (R435). -/
def O.DEVICE_HALTED : Obj := ⟨objKey (0x20A0) (0x1), 1, 0x0⟩
/-- 0x20A0:02, RO (R435). -/
def O.PANES_IN_SERVICE : Obj := ⟨objKey (0x20A0) (0x2), 1, 0x60⟩
/-- 0x20A0:03, RO (R435). -/
def O.CASEMENTS_IN_SERVICE : Obj := ⟨objKey (0x20A0) (0x3), 1, 0x4⟩
/-- 0x20A0:04, RO (R435). -/
def O.LAST_HALT : Obj := ⟨objKey (0x20A0) (0x4), 96, 0x0⟩
/-- 0x30A0:01, RW (R435). -/
def O.FAULT_VECTOR : Obj := ⟨objKey (0x30A0) (0x1), 2, 0xFFFF⟩
/-- 0x5008+p×0x20:01, RO (R435). -/
def O.SELFTEST_RESULT (i : Nat) : Obj := ⟨objKey (0x5008 + i * 0x20) (0x1), 1, 0x0⟩
/-- 0x5008+p×0x20:02, RW (R435). -/
def O.UNFENCE (i : Nat) : Obj := ⟨objKey (0x5008 + i * 0x20) (0x2), 1, 0x0⟩
/-- 0x5008+p×0x20:03, RW (R435). -/
def O.BANK_UNFENCE (i : Nat) : Obj := ⟨objKey (0x5008 + i * 0x20) (0x3), 1, 0x0⟩
/-- 0x8000+n:00, RWP (R435). -/
def O.SEVERITY (i : Nat) : Obj := ⟨objKey (0x8000 + i * 0x1) (0x0), 1, faultDefault i⟩
/-- 0xA0F0:01, RO (R435). -/
def O.FAULTS_CAPTURED : Obj := ⟨objKey (0xA0F0) (0x1), 8, 0x0⟩
/-- 0xA0F0:02, RO (R435). -/
def O.FENCES : Obj := ⟨objKey (0xA0F0) (0x2), 4, 0x0⟩
/-- 0xA0F0:03, RO (R435). -/
def O.POISON_CONSUMED : Obj := ⟨objKey (0xA0F0) (0x3), 8, 0x0⟩
/-- 0xA0F0:04, RO (R435). -/
def O.OVERFLOWS : Obj := ⟨objKey (0xA0F0) (0x4), 8, 0x0⟩
/-- 0xA0F0:05, RO (R435). -/
def O.INJECTIONS : Obj := ⟨objKey (0xA0F0) (0x5), 4, 0x0⟩
/-- 0x20B0:01, RO (R458). -/
def O.POWER_STATE : Obj := ⟨objKey (0x20B0) (0x1), 1, 0x0⟩
/-- 0x20B0:02, RO (R458). -/
def O.PARKED_CONTEXTS : Obj := ⟨objKey (0x20B0) (0x2), 2, 0x0⟩
/-- 0x20B0:03, RO (R458). -/
def O.PARK_BYTES_NEEDED : Obj := ⟨objKey (0x20B0) (0x3), 8, 0x0⟩
/-- 0x20B0:04, RO (R458). -/
def O.PARK_BYTES_FREE : Obj := ⟨objKey (0x20B0) (0x4), 8, 0x0⟩
/-- 0x20B0:05, WO (R458). -/
def O.DEVICE_RESET : Obj := ⟨objKey (0x20B0) (0x5), 4, 0x0⟩
/-- 0x20B0:06, RO (R458). -/
def O.BOOT_SLOT : Obj := ⟨objKey (0x20B0) (0x6), 1, 0x0⟩
/-- 0x20B0:07, RO (R458). -/
def O.FW_TRIAL : Obj := ⟨objKey (0x20B0) (0x7), 1, 0x0⟩
/-- 0x30B0:01, RW (R458). -/
def O.CASEMENT_GATE_TIME : Obj := ⟨objKey (0x30B0) (0x1), 4, 0x3E8⟩
/-- 0x30B0:02, RW (R458). -/
def O.IDLE_TIME : Obj := ⟨objKey (0x30B0) (0x2), 4, 0x64⟩
/-- 0x30B0:03, RW (R458). -/
def O.DARK_ACTION : Obj := ⟨objKey (0x30B0) (0x3), 1, 0x0⟩
/-- 0x20C0:01, RO (R477). -/
def O.CORE_MV : Obj := ⟨objKey (0x20C0) (0x1), 2, 0x0⟩
/-- 0x20C0:02, RO (R477). -/
def O.CORE_AMPS : Obj := ⟨objKey (0x20C0) (0x2), 2, 0x0⟩
/-- 0x20C0:03, RO (R477). -/
def O.CORE_POWER_W : Obj := ⟨objKey (0x20C0) (0x3), 2, 0x0⟩
/-- 0x20C0:04, RO (R477). -/
def O.TJ_MAX : Obj := ⟨objKey (0x20C0) (0x4), 1, 0x0⟩
/-- 0x20C0:05, RW (R477). -/
def O.THERMTRIP_SEEN : Obj := ⟨objKey (0x20C0) (0x5), 1, 0x0⟩
/-- 0x30C0:01, RWP (R477). -/
def O.CORE_VOLT_MODE : Obj := ⟨objKey (0x30C0) (0x1), 1, 0x0⟩
/-- 0x30C0:02, RWP (R477). -/
def O.CORE_MV_SET : Obj := ⟨objKey (0x30C0) (0x2), 2, 0x2EE⟩
/-- 0x30C0:03, RWP (R477). -/
def O.RATE_TARGET : Obj := ⟨objKey (0x30C0) (0x3), 2, 0x708⟩
/-- 0x30C0:04, RWP (R477). -/
def O.CORE_MV_MIN : Obj := ⟨objKey (0x30C0) (0x4), 2, 0x28A⟩
/-- 0x30C0:05, RWP (R477). -/
def O.CORE_MV_MAX : Obj := ⟨objKey (0x30C0) (0x5), 2, 0x384⟩
/-- 0x30C0:06, RWP (R477). -/
def O.POWER_CAP : Obj := ⟨objKey (0x30C0) (0x6), 2, 0x190⟩
/-- 0x30C0:07, RWP (R477). -/
def O.CORE_PMB_ADDR : Obj := ⟨objKey (0x30C0) (0x7), 1, 0x40⟩

end Sys2Proof.Machine
end

