-- ==== Sys2Proof/Machine/Types.lean ====
section
/-!
DEFINITION. The plain data of Jamb (10), Threshold and the drives (11), the control digest unit and the key store
(13), Hinge (14) and the memory controllers (09).
-/

namespace Sys2Proof.Machine

/-! ### Jamb -/

/-- The states of a queue (R246). -/
inductive QState where
  | absent | active | error | flushing | deleting
deriving DecidableEq, Repr

/-- A queue's configuration, copied from the staging registers at CREATE (R245, R271). -/
structure QCfg where
  sqBase : Nat := 0
  cqBase : Nat := 0
  mirAddr : Nat := 0
  sqLog : Nat := 6
  cqLog : Nat := 6
  sqEng : Bool := false
  cqEng : Bool := false
  mirEng : Bool := false
  mirEn : Bool := false
  weight : Nat := 1
  vector : Nat := 0
  irqEn : Bool := false
  coalCount : Nat := 1
  coalTime : Nat := 0
  /-- The live test control QCFG_SIZE [31:24] held its reset value, so the rotation of R257 is on (R271). -/
  rotation : Bool := true
deriving DecidableEq, Repr

/-- A queue: its state, configuration, the four wrapping indices of R240, SQ_ERR_IDX (R263), the flush latch Pf
(R265), STALL (R259) and the completions pending since its last interrupt (R260). -/
structure Queue where
  st : QState := .absent
  cfg : QCfg := {}
  sqP : BitVec 32 := 0
  sqC : BitVec 32 := 0
  cqP : BitVec 32 := 0
  cqC : BitVec 32 := 0
  errIdx : BitVec 32 := 0
  flushTo : BitVec 32 := 0
  stall : Bool := false
  pend : Nat := 0
deriving DecidableEq, Repr

/-- Where a command in flight stands: fetched, dispatched, ended with a status, or ended and in the backlog. -/
inductive CPhase where
  | fetched | dispatched | finished | backlogged
deriving DecidableEq, Repr

/-- A command in flight (R257, R258): its queue, entry, place in fetch and dispatch order, and its outcome.
`abort` holds the status a flush or cancel has fixed while the command still runs to its boundary (R265, R270). -/
structure Cmd where
  id : Nat
  queue : Nat
  slot : BitVec 32
  opcode : Nat
  flags : Nat
  tag : Nat
  entry : Bytes
  phase : CPhase := .fetched
  disp : Nat := 0
  abort : Option Nat := none
  status : Nat := 0
  result : Bytes := []
  resultLen : Nat := 0
  /-- What a FETCH has read, where its LBAs came from (byte 8 of its result, R256), and whether its drive's part has come through
  the drive pool (R281, R336). -/
  buf : Bytes := []
  origin : Nat := 0
  pulled : Bool := false
deriving DecidableEq, Repr

/-- One MSI-X vector: the table entry (PCI Express Base 6.0) and its pending bit. -/
structure Msix where
  addr : Nat := 0
  data : Nat := 0
  masked : Bool := true
  pending : Bool := false
deriving DecidableEq, Repr

/-- Jamb: queues by number, commands in flight in fetch order, the backlog as command ids oldest first, the rotation
position (R257), the two counters that number commands and dispatches, and the MSI-X vectors. -/
structure Jamb where
  queues : Sparse Queue := []
  cmds : List Cmd := []
  backlog : List Nat := []
  rot : Nat := 0
  nextCmd : Nat := 0
  nextDisp : Nat := 0
  msix : Sparse Msix := []
deriving DecidableEq, Repr

/-! ### Memories -/

/-- A request held in a bank queue of a controller (R221): the line it names, its row, and the Casement whose Sill sent
it; 4 for a whole-line write that went around its Sill. Its data counts from its arrival (R222): a write stands in
memory then, and a fill's data is taken then. -/
structure MReq where
  write : Bool
  line : Nat
  row : Nat
  cas : Nat
deriving DecidableEq, Repr

/-- A pseudo-channel's or sub-channel's bank: its queue, oldest first, and its open row (R221, R223). -/
structure Bank where
  queue : List MReq := []
  open_ : Option Nat := none
  hits : Nat := 0
deriving DecidableEq, Repr

/-- A pseudo-channel (0 to 191) or far sub-channel (192 to 207): write mode and rotation of R221, the ranks in power-down
(R226; bit 0 for near memory), and the active copies of the shadowed k and timing override (R225, R236). -/
structure SubChan where
  writing : Bool := false
  lastBank : Nat := 0
  powerDown : Nat := 0
  activeK : Nat := 11
  tovr : Nat := 0
  tovrValue : Nat := 0
deriving DecidableEq, Repr

/-- A near channel (0 to 95) or far channel (96 to 103) of R229: its state as CH_STATE reads it, the temperature at
which it last trained, the retry mark of a failed retrain, and where the reserve holds a remapped channel. -/
structure Chan where
  state : Nat := 0
  trainedAt : Nat := 0
  retried : Bool := false
  /-- The retrain was asked for through MC_RETRAIN.GO, so MC_RETRAIN.DONE reports its end. -/
  requested : Bool := false
  /-- Reserve offset that holds a remapped channel (R234). -/
  reserveAt : Option Nat := none
  /-- Times of its uncorrected errors within the last hour (R233). -/
  errors : List Nat := []
deriving DecidableEq, Repr

/-- Both memories. Bytes by engine address and poison by 32-byte sector number (R215, R231); stacks and far channels
in service; the accepted far population (R218). -/
structure Mem where
  cells : Sparse Byte := []
  poison : Sparse Bool := []
  nearUp : Nat := 0
  farUp : Nat := 0
  farState : Nat := 0
  farRate : Nat := 0
  farCapacity : Nat := 0
  /-- Ranks of one sub-channel, all its DIMMs together. -/
  farRanks : Nat := 1
  parkGiB : Nat := 2
  reserve : Nat := 0
  /-- Bytes of the pipeline region, as taken at the last reset (R64). -/
  region : Nat := 0
  training : Bool := false
  chans : Sparse Chan := []
  subs : Sparse SubChan := []
  banks : Sparse Bank := []
  retrainNear : List Nat := []
  retrainFar : List Nat := []
  /-- Near channels being copied into the reserve, the one under way first (R234). -/
  remaps : List Nat := []
  reserveUsed : Nat := 0
  nearTemp : Sparse Nat := []
  farTemp : Sparse Nat := []
  nearHot : Bool := false
  farHot : Bool := false
  selfRefresh : Bool := false
deriving DecidableEq, Repr

/-! ### Sill -/

/-- A line held by a Sill: its line number, 128 bytes, the dirty bit of each 8-byte word, the poison bit of each
32-byte sector, whether a prefetch brought it and no demand hit has met it, and the nodes (1,024 × context + node) whose
writes since their last boundary it holds (R192, R195, R196, R202, R211). -/
structure SLine where
  line : Nat
  data : Bytes
  dirty : Nat := 0
  poison : Nat := 0
  prefetched : Bool := false
  owners : List Nat := []
deriving DecidableEq, Repr

/-- A set: lines by way, and the tree bits of its replacement order (R195). -/
structure SSet where
  ways : Sparse (Option SLine) := []
  plru : Nat := 0
deriving DecidableEq, Repr

/-- A line in the write-back buffer, and whether its write stands in a controller queue (R199, R221). -/
structure WbLine where
  line : SLine
  queued : Bool := false
deriving DecidableEq, Repr

/-- What a maintenance operation or an invalidation does to the line of a fill in flight (R207). -/
inductive HeldOp where
  | flush (cmd : Option Nat)
  | drop (cmd : Option Nat)
  | flushDrop (cmd : Option Nat)
  | load (cmd : Option Nat)
deriving DecidableEq, Repr

/-- A request to Sill: the requesting Pane, the node it is for (1,024 × context + node), and for a write the bytes by line
offset. -/
structure SReq where
  pane : Nat
  owner : Nat := 0
  write : List (Nat × Byte) := []
deriving DecidableEq, Repr

/-- A miss register (R198): its line and class, the merged requests, the operations held on it in arrival order,
whether a prefetch issued it, whether its fill stands in a controller queue, the fill's data and poison as taken when it
got there, and whether the controller has served it. -/
structure MissReg where
  line : Nat
  cls : SClass
  reqs : List SReq := []
  held : List HeldOp := []
  prefetch : Bool := false
  queued : Bool := false
  fill : Option (Bytes × Nat) := none
  served : Bool := false
deriving DecidableEq, Repr

/-- A prefetch stream (R203): the node it follows (1,024 × context + node), its stride in lines (0 not yet known), the last
demand line, misses seen at that stride, whether it was declared, the line past its declared end, and how many lines or
strides past `last` are prefetched. -/
structure PfStream where
  owner : Nat
  declared : Bool
  stride : Int
  last : Nat
  count : Nat
  limit : Nat
  ahead : Nat
deriving DecidableEq, Repr

/-- A request that waits for a miss register, a merge or a write-back entry (R198, R199), with its line and class, and whether
it belongs to a declared stream. -/
structure SWait where
  line : Nat
  cls : SClass
  req : SReq
  declared : Bool := false
deriving DecidableEq, Repr

/-- A bank of a Sill (R192): sets, victim cache and write-back buffer newest first, miss registers, requests that wait,
streams most recently used first. -/
structure SBank where
  sets : Sparse SSet := []
  victims : List SLine := []
  wbuf : List WbLine := []
  mrs : List MissReg := []
  waiting : List SWait := []
  streams : List PfStream := []
deriving DecidableEq, Repr

/-- A CACHE_MAINT whose held operations have not all acted (R210): the Sills it acts on, and its counts so far. -/
structure Maint where
  cmd : Nat
  mask : Nat
  waits : Nat := 0
  written : Nat := 0
  dropped : Nat := 0
  loaded : Nat := 0
  skipped : Bool := false
deriving DecidableEq, Repr

/-! ### Threshold and drives -/

/-- The form of a STORE or of compressed output: COMPRESS, TRAILER, EFFORT, block size and COLUMN (R251, R275). -/
structure StoreForm where
  compress : Bool := false
  trailer : Bool := false
  effort : Nat := 0
  blockLog : Nat := 18
  column : Nat := 0
deriving DecidableEq, Repr

/-- Where a STORE that has taken its units stands (R277, R279): pulling its data, every unit written, or committed and
staged until its drain is released. -/
inductive SPhase where
  | pulling | landed | staged
deriving DecidableEq, Repr

/-- A STORE in progress or staged. -/
structure Stg where
  cmd : Nat
  disp : Nat
  slot : Nat
  nsid : Nat
  lba : Nat
  lbas : Nat
  lbaSize : Nat
  length : Nat
  form : StoreForm
  phase : SPhase
  data : Bytes := []
  units : List Nat := []
  seq : Nat := 0
  serial : Nat := 0
  nguid : Nat := 0
  /-- Its drain writes have completed, with how many blocks (R280 counts them), and a Flush has covered them. -/
  written : Bool := false
  blocks : Nat := 0
  flushed : Bool := false
  /-- The drive image that Hinge brings to the drive port, and whether it has come there (R31, R336). -/
  image : Bytes := []
  sent : Bool := false
  /-- A Threshold line of it is poisoned (R420). -/
  poisoned : Bool := false
  held : Option Nat := none
deriving DecidableEq, Repr

/-- A Threshold unit (R273, R289): in use, writes so far, and retired. -/
structure TUnit where
  used : Bool := false
  writes : Nat := 0
  retired : Bool := false
deriving DecidableEq, Repr

/-- A STORE_SYNC waiting for the STOREs it covers (R280), by commit sequence number. -/
structure Sync where
  cmd : Nat
  covered : List Nat
  counted : Nat := 0
deriving DecidableEq, Repr

/-- Threshold: units, STOREs oldest first, the commit sequence, the hold-up state of R283 and the halt record of
R431 (96 bytes, empty until the first halt). -/
structure Thr where
  units : Sparse TUnit := []
  stores : List Stg := []
  nextSeq : Nat := 0
  pfSafe : Bool := false
  haltRec : Bytes := []
  syncs : List Sync := []
deriving DecidableEq, Repr

/-- A namespace of a drive: its LBA size in bytes and its LBA count (R287). -/
structure NSpace where
  nsid : Nat
  lbaSize : Nat
  lbas : Nat
deriving DecidableEq, Repr

/-- The position of a drive slot (R286 to R288): whether a drive is fitted, whether the engine sees it (`present`: the slot
exists), the lanes it has and those it has trained at. Contents are keyed by namespace number × 2^72 plus byte offset. -/
structure Drive where
  fitted : Bool := false
  lanes : Nat := 0
  present : Bool := false
  ready : Bool := false
  width : Nat := 0
  speed : Nat := 0
  vwc : Bool := false
  serial : Nat := 0
  nguid : Nat := 0
  spaces : List NSpace := []
  cells : Sparse Byte := []
  resetting : Bool := false
  failed : Bool := false
  /-- Bytes the drain has written since the last Flush, and whether the pending write was retried (R279, R288). -/
  sinceFlush : Nat := 0
  retried : Bool := false
deriving DecidableEq, Repr

/-! ### Bifold -/

/-- Who asked for a block (R305): a ring command, a drain by commit sequence number, or a SCAN node of a context. -/
inductive BOwner where
  | cmd (id : Nat)
  | drain (seq : Nat)
  | scan (ctx node : Nat)
deriving DecidableEq, Repr

/-- A block request: its owner, its place among the owner's blocks, and after a parity error the engine it avoids
(R306). -/
structure BReq where
  owner : BOwner
  index : Nat
  avoid : Option Nat := none
deriving DecidableEq, Repr

/-- A Bifold engine: the block it holds, fenced, and the parity errors it has had. -/
structure BEngine where
  held : Option BReq := none
  fenced : Bool := false
  errors : Nat := 0
deriving DecidableEq, Repr

/-- A Casement's block queue, oldest first, and its 12 engines; `stopped` while its engines take no blocks (R306). -/
structure BCas where
  queue : List BReq := []
  engines : Sparse BEngine := []
  stopped : Bool := false
deriving DecidableEq, Repr

/-- The blocks an owner has asked for: whether they are built or decoded and how, the input of each block, what the
finished ones came to (place, status, bytes), and whether a flush has stopped it at the next block boundary (R306). -/
structure Job where
  owner : BOwner
  build : Bool
  form : StoreForm := {}
  noCheck : Bool := false
  blocks : List Bytes
  results : List (Nat × Nat × Bytes) := []
  stop : Bool := false
deriving DecidableEq, Repr

/-- All Bifold engines: by Casement, the jobs in progress, and the requests that wait for a queue with room. -/
structure Bifold where
  cas : Sparse BCas := []
  jobs : List Job := []
  waiting : List BReq := []
deriving DecidableEq, Repr

/-! ### Control digest unit and key store -/

/-- A digest context (R312 to R317). `msg` is the message accepted so far, `done` bytes of it are compressed. -/
structure DgCtx where
  alloc : Bool := false
  /-- Held by the DIGEST command of this number (DG_STAT_k.CMD). -/
  cmd : Option Nat := none
  running : Bool := false
  alg : Nat := 0
  hmac : Bool := false
  keySlot : Nat := 0
  toSlot : Bool := false
  destSlot : Nat := 0
  declared : Nat := 0
  msg : Bytes := []
  compressed : Nat := 0
  finalReq : Bool := false
  done : Bool := false
  result : Bytes := []
  early : Bool := false
  overrun : Bool := false
  lost : Bool := false
  short : Bool := false
  keyerr : Bool := false
  slotted : Bool := false
deriving DecidableEq, Repr

/-- A key-store slot (R321): type, length, contents, SHA-384 tag and BAD. -/
structure KeySlot where
  type : Nat := 0
  len : Nat := 0
  data : Bytes := []
  tag : Bytes := []
  bad : Bool := false
deriving DecidableEq, Repr

/-- A key-store operation that waits for a slot's use to end (R322). -/
structure KsOp where
  op : Nat
  slot : Nat
  type : Nat
  len : Nat
deriving DecidableEq, Repr

/-- The digest unit, the key store and the identity of the part (R324). -/
structure Dig where
  ctxs : Sparse DgCtx := []
  slots : Sparse KeySlot := []
  ksPending : Option KsOp := none
  lastCtx : Nat := 63
  pubKey : Bytes := []
  keyId : Bytes := []
  certOk : Bool := false
deriving DecidableEq, Repr

/-! ### Hinge -/

/-- A descriptor (R337). Strides are signed 64-bit. -/
structure Desc where
  src : Nat := 0
  dst : Nat := 0
  srcLen : Nat := 0
  srcCount : Nat := 0
  srcStride : Int := 0
  dstLen : Nat := 0
  dstCount : Nat := 0
  dstStride : Int := 0
  srcEng : Bool := false
  dstEng : Bool := false
  swap : Nat := 0
  link : Bool := false
  close : Bool := false
  nextEng : Bool := false
  next : Nat := 0
deriving DecidableEq, Repr

/-- Where a DMA list takes its next descriptor: slot i of its entry, or memory (R341). -/
inductive DescAt where
  | inline (i : Nat)
  | mem (eng : Bool) (addr : Nat)
deriving DecidableEq, Repr

/-- Source of an engine-built descriptor. -/
inductive ESrc where
  | host (addr : Nat)
  | eng (addr : Nat)
  | imm (bytes : Bytes)
deriving DecidableEq, Repr

/-- Destination of an engine-built descriptor; `store c` appends to the Threshold units of the STORE of command c, `buffer` is
a drive port or a buffer of near memory to which the spec gives no address (assumption log 109). -/
inductive EDst where
  | host (addr : Nat)
  | eng (addr : Nat)
  | store (cmd : Nat)
  | buffer
deriving DecidableEq, Repr

/-- An engine-built descriptor (R342: at most 256 KiB). -/
structure EDesc where
  src : ESrc
  dst : EDst
  len : Nat
  close : Bool := false
deriving DecidableEq, Repr

/-- Whose list a channel runs (R336, HINGE_CH_TAG_n): a command's, a FETCH's delivery or its drive read, a result block, a
block that a SCAN has asked for, or the drain of the STORE with a commit sequence number. -/
inductive Owner where
  | dma (cmd : Nat)
  | store (cmd : Nat)
  | fetch (cmd : Nat)
  | pull (cmd : Nat)
  | emit (ctx sink : Nat)
  | scan (block : BReq)
  | drain (seq : Nat)
deriving DecidableEq, Repr

/-- A descriptor list: for a DMA command where its next descriptor lies and how many may run; for engine traffic the
descriptors still to run. `drop` is the status a flush or cancel gave it during a halt (R348). -/
structure HList where
  owner : Owner
  tag : Nat
  at_ : DescAt := .inline 0
  count : Nat := 0
  total : Nat := 0
  work : List EDesc := []
  done : Nat := 0
  moved : Nat := 0
  queued : Nat := 0
  drop : Option Nat := none
deriving DecidableEq, Repr

/-- A Hinge channel (R336, R343): its lists, oldest first. -/
structure HChan where
  lists : List HList := []
  stopReq : Bool := false
  stopped : Bool := false
  abandoned : Bool := false
deriving DecidableEq, Repr

/-- Hinge: channels and the latches of the halt (R346). -/
structure Hinge where
  chans : Sparse HChan := []
  halt : Bool := false
  errAddr : Nat := 0
  errKind : Nat := 0
  errPort : Bool := false
  errSlot : Nat := 0
  errMore : Bool := false
deriving DecidableEq, Repr

end Sys2Proof.Machine
end

