-- ==== Sys2Proof/Machine/PipeTypes.lean ====
section
/-!
DEFINITION. The plain data of pipelines: values and strips (R36 to R40), the image (R56 to R61), contexts (R46 to R55),
operator state (03 to 06), Latch (07), Panes and the Louvre (04).
-/

namespace Sys2Proof.Machine

/-! ### Values and strips -/

/-- A value: a bit pattern in the type's width (BOOL 0 or 1), or the bytes of a VARBIN. -/
inductive Val where
  | num (n : Nat)
  | str (b : Bytes)
deriving DecidableEq, Repr

/-- A value or null. -/
abbrev Datum := Option Val

/-- A row of a strip. -/
abbrev Row := List Datum

/-- A column of a schema (R60). -/
structure ColTy where
  ty : Nat
  scale : Nat := 0
  nullable : Bool := false
  dict : Nat := 0
deriving DecidableEq, Repr

/-- A strip (R36): its tag, its rows, which of them are live, for each column the number of its dictionary among those
of its context, and whether its values are poisoned (R90). No row live is the EMPTY token. -/
structure Strip where
  tag : Nat
  rows : List Row := []
  live : List Bool := []
  dicts : List Nat := []
  poisoned : Bool := false
deriving DecidableEq, Repr

/-! ### The image -/

/-- A node descriptor (R57) with its schema and the body of its parameter record, and the image offset of that body. -/
structure Node where
  id : Nat
  op : Nat
  stateful : Bool
  blocking : Bool
  ins : Nat
  outs : Nat
  cas : Nat
  mask : Nat
  schema : List ColTy
  param : Bytes
  paramAt : Nat
deriving DecidableEq, Repr

/-- An edge (R59). -/
structure Edge where
  src : Nat
  port : Nat
  toPort : Nat
  dst : Nat
  depth : Nat
  cols : Nat
deriving DecidableEq, Repr

/-- A column directory entry (R60, R67). -/
structure DirCol where
  validity : Nat
  values : Nat
  data : Nat
  dictLen : Nat
deriving DecidableEq, Repr

/-- An extent of drive blocks (R60, R69). -/
structure Extent where
  slot : Nat
  col : Nat
  nsid : Nat
  lba : Nat
  len : Nat
deriving DecidableEq, Repr

/-- A source descriptor (R61). -/
structure Source where
  kind : Nat
  cols : Nat
  node : Nat
  dir : List DirCol := []
  extents : List Extent := []
  rows : Nat
deriving DecidableEq, Repr

/-- A sink descriptor (R61). -/
structure Sink where
  kind : Nat
  sealHere : Bool
  node : Nat
  block : Nat
  base : Nat
  len : Nat
deriving DecidableEq, Repr

/-- A declared Louvre table (R125). -/
structure Decl where
  table : Nat
  width : Nat
  layout : Nat
deriving DecidableEq, Repr

/-- A checked image. -/
structure Prog where
  nodes : List Node := []
  edges : List Edge := []
  sources : List Source := []
  sinks : List Sink := []
  decls : List Decl := []
  pool : Bytes := []
  sealed : Bool := false
  skip : Bool := false
  fabric : Bool := false
  query : Bytes := []
  len : Nat := 0
deriving DecidableEq, Repr

/-! ### Operator state -/

/-- A column of a KIND 3 SCAN: its extents still to read with the offset reached in the first, the number of blocks asked
for and of blocks taken in so far, rows decoded and not yet in a strip, whether a DICT_CODES block of the extent has
been seen, rows to drop for skips of other columns, and the error its next row meets. `starts` are the blocks asked for that
open an extent, `left` the rows that ROW_COUNT leaves it to read. -/
structure ScanCol where
  extents : List Extent := []
  off : Nat := 0
  asked : Nat := 0
  taken : Nat := 0
  rows : List Datum := []
  codes : Bool := false
  fail : Option Nat := none
  starts : List Nat := []
  left : Option Nat := none
deriving DecidableEq, Repr

/-- A SCAN: the next source count, the next row of a memory source, and the columns of a drive source. Skipped row
ranges are kept as first row and count. -/
structure ScanSt where
  seq : Nat := 0
  row : Nat := 0
  cols : List ScanCol := []
  skips : List (Nat × Nat) := []
deriving DecidableEq, Repr

/-- A Louvre entry (R95). -/
structure LvEntry where
  key : Nat := 0
  care : Nat := 0
  prio : Nat := 0
  tag : Nat := 0
  valid : Bool := false
  /-- The check bits: the parity of KEY's four 32-bit words, low word first, and of CARE, PRIORITY, TAG and VALID. -/
  check : Nat := 0
deriving DecidableEq, Repr

/-- The NEXT of a row that ends its chain, and the OVERFLOW of a bucket line without a next line (R128). -/
def noNext : Nat := 0xFFFFFFFF

/-- A row of a join's row store (R127, R128), with NEXT and NULL_KEY of its header. -/
structure JRow where
  key : Row
  payload : Row
  hash : Nat
  nullKey : Bool := false
  next : Nat := noNext
deriving DecidableEq, Repr

/-- A line of a bucket array or of its overflow area: up to 14 slots of FRAGMENT and row ordinal, and OVERFLOW (R128). -/
structure BLine where
  slots : List (Nat × Nat) := []
  link : Nat := noNext
deriving DecidableEq, Repr

/-- The bucket array of a partition: its number of buckets, its lines by bucket, and its overflow area. -/
structure HjIndex where
  nb : Nat := 1
  lines : Sparse BLine := []
  spare : List BLine := []
deriving DecidableEq, Repr

/-- An HJ_BUILD: its stores by partition or owner ordinal, each in ordinal order, the bucket arrays of PATH 0 by partition,
whether it has seen a row and a null key, whether it has built, and whether its prefilter is loaded. -/
structure HjSt where
  stores : Sparse (List JRow) := []
  index : Sparse HjIndex := []
  rows : Nat := 0
  nullKeys : Nat := 0
  built : Bool := false
  prefilter : Bool := false
deriving DecidableEq, Repr

/-- A sort entry (R140): the normalized key in full and its locator. A TOPK entry has its row inline, one under KEYS_ONLY the
key columns it stands for. -/
structure SEntry where
  key : Bytes
  loc : Nat
  row : Row := []
deriving DecidableEq, Repr

/-- A sorted run: the Casement part it belongs to, its entries, and the samples taken of it (R145, R161). -/
structure SRun where
  cas : Nat
  entries : List SEntry
  samples : List SEntry := []
deriving DecidableEq, Repr

/-- An input strip of a SORT_RUN in its strip directory: the Casement part whose row store holds its rows, the strip's place
in a locator, and its first row in the store (R145). -/
structure SDir where
  cas : Nat
  strip : Nat
  first : Nat
deriving DecidableEq, Repr

/-- A SORT_RUN: the runs being formed by Pane (96 + Pane for one that another Pane is to go on with), the finished runs, the
strip directory, and the row stores by Casement part, each row with its position in its strip. -/
structure SortSt where
  open_ : Sparse (List SEntry) := []
  runs : List SRun := []
  dir : List SDir := []
  rows : Sparse (List (Nat × Row)) := []
deriving DecidableEq, Repr

/-- A SORT_MERGE in its passes (R147, R148): the runs this pass reads, how many it merges into one, whether it is the last,
its ranges (group, first and past-the-last place in the group's order) and how many of them are still to be merged, the
number of the pass, and the SORT_RUN's node number. -/
structure MergeSt where
  runs : List SRun := []
  group : Nat := 1
  last : Bool := true
  ranges : List (Nat × Nat × Nat) := []
  left : Nat := 0
  pass : Nat := 0
  src : Nat := 0
deriving DecidableEq, Repr

/-- A Casement part of a TOPK: its candidates, and its threshold once it has been reduced (R150). -/
structure TopPart where
  cands : List SEntry := []
  threshold : Option SEntry := none
deriving DecidableEq, Repr

/-- An accumulator of one aggregate (R152, R153): rows counted, the exact sum, FLT addends, the value held, its locator, and
the residues that its sum or count has come by from its operands', of the low and the high 64 bits (R159). -/
structure Acc1 where
  count : Nat := 0
  sum : Int := 0
  chain : Nat × Nat := (0, 0)
  flts : List Nat := []
  held : Option Val := none
  loc : Nat := 0
deriving DecidableEq, Repr

/-- A group (R154, R155). -/
structure Group where
  key : Bytes
  vals : Row
  hash : Nat := 0
  accs : List Acc1
  /-- The residue word a spilled entry carries (R156). -/
  word : Option Nat := none
deriving DecidableEq, Repr

/-- A Pane's group table with the AGG_STORE_SHARE it was started with (R155, R167). -/
structure AggTable where
  share : Nat
  groups : List Group
deriving DecidableEq, Repr

/-- A HASH_AGG: the tables by Pane, the spilled entries with the Casement part that wrote them, AGG_SPILL_PBITS as its spills
started with it, and the strips its finalization has numbered (R156, R161, R167). -/
structure AggSt where
  tables : Sparse AggTable := []
  spilled : List (Nat × Group) := []
  pbits : Option Nat := none
  seq : Nat := 0
deriving DecidableEq, Repr

/-- An EMIT (R62): rows of the open block, the next block's sequence number, blocks closed, rows emitted, whether a skip
has been seen, and whether its last block is closed. -/
structure EmitSt where
  rows : List Row := []
  seq : Nat := 0
  closed : Nat := 0
  emitted : Nat := 0
  done : Bool := false
deriving DecidableEq, Repr

/-- What a node keeps between strips. -/
inductive OpSt where
  | none
  | scan (s : ScanSt)
  | lvBuild (entries : List LvEntry) (rows : Nat)
  | hjBuild (h : HjSt)
  | probe (matched : List Nat)
  | sortRun (s : SortSt)
  | merge (m : MergeSt)
  | topk (parts : Sparse TopPart)
  | agg (a : AggSt)
  | sortAgg (open_ : Option Group) (done : List Group) (seq : Nat)
  | emit (e : EmitSt)
  | shufOut (staging : Sparse (List (Nat × Row)))
deriving DecidableEq, Repr

/-! ### Louvre -/

/-- A Louvre bank (R95, R98, R116): the table bound to it and its place in the table's span, entries by position, fenced, and the
active copy of its SHADOW_SEARCH bit. Array and shadow agree between
commands (R113). A table's copy that a swap is replacing stands under the internal number table + 64 × k, k from 1 (R103). -/
structure LvBank where
  table : Option Nat := none
  ordinal : Nat := 0
  entries : Sparse LvEntry := []
  fenced : Bool := false
  shadow : Bool := false
deriving DecidableEq, Repr

/-- A Louvre table (R98, R99): width code, layout, span, Casement mask, steer mask, the context that owns it, none for
software, and whether it is damaged (R114, R115). -/
structure LvTable where
  width : Nat
  layout : Nat
  span : Nat
  mask : Nat
  steer : Nat
  owner : Option Nat := none
  damaged : Bool := false
deriving DecidableEq, Repr

/-- The Louvre of all Casements: tables by number, and banks by 4 × Casement + bank. -/
structure Louvre where
  tables : Sparse (Option LvTable) := []
  banks : Sparse LvBank := []
deriving DecidableEq, Repr

/-! ### Contexts and Latch -/

/-- The values a node applies that change at its node strip boundaries alone (R45, R64, R92, R118, R403): SKIP_ON_ERROR,
PANE_LIMIT and DISPATCH_PRIORITY of its context, RESIDUE_RETRY, VERIFY_RETRY by Casement and SHADOW_SEARCH by 4 × Casement
+ bank. -/
structure Applied where
  skip : Bool := false
  limit : Nat := 0
  prio : Nat := 4
  residueRetry : Bool := true
  verifyRetry : Nat := 15
  shadow : Nat := 0
deriving DecidableEq, Repr

/-- A node of a running pipeline (R168 to R175). -/
structure NodeRun where
  home : Nat := 0
  /-- In its finish phase, or its input's end taken into account. -/
  finish : Bool := false
  /-- It has released its last strip. -/
  ended : Bool := false
  /-- The strips waiting on each input port, oldest first. -/
  queues : List (List Strip) := []
  /-- Matching mode, and the strips of each port in the matching store (R181). In matching mode `queues` holds strips that
  wait for the store to admit them (R184). -/
  matching : Bool := false
  store : List (List Strip) := []
  /-- A source's strips that wait to be dispatched: received ones, and ones a service event returned. -/
  rx : List Strip := []
  /-- Tags of strips that await re-dispatch (R186). -/
  replay : List Nat := []
  /-- Output strips by port that wait for room or for the matching store (R174, R184, R478), and the port and tag of those
  counted as held back (R184). -/
  hold : List (Nat × Strip) := []
  stalled : List (Nat × Nat) := []
  /-- The waits of R177 that have passed, and the lists risen since it became ready (R176). -/
  affinityOver : Bool := false
  crossOver : Bool := false
  aged : Nat := 0
  readyAt : Option Nat := none
  /-- Panes that ran it within AFFINITY_WAIT, most recent first. -/
  affinity : List Nat := []
  /-- Source counts it is splitting, with the next input and output index of each (R478). -/
  splits : Sparse (Nat × Nat) := []
  st : OpSt := .none
  /-- The strips of its finish phase still to go. -/
  out : List Strip := []
  /-- The dictionaries of its input's columns. -/
  dicts : List Nat := []
  /-- The 2 MiB chunks of each of its areas (R128, R163): chunk i of the pipeline region as i, chunk i of far memory as
  2^32 + i. -/
  areas : Sparse (List Nat) := []
  /-- A strip whose values are poisoned went into its state (R90). -/
  tainted : Bool := false
  /-- The strip-boundary values in effect. -/
  applied : Applied := {}
  /-- A LOOKUP that has still to switch to a swapped table searches the old copy under this internal number (R103). -/
  lvUse : Option Nat := none
deriving DecidableEq, Repr

/-- Where a dispatched strip stands: waiting for its Pane's lanes, granted them (R43), finished and staged on the Pane (R175),
or finished and held off the Pane, in the strip pool until its outputs can be numbered (R478) or in the state area of
a SORT_MERGE or HASH_AGG that finishes (R175). -/
inductive WPhase where
  | queued | running | pooled | staged
deriving DecidableEq, Repr

/-- A strip dispatched to a Pane: the node, the strip of each input port, and whether it is a step of the finish
phase. `again` marks a re-dispatched strip. -/
structure Work where
  ctx : Nat
  node : Nat
  pane : Nat
  ins : List Strip
  finish : Bool := false
  phase : WPhase := .queued
  again : Bool := false
  /-- A LOOKUP row whose winner fails verification, and whether the repeated search fails (R113). -/
  verify : Option (Nat × Bool) := none
  /-- A second residue mismatch at severity 2: its output values are poisoned (R90). -/
  poison : Bool := false
  /-- Its outputs are numbered and go to the successors: what its boundary will commit, which is the node's state, and the
  outputs it counts for its source count (R41, R478). -/
  made : Option (OpSt × Nat) := none
deriving DecidableEq, Repr

/-- A sealing in progress or kept for ATTEST (R328 to R333): the nonce, the digested message of each sink, blocks that
await digesting with their sink, whether the seal block is written, and the fields a DONE run keeps. -/
structure SealSt where
  nonce : Bytes := []
  msgs : Sparse Bytes := []
  waiting : List (Nat × Bytes) := []
  written : Bool := false
  kept : Bool := false
  digest : Bytes := []
  blocks : Nat := 0
  rows : Nat := 0
deriving DecidableEq, Repr

/-- A pipeline context (R46 to R55). State values are those of R46. -/
structure Ctx where
  state : Nat := 0
  /-- PARTIAL and STATUS of PCTX_STAT_n: those of the run that ended last (R53). -/
  partialRun : Bool := false
  status : Nat := 0
  prog : Prog := {}
  image : Bytes := []
  /-- Where the image lies in the pipeline region, counted from the region's first byte (R48). -/
  imageAt : Nat := 0
  /-- The PIPE_RUN or PIPE_RESUME in flight with its tag, and the other pipeline commands that wait for the context to
  leave its state. -/
  runCmd : Option Nat := none
  runTag : Nat := 0
  waiters : List Nat := []
  /-- The status that ends the run, once something has fixed it. -/
  ending : Option Nat := none
  /-- The snapshot (R54), and the Casements of R129, fixed when PIPE_RUN is accepted. -/
  panes : List Nat := []
  casements : List Nat := []
  epoch : Nat := 0
  members : List Nat := []
  drives : List (Nat × Nat × Nat) := []
  nodes : List NodeRun := []
  dicts : List (List Datum) := []
  stripsDone : Nat := 0
  rowsEmitted : Nat := 0
  /-- Blocks closed. -/
  blocks : Nat := 0
  /-- A block has been skipped (R71). -/
  skipped : Bool := false
  sealing : SealSt := {}
  /-- Bytes gathered in the parking segment, and the tables gathered with their entries (R445). -/
  parked : Nat := 0
  tables : List (Nat × LvTable × List LvEntry) := []
  /-- The directory record or gathered data no longer match their tags (R448). -/
  parkBad : Bool := false
deriving DecidableEq, Repr

/-- A Pane (R177, R178, R187): its resident nodes, most recently granted first, fenced, a self-test requested and not
yet begun, PANE_HOLD set by that request, the test under way, and an unfence under way. `failed`: the Pane has not rejoined
since a requested test failed. -/
structure Pane where
  resident : List (Nat × Nat) := []
  fenced : Bool := false
  testReq : Bool := false
  draining : Bool := false
  unfencing : Bool := false
  failed : Bool := false
  /-- The strip running on the Pane had a residue mismatch and is being rerun (R90). -/
  rerun : Bool := false
deriving DecidableEq, Repr

/-- A Casement's Latch: the context served last in its ready lists (R176), draining (R188), and FORCE_MATCH in effect. -/
structure Latch where
  last : Nat := 0
  draining : Bool := false
deriving DecidableEq, Repr

/-- All pipelines: contexts, strips on Panes in dispatch order, Panes, Latches and the count of readiness events. -/
structure Pipes where
  ctxs : Sparse Ctx := []
  works : List Work := []
  panes : Sparse Pane := []
  latches : Sparse Latch := []
  ticks : Nat := 0
deriving DecidableEq, Repr

end Sys2Proof.Machine
end

