-- ==== Sys2Proof/Machine/NetTypes.lean ====
section
/-!
DEFINITION. The plain data of Transom (15) and Sash (16).
-/

namespace Sys2Proof.Machine

/-! ### Transom -/

/-- A Transom frame: the header of R358 and its payload. -/
structure Frame where
  type : Nat
  cls : Nat
  flags : Nat := 0
  src : Nat
  dst : Nat
  epoch : Nat := 0
  flow : Nat := 0
  fseq : Nat := 0
  ack : Nat := 0
  tag : Nat := 0
  part : Nat := 0
  credits : Nat := 0
  frag : Nat := 0
  off : Nat := 0
  payload : Bytes := []
deriving DecidableEq, Repr

/-- How a frame travels (R352): port, VID and PCP of its tag, next-hop MAC, whether by IPv4, own and peer address, UDP ports and
checksum, DSCP and hop limit. -/
structure Carriage where
  port : Nat
  vid : Nat
  pcp : Nat
  mac : Nat
  ip4 : Bool
  srcAddr : Bytes
  dstAddr : Bytes
  srcPort : Nat
  dstPort : Nat
  sum : Nat
  dscp : Nat
  hop : Nat := 64
deriving DecidableEq, Repr

/-- A peer of the epoch in force (R354, R360, R361): its table entry as read at the commit, both streams, the frames
sent and not acknowledged, rounds of retransmission without one, lost, and whether an acknowledgement is owed, with the
flow of the frame it answers. -/
structure Peer where
  addr : Bytes := []
  mac : Nat := 0
  ports : Nat := 0
  vlan : Nat := 0
  txSeq : Nat := 0
  rxSeq : Nat := 0
  unacked : List Frame := []
  rounds : Nat := 0
  lost : Bool := false
  ackDue : Bool := false
  ackFlow : Nat := 0
deriving DecidableEq, Repr

/-- A strip being rebuilt from its fragments (R368): its fragments by offset, their index, and the index of the last. -/
structure RxStrip where
  tag : Nat
  frags : List (Nat × Nat × Bytes) := []
  last : Option Nat := none
deriving DecidableEq, Repr

/-- A sender of a SHUFFLE_IN: strips under way, the next TAG to emit, the count of its END, the credit units of strips emitted and
not released, by the count SHUFFLE_IN gave them, and units ready to return. -/
structure RxSender where
  node : Nat
  strips : List RxStrip := []
  next : Nat := 0
  count : Option Nat := none
  owed : Sparse Nat := []
  back : Nat := 0
deriving DecidableEq, Repr

/-- The SHUFFLE_IN of a running context. -/
structure RxFlow where
  flow : Nat
  ctx : Nat
  node : Nat
  senders : List RxSender := []
  emitted : Nat := 0
deriving DecidableEq, Repr

/-- A closed staging strip: its destination and number there, its partition, its bytes, and the fragments sent. -/
structure TxStrip where
  dst : Nat
  num : Nat
  part : Nat
  bytes : Bytes
  sent : Nat := 0
deriving DecidableEq, Repr

/-- The SHUFFLE_OUT of a running context: FLUSH_BYTES as it started, credit by destination, closed strips in order, strips closed for each
destination, whether its input has ended, and the destinations that have had their END. -/
structure TxFlow where
  flow : Nat
  ctx : Nat
  node : Nat
  flush : Nat := 0
  credit : Sparse Nat := []
  strips : List TxStrip := []
  counts : Sparse Nat := []
  inputOver : Bool := false
  ended : List Nat := []
deriving DecidableEq, Repr

/-- A PUT channel under way (R374): target, DST_REG, addresses, length, bytes sent, and offsets not acknowledged. -/
structure Put where
  busy : Bool := false
  node : Nat := 0
  reg : Bool := false
  src : Nat := 0
  dst : Nat := 0
  len : Nat := 0
  sent : Nat := 0
  open_ : List Nat := []
deriving DecidableEq, Repr

/-- Identity of a cancel (R371, R372). -/
structure CancelId where
  query : Bytes
  origin : Nat
  epoch : Nat
deriving DecidableEq, Repr

/-- CANCEL frames sent and still to be repeated: the identity, the destinations, how many times still. -/
structure CancelSent where
  id : CancelId
  dsts : List Nat
  left : Nat
deriving DecidableEq, Repr

/-- Transom: the epoch in force, its members ascending and their streams, link state, paused classes by port, frames held
by PFC or by a link that is down, flows, PUT channels, and cancels owed, remembered and to be repeated. -/
structure Net where
  epoch : Nat := 0
  members : List Nat := []
  peers : Sparse Peer := []
  links : Nat := 0
  paused : Sparse Nat := []
  txq : List Frame := []
  tx : List TxFlow := []
  rx : List RxFlow := []
  puts : Sparse Put := []
  cancels : List (CancelId × List Nat) := []
  remembered : List CancelId := []
  repeats : List CancelSent := []
deriving DecidableEq, Repr

/-! ### Sash and the dictionary -/

/-- A write under assembly (R388): transaction, object, total size, bytes so far. -/
structure Assembly where
  tid : Nat
  key : Nat
  total : Nat
  bytes : Bytes
deriving DecidableEq, Repr

/-- A Sash frame's header and body (R380). -/
structure SashMsg where
  type : Nat
  flags : Nat := 0
  dst : Nat := 0
  src : Nat := 0
  hops : Nat := 0
  tid : Nat := 0
  body : Bytes := []
deriving DecidableEq, Repr

/-- Who waits for the answer to an RWP write (R390, R394). -/
inductive Asker where
  | sash (response : SashMsg)
  | window
  | none
deriving DecidableEq, Repr

/-- An access accepted and not yet served (R390, R394, R397): a READ or WRITE with the address held at its acceptance, or
the window's access with its address, length and bytes as they stood then, kept back by a hand-off; or the whole value of an
object that persists, kept back by the persist under way. -/
inductive Request where
  | frame (addr : Nat) (msg : SashMsg)
  | window (write : Bool) (index sub len : Nat) (bytes : Bytes)
  | store (asker : Asker) (index sub : Nat) (value : Bytes)
deriving DecidableEq, Repr

/-- Sash: chain address, hops recorded, link state (bit 0 chain-in, bit 1 chain-out), whether the engine has yet to
report itself after a reset, the read snapshot (transaction, object, value), the write assembly, requests accepted and
held, and who waits for the persist under way. -/
structure Sash where
  addr : Nat := 0
  hops : Nat := 0
  links : Nat := 0
  fresh : Bool := true
  snap : Option (Nat × Nat × Bytes) := Option.none
  asm : Option Assembly := Option.none
  held : List Request := []
  persist : Option Asker := Option.none
deriving DecidableEq, Repr

/-! ### Life -/

/-- A copy of the persisted objects (R394). -/
structure Persisted where
  seq : Nat
  objs : Sparse Nat
deriving DecidableEq, Repr

/-- Firmware or microcode as it runs: FW_VERSION, SVN and BODY_DIGEST of its header (R325). -/
structure Running where
  version : Nat := 0
  svn : Nat := 0
  digest : Bytes := []
deriving DecidableEq, Repr

/-- Boot flash and fuses (R394, R439, R440, R456): images by slot, the certificate, the boot record's copies (SEQ,
PREFERRED), the persisted copies, fuse words and the fused seed; supplies, clock and pins (R461 to R468); what runs; the
slot running (2: recovered), and a hand-off under way (the image that hands over, its slot and TRIAL, and the new one). -/
structure Life where
  lintel : Sparse Bytes := []
  micro : Sparse Bytes := []
  cert : Bytes := []
  boot : List (Nat × Nat) := []
  persisted : List Persisted := []
  fuses : Sparse Nat := []
  /-- Fuse words as the boot ROM last read them: burned bits take effect at the next device reset (R456). -/
  fused : Sparse Nat := []
  /-- Objects whose apply point is the next reset, as taken at the last one (R393). -/
  active : Sparse Nat := []
  always : Bool := true
  supplies : Bool := true
  refclk : Bool := true
  perst : Bool := true
  pwrFail : Bool := false
  shelfDark : Bool := false
  parkOk : Bool := false
  /-- Parking under way, and parked (R444). -/
  parking : Bool := false
  parked : Bool := false
  idle : Bool := false
  thermtrip : Bool := false
  tripSeen : Bool := false
  running : Running := {}
  microcode : Sparse Running := []
  slot : Nat := 0
  handoff : Option (Running × Nat × Bool) := Option.none
  /-- The new Lintel image of a hand-off. -/
  incoming : Running := {}
  /-- The DIMM in slot k of channel c, at 2 × c + k (R218). -/
  dimms : List (Option Dimm) := []
  /-- Casements whose microcode staging software has overwritten (R457). -/
  staging : Nat := 0
  /-- Casements that have been in service throughout the measurement window under way (R26). -/
  wholeWindow : Nat := 0
deriving DecidableEq, Repr

/-! ### The test access port (R475) -/

/-- The states of an IEEE 1149.1 TAP controller. -/
inductive TapCtl where
  | testLogicReset | runTestIdle
  | selectDr | captureDr | shiftDr | exit1Dr | pauseDr | exit2Dr | updateDr
  | selectIr | captureIr | shiftIr | exit1Ir | pauseIr | exit2Ir | updateIr
deriving DecidableEq, Repr

/-- The port's instructions. -/
inductive TapIns where
  | bypass | samplePreload | extest | idcode | extestPulse | extestTrain
deriving DecidableEq, Repr

/-- The test access port: TRST_N as driven, the controller, the instruction, and the 32 bits that shift between TDI and TDO under
IDCODE, of which BYPASS uses the lowest. -/
structure Tap where
  trstN : Bool := false
  ctl : TapCtl := .testLogicReset
  ins : TapIns := .idcode
  shift : BitVec 32 := 0
deriving DecidableEq, Repr

end Sys2Proof.Machine
end

