-- ==== Sys2Proof/Machine/Device.lean ====
section
/-!
DEFINITION. The whole device as plain data, the command queue apart.
-/

namespace Sys2Proof.Machine

/-- What the device has put on its ports, in order: an interrupt message, an AER report (R430), a fabric frame by port
and priority class, a Sash frame by port, an NVMe command by slot, and the pins it drives (assumption log 8). -/
inductive Out where
  | msix (vector addr data : Nat)
  | aer (source : Nat)
  | frame (way : Carriage) (bytes : Bytes)
  | sash (chainOut : Bool) (bytes : Bytes)
  | nvmeRead (slot nsid lba lbas : Nat)
  | nvmeWrite (slot nsid lba lbas : Nat)
  | nvmeFlush (slot nsid : Nat)
  | nvmeReset (slot : Nat)
  | avs (millivolts : Nat)
  | thermtrip
deriving DecidableEq, Repr

/-- The device. Register fields and objects are kept under their table keys; a field that only reports structured
state is computed when it is read. -/
structure Dev where
  flds : Sparse Nat := []
  objs : Sparse Nat := []
  host : Sparse Byte := []
  /-- Ranges of host memory whose reads fail: first byte, length, and kind as HINGE_ERR_INFO.KIND codes it. -/
  hostBad : List (Nat × Nat × Nat) := []
  jamb : Jamb := {}
  mem : Mem := {}
  sill : Sparse SBank := []
  maint : List Maint := []
  thr : Thr := {}
  drives : Sparse Drive := []
  bifold : Bifold := {}
  dig : Dig := {}
  hinge : Hinge := {}
  pipes : Pipes := {}
  louvre : Louvre := {}
  net : Net := {}
  sash : Sash := {}
  life : Life := {}
  tap : Tap := {}
  ordering288 : Bool := false
  timeBase : Nat := 0
  halted : Bool := false
  /-- Reactions of severity 3 and above that the running command still owes: source, severity and syndrome. Empty
  between commands. -/
  reacts : List (Nat × Nat × Nat) := []
  out : List Out := []
  free : Nat := 0
deriving DecidableEq, Repr

end Sys2Proof.Machine
end

