-- ==== Sys2Proof/Machine/Ops.lean ====
section
/-!
DEFINITION. The named operations every chapter uses: register fields and objects, free values, host memory, engine
memory under the map of R215 to R217, interrupt messages, and the counting and capture of faults (R418 to R426).
-/

namespace Sys2Proof.Machine

/-! ### Fields, objects, free values -/

/-- What a register field holds. -/
def Dev.fget (d : Dev) (f : Fld) : Nat := Sparse.get f.reset d.flds f.key

/-- Store a register field, cut to its width. -/
def Dev.fput (d : Dev) (f : Fld) (v : Nat) : Dev :=
  { d with flds := Sparse.set f.reset d.flds f.key (v % 2 ^ f.width) }

/-- Store a one-bit field. -/
def Dev.fputB (d : Dev) (f : Fld) (b : Bool) : Dev := d.fput f (b2n b)

/-- Read a one-bit field. -/
def Dev.fgetB (d : Dev) (f : Fld) : Bool := d.fget f != 0

/-- Count n in a saturating counter field. -/
def Dev.fcount (d : Dev) (f : Fld) (n : Nat) : Dev := d.fput f (satAdd f.width (d.fget f) n)

/-- Set bits of a field. -/
def Dev.for_ (d : Dev) (f : Fld) (m : Nat) : Dev := d.fput f (d.fget f ||| m)

/-- Count n in a 64-bit counter kept as a LO and a HI field (R407). -/
def Dev.fcount64 (d : Dev) (lo hi : Fld) (n : Nat) : Dev :=
  let v := d.fget lo + d.fget hi * 2 ^ 32 + n
  (d.fput lo v).fput hi (v / 2 ^ 32)

/-- What an object holds. -/
def Dev.oget (d : Dev) (o : Obj) : Nat := Sparse.get o.dflt d.objs o.key

/-- Store an object's value, cut to its size. -/
def Dev.oput (d : Dev) (o : Obj) (v : Nat) : Dev :=
  { d with objs := Sparse.set o.dflt d.objs o.key (v % 2 ^ (8 * o.size)) }

/-- Count n in a counter object. -/
def Dev.ocount (d : Dev) (o : Obj) (n : Nat) : Dev := d.oput o (d.oget o + n)

/-- An object's value brought to the nearer limit of its range. -/
def Dev.oclamp (d : Dev) (o : Obj) (lo hi : Nat) : Nat := max lo (min hi (d.oget o))

/-- The next value the spec leaves open, and the device that has drawn it (assumption log 10). -/
def Dev.draw (d : Dev) : Nat × Dev :=
  ((Config.freeValue d.free).toNat, { d with free := d.free + 1 })

/-- Put something on a port. -/
def Dev.emit (d : Dev) (o : Out) : Dev := { d with out := d.out ++ [o] }

/-! ### Host memory -/

/-- Whether a host read of n bytes at a meets a range that fails (assumption log 3). -/
def Dev.hostFails (d : Dev) (a n : Nat) : Bool :=
  d.hostBad.any (fun r => decide (a < r.1 + r.2.1 ∧ r.1 < a + n))

/-- n bytes of host memory. -/
def Dev.hostBytes (d : Dev) (a n : Nat) : Bytes :=
  (List.range n).map (fun i => Sparse.get 0 d.host ((a + i) % 2 ^ 64))

/-- Pair each byte with its address. -/
def addressed (a : Nat) : Bytes → List (Nat × Byte)
  | [] => []
  | b :: bs => (a, b) :: addressed (a + 1) bs

/-- Write bytes to host memory. -/
def Dev.hostWrite (d : Dev) (a : Nat) (bs : Bytes) : Dev :=
  { d with host := Sparse.setAll 0 d.host ((addressed a bs).map (fun p => (p.1 % 2 ^ 64, p.2))) }

/-! ### The engine address map (R215 to R217) -/

/-- Capacity of one stack (R1). -/
def Dev.stackBytes (d : Dev) : Nat := (if d.ordering288 then 48 else 36) * Config.gib

/-- The parking segment size P. -/
def Dev.parkBytes (d : Dev) : Nat := d.mem.parkGiB * Config.gib

/-- The stacks in service, ascending. -/
def Dev.stackList (d : Dev) : List Nat := setBits d.mem.nearUp 6

/-- Bytes of the near interleaved region. -/
def Dev.interleaved (d : Dev) : Nat := d.stackList.length * (d.stackBytes - d.parkBytes)

/-- First address past the near interleaved region. -/
def Dev.nearEnd (d : Dev) : Nat := 6 * d.parkBytes + d.interleaved

/-- Far memory in service, the remap reserve included. -/
def Dev.farBytes (d : Dev) : Nat := d.mem.farCapacity / 8 * popCount d.mem.farUp 8

/-- First address of the remap reserve. -/
def Dev.reserveBase (d : Dev) : Nat := Config.farBase + d.farBytes - d.mem.reserve

/-- The local region an address lies in (R215). -/
def Dev.localOf (d : Dev) (a : Nat) : Option Nat :=
  if d.parkBytes = 0 then none
  else
    let k := a / d.parkBytes
    if k < 6 ∧ bitAt d.mem.nearUp k = true then some k else none

/-- Whether an engine address has memory behind it. -/
def Dev.implemented (d : Dev) (a : Nat) : Bool :=
  (d.localOf a).isSome
  || decide (6 * d.parkBytes ≤ a ∧ a < d.nearEnd)
  || decide (Config.farBase ≤ a ∧ a < Config.farBase + d.farBytes)

/-- Stack, pseudo-channel and offset in the pseudo-channel of a near address (R216). -/
def Dev.nearMap (d : Dev) (a : Nat) : Nat × Nat × Nat :=
  match d.localOf a with
  | some k =>
    let g := (a - k * d.parkBytes) / 256
    (k, g % 32, g / 32 * 256 + a % 256)
  | none =>
    let n := d.stackList.length
    let x := a - 6 * d.parkBytes
    let g := x / 256
    if n = 0 then (0, 0, 0)
    else
      let q := g / (32 * n)
      (d.stackList.getD (g % n) 0, Nat.xor (g / n % 32) (q % 32), d.parkBytes / 32 + q * 256 + x % 256)

/-- The far sub-channels in service, ascending (R217). -/
def Dev.farSubs (d : Dev) : List Nat :=
  (setBits d.mem.farUp 8).flatMap (fun c => [2 * c, 2 * c + 1])

/-- Sub-channel and granule within it of a far address (R217). -/
def Dev.farMap (d : Dev) (a : Nat) : Nat × Nat :=
  let g := (a - Config.farBase) / 256
  let m := d.farSubs.length
  if m = 0 then (0, 0) else (d.farSubs.getD (g % m) 0, g / m)

/-- The channel number of R229 that serves an address. -/
def Dev.chanOf (d : Dev) (a : Nat) : Nat :=
  if Config.farBase ≤ a then 96 + (d.farMap a).1 / 2
  else let m := d.nearMap a; m.1 * 16 + m.2.1 / 2

/-- The pseudo-channel (0 to 191) or sub-channel (192 to 207) that an address maps to, its bank and its row (R216, R217). A far
sub-channel has one bank per bank group, rank and bank. -/
def Dev.bankAt (d : Dev) (a : Nat) : Nat × Nat × Nat :=
  if Config.farBase ≤ a then
    let m := d.farMap a
    let banks := 32 * d.mem.farRanks
    (192 + m.1, m.2 % banks, m.2 / banks / (Config.farRowGranules + 1))
  else
    let m := d.nearMap a
    (m.1 * 32 + m.2.1, m.2.2 / 1024 % 48, m.2.2 / 1024 / 48)

/-- A channel's record. -/
def Dev.chan (d : Dev) (c : Nat) : Chan := Sparse.get {} d.mem.chans c

/-- Put a channel's record. -/
def Dev.setChan (d : Dev) (c : Nat) (x : Chan) : Dev :=
  { d with mem := { d.mem with chans := Sparse.set {} d.mem.chans c x } }

/-- Where an address's byte is kept: a remapped near channel's granules lie in the remap reserve (R234). -/
def Dev.physical (d : Dev) (a : Nat) : Nat :=
  if Config.farBase ≤ a then a
  else
    match (d.chan (d.chanOf a)).reserveAt with
    | some r =>
      if (d.chan (d.chanOf a)).state = 3 then
        let m := d.nearMap a
        d.reserveBase + r + m.2.1 % 2 * (d.stackBytes / 32) + m.2.2
      else a
    | none => a

/-- The bank that serves an address: of a remapped channel, one in far memory (R234). -/
def Dev.bankOf (d : Dev) (a : Nat) : Nat × Nat × Nat := d.bankAt (d.physical a)

/-- Whether the address belongs to an offline channel, or to one remapped into a channel that has gone offline (R234). -/
def Dev.offline (d : Dev) (a : Nat) : Bool :=
  (d.chan (d.chanOf a)).state == 4 || (d.chan (d.chanOf (d.physical a))).state == 4

/-- One byte of engine memory as memory holds it (R215: an unimplemented range reads zero). -/
def Dev.engByte (d : Dev) (a : Nat) : Byte :=
  if d.implemented a then Sparse.get 0 d.mem.cells (d.physical a) else 0

/-- n bytes of engine memory, as memory holds them (R201). -/
def Dev.engBytes (d : Dev) (a n : Nat) : Bytes := (List.range n).map (fun i => d.engByte (a + i))

/-- Whether reading the sector of an address returns poison (R231, R234). -/
def Dev.poisonedAt (d : Dev) (a : Nat) : Bool :=
  d.implemented a && (d.offline a || Sparse.get false d.mem.poison (d.physical a / 32))

/-- The sectors that n bytes at a touch, by the address of each one's first byte. -/
def sectorsOf (a n : Nat) : List Nat :=
  if n = 0 then [] else (List.range ((a + n - 1) / 32 - a / 32 + 1)).map (fun i => (a / 32 + i) * 32)

/-- Whether a read of n bytes at a meets poison. -/
def Dev.poisoned (d : Dev) (a n : Nat) : Bool := (sectorsOf a n).any d.poisonedAt

/-- Mark a sector poisoned. -/
def Dev.poison (d : Dev) (a : Nat) : Dev :=
  if d.implemented a then
    { d with mem := { d.mem with poison := Sparse.set false d.mem.poison (d.physical a / 32) true } }
  else d

/-- Sectors that a write of n bytes at a covers whole. -/
def coveredSectors (a n : Nat) : List Nat :=
  (sectorsOf a n).filter (fun s => decide (a ≤ s ∧ s + 32 ≤ a + n))

/-- Write bytes to memory: an unimplemented or offline address ignores them, and a sector covered whole loses its
poison (R215, R231, R234). Sill is not looked at. -/
def Dev.memWrite (d : Dev) (a : Nat) (bs : Bytes) : Dev :=
  let live := (addressed a bs).filter (fun p => d.implemented p.1 && !d.offline p.1)
  let clean := (coveredSectors a bs.length).filter (fun s => d.implemented s && !d.offline s)
  { d with mem := { d.mem with
      cells := Sparse.setAll 0 d.mem.cells (live.map (fun p => (d.physical p.1, p.2)))
      poison := Sparse.setAll false d.mem.poison (clean.map (fun s => (d.physical s / 32, false))) } }

/-- Write single bytes by address (dirty words of a line); a sector written whole loses its poison (R231). -/
def Dev.memWriteAt (d : Dev) (ps : List (Nat × Byte)) : Dev :=
  let live := ps.filter (fun p => d.implemented p.1 && !d.offline p.1)
  let clean := ((live.map (fun p => p.1 / 32 * 32)).eraseDups).filter (fun s =>
    (List.range 32).all (fun i => live.any (fun p => p.1 == s + i)))
  { d with mem := { d.mem with
      cells := Sparse.setAll 0 d.mem.cells (live.map (fun p => (d.physical p.1, p.2)))
      poison := Sparse.setAll false d.mem.poison (clean.map (fun s => (d.physical s / 32, false))) } }

/-- First engine address of the pipeline region, at the top of the near interleaved region (R64, R215). -/
def Dev.regionBase (d : Dev) : Nat := d.nearEnd - d.mem.region

/-- No controller has a request in its queues. -/
def Dev.memQuiet (d : Dev) : Bool := d.mem.banks.all (fun b => b.2.queue.isEmpty)

/-! ### Sill lines (R193, R200) -/

/-- The bank of a line number: the XOR of its 4-bit groups (R193). Twelve groups cover every engine address. -/
def sillBank (line : Nat) : Nat :=
  (List.range 12).foldl (fun b i => Nat.xor b (line / 16 ^ i % 16)) 0

/-- The set of a line number (R193). -/
def sillSet (line : Nat) : Nat := line / 16 % 1536

/-- The tag of a line number (R193). -/
def sillTag (line : Nat) : Nat := line / 16 / 1536

/-- The key of bank b of Casement c's Sill. -/
def bankKey (c b : Nat) : Nat := c * 16 + b

/-- A bank of a Sill. -/
def Dev.sbank (d : Dev) (c b : Nat) : SBank := Sparse.get {} d.sill (bankKey c b)

/-- Put a bank of a Sill. -/
def Dev.setSbank (d : Dev) (c b : Nat) (x : SBank) : Dev :=
  { d with sill := Sparse.set {} d.sill (bankKey c b) x }

/-- The ways of a set that hold the line. -/
def SSet.find (s : SSet) (line : Nat) : Option (Nat × SLine) :=
  s.ways.findSome? (fun p => match p.2 with
    | some l => if l.line = line then some (p.1, l) else none
    | none => none)

/-- The dirty bytes of a line, by engine address. -/
def SLine.dirtyBytes (l : SLine) : List (Nat × Byte) :=
  (addressed (l.line * 128) l.data).filter (fun p => bitAt l.dirty (p.1 % 128 / 8))

/-- Write a line's dirty words to memory with the poison of its sectors (R196, R211). -/
def Dev.writeLine (d : Dev) (l : SLine) : Dev :=
  (setBits l.poison 4).foldl (fun d i => d.poison (l.line * 128 + i * 32)) (d.memWriteAt l.dirtyBytes)

/-- The line leaves its set. -/
def SSet.drop (s : SSet) (line : Nat) : SSet :=
  match s.find line with
  | some (w, _) => { s with ways := Sparse.erase s.ways w }
  | none => s

/-- One Sill answers an outside write to a line: dirty words go to memory first, every copy is dropped, and a fill in
flight is held as by an INVALIDATE (R200, R207). -/
def Dev.sillSnoop (d : Dev) (c line : Nat) : Dev :=
  let b := sillBank line
  let k := d.sbank c b
  let st := Sparse.get {} k.sets (sillSet line)
  let d := match st.find line with
    | some (_, l) => if l.dirty = 0 then d else d.writeLine l
    | none => d
  let d := match k.wbuf.find? (fun w => w.line.line = line) with
    | some w => if w.queued then d else d.writeLine w.line
    | none => d
  d.setSbank c b { k with
    sets := Sparse.set {} k.sets (sillSet line) (st.drop line)
    victims := k.victims.filter (fun l => l.line ≠ line)
    wbuf := k.wbuf.filter (fun w => w.line.line ≠ line)
    mrs := k.mrs.map (fun m => if m.line = line then { m with held := m.held ++ [.drop none] } else m) }

/-- Whether a Sill holds anything of a line, as the presence filter of R200 records it. -/
def Dev.sillHolds (d : Dev) (c line : Nat) : Bool :=
  let k := d.sbank c (sillBank line)
  ((Sparse.get {} k.sets (sillSet line)).find line).isSome
  || k.victims.any (fun l => l.line = line)
  || k.wbuf.any (fun w => w.line.line = line)
  || k.mrs.any (fun m => m.line = line)

/-- The lines that n bytes at a touch. -/
def linesOf (a n : Nat) : List Nat :=
  if n = 0 then [] else (List.range ((a + n - 1) / 128 - a / 128 + 1)).map (fun i => a / 128 + i)

/-- Every Sill that may hold one of the lines is told of the write (R200). -/
def Dev.snoopAll (d : Dev) (lines : List Nat) : Dev :=
  lines.foldl (fun d l => [0, 1, 2, 3].foldl (fun d c => if d.sillHolds c l then d.sillSnoop c l else d) d) d

/-- Casement c's Sill writes dirty words of a line: the other Sills that may hold the line are told first (R200). -/
def Dev.writeOut (d : Dev) (c : Nat) (l : SLine) : Dev :=
  ([0, 1, 2, 3].foldl (fun d k => if k ≠ c ∧ d.sillHolds k l.line = true then d.sillSnoop k l.line else d) d).writeLine l

/-- A write-back of Casement c's Sill that R214 counts: from eviction, a boundary commit or maintenance. -/
def Dev.writeBack (d : Dev) (c : Nat) (l : SLine) : Dev := (d.writeOut c l).ocount O.SILL_WRITEBACKS 1

/-- Another Sill holds words of a line dirty, so that their write-back invalidates Casement c's copy (R200). -/
def Dev.otherDirty (d : Dev) (c line : Nat) : Bool :=
  [0, 1, 2, 3].any (fun k => k != c && (
    let b := d.sbank k (sillBank line)
    (((Sparse.get {} b.sets (sillSet line)).find line).any (fun p => p.2.dirty != 0))
    || b.wbuf.any (fun w => w.line.line == line && !w.queued)))

/-- A write that meets the parking segment may break the tags of parked contexts: where each lies in it is open (R445,
R448). -/
def Dev.parkTouch (d : Dev) (a n : Nat) : Dev :=
  if n ≠ 0 ∧ a < d.parkBytes ∧ bitAt d.mem.nearUp 0 = true ∧ d.pipes.ctxs.any (fun q => q.2.state == 5) = true then
    let v := d.draw
    { v.2 with pipes := { d.pipes with ctxs := d.pipes.ctxs.map (fun (q : Nat × Ctx) =>
        if q.2.state = 5 then (q.1, { q.2 with parkBad := q.2.parkBad || bitAt v.1 (q.1 % 64) }) else q) } }
  else d

/-- A write to engine memory from outside the Casements (R200). -/
def Dev.engWrite (d : Dev) (a : Nat) (bs : Bytes) : Dev :=
  ((d.snoopAll (linesOf a bs.length)).memWrite a bs).parkTouch a bs.length

/-- Read n bytes from host or engine memory; a failure is the status that the reader reports (R264). -/
def Dev.readSpace (d : Dev) (eng : Bool) (a n : Nat) : Except Nat Bytes :=
  if eng then (if d.poisoned a n then .error 0x0703 else .ok (d.engBytes a n))
  else if d.hostFails a n then .error 0x0702 else .ok (d.hostBytes a n)

/-- Write bytes to host or engine memory. -/
def Dev.writeSpace (d : Dev) (eng : Bool) (a : Nat) (bs : Bytes) : Dev :=
  if eng then d.engWrite a bs else d.hostWrite a bs

/-! ### Interrupt messages (R238, R261) -/

/-- Raise an MSI-X vector: the message goes out, or the pending bit is set while the vector is masked. 0xFFFF selects
none. -/
def Dev.raiseVector (d : Dev) (v : Nat) : Dev :=
  if v < 2048 then
    let m := Sparse.get {} d.jamb.msix v
    if m.masked then
      { d with jamb := { d.jamb with msix := Sparse.set {} d.jamb.msix v { m with pending := true } } }
    else d.emit (.msix v m.addr m.data)
  else d

/-! ### Faults: counting and capture (R418 to R426) -/

/-- The severity in effect for a source: 6 and 7 are taken as 5 (R418). -/
def Dev.severity (d : Dev) (n : Nat) : Nat := min 5 (d.fget (F.FC_SRC_SEV n))

/-- The collector a source reports to (R421). -/
def collectorOf (n : Nat) : Nat :=
  if n < 384 then n / 4
  else if n < 448 then 96 + (n - 384) / 16
  else if n ≤ 454 then 100
  else if n ≤ 458 ∨ n = 462 ∨ n = 463 then 101
  else if n ≤ 465 then 102
  else if n ≤ 468 ∨ n = 476 then 103
  else 104

/-- Whether a source poisons data at severity 2 (R420). -/
def poisonsAt2 (n : Nat) : Bool :=
  if n < 384 then n % 4 == 0 || n % 4 == 2
  else if n < 448 then (n - 384) % 16 == 1
  else n == 449 || n == 452 || n == 457

/-- Whether the source table names a unit that severity 3 fences (R420). -/
def hasUnit (n : Nat) : Bool :=
  if n < 384 then true
  else if n < 448 then [4, 5, 6, 9].contains ((n - 384) % 16)
  else [449, 450, 452, 453].contains n

/-- The action a severity comes to on a source (R419). -/
def effectiveSeverity (n sev : Nat) : Nat :=
  if sev = 4 ∧ n ≥ 448 then (if hasUnit n then 3 else if poisonsAt2 n then 2 else 1)
  else if sev = 3 ∧ hasUnit n = false then (if poisonsAt2 n then 2 else 1)
  else if sev = 2 ∧ poisonsAt2 n = false then 1
  else sev

/-- Count a raising and set its sticky bit (R422). -/
def Dev.faultCount (d : Dev) (n : Nat) : Dev :=
  (d.fcount (F.FC_SRC_COUNT n) 1).for_ (F.FC_STICKY_BITS (n / 32)) (2 ^ (n % 32))

/-- Capture a first error in its collector's record, or merge into the record held (R423, R424); the severity that
applies comes with it. -/
def Dev.faultCapture (d : Dev) (n sev syndrome : Nat) (injected : Bool) : Dev × Nat :=
  let i := collectorOf n
  if d.fgetB (F.FC_REC_STAT_VALID i) then
    let d := (d.fputB (F.FC_REC_STAT_OVERFLOW i) true).ocount O.OVERFLOWS 1
    let d := d.fputB (F.FC_REC_STAT_INJ i) (d.fgetB (F.FC_REC_STAT_INJ i) || injected)
    (d, max sev (d.fget (F.FC_REC_STAT_SEV i)))
  else
    let d := d.fput (F.FC_REC_STAT_SOURCE i) n
    let d := d.fput (F.FC_REC_STAT_SEV i) sev
    let d := d.fputB (F.FC_REC_STAT_INJ i) injected
    let d := d.fputB (F.FC_REC_STAT_OVERFLOW i) false
    let d := d.fputB (F.FC_REC_STAT_VALID i) true
    let d := [0, 1, 2, 3].foldl (fun d j => d.fput (F.FC_REC_SYN_SYN i j) (syndrome / 2 ^ (32 * j))) d
    let d := d.fput (F.FC_REC_TIME_LO_TIME i) d.timeBase
    let d := d.fput (F.FC_REC_TIME_HI_TIME i) (d.timeBase / 2 ^ 32)
    (d.ocount O.FAULTS_CAPTURED 1, sev)

/-- The fault interrupt (R426). -/
def Dev.faultIrq (d : Dev) : Dev := d.raiseVector (d.oget O.FAULT_VECTOR)

end Sys2Proof.Machine
end

