-- ==== Sys2Proof/Machine/Chain.lean ====
section
/-!
DEFINITION. Sash frames and how they are sent (R378 to R382), and the fused identity that they carry (R377, R398, R456).
-/

namespace Sys2Proof.Machine

/-! ### Fused identity -/

/-- The low n bytes of fuse words from w on, as the boot ROM last read them (R456). -/
def Dev.fuseBytes (d : Dev) (w n : Nat) : Bytes :=
  ((List.range (ceilDiv n 4)).flatMap (fun i => leBytes 4 (Sparse.get 0 d.life.fused (w + i)))).take n

/-- The MAC address of fabric port i: the fused base, the last octet raised by i (assumption log 70). -/
def Dev.mac (d : Dev) (i : Nat) : Bytes :=
  let b := d.fuseBytes 69 6
  b.take 5 ++ leBytes 1 ((b.getD 5 0).toNat + i)

/-- SASH_MAC: MAC_0 with bit 1 of its first octet set (R398). -/
def Dev.sashMac (d : Dev) : Bytes :=
  match d.mac 0 with
  | b :: bs => (b ||| 2) :: bs
  | [] => []

/-! ### Frames (R379, R380) -/

/-- The Sash payload: header, body and zeros up to the Ethernet minimum. -/
def SashMsg.payload (m : SashMsg) : Bytes :=
  let b := leBytes 1 1 ++ leBytes 1 m.type ++ leBytes 2 m.flags ++ leBytes 2 m.dst ++ leBytes 2 m.src ++ leBytes 2 m.hops
    ++ leBytes 2 m.tid ++ leBytes 2 m.body.length ++ zeros 2 ++ m.body
  b ++ zeros (46 - b.length)

/-- A whole Ethernet frame, its check sequence apart. -/
def etherFrame (dst src payload : Bytes) : Bytes := dst ++ src ++ beBytes 2 0x88B5 ++ payload

/-- The destination address of every frame the engine sends. -/
def sashGroup : Bytes := beBytes 6 0x034B42534800

/-- Send a frame on chain-in or chain-out; it is discarded while that link is down (R382). -/
def Dev.sashPut (d : Dev) (out : Bool) (bytes : Bytes) : Dev :=
  if bitAt d.sash.links (b2n out) then d.emit (.sash out bytes) else d

/-- Send a frame of the engine's own. -/
def Dev.sashSend (d : Dev) (out : Bool) (m : SashMsg) : Dev :=
  if bitAt d.sash.links (b2n out) then
    (d.sashPut out (etherFrame sashGroup d.sashMac m.payload)).ocount O.SASH_FRAMES_TX 1
  else d

/-- A broadcast CANCEL of the engine's own, on both ports (R381, R396). -/
def Dev.sashCancel (d : Dev) (payload : Bytes) : Dev :=
  let m : SashMsg := { type := 0x20, dst := 0xFFF, src := d.sash.addr, body := payload }
  (d.sashSend true m).sashSend false { m with flags := 1 }

/-- A NOTIFY, sent upstream unless NOTIFY_EN is cleared (R385). -/
def Dev.notify (d : Dev) (event : Nat) : Dev :=
  if d.oget O.NOTIFY_EN = 0 then d
  else d.sashSend false
    { type := 0xA0, flags := 1, src := d.sash.addr, body := leBytes 1 event ++ zeros 1 ++ leBytes 2 d.sash.addr }

/-- An engine without an address reports itself once after a reset, when chain-in is up (R385, R397). -/
def Dev.reportSelf (d : Dev) : Dev :=
  if d.sash.fresh = true ∧ bitAt d.sash.links 0 = true ∧ d.sash.addr = 0 then
    ({ d with sash := { d.sash with fresh := false } } : Dev).notify 3
  else d

end Sys2Proof.Machine
end

