-- ==== Sys2Proof/Machine/Sha.lean ====
section
/-!
DEFINITION. The secure hash functions of R311 and R312 (FIPS 180-4: SHA-256, SHA-384, SHA-512, SHA-512/256) and HMAC
(FIPS 198-1). Algorithms are numbered as DG_CTL_k.ALG: 0 SHA-384, 1 SHA-256, 2 SHA-512, 3 SHA-512/256.
-/

namespace Sys2Proof.Machine

/-- The 32-bit words a SHA-256 round uses. -/
def sha256K : List (BitVec 32) :=
  [0x428A2F98, 0x71374491, 0xB5C0FBCF, 0xE9B5DBA5, 0x3956C25B, 0x59F111F1, 0x923F82A4, 0xAB1C5ED5,
   0xD807AA98, 0x12835B01, 0x243185BE, 0x550C7DC3, 0x72BE5D74, 0x80DEB1FE, 0x9BDC06A7, 0xC19BF174,
   0xE49B69C1, 0xEFBE4786, 0x0FC19DC6, 0x240CA1CC, 0x2DE92C6F, 0x4A7484AA, 0x5CB0A9DC, 0x76F988DA,
   0x983E5152, 0xA831C66D, 0xB00327C8, 0xBF597FC7, 0xC6E00BF3, 0xD5A79147, 0x06CA6351, 0x14292967,
   0x27B70A85, 0x2E1B2138, 0x4D2C6DFC, 0x53380D13, 0x650A7354, 0x766A0ABB, 0x81C2C92E, 0x92722C85,
   0xA2BFE8A1, 0xA81A664B, 0xC24B8B70, 0xC76C51A3, 0xD192E819, 0xD6990624, 0xF40E3585, 0x106AA070,
   0x19A4C116, 0x1E376C08, 0x2748774C, 0x34B0BCB5, 0x391C0CB3, 0x4ED8AA4A, 0x5B9CCA4F, 0x682E6FF3,
   0x748F82EE, 0x78A5636F, 0x84C87814, 0x8CC70208, 0x90BEFFFA, 0xA4506CEB, 0xBEF9A3F7, 0xC67178F2]

/-- The 64-bit words a SHA-512 round uses, first half. -/
def sha512KA : List (BitVec 64) :=
  [0x428A2F98D728AE22, 0x7137449123EF65CD, 0xB5C0FBCFEC4D3B2F, 0xE9B5DBA58189DBBC,
   0x3956C25BF348B538, 0x59F111F1B605D019, 0x923F82A4AF194F9B, 0xAB1C5ED5DA6D8118,
   0xD807AA98A3030242, 0x12835B0145706FBE, 0x243185BE4EE4B28C, 0x550C7DC3D5FFB4E2,
   0x72BE5D74F27B896F, 0x80DEB1FE3B1696B1, 0x9BDC06A725C71235, 0xC19BF174CF692694,
   0xE49B69C19EF14AD2, 0xEFBE4786384F25E3, 0x0FC19DC68B8CD5B5, 0x240CA1CC77AC9C65,
   0x2DE92C6F592B0275, 0x4A7484AA6EA6E483, 0x5CB0A9DCBD41FBD4, 0x76F988DA831153B5,
   0x983E5152EE66DFAB, 0xA831C66D2DB43210, 0xB00327C898FB213F, 0xBF597FC7BEEF0EE4,
   0xC6E00BF33DA88FC2, 0xD5A79147930AA725, 0x06CA6351E003826F, 0x142929670A0E6E70,
   0x27B70A8546D22FFC, 0x2E1B21385C26C926, 0x4D2C6DFC5AC42AED, 0x53380D139D95B3DF,
   0x650A73548BAF63DE, 0x766A0ABB3C77B2A8, 0x81C2C92E47EDAEE6, 0x92722C851482353B]

/-- The 64-bit words a SHA-512 round uses, second half. -/
def sha512KB : List (BitVec 64) :=
  [0xA2BFE8A14CF10364, 0xA81A664BBC423001, 0xC24B8B70D0F89791, 0xC76C51A30654BE30,
   0xD192E819D6EF5218, 0xD69906245565A910, 0xF40E35855771202A, 0x106AA07032BBD1B8,
   0x19A4C116B8D2D0C8, 0x1E376C085141AB53, 0x2748774CDF8EEB99, 0x34B0BCB5E19B48A8,
   0x391C0CB3C5C95A63, 0x4ED8AA4AE3418ACB, 0x5B9CCA4F7763E373, 0x682E6FF3D6B2B8A3,
   0x748F82EE5DEFB2FC, 0x78A5636F43172F60, 0x84C87814A1F0AB72, 0x8CC702081A6439EC,
   0x90BEFFFA23631E28, 0xA4506CEBDE82BDE9, 0xBEF9A3F7B2C67915, 0xC67178F2E372532B,
   0xCA273ECEEA26619C, 0xD186B8C721C0C207, 0xEADA7DD6CDE0EB1E, 0xF57D4F7FEE6ED178,
   0x06F067AA72176FBA, 0x0A637DC5A2C898A6, 0x113F9804BEF90DAE, 0x1B710B35131C471B,
   0x28DB77F523047D84, 0x32CAAB7B40C72493, 0x3C9EBE0A15C9BEBC, 0x431D67C49C100D4C,
   0x4CC5D4BECB3E42B6, 0x597F299CFC657E2A, 0x5FCB6FAB3AD6FAEC, 0x6C44198C4A475817]

/-- Initial hash value of SHA-256. -/
def sha256Init : List (BitVec 32) :=
  [0x6A09E667, 0xBB67AE85, 0x3C6EF372, 0xA54FF53A,
   0x510E527F, 0x9B05688C, 0x1F83D9AB, 0x5BE0CD19]

/-- Initial hash value of SHA-384. -/
def sha384Init : List (BitVec 64) :=
  [0xCBBB9D5DC1059ED8, 0x629A292A367CD507, 0x9159015A3070DD17, 0x152FECD8F70E5939,
   0x67332667FFC00B31, 0x8EB44A8768581511, 0xDB0C2E0D64F98FA7, 0x47B5481DBEFA4FA4]

/-- Initial hash value of SHA-512. -/
def sha512Init : List (BitVec 64) :=
  [0x6A09E667F3BCC908, 0xBB67AE8584CAA73B, 0x3C6EF372FE94F82B, 0xA54FF53A5F1D36F1,
   0x510E527FADE682D1, 0x9B05688C2B3E6C1F, 0x1F83D9ABFB41BD6B, 0x5BE0CD19137E2179]

/-- Initial hash value of SHA-512/256. -/
def sha512t256Init : List (BitVec 64) :=
  [0x22312194FC2BF72C, 0x9F555FA3C84C64C2, 0x2393B86B6F53B151, 0x963877195940EABD,
   0x96283EE2A88EFFE3, 0xBE5E1E2553863992, 0x2B0199FC2C85B8AA, 0x0EB72DDC81C52CA2]

/-- The rotation and shift amounts of one word size: the two message functions (rotate, rotate, shift), then the two
state functions (rotate three times). -/
structure ShaAmounts where
  m0 : Nat × Nat × Nat
  m1 : Nat × Nat × Nat
  s0 : Nat × Nat × Nat
  s1 : Nat × Nat × Nat
deriving DecidableEq, Repr

/-- The amounts of SHA-256. -/
def sha256Amounts : ShaAmounts := ⟨(7, 18, 3), (17, 19, 10), (2, 13, 22), (6, 11, 25)⟩

/-- The amounts of SHA-512 and its truncations. -/
def sha512Amounts : ShaAmounts := ⟨(1, 8, 7), (19, 61, 6), (28, 34, 39), (14, 18, 41)⟩

/-- A message-schedule function: rotate, rotate, shift, combined. -/
def shaSmall {w : Nat} (a : Nat × Nat × Nat) (x : BitVec w) : BitVec w :=
  x.rotateRight a.1 ^^^ x.rotateRight a.2.1 ^^^ (x >>> a.2.2)

/-- A state function: three rotations combined. -/
def shaBig {w : Nat} (a : Nat × Nat × Nat) (x : BitVec w) : BitVec w :=
  x.rotateRight a.1 ^^^ x.rotateRight a.2.1 ^^^ x.rotateRight a.2.2

/-- Lengthen the message schedule by n words; the last word stands first. -/
def shaSchedule {w : Nat} (am : ShaAmounts) : Nat → List (BitVec w) → List (BitVec w)
  | 0, ws => ws
  | n + 1, ws =>
    let x := shaSmall am.m1 (ws.getD 1 0) + ws.getD 6 0 + shaSmall am.m0 (ws.getD 14 0) + ws.getD 15 0
    shaSchedule am n (x :: ws)

/-- The eight working words. -/
structure ShaState (w : Nat) where
  a : BitVec w
  b : BitVec w
  c : BitVec w
  d : BitVec w
  e : BitVec w
  f : BitVec w
  g : BitVec w
  h : BitVec w
deriving DecidableEq, Repr

/-- One round. -/
def shaRound {w : Nat} (am : ShaAmounts) (s : ShaState w) (k x : BitVec w) : ShaState w :=
  let t1 := s.h + shaBig am.s1 s.e + ((s.e &&& s.f) ^^^ (~~~s.e &&& s.g)) + k + x
  let t2 := shaBig am.s0 s.a + ((s.a &&& s.b) ^^^ (s.a &&& s.c) ^^^ (s.b &&& s.c))
  ⟨t1 + t2, s.a, s.b, s.c, s.d + t1, s.e, s.f, s.g⟩

/-- All rounds, one key word and one schedule word each. -/
def shaRounds {w : Nat} (am : ShaAmounts) (s : ShaState w) : List (BitVec w) → List (BitVec w) → ShaState w
  | k :: ks, x :: xs => shaRounds am (shaRound am s k x) ks xs
  | _, _ => s

/-- The working words of a hash value, and back. -/
def shaLoad {w : Nat} (h : List (BitVec w)) : ShaState w :=
  ⟨h.getD 0 0, h.getD 1 0, h.getD 2 0, h.getD 3 0, h.getD 4 0, h.getD 5 0, h.getD 6 0, h.getD 7 0⟩

/-- The words of a state as a list. -/
def ShaState.words {w : Nat} (s : ShaState w) : List (BitVec w) := [s.a, s.b, s.c, s.d, s.e, s.f, s.g, s.h]

/-- The n big-endian words of a block. -/
def shaWords (w : Nat) : Nat → Bytes → List (BitVec w)
  | 0, _ => []
  | n + 1, b => BitVec.ofNat w (beNat (b.take (w / 8))) :: shaWords w n (b.drop (w / 8))

/-- Fold one block into a hash value. -/
def shaBlock {w : Nat} (am : ShaAmounts) (ks : List (BitVec w)) (h : List (BitVec w)) (b : Bytes) : List (BitVec w) :=
  let ws := (shaSchedule am (ks.length - 16) (shaWords w 16 b).reverse).reverse
  List.zipWith (fun x y => x + y) h (shaRounds am (shaLoad h) ks ws).words

/-- Fold n blocks into a hash value. -/
def shaBlocks {w : Nat} (am : ShaAmounts) (ks : List (BitVec w)) : Nat → List (BitVec w) → Bytes → List (BitVec w)
  | 0, h, _ => h
  | n + 1, h, b => shaBlocks am ks n (shaBlock am ks h (b.take (2 * w))) (b.drop (2 * w))

/-- The padded message for a block of B bytes with a length field of L bytes. -/
def shaPad (blk lenBytes : Nat) (m : Bytes) : Bytes :=
  let fill := (2 * blk - (m.length + 1 + lenBytes) % blk) % blk
  m ++ [0x80] ++ zeros fill ++ beBytes lenBytes (8 * m.length)

/-- A whole SHA over 32-bit or 64-bit words, cut to n bytes. -/
def shaWhole {w : Nat} (am : ShaAmounts) (ks init : List (BitVec w)) (n : Nat) (m : Bytes) : Bytes :=
  let p := shaPad (2 * w) (w / 4) m
  ((shaBlocks am ks (p.length / (2 * w)) init p).flatMap (fun x => beBytes (w / 8) x.toNat)).take n

/-- The round words of SHA-512. -/
def sha512K : List (BitVec 64) := sha512KA ++ sha512KB

/-- SHA-256. -/
def sha256 (m : Bytes) : Bytes := shaWhole sha256Amounts sha256K sha256Init 32 m
/-- SHA-384. -/
def sha384 (m : Bytes) : Bytes := shaWhole sha512Amounts sha512K sha384Init 48 m
/-- SHA-512. -/
def sha512 (m : Bytes) : Bytes := shaWhole sha512Amounts sha512K sha512Init 64 m
/-- SHA-512/256. -/
def sha512t256 (m : Bytes) : Bytes := shaWhole sha512Amounts sha512K sha512t256Init 32 m

/-- Block length in bytes of an algorithm (R313). -/
def algBlock (alg : Nat) : Nat := if alg = 1 then 64 else 128

/-- Digest length in bytes of an algorithm (R314). -/
def algLen (alg : Nat) : Nat := [48, 32, 64, 32].getD alg 48

/-- The digest of a message. -/
def digestOf (alg : Nat) (m : Bytes) : Bytes :=
  match alg with
  | 1 => sha256 m
  | 2 => sha512 m
  | 3 => sha512t256 m
  | _ => sha384 m

/-- HMAC (R320): a key longer than a block is hashed first. -/
def hmacOf (alg : Nat) (key m : Bytes) : Bytes :=
  let k := fit (algBlock alg) (if algBlock alg < key.length then digestOf alg key else key)
  digestOf alg (k.map (fun b => b ^^^ 0x5C) ++ digestOf alg (k.map (fun b => b ^^^ 0x36) ++ m))

end Sys2Proof.Machine
end

