-- ==== Sys2Proof/Machine/Ecdsa.lean ====
section
/-!
DEFINITION. ECDSA over P-384 with SHA-384 (R324, R326, R329): FIPS 186-5 verification and signing, the nonce derived
under RFC 6979. Field elements are numbers below the prime; points are Jacobian triples, z = 0 at infinity.
-/

namespace Sys2Proof.Machine

/-- The field prime of P-384. -/
def p384 : Nat := 2 ^ 384 - 2 ^ 128 - 2 ^ 96 + 2 ^ 32 - 1

/-- The order of P-384. -/
def n384 : Nat :=
  0xFFFFFFFFFFFFFFFFFFFFFFFFFFFFFFFFFFFFFFFFFFFFFFFFC7634D81F4372DDF581A0DB248B0A77AECEC196ACCC52973

/-- The coefficient b of P-384. -/
def b384 : Nat :=
  0xB3312FA7E23EE7E4988E056BE3F82D19181D9C6EFE8141120314088F5013875AC656398D8A2ED19D2A85C8EDD3EC2AEF

/-- A point: (x, y, z) stands for (x/z², y/z³). -/
structure Pt where
  x : Nat
  y : Nat
  z : Nat
deriving DecidableEq, Repr

/-- The base point G. -/
def g384 : Pt :=
  ⟨0xAA87CA22BE8B05378EB1C71EF320AD746E1D3B628BA79B9859F741E082542A385502F25DBF55296C3A545E3872760AB7,
   0x3617DE4A96262C6F5D9E98BF9292DC29F8F41DBD289A147CE9DA3113B5F0B8C00A60B1CE1D7E819D7A431D7C90EA0E5F, 1⟩

/-- The point at infinity. -/
def ptInf : Pt := ⟨1, 1, 0⟩

/-- Difference in the field of m elements. -/
def subMod (m a b : Nat) : Nat := (a + (m - b % m)) % m

/-- a to a power modulo m, the exponent given by its low k bits, most significant first. -/
def powMod (m a e : Nat) : Nat → Nat
  | 0 => 1 % m
  | k + 1 =>
    let r := powMod m a (e / 2) k
    let s := r * r % m
    if e % 2 = 1 then s * a % m else s

/-- The inverse modulo a prime below 2^384. -/
def invMod (m a : Nat) : Nat := powMod m a (m - 2) 384

/-- Twice a point. -/
def ptDouble (q : Pt) : Pt :=
  if q.z = 0 then ptInf
  else
    let p := p384
    let yy := q.y * q.y % p
    let s := 4 * q.x * yy % p
    let zz := q.z * q.z % p
    let m := 3 * subMod p q.x zz * (q.x + zz) % p
    let x := subMod p (m * m) (2 * s)
    ⟨x, subMod p (m * subMod p s x) (8 * yy * yy), 2 * q.y * q.z % p⟩

/-- The sum of two points. -/
def ptAdd (q r : Pt) : Pt :=
  if q.z = 0 then r
  else if r.z = 0 then q
  else
    let p := p384
    let zq := q.z * q.z % p
    let zr := r.z * r.z % p
    let u := q.x * zr % p
    let v := r.x * zq % p
    let s := q.y * zr * r.z % p
    let t := r.y * zq * q.z % p
    if u = v then (if s = t then ptDouble q else ptInf)
    else
      let h := subMod p v u
      let w := subMod p t s
      let hh := h * h % p
      let hhh := hh * h % p
      let uh := u * hh % p
      let x := subMod p (w * w) (hhh + 2 * uh)
      ⟨x, subMod p (w * subMod p uh x) (s * hhh), q.z * r.z % p * h % p⟩

/-- k times a point, k given by its low n bits. -/
def ptMul (q : Pt) (k : Nat) : Nat → Pt
  | 0 => ptInf
  | n + 1 =>
    let r := ptDouble (ptMul q (k / 2) n)
    if k % 2 = 1 then ptAdd r q else r

/-- The affine coordinates of a point that is not infinity. -/
def ptAffine (q : Pt) : Nat × Nat :=
  let i := invMod p384 q.z
  let ii := i * i % p384
  (q.x * ii % p384, q.y * (ii * i % p384) % p384)

/-- X‖Y, each 48 bytes big-endian, of d·G. -/
def publicKey (d : Nat) : Bytes :=
  let a := ptAffine (ptMul g384 d 384)
  beBytes 48 a.1 ++ beBytes 48 a.2

/-- Whether X‖Y names a point of the curve. -/
def onCurve (key : Bytes) : Bool :=
  let x := beNat (key.take 48)
  let y := beNat (key.drop 48)
  decide (x < p384) && decide (y < p384)
  && decide (y * y % p384 = (x * x * x + (p384 - 3) * x + b384) % p384)

/-- Verify r‖s over a 48-byte digest with the key X‖Y (FIPS 186-5). -/
def ecdsaVerify (key digest sig : Bytes) : Bool :=
  let r := beNat (sig.take 48)
  let s := beNat (sig.drop 48)
  let e := beNat digest
  if r = 0 ∨ n384 ≤ r ∨ s = 0 ∨ n384 ≤ s ∨ onCurve key = false then false
  else
    let w := invMod n384 s
    let q : Pt := ⟨beNat (key.take 48), beNat (key.drop 48), 1⟩
    let x := ptAdd (ptMul g384 (e * w % n384) 384) (ptMul q (r * w % n384) 384)
    if x.z = 0 then false else decide ((ptAffine x).1 % n384 = r)

/-- The candidate nonces of RFC 6979: the HMAC state (K, V) stepped until a nonce in range signs. The second number
bounds the tries; each try fails with a chance below 2^-190. -/
def rfc6979 (d e : Nat) : Nat → Bytes → Bytes → Nat × Nat
  | 0, _, _ => (0, 0)
  | n + 1, k, v =>
    let v := hmacOf 0 k v
    let t := beNat v
    let r := if t = 0 ∨ n384 ≤ t then 0 else (ptAffine (ptMul g384 t 384)).1 % n384
    let s := invMod n384 t * (e + r * d) % n384
    if r ≠ 0 ∧ s ≠ 0 then (r, s)
    else
      let k' := hmacOf 0 k (v ++ [0])
      rfc6979 d e n k' (hmacOf 0 k' v)

/-- r‖s over a 48-byte digest with the private scalar d (R329). -/
def ecdsaSign (d : Nat) (digest : Bytes) : Bytes :=
  let e := beNat digest
  let x := beBytes 48 d
  let h := beBytes 48 (e % n384)
  let v0 : Bytes := List.replicate 48 1
  let k1 := hmacOf 0 (zeros 48) (v0 ++ [0] ++ x ++ h)
  let v1 := hmacOf 0 k1 v0
  let k2 := hmacOf 0 k1 (v1 ++ [1] ++ x ++ h)
  let rs := rfc6979 d e 4 k2 (hmacOf 0 k2 v1)
  beBytes 48 rs.1 ++ beBytes 48 rs.2

/-- The identity scalar that the boot ROM derives from the fused seed (R324). -/
def identityScalar (seed : Bytes) : Nat := beNat (hmacOf 0 seed (asciiBytes "FQ7840-ID")) % (n384 - 1) + 1

end Sys2Proof.Machine
end

