-- ==== Sys2Proof/Machine/Operands.lean ====
section
/-!
DEFINITION. The operand forms of ring commands: entry layouts and the checks of R262, data lists (R249), descriptors
(R337 to R339), and the reading and writing of the memory they name.
-/

namespace Sys2Proof.Machine

/-- Opcodes of R248. -/
def opNop : Nat := 0x01
/-- PIPE_LOAD. -/
def opPipeLoad : Nat := 0x02
/-- PIPE_RUN. -/
def opPipeRun : Nat := 0x03
/-- PIPE_CANCEL. -/
def opPipeCancel : Nat := 0x04
/-- PIPE_PARK. -/
def opPipePark : Nat := 0x05
/-- PIPE_RESUME. -/
def opPipeResume : Nat := 0x06
/-- PIPE_UNLOAD. -/
def opPipeUnload : Nat := 0x07
/-- STORE. -/
def opStore : Nat := 0x10
/-- FETCH. -/
def opFetch : Nat := 0x11
/-- STORE_SYNC. -/
def opStoreSync : Nat := 0x12
/-- DMA. -/
def opDma : Nat := 0x20
/-- COMPRESS. -/
def opCompress : Nat := 0x30
/-- DECOMPRESS. -/
def opDecompress : Nat := 0x31
/-- DIGEST. -/
def opDigest : Nat := 0x38
/-- LOUVRE_LOAD. -/
def opLouvreLoad : Nat := 0x40
/-- LOUVRE_SEARCH. -/
def opLouvreSearch : Nat := 0x41
/-- CACHE_MAINT. -/
def opCacheMaint : Nat := 0x50
/-- ATTEST. -/
def opAttest : Nat := 0x70

/-- The slots an opcode may take, lowest and highest; none for an undefined opcode (R248). -/
def opLengths (op : Nat) : Option (Nat × Nat) :=
  if [opNop, opStore, opFetch, opDma, opCompress, opDecompress, opDigest].contains op then some (1, 64)
  else if [opPipeLoad, opPipeRun, opPipeCancel, opPipePark, opPipeResume, opPipeUnload, opStoreSync, opLouvreLoad,
      opLouvreSearch, opCacheMaint].contains op then some (1, 1)
  else if op = opAttest then some (2, 2)
  else none

/-! ### Data lists (R249) -/

/-- An element of a data list. -/
structure Elem where
  addr : Nat
  len : Nat
  eng : Bool
deriving DecidableEq, Repr

/-- An element's reserved fields are zero and its length is at least 1. -/
def elemOk (b : Bytes) : Bool :=
  decide (1 ≤ fieldAt b 8 4) && decide (fieldAt b 12 1 < 2) && decide (fieldAt b 13 3 = 0)

/-- The element 16 bytes spell. -/
def elemOf (b : Bytes) : Elem := ⟨fieldAt b 0 8, fieldAt b 8 4, bitAt (fieldAt b 12 1) 0⟩

/-- n elements from consecutive bytes; a broken element is the status it completes with (R264). -/
def elemsOf : Nat → Bytes → Except Nat (List Elem)
  | 0, _ => .ok []
  | n + 1, b =>
    if elemOk b then
      match elemsOf n (b.drop 16) with
      | .ok es => .ok (elemOf b :: es)
      | .error e => .error e
    else .error 0x0103

/-- A command's data list: inline from element `first` when its address is zero, else in memory (R249). -/
def Dev.dataList (d : Dev) (entry : Bytes) (addr count first : Nat) (eng : Bool) : Except Nat (List Elem) :=
  if addr = 0 then elemsOf count (entry.drop (64 + 16 * first))
  else
    match d.readSpace eng addr (16 * count) with
    | .ok b => elemsOf count b
    | .error e => .error e

/-- The sum of a list's lengths. -/
def elemTotal (es : List Elem) : Nat := (es.map Elem.len).sum

/-- The first n bytes a list supplies. -/
def Dev.gather (d : Dev) : List Elem → Nat → Except Nat Bytes
  | [], _ => .ok []
  | e :: es, n =>
    if n = 0 then .ok []
    else
      match d.readSpace e.eng e.addr (min n e.len) with
      | .error s => .error s
      | .ok b =>
        match d.gather es (n - min n e.len) with
        | .error s => .error s
        | .ok r => .ok (b ++ r)

/-- Put bytes into a destination list, as far as it reaches. -/
def Dev.scatter (d : Dev) : List Elem → Bytes → Dev
  | [], _ => d
  | e :: es, b => if b = [] then d else (d.writeSpace e.eng e.addr (b.take e.len)).scatter es (b.drop e.len)

/-- The status that a list's total gives against a declared length: short, long or none (R249). -/
def lengthStatus (total declared : Nat) : Nat :=
  if total < declared then 0x0201 else if declared < total then 0x0202 else 0

/-! ### Descriptors (R337 to R339) -/

/-- The descriptor 64 bytes spell. -/
def descOf (b : Bytes) : Desc :=
  let c := fieldAt b 0x30 2
  { src := fieldAt b 0 8, dst := fieldAt b 8 8
    srcLen := fieldAt b 0x10 4, srcCount := fieldAt b 0x14 4, srcStride := toSigned 64 (fieldAt b 0x18 8)
    dstLen := fieldAt b 0x20 4, dstCount := fieldAt b 0x24 4, dstStride := toSigned 64 (fieldAt b 0x28 8)
    srcEng := bitAt c 0, dstEng := bitAt c 1, swap := bits c 4 2, link := bitAt c 5, close := bitAt c 6
    nextEng := bitAt c 7, next := fieldAt b 0x38 8 }

/-- Bytes of the unit a SWAP code rearranges; none for an undefined code (R339). -/
def swapUnit (s : Nat) : Option Nat :=
  match s with
  | 0 => some 1
  | 1 => some 2
  | 2 => some 4
  | 3 => some 8
  | 4 => some 4
  | 5 => some 8
  | _ => none

/-- The bytes a descriptor moves. -/
def Desc.size (x : Desc) : Nat := x.srcLen * x.srcCount

/-- A line length or count is 1 to 16,777,216. -/
def lineOk (n : Nat) : Bool := decide (1 ≤ n) && decide (n ≤ 16777216)

/-- The rules of R337 to R339 for the 64 bytes of a descriptor. -/
def descOk (b : Bytes) : Bool :=
  let x := descOf b
  lineOk x.srcLen && lineOk x.srcCount && lineOk x.dstLen && lineOk x.dstCount
  && decide (x.size = x.dstLen * x.dstCount) && decide (x.size ≤ 2 ^ 40)
  && (match swapUnit x.swap with
      | some u => decide (x.size % u = 0)
      | none => false)
  && decide (fieldAt b 0x31 1 = 0) && decide (fieldAt b 0x32 6 = 0)
  && (if x.link then decide (x.next % 64 = 0) else decide (x.next = 0))

/-- Reverse every unit of n bytes. -/
def reverseUnits (n : Nat) : Nat → Bytes → Bytes
  | 0, b => b
  | k + 1, b => (b.take n).reverse ++ reverseUnits n k (b.drop n)

/-- Rearrange a byte stream under a SWAP code (R339). -/
def swapBytes (s : Nat) (b : Bytes) : Bytes :=
  let halves (n : Nat) := reverseUnits 2 (b.length / 2) (reverseUnits n (b.length / n) b)
  match s with
  | 1 => reverseUnits 2 (b.length / 2) b
  | 2 => reverseUnits 4 (b.length / 4) b
  | 3 => reverseUnits 8 (b.length / 8) b
  | 4 => halves 4
  | 5 => halves 8
  | _ => b

/-! ### The four checks of R262 -/

/-- The width in bytes of a fixed-width type of R37. -/
def typeWidth (t : Nat) : Option Nat :=
  if [0x01, 0x05, 0x11].contains t then some 1
  else if [0x02, 0x06, 0x12].contains t then some 2
  else if [0x03, 0x07, 0x0B, 0x0D, 0x13].contains t then some 4
  else if [0x04, 0x08, 0x09, 0x0C, 0x0E].contains t then some 8
  else if t = 0x0A then some 16
  else none

/-- A type code that R37 defines. -/
def typeDefined (t : Nat) : Bool := decide (1 ≤ t) && decide (t ≤ 0x13)

/-- R297's conditions on a COLUMN descriptor, a LENGTH and a block size. -/
def columnOk (col : Bytes) (length blk : Nat) : Bool :=
  let t := fieldAt col 0 1
  let enc := fieldAt col 2 1
  let fl := fieldAt col 3 1
  let rows := fieldAt col 4 4
  if t = 0 then decide (col = zeros 8)
  else
    typeDefined t && decide (enc < 6) && decide (fl < 2)
    && (match typeWidth t with
        | some w =>
          if (enc = 0 ∨ enc = 2) ∧ fl = 0 then decide (rows = 0) && decide (length % w = 0)
          else decide (length ≤ blk)
        | none => decide (length ≤ blk))

/-- The block size a BLOCK_LOG2 field selects (R251). -/
def blockSize (log : Nat) : Nat := if log = 0 then 2 ^ 18 else 2 ^ log

/-- Bytes lo to hi - 1 are zero. -/
def zeroAt (b : Bytes) (lo hi : Nat) : Bool := ((b.drop lo).take (hi - lo)).all (fun x => x == 0)

/-- Elements `first` to `first + n - 1` of the inline area are well formed. -/
def inlineOk (b : Bytes) (first n : Nat) : Bool :=
  (List.range n).all (fun i => elemOk (b.drop (64 + 16 * (first + i))))

/-- An address is zero (inline) or a multiple of m. -/
def listAddrOk (a m : Nat) : Bool := decide (a % m = 0)

/-- BLOCK_LOG2 is 12 to 20, or 0 for the default. -/
def blockLogOk (n : Nat) : Bool := n == 0 || (decide (12 ≤ n) && decide (n ≤ 20))

/-- The inline elements or descriptors an entry declares: of the source and destination lists, in 16-byte elements. -/
def inlineCounts (op : Nat) (b : Bytes) : Nat × Nat :=
  if op = opStore ∨ op = opFetch then (if fieldAt b 40 8 = 0 then fieldAt b 48 2 else 0, 0)
  else if op = opCompress ∨ op = opDecompress then
    (if fieldAt b 24 8 = 0 then fieldAt b 32 2 else 0, if fieldAt b 40 8 = 0 then fieldAt b 34 2 else 0)
  else if op = opDigest then (if fieldAt b 24 8 = 0 then fieldAt b 32 2 else 0, 0)
  else (0, 0)

/-- Check 3 of R262: inline lists and descriptors fit the entry's slots. -/
def inlineFits (op : Nat) (b : Bytes) (slots : Nat) : Bool :=
  if op = opDma then (fieldAt b 24 8 != 0) || decide (fieldAt b 18 2 = slots - 1)
  else
    let c := inlineCounts op b
    decide (c.1 + c.2 ≤ 4 * (slots - 1))

/-- Check 4 of R262 for the bytes after the header of each opcode (R250 to R253, R104, R112, R205, R275). -/
def fieldsOk (op : Nat) (b : Bytes) (slots : Nat) : Bool :=
  let u8 (o : Nat) := fieldAt b o 1
  let tail (used : Nat) := zeroAt b (64 + 16 * used) (64 * slots)
  let c := inlineCounts op b
  let lists := inlineOk b 0 (c.1 + c.2) && tail (c.1 + c.2)
  if op = opNop then true
  else if op = opPipeLoad then
    zeroAt b 16 18 && decide (u8 18 < 2) && zeroAt b 19 24 && decide (fieldAt b 24 8 % 64 = 0) && zeroAt b 36 64
  else if op = opPipeRun then decide (fieldAt b 16 2 < 256) && zeroAt b 18 32
  else if op = opPipeCancel ∨ op = opPipePark ∨ op = opPipeResume ∨ op = opPipeUnload then
    decide (fieldAt b 16 2 < 256) && zeroAt b 18 64
  else if op = opStore then
    decide (u8 16 < 48) && decide (bits (u8 17) 6 2 = 0) && !(bitAt (u8 17) 1 && !bitAt (u8 17) 0)
    && decide (u8 18 < 8) && blockLogOk (u8 19) && decide (1 ≤ fieldAt b 32 4) && decide (fieldAt b 32 4 ≤ 2 ^ 26)
    && decide (1 ≤ fieldAt b 36 4) && listAddrOk (fieldAt b 40 8) 16 && decide (1 ≤ fieldAt b 48 2)
    && zeroAt b 50 56 && lists
    && (!bitAt (u8 17) 0 || columnOk (sliceAt b 56 8) (fieldAt b 32 4) (blockSize (u8 19)))
  else if op = opFetch then
    decide (u8 16 < 48) && decide (bits (u8 17) 6 2 = 0) && zeroAt b 18 20
    && decide (1 ≤ fieldAt b 32 4) && decide (1 ≤ fieldAt b 36 4)
    && listAddrOk (fieldAt b 40 8) 16 && decide (1 ≤ fieldAt b 48 2) && zeroAt b 50 64 && lists
  else if op = opStoreSync then (decide (u8 16 < 48) || u8 16 == 0xFF) && zeroAt b 17 64
  else if op = opDma then
    (decide (u8 16 < 64) || u8 16 == 0xFF) && decide (bits (u8 17) 6 0 = 0) && decide (1 ≤ fieldAt b 18 2)
    && zeroAt b 20 24 && decide (fieldAt b 24 8 % 64 = 0) && zeroAt b 40 64
    && (if fieldAt b 24 8 = 0 then (List.range (slots - 1)).all (fun i => descOk (b.drop (64 + 64 * i))) else tail 0)
  else if op = opCompress then
    decide (u8 16 < 8) && decide (bits (u8 17) 5 1 = 0) && blockLogOk (u8 18) && zeroAt b 19 20
    && listAddrOk (fieldAt b 24 8) 16 && zeroAt b 36 40 && listAddrOk (fieldAt b 40 8) 16 && zeroAt b 56 64 && lists
    && columnOk (sliceAt b 48 8) (fieldAt b 20 4) (blockSize (u8 18))
  else if op = opDecompress then
    zeroAt b 16 17 && decide (bits (u8 17) 5 1 = 0) && zeroAt b 18 20
    && listAddrOk (fieldAt b 24 8) 16 && zeroAt b 36 40 && listAddrOk (fieldAt b 40 8) 16 && zeroAt b 48 64 && lists
  else if op = opDigest then
    decide (u8 16 < 4) && decide (bits (u8 17) 5 1 = 0)
    && (if bitAt (u8 17) 0 then decide (u8 18 < 64) else u8 18 == 0) && zeroAt b 19 20
    && listAddrOk (fieldAt b 24 8) 16 && decide (1 ≤ fieldAt b 32 2) && zeroAt b 34 40
    && decide (fieldAt b 40 8 % 64 = 0) && zeroAt b 48 64 && lists
  else if op = opLouvreLoad then
    decide (u8 16 < 4) && decide (u8 17 < 64)
    && (if u8 16 = 0 ∨ u8 16 = 2 then
          decide (u8 18 < 3) && decide (u8 19 < 3) && decide (1 ≤ u8 20) && decide (u8 20 < 16)
          && decide (1 ≤ u8 21) && decide (u8 21 ≤ 4)
        else true)
    && decide (u8 22 < 2) && zeroAt b 23 24 && decide (fieldAt b 24 8 % 64 = 0) && decide (fieldAt b 32 4 ≤ 65536)
    && zeroAt b 36 48 && (u8 18 == 1 || zeroAt b 48 64)
  else if op = opLouvreSearch then
    decide (u8 16 < 64) && (decide (u8 17 < 4) || u8 17 == 0xFF) && decide (1 ≤ u8 18) && decide (u8 19 < 4)
    && decide (1 ≤ fieldAt b 20 4) && decide (fieldAt b 20 4 ≤ 1048576)
    && decide (fieldAt b 24 8 % 16 = 0) && decide (fieldAt b 32 8 % 16 = 0) && zeroAt b 40 64
  else if op = opCacheMaint then
    decide (u8 16 < 4) && decide (u8 17 < 2) && (u8 16 != 3 || u8 17 == 0)
    && decide (1 ≤ u8 18) && decide (u8 18 < 16) && (if u8 16 = 3 then decide (u8 19 < 2) else u8 19 == 0)
    && zeroAt b 20 24
    && (if u8 17 = 1 then zeroAt b 24 40 else decide (1 ≤ fieldAt b 32 8) && decide (fieldAt b 32 8 ≤ 2 ^ 44))
    && zeroAt b 40 64
  else if op = opAttest then
    decide (u8 16 < 2) && decide (bits (u8 17) 5 0 = 0) && !bitAt (u8 17) 7
    && (if u8 16 = 1 then decide (fieldAt b 18 2 < 256) else zeroAt b 18 20)
    && decide (fieldAt b 24 8 % 64 = 0) && zeroAt b 32 64 && zeroAt b 96 128
  else false

/-- The header rules of R247: FLAGS [15:2] and bytes 8 to 15 are zero. -/
def headerOk (b : Bytes) : Bool := decide (fieldAt b 2 2 < 4) && zeroAt b 8 16

/-- Checks 2 to 4 of R262 on a whole entry whose LENGTH has passed check 1: the status of the first that fails. -/
def entryStatus (b : Bytes) : Nat :=
  let op := fieldAt b 0 1
  let slots := fieldAt b 1 1
  match opLengths op with
  | none => 0x0102
  | some (lo, hi) =>
    if slots < lo ∨ hi < slots then 0x0101
    else if op ≠ opNop ∧ inlineFits op b slots = false then 0x0101
    else if headerOk b && fieldsOk op b slots then 0
    else 0x0103

end Sys2Proof.Machine
end

