-- ==== Sys2Proof/Machine/Jamb.lean ====
section
/-!
DEFINITION. Jamb: doorbells (R242), the rotation and fetch (R241, R257, R258), the checks and the error state (R262 to
R264), dispatch (R257), completions, the backlog and the mirror (R243, R244, R255, R259), interrupts (R260, R261).
-/

namespace Sys2Proof.Machine

/-! ### Queues and commands -/

/-- A queue. -/
def Dev.queue (d : Dev) (q : Nat) : Queue := Sparse.get {} d.jamb.queues q

/-- Put a queue. -/
def Dev.setQueue (d : Dev) (q : Nat) (x : Queue) : Dev :=
  { d with jamb := { d.jamb with queues := Sparse.set {} d.jamb.queues q x } }

/-- The commands in flight of a queue (R258). -/
def Dev.inflight (d : Dev) (q : Nat) : Nat := (d.jamb.cmds.filter (fun c => c.queue = q)).length

/-- Backlogged completions of a queue (R259). -/
def Dev.backlogOf (d : Dev) (q : Nat) : Nat :=
  (d.jamb.cmds.filter (fun c => decide (c.queue = q) && decide (c.phase = .backlogged))).length

/-- Slots of a submission ring. -/
def Queue.sqSize (x : Queue) : Nat := 2 ^ x.cfg.sqLog

/-- Slots of a completion ring. -/
def Queue.cqSize (x : Queue) : Nat := 2 ^ x.cfg.cqLog

/-- A command in flight by its number. -/
def Dev.cmd (d : Dev) (id : Nat) : Option Cmd := d.jamb.cmds.find? (fun c => c.id = id)

/-- Change a command in flight. -/
def Dev.mapCmd (d : Dev) (id : Nat) (f : Cmd → Cmd) : Dev :=
  { d with jamb := { d.jamb with cmds := d.jamb.cmds.map (fun c => if c.id = id then f c else c) } }

/-- A dispatched command of an opcode. -/
def Dev.running (d : Dev) (id op : Nat) : Option Cmd :=
  match d.cmd id with
  | some c => if c.phase = .dispatched ∧ c.opcode = op ∧ d.halted = false then some c else none
  | none => none

/-- The words of a result, four bytes each. -/
def result4 (a b c e : Nat) : Bytes := leBytes 4 a ++ leBytes 4 b ++ leBytes 4 c ++ leBytes 4 e

/-- A POISON_CONSUMED is counted (R427). -/
def Dev.countPoison (d : Dev) (status : Nat) : Dev := if status = 0x0703 then d.ocount O.POISON_CONSUMED 1 else d

/-- End a command with its status, result and RESULT_LEN; the completion is posted by COMPLETION_POST. -/
def Dev.finish (d : Dev) (id status : Nat) (result : Bytes) (len : Nat) : Dev :=
  (d.countPoison status).mapCmd id (fun c => { c with phase := .finished, status := status, result := result, resultLen := len })

/-! ### QSTAT, CQSTAT and the mirror -/

/-- The word QSTAT reads (R271). -/
def Dev.qstatWord (d : Dev) (q : Nat) : Nat :=
  match (d.queue q).st with
  | .absent => 0
  | .active => 1 + 32 * d.inflight q
  | .error => 3 + 32 * d.inflight q
  | .flushing => 5 + 32 * d.inflight q
  | .deleting => 9 + 32 * d.inflight q

/-- The word CQSTAT reads (R271). -/
def Dev.cqstatWord (d : Dev) (q : Nat) : Nat := b2n (d.queue q).stall + 2 * d.backlogOf q

/-- Write the mirror of a queue that keeps one (R244). -/
def Dev.mirror (d : Dev) (q : Nat) : Dev :=
  let x := d.queue q
  if x.cfg.mirEn = true ∧ x.st ≠ .absent then
    d.writeSpace x.cfg.mirEng x.cfg.mirAddr
      (leBytes 4 x.sqC.toNat ++ leBytes 4 x.cqP.toNat ++ leBytes 4 (d.qstatWord q) ++ leBytes 4 (d.cqstatWord q)
        ++ zeros 48)
  else d

/-- Send a queue's interrupt message after its mirror write, where the queue interrupts; no completion is pending afterwards
(R244, R260, R261). -/
def Dev.queueIrq (d : Dev) (q : Nat) : Dev :=
  let x := d.queue q
  if x.cfg.irqEn then
    let d := d.mirror q
    (d.setQueue q { x with pend := 0 }).raiseVector x.cfg.vector
  else d.mirror q

/-! ### Completions -/

/-- The 32 bytes of a completion entry (R255). -/
def cqEntry (c : Cmd) : Bytes :=
  leBytes 4 c.tag ++ leBytes 2 c.queue ++ leBytes 2 c.status ++ leBytes 4 c.resultLen ++ fit 16 c.result ++ zeros 4

/-- Room in the completion ring: the slot at CQ_PIDX lies below consumer plus size (R243). -/
def Queue.cqRoom (x : Queue) : Bool := decide ((x.cqP - x.cqC).toNat < x.cqSize)

/-- The command leaves the engine. -/
def Dev.dropCmd (d : Dev) (id : Nat) : Dev :=
  { d with jamb := { d.jamb with
      cmds := d.jamb.cmds.filter (fun c => c.id ≠ id)
      backlog := d.jamb.backlog.filter (fun i => i ≠ id) } }

/-- Write a command's completion entry into the CQ and then advance CQ_PIDX past it (R243). -/
def Dev.writeCqe (d : Dev) (c : Cmd) : Dev :=
  let x := d.queue c.queue
  let d := d.writeSpace x.cfg.cqEng (x.cfg.cqBase + x.cqP.toNat % x.cqSize * 32) (cqEntry c)
  let d := d.setQueue c.queue { x with cqP := x.cqP + 1, pend := x.pend + 1 }
  (d.dropCmd c.id).ocount O.COMPLETIONS 1

/-- Whether the queue's interrupt is due (R261): the pending count, IRQ_NOW, or a COAL_TIME of 0. -/
def Queue.irqDue (x : Queue) (now : Bool) : Bool :=
  decide (x.pend ≠ 0) && (now || decide (max 1 x.cfg.coalCount ≤ x.pend) || decide (x.cfg.coalTime = 0))

/-- A flushed queue whose last command has completed is ACTIVE again; a deleted one whose last command has ended is
ABSENT (R265, R266). -/
def Dev.settleQueue (d : Dev) (q : Nat) : Dev :=
  let x := d.queue q
  let busy := d.jamb.cmds.any (fun c => decide (c.queue = q) && decide (c.phase ≠ .backlogged))
  if busy then d
  else
    match x.st with
    | .flushing => d.setQueue q { x with st := .active }
    | .deleting =>
      let d := { d with jamb := { d.jamb with
        backlog := d.jamb.backlog.filter (fun i => !(d.jamb.cmds.any (fun c => decide (c.id = i ∧ c.queue = q))))
        cmds := d.jamb.cmds.filter (fun c => c.queue ≠ q) } }
      d.setQueue q {}
    | _ => d

/-- Put a completion into the backlog; STALL is set and its interrupt raised (R259, R261). -/
def Dev.toBacklog (d : Dev) (c : Cmd) : Dev :=
  let d := d.mapCmd c.id (fun c => { c with phase := .backlogged })
  let d := { d with jamb := { d.jamb with backlog := d.jamb.backlog ++ [c.id] } }
  let used := d.jamb.backlog.length
  let d := d.fput F.JB_BACKLOG_PEAK (max (min used 0xFFFF) (d.fget F.JB_BACKLOG_PEAK))
  let x := d.queue c.queue
  if x.stall then d
  else ((d.setQueue c.queue { x with stall := true }).ocount O.STALLS 1).queueIrq c.queue

/-- A finished command's completion goes into the CQ, or into the backlog while the CQ is full or earlier completions wait
there; a queue being deleted posts nothing (R243, R259, R266). -/
def Dev.post (d : Dev) (c : Cmd) : Dev :=
  let x := d.queue c.queue
  if x.st = .deleting ∨ x.st = .absent then ((d.dropCmd c.id).mirror c.queue).settleQueue c.queue
  else if x.cqRoom = true ∧ d.backlogOf c.queue = 0 then
    let d := d.writeCqe c
    let d := d.settleQueue c.queue
    if (d.queue c.queue).irqDue (bitAt c.flags 1) then d.queueIrq c.queue else d.mirror c.queue
  else ((d.toBacklog c).settleQueue c.queue).mirror c.queue

/-- COMPLETION_POST: post the completion of the finished command `id`. -/
def Dev.completionPost (d : Dev) (id : Nat) : Dev :=
  match d.cmd id with
  | none => d
  | some c => if c.phase ≠ .finished ∨ d.halted = true then d else d.post c

/-- Move backlogged completions of a queue into freed slots, oldest first; STALL clears when none is left (R259). -/
def Dev.drainBacklog (d : Dev) (q : Nat) : List Nat → Dev
  | [] =>
    let x := d.queue q
    if d.backlogOf q = 0 then d.setQueue q { x with stall := false } else d
  | i :: rest =>
    match d.cmd i with
    | some c =>
      if c.queue = q ∧ (d.queue q).cqRoom = true then
        let d := d.writeCqe c
        let d := if (d.queue q).irqDue (bitAt c.flags 1) then d.queueIrq q else d
        Dev.drainBacklog d q rest
      else Dev.drainBacklog d q rest
    | none => Dev.drainBacklog d q rest

/-! ### Doorbells (R242) -/

/-- A doorbell write that is not applied. -/
def Dev.badDoorbell (d : Dev) : Dev := (d.fcount F.JB_BADDB_COUNT 1).ocount O.DOORBELLS_IGNORED 1

/-- Whether a queue takes doorbells. -/
def Queue.takesDoorbells (x : Queue) : Bool := decide (x.st ≠ .absent) && decide (x.st ≠ .deleting)

/-- Apply an SQ producer doorbell, or ignore and count it. -/
def Dev.sqDoorbell (d : Dev) (q : Nat) (n : BitVec 32) : Dev :=
  let x := d.queue q
  if x.takesDoorbells = true ∧ (n - x.sqP).toNat ≤ x.sqSize - (x.sqP - x.sqC).toNat then
    d.setQueue q { x with sqP := n }
  else d.badDoorbell

/-- Apply a CQ consumer doorbell and move backlogged completions, or ignore and count it. -/
def Dev.cqDoorbell (d : Dev) (q : Nat) (n : BitVec 32) : Dev :=
  let x := d.queue q
  if x.takesDoorbells = true ∧ (n - x.cqC).toNat ≤ (x.cqP - x.cqC).toNat then
    let d := d.setQueue q { x with cqC := n }
    if d.backlogOf q = 0 then d else (d.drainBacklog q d.jamb.backlog).mirror q
  else d.badDoorbell

/-- A BAR2 write at a queue's doorbells: 32 bits at one of them, 64 bits at both, any other width ignored. -/
def Dev.doorbellWrite (d : Dev) (q : Nat) (consumer : Bool) (width value : Nat) : Dev :=
  if width = 32 then
    if consumer then d.cqDoorbell q (BitVec.ofNat 32 value) else d.sqDoorbell q (BitVec.ofNat 32 value)
  else if width = 64 ∧ consumer = false then
    (d.sqDoorbell q (BitVec.ofNat 32 value)).cqDoorbell q (BitVec.ofNat 32 (value / 2 ^ 32))
  else d.badDoorbell

/-- A read of a doorbell returns the index last applied. -/
def Dev.doorbellRead (d : Dev) (q : Nat) (consumer : Bool) : BitVec 32 :=
  if consumer then (d.queue q).cqC else (d.queue q).sqP

/-! ### Fetch (R241, R257, R258, R262 to R264) -/

/-- The in-flight limits of R272. -/
def Dev.queueLimit (d : Dev) : Nat := d.oclamp O.QUEUE_INFLIGHT_LIMIT 1 64
/-- The device's in-flight limit. -/
def Dev.deviceLimit (d : Dev) : Nat := d.oclamp O.DEVICE_INFLIGHT_LIMIT 64 32768

/-- Whether a queue is not passed over at its turn (R257). -/
def Dev.fetchable (d : Dev) (q : Nat) : Bool :=
  let x := d.queue q
  decide (x.st = .active) && !x.stall && decide (x.sqP ≠ x.sqC) && decide (d.inflight q < d.queueLimit)
  && decide (d.jamb.cmds.length < d.deviceLimit)

/-- Slot i of a submission ring (R239). -/
def Dev.sqSlot (d : Dev) (x : Queue) (i : BitVec 32) : Except Nat Bytes :=
  d.readSpace x.cfg.sqEng (x.cfg.sqBase + i.toNat % x.sqSize * 64) 64

/-- n slots from slot i on, wrapping past the end of the ring (R241). -/
def Dev.sqSlots (d : Dev) (x : Queue) : Nat → BitVec 32 → Except Nat Bytes
  | 0, _ => .ok []
  | n + 1, i =>
    match d.sqSlot x i with
    | .error e => .error e
    | .ok b =>
      match d.sqSlots x n (i + 1) with
      | .error e => .error e
      | .ok r => .ok (b ++ r)

/-- Put a command in flight. -/
def Dev.addCmd (d : Dev) (c : Cmd) : Dev :=
  { d with jamb := { d.jamb with cmds := d.jamb.cmds ++ [c], nextCmd := d.jamb.nextCmd + 1 } }

/-- A failed check: one completion with the status is posted, SQ_ERR_IDX latched, and the queue is in ERROR, which interrupts
(R261, R263). -/
def Dev.fetchFail (d : Dev) (q status tag : Nat) : Dev :=
  let id := d.jamb.nextCmd
  let c : Cmd := { id := id, queue := q, slot := (d.queue q).sqC, opcode := 0, flags := 0, tag := tag, entry := []
                   phase := .finished, status := status }
  let d := (d.addCmd c).post c
  let x := d.queue q
  let d := d.setQueue q { x with st := .error, errIdx := x.sqC }
  ((d.countPoison status).ocount O.MALFORMED 1).queueIrq q

/-- Fetch one entry of a queue; nothing happens while the producer index does not cover it. -/
def Dev.fetchOne (d : Dev) (q : Nat) : Dev :=
  let x := d.queue q
  if d.fetchable q = false then d
  else
    match d.sqSlot x x.sqC with
    | .error e => d.fetchFail q e 0
    | .ok head =>
      let slots := fieldAt head 1 1
      let tag := fieldAt head 4 4
      if slots < 1 ∨ 64 < slots then d.fetchFail q 0x0101 tag
      else if (x.sqP - x.sqC).toNat < slots then d
      else
        match d.sqSlots x slots x.sqC with
        | .error e => d.fetchFail q e 0
        | .ok b =>
          let st := entryStatus b
          if st ≠ 0 then d.fetchFail q st tag
          else
            let d := d.addCmd { id := d.jamb.nextCmd, queue := q, slot := x.sqC, opcode := fieldAt b 0 1
                                flags := fieldAt b 2 2, tag := tag, entry := b }
            ((d.setQueue q { x with sqC := x.sqC + BitVec.ofNat 32 slots }).ocount O.COMMANDS 1).mirror q

/-- Fetch up to n entries of a queue. -/
def Dev.fetchMany (d : Dev) (q : Nat) : Nat → Dev
  | 0 => d
  | n + 1 => (d.fetchOne q).fetchMany q n

/-- The queue whose turn it is: the next fetchable queue after the last one served (R257). -/
def Dev.nextTurn (d : Dev) : Option Nat :=
  let ready := (d.jamb.queues.filter (fun p => p.2.cfg.rotation && d.fetchable p.1)).map Prod.fst
  match ready.find? (fun q => d.jamb.rot < q) with
  | some q => some q
  | none => ready.head?

/-- A queue's turn: up to WEIGHT entries, 0 taken as 1 (R271). -/
def Dev.turn (d : Dev) (q : Nat) : Dev := d.fetchMany q (max 1 (d.queue q).cfg.weight)

/-- ENTRY_FETCH: the next turn of the rotation, or a turn of a queue created with the rotation off (R257, R271); nothing is
fetched while parking (R444). -/
def Dev.entryFetch (d : Dev) (unrotated : Option Nat) : Dev :=
  if d.halted = true ∨ d.life.parking = true then d
  else
    match unrotated with
    | some q => if (d.queue q).cfg.rotation then d else d.turn q
    | none =>
      match d.nextTurn with
      | some q => let d := { d with jamb := { d.jamb with rot := q } }; d.turn q
      | none => d

/-! ### Dispatch (R257) -/

/-- Whether a command has completed: its completion is made, posted or backlogged. -/
def Cmd.ended (c : Cmd) : Bool := decide (c.phase = .finished) || decide (c.phase = .backlogged)

/-- The oldest fetched command of a queue, when its FENCE allows it: every earlier command of the queue completed. -/
def Dev.nextDispatch (d : Dev) (q : Nat) : Option Cmd :=
  match d.jamb.cmds.find? (fun c => decide (c.queue = q) && decide (c.phase = .fetched)) with
  | some c =>
    if bitAt c.flags 0 = true
        ∧ d.jamb.cmds.any (fun e => decide (e.queue = q) && decide (e.id < c.id) && !e.ended) = true then none
    else some c
  | none => none

/-- Whether Jamb dispatches: not halted, not held for a firmware activation, and the queue's state allows it (R246,
R267, R430). -/
def Dev.dispatches (d : Dev) (q : Nat) : Bool :=
  !d.halted && !d.fgetB F.JB_STAT_HOLD && (decide ((d.queue q).st = .active) || decide ((d.queue q).st = .error))

/-- Mark a command dispatched, next in dispatch order. -/
def Dev.markDispatched (d : Dev) (id : Nat) : Dev :=
  let n := d.jamb.nextDisp
  let d := d.mapCmd id (fun c => { c with phase := .dispatched, disp := n })
  { d with jamb := { d.jamb with nextDisp := n + 1 } }

/-! ### CREATE and RESUME (R245, R263) -/

/-- The staged configuration of the QCFG registers. -/
def Dev.stagedCfg (d : Dev) : QCfg :=
  { sqBase := d.fget F.QCFG_SQ_LO_BASE * 4096 + d.fget F.QCFG_SQ_HI_BASE * 2 ^ 32
    cqBase := d.fget F.QCFG_CQ_LO_BASE * 4096 + d.fget F.QCFG_CQ_HI_BASE * 2 ^ 32
    mirAddr := d.fget F.QCFG_MIR_LO_ADDR * 64 + d.fget F.QCFG_MIR_HI_ADDR * 2 ^ 32
    sqLog := d.fget F.QCFG_SIZE_SQ_LOG2, cqLog := d.fget F.QCFG_SIZE_CQ_LOG2
    sqEng := d.fgetB F.QCFG_SIZE_SQ_ENG, cqEng := d.fgetB F.QCFG_SIZE_CQ_ENG
    mirEng := d.fgetB F.QCFG_SIZE_MIR_ENG, mirEn := d.fgetB F.QCFG_SIZE_MIR_EN
    weight := d.fget F.QCFG_SIZE_WEIGHT, vector := d.fget F.QCFG_IRQ_VECTOR
    irqEn := d.fgetB F.QCFG_IRQ_IRQ_EN, coalCount := d.fget F.QCFG_IRQ_COAL_COUNT
    coalTime := d.fget F.QCFG_IRQ_COAL_TIME, rotation := d.fget F.QCFG_SIZE_RSV24 == 0x6B }

/-- A staged ring size is 6 to 20. -/
def sizeOk (n : Nat) : Bool := decide (6 ≤ n) && decide (n ≤ 20)

/-- A QCTL write that is ignored (R245). -/
def Dev.qctlReject (d : Dev) : Dev := d.fputB F.JB_STAT_CMD_REJECT true

/-- CREATE: an absent queue takes the staged configuration, zero indices and the state ACTIVE. -/
def Dev.qctlCreate (d : Dev) (q : Nat) : Dev :=
  let c := d.stagedCfg
  if (d.queue q).st = .absent ∧ sizeOk c.sqLog = true ∧ sizeOk c.cqLog = true then
    (d.setQueue q { st := .active, cfg := c }).mirror q
  else d.qctlReject

/-- RESUME: a queue in ERROR fetches again from SQ_ERR_IDX (R263). -/
def Dev.qctlResume (d : Dev) (q : Nat) : Dev :=
  let x := d.queue q
  if x.st = .error then (d.setQueue q { x with st := .active, sqC := x.errIdx }).mirror q else d.qctlReject

/-- COALESCE_TIMEOUT: the oldest pending completion has waited COAL_TIME (R261). -/
def Dev.coalesceTimeout (d : Dev) (q : Nat) : Dev := if (d.queue q).pend = 0 then d else d.queueIrq q

end Sys2Proof.Machine
end

