-- ==== Sys2Proof/Machine/Faults.lean ====
section
/-!
DEFINITION. Raising a fault source (R418 to R426). The reactions of severity 3 and above are noted here and carried out
at the end of the command that raised them (Reactions.lean).
-/

namespace Sys2Proof.Machine

/-- Raise a source: count it, and at severity 1 or above capture or merge it, interrupt, and note the reaction of the
severity that applies (R418, R419, R422 to R426). -/
def Dev.faultRaise (d : Dev) (n syndrome : Nat) (injected : Bool) : Dev :=
  if faultListed n then
    let d := d.faultCount n
    let sev := effectiveSeverity n (d.severity n)
    if sev = 0 then d
    else
      let c := d.faultCapture n sev syndrome injected
      let d := c.1.faultIrq
      let act := effectiveSeverity n c.2
      if act < 3 then d else { d with reacts := d.reacts ++ [(n, act, syndrome)] }
  else d

/-- The action that raising a source comes to now: its own severity, or the higher one of the record it merges into (R419,
R424). -/
def Dev.faultAction (d : Dev) (n : Nat) : Nat :=
  let own := effectiveSeverity n (d.severity n)
  if own = 0 then 0
  else if d.fgetB (F.FC_REC_STAT_VALID (collectorOf n)) then
    effectiveSeverity n (max own (d.fget (F.FC_REC_STAT_SEV (collectorOf n))))
  else own

/-- An injection is armed on a source and inverts check bits (R432, R434). -/
def Dev.fiFires (d : Dev) (n : Nat) : Bool :=
  d.fgetB F.FI_CTL_ARM && d.fget F.FI_CTL_SOURCE == n && d.fget F.FI_CTL_BITS != 0
  && (d.fget F.FI_CTL_MODE == 1 || d.fget F.FI_CTL_MODE == 2)

/-- A check has been injected: counted, and under MODE 1 the injection is disarmed. -/
def Dev.fiConsume (d : Dev) : Dev :=
  let d := (((d.fcount F.FI_STAT_INJECTED 1).fputB F.FI_STAT_FIRED true).ocount O.INJECTIONS 1)
  if d.fget F.FI_CTL_MODE = 1 then d.fputB F.FI_CTL_ARM false else d

/-- Number of source k of Casement c. -/
def casSource (c k : Nat) : Nat := 384 + 16 * c + k

end Sys2Proof.Machine
end

