-- ==== Sys2Proof/Machine/Digest.lean ====
section
/-!
DEFINITION. The control digest unit, its register protocol and the DIGEST command (R312 to R320), and the key store
(R321 to R323).
-/

namespace Sys2Proof.Machine

/-! ### The key store -/

/-- A key-store slot. -/
def Dev.slot (d : Dev) (s : Nat) : KeySlot := Sparse.get {} d.dig.slots s

/-- Put a key-store slot. -/
def Dev.setSlot (d : Dev) (s : Nat) (x : KeySlot) : Dev :=
  { d with dig := { d.dig with slots := Sparse.set {} d.dig.slots s x } }

/-- The tag over a slot's type, length and contents (R321). -/
def slotTag (type len : Nat) (data : Bytes) : Bytes :=
  sha384 ([BitVec.ofNat 8 type, BitVec.ofNat 8 len] ++ data)

/-- A slot written with its tag; its words beyond the length are zero. -/
def slotOf (type : Nat) (data : Bytes) : KeySlot :=
  { type := type, len := data.length, data := data, tag := slotTag type data.length data }

/-- The tag failed: BAD is set, the failure counted and its source raised (R321). -/
def Dev.tagFailure (d : Dev) (s : Nat) : Dev :=
  let x := d.slot s
  let d := d.setSlot s { x with bad := true }
  (d.ocount O.KEY_TAG_FAILURES 1).faultRaise 469 s false

/-- A slot's tag does not hold, or an earlier use found it so. -/
def KeySlot.broken (x : KeySlot) : Bool :=
  x.bad || (decide (x.type ≠ 0) && decide (x.tag ≠ slotTag x.type x.len x.data))

/-- Why a slot cannot serve as an HMAC key. -/
inductive KeyFault where
  | unusable | badTag
deriving DecidableEq, Repr

/-- The HMAC key of a slot, which must be of type HMAC or DERIVED (R319, R320). -/
def Dev.hmacKey (d : Dev) (s : Nat) : Except KeyFault Bytes :=
  let x := d.slot s
  if x.type ≠ 2 ∧ x.type ≠ 3 then .error .unusable
  else if x.broken then .error .badTag
  else .ok x.data

/-- A slot whose tag fails at a use is reported (R321). -/
def Dev.reportTag (d : Dev) (s : Nat) : Dev :=
  let x := d.slot s
  if (x.type = 2 ∨ x.type = 3) ∧ x.broken = true then d.tagFailure s else d

/-! ### Digest contexts -/

/-- A digest context. -/
def Dev.dgctx (d : Dev) (k : Nat) : DgCtx := Sparse.get {} d.dig.ctxs k

/-- Put a digest context. -/
def Dev.setDgctx (d : Dev) (k : Nat) (x : DgCtx) : Dev :=
  { d with dig := { d.dig with ctxs := Sparse.set {} d.dig.ctxs k x } }

/-- The lowest free context (R312). -/
def Dev.freeDgctx (d : Dev) : Option Nat := (List.range 64).find? (fun k => !(d.dgctx k).alloc)

/-- How many contexts are free. -/
def Dev.freeDgctxs (d : Dev) : Nat := ((List.range 64).filter (fun k => !(d.dgctx k).alloc)).length

/-- A read of DG_CTX_ALLOC: the lowest free context is allocated; all allocated reads 0xFFFF (R312). -/
def Dev.dgAllocRead (d : Dev) : Nat × Dev :=
  match d.freeDgctx with
  | some k => (k, d.setDgctx k { (d.dgctx k) with alloc := true })
  | none => (0xFFFF, d)

/-- Bytes the context holds that no block turn has compressed. -/
def DgCtx.buffered (x : DgCtx) : Nat := x.msg.length - x.compressed

/-- BUSY: both input blocks of the context are full (R315). -/
def DgCtx.busy (x : DgCtx) : Bool := x.running && decide (2 * algBlock x.alg ≤ x.buffered)

/-- START samples the control fields and the declared length and begins a message (R314, R318). -/
def Dev.dgStart (d : Dev) (k : Nat) : Dev :=
  let x := d.dgctx k
  d.setDgctx k { alloc := x.alloc, cmd := x.cmd, running := true, alg := d.fget (F.DG_CTL_ALG k)
                 hmac := d.fgetB (F.DG_CTL_HMAC k), keySlot := d.fget (F.DG_CTL_KEY_SLOT k)
                 toSlot := d.fgetB (F.DG_CTL_TO_SLOT k), destSlot := d.fget (F.DG_CTL_DEST_SLOT k)
                 declared := d.fget (F.DG_LEN_LO_LEN k) + d.fget (F.DG_LEN_HI_LEN k) * 2 ^ 32 }

/-- A data write of 4 or 8 bytes (R314 to R316, R318): appended, lost while BUSY or after FINAL, or beyond the declared
length discarded; a write that begins at or beyond the declared length sets OVERRUN. -/
def Dev.dgData (d : Dev) (k : Nat) (b : Bytes) : Dev :=
  let x := d.dgctx k
  if (b.length ≠ 4 ∧ b.length ≠ 8) ∨ x.running = false ∨ x.done = true then d
  else if x.busy = true ∨ x.finalReq = true then d.setDgctx k { x with lost := true }
  else if x.declared ≤ x.msg.length then d.setDgctx k { x with overrun := true }
  else d.setDgctx k { x with msg := x.msg ++ b.take (x.declared - x.msg.length) }

/-- The valid result of a context's message, or why it has none. -/
def Dev.dgResult (d : Dev) (x : DgCtx) : Except KeyFault Bytes :=
  if x.hmac then
    match d.hmacKey x.keySlot with
    | .ok key => .ok (hmacOf x.alg key x.msg)
    | .error e => .error e
  else .ok (digestOf x.alg x.msg)

/-- The end of a message after FINAL (R316, R317, R320): a zero result with SHORT, LOST or KEYERR, a result, or a
delivery to DEST_SLOT as DERIVED. -/
def Dev.dgComplete (d : Dev) (k : Nat) : Dev :=
  let x := { (d.dgctx k) with done := true, finalReq := false, compressed := (d.dgctx k).msg.length }
  if x.lost then d.setDgctx k { x with short := decide (x.msg.length < x.declared) }
  else if x.msg.length < x.declared then d.setDgctx k { x with short := true }
  else
    match d.dgResult x with
    | .error _ => (d.reportTag x.keySlot).setDgctx k { x with keyerr := true }
    | .ok r =>
      if x.toSlot then
        let t := (d.slot x.destSlot).type
        if t = 1 ∨ t = 4 then d.setDgctx k { x with keyerr := true }
        else (d.setSlot x.destSlot (slotOf 3 r)).setDgctx k { x with slotted := true }
      else d.setDgctx k { x with result := r }

/-- FINAL: the message ends at once, or when its full buffered blocks have been compressed (R314, R317, R318). -/
def Dev.dgFinal (d : Dev) (k : Nat) : Dev :=
  let x := d.dgctx k
  if x.running = false ∨ x.done = true ∨ x.finalReq = true then d
  else if algBlock x.alg ≤ x.buffered then d.setDgctx k { x with finalReq := true }
  else d.dgComplete k

/-- RELEASE frees the context and discards any message (R314, R318). -/
def Dev.dgRelease (d : Dev) (k : Nat) : Dev := d.setDgctx k {}

/-- One block turn of a context (R313): a full buffered block is compressed; a message whose FINAL waits ends when no
full block is left. -/
def Dev.dgBlock (d : Dev) (k : Nat) : Dev :=
  let x := d.dgctx k
  if x.running = true ∧ x.done = false ∧ algBlock x.alg ≤ x.buffered then
    let d := d.setDgctx k { x with compressed := x.compressed + algBlock x.alg }
    let y := d.dgctx k
    if y.finalReq = true ∧ y.buffered < algBlock y.alg then d.dgComplete k else d
  else d

/-- Result word i of a context (R317): zero with EARLY before DONE, zero under TO_SLOT, after RELEASE or never
allocated. -/
def Dev.dgWord (d : Dev) (k i : Nat) : Nat × Dev :=
  let x := d.dgctx k
  if x.alloc = false ∧ x.running = false then (0, d)
  else if x.done = false then (0, d.setDgctx k { x with early := true })
  else if x.toSlot then (0, d)
  else (fieldAt x.result (4 * i) 4, d)

/-- The command bits of one DG_CTL write act in the order START, FINAL, RELEASE (R314). -/
def Dev.dgCommands (d : Dev) (k : Nat) (start final release : Bool) : Dev :=
  let d := if start then d.dgStart k else d
  let d := if final then d.dgFinal k else d
  if release then d.dgRelease k else d

/-! ### The DIGEST command (R319) -/

/-- The state in which a DIGEST command's dispatch leaves its context (R319). -/
def digestFresh (c : Cmd) : DgCtx :=
  let b := c.entry
  { alloc := true, cmd := some c.id, running := true, alg := fieldAt b 16 1, hmac := bitAt (fieldAt b 17 1) 0
    keySlot := fieldAt b 18 1, declared := fieldAt b 20 4 }

/-- Take a context for a DIGEST command at its dispatch; none free ends it with DIGEST_CONTEXTS_FULL (R312). -/
def Dev.digestDispatch (d : Dev) (c : Cmd) : Dev :=
  match d.freeDgctx with
  | some k => d.setDgctx k (digestFresh c)
  | none => d.finish c.id 0x0302 [] 0

/-- The context a DIGEST command holds. -/
def Dev.digestCtx (d : Dev) (id : Nat) : Option Nat := (List.range 64).find? (fun k => (d.dgctx k).cmd == some id)

/-- Release a DIGEST command's context. -/
def Dev.digestFree (d : Dev) (id : Nat) : Dev :=
  match d.digestCtx id with
  | some k => d.setDgctx k {}
  | none => d

/-- n 8-byte groups of open values (assumption log 10). -/
def Dev.drawBytes (d : Dev) : Nat → Bytes × Dev
  | 0 => ([], d)
  | n + 1 =>
    let v := d.draw
    let r := v.2.drawBytes n
    (leBytes 8 v.1 ++ r.1, r.2)

/-- The end of a DIGEST command whose data has been read: the result is written, or a wrong one that nothing reports
when a register write has touched the context (R318, R319). A key that cannot be used leaves none; the status of a list that
is too long comes first (R316). -/
def Dev.digestDeliver (d : Dev) (c : Cmd) (st : Nat) (m : Bytes) (untouched : Bool) : Dev :=
  let b := c.entry
  let alg := fieldAt b 16 1
  let fl := fieldAt b 17 1
  let res (n : Nat) := result4 m.length n 0 0
  let x : DgCtx := { alg := alg, hmac := bitAt fl 0, keySlot := fieldAt b 18 1, msg := m }
  match d.dgResult x with
  | .error .unusable => d.finish c.id (if st = 0 then 0x0103 else st) (res 0) 0
  | .error .badTag => (d.reportTag x.keySlot).finish c.id (if st = 0 then 0x0702 else st) (res 0) 0
  | .ok r =>
    let w := if untouched then (r, d) else d.drawBytes (r.length / 8)
    (w.2.writeSpace (bitAt fl 6) (fieldAt b 40 8) w.1).finish c.id st (res r.length) r.length

/-- DIGEST: hash or HMAC the data list and write the result to RESULT_ADDR (R319, R249, R316). A list short of LENGTH
leaves the count below the declared length: no digest is written. -/
def Dev.digestRun (d : Dev) (id : Nat) : Dev :=
  match d.running id opDigest with
  | none => d
  | some c =>
    let b := c.entry
    let declared := fieldAt b 20 4
    let untouched := (List.range 64).any (fun k => d.dgctx k = digestFresh c)
    let d := d.digestFree id
    match d.dataList b (fieldAt b 24 8) (fieldAt b 32 2) 0 (bitAt (fieldAt b 17 1) 7) with
    | .error e => d.finish id e [] 0
    | .ok es =>
      match d.gather es (min (elemTotal es) declared) with
      | .error e => d.finish id e [] 0
      | .ok m =>
        let st := lengthStatus (elemTotal es) declared
        if st = 0x0201 then d.finish id st (result4 m.length 0 0 0) 0
        else d.digestDeliver c st m untouched

/-! ### KS_CMD (R322) -/

/-- Word i of the key window. -/
def Dev.ksWindow (d : Dev) : Bytes := (List.range 32).flatMap (fun i => leBytes 4 (d.fget (F.KS_DATA_DATA i)))

/-- Put bytes into the key window, the rest zero. -/
def Dev.setKsWindow (d : Dev) (b : Bytes) : Dev :=
  (List.range 32).foldl (fun d i => d.fput (F.KS_DATA_DATA i) (fieldAt b (4 * i) 4)) d

/-- Whether a running message uses a slot. -/
def Dev.slotInUse (d : Dev) (s : Nat) : Bool :=
  (List.range 64).any (fun k => let x := d.dgctx k; x.running && !x.done && x.hmac && decide (x.keySlot = s))

/-- Whether LOAD accepts a type, length and slot (R321, R322). -/
def loadOk (slot type len : Nat) : Bool :=
  decide (slot ≠ 0) && ((type == 2 && decide (1 ≤ len) && decide (len ≤ 128)) || (type == 4 && len == 96))

/-- LOAD, CLEAR or EXPORT acting on its slot (R322). -/
def Dev.ksAct (d : Dev) (o : KsOp) : Dev :=
  let d := (d.fputB F.KS_CMD_GO false).fputB F.KS_STAT_BUSY false
  match o.op with
  | 1 =>
    if loadOk o.slot o.type o.len then d.setSlot o.slot (slotOf o.type (d.ksWindow.take o.len))
    else d.fputB F.KS_STAT_ERR true
  | 2 => d.setSlot o.slot {}
  | 3 => d.setKsWindow (d.slot o.slot).data
  | _ => d

/-- A GO: the operation acts at once, or after the slot's use ends; a command written while BUSY is ignored and sets
ERR (R322). -/
def Dev.ksGo (d : Dev) (o : KsOp) : Dev :=
  if d.dig.ksPending.isSome then d.fputB F.KS_STAT_ERR true
  else if d.slotInUse o.slot then
    { (d.fputB F.KS_STAT_BUSY true) with dig := { d.dig with ksPending := some o } }
  else d.ksAct o

/-- A pending operation acts once no message uses its slot (R322). -/
def Dev.ksSettle (d : Dev) : Dev :=
  match d.dig.ksPending with
  | some o => if d.slotInUse o.slot then d else { d with dig := { d.dig with ksPending := none } }.ksAct o
  | none => d

/-- The KS_CMD operation that a register value names. -/
def ksOpOf (v : Nat) : KsOp := { op := bits v 10 8, slot := bits v 5 0, type := bits v 14 12, len := bits v 23 16 }

end Sys2Proof.Machine
end

