-- ==== Sys2Proof/Machine/Inflate.lean ====
section
/-!
DEFINITION. The DEFLATE decoder of R301 (RFC 1951), with the failures of checks 5 and 6 of R302 kept apart.
-/

namespace Sys2Proof.Machine

/-- Why a body does not decode: an undecodable stream (check 5), or a stream that leaves its body or its declared
length (check 6). -/
inductive InflateFault where
  | undecodable | outOfBounds
deriving DecidableEq, Repr

/-- The bits of a byte, least significant first. -/
def byteBits (b : Byte) : List Bool := (List.range 8).map (bitAt b.toNat)

/-- What the decoder works on: the bits still to read and the output so far, last byte first. -/
structure Infl where
  bs : List Bool
  out : Bytes
  room : Nat
deriving DecidableEq, Repr

/-- Read n bits, least significant first. -/
def Infl.take (s : Infl) : Nat → Except InflateFault (Nat × Infl)
  | 0 => .ok (0, s)
  | n + 1 =>
    match s.bs with
    | [] => .error .outOfBounds
    | b :: bs =>
      match Infl.take { s with bs := bs } n with
      | .ok (v, s) => .ok (b2n b + 2 * v, s)
      | .error e => .error e

/-- Put one byte out; the output may not pass ULEN. -/
def Infl.put (s : Infl) (b : Byte) : Except InflateFault Infl :=
  match s.room with
  | 0 => .error .outOfBounds
  | n + 1 => .ok { s with out := b :: s.out, room := n }

/-- Copy n bytes from distance dist back. -/
def Infl.copy (s : Infl) (dist : Nat) : Nat → Except InflateFault Infl
  | 0 => .ok s
  | n + 1 =>
    match s.put (s.out.getD (dist - 1) 0) with
    | .ok s => s.copy dist n
    | .error e => .error e

/-- A prefix code: how many codes of each length 0 to 15, and the symbols in code order. -/
structure Huff where
  counts : List Nat
  syms : List Nat
deriving DecidableEq, Repr

/-- The canonical code of a list of code lengths. -/
def huffOf (lens : List Nat) : Huff :=
  let idx := lens.zipIdx
  { counts := (List.range 16).map (fun l => (lens.filter (fun x => x = l)).length)
    syms := (List.range 15).flatMap (fun l => (idx.filter (fun p => p.1 = l + 1)).map Prod.snd) }

/-- Codes left unassigned by the lengths up to 15; none when the lengths ask for too many. -/
def Huff.leftOver (h : Huff) : Option Nat :=
  (List.range 15).foldl (fun r l => r.bind (fun left =>
    let n := h.counts.getD (l + 1) 0
    if 2 * left < n then none else some (2 * left - n))) (some 1)

/-- Read one symbol: the first number bounds the code length still to try. Bits past every code of the set spell none. -/
def Infl.symbol (h : Huff) : Nat → Nat → Nat → Nat → Nat → Infl → Except InflateFault (Nat × Infl)
  | 0, _, _, _, _, _ => .error .undecodable
  | n + 1, len, code, first, index, s =>
    match s.bs with
    | [] => .error .outOfBounds
    | b :: bs =>
      let code := code + b2n b
      let c := h.counts.getD len 0
      if code < first + c then .ok (h.syms.getD (index + (code - first)) 0, { s with bs := bs })
      else if h.syms.length ≤ index + c then .error .undecodable
      else Infl.symbol h n (len + 1) (2 * code) (2 * (first + c)) (index + c) { s with bs := bs }

/-- Read one symbol of a code. -/
def Infl.sym (h : Huff) (s : Infl) : Except InflateFault (Nat × Infl) := Infl.symbol h 15 1 0 0 0 s

/-- Extra bits and base of length symbol 257 + i. -/
def lengthCodes : List (Nat × Nat) :=
  [(0, 3), (0, 4), (0, 5), (0, 6), (0, 7), (0, 8), (0, 9), (0, 10), (1, 11), (1, 13), (1, 15), (1, 17), (2, 19), (2, 23),
   (2, 27), (2, 31), (3, 35), (3, 43), (3, 51), (3, 59), (4, 67), (4, 83), (4, 99), (4, 115), (5, 131), (5, 163),
   (5, 195), (5, 227), (0, 258)]

/-- Extra bits and base of distance symbol i. -/
def distanceCodes : List (Nat × Nat) :=
  [(0, 1), (0, 2), (0, 3), (0, 4), (1, 5), (1, 7), (2, 9), (2, 13), (3, 17), (3, 25), (4, 33), (4, 49), (5, 65), (5, 97),
   (6, 129), (6, 193), (7, 257), (7, 385), (8, 513), (8, 769), (9, 1025), (9, 1537), (10, 2049), (10, 3073), (11, 4097),
   (11, 6145), (12, 8193), (12, 12289), (13, 16385), (13, 24577)]

/-- A match: length from its symbol, then the distance code; no distance may pass the first byte. -/
def Infl.backRef (dist : Huff) (sym : Nat) (s : Infl) : Except InflateFault Infl :=
  match lengthCodes[sym - 257]? with
  | none => .error .undecodable
  | some lc => do
    let (x, s) ← s.take lc.1
    let (ds, s) ← Infl.sym dist s
    match distanceCodes[ds]? with
    | none => .error .undecodable
    | some dc =>
      let (y, s) ← s.take dc.1
      let far := dc.2 + y
      if s.out.length < far then .error .undecodable else s.copy far (lc.2 + x)

/-- Symbols of one compressed block, up to its end-of-block code; the first number bounds them. -/
def Infl.codes (lit dist : Huff) : Nat → Infl → Except InflateFault Infl
  | 0, _ => .error .outOfBounds
  | n + 1, s =>
    match Infl.sym lit s with
    | .error e => .error e
    | .ok (k, s) =>
      if k < 256 then
        match s.put (BitVec.ofNat 8 k) with
        | .ok s => Infl.codes lit dist n s
        | .error e => .error e
      else if k = 256 then .ok s
      else
        match s.backRef dist k with
        | .ok s => Infl.codes lit dist n s
        | .error e => .error e

/-- Bytes of a stored block. -/
def Infl.stored : Nat → Infl → Except InflateFault Infl
  | 0, s => .ok s
  | n + 1, s =>
    match s.take 8 with
    | .error e => .error e
    | .ok (b, s) =>
      match s.put (BitVec.ofNat 8 b) with
      | .ok s => Infl.stored n s
      | .error e => .error e

/-- The fixed codes of BTYPE 01. -/
def fixedLit : Huff :=
  huffOf (List.replicate 144 8 ++ List.replicate 112 9 ++ List.replicate 24 7 ++ List.replicate 8 8)

/-- The fixed distance code: its last two symbols stand for no distance. -/
def fixedDist : Huff := huffOf (List.replicate 32 5)

/-- n three-bit code lengths. -/
def Infl.lens3 : Nat → Infl → Except InflateFault (List Nat × Infl)
  | 0, s => .ok ([], s)
  | n + 1, s =>
    match s.take 3 with
    | .error e => .error e
    | .ok (v, s) =>
      match Infl.lens3 n s with
      | .ok (r, s) => .ok (v :: r, s)
      | .error e => .error e

/-- The order in which the code length code lengths stand. -/
def clOrder : List Nat := [16, 17, 18, 0, 8, 7, 9, 6, 10, 5, 11, 4, 12, 3, 13, 2, 14, 1, 15]

/-- Literal and distance code lengths, last first, until `want` of them are read; the first number bounds the symbols. -/
def Infl.codeLens (h : Huff) (want : Nat) : Nat → List Nat → Infl → Except InflateFault (List Nat × Infl)
  | 0, acc, s => if want ≤ acc.length then .ok (acc, s) else .error .undecodable
  | n + 1, acc, s =>
    if want ≤ acc.length then .ok (acc, s)
    else do
      let (k, s) ← Infl.sym h s
      if k < 16 then Infl.codeLens h want n (k :: acc) s
      else
        let (bits, base) := if k = 16 then (2, 3) else if k = 17 then (3, 3) else (7, 11)
        if k = 16 ∧ acc = [] then .error .undecodable
        else do
          let (x, s) ← s.take bits
          let v := if k = 16 then acc.headD 0 else 0
          if want < acc.length + base + x then .error .undecodable
          else Infl.codeLens h want n (List.replicate (base + x) v ++ acc) s

/-- The two codes of a BTYPE 10 block. -/
def Infl.dynamic (s : Infl) : Except InflateFault ((Huff × Huff) × Infl) := do
  let (hlit, s) ← s.take 5
  let (hdist, s) ← s.take 5
  let (hclen, s) ← s.take 4
  let (cl, s) ← Infl.lens3 (hclen + 4) s
  let lens := (List.range 19).map (fun k => (clOrder.zip cl).foldl (fun r p => if p.1 = k then p.2 else r) 0)
  let want := hlit + 257 + hdist + 1
  let clh := huffOf lens
  if clh.leftOver = none then .error .undecodable
  else do
    let (ls, s) ← Infl.codeLens clh want want [] s
    let ls := ls.reverse
    let lit := huffOf (ls.take (hlit + 257))
    let dist := huffOf (ls.drop (hlit + 257))
    if lit.leftOver = none ∨ dist.leftOver = none then .error .undecodable else .ok ((lit, dist), s)

/-- One DEFLATE block; the flag says whether it was the last. -/
def Infl.block (total : Nat) (s : Infl) : Except InflateFault (Bool × Infl) := do
  let (fin, s) ← s.take 1
  let (ty, s) ← s.take 2
  if ty = 0 then
    let s := { s with bs := s.bs.drop (s.bs.length % 8) }
    let (len, s) ← s.take 16
    let (nlen, s) ← s.take 16
    if len + nlen ≠ 65535 then .error .undecodable
    else
      let s ← Infl.stored len s
      .ok (fin == 1, s)
  else if ty = 1 then
    let s ← Infl.codes fixedLit fixedDist (total + 1) s
    .ok (fin == 1, s)
  else if ty = 2 then
    let (h, s) ← s.dynamic
    let s ← Infl.codes h.1 h.2 (total + 1) s
    .ok (fin == 1, s)
  else .error .undecodable

/-- Blocks up to the one with BFINAL; the first number bounds them. -/
def Infl.blocks (total : Nat) : Nat → Infl → Except InflateFault Infl
  | 0, _ => .error .outOfBounds
  | n + 1, s =>
    match Infl.block total s with
    | .error e => .error e
    | .ok (true, s) => .ok s
    | .ok (false, s) => Infl.blocks total n s

/-- A body as the engine writes one, from a DEFLATE block on (R295): a single block with the fixed codes, or, `dyn`, blocks with
codes of their own, each but the last of 65,536 bytes; after the last only zero bits. The first number bounds the
blocks. -/
def Infl.framed (total : Nat) (dyn : Bool) : Nat → Infl → Bool
  | 0, _ => false
  | n + 1, s =>
    match s.take 3, Infl.block total s with
    | .ok (v, _), .ok (last, t) =>
      let got := t.out.length - s.out.length
      decide (v / 2 = if dyn then 2 else 1)
      && (if last then t.bs.all (fun b => !b) && (!dyn || decide (got ≤ 65536))
          else dyn && decide (got = 65536) && Infl.framed total dyn n t)
    | _, _ => false

/-- Whether a body of ulen bytes has the framing that the engine gives one. -/
def framed (dyn : Bool) (body : Bytes) (ulen : Nat) : Bool :=
  let bs := body.flatMap byteBits
  Infl.framed bs.length dyn bs.length ⟨bs, [], ulen⟩

/-- Decode a body that must yield exactly ulen bytes and end in its last byte (R302, checks 5 and 6). -/
def inflate (body : Bytes) (ulen : Nat) : Except InflateFault Bytes :=
  let bs := body.flatMap byteBits
  match Infl.blocks bs.length bs.length ⟨bs, [], ulen⟩ with
  | .error e => .error e
  | .ok s => if s.room = 0 ∧ s.bs.length < 8 then .ok s.out.reverse else .error .outOfBounds

end Sys2Proof.Machine
end

