-- ==== Sys2Proof/Machine/Bifold.lean ====
section
/-!
DEFINITION. Bifold: the block format (R292 to R296), building and decoding a block (R298, R299, R301, R302), and the
block queues and engines (R305, R306).
-/

namespace Sys2Proof.Machine

/-! ### The block -/

/-- A block header (R293). -/
structure BHead where
  flags : Nat
  effort : Nat
  ulen : Nat
  slen : Nat
  column : Bytes
deriving DecidableEq, Repr

/-- MAGIC. -/
def blockMagic : Nat := 0x464C4D42

/-- The header's fields. -/
def headOf (b : Bytes) : BHead :=
  { flags := fieldAt b 5 1, effort := fieldAt b 6 1, ulen := fieldAt b 8 4, slen := fieldAt b 12 4
    column := sliceAt b 16 8 }

/-- RAW is set. -/
def BHead.raw (h : BHead) : Bool := bitAt h.flags 0

/-- DIGEST_PRESENT is set. -/
def BHead.digest (h : BHead) : Bool := bitAt h.flags 3

/-- Stored bytes of the block (R292). -/
def BHead.stored (h : BHead) : Nat := 32 + h.slen + (if h.digest then 48 else 0)

/-- TYPE, ENCODING, NULLABLE and ROWS of the column descriptor (R294). -/
def BHead.type (h : BHead) : Nat := fieldAt h.column 0 1
/-- ENCODING. -/
def BHead.encoding (h : BHead) : Nat := fieldAt h.column 2 1
/-- NULLABLE. -/
def BHead.nullable (h : BHead) : Bool := bitAt (fieldAt h.column 3 1) 0
/-- ROWS. -/
def BHead.rows (h : BHead) : Nat := fieldAt h.column 4 4

/-- Checks 1 to 4 of R302 on the bytes from a block's start to the end of its extent. -/
def headStatus (b : Bytes) : Nat :=
  let h := headOf b
  let kinds := b2n (bitAt h.flags 0) + b2n (bitAt h.flags 1) + b2n (bitAt h.flags 2)
  if fieldAt b 0 4 = blockMagic ∧ fieldAt b 4 1 = 1
      ∧ kinds = 1 ∧ h.flags < 16 ∧ fieldAt b 7 1 = 0 ∧ fieldAt b 24 8 = 0
      ∧ 1 ≤ h.ulen ∧ h.ulen ≤ 1048576 ∧ 1 ≤ h.slen ∧ (if h.raw then h.slen = h.ulen else h.slen ≤ 1114112)
      ∧ h.type ≤ 0x13 ∧ h.encoding < 6 ∧ fieldAt h.column 3 1 < 2
      ∧ h.stored ≤ b.length
  then 0 else 0x0205

/-- Decode one block, its checks in the order of R302: the status, and on success the output. -/
def decodeBlock (noCheck : Bool) (b : Bytes) : Nat × Bytes :=
  let h := headOf b
  if headStatus b ≠ 0 then (headStatus b, [])
  else
    let body := (b.drop 32).take h.slen
    match if h.raw then .ok body else inflate body h.ulen with
    | .error .undecodable => (0x0204, [])
    | .error .outOfBounds => (0x0205, [])
    | .ok out =>
      if h.digest = true ∧ noCheck = false ∧ (b.drop (32 + h.slen)).take 48 ≠ sha384 out then (0x0203, [])
      else (0, out)

/-- Cut a sequence into its blocks (R69, R302): each runs to the end of its stored bytes, and the last entry may be a
block whose header fails, with all that follows it. The first number bounds the blocks. -/
def blockSeq : Nat → Bytes → List Bytes
  | 0, _ => []
  | n + 1, b =>
    if b.length < 32 ∨ fieldAt b 0 4 = 0 then []
    else if headStatus b ≠ 0 then [b]
    else
      let stored := (headOf b).stored
      b.take stored :: blockSeq n (b.drop (roundUp stored 4096))

/-- The blocks of a byte sequence. -/
def blocksOf (b : Bytes) : List Bytes := blockSeq (b.length / 4096 + 1) b

/-- ROWS of a block of n input bytes (R297). -/
def blockRows (column : Bytes) (n : Nat) : Nat :=
  let fl := fieldAt column 3 1
  let enc := fieldAt column 2 1
  match typeWidth (fieldAt column 0 1) with
  | some w => if (enc = 0 ∨ enc = 2) ∧ fl = 0 then n / w else fieldAt column 4 4
  | none => fieldAt column 4 4

/-- The bytes of a built block: header, body and trailer (R293, R296, R297). -/
def blockBytes (f : StoreForm) (kind : Nat) (input body : Bytes) : Bytes :=
  let flags := kind + (if f.trailer then 8 else 0)
  let col := leBytes 8 f.column
  leBytes 4 blockMagic ++ [1, BitVec.ofNat 8 flags, BitVec.ofNat 8 f.effort, 0]
    ++ leBytes 4 input.length ++ leBytes 4 body.length
    ++ col.take 4 ++ leBytes 4 (blockRows col input.length) ++ zeros 8
    ++ body ++ (if f.trailer then sha384 input else [])

/-- A body that the decoder of R301 gives back as its input. -/
def decodesBack (body input : Bytes) : Bool :=
  match inflate body input.length with
  | .ok out => out == input
  | .error _ => false

/-- Build a block: RAW when its DEFLATE body would be as long as its input, STATIC codes at efforts 0 and 1, else
DYNAMIC (R298, R299). `tag` is the effort, or an open number when the test control of R309 is off its value. The body is
an open value among those that decode to the input and are framed as R295 says: any other is no body of this input, and the
block is RAW (assumption log 10). -/
def buildBlock (f : StoreForm) (tag : Nat) (input : Bytes) : Bool × Bytes :=
  let body := Config.deflateBody tag input
  if input.length ≤ body.length || !decodesBack body input || !framed (decide (2 ≤ f.effort)) body input.length then (true, blockBytes f 1 input input)
  else (false, blockBytes f (if f.effort < 2 then 2 else 4) input body)

/-- Cut input into blocks of the form's size, the last shorter (R297). -/
def cutInput (size : Nat) : Nat → Bytes → List Bytes
  | 0, _ => []
  | n + 1, b => if b = [] then [] else b.take size :: cutInput size n (b.drop size)

/-- A block and its zero padding to the next 4,096-byte boundary (R292). -/
def padBlock (b : Bytes) : Bytes := fit (roundUp b.length 4096) b

/-! ### Casements, queues and engines -/

/-- A Casement in service (R457). -/
def Dev.casUp (d : Dev) (c : Nat) : Bool := d.fget (F.CS_STAT_STATE c) == 3

/-- The Casements in service, ascending. -/
def Dev.casements (d : Dev) : List Nat := [0, 1, 2, 3].filter d.casUp

/-- A Casement's Bifold. -/
def Dev.bcas (d : Dev) (c : Nat) : BCas := Sparse.get {} d.bifold.cas c

/-- Put a Casement's Bifold. -/
def Dev.setBcas (d : Dev) (c : Nat) (x : BCas) : Dev :=
  { d with bifold := { d.bifold with cas := Sparse.set {} d.bifold.cas c x } }

/-- An engine of a Casement. -/
def BCas.engine (x : BCas) (e : Nat) : BEngine := Sparse.get {} x.engines e

/-- Put an engine. -/
def BCas.setEngine (x : BCas) (e : Nat) (y : BEngine) : BCas := { x with engines := Sparse.set {} x.engines e y }

/-- An engine in service and not held off by ENGINE_OFF. -/
def Dev.engineReady (d : Dev) (c e : Nat) : Bool :=
  d.casUp c && !((d.bcas c).engine e).fenced && !bitAt (d.fget (F.BF_CTL_ENGINE_OFF c)) e

/-- The engines in service that ENGINE_OFF does not hold off (R310). -/
def Dev.enginesReady (d : Dev) : Nat :=
  ([0, 1, 2, 3].map (fun c => ((List.range 12).filter (fun e => d.engineReady c e)).length)).sum

/-- The Casement in service with the most free requests, ties to the lowest (R305). -/
def Dev.roomiest (d : Dev) (cs : List Nat) : Option Nat :=
  let open_ := cs.filter (fun c => !(d.bcas c).stopped && decide ((d.bcas c).queue.length < 64))
  open_.find? (fun c => open_.all (fun e => decide ((d.bcas c).queue.length ≤ (d.bcas e).queue.length)))

/-- The Casements that a block request may go to: a SCAN's to the home of its node, any other to each one in service (R305).
The number of a SCAN's owner holds its node above its column. -/
def Dev.blockHomes (d : Dev) (o : BOwner) : List Nat :=
  match o with
  | .scan c n => [((((Sparse.get {} d.pipes.ctxs c : Ctx).nodes)[n / 32]?).map NodeRun.home).getD 0]
  | _ => d.casements

/-- Offer a block request to a Casement; while every queue it may join is full it waits (R305). -/
def Dev.offerBlock (d : Dev) (r : BReq) : Dev :=
  match d.roomiest (d.blockHomes r.owner) with
  | some c => let x := d.bcas c; d.setBcas c { x with queue := x.queue ++ [r] }
  | none => { d with bifold := { d.bifold with waiting := d.bifold.waiting ++ [r] } }

/-- Waiting requests enter queues with room, oldest first. -/
def Dev.refillBlocks (d : Dev) : Dev :=
  d.bifold.waiting.foldl (fun d r => d.offerBlock r) { d with bifold := { d.bifold with waiting := [] } }

/-- The job of an owner. -/
def Dev.job (d : Dev) (o : BOwner) : Option Job := d.bifold.jobs.find? (fun j => j.owner = o)

/-- Change the job of an owner. -/
def Dev.mapJob (d : Dev) (o : BOwner) (f : Job → Job) : Dev :=
  { d with bifold := { d.bifold with jobs := d.bifold.jobs.map (fun j => if j.owner = o then f j else j) } }

/-- A job begins: its blocks are asked for in order. -/
def Dev.startJob (d : Dev) (j : Job) : Dev :=
  let d := { d with bifold := { d.bifold with jobs := d.bifold.jobs ++ [j] } }
  (List.range j.blocks.length).foldl (fun d i => d.offerBlock { owner := j.owner, index := i }) d

/-- Every request of an owner leaves the queues. -/
def Dev.unqueue (d : Dev) (o : BOwner) : Dev :=
  let keep (r : BReq) : Bool := decide (r.owner ≠ o)
  let d := [0, 1, 2, 3].foldl (fun d c => let x := d.bcas c; d.setBcas c { x with queue := x.queue.filter keep }) d
  { d with bifold := { d.bifold with waiting := d.bifold.waiting.filter keep } }

/-- An engine abandons the blocks it holds for an owner (R306, cancel). -/
def Dev.abandonBlocks (d : Dev) (o : BOwner) : Dev :=
  let free (y : BEngine) : BEngine := if (y.held.map BReq.owner) = some o then { y with held := none } else y
  [0, 1, 2, 3].foldl (fun d c =>
    let x := d.bcas c
    d.setBcas c ((List.range 12).foldl (fun x e => x.setEngine e (free (x.engine e))) x)) d

/-- The lists of a channel that a test picks stop: those that wait go, and one that the channel works on ends at its next
descriptor boundary, at a stopped channel at once (R269, R342, R343, R348). -/
def HChan.cut (x : HChan) (halt : Bool) (p : Owner → Bool) (st : Nat) : HChan :=
  match x.lists with
  | [] => x
  | h :: t =>
    let t := t.filter (fun l => !p l.owner)
    if p h.owner = false then { x with lists := h :: t }
    else if x.stopped = true ∧ halt = false then { x with lists := t }
    else { x with lists := { h with drop := some st } :: t }

/-- The lists of every channel that a test picks stop. -/
def Dev.cutLists (d : Dev) (p : Owner → Bool) (st : Nat) : Dev :=
  { d with hinge := { d.hinge with chans := d.hinge.chans.map (fun q => (q.1, q.2.cut d.hinge.halt p st)) } }

/-- A list that brings a block of an owner from its drive. -/
def Owner.reads (w : Owner) (o : BOwner) : Bool :=
  match w with
  | .scan r => r.owner == o
  | _ => false

/-- The job of an owner is forgotten with all its requests and reads. -/
def Dev.dropJob (d : Dev) (o : BOwner) : Dev :=
  let d := ((d.unqueue o).abandonBlocks o).cutLists (fun w => w.reads o) 0x0402
  { d with bifold := { d.bifold with jobs := d.bifold.jobs.filter (fun j => decide (j.owner ≠ o)) } }.refillBlocks

/-- A flush stops a job at the next block boundary: queued blocks go, blocks on engines finish (R306). -/
def Dev.stopJob (d : Dev) (o : BOwner) : Dev := ((d.mapJob o (fun j => { j with stop := true })).unqueue o).refillBlocks

/-- An engine holds a block of an owner. -/
def Dev.onEngine (d : Dev) (o : BOwner) : Bool :=
  [0, 1, 2, 3].any (fun c => (d.bcas c).engines.any (fun p => decide (p.2.held.map BReq.owner = some o)))

/-- A job whose blocks have all ended, or that a flush stopped and no engine works for any more. -/
def Dev.jobOver (d : Dev) (j : Job) : Bool :=
  decide (j.results.length = j.blocks.length) || (j.stop && !d.onEngine j.owner)

/-- The result of block i of a job. -/
def Job.result (j : Job) (i : Nat) : Option (Nat × Bytes) :=
  (j.results.find? (fun r => r.1 = i)).map Prod.snd

/-- The leading blocks of a job that have ended, in block order. -/
def Job.leading (j : Job) : Nat → List (Nat × Bytes)
  | 0 => []
  | n + 1 =>
    let i := j.blocks.length - (n + 1)
    match j.result i with
    | some r => r :: j.leading n
    | none => []

/-! ### BIFOLD_BLOCK_START (R305) -/

/-- The first request of a queue that an engine may take: not one that failed on it (R306). -/
def takable (e : Nat) (q : List BReq) : Option BReq := q.find? (fun r => decide (r.avoid ≠ some e))

/-- An idle engine of the Casement takes the oldest request it may take. -/
def Dev.blockStart (d : Dev) (c : Nat) : Dev :=
  let x := d.bcas c
  if x.stopped ∨ d.halted then d
  else
    match (List.range 12).find? (fun e =>
        d.engineReady c e && (x.engine e).held.isNone && (takable e x.queue).isSome) with
    | none => d
    | some e =>
      match takable e x.queue with
      | some r => ((d.setBcas c ({ x with queue := x.queue.erase r }.setEngine e { x.engine e with held := some r })
                    ).refillBlocks)
      | none => d

/-! ### BIFOLD_BLOCK_DONE (R302, R306) -/

/-- What block i of a job comes to on Casement c: status and bytes, with the counters of R309, R310 and R335. -/
def Dev.runBlock (d : Dev) (c : Nat) (j : Job) (i : Nat) : Dev × Nat × Bytes :=
  let input := j.blocks.getD i []
  if j.build then
    let v := if d.fget (F.BF_CTL_RSV16 c) = 0xC3 then (j.form.effort, d) else (d.draw.1 + 8, d.draw.2)
    let d := v.2
    let b := buildBlock j.form v.1 input
    let d := (d.fcount (F.BF_OUT_BUILT c) 1).ocount O.BLOCKS_BUILT 1
    let d := (d.ocount O.COMPRESS_IN_BYTES input.length).ocount O.COMPRESS_OUT_BYTES b.2.length
    let d := if b.1 then d.ocount O.RAW_FALLBACKS 1 else d
    let d := if j.form.trailer then d.ocount O.TRAILERS_WRITTEN 1 else d
    (d, 0, b.2)
  else
    let r := decodeBlock j.noCheck input
    let d := if r.1 = 0x0204 then (d.fcount (F.BF_ERR_DECOMPRESS c) 1).ocount O.DECOMPRESS_ERRORS 1 else d
    let d := if r.1 = 0x0205 then (d.fcount (F.BF_ERR_HEADER c) 1).ocount O.BLOCK_HEADER_ERRORS 1 else d
    let d := if r.1 = 0 then (d.fcount (F.BF_OUT_DECODED c) 1).ocount O.BLOCKS_DECODED 1 else d
    let checked := (headOf input).digest && !j.noCheck && (r.1 == 0 || r.1 == 0x0203)
    let d := if checked then d.ocount O.TRAILERS_CHECKED 1 else d
    let d := if r.1 = 0x0203 then d.ocount O.TRAILER_MISMATCHES 1 else d
    (d, r.1, r.2)

/-- Byte offset of block i in its job's input. -/
def Job.offset (j : Job) (i : Nat) : Nat := ((j.blocks.take i).map List.length).sum

/-- A parity error: the block returns to the head of its queue for another engine, or to another Casement when its own
has no other; a second error of the engine raises its fault source (R306). -/
def Dev.blockParity (d : Dev) (c e : Nat) (r : BReq) (offset : Nat) (injected : Bool) : Dev :=
  let x := d.bcas c
  let y := x.engine e
  let x := x.setEngine e { y with held := none, errors := y.errors + 1 }
  let other := (List.range 12).any (fun k => decide (k ≠ e) && d.engineReady c k)
  let d := if other then d.setBcas c { x with queue := { r with avoid := some e } :: x.queue }
    else
      let d := d.setBcas c x
      match d.roomiest (d.casements.filter (fun k => decide (k ≠ c))) with
      | some k => let z := d.bcas k; d.setBcas k { z with queue := z.queue ++ [{ r with avoid := none }] }
      | none => { d with bifold := { d.bifold with waiting := d.bifold.waiting ++ [{ r with avoid := none }] } }
  if y.errors = 0 then d else d.faultRaise (casSource c 9) (e + offset % 2 ^ 32 * 16) injected

/-- An engine of a Casement ends its block. -/
def Dev.blockDone (d : Dev) (c e : Nat) (parity : Bool) : Dev :=
  let x := d.bcas c
  match (x.engine e).held with
  | none => d
  | some r =>
    if d.halted then d
    else
      match d.job r.owner with
      | none => d.setBcas c (x.setEngine e { x.engine e with held := none })
      | some j =>
        let inj := d.fiFires (casSource c 9)
        if parity then d.blockParity c e r (j.offset r.index) false
        else if inj then d.fiConsume.blockParity c e r (j.offset r.index) true
        else
          let d := d.setBcas c (x.setEngine e { x.engine e with held := none })
          let v := d.runBlock c j r.index
          v.1.mapJob r.owner (fun j => { j with results := j.results ++ [(r.index, v.2.1, v.2.2)] })

/-- A fenced Casement's engines stop at once; their blocks and the Jamb blocks queued there go to other Casements
(R306). -/
def Dev.bifoldLeave (d : Dev) (c : Nat) (atOnce : Bool) : Dev :=
  let x := d.bcas c
  let held := if atOnce then (List.range 12).filterMap (fun e => (x.engine e).held) else []
  let engines := if atOnce then (List.range 12).foldl (fun x e => x.setEngine e { x.engine e with held := none }) x
    else x
  let d := d.setBcas c { engines with queue := [], stopped := true }
  (held ++ x.queue).foldl (fun d r => d.offerBlock { r with avoid := none }) d

/-! ### COMPRESS and DECOMPRESS (R300, R304) -/

/-- The blocks of an output list that fit a destination of n bytes, and whether one did not. -/
def fitting (size : Bytes → Nat) : Nat → List (Nat × Bytes) → List (Nat × Bytes) × Bool
  | _, [] => ([], false)
  | n, r :: rs =>
    if size r.2 ≤ n then
      let f := fitting size (n - size r.2) rs
      (r :: f.1, f.2)
    else ([], true)

/-- The leading results that ended well, and the status of the first that did not. -/
def wellEnded : List (Nat × Bytes) → List (Nat × Bytes) × Nat
  | [] => ([], 0)
  | r :: rs => if r.1 = 0 then let f := wellEnded rs; (r :: f.1, f.2) else ([], r.1)

/-- The end of a COMPRESS or DECOMPRESS whose job is over: its output, its result and its status. `dst` is the
destination list, `short` the status of a source list that did not match LENGTH. -/
def Dev.bifoldEnd (d : Dev) (c : Cmd) (j : Job) (dst : List Elem) (listStatus : Nat) : Dev :=
  let size (b : Bytes) : Nat := if j.build then roundUp b.length 4096 else b.length
  let good := wellEnded (j.leading j.blocks.length)
  let fits := fitting size (elemTotal dst) good.1
  let n := fits.1.length
  let out := fits.1.flatMap (fun r => if j.build then padBlock r.2 else r.2)
  let ended := (j.blocks.take n).map List.length
  let consumed := if j.build then ended.sum
    else min (fieldAt c.entry 20 4) ((ended.map (fun l => roundUp l 4096)).sum)
  let st := if fits.2 then 0x0202
    else if good.2 ≠ 0 then good.2
    else if j.stop = true ∧ n < j.blocks.length then c.abort.getD 0x0401
    else listStatus
  ((d.scatter dst out).dropJob j.owner).finish c.id st (result4 consumed out.length n 0) out.length

/-- COMPRESS and DECOMPRESS: read the input and ask for its blocks; once they have ended, write the output (R249,
R264, R300, R304). -/
def Dev.bifoldRun (d : Dev) (id op : Nat) (build : Bool) : Dev :=
  match d.running id op with
  | none => d
  | some c =>
    let b := c.entry
    let declared := fieldAt b 20 4
    let srcs := if fieldAt b 24 8 = 0 then fieldAt b 32 2 else 0
    match d.dataList b (fieldAt b 24 8) (fieldAt b 32 2) 0 (bitAt (fieldAt b 17 1) 7),
        d.dataList b (fieldAt b 40 8) (fieldAt b 34 2) srcs (bitAt (fieldAt b 17 1) 6) with
    | .error e, _ => (d.dropJob (.cmd id)).finish id e [] 0
    | _, .error e => (d.dropJob (.cmd id)).finish id e [] 0
    | .ok src, .ok dst =>
      let start := match d.job (.cmd id) with
        | some _ => Except.ok d
        | none =>
          match d.gather src (min (elemTotal src) declared) with
          | .error e => .error e
          | .ok input =>
            let size := blockSize (fieldAt b 18 1)
            .ok (d.startJob
              { owner := .cmd id, build := build, noCheck := bitAt (fieldAt b 17 1) 0
                form := { compress := true, trailer := bitAt (fieldAt b 17 1) 0, effort := fieldAt b 16 1
                          blockLog := fieldAt b 18 1, column := fieldAt b 48 8 }
                blocks := if build then cutInput size (input.length / size + 1) input else blocksOf input })
      match start with
      | .error e => d.finish id e [] 0
      | .ok d =>
        match d.job (.cmd id) with
        | some j => if d.jobOver j then d.bifoldEnd c j dst (lengthStatus (elemTotal src) declared) else d
        | none => d

end Sys2Proof.Machine
end

