-- ==== Sys2Proof/Machine/Persist.lean ====
section
/-!
DEFINITION. Finding objects in the table, and the persisted objects (R393, R394).
-/

namespace Sys2Proof.Machine

/-- A row covers object index:sub. -/
def ObjRow.covers (r : ObjRow) (index sub : Nat) : Bool :=
  decide (r.sub ≤ sub ∧ sub < r.sub + r.subs ∧ r.idx ≤ index)
  && (if r.stride = 0 then index == r.idx
      else (index - r.idx) % r.stride == 0 && decide ((index - r.idx) / r.stride < r.count))

/-- The row of an object. -/
def objRow (index sub : Nat) : Option ObjRow := objTable.find? (fun r => r.covers index sub)

/-- What an object of a row reads as while nothing has written it: the severities' defaults differ along their row
(R420). -/
def ObjRow.default (r : ObjRow) (index : Nat) : Nat :=
  if 0x8000 ≤ index ∧ index < 0x8200 then faultDefault (index - 0x8000) else r.dflt

/-- A key names an RWP object. -/
def keepsOver (key : Nat) : Bool := ((objRow (key / 256) (key % 256)).map (fun r => r.acc == .rwp)).getD false

/-- The RWP objects that differ from their defaults. -/
def Dev.rwpObjs (d : Dev) : Sparse Nat := d.objs.filter (fun p => keepsOver p.1)

/-- The copy with the higher sequence number. -/
def Life.newest (l : Life) : Option Persisted :=
  l.persisted.foldl (fun (m : Option Persisted) p => match m with
    | some q => if q.seq < p.seq then some p else some q
    | none => some p) none

/-- The copy without the newest sequence number is programmed with every RWP object (R394, step 2). -/
def Dev.persistWrite (d : Dev) : Dev :=
  let seq := (d.life.newest.map Persisted.seq).getD 0 + 1
  let d := { d with life := { d.life with persisted := { seq := seq, objs := d.rwpObjs } :: d.life.newest.toList } }
  (d.oput O.PERSIST_STATE 0).ocount O.PERSIST_WRITES 1

end Sys2Proof.Machine
end

