-- ==== Sys2Proof/Machine/Sill.lean ====
section
/-!
DEFINITION. The Sill cache (08): requests, fills, replacement, recalls, prefetch and CACHE_MAINT, and the entry of its
requests into the controllers' bank queues (R221).
-/

namespace Sys2Proof.Machine

/-! ### Bank queues of the controllers (R221, R222) -/

/-- The key of bank b of pseudo-channel or sub-channel s. -/
def mbankKey (s b : Nat) : Nat := s * 256 + b

/-- A bank of a controller. -/
def Dev.mbank (d : Dev) (k : Nat) : Bank := Sparse.get {} d.mem.banks k

/-- Put a bank of a controller. -/
def Dev.setMbank (d : Dev) (k : Nat) (x : Bank) : Dev :=
  { d with mem := { d.mem with banks := Sparse.set {} d.mem.banks k x } }

/-- A pseudo-channel or sub-channel. -/
def Dev.sub (d : Dev) (s : Nat) : SubChan := Sparse.get {} d.mem.subs s

/-- Put a pseudo-channel or sub-channel. -/
def Dev.setSub (d : Dev) (s : Nat) (x : SubChan) : Dev :=
  { d with mem := { d.mem with subs := Sparse.set {} d.mem.subs s x } }

/-- Poison of a line's sectors as memory holds it, and its bytes. -/
def Dev.lineRead (d : Dev) (line : Nat) : Bytes × Nat :=
  (d.engBytes (line * 128) 128,
    ((List.range 4).map (fun i => b2n (d.poisonedAt (line * 128 + i * 32)) * 2 ^ i)).sum)

/-- Put a request into the queue of its bank; `none` where that is full. -/
def Dev.mcEnter (d : Dev) (write : Bool) (line cas : Nat) : Option Dev :=
  let m := d.bankOf (line * 128)
  let k := mbankKey m.1 m.2.1
  let b := d.mbank k
  if 16 ≤ b.queue.length then none
  else some (d.setMbank k { b with queue := b.queue ++ [{ write := write, line := line, row := m.2.2, cas := cas }] })

/-! ### Replacement (R195) -/

/-- Set the bits above way w so that they point away from it (`use`) or at it. -/
def plruPoint (plru w : Nat) (use : Bool) : Nat :=
  [1, 2, 3, 4].foldl (fun t k =>
    let right := (16 + w) / 2 ^ (k - 1) % 2 == 1
    setBit t ((16 + w) / 2 ^ k) (if use then !right else right)) plru

/-- The way the tree points at among the allowed ones, from tree node n with k levels below it. -/
def plruPick (plru allowed : Nat) : Nat → Nat → Nat
  | 0, n => n - 16
  | k + 1, n =>
    let has (m : Nat) : Bool := (List.range 16).any (fun w => bitAt allowed w && (16 + w) / 2 ^ k == m)
    let go := if bitAt plru n then 2 * n + 1 else 2 * n
    plruPick plru allowed k (if has go then go else if go = 2 * n then 2 * n + 1 else 2 * n)

/-- The way a miss of an allowed set of ways takes: an invalid one first. -/
def SSet.take (s : SSet) (allowed : Nat) : Nat :=
  match (setBits allowed 16).find? (fun w => (Sparse.get none s.ways w).isNone) with
  | some w => w
  | none => plruPick s.plru allowed 4 1

/-- The ways of a class in Casement c (R194). -/
def Dev.ways (d : Dev) (c : Nat) : SClass → Nat
  | .stream => d.fget (F.SL_WAYS_STREAM c)
  | .table => d.fget (F.SL_WAYS_TABLE c)

/-- A replaced line leaves for the victim cache or the write-back buffer; `none` where that is full (R199). -/
def SBank.evict (k : SBank) (l : SLine) : Option SBank :=
  if l.dirty = 0 then some { k with victims := (l :: k.victims).take 16 }
  else if 16 ≤ k.wbuf.length then none
  else some { k with wbuf := { line := l } :: k.wbuf }

/-- Install a line in the ways of a class; a class without ways installs nothing, and dirty words go to memory. `none`
where the write-back buffer has no entry for the line it would replace. -/
def Dev.install (d : Dev) (c : Nat) (cls : SClass) (l : SLine) : Option Dev :=
  let b := sillBank l.line
  let k := d.sbank c b
  let allowed := d.ways c cls
  if allowed = 0 then some (if l.dirty = 0 then d else d.writeBack c l)
  else
    let i := sillSet l.line
    let s := Sparse.get {} k.sets i
    let w := s.take allowed
    match (match Sparse.get none s.ways w with
      | some old => k.evict old
      | none => some k) with
    | none => none
    | some k =>
      let s := { ways := Sparse.set none s.ways w (some l), plru := plruPoint s.plru w (!l.prefetched) }
      some (d.setSbank c b { k with sets := Sparse.set {} k.sets i s })

/-! ### Lines and writes -/

/-- Replace a line a set holds. -/
def SSet.put (s : SSet) (w : Nat) (l : SLine) : SSet := { s with ways := Sparse.set none s.ways w (some l) }

/-- A request writes bytes of a line: their words become dirty, and a sector covered whole loses its poison (R196, R211). -/
def SLine.write (l : SLine) (q : SReq) : SLine :=
  let ps := q.write
  let data := ps.foldl (fun (bs : Bytes) p => bs.set p.1 p.2) l.data
  let dirty := ps.foldl (fun m p => setBit m (p.1 / 8) true) l.dirty
  let poison := (List.range 4).foldl (fun m i =>
    if (List.range 32).all (fun j => ps.any (fun p => p.1 == i * 32 + j)) then setBit m i false else m) l.poison
  { l with data := data, dirty := dirty, poison := poison
           owners := if ps = [] ∨ l.owners.contains q.owner = true then l.owners else q.owner :: l.owners }

/-- A hit is counted; a prefetched line is used at its first (R204). -/
def Dev.hitCount (d : Dev) (c : Nat) (used : Bool) : Dev :=
  let d := (d.fcount64 (F.SL_HIT_LO_COUNT c) (F.SL_HIT_HI_COUNT c) 1).ocount O.SILL_HITS 1
  if used then (d.fcount (F.SL_PF_USED c) 1).ocount O.SILL_PF_USED 1 else d

/-- Serve a hit in way w: the order moves, and a write lands. -/
def Dev.hit (d : Dev) (c line w : Nat) (l : SLine) (q : SReq) : Dev :=
  let b := sillBank line
  let k := d.sbank c b
  let s := Sparse.get {} k.sets (sillSet line)
  let m := ({ l with prefetched := false }).write q
  let s := { s.put w m with plru := plruPoint s.plru w true }
  (d.setSbank c b { k with sets := Sparse.set {} k.sets (sillSet line) s }).hitCount c l.prefetched

/-! ### Prefetch streams (R203, R204) -/

/-- DISTANCE, CONFIRM and MR_LIMIT within their ranges. -/
def Dev.pfDistance (d : Dev) (c : Nat) : Nat := min 64 (d.fget (F.SL_PF_CTL_DISTANCE c))
/-- CONFIRM: 0 is taken as 1 and above 8 as 8. -/
def Dev.pfConfirm (d : Dev) (c : Nat) : Nat := max 1 (min 8 (d.fget (F.SL_PF_CTL_CONFIRM c)))
/-- MR_LIMIT: above 12 is taken as 12. -/
def Dev.pfLimit (d : Dev) (c : Nat) : Nat := min 12 (d.fget (F.SL_PF_CTL_MR_LIMIT c))

/-- Put a stream first in the bank of its first line; the least recently used of 64 makes room. -/
def Dev.newStream (d : Dev) (c line : Nat) (p : PfStream) : Dev :=
  let b := sillBank line
  let k := d.sbank c b
  d.setSbank c b { k with streams := (p :: k.streams).take 64 }

/-- A declared stream moves to a demand line, or a new one starts there (R203). -/
def Dev.declareStream (d : Dev) (c owner line limit : Nat) : Dev :=
  let mine (p : PfStream) : Bool := p.declared && p.owner == owner && p.limit == limit
  match (List.range 16).find? (fun b => (d.sbank c b).streams.any mine) with
  | none => d.newStream c line { owner := owner, declared := true, stride := 1, last := line, count := 0, limit := limit, ahead := 0 }
  | some b =>
    let k := d.sbank c b
    match k.streams.find? mine with
    | none => d
    | some p =>
      d.setSbank c b { k with streams := { p with last := line, ahead := p.ahead - (line - p.last) } :: k.streams.erase p }

/-- A demand miss trains the streams of its node (R203): it continues one at its stride, fixes the stride of one it lies
1 to 64 lines from, or starts one. -/
def Dev.trainStream (d : Dev) (c owner line : Nat) : Dev :=
  let at_ (p : PfStream) : Int := (line : Int) - p.last
  let next (p : PfStream) : Bool := !p.declared && p.owner == owner && p.stride != 0 && at_ p == p.stride
  let near (p : PfStream) : Bool := !p.declared && p.owner == owner && at_ p != 0 && decide ((at_ p).natAbs ≤ 64)
  let bank (f : PfStream → Bool) : Option Nat := (List.range 16).find? (fun b => (d.sbank c b).streams.any f)
  match bank next, bank near with
  | some b, _ =>
    let k := d.sbank c b
    match k.streams.find? next with
    | none => d
    | some p => d.setSbank c b { k with
        streams := { p with last := line, count := p.count + 1, ahead := p.ahead - 1 } :: k.streams.erase p }
  | none, some b =>
    let k := d.sbank c b
    match k.streams.find? near with
    | none => d
    | some p => d.setSbank c b { k with
        streams := { p with last := line, stride := at_ p, count := 1, ahead := 0 } :: k.streams.erase p }
  | none, none =>
    d.newStream c line { owner := owner, declared := false, stride := 0, last := line, count := 0, limit := 0, ahead := 0 }

/-- Declared streams of nodes a test picks are released in a Casement. -/
def Dev.releaseStreams (d : Dev) (c : Nat) (p : Nat → Bool) : Dev :=
  (List.range 16).foldl (fun d b =>
    let k := d.sbank c b
    d.setSbank c b { k with streams := k.streams.filter (fun s => !(s.declared && p s.owner)) }) d

/-- Declared streams of nodes a test picks are released everywhere. -/
def Dev.releaseAllStreams (d : Dev) (p : Nat → Bool) : Dev :=
  if d.sill = [] then d else [0, 1, 2, 3].foldl (fun d c => d.releaseStreams c p) d

/-! ### SILL_REQUEST (R194 to R199, R211) -/

/-- A miss register issues its fill where its bank queue has room: the data is that of its arrival. Behind a queued write to
the line it is served from that write at once (R222). -/
def Dev.issueFill (d : Dev) (c : Nat) (r : MissReg) : MissReg × Dev :=
  let m := d.bankOf (r.line * 128)
  let behind := (d.mbank (mbankKey m.1 m.2.1)).queue.any (fun q => q.write && q.line == r.line)
  match d.mcEnter false r.line c with
  | some v => ({ r with queued := true, fill := some (d.lineRead r.line), served := behind }, if behind then d else v)
  | none => (r, d)

/-- Add a miss register to a bank and issue its fill. -/
def Dev.missAdd (d : Dev) (c : Nat) (r : MissReg) : Dev :=
  let v := d.issueFill c r
  let b := sillBank r.line
  let k := v.2.sbank c b
  v.2.setSbank c b { k with mrs := k.mrs ++ [v.1] }

/-- A request recalls its line into its set from the victim cache or the write-back buffer, and is served by it as a hit
(R199). -/
def Dev.recall (d : Dev) (c line : Nat) (cls : SClass) (q : SReq) : Option Dev :=
  let b := sillBank line
  let k := d.sbank c b
  match k.victims.find? (fun l => l.line = line), k.wbuf.find? (fun w => w.line.line = line) with
  | some l, _ =>
    ((d.setSbank c b { k with victims := k.victims.erase l }).install c cls
      (({ l with prefetched := false }).write q)).map (fun d =>
        ((d.fcount (F.SL_RECALL_VICTIM c) 1).ocount O.SILL_RECALLS 1).hitCount c l.prefetched)
  | none, some w =>
    let l := if w.queued then { w.line with dirty := 0, owners := [] } else w.line
    ((d.setSbank c b { k with wbuf := k.wbuf.erase w }).install c cls
      (({ l with prefetched := false }).write q)).map (fun d =>
        ((d.fcount (F.SL_RECALL_WBUF c) 1).ocount O.SILL_RECALLS 1).hitCount c l.prefetched)
  | none, none => none

/-- A write that covers its whole line. -/
def SReq.whole (q : SReq) : Bool := (List.range 128).all (fun i => q.write.any (fun p => p.1 == i))

/-- A line stands in the victim cache or the write-back buffer. -/
def SBank.recallable (k : SBank) (line : Nat) : Bool :=
  k.victims.any (fun l => l.line == line) || k.wbuf.any (fun w => w.line.line == line)

/-- Serve a request, or answer `none` where it has to wait: a hit, a recall, a whole-line write around Sill, a merge, or a
new miss register. A register with a held operation takes no further merge (R207). -/
def Dev.serve (d : Dev) (c line : Nat) (cls : SClass) (q : SReq) : Option Dev :=
  let b := sillBank line
  let k := d.sbank c b
  match (Sparse.get {} k.sets (sillSet line)).find line with
  | some (w, l) => some (d.hit c line w l q)
  | none =>
    if k.recallable line then d.recall c line cls q
    else
      match k.mrs.find? (fun r => r.line = line ∧ r.held = []) with
      | some r =>
        if 16 ≤ r.reqs.length then none
        else some ((d.setSbank c b { k with mrs := k.mrs.map (fun m =>
          if m = r then { r with reqs := r.reqs ++ [q] } else m) }).ocount O.SILL_MERGED 1)
      | none =>
        if q.whole then
          let d := [0, 1, 2, 3].foldl (fun d c => if d.sillHolds c line then d.sillSnoop c line else d) d
          (d.mcEnter true line 4).map (fun d =>
            d.memWrite (line * 128) ((List.range 128).map (fun i =>
              ((q.write.find? (fun p => p.1 = i)).map Prod.snd).getD 0)))
        else if 16 ≤ k.mrs.length then none
        else
          let d := d.missAdd c { line := line, cls := cls, reqs := [q] }
          some ((d.fcount64 (F.SL_MISS_LO_COUNT c) (F.SL_MISS_HI_COUNT c) 1).ocount O.SILL_MISSES 1)

/-- A request that waits joins its bank's list; a new miss that finds every register in use is counted (R198). -/
def Dev.hold (d : Dev) (c line : Nat) (cls : SClass) (q : SReq) (declared : Bool) : Dev :=
  let b := sillBank line
  let k := d.sbank c b
  let full := decide (16 ≤ k.mrs.length) && !k.recallable line && !q.whole
    && !k.mrs.any (fun r => r.line == line && r.held.isEmpty)
  let d := if full then (d.fcount (F.SL_STALL_MR_FULL c) 1).ocount O.SILL_MR_STALLS 1 else d
  d.setSbank c b { k with waiting := k.waiting ++ [{ line := line, cls := cls, req := q, declared := declared }] }

/-- A copy of a line in its set, the victim cache or the write-back buffer. -/
def Dev.sillCopy (d : Dev) (c line : Nat) : Option SLine :=
  let k := d.sbank c (sillBank line)
  (((Sparse.get {} k.sets (sillSet line)).find line).map Prod.snd).or
    ((k.victims.find? (fun l => l.line = line)).or ((k.wbuf.find? (fun w => w.line.line = line)).map WbLine.line))

/-- The node of a read that a poisoned line serves (R211). -/
def SReq.meets (q : SReq) (l : SLine) : List Nat := if q.write = [] ∧ l.poison ≠ 0 then [q.owner] else []

/-- Serve a request as `serve` does; its miss trains the streams of its node; with it the node that meets poison. -/
def Dev.request (d : Dev) (c line : Nat) (cls : SClass) (q : SReq) (declared : Bool) : Option (Dev × List Nat) :=
  let before := (d.sbank c (sillBank line)).mrs.length
  (d.serve c line cls q).map (fun e =>
    (if declared = false ∧ before < (e.sbank c (sillBank line)).mrs.length then e.trainStream c q.owner line else e,
     match d.sillCopy c line with
     | some l => q.meets l
     | none => []))

/-- Waiting requests of a bank are served in order; one that still cannot be stays. With it the nodes that meet poison. -/
def Dev.serveWaiting (d : Dev) (c b : Nat) : List SWait → List SWait → List Nat → Dev × List Nat
  | [], keep, bad => let k := d.sbank c b; (d.setSbank c b { k with waiting := keep }, bad)
  | w :: rest, keep, bad =>
    match d.request c w.line w.cls w.req w.declared with
    | some v => v.1.serveWaiting c b rest keep (bad ++ v.2)
    | none => d.serveWaiting c b rest (keep ++ [w]) bad

/-- The requests that wait in a bank are tried again. -/
def Dev.retryWaiting (d : Dev) (c b : Nat) : Dev × List Nat :=
  let k := d.sbank c b
  if k.waiting = [] then (d, []) else (d.setSbank c b { k with waiting := [] }).serveWaiting c b k.waiting [] []

/-- The syndrome of a Sill, memory or Threshold source (R423). -/
def memSyndrome (addr bank ecc : Nat) : Nat := addr % 2 ^ 48 + bank % 2 ^ 7 * 2 ^ 48 + ecc * 2 ^ 56

/-- A corrected or refetched line is counted. -/
def Dev.sillCorrected (d : Dev) (c syn : Nat) (inj : Bool) : Dev :=
  ((d.fcount (F.SL_ECC_CORRECTED c) 1).ocount O.SILL_CORRECTED 1).faultRaise (casSource c 0) syn inj

/-- The handling of an error that a look-up of a line meets (R211): in the line's data where its set holds it, or in the tags of
the set. -/
def Dev.sillError (d : Dev) (c line : Nat) (e : SillErr) (inj : Bool) : Dev :=
  let b := sillBank line
  let i := sillSet line
  let k := d.sbank c b
  let s := Sparse.get {} k.sets i
  match e, s.find line with
  | .single _ _, none => d
  | .double _ _, none => d
  | .single word syn, some _ => d.sillCorrected c (memSyndrome (line * 128 + word.toNat * 8) b syn.toNat) inj
  | .double word syn, some (w, l) =>
    let at_ := memSyndrome (line * 128 + word.toNat * 8) b syn.toNat
    if l.dirty = 0 then
      (d.setSbank c b { k with sets := Sparse.set {} k.sets i (s.drop line) }).sillCorrected c at_ inj
    else
      let m := { l with poison := setBit l.poison (word.toNat / 4) true }
      let d := d.setSbank c b { k with sets := Sparse.set {} k.sets i (s.put w m) }
      ((d.fcount (F.SL_ECC_POISONED c) 1).ocount O.SILL_POISONED 1).faultRaise (casSource c 1) at_ inj
  | .tagOne, _ => d.faultRaise (casSource c 2) (memSyndrome (line * 128) b 0) inj
  | .tagBoth, _ =>
    (d.setSbank c b { k with sets := Sparse.set {} k.sets i {} }).faultRaise (casSource c 3) (memSyndrome (line * 128) b 0) inj

/-- The error an armed injection makes the check of a line see (R432); in which word, and with what syndrome, is open (assumption
log 10). -/
def Dev.sillInjected (d : Dev) (c : Nat) : Option SillErr :=
  let one := d.fget F.FI_CTL_BITS == 1
  let k := d.draw.1
  if d.fiFires (casSource c 0) || d.fiFires (casSource c 1) then
    some (if one then .single k (k / 16 : Nat) else .double k (k / 16 : Nat))
  else if d.fiFires (casSource c 2) || d.fiFires (casSource c 3) then some (if one then .tagOne else .tagBoth)
  else none

/-- The check that an error concerns is made: of data only where a set holds the line. -/
def SillErr.checked (e : SillErr) (held : Bool) : Bool :=
  match e with
  | .single _ _ => held
  | .double _ _ => held
  | .tagOne => true
  | .tagBoth => true

/-- SILL_REQUEST: a read, or a write of bytes of one line, by a node of Casement c; `limit` is the line past the end of the
declared stream it belongs to, and `err` an error that its look-up meets in a set that holds lines. With it the nodes that
meet poison. -/
def Dev.sillRequest (d : Dev) (c owner pane line : Nat) (cls : SClass) (limit : Option Nat) (write : List (Nat × Byte))
    (err : Option SillErr) : Dev × List Nat :=
  if d.casUp c = false ∨ d.halted = true ∨ d.implemented (line * 128) = false then (d, [])
  else
    let v := d.retryWaiting c (sillBank line)
    let d := v.1
    let d := if (Sparse.get {} (d.sbank c (sillBank line)).sets (sillSet line)).ways = [] then d
      else match err, d.sillInjected c with
        | some e, _ => d.sillError c line e false
        | none, some e =>
          if e.checked ((Sparse.get {} (d.sbank c (sillBank line)).sets (sillSet line)).find line).isSome then
            (d.draw.2.sillError c line e true).fiConsume
          else d
        | none, none => d
    let q : SReq := { pane := pane, owner := owner, write := write }
    let cls := if write = [] then cls else .table
    let r := match d.request c line cls q limit.isSome with
      | some r => r
      | none => (d.hold c line cls q limit.isSome, [])
    (match limit with
      | some e => r.1.declareStream c owner line e
      | none => r.1, v.2 ++ r.2)

/-! ### Reads of a strip (R67, R68) -/

/-- Bytes that Casement c reads at an address: those its Sill holds, and memory's. -/
def Dev.viewBytes (d : Dev) (c a n : Nat) : Bytes :=
  if d.sill = [] then d.engBytes a n
  else
    ((linesOf a n).flatMap (fun line =>
      let lo := max a (line * 128)
      let hi := min (a + n) (line * 128 + 128)
      match d.sillCopy c line with
      | some l => sliceAt l.data (lo - line * 128) (hi - lo)
      | none => d.engBytes lo (hi - lo))).take n

/-- A read of n bytes by Casement c meets poison. -/
def Dev.viewPoison (d : Dev) (c a n : Nat) : Bool :=
  (sectorsOf a n).any (fun s => match d.sillCopy c (s / 128) with
    | some l => bitAt l.poison (s % 128 / 32)
    | none => d.poisonedAt s)

/-- A bank's write-back buffer gets room: its oldest line goes to memory. -/
def Dev.wbRoom (d : Dev) (c b : Nat) : Dev :=
  let k := d.sbank c b
  match k.wbuf.getLast? with
  | some w =>
    if k.wbuf.length < 16 then d
    else (if w.queued then d else d.writeBack c w.line).setSbank c b { k with wbuf := k.wbuf.dropLast }
  | none => d

/-- A Pane reads a line of a strip, whose fill completes within the read: a hit, a recall, a merge into the fill in flight, or a
miss that installs the line (R198, R199). -/
def Dev.stripLine (d : Dev) (c owner pane line : Nat) (cls : SClass) (limit : Option Nat) : Dev :=
  if d.implemented (line * 128) = false then d
  else
    let b := sillBank line
    let d := d.wbRoom c b
    let k := d.sbank c b
    let q : SReq := { pane := pane, owner := owner }
    let held := ((Sparse.get {} k.sets (sillSet line)).find line).isSome || k.recallable line
      || k.mrs.any (fun r => r.line == line && r.held.isEmpty)
    let d :=
      if held then (d.serve c line cls q).getD d
      else
        let f := d.lineRead line
        let e := (d.install c cls { line := line, data := f.1, poison := f.2 }).getD d
        let e := (e.fcount64 (F.SL_MISS_LO_COUNT c) (F.SL_MISS_HI_COUNT c) 1).ocount O.SILL_MISSES 1
        if limit.isSome then e else e.trainStream c owner line
    match limit with
    | some e => d.declareStream c owner line e
    | none => d

/-- A Pane reads n bytes at a of a buffer that a declared stream ends at `stop`. -/
def Dev.stripRead (d : Dev) (c owner pane a n stop : Nat) : Dev :=
  (linesOf a n).foldl (fun d line => d.stripLine c owner pane line .stream (some ((stop + 127) / 128))) d

/-! ### SILL_FILL_LAND (R198, R207) -/

/-- A CACHE_MAINT's counts change as one of its held operations acts. -/
def Dev.maintActs (d : Dev) (cmd : Option Nat) (written dropped : Nat) : Dev :=
  match cmd with
  | none => d
  | some id => { d with maint := d.maint.map (fun m =>
      if m.cmd = id then { m with waits := m.waits - 1, written := m.written + written, dropped := m.dropped + dropped } else m) }

/-- A held operation acts on the line of its fill; `none`: the line is not installed. -/
def Dev.heldAct (d : Dev) (c : Nat) (l : Option SLine) (h : HeldOp) : Option SLine × Dev :=
  let dirty := l.any (fun l => l.dirty != 0)
  let flush (d : Dev) : Dev := match l with
    | some l => if dirty then d.writeBack c l else d
    | none => d
  match h with
  | .flush cmd => (l.map (fun l => { l with dirty := 0, owners := [] }), (flush d).maintActs cmd (b2n dirty) 0)
  | .load cmd => (l, d.maintActs cmd 0 0)
  | .drop cmd => (none, d.maintActs cmd 0 (b2n l.isSome))
  | .flushDrop cmd => (none, (flush d).maintActs cmd (b2n dirty) (b2n l.isSome))

/-- CACHE_MAINT operations whose held operations have all acted complete (R210). -/
def Dev.maintEnd (d : Dev) : Dev :=
  let ended := d.maint.filter (fun m => m.waits = 0)
  let d := { d with maint := d.maint.filter (fun m => m.waits ≠ 0) }
  ended.foldl (fun d m => d.finish m.cmd 0 (result4 m.written m.dropped m.loaded (b2n m.skipped)) 0) d

/-- A line leaves the place where its Sill holds it, with what of it memory lacks. -/
def Dev.takeCopy (d : Dev) (c line : Nat) : Option (SLine × Dev) :=
  let b := sillBank line
  let k := d.sbank c b
  let s := Sparse.get {} k.sets (sillSet line)
  match s.find line, k.victims.find? (fun l => l.line = line), k.wbuf.find? (fun w => w.line.line = line) with
  | some (_, l), _, _ => some (l, d.setSbank c b { k with sets := Sparse.set {} k.sets (sillSet line) (s.drop line) })
  | none, some l, _ => some (l, d.setSbank c b { k with victims := k.victims.erase l })
  | none, none, some w => some (if w.queued then { w.line with dirty := 0, owners := [] } else w.line,
      d.setSbank c b { k with wbuf := k.wbuf.erase w })
  | none, none, none => none

/-- SILL_FILL_LAND: the oldest served register of a line lands. The merged requests have its data, or that of the copy which
an earlier register has installed; the held operations act in order, and the line is installed or not; one whose place
cannot be freed waits. With it the nodes that meet poison. -/
def Dev.fillLand (d : Dev) (c line : Nat) : Dev × List Nat :=
  let b := sillBank line
  let k := d.sbank c b
  match k.mrs.find? (fun r => r.line = line ∧ r.served) with
  | none => (d, [])
  | some r =>
    let f := r.fill.getD ([], 0)
    let t := (d.takeCopy c line).getD
      ({ line := line, data := fit 128 f.1, poison := f.2, prefetched := r.prefetch && r.reqs.isEmpty }, d)
    let m := r.reqs.foldl (fun (a : SLine × List Nat) q => (a.1.write q, a.2 ++ q.meets a.1)) (t.1, [])
    let v := r.held.foldl (fun (a : Option SLine × Dev) h => a.2.heldAct c a.1 h) (some m.1, t.2)
    match (match v.1 with
      | some l => v.2.install c (if r.reqs.any (fun q => q.write ≠ []) then .table else r.cls) l
      | none => some v.2) with
    | none => (d, [])
    | some d =>
      let k := d.sbank c b
      let w := (d.setSbank c b { k with mrs := k.mrs.erase r }).retryWaiting c b
      (w.1.maintEnd, m.2 ++ w.2)

/-! ### SILL_PREFETCH (R203, R204) -/

/-- The line a stream prefetches next, if it may. -/
def PfStream.target (p : PfStream) (distance confirm : Nat) : Option Nat :=
  let t : Int := p.last + p.stride * (p.ahead + 1)
  let line := t.toNat
  if p.stride = 0 ∨ distance ≤ p.ahead ∨ t < 0 then none
  else if p.declared then (if line < p.limit then some line else none)
  else if confirm ≤ p.count ∧ line / 16384 = p.last / 16384 then some line
  else none

/-- SILL_PREFETCH: a stream of a bank fetches its next line ahead; a line that is present or in flight, or one that finds no
register, is dropped. -/
def Dev.sillPrefetch (d : Dev) (c b i : Nat) : Dev :=
  let k := d.sbank c b
  match k.streams[i]? with
  | none => d
  | some p =>
    if d.fgetB (F.SL_CTL_PF_EN c) = false ∨ d.casUp c = false ∨ d.halted = true then d
    else
      match p.target (d.pfDistance c) (d.pfConfirm c) with
      | none => d
      | some line =>
        let d := d.setSbank c b { k with streams := k.streams.set i { p with ahead := p.ahead + 1 } }
        let t := d.sbank c (sillBank line)
        if d.sillHolds c line || decide (d.pfLimit c ≤ (t.mrs.filter MissReg.prefetch).length) || decide (16 ≤ t.mrs.length)
            || !d.implemented (line * 128) then d
        else
          let d := d.missAdd c { line := line, cls := if p.declared then .stream else .table, prefetch := true }
          (d.fcount (F.SL_PF_ISSUED c) 1).ocount O.SILL_PF_ISSUED 1

/-! ### CACHE_MAINT (R205 to R210) -/

/-- What one maintenance operation did: lines written back, dropped and loaded, and operations held. -/
structure MaintSum where
  written : Nat := 0
  dropped : Nat := 0
  loaded : Nat := 0
  held : Nat := 0
deriving DecidableEq, Repr

/-- The lines a Sill holds anywhere, and those with a fill outstanding. -/
def SBank.lines (k : SBank) : List Nat :=
  (k.sets.flatMap (fun s => s.2.ways.filterMap (fun w => w.2.map SLine.line))
    ++ k.victims.map SLine.line ++ k.wbuf.map (fun w => w.line.line) ++ k.mrs.map MissReg.line).eraseDups

/-- Whether a line is touched by n bytes at a, and whether it lies wholly inside them. -/
def lineTouched (a n line : Nat) : Bool := decide (line * 128 < a + n ∧ a < line * 128 + 128)
/-- Whether a line lies wholly inside n bytes at a. -/
def lineInside (a n line : Nat) : Bool := decide (a ≤ line * 128 ∧ line * 128 + 128 ≤ a + n)

/-- One line of one Sill under FLUSH (op 0), INVALIDATE (1) or FLUSH_INVALIDATE (2); `inside` where INVALIDATE may lose its
dirty words. -/
def Dev.maintLine (d : Dev) (c line op cmd : Nat) (inside : Bool) (m : MaintSum) : MaintSum × Dev :=
  let b := sillBank line
  let k := d.sbank c b
  let i := sillSet line
  let s := Sparse.get {} k.sets i
  let flush := op != 1 || !inside
  let drop := op != 0
  let inSet := s.find line
  let wb := k.wbuf.find? (fun w => w.line.line = line)
  let vic := k.victims.find? (fun l => l.line = line)
  let mr := k.mrs.any (fun r => r.line = line)
  let stale := flush && d.otherDirty c line
  let d := match inSet with
    | some (_, l) => if flush && l.dirty != 0 then d.writeBack c l else d
    | none => d
  let d := match wb with
    | some w => if flush && !w.queued then d.writeBack c w.line else d
    | none => d
  let wrote := (match inSet with
      | some (_, l) => flush && l.dirty != 0
      | none => false) || (match wb with
      | some w => flush && !w.queued
      | none => false)
  let s := match inSet with
    | some (w, l) => if drop || (stale && l.dirty != 0) then s.drop line
      else if flush then s.put w { l with dirty := 0, owners := [] } else s
    | none => s
  let held : HeldOp := if op = 0 then .flush (some cmd) else if flush then .flushDrop (some cmd) else .drop (some cmd)
  let n := (k.mrs.filter (fun r => r.line = line)).length
  let d := d.setSbank c b { k with
    sets := Sparse.set {} k.sets i s
    victims := if drop then k.victims.filter (fun l => l.line ≠ line) else k.victims
    wbuf := k.wbuf.filter (fun w => w.line.line ≠ line)
    mrs := k.mrs.map (fun r => if r.line = line then { r with held := r.held ++ [held] } else r) }
  ({ m with written := m.written + b2n wrote
            dropped := m.dropped + b2n (drop && (inSet.isSome || wb.isSome || vic.isSome))
            held := m.held + (if mr then n else 0) }, d)

/-- PRELOAD of one line: fetched and installed in the ways of the class where it is absent; the oldest write-back makes
room where the buffer is full. With a fill outstanding it is held until that lands (R207). -/
def Dev.preloadLine (d : Dev) (c line : Nat) (cls : SClass) (cmd : Nat) (m : MaintSum) : MaintSum × Dev :=
  let b := sillBank line
  let k := d.sbank c b
  if k.mrs.any (fun r => r.line == line) then
    ({ m with held := m.held + (k.mrs.filter (fun r => r.line = line)).length },
     d.setSbank c b { k with mrs := k.mrs.map (fun r =>
       if r.line = line then { r with held := r.held ++ [.load (some cmd)] } else r) })
  else if d.sillHolds c line || !d.implemented (line * 128) || d.ways c cls == 0 then (m, d)
  else
    let d := d.wbRoom c b
    let f := d.lineRead line
    match d.install c cls { line := line, data := f.1, poison := f.2 } with
    | some d => ({ m with loaded := m.loaded + 1 }, d)
    | none => (m, d)

/-- PRELOAD walks k lines upward from a line. -/
def Dev.preloadWalk (d : Dev) (c : Nat) (cls : SClass) (cmd : Nat) (m : MaintSum) : Nat → Nat → MaintSum × Dev
  | _, 0 => (m, d)
  | line, k + 1 =>
    let v := d.preloadLine c line cls cmd m
    v.2.preloadWalk c cls cmd v.1 (line + 1) k

/-- A Sill maintenance passes over: fenced, gated or under activation (R210). -/
def Dev.sillAway (d : Dev) (c : Nat) : Bool := !d.casUp c

/-- The command that a held operation belongs to. -/
def HeldOp.cmd (h : HeldOp) : Option Nat :=
  match h with
  | .flush cmd => cmd
  | .drop cmd => cmd
  | .flushDrop cmd => cmd
  | .load cmd => cmd

/-- CACHE_MAINT. -/
def Dev.cacheMaint (d : Dev) (id op : Nat) : Dev :=
  match d.running id opCacheMaint with
  | none => d
  | some k =>
    let e := k.entry
    let all := fieldAt e 17 1 == 1
    let mask := fieldAt e 18 1
    let a := fieldAt e 24 8
    let n := fieldAt e 32 8
    if fieldAt e 16 1 ≠ op ∨ d.maint.any (fun m => m.cmd = id) = true then d
    else
      let cas := (setBits mask 4).filter (fun c => !d.sillAway c)
      let v := cas.foldl (fun (acc : MaintSum × Dev) c =>
        if op = 3 then
          let cls : SClass := if fieldAt e 19 1 = 0 then .stream else .table
          acc.2.preloadWalk c cls id acc.1 (a / 128) ((a + n - 1) / 128 + 1 - a / 128)
        else
          (((List.range 16).flatMap (fun b => (acc.2.sbank c b).lines)).filter (fun l => all || lineTouched a n l)).foldl
            (fun (acc : MaintSum × Dev) line => acc.2.maintLine c line op id (all || lineInside a n line) acc.1) acc)
        (({} : MaintSum), d)
      let m : Maint := { cmd := id, mask := cas.foldl (fun m c => m + 2 ^ c) 0, waits := v.1.held, written := v.1.written
                         dropped := v.1.dropped, loaded := v.1.loaded, skipped := cas.length != popCount mask 4 }
      ({ v.2 with maint := v.2.maint ++ [m] }).maintEnd

/-! ### Boundary commits (R202) -/

/-- Writes of a node that Casement c's Sill has not merged into a line yet. -/
def Dev.writesWait (d : Dev) (c owner : Nat) : Bool :=
  let mine (q : SReq) : Bool := q.owner == owner && !q.write.isEmpty
  (List.range 16).any (fun b => let k := d.sbank c b
    k.mrs.any (fun r => r.reqs.any mine) || k.waiting.any (fun w => mine w.req))

/-- The lines of a bank that a node has changed since its last boundary are written to memory and stay clean; a line of which
another Sill held words dirty leaves. -/
def Dev.commitBank (d : Dev) (c owner b : Nat) : Dev :=
  let mine (l : SLine) : Bool := l.dirty != 0 && l.owners.contains owner
  let k := d.sbank c b
  let d := (k.sets.flatMap (fun s => s.2.ways.filterMap Prod.snd)).foldl (fun (d : Dev) l =>
    if mine l = false then d
    else
      let stale := d.otherDirty c l.line
      let d := d.writeBack c l
      let k := d.sbank c b
      let s := Sparse.get {} k.sets (sillSet l.line)
      match s.find l.line with
      | some (w, m) =>
        let s := if stale then s.drop l.line else s.put w { m with dirty := 0, owners := [] }
        d.setSbank c b { k with sets := Sparse.set {} k.sets (sillSet l.line) s }
      | none => d) d
  (k.wbuf.filter (fun w => !w.queued && mine w.line)).foldl (fun (d : Dev) w =>
    let d := d.writeBack c w.line
    let k := d.sbank c b
    d.setSbank c b { k with wbuf := k.wbuf.erase w }) d

/-- A node's boundary commits what it has written to Casement c's Sill. -/
def Dev.commitLines (d : Dev) (c owner : Nat) : Dev :=
  if d.sill = [] then d else (List.range 16).foldl (fun d b => d.commitBank c owner b) d

/-- CACHE_MAINT operations in progress in a Sill (R213): those held in one of its miss registers. -/
def Dev.maintActive (d : Dev) (c : Nat) : Nat :=
  let ops := (List.range 16).flatMap (fun b => (d.sbank c b).mrs.flatMap (fun r => r.held.filterMap HeldOp.cmd))
  (d.maint.filter (fun m => ops.contains m.cmd)).length

/-! ### Service events (R212) -/

/-- A bank's dirty lines, the writes merged into its miss registers and those that wait go to memory. -/
def Dev.flushBank (d : Dev) (c b : Nat) : Dev :=
  let k := d.sbank c b
  let held := k.sets.flatMap (fun s => s.2.ways.filterMap Prod.snd)
  let d := held.foldl (fun (d : Dev) l => if l.dirty = 0 then d else d.writeOut c l) d
  let d := k.wbuf.foldl (fun (d : Dev) w => if w.queued then d else d.writeOut c w.line) d
  let put (d : Dev) (line : Nat) (q : SReq) : Dev :=
    if q.write = [] then d else d.writeOut c (({ line := line, data := (d.lineRead line).1 } : SLine).write q)
  let d := k.mrs.foldl (fun (d : Dev) r => r.reqs.foldl (fun (d : Dev) q => put d r.line q) d) d
  k.waiting.foldl (fun (d : Dev) w => put d w.line w.req) d

/-- A Sill is emptied: flush-invalidated, or dropped without write-back. Operations held on its fills have nothing to act
on any more. -/
def Dev.sillClear (d : Dev) (c : Nat) (flush : Bool) : Dev :=
  (List.range 16).foldl (fun (d : Dev) b =>
    let k := d.sbank c b
    let d := if flush then d.flushBank c b else d
    let ops := (k.mrs.flatMap MissReg.held).map HeldOp.cmd
    (ops.foldl (fun d cmd => d.maintActs cmd 0 0) d).setSbank c b {}) d |>.maintEnd

end Sys2Proof.Machine
end

