-- ==== Sys2Proof/Machine/MemCtl.lean ====
section
/-!
DEFINITION. The memory controllers (09): service of requests, refresh, power-down, temperatures, retraining, errors,
scrub and the retirement of channels.
-/

namespace Sys2Proof.Machine

/-! ### Channels -/

/-- The channel of a pseudo-channel or sub-channel (R229). -/
def subChannel (s : Nat) : Nat := s / 2

/-- A channel's memory is in service. -/
def Dev.chanUp (d : Dev) (ch : Nat) : Bool :=
  if ch < 96 then bitAt d.mem.nearUp (ch / 16) else bitAt d.mem.farUp (ch - 96)

/-- The temperature of a channel's stack or DIMM. -/
def Dev.chanTemp (d : Dev) (ch : Nat) : Nat :=
  if ch < 96 then Sparse.get 0 d.mem.nearTemp (ch / 16) else Sparse.get 0 d.mem.farTemp (ch - 96)

/-- Channels under retraining and waiting for it: near or far. -/
def Dev.retrains (d : Dev) (far : Bool) : List Nat := if far then d.mem.retrainFar else d.mem.retrainNear

/-- Put the list of retrains of a memory; the first is the one that runs. -/
def Dev.setRetrains (d : Dev) (far : Bool) (l : List Nat) : Dev :=
  let d : Dev := { d with mem := if far then { d.mem with retrainFar := l } else { d.mem with retrainNear := l } }
  match l with
  | [] => d
  | ch :: _ => d.setChan ch { d.chan ch with state := 1 }

/-- The controller issues nothing to a channel that retrains, and nothing in self-refresh. A halt does not stop it (R430). -/
def Dev.subBlocked (d : Dev) (s : Nat) : Bool :=
  let ch := subChannel s
  d.mem.selfRefresh || !d.chanUp ch || (d.retrains (decide (96 ≤ ch))).head? == some ch

/-! ### Errors (R231) -/

/-- A near channel has had an uncorrected error: its 16th within one hour is its failure (R233). -/
def Dev.nearUncorrected (d : Dev) (ch : Nat) : Dev :=
  let x := d.chan ch
  let l := d.timeBase :: x.errors.filter (fun t => decide (d.timeBase < t + 3600 * 10 ^ 9))
  if l.length < 16 then d.setChan ch { x with errors := l }
  else (d.setChan ch { x with errors := [] }).faultRaise 450 (memSyndrome 0 ch 0) false

/-- An error found in memory: counted and raised, and where it cannot be corrected the sector, in far memory both sectors
of its burst, poisoned. A remapped channel's data lies in far memory (R234). -/
def Dev.memError (d : Dev) (line : Nat) (e : MemErr) (inj : Bool) : Dev :=
  let a := line * 128 + e.sector.toNat * 32
  let at_ := d.physical a
  let ch := d.chanOf at_
  let syn := memSyndrome a ch e.ecc.toNat
  let far := decide (Config.farBase ≤ at_)
  if e.bad then
    let d := if far then (d.poison (a / 64 * 64)).poison (a / 64 * 64 + 32) else d.poison a
    let d := if far then (d.fcount F.MC_ECC_FAR_UNCORRECTED 1).ocount O.FAR_UNCORRECTED 1
      else (d.fcount F.MC_ECC_NEAR_UNCORRECTED 1).ocount O.NEAR_UNCORRECTED 1
    let d := d.faultRaise (if far then 452 else 449) syn inj
    if far then d else d.nearUncorrected ch
  else
    let d := if far then (d.fcount F.MC_ECC_FAR_CORRECTED 1).ocount O.FAR_CORRECTED 1
      else (d.fcount F.MC_ECC_NEAR_CORRECTED 1).ocount O.NEAR_CORRECTED 1
    d.faultRaise (if far then 451 else 448) syn inj

/-- The error an armed injection makes the code of a memory see (R432); in which sector, and with what syndrome, is open
(assumption log 10). -/
def Dev.memInjected (d : Dev) (far : Bool) : Option MemErr :=
  let k := if far then 451 else 448
  if d.fiFires k || d.fiFires (k + 1) then some { sector := d.draw.1, bad := d.fget F.FI_CTL_BITS != 1, ecc := (d.draw.1 / 4 : Nat) }
  else none

/-! ### MEMORY_REQUEST (R221 to R223, R225) -/

/-- Writes and fills that wait upstream for a bank of sub-channel s enter its queues while there is room: write-back
buffers oldest first, then miss registers. -/
def Dev.mcUpstream (d : Dev) (s : Nat) : Dev :=
  (d.sill.map Prod.fst).foldl (fun d key =>
    let c := key / 16
    let b := key % 16
    let mine (line : Nat) : Bool := (d.bankOf (line * 128)).1 == s
    let d := ((d.sbank c b).wbuf.reverse.filter (fun w => !w.queued && mine w.line.line)).foldl (fun d w =>
      match d.mcEnter true w.line.line c with
      | none => d
      | some d =>
        let k := d.sbank c b
        (d.setSbank c b { k with wbuf := k.wbuf.map (fun v => if v = w then { v with queued := true } else v) }).writeBack c w.line) d
    ((d.sbank c b).mrs.filter (fun r => !r.queued && mine r.line)).foldl (fun d r =>
      let v := d.issueFill c r
      let k := v.2.sbank c b
      v.2.setSbank c b { k with mrs := k.mrs.map (fun m => if m = r then v.1 else m) }) d) d

/-- Requests of a bank that no earlier request to the same line precedes (R222). -/
def readyOf : List MReq → List Nat → List MReq
  | [], _ => []
  | q :: rest, seen => if seen.contains q.line then readyOf rest seen else q :: readyOf rest (q.line :: seen)

/-- The request a bank would serve, and its count of open-row requests taken ahead of older ones (R221). -/
def Bank.pick (b : Bank) (writing : Bool) : Option (MReq × Nat) :=
  let ready := readyOf b.queue []
  let reads := ready.filter (fun q => !q.write)
  let writes := ready.filter MReq.write
  let l := if writing ∧ writes ≠ [] then writes else if reads = [] then ready else reads
  match l with
  | [] => none
  | q :: _ =>
    match if b.hits < 4 then l.find? (fun r => b.open_ = some r.row) else none with
    | some r => some (r, if r = q then 0 else b.hits + 1)
    | none => some (q, 0)

/-- Writes queued at a pseudo-channel or sub-channel. -/
def Dev.writesAt (d : Dev) (s : Nat) : Nat :=
  ((d.mem.banks.filter (fun b => b.1 / 256 == s)).map (fun b => (b.2.queue.filter MReq.write).length)).sum

/-- A served fill reaches its miss register, with the poison of an error just found; a served write-back leaves its
buffer. -/
def Dev.mcServed (d : Dev) (q : MReq) : Dev :=
  if 4 ≤ q.cas then d
  else
    let b := sillBank q.line
    let k := d.sbank q.cas b
    if q.write then
      match k.wbuf.reverse.find? (fun w => w.line.line = q.line ∧ w.queued) with
      | some w => d.setSbank q.cas b { k with wbuf := k.wbuf.erase w }
      | none => d
    else
      match k.mrs.find? (fun r => r.line = q.line ∧ r.queued ∧ r.served = false) with
      | some r =>
        let p := (d.lineRead q.line).2
        d.setSbank q.cas b { k with mrs := k.mrs.map (fun m =>
          if m = r then { r with served := true, fill := r.fill.map (fun f => (f.1, f.2 ||| p)) } else m) }
      | none => d

/-- At an activate the rows beside it are refreshed with probability 2^-k, by a fresh value (R225). -/
def Dev.neighbour (d : Dev) (s : Nat) : Dev :=
  let v := d.draw
  if v.1 % 2 ^ (d.sub s).activeK = 0 then v.2.ocount O.NEIGHBOUR_REFRESHES 1 else v.2

/-- The rank of a bank: one in near memory; in far memory granules rotate through bank groups, ranks, banks (R217). -/
def Dev.rankOf (d : Dev) (s b : Nat) : Nat := if s < 192 then 0 else b / 8 % d.mem.farRanks

/-- The requests that wait in the Sills are tried again. With it the nodes that meet poison. -/
def Dev.retryAll (d : Dev) : Dev × List Nat :=
  (d.sill.map Prod.fst).foldl (fun (a : Dev × List Nat) key =>
    let v := a.1.retryWaiting (key / 16) (key % 16)
    (v.1, a.2 ++ v.2)) (d, [])

/-- A controller serves one queued request of a pseudo-channel or sub-channel. -/
def Dev.mcServe (d : Dev) (s : Nat) (err : Option MemErr) : Dev :=
  if d.subBlocked s then d
  else
    let d := d.mcUpstream s
    let x := d.sub s
    let n := d.writesAt s
    let writing := if 12 ≤ n then true else if n ≤ 4 then false else x.writing
    let order := (List.range 256).map (fun i => (x.lastBank + 1 + i) % 256)
    match order.findSome? (fun b => ((d.mbank (mbankKey s b)).pick writing).map (fun p => (b, p))) with
    | none => d.setSub s { x with writing := writing }
    | some (b, q, hits) =>
      let k := mbankKey s b
      let y := d.mbank k
      let act := decide (y.open_ ≠ some q.row)
      let d := d.setMbank k { queue := y.queue.erase q, open_ := some q.row, hits := hits }
      let d := d.setSub s { x with writing := writing, lastBank := b, powerDown := setBit x.powerDown (d.rankOf s b) false }
      let d := if act then d.neighbour s else d
      let d := if q.write then d
        else
          match err, d.memInjected (decide (192 ≤ s)) with
          | some e, _ => d.memError q.line e false
          | none, some e => (d.draw.2.memError q.line e true).fiConsume
          | none, none => d
      d.mcServed q

/-- MEMORY_REQUEST: a controller serves one queued request, and what waited for the room it had goes on. -/
def Dev.memRequest (d : Dev) (s : Nat) (err : Option MemErr) : Dev × List Nat := (d.mcServe s err).retryAll

/-! ### Refresh, power-down, temperature (R220, R224 to R226) -/

/-- The rows of the banks of s that a test picks are closed. -/
def Dev.closeRows (d : Dev) (s : Nat) (p : Nat → Bool) : Dev :=
  { d with mem := { d.mem with banks := d.mem.banks.filterMap (fun (b : Nat × Bank) =>
      if b.1 / 256 = s ∧ p (b.1 % 256) = true then
        (let y : Bank := { b.2 with open_ := none, hits := 0 }
         if y = ({} : Bank) then none else some (b.1, y))
      else some b) } }

/-- k within its range (R225). -/
def clampK (k : Nat) : Nat := max 8 (min 14 k)

/-- REFRESH_INTERVAL: an all-bank refresh; the shadows of k and of the timing override take effect (R403). -/
def Dev.refreshInterval (d : Dev) (s : Nat) : Dev :=
  if d.mem.selfRefresh = true ∨ d.chanUp (subChannel s) = false then d
  else
    let far := decide (192 ≤ s)
    let mine := d.fgetB F.MC_TOVR_FAR == far
    let d := d.closeRows s (fun _ => true)
    d.setSub s { d.sub s with
      activeK := clampK (d.fget (if far then F.MC_CTL_FAR_K else F.MC_CTL_NEAR_K))
      tovr := if mine then d.fget F.MC_TOVR_PARAM else 0
      tovrValue := if mine then d.fget F.MC_TOVR_VALUE else 0 }

/-- POWER_DOWN_TIMEOUT: a pseudo-channel, or a rank of a far sub-channel, without requests enters power-down with its rows
closed. -/
def Dev.powerDown (d : Dev) (s rank : Nat) : Dev :=
  let timer := d.fget (if s < 192 then F.MC_PD_NEAR_NS else F.MC_PD_FAR_NS)
  let here (b : Nat) : Bool := d.rankOf s b == rank
  if timer = 0 ∨ d.mem.selfRefresh = true ∨ d.chanUp (subChannel s) = false
      ∨ rank ≥ (if s < 192 then 1 else d.mem.farRanks)
      ∨ d.mem.banks.any (fun b => b.1 / 256 == s && here (b.1 % 256) && !b.2.queue.isEmpty) = true then d
  else
    let d := d.closeRows s here
    d.setSub s { d.sub s with powerDown := setBit (d.sub s).powerDown rank true }

/-- Hot above 85 °C, normal again when every one is at 82 °C or less. -/
def hotNow (was : Bool) (temps : List Nat) : Bool :=
  if temps.any (fun t => decide (85 < t)) then true else if temps.all (fun t => decide (t ≤ 82)) then false else was

/-- MEMORY_HOT: stack u (below 6) or the DIMMs of far channel u - 6 read a temperature. -/
def Dev.memoryTemp (d : Dev) (u t : Nat) : Dev :=
  if u < 6 then
    let temps := Sparse.set 0 d.mem.nearTemp u t
    { d with mem := { d.mem with nearTemp := temps, nearHot := hotNow d.mem.nearHot (temps.map Prod.snd) } }
  else
    let temps := Sparse.set 0 d.mem.farTemp (u - 6) t
    { d with mem := { d.mem with farTemp := temps, farHot := hotNow d.mem.farHot (temps.map Prod.snd) } }

/-! ### Retraining (R229, R230) -/

/-- A retrain is requested: it runs, or waits its turn; a channel already retraining, being copied or out of service takes
no other. -/
def Dev.retrainRequest (d : Dev) (ch : Nat) (asked : Bool) : Dev :=
  if 104 ≤ ch ∨ d.chanUp ch = false then d
  else
    let far := decide (96 ≤ ch)
    let l := d.retrains far
    let x := d.chan ch
    if l.contains ch then d.setChan ch { x with requested := x.requested || asked }
    else if x.state = 2 ∨ x.state = 3 ∨ x.state = 4 then d
    else (d.setChan ch { x with requested := asked, retried := false }).setRetrains far (l ++ [ch])

/-- RETRAIN_DELTA within its range; 0 disables. -/
def Dev.retrainDelta (d : Dev) : Nat :=
  let v := d.oget O.RETRAIN_DELTA
  if v = 0 then 0 else max 2 (min 40 v)

/-- MC_RETRAIN_GO. The temperature trigger needs a move by more than RETRAIN_DELTA since the channel last trained. -/
def Dev.retrainGo (d : Dev) : RetrainCause → Dev
  | .software ch => (d.fput F.MC_RETRAIN_CHANNEL ch.toNat).retrainRequest ch.toNat true
  | .temperature ch =>
    let t := d.chanTemp ch.toNat
    let u := (d.chan ch.toNat).trainedAt
    if d.retrainDelta ≠ 0 ∧ d.retrainDelta < (t - u) + (u - t) then d.retrainRequest ch.toNat false else d
  | .errorBurst ch => d.retrainRequest ch.toNat false

/-! ### Retirement (R234) -/

/-- Put a channel's state, recorded where it survives resets. -/
def Dev.recordChan (d : Dev) (ch st : Nat) : Dev :=
  ((d.setChan ch { d.chan ch with state := st }).oput (O.CH_STATE ch) st).persistWrite

/-- Bytes of one near channel. -/
def Dev.nearChanBytes (d : Dev) : Nat := d.stackBytes / 16

/-- A channel is retired: a near channel is remapped where the reserve has room, and otherwise goes offline; a far channel
goes offline. A retrain of it is abandoned. -/
def Dev.retireChan (d : Dev) (ch : Nat) : Dev :=
  let x := d.chan ch
  if 104 ≤ ch ∨ x.state = 2 ∨ x.state = 3 ∨ x.state = 4 ∨ d.chanUp ch = false then d
  else
    let far := decide (96 ≤ ch)
    let d := if (d.retrains far).contains ch then
        (d.setChan ch { d.chan ch with state := 0, requested := false, retried := false }).setRetrains far ((d.retrains far).erase ch)
      else d
    if far = false ∧ d.mem.farUp ≠ 0 ∧ d.mem.reserveUsed + d.nearChanBytes ≤ d.mem.reserve then
      let d := d.setChan ch { d.chan ch with state := 2, reserveAt := some d.mem.reserveUsed }
      { d with mem := { d.mem with reserveUsed := d.mem.reserveUsed + d.nearChanBytes, remaps := d.mem.remaps ++ [ch] } }
    else d.recordChan ch 4

/-- MEMORY_RETRAIN_DONE: the retrain under way in near or far memory ends. A failure sets FAIL and is repeated once; a
second retires the channel, which has then failed (R233). -/
def Dev.retrainDone (d : Dev) (far pass : Bool) : Dev :=
  match d.retrains far with
  | [] => d
  | ch :: rest =>
      let x := d.chan ch
      let d := if pass then d else d.fputB F.MC_RETRAIN_FAIL true
      if pass = false ∧ x.retried = false then
        (d.setChan ch { x with retried := true }).faultRaise 454 (memSyndrome 0 ch 0) false
      else
        let d := (if x.requested then d.fputB F.MC_RETRAIN_DONE true else d).ocount O.RETRAINS 1
        let d := (d.setChan ch { x with state := 0, trainedAt := d.chanTemp ch, requested := false, retried := false }).setRetrains
          far rest
        if pass then d
        else (d.retireChan ch).faultRaise (if far then 453 else 450) (memSyndrome 0 ch 0) false

/-- REMAP_COPY_DONE: the channel's bytes and poison stand in the reserve, and every access goes there. -/
def Dev.remapDone (d : Dev) : Dev :=
  match d.mem.remaps with
  | [] => d
  | ch :: rest =>
      match (d.chan ch).reserveAt with
      | none => d
      | some r =>
        let n := d.nearChanBytes
        let base := d.reserveBase + r
        let mine (a : Nat) : Bool := decide (a < Config.farBase) && d.implemented a && d.chanOf a == ch
        let into (a : Nat) : Nat := let m := d.nearMap a; base + m.2.1 % 2 * (d.stackBytes / 32) + m.2.2
        let held (a : Nat) : Bool := decide (base ≤ a ∧ a < base + n)
        let cells := d.mem.cells.filter (fun p => !mine p.1 && !held p.1)
        let moved := (d.mem.cells.filter (fun p => mine p.1)).map (fun p => (into p.1, p.2))
        let bad := d.mem.poison.filter (fun p => !mine (p.1 * 32) && !held (p.1 * 32))
        let badMoved := (d.mem.poison.filter (fun p => mine (p.1 * 32))).map (fun p => (into (p.1 * 32) / 32, p.2))
        let d : Dev := { d with mem := { d.mem with
          cells := Sparse.setAll 0 cells moved, poison := Sparse.setAll false bad badMoved, remaps := rest } }
        d.recordChan ch 3

/-! ### Patrol scrub (R232) -/

/-- PATROL_SCRUB_PASS: the scrubber has read every line and found the errors listed. -/
def Dev.scrubPass (d : Dev) (found : List (Nat × MemErr)) : Dev :=
  if d.fgetB F.MC_CTL_SCRUB_EN = false ∨ d.mem.selfRefresh = true then d
  else (found.foldl (fun d p => if d.implemented (p.1 * 128) then d.memError p.1 p.2 false else d) d).ocount O.SCRUB_PASSES 1

end Sys2Proof.Machine
end

