-- ==== Sys2Proof/Machine/Float.lean ====
section
/-!
DEFINITION. FLT32 and FLT64 arithmetic of R83: IEEE 754-2019, rounding to nearest with ties to even, subnormals kept,
every NaN produced the canonical one. Values are bit patterns; w is 32 or 64.
-/

namespace Sys2Proof.Machine

/-- Fraction bits of a format. -/
def fracBits (w : Nat) : Nat := if w = 32 then 23 else 52

/-- Exponent bias of a format. -/
def fltBias (w : Nat) : Nat := if w = 32 then 127 else 1023

/-- The exponent field of infinities and NaNs. -/
def expTop (w : Nat) : Nat := if w = 32 then 255 else 2047

/-- The canonical quiet NaN. -/
def canonNaN (w : Nat) : Nat := if w = 32 then 0x7FC00000 else 0x7FF8000000000000

/-- What a bit pattern stands for; a finite value is ± m × 2^e. -/
inductive FVal where
  | nan
  | inf (neg : Bool)
  | fin (neg : Bool) (m : Nat) (e : Int)
deriving DecidableEq, Repr

/-- Read a bit pattern. -/
def fltOf (w b : Nat) : FVal :=
  let f := b % 2 ^ fracBits w
  let e := b / 2 ^ fracBits w % (expTop w + 1)
  let neg := bitAt b (w - 1)
  if e = expTop w then (if f = 0 then .inf neg else .nan)
  else if e = 0 then .fin neg f (1 - fltBias w - fracBits w)
  else .fin neg (f + 2 ^ fracBits w) (e - fltBias w - fracBits w)

/-- The sign bit of a format. -/
def signBit (w : Nat) (neg : Bool) : Nat := if neg then 2 ^ (w - 1) else 0

/-- An infinity. -/
def fltInf (w : Nat) (neg : Bool) : Nat := signBit w neg + expTop w * 2 ^ fracBits w

/-- A zero. -/
def fltZero (w : Nat) (neg : Bool) : Nat := signBit w neg

/-- n / d to the nearest integer, ties to even. -/
def divEven (n d : Nat) : Nat :=
  let q := n / d
  let r := n % d
  if 2 * r < d then q else if 2 * r = d then (if q % 2 = 0 then q else q + 1) else q + 1

/-- The largest k with 2^k ≤ n / d. -/
def ratioLog (n d : Nat) : Int :=
  let k : Int := (Nat.log2 n : Int) - Nat.log2 d
  let fits (k : Int) : Bool := if 0 ≤ k then decide (d * 2 ^ k.toNat ≤ n) else decide (d ≤ n * 2 ^ (-k).toNat)
  if fits k then k else k - 1

/-- The value ± n / d in a format. -/
def fltRound (w : Nat) (neg : Bool) (n d : Nat) : Nat :=
  if n = 0 then fltZero w neg
  else
    let emin : Int := 1 - fltBias w
    let q : Int := max (ratioLog n d) emin - fracBits w
    let m := if 0 ≤ q then divEven n (d * 2 ^ q.toNat) else divEven (n * 2 ^ (-q).toNat) d
    let body := (q + fracBits w + fltBias w - 1).toNat * 2 ^ fracBits w + m
    if expTop w * 2 ^ fracBits w ≤ body then fltInf w neg else signBit w neg + body

/-- ± m × 2^e in a format. -/
def fltScale (w : Nat) (neg : Bool) (m : Nat) (e : Int) : Nat :=
  if 0 ≤ e then fltRound w neg (m * 2 ^ e.toNat) 1 else fltRound w neg m (2 ^ (-e).toNat)

/-- A finite value as an integer over 2^e. -/
def signedOf (neg : Bool) (m : Nat) : Int := if neg then - (m : Int) else m

/-- Sum of two numbers of width v, rounded once to width w. -/
def fltAddTo (v w a b : Nat) : Nat :=
  match fltOf v a, fltOf v b with
  | .nan, _ => canonNaN w
  | _, .nan => canonNaN w
  | .inf s, .inf t => if s = t then fltInf w s else canonNaN w
  | .inf s, _ => fltInf w s
  | _, .inf t => fltInf w t
  | .fin s m e, .fin t n f =>
    let g := min e f
    let x := signedOf s m * 2 ^ (e - g).toNat + signedOf t n * 2 ^ (f - g).toNat
    if x = 0 then fltZero w (s && t)
    else fltScale w (decide (x < 0)) x.natAbs g

/-- Sum. -/
def fltAdd (w a b : Nat) : Nat := fltAddTo w w a b

/-- The value with its sign inverted; a NaN stays the canonical one. -/
def fltNeg (w a : Nat) : Nat :=
  match fltOf w a with
  | .nan => canonNaN w
  | _ => Nat.xor a (2 ^ (w - 1))

/-- Difference of two numbers of width v, rounded once to width w. -/
def fltSubTo (v w a b : Nat) : Nat := fltAddTo v w a (fltNeg v b)

/-- Absolute value. -/
def fltAbs (w a : Nat) : Nat :=
  match fltOf w a with
  | .nan => canonNaN w
  | _ => a % 2 ^ (w - 1)

/-- Product of two numbers of width v, rounded once to width w. -/
def fltMulTo (v w a b : Nat) : Nat :=
  match fltOf v a, fltOf v b with
  | .nan, _ => canonNaN w
  | _, .nan => canonNaN w
  | .inf s, .inf t => fltInf w (s != t)
  | .inf s, .fin t n _ => if n = 0 then canonNaN w else fltInf w (s != t)
  | .fin s m _, .inf t => if m = 0 then canonNaN w else fltInf w (s != t)
  | .fin s m e, .fin t n f => fltScale w (s != t) (m * n) (e + f)

/-- Quotient of two numbers of width v, rounded once to width w: x / 0 is a signed infinity and 0 / 0 is NaN. -/
def fltDivTo (v w a b : Nat) : Nat :=
  match fltOf v a, fltOf v b with
  | .nan, _ => canonNaN w
  | _, .nan => canonNaN w
  | .inf _, .inf _ => canonNaN w
  | .inf s, .fin t _ _ => fltInf w (s != t)
  | .fin s _ _, .inf t => fltZero w (s != t)
  | .fin s m e, .fin t n f =>
    if n = 0 then (if m = 0 then canonNaN w else fltInf w (s != t))
    else if f ≤ e then fltRound w (s != t) (m * 2 ^ (e - f).toNat) n
    else fltRound w (s != t) m (n * 2 ^ (f - e).toNat)

/-- Remainder of truncated division, with the sign of the dividend. As an invalid operation of IEEE 754, an infinite dividend or
a zero divisor gives NaN; an infinite divisor leaves a finite dividend as it is. -/
def fltMod (w a b : Nat) : Nat :=
  match fltOf w a, fltOf w b with
  | .fin s m e, .fin _ n f =>
    if n = 0 then canonNaN w
    else
      let g := min e f
      let x := m * 2 ^ (e - g).toNat % (n * 2 ^ (f - g).toNat)
      if x = 0 then fltZero w s else fltScale w s x g
  | .fin _ _ _, .inf _ => a
  | _, _ => canonNaN w

/-- FLT32 widened or FLT64 narrowed (R85). -/
def fltCast (v w a : Nat) : Nat :=
  match fltOf v a with
  | .nan => canonNaN w
  | .inf s => fltInf w s
  | .fin s m e => fltScale w s m e

/-- The code ordered as R78 orders FLT values, and as ORDERED of R110 writes them: −0 as +0 and every NaN the canonical
one, then the sign bit inverted if clear and all bits inverted if set. -/
def fltOrdered (w a : Nat) : Nat :=
  let c := match fltOf w a with
    | .nan => canonNaN w
    | .fin _ 0 _ => 0
    | _ => a
  if bitAt c (w - 1) then 2 ^ w - 1 - c else c + 2 ^ (w - 1)

/-- +0 for −0 and the canonical NaN for every NaN. -/
def fltCanon (w a : Nat) : Nat :=
  match fltOf w a with
  | .nan => canonNaN w
  | .fin _ 0 _ => 0
  | _ => a

/-- A NaN. -/
def fltIsNaN (w a : Nat) : Bool := match fltOf w a with
  | .nan => true
  | _ => false

end Sys2Proof.Machine
end

