-- ==== Sys2Proof/Machine/Value.lean ====
section
/-!
DEFINITION. Values of the types of R37: widths, order (R78), FH64 (R121, R122), key codes (R110, R141) and residues
(R89, R158).
-/

namespace Sys2Proof.Machine

/-! ### Types -/

/-- Bits of a value in a strip: 0 for VARBIN. -/
def typeBits (t : Nat) : Nat :=
  if [0x01, 0x05, 0x11].contains t then 8
  else if [0x02, 0x06, 0x12].contains t then 16
  else if [0x03, 0x07, 0x0B, 0x0D, 0x13].contains t then 32
  else if [0x04, 0x08, 0x09, 0x0C, 0x0E].contains t then 64
  else if t = 0x0A then 128
  else if t = 0x0F then 1
  else 0

/-- Signed integers. -/
def isSInt (t : Nat) : Bool := decide (1 ≤ t ∧ t ≤ 4)
/-- Integers. -/
def isInt (t : Nat) : Bool := decide (1 ≤ t ∧ t ≤ 8)
/-- DEC64 and DEC128. -/
def isDec (t : Nat) : Bool := t == 0x09 || t == 0x0A
/-- FLT32 and FLT64. -/
def isFlt (t : Nat) : Bool := t == 0x0B || t == 0x0C
/-- DICT types. -/
def isDict (t : Nat) : Bool := decide (0x11 ≤ t ∧ t ≤ 0x13)
/-- VARBIN. -/
def isVar (t : Nat) : Bool := t == 0x10
/-- Types held as two's complement: signed integers, decimals, DATE32, TS64. -/
def isSigned (t : Nat) : Bool := isSInt t || isDec t || t == 0x0D || t == 0x0E
/-- Fixed-width types, BOOL apart. -/
def isFixed (t : Nat) : Bool := (typeWidth t).isSome

/-- The number an integer, decimal, date or timestamp stands for, unscaled. -/
def intVal (t n : Nat) : Int := if isSigned t then toSigned (typeBits t) n else n

/-- The smallest and largest value of a type as R82 bounds it. -/
def typeRange (t : Nat) : Int × Int :=
  if t = 0x09 then (-(10 ^ 18 - 1), 10 ^ 18 - 1)
  else if t = 0x0A then (-(10 ^ 38 - 1), 10 ^ 38 - 1)
  else if isSigned t then (-(2 ^ (typeBits t - 1)), 2 ^ (typeBits t - 1) - 1)
  else (0, 2 ^ typeBits t - 1)

/-- A number lies in a type's range. -/
def inRange (t : Nat) (i : Int) : Bool := decide ((typeRange t).1 ≤ i ∧ i ≤ (typeRange t).2)

/-- The bit pattern of a number in a type. -/
def patOf (t : Nat) (i : Int) : Nat := ofSigned (typeBits t) i

/-- A datum's bit pattern, 0 for anything else. -/
def numOf : Datum → Nat
  | some (.num n) => n
  | _ => 0

/-- A datum's bytes, none for anything else. -/
def strOf : Datum → Bytes
  | some (.str b) => b
  | _ => []

/-! ### Order (R78) -/

/-- Byte strings in unsigned lexicographic order, a proper prefix first. -/
def bytesLt : Bytes → Bytes → Bool
  | _, [] => false
  | [], _ :: _ => true
  | a :: as, b :: bs => if a = b then bytesLt as bs else decide (a.toNat < b.toNat)

/-- A fixed-width value as a number that orders as the value does, brought to a scale. -/
def orderKey (t scale toScale n : Nat) : Int :=
  if isFlt t then fltOrdered (typeBits t) n
  else if isDec t then intVal t n * 10 ^ (toScale - scale)
  else intVal t n

/-- a < b, for two values of comparable types. -/
def valLt (ta sa tb sb : Nat) (a b : Val) : Bool :=
  match a, b with
  | .str x, .str y => bytesLt x y
  | .num x, .num y => decide (orderKey ta sa (max sa sb) x < orderKey tb sb (max sa sb) y)
  | _, _ => false

/-- Equality under R78. -/
def valEq (ta sa tb sb : Nat) (a b : Val) : Bool := !valLt ta sa tb sb a b && !valLt tb sb ta sa b a

/-- A NaN of a FLT type. -/
def valNaN (t : Nat) : Val → Bool
  | .num n => isFlt t && fltIsNaN (typeBits t) n
  | .str _ => false

/-- The six comparisons EQ, NE, LT, LE, GT, GE in the order of their codes; with IEEE_NAN a NaN compares FALSE except
under NE. -/
def compareOp (k : Nat) (ieee : Bool) (ta sa tb sb : Nat) (a b : Val) : Bool :=
  if ieee = true ∧ (valNaN ta a || valNaN tb b) = true then k == 1
  else
    match k with
    | 0 => valEq ta sa tb sb a b
    | 1 => !valEq ta sa tb sb a b
    | 2 => valLt ta sa tb sb a b
    | 3 => !valLt tb sb ta sa b a
    | 4 => valLt tb sb ta sa b a
    | _ => !valLt ta sa tb sb a b

/-! ### FH64 (R121, R122) -/

/-- Unsigned 64-bit wrap. -/
def w64 (n : Nat) : Nat := n % 2 ^ 64

/-- fh64_mix. -/
def fhMix (x : Nat) : Nat :=
  let x := w64 (Nat.xor x (x >>> 29) * 0xA4C73E195BD2866F)
  let x := w64 (Nat.xor x (x >>> 31) * 0xC93F0A7D61E8B2A5)
  Nat.xor x (x >>> 30)

/-- fh64 over words, a byte count and a seed. -/
def fh64 (ws : List Nat) (nbytes seed : Nat) : Nat :=
  let h := ws.foldl (fun h w => w64 (fhMix (Nat.xor h w) + 0x5F28E6B309D47C61)) (Nat.xor seed 0x6A1DC4F237B95E08)
  fhMix (Nat.xor h nbytes)

/-- FH_P1, the second seed of R129. -/
def fhP1 : Nat := 0x3C95F0A28E671DB4

/-- Bytes as little-endian 64-bit words, the last zero-padded. The first number bounds the words. -/
def wordsOf : Nat → Bytes → List Nat
  | 0, _ => []
  | n + 1, b => if b = [] then [] else leNat (b.take 8) :: wordsOf n (b.drop 8)

/-- A value's words and byte count. -/
def fhWords (t : Nat) : Val → List Nat × Nat
  | .str b => (wordsOf (b.length / 8 + 1) b, b.length)
  | .num n =>
    if t = 0x0A then ([n % 2 ^ 64, n / 2 ^ 64], 16)
    else if t = 0x0B then ([fltCanon 64 (fltCast 32 64 n)], 8)
    else if t = 0x0C then ([fltCanon 64 n], 8)
    else ([ofSigned 64 (intVal t n)], 8)

/-- FH64 of a value. -/
def fhVal (t seed : Nat) (v : Val) : Nat := let x := fhWords t v; fh64 x.1 x.2 seed

/-- FH64 of a key of several columns; a null enters as the word 0 with nbytes 0 (R121, R126). -/
def fhKey (seed : Nat) : List (Nat × Datum) → Nat
  | [] => seed
  | (t, some v) :: rest => fhKey (fhVal t seed v) rest
  | (_, none) :: rest => fhKey (fh64 [0] 0 seed) rest

/-! ### Key codes -/

/-- The ORDERED code of R110, in the type's width. -/
def orderedCode (t n : Nat) : Nat :=
  if isFlt t then fltOrdered (typeBits t) n
  else if isSigned t then Nat.xor n (2 ^ (typeBits t - 1))
  else n

/-- Value bytes of a normalized key (R141), most significant first. -/
def keyBytes (t : Nat) : Datum → Bytes
  | some (.str b) => b.flatMap (fun x => if x = 0 then [0, 255] else [x]) ++ [0, 0]
  | some (.num n) => beBytes (if t = 0x0F then 1 else typeBits t / 8) (if t = 0x0F then n else orderedCode t n)
  | none => if isVar t then [0, 0] else beBytes (if t = 0x0F then 1 else typeBits t / 8)
      (if t = 0x0F then 0 else orderedCode t 0)

/-- Every byte inverted. -/
def invertBytes (b : Bytes) : Bytes := b.map (fun x => ~~~x)

/-- The encoding of one key column (R141). -/
def keyColumn (c : ColTy) (desc nullsLast : Bool) (v : Datum) : Bytes :=
  let body := keyBytes c.ty v
  let body := if desc then invertBytes body else body
  if c.nullable then
    (match v with
      | some _ => (1 : Byte)
      | none => if nullsLast then 2 else 0) :: body
  else body

/-- The value a key emits: canonical FLT, and zero for a null of a column not marked NULLABLE (R154). -/
def keyValue (c : ColTy) : Datum → Datum
  | some (.num n) => some (.num (if isFlt c.ty then fltCanon (typeBits c.ty) n else n))
  | some (.str b) => some (.str b)
  | none => if c.nullable then none else if isVar c.ty then some (.str []) else some (.num 0)

/-! ### Residues (R89, R158) -/

/-- A 64-bit pattern modulo 15. -/
def residue (n : Nat) : Nat := n % 15

/-- The nibbles of a covered, non-null result: one, or low word first for DEC128. -/
def residueNibbles (t n : Nat) : List Nat :=
  if t = 0x0A then [residue (n % 2 ^ 64), residue (n / 2 ^ 64)] else [residue (ofSigned 64 (intVal t n))]

/-- The residue word of a row's nibbles, position 0 first. -/
def residueWord (ns : List Nat) : Nat :=
  let low := (List.range 15).map (fun i => ns.getD i 15)
  let body := (low.zipIdx.map (fun p => p.1 * 16 ^ p.2)).sum
  body + low.sum % 15 * 16 ^ 15

/-! ### Columns of rows -/

/-- Column i of a row. -/
def colOf (r : Row) (i : Nat) : Datum := r.getD i none

/-- The columns of a mask, ascending. -/
def pick {α : Type} (mask : Nat) (l : List α) : List α :=
  (l.zipIdx.filter (fun p => bitAt mask p.2)).map Prod.fst

/-- Number of live rows. -/
def Strip.liveCount (s : Strip) : Nat := (s.live.filter id).length

/-- The strip with another selection; with no row live it is the EMPTY token, which carries only its tag (R39). -/
def Strip.select (s : Strip) (live : List Bool) : Strip :=
  if live.any id then { s with live := live } else { tag := s.tag, dicts := s.dicts, poisoned := s.poisoned }

/-- The live rows of a strip with their positions. -/
def Strip.liveRows (s : Strip) : List (Nat × Row) :=
  ((s.rows.zip s.live).zipIdx.filter (fun p => p.1.2)).map (fun p => (p.2, p.1.1))

/-- Fields of a tag (R40). -/
def tagOf (ctx origin seq : Nat) : Nat := ctx * 2 ^ 56 + origin * 2 ^ 46 + seq % 2 ^ 40
/-- ORIGIN. -/
def tagOrigin (t : Nat) : Nat := bits t 55 46
/-- Source count. -/
def tagCount (t : Nat) : Nat := bits t 39 8
/-- Derived index. -/
def tagIndex (t : Nat) : Nat := t % 256

/-- A dense strip of rows. -/
def denseStrip (tag : Nat) (rows : List Row) (dicts : List Nat) : Strip :=
  { tag := tag, rows := rows, live := rows.map (fun _ => true), dicts := dicts }

/-- Bytes of VARBIN data of a row, column by column. -/
def varBytes (r : Row) : List Nat := r.map (fun v => (strOf v).length)

/-- How many of the rows a strip takes under R36 and R38: at most 4,096, and no VARBIN data buffer past 1 MiB. -/
def stripTake : Nat → List Nat → List Row → Nat
  | 0, _, _ => 0
  | _, _, [] => 0
  | n + 1, used, r :: rs =>
    let next := used.zipWith (· + ·) (varBytes r)
    if next.any (fun b => decide (2 ^ 20 < b)) then 0 else 1 + stripTake n next rs

/-- Cut rows into strips' worth; the first number bounds them. -/
def cutRows : Nat → List Row → List (List Row)
  | 0, _ => []
  | k + 1, rs =>
    match rs with
    | [] => []
    | r :: _ =>
      let n := max 1 (stripTake 4096 (r.map (fun _ => 0)) rs)
      rs.take n :: cutRows k (rs.drop n)

/-- The strips' worth of a list of rows. -/
def stripsOf (rs : List Row) : List (List Row) := cutRows rs.length rs

end Sys2Proof.Machine
end

