-- ==== Sys2Proof/Machine/Filter.lean ====
section
/-!
DEFINITION. DECODE and FILTER on strips (R73 to R78).
-/

namespace Sys2Proof.Machine

/-! ### Dictionaries -/

/-- A context's dictionaries by number, 1 upward; 0 is none. -/
def dictOf (dicts : List (List Datum)) (n : Nat) : List Datum := if n = 0 then [] else dicts.getD (n - 1) []

/-- What a code stands for; null at or beyond the dictionary's length (R73, R75). -/
def decodeCode (dict : List Datum) : Datum → Datum
  | some (.num n) => dict.getD n none
  | _ => none

/-- A column's value type: a DICT column stands for its dictionary's values (R75). -/
def ColTy.valueType (c : ColTy) : Nat := if isDict c.ty then c.dict else c.ty

/-- A value as terms and keys see it: decoded where the column is of a DICT type. -/
def plainValue (dicts : List (List Datum)) (c : ColTy) (dict : Nat) (v : Datum) : Datum :=
  if isDict c.ty then decodeCode (dictOf dicts dict) v else v

/-! ### DECODE (R73) -/

/-- DECODE of a strip: every row decoded, and the live rows whose code lies outside the dictionary. -/
def decodeStrip (dicts : List (List Datum)) (schema : List ColTy) (mask : Nat) (s : Strip) : Strip × Nat :=
  let picked (i : Nat) : Bool := bitAt mask i && isDict ((schema.getD i { ty := 0 }).ty)
  let row (r : Row) : Row := r.zipIdx.map (fun p =>
    if picked p.2 then decodeCode (dictOf dicts (s.dicts.getD p.2 0)) p.1 else p.1)
  let outside (r : Row) : Nat := (r.zipIdx.filter (fun p =>
    picked p.2 && (match p.1 with
      | some (.num n) => decide ((dictOf dicts (s.dicts.getD p.2 0)).length ≤ n)
      | _ => false))).length
  ({ s with rows := s.rows.map row, dicts := s.dicts.zipIdx.map (fun p => if picked p.2 then 0 else p.1) },
    (s.liveRows.map (fun p => outside p.2)).sum)

/-! ### FILTER (R74 to R78) -/

/-- A term of a constant set. -/
structure Term where
  col : Nat
  op : Nat
  count : Nat
  flags : Nat
  col2 : Nat
  off : Nat
deriving DecidableEq, Repr

/-- Term t of a constant set's body. -/
def termAt (body : Bytes) (t : Nat) : Term :=
  let o := 8 + 16 * t
  ⟨fieldAt body o 1, fieldAt body (o + 1) 1, fieldAt body (o + 2) 1, fieldAt body (o + 3) 1,
   fieldAt body (o + 4) 1, fieldAt body (o + 8) 4⟩

/-- Bytes of a constant of a type (R75). -/
def constBytes (t : Nat) : Nat := if t = 0x0A then 16 else 8

/-- Constant i of a term. -/
def constAt (pool body : Bytes) (ty off i : Nat) : Val :=
  let o := off + constBytes ty * i
  if isVar ty then .str (sliceAt pool (fieldAt body o 4) (fieldAt body (o + 4) 2))
  else .num (fieldAt body o (constBytes ty) % 2 ^ typeBits ty)

/-- A byte string starts with another. -/
def startsWith (a b : Bytes) : Bool := decide (a.take b.length = b)

/-- A term on the values of a row: TRUE, FALSE, or UNKNOWN as `none`. -/
def termValue (pool body : Bytes) (schema : List ColTy) (value : Nat → Datum) (t : Term) : Option Bool :=
  let c := schema.getD t.col { ty := 0 }
  let ty := c.valueType
  let ieee := bitAt t.flags 0
  let const (i : Nat) := constAt pool body ty t.off i
  let cmp (k : Nat) (v : Val) (i : Nat) : Bool := compareOp k ieee ty c.scale ty c.scale v (const i)
  match t.op, value t.col with
  | 0x0B, v => some v.isNone
  | 0x0C, v => some v.isSome
  | 0x0D, v => some (v == some (.num 1))
  | _, none => none
  | op, some v =>
    if op < 7 then some (cmp (op - 1) v 0)
    else if op = 0x07 then some (cmp 5 v 0 && cmp 2 v 1)
    else if op = 0x08 then some (cmp 5 v 0 && cmp 3 v 1)
    else if op = 0x09 then some ((List.range t.count).any (cmp 0 v))
    else if op = 0x0A then some ((List.range t.count).all (cmp 1 v))
    else if op = 0x0E then some (startsWith (strOf (some v)) (strOf (some (const 0))))
    else
      let c2 := schema.getD t.col2 { ty := 0 }
      match value t.col2 with
      | none => none
      | some w => some (compareOp (op - 0x10) ieee ty c.scale c2.valueType c2.scale v w)

/-- Three-valued AND of a list (R77). -/
def andAll (l : List (Option Bool)) : Option Bool :=
  if l.contains (some false) then some false else if l.contains none then none else some true

/-- Three-valued OR of a list (R77). -/
def orAll (l : List (Option Bool)) : Option Bool :=
  if l.contains (some true) then some true else if l.contains none then none else some false

/-- A FILTER's result on a row. -/
def filterRow (dicts : List (List Datum)) (pool body : Bytes) (schema : List ColTy) (dictNos : List Nat) (r : Row) :
    Option Bool :=
  let value (i : Nat) : Datum := plainValue dicts (schema.getD i { ty := 0 }) (dictNos.getD i 0) (colOf r i)
  let rs := (List.range (fieldAt body 2 1)).map (fun t => termValue pool body schema value (termAt body t))
  if fieldAt body 1 1 = 0 then andAll rs else orAll rs

/-- FILTER of a strip: what passes, and what does not (R77). -/
def filterStrip (dicts : List (List Datum)) (pool body : Bytes) (schema : List ColTy) (s : Strip) : Strip × Strip :=
  let pass := s.rows.map (fun r => filterRow dicts pool body schema s.dicts r == some true)
  (s.select (s.live.zipWith (fun l p => l && p) pass), s.select (s.live.zipWith (fun l p => l && !p) pass))

end Sys2Proof.Machine
end

