-- ==== Sys2Proof/Machine/Compute.lean ====
section
/-!
DEFINITION. COMPUTE: expression programs on rows (R79 to R87).
-/

namespace Sys2Proof.Machine

/-- An operand: its type, scale, dictionary number with the dictionary's value type, and value. -/
structure Opd where
  ty : Nat
  scale : Nat := 0
  dict : Nat := 0
  valueTy : Nat := 0
  val : Datum
deriving DecidableEq, Repr

/-- An instruction of an expression program (R79). -/
structure Ins where
  op : Nat
  dst : Nat
  a : Nat
  b : Nat
  c : Nat
  ty : Nat
  scale : Nat
  flags : Nat
deriving DecidableEq, Repr

/-- What a program's run has counted, and the number of the next value the spec leaves open. -/
structure CState where
  overflow : Nat := 0
  divZero : Nat := 0
  casts : Nat := 0
  free : Nat := 0
deriving DecidableEq, Repr

/-- Instruction k of a program. -/
def insAt (body : Bytes) (k : Nat) : Ins :=
  let o := 8 + 24 * fieldAt body 4 2 + 8 * k
  ⟨fieldAt body o 1, fieldAt body (o + 1) 1, fieldAt body (o + 2) 1, fieldAt body (o + 3) 1, fieldAt body (o + 4) 1,
   fieldAt body (o + 5) 1, fieldAt body (o + 6) 1, fieldAt body (o + 7) 1⟩

/-- Constant k of a program. -/
def programConst (pool body : Bytes) (k : Nat) : Opd :=
  let o := 8 + 24 * k
  let t := fieldAt body o 1
  { ty := t, scale := fieldAt body (o + 1) 1
    val := some (if isVar t then .str (sliceAt pool (fieldAt body (o + 8) 4) (fieldAt body (o + 12) 2))
      else .num (fieldAt body (o + 8) 16 % 2 ^ typeBits t)) }

/-! ### Rounding (R84) -/

/-- n / m rounded by a ROUND code: 0 half away from zero, 1 toward zero, 2 half to even, 3 toward −∞. m > 0. -/
def roundDiv (mode : Nat) (n m : Int) : Int :=
  let f := n / m
  let r := n % m
  if mode = 3 ∨ r = 0 then f
  else if mode = 1 then (if n < 0 then f + 1 else f)
  else if 2 * r < m then f
  else if m < 2 * r then f + 1
  else if mode = 2 then (if f % 2 = 0 then f else f + 1)
  else if n < 0 then f else f + 1

/-- A number at scale `from_` brought to scale `into`. -/
def rescale (mode : Nat) (i : Int) (from_ into : Nat) : Int :=
  if from_ ≤ into then i * 10 ^ (into - from_) else roundDiv mode i (10 ^ (from_ - into))

/-! ### Integer, decimal and FLT operations -/

/-- An overflow (R82): null, counted. -/
def CState.over (s : CState) : Datum × CState := (none, { s with overflow := s.overflow + 1 })

/-- A failed CAST (R82). -/
def CState.badCast (s : CState) : Datum × CState := (none, { s with casts := s.casts + 1 })

/-- A division by zero (R82). -/
def CState.byZero (s : CState) : Datum × CState := (none, { s with divZero := s.divZero + 1 })

/-- A value the spec leaves open, in a type. -/
def CState.open_ (s : CState) (t : Nat) : Datum × CState :=
  (some (.num ((Config.freeValue s.free).toNat % 2 ^ typeBits t)), { s with free := s.free + 1 })

/-- One of two values, the spec not saying which. -/
def CState.either (s : CState) (a b : Nat) : Datum × CState :=
  (some (.num (if (Config.freeValue s.free).toNat % 2 = 0 then a else b)), { s with free := s.free + 1 })

/-- An integer or decimal result: in range, wrapped where WRAP says so, or an overflow. -/
def CState.fits (s : CState) (t : Nat) (wrap : Bool) (i : Int) : Datum × CState :=
  if inRange t i = true ∨ wrap = true then (some (.num (patOf t i)), s) else s.over

/-- ADD to MAX on integers and decimals, brought to one scale; `none`: a division by zero. -/
def exactOp (op mode : Nat) (a b : Int) (sa sb scale : Nat) : Option Int :=
  let m := max sa sb
  let a' := a * 10 ^ (m - sa)
  let b' := b * 10 ^ (m - sb)
  match op with
  | 0x02 => some (rescale mode (a' + b') m scale)
  | 0x03 => some (rescale mode (a' - b') m scale)
  | 0x04 => some (rescale mode (a * b) (sa + sb) scale)
  | 0x05 =>
    if b = 0 then none
    else
      let up := scale + sb
      let n := if sa ≤ up then a * 10 ^ (up - sa) else a
      let q := if sa ≤ up then b else b * 10 ^ (sa - up)
      some (if q < 0 then roundDiv mode (-n) (-q) else roundDiv mode n q)
  | 0x06 => if b = 0 then none else some (rescale mode (a'.tmod b') m scale)
  | 0x07 => some (rescale mode (-a) sa scale)
  | 0x08 => some (rescale mode (if a < 0 then -a else a) sa scale)
  | 0x09 => some (rescale mode (min a' b') m scale)
  | _ => some (rescale mode (max a' b') m scale)

/-- FLT operations (R83); MIN and MAX follow the order of R78. -/
def CState.fltOp (s : CState) (op t v a b : Nat) : Datum × CState :=
  let w := typeBits v
  let r := typeBits t
  let out (n : Nat) : Datum × CState := (some (.num (fltCast w r n)), s)
  let put (n : Nat) : Datum × CState := (some (.num n), s)
  let whole (n : Nat) : Nat := if fltIsNaN w n then canonNaN w else n
  match op with
  | 0x02 => put (fltAddTo w r a b)
  | 0x03 => put (fltSubTo w r a b)
  | 0x04 => put (fltMulTo w r a b)
  | 0x05 => put (fltDivTo w r a b)
  | 0x06 => out (fltMod w a b)
  | 0x07 => out (fltNeg w a)
  | 0x08 => out (fltAbs w a)
  | _ =>
    if fltOrdered w a = fltOrdered w b then
      if whole a = whole b then out (whole a)
      else s.either (fltCast w r a) (fltCast w r b)
    else if decide (fltOrdered w a < fltOrdered w b) = (op == 0x09) then out (whole a)
    else out (whole b)

/-- ADD to MAX. -/
def CState.arith (s : CState) (i : Ins) (a b : Opd) (x y : Nat) : Datum × CState :=
  let mode := bits i.flags 1 0
  if isFlt i.ty then s.fltOp i.op i.ty a.ty x y
  else if isDec i.ty then
    match exactOp i.op mode (intVal a.ty x) (intVal b.ty y) a.scale b.scale i.scale with
    | some v => s.fits i.ty false v
    | none => s.byZero
  else
    match exactOp i.op 1 (intVal a.ty x) (intVal b.ty y) 0 0 0 with
    | some v => s.fits i.ty (bitAt i.flags 2) v
    | none => s.byZero

/-! ### CAST (R85) -/

/-- An exact FLT value as numerator and denominator; none for a NaN or an infinity. -/
def fltExact (w n : Nat) : Option (Int × Nat) :=
  let f := fracBits w
  let e := n / 2 ^ f % 2 ^ (w - 1 - f)
  let m := n % 2 ^ f
  let neg := bitAt n (w - 1)
  if e = expTop w then none
  else
    let mant := if e = 0 then m else m + 2 ^ f
    let x := max e 1
    let shift := fltBias w + f
    if shift ≤ x then some (signedOf neg (mant * 2 ^ (x - shift)), 1)
    else some (signedOf neg mant, 2 ^ (shift - x))

/-- CAST of a non-null value; one out of range counts in CAST_NULLS alone (R82, assumption log 163). -/
def CState.cast (s : CState) (i : Ins) (a : Opd) (x : Nat) : Datum × CState :=
  let mode := bits i.flags 1 0
  let num (n : Nat) : Datum × CState := (some (.num n), s)
  let into (v : Int) : Datum × CState := if inRange i.ty v then num (patOf i.ty v) else s.badCast
  if a.ty = 0x0D ∧ i.ty = 0x0E then into (intVal a.ty x * 86400000000000)
  else if isFlt a.ty then
    if isFlt i.ty then num (fltCast (typeBits a.ty) (typeBits i.ty) x)
    else
      match fltExact (typeBits a.ty) x with
      | none => s.badCast
      | some (n, m) => into (roundDiv mode (n * 10 ^ (if isDec i.ty then i.scale else 0)) m)
  else
    let v := intVal a.ty x
    let from_ := if isDec a.ty then a.scale else 0
    if isFlt i.ty then
      if v = 0 then num (fltZero (typeBits i.ty) false)
      else num (fltRound (typeBits i.ty) (decide (v < 0)) v.natAbs (10 ^ from_))
    else if isInt a.ty = true ∧ isInt i.ty = true ∧ bitAt i.flags 2 = true then num (patOf i.ty v)
    else into (rescale mode v from_ (if isDec i.ty then i.scale else 0))

/-! ### One instruction -/

/-- AND, OR, NOT on a BOOL operand. -/
def boolOf : Datum → Option Bool
  | some (.num n) => some (n != 0)
  | _ => none

/-- A BOOL datum. -/
def datumOf : Option Bool → Datum
  | some b => some (.num (b2n b))
  | none => none

/-- An operation on non-null operands. -/
def CState.run (s : CState) (i : Ins) (a b c : Opd) (va vb vc : Val) : Datum × CState :=
  let x := numOf (some va)
  let y := numOf (some vb)
  let sa := strOf (some va)
  let sb := strOf (some vb)
  let str (r : Bytes) : Datum × CState := if 65535 < r.length then s.over else (some (.str r), s)
  if i.op = 0x01 then (some va, s)
  else if 0x02 ≤ i.op ∧ i.op ≤ 0x0A then s.arith i a b x y
  else if i.op = 0x10 then s.cast i a x
  else if 0x18 ≤ i.op ∧ i.op ≤ 0x1D then
    (datumOf (some (compareOp (i.op - 0x18) (bitAt i.flags 3) a.ty a.scale b.ty b.scale va vb)), s)
  else if i.op = 0x28 then s.fits 0x0D (bitAt i.flags 2) (intVal 0x0D x + intVal 0x03 y)
  else if i.op = 0x29 then
    let u := intVal 0x04 y
    if u < 1 then s.byZero
    else
      let t := intVal 0x0E x - intVal 0x0E x % u
      if inRange 0x0E t then (some (.num (patOf 0x0E t)), s) else s.open_ 0x0E
  else if i.op = 0x2A then (some (.num (patOf 0x0D (intVal 0x0E x / 86400000000000))), s)
  else if i.op = 0x30 then (some (.num sa.length), s)
  else if i.op = 0x31 then str (sa ++ sb)
  else if i.op = 0x32 then (datumOf (some (startsWith sa sb)), s)
  else if i.op = 0x33 then
    let st := intVal 0x03 y
    let n := intVal 0x03 (numOf (some vc))
    if st < 0 ∨ n < 0 then (some (.str []), s) else str ((sa.drop st.toNat).take n.toNat)
  else if i.op = 0x38 then (some (.num (fhVal a.ty y va)), s)
  else let _ := c; (none, s)

/-- Operands an operation reads. -/
def arity (op : Nat) : Nat :=
  if [0x01, 0x07, 0x08, 0x10, 0x22, 0x23, 0x2A, 0x30].contains op then 1
  else if op = 0x25 ∨ op = 0x33 then 3
  else 2

/-- The value a comparison or HASH sees: decoded for a DICT operand. -/
def Opd.plain (dicts : List (List Datum)) (o : Opd) : Opd :=
  if isDict o.ty then { o with ty := o.valueTy, val := decodeCode (dictOf dicts o.dict) o.val } else o

/-- One instruction on its operands (R81, R82). A DICT result has the dictionary of the first operand it may come from; ISNULL is
FALSE of a code beyond its dictionary (assumption logs 162 and 163). -/
def CState.step (s : CState) (i : Ins) (a b c : Opd) : Opd × CState :=
  let like (o : Opd) (r : Datum × CState) : Opd × CState :=
    ({ ty := i.ty, scale := i.scale, dict := o.dict, valueTy := o.valueTy, val := r.1 }, r.2)
  let result (r : Datum × CState) : Opd × CState := ({ ty := i.ty, scale := i.scale, val := r.1 }, r.2)
  if i.op = 0x20 then result (datumOf (andAll [boolOf a.val, boolOf b.val]), s)
  else if i.op = 0x21 then result (datumOf (orAll [boolOf a.val, boolOf b.val]), s)
  else if i.op = 0x22 then result (datumOf ((boolOf a.val).map not), s)
  else if i.op = 0x23 then result (datumOf (some a.val.isNone), s)
  else if i.op = 0x24 then like a (if a.val.isSome then a.val else b.val, s)
  else if i.op = 0x25 then like b (if boolOf a.val = some true then b.val else c.val, s)
  else
    let b' := if arity i.op < 2 then a else b
    let c' := if arity i.op < 3 then a else c
    match a.val, b'.val, c'.val with
    | some va, some vb, some vc => if i.op = 0x01 then like a (some va, s) else result (s.run i a b' c' va vb vc)
    | _, _, _ => if i.op = 0x01 then like a (none, s) else result (none, s)

/-! ### Programs on rows and strips -/

/-- The columns of an input as operands. -/
def rowOpds (schema : List ColTy) (dictNos : List Nat) (r : Row) : List Opd :=
  schema.zipIdx.map (fun p => {
    ty := p.1.ty, scale := p.1.scale, dict := dictNos.getD p.2 0, valueTy := p.1.dict, val := colOf r p.2 })

/-- What an operand byte names (R80). -/
def operand (pool body : Bytes) (in0 in1 : List Opd) (temps : Sparse (Option Opd)) (k : Nat) : Opd :=
  let null : Opd := { ty := 0, val := none }
  if k < 0x20 then in0.getD k null
  else if k < 0x40 then in1.getD (k - 0x20) null
  else if k < 0x50 then (Sparse.get none temps k).getD null
  else if 0x80 ≤ k then programConst pool body (k - 0x80)
  else null

/-- Run the instructions of a program on one row: the outputs by operand byte. -/
def programRun (dicts : List (List Datum)) (pool body : Bytes) (in0 in1 : List Opd) :
    List Ins → Sparse (Option Opd) → CState → Sparse (Option Opd) × CState
  | [], temps, s => (temps, s)
  | i :: is, temps, s =>
    let look (k : Nat) : Opd :=
      let o := operand pool body in0 in1 temps k
      if (0x18 ≤ i.op ∧ i.op ≤ 0x1D) ∨ i.op = 0x38 then o.plain dicts else o
    let r := s.step i (look i.a) (look i.b) (look i.c)
    programRun dicts pool body in0 in1 is (Sparse.set none temps i.dst (some r.1)) r.2

/-- The instructions of a program. -/
def programOf (body : Bytes) : List Ins := (List.range (fieldAt body 2 2)).map (insAt body)

/-- The output operands of a program on one row. -/
def programRow (dicts : List (List Datum)) (pool body : Bytes) (in0 in1 : List Opd) (s : CState) : List Opd × CState :=
  let r := programRun dicts pool body in0 in1 (programOf body) [] s
  ((List.range (fieldAt body 1 1)).map (fun k => (Sparse.get none r.1 (0x50 + k)).getD { ty := 0, val := none }), r.2)

/-- Run a program on the rows of a pair of strips, dead rows left null. -/
def programRows (dicts : List (List Datum)) (pool body : Bytes) (s0 s1 : List ColTy) (d0 d1 : List Nat) :
    List (Bool × Row × Row) → CState → List Row × CState
  | [], s => ([], s)
  | (live, r0, r1) :: rest, s =>
    let out := if live then
        let v := programRow dicts pool body (rowOpds s0 d0 r0) (rowOpds s1 d1 r1) s
        (v.1.map Opd.val, v.2)
      else (List.replicate (fieldAt body 1 1) none, s)
    let tail := programRows dicts pool body s0 s1 d0 d1 rest out.2
    (out.1 :: tail.1, tail.2)

/-- COMPUTE of a strip, or of a pair of strips: the output strip before any split, and what the run counted (R80,
R86). -/
def computeStrip (dicts : List (List Datum)) (pool body : Bytes) (s0 s1 : List ColTy) (x : Strip) (y : Option Strip)
    (s : CState) : Strip × CState :=
  let dicts' (z : Option Strip) : List Nat := (z.map Strip.dicts).getD []
  let rows1 := (y.map Strip.rows).getD (x.rows.map (fun _ => []))
  let live := match y with
    | some z => x.live.zipWith (fun a b => a && b) z.live
    | none => x.live
  let r := programRows dicts pool body s0 s1 x.dicts (dicts' y) (live.zip (x.rows.zip rows1)) s
  let nos := (programRow dicts pool body (rowOpds s0 x.dicts []) (rowOpds s1 (dicts' y) []) {}).1.map Opd.dict
  let out : Strip := { tag := x.tag, rows := r.1, live := live, dicts := nos, poisoned := x.poisoned }
  (out.select live, r.2)

/-- Cut a strip where a VARBIN data buffer would pass 1 MiB (R38, R87): the pieces keep the selection of their rows. -/
def splitStrip (s : Strip) : List Strip :=
  let cuts := stripsOf s.rows
  let go := cuts.foldl (fun (acc : List Strip × List Bool) rs =>
    let live := acc.2.take rs.length
    (acc.1 ++ [{ s with rows := rs, live := live }.select live], acc.2.drop rs.length)) ([], s.live)
  if cuts.length < 2 then [s] else go.1

end Sys2Proof.Machine
end

