-- ==== Sys2Proof/Machine/Image.lean ====
section
/-!
DEFINITION. The pipeline image (R56 to R61) and the eleven checks of PIPE_LOAD (R63), with the operator conditions of
R88, R107, R109, R110, R126, R136, R144 to R151, R158, R161, R164, R174, R364, R367 and R480.
-/

namespace Sys2Proof.Machine

/-! ### Checks as lists -/

/-- A condition and the image offset reported when it fails. -/
abbrev Cond := Bool × Nat

/-- The offset of the first condition of a list that fails. -/
def firstBad (l : List Cond) : Option Nat := (l.find? (fun c => !c.1)).map Prod.snd

/-- A failed check: its number and the offset of the failing field. -/
abbrev BadImage := Nat × Nat

/-- Apply a check's conditions in order. -/
def checkAll (n : Nat) (l : List Cond) : Except BadImage Unit :=
  match firstBad l with
  | some o => .error (n, o)
  | none => .ok ()

/-- No offset: the field holds all ones. -/
def noOffset : Nat := 0xFFFFFFFF

/-! ### Operators (R58) -/

/-- Input and output port ranges of an operator; none for a reserved code. -/
def opPorts (op : Nat) : Option ((Nat × Nat) × (Nat × Nat)) :=
  if op = 0x01 ∨ op = 0x31 then some ((0, 0), (1, 1))
  else if op = 0x02 ∨ (0x20 ≤ op ∧ op ≤ 0x24) then some ((1, 1), (1, 1))
  else if op = 0x03 ∨ op = 0x11 ∨ op = 0x13 then some ((1, 1), (1, 2))
  else if op = 0x04 then some ((1, 2), (1, 1))
  else if op = 0x10 ∨ op = 0x12 ∨ op = 0x30 ∨ op = 0x40 then some ((1, 1), (0, 0))
  else none

/-- An operator that ends a path (check 6). -/
def isTerminal (op : Nat) : Bool := [0x40, 0x30, 0x10, 0x12].contains op
/-- An operator that starts one. -/
def isStart (op : Nat) : Bool := op == 0x01 || op == 0x31

/-- The record kind of an operator's parameters (R60). -/
def paramKind (op : Nat) : Nat := if op = 0x03 ∨ op = 0x04 then 5 else 4

/-! ### Raw fields -/

/-- Header fields: the counts and offsets of R56. -/
structure IHead where
  len : Nat
  flags : Nat
  nodes : Nat
  edges : Nat
  nodeOff : Nat
  edgeOff : Nat
  ioOff : Nat
  sources : Nat
  sinks : Nat
  poolOff : Nat
  poolLen : Nat
deriving DecidableEq, Repr

/-- Read the header. -/
def headerOf (b : Bytes) : IHead :=
  { len := fieldAt b 8 4, flags := fieldAt b 6 2, nodes := fieldAt b 0xC 2, edges := fieldAt b 0xE 2
    nodeOff := fieldAt b 0x10 4, edgeOff := fieldAt b 0x14 4, ioOff := fieldAt b 0x18 4
    sources := fieldAt b 0x1C 2, sinks := fieldAt b 0x1E 2, poolOff := fieldAt b 0x20 4, poolLen := fieldAt b 0x24 4 }

/-- Offset of node n's descriptor. -/
def IHead.nodeAt (h : IHead) (n : Nat) : Nat := h.nodeOff + 64 * n
/-- Offset of edge e. -/
def IHead.edgeAt (h : IHead) (e : Nat) : Nat := h.edgeOff + 16 * e
/-- Offset of source s. -/
def IHead.sourceAt (h : IHead) (s : Nat) : Nat := h.ioOff + 32 * s
/-- Offset of sink s. -/
def IHead.sinkAt (h : IHead) (s : Nat) : Nat := h.ioOff + 32 * (h.sources + s)

/-- A pool record: its pool offset, kind and length. -/
structure PRec where
  off : Nat
  kind : Nat
  len : Nat
deriving DecidableEq, Repr

/-- Walk the pool: the records found, and the offset within the pool where a broken header ends the walk. -/
def poolRecs (pool : Bytes) : Nat → Nat → List PRec × Option Nat
  | 0, _ => ([], none)
  | n + 1, o =>
    if pool.length ≤ o then ([], none)
    else
      let k := fieldAt pool o 2
      let l := fieldAt pool (o + 4) 4
      if l < 8 ∨ l % 8 ≠ 0 ∨ pool.length < o + l then ([{ off := o, kind := k, len := 8 }], some (o + 4))
      else
        let r := poolRecs pool n (o + l)
        ({ off := o, kind := k, len := l } :: r.1, r.2)

/-! ### Checks 1 to 3 -/

/-- Check 1. -/
def check1 (b : Bytes) (declared : Nat) : List Cond :=
  [(fieldAt b 0 4 == 0x49504C46, 0), (fieldAt b 4 2 == 1, 4),
   (decide (64 ≤ fieldAt b 8 4 ∧ fieldAt b 8 4 ≤ 16777216 ∧ fieldAt b 8 4 ≤ declared), 8)]

/-- Check 2: must-be-zero fields of the tables and record headers. -/
def check2 (b : Bytes) (h : IHead) (recs : List PRec) : List Cond :=
  let z (o n : Nat) : Cond := (zeroAt b o (o + n), o)
  [(decide (h.flags < 8), 6), z 0x3C 4]
  ++ (List.range h.nodes).flatMap (fun n => let o := h.nodeAt n
      [(decide (fieldAt b (o + 3) 1 < 4), o + 3), z (o + 7) 1, z (o + 0x18) 40])
  ++ (List.range h.edges).flatMap (fun e => let o := h.edgeAt e; [z (o + 7) 1, z (o + 0xC) 4])
  ++ (List.range h.sources).flatMap (fun s => let o := h.sourceAt s; [z (o + 0x10) 8, z (o + 0x18) 8])
  ++ (List.range h.sinks).flatMap (fun s => let o := h.sinkAt s
      [(decide (fieldAt b (o + 1) 1 < 2), o + 1), z (o + 0x18) 8])
  ++ recs.map (fun r => z (h.poolOff + r.off + 2) 2)

/-- Two byte ranges do not overlap. -/
def apart (a n c m : Nat) : Bool := decide (n = 0 ∨ m = 0 ∨ a + n ≤ c ∨ c + m ≤ a)

/-- Check 3: counts, and each section aligned, inside the image and apart from those before it. -/
def check3 (h : IHead) : List Cond :=
  let secs : List (Nat × Nat × Nat × Nat) :=
    [(h.nodeOff, 64 * h.nodes, 64, 0x10), (h.edgeOff, 16 * h.edges, 16, 0x14),
     (h.ioOff, 32 * (h.sources + h.sinks), 32, 0x18), (h.poolOff, h.poolLen, 8, 0x20)]
  [(decide (1 ≤ h.nodes ∧ h.nodes ≤ 1024), 0xC), (decide (h.edges ≤ 4096), 0xE),
   (decide (1 ≤ h.sources ∧ h.sources ≤ 64), 0x1C), (decide (1 ≤ h.sinks ∧ h.sinks ≤ 16), 0x1E)]
  ++ (secs.zipIdx.flatMap (fun p => let s := p.1
      [(decide (s.1 % s.2.2.1 = 0), s.2.2.2)]
      ++ (if s.2.2.2 = 0x20 then [(decide (h.poolLen % 8 = 0), 0x24)] else [])
      ++ [(decide (s.1 + s.2.1 ≤ h.len), s.2.2.2), (apart 0 64 s.1 s.2.1, s.2.2.2)]
      ++ (secs.take p.2).map (fun t => (apart t.1 t.2.1 s.1 s.2.1, s.2.2.2))))

/-! ### The tables -/

/-- The columns of a schema record. -/
def schemaAt (pool : Bytes) (off : Nat) : List ColTy :=
  (List.range (fieldAt pool (off + 8) 2)).map (fun c => let o := off + 16 + 8 * c
    { ty := fieldAt pool o 1, scale := fieldAt pool (o + 1) 1, nullable := bitAt (fieldAt pool (o + 2) 1) 0
      dict := fieldAt pool (o + 3) 1 })

/-- Node n as its descriptor gives it. -/
def nodeOf (b pool : Bytes) (h : IHead) (n : Nat) : Node :=
  let o := h.nodeAt n
  let so := fieldAt b (o + 0xC) 4
  let po := fieldAt b (o + 0x10) 4
  { id := fieldAt b o 2, op := fieldAt b (o + 2) 1, stateful := bitAt (fieldAt b (o + 3) 1) 0
    blocking := bitAt (fieldAt b (o + 3) 1) 1, ins := fieldAt b (o + 4) 1, outs := fieldAt b (o + 5) 1
    cas := fieldAt b (o + 6) 1, mask := fieldAt b (o + 8) 4
    schema := if so = noOffset then [] else schemaAt pool so
    param := if po = noOffset then [] else (pool.drop (po + 8)).take (fieldAt pool (po + 4) 4 - 8)
    paramAt := h.poolOff + po + 8 }

/-- Edge e; a depth of zero takes the default of 0x3011. -/
def edgeOf (b : Bytes) (h : IHead) (depth e : Nat) : Edge :=
  let o := h.edgeAt e
  let k := fieldAt b (o + 6) 1
  { src := fieldAt b o 2, port := fieldAt b (o + 2) 1, toPort := fieldAt b (o + 3) 1, dst := fieldAt b (o + 4) 2
    depth := if k = 0 then depth else k, cols := fieldAt b (o + 8) 4 }

/-- Source s. -/
def sourceOf (b pool : Bytes) (h : IHead) (s : Nat) : Source :=
  let o := h.sourceAt s
  let p := fieldAt b (o + 4) 4
  let kind := fieldAt b o 1
  let cols := fieldAt b (o + 1) 1
  { kind := kind, cols := cols, node := fieldAt b (o + 2) 2, rows := fieldAt b (o + 8) 8
    dir := if kind = 3 then [] else (List.range cols).map (fun c => let q := p + 8 + 32 * c
      { validity := fieldAt pool q 8, values := fieldAt pool (q + 8) 8, data := fieldAt pool (q + 16) 8
        dictLen := fieldAt pool (q + 24) 4 })
    extents := if kind = 3 then (List.range ((fieldAt pool (p + 4) 4 - 8) / 32)).map (fun c => let q := p + 8 + 32 * c
      { slot := fieldAt pool q 1, col := fieldAt pool (q + 1) 1, nsid := fieldAt pool (q + 4) 4
        lba := fieldAt pool (q + 8) 8, len := fieldAt pool (q + 16) 8 }) else [] }

/-- Sink s. -/
def sinkOf (b : Bytes) (h : IHead) (s : Nat) : Sink :=
  let o := h.sinkAt s
  { kind := fieldAt b o 1, sealHere := bitAt (fieldAt b (o + 1) 1) 0, node := fieldAt b (o + 2) 2
    block := fieldAt b (o + 4) 4, base := fieldAt b (o + 8) 8, len := fieldAt b (o + 16) 8 }

/-- The match-table declarations of an image (R125): the KIND 6 records with an 8-byte body whose TABLE a LOOKUP names
and no LV_BUILD builds. Every other KIND 6 record is a dictionary image, whose bytes are free. DEDUCED. -/
def declRecs (nodes : List Node) (pool : Bytes) (recs : List PRec) : List PRec :=
  let names (op t : Nat) : Bool := nodes.any (fun n => n.op == op && fieldAt n.param 0 1 == t)
  recs.filter (fun r => r.kind = 6 && r.len == 16
    && names 0x11 (fieldAt pool (r.off + 8) 1) && !names 0x10 (fieldAt pool (r.off + 8) 1))

/-- The whole image. -/
def progOf (b : Bytes) (depth : Nat) : Prog :=
  let h := headerOf b
  let pool := sliceAt b h.poolOff h.poolLen
  let recs := (poolRecs pool (h.poolLen / 8 + 1) 0).1
  let nodes := (List.range h.nodes).map (nodeOf b pool h)
  { nodes := nodes, edges := (List.range h.edges).map (edgeOf b h depth)
    sources := (List.range h.sources).map (sourceOf b pool h), sinks := (List.range h.sinks).map (sinkOf b h)
    decls := (declRecs nodes pool recs).map (fun r =>
      { table := fieldAt pool (r.off + 8) 1, width := fieldAt pool (r.off + 9) 1, layout := fieldAt pool (r.off + 10) 1 })
    pool := pool, sealed := bitAt h.flags 0, skip := bitAt h.flags 1, fabric := bitAt h.flags 2
    query := sliceAt b 0x28 16, len := h.len }

/-- A node. -/
def Prog.node (p : Prog) (n : Nat) : Node :=
  p.nodes.getD n { id := n, op := 0, stateful := false, blocking := false, ins := 0, outs := 0, cas := 0xFF, mask := 0
                   schema := [], param := [], paramAt := 0 }

/-- The edge that feeds an input port. -/
def Prog.feed (p : Prog) (n port : Nat) : Option Edge := p.edges.find? (fun e => e.dst = n ∧ e.toPort = port)

/-- The edges that leave an output port. -/
def Prog.outEdges (p : Prog) (n port : Nat) : List Edge := p.edges.filter (fun e => e.src = n ∧ e.port = port)

/-- The schema of an input port (R59). -/
def Prog.inSchema (p : Prog) (n port : Nat) : List ColTy :=
  match p.feed n port with
  | some e => pick e.cols (p.node e.src).schema
  | none => []

/-! ### Checks 4 to 6 -/

/-- Check 4. -/
def check4 (h : IHead) (p : Prog) : List Cond :=
  p.nodes.zipIdx.flatMap (fun q => let o := h.nodeAt q.2; let x := q.1
    [(x.id == q.2, o), ((opPorts x.op).isSome, o + 2)]
    ++ (match opPorts x.op with
        | some r => [(decide (r.1.1 ≤ x.ins ∧ x.ins ≤ r.1.2), o + 4), (decide (r.2.1 ≤ x.outs ∧ x.outs ≤ r.2.2), o + 5)]
        | none => []))

/-- Check 5. -/
def check5 (b : Bytes) (h : IHead) (p : Prog) : List Cond :=
  p.edges.zipIdx.flatMap (fun q => let o := h.edgeAt q.2; let e := q.1
    [(decide (e.src < h.nodes), o), (decide (e.port < (p.node e.src).outs), o + 2), (decide (e.dst < h.nodes), o + 4),
     (decide (e.toPort < (p.node e.dst).ins), o + 3), (decide (fieldAt b (o + 6) 1 ≤ 16), o + 6),
     (!(p.edges.take q.2).any (fun f => f.dst == e.dst && f.toPort == e.toPort), o + 3),
     (decide (((p.edges.take q.2).filter (fun f => f.src == e.src && f.port == e.port)).length < 8), o + 2)])
  ++ p.nodes.zipIdx.flatMap (fun q => (List.range q.1.ins).map (fun t =>
      ((p.feed q.2 t).isSome, h.nodeAt q.2 + 4)))

/-- Grow a set of nodes along links until it no longer grows. The first number bounds the rounds. -/
def growSet (links : List (Nat × Nat)) : Nat → List Nat → List Nat
  | 0, s => s
  | k + 1, s =>
    let new := (links.filter (fun l => s.contains l.1 && !s.contains l.2)).map Prod.snd
    if new = [] then s else growSet links k (s ++ new.eraseDups)

/-- The nodes that lie on no cycle of some links: peel off those without a link from a node still left. The first number
bounds the rounds; what remains is on a cycle or behind one. -/
def peel (links : List (Nat × Nat)) : Nat → List Nat → List Nat
  | 0, left => left
  | k + 1, left =>
    let rest := left.filter (fun n => links.any (fun l => l.2 == n && left.contains l.1))
    if rest.length = left.length then left else peel links k rest

/-- Links turned round. -/
def turned (l : List (Nat × Nat)) : List (Nat × Nat) := l.map (fun x => (x.2, x.1))

/-- The nodes on a cycle of some links, or between two cycles. -/
def cyclic (links : List (Nat × Nat)) (n : Nat) : List Nat := peel (turned links) n (peel links n (List.range n))

/-- The graph's edges as links. -/
def Prog.links (p : Prog) : List (Nat × Nat) := p.edges.map (fun e => (e.src, e.dst))

/-- Nodes whose operator satisfies a test. -/
def Prog.nodesOf (p : Prog) (f : Nat → Bool) : List Nat := (List.range p.nodes.length).filter (fun n => f (p.node n).op)

/-- Check 6: each node on no cycle, and on a path from a start to an end. -/
def check6 (h : IHead) (p : Prog) : List Cond :=
  let all := List.range p.nodes.length
  let cyc := cyclic p.links p.nodes.length
  let fromStart := growSet p.links p.nodes.length (p.nodesOf isStart)
  let toEnd := growSet (turned p.links) p.nodes.length (p.nodesOf isTerminal)
  all.map (fun n => (!cyc.contains n, h.nodeAt n))
  ++ all.map (fun n => (fromStart.contains n && toEnd.contains n, h.nodeAt n))

/-! ### Checks 7 to 10 -/

/-- A pool offset names a record of a kind. -/
def namesRec (recs : List PRec) (kind off : Nat) : Bool := recs.any (fun r => r.off == off && r.kind == kind)

/-- Check 7. -/
def check7 (b : Bytes) (h : IHead) (recs : List PRec) (broken : Option Nat) (p : Prog) : List Cond :=
  recs.flatMap (fun r => [(decide (1 ≤ r.kind ∧ r.kind ≤ 6), h.poolOff + r.off)])
  ++ (match broken with
      | some o => [(false, h.poolOff + o)]
      | none => [])
  ++ p.nodes.zipIdx.flatMap (fun q => let o := h.nodeAt q.2
      let so := fieldAt b (o + 0xC) 4
      let po := fieldAt b (o + 0x10) 4
      let pl := fieldAt b (o + 0x14) 4
      [(if q.1.outs = 0 then so == noOffset else namesRec recs 1 so, o + 0xC),
       (if po = noOffset then q.1.op == 0x40 else namesRec recs (paramKind q.1.op) po, o + 0x10),
       (if po = noOffset then pl == 0 else recs.any (fun r => r.off == po && r.len == pl), o + 0x14)])
  ++ p.sources.zipIdx.map (fun q => let o := h.sourceAt q.2
      let d := fieldAt b (o + 4) 4
      (if q.1.kind = 3 then namesRec recs 3 d else if q.1.kind = 1 ∨ q.1.kind = 2 then namesRec recs 2 d else true, o + 4))

/-- A scale fits its type. -/
def scaleOk (t s : Nat) : Bool := if t = 0x09 then decide (s ≤ 18) else if t = 0x0A then decide (s ≤ 38) else true

/-- Check 8. -/
def check8 (pool : Bytes) (h : IHead) (recs : List PRec) : List Cond :=
  (recs.filter (fun r => r.kind = 1)).flatMap (fun r =>
    let n := fieldAt pool (r.off + 8) 2
    let o := h.poolOff + r.off
    [(decide (1 ≤ n ∧ n ≤ 32 ∧ 16 + 8 * n ≤ r.len), o + 8), (zeroAt pool (r.off + 10) (r.off + 16), o + 10)]
    ++ (List.range n).flatMap (fun c =>
        let q := r.off + 16 + 8 * c
        let a := h.poolOff + q
        let t := fieldAt pool q 1
        let dv := fieldAt pool (q + 3) 1
        [(typeDefined t, a), (scaleOk (if isDict t then dv else t) (fieldAt pool (q + 1) 1), a + 1),
         (decide (fieldAt pool (q + 2) 1 < 2), a + 2),
         (if isDict t then typeDefined dv && !isDict dv else dv == 0, a + 3),
         (zeroAt pool (q + 4) (q + 8), a + 4)]))

/-- Check 9. -/
def check9 (h : IHead) (p : Prog) : List Cond :=
  p.edges.zipIdx.map (fun q =>
    (decide (1 ≤ q.1.cols ∧ q.1.cols < 2 ^ (p.node q.1.src).schema.length), h.edgeAt q.2 + 8))

/-- The type with which a SCAN reads a source column, where it selects the column. -/
def scanTypeOf (p : Prog) (n c : Nat) : Option Nat :=
  let mask := fieldAt (p.node n).param 4 4
  if bitAt mask c then (((p.node n).schema)[popCount (mask % 2 ^ c) 32]?).map ColTy.ty else none

/-- Check 10, in which a KIND 3 source's row count is held to R61 (assumption log 159). The types that decide which fields of a directory entry must be zero are those that the SCAN reads its columns
with; a column that no SCAN selects has none, and its fields are not held to it (assumption log 177). -/
def check10 (b pool : Bytes) (h : IHead) (recs : List PRec) (p : Prog) : List Cond :=
  let recLen (o : Nat) : Nat := ((recs.find? (fun r => r.off = o)).map PRec.len).getD 0
  p.sources.zipIdx.flatMap (fun q => let o := h.sourceAt q.2; let s := q.1
    let d := fieldAt b (o + 4) 4
    [(decide (1 ≤ s.kind ∧ s.kind ≤ 3), o), (decide (1 ≤ s.cols ∧ s.cols ≤ 32), o + 1),
     (decide (s.node < h.nodes) && (p.node s.node).op == 0x01
        && !(p.sources.take q.2).any (fun t => t.node == s.node), o + 2),
     (s.kind != 3 || s.rows == 0, o + 8)]
    ++ (if s.kind = 3 then
          [(decide ((recLen d - 8) % 32 = 0 ∧ 40 ≤ recLen d), h.poolOff + d + 4)]
          ++ s.extents.zipIdx.flatMap (fun x => let e := h.poolOff + d + 8 + 32 * x.2
            [(decide (x.1.slot < 48), e), (decide (x.1.col < s.cols), e + 1),
             (zeroAt pool (d + 8 + 32 * x.2 + 2) (d + 8 + 32 * x.2 + 4), e + 2),
             (zeroAt pool (d + 8 + 32 * x.2 + 24) (d + 8 + 32 * x.2 + 32), e + 24)])
        else
          [(decide (8 + 32 * s.cols ≤ recLen d), h.poolOff + d + 4)]
          ++ (List.range s.cols).flatMap (fun c => let e := d + 8 + 32 * c; let ty := scanTypeOf p s.node c
            [(ty.all (fun t => t == 0x10 || isDict t) || zeroAt pool (e + 16) (e + 24), h.poolOff + e + 16),
             (ty.all isDict || zeroAt pool (e + 24) (e + 28), h.poolOff + e + 24),
             (zeroAt pool (e + 28) (e + 32), h.poolOff + e + 28)])))
  ++ p.sinks.zipIdx.flatMap (fun q => let o := h.sinkAt q.2; let s := q.1
    [(decide (1 ≤ s.kind ∧ s.kind ≤ 3), o),
     (!s.sealHere || (p.sealed && !(p.sinks.take q.2).any Sink.sealHere), o + 1),
     (decide (s.node < h.nodes) && (p.node s.node).op == 0x40
        && !(p.sinks.take q.2).any (fun t => t.node == s.node), o + 2),
     (decide (131072 ≤ s.block ∧ s.block ≤ 16777216 ∧ s.block % 4096 = 0), o + 4), (decide (s.base % 4096 = 0), o + 8),
     (decide (s.len % max 1 s.block = 0), o + 16)])
  ++ p.nodes.zipIdx.map (fun q =>
      ((q.1.op != 0x01 || p.sources.any (fun s => s.node == q.2))
        && (q.1.op != 0x40 || p.sinks.any (fun s => s.node == q.2)), h.nodeAt q.2))
  ++ [(p.sealed == p.sinks.any Sink.sealHere, 6), (p.fabric == p.nodes.any (fun n => n.op == 0x30 || n.op == 0x31), 6)]

/-! ### Check 11: shared pieces -/

/-- A schema's types: codes, scales and dictionary value types, NULLABLE apart. -/
def typesOf (l : List ColTy) : List (Nat × Nat × Nat) := l.map (fun c => (c.ty, c.scale, c.dict))

/-- Bytes and alignment of a column in a row store (R128). -/
def storeWidth (t : Nat) : Nat := if t = 0x10 then 8 else if t = 0x0F then 1 else typeBits t / 8

/-- Row width B of R128: a header, the columns at their natural alignment, rounded up. -/
def rowWidth (header : Nat) (cols : List ColTy) : Nat :=
  let n := cols.foldl (fun o c => roundUp o (storeWidth c.ty) + storeWidth c.ty) header
  if n ≤ 16 then 16 else if n ≤ 32 then 32 else if n ≤ 64 then 64 else if n ≤ 128 then 128 else roundUp n 128

/-- The key columns an array of bytes names, `n` of them. -/
def keyCols (body : Bytes) (off n : Nat) : List Nat := (List.range n).map (fun i => fieldAt body (off + i) 1)

/-- A key column lies inside a schema and, under `noDict`, is of no DICT type. -/
def keyOk (schema : List ColTy) (noDict : Bool) (c : Nat) : Bool :=
  decide (c < schema.length) && !(noDict && isDict ((schema.getD c { ty := 0 }).ty))

/-- Key slots of a body: the first n key columns as `keyOk`, the slots beyond them all ones. -/
def keysConds (body : Bytes) (a off slots n : Nat) (schema : List ColTy) (noDict : Bool) : List Cond :=
  (List.range slots).map (fun i => let c := fieldAt body (off + i) 1
    (if i < n then keyOk schema noDict c else c == 0xFF, a + off + i))

/-- Zero bytes lo to hi of a parameter body at image offset `at0`. -/
def mbz (body : Bytes) (at0 lo hi : Nat) : Cond := (zeroAt body lo hi, at0 + lo)

/-- A body that holds the n bytes its operator reads; the LENGTH field of its record stands 4 bytes before it. No rule
gives this condition: a record too short to hold its operator's fields is taken as failing check 11. DEDUCED. -/
def bodyLen (body : Bytes) (at0 n : Nat) : Cond := (decide (n ≤ body.length), at0 - 4)

/-! ### Check 11: operators -/

/-- FILTER operators a type takes (R76). -/
def termAllowed (op t : Nat) : Bool :=
  if [0x01, 0x02, 0x09, 0x0A, 0x0B, 0x0C].contains op then true
  else if (0x03 ≤ op ∧ op ≤ 0x08) ∨ (0x10 ≤ op ∧ op ≤ 0x15) then t != 0x0F
  else if op = 0x0D then t == 0x0F
  else if op = 0x0E then t == 0x10
  else false

/-- COUNT as R76 requires. -/
def termCountOk (op n : Nat) : Bool :=
  if (1 ≤ op ∧ op ≤ 6) ∨ op = 0x0E then n == 1
  else if op = 0x07 ∨ op = 0x08 then n == 2
  else if op = 0x09 ∨ op = 0x0A then decide (1 ≤ n ∧ n ≤ 16)
  else n == 0

/-- A constant's range, and a VARBIN constant's place in the pool (R88). -/
def constOk (pool body : Bytes) (t off : Nat) : Bool :=
  if isVar t then
    decide (fieldAt body (off + 4) 2 ≤ 256) && decide (fieldAt body off 4 + fieldAt body (off + 4) 2 ≤ pool.length)
  else if isDec t then inRange t (intVal t (fieldAt body off (constBytes t) % 2 ^ typeBits t))
  else true

/-- FILTER's must-be-zero fields. -/
def filterMbz (x : Node) : List Cond :=
  [mbz x.param x.paramAt 3 8] ++ (List.range (fieldAt x.param 2 1)).flatMap (fun t =>
    let o := 8 + 16 * t
    let m := termAt x.param t
    [(decide (m.flags < 2), x.paramAt + o + 3)]
    ++ (if m.op < 0x10 then [(m.col2 == 0, x.paramAt + o + 4)] else [])
    ++ [mbz x.param x.paramAt (o + 5) (o + 8)]
    ++ (if m.count = 0 then [mbz x.param x.paramAt (o + 8) (o + 12)] else [])
    ++ [mbz x.param x.paramAt (o + 12) (o + 16)])

/-- FILTER's conditions (R88). -/
def filterConds (p : Prog) (h : IHead) (n : Nat) (x : Node) : List Cond :=
  let body := x.param
  let a := x.paramAt
  let s := p.inSchema n 0
  let terms := (List.range (fieldAt body 2 1)).map (termAt body)
  let ty (c : Nat) : ColTy := s.getD c { ty := 0 }
  [(fieldAt body 0 1 == 1, a), (decide (fieldAt body 1 1 < 2), a + 1),
   (decide (1 ≤ fieldAt body 2 1 ∧ fieldAt body 2 1 ≤ 8 ∧ 8 + 16 * fieldAt body 2 1 ≤ body.length), a + 2)]
  ++ terms.zipIdx.flatMap (fun q => let t := q.1; let o := a + 8 + 16 * q.2
      let vt := (ty t.col).valueType
      [(decide (t.col < s.length), o), (termAllowed t.op vt, o + 1), (termCountOk t.op t.count, o + 2)]
      ++ (if 0x10 ≤ t.op then
            [(decide (t.col2 < s.length) && (ty t.col2).ty == (ty t.col).ty && (ty t.col2).valueType == vt, o + 4)]
          else [])
      ++ (if t.count = 0 then []
          else [(decide (t.off % 8 = 0 ∧ t.off + constBytes vt * t.count ≤ body.length), o + 8)]))
  ++ [(decide ((terms.map Term.count).sum ≤ 16), a + 2)]
  ++ terms.flatMap (fun t => let vt := (ty t.col).valueType
      (List.range t.count).map (fun i =>
        (constOk p.pool body vt (t.off + constBytes vt * i), a + t.off + constBytes vt * i)))
  ++ [(x.schema == s, h.nodeAt n + 0xC)]

/-- SCAN's must-be-zero fields and conditions (R65, R88). -/
def scanConds (b : Bytes) (p : Prog) (h : IHead) (n : Nat) (x : Node) : List Cond :=
  let body := x.param
  let a := x.paramAt
  let i := fieldAt body 0 2
  let s := p.sources.getD i { kind := 0, cols := 0, node := 0xFFFF, rows := 0 }
  let m := fieldAt body 4 4
  [(decide (fieldAt body 2 1 < 2), a + 2), mbz body a 3 4]
  ++ (if s.kind = 3 then [mbz body a 8 16] else [])
  ++ [mbz body a 0x18 0x20, bodyLen body a 32, (decide (i < p.sources.length) && s.node == n, a),
      (decide (1 ≤ m ∧ m < 2 ^ s.cols), a + 4), (popCount m 32 == x.schema.length, a + 4)]
  ++ (if s.kind = 3 then []
      else s.dir.zipIdx.map (fun q => (decide (q.1.validity % 64 = 0 ∧ q.1.values % 64 = 0 ∧ q.1.data % 64 = 0),
            h.poolOff + fieldAt b (h.sourceAt i + 4) 4 + 8 + 32 * q.2))
        ++ [(decide (fieldAt body 8 8 + fieldAt body 0x10 8 ≤ 2 ^ 63), a + 8)])

/-- DECODE (R73, R88). -/
def decodeConds (p : Prog) (h : IHead) (n : Nat) (x : Node) : List Cond :=
  let s := p.inSchema n 0
  let m := fieldAt x.param 0 4
  let want := s.zipIdx.map (fun q => if bitAt m q.2 then (q.1.dict, q.1.scale, 0) else (q.1.ty, q.1.scale, q.1.dict))
  let kept := (s.zip x.schema).zipIdx.all (fun q => bitAt m q.2 || q.1.1.nullable == q.1.2.nullable)
  [mbz x.param x.paramAt 4 8, bodyLen x.param x.paramAt 8,
   (decide (m < 2 ^ s.length) && (setBits m 32).all (fun c => isDict ((s.getD c { ty := 0 }).ty)), x.paramAt),
   (typesOf x.schema == want && kept, h.nodeAt n + 0xC)]

/-! #### COMPUTE -/

/-- The type and scale of an operand byte; none where it names nothing readable. -/
def operandType (pool body : Bytes) (s0 s1 : List ColTy) (temps : Sparse (Option (Nat × Nat))) (k : Nat) :
    Option (Nat × Nat) :=
  let col (c : Option ColTy) : Option (Nat × Nat) := c.map (fun c => (c.ty, c.scale))
  if k < 0x20 then col s0[k]?
  else if k < 0x40 then col s1[k - 0x20]?
  else if k < 0x50 then Sparse.get none temps k
  else if 0x80 ≤ k ∧ k - 0x80 < fieldAt body 4 2 then
    let c := programConst pool body (k - 0x80)
    some (c.ty, c.scale)
  else none

/-- Operands of one arithmetic kind (R480). -/
def sameKind (t u : Nat) : Bool := (isDec t && isDec u) || (t == u && (isInt t || isFlt t))

/-- The kind of a result agrees with an operand's. -/
def resultKind (t u : Nat) : Bool := (isInt t && isInt u) || (isDec t && isDec u) || (isFlt t && isFlt u)

/-- CASTs that R85 gives. -/
def castOk (from_ into : Nat) : Bool :=
  let arith (t : Nat) : Bool := isInt t || isDec t || isFlt t
  (arith from_ && arith into) || (from_ == 0x0F && isInt into) || (from_ == 0x0D && into == 0x0E)

/-- A type and a scale that go together: a scale only for decimals. -/
def typeScaleOk (t s : Nat) : Bool := typeDefined t && scaleOk t s && (isDec t || isDict t || s == 0)

/-- A type of the arithmetic types. -/
def isArith (t : Nat) : Bool := isInt t || isDec t || isFlt t

/-- Operand A is of a type the operation takes (R81, R480). -/
def insAOk (op : Nat) (a : Nat × Nat) : Bool :=
  if 0x02 ≤ op ∧ op ≤ 0x0A then isArith a.1
  else if op = 0x10 then isArith a.1 || a.1 == 0x0F || a.1 == 0x0D
  else if op = 0x20 ∨ op = 0x21 ∨ op = 0x22 ∨ op = 0x25 then a.1 == 0x0F
  else if op = 0x28 then a.1 == 0x0D
  else if op = 0x29 ∨ op = 0x2A then a.1 == 0x0E
  else if 0x30 ≤ op ∧ op ≤ 0x33 then a.1 == 0x10
  else true

/-- Operand B is of a type the operation takes beside A. -/
def insBOk (op : Nat) (a b : Nat × Nat) : Bool :=
  if (0x02 ≤ op ∧ op ≤ 0x06) ∨ op = 0x09 ∨ op = 0x0A then sameKind a.1 b.1
  else if 0x18 ≤ op ∧ op ≤ 0x1D then sameKind a.1 b.1 || a.1 == b.1
  else if op = 0x20 ∨ op = 0x21 then b.1 == 0x0F
  else if op = 0x24 then b == a
  else if op = 0x28 then b.1 == 0x03
  else if op = 0x29 then b.1 == 0x04
  else if op = 0x31 ∨ op = 0x32 then b.1 == 0x10
  else if op = 0x33 then b.1 == 0x03
  else if op = 0x38 then b.1 == 0x08
  else true

/-- Operand C is of a type the operation takes beside B. -/
def insCOk (op : Nat) (b c : Nat × Nat) : Bool :=
  if op = 0x25 then c == b else if op = 0x33 then c.1 == 0x03 else true

/-- TYPE is a result type of the operation on such operands. -/
def insTyOk (op ty : Nat) (a b : Nat × Nat) : Bool :=
  if op = 0x01 ∨ op = 0x24 then ty == a.1
  else if 0x02 ≤ op ∧ op ≤ 0x0A then resultKind a.1 ty
  else if op = 0x10 then castOk a.1 ty
  else if (0x18 ≤ op ∧ op ≤ 0x1D) ∨ (0x20 ≤ op ∧ op ≤ 0x23) ∨ op = 0x32 then ty == 0x0F
  else if op = 0x25 then ty == b.1
  else if op = 0x28 ∨ op = 0x2A then ty == 0x0D
  else if op = 0x29 then ty == 0x0E
  else if op = 0x30 then ty == 0x03
  else if op = 0x31 ∨ op = 0x33 then ty == 0x10
  else if op = 0x38 then ty == 0x08
  else false

/-- SCALE is a result scale: that of the value passed on, or one the type takes. -/
def insScaleOk (op ty scale : Nat) (a b : Nat × Nat) : Bool :=
  if op = 0x01 ∨ op = 0x24 then scale == a.2
  else if op = 0x25 then scale == b.2
  else typeScaleOk ty scale

/-- An operation code that R81 defines. -/
def insDefined (op : Nat) : Bool :=
  decide ((0x01 ≤ op ∧ op ≤ 0x0A) ∨ op = 0x10 ∨ (0x18 ≤ op ∧ op ≤ 0x1D) ∨ (0x20 ≤ op ∧ op ≤ 0x25)
    ∨ (0x28 ≤ op ∧ op ≤ 0x2A) ∨ (0x30 ≤ op ∧ op ≤ 0x33) ∨ op = 0x38)

/-- What the instructions of a program must meet: the conditions on operations, operands and results; on what is
written and read; on the outputs' types. -/
structure InsConds where
  ops : List Cond := []
  writes : List Cond := []
  types : List Cond := []

/-- The conditions of one instruction at image offset o, the temporaries and outputs written before it given. -/
def insConds1 (p : Prog) (x : Node) (s0 s1 : List ColTy) (o : Nat) (temps : Sparse (Option (Nat × Nat))) (i : Ins) :
    InsConds :=
  let look (q : Nat) : Option (Nat × Nat) := operandType p.pool x.param s0 s1 temps q
  let temp (q : Nat) : Bool := decide (0x40 ≤ q ∧ q < 0x50)
  let two := decide (2 ≤ arity i.op)
  let three := decide (3 ≤ arity i.op)
  let a := (look i.a).getD (0, 0)
  let b := (look i.b).getD (0, 0)
  let c := (look i.c).getD (0, 0)
  let known := (look i.a).isSome && (!two || (look i.b).isSome) && (!three || (look i.c).isSome)
  let out := decide (0x50 ≤ i.dst ∧ i.dst < 0x70)
  { ops := [(insDefined i.op, o), ((look i.a).isSome || temp i.a, o + 2), (!two || (look i.b).isSome || temp i.b, o + 3),
      (!three || (look i.c).isSome || temp i.c, o + 4)]
      ++ (if known then
            [(insAOk i.op a, o + 2), (!two || insBOk i.op a b, o + 3), (!three || insCOk i.op b c, o + 4),
             (typeDefined i.ty && insTyOk i.op i.ty a b, o + 5), (insScaleOk i.op i.ty i.scale a b, o + 6)]
          else [])
    writes := [((look i.a).isSome, o + 2), (!two || (look i.b).isSome, o + 3), (!three || (look i.c).isSome, o + 4),
      (temp i.dst || (out && decide (i.dst - 0x50 < fieldAt x.param 1 1) && (Sparse.get none temps i.dst).isNone), o + 1)]
    types := if out then
        match x.schema[i.dst - 0x50]? with
        | none => [(false, o + 5)]
        | some k => [(i.ty == k.ty, o + 5), (i.scale == k.scale, o + 6)]
      else [] }

/-- Instructions in order: the conditions of all, threading the temporaries and outputs written so far. -/
def insConds (p : Prog) (x : Node) (s0 s1 : List ColTy) (at0 : Nat) :
    List Ins → Nat → Sparse (Option (Nat × Nat)) → InsConds
  | [], _, outs =>
    { writes := (List.range (fieldAt x.param 1 1)).map (fun k =>
        ((Sparse.get none outs (0x50 + k)).isSome, x.paramAt + 1)) }
  | i :: is, k, temps =>
    let c := insConds1 p x s0 s1 (at0 + 8 * k) temps i
    let r := insConds p x s0 s1 at0 is (k + 1) (Sparse.set none temps i.dst (some (i.ty, i.scale)))
    { ops := c.ops ++ r.ops, writes := c.writes ++ r.writes, types := c.types ++ r.types }

/-- The source an input descends from through SCAN, DECODE, FILTER and COMPUTE nodes only (R86). The first number bounds
the walk. -/
def Prog.root (p : Prog) : Nat → Nat → Nat → Option Nat
  | 0, _, _ => none
  | k + 1, n, port =>
    match p.feed n port with
    | none => none
    | some e =>
      let x := p.node e.src
      if x.op = 0x01 then some e.src
      else if x.op = 0x02 ∨ x.op = 0x03 then p.root k e.src 0
      else if x.op = 0x04 then
        if x.ins = 2 ∧ p.root k e.src 0 ≠ p.root k e.src 1 then none else p.root k e.src 0
      else none

/-- COMPUTE's must-be-zero fields. -/
def computeMbz (x : Node) : List Cond :=
  [mbz x.param x.paramAt 6 8]
  ++ (List.range (fieldAt x.param 4 2)).map (fun k => mbz x.param x.paramAt (8 + 24 * k + 2) (8 + 24 * k + 8))
  ++ (programOf x.param).zipIdx.flatMap (fun q =>
      let o := x.paramAt + 8 + 24 * fieldAt x.param 4 2 + 8 * q.2
      [(decide (2 ≤ arity q.1.op) || !insDefined q.1.op || q.1.b == 0, o + 3),
       (decide (3 ≤ arity q.1.op) || !insDefined q.1.op || q.1.c == 0, o + 4), (decide (q.1.flags < 16), o + 7)])

/-- COMPUTE's conditions (R88). -/
def computeConds (p : Prog) (n : Nat) (x : Node) : List Cond :=
  let body := x.param
  let a := x.paramAt
  let outs := fieldAt body 1 1
  let ni := fieldAt body 2 2
  let nc := fieldAt body 4 2
  [(fieldAt body 0 1 == 2, a), (decide (1 ≤ outs ∧ outs ≤ 32) && outs == x.schema.length, a + 1),
   (decide (1 ≤ ni ∧ ni ≤ 256), a + 2), (decide (nc ≤ 128 ∧ 8 + 24 * nc + 8 * ni ≤ body.length), a + 4)]
  ++ (List.range nc).flatMap (fun k => let o := 8 + 24 * k
      let t := fieldAt body o 1
      [(typeDefined t && !isDict t, a + o), (typeScaleOk t (fieldAt body (o + 1) 1), a + o + 1),
       (!isVar t || decide (fieldAt body (o + 8) 4 + fieldAt body (o + 12) 2 ≤ p.pool.length), a + o + 8)])
  ++ (let c := insConds p x (p.inSchema n 0) (p.inSchema n 1) (a + 8 + 24 * nc) (programOf body) 0 []
      c.ops ++ c.writes ++ c.types)
  ++ (if x.ins = 2 then
        let r := p.root p.nodes.length n 0
        [(r.isSome && r == p.root p.nodes.length n 1, a)]
      else [])

/-! #### Key fields of LV_BUILD and LOOKUP (R109, R110) -/

/-- A key field. -/
structure KField where
  col : Nat
  xf : Nat
  off : Nat
  width : Nat
deriving DecidableEq, Repr

/-- Field f of a body whose fields start at `at0`. -/
def kfieldAt (body : Bytes) (at0 f : Nat) : KField :=
  let o := at0 + 8 * f
  ⟨fieldAt body o 1, fieldAt body (o + 1) 1, fieldAt body (o + 2) 1, fieldAt body (o + 3) 1⟩

/-- The key fields of a body. -/
def kfields (body : Bytes) (at0 n : Nat) : List KField := (List.range n).map (kfieldAt body at0)

/-- A field's transform takes its column's type (R110). -/
def transformOk (t : Nat) (f : KField) : Bool :=
  match f.xf with
  | 0 => isFixed t || t == 0x0F
  | 1 => (isSigned t || isInt t || isFlt t) && f.width == typeBits t
  | 2 => isVar t && decide (f.width % 8 = 0)
  | 3 => isVar t
  | _ => false

/-- Conditions on key fields: column, transform, width, place, and no overlap. -/
def kfieldConds (body : Bytes) (a at0 n width : Nat) (s : List ColTy) : List Cond :=
  let fs := kfields body at0 n
  fs.zipIdx.flatMap (fun q => let o := a + at0 + 8 * q.2; let f := q.1
    [(decide (f.col < s.length), o), (transformOk ((s.getD f.col { ty := 0 }).ty) f, o + 1),
     (decide (1 ≤ f.width ∧ f.width ≤ 128 ∧ f.off + f.width ≤ width), o + 3),
     ((fs.take q.2).all (fun g => apart g.off g.width f.off f.width), o + 2)])

/-- LV_BUILD (R107). -/
def lvBuildConds (p : Prog) (n : Nat) (x : Node) : List Cond :=
  let body := x.param
  let a := x.paramAt
  let u (o : Nat) := fieldAt body o 1
  let s := p.inSchema n 0
  let ty (c : Nat) : Nat := (s.getD c { ty := 0 }).ty
  [mbz body a 7 8, mbz body a 13 16]
  ++ (List.range 4).map (fun f => if f < u 6 then mbz body a (0x20 + 8 * f + 4) (0x20 + 8 * f + 8)
      else mbz body a (0x20 + 8 * f) (0x20 + 8 * f + 8))
  ++ [bodyLen body a 64, (decide (u 0 < 64), a), (decide (u 1 < 3), a + 1), (decide (u 2 < 3), a + 2),
      (decide (1 ≤ u 3 ∧ u 3 < 16), a + 3), (decide (1 ≤ u 4 ∧ u 4 ≤ 4), a + 4), (decide (u 5 < 3), a + 5),
      (decide (1 ≤ u 6 ∧ u 6 ≤ 4) && (u 5 != 2 || u 6 == 1), a + 6),
      (u 8 == 0xFF || (decide (u 8 < s.length) && [0x05, 0x06, 0x07].contains (ty (u 8))), a + 8),
      (u 9 == 0xFF || (decide (u 9 < s.length) && ty (u 9) == 0x06), a + 9),
      ((if u 5 = 0 then u 12 == 0xFF
        else if u 5 = 1 then decide (u 12 < s.length) && ty (u 12) == 0x05
        else decide (u 12 < s.length) && ty (u 12) == ty (fieldAt body 0x20 1)), a + 12)]
  ++ kfieldConds body a 0x20 (u 6) (32 * 2 ^ u 2) s
  ++ (if u 5 = 2 then [((kfieldAt body 0x20 0).xf == 1, a + 0x21)] else [])
  ++ (if u 1 = 1 then [] else [mbz body a 0x10 0x20])

/-- The width code of a table that the image builds or declares. -/
def Prog.tableWidth (p : Prog) (t : Nat) : Option Nat :=
  match p.nodes.find? (fun n => n.op == 0x10 && fieldAt n.param 0 1 == t) with
  | some n => some (fieldAt n.param 2 1)
  | none => (p.decls.find? (fun d => d.table == t)).map Decl.width

/-- The columns that APPEND adds (R109). -/
def appendCols (m : Nat) : List ColTy :=
  (if bitAt m 0 then [{ ty := 0x07 }] else []) ++ (if bitAt m 1 then [{ ty := 0x07 }] else [])
  ++ (if bitAt m 2 then [{ ty := 0x06 }] else []) ++ (if bitAt m 3 then [{ ty := 0x0F }] else [])

/-- LOOKUP (R109). -/
def lookupConds (p : Prog) (h : IHead) (n : Nat) (x : Node) : List Cond :=
  let body := x.param
  let a := x.paramAt
  let u (o : Nat) := fieldAt body o 1
  let s := p.inSchema n 0
  [(decide (u 4 < 16), a + 4), mbz body a 5 8]
  ++ (List.range 4).map (fun f => mbz body a (8 + 8 * f + 4) (8 + 8 * f + 8))
  ++ [bodyLen body a 40, (decide (u 0 < 64), a), (decide (u 1 < 2), a + 1),
      (if u 1 = 0 then u 2 == 1 else decide (1 ≤ u 2), a + 2), (decide (1 ≤ u 3 ∧ u 3 ≤ 4), a + 3),
      ((p.tableWidth (u 0)).isSome, a)]
  ++ kfieldConds body a 8 (u 3) (32 * 2 ^ (p.tableWidth (u 0)).getD 0) s
  ++ [(typesOf x.schema == typesOf (s ++ appendCols (u 4)), h.nodeAt n + 0xC)]

/-! #### Hash joins (R126, R130, R136) -/

/-- HJ_BUILD. -/
def hjBuildConds (p : Prog) (h : IHead) (n : Nat) (x : Node) : List Cond :=
  let body := x.param
  let a := x.paramAt
  let u (o : Nat) := fieldAt body o 1
  let s := p.inSchema n 0
  let k := u 1
  let keys := (keyCols body 8 k).map (fun c => s.getD c { ty := 0 })
  let pm := fieldAt body 0xC 4
  [(decide (u 2 < 8), a + 2)]
  ++ (if u 0 = 1 then [mbz body a 3 4] else [])
  ++ [mbz body a 6 8, mbz body a 0x18 0x40, bodyLen body a 64,
      (decide (u 0 < 2), a), (decide (1 ≤ k ∧ k ≤ 4), a + 1)]
  ++ keysConds body a 8 4 k s true
  ++ [(decide (pm < 2 ^ s.length) && (pick pm s).all (fun c => !isDict c.ty), a + 0xC),
      (decide (rowWidth 8 (keys ++ pick pm s) ≤ 1024), a + 0xC), (decide (u 3 ≤ 16), a + 3),
      ((if bitAt (u 2) 1 then u 0 == 0 && decide (16 ≤ u 4 ∧ u 4 ≤ 32) else u 4 == 0), a + 4),
      ((if u 0 = 1 then decide (u 5 ≤ 60) else if bitAt (u 2) 1 then decide (u 5 < 64) else u 5 == 0), a + 5),
      (x.stateful, h.nodeAt n + 3), (x.outs == 0, h.nodeAt n + 5)]

/-- The probes that name a build. -/
def Prog.probesOf (p : Prog) (n : Nat) : List Node := p.nodes.filter (fun m => m.op == 0x13 && fieldAt m.param 0 2 == n)

/-- The output columns of a probe: the types R131 gives. -/
def probeTypes (p : Prog) (n : Nat) (x : Node) : List (Nat × Nat × Nat) :=
  let b := p.node (fieldAt x.param 0 2)
  let bs := p.inSchema b.id 0
  let jt := fieldAt x.param 2 1
  if jt = 4 ∨ jt = 5 then typesOf (p.inSchema n 0)
  else typesOf (pick (fieldAt x.param 8 4) (p.inSchema n 0)
    ++ pick (fieldAt x.param 0xC 4) (pick (fieldAt b.param 0xC 4) bs))

/-- HJ_PROBE. -/
def hjProbeConds (p : Prog) (h : IHead) (n : Nat) (x : Node) : List Cond :=
  let body := x.param
  let a := x.paramAt
  let u (o : Nat) := fieldAt body o 1
  let s := p.inSchema n 0
  let bn := fieldAt body 0 2
  let b := p.node bn
  let bs := p.inSchema bn 0
  let k := fieldAt b.param 1 1
  let jt := u 2
  let keyTy (sch : List ColTy) (l : List Nat) := l.map (fun c => let q := sch.getD c { ty := 0 }; (q.ty, q.scale))
  let needs (m : Node) : Bool :=
    fieldAt m.param 2 1 == 2 || fieldAt m.param 2 1 == 3 || (fieldAt m.param 2 1 == 5 && bitAt (fieldAt m.param 3 1) 0)
  let outer (m : Node) : Bool := fieldAt m.param 2 1 == 2 || fieldAt m.param 2 1 == 3
  [(decide (u 3 < 4), a + 3), mbz body a 0x10 0x20, bodyLen body a 32,
   (decide (bn < p.nodes.length) && b.op == 0x12, a)]
  ++ keysConds body a 4 (min k 4) k s false
  ++ ((keyTy s (keyCols body 4 k)).zip (keyTy bs (keyCols b.param 8 k))).zipIdx.map (fun q =>
      (q.1.1 == q.1.2, a + 4 + q.2))
  ++ [(decide (jt < 6), a + 2), (!bitAt (u 3) 0 || jt == 5, a + 3),
   (!bitAt (u 3) 1 || bitAt (fieldAt b.param 2 1) 1, a + 3), (decide (fieldAt body 8 4 < 2 ^ s.length), a + 8),
   (decide (fieldAt body 0xC 4 < 2 ^ popCount (fieldAt b.param 0xC 4) 32)
     && (decide (jt < 4) || fieldAt body 0xC 4 == 0), a + 0xC),
   (x.outs != 2 || jt == 0 || jt == 4, h.nodeAt n + 5), (x.stateful == (jt == 2 || jt == 3), h.nodeAt n + 3),
   (typesOf x.schema == probeTypes p n x, h.nodeAt n + 0xC),
   (bitAt (fieldAt b.param 2 1) 2 == (p.probesOf bn).any needs, b.paramAt + 2),
   (decide ((p.probesOf bn).length ≤ 8 ∧ ((p.probesOf bn).filter outer).length ≤ 1), a)]

/-! #### Sorting and aggregation (R164) -/

/-- Entry width E. -/
def entryWidth (code : Nat) : Nat := 16 * 2 ^ code

/-- Longest normalized key of fixed-width columns: their value bytes and null markers. -/
def fixedKeyLen (cols : List ColTy) : Nat :=
  (cols.map (fun c => (if c.ty = 0x0F then 1 else typeBits c.ty / 8) + b2n c.nullable)).sum

/-- SORT_RUN. -/
def sortRunConds (p : Prog) (h : IHead) (n : Nat) (x : Node) : List Cond :=
  let body := x.param
  let a := x.paramAt
  let u (o : Nat) := fieldAt body o 1
  let s := p.inSchema n 0
  let k := u 0
  let keys := (keyCols body 8 k).map (fun c => s.getD c { ty := 0 })
  let re := fieldAt body 4 4
  let keysOnly := bitAt (u 2) 0
  [(decide (u 2 < 2), a + 2), mbz body a 3 4]
  ++ (List.range 8).map (fun i => (decide (u (0x10 + i) < 4), a + 0x10 + i))
  ++ [mbz body a 0x18 0x20, bodyLen body a 32, (decide (1 ≤ k ∧ k ≤ 8), a)]
  ++ keysConds body a 8 8 k s true
  ++ [(decide (u 1 < 4), a + 1), (decide (re % 4096 = 0 ∧ re ≤ 2 ^ 21 / entryWidth (u 1)), a + 4),
      (!keysOnly || (keys.all (fun c => !isVar c.ty) && decide (fixedKeyLen keys + 8 ≤ entryWidth (u 1))), a + 2),
      (x.schema == (if keysOnly then keys else s), h.nodeAt n + 0xC),
      (keysOnly || decide (rowWidth 0 s ≤ 1024), h.nodeAt n + 0xC), (x.stateful && !x.blocking, h.nodeAt n + 3)]

/-- SORT_MERGE. -/
def sortMergeConds (p : Prog) (h : IHead) (n : Nat) (x : Node) : List Cond :=
  let body := x.param
  let a := x.paramAt
  let e := (p.feed n 0).getD { src := 0, port := 0, toPort := 0, dst := 0, depth := 0, cols := 0 }
  let r := p.node e.src
  let f := fieldAt body 0 1
  [mbz body a 1 8, bodyLen body a 16, (r.op == 0x20, h.nodeAt n), (f == 0 || decide (2 ≤ f ∧ f ≤ 64), a),
   (x.schema == r.schema, h.nodeAt n + 0xC), (e.cols + 1 == 2 ^ r.schema.length, h.nodeAt n),
   (x.stateful && x.blocking, h.nodeAt n + 3)]

/-- TOPK. -/
def topkConds (p : Prog) (h : IHead) (n : Nat) (x : Node) : List Cond :=
  let body := x.param
  let a := x.paramAt
  let u (o : Nat) := fieldAt body o 1
  let s := p.inSchema n 0
  let kk := fieldAt body 4 4
  [mbz body a 1 4]
  ++ (List.range 8).map (fun i => (decide (u (0x10 + i) < 4), a + 0x10 + i))
  ++ [mbz body a 0x1C 0x20, bodyLen body a 32, (decide (1 ≤ u 0 ∧ u 0 ≤ 8), a)]
  ++ keysConds body a 8 8 (u 0) s true
  ++ [(decide (1 ≤ kk ∧ kk ≤ 65536), a + 4), (decide (fieldAt body 0x18 4 < kk), a + 0x18),
      (x.schema == s, h.nodeAt n + 0xC), (decide (rowWidth 0 s ≤ 1024), h.nodeAt n + 0xC),
      (x.stateful && x.blocking, h.nodeAt n + 3)]

/-- An aggregate (R151). -/
structure AggFn where
  func : Nat
  col : Nat
  ty : Nat
  scale : Nat
  flags : Nat
deriving DecidableEq, Repr

/-- Aggregate a of a body. -/
def aggAt (body : Bytes) (i : Nat) : AggFn :=
  let o := 0x20 + 16 * i
  ⟨fieldAt body o 1, fieldAt body (o + 1) 1, fieldAt body (o + 2) 1, fieldAt body (o + 3) 1, fieldAt body (o + 4) 1⟩

/-- The aggregates of a body. -/
def aggsOf (body : Bytes) : List AggFn := (List.range (fieldAt body 1 1)).map (aggAt body)

/-- FUNC is one of R151's. -/
def AggFn.defined (g : AggFn) : Bool := decide (1 ≤ g.func ∧ g.func ≤ 9)

/-- An input column type the function takes (R152). -/
def AggFn.takes (g : AggFn) (t : Nat) : Bool :=
  match g.func with
  | 0x01 => true
  | 0x02 => true
  | 0x03 => isInt t || isDec t || isFlt t
  | 0x06 => isInt t || isDec t || isFlt t
  | 0x04 => !isDict t
  | 0x05 => !isDict t
  | 0x07 => !isDict t
  | _ => t == 0x0F

/-- TYPE as R152 gives it for an input column. -/
def AggFn.tyOk (g : AggFn) (c : ColTy) : Bool :=
  match g.func with
  | 0x01 => g.ty == 0x04
  | 0x02 => g.ty == 0x04
  | 0x03 => if isInt c.ty then g.ty == 0x04 || g.ty == 0x0A else if isDec c.ty then g.ty == 0x0A else g.ty == 0x0C
  | 0x06 => if isFlt c.ty then g.ty == 0x0C else g.ty == 0x0A
  | _ => g.ty == c.ty

/-- SCALE as R152 gives it for an input column. -/
def AggFn.scaleOk (g : AggFn) (c : ColTy) : Bool :=
  match g.func with
  | 0x03 => if isDec c.ty then g.scale == c.scale else g.scale == 0
  | 0x06 => if isFlt c.ty then g.scale == 0 else decide (g.scale ≤ 38)
  | 0x04 => g.scale == c.scale
  | 0x05 => g.scale == c.scale
  | 0x07 => g.scale == c.scale
  | _ => g.scale == 0

/-- An aggregate whose record starts at image offset o: FUNC for its input type, TYPE and SCALE (R152). One that has no input
column is left to the condition on COLUMN. -/
def aggConds1 (s : List ColTy) (g : AggFn) (o : Nat) : List Cond :=
  let c := s.getD g.col { ty := 0 }
  (g.defined, o) :: (if g.func ≠ 0x01 ∧ g.col = 0xFF then []
    else [(g.func == 0x01 || decide (g.col < s.length), o + 1), (g.takes c.ty, o), (g.tyOk c, o + 2), (g.scaleOk c, o + 3)])

/-- Nibble positions an aggregate takes (R158). -/
def AggFn.positions (g : AggFn) : Nat := if g.ty = 0x0A then 2 else 1

/-- HASH_AGG and SORT_AGG. -/
def aggConds (p : Prog) (h : IHead) (n : Nat) (x : Node) : List Cond :=
  let body := x.param
  let a := x.paramAt
  let u (o : Nat) := fieldAt body o 1
  let s := p.inSchema n 0
  let gs := aggsOf body
  let res := bitAt (u 2) 0
  let keys := (keyCols body 8 (u 0)).map (fun c => s.getD c { ty := 0 })
  [(decide (u 2 < 2), a + 2), mbz body a 3 8]
  ++ (if x.op = 0x24 then [mbz body a 0x10 0x18] else [])
  ++ [mbz body a 0x18 0x20]
  ++ gs.zipIdx.flatMap (fun q => [(decide (q.1.flags < 8), a + 0x20 + 16 * q.2 + 4),
      mbz body a (0x20 + 16 * q.2 + 5) (0x20 + 16 * q.2 + 16)])
  ++ [bodyLen body a 32, (decide (u 0 ≤ 8), a)]
  ++ keysConds body a 8 8 (u 0) s false
  ++ [(decide (1 ≤ u 1 ∧ u 1 ≤ 24), a + 1), bodyLen body a (32 + 16 * u 1)]
  ++ gs.zipIdx.flatMap (fun q => aggConds1 s q.1 (a + 0x20 + 16 * q.2))
  ++ gs.zipIdx.map (fun q => ((q.1.col == 0xFF) == (q.1.func == 0x01), a + 0x20 + 16 * q.2 + 1))
  ++ [(!res || decide ((gs.map AggFn.positions).sum ≤ 15), a + 2),
      ((x.schema.map (fun c => (c.ty, c.scale)))
        == (keys.map (fun c => (c.ty, c.scale)) ++ gs.map (fun g => (g.ty, g.scale)) ++ (if res then [(0x08, 0)] else [])),
        h.nodeAt n + 0xC),
      (x.stateful && (x.blocking == (x.op == 0x23)), h.nodeAt n + 3)]

/-! #### Shuffles (R364, R366, R367, R369) -/

/-- SHUFFLE_OUT. -/
def shuffleOutConds (p : Prog) (h : IHead) (n : Nat) (x : Node) : List Cond :=
  let body := x.param
  let a := x.paramAt
  let u (o : Nat) := fieldAt body o 1
  [mbz body a 7 8, mbz body a 0xC 0x10, mbz body a 0x18 0x20]
  ++ (List.range (2 ^ min 16 (u 5))).map (fun i => (decide (fieldAt body (0x20 + 2 * i) 2 < 8192), a + 0x20 + 2 * i))
  ++ [(fieldAt body 0 4 != 0, a), (decide (u 4 < 3), a + 4), (decide (u 5 ≤ 16), a + 5),
      (if u 4 = 0 then decide (1 ≤ u 6 ∧ u 6 ≤ 4) else u 6 == 0, a + 6),
      ]
  ++ keysConds body a 8 4 (u 6) (p.inSchema n 0) true
  ++ [bodyLen body a (32 + 2 * 2 ^ min 16 (u 5)),
      (x.stateful && !x.blocking, h.nodeAt n + 3)]

/-- SHUFFLE_IN. -/
def shuffleInConds (p : Prog) (h : IHead) (n : Nat) (x : Node) : List Cond :=
  let body := x.param
  let a := x.paramAt
  let k := fieldAt body 4 2
  let ids := (List.range k).map (fun i => fieldAt body (8 + 2 * i) 2)
  let twin := p.nodes.find? (fun m => m.op == 0x30 && fieldAt m.param 0 4 == fieldAt body 0 4)
  [mbz body a 6 8]
  ++ ids.zipIdx.map (fun q => (decide (q.1 < 8192), a + 8 + 2 * q.2))
  ++ [(fieldAt body 0 4 != 0, a), (decide (1 ≤ k ∧ k ≤ 8192), a + 4), bodyLen body a (8 + 2 * k)]
  ++ ids.zipIdx.map (fun q => (!(ids.take q.2).contains q.1, a + 8 + 2 * q.2))
  ++ [(x.stateful && !x.blocking, h.nodeAt n + 3),
      (match twin with
        | some m => x.schema == p.inSchema m.id 0
        | none => true, h.nodeAt n + 0xC)]

/-! ### Check 11 -/

/-- The conditions of one node: READY_MASK, then its operator's. -/
def nodeConds (b : Bytes) (p : Prog) (h : IHead) (n : Nat) (x : Node) : List Cond :=
  (bits x.mask 23 15 == 0, h.nodeAt n + 8) ::
  (match x.op with
    | 0x01 => scanConds b p h n x
    | 0x02 => decodeConds p h n x
    | 0x03 => filterMbz x ++ filterConds p h n x
    | 0x04 => computeMbz x ++ computeConds p n x
    | 0x10 => lvBuildConds p n x
    | 0x11 => lookupConds p h n x
    | 0x12 => hjBuildConds p h n x
    | 0x13 => hjProbeConds p h n x
    | 0x20 => sortRunConds p h n x
    | 0x21 => sortMergeConds p h n x
    | 0x22 => topkConds p h n x
    | 0x23 => aggConds p h n x
    | 0x24 => aggConds p h n x
    | 0x30 => shuffleOutConds p h n x
    | 0x31 => shuffleInConds p h n x
    | _ => [])

/-- The build links: build node and the node that names it. -/
def Prog.buildLinks (p : Prog) : List (Nat × Nat) :=
  p.nodes.flatMap (fun m =>
    if m.op = 0x13 then [(fieldAt m.param 0 2, m.id)]
    else if m.op = 0x11 then
      ((p.nodes.filter (fun b => b.op == 0x10 && fieldAt b.param 0 1 == fieldAt m.param 0 1)).map (fun b => (b.id, m.id)))
    else [])

/-- The build links' conditions, each reported at its build node's descriptor. -/
def linkConds (p : Prog) (h : IHead) : List Cond :=
  let builds := p.nodesOf (fun op => op == 0x10 || op == 0x12)
  let toSink := growSet (turned p.links) p.nodes.length (p.nodesOf (fun op => op == 0x40 || op == 0x30))
  let cyc := cyclic (p.links ++ p.buildLinks) p.nodes.length
  builds.flatMap (fun n =>
    let users := (p.buildLinks.filter (fun l => l.1 == n)).map Prod.snd
    [(decide (users ≠ []), h.nodeAt n), (users.all toSink.contains, h.nodeAt n)])
  ++ builds.map (fun n => (!cyc.contains n, h.nodeAt n))

/-- Check 11. -/
def check11 (b : Bytes) (pool : Bytes) (h : IHead) (recs : List PRec) (p : Prog) : List Cond :=
  p.nodes.zipIdx.flatMap (fun q => nodeConds b p h q.2 q.1)
  ++ (declRecs p.nodes pool recs).map (fun r =>
      (zeroAt pool (r.off + 11) (r.off + 16), h.poolOff + r.off + 11))
  ++ linkConds p h

/-- The eleven checks in order: the image, or the number of the check that fails and the offset of the failing field
(R63). `depth` is the default edge depth. -/
def imageCheck (b : Bytes) (declared depth : Nat) : Except BadImage Prog := do
  checkAll 1 (check1 b declared)
  let h := headerOf b
  let pool := sliceAt b h.poolOff (min h.poolLen b.length)
  let r := poolRecs pool (pool.length / 8 + 1) 0
  checkAll 2 (check2 b h r.1)
  checkAll 3 (check3 h)
  let p := progOf (b.take h.len) depth
  checkAll 4 (check4 h p)
  checkAll 5 (check5 b h p)
  checkAll 6 (check6 h p)
  checkAll 7 (check7 b h r.1 r.2 p)
  checkAll 8 (check8 pool h r.1)
  checkAll 9 (check9 h p)
  checkAll 10 (check10 b pool h r.1 p)
  checkAll 11 (check11 b pool h r.1 p)
  return p

end Sys2Proof.Machine
end

