-- ==== Sys2Proof/Machine/Louvre.lean ====
section
/-!
DEFINITION. The Louvre: match rule and winner (R96, R97), placement and capacity (R99, R100), loading (R102 to R106),
searching (R112), verification and scrubbing (R113 to R116).
-/

namespace Sys2Proof.Machine

/-! ### Tables and banks -/

/-- Entries of a bank (R95). -/
def bankEntries : Nat := 16384

/-- A bank. -/
def Dev.lvBank (d : Dev) (c b : Nat) : LvBank := Sparse.get {} d.louvre.banks (4 * c + b)

/-- Put a bank. -/
def Dev.setLvBank (d : Dev) (c b : Nat) (x : LvBank) : Dev :=
  { d with louvre := { d.louvre with banks := Sparse.set {} d.louvre.banks (4 * c + b) x } }

/-- A table; none while its number is unbound. -/
def Dev.lvTable (d : Dev) (t : Nat) : Option LvTable := Sparse.get none d.louvre.tables t

/-- Put or remove a table. -/
def Dev.setLvTable (d : Dev) (t : Nat) (x : Option LvTable) : Dev :=
  { d with louvre := { d.louvre with tables := Sparse.set none d.louvre.tables t x } }

/-- Width in bits of a WIDTH code (R104). -/
def lvBits (w : Nat) : Nat := 32 * 2 ^ w

/-- Capacity of a Casement copy (R99). -/
def LvTable.capacity (t : LvTable) : Nat := if t.layout = 0 then bankEntries else t.span * bankEntries

/-- The Casements of a table's mask. -/
def LvTable.casements (t : LvTable) : List Nat := setBits t.mask 4

/-- Unbound banks of a Casement that may take a table: those not fenced. A gated Casement keeps its banks. -/
def Dev.freeBanks (d : Dev) (c : Nat) : List Nat :=
  if d.fget (F.CS_STAT_STATE c) = 6 then []
  else (List.range 4).filter (fun b => (d.lvBank c b).table.isNone && !(d.lvBank c b).fenced)

/-- Unbound banks of the device (R118). -/
def Dev.freeBankCount (d : Dev) : Nat := ([0, 1, 2, 3].map (fun c => (d.freeBanks c).length)).sum

/-- The bank ordinal a STEERED key falls to (R99, R122). -/
def steerBank (key steer span : Nat) : Nat :=
  let k := Nat.land key steer
  fh64 [k % 2 ^ 64, k / 2 ^ 64] 16 0 % span

/-! ### Matching (R96, R97) -/

/-- The parity of a number's low n bits. -/
def parityOf (n w : Nat) : Nat := popCount n w % 2

/-- An entry with its check bits (R95). -/
def LvEntry.checked (e : LvEntry) : LvEntry :=
  { e with check := ((List.range 4).map (fun i => parityOf (e.key / 2 ^ (32 * i)) 32 * 2 ^ i)).sum
      + (parityOf e.care 128 + parityOf e.prio 16 + parityOf e.tag 24 + b2n e.valid) % 2 * 16 }

/-- An entry matches a search key of a table's width. -/
def LvEntry.hit (e : LvEntry) (w s : Nat) : Bool :=
  e.valid && Nat.land (Nat.xor (s % 2 ^ w) e.key) e.care % 2 ^ w == 0

/-- The walk order: higher priority first, then lower index. -/
def lvBefore (a b : Nat × LvEntry) : Bool :=
  decide (b.2.prio < a.2.prio) || (decide (a.2.prio = b.2.prio) && decide (a.1 < b.1))

/-- Insert a match into a walk. -/
def lvInsert (m : Nat × LvEntry) : List (Nat × LvEntry) → List (Nat × LvEntry)
  | [] => [m]
  | x :: xs => if lvBefore m x then m :: x :: xs else x :: lvInsert m xs

/-- All matches of a search key among indexed entries, in walk order. -/
def lvWalk (w s : Nat) (es : List (Nat × LvEntry)) : List (Nat × LvEntry) :=
  (es.filter (fun p => p.2.hit w s)).foldr lvInsert []

/-- The banks of a Casement that hold a table, by ordinal. -/
def Dev.banksOf (d : Dev) (t c : Nat) : List (Nat × LvBank) :=
  ((List.range 4).map (d.lvBank c)).filterMap (fun x => if x.table = some t then some (x.ordinal, x) else none)

/-- Every entry of a Casement's copy with its table index (R99). -/
def Dev.lvEntries (d : Dev) (t c : Nat) (tbl : LvTable) : List (Nat × LvEntry) :=
  if tbl.layout = 0 then
    match (d.banksOf t c).head? with
    | some x => x.2.entries
    | none => []
  else (d.banksOf t c).flatMap (fun x => x.2.entries.map (fun p => (x.1 * bankEntries + p.1, p.2)))

/-- The entries that one search of a copy looks at: under STEERED those of the key's bank alone. -/
def Dev.lvSearched (d : Dev) (t c : Nat) (tbl : LvTable) (s : Nat) : List (Nat × LvEntry) :=
  let es := d.lvEntries t c tbl
  if tbl.layout = 1 then
    let o := steerBank (s % 2 ^ lvBits tbl.width) tbl.steer tbl.span
    es.filter (fun p => p.1 / bankEntries == o)
  else es

/-- A search of a Casement's copy: its walk. -/
def Dev.lvSearch (d : Dev) (t c : Nat) (tbl : LvTable) (s : Nat) : List (Nat × LvEntry) :=
  lvWalk (lvBits tbl.width) s (d.lvSearched t c tbl s)

/-- Whether a table is damaged (R114, R115). -/
def Dev.lvDamaged (d : Dev) (t : Nat) : Bool := (d.lvTable t).any LvTable.damaged

/-- Mark a table damaged. -/
def Dev.lvDamage (d : Dev) (t : Nat) : Dev :=
  match d.lvTable t with
  | some x => d.setLvTable t (some { x with damaged := true })
  | none => d

/-- Count a search and its outcome (R118). -/
def Dev.lvCount (d : Dev) (walk : List (Nat × LvEntry)) : Dev :=
  let d := d.ocount O.LOUVRE_SEARCHES 1
  let d := if walk = [] then d else d.ocount O.LOUVRE_HITS 1
  if 1 < walk.length then d.ocount O.LOUVRE_MULTI 1 else d

/-! ### Binding (R98 to R100, R103) -/

/-- The lists of entries by bank ordinal of one copy: record i at index i, or at the next position of its steered
bank. -/
def lvPlace (t : LvTable) (es : List LvEntry) : List (List LvEntry) :=
  if t.layout = 0 then List.replicate t.span es
  else if t.layout = 1 then
    (List.range t.span).map (fun o => es.filter (fun e => steerBank e.key t.steer t.span == o))
  else (List.range t.span).map (fun o => (es.drop (o * bankEntries)).take bankEntries)

/-- Entries with their positions and check bits; an entry equal to an empty position is not kept. -/
def lvPositions (es : List LvEntry) : Sparse LvEntry :=
  (es.zipIdx.map (fun p => (p.2, p.1.checked))).filter (fun p => decide (p.2 ≠ {}))

/-- Whether entries fit a table (R100, second and third case). -/
def lvFits (t : LvTable) (es : List LvEntry) : Bool :=
  decide (es.length ≤ t.capacity) && (lvPlace t es).all (fun l => decide (l.length ≤ bankEntries))

/-- Whether every Casement of a mask has span unbound banks (R100, first case). -/
def Dev.lvRoom (d : Dev) (t : LvTable) : Bool := t.casements.all (fun c => decide (t.span ≤ (d.freeBanks c).length))

/-- Unbind a table from every bank. -/
def Dev.lvUnbind (d : Dev) (t : Nat) : Dev :=
  let clear (x : LvBank) : LvBank :=
    if x.table = some t then { fenced := x.fenced, shadow := x.shadow } else x
  let d := { d with louvre := { d.louvre with banks := d.louvre.banks.filterMap (fun (p : Nat × LvBank) =>
    if clear p.2 = ({} : LvBank) then none else some (p.1, clear p.2)) } }
  d.setLvTable t none

/-- Bind the lowest of the free banks of one Casement to the lists of a copy. -/
def Dev.lvBindCopy (d : Dev) (t c : Nat) (free : List Nat) (lists : List (List LvEntry)) : Dev :=
  (free.zip lists.zipIdx).foldl (fun d p =>
    d.setLvBank c p.1 { (d.lvBank c p.1) with table := some t, ordinal := p.2.2, entries := lvPositions p.2.1 }) d

/-- A LOOKUP of a context, the owner of the new copy excepted, has still to run on the bound copy of a table. -/
def Ctx.looksUp (x : Ctx) (t : Nat) (n : Node) (y : NodeRun) : Bool :=
  (x.state == 2 || x.state == 4) && n.op == 0x11 && fieldAt n.param 0 1 == t && !y.ended && y.lvUse.isNone

/-- The bound copy of a table is to be replaced: where LOOKUPs of running contexts use it, its banks go on under an internal
number that those nodes keep up to their next boundary; otherwise they are unbound (R103). -/
def Dev.lvRetire (d : Dev) (t : Nat) (owner : Option Nat) : Dev :=
  let others := d.pipes.ctxs.filter (fun p => decide (some p.1 ≠ owner)
    && (p.2.prog.nodes.zip p.2.nodes).any (fun e => p.2.looksUp t e.1 e.2))
  if others = [] ∨ (d.lvTable t).isNone = true then d.lvUnbind t
  else
    let o := (((List.range (d.louvre.tables.length + 1)).map (fun g => t + 64 * (g + 1))).find?
      (fun k => (d.lvTable k).isNone)).getD (t + 64)
    let d := { d with louvre := { d.louvre with banks := d.louvre.banks.map (fun (p : Nat × LvBank) =>
      if p.2.table = some t then (p.1, { p.2 with table := some o }) else p) } }
    let d := (d.setLvTable o (d.lvTable t)).setLvTable t none
    { d with pipes := { d.pipes with ctxs := d.pipes.ctxs.map (fun (p : Nat × Ctx) =>
      if some p.1 = owner then p
      else (p.1, { p.2 with nodes := (p.2.prog.nodes.zip p.2.nodes).map (fun e =>
        if p.2.looksUp t e.1 e.2 then { e.2 with lvUse := some o } else e.2) })) } }

/-- Retired copies that no LOOKUP uses any more are unbound (R103, step 4). -/
def Dev.lvSweep (d : Dev) : Dev :=
  (d.louvre.tables.filter (fun p => decide (64 ≤ p.1)
    && d.pipes.ctxs.all (fun q => q.2.nodes.all (fun y => decide (y.lvUse ≠ some p.1))))).foldl (fun d p => d.lvUnbind p.1) d

/-- The new copy of a table stands in its banks and LOOKUPs have still to go over to it (SWAP_PEND of R103, R117). -/
def Dev.swapPend (d : Dev) (c b : Nat) : Bool :=
  match (d.lvBank c b).table with
  | some t => decide (t < 64) && d.louvre.tables.any (fun p => decide (64 ≤ p.1) && decide (p.1 % 64 = t))
  | none => false

/-- Bind a complete new copy of a table in every Casement of its mask, in banks that are free beside those it holds; the old
ones are unbound once every LOOKUP has gone over (R103). `none`: LOUVRE_FULL. -/
def Dev.lvBind (d : Dev) (t : Nat) (x : LvTable) (es : List LvEntry) : Option Dev :=
  let foreign := match d.lvTable t with
    | some o => decide (o.owner ≠ x.owner) && o.owner.isSome
    | none => false
  if foreign = true ∨ lvFits x es = false ∨ d.lvRoom x = false then none
  else
    let free := d.freeBanks
    let d := d.lvRetire t x.owner
    let d := x.casements.foldl (fun d c => d.lvBindCopy t c (free c) (lvPlace x es)) d
    some (d.setLvTable t (some x))

/-! ### Who names a table -/

/-- Contexts in RUNNING, PARKING or PARKED with a LOOKUP that names the table (R104). -/
def Dev.lvNamers (d : Dev) (t : Nat) : Nat :=
  (d.pipes.ctxs.filter (fun p => (p.2.state == 2 || p.2.state == 4 || p.2.state == 5)
    && p.2.prog.nodes.any (fun n => n.op == 0x11 && fieldAt n.param 0 1 == t))).length

/-! ### LOUVRE_LOAD (R104 to R106) -/

/-- What a record of the entry list says. -/
structure LvRecord where
  entry : LvEntry
  index : Nat
deriving DecidableEq, Repr

/-- Read a record, cut to the table's width; its failure status. `write` says whether INDEX is used. -/
def lvRecord (t : LvTable) (write : Bool) (b : Bytes) : Except Nat LvRecord :=
  let w := lvBits t.width
  let care := fieldAt b 16 16
  let index := fieldAt b 0x28 4
  let used := write && t.layout != 1
  if fieldAt b 0x22 1 ≥ 2 ∨ fieldAt b 0x23 1 ≠ 0 ∨ fieldAt b 0x27 1 ≠ 0 ∨ fieldAt b 0x2C 4 ≠ 0
      ∨ (used = false ∧ index ≠ 0)
      ∨ (t.layout = 1 ∧ Nat.land care t.steer % 2 ^ w ≠ t.steer % 2 ^ w) then .error 0x0103
  else if used = true ∧ t.capacity ≤ index then .error 0x0303
  else
    .ok { entry := { key := Nat.land (fieldAt b 0 16) care % 2 ^ w, care := care % 2 ^ w, prio := fieldAt b 0x20 2
                     tag := fieldAt b 0x24 3, valid := bitAt (fieldAt b 0x22 1) 0 }
          index := index }

/-- Read records up to the first that fails: those before it, and its status. -/
def lvRecords (t : LvTable) (write : Bool) : Nat → Bytes → List LvRecord × Nat
  | 0, _ => ([], 0)
  | n + 1, b =>
    match lvRecord t write (b.take 48) with
    | .error e => ([], e)
    | .ok r => let rest := lvRecords t write n (b.drop 48); (r :: rest.1, rest.2)

/-- The table an entry's fields describe. -/
def lvTableOf (b : Bytes) : LvTable :=
  let w := fieldAt b 19 1
  { width := w, layout := fieldAt b 18 1, span := fieldAt b 21 1, mask := fieldAt b 20 1
    steer := fieldAt b 48 16 % 2 ^ lvBits w }

/-- The banks a table has bound in the lowest Casement that holds a copy (R106, assumption log 171). -/
def Dev.lvHeld (d : Dev) (t : Nat) : Nat :=
  match (d.lvTable t).bind (fun x => x.casements.head?) with
  | some c => (d.banksOf t c).length
  | none => 0

/-- The completion of R106, with the banks held in byte 9. -/
def Dev.lvResult (d : Dev) (id t st records fail : Nat) (noEffect : Bool) : Dev :=
  d.finish id st (leBytes 4 records ++ leBytes 4 fail ++ leBytes 1 (b2n noEffect) ++ leBytes 1 (d.lvHeld t)
    ++ leBytes 2 (d.lvNamers t) ++ zeros 4) 0

/-- The list of a LOUVRE_LOAD. -/
def Dev.lvList (d : Dev) (b : Bytes) : Except Nat Bytes :=
  d.readSpace (bitAt (fieldAt b 22 1) 0) (fieldAt b 24 8) (48 * fieldAt b 32 4)

/-- No record failed. -/
def noRecord : Nat := 0xFFFFFFFF

/-- Read the list of a CREATE or SWAP and bind its table, or leave every bank as it was. -/
def Dev.lvCreate (d : Dev) (id : Nat) (b : Bytes) : Dev :=
  let t := fieldAt b 17 1
  let x := lvTableOf b
  let n := fieldAt b 32 4
  match d.lvList b with
  | .error e => d.lvResult id t e 0 noRecord false
  | .ok list =>
    let rs := lvRecords x false n list
    if rs.2 ≠ 0 then d.lvResult id t rs.2 0 rs.1.length false
    else
      match d.lvBind t x (rs.1.map LvRecord.entry) with
      | some d => d.lvResult id t 0 n noRecord false
      | none => d.lvResult id t 0x0303 0 noRecord false

/-- A LOUVRE_LOAD in flight with one of the four operations. -/
def Dev.lvLoad (d : Dev) (id op : Nat) : Option Cmd :=
  match d.running id opLouvreLoad with
  | some c => if fieldAt c.entry 16 1 = op then some c else none
  | none => none

/-- LOUVRE_CREATE. -/
def Dev.louvreCreate (d : Dev) (id : Nat) : Dev :=
  match d.lvLoad id 0 with
  | none => d
  | some c =>
    let t := fieldAt c.entry 17 1
    if (d.lvTable t).isSome then d.lvResult id t 0x0303 0 noRecord false else d.lvCreate id c.entry

/-- LOUVRE_SWAP: no effect while a context names the table; on an unbound number it acts as CREATE. -/
def Dev.louvreSwap (d : Dev) (id : Nat) : Dev :=
  match d.lvLoad id 2 with
  | none => d
  | some c =>
    let t := fieldAt c.entry 17 1
    if d.lvNamers t ≠ 0 then d.lvResult id t 0 0 noRecord true else d.lvCreate id c.entry

/-- A table that an HJ_BUILD of its context built: read-only until the context becomes FREE (R134). -/
def Dev.lvBuilt (d : Dev) (t : Nat) : Bool :=
  match (d.lvTable t).bind LvTable.owner with
  | some c => !((Sparse.get {} d.pipes.ctxs c).prog.nodes.any (fun n => n.op == 0x10 && fieldAt n.param 0 1 == t))
  | none => false

/-- LOUVRE_UNLOAD. -/
def Dev.louvreUnload (d : Dev) (id : Nat) : Dev :=
  match d.lvLoad id 3 with
  | none => d
  | some c =>
    let t := fieldAt c.entry 17 1
    if d.lvNamers t ≠ 0 ∨ (d.lvTable t).isNone = true ∨ d.lvBuilt t = true then d.lvResult id t 0 0 noRecord true
    else (d.lvUnbind t).lvResult id t 0 0 noRecord false

/-- Write an entry at a position of a table's bank ordinal, in every copy. -/
def Dev.lvPut (d : Dev) (t : Nat) (x : LvTable) (ordinal pos : Nat) (e : LvEntry) : Dev :=
  x.casements.foldl (fun d c =>
    (List.range 4).foldl (fun d b =>
      let y := d.lvBank c b
      if y.table = some t ∧ (x.layout = 0 ∨ y.ordinal = ordinal) then
        d.setLvBank c b { y with entries := Sparse.set {} y.entries pos e.checked }
      else d) d) d

/-- The lowest position of a bank without a valid entry (assumption log 164). -/
def freePosition (es : Sparse LvEntry) : Option Nat :=
  (List.range bankEntries).find? (fun i => !(Sparse.get {} es i).valid)

/-- Write one record (R105). `none`: its bank has no free position. Under STEERED a record with VALID clear meets valid entries
alone, and counts as written where it meets none (assumption log 164). -/
def Dev.lvWriteRecord (d : Dev) (t : Nat) (x : LvTable) (r : LvRecord) : Option Dev :=
  if x.layout = 1 then
    let o := steerBank r.entry.key x.steer x.span
    let es := match x.casements.findSome? (fun c => (d.banksOf t c).find? (fun p => p.1 = o)) with
      | some p => p.2.entries
      | none => []
    if r.entry.valid then (freePosition es).map (fun i => d.lvPut t x o i r.entry)
    else
      match es.find? (fun p => p.2.valid && p.2.key == r.entry.key && p.2.care == r.entry.care) with
      | some p => some (d.lvPut t x o p.1 { p.2 with valid := false })
      | none => some d
  else some (d.lvPut t x (r.index / bankEntries) (r.index % bankEntries) r.entry)

/-- Write records in list order: how many, and the status of the one that stopped the rest, LOUVRE_FULL where its STEERED bank is
full (assumption log 164). -/
def Dev.lvWriteAll (d : Dev) (t : Nat) (x : LvTable) : List LvRecord → Nat → Dev × Nat × Nat
  | [], n => (d, n, 0)
  | r :: rs, n =>
    match d.lvWriteRecord t x r with
    | some d => d.lvWriteAll t x rs (n + 1)
    | none => (d, n, 0x0303)

/-- LOUVRE_WRITE: record by record into the bound table (R102, R105). -/
def Dev.louvreWrite (d : Dev) (id : Nat) : Dev :=
  match d.lvLoad id 1 with
  | none => d
  | some c =>
    let b := c.entry
    let t := fieldAt b 17 1
    match (d.lvTable t).filter (fun _ => !d.lvBuilt t) with
    | none => d.lvResult id t 0 0 noRecord true
    | some x =>
      match d.lvList b with
      | .error e => d.lvResult id t e 0 noRecord false
      | .ok list =>
        let rs := lvRecords x true (fieldAt b 32 4) list
        let v := d.lvWriteAll t x rs.1 0
        let st := if v.2.2 ≠ 0 then v.2.2 else rs.2
        v.1.lvResult id t st v.2.1 (if st = 0 then noRecord else v.2.1) false

/-- A flushed LOUVRE_LOAD: CREATE and SWAP have changed nothing; a WRITE stops at a record, with the records before it
written, an open number (R265, assumption log 156). -/
def Dev.louvreLoadFlush (d : Dev) (c : Cmd) : Dev :=
  let b := c.entry
  let t := fieldAt b 17 1
  match if fieldAt b 16 1 = 1 then (d.lvTable t).filter (fun _ => !d.lvBuilt t) else none, d.lvList b with
  | some x, .ok list =>
    let rs := (lvRecords x true (fieldAt b 32 4) list).1
    let v := d.draw.2.lvWriteAll t x (rs.take (d.draw.1 % (rs.length + 1))) 0
    v.1.lvResult c.id t 0x0401 v.2.1 noRecord false
  | _, _ => d.lvResult c.id t 0x0401 0 noRecord false

/-! ### Verification (R113) -/

/-- The bank of a Casement that a returned entry came from: that of its ordinal, for a REPLICATED table the first of its
span. -/
def Dev.lvBankOf (d : Dev) (c t index : Nat) : Nat :=
  let rep := (d.lvTable t).any (fun x => x.layout == 0)
  ((List.range 4).find? (fun b =>
    decide ((d.lvBank c b).table = some t) && (rep || decide ((d.lvBank c b).ordinal = index / bankEntries)))).getD 0

/-- A returned entry disagrees with its shadow: it is rewritten and counted; the search is repeated where `retry` stands, and
a second failure raises the verification source. -/
def Dev.lvVerifyFail (d : Dev) (c t index : Nat) (retry again injected : Bool) : Dev :=
  let d := (d.fcount (F.LV_VERIFY_STAT_VERIFY_FAIL c) 1).ocount O.LOUVRE_VERIFY_FAIL 1
  if again || !retry then
    d.faultRaise (casSource c 4) (index % 65536 + d.lvBankOf c t index * 2 ^ 16 + t % 64 * 2 ^ 18) injected
  else d

/-- The verification of a search's winner fails, and fails again in the repeat where `twice`: the device afterwards, and
whether the result stands. A bank that serves searches from the shadow is not verified (R116). -/
def Dev.lvVerify (d : Dev) (c t index shadow : Nat) (retry twice : Bool) : Dev × Bool :=
  if bitAt shadow (d.lvBankOf c t index) then (d, true)
  else
    let d := d.lvVerifyFail c t index retry false false
    let d := if twice && retry then d.lvVerifyFail c t index retry true false else d
    (d, retry && !twice)

/-! ### LOUVRE_SEARCH (R112) -/

/-- One result record; `verified` clear where the search's result was discarded, which is no hit (R113, assumption log 170). -/
def lvResultRecord (walk : List (Nat × LvEntry)) (retried verified : Bool) (k : Nat) : Bytes :=
  match if verified then walk[k]? else none with
  | some (i, e) =>
    leBytes 4 i ++ leBytes 3 e.tag
      ++ leBytes 1 (1 + (if 1 < walk.length then 2 else 0) + (if retried then 4 else 0))
      ++ leBytes 2 e.prio ++ leBytes 2 k ++ zeros 4
  | none => leBytes 4 0xFFFFFFFF ++ zeros 3 ++ leBytes 1 (if retried then 4 else 0) ++ zeros 2 ++ leBytes 2 k ++ zeros 4

/-- Search keys in order. `fail` names a key whose winner fails verification, and whether the repeat fails too. -/
def Dev.lvSearchKeys (d : Dev) (t c : Nat) (x : LvTable) (maxm : Nat) (fail : Option (Nat × Bool)) :
    List Nat → Nat → Nat → Bytes → Dev × Nat × Bytes
  | [], _, hits, out => (d, hits, out)
  | k :: ks, i, hits, out =>
    let walk := d.lvSearch t c x k
    let d := d.lvCount walk
    let failing := match fail with
      | some f => decide (f.1 = i) && decide (walk ≠ [])
      | none => false
    let retry := decide (d.oget (O.VERIFY_RETRY c) ≠ 0)
    let idx := (walk.head?.map Prod.fst).getD 0
    let shadow := ((List.range 4).map (fun b => b2n (d.lvBank c b).shadow * 2 ^ b)).sum
    let v := if failing then d.lvVerify c t idx shadow retry ((fail.map Prod.snd).getD false) else (d, true)
    let recs := (List.range maxm).flatMap
      (lvResultRecord walk (failing && retry && !bitAt shadow (d.lvBankOf c t idx)) v.2)
    v.1.lvSearchKeys t c x maxm fail ks (i + 1) (if walk = [] ∨ v.2 = false then hits else hits + 1) (out ++ recs)

/-- The keys of a LOUVRE_SEARCH, cut to its table's width. -/
def searchKeys (x : LvTable) (n : Nat) (keys : Bytes) : List Nat :=
  (List.range n).map (fun i => fieldAt keys (16 * i) 16 % 2 ^ lvBits x.width)

/-- The Casement whose copy a LOUVRE_SEARCH searches. -/
def searchCas (x : LvTable) (b : Bytes) : Nat := if fieldAt b 17 1 = 0xFF then x.casements.headD 4 else fieldAt b 17 1

/-- Search keys, write the records, and end the command. -/
def Dev.searchEnd (d : Dev) (c : Cmd) (x : LvTable) (fail : Option (Nat × Bool)) (st : Nat) (ks : List Nat) : Dev :=
  let b := c.entry
  let v := d.lvSearchKeys (fieldAt b 16 1) (searchCas x b) x (fieldAt b 18 1) fail ks 0 0 []
  (v.1.writeSpace (bitAt (fieldAt b 19 1) 1) (fieldAt b 32 8) v.2.2).finish c.id st (result4 ks.length v.2.1 0 0) v.2.2.length

/-- LOUVRE_SEARCH: search a list of keys in one Casement's copy and write result records. -/
def Dev.louvreSearch (d : Dev) (id : Nat) (fail : Option (Nat × Bool)) : Dev :=
  match d.running id opLouvreSearch with
  | none => d
  | some c =>
    let b := c.entry
    let t := fieldAt b 16 1
    let n := fieldAt b 20 4
    let none_ := d.finish id 0 (zeros 8 ++ [1] ++ zeros 7) 0
    match d.lvTable t with
    | none => none_
    | some x =>
      let cas := searchCas x b
      if bitAt x.mask cas = false ∨ 4 ≤ cas then none_
      else if d.lvDamaged t then d.finish id 0x0702 (zeros 16) 0
      else
        match d.readSpace (bitAt (fieldAt b 19 1) 0) (fieldAt b 24 8) (16 * n) with
        | .error e => d.finish id e (zeros 16) 0
        | .ok keys => d.searchEnd c x fail 0 (searchKeys x n keys)

/-- A flushed LOUVRE_SEARCH stops at a key, with the keys before it searched, an open number (R265, assumption log 156). -/
def Dev.searchFlush (d : Dev) (c : Cmd) : Dev :=
  let b := c.entry
  let n := fieldAt b 20 4
  match d.lvTable (fieldAt b 16 1), d.readSpace (bitAt (fieldAt b 19 1) 0) (fieldAt b 24 8) (16 * n) with
  | some x, .ok keys =>
    if bitAt x.mask (searchCas x b) = false ∨ 4 ≤ searchCas x b ∨ d.lvDamaged (fieldAt b 16 1) = true then
      d.finish c.id 0x0401 (zeros 16) 0
    else d.draw.2.searchEnd c x none 0x0401 ((searchKeys x n keys).take (d.draw.1 % (n + 1)))
  | _, _ => d.finish c.id 0x0401 (zeros 16) 0

/-! ### Scrubbing and fences (R114 to R116) -/

/-- A scrub pass of a bank: positions repaired from the shadow, and positions whose shadow word is lost: for each, VALID
cleared, the table damaged and the shadow source raised (R115). -/
def Dev.lvScrub (d : Dev) (c b : Nat) (repaired lost : List Nat) : Dev :=
  let x := d.lvBank c b
  match x.table with
  | none => d
  | some t =>
    let n := repaired.length
    let d := if n = 0 then d
      else ((d.fcount (F.LV_VERIFY_STAT_SCRUB_REPAIR c) n).ocount O.LOUVRE_SCRUB_REPAIR n).faultRaise (casSource c 6)
        (repaired.headD 0 + b * 2 ^ 16 + t % 64 * 2 ^ 18) false
    lost.foldl (fun d p =>
      let x := d.lvBank c b
      let d := d.setLvBank c b { x with
        entries := Sparse.modify {} x.entries p (fun e => ({ e with valid := false } : LvEntry).checked) }
      (d.lvDamage t).faultRaise (casSource c 5) (p + b * 2 ^ 16 + t % 64 * 2 ^ 18) false) d

/-- A bank is emptied and unbound. -/
def Dev.lvClearBank (d : Dev) (c b : Nat) (fenced : Bool) : Dev :=
  let x := d.lvBank c b
  d.setLvBank c b { fenced := fenced || x.fenced, shadow := x.shadow }

/-- A Casement holds no copy of a table any more. -/
def Dev.lvDropCopy (d : Dev) (t c : Nat) : Dev :=
  match d.lvTable t with
  | some y => d.setLvTable t (some { y with mask := y.mask - (if bitAt y.mask c then 2 ^ c else 0) })
  | none => d

/-- A bank is fenced: it is unbound; a STEERED or SPREAD table that loses a bank is damaged, and a REPLICATED copy without
banks is no copy (R114). -/
def Dev.lvLoseBank (d : Dev) (c b : Nat) : Dev :=
  let x := d.lvBank c b
  let d := d.lvClearBank c b true
  match x.table with
  | none => d
  | some t =>
    if (d.lvTable t).any (fun y => y.layout != 0) then d.lvDamage t
    else if (d.banksOf t c).isEmpty then d.lvDropCopy t c else d

/-- A Casement fence removes its copies (R114). -/
def Dev.lvLoseCasement (d : Dev) (c : Nat) : Dev :=
  (List.range 4).foldl (fun d b =>
    match (d.lvBank c b).table with
    | some t => (d.lvClearBank c b false).lvDropCopy t c
    | none => d) d

/-- A fenced bank returns to service, unbound, when its self-test passes (R116, R435). -/
def Dev.lvUnfence (d : Dev) (c b : Nat) (pass : Bool) : Dev :=
  let x := d.lvBank c b
  if x.fenced = true ∧ pass = true then d.setLvBank c b { shadow := x.shadow } else d

/-- Valid entries of a bank (R117). -/
def LvBank.validCount (x : LvBank) : Nat := (x.entries.filter (fun p => p.2.valid)).length

/-- Tables bound in the device (R118). -/
def Dev.lvTablesBound (d : Dev) : Nat := (d.louvre.tables.filter (fun p => p.2.isSome && decide (p.1 < 64))).length

end Sys2Proof.Machine
end

