-- ==== Sys2Proof/Machine/Join.lean ====
section
/-!
DEFINITION. LV_BUILD and LOOKUP (R107 to R111, R113, R114), HJ_BUILD and HJ_PROBE (R126 to R135) on strips.
-/

namespace Sys2Proof.Machine

/-- What a node's work on its input strips comes to: the device and the node's state afterwards, the output strips of
each port, the status with which the pipeline fails, and whether the strip must be run again later. -/
structure Made where
  dev : Dev
  st : OpSt
  outs : List (List Strip) := []
  fail : Option Nat := none
  again : Bool := false
deriving DecidableEq, Repr

/-! ### Key fields (R110) -/

/-- A field's value. -/
def fieldValue (c : ColTy) (f : KField) (v : Val) : Nat :=
  match f.xf, v with
  | 1, .num n => orderedCode c.ty n % 2 ^ f.width
  | 2, .str b => beNat (fit (f.width / 8) b)
  | 3, .str b => min b.length (2 ^ f.width - 1)
  | _, .num n => n % 2 ^ f.width
  | _, .str _ => 0

/-- The search key of a row; none where a key column is null. -/
def searchKey (s : List ColTy) (r : Row) : List KField → Option Nat
  | [] => some 0
  | f :: fs =>
    match colOf r f.col, searchKey s r fs with
    | some v, some k => some (k + fieldValue (s.getD f.col { ty := 0 }) f v * 2 ^ f.off)
    | _, _ => none

/-- Bits lo to lo + n - 1. -/
def maskBits (lo n : Nat) : Nat := (2 ^ n - 1) * 2 ^ lo

/-! ### LV_BUILD (R107) -/

/-- The fewest aligned blocks that cover [lo, hi) in a field of w bits: start and log2 of the size of each. The first
number bounds the blocks. -/
def alignedBlocks (w : Nat) : Nat → Nat → Nat → List (Nat × Nat)
  | 0, _, _ => []
  | k + 1, lo, hi =>
    if hi ≤ lo then []
    else
      let fits (j : Nat) : Bool := decide (lo % 2 ^ j = 0) && decide (lo + 2 ^ j ≤ hi)
      let j := ((List.range (w + 1)).filter fits).foldl max 0
      (lo, j) :: alignedBlocks w k (lo + 2 ^ j) hi

/-- The entries of one row; none where the row is dropped. -/
def buildEntries (body : Bytes) (s : List ColTy) (ordinal : Nat) (r : Row) : Option (List LvEntry) :=
  let u (o : Nat) := fieldAt body o 1
  let fs := kfields body 0x20 (u 6)
  let num (c dflt : Nat) : Option Nat := if c = 0xFF then some dflt
    else match colOf r c with
      | some (.num n) => some n
      | _ => none
  match searchKey s r fs, num (u 8) (ordinal % 2 ^ 24), num (u 9) (fieldAt body 0xA 2) with
  | some key, some tag, some prio =>
    let f := kfieldAt body 0x20 0
    let others := ((fs.drop 1).map (fun g => maskBits g.off g.width)).sum
    let entry (key care : Nat) : LvEntry :=
      { key := Nat.land key care, care := care, prio := prio, tag := tag % 2 ^ 24, valid := true }
    if u 5 = 0 then some [entry key (others + maskBits f.off f.width)]
    else if u 5 = 1 then
      (num (u 12) 0).map (fun n =>
        let m := min n f.width
        [entry key (others + maskBits (f.off + f.width - m) m)])
    else
      match colOf r (u 12) with
      | some (.num n) =>
        let lo := key / 2 ^ f.off % 2 ^ f.width
        let hi := orderedCode ((s.getD (u 12) { ty := 0 }).ty) n % 2 ^ f.width
        if hi ≤ lo then none
        else some ((alignedBlocks f.width (2 * f.width) lo hi).map (fun b =>
          entry (b.1 * 2 ^ f.off) (maskBits (f.off + b.2) (f.width - b.2))))
      | _ => none
  | _, _, _ => none

/-- LV_BUILD of a strip. An entry of a STEERED table that leaves a STEER bit uncared is rejected as R104 states (R99): the
build stops. -/
def Dev.runLvBuild (d : Dev) (body : Bytes) (s : List ColTy) (es : List LvEntry) (rows : Nat) (x : Strip) : Made :=
  let live := x.liveRows.map Prod.snd
  let made := live.zipIdx.map (fun p => buildEntries body s (rows + p.2) p.1)
  let dropped := (made.filter Option.isNone).length
  let new := made.flatMap (fun o => o.getD [])
  let steer := fieldAt body 0x10 16 % 2 ^ lvBits (fieldAt body 2 1)
  { dev := d.ocount O.LOUVRE_BUILD_DROPPED dropped
    st := .lvBuild (es ++ new) (rows + live.length)
    fail := if fieldAt body 1 1 = 1 ∧ new.any (fun e => decide (Nat.land e.care steer ≠ steer)) = true then some 0x0103
      else none }

/-- The table an LV_BUILD's record describes, owned by its context. -/
def buildTable (ctx : Nat) (body : Bytes) : LvTable :=
  let w := fieldAt body 2 1
  { width := w, layout := fieldAt body 1 1, span := fieldAt body 4 1, mask := fieldAt body 3 1
    steer := fieldAt body 0x10 16 % 2 ^ lvBits w, owner := some ctx }

/-! ### LOOKUP (R111) -/

/-- The APPEND columns of a match; null where there is none. -/
def appended (m : Nat) (hit : Option (Nat × LvEntry)) (multi : Bool) : Row :=
  let put (b : Nat) (v : Nat × LvEntry → Nat) : Row := if bitAt m b then [hit.map (fun h => .num (v h))] else []
  put 0 (fun h => h.2.tag) ++ put 1 (fun h => h.1) ++ put 2 (fun h => h.2.prio) ++ put 3 (fun _ => b2n multi)

/-- Search for every row of a strip: the walk of each live row, none for dead rows and null keys. -/
def Dev.lookupRows (d : Dev) (t c : Nat) (tbl : LvTable) (s : List ColTy) (fs : List KField) :
    List (Bool × Row) → List (List (Nat × LvEntry)) × Dev
  | [] => ([], d)
  | (live, r) :: rest =>
    match if live then searchKey s r fs else none with
    | some k =>
      let w := d.lvSearch t c tbl k
      let v := (d.lvCount w).lookupRows t c tbl s fs rest
      (w :: v.1, v.2)
    | none =>
      let v := d.lookupRows t c tbl s fs rest
      ([] :: v.1, v.2)

/-- LOOKUP of a strip on a Pane of Casement c. `verify` names a row whose winner fails verification, and whether the
repeated search fails too: the strip then does not end while the fault fences a bank (R113). -/
def Dev.runLookup (d : Dev) (c t : Nat) (node : Node) (s : List ColTy) (ap : Applied) (verify : Option (Nat × Bool))
    (x : Strip) : Made :=
  let body := node.param
  match d.lvTable t with
  | none => { dev := d, st := .none, fail := some 0x0403 }
  | some tbl =>
    if d.lvDamaged t then { dev := d, st := .none, fail := some 0x0702 }
    else
      let m := fieldAt body 4 1
      let fs := kfields body 8 (fieldAt body 3 1)
      let v := d.lookupRows t c tbl s fs (x.live.zip x.rows)
      let d := v.2
      let bad := match verify with
        | some f => (v.1[f.1]?).bind List.head?
        | none => none
      let d := match bad with
        | some w => (d.lvVerify c t w.1 (ap.shadow / 16 ^ c) (bitAt ap.verifyRetry c) ((verify.map Prod.snd).getD false)).1
        | none => d
      if d.reacts ≠ [] then { dev := d, st := .none, again := true }
      else
        let hits := v.1.map (fun w => decide (w ≠ []))
        let keep (l : List Bool) (rows : List Row) : Strip :=
          { x with rows := rows, live := l, dicts := x.dicts ++ (appendCols m).map (fun _ => 0) }.select l
        let ext (w : Option (List (Nat × LvEntry))) (r : Row) : Row :=
          r ++ appended m (w.bind List.head?) (decide (1 < (w.getD []).length))
        let miss := keep (x.live.zipWith (fun a b => a && !b) hits) (x.rows.map (ext none))
        let out0 := if fieldAt body 1 1 = 0 then
            [keep (x.live.zipWith (fun a b => a && b) hits) ((x.rows.zip v.1).map (fun p => ext (some p.2) p.1))]
          else
            let dense := (x.rows.zip v.1).flatMap (fun p =>
              (p.2.take (fieldAt body 2 1)).map (fun h => p.1 ++ appended m (some h) (decide (1 < p.2.length))))
            (stripsOf dense).map (fun rs => { (denseStrip x.tag rs (x.dicts ++ (appendCols m).map (fun _ => 0))) with
              poisoned := x.poisoned })
        { dev := d, st := .none, outs := [out0, [miss]] }

/-! ### HJ_BUILD (R127 to R129) -/

/-- Key types of a build. -/
def keyTypes (body : Bytes) (s : List ColTy) : List ColTy :=
  (keyCols body 8 (fieldAt body 1 1)).map (fun c => s.getD c { ty := 0 })

/-- The key of a row. -/
def keyOf (body : Bytes) (off n : Nat) (r : Row) : Row := (keyCols body off n).map (colOf r)

/-- FH64 of a key. -/
def keyHash (ts : List ColTy) (seed : Nat) (k : Row) : Nat := fhKey seed ((ts.map ColTy.ty).zip k)

/-- The partition of a hash: its top PBITS bits (R123). -/
def topBits (h n : Nat) : Nat := if n = 0 then 0 else h / 2 ^ (64 - n)

/-- The owner ordinal of a hash among k Casements (R123). -/
def ownerOf (h k : Nat) : Nat := h / 2 ^ 32 * k / 2 ^ 32

/-- Append one row to a build's stores. A null key has no hash; the store it goes to is open. -/
def Dev.hjAppend (d : Dev) (body : Bytes) (s : List ColTy) (k : Nat) (st : HjSt) (r : Row) : Dev × HjSt :=
  let key := keyOf body 8 (fieldAt body 1 1) r
  let flags := fieldAt body 2 1
  let null := key.any Option.isNone && !bitAt flags 0
  let h := if null then ((d.draw).1, (d.draw).2) else (keyHash (keyTypes body s) (fieldAt body 0x10 8) key, d)
  let d := if null then h.2.ocount O.HJ_NULL_BUILD_KEYS 1 else h.2
  let st := if null then { st with nullKeys := st.nullKeys + 1 } else st
  if null && !bitAt flags 2 then (d, st)
  else
    let p := if fieldAt body 0 1 = 0 then topBits h.1 (fieldAt body 3 1) else ownerOf h.1 k
    let row : JRow := { key := key, payload := pick (fieldAt body 0xC 4) r, hash := h.1, nullKey := null }
    (d, { st with rows := st.rows + 1, stores := Sparse.set [] st.stores p (Sparse.get [] st.stores p ++ [row]) })

/-- HJ_BUILD of a strip; k Casements hold Panes of the snapshot. A partition takes at most 2^32 rows (R119). -/
def Dev.runHjBuild (d : Dev) (body : Bytes) (s : List ColTy) (k : Nat) (st : HjSt) (x : Strip) : Made :=
  let v := x.liveRows.foldl (fun (v : Dev × HjSt) p => v.1.hjAppend body s k v.2 p.2) (d, st)
  { dev := v.1, st := .hjBuild v.2
    fail := if v.2.stores.any (fun p => decide (2 ^ 32 < p.2.length)) then some 0x0301 else none }

/-! ### Bucket arrays and chains (R128) -/

/-- Buckets of a partition of r rows at a load. -/
def bucketCount (load r : Nat) : Nat :=
  (((List.range 25).map (fun i => 2 ^ i)).find? (fun n => decide (r ≤ n * load))).getD (2 ^ 24)

/-- The fragment of a hash (R123). -/
def fragment (h : Nat) : Nat := h / 2 ^ 24 % 2 ^ 32

/-- The overflow lines that follow a bucket line, by index. The number bounds them. -/
def HjIndex.chain (x : HjIndex) : Nat → BLine → List Nat
  | 0, _ => []
  | k + 1, l => if l.link = noNext then [] else l.link :: x.chain k (x.spare.getD l.link {})

/-- Fill the next slot of a bucket, in an overflow line where its lines are full. -/
def HjIndex.put (x : HjIndex) (b : Nat) (slot : Nat × Nat) : HjIndex :=
  let l := Sparse.get {} x.lines b
  let n := x.spare.length
  match (x.chain n l).getLast? with
  | none =>
    if l.slots.length < 14 then { x with lines := Sparse.set {} x.lines b { l with slots := l.slots ++ [slot] } }
    else { x with lines := Sparse.set {} x.lines b { l with link := n }, spare := x.spare ++ [{ slots := [slot] }] }
  | some k =>
    let m := x.spare.getD k {}
    if m.slots.length < 14 then { x with spare := x.spare.set k { m with slots := m.slots ++ [slot] } }
    else { x with spare := x.spare.set k { m with link := n } ++ [{ slots := [slot] }] }

/-- The slots of a bucket and its overflow lines, in ascending ordinal. -/
def HjIndex.bucket (x : HjIndex) (b : Nat) : List (Nat × Nat) :=
  let l := Sparse.get {} x.lines b
  l.slots ++ (x.chain x.spare.length l).flatMap (fun k => (x.spare.getD k {}).slots)

/-- The bucket array of a partition's rows at a load; rows with NULL_KEY enter no bucket. -/
def indexOf (load : Nat) (rows : List JRow) : HjIndex :=
  let nb := bucketCount load rows.length
  rows.zipIdx.foldl (fun x p => if p.1.nullKey then x else x.put (p.1.hash % nb) (fragment p.1.hash, p.2)) { nb := nb }

/-- Rows under PATH 1 with their NEXT: the next row whose key has the same Louvre entry. -/
def chained (keyOf : JRow → Nat) (rows : List JRow) : List JRow :=
  rows.zipIdx.map (fun p =>
    if p.1.nullKey then p.1
    else
      let later := (rows.zipIdx.drop (p.2 + 1)).find? (fun q => !q.1.nullKey && keyOf q.1 == keyOf p.1)
      { p.1 with next := (later.map Prod.snd).getD noNext })

/-- The ordinals on a chain from one of them. The number bounds them. -/
def chainFrom (rows : List JRow) : Nat → Nat → List Nat
  | 0, _ => []
  | k + 1, o => if rows.length ≤ o then [] else o :: chainFrom rows k ((rows.getD o { key := [], payload := [], hash := 0 }).next)

/-- Two key values are equal: under R78, or both null where nulls match (R126, R131). -/
def keyEq (ts : List ColTy) (a b : Row) : Bool :=
  ((ts.zip (a.zip b)).all (fun p => match p.2.1, p.2.2 with
    | some x, some y => valEq p.1.ty p.1.scale p.1.ty p.1.scale x y
    | none, none => true
    | _, _ => false))

/-- Table width code and key of a row's Louvre entry under PATH 1 (R129). -/
def louvreKey (ts : List ColTy) (seed h : Nat) (key : Row) : Nat :=
  let total := (ts.map (fun c => typeBits c.ty)).sum
  if ts.any (fun c => isVar c.ty) ∨ 128 < total then h + keyHash ts (Nat.xor seed fhP1) key * 2 ^ 64
  else
    ((ts.zip key).foldl (fun (acc : Nat × Nat) p =>
      let n := numOf p.2
      let n := if isFlt p.1.ty then fltCanon (typeBits p.1.ty) n else n
      (acc.1 + n * 2 ^ acc.2, acc.2 + typeBits p.1.ty)) (0, 0)).1

/-- Width code of a PATH 1 table: the smallest that holds the packed keys, else 128 bits. -/
def louvreWidth (ts : List ColTy) : Nat :=
  let total := (ts.map (fun c => typeBits c.ty)).sum
  if ts.any (fun c => isVar c.ty) ∨ 64 < total then 2 else if 32 < total then 1 else 0

/-- The owner table of ordinal j on Casement c: one entry per distinct key, its tag the first row's ordinal. -/
def ownerTable (ctx c : Nat) (ts : List ColTy) : LvTable :=
  let w := louvreWidth ts
  let hashed := ts.any (fun c => isVar c.ty) || decide (128 < (ts.map (fun c => typeBits c.ty)).sum)
  { width := w, layout := 1, span := 4, mask := 2 ^ c
    steer := if hashed then 2 ^ 64 - 1 else 2 ^ lvBits w - 1, owner := some ctx }

/-- The entries of an owner's store. -/
def ownerEntries (ts : List ColTy) (seed : Nat) (rows : List JRow) : List LvEntry :=
  (rows.zipIdx.foldl (fun (acc : List LvEntry) p =>
    if p.1.nullKey then acc
    else
      let k := louvreKey ts seed p.1.hash p.1.key
      if acc.any (fun e => e.key == k) then acc
      else acc ++ [{ key := k, care := 2 ^ lvBits (louvreWidth ts) - 1, tag := p.2 % 2 ^ 24, valid := true }]) [])

/-- A table that an earlier run of the context built is unbound, to be rebuilt (R134). -/
def Dev.lvRelease (d : Dev) (t ctx : Nat) : Dev :=
  if (d.lvTable t).bind LvTable.owner = some ctx then d.lvUnbind t else d

/-- Bind the owner tables of a PATH 1 build; `none`: LOUVRE_FULL (R129). -/
def Dev.bindOwners (d : Dev) (ctx t seed : Nat) (ts : List ColTy) (st : HjSt) : List (Nat × Nat) → Option Dev
  | [] => some d
  | (c, j) :: rest =>
    let rows := Sparse.get [] st.stores j
    let es := ownerEntries ts seed rows
    if 65536 < es.length ∨ 16777216 < rows.length then none
    else
      match (d.lvRelease (t + j) ctx).lvBind (t + j) (ownerTable ctx c ts) es with
      | some d => d.bindOwners ctx t seed ts st rest
      | none => none

/-- Load the prefilter of a PATH 0 build, or count it dropped (R135). -/
def Dev.loadPrefilter (d : Dev) (ctx : Nat) (body : Bytes) (cas : List Nat) (st : HjSt) : Dev × Bool :=
  let pb := fieldAt body 4 1
  let care := maskBits (32 - pb) pb
  let keys := ((st.stores.flatMap (fun p => (p.2.filter (fun r => !r.nullKey)).map (fun r =>
    Nat.land (r.hash / 2 ^ 32) care)))).eraseDups
  let t : LvTable := { width := 0, layout := 1, span := 4, mask := (cas.map (fun c => 2 ^ c)).sum, steer := 0xC0000000
                       owner := some ctx }
  let es := keys.map (fun k => ({ key := k, care := care, valid := true } : LvEntry))
  if 65536 < keys.length then (d.ocount O.PREFILTER_DROPPED 1, false)
  else
    match (d.lvRelease (fieldAt body 5 1) ctx).lvBind (fieldAt body 5 1) t es with
    | some d => (d, true)
    | none => (d.ocount O.PREFILTER_DROPPED 1, false)

/-- HJ_BUCKET_LOAD within its range. -/
def Dev.bucketLoad (d : Dev) : Nat := d.oclamp O.HJ_BUCKET_LOAD 4 12

/-- The end of an HJ_BUILD's input: bucket arrays at the load in effect, or chains and tables, and the prefilter. `none`:
LOUVRE_FULL. -/
def Dev.endHjBuild (d : Dev) (ctx : Nat) (body : Bytes) (s : List ColTy) (cas : List Nat) (st : HjSt) :
    Option (Dev × HjSt) :=
  let ts := keyTypes body s
  let seed := fieldAt body 0x10 8
  if fieldAt body 0 1 = 1 then
    let st := { st with stores := st.stores.map (fun p =>
      (p.1, chained (fun r => louvreKey ts seed r.hash r.key) p.2)) }
    (d.bindOwners ctx (fieldAt body 5 1) seed ts st cas.zipIdx).map (fun d => (d, { st with built := true }))
  else
    let st := { st with built := true, index := st.stores.map (fun p => (p.1, indexOf d.bucketLoad p.2)) }
    if bitAt (fieldAt body 2 1) 1 then
      let v := d.loadPrefilter ctx body cas st
      some (v.1, { st with prefilter := v.2 })
    else some (d, st)

/-! ### HJ_PROBE (R131 to R133) -/

/-- A build row's number across stores. -/
def rowId (store ordinal : Nat) : Nat := store * 2 ^ 32 + ordinal

/-- What a probe needs to know of its build; `width` is the row width B, `areas` the chunks of its areas (R128). -/
structure Built where
  ctx : Nat
  body : Bytes
  keys : List ColTy
  cas : List Nat
  width : Nat
  areas : Sparse (List Nat)
  st : HjSt
deriving DecidableEq, Repr

/-- Engine address of byte o of an area of chunks. -/
def Dev.chunkAddr (d : Dev) (l : List Nat) (o : Nat) : Nat :=
  let k := l.getD (o / 2 ^ 21) 0
  (if k < 2 ^ 32 then d.regionBase + k * 2 ^ 21 else Config.farBase + (k - 2 ^ 32) * 2 ^ 21) + o % 2 ^ 21

/-- A read of n bytes at o of an area meets poison. -/
def Dev.areaPoison (d : Dev) (areas : Sparse (List Nat)) (key o n : Nat) : Bool :=
  let l := Sparse.get [] areas key
  (sectorsOf o n).any (fun s => decide (s / 2 ^ 21 < l.length) && d.poisonedAt (d.chunkAddr l s))

/-- The areas of store p of a build: its rows, its heap, its bucket array and its overflow area. -/
def hjArea (p kind : Nat) : Nat := 4 * p + kind

/-- Heap bytes of a row. -/
def heapOf (r : JRow) : Nat := (varBytes (r.key ++ r.payload)).sum

/-- A probe that reads rows of store p by ordinal meets poison in a row or in its heap bytes (R137). -/
def Dev.rowsPoison (d : Dev) (b : Built) (p : Nat) (rows : List JRow) (os : List Nat) : Bool :=
  os.any (fun o =>
    d.areaPoison b.areas (hjArea p 0) (o * b.width) b.width
    || d.areaPoison b.areas (hjArea p 1) ((rows.take o).map heapOf).sum (((rows[o]?).map heapOf).getD 0))

/-- A probe that reads a bucket and its overflow lines meets poison (R137). -/
def Dev.linesPoison (d : Dev) (b : Built) (p : Nat) (x : HjIndex) (k : Nat) : Bool :=
  d.areaPoison b.areas (hjArea p 2) (128 * k) 128
  || (x.chain x.spare.length (Sparse.get {} x.lines k)).any (fun o => d.areaPoison b.areas (hjArea p 3) (128 * o) 128)

/-- What reading the build for a probe key comes to: the rows that match in ascending ordinal, and the status with which the
probe fails. -/
structure Met where
  rows : List (Nat × JRow) := []
  fail : Option Nat := none
deriving DecidableEq, Repr

/-- Of the rows of store p at some ordinals, those whose full key equals the probe's. -/
def Built.matching (b : Built) (p : Nat) (key : Row) (os : List Nat) : List (Nat × JRow) :=
  let rows := Sparse.get [] b.st.stores p
  os.filterMap (fun o => (rows[o]?).bind (fun r => if !r.nullKey && keyEq b.keys r.key key then some (rowId p o, r) else none))

/-- PATH 0: the bucket of h in partition p and its overflow lines are read, and the rows whose slot has h's fragment
compared. -/
def Dev.readBucket (d : Dev) (b : Built) (p h : Nat) (key : Row) : Met :=
  match b.st.index.find? (fun q => q.1 = p) with
  | none => {}
  | some q =>
    let k := h % q.2.nb
    let os := ((q.2.bucket k).filter (fun s => s.1 == fragment h)).map Prod.snd
    if d.linesPoison b p q.2 k || d.rowsPoison b p (Sparse.get [] b.st.stores p) os then { fail := some 0x0703 }
    else { rows := b.matching p key os }

/-- PATH 1: the chain of owner j's store from the ordinal that the search returned. -/
def Dev.readChain (d : Dev) (b : Built) (j first : Nat) (key : Row) : Met :=
  let rows := Sparse.get [] b.st.stores j
  let os := chainFrom rows rows.length first
  if d.rowsPoison b j rows os then { fail := some 0x0703 } else { rows := b.matching j key os }

/-- The build rows a probe key meets. A damaged owner table fails the probe with UNCORRECTED (R114). -/
def Dev.probeKey (d : Dev) (b : Built) (c : Nat) (usePf : Bool) (key : Row) : Dev × Met :=
  let null := key.any Option.isNone && !bitAt (fieldAt b.body 2 1) 0
  let d := d.ocount O.HJ_PROBES 1
  if null then (d, {})
  else
    let seed := fieldAt b.body 0x10 8
    let h := keyHash b.keys seed key
    if fieldAt b.body 0 1 = 1 then
      let j := ownerOf h b.cas.length
      let t := fieldAt b.body 5 1 + j
      let oc := b.cas.getD j 0
      match d.lvTable t with
      | none => (d, { fail := some 0x0702 })
      | some tbl =>
        let w := d.lvSearch t oc tbl (louvreKey b.keys seed h key)
        (d.lvCount w, if d.lvDamaged t then { fail := some 0x0702 } else match w.head? with
          | some e => d.readChain b j e.2.tag key
          | none => {})
    else
      let p := topBits h (fieldAt b.body 3 1)
      let t := fieldAt b.body 5 1
      let pf := match if usePf && b.st.prefilter then d.lvTable t else none with
        | some tbl => if bitAt tbl.mask c && !d.lvDamaged t then some (d.lvSearch t c tbl (h / 2 ^ 32)) else none
        | none => none
      match pf with
      | some [] => ((d.lvCount []).ocount O.PREFILTER_REJECTS 1, {})
      | some w =>
        let m := d.readBucket b p h key
        let d := d.lvCount w
        (if m.rows = [] then d.ocount O.PREFILTER_FALSE_PASS 1 else d, m)
      | none => (d, d.readBucket b p h key)

/-- What the probe of one live row comes to. -/
structure Probed where
  rows : List Row := []
  pass : Bool := false
  matched : Bool := false
  ids : List Nat := []
deriving DecidableEq, Repr

/-- One live row. -/
def Dev.probeRow (d : Dev) (b : Built) (c : Nat) (body : Bytes) (r : Row) : Dev × Probed × Option Nat :=
  let jt := fieldAt body 2 1
  let key := keyOf body 4 (fieldAt b.body 1 1) r
  let v := d.probeKey b c (bitAt (fieldAt body 3 1) 1) key
  let ms := v.2.rows
  let d := v.1.ocount O.HJ_MATCHES ms.length
  let mine := pick (fieldAt body 8 4) r
  let their (p : Row) : Row := pick (fieldAt body 0xC 4) p
  let nulls : Row := List.replicate (popCount (fieldAt body 0xC 4) 32) none
  let some_ := decide (ms ≠ [])
  let rows := if jt < 4 then
      (ms.map (fun m => mine ++ their m.2.payload)) ++ (if !some_ && (jt == 1 || jt == 3) then [mine ++ nulls] else [])
    else []
  let keyNull := key.any Option.isNone
  let anti := if bitAt (fieldAt body 3 1) 0 then
      b.st.nullKeys == 0 && (b.st.rows == 0 || !keyNull)
    else true
  (d, { rows := rows, matched := some_, ids := ms.map Prod.fst
        pass := if jt = 4 then some_ else if jt = 5 then !some_ && anti else false }, v.2.fail)

/-- The rows of a strip, dead ones skipped. -/
def Dev.probeRows (d : Dev) (b : Built) (c : Nat) (body : Bytes) : List (Bool × Row) → Dev × List Probed × Option Nat
  | [] => (d, [], none)
  | (live, r) :: rest =>
    let v := if live then d.probeRow b c body r else (d, {}, none)
    let t := v.1.probeRows b c body rest
    (t.1, v.2.1 :: t.2.1, v.2.2.or t.2.2)

/-- HJ_PROBE of a strip on a Pane of Casement c. -/
def Dev.runProbe (d : Dev) (b : Built) (c : Nat) (node : Node) (matched : List Nat) (x : Strip) : Made :=
  let body := node.param
  let jt := fieldAt body 2 1
  let v := d.probeRows b c body (x.live.zip x.rows)
  let outer := jt == 2 || jt == 3
  let st : OpSt := if outer then .probe (matched ++ (v.2.1.flatMap Probed.ids).filter (fun i => !matched.contains i)).eraseDups
    else .none
  if v.2.2.isSome then { dev := v.1, st := st, fail := v.2.2 }
  else
    let noMatch := x.select (x.live.zipWith (fun a (p : Probed) => a && !p.matched) v.2.1)
    let out0 := if jt < 4 then
        let nos := pick (fieldAt body 8 4) x.dicts ++ List.replicate (popCount (fieldAt body 0xC 4) 32) 0
        (stripsOf (v.2.1.flatMap Probed.rows)).map (fun rs => { (denseStrip x.tag rs nos) with poisoned := x.poisoned })
      else [x.select (x.live.zipWith (fun a (p : Probed) => a && p.pass) v.2.1)]
    { dev := v.1, st := st, outs := [out0, [noMatch]] }

/-- The rows a RIGHT or FULL probe emits at the end: those never matched (R133). -/
def unmatchedRows (b : Built) (body : Bytes) (matched : List Nat) : List Row :=
  let nulls : Row := List.replicate (popCount (fieldAt body 8 4) 32) none
  b.st.stores.flatMap (fun p => (p.2.zipIdx.filter (fun q => !matched.contains (rowId p.1 q.2))).map (fun q =>
    nulls ++ pick (fieldAt body 0xC 4) q.1.payload))

end Sys2Proof.Machine
end

