-- ==== Sys2Proof/Machine/SortAgg.lean ====
section
/-!
DEFINITION. SORT_RUN, SORT_MERGE and TOPK (R140 to R150), HASH_AGG and SORT_AGG (R151 to R159) on strips.
-/

namespace Sys2Proof.Machine

/-! ### Sort entries (R140 to R142) -/

/-- The locator of a row without its TRUNC bit. -/
def locatorOf (tag row : Nat) : Nat := tagOrigin tag * 2 ^ 52 + tag % 2 ^ 40 * 2 ^ 12 + row

/-- The normalized key of a row: key columns at `off`, their flags at `off` + 8. -/
def sortKey (body : Bytes) (off n : Nat) (s : List ColTy) (r : Row) : Bytes :=
  (List.range n).flatMap (fun i =>
    let c := fieldAt body (off + i) 1
    let f := fieldAt body (off + 8 + i) 1
    keyColumn (s.getD c { ty := 0 }) (bitAt f 0) (bitAt f 1) (colOf r c))

/-- The order of entries: full normalized key, then locator (R140, R142, R143). -/
def entryBefore (a b : SEntry) : Bool := bytesLt a.key b.key || (!bytesLt b.key a.key && decide (a.loc < b.loc))

/-- Put an entry into a sorted list. -/
def entryInsert (e : SEntry) : List SEntry → List SEntry
  | [] => [e]
  | x :: xs => if entryBefore e x then e :: x :: xs else x :: entryInsert e xs

/-- Sort entries. -/
def entrySort (l : List SEntry) : List SEntry := l.foldr entryInsert []

/-- The entries of a strip's live rows; `inline` gives what an entry carries of its row. -/
def stripEntries (body : Bytes) (off n : Nat) (s : List ColTy) (inline : Row → Row) (x : Strip) : List SEntry :=
  x.liveRows.map (fun p => { key := sortKey body off n s p.2, loc := locatorOf x.tag p.1, row := inline p.2 })

/-- Two entries in sorted order meet with equal prefixes, one of them truncated, so that the merge cell compares full keys
(R143). -/
def truncMeets (e : Nat) (l : List SEntry) : Bool :=
  (l.zip (l.drop 1)).any (fun p => decide (p.1.key.take (e - 8) = p.2.key.take (e - 8))
    && (decide (e - 8 < p.1.key.length) || decide (e - 8 < p.2.key.length)))

/-- Count the comparisons of full keys in bringing entries of width e into order: at least one where two such entries meet;
how many is open (R143). -/
def Dev.countTrunc (d : Dev) (e : Nat) (sorted : List SEntry) : Dev :=
  if truncMeets e sorted then (d.draw.2).ocount O.TRUNC_COMPARES (max 1 d.draw.1) else d

/-! ### SORT_RUN (R145) -/

/-- Entries of a run. -/
def runLimit (body : Bytes) : Nat :=
  let n := fieldAt body 4 4
  if n = 0 then 2 ^ 21 / entryWidth (fieldAt body 1 1) else n

/-- Cut entries into full runs and what is left. The first number bounds the runs. -/
def fullRuns (limit : Nat) : Nat → List SEntry → List (List SEntry) × List SEntry
  | 0, l => ([], l)
  | k + 1, l =>
    if limit ≤ l.length ∧ limit ≠ 0 then
      let r := fullRuns limit k (l.drop limit)
      (entrySort (l.take limit) :: r.1, r.2)
    else ([], l)

/-- The token of a finished run: an EMPTY strip with the run's number (R145). -/
def runToken (ctx n run : Nat) : Strip := { tag := tagOf ctx n (run * 256) }

/-- Every 1,024th entry of a run. -/
def samplesOf (l : List SEntry) : List SEntry := (l.zipIdx.filter (fun p => decide (p.2 % 1024 = 1023))).map Prod.fst

/-- A run of a Casement part from its sorted entries. -/
def sealRun (cas : Nat) (es : List SEntry) : SRun := { cas := cas, entries := es, samples := samplesOf es }

/-- KEYS_ONLY of a SORT_RUN's record. -/
def keysOnly (body : Bytes) : Bool := bitAt (fieldAt body 2 1) 0

/-- The run a Pane goes on with: its own, or one that a Pane of its Casement left (R162, R187). -/
def SortSt.pick (st : SortSt) (pane : Nat) : Nat :=
  if (Sparse.get [] st.open_ pane).length ≠ 0 then pane
  else ((st.open_.find? (fun p => decide (96 ≤ p.1 ∧ (p.1 - 96) / 24 = pane / 24))).map Prod.fst).getD pane

/-- SORT_RUN of a strip on a Pane: its rows join the run the Pane is forming, and the row store of its Casement's part. -/
def Dev.runSortRun (d : Dev) (ctx n pane : Nat) (body : Bytes) (s : List ColTy) (st : SortSt) (x : Strip) : Made :=
  let cas := pane / 24
  let keys (r : Row) : Row := (keyCols body 8 (fieldAt body 0 1)).map (fun c => keyValue (s.getD c { ty := 0 }) (colOf r c))
  let es := stripEntries body 8 (fieldAt body 0 1) s (fun r => if keysOnly body then keys r else []) x
  let from_ := st.pick pane
  let f := fullRuns (runLimit body) (es.length + 1) (Sparse.get [] st.open_ from_ ++ es)
  let d := f.1.foldl (fun (d : Dev) r => d.countTrunc (entryWidth (fieldAt body 1 1)) r) d
  let held := Sparse.get [] st.rows cas
  { dev := d.ocount O.SORT_ROWS es.length
    st := .sortRun { open_ := Sparse.set [] (Sparse.set [] st.open_ from_ []) pane f.2
                     runs := st.runs ++ f.1.map (sealRun cas)
                     dir := if keysOnly body then st.dir
                       else st.dir ++ [{ cas := cas, strip := locatorOf x.tag 0 / 4096, first := held.length }]
                     rows := if keysOnly body then st.rows else Sparse.set [] st.rows cas (held ++ x.liveRows) }
    outs := [(List.range f.1.length).map (fun i => runToken ctx n (st.runs.length + i))] }

/-- The runs still open become runs at the end of the input. -/
def SortSt.close (st : SortSt) : SortSt :=
  { st with open_ := []
            runs := st.runs ++ st.open_.map (fun p => sealRun (p.1 % 96 / 24) (entrySort p.2)) }

/-! ### SORT_MERGE (R146 to R148) -/

/-- Passes of a merge: the least p with F^p at or above r, 0 for one run or none. The first number bounds p. -/
def mergePasses (f : Nat) : Nat → Nat → Nat
  | 0, _ => 0
  | k + 1, r => if r ≤ 1 then 0 else 1 + mergePasses f k (ceilDiv r f)

/-- The row an entry stands for in the output: under KEYS_ONLY its key columns, else the row that the strip directory and the
row store give for its locator. -/
def SortSt.rowOf (st : SortSt) (body : Bytes) (e : SEntry) : Row :=
  if keysOnly body then e.row
  else
    match st.dir.find? (fun x => decide (x.strip = e.loc / 4096)) with
    | none => []
    | some x =>
      ((((Sparse.get [] st.rows x.cas).drop x.first).find? (fun r => decide (r.1 = e.loc % 4096))).map Prod.snd).getD []

/-- Cut sorted rows into output strips: strip s holds rows 4,096 s upward, cut further under R38. -/
def numberedStrips (ctx n : Nat) (dicts : List Nat) : Nat → Nat → List Row → List Strip
  | 0, _, _ => []
  | k + 1, q, rows =>
    if rows = [] then []
    else
      (stripsOf (rows.take 4096)).zipIdx.map (fun p => denseStrip (tagOf ctx n (q * 256 + p.2)) p.1 dicts)
        ++ numberedStrips ctx n dicts k (q + 1) (rows.drop 4096)

/-- Rows cut into strips that count one by one in SEQ [39:8]. -/
def countedStrips (ctx n first : Nat) (dicts : List Nat) (cuts : List (List Row)) : List Strip :=
  cuts.zipIdx.map (fun p => denseStrip (tagOf ctx n ((first + p.2) * 256)) p.1 dicts)

/-- FAN_IN of a SORT_MERGE's record (R146). -/
def fanIn (body : Bytes) : Nat := if fieldAt body 0 1 = 0 then 64 else fieldAt body 0 1

/-- Group g of a pass's runs. -/
def MergeSt.groupRuns (m : MergeSt) (g : Nat) : List SRun := (m.runs.drop (g * m.group)).take m.group

/-- The entries of group g in sorted order. -/
def MergeSt.merged (m : MergeSt) (g : Nat) : List SEntry := entrySort ((m.groupRuns g).flatMap SRun.entries)

/-- Groups of a pass. -/
def MergeSt.groups (m : MergeSt) : Nat := ceilDiv m.runs.length (max 1 m.group)

/-- The ranges of group g of n entries, at most four for each of the Panes, cut at sample positions: every 4,096 entries or a
multiple of that (R148). -/
def rangesOf (panes g n : Nat) : List (Nat × Nat × Nat) :=
  let per := max 4096 (roundUp (ceilDiv n (4 * max 1 panes)) 4096)
  (List.range (ceilDiv n per)).map (fun i => (g, i * per, min n ((i + 1) * per)))

/-- The pass that merges some runs (R147): pass k of p passes, the first of which takes ⌈r / F^(p−1)⌉ runs to a group and the
others F. The last stops after LIMIT rows. -/
def passOf (body : Bytes) (panes src k p : Nat) (runs : List SRun) : MergeSt :=
  let f := fanIn body
  let last := decide (p ≤ k + 1)
  let m : MergeSt := { runs := runs, last := last, pass := k, src := src
                       group := if k = 0 then max 1 (ceilDiv runs.length (f ^ (p - 1))) else f }
  let limit := fieldAt body 8 8
  let size (g : Nat) : Nat :=
    let n := ((m.groupRuns g).map (fun r => r.entries.length)).sum
    if last ∧ limit ≠ 0 then min n limit else n
  let ranges := (List.range m.groups).flatMap (fun g => rangesOf panes g (size g))
  { m with ranges := ranges, left := ranges.length }

/-- The tokens of a pass's ranges: a finish strip for each, in order. -/
def MergeSt.tokens (m : MergeSt) (ctx n : Nat) : List Strip :=
  (List.range m.ranges.length).map (fun i => { tag := tagOf ctx n (i * 256) })

/-- A range of the last pass: the output strips that its places in the sorted order fill. -/
def MergeSt.rangeStrips (m : MergeSt) (ctx n : Nat) (rb : Bytes) (st : SortSt) (dicts : List Nat) (i : Nat) : List Strip :=
  let r := m.ranges.getD i (0, 0, 0)
  let rows := (((m.merged r.1).take r.2.2).drop r.2.1).map (st.rowOf rb)
  let dicts := if keysOnly rb then (keyCols rb 8 (fieldAt rb 0 1)).map (fun c => dicts.getD c 0) else dicts
  numberedStrips ctx n dicts (rows.length / 4096 + 1) (r.2.1 / 4096) rows

/-! ### TOPK (R149, R150) -/

/-- The best k of a list of entries. -/
def bestOfAll (k : Nat) (l : List SEntry) : List SEntry := (entrySort l).take k

/-- One entry meets a part: dropped where it does not sort before the threshold; a full candidate set of 2K is reduced to
the best K, whose last is the new threshold. -/
def TopPart.add (k : Nat) (p : TopPart) (e : SEntry) : TopPart :=
  if p.threshold.any (fun t => !entryBefore e t) then p
  else
    let l := p.cands ++ [e]
    if l.length < 2 * k then { p with cands := l }
    else
      let b := bestOfAll k l
      { cands := b, threshold := b.getLast? }

/-- TOPK of a strip, in the part of the Casement that runs it. -/
def Dev.runTopk (d : Dev) (cas : Nat) (body : Bytes) (s : List ColTy) (parts : Sparse TopPart) (x : Strip) : Made :=
  let es := stripEntries body 8 (fieldAt body 0 1) s id x
  { dev := d
    st := .topk (Sparse.set {} parts cas (es.foldl (TopPart.add (fieldAt body 4 4)) (Sparse.get {} parts cas))) }

/-- What TOPK emits: the parts merged, from position OFFSET. -/
def topkStrips (ctx n : Nat) (body : Bytes) (dicts : List Nat) (parts : Sparse TopPart) : List Strip :=
  let best := bestOfAll (fieldAt body 4 4) (parts.flatMap (fun p => p.2.cands))
  countedStrips ctx n 0 dicts (stripsOf ((best.drop (fieldAt body 0x18 4)).map SEntry.row))

/-! ### Aggregates (R152, R153) -/

/-- The better of two values for MIN or MAX. -/
def bestOf (t sc : Nat) (max_ : Bool) (a : Option Val) (v : Val) : Option Val :=
  match a with
  | none => some v
  | some w => if (if max_ then valLt t sc t sc w v else valLt t sc t sc v w) then some v else some w

/-- A value's residues: of the low and the high 64 bits of its 128-bit pattern (R89). -/
def chainOf (v : Int) : Nat × Nat :=
  let p := (v % 2 ^ 128).toNat
  (p % 2 ^ 64 % 15, p / 2 ^ 64 % 15)

/-- The residues of a sum from those of its addends, the carry out of each half folded back (R89). -/
def chainAdd (a b : Int) (x y : Nat × Nat) : Nat × Nat :=
  let p := (a % 2 ^ 128).toNat
  let q := (b % 2 ^ 128).toNat
  let c := (p % 2 ^ 64 + q % 2 ^ 64) / 2 ^ 64
  let e := (p / 2 ^ 64 + q / 2 ^ 64 + c) / 2 ^ 64
  ((x.1 + y.1 + 15 - c) % 15, (x.2 + y.2 + c + 15 - e) % 15)

/-- Count one row, with its residue. -/
def Acc1.tick (a : Acc1) (counts : Bool) : Acc1 :=
  { a with count := a.count + 1, chain := if counts then chainAdd a.count 1 a.chain (1, 0) else a.chain }

/-- Add an operand to the sum, with the residues it has on entry (R159). -/
def Acc1.plus (a : Acc1) (v : Int) : Acc1 := { a with sum := a.sum + v, chain := chainAdd a.sum v a.chain (chainOf v) }

/-- Take one value into an accumulator. -/
def Acc1.add (a : Acc1) (g : AggFn) (c : ColTy) (loc : Nat) (v : Datum) : Acc1 :=
  if g.func = 0x01 then a.tick true
  else
    match v with
    | none => a
    | some v =>
      let a := a.tick (g.func == 0x02)
      match g.func, v with
      | 0x03, .num n =>
        if isFlt c.ty then { a with flts := a.flts ++ [fltCast (typeBits c.ty) 64 n] } else a.plus (intVal c.ty n)
      | 0x06, .num n =>
        if isFlt c.ty then { a with flts := a.flts ++ [fltCast (typeBits c.ty) 64 n] } else a.plus (intVal c.ty n)
      | 0x04, v => { a with held := bestOf c.ty c.scale false a.held v }
      | 0x05, v => { a with held := bestOf c.ty c.scale true a.held v }
      | 0x07, v => if a.held.isNone ∨ loc < a.loc then { a with held := some v, loc := loc } else a
      | 0x08, .num n => { a with held := some (.num (if numOf a.held = 0 ∧ a.held.isSome then 0 else n)) }
      | 0x09, .num n => { a with held := some (.num (if numOf a.held = 1 then 1 else n)) }
      | _, _ => a

/-- Join two accumulators of one aggregate. -/
def Acc1.join (a b : Acc1) (g : AggFn) (c : ColTy) : Acc1 :=
  let held := match g.func, b.held with
    | _, none => a.held
    | 0x04, some v => bestOf c.ty c.scale false a.held v
    | 0x05, some v => bestOf c.ty c.scale true a.held v
    | 0x07, some v => if a.held.isNone ∨ b.loc < a.loc then some v else a.held
    | 0x08, some v => if a.held.isSome ∧ numOf a.held = 0 then a.held else some v
    | 0x09, some v => if numOf a.held = 1 then a.held else some v
    | _, some v => some v
  let chain := if g.func = 0x01 ∨ g.func = 0x02 then chainAdd a.count b.count a.chain b.chain
    else chainAdd a.sum b.sum a.chain b.chain
  { count := a.count + b.count, sum := a.sum + b.sum, chain := chain, flts := a.flts ++ b.flts, held := held
    loc := if a.held.isNone ∨ (b.held.isSome ∧ b.loc < a.loc) then b.loc else a.loc }

/-- Take element i out of a list. -/
def takeAt (l : List Nat) (i : Nat) : Nat × List Nat := (l.getD i 0, l.eraseIdx i)

/-- A binary64 sum whose order the spec leaves to dispatch: two addends at open places are joined until one is left. The
first number bounds the joins. -/
def fltSum : Nat → List Nat → Nat → Nat × Nat
  | _, [], f => (0, f)
  | _, [x], f => (x, f)
  | 0, x :: _, f => (x, f)
  | k + 1, l, f =>
    let a := takeAt l ((Config.freeValue f).toNat % l.length)
    let b := takeAt a.2 ((Config.freeValue (f + 1)).toNat % a.2.length)
    fltSum k (fltAdd 64 a.1 b.1 :: b.2) (f + 2)

/-- The final value of an aggregate, and the run's counts (R152, R153). -/
def Acc1.value (a : Acc1) (g : AggFn) (c : ColTy) (s : CState) : Datum × CState :=
  if g.func = 0x01 ∨ g.func = 0x02 then (some (.num (patOf 0x04 a.count)), s)
  else if g.func = 0x03 ∨ g.func = 0x06 then
    if a.count = 0 then (none, s)
    else if isFlt c.ty then
      let v := fltSum a.flts.length a.flts s.free
      let s := { s with free := v.2 }
      (some (.num (if g.func = 0x03 then v.1 else fltDivTo 64 64 v.1 (fltRound 64 false a.count 1))), s)
    else if g.func = 0x03 then
      if g.ty = 0x04 then s.fits 0x04 (bitAt g.flags 2) a.sum else s.fits 0x0A false a.sum
    else
      match exactOp 0x05 (bits g.flags 1 0) a.sum a.count (if isDec c.ty then c.scale else 0) 0 g.scale with
      | some q => s.fits 0x0A false q
      | none => (none, s)
  else if (g.func = 0x04 ∨ g.func = 0x05) ∧ isFlt c.ty = true then
    (a.held.map (fun v => .num (fltCanon (typeBits c.ty) (numOf (some v)))), s)
  else (a.held, s)

/-- Whether the residue word covers an aggregate (R152). -/
def AggFn.covered (g : AggFn) (c : ColTy) : Bool :=
  if g.func = 0x01 ∨ g.func = 0x02 then true
  else if g.func = 0x03 ∨ g.func = 0x06 then !isFlt c.ty
  else if g.func = 0x04 ∨ g.func = 0x05 ∨ g.func = 0x07 then isInt c.ty || isDec c.ty || c.ty == 0x0D || c.ty == 0x0E
  else false

/-- The nibbles of a result (R158): of a count or a sum those its chain has come to (R159), of another covered result those
of the value the accumulator held. -/
def resultNibbles (g : AggFn) (c : ColTy) (a : Acc1) (v : Datum) : List Nat :=
  match v with
  | some (.num n) =>
    if g.covered c = false then List.replicate g.positions 15
    else if g.func ≤ 0x03 then ([a.chain.1, a.chain.2]).take g.positions
    else residueNibbles g.ty n
  | _ => List.replicate g.positions 15

/-- The residue word of a spilled entry: that of its partial counts, sums and values (R156, R159). -/
def Group.partialWord (fns : List (AggFn × ColTy)) (x : Group) : Nat :=
  residueWord ((fns.zip x.accs).flatMap (fun p =>
    if p.1.1.covered p.1.2 = false then [15]
    else if p.1.1.func ≤ 0x03 ∨ p.1.1.func = 0x06 then [p.2.chain.1, p.2.chain.2]
    else match p.2.held with
      | some (.num n) => residueNibbles p.1.2.ty n
      | _ => [15]))

/-! ### Groups (R154 to R157) -/

/-- The input column of an aggregate. -/
def aggCol (s : List ColTy) (g : AggFn) : ColTy := s.getD g.col { ty := 0x04 }

/-- The normalized group key of a row, NULLS_FIRST and ascending; DICT columns by code. -/
def groupKey (body : Bytes) (s : List ColTy) (r : Row) : Bytes :=
  (keyCols body 8 (fieldAt body 0 1)).flatMap (fun c => keyColumn (s.getD c { ty := 0 }) false false (colOf r c))

/-- A group of one row. -/
def groupOf (body : Bytes) (s : List ColTy) (loc : Nat) (r : Row) : Group :=
  let cols := keyCols body 8 (fieldAt body 0 1)
  let vals := cols.map (fun c => keyValue (s.getD c { ty := 0 }) (colOf r c))
  { key := groupKey body s r, vals := vals
    hash := fhKey (fieldAt body 0x10 8) ((cols.map (fun c => (s.getD c { ty := 0 }).ty)).zip vals)
    accs := (aggsOf body).map (fun g => ({} : Acc1).add g (aggCol s g) loc (colOf r g.col)) }

/-- Join two groups of one key. -/
def Group.join (body : Bytes) (s : List ColTy) (a b : Group) : Group :=
  { a with accs := ((aggsOf body).zip (a.accs.zip b.accs)).map (fun p => p.2.1.join p.2.2 p.1 (aggCol s p.1)) }

/-- Put a group into a table. -/
def groupPut (body : Bytes) (s : List ColTy) (g : Group) : List Group → List Group
  | [] => [g]
  | x :: xs => if x.key = g.key then x.join body s g :: xs else x :: groupPut body s g xs

/-- State bytes of an aggregate in a table entry (R155). -/
def aggBytes (s : List ColTy) (g : AggFn) : Nat :=
  let c := aggCol s g
  if g.func = 0x03 then (if isFlt c.ty then 8 else if isDec c.ty then 24 else 16)
  else if g.func = 0x06 then (if isFlt c.ty then 16 else 32)
  else if g.func = 0x04 ∨ g.func = 0x05 then (if isVar c.ty then 8 else storeWidth c.ty)
  else if g.func = 0x07 then storeWidth c.ty + 8
  else 8

/-- An entry's size rounded up as B is rounded in R128. -/
def roundB (n : Nat) : Nat :=
  if n ≤ 16 then 16 else if n ≤ 32 then 32 else if n ≤ 64 then 64 else if n ≤ 128 then 128 else roundUp n 128

/-- Bytes of a group's table entry, a VARBIN heap counted in. -/
def groupBytes (body : Bytes) (s : List ColTy) (g : Group) : Nat :=
  roundB (8 + g.key.length + ((aggsOf body).map (aggBytes s)).sum) + (g.accs.map (fun a => (strOf a.held).length)).sum

/-- Bytes of a table's entries. -/
def tableBytes (body : Bytes) (s : List ColTy) (l : List Group) : Nat := (l.map (groupBytes body s)).sum

/-- A key longer than 1,024 bytes (R154). -/
def keyTooLong (body : Bytes) (s : List ColTy) (x : Strip) : Bool :=
  x.liveRows.any (fun p => decide (1024 < (groupKey body s p.2).length))

/-! ### HASH_AGG (R155, R156) -/

/-- AGG_STORE_SHARE and AGG_SPILL_PBITS within their ranges (R167). -/
def Dev.aggShare (d : Dev) : Nat := d.oclamp O.AGG_STORE_SHARE 0x40000 0x1C0000
/-- AGG_SPILL_PBITS. -/
def Dev.aggPbits (d : Dev) : Nat := d.oclamp O.AGG_SPILL_PBITS 4 12

/-- The functions of a record with their input columns. -/
def aggFns (body : Bytes) (s : List ColTy) : List (AggFn × ColTy) := (aggsOf body).map (fun g => (g, aggCol s g))

/-- A Pane's table with the share it was started with; an empty one starts with the share in effect (R167). -/
def Dev.aggTable (d : Dev) (a : AggSt) (pane : Nat) : AggTable :=
  let t := Sparse.get { share := 0, groups := [] } a.tables pane
  if t.groups = [] then { share := d.aggShare, groups := [] } else t

/-- One row of a strip: its group joins the Pane's table, which first spills when it has no room, each entry with its residue
word (R156). -/
def Dev.aggRow (d : Dev) (pane : Nat) (body : Bytes) (s : List ColTy) (loc : Nat) (r : Row) (a : AggSt) : Dev × AggSt :=
  let g := groupOf body s loc r
  let t := d.aggTable a pane
  let put (a : AggSt) (t : AggTable) : AggSt := { a with tables := Sparse.set { share := 0, groups := [] } a.tables pane t }
  if t.groups.any (fun x => x.key == g.key) then (d, put a { t with groups := groupPut body s g t.groups })
  else if t.share * 7 / 8 < tableBytes body s t.groups + groupBytes body s g ∧ t.groups ≠ [] then
    let out := t.groups.map (fun x => (pane / 24, { x with word := some (x.partialWord (aggFns body s)) }))
    ((d.ocount O.AGG_SPILLS 1).ocount O.AGG_SPILL_BYTES (tableBytes body s t.groups),
      put { a with spilled := a.spilled ++ out, pbits := some (a.pbits.getD d.aggPbits) } { share := d.aggShare, groups := [g] })
  else (d, put a { t with groups := t.groups ++ [g] })

/-- HASH_AGG of a strip on a Pane. -/
def Dev.runAgg (d : Dev) (pane : Nat) (body : Bytes) (s : List ColTy) (a : AggSt) (x : Strip) : Made :=
  if keyTooLong body s x then { dev := d, st := .agg a, fail := some 0x0202 }
  else
    let v := x.liveRows.foldl (fun (v : Dev × AggSt) p => v.1.aggRow pane body s (locatorOf x.tag p.1) p.2 v.2) (d, a)
    { dev := v.1, st := .agg v.2 }

/-- Arrange groups by keys drawn for them: an order the spec leaves open (R156). -/
def openOrder (first : Nat) (l : List Group) : List Group :=
  (l.zipIdx.foldr (fun p acc =>
    let k := (Config.freeValue (first + p.2)).toNat
    let rec put : List (Nat × Group) → List (Nat × Group)
      | [] => [(k, p.1)]
      | x :: xs => if k ≤ x.1 then (k, p.1) :: x :: xs else x :: put xs
    put acc) []).map Prod.snd

/-- A partition that cannot be split to fit one table by depth 24 (R156). -/
def unsplittable (body : Bytes) (s : List ColTy) (room : Nat) (l : List Group) : Bool :=
  let parts := (l.map (fun g => topBits g.hash 24)).eraseDups
  decide (room < tableBytes body s l)
    && parts.any (fun p => decide (room < tableBytes body s (l.filter (fun g => topBits g.hash 24 == p))))

/-- The output row of a group: keys, aggregates, and under APPEND_RESIDUE its residue word (R151, R158). -/
def groupRow (body : Bytes) (s : List ColTy) (g : Group) (c : CState) : Row × CState :=
  let v := ((aggsOf body).zip g.accs).foldl (fun (acc : (Row × List Nat) × CState) p =>
    let r := p.2.value p.1 (aggCol s p.1) acc.2
    ((acc.1.1 ++ [r.1], acc.1.2 ++ resultNibbles p.1 (aggCol s p.1) p.2 r.1), r.2)) (([], []), c)
  (g.vals ++ v.1.1 ++ (if bitAt (fieldAt body 2 1) 0 then [some (.num (residueWord v.1.2))] else []), v.2)

/-- The rows of groups in order. -/
def groupRows (body : Bytes) (s : List ColTy) : List Group → CState → List Row × CState
  | [], c => ([], c)
  | g :: gs, c =>
    let r := groupRow body s g c
    let t := groupRows body s gs r.2
    (r.1 :: t.1, t.2)

/-- Count what a program or a finalization nulled in its context (R82, R153), and move past the open values it drew. -/
def Dev.countNulls (d : Dev) (ctx : Nat) (c : CState) : Dev :=
  let d := (d.ocount (O.OVERFLOW_NULLS ctx) c.overflow).ocount (O.DIVZERO_NULLS ctx) c.divZero
  { d.ocount (O.CAST_NULLS ctx) c.casts with free := c.free }

/-- AGG_SPILL_PBITS of a node: as its spills started with it, else the value in effect. -/
def AggSt.bits (a : AggSt) (d : Dev) : Nat := a.pbits.getD d.aggPbits

/-- The spilled entries and the tables' groups of partition p. -/
def AggSt.partition (a : AggSt) (bits p : Nat) : List Group :=
  (a.tables.flatMap (fun t => t.2.groups) ++ a.spilled.map Prod.snd).filter (fun g => topBits g.hash bits == p)

/-- HASH_AGG at the end of its input: an empty input without key columns has one group; a token for each partition that holds
a group (R154, R156). -/
def Dev.endAgg (d : Dev) (ctx n : Nat) (body : Bytes) (a : AggSt) : AggSt × List Strip :=
  let none_ := a.tables.all (fun t => decide (t.2.groups = [])) && decide (a.spilled = [])
  let a := if none_ ∧ fieldAt body 0 1 = 0 then
      { a with tables := [(0, { share := d.aggShare, groups := [{ key := [], vals := [], accs := (aggsOf body).map (fun _ => {}) }] })] }
    else a
  let a := { a with pbits := some (a.bits d) }
  (a, ((List.range (2 ^ a.bits d)).filter (fun p => decide (a.partition (a.bits d) p ≠ []))).map
    (fun p => { tag := tagOf ctx n (p * 256) }))

/-- Finalization of partition p: its groups merged, its spills' residue words checked, its strips numbered on from those of the
partitions before it (R156). The status with which it fails comes with it. -/
def Dev.runPartition (d : Dev) (ctx n : Nat) (body : Bytes) (s : List ColTy) (dicts : List Nat) (a : AggSt) (p : Nat) :
    Made :=
  let part := a.partition (a.bits d) p
  let all := part.foldl (fun l g => groupPut body s g l) []
  if part.any (fun g => g.word.any (fun w => w != g.partialWord (aggFns body s))) then
    { dev := d, st := .agg a, fail := some 0x0701 }
  else if unsplittable body s (d.aggShare * 7 / 8) all then { dev := d, st := .agg a, fail := some 0x0301 }
  else
    let r := groupRows body s (openOrder d.free all) { free := d.free + all.length }
    let kd := (keyCols body 8 (fieldAt body 0 1)).map (fun c => dicts.getD c 0)
    let width := fieldAt body 1 1 + b2n (bitAt (fieldAt body 2 1) 0)
    let strips := countedStrips ctx n a.seq (kd ++ List.replicate width 0) (stripsOf r.1)
    { dev := (d.countNulls ctx r.2).ocount O.AGG_GROUPS all.length
      st := .agg { a with seq := a.seq + strips.length }, outs := [strips] }

/-! ### SORT_AGG (R157) -/

/-- Take one row: it joins the open group, or closes it. -/
def sortAggRow (body : Bytes) (s : List ColTy) (loc : Nat) (r : Row) (open_ : Option Group) (done : List Group) :
    Option Group × List Group :=
  let g := groupOf body s loc r
  match open_ with
  | some o => if o.key = g.key then (some (o.join body s g), done) else (some g, done ++ [o])
  | none => (some g, done)

/-- Full strips of finished groups, and the groups left. -/
def Dev.sortAggOut (d : Dev) (ctx n : Nat) (body : Bytes) (s : List ColTy) (dicts : List Nat) (seq : Nat) (last : Bool)
    (done : List Group) : List Strip × List Group × Dev :=
  let go := if last then done else done.take (done.length / 4096 * 4096)
  let r := groupRows body s go { free := d.free }
  let kd := (keyCols body 8 (fieldAt body 0 1)).map (fun c => dicts.getD c 0)
  let width := fieldAt body 1 1 + b2n (bitAt (fieldAt body 2 1) 0)
  (countedStrips ctx n seq (kd ++ List.replicate width 0) (stripsOf r.1), done.drop go.length,
    (d.countNulls ctx r.2).ocount O.AGG_GROUPS go.length)

/-- SORT_AGG of a strip. -/
def Dev.runSortAgg (d : Dev) (ctx n : Nat) (body : Bytes) (s : List ColTy) (open_ : Option Group) (done : List Group)
    (seq : Nat) (x : Strip) : Made :=
  if keyTooLong body s x then { dev := d, st := .sortAgg open_ done seq, fail := some 0x0202 }
  else
    let v := x.liveRows.foldl (fun (v : Option Group × List Group) p =>
      sortAggRow body s (locatorOf x.tag p.1) p.2 v.1 v.2) (open_, done)
    let o := d.sortAggOut ctx n body s x.dicts seq false v.2
    { dev := o.2.2, st := .sortAgg v.1 o.2.1 (seq + o.1.length), outs := [o.1] }

/-- The end of SORT_AGG's input. -/
def Dev.endSortAgg (d : Dev) (ctx n : Nat) (body : Bytes) (s : List ColTy) (dicts : List Nat) (open_ : Option Group)
    (done : List Group) (seq : Nat) : List Strip × Dev :=
  let all := done ++ open_.toList
  let all := if all = [] ∧ seq = 0 ∧ fieldAt body 0 1 = 0 then
      [{ key := [], vals := [], accs := (aggsOf body).map (fun _ => {}) }] else all
  let o := d.sortAggOut ctx n body s dicts seq true all
  (o.1, o.2.2)

end Sys2Proof.Machine
end

