-- ==== Sys2Proof/Machine/Hinge.lean ====
section
/-!
DEFINITION. Hinge channels, lists and descriptors (R336 to R343), and the halt (R346).
-/

namespace Sys2Proof.Machine

/-! ### Channels and lists -/

/-- A channel. -/
def Dev.hchan (d : Dev) (n : Nat) : HChan := Sparse.get {} d.hinge.chans n

/-- Put a channel. -/
def Dev.setHchan (d : Dev) (n : Nat) (x : HChan) : Dev :=
  { d with hinge := { d.hinge with chans := Sparse.set {} d.hinge.chans n x } }

/-- Bytes queued on a channel. -/
def HChan.queuedBytes (x : HChan) : Nat := (x.lists.map (fun l => l.queued - l.moved)).sum

/-- The channel of a pool with the fewest queued bytes, ties to the lowest (R336). -/
def Dev.leastQueued (d : Dev) : List Nat → Nat
  | [] => 0
  | [n] => n
  | n :: m :: rest =>
    let r := d.leastQueued (m :: rest)
    if (d.hchan n).queuedBytes ≤ (d.hchan r).queuedBytes then n else r

/-- The channels of a pool: command, host traffic, drive traffic (R336). -/
def poolCommand : List Nat := List.range 48
/-- Host traffic. -/
def poolHost : List Nat := (List.range 8).map (fun i => 48 + i)
/-- Drive traffic. -/
def poolDrive : List Nat := (List.range 8).map (fun i => 56 + i)

/-- Put a list behind those waiting on a channel. -/
def Dev.enqueueList (d : Dev) (n : Nat) (l : HList) : Dev :=
  let x := d.hchan n
  d.setHchan n { x with lists := x.lists ++ [l] }

/-- Cut a transfer into pieces of at most 256 KiB (R342). The first number bounds the pieces. -/
def chunks : Nat → ESrc → EDst → Nat → List EDesc
  | 0, _, _, _ => []
  | k + 1, s, t, n =>
    if n = 0 then []
    else
      let m := min n 262144
      let s' := match s with
        | .host a => .host (a + m)
        | .eng a => .eng (a + m)
        | .imm b => .imm (b.drop m)
      let t' := match t with
        | .host a => .host (a + m)
        | .eng a => .eng (a + m)
        | .store c => .store c
        | .buffer => .buffer
      let s0 := match s with
        | .imm b => .imm (b.take m)
        | x => x
      { src := s0, dst := t, len := m } :: chunks k s' t' (n - m)

/-- The pieces of one transfer. -/
def piecesOf (s : ESrc) (t : EDst) (n : Nat) : List EDesc := chunks (n / 262144 + 1) s t n

/-- Issue a list of engine traffic on the least-queued channel of its pool. -/
def Dev.issueList (d : Dev) (pool : List Nat) (owner : Owner) (tag : Nat) (work : List EDesc) : Dev :=
  d.enqueueList (d.leastQueued pool)
    { owner := owner, tag := tag, count := work.length, work := work, queued := (work.map EDesc.len).sum }

/-- DMA: the command's list joins its channel (R336, R341). -/
def Dev.dmaStart (d : Dev) (id : Nat) : Dev :=
  match d.running id opDma with
  | none => d
  | some c =>
    let b := c.entry
    let held := d.hinge.chans.any (fun p => p.2.lists.any (fun l => l.owner == .dma id))
    if held then d
    else
      let ch := fieldAt b 16 1
      let addr := fieldAt b 24 8
      let l : HList := { owner := .dma id, tag := c.tag, count := fieldAt b 18 2, total := fieldAt b 32 8
                         at_ := if addr = 0 then .inline 0 else .mem (bitAt (fieldAt b 17 1) 7) addr
                         queued := fieldAt b 32 8 }
      d.enqueueList (if ch = 0xFF then d.leastQueued poolCommand else ch) l

/-! ### Moving a descriptor (R338, R339) -/

/-- The address of stream offset k of a side. -/
def streamAddr (base len : Nat) (stride : Int) (k : Nat) : Nat :=
  ((Int.ofNat base + Int.ofNat (k / len) * stride + Int.ofNat (k % len)) % 2 ^ 64).toNat

/-- Addresses of the first n bytes of the source stream. -/
def Desc.srcAddrs (x : Desc) (n : Nat) : List Nat := (List.range n).map (streamAddr x.src x.srcLen x.srcStride)

/-- Addresses of the first n bytes of the destination stream. -/
def Desc.dstAddrs (x : Desc) (n : Nat) : List Nat := (List.range n).map (streamAddr x.dst x.dstLen x.dstStride)

/-- One byte of a space, as it stands. -/
def Dev.spaceByte (d : Dev) (eng : Bool) (a : Nat) : Byte := if eng then d.engByte a else Sparse.get 0 d.host a

/-- The first host address of a read that fails, with its kind. -/
def Dev.hostFault (d : Dev) (as : List Nat) : Option (Nat × Nat) :=
  as.findSome? (fun a =>
    (d.hostBad.find? (fun r => decide (r.1 ≤ a ∧ a < r.1 + r.2.1))).map (fun r => (a, r.2.2)))

/-- The source stream of a descriptor: old values, and an open value for a byte at stream offset j that the descriptor
writes at an offset below j (R338). -/
def Dev.streamBytes (d : Dev) (sameSpace eng : Bool) (dsts : List Nat) : List Nat → Nat → Bytes × Dev
  | [], _ => ([], d)
  | a :: as, j =>
    if sameSpace && (dsts.take j).contains a then
      let v := d.draw
      let r := v.2.streamBytes sameSpace eng dsts as (j + 1)
      (BitVec.ofNat 8 v.1 :: r.1, r.2)
    else
      let r := d.streamBytes sameSpace eng dsts as (j + 1)
      (d.spaceByte eng a :: r.1, r.2)

/-- Write a stream into destination lines, in line order (R338, R344). -/
def Dev.writeLines (d : Dev) (x : Desc) : Nat → Nat → Bytes → Dev
  | 0, _, _ => d
  | k + 1, line, b =>
    if b = [] then d
    else
      let a := ((Int.ofNat x.dst + Int.ofNat line * x.dstStride) % 2 ^ 64).toNat
      (d.writeSpace x.dstEng a (b.take x.dstLen)).writeLines x k (line + 1) (b.drop x.dstLen)

/-- What moving a descriptor comes to. -/
inductive Moved where
  | ok (d : Dev)
  | poisoned
  | busError (addr kind : Nat)
deriving DecidableEq, Repr

/-- Move the first n bytes of a descriptor; a unit that SWAP rearranges is read whole. -/
def Dev.moveDesc (d : Dev) (x : Desc) (n : Nat) : Moved :=
  let srcs := x.srcAddrs (roundUp n ((swapUnit x.swap).getD 1))
  if x.srcEng = true ∧ srcs.any d.poisonedAt = true then .poisoned
  else
    match if x.srcEng then none else d.hostFault srcs with
    | some f => .busError f.1 f.2
    | none =>
      let s := d.streamBytes (x.srcEng == x.dstEng) x.srcEng (x.dstAddrs n) srcs 0
      let d := s.2.writeLines x (n / x.dstLen + 1) 0 ((swapBytes x.swap s.1).take n)
      .ok (((d.ocount O.HINGE_BYTES_READ n).ocount O.HINGE_BYTES_WRITTEN n).ocount O.HINGE_DESCRIPTORS 1)

/-- The bytes an engine-built descriptor reads. -/
def Dev.srcBytes (d : Dev) (s : ESrc) (n : Nat) : Except Nat Bytes :=
  match s with
  | .host a => d.readSpace false a n
  | .eng a => d.readSpace true a n
  | .imm b => .ok (b.take n)

/-- The 64 bytes of a DMA list's next descriptor. -/
def Dev.dmaDesc (d : Dev) (c : Cmd) : DescAt → Except Nat Bytes
  | .inline i => .ok (sliceAt c.entry (64 + 64 * i) 64)
  | .mem eng a => d.readSpace eng a 64

/-! ### The halt (R346) -/

/-- Of the bytes of a destination line an open number is written, from its first byte on (R344, R346). -/
def Dev.partLine (d : Dev) (eng : Bool) (a : Nat) (b : Bytes) : Dev :=
  d.draw.2.writeSpace eng a (b.take (d.draw.1 % (b.length + 1)))

/-- A stream is part-written into the destination lines of a descriptor. The first number bounds the lines. -/
def Dev.partLines (d : Dev) (x : Desc) : Nat → Nat → Bytes → Dev
  | 0, _, _ => d
  | k + 1, line, b =>
    if b = [] then d
    else
      let a := ((Int.ofNat x.dst + Int.ofNat line * x.dstStride) % 2 ^ 64).toNat
      (d.partLine x.dstEng a (b.take x.dstLen)).partLines x k (line + 1) (b.drop x.dstLen)

/-- The first n bytes of a DMA descriptor are part-written, as far as its source can be read. -/
def Dev.partDesc (d : Dev) (x : Desc) (n : Nat) : Dev :=
  let good := (x.srcAddrs n).takeWhile (fun a => if x.srcEng then !d.poisonedAt a else (d.hostFault [a]).isNone)
  let u := (swapUnit x.swap).getD 1
  let m := good.length / u * u
  let s := d.streamBytes (x.srcEng == x.dstEng) x.srcEng (x.dstAddrs n) (good.take m) 0
  s.2.partLines x (m / x.dstLen + 1) 0 (swapBytes x.swap s.1)

/-- The current descriptor of a list is part-written. -/
def Dev.partList (d : Dev) (l : HList) : Dev :=
  match l.owner with
  | .dma id =>
    match d.cmd id with
    | none => d
    | some c =>
      match d.dmaDesc c l.at_ with
      | .error _ => d
      | .ok b => if descOk b then d.partDesc (descOf b) (min (descOf b).size (l.total - l.moved)) else d
  | _ =>
    match l.work with
    | [] => d
    | e :: _ =>
      match d.srcBytes e.src e.len, e.dst with
      | .ok b, .host a => d.partLine false a b
      | .ok b, .eng a => d.partLine true a b
      | _, _ => d

/-- A channel is running a descriptor. -/
def HChan.moving (x : HChan) : Bool := !x.lists.isEmpty && !x.stopped

/-- The current descriptor of every channel is abandoned part-written (R346). -/
def Dev.partWritten (d : Dev) : Dev :=
  (d.hinge.chans.filter (fun p => p.2.moving)).foldl (fun d p => (p.2.lists.head?.map d.partList).getD d) d

/-- Halt Hinge on a failed read: every channel's current descriptor is abandoned part-written, the address and kind are latched, the
vector and the bus-error source raised; a further failure while halted only sets MORE (R346, R348). `slot` is the drive slot
of a drive-port error, the channel of a host-link error. -/
def Dev.busError (d : Dev) (addr kind : Nat) (port : Bool) (slot : Nat) : Dev :=
  if d.hinge.halt then { d with hinge := { d.hinge with errMore := true } }
  else
    let d := d.partWritten
    let h := d.hinge
    let chans := h.chans.map (fun p => (p.1, if p.2.moving then { p.2 with abandoned := true } else p.2))
    let d := { d with hinge := { chans := chans, halt := true, errAddr := addr, errKind := kind, errPort := port
                                 errSlot := if port then slot else 0, errMore := false } }
    let d := (d.fcount F.HINGE_STAT_HALTS 1).ocount O.HINGE_HALTS 1
    let d := d.raiseVector (d.oget O.HALT_VECTOR)
    d.faultRaise 459 (addr % 2 ^ 64 + slot % 64 * 2 ^ 64 + kind * 2 ^ 70) false

/-- HINGE_CH_CTL_n.STOP: the channel stops at its next descriptor boundary; one without a list stands at one (R342,
R343). -/
def Dev.hingeStop (d : Dev) (n : Nat) : Dev :=
  let x := d.hchan n
  if x.lists = [] then d.setHchan n { x with stopped := true } else d.setHchan n { x with stopReq := true }

/-- HINGE_CH_CTL_n.GO: a stopped channel goes on at its next descriptor (R343). -/
def Dev.hingeGo (d : Dev) (n : Nat) : Dev :=
  let x := d.hchan n
  d.setHchan n { x with stopReq := false, stopped := false }

/-- The first list leaves its channel; a stop that waited for it takes effect. -/
def Dev.popList (d : Dev) (n : Nat) : Dev :=
  let x := d.hchan n
  d.setHchan n { x with lists := x.lists.tail, abandoned := false }

/-- Put the list at the head of a channel back with a change. -/
def Dev.setHead (d : Dev) (n : Nat) (l : HList) : Dev :=
  let x := d.hchan n
  d.setHchan n { x with lists := l :: x.lists.tail }

/-- A boundary: a requested stop takes hold (R342). -/
def Dev.atBoundary (d : Dev) (n : Nat) : Dev :=
  let x := d.hchan n
  if x.stopReq then d.setHchan n { x with stopReq := false, stopped := true } else d

end Sys2Proof.Machine
end

