-- ==== Sys2Proof/Machine/Store.lean ====
section
/-!
DEFINITION. Threshold and the drives: STORE, commit, drain and release (R273 to R280), FETCH (R281, R282), drive events
and hot plug (R286 to R288), and wear (R289).
-/

namespace Sys2Proof.Machine

/-! ### Drives -/

/-- A drive slot. -/
def Dev.drive (d : Dev) (s : Nat) : Drive := Sparse.get {} d.drives s

/-- Put a drive slot. -/
def Dev.setDrive (d : Dev) (s : Nat) (x : Drive) : Dev := { d with drives := Sparse.set {} d.drives s x }

/-- The slots a group's bifurcation creates, an undefined value taken as 0 (R286, R291). -/
def groupSlots (v g : Nat) : List Nat :=
  if v = 1 then [4 * g, 4 * g + 2] else if v = 2 then [4 * g, 4 * g + 1, 4 * g + 2, 4 * g + 3] else [4 * g]

/-- The lanes a group's bifurcation gives each of its slots. -/
def groupLanes (v : Nat) : Nat := if v = 1 then 2 else if v = 2 then 1 else 4

/-- Nothing usable in the slot: no drive, or one that did not come back (R287, R288). -/
def Drive.empty (x : Drive) : Bool := !x.present || x.failed

/-- The drive takes I/O now. -/
def Drive.answers (x : Drive) : Bool := !x.empty && x.ready && !x.resetting

/-- A namespace that R287 lets the engine use. -/
def Drive.space (x : Drive) (nsid : Nat) : Option NSpace :=
  x.spaces.find? (fun n => decide (n.nsid = nsid) && (n.lbaSize == 512 || n.lbaSize == 4096))

/-- Where a byte of a namespace is kept. -/
def cellKey (nsid off : Nat) : Nat := nsid * 2 ^ 72 + off

/-- n bytes of a namespace; bytes never written read zero (assumption log 5). -/
def Drive.read (x : Drive) (nsid off n : Nat) : Bytes :=
  (List.range n).map (fun i => Sparse.get 0 x.cells (cellKey nsid (off + i)))

/-- Write bytes into a namespace. -/
def Drive.write (x : Drive) (nsid off : Nat) (b : Bytes) : Drive :=
  { x with cells := Sparse.setAll 0 x.cells (addressed (cellKey nsid off) b) }

/-- Record an NVMe status, or 0xFFFF for a timeout, with its slot (R287, R291). -/
def Dev.nvmeStatus (d : Dev) (slot st : Nat) : Dev := d.oput O.LAST_NVME_STATUS (slot * 65536 + st % 65536)

/-- n bytes from an offset of a namespace lie inside it. -/
def NSpace.holds (s : NSpace) (off n : Nat) : Bool := decide (off + n ≤ s.lbas * s.lbaSize)

/-- A drive's answer to a command for n LBAs: the NVMe status of the outcome it is given, or, where it lacks such LBAs, an open
status (assumption log 10); none where it succeeds. -/
def Dev.driveAnswer (d : Dev) (slot nsid lba n : Nat) (outcome : Option Nat) : Option Nat × Dev :=
  match outcome with
  | some st => (some st, d)
  | none =>
    match (d.drive slot).space nsid with
    | none => (none, d)
    | some s => if s.lbas < lba + n then (some (d.draw.1 % 2 ^ 15), d.draw.2) else (none, d)

/-! ### STOREs -/

/-- Change every STORE that a test picks. -/
def Dev.mapStores (d : Dev) (p : Stg → Bool) (f : Stg → Stg) : Dev :=
  { d with thr := { d.thr with stores := d.thr.stores.map (fun g => if p g then f g else g) } }

/-- The STORE of a command that has begun and not committed. -/
def Dev.stg (d : Dev) (id : Nat) : Option Stg :=
  d.thr.stores.find? (fun g => decide (g.cmd = id) && decide (g.phase ≠ .staged))

/-- The staged STOREs of a slot, oldest first (R279). -/
def Dev.staged (d : Dev) (slot : Nat) : List Stg :=
  d.thr.stores.filter (fun g => decide (g.slot = slot) && decide (g.phase = .staged))

/-- A unit's record. -/
def Dev.tunit (d : Dev) (u : Nat) : TUnit := Sparse.get {} d.thr.units u

/-- Put a unit's record. -/
def Dev.setUnit (d : Dev) (u : Nat) (x : TUnit) : Dev :=
  { d with thr := { d.thr with units := Sparse.set {} d.thr.units u x } }

/-- The free units. -/
def Dev.freeUnits (d : Dev) : List Nat :=
  (List.range Config.units).filter (fun u => !(d.tunit u).used && !(d.tunit u).retired)

/-- Insert by writes so far, ties to the lower number. -/
def byWrites (d : Dev) (u : Nat) : List Nat → List Nat
  | [] => [u]
  | v :: vs => if (d.tunit u).writes ≤ (d.tunit v).writes then u :: v :: vs else v :: byWrites d u vs

/-- The n free units written least (R289). -/
def Dev.leastWritten (d : Dev) (n : Nat) : List Nat := (d.freeUnits.foldr (fun u l => byWrites d u l) []).take n

/-- Units of a STORE become free. -/
def Dev.freeStoreUnits (d : Dev) (us : List Nat) : Dev :=
  us.foldl (fun d u => d.setUnit u { (d.tunit u) with used := false }) d

/-- A STORE leaves Threshold, and with it the drain of a committed one. -/
def Dev.dropStore (d : Dev) (g : Stg) : Dev :=
  let d := d.freeStoreUnits g.units
  let d := { d with thr := { d.thr with stores := d.thr.stores.filter (fun h => decide (h ≠ g)) } }
  if g.phase ≠ .staged then d
  else (d.dropJob (.drain g.seq)).cutLists (fun w => w == .drain g.seq) 0x0402

/-- A STORE that has not committed is discarded whole and its command ends, with the bytes taken as its progress (R249, R256,
R277). -/
def Dev.discardStore (d : Dev) (id status : Nat) : Dev :=
  match d.stg id with
  | some g => (d.dropStore g).finish id status (result4 g.data.length 0 0 0) 0
  | none => d.finish id status (zeros 16) 0

/-- Two extents that overlap (R278). -/
def overlap (s1 n1 l1 c1 s2 n2 l2 c2 : Nat) : Bool :=
  decide (s1 = s2 ∧ n1 = n2 ∧ l1 < l2 + c2 ∧ l2 < l1 + c1)

/-- An entry's SLOT, NSID, LBA and LBA_COUNT (R251). -/
def extentOf (b : Bytes) : Nat × Nat × Nat × Nat := (fieldAt b 16 1, fieldAt b 20 4, fieldAt b 24 8, fieldAt b 36 4)

/-- Whether an extent meets the extent of a staged or pulling STORE. -/
def Stg.meets (g : Stg) (e : Nat × Nat × Nat × Nat) : Bool :=
  overlap g.slot g.nsid g.lba g.lbas e.1 e.2.1 e.2.2.1 e.2.2.2

/-- Whether a STORE dispatched before number n, not committed, overlaps an extent (R278, R282). -/
def Dev.earlierStore (d : Dev) (n : Nat) (e : Nat × Nat × Nat × Nat) : Bool :=
  d.jamb.cmds.any (fun c =>
    let x := extentOf c.entry
    decide (c.opcode = opStore) && decide (c.phase = .dispatched) && decide (c.disp < n)
    && overlap x.1 x.2.1 x.2.2.1 x.2.2.2 e.1 e.2.1 e.2.2.1 e.2.2.2)

/-- The largest form of a STORE's blocks, W of R276. -/
def blockRoom (size trailer : Nat) (length : Nat) : Nat :=
  let full := length / size
  full * roundUp (32 + size + trailer) 4096
  + (if length % size = 0 then 0 else roundUp (32 + length % size + trailer) 4096)

/-- The form an entry asks for (R251, R275). -/
def storeForm (b : Bytes) : StoreForm :=
  { compress := bitAt (fieldAt b 17 1) 0, trailer := bitAt (fieldAt b 17 1) 1, effort := fieldAt b 18 1
    blockLog := fieldAt b 19 1, column := fieldAt b 56 8 }

/-- Bytes an extent must have for its STORE (R276). -/
def storeNeeds (b : Bytes) : Nat :=
  let f := storeForm b
  if f.compress then blockRoom (blockSize f.blockLog) (if f.trailer then 48 else 0) (fieldAt b 32 4)
  else fieldAt b 32 4

/-- First byte of the staging area: it ends where the pipeline region begins (R64, R274). -/
def Dev.stagingBase (d : Dev) : Nat := d.nearEnd - d.mem.region - Config.units * Config.unitBytes

/-- A STORE begins: its units are taken and its data asked for (R277). -/
def Dev.storeBegin (d : Dev) (c : Cmd) (lbaSize : Nat) (es : List Elem) : Dev :=
  let b := c.entry
  let length := fieldAt b 32 4
  let n := ceilDiv length Config.unitBytes
  let us := d.leastWritten n
  if us.length < n ∨ d.thr.pfSafe = true then d
  else
    let d := us.foldl (fun d u => d.setUnit u { (d.tunit u) with used := true }) d
    let g : Stg := { cmd := c.id, disp := c.disp, slot := fieldAt b 16 1, nsid := fieldAt b 20 4, lba := fieldAt b 24 8
                     lbas := fieldAt b 36 4, lbaSize := lbaSize, length := length, form := storeForm b
                     phase := .pulling, units := us }
    let d := { d with thr := { d.thr with stores := d.thr.stores ++ [g] } }
    let src (e : Elem) : ESrc := if e.eng then .eng e.addr else .host e.addr
    d.issueList poolHost (.store c.id) c.tag (es.flatMap (fun e => piecesOf (src e) (.store c.id) e.len))

/-- STORE: the checks of R276, R287 and R288, then the wait for units and the pull of its data (R277). -/
def Dev.storeRun (d : Dev) (id : Nat) : Dev :=
  match d.running id opStore with
  | none => d
  | some c =>
    let b := c.entry
    let x := d.drive (fieldAt b 16 1)
    if (d.stg id).isSome then d
    else if x.empty then d.finish id 0x0601 (zeros 16) 0
    else if x.ready = false ∧ x.resetting = false then d
    else
      match x.space (fieldAt b 20 4) with
      | none => d.finish id 0x0602 (zeros 16) 0
      | some ns =>
        if fieldAt b 36 4 * ns.lbaSize < storeNeeds b then d.finish id 0x0202 (zeros 16) 0
        else
          match d.dataList b (fieldAt b 40 8) (fieldAt b 48 2) 0 (bitAt (fieldAt b 17 1) 7) with
          | .error e => d.finish id e (zeros 16) 0
          | .ok es =>
            let st := lengthStatus (elemTotal es) (fieldAt b 32 4)
            if st ≠ 0 then d.finish id st (zeros 16) 0 else d.storeBegin c ns.lbaSize es

/-- Write a STORE's bytes from offset o on into the staging area, unit by unit (R274); the first number bounds the
units. -/
def Dev.stageBytes (d : Dev) (us : List Nat) : Nat → Nat → Bytes → Dev
  | 0, _, _ => d
  | n + 1, o, b =>
    if b = [] then d
    else
      let room := Config.unitBytes - o % Config.unitBytes
      let u := us.getD (o / Config.unitBytes) 0
      let a := d.stagingBase + u * Config.unitBytes + o % Config.unitBytes
      (d.engWrite a (b.take room)).stageBytes us n (o + room) (b.drop room)

/-- Data of a STORE arrives in its units (R274, R277). -/
def Dev.storeBytes (d : Dev) (id : Nat) (b : Bytes) : Dev :=
  match d.stg id with
  | none => d
  | some g =>
    let d := d.stageBytes g.units (g.units.length + 1) g.data.length b
    d.mapStores (fun h => h = g) (fun h => { h with data := h.data ++ b })

/-- Every unit of a STORE has been written (R277 step 3); each unit counts one write (R289). -/
def Dev.storeLanded (d : Dev) (id : Nat) : Dev :=
  match d.stg id with
  | none => d
  | some g =>
    let d := g.units.foldl (fun d u => d.setUnit u { (d.tunit u) with writes := (d.tunit u).writes + 1 }) d
    d.mapStores (fun h => h = g) (fun h => { h with phase := .landed })

/-- STORE_COMMIT: the commit record lands, after every earlier overlapping STORE has committed or been discarded; the
command completes (R277, R278, R283). -/
def Dev.storeCommit (d : Dev) (id : Nat) : Dev :=
  match d.stg id, d.running id opStore with
  | some g, some c =>
    if g.phase ≠ .landed ∨ d.thr.pfSafe = true
        ∨ d.earlierStore c.disp (g.slot, g.nsid, g.lba, g.lbas) = true then d
    else
      let x := d.drive g.slot
      let n := d.thr.nextSeq
      let d := d.mapStores (fun h => h = g)
        (fun h => { h with phase := .staged, seq := n, serial := x.serial, nguid := x.nguid })
      let d := { d with thr := { d.thr with nextSeq := n + 1 } }
      (d.ocount O.STORE_BYTES g.length).finish id 0 (result4 g.length 0 0 1) 0
  | _, _ => d

/-! ### Drain and release (R279, R280, R288) -/

/-- The drive image of a plain STORE of some bytes: its last LBA filled with zeros (R275). -/
def Stg.imageOf (g : Stg) (b : Bytes) : Bytes := fit (roundUp g.length g.lbaSize) b

/-- The drive image of a plain STORE, from its Threshold copy. -/
def Stg.plainImage (g : Stg) : Bytes := g.imageOf g.data

/-- The engine address of byte i of a STORE in the staging area (R274). -/
def Dev.stagedAt (d : Dev) (g : Stg) (i : Nat) : Nat :=
  d.stagingBase + g.units.getD (i / Config.unitBytes) 0 * Config.unitBytes + i % Config.unitBytes

/-- A STORE's bytes as the staging area holds them; none where some are poisoned (R274). -/
def Dev.stagedCopy (d : Dev) (g : Stg) : Option Bytes :=
  let as := (List.range g.length).map (d.stagedAt g)
  if as.any d.poisonedAt then none else some (as.map d.engByte)

/-- The drive image of a block STORE: its blocks, and 4,096 zero bytes where the extent has room for them (R275). -/
def Stg.blockImage (g : Stg) (j : Job) : Bytes :=
  let b := (j.leading j.blocks.length).flatMap (fun r => padBlock r.2)
  if b.length + 4096 ≤ g.lbas * g.lbaSize then b ++ zeros 4096 else b

/-- The next STORE a slot drains, in commit order. -/
def oldest : List Stg → Option Stg
  | [] => none
  | g :: gs => match oldest gs with
    | some h => if g.seq < h.seq then some g else some h
    | none => some g

/-- Whether a FETCH dispatched before a STORE has still to read from its extent (R282). -/
def Dev.fetchPending (d : Dev) (g : Stg) : Bool :=
  d.jamb.cmds.any (fun c =>
    decide (c.opcode = opFetch) && decide (c.phase = .dispatched) && decide (c.disp < g.disp)
    && decide (c.result = []) && !c.pulled && g.meets (extentOf c.entry))

/-- The drain queue of a slot: its staged STOREs that are not written, those of another drive left out (R279, R288). -/
def Dev.drainQueue (d : Dev) (slot : Nat) : List Stg :=
  let x := d.drive slot
  (d.staged slot).filter (fun g => !g.written && decide (g.serial = x.serial) && decide (g.nguid = x.nguid))

/-- Flush the drive's volatile write cache, once for each namespace written, when its drain queue is empty or can go no
further, or 64 MiB have been written (R279). -/
def Dev.drainFlush (d : Dev) (slot : Nat) : Dev :=
  let x := d.drive slot
  let more := (oldest (d.drainQueue slot)).any (fun g => g.held.isNone)
  let unsafe_ := (d.staged slot).filter (fun g => g.written && !g.flushed)
  if x.vwc = true ∧ x.answers = true ∧ unsafe_ ≠ [] ∧ (more = false ∨ 2 ^ 26 ≤ x.sinceFlush) then
    let d := (unsafe_.map Stg.nsid).dedup.foldl (fun d n => d.emit (.nvmeFlush slot n))
      (d.setDrive slot { x with sinceFlush := 0 })
    d.mapStores (fun g => decide (g.slot = slot) && g.written) (fun g => { g with flushed := true })
  else d

/-- A slot's staged STOREs that have not been written are held with a status (R288). -/
def Dev.holdSlot (d : Dev) (slot st : Nat) : Dev :=
  let d := (d.drainQueue slot).foldl (fun d g => d.cutLists (fun w => w == .drain g.seq) 0x0402) d
  (d.mapStores (fun g => decide (g.slot = slot) && decide (g.phase = .staged) && !g.written)
    (fun g => { g with held := some st, image := [], sent := false })).drainFlush slot

/-- A drain write failed: it is retried once, then the slot's STOREs are held and source 462 raised (R288). -/
def Dev.drainFailed (d : Dev) (slot : Nat) (st : Nat) (g : Stg) : Dev :=
  let d := d.nvmeStatus slot st
  let x := d.drive slot
  if x.retried then
    let d := (d.setDrive slot { x with retried := false }).holdSlot slot 0x0602
    d.faultRaise 462 ((g.lba * g.lbaSize) % 2 ^ 64 + slot * 2 ^ 64) false
  else
    ((d.setDrive slot { x with retried := true }).cutLists (fun w => w == .drain g.seq) 0x0402).mapStores (fun h => h = g)
      (fun h => { h with image := [], sent := false })

/-- The drain of a STORE issues its NVMe write, whose data Hinge brings through the drive pool (R31, R279, R336). -/
def Dev.drainIssue (d : Dev) (g : Stg) (image : Bytes) (blocks : Nat) : Dev :=
  let d := d.emit (.nvmeWrite g.slot g.nsid g.lba (image.length / g.lbaSize))
  let d := d.mapStores (fun h => h = g) (fun h => { h with image := image, blocks := blocks })
  d.issueList poolDrive (.drain g.seq) g.slot (piecesOf (.imm image) .buffer image.length)

/-- A drain write succeeds: the image that has come to the drive port is on the drive. -/
def Dev.drainWrite (d : Dev) (g : Stg) : Dev :=
  let x := d.drive g.slot
  let x := x.write g.nsid (g.lba * g.lbaSize) g.image
  let d := d.setDrive g.slot { x with retried := false, sinceFlush := x.sinceFlush + g.image.length }
  let d := d.ocount O.DRAIN_BYTES g.image.length
  let d := d.mapStores (fun h => h = g) (fun h => { h with written := true, image := [], sent := false })
  let d := { d with thr := { d.thr with syncs := d.thr.syncs.map (fun (s : Sync) =>
    if s.covered.contains g.seq then { s with counted := s.counted + g.blocks } else s) } }
  (d.dropJob (.drain g.seq)).drainFlush g.slot

/-- The drive has an answer to a STORE's drain write: it is issued, or refused at once; or what was issued ends. -/
def Dev.drainAnswer (d : Dev) (g : Stg) (image : Bytes) (blocks : Nat) (outcome : Option Nat) : Dev :=
  let n := image.length / g.lbaSize
  match d.driveAnswer g.slot g.nsid g.lba n outcome with
  | (some st, d) => (if g.sent then d else d.emit (.nvmeWrite g.slot g.nsid g.lba n)).drainFailed g.slot st g
  | (none, d) => if g.sent then d.drainWrite g else d.drainIssue g image blocks

/-- STORE_DRAIN_WRITE: a slot drains its next STORE; `outcome` is the NVMe status of an unsuccessful write. The engine reads the
staging area, a block STORE first has its blocks built from it, and Hinge brings the image to the drive port, after which
the drive's success puts it on the drive (R31, R274, R279, R282, R288, R420). A poisoned STORE is held; nothing new is
written while parking (R444). -/
def Dev.storeDrain (d : Dev) (slot : Nat) (outcome : Option Nat) : Dev :=
  match oldest (d.drainQueue slot) with
  | none => d
  | some g =>
    if d.halted = true ∨ (d.drive slot).answers = false ∨ g.held.isSome = true ∨ d.fetchPending g = true then d
    else if g.sent then d.drainAnswer g g.image g.blocks outcome
    else if d.life.parking = true ∨ d.hinge.chans.any (fun p => p.2.lists.any (fun l => l.owner == .drain g.seq)) = true then d
    else if g.poisoned then d.holdSlot slot 0x0602
    else
      match d.job (.drain g.seq) with
      | some j => if d.jobOver j = false then d else d.drainAnswer g (g.blockImage j) j.blocks.length outcome
      | none =>
        match d.stagedCopy g with
        | none => (d.countPoison 0x0703).holdSlot slot 0x0602
        | some b =>
          if g.form.compress then
            d.startJob { owner := .drain g.seq, build := true, form := g.form
                         blocks := cutInput (blockSize g.form.blockLog) (g.length / blockSize g.form.blockLog + 1) b }
          else d.drainAnswer g (g.imageOf b) 1 outcome

/-- STORE_RELEASE: the units of a slot's STOREs whose writes, and the Flush that covers them, have completed (R279). -/
def Dev.storeRelease (d : Dev) (slot : Nat) : Dev :=
  (((d.staged slot).filter (fun g => g.written && (g.flushed || !(d.drive slot).vwc))).foldl
    (fun d g => d.dropStore g) d).drainFlush slot

/-- What STORE_SYNC covers is fixed at its dispatch (R280). -/
def Dev.syncDispatch (d : Dev) (c : Cmd) : Dev :=
  let slot := fieldAt c.entry 16 1
  let cover := (d.thr.stores.filter (fun g =>
    decide (g.phase = .staged) && (decide (g.slot = slot) || decide (slot = 0xFF)))).map Stg.seq
  { d with thr := { d.thr with syncs := d.thr.syncs ++ [{ cmd := c.id, covered := cover }] } }

/-- The record of a STORE_SYNC goes. -/
def Dev.dropSync (d : Dev) (id : Nat) : Dev :=
  { d with thr := { d.thr with syncs := d.thr.syncs.filter (fun s => decide (s.cmd ≠ id)) } }

/-- STORE_SYNC: complete once every covered STORE is released, or with the status of a held one (R280). -/
def Dev.storeSync (d : Dev) (id : Nat) : Dev :=
  match d.running id opStoreSync, d.thr.syncs.find? (fun s => s.cmd = id) with
  | some _, some s =>
    let left := d.thr.stores.filter (fun g => decide (g.phase = .staged) && s.covered.contains g.seq)
    match left.findSome? Stg.held with
    | some st => (d.dropSync id).finish id st (result4 s.counted 0 0 0) 0
    | none => if left = [] then (d.dropSync id).finish id 0 (result4 s.counted 0 0 0) 0 else d
  | _, _ => d

/-- THR_DISCARD: the held STOREs of a slot are released; hardware clears GO (R288, R290). -/
def Dev.thrDiscard (d : Dev) (slot : Nat) : Dev :=
  let d := (((d.staged slot).filter (fun g => g.held.isSome)).foldl (fun d g => d.dropStore g) d).drainFlush slot
  d.fputB F.THR_DISCARD_GO false

/-! ### FETCH (R281, R282) -/

/-- The staged STOREs a FETCH sees that overlap its range. -/
def Dev.visible (d : Dev) (c : Cmd) : List Stg :=
  d.thr.stores.filter (fun g => decide (g.phase = .staged) && decide (g.disp < c.disp) && g.meets (extentOf c.entry))

/-- The newest of the STOREs that cover an LBA with bytes of their drive image. -/
def newestAt (gs : List Stg) (lba : Nat) : Option Stg :=
  gs.foldl (fun o g =>
    if g.lba ≤ lba ∧ lba < g.lba + ceilDiv g.length g.lbaSize then
      match o with
      | some h => if h.seq < g.seq then some g else o
      | none => some g
    else o) none

/-- The LBAs of an extent. -/
def lbasOf (e : Nat × Nat × Nat × Nat) : List Nat := (List.range e.2.2.2).map (fun i => e.2.2.1 + i)

/-- Whether an LBA of a range must be read from the drive. -/
def needsDrive (gs : List Stg) (e : Nat × Nat × Nat × Nat) : Bool := (lbasOf e).any (fun l => (newestAt gs l).isNone)

/-- The bytes of a range, LBA by LBA, from the newest staged plain STORE or from the drive. -/
def rangeBytes (x : Drive) (gs : List Stg) (size : Nat) (e : Nat × Nat × Nat × Nat) : Bytes :=
  (lbasOf e).flatMap (fun l =>
    match newestAt gs l with
    | some g => sliceAt g.plainImage ((l - g.lba) * size) size
    | none => x.read e.2.1 (l * size) size)

/-- The FETCH result of R256: bytes delivered, LBAs read, and where the LBAs came from. -/
def fetchResult (bytes lbas from_ : Nat) : Bytes := result4 bytes lbas from_ 0

/-- A FETCH's bytes go to its destination list through Hinge; its status waits in the command until the list ends
(R281, R249). A FETCH that delivers nothing completes at once. -/
def Dev.fetchDeliver (d : Dev) (c : Cmd) (es : List Elem) (st lbas from_ : Nat) (b : Bytes) : Dev :=
  let out := b.take (elemTotal es)
  let st := if st = 0 ∧ out.length < b.length then 0x0202 else st
  let dst (e : Elem) : EDst := if e.eng then .eng e.addr else .host e.addr
  let d := (d.ocount O.FETCH_BYTES out.length).ocount O.FETCH_THRESHOLD_HITS (if from_ = 0 then 0 else 1)
  if out = [] then d.finish c.id st (fetchResult 0 lbas from_) 0
  else
    let work := (es.foldl (fun (acc : Bytes × List EDesc) e =>
      let n := min e.len acc.1.length
      (acc.1.drop n, acc.2 ++ piecesOf (.imm (acc.1.take n)) (dst e) n)) (out, [])).2
    let d := d.mapCmd c.id (fun x => { x with status := st, result := fetchResult 0 lbas from_ })
    d.issueList poolHost (.fetch c.id) c.tag work

/-- The blocks of a FETCH that LENGTH bytes need (R281). -/
def neededBlocks : Nat → List Bytes → List Bytes
  | _, [] => []
  | n, b :: bs => if n = 0 then [] else b :: neededBlocks (n - (headOf b).ulen) bs

/-- A decompressing FETCH whose blocks have all ended: what they yield, up to LENGTH, or the status of the first that
failed, with the blocks before it delivered. -/
def Dev.fetchDecoded (d : Dev) (c : Cmd) (es : List Elem) (lbas from_ : Nat) (j : Job) : Dev :=
  let good := wellEnded (j.leading j.blocks.length)
  let all := good.1.flatMap Prod.snd
  let n := fieldAt c.entry 32 4
  let st := if good.2 ≠ 0 then good.2 else if j.stop then c.abort.getD 0x0401 else if all.length < n then 0x0201 else 0
  (d.dropJob j.owner).fetchDeliver c es st lbas from_ (all.take n)

/-- The bytes of a FETCH have been read: decode them, or deliver them. -/
def Dev.fetchRead (d : Dev) (c : Cmd) (es : List Elem) (lbas from_ : Nat) (b : Bytes) : Dev :=
  let n := fieldAt c.entry 32 4
  if bitAt (fieldAt c.entry 17 1) 0 then
    let d := d.mapCmd c.id (fun x => { x with result := fetchResult 0 lbas from_ })
    let d := d.startJob { owner := .cmd c.id, build := false, noCheck := bitAt (fieldAt c.entry 17 1) 1
                          blocks := neededBlocks n (blocksOf b) }
    match d.job (.cmd c.id) with
    | some j => if d.jobOver j then d.fetchDecoded c es lbas from_ j else d
    | none => d
  else d.fetchDeliver c es (if b.length < n then 0x0201 else 0) lbas from_ (b.take n)

/-- Threshold's lines from a byte offset are poisoned: the STORE that holds them is (R420). -/
def Dev.poisonThr (d : Dev) (off : Nat) : Dev :=
  d.mapStores (fun g => g.units.contains (off / 262144)) (fun g => { g with poisoned := true })

/-- A read of a STORE's Threshold copy meets the BCH check of its first line, whose bits an armed injection inverts (R432), with an
open syndrome (assumption log 10); the second part says whether what was read is poisoned. -/
def Dev.thrCheck (d : Dev) (g : Stg) : Dev × Bool :=
  let at0 := g.units.headD 0 * 262144
  if d.fiFires 456 || d.fiFires 457 then
    let bad := d.fget F.FI_CTL_BITS != 1
    let syn := at0 % 2 ^ 48 + d.draw.1 % 256 * 2 ^ 56
    if bad then
      let hurt := decide (2 ≤ d.faultAction 457)
      let d := (d.draw.2.faultRaise 457 syn true).fiConsume
      (if hurt then d.poisonThr at0 else d, g.poisoned || hurt)
    else ((d.draw.2.faultRaise 456 syn true).fiConsume, g.poisoned)
  else (d, g.poisoned)

/-- A FETCH's drive read: the LBAs that no staged STORE gives come through the drive pool (R30, R336); what the range holds, and
where it came from, wait in the command. -/
def Dev.fetchPull (d : Dev) (c : Cmd) (gs : List Stg) (size : Nat) (range : Bytes) (from_ : Nat) : Dev :=
  let e := extentOf c.entry
  let b := ((lbasOf e).filter (fun l => (newestAt gs l).isNone)).flatMap
    (fun l => (d.drive e.1).read e.2.1 (l * size) size)
  (d.mapCmd c.id (fun x => { x with buf := range, origin := from_ })).issueList poolDrive (.pull c.id) c.tag
    (piecesOf (.imm b) .buffer b.length)

/-- A FETCH's reads, once nothing holds it back. -/
def Dev.fetchSource (d : Dev) (c : Cmd) (es : List Elem) (outcome : Option Nat) : Dev :=
  let e := extentOf c.entry
  let x := d.drive e.1
  let gs := d.visible c
  let newest := gs.foldl (fun m g => max m g.seq) 0
  let dec := bitAt (fieldAt c.entry 17 1) 0
  let exact := gs.find? (fun g => g.form.compress && dec && decide (g.seq = newest) && decide (g.lba = e.2.2.1)
    && decide (e.2.2.1 + e.2.2.2 ≤ g.lba + g.lbas))
  match exact with
  | some g =>
    let v := d.thrCheck g
    let d := v.1
    if v.2 then d.finish c.id 0x0703 (fetchResult 0 0 0) 0
    else
      let n := fieldAt c.entry 32 4
      d.fetchDeliver c es (if g.data.length < n then 0x0201 else 0) e.2.2.2 1 (g.data.take n)
  | none =>
    if gs.any (fun g => g.form.compress) then d
    else
      let need := needsDrive gs e
      let from_ := if need = false then 1 else if gs.any (fun g => (lbasOf e).any (fun l => newestAt gs l == some g))
        then 2 else 0
      let size := match gs.head? with
        | some g => g.lbaSize
        | none => ((x.space e.2.1).map NSpace.lbaSize).getD 512
      if need = true ∧ x.empty = true then d.finish c.id 0x0601 (fetchResult 0 0 0) 0
      else if need = true ∧ x.answers = false then d
      else if need = true ∧ (x.space e.2.1).isNone = true then d.finish c.id 0x0602 (fetchResult 0 0 0) 0
      else
        let d := if need then d.emit (.nvmeRead e.1 e.2.1 e.2.2.1 e.2.2.2) else d
        match (if need then d.driveAnswer e.1 e.2.1 e.2.2.1 e.2.2.2 outcome else (none, d)) with
        | (some st, d) => (d.nvmeStatus e.1 st).finish c.id 0x0602 (fetchResult 0 0 0) 0
        | (none, d) =>
          let hits := gs.filter (fun g => (lbasOf e).any (fun l => newestAt gs l == some g))
          let v := match hits.head? with
            | some g => d.thrCheck g
            | none => (d, false)
          let d := v.1
          if v.2 || hits.any Stg.poisoned then
            d.finish c.id 0x0703 (fetchResult 0 0 0) 0
          else if need then d.fetchPull c gs size (rangeBytes x gs size e) from_
          else d.fetchRead c es e.2.2.2 from_ (rangeBytes x gs size e)

/-- A FETCH whose drive read has come is delivered or decoded, unless the drive reports that it failed. -/
def Dev.fetchPulled (d : Dev) (c : Cmd) (es : List Elem) (outcome : Option Nat) : Dev :=
  let e := extentOf c.entry
  match outcome with
  | some st => (d.nvmeStatus e.1 st).finish c.id 0x0602 (fetchResult 0 0 0) 0
  | none =>
    let d := d.mapCmd c.id (fun x => { x with pulled := false, buf := [] })
    d.fetchRead { c with pulled := false, buf := [] } es e.2.2.2 c.origin c.buf

/-- FETCH: wait as R282 says, read, decode where asked, and deliver. `outcome` is the NVMe status of an unsuccessful
drive read. A FETCH whose reads are done waits for its blocks or its Hinge lists. -/
def Dev.fetchRun (d : Dev) (id : Nat) (outcome : Option Nat) : Dev :=
  match d.running id opFetch with
  | none => d
  | some c =>
    let b := c.entry
    let listed := d.hinge.chans.any (fun p => p.2.lists.any (fun l => l.owner == .fetch id || l.owner == .pull id))
    if listed then d
    else
      match d.dataList b (fieldAt b 40 8) (fieldAt b 48 2) 0 (bitAt (fieldAt b 17 1) 7) with
      | .error e => (d.dropJob (.cmd id)).finish id e (zeros 16) 0
      | .ok es =>
        match d.job (.cmd id) with
        | some j => if d.jobOver j then d.fetchDecoded c es (fieldAt c.result 4 4) (fieldAt c.result 8 4) j else d
        | none =>
          if c.pulled then d.fetchPulled c es outcome
          else if d.earlierStore c.disp (extentOf b) then d
          else d.fetchSource c es outcome

/-! ### Drive events (R287, R288) -/

/-- A change at a slot: its event bit, and the hot-plug vector (R288, R290). -/
def Dev.slotEvent (d : Dev) (s : Nat) : Dev :=
  let d := if s < 32 then d.for_ F.DP_EVENT_LO_SLOTS (2 ^ s) else d.for_ F.DP_EVENT_HI_SLOTS (2 ^ (s - 32))
  (d.ocount O.HOTPLUG_EVENTS 1).raiseVector (d.oget O.HOTPLUG_VECTOR)

/-- Whether the bifurcation in force creates a slot (R286). `groups` holds the groups' values as taken at reset. -/
def slotExists (groups : List Nat) (s : Nat) : Bool := (groupSlots (groups.getD (s / 4) 0) (s / 4)).contains s

/-- The drive of a position as the bifurcation in force lets the engine see it: in a slot that exists, trained at as many
lanes as both have. -/
def Drive.attach (groups : List Nat) (s : Nat) (x : Drive) : Drive :=
  let there := x.fitted && slotExists groups s
  { x with present := there, ready := there, width := if there then min x.lanes (groupLanes (groups.getD (s / 4) 0)) else 0 }

/-- Commands of a slot end as for a removed drive (R288): a STORE that has not committed is discarded; a FETCH that
still needs the drive completes DRIVE_GONE. -/
def Dev.endSlotCommands (d : Dev) (s : Nat) : Dev :=
  d.jamb.cmds.foldl (fun d c =>
    if c.phase ≠ .dispatched ∨ (extentOf c.entry).1 ≠ s then d
    else if c.opcode = opStore then d.discardStore c.id 0x0601
    else if c.opcode = opFetch ∧ c.result = [] ∧ c.pulled = false ∧ needsDrive (d.visible c) (extentOf c.entry) = true then
      (d.finish c.id 0x0601 (fetchResult 0 0 0) 0).cutLists (fun w => w == .pull c.id) 0x0601
    else d) d

/-- The drive of a slot is gone: its commands end and its staged STOREs are held (R288). -/
def Dev.driveGone (d : Dev) (s : Nat) : Dev :=
  let d := d.endSlotCommands s
  let d := (d.staged s).foldl (fun d g => d.cutLists (fun w => w == .drain g.seq) 0x0601) d
  d.mapStores (fun g => decide (g.slot = s) && decide (g.phase = .staged) && !(g.written && (g.flushed || !(d.drive s).vwc)))
    (fun g => { g with held := some 0x0601, written := false, image := [], sent := false })

/-- A drive is enumerated: held STOREs of its serial number and NGUID drain again, those of another stay held (R285,
R288). -/
def Dev.driveBack (d : Dev) (s : Nat) : Dev :=
  let x := d.drive s
  d.mapStores (fun g => decide (g.slot = s) && decide (g.phase = .staged))
    (fun g => { g with held := if g.serial = x.serial ∧ g.nguid = x.nguid then none else some 0x0601 })

/-! ### Wear (R289, R290) -/

/-- Units retired. -/
def Dev.retiredUnits (d : Dev) : Nat := ((List.range Config.units).filter (fun u => (d.tunit u).retired)).length

/-- WEAR_PCT: mean unit writes as a percentage of 10^9, at most 0xFF. -/
def Dev.wearPct (d : Dev) : Nat :=
  min 0xFF ((d.thr.units.map (fun p => p.2.writes)).sum * 100 / Config.units / 1000000000)

/-- A unit whose corrections exceed 4 bits in a line is retired; at 512 the wear source is raised (R289). -/
def Dev.retireUnit (d : Dev) (u : Nat) : Dev :=
  if (d.tunit u).retired ∨ Config.units ≤ u then d
  else
    let d := d.setUnit u { (d.tunit u) with retired := true }
    if d.retiredUnits = 512 then d.faultRaise 458 (u * Config.unitBytes) false else d

end Sys2Proof.Machine
end

