-- ==== Sys2Proof/Machine/Scan.lean ====
section
/-!
DEFINITION. SCAN: columns in memory (R66 to R68), columns in Bifold blocks (R69 to R72), and the forming of strips.
-/

namespace Sys2Proof.Machine

/-! ### Columns in memory (R67) -/

/-- A number of n bytes that Casement c reads at an address. -/
def Dev.viewNum (d : Dev) (c a n : Nat) : Nat := leNat (d.viewBytes c a n)

/-- Element i of an array of a type as Casement c reads it; BOOL is bit-packed. -/
def Dev.arrayNum (d : Dev) (c t a i : Nat) : Nat :=
  if t = 0x0F then d.viewNum c (a + i / 8) 1 / 2 ^ (i % 8) % 2
  else d.viewNum c (a + typeBits t / 8 * i) (typeBits t / 8)

/-- Element i of a column, a validity address of zero meaning no nulls. `none`: VARBIN offsets that R67 refuses. -/
def Dev.memValue (d : Dev) (c t validity values data i : Nat) : Option Datum :=
  let valid := validity == 0 || bitAt (d.viewNum c (validity + i / 8) 1) (i % 8)
  if isVar t then
    let o := d.viewNum c (values + 4 * i) 4
    let e := d.viewNum c (values + 4 * i + 4) 4
    if e < o ∨ 65535 < e - o then none
    else some (if valid then some (.str (d.viewBytes c (data + o) (e - o))) else none)
  else some (if valid then some (.num (d.arrayNum c t values i)) else none)

/-- Values of a dictionary in memory (R67). -/
def Dev.memDict (d : Dev) (c t a n : Nat) : List Datum :=
  (List.range n).map (fun i =>
    if isVar t then
      let o := d.viewNum c (a + 4 * i) 4
      let e := d.viewNum c (a + 4 * i + 4) 4
      some (.str (d.viewBytes c (a + roundUp (4 * (n + 1)) 64 + o) (e - o)))
    else some (.num (d.arrayNum c t a i)))

/-- Bytes of such a dictionary that a read of it covers. -/
def Dev.dictParts (d : Dev) (c t a n : Nat) : List (Nat × Nat) :=
  if isVar t then [(a, 4 * (n + 1)), (a + roundUp (4 * (n + 1)) 64, d.viewNum c (a + 4 * n) 4)]
  else if t = 0x0F then [(a, (n + 7) / 8)]
  else [(a, n * (typeBits t / 8))]

/-- Row i of a memory source. -/
def Dev.memRow (d : Dev) (k i : Nat) : List (ColTy × DirCol) → Option Row
  | [] => some []
  | (c, x) :: rest =>
    match d.memValue k c.ty x.validity x.values x.data i, d.memRow k i rest with
    | some v, some r => some (v :: r)
    | _, _ => none

/-- Rows i to i + n - 1, up to the first that R67 refuses. -/
def Dev.memRows (d : Dev) (k : Nat) (cols : List (ColTy × DirCol)) : Nat → Nat → List Row
  | 0, _ => []
  | n + 1, i =>
    match d.memRow k i cols with
    | some r => r :: d.memRows k cols n (i + 1)
    | none => []

/-- The slices of a column's buffers that rows i to i + n - 1 take, as Casement k reads them: address, bytes, and where the
buffer ends for a source that is read to row `stop`. -/
def Dev.memSlices (d : Dev) (k : Nat) (c : ColTy) (x : DirCol) (i n stop : Nat) : List (Nat × Nat × Nat) :=
  let bits (a : Nat) : Nat × Nat × Nat := (a + i / 8, (i + n - 1) / 8 - i / 8 + 1, a + (stop + 7) / 8)
  let w := typeBits c.ty / 8
  (if x.validity = 0 then [] else [bits x.validity])
  ++ (if isVar c.ty then
        let o := d.viewNum k (x.values + 4 * i) 4
        [(x.values + 4 * i, 4 * (n + 1), x.values + 4 * (stop + 1)),
         (x.data + o, d.viewNum k (x.values + 4 * (i + n)) 4 - o, x.data + d.viewNum k (x.values + 4 * stop) 4)]
      else if c.ty = 0x0F then [bits x.values]
      else [(x.values + w * i, w * n, x.values + w * stop)])

/-- Whether a column's slices of rows i to i + n - 1, or its dictionary, meet poison. -/
def Dev.memPoison (d : Dev) (k : Nat) (c : ColTy) (x : DirCol) (i n : Nat) : Bool :=
  (d.memSlices k c x i n (i + n)).any (fun p => d.viewPoison k p.1 p.2.1)
  || (isDict c.ty && (d.dictParts k c.dict x.data x.dictLen).any (fun p => d.viewPoison k p.1 p.2))

/-! ### Encoded bodies (R72) -/

/-- Value number i of w-bit values packed across bytes, least significant bit first. -/
def packedAt (b : Bytes) (w i : Nat) : Nat :=
  let lo := w * i
  leNat ((b.drop (lo / 8)).take ((lo % 8 + w + 7) / 8)) / 2 ^ (lo % 8) % 2 ^ w

/-- Values of a PLAIN array: fixed width, BOOL or VARBIN, the offsets of which may neither fall nor step by more than 65,535
(assumption log 161); `gap` is the boundary VARBIN data starts on, and `exact` asks
for the body's length to agree. -/
def plainValues (t rows gap : Nat) (exact : Bool) (b : Bytes) : Option (List Val) :=
  if isVar t then
    let at0 := roundUp (4 * (rows + 1)) gap
    let off (i : Nat) := fieldAt b (4 * i) 4
    let ok := (List.range rows).all (fun i => decide (off i ≤ off (i + 1) ∧ off (i + 1) - off i ≤ 65535))
    if ok = true ∧ at0 ≤ b.length ∧ at0 + off rows ≤ b.length ∧ (exact = true → b.length = at0 + off rows) then
      some ((List.range rows).map (fun i => .str ((b.drop (at0 + off i)).take (off (i + 1) - off i))))
    else none
  else if t = 0x0F then
    let n := (rows + 7) / 8
    if n ≤ b.length ∧ (exact = true → b.length = n) then
      some ((List.range rows).map (fun i => .num (b2n (bitAt (b.getD (i / 8) 0).toNat (i % 8)))))
    else none
  else
    let w := typeBits t / 8
    if w * rows ≤ b.length ∧ (exact = true → b.length = w * rows) then
      some ((List.range rows).map (fun i => .num (fieldAt b (w * i) w)))
    else none

/-- The pairs of an RLE body. The first number bounds them. -/
def rlePairs (w size : Nat) : Nat → Bytes → Option (List (Nat × Nat))
  | 0, _ => some []
  | k + 1, b =>
    if b = [] then some []
    else if b.length < size ∨ fieldAt b 0 4 = 0 then none
    else (rlePairs w size k (b.drop size)).map (fun r => (fieldAt b 0 4, fieldAt b 4 w) :: r)

/-- The values of an encoded body after its validity bitmap; `none` where R72 says BLOCK_HEADER. -/
def encodedValues (enc t rows : Nat) (valid : Nat → Bool) (b : Bytes) : Option (List Val) :=
  match enc with
  | 0 => plainValues t rows 8 true b
  | 1 => plainValues t rows 64 true b
  | 2 => if isDict t then plainValues t rows 8 true b else none
  | 3 =>
    if isVar t then none
    else
      let w := if t = 0x0F then 1 else typeBits t / 8
      let size := roundUp (4 + w) 8
      match rlePairs w size (b.length / size + 1) b with
      | some ps =>
        if (ps.map Prod.fst).sum = rows then
          some (ps.flatMap (fun p => List.replicate p.1 (.num (p.2 % 2 ^ typeBits t))))
        else none
      | none => none
  | 4 =>
    let w := fieldAt b 0 1
    if (decide (5 ≤ t ∧ t ≤ 8) || t == 0x0D) = false ∨ typeBits t < w ∨ b.length < 8 + (w * rows + 7) / 8 then none
    else some ((List.range rows).map (fun i => .num (packedAt (b.drop 8) w i)))
  | 5 =>
    let ref : Int := if isSigned t then intVal 0x04 (fieldAt b 0 8) else fieldAt b 0 8
    let w := fieldAt b 8 1
    let at_ (i : Nat) : Int := ref + packedAt (b.drop 16) w i
    if (isInt t || t == 0x09 || t == 0x0D || t == 0x0E) = false ∨ 64 < w ∨ b.length < 16 + (w * rows + 7) / 8
        ∨ (List.range rows).any (fun i => valid i && !inRange t (at_ i)) = true then none
    else some ((List.range rows).map (fun i => .num (patOf t (at_ i))))
  | _ => none

/-- The rows of a decoded block; `none` for an inconsistent body. -/
def blockData (h : BHead) (out : Bytes) : Option (List Datum) :=
  let n := if h.nullable then roundUp ((h.rows + 7) / 8) 8 else 0
  if out.length < n then none
  else
    let valid (i : Nat) : Bool := !h.nullable || bitAt (out.getD (i / 8) 0).toNat (i % 8)
    (encodedValues h.encoding h.type h.rows valid (out.drop n)).map (fun vs =>
      vs.zipIdx.map (fun p => if valid p.2 then some p.1 else none))

/-! ### KIND 3: asking for blocks (R69, R305) -/

/-- The owner under which column i of a SCAN asks for blocks. -/
def scanOwner (ctx n i : Nat) : BOwner := .scan ctx (n * 32 + i)

/-- The next block of a column's extents: its bytes, the LBAs read, and the column moved past it. A later block starts at the
next 4,096-byte boundary from the extent's first byte (R69, assumption log 160). Extents end at a header whose magic reads zero, or with fewer than 32 bytes left. A namespace that is absent or ends before the block fails the
column with MEDIA_ERROR (R287). The first number bounds the extents. -/
def Dev.nextBlock (d : Dev) : Nat → ScanCol → Option (Extent × Nat × Bytes × ScanCol) × ScanCol
  | 0, c => (none, c)
  | k + 1, c =>
    match c.extents with
    | [] => (none, c)
    | e :: es =>
      let next : ScanCol := { c with extents := es, off := 0 }
      if e.len < c.off + 32 then d.nextBlock k next
      else
        let x := d.drive e.slot
        match x.space e.nsid with
        | none => (none, { c with fail := some 0x0602 })
        | some sp =>
          let at0 := e.lba * sp.lbaSize + c.off
          let head := x.read e.nsid at0 32
          let stored := min (e.len - c.off) (headOf head).stored
          if sp.holds at0 32 = false then (none, { c with fail := some 0x0602 })
          else if fieldAt head 0 4 = 0 then d.nextBlock k next
          else if sp.holds at0 stored = false then (none, { c with fail := some 0x0602 })
          else
            (some (e, c.off / sp.lbaSize, x.read e.nsid at0 stored,
              { c with off := c.off + roundUp stored 4096, asked := c.asked + 1
                       starts := if c.off = 0 then c.starts ++ [c.asked] else c.starts }), c)

/-- A column holds every row that ROW_COUNT leaves it to read (R65). -/
def ScanCol.full (c : ScanCol) : Bool := c.left.any (fun n => decide (n ≤ c.rows.length))

/-- Ask for one more block of a column, when its queue has room and its drive answers: Hinge brings it through the drive pool,
and the request joins the queue of the node's home when it has come (R30, R69, R305). -/
def Dev.askBlock (d : Dev) (ctx n home i : Nat) (noCheck : Bool) (c : ScanCol) : Option (Dev × ScanCol) :=
  let q := d.bcas home
  let slotOk := match c.extents with
    | e :: _ => (d.drive e.slot).answers
    | [] => false
  if 4 ≤ c.asked - c.taken ∨ c.full = true ∨ q.stopped = true ∨ 64 ≤ q.queue.length ∨ slotOk = false ∨ c.fail.isSome = true then none
  else
    match d.nextBlock (c.extents.length + 1) c with
    | (none, c') =>
      if c' = c then none
      else
        match c'.fail, c'.extents.head? with
        | some _, some e =>
          some (if ((d.drive e.slot).space e.nsid).isSome then d.draw.2.nvmeStatus e.slot (d.draw.1 % 2 ^ 15) else d, c')
        | _, _ => some (d, c')
    | (some (e, lbaOff, b, c'), _) =>
      let o := scanOwner ctx n i
      let size := (((d.drive e.slot).space e.nsid).map NSpace.lbaSize).getD 512
      let d := d.emit (.nvmeRead e.slot e.nsid (e.lba + lbaOff) (ceilDiv b.length size))
      let d := if (d.job o).isSome then d.mapJob o (fun j => { j with blocks := j.blocks ++ [b] })
        else { d with bifold := { d.bifold with jobs := d.bifold.jobs ++
          [{ owner := o, build := false, noCheck := noCheck, blocks := [b] }] } }
      some (d.issueList poolDrive (.scan { owner := o, index := c'.asked - 1 }) ctx (piecesOf (.imm b) .buffer b.length), c')

/-- Ask for blocks of a column until it has four outstanding or nothing more can be asked. -/
def Dev.askBlocks (d : Dev) (ctx n home i : Nat) (noCheck : Bool) : Nat → ScanCol → Dev × ScanCol
  | 0, c => (d, c)
  | k + 1, c =>
    match d.askBlock ctx n home i noCheck c with
    | some v => v.1.askBlocks ctx n home i noCheck k v.2
    | none => (d, c)

/-! ### KIND 3: taking blocks in (R70 to R72) -/

/-- What a finished block does to its column. -/
inductive Taken where
  | rows (l : List Datum)
  | values (l : List Datum)
  | skip (n : Nat)
  | fail (st : Nat)
deriving DecidableEq, Repr

/-- Judge a finished block of a column of type c (R71, R72). -/
def judgeBlock (c : ColTy) (codes skip : Bool) (b : Bytes) (st : Nat) (out : Bytes) : Taken :=
  let h := headOf b
  let values := h.encoding == 1
  if headStatus b ≠ 0 then .fail 0x0205
  else if st = 0x0203 ∨ st = 0x0204 then .fail st
  else
    let data := if st = 0 then blockData h out else none
    let typeOk := if values then isDict c.ty && h.type == c.dict else h.type == c.ty
    if values then
      match data with
      | some l => if codes || !typeOk then .fail 0x0205 else .values l
      | none => .fail 0x0205
    else
      match data with
      | some l => if typeOk then .rows l else if skip then .skip h.rows else .fail 0x0205
      | none => if skip then .skip h.rows else .fail 0x0205

/-- Take the finished blocks of a column in order: the column, values for its dictionary, row ranges skipped, and the
status with which the pipeline fails. The first number bounds the blocks. `first` is the row of the column's first
pending row. -/
def Dev.takeBlocks (d : Dev) (o : BOwner) (t : ColTy) (skip : Bool) (first : Nat) :
    Nat → ScanCol → List Datum → List (Nat × Nat) → ScanCol × List Datum × List (Nat × Nat) × Option Nat
  | 0, c, vs, sk => (c, vs, sk, none)
  | k + 1, c, vs, sk =>
    match d.job o with
    | none => (c, vs, sk, none)
    | some j =>
      match j.result c.taken with
      | none => (c, vs, sk, none)
      | some r =>
        let b := j.blocks.getD c.taken []
        let codes := c.codes && !c.starts.contains c.taken
        let c' := { c with taken := c.taken + 1, starts := c.starts.erase c.taken, codes := codes || (headOf b).encoding == 2 }
        if c.full then d.takeBlocks o t skip first k c' vs sk
        else
          match judgeBlock t codes skip b r.1 r.2 with
          | .fail st => (c, vs, sk, some st)
          | .values l => d.takeBlocks o t skip first k { c' with codes := codes } (vs ++ l) sk
          | .rows l => d.takeBlocks o t skip first k { c' with rows := c.rows ++ l } vs sk
          | .skip n =>
            d.takeBlocks o t skip first k { c' with rows := c.rows ++ List.replicate n none } vs
              (sk ++ [(first + c.rows.length, n)])

/-! ### Forming strips -/

/-- The rows a column holds of those that ROW_COUNT lets it read. -/
def ScanCol.held (c : ScanCol) : Nat := min (c.left.getD c.rows.length) c.rows.length

/-- A column that holds no more blocks, or every row that ROW_COUNT lets it read. -/
def ScanCol.over (c : ScanCol) : Bool := c.full || (decide (c.extents = []) && decide (c.asked = c.taken))

/-- Rows that every column holds. -/
def readyRows (cols : List ScanCol) : Nat :=
  match cols with
  | [] => 0
  | c :: cs => cs.foldl (fun n x => min n x.held) c.held

/-- Whether a row lies in a skipped range. -/
def inSkips (sk : List (Nat × Nat)) (r : Nat) : Bool := sk.any (fun s => decide (s.1 ≤ r ∧ r < s.1 + s.2))

/-- The rows ready in order with their row numbers, skipped ones left out. -/
def ScanSt.ready (s : ScanSt) : List (Nat × Row) :=
  ((List.range (readyRows s.cols)).map (fun i => (s.row + i, s.cols.map (fun c => c.rows.getD i none)))).filter
    (fun p => !inSkips s.skips p.1)

/-- Columns that have ended with every row they hold taken into account. -/
def ScanSt.ended3 (s : ScanSt) : Bool := s.cols.any (fun c => c.over && decide (c.held = readyRows s.cols))

/-- How many of the ready rows the next strip takes: a full strip, one cut by R38, or the last. -/
def ScanSt.nextTake (s : ScanSt) : Nat :=
  let l := (s.ready).map Prod.snd
  match stripsOf (l.take 4097) with
  | [] => 0
  | [x] => if x.length = 4096 ∨ s.ended3 = true then x.length else 0
  | x :: _ => x.length

/-- Columns end at different row totals: one is over and another holds a row past it (R71). -/
def ScanSt.uneven (s : ScanSt) : Bool :=
  s.ended3 && decide ((s.ready).length = 0) && s.cols.any (fun c => decide (readyRows s.cols < c.held))

/-- Every column over, with no row left. -/
def ScanSt.done3 (s : ScanSt) : Bool := s.cols.all (fun c => c.over && decide (c.held = readyRows s.cols))
  && decide ((s.ready).length = 0)

/-- Take the next strip's rows of a KIND 3 source. -/
def ScanSt.take3 (s : ScanSt) : List Row × ScanSt :=
  let n := s.nextTake
  let l := (s.ready).take n
  let upTo := (l.getLast?.map (fun p => p.1 + 1)).getD s.row
  let drop := upTo - s.row
  (l.map Prod.snd, { s with seq := s.seq + 1, row := upTo, cols := s.cols.map (fun c => { c with
                              rows := c.rows.drop drop, left := c.left.map (fun n => n - drop) })
                            skips := s.skips.filter (fun k => decide (upTo < k.1 + k.2)) })

/-- The selected columns of a SCAN's source with their types. -/
def scanDir (src : Source) (body : Bytes) (schema : List ColTy) : List (ColTy × DirCol) :=
  schema.zip (pick (fieldAt body 4 4) src.dir)

/-- First row past the range a memory SCAN reads, cut at the source's end (R65, R68). -/
def scanEnd (src : Source) (body : Bytes) : Nat :=
  let n := fieldAt body 0x10 8
  if n = 0 then src.rows else min src.rows (fieldAt body 8 8 + n)

end Sys2Proof.Machine
end

