-- ==== Sys2Proof/Machine/Emit.lean ====
section
/-!
DEFINITION. EMIT: result blocks in the Arrow layout (R37, R62).
-/

namespace Sys2Proof.Machine

/-- The size of each buffer of a column for n rows and v bytes of VARBIN data: validity where the schema marks the
column NULLABLE, values or offsets, VARBIN data. -/
def bufferSizes (c : ColTy) (n v : Nat) : List Nat :=
  (if c.nullable then [(n + 7) / 8] else [])
  ++ (if isVar c.ty then [4 * (n + 1), v] else if c.ty = 0x0F then [(n + 7) / 8] else [typeBits c.ty / 8 * n])

/-- Offset of the end of the last buffer of a block, each buffer on a 64-byte boundary of the slot. -/
def blockEnd (s : List ColTy) (n : Nat) (vs : List Nat) : Nat :=
  ((s.zip vs).flatMap (fun p => bufferSizes p.1 n p.2)).foldl (fun o k => roundUp o 64 + k) 32

/-- Whether n rows with v bytes of VARBIN data per column fit a slot with its close word. -/
def blockFits (slot : Nat) (s : List ColTy) (n : Nat) (vs : List Nat) : Bool := decide (blockEnd s n vs + 8 ≤ slot)

/-- Bits as bytes, least significant first. The first number bounds the bytes. -/
def packBits : Nat → List Bool → Bytes
  | 0, _ => []
  | k + 1, l =>
    if l = [] then []
    else
      BitVec.ofNat 8 (((l.take 8).zipIdx.map (fun p => b2n p.1 * 2 ^ p.2)).sum) :: packBits k (l.drop 8)

/-- The value bytes of a fixed-width column; a null row's are open. -/
def valueBytes (w : Nat) : Nat → List Datum → Bytes
  | _, [] => []
  | f, some (.num n) :: l => leBytes w n ++ valueBytes w f l
  | f, _ :: l => leBytes w (Config.freeValue f).toNat ++ valueBytes w (f + 1) l

/-- Running offsets of VARBIN values. -/
def offsetsOf : Nat → List Datum → Bytes
  | o, [] => leBytes 4 o
  | o, v :: l => leBytes 4 o ++ offsetsOf (o + (strOf v).length) l

/-- The buffers of a column. `free` numbers the next open value. -/
def columnBuffers (c : ColTy) (free : Nat) (l : List Datum) : List Bytes :=
  (if c.nullable then [packBits (l.length / 8 + 1) (l.map Option.isSome)] else [])
  ++ (if isVar c.ty then [offsetsOf 0 l, l.flatMap strOf]
      else if c.ty = 0x0F then [packBits (l.length / 8 + 1) (l.zipIdx.map (fun p => match p.1 with
        | some (.num n) => n != 0
        | _ => (Config.freeValue (free + p.2)).toNat % 2 == 1))]
      else [valueBytes (typeBits c.ty / 8) free l])

/-- Buffers laid end to end, each on a 64-byte boundary. -/
def layBuffers (bs : List Bytes) (start : Bytes) : Bytes :=
  bs.foldl (fun acc b => acc ++ zeros (roundUp acc.length 64 - acc.length) ++ b) start

/-- The bytes of a slot before its close word, and the device past the open values used (R62). -/
def Dev.resultBlock (d : Dev) (ctx sink seq flags slot : Nat) (s : List ColTy) (rows : List Row) : Bytes × Dev :=
  let col (i : Nat) : List Datum := rows.map (fun r => colOf r i)
  let v := s.zipIdx.foldl (fun (acc : List Bytes × Nat) p =>
    (acc.1 ++ columnBuffers p.1 acc.2 (col p.2), acc.2 + rows.length)) ([], d.free)
  let body := layBuffers v.1 (zeros 32)
  let head := leBytes 4 0x42524C46 ++ leBytes 1 ctx ++ leBytes 1 sink ++ leBytes 2 s.length ++ leBytes 4 rows.length
    ++ leBytes 4 seq ++ leBytes 4 (body.length - 32) ++ leBytes 4 flags ++ zeros 8
  (fit (slot - 8) (head ++ body.drop 32), { d with free := v.2 })

/-- Cut rows into blocks that fit a slot: the full ones, the rows of the open one, and whether a row fits no slot.
`n` and `vs` measure the open rows. -/
def cutBlocks (slot : Nat) (s : List ColTy) : List Row → List Row → List Nat → List (List Row) × List Row × Bool
  | [], open_, _ => ([], open_, false)
  | r :: rs, open_, vs =>
    let one := varBytes r
    let next := vs.zipWith (· + ·) one
    if blockFits slot s (open_.length + 1) next then cutBlocks slot s rs (open_ ++ [r]) next
    else if blockFits slot s 1 one then
      let t := cutBlocks slot s rs [r] one
      (open_ :: t.1, t.2)
    else if open_ = [] then ([], [], true)
    else ([open_], [], true)

/-- The VARBIN bytes a block's rows hold, per column. -/
def rowsVar (s : List ColTy) (rows : List Row) : List Nat :=
  rows.foldl (fun vs r => vs.zipWith (· + ·) (varBytes r)) (s.map (fun _ => 0))

end Sys2Proof.Machine
end

