-- ==== Sys2Proof/Machine/Transom.lean ====
section
/-!
DEFINITION. Transom: frames and how they are sent (R352 to R360, R363), flows and credit (R362), and the strips that
SHUFFLE_OUT sends and SHUFFLE_IN takes in (R365 to R369).
-/

namespace Sys2Proof.Machine

/-! ### Frames (R358, R359) -/

/-- An object whose apply point is the next reset, as in force. -/
def Dev.oact (d : Dev) (o : Obj) : Nat := Sparse.get o.dflt d.life.active o.key

/-- The engine's node identifier in force. -/
def Dev.nodeId (d : Dev) : Nat := d.fget F.TR_NODE_NODE

/-- An engine without an identifier sends nothing and drops what it receives (R354). -/
def Dev.netUp (d : Dev) : Bool := decide (d.nodeId ≠ 0xFFFF)

/-- The header and payload as the UDP payload. -/
def Frame.bytes (f : Frame) : Bytes :=
  leBytes 1 1 ++ leBytes 1 f.type ++ leBytes 1 f.cls ++ leBytes 1 f.flags ++ leBytes 2 f.src ++ leBytes 2 f.dst
  ++ leBytes 4 f.epoch ++ leBytes 4 f.flow ++ leBytes 4 f.fseq ++ leBytes 4 f.ack ++ leBytes 8 f.tag
  ++ leBytes 2 f.part ++ leBytes 2 f.credits ++ leBytes 2 f.frag ++ leBytes 2 f.payload.length ++ leBytes 4 f.off
  ++ zeros 4 ++ f.payload

/-- Read a UDP payload as a frame; `none` where VERSION, TYPE or a reserved field is not as R358 says, or the payload is
shorter than PAYLOAD_LEN. -/
def parseFrame (b : Bytes) : Option Frame :=
  let u (o n : Nat) := fieldAt b o n
  if u 0 1 = 1 ∧ 1 ≤ u 1 1 ∧ u 1 1 ≤ 8 ∧ u 3 1 < 2 ∧ u 4 2 < 8192 ∧ u 6 2 < 8192 ∧ u 0x2C 4 = 0
      ∧ u 0x26 2 ≤ 8192 ∧ 48 + u 0x26 2 ≤ b.length then
    some { type := u 1 1, cls := u 2 1, flags := u 3 1, src := u 4 2, dst := u 6 2, epoch := u 8 4, flow := u 0xC 4
           fseq := u 0x10 4, ack := u 0x14 4, tag := u 0x18 8, part := u 0x20 2, credits := u 0x22 2, frag := u 0x24 2
           off := u 0x28 4, payload := sliceAt b 48 (u 0x26 2) }
  else none

/-- DATA and END, and PUT, travel in the streams of R360. -/
def Frame.sequenced (f : Frame) : Bool := f.type == 1 || f.type == 2 || f.type == 4

/-- DATA_CLASS; 7 is taken as 6 (R376). -/
def Dev.dataClass (d : Dev) : Nat := min 6 (d.fget F.TR_CTL_DATA_CLASS)

/-- Payload limit of a frame (R352). -/
def Dev.payloadLimit (d : Dev) : Nat := if d.oact O.MTU = 1500 then 1024 else 8192

/-! ### Peers and sending (R352, R353, R360, R363) -/

/-- A peer. -/
def Dev.peer (d : Dev) (n : Nat) : Peer := Sparse.get {} d.net.peers n

/-- Put a peer. -/
def Dev.setPeer (d : Dev) (n : Nat) (x : Peer) : Dev :=
  { d with net := { d.net with peers := Sparse.set {} d.net.peers n x } }

/-- Whether a class is paused on a port; class 7 never is, and only the classes of PFC_MASK are (R363). -/
def Dev.pausedOn (d : Dev) (port cls : Nat) : Bool :=
  decide (cls < 7) && bitAt (d.oact O.PFC_MASK) cls && bitAt (Sparse.get 0 d.net.paused port) cls

/-- The port a frame takes: the one (FLOW + node) mod 2 chooses among the two, or the only one allowed; the other
allowed one while that is down (R353). -/
def Dev.portFor (d : Dev) (f : Frame) : Option Nat :=
  let p := (d.peer f.dst).ports
  let up (i : Nat) : Bool := bitAt p i && bitAt d.net.links i
  let first := if p % 4 = 3 then (f.flow + f.dst) % 2 else if bitAt p 0 then 0 else 1
  if up first then some first else if up (1 - first) then some (1 - first) else none

/-- The 16-bit words of a byte sequence, first byte high, summed. -/
def wordSum : Bytes → Nat
  | a :: b :: bs => a.toNat * 256 + b.toNat + wordSum bs
  | [a] => a.toNat * 256
  | [] => 0

/-- The UDP checksum under IPv6 (RFC 768, RFC 8200): over both addresses, the length, the protocol number, the UDP header and
the payload; a zero goes out as all ones. -/
def udpSum (src dst : Bytes) (srcPort dstPort : Nat) (b : Bytes) : Nat :=
  let n := 8 + b.length
  65535 - (wordSum (fit 16 src) + wordSum (fit 16 dst) + n / 65536 + n % 65536 + 17 + srcPort + dstPort + n + wordSum b) % 65535

/-- An address is IPv4-mapped (::ffff:a.b.c.d). -/
def ip4Mapped (a : Bytes) : Bool := a.take 12 == zeros 10 ++ [0xFF, 0xFF]

/-- The fields a frame travels under (R352). -/
def Dev.carriage (d : Dev) (f : Frame) (port : Nat) : Carriage :=
  let p := d.peer f.dst
  let own := leBytes 16 (d.oact O.IP_ADDR)
  let src := if f.flow = 0 then 49152 else 49152 + f.flow % 16384
  let dst := d.oact O.UDP_PORT
  { port := port, vid := if p.vlan = 0xFFFF then d.oact O.VLAN_ID else p.vlan, pcp := f.cls, mac := p.mac
    ip4 := ip4Mapped own, srcAddr := own, dstAddr := p.addr, srcPort := src, dstPort := dst
    sum := if ip4Mapped own then 0 else udpSum own p.addr src dst f.bytes, dscp := f.cls * 8 }

/-- Put a frame on the wire, or keep it while its class is paused or no allowed port is up. -/
def Dev.putOnWire (d : Dev) (f : Frame) : Dev :=
  match d.portFor f with
  | some p =>
    if d.pausedOn p f.cls then { d with net := { d.net with txq := d.net.txq ++ [f] } }
    else ((d.emit (.frame (d.carriage f p) f.bytes)).ocount O.FRAMES_TX 1).ocount O.BYTES_TX f.bytes.length
  | none => { d with net := { d.net with txq := d.net.txq ++ [f] } }

/-- Frames that were kept go out where they now can, in order. -/
def Dev.drainWire (d : Dev) : Dev :=
  d.net.txq.foldl (fun d f => d.putOnWire f) { d with net := { d.net with txq := [] } }

/-- The credit units ready for a sender of a flow, and the device that has given them out. -/
def Dev.takeCredit (d : Dev) (flow node : Nat) : Nat × Dev :=
  match d.net.rx.find? (fun r => r.flow = flow) with
  | none => (0, d)
  | some r =>
    let n := min 65535 (((r.senders.find? (fun s => s.node = node)).map RxSender.back).getD 0)
    let put (s : RxSender) : RxSender := if s.node = node then { s with back := s.back - n } else s
    (n, { d with net := { d.net with rx := d.net.rx.map (fun x =>
      if x.flow = flow then { x with senders := x.senders.map put } else x) } })

/-- Send a frame to a peer: it carries the acknowledgement and the credit owed; a sequenced one takes the next FSEQ and
is kept until acknowledged. -/
def Dev.sendFrame (d : Dev) (f : Frame) : Dev :=
  if d.netUp = false ∨ d.halted = true then d
  else
    let c := if f.flow = 0 ∨ f.type = 7 then (0, d) else d.takeCredit f.flow f.dst
    let d := c.2
    let p := d.peer f.dst
    let f := { f with src := d.nodeId, ack := p.rxSeq, credits := c.1, fseq := if f.sequenced then p.txSeq else 0 }
    let p := { p with ackDue := false }
    let p := if f.sequenced then { p with txSeq := (p.txSeq + 1) % 2 ^ 32, unacked := p.unacked ++ [f] } else p
    (d.setPeer f.dst p).putOnWire f

/-- A CREDIT frame of a flow. -/
def Dev.sendCredit (d : Dev) (flow node epoch : Nat) : Dev :=
  d.sendFrame { type := 3, cls := d.dataClass, src := 0, dst := node, epoch := epoch, flow := flow }

/-- Frames the peer has acknowledged leave the stream (R360). -/
def Dev.acked (d : Dev) (n ack : Nat) : Dev :=
  let p := d.peer n
  let left := p.unacked.filter (fun f => decide ((f.fseq + 2 ^ 32 - ack) % 2 ^ 32 < 2 ^ 31))
  if left.length = p.unacked.length then d else d.setPeer n { p with unacked := left, rounds := 0 }

/-! ### Serialized strips (R368) -/

/-- A schema as its record of R60: header and body. -/
def schemaRecord (s : List ColTy) : Bytes :=
  leBytes 2 1 ++ zeros 2 ++ leBytes 4 (16 + 8 * s.length) ++ leBytes 2 s.length ++ zeros 6
  ++ s.flatMap (fun c => leBytes 1 c.ty ++ leBytes 1 c.scale ++ leBytes 1 (b2n c.nullable) ++ leBytes 1 c.dict ++ zeros 4)

/-- SCHEMA_SUM. -/
def schemaSum (s : List ColTy) : Nat := fhKey 0 [(0x10, some (.str (schemaRecord s)))]

/-- A buffer padded to 64 bytes. -/
def pad64 (b : Bytes) : Bytes := fit (roundUp b.length 64) b

/-- The bytes of rows as a serialized strip, and the device past the open values used. -/
def Dev.serialize (d : Dev) (s : List ColTy) (rows : List Row) : Bytes × Dev :=
  let v := s.zipIdx.foldl (fun (acc : List Bytes × Nat) p =>
    (acc.1 ++ columnBuffers p.1 acc.2 (rows.map (fun r => colOf r p.2)), acc.2 + rows.length)) ([], d.free)
  let valid := (s.zipIdx.map (fun p => b2n p.1.nullable * 2 ^ p.2)).sum
  (leBytes 4 rows.length ++ leBytes 2 s.length ++ zeros 2 ++ leBytes 4 valid ++ zeros 4 ++ leBytes 8 (schemaSum s)
    ++ zeros 40 ++ v.1.flatMap pad64, { d with free := v.2 })

/-- Bytes of n serialized rows with v bytes of VARBIN data per column. -/
def serializedSize (s : List ColTy) (n : Nat) (vs : List Nat) : Nat :=
  64 + (((s.zip vs).flatMap (fun p => bufferSizes p.1 n p.2)).map (fun k => roundUp k 64)).sum

/-- The values of one column of n rows from its buffers at o, and the offset past them. -/
def readColumn (b : Bytes) (n : Nat) (valid : Bool) (c : ColTy) (o : Nat) : List Datum × Nat :=
  let vlen := if valid then roundUp ((n + 7) / 8) 64 else 0
  let live (i : Nat) : Bool := !valid || bitAt (b.getD (o + i / 8) 0).toNat (i % 8)
  let o := o + vlen
  let val (i : Nat) : Val :=
    if isVar c.ty then
      let a := fieldAt b (o + 4 * i) 4
      .str (sliceAt b (o + roundUp (4 * (n + 1)) 64 + a) (fieldAt b (o + 4 * i + 4) 4 - a))
    else if c.ty = 0x0F then .num (b2n (bitAt (b.getD (o + i / 8) 0).toNat (i % 8)))
    else .num (fieldAt b (o + typeBits c.ty / 8 * i) (typeBits c.ty / 8))
  let len := if isVar c.ty then roundUp (4 * (n + 1)) 64 + roundUp (fieldAt b (o + 4 * n) 4) 64
    else if c.ty = 0x0F then roundUp ((n + 7) / 8) 64 else roundUp (typeBits c.ty / 8 * n) 64
  ((List.range n).map (fun i => if live i then some (val i) else none), o + len)

/-- The rows of a serialized strip. -/
def deserialize (s : List ColTy) (b : Bytes) : List Row :=
  let n := min 4096 (fieldAt b 0 4)
  let cols := (s.zipIdx.foldl (fun (acc : List (List Datum) × Nat) p =>
    let r := readColumn b n (bitAt (fieldAt b 8 4) p.2) p.1 acc.2
    (acc.1 ++ [r.1], r.2)) ([], 64)).1
  (List.range n).map (fun i => cols.map (fun c => c.getD i none))

/-! ### SHUFFLE_OUT (R364 to R366) -/

/-- The flow of a SHUFFLE_OUT node. -/
def Dev.txFlow (d : Dev) (ctx n : Nat) : Option TxFlow := d.net.tx.find? (fun t => decide (t.ctx = ctx ∧ t.node = n))

/-- Change the flow of a SHUFFLE_OUT node. -/
def Dev.mapTx (d : Dev) (ctx n : Nat) (f : TxFlow → TxFlow) : Dev :=
  { d with net := { d.net with tx := d.net.tx.map (fun t => if t.ctx = ctx ∧ t.node = n then f t else t) } }

/-- Node of partition p. -/
def mapNode (body : Bytes) (p : Nat) : Nat := fieldAt body (0x20 + 2 * p) 2 % 8192

/-- The distinct nodes of a partition map, in map order. -/
def mapNodes (body : Bytes) : List Nat := ((List.range (2 ^ fieldAt body 5 1)).map (mapNode body)).eraseDups

/-- The nodes a SHUFFLE_OUT sends to: SINGLE sends to that of partition 0 alone. -/
def shuffleNodes (body : Bytes) : List Nat := if fieldAt body 4 1 = 2 then [mapNode body 0] else mapNodes body

/-- Where a row goes, with its partition (R365). A broadcast row has no partition. -/
def shuffleTargets (body : Bytes) (s : List ColTy) (r : Row) : List (Nat × Nat) :=
  if fieldAt body 4 1 = 1 then (mapNodes body).map (fun n => (n, 2 ^ 16))
  else if fieldAt body 4 1 = 2 then [(mapNode body 0, 0)]
  else
    let cols := keyCols body 8 (fieldAt body 6 1)
    let h := fhKey (fieldAt body 0x10 8) ((cols.map (fun c => (s.getD c { ty := 0 }).ty)).zip (cols.map (colOf r)))
    let p := topBits h (fieldAt body 5 1)
    [(mapNode body p, p)]

/-- Close a staging strip: it waits for its frames to be sent. Rows of several partitions, or of none, leave PARTITION
open. -/
def Dev.closeStaging (d : Dev) (ctx n : Nat) (s : List ColTy) (dst : Nat) (rows : List (Nat × Row)) : Dev :=
  if rows = [] then d
  else
    let parts := (rows.map Prod.fst).eraseDups
    let p := match parts with
      | [k] => if k < 2 ^ 16 then (k, d) else d.draw
      | _ => d.draw
    let b := p.2.serialize s (rows.map Prod.snd)
    b.2.mapTx ctx n (fun t =>
      let k := Sparse.get 0 t.counts dst
      { t with counts := Sparse.set 0 t.counts dst (k + 1)
               strips := t.strips ++ [{ dst := dst, num := k, part := p.1 % 2 ^ 16, bytes := b.1 }] })

/-- Stage one row for one destination: a strip that is full, or that the row would carry past FLUSH_BYTES, closes
first. -/
def Dev.stageRow (d : Dev) (ctx n flush : Nat) (s : List ColTy) (st : Sparse (List (Nat × Row))) (dst p : Nat) (r : Row) :
    Dev × Sparse (List (Nat × Row)) :=
  let old := Sparse.get [] st dst
  let size := serializedSize s (old.length + 1) (rowsVar s (old.map Prod.snd ++ [r]))
  if old ≠ [] ∧ (4096 ≤ old.length ∨ flush < size) then
    (d.closeStaging ctx n s dst old, Sparse.set [] st dst [(p, r)])
  else if old.length + 1 = 4096 then (d.closeStaging ctx n s dst (old ++ [(p, r)]), Sparse.set [] st dst [])
  else (d, Sparse.set [] st dst (old ++ [(p, r)]))

/-- SHUFFLE_OUT of a strip. -/
def Dev.runShuffleOut (d : Dev) (ctx n : Nat) (body : Bytes) (s : List ColTy) (st : Sparse (List (Nat × Row)))
    (x : Strip) : Made :=
  let flush := ((d.txFlow ctx n).map TxFlow.flush).getD 0
  let v := x.liveRows.foldl (fun (v : Dev × Sparse (List (Nat × Row))) p =>
    (shuffleTargets body s p.2).foldl (fun v t => v.1.stageRow ctx n flush s v.2 t.1 t.2 p.2) v) (d, st)
  { dev := v.1, st := .shufOut v.2 }

/-- The end of SHUFFLE_OUT's input: every staging strip closes. -/
def Dev.endShuffleOut (d : Dev) (ctx n : Nat) (s : List ColTy) (st : Sparse (List (Nat × Row))) : Dev :=
  (st.foldl (fun d p => d.closeStaging ctx n s p.1 p.2) d).mapTx ctx n (fun t => { t with inputOver := true })

/-- CREDIT: the flow holds credit for every destination with a complete strip waiting (R362); the engine itself needs
none. -/
def Dev.hasCredit (d : Dev) (ctx n : Nat) : Bool :=
  match d.txFlow ctx n with
  | some t => t.strips.all (fun x => decide (x.dst = d.nodeId) || decide (0 < Sparse.get 0 t.credit x.dst))
  | none => false

/-! ### SHUFFLE_IN (R367 to R369) -/

/-- Senders of a SHUFFLE_IN. -/
def shuffleSenders (body : Bytes) : List Nat :=
  (List.range (fieldAt body 4 2)).map (fun i => fieldAt body (8 + 2 * i) 2 % 8192)

/-- The flow of a SHUFFLE_IN by FLOW. -/
def Dev.rxFlow (d : Dev) (flow : Nat) : Option RxFlow := d.net.rx.find? (fun r => r.flow = flow)

/-- Change a sender of a flow. -/
def Dev.mapSender (d : Dev) (flow node : Nat) (f : RxSender → RxSender) : Dev :=
  { d with net := { d.net with rx := d.net.rx.map (fun r =>
      if r.flow = flow then { r with senders := r.senders.map (fun s => if s.node = node then f s else s) } else r) } }

/-- The strip's bytes once every fragment has arrived. -/
def RxStrip.whole (x : RxStrip) : Option Bytes :=
  match x.last with
  | none => none
  | some k =>
    if (List.range (k + 1)).all (fun i => x.frags.any (fun f => f.1 == i)) then
      let size := (x.frags.map (fun f => f.2.1 + f.2.2.length)).foldl max 0
      some (x.frags.foldl (fun b f => b.take f.2.1 ++ f.2.2 ++ b.drop (f.2.1 + f.2.2.length)) (zeros size))
    else none

/-- SHUFFLE_IN's input has ended: END from every sender, and each one's strips emitted. -/
def RxFlow.inputOver (r : RxFlow) : Bool := r.senders.all (fun s => s.count == some s.next)

/-- A strip that SHUFFLE_IN emitted has been released: its credit units can return (R362). -/
def Dev.releaseCredit (d : Dev) (ctx n count : Nat) : Dev :=
  { d with net := { d.net with rx := d.net.rx.map (fun r =>
      if r.ctx = ctx ∧ r.node = n then
        { r with senders := r.senders.map (fun s =>
            { s with back := s.back + Sparse.get 0 s.owed count, owed := Sparse.set 0 s.owed count 0 }) }
      else r) } }

/-- The flows of a context end (R372): its frames that have not been sent are discarded. -/
def Dev.dropFlows (d : Dev) (ctx : Nat) : Dev :=
  let mine := (d.net.tx.filter (fun t => t.ctx = ctx)).map TxFlow.flow ++ (d.net.rx.filter (fun r => r.ctx = ctx)).map RxFlow.flow
  { d with net := { d.net with
      tx := d.net.tx.filter (fun t => t.ctx ≠ ctx)
      rx := d.net.rx.filter (fun r => r.ctx ≠ ctx)
      txq := d.net.txq.filter (fun f => !(mine.contains f.flow && decide (f.type < 4))) } }

end Sys2Proof.Machine
end

