-- ==== Sys2Proof/Machine/Latch.lean ====
section
/-!
DEFINITION. Latch: node classes and homes (R168 to R170), readiness (R171 to R174), the choice of node and Pane (R176 to
R179), and the operand matching store (R181 to R185).
-/

namespace Sys2Proof.Machine

/-! ### Contexts, Panes and Latches -/

/-- A context. -/
def Dev.ctx (d : Dev) (c : Nat) : Ctx := Sparse.get {} d.pipes.ctxs c

/-- Put a context. -/
def Dev.setCtx (d : Dev) (c : Nat) (x : Ctx) : Dev :=
  { d with pipes := { d.pipes with ctxs := Sparse.set {} d.pipes.ctxs c x } }

/-- A node as it runs. -/
def Ctx.node (x : Ctx) (n : Nat) : NodeRun := x.nodes.getD n {}

/-- Put a node. -/
def Ctx.setNode (x : Ctx) (n : Nat) (y : NodeRun) : Ctx := { x with nodes := x.nodes.set n y }

/-- Put a node of a context. -/
def Dev.setNode (d : Dev) (c n : Nat) (y : NodeRun) : Dev := d.setCtx c ((d.ctx c).setNode n y)

/-- Nodes are being dispatched or run towards a cut (R46). -/
def Ctx.live (x : Ctx) : Bool := (x.state == 2 || x.state == 4) && x.ending.isNone

/-- In RUNNING, CANCELLING or PARKING. -/
def Ctx.active (x : Ctx) : Bool := x.state == 2 || x.state == 3 || x.state == 4

/-- Contexts in RUNNING, CANCELLING or PARKING. -/
def Dev.activeCtxs (d : Dev) : List (Nat × Ctx) := d.pipes.ctxs.filter (fun p => p.2.active)

/-- A Pane. -/
def Dev.pane (d : Dev) (p : Nat) : Pane := Sparse.get {} d.pipes.panes p

/-- Put a Pane. -/
def Dev.setPane (d : Dev) (p : Nat) (x : Pane) : Dev :=
  { d with pipes := { d.pipes with panes := Sparse.set {} d.pipes.panes p x } }

/-- A Casement's Latch. -/
def Dev.latch (d : Dev) (c : Nat) : Latch := Sparse.get {} d.pipes.latches c

/-- Put a Latch. -/
def Dev.setLatch (d : Dev) (c : Nat) (x : Latch) : Dev :=
  { d with pipes := { d.pipes with latches := Sparse.set {} d.pipes.latches c x } }

/-- The Casement of a Pane (R18). -/
def paneCas (p : Nat) : Nat := p / 24

/-- In service for a snapshot: not fenced, and its Casement in service or gated (R54, R443). -/
def Dev.paneServes (d : Dev) (p : Nat) : Bool :=
  !(d.pane p).fenced && (d.fget (F.CS_STAT_STATE (paneCas p)) == 1 || d.casUp (paneCas p))

/-- The Panes in service. -/
def Dev.panesUp (d : Dev) : List Nat := (List.range Config.panes).filter d.paneServes

/-- PANE_HOLD of a Pane, set by software or by a self-test (R187, R190). -/
def Dev.paneHeld (d : Dev) (p : Nat) : Bool := bitAt (d.fget (F.LT_PANE_HOLD_HOLD (paneCas p))) (p % 24)

/-- The strip-boundary values as they stand: what a node of a context takes at its next boundary (R45, R403). -/
def Dev.appliedNow (d : Dev) (c : Nat) : Applied :=
  { skip := d.oget (O.SKIP_ON_ERROR c) != 0
    limit := d.oget (O.PANE_LIMIT c)
    prio := min 7 (d.oget (O.DISPATCH_PRIORITY c))
    residueRetry := d.oget O.RESIDUE_RETRY != 0
    verifyRetry := ([0, 1, 2, 3].map (fun k => if d.oget (O.VERIFY_RETRY k) = 0 then 0 else 2 ^ k)).sum
    shadow := ([0, 1, 2, 3].map (fun k => d.fget (F.LV_CTL_SHADOW_SEARCH k) % 16 * 16 ^ k)).sum }

/-- DISPATCH_PRIORITY of a context, above 7 taken as 7 (R64). -/
def Dev.priority (d : Dev) (c : Nat) : Nat := min 7 (d.oget (O.DISPATCH_PRIORITY c))

/-! ### Classes (R168) -/

/-- PARTED nodes. -/
def Node.parted (x : Node) : Bool := [0x20, 0x21, 0x22, 0x23, 0x24].contains x.op
/-- BOUND nodes. -/
def Node.bound (x : Node) : Bool := x.stateful && !x.parted
/-- ORDERED nodes. -/
def Node.ordered (x : Node) : Bool := x.op == 0x40 || x.op == 0x24 || (x.op == 0x04 && x.ins == 2)
/-- A RIGHT or FULL probe. -/
def Node.outerProbe (x : Node) : Bool := x.op == 0x13 && (fieldAt x.param 2 1 == 2 || fieldAt x.param 2 1 == 3)
/-- Nodes with a finish phase (R172). -/
def Node.finishes (x : Node) : Bool := x.blocking || x.op == 0x21 || x.outerProbe
/-- Nodes without input ports, that start strips. -/
def Node.source (x : Node) : Bool := x.op == 0x01 || x.op == 0x31
/-- Nodes whose output strips carry their own tags. -/
def Node.ownTags (x : Node) : Bool := x.source || x.parted
/-- Nodes that may make several strips of one (R38, R87, R111, R131). -/
def Node.splitter (x : Node) : Bool :=
  ((x.op == 0x02 || x.op == 0x04) && x.schema.any (fun c => isVar c.ty))
  || (x.op == 0x11 && fieldAt x.param 1 1 == 1) || (x.op == 0x13 && decide (fieldAt x.param 2 1 < 4))

/-- The number of the table copy a LOOKUP searches: the table's own, or that of the copy it has still to leave (R103). -/
def Dev.tableOf (d : Dev) (c : Nat) (x : Node) : Nat := (((d.ctx c).node x.id).lvUse).getD (fieldAt x.param 0 1)

/-- The Casements that hold a copy of a LOOKUP's table, or will hold it once its build ends; all for another node. -/
def Dev.nodeMask (d : Dev) (c : Nat) (x : Node) : Nat :=
  if x.op = 0x11 then
    let t := fieldAt x.param 0 1
    let built := (d.ctx c).prog.nodes.find? (fun m => m.op == 0x10 && fieldAt m.param 0 1 == t)
    match built.filter (fun b => !((d.ctx c).node b.id).ended) with
    | some b => (buildTable c b.param).mask
    | none => ((d.lvTable (d.tableOf c x)).map LvTable.mask).getD 0
  else 15

/-! ### Homes (R169) -/

/-- Home nodes of running contexts in a Casement that a test picks, those of `mine` counted in. -/
def Dev.homeCount (d : Dev) (p : Node → Bool) (cas : Nat) (mine : List (Node × Nat)) : Nat :=
  ((d.activeCtxs.flatMap (fun q => q.2.prog.nodes.zip (q.2.nodes.map NodeRun.home)) ++ mine).filter
    (fun e => p e.1 && e.2 == cas)).length

/-- The Casement of a list with the fewest, ties to the lowest. -/
def fewest (f : Nat → Nat) : List Nat → Nat
  | [] => 0
  | [c] => c
  | c :: e :: rest => let r := fewest f (e :: rest); if f c ≤ f r then c else r

/-- The home of node n, given those of the nodes before it; `none` while its producer has none. A CASEMENT of 4 to 254 names no
Casement and is taken as any (R57, assumption log 158). -/
def Dev.homeOf (d : Dev) (c : Nat) (prog : Prog) (cas : List Nat) (mine : List (Node × Nat)) (given : Sparse Nat)
    (x : Node) : Option Nat :=
  let all (p : Node → Bool) (l : List Nat) : Nat := fewest (fun k => d.homeCount p k mine) l
  let masked := cas.filter (fun k => bitAt (d.nodeMask c x) k)
  if x.cas < 4 ∧ cas.contains x.cas = true then some x.cas
  else if x.op = 0x11 ∧ masked ≠ [] then some (all (fun _ => true) masked)
  else if x.bound ∧ x.source = false then some (all Node.bound cas)
  else if x.source then some (all (if x.bound then Node.bound else fun _ => true) cas)
  else
    match prog.feed x.id 0 with
    | some e => (given.find? (fun p => p.1 = e.src)).map Prod.snd
    | none => some (all (fun _ => true) cas)

/-- Give homes in ascending node number; a node whose producer comes later waits for another round. The first number
bounds the rounds. -/
def Dev.giveHomes (d : Dev) (c : Nat) (prog : Prog) (cas : List Nat) : Nat → Sparse Nat → Sparse Nat
  | 0, given => given
  | k + 1, given =>
    let next := prog.nodes.foldl (fun (given : Sparse Nat) x =>
      if given.any (fun p => p.1 == x.id) then given
      else
        match d.homeOf c prog cas (given.map (fun p => (prog.node p.1, p.2))) given x with
        | some h => Sparse.insert given x.id h
        | none => given) given
    if next.length = prog.nodes.length then next else d.giveHomes c prog cas k next

/-- The homes of a pipeline's nodes, and how many pins were overridden. -/
def Dev.homes (d : Dev) (c : Nat) (prog : Prog) (cas : List Nat) : List Nat × Nat :=
  let given := d.giveHomes c prog cas (prog.nodes.length + 1) []
  (prog.nodes.map (fun x => Sparse.get 0 given x.id),
    (prog.nodes.filter (fun x => decide (x.cas < 4) && !cas.contains x.cas)).length)

/-! ### Tag order on an edge (R175) -/

/-- The place of a tag in the order in which a consumer meets strips: strips that a RIGHT or FULL probe started come
after those it derived (R133). -/
def Prog.tagKey (p : Prog) (t : Nat) : Nat :=
  let o := tagOrigin t
  let rank := if (p.node o).op = 0x13 then
      1 + (growSet (turned p.links) p.nodes.length [o]).length
    else 0
  rank * 2 ^ 64 + t

/-- The strips dispatched for a node of a context. -/
def Dev.worksOf (d : Dev) (c n : Nat) : List Work := d.pipes.works.filter (fun w => decide (w.ctx = c ∧ w.node = n))

/-- Whether a strip whose place lies below `t` is still on its way to the outputs of node m: held there or in its finish
phase (`atOut`), on a Pane, waiting at its inputs, or further up. Past a node that splits strips only source counts
are compared (`coarse`): R478 numbers later outputs upward. The first number bounds the steps up the graph. -/
def Dev.pendingBelow (d : Dev) (c : Nat) (x : Ctx) (t : Nat) : Nat → Bool → Bool → Nat → Bool
  | 0, _, _, _ => false
  | k + 1, atOut, coarse, m =>
    let nd := x.prog.node m
    let y := x.node m
    let low (s : Strip) : Bool :=
      if coarse then decide (x.prog.tagKey s.tag / 256 < t / 256) else decide (x.prog.tagKey s.tag < t)
    if atOut && ((y.hold.map Prod.snd).any low || y.out.any low) then true
    else
      let coarse := coarse || (atOut && nd.splitter)
      let low (s : Strip) : Bool :=
        if coarse then decide (x.prog.tagKey s.tag / 256 < t / 256) else decide (x.prog.tagKey s.tag < t)
      let here := (d.worksOf c m).any (fun w => (nd.source || w.finish || !nd.ownTags || !atOut) && w.ins.any low)
        || y.rx.any low || ((!nd.ownTags || !atOut) && (y.queues.any (fun q => q.any low) || y.store.any (fun q => q.any low)))
      here || ((!nd.ownTags || !atOut) && (List.range nd.ins).any (fun p =>
        match x.prog.feed m p with
        | some e => d.pendingBelow c x t k true coarse e.src
        | none => false))

/-- Whether some input of node n below `t` has not been taken in yet. -/
def Dev.inputBelow (d : Dev) (c : Nat) (x : Ctx) (n t : Nat) : Bool :=
  d.pendingBelow c x t (x.prog.nodes.length + 1) false false n

/-- Whether a strip below `t` can still reach input port p of node n. -/
def Dev.portBelow (d : Dev) (c : Nat) (x : Ctx) (n p t : Nat) : Bool :=
  match x.prog.feed n p with
  | some e => d.pendingBelow c x t (x.prog.nodes.length + 1) true false e.src
  | none => false

/-! ### Matching (R181 to R185) -/

/-- Entries of a Casement's matching store in use. -/
def Dev.storeUsed (d : Dev) (cas : Nat) : Nat :=
  (d.activeCtxs.map (fun q => (q.2.nodes.map (fun y => if y.home = cas then (y.store.map List.length).sum else 0)).sum)).sum

/-- MATCH_RESERVE within its range. -/
def Dev.matchReserve (d : Dev) : Nat := d.oclamp O.MATCH_RESERVE 16 1024

/-- The lowest tag in a node's store. -/
def lowestTag (p : Prog) (y : NodeRun) : Option Nat :=
  y.store.flatten.foldl (fun (m : Option Nat) s => match m with
    | some t => if p.tagKey s.tag < p.tagKey t then some s.tag else m
    | none => some s.tag) none

/-- The tag a node in matching mode has a match for: held on every port, and for an ORDERED node the next one. -/
def Dev.matchTag (d : Dev) (c : Nat) (x : Ctx) (n : Nat) : Option Nat :=
  let nd := x.prog.node n
  let y := x.node n
  match lowestTag x.prog y with
  | none => none
  | some t =>
    if (List.range nd.ins).all (fun p => (y.store.getD p []).any (fun s => s.tag == t))
        && (!nd.ordered || !(List.range nd.ins).any (fun p => d.portBelow c x n p (x.prog.tagKey t))) then some t
    else none

/-- Whether the store of 4,096 entries admits a strip for a consumer (R181, R184): in its last MATCH_RESERVE entries only the
next tag of an ORDERED consumer, or one that completes a match. -/
def Dev.storeAdmits (d : Dev) (c : Nat) (x : Ctx) (n port t : Nat) : Bool :=
  let nd := x.prog.node n
  let y := x.node n
  let used := d.storeUsed y.home
  let next := !(List.range nd.ins).any (fun p => d.portBelow c x n p (x.prog.tagKey t))
  decide (used < 4096)
  && (decide (used + d.matchReserve < 4096) || (nd.ordered && next)
    || (!nd.ordered && (List.range nd.ins).all (fun p => p == port || (y.store.getD p []).any (fun s => s.tag == t))))

/-- Whether an edge takes one more strip; `t` is its tag where known. A SORT_MERGE takes run tokens without limit. -/
def Dev.edgeRoom (d : Dev) (c : Nat) (x : Ctx) (e : Edge) (t : Option Nat) : Bool :=
  let y := x.node e.dst
  if (x.prog.node e.dst).op = 0x21 then true
  else if y.matching then (match t with
    | some t => d.storeAdmits c x e.dst e.toPort t
    | none => true)
  else decide ((y.queues.getD e.toPort []).length < e.depth)

/-- A matching-store entry of R182. -/
def matchEntry (n port : Nat) (s : Strip) (buffer : Nat) : Nat :=
  s.tag % 2 ^ 64 + n * 2 ^ 64 + port * 2 ^ 74 + 2 ^ 76 + b2n (decide (s.liveCount = 0)) * 2 ^ 77 + buffer % 2 ^ 32 * 2 ^ 96

/-- The entries of a Casement's matching store, by context, node and port; BUFFER is the entry's place among them
(R182). -/
def Dev.storeEntries (d : Dev) (cas : Nat) : List Nat :=
  (d.activeCtxs.flatMap (fun q => q.2.nodes.zipIdx.flatMap (fun y =>
    if y.1.home = cas then y.1.store.zipIdx.flatMap (fun l => l.1.map (fun s => (y.2, l.2, s))) else []))).zipIdx.map
    (fun e => matchEntry e.1.1 e.1.2.1 e.1.2.2 e.2)

/-- Put a strip into a port's queue. -/
def NodeRun.push (y : NodeRun) (port : Nat) (s : Strip) : NodeRun :=
  { y with queues := y.queues.set port ((y.queues.getD port []) ++ [s]) }

/-- A strip enters the matching store; one whose NODE, PORT and TAG an entry already holds raises the matching-store source
with the entry as its syndrome, and does not enter (R183). -/
def Dev.toStore (d : Dev) (c n port : Nat) (s : Strip) : Dev :=
  let y := (d.ctx c).node n
  if (y.store.getD port []).any (fun z => z.tag == s.tag) then
    d.faultRaise (casSource y.home 7) (matchEntry n port s (d.storeUsed y.home)) false
  else
    (d.setNode c n { y with store := y.store.set port ((y.store.getD port []) ++ [s]) }).ocount O.MATCH_ENTRIES 1

/-- Switch a node to matching mode (R181). Its waiting strips enter the store as it admits them. -/
def Dev.toMatching (d : Dev) (c n : Nat) : Dev := d.setNode c n { (d.ctx c).node n with matching := true }

/-- A node and the consumers of its outputs switch to matching mode. -/
def Dev.matchWithConsumers (d : Dev) (c n : Nat) : Dev :=
  ((d.ctx c).prog.edges.filter (fun e => e.src = n)).foldl (fun d e => d.toMatching c e.dst) (d.toMatching c n)

/-- FORCE_MATCH in a node's home Casement. -/
def Dev.forced (d : Dev) (y : NodeRun) : Bool := d.fgetB (F.LT_CTL_FORCE_MATCH y.home)

/-- The lowest place among the strips a producer still holds: dispatched, in its finish phase or waiting to go on. -/
def Dev.lowestHeld (d : Dev) (c : Nat) (x : Ctx) (n : Nat) : Option Nat :=
  let y := x.node n
  ((((d.worksOf c n).flatMap Work.ins) ++ y.out ++ y.hold.map Prod.snd).map (fun s => x.prog.tagKey s.tag)).min?

/-- Whether a node may return to flag mode (R185): it holds no entry and no re-dispatched strip, no producer is in matching
mode, and an ORDERED node has consumed every tag below the lowest that a producer holds. -/
def Dev.mayReturn (d : Dev) (c : Nat) (x : Ctx) (n : Nat) : Bool :=
  let nd := x.prog.node n
  let y := x.node n
  y.matching && y.store.all (fun l => l.isEmpty) && y.queues.all (fun l => l.isEmpty) && y.replay.isEmpty && !d.forced y
  && (List.range nd.ins).all (fun p => match x.prog.feed n p with
      | some e => !(x.node e.src).matching && (!nd.ordered || (d.lowestHeld c x e.src).all (fun t => !d.portBelow c x n p t))
      | none => true)
  && (d.worksOf c n).all (fun w => !w.again)

/-! ### Readiness (R171 to R174) -/

/-- The default consume mask (R173). -/
def defaultMask (x : Node) : Nat :=
  let rooms := (2 ^ x.outs - 1) * 256
  if x.source then 0x4100
  else if [0x02, 0x03, 0x20].contains x.op then 1 + rooms
  else if x.op = 0x04 then (if x.ins = 2 then 0x103 else 1 + rooms)
  else if x.op = 0x11 ∨ x.op = 0x13 then 0x1001 + rooms
  else if x.op = 0x21 then 0x110
  else if x.op = 0x24 then 0x101
  else if x.op = 0x30 then 0x2001
  else 1

/-- The mask of a node's phase (R172). -/
def phaseMask (x : Node) (finish : Bool) : Nat :=
  if finish then (2 ^ x.ins - 1) * 16 + (2 ^ x.outs - 1) * 256 + x.mask / 2 ^ 24 * 2 ^ 24
  else if x.mask = 0 then defaultMask x else x.mask

/-- The build a node waits for has ended, or its table is declared (R171); never set for a node that names none. -/
def Ctx.buildDone (x : Ctx) (nd : Node) : Bool :=
  if nd.op = 0x13 then (x.node (fieldAt nd.param 0 2)).ended
  else if nd.op = 0x11 then
    match x.prog.nodes.find? (fun m => m.op == 0x10 && fieldAt m.param 0 1 == fieldAt nd.param 0 1) with
    | some b => (x.node b.id).ended
    | none => true
  else false

/-- The producer of an input port has released its last strip. -/
def Ctx.portEnded (x : Ctx) (n p : Nat) : Bool :=
  match x.prog.feed n p with
  | some e => (x.node e.src).ended
  | none => true

/-- The source descriptor of a SCAN. -/
def Prog.sourceOf (p : Prog) (n : Nat) : Source :=
  (p.sources.find? (fun s => s.node = n)).getD { kind := 1, cols := 0, node := n, rows := 0 }

/-- The sink of an EMIT, with its index. -/
def Prog.sinkOf (p : Prog) (n : Nat) : Nat × Sink :=
  ((p.sinks.zipIdx.find? (fun s => s.1.node = n)).map (fun s => (s.2, s.1))).getD
    (0, { kind := 1, sealHere := false, node := n, block := 131072, base := 0, len := 0 })

/-- SRC: a returned or received strip waits, or the SCAN's next strip can be formed (R171). A RUNNING context alone
starts new ones (R44). -/
def Ctx.hasSource (x : Ctx) (n : Nat) : Bool :=
  let y := x.node n
  let nd := x.prog.node n
  !y.rx.isEmpty || (x.state == 2 && match y.st with
    | .scan s =>
      let src := x.prog.sourceOf n
      if src.kind = 3 then decide (s.nextTake ≠ 0) else decide (s.row < scanEnd src nd.param)
    | _ => false)

/-- The event flags of a node (R171). -/
def Dev.flags (d : Dev) (c : Nat) (x : Ctx) (n : Nat) : Nat :=
  let nd := x.prog.node n
  let y := x.node n
  let bit (i : Nat) (b : Bool) : Nat := b2n b * 2 ^ i
  let inFlag (p : Nat) : Bool := if y.matching then (d.matchTag c x n).isSome else !(y.queues.getD p []).isEmpty
  ((List.range nd.ins).map (fun p => bit p (inFlag p) + bit (4 + p) (x.portEnded n p))).sum
  + ((List.range nd.outs).map (fun q => bit (8 + q) ((x.prog.outEdges n q).all (fun e => d.edgeRoom c x e none)))).sum
  + bit 12 (x.buildDone nd) + bit 13 (d.hasCredit c n) + bit 14 (x.hasSource n)
  + d.oget (O.READY_GATES c) % 256 * 2 ^ 24

/-- A node holds no waiting strip. -/
def NodeRun.drained (y : NodeRun) : Bool :=
  y.queues.all (fun l => l.isEmpty) && y.store.all (fun l => l.isEmpty) && y.rx.isEmpty

/-- A source has nothing more to give. -/
def Dev.sourceOver (d : Dev) (c : Nat) (x : Ctx) (n : Nat) : Bool :=
  let y := x.node n
  y.rx.isEmpty && (match y.st with
    | .scan s =>
      let src := x.prog.sourceOf n
      if src.kind = 3 then s.done3 else decide (scanEnd src (x.prog.node n).param ≤ s.row)
    | _ => d.net.rx.any (fun r => decide (r.ctx = c ∧ r.node = n) && r.inputOver))

/-- Whether a node has something to give a Pane: an output strip of its finish phase, in PARKING only one that is
re-dispatched (R44, R189); or an input that has not ended. A source whose mask omits SRC fires without waiting for it
(R174). -/
def Dev.hasWork (d : Dev) (c : Nat) (x : Ctx) (n : Nat) : Bool :=
  let nd := x.prog.node n
  let y := x.node n
  if y.finish then (y.out.head?).any (fun s => x.state == 2 || y.replay.contains s.tag)
  else if nd.source then
    x.hasSource n || (!bitAt (phaseMask nd false) 14 && x.state == 2 && !d.sourceOver c x n)
  else nd.op != 0x21 && !(y.drained && (List.range nd.ins).all (x.portEnded n))

/-- The mask of a node's phase is met (R172); in matching mode a consuming node needs a match, and its IN bits are taken as
set (R183). -/
def Dev.maskMet (d : Dev) (c : Nat) (x : Ctx) (n : Nat) (finish : Bool) : Bool :=
  let nd := x.prog.node n
  let y := x.node n
  let m := phaseMask nd finish
  let f := d.flags c x n
  if y.matching && !finish && nd.ins != 0 && nd.op != 0x21 then
    (d.matchTag c x n).isSome && decide (Nat.land (Nat.lor f 15) m = m)
  else decide (Nat.land f m = m)

/-- A node is ready (R172): its mask is met; an EMIT of a sealed pipeline waits while more than 4 MiB await digesting
(R331). -/
def Dev.nodeReady (d : Dev) (c : Nat) (x : Ctx) (n : Nat) : Bool :=
  let nd := x.prog.node n
  let y := x.node n
  x.live && !y.ended && d.hasWork c x n && d.maskMet c x n y.finish
  && !(nd.op == 0x40 && decide (4194304 < (x.sealing.waiting.map (fun w => w.2.length)).sum))

/-! ### Panes (R177 to R179) -/

/-- Pane store a node takes beyond its staging (R178). SORT_RUN takes the rest of the store. -/
def Dev.paneShare (d : Dev) (q : Nat × Nat) : Nat :=
  let x := d.ctx q.1
  let nd := x.prog.node q.2
  if nd.op = 0x23 then 131072 + d.aggShare
  else if nd.op = 0x20 then 2097152
  else if nd.op = 0x22 then
    131072 + min 1048576 (2 * fieldAt nd.param 4 4 * (entryWidth (fieldAt nd.param 1 1) + rowWidth 0 (x.prog.inSchema q.2 0)))
  else 131072

/-- A Pane has a strip of a node queued, running or staged. -/
def Dev.onPane (d : Dev) (p : Nat) (q : Nat × Nat) : Bool :=
  d.pipes.works.any (fun w => decide (w.pane = p ∧ (w.ctx, w.node) = q ∧ w.phase ≠ .pooled))

/-- The residents after admitting a node: the least recently granted idle residents are evicted until it fits; `none`
where it cannot (R178). The first number bounds the evictions. -/
def Dev.admitted (d : Dev) (p : Nat) (q : Nat × Nat) : Nat → List (Nat × Nat) → Option (List (Nat × Nat))
  | 0, _ => none
  | k + 1, l =>
    if l.length < 4 ∧ d.paneShare q + (l.map d.paneShare).sum ≤ 2097152 then some (l ++ [q])
    else
      match l.reverse.find? (fun r => !d.onPane p r) with
      | some r => d.admitted p q k (l.erase r)
      | none => none

/-- The residents of a Pane with a node among them, or `none`. -/
def Dev.residents (d : Dev) (p : Nat) (q : Nat × Nat) : Option (List (Nat × Nat)) :=
  let l := (d.pane p).resident
  if l.contains q then some l else d.admitted p q 5 l

/-- Strips of a node on a Pane in a phase. -/
def Dev.countOn (d : Dev) (p c n : Nat) (ph : WPhase) : Nat :=
  (d.pipes.works.filter (fun w => decide (w.pane = p ∧ w.ctx = c ∧ w.node = n ∧ w.phase = ph))).length

/-- Panes that hold a queued, running or staged strip of a context. -/
def Dev.panesHolding (d : Dev) (c : Nat) : List Nat :=
  ((d.pipes.works.filter (fun w => decide (w.ctx = c ∧ w.phase ≠ .pooled))).map Work.pane).eraseDups

/-- A Pane may take a strip of a node (R111, R175, R177, R179, R187, R188, R189). -/
def Dev.eligible (d : Dev) (c n : Nat) (x : Ctx) (p : Nat) : Bool :=
  let cas := paneCas p
  let held := d.panesHolding c
  let limit := (x.node n).applied.limit
  x.panes.contains p && bitAt (d.nodeMask c (x.prog.node n)) cas && !(d.pane p).fenced && d.casUp cas && !d.paneHeld p && !(d.pane p).draining
  && !d.fgetB (F.LT_CTL_HOLD cas) && !(d.latch cas).draining
  && decide (d.countOn p c n .queued < 2) && decide (d.countOn p c n .staged < 2)
  && (d.residents p (c, n)).isSome
  && (limit == 0 || held.contains p || decide (held.length < limit))

/-- A Pane holds no queued strip at all. -/
def Dev.paneIdle (d : Dev) (p : Nat) : Bool := d.pipes.works.all (fun w => decide (¬(w.pane = p ∧ w.phase = .queued)))

/-- Strips queued or running on a Pane. -/
def Dev.load (d : Dev) (p : Nat) : Nat :=
  (d.pipes.works.filter (fun w => decide (w.pane = p ∧ (w.phase = .queued ∨ w.phase = .running)))).length

/-- The least-loaded eligible Pane of a Casement, ties to the lowest. -/
def Dev.leastLoaded (d : Dev) (c n : Nat) (x : Ctx) (cas : Nat) : Option Nat :=
  let l := ((List.range 24).map (fun i => cas * 24 + i)).filter (d.eligible c n x)
  if l = [] then none else some (fewest d.load l)

/-- AFFINITY_WAIT within its range. -/
def Dev.affinityWait (d : Dev) : Nat := min 1000000 (d.oget O.AFFINITY_WAIT)
/-- CROSS_WAIT within its range, at least AFFINITY_WAIT. -/
def Dev.crossWait (d : Dev) : Nat := max d.affinityWait (min 1000000 (d.oget O.CROSS_WAIT))

/-- The Pane of a strip and the step of R177 that chose it: 1 affinity, 2 idle, 3 local, 4 cross; `again` for a strip that is
re-dispatched, which takes no affinity step (R186). -/
def Dev.choosePane (d : Dev) (c n : Nat) (x : Ctx) (again : Bool) : Option (Nat × Nat) :=
  let nd := x.prog.node n
  let y := x.node n
  let first := if d.fget (F.LT_CTL_RSV8 y.home) = 0xA5 ∧ again = false then
      y.affinity.find? (fun p => d.eligible c n x p && (!nd.bound || paneCas p == y.home)) else none
  match first with
  | some p => some (p, 1)
  | none =>
    match ((List.range 24).map (fun i => y.home * 24 + i)).find? (fun p => d.eligible c n x p && d.paneIdle p) with
    | some p => some (p, 2)
    | none =>
      match if y.affinityOver || d.affinityWait == 0 then d.leastLoaded c n x y.home else none with
      | some p => some (p, 3)
      | none =>
        if nd.bound || !(y.crossOver || d.crossWait == 0) then none
        else
          let near := [(y.home + 1) % 4, (y.home + 3) % 4].filterMap (d.leastLoaded c n x)
          let far := [(y.home + 2) % 4].filterMap (d.leastLoaded c n x)
          match near with
          | [a, b] => some (if d.load b < d.load a ∨ (d.load b = d.load a ∧ b < a) then b else a, 4)
          | a :: _ => some (a, 4)
          | [] => far.head?.map (fun p => (p, 4))

/-! ### The order of ready nodes (R176) -/

/-- A ready node: its level, context, place in readiness order and number. -/
structure Ready where
  level : Nat
  ctx : Nat
  turn : Nat
  since : Nat
  node : Nat
deriving DecidableEq, Repr

/-- Served before: the higher list, then the context next in rotation, then the earlier. -/
def Ready.before (a b : Ready) : Bool :=
  if a.level ≠ b.level then decide (b.level < a.level)
  else if a.turn ≠ b.turn then decide (a.turn < b.turn)
  else if a.since ≠ b.since then decide (a.since < b.since)
  else decide (a.node < b.node)

/-- Insert in serving order. -/
def readyInsert (a : Ready) : List Ready → List Ready
  | [] => [a]
  | b :: l => if a.before b then a :: b :: l else b :: readyInsert a l

/-- The ready nodes homed at a Casement in serving order. -/
def Dev.readyList (d : Dev) (cas : Nat) : List Ready :=
  let last := (d.latch cas).last
  let all := d.activeCtxs.flatMap (fun q =>
    (q.2.nodes.zipIdx.filter (fun y => decide (y.1.home = cas) && y.1.readyAt.isSome)).map (fun y =>
      ({ level := min 7 (d.priority q.1 + y.1.aged), ctx := q.1, turn := (q.1 + 255 - last) % 256
         since := y.1.readyAt.getD 0, node := y.2 } : Ready)))
  all.foldr readyInsert []

/-! ### STRIP_DISPATCH -/

/-- The tag of the EMPTY strip that a node reads where it fires on absent input (R174): a free value. -/
def Dev.absentTag (d : Dev) : Nat := (Config.freeValue d.free).toNat

/-- Take the strips of one firing from a node's ports: the head of each queue, or the matched set. Where an input strip is
absent the node reads an EMPTY strip in its place (R174). -/
def Dev.takeInputs (d : Dev) (c : Nat) (x : Ctx) (n : Nat) : NodeRun × List Strip × Bool :=
  let y := x.node n
  if y.matching then
    match d.matchTag c x n with
    | some t =>
      ({ y with store := y.store.map (fun l => match l.findIdx? (fun s => s.tag == t) with
          | some i => l.eraseIdx i
          | none => l) },
        y.store.filterMap (fun l => l.find? (fun s => s.tag == t)), false)
    | none => (y, [], false)
  else
    let heads := y.queues.map List.head?
    let tag := ((heads.filterMap id).head?.map Strip.tag).getD d.absentTag
    ({ y with queues := y.queues.map List.tail }, heads.map (fun h => h.getD { tag := tag }), heads.all Option.isNone)

/-- The dictionary numbers of a SCAN's columns: those of SCANs with lower numbers come first. -/
def Prog.dictBase (p : Prog) (n : Nat) : Nat :=
  ((p.nodes.filter (fun m => m.op == 0x01 && decide (m.id < n))).map (fun m => m.schema.length)).sum

/-- Form a SCAN's next strip in Casement k: the strip, the SCAN past it, and the status with which the pipeline fails (R66 to
R68). Rows before one that R67 refuses go out only as a strip that R38 cuts. -/
def Dev.scanStrip (d : Dev) (k c n : Nat) (x : Ctx) (s : ScanSt) : Option Strip × ScanSt × Option Nat :=
  let nd := x.prog.node n
  let src := x.prog.sourceOf n
  let nos := (List.range nd.schema.length).map (fun i => x.prog.dictBase n + i + 1)
  let tag := tagOf c n (s.seq * 256)
  if src.kind = 3 then
    let t := s.take3
    (some (denseStrip tag t.1 nos), t.2, none)
  else
    let cols := scanDir src nd.param nd.schema
    let want := min 4096 (scanEnd src nd.param - s.row)
    let all := d.memRows k cols want s.row
    let strips := stripsOf all
    let rows := strips.headD []
    let bad := cols.any (fun q => d.memPoison k q.1 q.2 s.row rows.length)
    if rows = [] ∨ (all.length < want ∧ strips.length ≤ 1) then (none, s, some 0x0202)
    else (some { (denseStrip tag rows nos) with poisoned := bad }, { s with seq := s.seq + 1, row := s.row + rows.length },
      none)

/-- A SCAN's fresh strip is read through the Sill of Casement k into Pane p: each column's slices, as declared streams (R67,
R194, R203). -/
def Dev.scanRead (d : Dev) (k c n p : Nat) (x : Ctx) (s : ScanSt) (rows : Nat) : Dev :=
  let nd := x.prog.node n
  let src := x.prog.sourceOf n
  let slices := (scanDir src nd.param nd.schema).flatMap (fun q =>
    d.memSlices k q.1 q.2 s.row rows (scanEnd src nd.param))
  slices.foldl (fun d q => d.stripRead k (1024 * c + n) p q.1 q.2.1 q.2.2) d

/-- What one firing of a node takes in Casement k: the node past it, the strips, a failing status, and whether it fired on absent
input alone (R174). -/
def Dev.fire (d : Dev) (k c n : Nat) (x : Ctx) : NodeRun × List Strip × Option Nat × Bool :=
  let nd := x.prog.node n
  let y := x.node n
  if y.finish then ({ y with out := y.out.tail }, y.out.take 1, none, false)
  else if nd.source then
    match y.rx, y.st with
    | s :: l, _ => ({ y with rx := l }, [s], none, false)
    | [], .scan s =>
      if x.hasSource n then
        let t := d.scanStrip k c n x s
        ({ y with st := .scan t.2.1 }, t.1.toList, t.2.2, false)
      else (y, [{ tag := d.absentTag }], none, true)
    | [], _ => (y, [{ tag := d.absentTag }], none, true)
  else
    let t := d.takeInputs c x n
    (t.1, t.2.1, none, t.2.2)

/-- The strip a node would fire on next awaits re-dispatch (R186). -/
def Dev.nextAgain (d : Dev) (c n : Nat) (x : Ctx) : Bool :=
  let y := x.node n
  decide (y.replay ≠ []) && ((d.fire y.home c n x).2.1.map Strip.tag).any y.replay.contains

end Sys2Proof.Machine
end

