-- ==== Sys2Proof/Machine/Run.lean ====
section
/-!
DEFINITION. What a node does with the strips of one dispatch (02 to 06), the chunks its state takes (R128, R163), and the
blocks an EMIT closes (R62).
-/

namespace Sys2Proof.Machine

/-! ### Chunks (R128, R139, R163) -/

/-- Bytes of a chunk. -/
def chunkBytes : Nat := 2 ^ 21

/-- Chunks an area of n bytes takes. -/
def chunksOf (n : Nat) : Nat := ceilDiv n chunkBytes

/-- The heap bytes of rows. -/
def heapBytes (rows : List Row) : Nat := (rows.map (fun r => (varBytes r).sum)).sum

/-- Row width B of a build (R128). -/
def hjWidth (body : Bytes) (s : List ColTy) : Nat := rowWidth 8 (keyTypes body s ++ pick (fieldAt body 0xC 4) s)

/-- The areas of an HJ_BUILD by number, in bytes: its stores and heaps, and once it has built its bucket arrays and overflow
areas. -/
def hjAreas (body : Bytes) (s : List ColTy) (st : HjSt) : List (Nat × Nat) :=
  st.stores.flatMap (fun p =>
    [(hjArea p.1 0, p.2.length * hjWidth body s), (hjArea p.1 1, heapBytes (p.2.map (fun r => r.key ++ r.payload)))])
  ++ st.index.flatMap (fun p => [(hjArea p.1 2, 128 * p.2.nb), (hjArea p.1 3, 128 * p.2.spare.length)])

/-- The areas of a SORT_RUN: runs, those being formed counted in, strip directory, and by Casement part row store and
heap. -/
def sortAreas (body : Bytes) (s : List ColTy) (st : SortSt) : List (Nat × Nat) :=
  [(0, ((st.runs.map (fun r => r.entries.length)).sum + (st.open_.map (fun p => p.2.length)).sum)
      * entryWidth (fieldAt body 1 1)), (1, 16 * st.dir.length)]
  ++ st.rows.flatMap (fun p =>
    [(2 + 2 * p.1, p.2.length * rowWidth 0 s), (3 + 2 * p.1, heapBytes (p.2.map Prod.snd))])

/-- The areas that chunks hold for a node: a SORT_MERGE's is that of the runs its pass writes, by pass. -/
def Dev.nodeAreas (d : Dev) (x : Ctx) (n : Nat) : List (Nat × Nat) :=
  let nd := x.prog.node n
  let s := x.prog.inSchema n 0
  match (x.node n).st with
  | .hjBuild h => hjAreas nd.param s h
  | .sortRun st => sortAreas nd.param s st
  | .merge m =>
    if m.last then []
    else [(m.pass, (m.runs.map (fun r => r.entries.length)).sum * entryWidth (fieldAt (x.prog.node m.src).param 1 1))]
  | .agg a =>
    (List.range (2 ^ a.bits d)).map (fun p =>
      (p, tableBytes nd.param s ((a.spilled.map Prod.snd).filter (fun g => topBits g.hash (a.bits d) == p))))
  | _ => []

/-- Chunks in use by all contexts, near or far, of the nodes a test picks. -/
def Dev.chunksUsed (d : Dev) (far : Bool) (p : Node → Bool) : Nat :=
  (d.pipes.ctxs.map (fun q => ((q.2.prog.nodes.zip q.2.nodes).map (fun e =>
    if p e.1 then ((e.2.areas.flatMap Prod.snd).filter (fun k => far == decide (2 ^ 32 ≤ k))).length else 0)).sum)).sum

/-- Bytes of loaded images in the pipeline region. -/
def Dev.imageBytes (d : Dev) : Nat := (d.pipes.ctxs.map (fun q => q.2.image.length)).sum

/-- The numbers of all chunks in use. -/
def Dev.chunkList (d : Dev) : List Nat :=
  d.pipes.ctxs.flatMap (fun q => q.2.nodes.flatMap (fun y => y.areas.flatMap Prod.snd))

/-- Where images lie in the pipeline region: first byte and length. -/
def Dev.imageSpans (d : Dev) : List (Nat × Nat) :=
  d.pipes.ctxs.filterMap (fun q => if q.2.image = [] then none else some (q.2.imageAt, q.2.image.length))

/-- The lowest free chunk of the pipeline region that holds no image. -/
def Dev.freeNear (d : Dev) : Option Nat :=
  let used := d.chunkList
  let spans := d.imageSpans
  (List.range (used.length + (spans.map (fun p => p.2 / chunkBytes + 2)).sum + 1)).find? (fun k =>
    decide ((k + 1) * chunkBytes ≤ d.mem.region) && !used.contains k
    && spans.all (fun p => decide (p.1 + p.2 ≤ k * chunkBytes ∨ (k + 1) * chunkBytes ≤ p.1)))

/-- The lowest free chunk of far memory. -/
def Dev.freeFar (d : Dev) : Nat :=
  let used := d.chunkList
  ((List.range (used.length + 1)).find? (fun k => !used.contains (2 ^ 32 + k))).getD used.length

/-- HJ_NEAR_LIMIT in effect: at most the pipeline region less images and the receive pool. -/
def Dev.nearLimit (d : Dev) : Nat :=
  min (d.oget O.HJ_NEAR_LIMIT) (d.mem.region - d.imageBytes - d.oget O.RX_POOL)

/-- HJ_FAR_LIMIT in effect: at most the unreserved far memory. -/
def Dev.farLimit (d : Dev) : Nat := min (d.oget O.HJ_FAR_LIMIT) (d.farBytes - d.mem.reserve)

/-- Give an area of a node one chunk more, near memory first; `none` where no limit leaves room (R128). -/
def Dev.addChunk (d : Dev) (c n key : Nat) : Option Dev :=
  let near := if d.chunksUsed false (fun _ => true) < d.nearLimit / chunkBytes then d.freeNear else none
  let far := if d.chunksUsed true (fun _ => true) < d.farLimit / chunkBytes then some (2 ^ 32 + d.freeFar) else none
  (near.or far).map (fun k =>
    let y := (d.ctx c).node n
    d.setNode c n { y with areas := Sparse.set [] y.areas key (Sparse.get [] y.areas key ++ [k]) })

/-- Give an area k chunks more. -/
def Dev.addChunks (d : Dev) (c n key : Nat) : Nat → Option Dev
  | 0 => some d
  | k + 1 => (d.addChunk c n key).bind (fun d => d.addChunks c n key k)

/-- Bring some areas of a node to their sizes in bytes. -/
def Dev.growAreas (d : Dev) (c n : Nat) : List (Nat × Nat) → Option Dev
  | [] => some d
  | a :: as =>
    (d.addChunks c n a.1 (chunksOf a.2 - (Sparse.get [] ((d.ctx c).node n).areas a.1).length)).bind
      (fun d => d.growAreas c n as)

/-- Take the chunks a node's state has come to need; `none` where no limit leaves room (R128). A chunk never moves. -/
def Dev.takeChunks (d : Dev) (c n : Nat) : Option Dev := d.growAreas c n (d.nodeAreas (d.ctx c) n)

/-- An area of a node gives up its chunks. -/
def Dev.freeArea (d : Dev) (c n key : Nat) : Dev :=
  let y := (d.ctx c).node n
  d.setNode c n { y with areas := Sparse.set [] y.areas key [] }

/-- The chunks of some areas of a node hold poison. -/
def Dev.anyPoison (d : Dev) (x : Ctx) (n : Nat) (keys : List (Nat × Nat)) : Bool :=
  keys.any (fun k => d.areaPoison (x.node n).areas k.1 0 k.2)

/-! ### Operators on strips -/

/-- A node's state at PIPE_RUN. -/
def freshSt (x : Prog) (nd : Node) : OpSt :=
  if nd.op = 0x01 then
    let src := x.sourceOf nd.id
    .scan { row := if src.kind = 3 then 0 else fieldAt nd.param 8 8
            cols := if src.kind = 3 then (setBits (fieldAt nd.param 4 4) 32).map (fun c =>
              { extents := src.extents.filter (fun e => e.col = c)
                left := let k := fieldAt nd.param 0x10 8; if k = 0 then none else some k }) else [] }
  else if nd.op = 0x10 then .lvBuild [] 0
  else if nd.op = 0x12 then .hjBuild {}
  else if nd.outerProbe then .probe []
  else if nd.op = 0x20 then .sortRun {}
  else if nd.op = 0x22 then .topk []
  else if nd.op = 0x23 then .agg {}
  else if nd.op = 0x24 then .sortAgg none [] 0
  else if nd.op = 0x40 then .emit {}
  else if nd.op = 0x30 then .shufOut []
  else .none

/-- The build an HJ_PROBE reads. -/
def Ctx.built (x : Ctx) (c : Nat) (nd : Node) : Built :=
  let k := fieldAt nd.param 0 2
  let b := x.prog.node k
  { ctx := c, body := b.param, keys := keyTypes b.param (x.prog.inSchema k 0), cas := x.casements
    width := hjWidth b.param (x.prog.inSchema k 0), areas := (x.node k).areas
    st := match (x.node k).st with
      | .hjBuild h => h
      | _ => {} }

/-- DECODE, FILTER and COMPUTE of a work's strips. -/
def Dev.runPlain (d : Dev) (c : Nat) (x : Ctx) (nd : Node) (a : Strip) (b : Option Strip) : Made :=
  let s0 := x.prog.inSchema nd.id 0
  if nd.op = 0x02 then
    let r := decodeStrip x.dicts s0 (fieldAt nd.param 0 4) a
    { dev := d.ocount (O.DICT_RANGE_NULLS c) r.2, st := .none, outs := [splitStrip r.1] }
  else if nd.op = 0x03 then
    let r := filterStrip x.dicts x.prog.pool nd.param s0 a
    { dev := d, st := .none, outs := [[r.1], [r.2]] }
  else
    let r := computeStrip x.dicts x.prog.pool nd.param s0 (x.prog.inSchema nd.id 1) a b { free := d.free }
    { dev := d.countNulls c r.2, st := .none, outs := [splitStrip r.1] }

/-- A LOOKUP or HJ_PROBE reads a build into which poisoned values went (R90). -/
def Ctx.readsTainted (x : Ctx) (nd : Node) : Bool :=
  if nd.op = 0x13 then (x.node (fieldAt nd.param 0 2)).tainted
  else if nd.op = 0x11 then x.prog.nodes.any (fun m =>
    m.op == 0x10 && fieldAt m.param 0 1 == fieldAt nd.param 0 1 && (x.node m.id).tainted)
  else false

/-- A range of a merge pass reads its runs, and in the last pass their rows: poison there fails it (R162). -/
def Dev.mergePoison (d : Dev) (x : Ctx) (n : Nat) (m : MergeSt) : Bool :=
  let rb := (x.prog.node m.src).param
  let bytes := (m.runs.map (fun r => r.entries.length)).sum * entryWidth (fieldAt rb 1 1)
  (if m.pass = 0 then d.anyPoison x m.src [(0, bytes)] else d.anyPoison x n [(m.pass - 1, bytes)])
  || (m.last && match (x.node m.src).st with
      | .sortRun st => d.anyPoison x m.src ((sortAreas rb (x.prog.inSchema m.src 0) st).drop 1)
      | _ => false)

/-- A range of a merge pass (R147, R148): in the last pass its strips. -/
def Dev.runRange (d : Dev) (c : Nat) (x : Ctx) (n : Nat) (m : MergeSt) (i : Nat) : Made :=
  let st : OpSt := .merge { m with left := m.left - 1 }
  if d.mergePoison x n m then { dev := d, st := st, fail := some 0x0703 }
  else
    let src := x.node m.src
    let rows := match src.st with
      | .sortRun st => st
      | _ => {}
    { dev := d, st := st
      outs := [if m.last then m.rangeStrips c n (x.prog.node m.src).param rows src.dicts i else []] }

/-- A step of a node's finish phase: a range of a merge, a partition of a HASH_AGG, or one of the strips it releases. -/
def Dev.runFinish (d : Dev) (c : Nat) (x : Ctx) (n : Nat) (a : Strip) : Made :=
  match (x.node n).st with
  | .merge m => d.runRange c x n m (tagCount a.tag)
  | .agg g =>
    let p := tagCount a.tag
    let body := (x.prog.node n).param
    let s := x.prog.inSchema n 0
    let spilled := (g.spilled.map Prod.snd).filter (fun k => topBits k.hash (g.bits d) == p)
    if d.anyPoison x n [(p, tableBytes body s spilled)] then { dev := d, st := .agg g, fail := some 0x0703 }
    else d.runPartition c n body s (x.node n).dicts g p
  | st => { dev := d, st := st, outs := [[a]] }

/-- What a node's work on its strips comes to. -/
def Dev.runNode (d : Dev) (w : Work) : Made :=
  let x := d.ctx w.ctx
  let nd := x.prog.node w.node
  let s := x.prog.inSchema w.node 0
  match w.ins with
  | [] => { dev := d, st := (x.node w.node).st }
  | a :: rest =>
    if w.finish then d.runFinish w.ctx x w.node a
    else if nd.source then { dev := d, st := (x.node w.node).st, outs := [[a]] }
    else if (a :: rest).any (fun z => z.poisoned && decide (z.liveCount ≠ 0)) || x.readsTainted nd then
      { dev := d, st := (x.node w.node).st, fail := some 0x0703 }
    else
      match (x.node w.node).st with
      | .lvBuild es rows => d.runLvBuild nd.param s es rows a
      | .hjBuild h => d.runHjBuild nd.param s x.casements.length h a
      | .probe m => d.runProbe (x.built w.ctx nd) (paneCas w.pane) nd m a
      | .sortRun st => d.runSortRun w.ctx w.node w.pane nd.param s st a
      | .merge m => { dev := d, st := .merge m }
      | .topk parts => d.runTopk (paneCas w.pane) nd.param s parts a
      | .agg g => d.runAgg w.pane nd.param s g a
      | .sortAgg open_ done seq => d.runSortAgg w.ctx w.node nd.param s open_ done seq a
      | .shufOut st => d.runShuffleOut w.ctx w.node nd.param s st a
      | .emit e => { dev := d, st := .emit { e with rows := e.rows ++ (a.liveRows.map Prod.snd)
                                                    emitted := e.emitted + a.liveCount } }
      | .scan _ => { dev := d, st := (x.node w.node).st }
      | .none =>
        if nd.op = 0x11 then d.runLookup (paneCas w.pane) (d.tableOf w.ctx nd) nd s (x.node w.node).applied w.verify a
        else if nd.op = 0x13 then d.runProbe (x.built w.ctx nd) (paneCas w.pane) nd [] a
        else d.runPlain w.ctx x nd a rest.head?

/-! ### EMIT (R62, R331) -/

/-- Slots of a sink. -/
def Sink.slots (k : Sink) : Nat := if k.block = 0 then 0 else k.len / k.block

/-- Send a block to a slot of a sink: its bytes, then its close word; a sealed pipeline's block waits to be digested. -/
def Dev.sendBlock (d : Dev) (c sink seq : Nat) (k : Sink) (body : Bytes) : Dev :=
  let x := d.ctx c
  let a := k.base + seq * k.block
  let dst (o : Nat) : EDst := if k.kind = 1 then .host (a + o) else .eng (a + o)
  let work := piecesOf (.imm body) (dst 0) body.length
    ++ [{ src := .imm (leBytes 4 x.runTag ++ leBytes 4 seq), dst := dst (k.block - 8), len := 8, close := true }]
  let d := d.issueList poolHost (.emit c sink) c work
  if x.prog.sealed then
    d.setCtx c { x with sealing := { x.sealing with
      waiting := x.sealing.waiting ++ [(sink, body.take (32 + fieldAt body 0x10 4))] } }
  else d

/-- Close one block of rows; `none` where the sink has no slot left. -/
def Dev.closeBlock (d : Dev) (c n : Nat) (rows : List Row) (last : Bool) (e : EmitSt) : Option (Dev × EmitSt) :=
  let x := d.ctx c
  let k := x.prog.sinkOf n
  if k.2.slots ≤ e.seq then none
  else
    let s := x.prog.inSchema n 0
    let b := d.resultBlock c k.1 e.seq (b2n last + 2 * b2n x.skipped) k.2.block s rows
    some (b.2.sendBlock c k.1 e.seq k.2 b.1, { e with seq := e.seq + 1, closed := e.closed + 1 })

/-- Close blocks in order, up to the last slot of the sink; whether all were closed. -/
def Dev.closeBlocks (d : Dev) (c n : Nat) : List (List Row) → EmitSt → Dev × EmitSt × Bool
  | [], e => (d, e, true)
  | b :: bs, e =>
    match d.closeBlock c n b false e with
    | some v => v.1.closeBlocks c n bs v.2
    | none => (d, e, false)

/-- The rows an EMIT has taken go into blocks: the state of the EMIT afterwards, and a failing status. -/
def Dev.emitRows (d : Dev) (c n : Nat) (e : EmitSt) : Dev × EmitSt × Option Nat :=
  let x := d.ctx c
  let k := x.prog.sinkOf n
  let s := x.prog.inSchema n 0
  let cut := cutBlocks k.2.block s e.rows [] (s.map (fun _ => 0))
  let v := d.closeBlocks c n cut.1 { e with rows := cut.2.1 }
  if cut.2.2 ∨ v.2.2 = false ∨ (v.2.1.rows ≠ [] ∧ k.2.slots ≤ v.2.1.seq) then (v.1, v.2.1, some 0x0202)
  else (v.1, v.2.1, none)

end Sys2Proof.Machine
end

