-- ==== Sys2Proof/Machine/Pipe.lean ====
section
/-!
DEFINITION. Pipelines under way: dispatch (R176 to R179), node strip boundaries (R41, R90, R175, R478), the ends of nodes
and of contexts (R44 to R52, R127, R172), and what one event after another brings about by itself.
-/

namespace Sys2Proof.Machine

/-! ### How a run ends (R47 to R50, R269, R479) -/

/-- A Hinge list that carries results of a context, or blocks for its SCANs. -/
def Owner.worksFor (o : Owner) (c : Nat) : Bool :=
  match o with
  | .emit k _ => k == c
  | .scan r => match r.owner with
    | .scan k _ => k == c
    | _ => false
  | _ => false

/-- Transfers of a context are under way. -/
def Dev.emitting (d : Dev) (c : Nat) : Bool :=
  d.hinge.chans.any (fun p => p.2.lists.any (fun l => l.owner.worksFor c))

/-- A context's transfers stop (R269). -/
def Dev.cutResults (d : Dev) (c st : Nat) : Dev := d.cutLists (fun o => o.worksFor c) st

/-- The nodes of a context stop: strips that wait or are staged are discarded, and with them the blocks asked for and the
frames not sent; a strip that runs is dropped when it finishes (R45). -/
def Dev.stopNodes (d : Dev) (c : Nat) : Dev :=
  let mine (o : BOwner) : Bool := match o with
    | .scan k _ => k == c
    | _ => false
  let d : Dev := { d with pipes := { d.pipes with
    works := d.pipes.works.filter (fun (w : Work) => decide (w.ctx ≠ c) || decide (w.phase = .running)) } }
  let d : Dev := ((d.bifold.jobs.map Job.owner).filter mine).foldl (fun d o => d.dropJob o) d
  let x := (d.dropFlows c).ctx c
  (d.dropFlows c).setCtx c { x with nodes := x.nodes.map (fun y => { home := y.home, areas := y.areas }) }

/-- The members an engine sends CANCEL to: relative ranks 16 d + 1 to 16 d + 16 of the tree the originator roots
(R371). -/
def treeTargets (members : List Nat) (origin self : Nat) : List Nat :=
  let m := members.length
  if members.contains origin = false ∨ members.contains self = false then []
  else
    let o := members.idxOf origin
    let r := (members.idxOf self + m - o) % m
    (List.range 16).filterMap (fun i =>
      let k := 16 * r + 1 + i
      if k < m then some (members.getD ((o + k) % m) 0) else none)

/-- A FABRIC context that is cancelled or fails owes its members a cancel (R371). -/
def Dev.oweCancel (d : Dev) (x : Ctx) : Dev :=
  if x.prog.fabric then
    { d with net := { d.net with cancels := d.net.cancels ++
      [({ query := x.prog.query, origin := d.nodeId, epoch := x.epoch }, treeTargets x.members d.nodeId d.nodeId)] } }
  else d

/-- A running pipeline fails with a status; the first cause fixes it (R50, R375). -/
def Dev.failCtx (d : Dev) (c st : Nat) : Dev :=
  let x := d.ctx c
  if x.active = false ∨ x.ending.isSome = true then d
  else
    let d := (d.stopNodes c).oweCancel x
    d.setCtx c { d.ctx c with ending := some st }

/-- The pipelines of the nodes that have read poison fail with POISON_CONSUMED (R211). -/
def Dev.failReaders (v : Dev × List Nat) : Dev := v.2.foldl (fun d o => d.failCtx (o / 1024) 0x0703) v.1

/-- A cancel of a context in RUNNING, PARKING or PARKED ends it with a status; a parked one is FAILED at once and its
space freed (R47, R269). Where a flush came first the cancel adds nothing (R270). -/
def Dev.cancelCtx (d : Dev) (c st : Nat) : Dev :=
  let x := d.ctx c
  if x.state = 5 then
    d.setCtx c { x with state := 7, partialRun := true, status := st, parked := 0, tables := [], nodes := [], dicts := []
                        parkBad := false, sealing := {} }
  else if (x.state = 2 ∨ x.state = 4) ∧ x.ending ≠ some 0x0401 then
    let d := (d.failCtx c st).cutResults c st
    d.setCtx c { d.ctx c with state := 3 }
  else d

/-- The result of a pipeline command other than PIPE_LOAD (R49). -/
def Ctx.result (x : Ctx) (c : Nat) (noEffect sealed : Bool) : Bytes :=
  leBytes 2 c ++ leBytes 1 x.state ++ leBytes 1 (b2n x.partialRun + 2 * b2n noEffect + 4 * b2n sealed)
  ++ leBytes 4 x.blocks ++ leBytes 8 x.stripsDone

/-- End a pipeline command with the context as it stands. -/
def Dev.pipeFinish (d : Dev) (id c st : Nat) (noEffect sealed : Bool) : Dev :=
  d.finish id st ((d.ctx c).result c noEffect sealed) 0

/-- A context becomes FREE: the tables it owns are unbound (R108). -/
def Dev.freeCtx (d : Dev) (c : Nat) : Dev :=
  let mine := (d.louvre.tables.filter (fun p => p.2.bind LvTable.owner == some c)).map Prod.fst
  (mine.foldl (fun d t => d.lvUnbind t) d).setCtx c {}

/-- No Pane holds a node of the context resident any more, and its prefetch streams go (R203). -/
def Dev.evictCtx (d : Dev) (c : Nat) : Dev :=
  let d := d.releaseAllStreams (fun o => o / 1024 == c)
  { d with pipes := { d.pipes with panes := d.pipes.panes.filterMap (fun (p : Nat × Pane) =>
      let y : Pane := { p.2 with resident := p.2.resident.filter (fun r => r.1 != c) }
      if y = ({} : Pane) then none else some (p.1, y)) } }

/-- The commands that waited for a context end with it: a PIPE_PARK with the run's status, or without effect where the
run was DONE; a PIPE_UNLOAD frees the context (R47, R50). -/
def Dev.endWaiters (d : Dev) (c st : Nat) : List Nat → Dev
  | [] => d
  | id :: rest =>
    let d := match d.cmd id with
      | none => d
      | some k =>
        if k.opcode = opPipePark then d.pipeFinish id c st (decide ((d.ctx c).state = 6)) false
        else if k.opcode = opPipeUnload then
          let r := { d.ctx c with state := 0 }
          (d.freeCtx c).finish id 0 (r.result c false false) 0
        else d.pipeFinish id c 0 false false
    d.endWaiters c st rest

/-- A context leaves RUNNING, CANCELLING or PARKING for DONE or FAILED: its memory is released and its commands
complete. -/
def Dev.closeCtx (d : Dev) (c state st : Nat) (part sealed : Bool) : Dev :=
  let x := d.ctx c
  let d := (d.dropFlows c).evictCtx c
  let d := d.setCtx c { x with state := state, partialRun := part, status := st, runCmd := none, waiters := []
                               ending := none, nodes := [], dicts := []
                               sealing := if state = 6 then x.sealing else {} }
  let d := d.lvSweep
  let d := match x.runCmd with
    | some id => d.pipeFinish id c st false sealed
    | none => d
  d.endWaiters c st x.waiters

/-! ### STRIP_DISPATCH -/

/-- A Pane with idle lanes is granted its next strip: the higher DISPATCH_PRIORITY first, then the resident node granted
least recently, then the strip dispatched first (R43, R178). A node whose staging places are full is granted none
(R175). A Pane has affinity to the nodes it has run (R177). -/
def Dev.grant (d : Dev) (p : Nat) : Dev :=
  let here := d.pipes.works.filter (fun w => decide (w.pane = p))
  let wait := here.filter (fun w => decide (w.phase = .queued ∧ d.countOn p w.ctx w.node .staged < 2))
  let prio (w : Work) : Nat := ((d.ctx w.ctx).node w.node).applied.prio
  if here.any (fun w => decide (w.phase = .running)) then d
  else
    let top := (wait.map prio).foldl max 0
    let turn := ((d.pane p).resident.reverse).find? (fun r =>
      wait.any (fun w => decide ((w.ctx, w.node) = r ∧ prio w = top)))
    match turn.bind (fun r => wait.find? (fun w => decide ((w.ctx, w.node) = r))) with
    | none => d
    | some w =>
      let x := d.pane p
      let d := d.setPane p { x with resident := (w.ctx, w.node) :: x.resident.erase (w.ctx, w.node), rerun := false }
      let y := (d.ctx w.ctx).node w.node
      let d := d.setNode w.ctx w.node { y with affinity := p :: y.affinity.filter (fun q => decide (q ≠ p)) }
      { d with pipes := { d.pipes with
          works := { w with phase := .running } :: d.pipes.works.erase w } }

/-- Give the strip one firing of a node takes to a Pane. -/
def Dev.dispatchTo (d : Dev) (cas c n p step : Nat) : Dev :=
  let x := d.ctx c
  let f := d.fire (paneCas p) c n x
  let d := match (x.node n).st, f.1.st, f.2.1 with
    | .scan s, .scan t, [w] =>
      if (x.prog.sourceOf n).kind ≠ 3 ∧ s.seq < t.seq then d.scanRead (paneCas p) c n p x s w.rows.length else d
    | _, _, _ => d
  match f.2.2.1 with
  | some st => d.failCtx c st
  | none =>
    let y := f.1
    let d := if f.2.2.2 then (d.draw).2 else d
    let again := (f.2.1.map Strip.tag).any y.replay.contains
    let d := d.setNode c n { y with
      aged := 0, affinityOver := false, crossOver := false, readyAt := none
      replay := y.replay.filter (fun t => !(f.2.1.map Strip.tag).contains t)
      applied := { y.applied with prio := d.priority c } }
    let d := match d.residents p (c, n) with
      | some l =>
        let out := (d.pane p).resident.filter (fun r => !l.contains r)
        let d := if out = [] then d else d.releaseStreams (paneCas p) (fun o => out.contains (o / 1024, o % 1024))
        d.setPane p { d.pane p with resident := l }
      | none => d
    let w : Work := { ctx := c, node := n, pane := p, ins := f.2.1, finish := (x.node n).finish, again := again }
    let d := { d with pipes := { d.pipes with works := d.pipes.works ++ [w] } }
    let d := d.setLatch cas { d.latch cas with last := c }
    let d := (d.fcount64 (F.LT_DISPATCH_LO_COUNT cas) (F.LT_DISPATCH_HI_COUNT cas) 1).ocount O.DISPATCHES 1
    let d := d.ocount (if step = 1 then O.AFFINITY_DISPATCHES else if step = 4 then O.CROSS_DISPATCHES
      else O.LOCAL_DISPATCHES) 1
    let d := if again then (d.fcount (F.LT_REDISPATCH_COUNT cas) 1).ocount O.REDISPATCHED 1 else d
    d.grant p

/-- STRIP_DISPATCH: the Latch of a Casement makes one dispatch decision (R176, R177, R189). -/
def Dev.stripDispatch (d : Dev) (cas : Nat) : Dev :=
  if d.halted ∨ d.fgetB (F.LT_CTL_HOLD cas) = true ∨ (d.latch cas).draining = true then d
  else
    match (d.readyList cas).findSome? (fun r =>
        (d.choosePane r.ctx r.node (d.ctx r.ctx) (d.nextAgain r.ctx r.node (d.ctx r.ctx))).map (fun p => (r, p))) with
    | none => d
    | some (r, p) => d.dispatchTo cas r.ctx r.node p.1 p.2

/-! ### Committing a strip (R41, R175, R478) -/

/-- A work's outputs go to edges: not those of a consume phase whose node emits only at its end. -/
def Work.emits (w : Work) (nd : Node) : Bool := w.finish || !nd.parted || nd.op == 0x24

/-- The input and output index at which a splitter stands in a strip's source count. -/
def NodeRun.splitAt (y : NodeRun) (tag : Nat) : Nat × Nat := Sparse.get (0, 0) y.splits (tag / 256)

/-- A work whose strip is next in its source count (R478). -/
def Ctx.splitTurn (x : Ctx) (w : Work) : Bool :=
  let nd := x.prog.node w.node
  w.finish || !nd.splitter || w.ins.all (fun s => tagIndex s.tag == ((x.node w.node).splitAt s.tag).1)

/-- Edges a node's outputs feed. -/
def Prog.allOut (p : Prog) (n : Nat) : List Edge := p.edges.filter (fun e => e.src = n)

/-- The edges a work's outputs go on. -/
def Prog.outsOf (p : Prog) (w : Work) : List Edge := if w.emits (p.node w.node) then p.allOut w.node else []

/-- A finished strip's turn to go on has come: in tag order where a consumer in flag mode is ORDERED, or where its node's
state depends on the order, and among the strips its node splits (R175, R181, R478). -/
def Dev.released (d : Dev) (x : Ctx) (w : Work) : Bool :=
  let nd := x.prog.node w.node
  let y := x.node w.node
  let order := (nd.ordered && nd.op != 0x04) || (w.finish && nd.op == 0x23)
    || (x.prog.outsOf w).any (fun e => (x.prog.node e.dst).ordered && !(x.node e.dst).matching)
  let t := (w.ins.head?.map Strip.tag).getD 0
  let key := x.prog.tagKey t
  let first := if w.finish then
      !(d.worksOf w.ctx w.node).any (fun v => v.finish && v.ins.any (fun s => decide (s.tag < t)))
      && y.out.all (fun s => decide (t < s.tag))
    else !d.inputBelow w.ctx x w.node key
  decide (y.hold = []) && (d.worksOf w.ctx w.node).all (fun v => v.made.isNone) && x.splitTurn w && (!order || first)

/-- A finished strip's outputs may go to the successors now: its turn has come, and unless they are still to be numbered its
edges have room. -/
def Dev.mayCommit (d : Dev) (x : Ctx) (w : Work) : Bool :=
  let t := (w.ins.head?.map Strip.tag).getD 0
  d.released x w
  && (((x.prog.node w.node).splitter && !w.finish) || (x.prog.outsOf w).all (fun e => d.edgeRoom w.ctx x e (some t)))

/-- Number a splitter's outputs on port 0: consecutive indexes of the source count, an EMPTY token where there is none;
`none` past 256 of them (R478). -/
def splitNumber (next tag : Nat) (outs : List Strip) : Option (List Strip) :=
  let outs := if outs = [] then [{ tag := tag }] else outs
  if 256 < next + outs.length then none
  else some (outs.zipIdx.map (fun p => { p.1 with tag := tag / 256 * 256 + next + p.2 }))

/-- Output strips by port, those of ports without an edge left out. -/
def Prog.portStrips (p : Prog) (n : Nat) (outs : List (List Strip)) : List (Nat × Strip) :=
  outs.zipIdx.flatMap (fun q => if p.outEdges n q.2 = [] then [] else q.1.map (fun s => (q.2, s)))

/-- The effect of a boundary on its node's mode: FORCE_MATCH takes hold, or flag mode returns (R181, R185). -/
def Dev.modeAt (d : Dev) (c n : Nat) : Dev :=
  let x := d.ctx c
  let y := x.node n
  if d.forced y then d.toMatching c n
  else if d.mayReturn c x n then
    d.setNode c n { y with matching := false }
  else d

/-- What a source's boundary adds: a strip read, and for SHUFFLE_IN its credit (R49, R362). -/
def Dev.sourceDone (d : Dev) (w : Work) : Dev :=
  let x := d.ctx w.ctx
  let d := d.setCtx w.ctx { x with stripsDone := x.stripsDone + 1 }
  if (x.prog.node w.node).op = 0x31 then
    w.ins.foldl (fun d s => d.releaseCredit w.ctx w.node (tagCount s.tag)) d
  else d

/-- An EMIT's boundary: its rows stand in result blocks. -/
def Dev.emitDone (d : Dev) (w : Work) (rows : Nat) : Dev :=
  match ((d.ctx w.ctx).node w.node).st with
  | .emit e =>
    let v := d.emitRows w.ctx w.node e
    let x := v.1.ctx w.ctx
    let d := v.1.setCtx w.ctx ({ x with rowsEmitted := x.rowsEmitted + rows }.setNode w.node
      { x.node w.node with st := .emit v.2.1 })
    match v.2.2 with
    | some st => d.failCtx w.ctx st
    | none => d
  | _ => d

/-- Replace a work. -/
def Dev.setWork (d : Dev) (w v : Work) : Dev :=
  { d with pipes := { d.pipes with works := d.pipes.works.map (fun z => if z = w then v else z) } }

/-- A LOOKUP's boundary: it goes over to the new copy of its table, and the banks of its table take their SHADOW_SEARCH bits
(R103, R116). -/
def Dev.lookupBoundary (d : Dev) (t : Nat) : Dev :=
  { d with louvre := { d.louvre with banks := d.louvre.banks.map (fun p =>
      if (p.2.table.map (fun k => k % 64)) = some t then
        (p.1, { p.2 with shadow := bitAt (d.fget (F.LV_CTL_SHADOW_SEARCH (p.1 / 4))) (p.1 % 4) })
      else p) } }

/-- A node takes the values that change at its boundary (R45), and a LOOKUP what its table's banks bring. -/
def Dev.applyAt (d : Dev) (c n : Nat) : Dev :=
  let x := d.ctx c
  let nd := x.prog.node n
  let d := d.setNode c n { x.node n with applied := d.appliedNow c, lvUse := none }
  if nd.op = 0x11 then (d.lookupBoundary (fieldAt nd.param 0 1)).lvSweep else d

/-- A strip's outputs are made and numbered: they go to the successors, and its node's work takes effect at the boundary. -/
def Dev.commit (d : Dev) (w : Work) : Dev :=
  let m := d.runNode w
  match m.fail with
  | some st => m.dev.failCtx w.ctx st
  | none =>
    let d := m.dev
    if m.again then { d with pipes := { d.pipes with works := d.pipes.works.map (fun v =>
      if v = w then { v with verify := none } else v) } }
    else
      let x := d.ctx w.ctx
      let nd := x.prog.node w.node
      let y := x.node w.node
      let t := (w.ins.head?.map Strip.tag).getD 0
      let at_ := y.splitAt t
      let split := nd.splitter && !w.finish && !w.ins.isEmpty
      let outs := m.outs.map (fun l => l.map (fun s => { s with poisoned := s.poisoned || w.poison || y.tainted }))
      match if split then (splitNumber at_.2 t (outs.headD [])).map (fun l => l :: outs.tail) else some outs with
      | none => d.failCtx w.ctx 0x0202
      | some outs =>
        (d.setNode w.ctx w.node { y with hold := x.prog.portStrips w.node outs }).setWork w
          { w with made := some (m.st, if split then (outs.headD []).length else 0) }

/-- A node enters its finish phase with the strips it will release. -/
def Dev.enterFinish (d : Dev) (c n : Nat) (out : List Strip) : Dev :=
  let y := (d.ctx c).node n
  d.setNode c n { y with finish := true, out := out, queues := y.queues.map (fun _ => [])
                         store := y.store.map (fun _ => []) }

/-- A pass of a merge begins: its ranges wait to be given to Panes, and the runs that a pass before the last writes have
their room (R147, R148, R163). -/
def Dev.startPass (d : Dev) (c n : Nat) (m : MergeSt) : Dev :=
  let d := (d.enterFinish c n (m.tokens c n)).setNode c n
    { ((d.enterFinish c n (m.tokens c n)).ctx c).node n with st := .merge m }
  match d.takeChunks c n with
  | none => d.failCtx c 0x0301
  | some d => d

/-- After the last range of a merge pass: the pass is counted, with the comparisons of full keys in it; one before the last
leaves its runs, frees those it has consumed, and the next pass begins (R143, R147). -/
def Dev.rangeDone (d : Dev) (c n : Nat) : Dev :=
  let x := d.ctx c
  match (x.node n).st with
  | .merge m =>
    if m.left ≠ 0 ∨ m.ranges = [] then d
    else
      let body := (x.prog.node n).param
      let e := entryWidth (fieldAt (x.prog.node m.src).param 1 1)
      let merged := (List.range m.groups).map m.merged
      let d := merged.foldl (fun (d : Dev) l => d.countTrunc e l) d
      let d := if m.runs.length ≤ 1 then d else d.ocount O.MERGE_PASSES 1
      if m.last then d.setNode c n { (d.ctx c).node n with st := .merge { m with ranges := [] } }
      else
        let d := if m.pass = 0 then d.freeArea c m.src 0 else d.freeArea c n (m.pass - 1)
        let next := merged.map (sealRun ((m.runs.head?.map SRun.cas).getD 0))
        let p := m.pass + 1 + mergePasses (fanIn body) 40 next.length
        d.startPass c n (passOf body x.panes.length m.src (m.pass + 1) p next)
  | _ => d

/-- A strip reaches its node strip boundary, its outputs being with the successors: the lines it changed are in memory, what it
made of the node's state takes effect, and the node takes what waits for its boundary (R41, R45, R202). -/
def Dev.boundary (d : Dev) (w : Work) (st : OpSt) (count : Nat) : Dev :=
  let d := d.commitLines (paneCas w.pane) (1024 * w.ctx + w.node)
  let x := d.ctx w.ctx
  let nd := x.prog.node w.node
  let y := x.node w.node
  let t := (w.ins.head?.map Strip.tag).getD 0
  let at_ := y.splitAt t
  let splits := if nd.splitter && !w.finish then Sparse.set (0, 0) y.splits (t / 256) (at_.1 + 1, at_.2 + count) else y.splits
  let d := { d with pipes := { d.pipes with works := d.pipes.works.erase w } }
  let d := d.setNode w.ctx w.node { y with
    st := st, splits := splits, stalled := y.stalled.filter (fun q => decide (4 ≤ q.1))
    tainted := y.tainted || (w.poison && decide (st ≠ .none)) }
  let d := if nd.source then d.sourceDone w else d
  let d := if nd.op = 0x40 then d.emitDone w ((w.ins.map Strip.liveCount).sum) else d
  match d.takeChunks w.ctx w.node with
  | none => d.failCtx w.ctx 0x0301
  | some d => ((d.applyAt w.ctx w.node).modeAt w.ctx w.node).rangeDone w.ctx w.node

/-! ### What follows by itself -/

/-- Put an output strip into the queues or stores of its consumers, each with the columns of its edge. -/
def Dev.deliver (d : Dev) (c n port : Nat) (s : Strip) : Dev :=
  ((d.ctx c).prog.outEdges n port).foldl (fun d e =>
    let x := d.ctx c
    let y := x.node e.dst
    let z : Strip := { s with rows := s.rows.map (pick e.cols), dicts := pick e.cols s.dicts }
    let y := if e.toPort = 0 ∧ s.rows ≠ [] then { y with dicts := z.dicts } else y
    if y.matching then (d.setNode c e.dst y).toStore c e.dst e.toPort z else d.setNode c e.dst (y.push e.toPort z)) d

/-- A strip that a matching store does not admit is counted once, in the store's Casement (R184). -/
def Dev.countStall (d : Dev) (c n : Nat) (x : Ctx) (port : Nat) (s : Strip) : Option Dev :=
  let y := x.node n
  match (x.prog.outEdges n port).find? (fun e => (x.node e.dst).matching && !d.edgeRoom c x e (some s.tag)) with
  | some e =>
    if y.stalled.contains (port, s.tag) then none
    else some ((d.setNode c n { y with stalled := (port, s.tag) :: y.stalled }).fcount
      (F.LT_REDISPATCH_MS_STALL (x.node e.dst).home) 1)
  | none => none

/-- The strips of a node that a matching store holds back: outputs on their way, and finished strips whose turn has
come. -/
def Dev.stallNext (d : Dev) (c : Nat) (x : Ctx) (n : Nat) : Option Dev :=
  ((x.node n).hold.findSome? (fun h => d.countStall c n x h.1 h.2)).or <|
  ((d.worksOf c n).filter (fun w => decide (w.phase = .staged ∨ w.phase = .pooled) && w.made.isNone
      && !(x.prog.node n).splitter && d.released x w)).findSome? (fun w =>
    (List.range 4).findSome? (fun p => (w.ins.head?).bind (fun s =>
      if w.emits (x.prog.node n) then d.countStall c n x p s else none)))

/-- A strip that waits at a node in matching mode enters the store once it is admitted; the strips held back are counted
(R181, R184). -/
def Dev.enterStore (d : Dev) (c : Nat) (x : Ctx) (n : Nat) : Option Dev :=
  let y := x.node n
  if y.matching = false ∨ (x.prog.node n).op = 0x21 then none
  else
    let all := y.queues.zipIdx.flatMap (fun q => q.1.map (fun s => (q.2, s)))
    match all.find? (fun e => d.storeAdmits c x n e.1 e.2.tag) with
    | some e => some ((d.setNode c n { y with
        queues := y.queues.set e.1 ((y.queues.getD e.1 []).erase e.2)
        stalled := y.stalled.erase (4 + e.1, e.2.tag) }).toStore c n e.1 e.2)
    | none =>
      match all.find? (fun e => !y.stalled.contains (4 + e.1, e.2.tag)) with
      | some e => some ((d.setNode c n { y with stalled := (4 + e.1, e.2.tag) :: y.stalled }).fcount
          (F.LT_REDISPATCH_MS_STALL y.home) 1)
      | none => none

/-- The first held strip of each output port that its edges have room for goes on. -/
def Dev.drainHold (d : Dev) (c : Nat) (x : Ctx) (n : Nat) : Option Dev :=
  let y := x.node n
  let heads := (List.range 4).filterMap (fun p => y.hold.find? (fun h => h.1 == p))
  (heads.find? (fun h => (x.prog.outEdges n h.1).all (fun e => d.edgeRoom c x e (some h.2.tag)))).map (fun h =>
    (d.setNode c n { y with hold := y.hold.erase h }).deliver c n h.1 h.2)

/-- A node's next finished strip commits. -/
def Dev.commitNext (d : Dev) (c : Nat) (x : Ctx) (n : Nat) : Option Dev :=
  ((d.worksOf c n).find? (fun w => decide (w.phase = .staged ∨ w.phase = .pooled) && d.mayCommit x w)).map d.commit

/-- The boundary of a node's strip whose outputs have all gone to the successors and whose writes are in Sill's lines. -/
def Dev.boundaryNext (d : Dev) (c : Nat) (x : Ctx) (n : Nat) : Option Dev :=
  if (x.node n).hold ≠ [] then none
  else (d.worksOf c n).findSome? (fun w =>
    if d.writesWait (paneCas w.pane) (1024 * c + n) then none else w.made.map (fun m => d.boundary w m.1 m.2))

/-- The inputs of a two-input COMPUTE no longer carry the same tags (R86). -/
def Dev.mismatched (d : Dev) (c : Nat) (x : Ctx) (n : Nat) : Bool :=
  let nd := x.prog.node n
  let y := x.node n
  if nd.op ≠ 0x04 ∨ nd.ins ≠ 2 then false
  else if y.matching then
    match lowestTag x.prog y with
    | none => false
    | some t => [0, 1].any (fun p => !(y.store.getD p []).any (fun s => s.tag == t)
        && !d.portBelow c x n p (x.prog.tagKey t + 1))
  else
    let a := (y.queues.getD 0 []).head?
    let b := (y.queues.getD 1 []).head?
    match a, b with
    | some a, some b => decide (a.tag ≠ b.tag)
    | some _, none => x.portEnded n 1
    | none, some _ => x.portEnded n 0
    | none, none => false

/-- A KIND 3 SCAN takes in the blocks that have ended and asks for more; `none` where nothing changes (R69 to R72). -/
def Dev.scanBlocks (d : Dev) (c : Nat) (x : Ctx) (n : Nat) : Option Dev :=
  let nd := x.prog.node n
  match (x.node n).st with
  | .scan s =>
    if (x.prog.sourceOf n).kind ≠ 3 then none
    else
      let skip := (x.node n).applied.skip
      let noCheck := bitAt (fieldAt nd.param 2 1) 0
      let r := (List.range s.cols.length).foldl (fun (acc : Dev × ScanSt × List (List Datum) × Option Nat) i =>
        let col := acc.2.1.cols.getD i {}
        let v := acc.1.takeBlocks (scanOwner c n i) (nd.schema.getD i { ty := 0 }) skip acc.2.1.row (col.asked - col.taken)
          col [] acc.2.1.skips
        let k := x.prog.dictBase n + i
        let dicts := if v.2.1 = [] then acc.2.2.1 else acc.2.2.1.set k ((acc.2.2.1.getD k []) ++ v.2.1)
        let a := if x.state = 2 then acc.1.askBlocks c n (x.node n).home i noCheck 4 v.1 else (acc.1, v.1)
        (a.1, { acc.2.1 with cols := acc.2.1.cols.set i a.2, skips := v.2.2.1 }, dicts, acc.2.2.2.or v.2.2.2))
        (d, s, x.dicts, none)
      let skipped := r.2.1.skips.length - s.skips.length
      match r.2.2.2.or (r.2.1.cols.findSome? ScanCol.fail) with
      | some st => some (r.1.failCtx c st)
      | none =>
        if r.2.1 = s then (if x.state = 2 ∧ s.uneven = true then some (d.failCtx c 0x0205) else none)
        else
          let d := r.1.ocount (O.BLOCKS_SKIPPED c) skipped
          some (d.setCtx c ({ d.ctx c with dicts := r.2.2.1, skipped := x.skipped || skipped != 0 }.setNode n
            { x.node n with st := .scan r.2.1 }))
  | _ => none

/-- A node has consumed its whole input and holds no strip. -/
def Dev.inputDone (d : Dev) (c : Nat) (x : Ctx) (n : Nat) : Bool :=
  let nd := x.prog.node n
  let y := x.node n
  (d.worksOf c n).isEmpty && y.hold.isEmpty
  && (if nd.source then d.sourceOver c x n
      else (nd.op == 0x21 || y.drained) && (List.range nd.ins).all (x.portEnded n))

/-- A node has released its last strip. Its prefetch streams go; a SCAN's blocks are forgotten; a SORT_MERGE frees the
runs it has read (R147, R203). -/
def Dev.endNode (d : Dev) (c n : Nat) : Dev :=
  let d := d.releaseAllStreams (fun o => o == c * 1024 + n)
  let x := d.ctx c
  let nd := x.prog.node n
  let d := d.setNode c n { x.node n with ended := true, finish := true, lvUse := none }
  let d := if nd.op = 0x11 then d.lvSweep else d
  if nd.op = 0x01 then (List.range nd.schema.length).foldl (fun d i => d.dropJob (scanOwner c n i)) d
  else if nd.op = 0x21 then
    let src := (x.prog.feed n 0).elim 0 Edge.src
    let d := d.setNode c n { (d.ctx c).node n with areas := [], st := .none }
    d.setNode c src { (d.ctx c).node src with areas := [], st := .sortRun {} }
  else d

/-- SORT_MERGE starts with the runs of its SORT_RUN (R147). -/
def Dev.startMerge (d : Dev) (c : Nat) (x : Ctx) (n : Nat) : Dev :=
  let nd := x.prog.node n
  let src := (x.prog.feed n 0).elim 0 Edge.src
  let runs := match (x.node src).st with
    | .sortRun st => st.runs
    | _ => []
  if (x.node src).tainted then d.failCtx c 0x0703
  else d.startPass c n (passOf nd.param x.panes.length src 0 (mergePasses (fanIn nd.param) 40 runs.length) runs)

/-- What the end of a node's input brings about: its build completes, its last block closes, or its finish phase
begins (R62, R107, R127, R145, R149, R156, R157, R172). -/
def Dev.inputEnds (d : Dev) (c : Nat) (x : Ctx) (n : Nat) : Dev :=
  let nd := x.prog.node n
  let y := x.node n
  let s := x.prog.inSchema n 0
  let hold (d : Dev) (l : List Strip) : Dev :=
    d.setNode c n { y with finish := true
                           hold := x.prog.portStrips n [l.map (fun s => { s with poisoned := s.poisoned || y.tainted })] }
  match y.st with
  | .lvBuild es _ =>
    match d.lvBind (fieldAt nd.param 0 1) (buildTable c nd.param) es with
    | some d => d.endNode c n
    | none => d.failCtx c 0x0303
  | .hjBuild h =>
    match d.endHjBuild c nd.param s x.casements h with
    | some v =>
      match (v.1.setNode c n { y with st := .hjBuild v.2 }).takeChunks c n with
      | some d => d.endNode c n
      | none => d.failCtx c 0x0301
    | none => d.failCtx c 0x0303
  | .probe m =>
    let rows := unmatchedRows (x.built c nd) nd.param m
    let width := popCount (fieldAt nd.param 8 4) 32 + popCount (fieldAt nd.param 0xC 4) 32
    d.enterFinish c n (countedStrips c n 0 (List.replicate width 0) (stripsOf rows))
  | .sortRun st =>
    let all := st.close
    let d := (all.runs.drop st.runs.length).foldl (fun (d : Dev) r => d.countTrunc (entryWidth (fieldAt nd.param 1 1)) r.entries) d
    d.setNode c n
      { y with finish := true, st := .sortRun all
               hold := x.prog.portStrips n [(List.range (all.runs.length - st.runs.length)).map (fun i =>
                 runToken c n (st.runs.length + i))] }
  | .topk parts => d.enterFinish c n (topkStrips c n nd.param y.dicts parts)
  | .agg a =>
    let v := d.endAgg c n nd.param a
    (d.setNode c n { y with st := .agg v.1 }).enterFinish c n v.2
  | .sortAgg open_ done seq =>
    let v := d.endSortAgg c n nd.param s y.dicts open_ done seq
    hold v.2 v.1
  | .emit e =>
    match d.closeBlock c n e.rows true e with
    | some v => (v.1.setNode c n { y with st := .emit { v.2 with rows := [], done := true } }).endNode c n
    | none => d.failCtx c 0x0202
  | .shufOut st => hold (d.endShuffleOut c n s st) []
  | _ => if nd.op = 0x21 then d.startMerge c x n else d.endNode c n

/-- The end of a node: its input has ended and what that brings about is done (R171, R172). A finish phase begins, and
runs, in RUNNING alone (R44), and once its mask is met: END and ROOM of every port, and the gates. -/
def Dev.nodeEnds (d : Dev) (c : Nat) (x : Ctx) (n : Nat) : Option Dev :=
  let nd := x.prog.node n
  let y := x.node n
  if y.ended = true ∨ d.inputDone c x n = false then none
  else if y.finish then
    if y.out ≠ [] then none
    else if nd.op = 0x30 ∧ ((d.txFlow c n).map (fun t => decide (t.strips = []
        ∧ (shuffleNodes nd.param).all t.ended.contains = true))).getD true = false then none
    else some (d.endNode c n)
  else if nd.finishes = true ∧ (x.state ≠ 2 ∨ d.maskMet c x n true = false) then none
  else some (d.inputEnds c x n)

/-- One thing that a node does by itself. -/
def Dev.nodeStep (d : Dev) (c : Nat) (x : Ctx) (n : Nat) : Option Dev :=
  (d.drainHold c x n).or <|
  (d.boundaryNext c x n).or <|
  (d.enterStore c x n).or <|
  (if d.mismatched c x n then some (d.failCtx c 0x0202) else none).or <|
  (d.commitNext c x n).or <|
  (d.scanBlocks c x n).or <|
  (d.nodeEnds c x n).or (d.stallNext c x n)

/-! ### Parking (R44, R52, R445) -/

/-- A node has nothing under way. -/
def NodeRun.still (y : NodeRun) : Bool :=
  y.drained && y.hold.isEmpty && y.replay.isEmpty && (match y.st with
    | .scan s => s.cols.all (fun k => k.asked == k.taken)
    | _ => true)

/-- A quiescent cut of a context. -/
def Dev.atCut (d : Dev) (c : Nat) (x : Ctx) : Bool :=
  d.pipes.works.all (fun w => decide (w.ctx ≠ c)) && x.nodes.all NodeRun.still

/-- The tables a context's nodes built, with their entries by index from one copy. -/
def Dev.ownTables (d : Dev) (c : Nat) : List (Nat × LvTable × List LvEntry) :=
  d.louvre.tables.filterMap (fun p =>
    match p.2 with
    | some t =>
      if t.owner = some c then
        let es := match t.casements.head? with
          | some k => d.lvEntries p.1 k t
          | none => []
        some (p.1, t, es.map Prod.snd)
      else none
    | none => none)

/-- Bytes of a node's state outside chunks that parking gathers: the Panes' group tables, and one matched bit per build row
(R137, R162). -/
def Dev.inPlace (_d : Dev) (x : Ctx) (n : Nat) : Nat :=
  let nd := x.prog.node n
  match (x.node n).st with
  | .agg a => (a.tables.map (fun t => tableBytes nd.param (x.prog.inSchema n 0) t.2.groups)).sum
  | .probe _ => ceilDiv (((x.built 0 nd).st.stores.map (fun p => p.2.length)).sum) 8
  | _ => 0

/-- S: the bytes that parking gathers for a context (R445). -/
def Dev.parkNeeds (d : Dev) (c : Nat) : Nat :=
  let x := d.ctx c
  Config.parkState x.prog.nodes.length + x.image.length
  + (((List.range x.nodes.length).flatMap (d.nodeAreas x)).map (fun a => roundUp a.2 4096)).sum
  + ((List.range x.nodes.length).map (fun n => roundUp (d.inPlace x n) 4096)).sum
  + ((d.ownTables c).map (fun t => 48 * t.2.2.length)).sum

/-- Free bytes of the parking segment. -/
def Dev.parkFree (d : Dev) : Nat :=
  if bitAt d.mem.nearUp 0 then d.parkBytes - 2 ^ 20 - (d.pipes.ctxs.map (fun q => q.2.parked)).sum else 0

/-- What a parked node keeps: its chunks are released, and a SCAN's blocks are asked for afresh from its place. -/
def parkedNode (y : NodeRun) : NodeRun :=
  { y with areas := [], affinity := [], readyAt := none
           st := match y.st with
             | .scan s => .scan { s with cols := s.cols.map (fun k => { k with asked := 0, taken := 0, starts := [] }) }
             | z => z }

/-- A context at its cut, its blocks closed, is gathered: PARKED; or, where it does not fit, back in RUNNING, under
SHELF_DARK FAILED. -/
def Dev.parkGather (d : Dev) (c : Nat) : Dev :=
  let x := d.ctx c
  let s := d.parkNeeds c
  let fits := bitAt d.mem.nearUp 0 && decide (s ≤ d.parkFree)
  if fits then
    let tables := d.ownTables c
    let d := tables.foldl (fun d t => d.lvUnbind t.1) d
    let d := (d.evictCtx c).setCtx c { x with
      state := 5, runCmd := none, waiters := [], parked := s, tables := tables, parkBad := false
      nodes := x.nodes.map parkedNode }
    let d := x.prog.nodes.foldl (fun d nd =>
      (List.range nd.schema.length).foldl (fun d i => d.dropJob (scanOwner c nd.id i)) d) d
    let d := match x.runCmd with
      | some id => d.pipeFinish id c 0 false false
      | none => d
    x.waiters.foldl (fun d id => d.pipeFinish id c 0 false false) d
  else if d.life.parking then d.failCtx c 0x0301
  else
    let d := d.setCtx c { x with state := 2, waiters := [] }
    x.waiters.foldl (fun d id => d.pipeFinish id c 0x0301 false false) d

/-- What a PARKING context does at its cut: open blocks with rows close; once they stand in memory its state is
gathered, under SHELF_DARK after every lower context. -/
def Dev.parkStep (d : Dev) (c : Nat) (x : Ctx) : Option Dev :=
  if d.atCut c x = false then none
  else
    let open_ := (List.range x.nodes.length).find? (fun n => match (x.node n).st with
      | .emit e => e.rows ≠ []
      | _ => false)
    match open_ with
    | some n =>
      match (x.node n).st with
      | .emit e =>
        match d.closeBlock c n e.rows false e with
        | some v => some (v.1.setNode c n { x.node n with st := .emit { v.2 with rows := [] } })
        | none => some (d.failCtx c 0x0202)
      | _ => none
    | none =>
      if d.emitting c = true ∨ (d.life.parking = true ∧ d.activeCtxs.any (fun q => decide (q.1 < c)) = true) then none
      else some (d.parkGather c)

/-! ### One step of a context, readiness, and the whole -/

/-- Every node has ended and every block stands closed. -/
def Dev.allDone (d : Dev) (c : Nat) (x : Ctx) : Bool := x.nodes.all NodeRun.ended && !d.emitting c

/-- One thing that a context does by itself: it ends once a status is fixed, its nodes go on, it is DONE, or it parks. A
sealed run waits for SEAL_WRITE (R331). -/
def Dev.ctxStep (d : Dev) (c : Nat) (x : Ctx) : Option Dev :=
  match x.ending with
  | some st =>
    if d.emitting c = true ∨ d.pipes.works.any (fun w => w.ctx = c) = true then none
    else some (d.closeCtx c 7 st true false)
  | none =>
    match (List.range x.nodes.length).findSome? (d.nodeStep c x) with
    | some d => some d
    | none =>
      if d.allDone c x then (if x.prog.sealed then none else some (d.closeCtx c 6 0 x.skipped false))
      else if x.state = 4 then d.parkStep c x
      else none

/-- A node's readiness: it enters its ready list when its mask is met, and leaves it when it no longer is. -/
def Dev.readyNode (d : Dev) (c n : Nat) : Dev :=
  let x := d.ctx c
  let y := x.node n
  let now := d.nodeReady c x n
  if now = y.readyAt.isSome then d
  else if now then
    let d := d.setNode c n { y with readyAt := some d.pipes.ticks }
    { d with pipes := { d.pipes with ticks := d.pipes.ticks + 1 } }
  else d.setNode c n { y with readyAt := none, aged := 0, affinityOver := false, crossOver := false }

/-- Every node is re-evaluated (R172), and every Pane with idle lanes grants. -/
def Dev.readiness (d : Dev) : Dev :=
  let d := d.activeCtxs.foldl (fun d q => (List.range q.2.nodes.length).foldl (fun d n => d.readyNode q.1 n) d) d
  (d.pipes.works.map Work.pane).eraseDups.foldl (fun d p => d.grant p) d

/-- One thing that the pipelines do by themselves. -/
def Dev.pipeStep (d : Dev) : Option Dev := d.activeCtxs.findSome? (fun q => d.ctxStep q.1 q.2)

/-! ### NODE_STRIP_BOUNDARY (R41, R90) -/

/-- The strip that runs on a Pane. -/
def Dev.runningOn (d : Dev) (p : Nat) : Option Work :=
  d.pipes.works.find? (fun w => decide (w.pane = p ∧ w.phase = .running))

/-- A mismatch on a running strip: counted, raised, and at severity 2 or below rerun or acted on as a second one. -/
def Dev.residueMismatch (d : Dev) (p : Nat) (w : Work) (r : Residue) (injected : Bool) : Dev × Bool :=
  let again := (d.pane p).rerun
  let t := (w.ins.head?.map Strip.tag).getD 0
  let syn := t + w.node * 2 ^ 64 + r.cell.toNat * 2 ^ 74 + r.operands.toNat * 2 ^ 76 + r.result.toNat * 2 ^ 80
    + b2n again * 2 ^ 84
  let act := d.faultAction (4 * p)
  let d := (d.fcount (F.PN_ARITH_STAT_MISMATCH (p / 24) (p % 24)) 1).faultRaise (4 * p) syn injected
  if 3 ≤ act then (d, false)
  else if again = false ∧ ((d.ctx w.ctx).node w.node).applied.residueRetry = true then (d.setPane p { d.pane p with rerun := true }, false)
  else if act = 2 then (d.setWork w { w with poison := true }, true)
  else (d.failCtx w.ctx 0x0701, false)

/-- The strip on a Pane's lanes ends its work and is staged, or held in the strip pool or in the state area of a SORT_MERGE or
HASH_AGG that finishes (R175, R478). The lanes go to the next strip. -/
def Dev.stage (d : Dev) (p : Nat) (w : Work) (verify : Option (Nat × Bool)) : Dev :=
  let x := d.ctx w.ctx
  let op := (x.prog.node w.node).op
  let ph : WPhase := if x.splitTurn w && !(w.finish && (op == 0x21 || op == 0x23)) then .staged else .pooled
  let d := d.setWork w { w with phase := ph, verify := verify }
  (d.setPane p { d.pane p with rerun := false }).grant p

/-- The extents a pipeline has still to read. -/
def Ctx.extentsLeft (x : Ctx) : List Extent :=
  x.nodes.flatMap (fun y => match y.st with
    | .scan s => s.cols.flatMap (fun k => if k.full || y.ended then [] else match k.extents with
        | [] => []
        | e :: es => if e.len < k.off + 32 then es else e :: es)
    | _ => [])

/-- A drive read of a SCAN has failed: the pipeline of the SCAN that runs on the Pane, or else of the lowest context that has
still to read from the slot, fails (R71, R287). -/
def Dev.scanMedia (d : Dev) (p slot st : Nat) : Dev :=
  let on := (d.runningOn p).filter (fun w => decide (((d.ctx w.ctx).prog.node w.node).op = 0x01)
    && decide (((d.ctx w.ctx).prog.sourceOf w.node).kind = 3) && (d.ctx w.ctx).live)
  match (on.map Work.ctx).or ((d.activeCtxs.find? (fun q => q.2.extentsLeft.any (fun e => e.slot == slot))).map Prod.fst) with
  | some c => (d.nvmeStatus slot st).failCtx c 0x0602
  | none => d

/-- A node whose work on a strip passes a residue or duplicated check (R89): FILTER, COMPUTE and the aggregates. -/
def Node.checks (x : Node) : Bool := [0x03, 0x04, 0x23, 0x24].contains x.op

/-- What an injected mismatch reports (R423, R432): the residue of the operands, open, and it again with check bits inverted, one,
two or all of them as BITS says; which one, and for a COMPUTE which cell, is open (assumption log 10). -/
def injectedResidue (op bits k : Nat) : Residue :=
  let a := k % 15
  let flip := if bits = 1 then 2 ^ (k / 15 % 4) else if bits = 2 then [3, 5, 6, 9, 10, 12].getD (k / 15 % 6) 3 else 15
  ⟨if op = 0x03 then 1 else if op = 0x04 then k / 90 % 2 * 2 else 0, a, Nat.xor a flip⟩

/-- NODE_STRIP_BOUNDARY: the strip running on a Pane finishes. `mismatch` is a residue mismatch on it, `verify` a LOUVRE
verification failure, `media` the slot and NVMe status of a drive read of a SCAN that has failed. -/
def Dev.stripBoundary (d : Dev) (p : Nat) (mismatch : Option Residue) (verify : Option (Nat × Bool))
    (media : Option (Nat × Nat)) : Dev :=
  match media, d.runningOn p with
  | some m, _ => if d.halted then d else d.scanMedia p m.1 m.2
  | none, none => d
  | none, some w =>
    if d.halted then d
    else
      let x := d.ctx w.ctx
      if x.live = false then
        ({ d with pipes := { d.pipes with works := d.pipes.works.erase w } }.setPane p
          { d.pane p with rerun := false }).grant p
      else
        let nd := x.prog.node w.node
        let inj := nd.checks && d.fiFires (4 * p)
        let bad := mismatch.or (if inj then some (injectedResidue nd.op (d.fget F.FI_CTL_BITS) d.draw.1) else none)
        let d := if inj then d.draw.2.fiConsume else d
        match bad with
        | some r =>
          let v := d.residueMismatch p w r inj
          if v.2 then (match v.1.runningOn p with
            | some w => v.1.stage p w verify
            | none => v.1) else v.1
        | none =>
          let d := if (d.pane p).rerun then
              (d.fcount (F.PN_ARITH_STAT_RETRY_OK (p / 24) (p % 24)) 1).ocount (O.RESIDUE_RETRIES w.ctx) 1
            else d
          d.stage p w verify

end Sys2Proof.Machine
end

