-- ==== Sys2Proof/Machine/PipeCmd.lean ====
section
/-!
DEFINITION. The pipeline commands PIPE_LOAD to PIPE_UNLOAD (R47 to R50, R54, R55, R63, R125, R356, R448) and
CANCEL_DOORBELL (R269).
-/

namespace Sys2Proof.Machine

/-- The context a pipeline command names (R250). -/
def cmdCtx (c : Cmd) : Nat := fieldAt c.entry 16 2

/-! ### PIPE_LOAD (R48, R63, R64) -/

/-- The lowest-numbered FREE context. -/
def Dev.lowestFree (d : Dev) : Option Nat := (List.range Config.contexts).find? (fun c => (d.ctx c).state == 0)

/-- Bytes of the pipeline region that no image, chunk or receive pool holds. -/
def Dev.regionFree (d : Dev) : Nat :=
  d.mem.region - d.imageBytes - chunkBytes * d.chunksUsed false (fun _ => true) - d.oget O.RX_POOL

/-- Where an image of n bytes goes: the lowest place of the pipeline region, counted from the region's first byte, that meets
no image and no chunk and leaves the receive pools their bytes. -/
def Dev.imagePlace (d : Dev) (n : Nat) : Option Nat :=
  let used := d.imageSpans ++ (d.chunkList.filter (fun k => decide (k < 2 ^ 32))).map (fun k => (k * chunkBytes, chunkBytes))
  if d.regionFree < n then none
  else ((0 :: used.map (fun p => p.1 + p.2)).filter (fun a => decide (a + n + d.oget O.RX_POOL ≤ d.mem.region)
    && used.all (fun p => decide (p.1 + p.2 ≤ a ∨ a + n ≤ p.1)))).min?

/-- The result of PIPE_LOAD. -/
def loadResult (c check off : Nat) : Bytes := leBytes 2 c ++ zeros 2 ++ leBytes 4 check ++ leBytes 8 off

/-- A loaded image fills a context; its objects take their defaults. -/
def Dev.fillCtx (d : Dev) (c at_ : Nat) (image : Bytes) (p : Prog) : Dev :=
  let d := d.setCtx c { state := 1, prog := p, image := image, imageAt := at_ }
  let d := d.oput (O.SKIP_ON_ERROR c) (b2n p.skip)
  (d.oput (O.PANE_LIMIT c) (O.PANE_LIMIT c).dflt).oput (O.DISPATCH_PRIORITY c) (O.DISPATCH_PRIORITY c).dflt

/-- EDGE_DEPTH_DEFAULT within its range. -/
def Dev.edgeDepth (d : Dev) : Nat := d.oclamp O.EDGE_DEPTH_DEFAULT 1 16

/-- PIPE_LOAD. -/
def Dev.pipeLoad (d : Dev) (id : Nat) : Dev :=
  match d.running id opPipeLoad with
  | none => d
  | some k =>
    let n := fieldAt k.entry 32 4
    match d.lowestFree with
    | none => d.finish id 0x0301 (loadResult 0xFFFF 0 0) 0
    | some c =>
      match d.imagePlace n with
      | none => d.finish id 0x0301 (loadResult 0xFFFF 0 0) 0
      | some at_ =>
        match d.readSpace (bitAt (fieldAt k.entry 18 1) 0) (fieldAt k.entry 24 8) n with
        | .error st => d.finish id st (loadResult 0xFFFF 0 0) 0
        | .ok image =>
          let d := d.engWrite (d.regionBase + at_) image
          match imageCheck image n d.edgeDepth with
          | .error e => d.finish id 0x0104 (loadResult 0xFFFF e.1 e.2) 0
          | .ok p => (d.fillCtx c at_ image p).finish id 0 (loadResult c 0 0) 0

/-! ### PIPE_RUN (R54, R125, R356) -/

/-- A source names a drive slot that is empty. -/
def Dev.slotMissing (d : Dev) (p : Prog) : Bool :=
  p.sources.any (fun s => s.kind == 3 && s.extents.any (fun e => (d.drive e.slot).empty))

/-- Every declared table is bound as declared in every Casement that runs its LOOKUPs (R125); a CASEMENT of 4 to 254 is taken as any
(assumption log 158). -/
def Dev.declared (d : Dev) (p : Prog) : Bool :=
  p.decls.all (fun k =>
    match d.lvTable k.table with
    | none => false
    | some t => t.width == k.width && t.layout == k.layout && t.mask != 0
      && p.nodes.all (fun n => n.op != 0x11 || fieldAt n.param 0 1 != k.table || decide (4 ≤ n.cas) || bitAt t.mask n.cas))

/-- The flows of an image. -/
def Prog.flows (p : Prog) : List Nat :=
  (p.nodes.filter (fun n => n.op == 0x30 || n.op == 0x31)).map (fun n => fieldAt n.param 0 4)

/-- The engines an image names: partition maps and sender lists. -/
def Prog.peersNamed (p : Prog) : List Nat :=
  p.nodes.flatMap (fun n => if n.op = 0x30 then mapNodes n.param else if n.op = 0x31 then shuffleSenders n.param else [])

/-- The status with which a FABRIC image's PIPE_RUN completes at once, 0 where it goes on (R356). -/
def Dev.fabricCheck (d : Dev) (c : Nat) (p : Prog) : Nat :=
  if p.fabric = false then 0
  else if d.net.epoch = 0 ∨ p.peersNamed.all d.net.members.contains = false then 0x0502
  else if d.pipes.ctxs.any (fun q => decide (q.1 ≠ c) && (q.2.state == 2 || q.2.state == 3)
      && q.2.prog.flows.any p.flows.contains) = true then 0x0104
  else 0

/-- The status with which PIPE_RUN completes at once, 0 where it goes on. -/
def Dev.runCheck (d : Dev) (c : Nat) : Nat :=
  let p := (d.ctx c).prog
  if d.slotMissing p then 0x0601 else if d.declared p = false then 0x0104 else d.fabricCheck c p

/-- The Casements of a set of Panes, ascending. -/
def casementsOf (panes : List Nat) : List Nat := (panes.map paneCas).eraseDups

/-- The dictionaries of a pipeline's sources: those in memory are read in the SCAN's home Casement, those on drives come with
their blocks. -/
def Dev.startDicts (d : Dev) (p : Prog) (homes : List Nat) : List (List Datum) :=
  (p.nodes.filter (fun n => n.op == 0x01)).flatMap (fun n =>
    let src := p.sourceOf n.id
    if src.kind = 3 then n.schema.map (fun _ => [])
    else (n.schema.zip (pick (fieldAt n.param 4 4) src.dir)).map (fun k =>
      if isDict k.1.ty then d.memDict (homes.getD n.id 0) k.1.dict k.2.data k.2.dictLen else []))

/-- Initial credit of each sender of a SHUFFLE_IN (R362). -/
def Dev.initCredit (d : Dev) (senders : Nat) : Nat :=
  max 2 (min (d.oget O.INIT_CREDIT) (d.oget O.RX_POOL / (senders * 8192)))

/-- A fabric node of a pipeline starts its flow: SHUFFLE_OUT without credit, SHUFFLE_IN with a grant to each sender
(R362, R365). -/
def Dev.startFlow (d : Dev) (c epoch : Nat) (n : Node) : Dev :=
  let flow := fieldAt n.param 0 4
  if n.op = 0x30 then
    { d with net := { d.net with tx := d.net.tx ++
      [{ flow := flow, ctx := c, node := n.id, flush := d.oget O.FLUSH_BYTES }] } }
  else if n.op = 0x31 then
    let from_ := shuffleSenders n.param
    let g := d.initCredit from_.length
    let d := { d with net := { d.net with rx := d.net.rx ++
      [{ flow := flow, ctx := c, node := n.id
         senders := from_.map (fun k => { node := k, back := if k = d.nodeId then 0 else g }) }] } }
    from_.foldl (fun d k => if k = d.nodeId then d else d.sendCredit flow k epoch) d
  else d

/-- The counters of `0xA100+n` start from zero (R92). -/
def Dev.zeroArith (d : Dev) (c : Nat) : Dev :=
  [O.OVERFLOW_NULLS c, O.DIVZERO_NULLS c, O.CAST_NULLS c, O.DICT_RANGE_NULLS c, O.BLOCKS_SKIPPED c,
    O.RESIDUE_RETRIES c].foldl (fun d o => d.oput o 0) d

/-- PIPE_RUN accepted: the snapshot, the homes and the state RUNNING. -/
def Dev.startRun (d : Dev) (k : Cmd) (c : Nat) : Dev :=
  let x := d.ctx c
  let p := x.prog
  let panes := d.panesUp
  let cas := casementsOf panes
  let h := d.homes c p cas
  let d := (d.zeroArith c).ocount O.PIN_OVERRIDES h.2
  let d := d.setCtx c { state := 2, partialRun := x.partialRun, status := x.status, prog := p
                        image := x.image, imageAt := x.imageAt, runCmd := some k.id, runTag := k.tag
                        panes := panes, casements := cas, epoch := d.net.epoch, members := d.net.members
                        drives := (d.drives.filter (fun q => !q.2.empty)).map (fun q => (q.1, q.2.serial, q.2.nguid))
                        nodes := (p.nodes.zip h.1).map (fun e =>
                          { home := e.2, st := freshSt p e.1, applied := d.appliedNow c
                            queues := List.replicate e.1.ins [], store := List.replicate e.1.ins [] })
                        dicts := d.startDicts p h.1
                        sealing := { nonce := if p.sealed then sliceAt k.entry 32 32 else [] } }
  p.nodes.foldl (fun d n => d.startFlow c d.net.epoch n) d

/-- PIPE_RUN. -/
def Dev.pipeRun (d : Dev) (id : Nat) : Dev :=
  match d.running id opPipeRun with
  | none => d
  | some k =>
    let c := cmdCtx k
    let x := d.ctx c
    if x.runCmd = some id then d
    else if x.state ≠ 1 ∧ x.state ≠ 6 ∧ x.state ≠ 7 then d.pipeFinish id c 0 true false
    else
      let st := d.runCheck c
      if st ≠ 0 then
        d.finish id st ({ x with partialRun := false, blocks := 0, stripsDone := 0 }.result c false false) 0
      else d.startRun k c

/-! ### PIPE_CANCEL, PIPE_PARK, PIPE_UNLOAD (R47) -/

/-- A command waits for its context to leave its state. -/
def Dev.waitCtx (d : Dev) (c id : Nat) : Dev :=
  let x := d.ctx c
  d.setCtx c { x with waiters := x.waiters ++ [id] }

/-- PIPE_CANCEL. -/
def Dev.pipeCancel (d : Dev) (id : Nat) : Dev :=
  match d.running id opPipeCancel with
  | none => d
  | some k =>
    let c := cmdCtx k
    let x := d.ctx c
    if x.waiters.contains id then d
    else if x.state = 5 then (d.cancelCtx c 0x0402).pipeFinish id c 0 false false
    else if x.state = 2 ∨ x.state = 4 then (d.cancelCtx c 0x0402).waitCtx c id
    else d.pipeFinish id c 0 true false

/-- PIPE_PARK: a RUNNING context without FABRIC moves towards its quiescent cut. -/
def Dev.pipePark (d : Dev) (id : Nat) : Dev :=
  match d.running id opPipePark with
  | none => d
  | some k =>
    let c := cmdCtx k
    let x := d.ctx c
    if x.waiters.contains id then d
    else if x.state = 2 ∧ x.prog.fabric = false then (d.setCtx c { x with state := 4 }).waitCtx c id
    else d.pipeFinish id c 0 true false

/-- PIPE_UNLOAD: a context that runs is cancelled first. -/
def Dev.pipeUnload (d : Dev) (id : Nat) : Dev :=
  match d.running id opPipeUnload with
  | none => d
  | some k =>
    let c := cmdCtx k
    let x := d.ctx c
    if x.waiters.contains id then d
    else if x.state = 2 ∨ x.state = 4 then (d.cancelCtx c 0x0402).waitCtx c id
    else if x.state = 1 ∨ x.state = 5 ∨ x.state = 6 ∨ x.state = 7 then
      (d.freeCtx c).finish id 0 ({ x with state := 0 }.result c false false) 0
    else d.pipeFinish id c 0 true false

/-! ### PIPE_RESUME (R55, R448) -/

/-- A slot holds the drive of the snapshot. -/
def Dev.sameDrive (d : Dev) (x : Ctx) (slot : Nat) : Bool :=
  let v := d.drive slot
  !v.empty && x.drives.contains (slot, v.serial, v.nguid)

/-- Bind every gathered table again. -/
def Dev.rebind (d : Dev) : List (Nat × LvTable × List LvEntry) → Option Dev
  | [] => some d
  | t :: ts =>
    match d.lvBind t.1 t.2.1 t.2.2 with
    | some d => d.rebind ts
    | none => none

/-- Place the chunks of every node. -/
def Dev.rechunk (d : Dev) (c : Nat) : List Nat → Option Dev
  | [] => some d
  | n :: ns =>
    match d.takeChunks c n with
    | some d => d.rechunk c ns
    | none => none

/-- A parked context fails its resume (checks 1 to 3). -/
def Dev.resumeFail (d : Dev) (id c st : Nat) : Dev := (d.cancelCtx c st).pipeFinish id c st false false

/-- PIPE_RESUME passes its checks: the context runs again with the Panes in service, its nodes in matching mode. -/
def Dev.resumeRun (d : Dev) (k : Cmd) (c : Nat) : Option Dev :=
  let x := d.ctx c
  let panes := d.panesUp
  let h := d.homes c x.prog (casementsOf panes)
  match (d.rebind x.tables).bind (fun d => d.rechunk c (List.range x.nodes.length)) with
  | none => none
  | some d =>
    let x := d.ctx c
    let d := d.ocount O.PIN_OVERRIDES h.2
    some (d.setCtx c { x with
      state := 2, runCmd := some k.id, runTag := k.tag, panes := panes, parked := 0, tables := []
      nodes := (x.nodes.zip h.1).map (fun e => { e.1 with home := e.2, matching := true, lvUse := none }) })

/-- PIPE_RESUME. -/
def Dev.pipeResume (d : Dev) (id : Nat) : Dev :=
  match d.running id opPipeResume with
  | none => d
  | some k =>
    let c := cmdCtx k
    let x := d.ctx c
    if x.runCmd = some id then d
    else if x.state ≠ 5 then d.pipeFinish id c 0 true false
    else if x.parkBad then d.resumeFail id c 0x0702
    else if x.extentsLeft.all (fun e => d.sameDrive x e.slot) = false then d.resumeFail id c 0x0601
    else if d.declared x.prog = false then d.pipeFinish id c 0x0104 false false
    else
      match d.resumeRun k c with
      | some d => d
      | none => d.pipeFinish id c 0x0301 false false

/-! ### CANCEL_DOORBELL (R269) -/

/-- A write to CANCEL_DOORBELL: one context, or every context. -/
def Dev.cancelDoorbell (d : Dev) (all : Bool) (c : Nat) : Dev :=
  let d := d.ocount O.CANCEL_DOORBELLS 1
  if all then (d.pipes.ctxs.map Prod.fst).foldl (fun d c => d.cancelCtx c 0x0402) d else d.cancelCtx c 0x0402

/-! ### Drives and peers in a snapshot (R54) -/

/-- A drive is removed: pipelines of whose snapshot it is a part, and that have still to read from it, fail. -/
def Dev.driveLost (d : Dev) (slot : Nat) : Dev :=
  d.activeCtxs.foldl (fun d q =>
    if q.2.drives.any (fun v => v.1 == slot) && q.2.extentsLeft.any (fun e => e.slot == slot) then d.failCtx q.1 0x0601 else d) d

/-- Members leave the fabric: pipelines that use the fabric and whose epoch holds one of them fail. -/
def Dev.membersLost (d : Dev) (gone : List Nat) : Dev :=
  d.activeCtxs.foldl (fun d q =>
    if q.2.prog.fabric && q.2.members.any gone.contains then d.failCtx q.1 0x0501 else d) d

end Sys2Proof.Machine
end

