-- ==== Sys2Proof/Machine/Service.lean ====
section
/-!
DEFINITION. Units leaving and joining service: fences and returns of strips (R186), Casement drains (R188), Pane
self-tests (R187, R435), the reactions of severities 3 to 5 (R428, R430, R431), and what one command brings about after
itself.
-/

namespace Sys2Proof.Machine

/-! ### Strips that return to their nodes (R42, R186) -/

/-- Insert a strip by its tag. -/
def byTag (s : Strip) : List Strip → List Strip
  | [] => [s]
  | t :: l => if s.tag ≤ t.tag then s :: t :: l else t :: byTag s l

/-- A node takes the strips of one firing back, in matching mode to enter the store again; `cut` where the strip had begun and is to be dispatched again. -/
def NodeRun.takeBack (y : NodeRun) (nd : Node) (w : Work) (cut : Bool) : NodeRun :=
  let y := if cut then { y with replay := y.replay ++ w.ins.map Strip.tag } else y
  if w.finish then { y with out := w.ins.foldr byTag y.out }
  else if nd.source then { y with rx := w.ins.foldr byTag y.rx }
  else
    let back (l : List (List Strip)) : List (List Strip) :=
      l.zipIdx.map (fun q => match w.ins[q.2]? with
        | some s => byTag s q.1
        | none => q.1)
    { y with queues := back y.queues }

/-- The strips on Panes that a test picks leave them: those of running pipelines return to their nodes, the others are
discarded. The nodes concerned and their consumers switch to matching mode. -/
def Dev.returnWorks (d : Dev) (p : Work → Bool) (cut : Work → Bool) : Dev :=
  let gone := d.pipes.works.filter p
  let d : Dev := { d with pipes := { d.pipes with works := d.pipes.works.filter (fun w => !p w) } }
  let d := gone.foldl (fun d w =>
    let x := d.ctx w.ctx
    if x.live then d.setNode w.ctx w.node ((x.node w.node).takeBack (x.prog.node w.node) w (cut w)) else d) d
  ((gone.map (fun w => (w.ctx, w.node))).eraseDups).foldl (fun d q =>
    if (d.ctx q.1).live then d.matchWithConsumers q.1 q.2 else d) d

/-- A strip that has been granted the lanes or is beyond. -/
def Work.begun (w : Work) : Bool := w.phase != .queued

/-- No node has affinity to a Pane any more. -/
def Dev.forgetPane (d : Dev) (p : Nat) : Dev :=
  d.activeCtxs.foldl (fun d q => d.setCtx q.1 { d.ctx q.1 with
    nodes := (d.ctx q.1).nodes.map (fun y => { y with affinity := y.affinity.filter (fun r => decide (r ≠ p)) }) }) d

/-- The sort runs that were being formed on a Pane stand at their last committed point, for another Pane to go on with
(R162, R187). -/
def Dev.orphanRuns (d : Dev) (p : Nat) : Dev :=
  d.activeCtxs.foldl (fun d q => d.setCtx q.1 { d.ctx q.1 with
    nodes := (d.ctx q.1).nodes.map (fun y => match y.st with
      | .sortRun st =>
        if (Sparse.get [] st.open_ p).length = 0 then y
        else
          let k := Config.panes + p
          let run := Sparse.get [] st.open_ k ++ Sparse.get [] st.open_ p
          { y with st := .sortRun { st with open_ := Sparse.set [] (Sparse.set [] st.open_ p []) k run } }
      | _ => y) }) d

/-! ### New homes (R188) -/

/-- A new home among some Casements, given the homes of the nodes that stay and of those already moved: a BOUND node by the
BOUND nodes and another source by all nodes, another node with its producer; a LOOKUP whose producer went where its table is not, by count within the
table's mask. -/
def Dev.newHome (d : Dev) (c : Nat) (prog : Prog) (cas : List Nat) (mine given : Sparse Nat) (x : Node) : Option Nat :=
  let placed := mine.map (fun p => (prog.node p.1, p.2))
  let all (p : Node → Bool) (l : List Nat) : Nat := fewest (fun k => d.homeCount p k placed) l
  if x.bound then some (all Node.bound cas)
  else if x.source then some (all (fun _ => true) cas)
  else
    match prog.feed x.id 0 with
    | none => some (all (fun _ => true) cas)
    | some e =>
      match (given.find? (fun p => p.1 = e.src)).map Prod.snd with
      | none => none
      | some h =>
        let masked := cas.filter (fun k => bitAt (d.nodeMask c x) k)
        if x.op = 0x11 ∧ masked.contains h = false ∧ masked ≠ [] then some (all (fun _ => true) masked)
        else if cas.contains h then some h
        else some (all (fun _ => true) cas)

/-- Give new homes to nodes in ascending number, in rounds; a node whose producer has still to move waits for another. The
first number bounds the rounds. -/
def Dev.newHomes (d : Dev) (c : Nat) (prog : Prog) (cas moved : List Nat) (stay : Sparse Nat) : Nat → Sparse Nat → Sparse Nat
  | 0, given => given
  | k + 1, given =>
    let next := moved.foldl (fun (given : Sparse Nat) n =>
      if given.any (fun p => p.1 == n) then given
      else
        match d.newHome c prog cas given (stay ++ given) (prog.node n) with
        | some h => Sparse.insert given n h
        | none => given) given
    if next.length = moved.length then next else d.newHomes c prog cas moved stay k next

/-- Nodes of a context move to other Casements and switch to matching mode with their consumers. -/
def Dev.moveNodes (d : Dev) (c : Nat) (cas moved : List Nat) : Dev :=
  let x := d.ctx c
  let stay := (x.nodes.map NodeRun.home).zipIdx.filterMap (fun q => if moved.contains q.2 then none else some (q.2, q.1))
  let given := d.newHomes c x.prog cas moved stay (moved.length + 1) []
  moved.foldl (fun d n =>
    let y := (d.ctx c).node n
    let d := d.setNode c n { y with home := Sparse.get y.home given n }
    d.matchWithConsumers c n) d

/-- Scan blocks queued at a Casement move with their nodes; from a fenced one also those its engines held (R305,
R306). -/
def Dev.moveScanBlocks (d : Dev) (k : Nat) (atOnce : Bool) : Dev :=
  let scan (r : BReq) : Option (Nat × Nat) := match r.owner with
    | .scan c n => some (c, n)
    | _ => none
  let x := d.bcas k
  let held := if atOnce then (List.range 12).filter (fun e => (x.engine e).held.any (fun r => (scan r).isSome)) else []
  let taken := held.filterMap (fun e => (x.engine e).held)
  let x := held.foldl (fun x e => x.setEngine e { x.engine e with held := none }) x
  let leaving := taken ++ x.queue.filter (fun r => (scan r).isSome)
  let d := d.setBcas k { x with queue := x.queue.filter (fun r => (scan r).isNone) }
  leaving.foldl (fun d r =>
    match scan r with
    | none => d
    | some (c, n) =>
      let h := ((d.ctx c).node (n / 32)).home
      let z := d.bcas h
      d.setBcas h { z with queue := z.queue ++ [{ r with avoid := none }] }) d

/-- The Casements of a snapshot, another one excepted, that are in service or gated. -/
def Dev.otherCasements (d : Dev) (x : Ctx) (k : Nat) : List Nat :=
  (casementsOf x.panes).filter (fun c => decide (c ≠ k) && (d.casUp c || d.fget (F.CS_STAT_STATE c) == 1))

/-- Every node homed at a Casement moves; where a pipeline has no other Casement it fails on a fence, and waits on an
activation. -/
def Dev.moveHomes (d : Dev) (k : Nat) (fence : Bool) : Dev :=
  d.activeCtxs.foldl (fun d q =>
    let x := d.ctx q.1
    let moved := (List.range x.nodes.length).filter (fun n => decide ((x.node n).home = k) && !(x.node n).ended)
    let cas := d.otherCasements x k
    if moved = [] ∨ x.live = false then d
    else if cas = [] then (if fence then d.failCtx q.1 0x0403 else d)
    else d.moveNodes q.1 cas moved) d

/-! ### Fences (R186, R188, R428, R429) -/

/-- A fence is counted and announced (R426, R434, R435). -/
def Dev.fenceEvent (d : Dev) : Dev := ((d.fputB F.FC_STAT_FENCE_EVENT true).ocount O.FENCES 1).faultIrq

/-- Clear or set the PANE_HOLD bit of a Pane. -/
def Dev.holdPane (d : Dev) (p : Nat) (b : Bool) : Dev :=
  let f := F.LT_PANE_HOLD_HOLD (paneCas p)
  d.fput f (setBit (d.fget f) (p % 24) b)

/-- A Pane is out of service for good: fenced, or its Casement fenced. -/
def Dev.paneOut (d : Dev) (p : Nat) : Bool := (d.pane p).fenced || d.fget (F.CS_STAT_STATE (paneCas p)) == 6

/-- Pipelines whose snapshot has no Pane left fail; BOUND nodes whose home has no Pane left move (R186, R429). -/
def Dev.afterFence (d : Dev) (k : Nat) : Dev :=
  let d := d.activeCtxs.foldl (fun d q => if q.2.panes.all d.paneOut then d.failCtx q.1 0x0403 else d) d
  if ((List.range 24).map (fun i => k * 24 + i)).all d.paneOut then
    d.activeCtxs.foldl (fun d q =>
      let x := d.ctx q.1
      let moved := (List.range x.nodes.length).filter (fun n =>
        decide ((x.node n).home = k) && (x.prog.node n).bound && !(x.node n).ended)
      let cas := (d.otherCasements x k).filter (fun c => !(((List.range 24).map (fun i => c * 24 + i)).all d.paneOut))
      if moved = [] ∨ x.live = false then d
      else if cas = [] then d.failCtx q.1 0x0403
      else d.moveNodes q.1 cas moved) d
  else d

/-- A Pane is fenced (R186): what it held returns, begun strips to be dispatched again; a self-test under way stays
pending (R187). -/
def Dev.paneFence (d : Dev) (p : Nat) : Dev :=
  let x := d.pane p
  if x.fenced then d
  else
    let d := if x.draining then d.holdPane p false else d
    let d := d.setPane p { fenced := true, testReq := x.testReq || x.draining, failed := x.failed }
    let d := ((d.returnWorks (fun w => w.pane == p && w.made.isNone) Work.begun).orphanRuns p).forgetPane p
    d.fenceEvent.afterFence (paneCas p)

/-- Pipelines with a LOOKUP that no Casement holds a copy for any more fail (R114). -/
def Dev.lookupsLost (d : Dev) : Dev :=
  d.activeCtxs.foldl (fun d q =>
    let x := d.ctx q.1
    if x.prog.nodes.any (fun nd => nd.op == 0x11 && !(x.node nd.id).ended
        && (d.lvTable (fieldAt nd.param 0 1)).map LvTable.mask == some 0) then d.failCtx q.1 0x0403 else d) d

/-- Pipelines with a PATH 1 join whose owner table a Casement held fail: a build that has bound its tables, while a probe of it
goes on (R137). -/
def Dev.ownersLost (d : Dev) (k : Nat) : Dev :=
  d.activeCtxs.foldl (fun d q =>
    let x := d.ctx q.1
    if x.casements.contains k && x.prog.nodes.any (fun nd => nd.op == 0x12 && fieldAt nd.param 0 1 == 1 && (x.node nd.id).ended
        && x.prog.nodes.any (fun m => m.op == 0x13 && fieldAt m.param 0 2 == nd.id && !(x.node m.id).ended))
    then d.failCtx q.1 0x0403 else d) d

/-- A Casement is fenced (R188, R212, R114, R137, R306). -/
def Dev.casementFence (d : Dev) (k : Nat) : Dev :=
  if d.fget (F.CS_STAT_STATE k) = 0 ∨ d.fget (F.CS_STAT_STATE k) = 6 then d
  else
    let d := d.fput (F.CS_STAT_STATE k) 6
    let d := (List.range 24).foldl (fun d i =>
      let p := k * 24 + i
      let x := d.pane p
      let d := if x.draining then d.holdPane p false else d
      (d.setPane p { x with resident := [], rerun := false, testReq := x.testReq || x.draining, draining := false }).forgetPane p) d
    let d := d.returnWorks (fun w => paneCas w.pane == k && w.made.isNone) Work.begun
    let d := (List.range 24).foldl (fun d i => d.orphanRuns (k * 24 + i)) d
    let d := (d.moveHomes k true).moveScanBlocks k true
    let d := (d.bifoldLeave k true).sillClear k false
    let d := ((d.lvLoseCasement k).lookupsLost).ownersLost k
    let d := d.setLatch k {}
    d.fenceEvent.afterFence k

/-! ### Pane self-tests (R187, R435) -/

/-- A requested self-test begins: the Pane is held, and the nodes that hold strips on it and their consumers switch to
matching mode (R181). -/
def Dev.testBegin (d : Dev) (p : Nat) : Dev :=
  let d := (d.setPane p { d.pane p with testReq := false, draining := true }).holdPane p true
  (((d.pipes.works.filter (fun w => w.pane == p)).map (fun w => (w.ctx, w.node))).eraseDups).foldl (fun d q =>
    if (d.ctx q.1).live then d.matchWithConsumers q.1 q.2 else d) d

/-- A pending self-test begins once nothing keeps it waiting: a test under way, a fence, or a hold by software. -/
def Dev.testPending (d : Dev) (p : Nat) : Dev :=
  let x := d.pane p
  if x.testReq = true ∧ x.draining = false ∧ x.fenced = false ∧ d.casUp (paneCas p) = true ∧ d.paneHeld p = false then d.testBegin p
  else d

/-- The pending self-tests of a Casement's Panes. -/
def Dev.testsPending (d : Dev) (k : Nat) : Dev := (List.range 24).foldl (fun d i => d.testPending (k * 24 + i)) d

/-- SELFTEST_REQ: a write of one (R187, R191). -/
def Dev.selfTestReq (d : Dev) (p : Nat) : Dev := (d.setPane p { d.pane p with testReq := true }).testPending p

/-- PANE_SELFTEST_RUN: a drained Pane's test runs; it rejoins on a pass. A failure raises the Pane's source 3, which at
severity 3 fences it (R433). -/
def Dev.selfTestRun (d : Dev) (p : Nat) (pass : Bool) : Dev :=
  let x := d.pane p
  if x.draining = false ∨ d.halted = true ∨ d.casUp (paneCas p) = false ∨ d.pipes.works.any (fun w => w.pane == p && w.phase != .pooled) = true then d
  else
    let d := ((d.setPane p { x with draining := false, resident := [], rerun := false }).orphanRuns p).oput
      (O.SELFTEST_RESULT p) (if pass then 1 else 2)
    let owed := d.reacts.length
    let d := if pass then d else d.faultRaise (4 * p + 3) 0 false
    let stays := decide (owed < d.reacts.length)
    let d := d.setPane p { d.pane p with failed := stays }
    if stays then d else (d.holdPane p false).testPending p

/-- A Pane that rejoins gives up the PANE_HOLD bit that its failed self-test left set (R190). -/
def Dev.rejoinHold (d : Dev) (p : Nat) (failed : Bool) : Dev := if failed then d.holdPane p false else d

/-- UNFENCE: a fenced Pane's self-test runs, and the Pane rejoins on a pass; `pass` is what the test comes to. -/
def Dev.unfence (d : Dev) (p : Nat) (pass : Bool) : Dev :=
  let x := d.pane p
  if x.fenced = false ∨ d.halted = true then d
  else
    let d := d.oput (O.SELFTEST_RESULT p) (if pass then 1 else 2)
    if pass then
      ((d.setPane p { x with fenced := false, unfencing := false, failed := false }).rejoinHold p x.failed).testPending p
    else (d.setPane p { x with unfencing := false }).faultRaise (4 * p + 3) 0 false

/-- BANK_UNFENCE: the fenced Louvre banks of a mask return to service, unbound, when their self-tests pass. -/
def Dev.bankUnfence (d : Dev) (c mask pass : Nat) : Dev :=
  if d.halted then d
  else
    let d := (setBits mask 4).foldl (fun d b => d.lvUnfence c b (bitAt pass b)) d
    let o := O.BANK_UNFENCE (24 * c)
    d.oput o ((setBits mask 4).foldl (fun v b => setBit v b false) (d.oget o))

/-! ### Reactions (R419, R428, R430, R431) -/

/-- The halt record (R431). -/
def Dev.haltRecord (d : Dev) (n syn : Nat) : Bytes :=
  leBytes 2 n ++ zeros 6 ++ leBytes 8 d.timeBase ++ leBytes 16 syn
  ++ (List.range 16).flatMap (fun j => leBytes 4 (d.fget (F.FC_STICKY_BITS j)))

/-- The device halts: AER, interrupt and record, PARK_OK not driven; a second halt leaves the first record (R430, R433, R462). -/
def Dev.halt (d : Dev) (n syn : Nat) : Dev :=
  if d.halted then d
  else
    let d := ({ d with halted := true, life := { d.life with parkOk := false } } : Dev).emit (.aer n)
    let d := d.faultIrq
    { d with thr := { d.thr with haltRec := d.haltRecord n syn } }

/-- A Bifold engine is fenced: it stops, and its block returns for another engine (R306). -/
def Dev.engineFence (d : Dev) (c e : Nat) : Dev :=
  let x := d.bcas c
  let y := x.engine e
  if y.fenced ∨ 12 ≤ e then d
  else
    let d := d.setBcas c (x.setEngine e { y with held := none, fenced := true })
    let d := match y.held with
      | none => d
      | some r =>
        if (List.range 12).any (d.engineReady c) then
          let z := d.bcas c
          d.setBcas c { z with queue := { r with avoid := none } :: z.queue }
        else d.offerBlock { r with avoid := none }
    d.fenceEvent

/-- The unit that severity 3 fences (R420): Pane, Louvre bank, Bifold engine, memory channel. -/
def Dev.fenceUnit (d : Dev) (n syn : Nat) : Dev :=
  if n < 384 then d.paneFence (n / 4)
  else if n < 448 then
    let c := (n - 384) / 16
    if (n - 384) % 16 = 9 then d.engineFence c (syn % 16)
    else
      let b := syn / 2 ^ 16 % 4
      if (d.lvBank c b).fenced then d else (d.lvLoseBank c b).lookupsLost.fenceEvent
  else
    let ch := syn / 2 ^ 48 % 128
    if (d.chan ch).state = 2 ∨ (d.chan ch).state = 3 ∨ (d.chan ch).state = 4 then d else (d.retireChan ch).fenceEvent

/-- One reaction. -/
def Dev.react (d : Dev) (n act syn : Nat) : Dev :=
  if act = 5 then d.halt n syn
  else if d.halted then d
  else if act = 4 then d.casementFence (if n < 384 then paneCas (n / 4) else (n - 384) / 16)
  else d.fenceUnit n syn

/-- The reactions owed, oldest first; one may bring about another. The number bounds them. -/
def Dev.reactAll : Nat → Dev → Dev
  | 0, d => d
  | k + 1, d =>
    match d.reacts with
    | [] => d
    | r :: rest => Dev.reactAll k (({ d with reacts := rest } : Dev).react r.1 r.2.1 r.2.2)

/-! ### After a command -/

/-- What the pipelines do by themselves, with the reactions it brings about. The number bounds the steps. -/
def Dev.flow : Nat → Dev → Dev
  | 0, d => d
  | k + 1, d =>
    if d.halted then d
    else
      match d.pipeStep with
      | none => d
      | some d => Dev.flow k (Dev.reactAll 4096 d)

/-- A bound no run reaches. -/
def settleBound : Nat := 2 ^ 40

/-- Everything that follows a command at once: reactions, pipelines, readiness. -/
def Dev.settle (d : Dev) : Dev :=
  let d := Dev.reactAll 4096 d
  if d.halted ∨ d.activeCtxs = [] then d else (Dev.flow settleBound d).readiness

/-! ### Casement drains for activation and gating (R188, R443, R451) -/

/-- The strips that run on a Casement's Panes reach their boundaries. -/
def Dev.finishStrips (d : Dev) (k : Nat) : Dev :=
  (d.pipes.works.filter (fun w => decide (paneCas w.pane = k ∧ w.phase = .running))).foldl (fun d w => d.stage w.pane w none) d

/-- The blocks a Casement's engines hold finish (R306). -/
def Dev.finishBlocks (d : Dev) (k : Nat) : Dev := (List.range 12).foldl (fun d e => d.blockDone k e false) d

/-- Finished strips of a Casement that still wait for their turn or for room are held off its Panes, in near memory. -/
def Dev.poolStrips (d : Dev) (k : Nat) : Dev :=
  { d with pipes := { d.pipes with works := d.pipes.works.map (fun (w : Work) =>
      if paneCas w.pane = k then { w with phase := .pooled } else w) } }

/-- A Casement drains for activation: running strips end, queued ones return to their nodes, the nodes and blocks move, and
Sill is flush-invalidated. -/
def Dev.casementDrain (d : Dev) (k : Nat) : Dev :=
  let d := d.setLatch k { d.latch k with draining := true }
  let d := d.returnWorks (fun w => decide (paneCas w.pane = k ∧ w.phase = .queued)) Work.begun
  let d := (d.finishStrips k).moveHomes k false
  let d := Dev.flow settleBound d
  let d := d.poolStrips k
  let d := (List.range 24).foldl (fun d i =>
    let p := k * 24 + i
    (d.setPane p { d.pane p with resident := [], rerun := false }).orphanRuns p) d
  let d := ((d.moveScanBlocks k false).finishBlocks k).bifoldLeave k false
  d.sillClear k true

end Sys2Proof.Machine
end

