-- ==== Sys2Proof/Machine/HingeRun.lean ====
section
/-!
DEFINITION. Hinge at work: descriptor boundaries (R340 to R345), restart after a halt (R347, R348), and what a queue's flush
or deletion does to its commands (R265, R266).
-/

namespace Sys2Proof.Machine

/-! ### The ends of lists -/

/-- The result of a DMA command (R256). -/
def HList.dmaResult (l : HList) : Bytes := leBytes 4 l.done ++ zeros 4 ++ leBytes 8 l.moved

/-- A list's command or pipeline ends with a failure status. -/
def Dev.failList (d : Dev) (l : HList) (st : Nat) : Dev :=
  match l.owner with
  | .dma id => d.finish id st l.dmaResult l.moved
  | .store id => d.discardStore id st
  | .pull id => d.finish id st (fetchResult 0 0 0) 0
  | .fetch id =>
    let from_ := (d.cmd id).elim 0 (fun c => fieldAt c.result 8 4)
    let lbas := (d.cmd id).elim 0 (fun c => fieldAt c.result 4 4)
    d.finish id st (fetchResult l.moved lbas from_) l.moved
  | .emit c _ => d.failCtx c st
  | .scan r => match r.owner with
    | .scan c _ => d.failCtx c st
    | _ => d
  | .drain _ => d

/-- A list of engine traffic has run to its end. -/
def Dev.workOver (d : Dev) (l : HList) : Dev :=
  match l.owner with
  | .store id => d.storeLanded id
  | .pull id => d.mapCmd id (fun c => { c with pulled := true })
  | .drain n => d.mapStores (fun g => decide (g.phase = .staged) && decide (g.seq = n)) (fun g => { g with sent := true })
  | .scan r => if (d.job r.owner).isSome then d.offerBlock r else d
  | .fetch id =>
    match d.cmd id with
    | some c => d.finish id c.status (fetchResult l.moved (fieldAt c.result 4 4) (fieldAt c.result 8 4)) l.moved
    | none => d
  | _ => d

/-- The list at the head of channel n goes, at a boundary. -/
def Dev.leaveList (d : Dev) (n : Nat) : Dev := (d.popList n).atBoundary n

/-- A list that a flush or cancel gave a status ends with it at a boundary. An owner that has ended already is left as it
is. -/
def Dev.dropHead (d : Dev) (n : Nat) (l : HList) (st : Nat) : Dev :=
  let d := d.leaveList n
  match l.owner with
  | .dma id => if (d.running id opDma).isSome then d.failList l st else d
  | .pull id => if (d.running id opFetch).isSome then d.failList l st else d
  | .fetch id => if (d.running id opFetch).isSome then d.failList l st else d
  | .store id => if (d.running id opStore).isSome then d.failList l st else d
  | _ => d

/-- After a descriptor: a list with a status to end by goes, another stays, and a stop takes hold. -/
def Dev.descBoundary (d : Dev) (n : Nat) (l : HList) : Dev :=
  match l.drop with
  | some st => d.dropHead n l st
  | none => (d.setHead n l).atBoundary n

/-! ### DMA descriptors (R340, R341) -/

/-- Where the descriptor after one is taken from. -/
def Desc.after (x : Desc) : DescAt → DescAt
  | .inline i => if x.link then .mem x.nextEng x.next else .inline (i + 1)
  | .mem eng a => if x.link then .mem x.nextEng x.next else .mem eng (a + 64)

/-- A DMA list's next descriptor runs to its boundary. -/
def Dev.dmaStep (d : Dev) (n : Nat) (l : HList) (c : Cmd) : Dev :=
  match d.dmaDesc c l.at_ with
  | .error st =>
    match l.at_ with
    | .mem false a => match d.hostFault ((List.range 64).map (fun i => a + i)) with
      | some f => d.busError f.1 f.2 false n
      | none => d
    | _ => (d.leaveList n).failList l st
  | .ok b =>
    if descOk b = false then (d.leaveList n).failList l 0x0103
    else
      let x := descOf b
      let left := l.total - l.moved
      let k := min x.size left
      match d.moveDesc x k with
      | .poisoned => (d.leaveList n).failList l 0x0703
      | .busError a kind => d.busError a kind false n
      | .ok d =>
        let full := decide (x.size ≤ left)
        let l : HList := { l with moved := l.moved + k, done := l.done + b2n full, at_ := x.after l.at_ }
        let ended := decide (l.done = l.count)
        if full = false then (d.leaveList n).finish c.id 0x0202 l.dmaResult l.moved
        else if ended then (d.leaveList n).finish c.id (if l.moved < l.total then 0x0201 else 0) l.dmaResult l.moved
        else if l.moved = l.total then (d.leaveList n).finish c.id 0x0202 l.dmaResult l.moved
        else d.descBoundary n l

/-! ### Engine-built descriptors (R342, R344, R345) -/

/-- An engine-built descriptor moves its bytes; a read that fails halts Hinge or ends the list. -/
def Dev.workStep (d : Dev) (n : Nat) (l : HList) (e : EDesc) (rest : List EDesc) : Dev :=
  match d.srcBytes e.src e.len with
  | .error st =>
    match e.src with
    | .host a => match d.hostFault ((List.range e.len).map (fun i => a + i)) with
      | some f => d.busError f.1 f.2 false n
      | none => d
    | _ => (d.leaveList n).failList l st
  | .ok b =>
    let d := match e.dst with
      | .host a => d.hostWrite a b
      | .eng a => d.engWrite a b
      | .store id => d.storeBytes id b
      | .buffer => d
    let d := ((d.ocount O.HINGE_BYTES_READ e.len).ocount O.HINGE_BYTES_WRITTEN e.len).ocount O.HINGE_DESCRIPTORS 1
    let d := match l.owner with
      | .emit c _ => if e.close then d.setCtx c { d.ctx c with blocks := (d.ctx c).blocks + 1 } else d
      | _ => d
    let l : HList := { l with work := rest, done := l.done + 1, moved := l.moved + e.len }
    if rest = [] ∧ l.drop = none then ((d.leaveList n).workOver l) else d.descBoundary n l

/-! ### HINGE_DESCRIPTOR_DONE -/

/-- The pull of a STORE's data rests during the hold-up of R283. -/
def Dev.pullRests (d : Dev) (l : HList) : Bool :=
  match l.owner with
  | .store _ => d.thr.pfSafe
  | _ => false

/-- HINGE_DESCRIPTOR_DONE: the current descriptor of a channel reaches its boundary. -/
def Dev.hingeDone (d : Dev) (n : Nat) : Dev :=
  let x := d.hchan n
  if d.halted ∨ d.hinge.halt = true ∨ x.stopped = true ∨ d.fgetB F.JB_STAT_HOLD = true then d
  else
    match x.lists with
    | [] => d
    | l :: _ =>
      if d.pullRests l then d
      else
        match l.owner with
        | .dma id =>
          match d.cmd id with
          | some c => d.dmaStep n l c
          | none => d.leaveList n
        | _ =>
          match l.work with
          | [] => (d.leaveList n).workOver l
          | e :: rest => d.workStep n l e rest

/-! ### HINGE_BUS_ERROR, HINGE_RESTART, HALT_TIMEOUT_EXPIRY (R346 to R348) -/

/-- HINGE_BUS_ERROR: a read of channel n failed on the host link, or one of a slot at a drive port. -/
def Dev.hingeBusError (d : Dev) (addr kind : Nat) (port : Bool) (slot : Nat) : Dev :=
  if d.halted then d else d.busError addr kind port slot

/-- Every channel is aborted that the two abort registers name. -/
def Dev.abortMask (d : Dev) : Nat := d.fget F.HINGE_ABORT_LO_CH + d.fget F.HINGE_ABORT_HI_CH * 2 ^ 32

/-- RESTART: dropped and aborted lists end; the other abandoned descriptors run again from their first byte. -/
def Dev.hingeRestart (d : Dev) : Dev :=
  if d.hinge.halt = false ∨ d.halted = true then d
  else
    let mask := d.abortMask
    let busy := d.hinge.chans.filterMap (fun p => (p.2.lists.head?).map (fun l => (p.1, l)))
    let d : Dev := { d with hinge := { d.hinge with halt := false } }
    let d := busy.foldl (fun d p =>
      match p.2.drop with
      | some st => d.dropHead p.1 p.2 st
      | none => if bitAt mask p.1 then ((d.leaveList p.1).failList p.2 0x0702).ocount O.HINGE_ABORTED_CHANNELS 1 else d) d
    let d : Dev := { d with hinge := { d.hinge with chans := d.hinge.chans.filterMap (fun (p : Nat × HChan) =>
      let y : HChan := { p.2 with abandoned := false }
      if y = ({} : HChan) then none else some (p.1, y)) } }
    ((d.fput F.HINGE_ABORT_LO_CH 0).fput F.HINGE_ABORT_HI_CH 0).fputB F.HINGE_CTL_RESTART false

/-- Whether a list's current descriptor reads host memory. -/
def Dev.readsHost (d : Dev) (l : HList) : Bool :=
  match l.owner with
  | .dma id =>
    match d.cmd id with
    | none => false
    | some c =>
      match l.at_, d.dmaDesc c l.at_ with
      | .mem false _, .error _ => true
      | _, .ok b => !(descOf b).srcEng
      | _, _ => false
  | _ => match l.work with
    | { src := .host _, .. } :: _ => true
    | _ => false

/-- HALT_TIMEOUT_EXPIRY: firmware aborts every channel whose abandoned descriptor reads host memory, and restarts. -/
def Dev.haltTimeout (d : Dev) : Dev :=
  if d.hinge.halt = false ∨ d.halted = true then d
  else
    let bad := (d.hinge.chans.filter (fun p => p.2.lists.head?.any d.readsHost)).map Prod.fst
    let m := bad.foldl (fun m n => setBit m n true) d.abortMask
    ((d.fput F.HINGE_ABORT_LO_CH m).fput F.HINGE_ABORT_HI_CH (m / 2 ^ 32)).hingeRestart

/-! ### Flush and delete (R265, R266, R348) -/

/-- Whether a list is a command's. -/
def Owner.isCmd (o : Owner) (id : Nat) : Bool :=
  match o with
  | .dma k => k == id
  | .store k => k == id
  | .fetch k => k == id
  | .pull k => k == id
  | _ => false

/-- The channel and list of a command. -/
def Dev.listOf (d : Dev) (id : Nat) : Option (Nat × HList × Bool) :=
  d.hinge.chans.findSome? (fun p => (p.2.lists.zipIdx.find? (fun l => l.1.owner.isCmd id)).map (fun l => (p.1, l.1, l.2 == 0)))

/-- A flushed command's list: one that waits, or stands at a stopped channel, goes at once; one that runs ends at its next
boundary, and during a halt at RESTART. -/
def Dev.flushList (d : Dev) (id st : Nat) : Dev :=
  match d.listOf id with
  | none => d
  | some (n, l, first) =>
    let x := d.hchan n
    if first = false then
      (d.setHchan n { x with lists := x.lists.filter (fun k => decide (k ≠ l)) }).failList l st
    else if x.stopped = true ∧ d.hinge.halt = false then (d.popList n).failList l st
    else d.setHead n { l with drop := some st }

/-- A flushed DIGEST stops at a descriptor boundary of its reads, with what was read before it digested, an open number of
descriptors, and no digest written (R265, R342, assumption log 156). -/
def Dev.digestFlush (d : Dev) (c : Cmd) : Dev :=
  let b := c.entry
  let d := d.digestFree c.id
  match d.dataList b (fieldAt b 24 8) (fieldAt b 32 2) 0 (bitAt (fieldAt b 17 1) 7) with
  | .error _ => (d.finish c.id 0x0401 (zeros 16) 0).ksSettle
  | .ok es =>
    let work := es.flatMap (fun e => piecesOf (if e.eng then .eng e.addr else .host e.addr) .buffer e.len)
    let n := (((work.map EDesc.len).take (d.draw.1 % (work.length + 1))).sum)
    (d.draw.2.finish c.id 0x0401 (result4 (min n (fieldAt b 20 4)) 0 0 0) 0).ksSettle

/-- A flush reaches one dispatched command (R265). -/
def Dev.flushCmd (d : Dev) (c : Cmd) : Dev :=
  let st := 0x0401
  let id := c.id
  let op := c.opcode
  if op = opPipeRun ∨ op = opPipeResume then
    let k := cmdCtx c
    if (d.ctx k).runCmd = some id then d.failCtx k st else d.pipeFinish id k st false false
  else if op = opStore then
    match d.listOf id with
    | some _ => d.flushList id st
    | none => d.discardStore id st
  else if op = opDma then
    match d.listOf id with
    | some _ => d.flushList id st
    | none => d.finish id st (zeros 16) 0
  else if op = opFetch then
    match d.listOf id with
    | some _ => d.flushList id st
    | none =>
      if (d.job (.cmd id)).isSome then (d.mapCmd id (fun x => { x with abort := some st })).stopJob (.cmd id)
      else d.finish id st (fetchResult 0 0 0) 0
  else if op = opDigest then d.digestFlush c
  else if op = opCompress ∨ op = opDecompress then
    if (d.job (.cmd id)).isSome then (d.mapCmd id (fun x => { x with abort := some st })).stopJob (.cmd id)
    else d.finish id st (zeros 16) 0
  else if op = opLouvreLoad then d.louvreLoadFlush c
  else if op = opLouvreSearch then d.searchFlush c
  else if op = opStoreSync then (d.dropSync id).finish id st (zeros 16) 0
  else d

/-- A queue flush: the entries not fetched are discarded, fetched commands that were not dispatched end, dispatched ones go
to their boundaries. -/
def Dev.flushWork (d : Dev) (q : Nat) : Dev :=
  let cs := d.jamb.cmds.filter (fun c => decide (c.queue = q))
  let d := (cs.filter (fun c => c.phase = .fetched)).foldl (fun d c => d.finish c.id 0x0401 (zeros 16) 0) d
  (cs.filter (fun c => c.phase = .dispatched)).foldl (fun d c => d.flushCmd c) d

/-- QCTL.FLUSH on a queue in ACTIVE or ERROR. -/
def Dev.qctlFlush (d : Dev) (q : Nat) : Dev :=
  let x := d.queue q
  if x.st = .active ∨ x.st = .error then
    let d := d.setQueue q { x with st := .flushing, flushTo := x.sqP, sqC := x.sqP }
    (((d.flushWork q).settleQueue q).mirror q).ocount O.FLUSHES 1
  else d.qctlReject

/-- QCTL.DELETE: as a flush, without completions (R266); a flush under way goes on as a delete (R270). -/
def Dev.qctlDelete (d : Dev) (q : Nat) : Dev :=
  let x := d.queue q
  if x.st = .absent ∨ x.st = .deleting then d.qctlReject
  else
    let was := x.st
    let d : Dev := { d with jamb := { d.jamb with
      backlog := d.jamb.backlog.filter (fun i => !(d.jamb.cmds.any (fun c => decide (c.id = i ∧ c.queue = q))))
      cmds := d.jamb.cmds.filter (fun (c : Cmd) => !(decide (c.queue = q) && decide (c.phase = .backlogged))) } }
    let d := d.setQueue q { d.queue q with st := .deleting, flushTo := x.sqP, sqC := x.sqP, stall := false }
    (((if was = QState.flushing then d else d.flushWork q).mirror q).settleQueue q).ocount O.FLUSHES 1

end Sys2Proof.Machine
end

