-- ==== Sys2Proof/Machine/Attest.lean ====
section
/-!
DEFINITION. Image headers (R325, R326), statements, seals and ATTEST (R327 to R333).
-/

namespace Sys2Proof.Machine

/-! ### Image checks (R325, R326) -/

/-- What the part is fused with (R326, R456): the hash of signer key i, whether it is revoked, the minimum SVN. -/
structure Trust where
  signers : List Bytes
  revoked : Nat
  minSvn : Nat
deriving DecidableEq, Repr

/-- The number of the first condition of R326 that an image fails; 0 when it is accepted. -/
def imageReject (t : Trust) (kind : Nat) (b : Bytes) : Nat :=
  let body := (b.drop 0x200).take (fieldAt b 0x10 8)
  if fieldAt b 0 4 ≠ 0x57464C46 ∨ fieldAt b 4 2 ≠ 1 ∨ fieldAt b 6 2 ≠ kind ∨ fieldAt b 0x18 8 ≠ 0
      ∨ zeroAt (fit 0x200 b) 0x110 0x200 = false then 1
  else if (t.signers.zipIdx.any (fun s => decide (s.1 = sha384 (sliceAt b 0x50 96)) && !bitAt t.revoked s.2)) = false then 2
  else if ecdsaVerify (sliceAt b 0x50 96) (sha384 (sliceAt b 0 0xB0)) (sliceAt b 0xB0 96) = false then 3
  else if body.length ≠ fieldAt b 0x10 8 ∨ sliceAt b 0x20 48 ≠ sha384 body then 4
  else if fieldAt b 0xC 4 < t.minSvn then 5
  else 0

/-- What runs once an image is taken. -/
def runningOf (b : Bytes) : Running := { version := fieldAt b 8 4, svn := fieldAt b 0xC 4, digest := sliceAt b 0x20 48 }

/-! ### Statements (R327 to R330) -/

/-- The fields of a statement that differ from one to another. -/
structure Stmt where
  form : Nat
  ctx : Nat := 0
  sinks : Nat := 0
  reissue : Bool := false
  blocks : Nat := 0
  rows : Nat := 0
  query : Bytes := []
  runNonce : Bytes := []
  nonce : Bytes := []
  digest : Bytes := []
deriving DecidableEq, Repr

/-- Bytes 0x000 to 0x0DF of a statement. -/
def Dev.stmtBytes (d : Dev) (x : Stmt) : Bytes :=
  leBytes 4 0x4C53464C ++ leBytes 2 1 ++ leBytes 1 x.form ++ leBytes 1 0 ++ leBytes 4 0x7840F1B1
  ++ leBytes 4 d.life.running.version ++ leBytes 1 x.ctx ++ leBytes 1 x.sinks ++ leBytes 2 (b2n x.reissue)
  ++ leBytes 4 x.blocks ++ leBytes 8 x.rows ++ leBytes 8 d.timeBase ++ fit 16 x.query ++ zeros 8 ++ fit 32 x.runNonce
  ++ fit 32 x.nonce ++ fit 48 x.digest ++ fit 48 d.dig.keyId

/-- A signed statement; `none` where slot 0 fails its tag. -/
def Dev.signed (d : Dev) (x : Stmt) : Option Bytes :=
  let k := d.slot 0
  if k.broken then none
  else
    let b := d.stmtBytes x
    some (b ++ ecdsaSign (beNat k.data) (sha384 b))

/-- MEASURE (R330): the running firmware, and the microcode of the Casements, C0's where they differ. -/
def Dev.measure (d : Dev) : Bytes :=
  sha384 (fit 48 d.life.running.digest ++ fit 48 (Sparse.get {} d.life.microcode 0).digest)

/-! ### Sealing (R328, R331) -/

/-- The digest unit folds the oldest waiting result block of a sealed pipeline into its sink's digest. -/
def Dev.foldBlock (d : Dev) (c : Nat) : Dev :=
  let x := d.ctx c
  match x.sealing.waiting with
  | [] => d
  | w :: rest =>
    d.setCtx c { x with sealing := { x.sealing with
      waiting := rest, msgs := Sparse.modify [] x.sealing.msgs w.1 (fun m => m ++ w.2) } }

/-- RESULT_DIGEST (R328). -/
def Ctx.resultDigest (x : Ctx) : Bytes :=
  sha384 ((List.range x.prog.sinks.length).flatMap (fun i => sha384 (Sparse.get [] x.sealing.msgs i)))

/-- The statement of a context's kept seal. -/
def Ctx.sealStmt (x : Ctx) (c : Nat) (reissue : Bool) (nonce : Bytes) : Stmt :=
  { form := 1, ctx := c, sinks := x.prog.sinks.length, reissue := reissue, blocks := x.sealing.blocks, rows := x.sealing.rows
    query := x.prog.query, runNonce := x.sealing.nonce, nonce := nonce, digest := x.sealing.digest }

/-- The bytes of the seal block: header, statement, zero fill and close word (R62, R331). -/
def sealBlock (c sink seq tag size : Nat) (skipped : Bool) (stmt : Bytes) : Bytes :=
  fit (size - 8) (leBytes 4 0x42524C46 ++ leBytes 1 c ++ leBytes 1 sink ++ leBytes 2 0 ++ leBytes 4 0 ++ leBytes 4 seq
    ++ leBytes 4 320 ++ leBytes 4 (4 + 2 * b2n skipped) ++ zeros 8 ++ stmt) ++ leBytes 4 tag ++ leBytes 4 seq

/-- The slot that the next block of an EMIT takes. -/
def NodeRun.nextSlot (y : NodeRun) : Nat :=
  match y.st with
  | .emit e => e.seq
  | _ => 0

/-- SEAL_WRITE: every result block of a sealed pipeline closed and digested, its seal block is written as the context enters
DONE. -/
def Dev.sealWrite (d : Dev) (c : Nat) : Dev :=
  let x := d.ctx c
  if d.halted ∨ x.live = false ∨ x.prog.sealed = false ∨ d.allDone c x = false ∨ x.sealing.waiting ≠ [] then d
  else
    match x.prog.sinks.zipIdx.find? (fun k => k.1.sealHere) with
    | none => d
    | some (k, i) =>
      let seq := (x.node k.node).nextSlot
      if k.slots ≤ seq then d.failCtx c 0x0202
      else
        let x := { x with sealing := { x.sealing with
          written := true, kept := true, digest := x.resultDigest, blocks := x.blocks, rows := x.rowsEmitted } }
        match d.signed (x.sealStmt c false []) with
        | none => (d.tagFailure 0).failCtx c 0x0702
        | some stmt =>
          let d := d.setCtx c x
          let d := d.writeSpace (decide (k.kind ≠ 1)) (k.base + seq * k.block) (sealBlock c i seq x.runTag k.block x.skipped stmt)
          let d := (d.ocount O.SEALS_WRITTEN 1).ocount O.STATEMENTS_SIGNED 1
          d.closeCtx c 6 0 x.skipped true

/-! ### ATTEST (R332, R333) -/

/-- The statement an ATTEST of KIND 1 signs: the kept fields of its context as they stand at its dispatch. -/
def Dev.attestKept (d : Dev) (entry : Bytes) : Option Stmt :=
  let c := fieldAt entry 18 2
  let x := d.ctx c
  if x.state = 6 ∧ x.sealing.kept = true then some (x.sealStmt c true (sliceAt entry 64 32)) else none

/-- A statement's own fields, kept with its command from dispatch on. -/
def Stmt.pack (x : Stmt) : Bytes :=
  leBytes 1 1 ++ leBytes 1 x.ctx ++ leBytes 1 x.sinks ++ leBytes 4 x.blocks ++ leBytes 8 x.rows ++ fit 16 x.query
  ++ fit 32 x.runNonce ++ fit 48 x.digest

/-- The fields again. -/
def Stmt.unpack (b nonce : Bytes) : Stmt :=
  { form := 1, ctx := fieldAt b 1 1, sinks := fieldAt b 2 1, reissue := true, blocks := fieldAt b 3 4, rows := fieldAt b 7 8
    query := sliceAt b 15 16, runNonce := sliceAt b 31 32, nonce := nonce, digest := sliceAt b 63 48 }

/-- At its dispatch an ATTEST of KIND 1 takes the kept fields. -/
def Dev.attestDispatch (d : Dev) (c : Cmd) : Dev :=
  if fieldAt c.entry 16 1 ≠ 1 then d
  else
    match d.attestKept c.entry with
    | some s => d.mapCmd c.id (fun k => { k with result := s.pack })
    | none => d

/-- The end of an ATTEST: its output written, or the bytes it needs. -/
def Dev.attestOut (d : Dev) (c : Cmd) (out : Bytes) : Dev :=
  let b := c.entry
  if fieldAt b 20 4 < out.length then d.finish c.id 0x0202 (result4 0 out.length 0 0) 0
  else
    let d := d.writeSpace (bitAt (fieldAt b 17 1) 6) (fieldAt b 24 8) out
    (d.ocount O.STATEMENTS_SIGNED 1).finish c.id 0 (result4 out.length 0 0 0) out.length

/-- ATTEST of KIND 0: an identity report with Q and the certificate as flash holds it. -/
def Dev.attestIdentity (d : Dev) (id : Nat) : Dev :=
  match d.running id opAttest with
  | none => d
  | some c =>
    if fieldAt c.entry 16 1 ≠ 0 then d
    else
      match d.signed { form := 0, nonce := sliceAt c.entry 64 32, digest := d.measure } with
      | none => (d.tagFailure 0).finish id 0x0702 (zeros 16) 0
      | some s => d.attestOut c (s ++ fit 96 d.dig.pubKey ++ leBytes 4 d.life.cert.length ++ d.life.cert)

/-- ATTEST of KIND 1: the seal of a DONE context signed again; nothing where there is none. -/
def Dev.attestSeal (d : Dev) (id : Nat) : Dev :=
  match d.running id opAttest with
  | none => d
  | some c =>
    if fieldAt c.entry 16 1 ≠ 1 then d
    else if c.result = [] then d.finish id 0 (zeros 16) 0
    else
      match d.signed (Stmt.unpack c.result (sliceAt c.entry 64 32)) with
      | none => (d.tagFailure 0).finish id 0x0702 (zeros 16) 0
      | some s => d.attestOut c s

end Sys2Proof.Machine
end

