-- ==== Sys2Proof/Machine/Mirror.lean ====
section
/-!
DEFINITION. The register fields that dictionary objects mirror (R29, R118, R214, R237, R310, R377, R410, R416, R435), and
the restoring of objects and fields at a reset.
-/

namespace Sys2Proof.Machine

/-- An object and the register field that hold one setting. A mask is cut to the field, a number brought to its largest
value (assumption log 71). -/
structure Mirror where
  obj : Obj
  fld : Fld
  mask : Bool
deriving DecidableEq, Repr

/-- The mirrors in Casement c's block. -/
def casMirrors (c : Nat) : List Mirror :=
  [⟨O.SHADOW_SEARCH c, F.LV_CTL_SHADOW_SEARCH c, true⟩, ⟨O.STREAM_WAYS c, F.SL_WAYS_STREAM c, true⟩,
   ⟨O.TABLE_WAYS c, F.SL_WAYS_TABLE c, true⟩, ⟨O.PF_ENABLE c, F.SL_CTL_PF_EN c, false⟩,
   ⟨O.PF_DISTANCE c, F.SL_PF_CTL_DISTANCE c, false⟩, ⟨O.PF_CONFIRM c, F.SL_PF_CTL_CONFIRM c, false⟩,
   ⟨O.PF_MR_LIMIT c, F.SL_PF_CTL_MR_LIMIT c, false⟩, ⟨O.ENGINE_OFF c, F.BF_CTL_ENGINE_OFF c, true⟩]

/-- The other mirrors, the severities of the fault sources apart. -/
def mirrors : List Mirror :=
  [⟨O.CORE_RATE_WINDOW, F.CRATE_CTL_WINDOW, false⟩, ⟨O.DATA_CLASS, F.TR_CTL_DATA_CLASS, false⟩,
   ⟨O.NEAR_RD_K, F.MC_CTL_NEAR_K, false⟩, ⟨O.FAR_RD_K, F.MC_CTL_FAR_K, false⟩]
  ++ [0, 1, 2, 3].flatMap casMirrors

/-- The mirror of the severity of source n. -/
def severityMirror (n : Nat) : Mirror := ⟨O.SEVERITY n, F.FC_SRC_SEV n, false⟩

/-- The mirror of an object. -/
def mirrorOf (key : Nat) : Option Mirror :=
  if 0x8000 ≤ key / 256 ∧ key / 256 < 0x8200 ∧ key % 256 = 0 then some (severityMirror (key / 256 - 0x8000))
  else mirrors.find? (fun m => m.obj.key == key)

/-- The mirrors of the register at an offset of BAR0. -/
def mirrorsAt (off : Nat) : List Mirror :=
  if 0xB00800 ≤ off ∧ off < 0xB01000 ∧ off % 4 = 0 then [severityMirror ((off - 0xB00800) / 4)]
  else mirrors.filter (fun m => m.fld.key / 32 == off)

/-- What the field holds of an object's value. -/
def Mirror.cut (m : Mirror) (v : Nat) : Nat :=
  if m.mask then v % 2 ^ m.fld.width else min v (2 ^ m.fld.width - 1)

/-- At a reset a Louvre bank of Casement c takes the shadow search of `LV_CTL` (R116, R117). -/
def Dev.shadowSearch (d : Dev) (c : Nat) : Dev :=
  let v := d.fget (F.LV_CTL_SHADOW_SEARCH c)
  { d with louvre := { d.louvre with banks := (List.range 4).foldl (fun (l : Sparse LvBank) b =>
      Sparse.modify {} l (4 * c + b) (fun x => { x with shadow := bitAt v b })) d.louvre.banks } }

/-- A field takes its object's value. -/
def Dev.toField (d : Dev) (m : Mirror) : Dev := d.fput m.fld (m.cut (d.oget m.obj))

/-- An object takes its field's value. -/
def Dev.toObject (d : Dev) (m : Mirror) : Dev := d.oput m.obj (d.fget m.fld)

/-- The fields of Casement c that an object mirrors take the objects' values (R410). -/
def Dev.restoreCas (d : Dev) (c : Nat) : Dev := ((casMirrors c).foldl (fun d m => d.toField m) d).shadowSearch c

/-- Every mirrored field takes its object's value (R416); a field whose object holds its default has it already. -/
def Dev.restoreFields (d : Dev) : Dev :=
  let d := d.objs.foldl (fun d p => match mirrorOf p.1 with
    | some m => d.toField m
    | none => d) d
  let d := [0, 1, 2, 3].foldl (fun (d : Dev) c => d.shadowSearch c) d
  d.fput F.TR_NODE_NODE (Sparse.get O.NODE_ID.dflt d.objs O.NODE_ID.key)

end Sys2Proof.Machine
end

