-- ==== Sys2Proof/Machine/Reset.lean ====
section
/-!
DEFINITION. What the resets keep and lose (R436, R437), the Function Level Reset and the link reset (R51, R267, R318, R323,
R375, R416).
-/

namespace Sys2Proof.Machine

/-- Register fields outside a range of offsets. -/
def fieldsOutside (fs : Sparse Nat) (lo hi : Nat) : Sparse Nat := fs.filter (fun p => decide (p.1 / 32 < lo ∨ hi ≤ p.1 / 32))

/-- The registers of a range of offsets return to their reset values. -/
def Dev.clearFields (d : Dev) (lo hi : Nat) : Dev := { d with flds := fieldsOutside d.flds lo hi }

/-! ### Function Level Reset -/

/-- Every queue ABSENT, every command dropped, the Jamb and MSI-X registers at their reset values; a hold in force goes on.
Command and dispatch numbers run on (assumption log 9). -/
def Dev.jambReset (d : Dev) : Dev :=
  let hold := d.fget F.JB_STAT_HOLD
  let d : Dev := { d with jamb := { nextCmd := d.jamb.nextCmd, nextDisp := d.jamb.nextDisp } }
  (d.clearFields 0x500000 0x600000).fput F.JB_STAT_HOLD hold

/-- Every context but the PARKED ones becomes FREE, its tables unbound, its strips, chunks and flows gone; no cancel is sent
(R51, R375). -/
def Dev.contextsReset (d : Dev) : Dev :=
  let gone := (d.pipes.ctxs.filter (fun q => decide (q.2.state ≠ 5))).map Prod.fst
  let d : Dev := { d with
    pipes := { d.pipes with works := [] }
    net := { d.net with tx := [], rx := [], txq := d.net.txq.filter (fun f => decide (4 ≤ f.type)) } }
  gone.foldl (fun d c => (d.evictCtx c).freeCtx c) d

/-- STOREs that have not committed, and the waits of STORE_SYNC, are dropped with their commands (R267). -/
def Dev.storesReset (d : Dev) : Dev :=
  let d := (d.thr.stores.filter (fun g => decide (g.phase ≠ .staged))).foldl (fun d g => d.dropStore g) d
  { d with thr := { d.thr with syncs := [] } }

/-- Every digest context is freed, and every key slot but slot 0 emptied (R318, R323). -/
def Dev.digestReset (d : Dev) : Dev :=
  let d : Dev := { d with dig := { d.dig with
    ctxs := [], slots := d.dig.slots.filter (fun p => p.1 == 0), ksPending := none, lastCtx := 63 } }
  d.clearFields 0x700000 0x705000

/-- Every Hinge list is dropped, and a halt cleared (R348, R267). -/
def Dev.hingeReset (d : Dev) : Dev :=
  { d with hinge := { d.hinge with chans := [], halt := false } }

/-- Blocks of commands and scans leave Bifold; those of drains stay (R285). -/
def Dev.bifoldReset (d : Dev) : Dev :=
  (d.bifold.jobs.filter (fun j => match j.owner with
    | .drain _ => false
    | _ => true)).foldl (fun d j => d.dropJob j.owner) d

/-- Every Sill in service is flush-invalidated; outstanding maintenance goes with its command (R212). -/
def Dev.sillsReset (d : Dev) : Dev :=
  let d : Dev := { d with maint := [] }
  [0, 1, 2, 3].foldl (fun d c => if d.casUp c then d.sillClear c true else d) d

/-- FUNCTION_LEVEL_RESET. -/
def Dev.functionReset (d : Dev) : Dev :=
  let d := ((((d.jambReset.sillsReset).storesReset).hingeReset).bifoldReset).contextsReset.digestReset
  (d.clearFields 0xC 0x10).clearFields 0x8 0xC

/-- LINK_RESET: PERST_N is asserted, with the scope of a Function Level Reset (R436). -/
def Dev.linkReset (d : Dev) : Dev :=
  let d := d.functionReset
  { d with life := { d.life with perst := true } }

/-! ### Resets that restart the boot ROM -/

/-- A drive after a reset: what it holds and how it is attached. -/
def Drive.rest (x : Drive) : Drive := { x with ready := false, resetting := false, failed := false, sinceFlush := 0, retried := false }

/-- Threshold after a reset or a loss of power: committed STOREs, wear and the halt record; units that no commit names are
released (R284, R285, R437). A drain begins its STORE again. -/
def Thr.rest (t : Thr) : Thr :=
  let kept := (t.stores.filter (fun g => decide (g.phase = .staged))).map (fun g => { g with written := false, flushed := false, blocks := 0, image := [], sent := false })
  let named := kept.flatMap Stg.units
  { t with
    stores := kept, pfSafe := false, syncs := []
    units := t.units.filterMap (fun p =>
      let y : TUnit := { p.2 with used := named.contains p.1 }
      if y = ({} : TUnit) then none else some (p.1, y)) }

/-- PARKED contexts, and of near memory the parking segment. -/
def Dev.parkedPart (d : Dev) : Pipes × Sparse Byte × Sparse Bool :=
  ({ ctxs := d.pipes.ctxs.filter (fun q => q.2.state == 5) },
   if bitAt d.mem.nearUp 0 then d.mem.cells.filter (fun p => decide (p.1 < d.parkBytes)) else [],
   if bitAt d.mem.nearUp 0 then d.mem.poison.filter (fun p => decide (p.1 * 32 < d.parkBytes)) else [])

/-- The counters of 0xA100 + n of PARKED contexts, which their records hold (R445). -/
def Dev.parkedCounters (d : Dev) : Sparse Nat :=
  d.objs.filter (fun p => decide (0xA100 ≤ p.1 / 256 ∧ p.1 / 256 < 0xA200) && (d.ctx (p.1 / 256 - 0xA100)).state == 5)

/-- Everything that main power holds is lost: kept are Threshold, drives, flash and fuses, the pins and supplies, temperatures,
and where `park` the PARKED contexts with the parking segment. Command numbers run on. -/
def Dev.loseMain (d : Dev) (park : Bool) : Dev :=
  let p := d.parkedPart
  { flds := [], objs := if park then d.parkedCounters else [], host := d.host, hostBad := d.hostBad
    jamb := { nextCmd := d.jamb.nextCmd, nextDisp := d.jamb.nextDisp }
    mem := { cells := if park then p.2.1 else [], poison := if park then p.2.2 else []
             nearUp := d.mem.nearUp, parkGiB := d.mem.parkGiB, nearTemp := d.mem.nearTemp, farTemp := d.mem.farTemp }
    thr := d.thr.rest
    drives := d.drives.filterMap (fun (q : Nat × Drive) => if q.2.rest = ({} : Drive) then none else some (q.1, q.2.rest))
    pipes := if park then p.1 else {}
    sash := { links := d.sash.links }
    life := { d.life with active := [], parkOk := false, parking := false, parked := false, idle := false, running := {}
                          microcode := [], slot := 0, handoff := none, incoming := {}, staging := 0, wholeWindow := 0 }
    ordering288 := d.ordering288, timeBase := d.timeBase, out := d.out, free := d.free }

/-- A field of Lintel's or the power block, which keep their supply while the engine is parked. -/
def alwaysOnField (key : Nat) : Bool :=
  let off := key / 32
  decide (0x10000 ≤ off ∧ off < 0x1A000) || decide (0xE00000 ≤ off ∧ off < 0xE10000)

/-- What is lost while the engine is parked and the main supplies go: the always-on domain keeps Lintel with the dictionary
and Sash, the time base and the power block (R442). -/
def Dev.loseParked (d : Dev) : Dev :=
  let e := d.loseMain true
  { e with
    flds := d.flds.filter (fun p => alwaysOnField p.1), objs := d.objs, sash := d.sash
    life := { d.life with microcode := [] }
    dig := { pubKey := d.dig.pubKey, keyId := d.dig.keyId, certOk := d.dig.certOk } }

/-- The test access port stays as it stands: it hangs on its supply and on TRST_N alone (R475). -/
def Dev.keepTap (d : Dev) (t : Tap) : Dev := { d with tap := t }

/-- A device reset flush-invalidates the Sills and keeps PARKED contexts (R212); a persist under way ends first, its response and the requests held behind it lost
(R394). -/
def Dev.loseDevice (d : Dev) : Dev := (if d.sash.persist.isSome then d.persistWrite else d).sillsReset.loseMain true |>.keepTap d.tap

/-- A context whose parking segment went with a change of P or the loss of stack 0 no longer matches its tags (assumption log
72). -/
def Dev.spoilParked (d : Dev) : Dev :=
  { d with pipes := { d.pipes with ctxs := d.pipes.ctxs.map (fun (q : Nat × Ctx) => (q.1, { q.2 with parkBad := true })) } }

end Sys2Proof.Machine
end

