-- ==== Sys2Proof/Machine/Parking.lean ====
section
/-!
DEFINITION. Going dark: the start of parking (R444) and its end in the memories (R227).
-/

namespace Sys2Proof.Machine

/-- Parking can begin: the engine is READY, not halted, with no hand-off under way, and not parking or parked (R444,
R449). -/
def Dev.mayPark (d : Dev) : Bool :=
  d.life.shelfDark && !d.halted && d.life.handoff.isNone && !d.life.parking && !d.life.parked
  && d.fget F.LM_STAT_STAGE == 4

/-- A PIPE_RUN or PIPE_RESUME that parks instead of being flushed: of a context in RUNNING or PARKING without FABRIC. -/
def Dev.parksInstead (d : Dev) (c : Cmd) : Bool :=
  let x := d.ctx (cmdCtx c)
  (c.opcode == opPipeRun || c.opcode == opPipeResume) && x.runCmd == some c.id && (x.state == 2 || x.state == 4)
  && !x.prog.fabric

/-- Step 2 of R444 on one queue: a flush that spares the commands that park. -/
def Dev.darkFlush (d : Dev) (q : Nat) : Dev :=
  let x := d.queue q
  if x.st = .active ∨ x.st = .error then
    let d := d.setQueue q { x with st := .flushing, flushTo := x.sqP, sqC := x.sqP }
    let cs := d.jamb.cmds.filter (fun c => decide (c.queue = q))
    let d := (cs.filter (fun c => c.phase = .fetched)).foldl (fun d c => d.finish c.id 0x0401 (zeros 16) 0) d
    let d := (cs.filter (fun c => c.phase = .dispatched)).foldl (fun d c => if d.parksInstead c then d else d.flushCmd c) d
    ((d.settleQueue q).mirror q).ocount O.FLUSHES 1
  else d

/-- Steps 2 and 3 of R444 on the contexts: FABRIC ones are cancelled, the others go to their cut; with DARK_ACTION 1 every one
is cancelled. Other values of DARK_ACTION are taken as 0 (R458). -/
def Dev.darkContexts (d : Dev) : Dev :=
  let all := d.oget O.DARK_ACTION == 1
  (d.pipes.ctxs.map Prod.fst).foldl (fun d c =>
    let x := d.ctx c
    if all then d.cancelCtx c 0x0402
    else if (x.state = 2 ∨ x.state = 4) ∧ x.prog.fabric = true then d.cancelCtx c 0x0402
    else if x.state = 2 ∧ x.ending.isNone = true then d.setCtx c { x with state := 4 }
    else d) d

/-- Parking starts, where it can. -/
def Dev.startParking (d : Dev) : Dev :=
  if d.mayPark then
    let d : Dev := { d with life := { d.life with parking := true } }
    let d := (d.jamb.queues.map Prod.fst).foldl (fun d q => d.darkFlush q) d
    d.darkContexts
  else d

/-- Every context gathered or ended, no command but backlogged ones, no retrain, no remap and no queued request (R227, R444, R449). -/
def Dev.parkReady (d : Dev) : Bool :=
  d.life.parking && !d.halted && d.activeCtxs.isEmpty && d.jamb.cmds.all (fun c => decide (c.phase = .backlogged))
  && d.mem.retrainNear.isEmpty && d.mem.retrainFar.isEmpty && d.mem.remaps.isEmpty && d.memQuiet

/-- The memories as parking leaves them: the Sills' write-backs complete, stack 0 keeps the parking segment, everything else is lost (R227); the key store has
lost its supply (R323). -/
def Dev.parkMemories (d : Dev) : Dev :=
  let d := [0, 1, 2, 3].foldl (fun d c => if d.casUp c then d.sillClear c true else d) d
  let p := d.parkedPart
  { d with
    mem := { d.mem with cells := p.2.1, poison := p.2.2, banks := [], selfRefresh := true }
    sill := [], dig := { d.dig with slots := [], ctxs := [], ksPending := none } }

end Sys2Proof.Machine
end

