-- ==== Sys2Proof/Machine/Boot.lean ====
section
/-!
DEFINITION. Power-up: the boot ROM (R324, R438, R440, R441), the start of firmware (R394, R438), the training of both memories
(R218, R228, R234), microcode and self-tests, the staging area (R285) and READY.
-/

namespace Sys2Proof.Machine

/-! ### What a board brings -/

/-- Objects of a persisted copy: RWP ones, cut to their size. -/
def persistedObjs (l : List (BitVec 16 × BitVec 8 × Bytes)) : Sparse Nat :=
  l.foldl (fun (m : Sparse Nat) e =>
    let i := e.1.toNat
    let s := e.2.1.toNat
    match objRow i s with
    | some r => if r.acc = .rwp then Sparse.set (r.default i) m (objKey i s) (leNat e.2.2 % 2 ^ (8 * r.size)) else m
    | none => m) []

/-- The board's flash and fuses. -/
def Board.fit (b : Board) (l : Life) : Life :=
  { l with
    lintel := Sparse.setAll [] [] [(0, b.lintelA), (1, b.lintelB)]
    micro := Sparse.setAll [] [] [(0, b.microA), (1, b.microB)]
    cert := b.cert, boot := (b.boot.take 2).map (fun c => (c.1.toNat, c.2.toNat))
    persisted := (b.persisted.take 2).map (fun c => { seq := c.1.toNat, objs := persistedObjs c.2 })
    fuses := Sparse.setAll 0 [] (b.fuses.map (fun w => (w.1.toNat, w.2.toNat))) }

/-! ### Boot ROM -/

/-- What the part trusts (R326, R456). -/
def Dev.trust (d : Dev) : Trust :=
  { signers := (List.range 4).map (fun i => d.fuseBytes (12 + 12 * i) 48)
    revoked := Sparse.get 0 d.life.fused 60 % 16
    minSvn := ((List.range 8).map (fun i => popCount (Sparse.get 0 d.life.fused (61 + i)) 32)).sum }

/-- The identity key into slot 0 (R324). -/
def Dev.deriveIdentity (d : Dev) : Dev :=
  let s := identityScalar (d.fuseBytes 0 48)
  let q := publicKey s
  (d.setSlot 0 (slotOf 1 (beBytes 48 s))) |> fun (d : Dev) => { d with dig := { d.dig with pubKey := q, keyId := sha384 q } }

/-- PREFERRED of the boot record: the valid copy with the higher SEQ, 0 where there is none (R440). -/
def Life.preferred (l : Life) : Nat :=
  (l.boot.foldl (fun (m : Option (Nat × Nat)) c => match m with
    | some q => if q.1 < c.1 then some c else some q
    | none => some c) none).elim 0 Prod.snd

/-- The check that rejected a slot. -/
def Dev.reject (d : Dev) (slot check : Nat) : Dev :=
  d.fput (if slot = 0 then F.LM_STAT_REJECT_A else F.LM_STAT_REJECT_B) check

/-- A Lintel image runs from a slot. -/
def Dev.runSlot (d : Dev) (slot : Nat) (b : Bytes) : Dev :=
  let d : Dev := { d with life := { d.life with running := runningOf b, slot := slot } }
  (d.fput F.LM_STAT_SLOT slot).fput F.LM_STAT_STAGE 3

/-- Steps 4 and 5: fuses, slot 0, boot record, and the Lintel image of the preferred slot or of the other; RECOVERY when both
are rejected. -/
def Dev.bootRom (d : Dev) : Dev :=
  let d : Dev := { d with life := { d.life with fused := d.life.fuses } }
  let d := d.deriveIdentity
  let p := d.life.preferred
  let image (s : Nat) : Bytes := Sparse.get [] d.life.lintel s
  let r := imageReject d.trust 1 (image p)
  if r = 0 then d.runSlot p (image p)
  else
    let d := d.reject p r
    let o := 1 - p
    let r := imageReject d.trust 1 (image o)
    if r = 0 then (d.runSlot o (image o)).fputB F.LM_STAT_FALLBACK true
    else (d.reject o r).fput F.LM_STAT_STAGE 5

/-! ### Start of firmware -/

/-- The head of a subject public key of P-384 as DER encodes it (RFC 5480), and the key. -/
def spkiOf (key : Bytes) : Bytes :=
  [0x30, 0x76, 0x30, 0x10, 0x06, 0x07, 0x2A, 0x86, 0x48, 0xCE, 0x3D, 0x02, 0x01, 0x06, 0x05, 0x2B, 0x81, 0x04, 0x00, 0x22,
   0x03, 0x62, 0x00, 0x04] ++ key

/-- A run of bytes occurs in another. -/
def occursIn (p : Bytes) : Bytes → Bool
  | [] => p.isEmpty
  | b :: bs => p.isPrefixOf (b :: bs) || occursIn p bs

/-- Step 6: persisted objects, or the defaults with source 473; the objects that apply at a reset; certificate (R324, R394). -/
def Dev.firmwareStart (d : Dev) : Dev :=
  let copy := d.life.newest
  let d : Dev := { d with
    objs := d.objs.foldl (fun (m : Sparse Nat) p => Sparse.insert m p.1 p.2) (copy.elim [] Persisted.objs)
    dig := { d.dig with certOk := occursIn (spkiOf d.dig.pubKey) d.life.cert } }
  let d := d.oput O.PERSIST_WRITES (copy.elim 0 Persisted.seq)
  let d : Dev := { d with life := { d.life with active := d.rwpObjs } }
  let d := d.restoreFields
  match copy with
  | some _ => d
  | none => (d.oput O.PERSIST_STATE 1).faultRaise 473 0 false

/-! ### Training (R218, R228, R234) -/

/-- An object that applies at a reset, brought to the nearer limit. -/
def Dev.aclamp (d : Dev) (o : Obj) (lo hi : Nat) : Nat := max lo (min hi (d.oact o))

/-- A channel that fails training is retired, with its source (R228, R233). -/
def Dev.trainFailed (d : Dev) (ch : Nat) : Dev :=
  (d.oput (O.CH_STATE ch) 4).faultRaise (if ch < 96 then 450 else 453) (memSyndrome 0 ch 0) false

/-- A channel number of a stack that is marked retired. -/
def Dev.stackRetired (d : Dev) (k : Nat) : Bool := (List.range 16).any (fun i => d.oget (O.CH_STATE (16 * k + i)) != 0)

/-- Near memory trains: P, and the stacks that stay in service. A change of P, or stack 0 out of service, spoils what the
parking segment held. -/
def Dev.trainNear (d : Dev) (fail : Nat) : Dev :=
  let tried := (List.range 6).filter (fun k => !d.stackRetired k)
  let bad := tried.filter (bitAt fail)
  let d := bad.foldl (fun d k => (List.range 16).foldl (fun d i => d.trainFailed (16 * k + i)) d) d
  let d := if bad = [] then d else d.persistWrite
  let up := (tried.filter (fun k => !bitAt fail k)).foldl (fun m k => setBit m k true) 0
  let p := d.aclamp O.PARK_SEG_SIZE 1 8
  let kept := decide (p = d.mem.parkGiB) && bitAt up 0
  let d : Dev := { d with mem := { d.mem with nearUp := up, parkGiB := p
                                              cells := if kept then d.mem.cells else []
                                              poison := if kept then d.mem.poison else [] } }
  if kept then d else d.spoilParked

/-- Every DIMM is a registered one with x4 devices and ECC, of a size, rank count and speed that R218 takes. -/
def Dimm.fits (x : Dimm) : Bool :=
  x.rdimm && x.x4 && x.ecc && [32, 64, 96, 128].contains x.gib.toNat && (x.ranks == 1 || x.ranks == 2)
  && decide (4800 ≤ x.rated.toNat)

/-- The rate at or below a rated speed. -/
def farRateOf (rated : Nat) : Nat := if 6400 ≤ rated then 6400 else if 5600 ≤ rated then 5600 else 4800

/-- The population R218 accepts: DIMMs per channel, and the part they all are. -/
def population (l : List (Option Dimm)) : Option (Nat × Dimm) :=
  let slot (k : Nat) : List (Option Dimm) := (List.range 8).map (fun c => (l.getD (2 * c + k) none))
  let first := slot 0
  let second := slot 1
  match first.head? with
  | some (some x) =>
    if x.fits = false ∨ first.all (fun y => y == some x) = false then none
    else if second.all Option.isNone then some (1, x)
    else if second.all (fun y => y == some x) then some (2, x)
    else none
  | _ => none

/-- Far memory trains: the population, the channels in service, and the remap reserve (R218, R228, R237). -/
def Dev.trainFar (d : Dev) (fail : Nat) : Dev :=
  let m := { d.mem with farUp := 0, farState := 0, farRate := 0, farCapacity := 0, farRanks := 1, reserve := 0 }
  if (d.life.dimms.take 16).all Option.isNone then { d with mem := m }
  else
    match population d.life.dimms with
    | none => { d with mem := { m with farState := 2 } }
    | some (n, x) =>
      let tried := (List.range 8).filter (fun c => d.oget (O.CH_STATE (96 + c)) == 0)
      let bad := tried.filter (bitAt fail)
      let d := bad.foldl (fun d c => d.trainFailed (96 + c)) d
      let d := if bad = [] then d else d.persistWrite
      let up := (tried.filter (fun c => !bitAt fail c)).foldl (fun m c => setBit m c true) 0
      let cap := 8 * n * x.gib.toNat * Config.gib
      let f := cap / 8 * popCount up 8
      let d : Dev := { d with mem := { d.mem with
        farUp := up, farState := if up = 0 then 3 else 1, farRate := farRateOf x.rated.toNat, farCapacity := cap
        farRanks := n * x.ranks.toNat, reserve := 0 } }
      let r := min (d.oact O.REMAP_RESERVE) (f / 4) / Config.gib * Config.gib
      { d with mem := { d.mem with reserve := r } }

/-- Both memories train; every channel starts in service at its present temperature, and the pipeline region is laid out
(R64). -/
def Dev.train (d : Dev) (t : Tests) : Dev :=
  let d := (d.trainNear t.nearFail.toNat).trainFar t.farFail.toNat
  let d : Dev := { d with mem := { d.mem with
    chans := [], subs := [], banks := [], retrainNear := [], retrainFar := [], remaps := [], reserveUsed := 0
    nearHot := hotNow false (d.mem.nearTemp.map Prod.snd), farHot := hotNow false (d.mem.farTemp.map Prod.snd)
    selfRefresh := false
    region := min (d.aclamp O.PIPE_REGION_SIZE (2 ^ 26) (2 ^ 37)) (d.interleaved / 2) } }
  (List.range 104).foldl (fun d ch => if d.chanUp ch then d.setChan ch { trainedAt := d.chanTemp ch } else d) d

/-! ### Casements, staging, READY -/

/-- The microcode image of the booted slot, or of the first slot that passes where firmware was recovered (R438, R441). -/
def Dev.bootMicro (d : Dev) : Option Bytes :=
  let ok (s : Nat) : Bool := imageReject d.trust 2 (Sparse.get [] d.life.micro s) == 0
  let s := if d.life.slot < 2 then [d.life.slot] else [0, 1]
  (s.find? ok).map (Sparse.get [] d.life.micro)

/-- A Casement is brought up within a measurement window (R26). -/
def Dev.broughtUp (d : Dev) (c : Nat) : Dev :=
  { d with life := { d.life with wholeWindow := setBit d.life.wholeWindow c false } }

/-- A Casement runs microcode. -/
def Dev.runMicro (d : Dev) (c : Nat) (r : Running) : Dev :=
  let d : Dev := { d with life := { d.life with microcode := Sparse.set {} d.life.microcode c r, staging := setBit d.life.staging c false } }
  ((d.broughtUp c).fput (F.CS_STAT_STATE c) 3).fput (F.CS_MC_VER_VERSION c) r.version

/-- The Panes and Louvre banks of a Casement are tested; those that fail raise their source and stay fenced. -/
def Dev.testUnits (d : Dev) (c badPanes badBanks : Nat) : Dev :=
  let d := (List.range 24).foldl (fun (d : Dev) i =>
    let p := 24 * c + i
    if bitAt badPanes p then
      ((d.setPane p { fenced := true }).oput (O.SELFTEST_RESULT p) 2).faultRaise (4 * p + 3) 0 false
    else d.oput (O.SELFTEST_RESULT p) 1) d
  (List.range 4).foldl (fun (d : Dev) b =>
    if bitAt badBanks (4 * c + b) then
      (d.setLvBank c b { d.lvBank c b with fenced := true }).faultRaise (casSource c 4) (b * 2 ^ 16) false
    else d) d

/-- Steps 8 and 10: microcode into every Casement, self-tests, service. -/
def Dev.bringCasements (d : Dev) (t : Tests) : Dev :=
  let d : Dev := { d with louvre := {}, sill := [], maint := [], bifold := {}, pipes := { d.pipes with panes := [], latches := [], works := [] } }
  let micro := d.bootMicro
  let d := [0, 1, 2, 3].foldl (fun d c =>
    match micro with
    | some b =>
      if bitAt t.microFail.toNat c then (d.fput (F.CS_STAT_STATE c) 6).fenceEvent
      else (d.runMicro c (runningOf b)).testUnits c t.badPanes.toNat t.badBanks.toNat
    | none =>
      let d := d.fput (F.CS_STAT_STATE c) 6
      if d.life.slot < 2 then d.fenceEvent else d) d
  [0, 1, 2, 3].foldl (fun (d : Dev) c => d.shadowSearch c) d

/-- The values of GROUP_BIFURCATION in force. -/
def Dev.bifurcation (d : Dev) : List Nat := (List.range 12).map (fun g => d.oact (O.GROUP_BIFURCATION g))

/-- Step 9: staging is rebuilt from Threshold; step 12: the drives of the slots that exist are enumerated, and drains
resume (R285, R286, R288). -/
def Dev.bringDrives (d : Dev) : Dev :=
  let d := d.thr.stores.foldl (fun d g => d.stageBytes g.units (g.units.length + 1) 0 g.data) d
  (List.range Config.slots).foldl (fun d s =>
    let up := (d.drive s).ready
    let d := d.setDrive s ((d.drive s).attach d.bifurcation s)
    if (d.drive s).present then (if up then d.driveBack s else (d.driveBack s).slotEvent s)
    else d.mapStores (fun g => decide (g.slot = s)) (fun g => { g with held := some 0x0601 })) d

/-- Step 11: READY; a shelf that is dark parks at once (R449). -/
def Dev.ready (d : Dev) : Dev :=
  let d := (d.fputB F.JB_STAT_HOLD false).fput F.LM_STAT_STAGE 4
  d.reportSelf.startParking

/-- Steps 7 to 12. -/
def Dev.bringUp (d : Dev) (t : Tests) : Dev := ((d.train t).bringCasements t).bringDrives.ready

/-- From the boot ROM to READY, or to RECOVERY. -/
def Dev.boot (d : Dev) (t : Tests) : Dev :=
  let d := d.bootRom
  if d.fget F.LM_STAT_STAGE = 5 then d else (d.firmwareStart).bringUp t

/-! ### DEVICE_RESET, POWER_ON, POWER_LOSS -/

/-- DEVICE_RESET: nothing while a main supply is out of range or the engine is parked (R436, R437). -/
def Dev.deviceReset (d : Dev) (t : Tests) : Dev := if d.life.supplies = false ∨ d.life.parked = true then d else d.loseDevice.boot t

/-- The way out of PARKED (R447): memory is trained, slot 0 rebuilt, microcode loaded, staging rebuilt. -/
def Dev.resume (d : Dev) (t : Tests) : Dev :=
  let d : Dev := { d with life := { d.life with parked := false, parkOk := false, parking := false } }
  (d.deriveIdentity.restoreFields).bringUp t

/-- A power-on from nothing: Threshold, drives, flash and fuses are all there is. THERMTRIP_SEEN tells of a trip before it
(R463). -/
def Dev.powerFresh (d : Dev) (board : Option Board) (t : Tests) : Dev :=
  let d := d.loseMain false
  let d : Dev := match board with
    | some b => { d with life := b.fit d.life, ordering288 := b.ordering288 }
    | none => d
  let d : Dev := { d with
    timeBase := 0
    life := { d.life with always := true, supplies := true, refclk := true, thermtrip := false
                          tripSeen := d.life.tripSeen || d.life.thermtrip } }
  d.boot t

/-- POWER_ON: the supplies come into range, with the DIMMs fitted then. From nothing, or where nothing has booted yet, it is a
power-on; with the always-on supply kept it ends PARKED, and from no parked state it boots with what the parking segment
still holds (assumption log 74). -/
def Dev.powerOn (d : Dev) (board : Option Board) (dimms : List (Option Dimm)) (t : Tests) : Dev :=
  let l := d.life
  let d : Dev := { d with life := { l with dimms := dimms } }
  if l.always = false ∨ (l.supplies = true ∧ d.fget F.LM_STAT_STAGE = 0) then d.powerFresh board t
  else if l.supplies then { d with life := l }
  else
    let d : Dev := { d with life := { d.life with supplies := true } }
    if l.refclk = false then d
    else if l.parked then (if l.shelfDark then d else d.resume t)
    else ((d.loseMain true).boot t)

/-- POWER_LOSS: the main supplies, and where `always` the always-on supply too, leave their range. A persist under way is cut
short (R284, R394, R452). -/
def Dev.powerLoss (d : Dev) (always : Bool) : Dev :=
  if always then
    let d := d.loseMain false
    { d with life := { d.life with always := false, supplies := false }, timeBase := 0 }
  else if d.life.supplies = false then d
  else
    let d := if d.life.parked then d.loseParked else d.loseMain true
    { d with life := { d.life with supplies := false } }

/-! ### The reference clock (R468) -/

/-- REFCLK_LOSS: source 474; while parked Lintel and the time base stop. -/
def Dev.refclkLoss (d : Dev) : Dev :=
  if d.life.refclk = false ∨ d.life.always = false then d
  else
    let e : Dev := { d with life := { d.life with refclk := false } }
    if d.life.parked = true ∨ d.life.supplies = false then e else e.faultRaise 474 0 false

/-- REFCLK_RETURN: the engine restarts from step 2 of R438, and PARKED contexts are lost. -/
def Dev.refclkReturn (d : Dev) (t : Tests) : Dev :=
  if d.life.refclk = true ∨ d.life.always = false then d
  else
    let d := d.loseMain false
    let d : Dev := { d with timeBase := 0, life := { d.life with refclk := true } }
    if d.life.supplies then d.boot t else d

end Sys2Proof.Machine
end

