-- ==== Sys2Proof/Machine/Drives.lean ====
section
/-!
DEFINITION. What happens to drives (R286 to R288), and the waits of Latch (R176, R177).
-/

namespace Sys2Proof.Machine

/-! ### Timeouts (R287) -/

/-- The engine command whose drive command took too long ends with MEDIA_ERROR; a drain write has failed once more, and a
pipeline fails with its scan. -/
def Dev.timedOut (d : Dev) (slot : Nat) (w : DriveWork) : Dev :=
  match w with
  | .fetch id =>
    match d.running id opFetch with
    | none => d
    | some c =>
      if (extentOf c.entry).1 = slot ∧ c.result = [] ∧ c.pulled = false ∧ needsDrive (d.visible c) (extentOf c.entry) = true then
        (d.finish id 0x0602 (fetchResult 0 0 0) 0).cutLists (fun w => w == .pull id) 0x0602
      else d
  | .drain =>
    match oldest ((d.drainQueue slot).filter (fun g => g.held.isNone)) with
    | none => d
    | some g => d.drainFailed slot 0xFFFF g
  | .scan c => if (d.ctx c.toNat).live && (d.ctx c.toNat).extentsLeft.any (fun e => e.slot == slot) then d.failCtx c.toNat 0x0602 else d

/-- NVME_TIMEOUT: the command ends, the status object tells of it, and the drive's controller is reset. -/
def Dev.nvmeTimeout (d : Dev) (slot : Nat) (w : DriveWork) : Dev :=
  if (d.drive slot).answers = false ∨ d.halted = true then d
  else
    let d := (d.nvmeStatus slot 0xFFFF).timedOut slot w
    (d.setDrive slot { d.drive slot with resetting := true, ready := false }).emit (.nvmeReset slot)

/-- DRIVE_READY_TIMEOUT: 10 s have passed since the reset, and the slot is taken as empty. -/
def Dev.readyTimeout (d : Dev) (slot : Nat) : Dev :=
  let x := d.drive slot
  if x.present = false ∨ x.resetting = false then d
  else (((d.setDrive slot { x with failed := true, resetting := false }).driveGone slot).driveLost slot)

/-- DRIVE_READY_AGAIN: the commands that waited proceed. -/
def Dev.readyAgain (d : Dev) (slot : Nat) : Dev :=
  let x := d.drive slot
  if x.present = false ∨ x.resetting = false then d
  else d.setDrive slot { x with resetting := false, ready := true }

/-! ### Hot plug (R286, R288) -/

/-- DRIVE_REMOVED; from a position without a slot nobody notices. -/
def Dev.driveRemoved (d : Dev) (slot : Nat) : Dev :=
  if (d.drive slot).present = false then d.setDrive slot {}
  else (((d.driveGone slot).setDrive slot {}).driveLost slot).slotEvent slot

/-- A drive as it is inserted. -/
def driveOf (s : DriveSpec) : Drive :=
  s.data.foldl (fun (x : Drive) p => x.write p.1.toNat p.2.1.toNat p.2.2)
    { fitted := true, lanes := s.width.toNat, speed := s.speed.toNat, vwc := s.vwc, serial := s.serial.toNat
      nguid := s.nguid.toNat
      spaces := s.spaces.map (fun n => { nsid := n.nsid.toNat, lbaSize := n.lbaSize.toNat, lbas := n.lbas.toNat }) }

/-- DRIVE_INSERTED: trained, enumerated and recorded in a slot that the bifurcation creates; at any other position it only
stands there. -/
def Dev.driveInserted (d : Dev) (slot : Nat) (s : DriveSpec) : Dev :=
  if Config.slots ≤ slot ∨ (d.drive slot).fitted = true then d
  else
    let d := d.setDrive slot ((driveOf s).attach d.bifurcation slot)
    if (d.drive slot).present then (d.driveBack slot).slotEvent slot else d

/-! ### The waits of Latch (R176, R177) -/

/-- A change of a node that is ready. -/
def Dev.readyChange (d : Dev) (c n : Nat) (f : NodeRun → NodeRun) : Dev :=
  let x := d.ctx c
  let y := x.node n
  if x.live = true ∧ n < x.nodes.length ∧ y.readyAt.isSome = true then d.setNode c n (f y) else d

/-- AGING_TIMEOUT: one list more, to at most list 7; an AGING_TIME of 0 disables aging. -/
def Dev.agingTimeout (d : Dev) (c n : Nat) : Dev :=
  if d.oget O.AGING_TIME = 0 then d else d.readyChange c n (fun y => { y with aged := min 7 (y.aged + 1) })

/-- AFFINITY_WAIT_EXPIRY: the wait of the local step is over, and the Panes that ran the node no later than that have left its
affinity (`lapsed`). -/
def Dev.affinityExpiry (d : Dev) (c n lapsed : Nat) : Dev :=
  let x := d.ctx c
  if x.live = true ∧ n < x.nodes.length then
    let y := x.node n
    d.setNode c n { y with affinityOver := y.affinityOver || y.readyAt.isSome
                           affinity := y.affinity.filter (fun p => !bitAt lapsed p) }
  else d

/-- CROSS_WAIT_EXPIRY. -/
def Dev.crossExpiry (d : Dev) (c n : Nat) : Dev := d.readyChange c n (fun y => { y with crossOver := true })

end Sys2Proof.Machine
end

