-- ==== Sys2Proof/Machine/Collector.lean ====
section
/-!
DEFINITION. The fault collector's commands: clearing a record (R425) and arming an injection (R432).
-/

namespace Sys2Proof.Machine

/-- FC_RECORD_CLEAR: a record's VALID and OVERFLOW clear; its other fields keep what they hold (assumption log 18). -/
def Dev.recordClear (d : Dev) (i : Nat) : Dev :=
  (d.fputB (F.FC_REC_STAT_VALID i) false).fputB (F.FC_REC_STAT_OVERFLOW i) false

/-- Sources without check bits, and reserved ones (R432). -/
def fiUnsupported (n : Nat) : Bool :=
  !faultListed n
  || (if n < 384 then n % 4 == 3
      else if n < 448 then (n - 384) % 16 == 12 || (n - 384) % 16 == 13
      else [454, 458, 462, 464, 465, 466, 467, 473, 474, 475, 476].contains n)

/-- MODE 3 is taken as 0. -/
def fiMode (mode : Nat) : Nat := if mode = 3 then 0 else mode

/-- A write of FI_CTL: MODE 0 disarms; ARM on a source that cannot be injected only sets UNSUPPORTED. -/
def Dev.fiWrite (d : Dev) (source bits mode : Nat) (arm : Bool) : Dev :=
  let d := ((d.fput F.FI_CTL_SOURCE source).fput F.FI_CTL_BITS bits).fput F.FI_CTL_MODE mode
  if arm = true ∧ fiUnsupported source = true then
    let d := if fiMode mode = 0 then d.fputB F.FI_CTL_ARM false else d
    d.fputB F.FI_STAT_UNSUPPORTED true
  else if fiMode mode = 0 then d.fputB F.FI_CTL_ARM false
  else if arm then d.fputB F.FI_CTL_ARM true
  else d

/-- FI_ARM. -/
def Dev.fiArm (d : Dev) (source bits mode : Nat) : Dev := d.fiWrite source bits mode true

end Sys2Proof.Machine
end

