-- ==== Sys2Proof/Machine/Fabric.lean ====
section
/-!
DEFINITION. Transom at work: membership (R355, R357), received frames (R358 to R363, R368, R369), SHUFFLE strips that go
out (R365), retransmission and peer loss (R360, R361), cancels (R371, R372) and PUT channels (R374).
-/

namespace Sys2Proof.Machine

/-! ### Flows of running pipelines -/

/-- The context whose SHUFFLE_IN or SHUFFLE_OUT uses a flow. -/
def Dev.flowCtx (d : Dev) (flow : Nat) : Option Nat :=
  if flow = 0 then none
  else ((d.rxFlow flow).map RxFlow.ctx).or ((d.net.tx.find? (fun t => t.flow = flow)).map TxFlow.ctx)

/-- The engine shares a running flow with a node (R361). -/
def Dev.sharesFlow (d : Dev) (n : Nat) : Bool :=
  d.net.rx.any (fun r => r.senders.any (fun s => s.node == n))
  || d.net.tx.any (fun t => (shuffleNodes ((d.ctx t.ctx).prog.node t.node).param).contains n)

/-- Credit units that come back for a destination of a flow (R362). -/
def Dev.addCredit (d : Dev) (flow node n : Nat) : Dev :=
  { d with net := { d.net with tx := d.net.tx.map (fun t =>
      if t.flow = flow then { t with credit := Sparse.set 0 t.credit node (Sparse.get 0 t.credit node + n) } else t) } }

/-! ### Membership (R354, R355, R357) -/

/-- The peer-table entry of a node. -/
def Dev.peerEntry (d : Dev) (n : Nat) : Bytes := d.engBytes (d.oget O.PEER_TABLE_ADDR + 32 * n) 32

/-- A peer-table entry is VALID and its must-be-zero fields are zero. -/
def entryValid (b : Bytes) : Bool := fieldAt b 0x17 1 == 1 && fieldAt b 0x1A 6 == 0

/-- A peer as its table entry reads at the commit, its stream kept where it was a member before. -/
def Peer.ofEntry (p : Peer) (b : Bytes) : Peer :=
  { p with addr := sliceAt b 0 16, mac := fieldAt b 0x10 6, ports := fieldAt b 0x16 1 % 4, vlan := fieldAt b 0x18 2
           lost := false, rounds := 0 }

/-- A PUT channel ends (R374). -/
def Dev.endPut (d : Dev) (n : Nat) (err : Bool) : Dev :=
  let d : Dev := { d with net := { d.net with puts := Sparse.set {} d.net.puts n {} } }
  let d := d.fputB (F.TR_PUT_STAT_DONE n) true
  if err then d.fputB (F.TR_PUT_STAT_ERR n) true else d

/-- PUT channels whose target a test picks end with ERR. -/
def Dev.cutPuts (d : Dev) (p : Nat → Bool) : Dev :=
  (d.net.puts.filter (fun q => q.2.busy && p q.2.node)).foldl (fun d q => d.endPut q.1 true) d

/-- EPOCH_COMMIT: a write of a new epoch. -/
def Dev.epochCommit (d : Dev) (epoch : Nat) : Dev :=
  let stage := d.oget O.MEMBER_STAGE
  let new := setBits stage 8192
  if d.netUp ∧ d.net.epoch < epoch ∧ new.contains d.nodeId = true ∧ new.all (fun n => entryValid (d.peerEntry n)) = true then
    let gone := (d.activeCtxs.flatMap (fun q => if q.2.prog.fabric then q.2.members else [])).filter (fun n => !new.contains n)
    let peers : Sparse Peer := new.foldl (fun m n => Sparse.set {} m n ((d.peer n).ofEntry (d.peerEntry n))) []
    let d : Dev := { d with net := { d.net with
      epoch := epoch, members := new, peers := peers, txq := d.net.txq.filter (fun f => new.contains f.dst) } }
    ((d.cutPuts (fun n => !new.contains n)).membersLost gone)
  else d.fputB F.TR_STAT_COMMIT_ERR true

/-- LOST_MAP: the peers lost since the last commit. -/
def Dev.lostMap (d : Dev) : Nat := (d.net.peers.map (fun p => if p.2.lost then 2 ^ p.1 else 0)).sum

/-! ### PUT channels (R374) -/

/-- A PUT channel. -/
def Dev.putChan (d : Dev) (n : Nat) : Put := Sparse.get {} d.net.puts n

/-- Put a PUT channel. -/
def Dev.setPut (d : Dev) (n : Nat) (x : Put) : Dev := { d with net := { d.net with puts := Sparse.set {} d.net.puts n x } }

/-- A PUT channel sends the frames it may, at most 64 of them unacknowledged; poison stops it (R427). The first number
bounds the frames. -/
def Dev.pumpPut (d : Dev) (n : Nat) : Nat → Dev
  | 0 => d
  | k + 1 =>
    let x := d.putChan n
    if x.busy = false ∨ x.len ≤ x.sent ∨ 64 ≤ x.open_.length then d
    else
      let size := min d.payloadLimit (x.len - x.sent)
      match d.readSpace true (x.src + x.sent) size with
      | .error st => (d.endPut n true).countPoison st
      | .ok b =>
        let d := d.sendFrame { type := 4, cls := d.dataClass, src := 0, dst := x.node, epoch := d.net.epoch, tag := x.dst
                               frag := x.sent / d.payloadLimit, off := x.sent, payload := b
                               flags := b2n (decide (x.sent + size = x.len)) }
        Dev.pumpPut (d.setPut n { x with sent := x.sent + size, open_ := x.open_ ++ [x.sent] }) n k

/-- TR_PUT_GO: a channel that is not busy starts. -/
def Dev.putGo (d : Dev) (n : Nat) : Dev :=
  if d.halted = true ∨ (d.putChan n).busy = true then d
  else
    let node := d.fget (F.TR_PUT_CTL_NODE n)
    let len := d.fget (F.TR_PUT_LEN_LEN n)
    if d.netUp = false ∨ d.net.members.contains node = false ∨ (d.peer node).lost = true then d.endPut n true
    else if len = 0 then d.endPut n false
    else
      let d := d.setPut n
        { busy := true, node := node, reg := d.fgetB (F.TR_PUT_CTL_DST_REG n)
          src := d.fget (F.TR_PUT_SRC_LO_ADDR n) + d.fget (F.TR_PUT_SRC_HI_ADDR n) * 2 ^ 32
          dst := d.fget (F.TR_PUT_DST_LO_ADDR n) + d.fget (F.TR_PUT_DST_HI_ADDR n) * 2 ^ 32, len := len }
      d.pumpPut n 64

/-- A PUT_ACK acknowledges the oldest frame outstanding of the channel whose target address it echoes. -/
def Dev.putAcked (d : Dev) (src tag : Nat) : Dev :=
  match d.net.puts.find? (fun q => q.2.busy && q.2.node == src && q.2.dst == tag && !q.2.open_.isEmpty) with
  | none => d
  | some (n, x) =>
    let x := { x with open_ := x.open_.tail }
    if x.open_ = [] ∧ x.len ≤ x.sent then (d.setPut n x).endPut n false else (d.setPut n x).pumpPut n 64

/-! ### Receiving (R352, R354, R358, R360) -/

/-- A frame that is dropped and counted. -/
def Dev.frameDrop (d : Dev) : Dev := d.ocount O.FRAMES_DROPPED 1

/-- A UDP payload arrives on a port. One of the type expected, from a member and addressed to the engine, acknowledges
frames of the reverse stream and is handed on. -/
def Dev.receive (d : Dev) (type port : Nat) (good : Bool) (bytes : Bytes) (k : Dev → Frame → Dev) : Dev :=
  if d.halted = true ∨ bitAt d.net.links port = false then d
  else
    let n := (d.ocount O.FRAMES_RX 1).ocount O.BYTES_RX bytes.length
    if d.netUp = false then n
    else if good = false then n.frameDrop
    else
      match parseFrame bytes with
      | none => n.frameDrop
      | some f =>
        if f.type ≠ type then d
        else if f.dst ≠ d.nodeId ∨ d.net.members.contains f.src = false then n.frameDrop
        else k (n.acked f.src f.ack) f

/-- A sequenced frame is accepted when its FSEQ is the one expected. -/
def Dev.accept (d : Dev) (f : Frame) : Option Dev :=
  let p := d.peer f.src
  if f.fseq = p.rxSeq then
    some (d.setPeer f.src { p with rxSeq := (p.rxSeq + 1) % 2 ^ 32, ackDue := true, ackFlow := f.flow })
  else none

/-- A frame of a flow whose epoch is not the local pipeline's is dropped and answered with REJECT, and the pipeline fails
(R357); any other goes on. -/
def Dev.epochGuard (d : Dev) (f : Frame) (k : Dev → Dev) : Dev :=
  match d.flowCtx f.flow with
  | none => k d
  | some c =>
    let e := (d.ctx c).epoch
    if f.epoch = e then k d
    else
      (d.sendFrame { type := 7, cls := 6, src := 0, dst := f.src, epoch := d.net.epoch, flow := f.flow
                     payload := leBytes 4 f.epoch ++ leBytes 4 e }).failCtx c 0x0502

/-! ### SHUFFLE_IN (R368, R369) -/

/-- A fragment joins its strip. -/
def RxSender.place (s : RxSender) (f : Frame) : RxSender :=
  if f.tag < s.next then s
  else
    let x := (s.strips.find? (fun x => x.tag = f.tag)).getD { tag := f.tag }
    let x : RxStrip := { x with
      frags := if x.frags.any (fun g => g.1 == f.frag) then x.frags else x.frags ++ [(f.frag, f.off, f.payload)]
      last := if f.flags % 2 = 1 then some f.frag else x.last }
    { s with strips := x :: s.strips.filter (fun y => decide (y.tag ≠ f.tag)) }

/-- A sender's next strip, once it is whole. -/
def RxSender.ready (s : RxSender) : Option (RxStrip × Bytes) :=
  match s.strips.find? (fun x => x.tag = s.next) with
  | some x => x.whole.map (fun b => (x, b))
  | none => none

/-- SHUFFLE_IN emits the strips of a sender that are whole, in TAG order; a strip of another schema fails the pipeline.
The first number bounds the strips. -/
def Dev.emitReceived (d : Dev) (flow node : Nat) : Nat → Dev
  | 0 => d
  | k + 1 =>
    match d.rxFlow flow with
    | none => d
    | some r =>
      match r.senders.find? (fun s => s.node = node) with
      | none => d
      | some s =>
        match s.ready with
        | none => d
        | some (x, b) =>
          let c := d.ctx r.ctx
          let nd := c.prog.node r.node
          if fieldAt b 16 8 ≠ schemaSum nd.schema then d.failCtx r.ctx 0x0104
          else
            let t := denseStrip (tagOf r.ctx r.node (r.emitted * 256)) (deserialize nd.schema b) (nd.schema.map (fun _ => 0))
            let y := c.node r.node
            let units := if node = d.nodeId then 0 else x.frags.length
            let d := (d.setNode r.ctx r.node { y with rx := y.rx ++ [t] }).mapSender flow node (fun s =>
              { s with next := s.next + 1, strips := s.strips.filter (fun z => decide (z.tag ≠ x.tag))
                       owed := Sparse.set 0 s.owed r.emitted units })
            let d : Dev := { d with net := { d.net with rx := d.net.rx.map (fun z =>
              if z.flow = flow then { z with emitted := z.emitted + 1 } else z) } }
            d.emitReceived flow node k

/-- A DATA frame of a flow reaches its SHUFFLE_IN. -/
def Dev.dataIn (d : Dev) (src : Nat) (f : Frame) : Dev :=
  match d.rxFlow f.flow with
  | none => d.ocount O.FLOW_UNKNOWN 1
  | some _ =>
    let d := d.mapSender f.flow src (fun s => s.place f)
    d.emitReceived f.flow src (((d.rxFlow f.flow).map (fun r =>
      ((r.senders.find? (fun s => s.node = src)).map (fun s => s.strips.length)).getD 0)).getD 0)

/-- An END of a flow gives the sender's strip count. -/
def Dev.endIn (d : Dev) (src : Nat) (f : Frame) : Dev :=
  match d.rxFlow f.flow with
  | none => d.ocount O.FLOW_UNKNOWN 1
  | some _ => d.mapSender f.flow src (fun s => { s with count := some f.tag })

/-! ### Frames of each type -/

/-- DATA_FRAME_RX. -/
def Dev.dataFrameRx (d : Dev) (port : Nat) (good : Bool) (bytes : Bytes) : Dev :=
  d.receive 1 port good bytes (fun d f =>
    match d.accept f with
    | none => d
    | some d => d.epochGuard f (fun d => (d.addCredit f.flow f.src f.credits).dataIn f.src f))

/-- END_FRAME_RX. -/
def Dev.endFrameRx (d : Dev) (port : Nat) (good : Bool) (bytes : Bytes) : Dev :=
  d.receive 2 port good bytes (fun d f =>
    match d.accept f with
    | none => d
    | some d => d.epochGuard f (fun d => (d.addCredit f.flow f.src f.credits).endIn f.src f))

/-- CREDIT_FRAME_RX. -/
def Dev.creditFrameRx (d : Dev) (port : Nat) (good : Bool) (bytes : Bytes) : Dev :=
  d.receive 3 port good bytes (fun d f => d.epochGuard f (fun d => d.addCredit f.flow f.src f.credits))

/-- PUT_ACK_RX. -/
def Dev.putAckRx (d : Dev) (port : Nat) (good : Bool) (bytes : Bytes) : Dev :=
  d.receive 5 port good bytes (fun d f => d.putAcked f.src f.tag)

/-- HELLO_RX: the peer is alive; its ACK counts. -/
def Dev.helloRx (d : Dev) (port : Nat) (good : Bool) (bytes : Bytes) : Dev := d.receive 6 port good bytes (fun d _ => d)

/-- REJECT_RX: the pipeline that sent the rejected frame fails (R357). -/
def Dev.rejectRx (d : Dev) (port : Nat) (good : Bool) (bytes : Bytes) : Dev :=
  d.receive 7 port good bytes (fun d f =>
    match d.flowCtx f.flow with
    | some c => if (d.ctx c).epoch = fieldAt f.payload 0 4 then d.failCtx c 0x0502 else d
    | none => d)

/-! ### Cancels (R371, R372) -/

/-- The 64 bytes of a CANCEL. -/
def CancelId.payload (i : CancelId) : Bytes := fit 16 i.query ++ leBytes 2 i.origin ++ zeros 6 ++ leBytes 4 i.epoch ++ zeros 36

/-- The identity a CANCEL's payload carries. -/
def cancelOf (b : Bytes) : CancelId := { query := sliceAt b 0 16, origin := fieldAt b 16 2, epoch := fieldAt b 24 4 }

/-- Send CANCEL frames to some peers. -/
def Dev.cancelFrames (d : Dev) (i : CancelId) (dsts : List Nat) : Dev :=
  dsts.foldl (fun d n => d.sendFrame { type := 8, cls := 7, src := 0, dst := n, epoch := d.net.epoch, payload := i.payload }) d

/-- Send CANCEL frames, to be repeated twice. -/
def Dev.cancelSend (d : Dev) (i : CancelId) (dsts : List Nat) : Dev :=
  let d := d.cancelFrames i dsts
  if dsts = [] then d
  else { d with net := { d.net with repeats := d.net.repeats ++ [{ id := i, dsts := dsts, left := 2 }] } }

/-- The members of an epoch, as far as the engine knows them: those in force, or those of a snapshot. -/
def Dev.membersOf (d : Dev) (epoch : Nat) : List Nat :=
  if d.net.epoch = epoch then d.net.members
  else ((d.pipes.ctxs.find? (fun q => q.2.prog.fabric && q.2.epoch == epoch)).map (fun q => q.2.members)).getD []

/-- A CANCEL has come, from the fabric or the chain: matching contexts are cancelled, and the first of its identity is
forwarded. Their cancels are not announced afresh. -/
def Dev.cancelArrived (d : Dev) (payload : Bytes) : Dev :=
  let i := cancelOf payload
  let owed := d.net.cancels
  let mine := (d.pipes.ctxs.filter (fun q => q.2.prog.fabric && q.2.prog.query == i.query)).map Prod.fst
  let d := mine.foldl (fun d c => d.cancelCtx c 0x0402) d
  let d : Dev := { d with net := { d.net with cancels := owed } }
  if d.net.remembered.contains i then d
  else
    let d : Dev := { d with net := { d.net with remembered := d.net.remembered ++ [i] } }
    d.cancelSend i (treeTargets (d.membersOf i.epoch) i.origin d.nodeId)

/-- CANCEL_FRAME_RX. -/
def Dev.cancelFrameRx (d : Dev) (port : Nat) (good : Bool) (bytes : Bytes) : Dev :=
  d.receive 8 port good bytes (fun d f => (d.ocount O.CANCELS_RX 1).cancelArrived f.payload)

/-- FABRIC_CANCEL_SEND: the oldest cancel owed goes to the tree children and, unless CANCEL_TX is cleared, over the
chain. -/
def Dev.fabricCancelSend (d : Dev) : Dev :=
  match d.net.cancels with
  | [] => d
  | c :: rest =>
    if d.halted then d
    else
      let d : Dev := { d with net := { d.net with cancels := rest, remembered := if d.net.remembered.contains c.1
        then d.net.remembered else d.net.remembered ++ [c.1] } }
      let d := d.cancelSend c.1 c.2
      if d.oget O.CANCEL_TX = 0 then d else d.sashCancel c.1.payload

/-- CANCEL_REPEAT_TIMER: the CANCEL frames sent longest ago are sent again, twice in all. -/
def Dev.cancelRepeat (d : Dev) : Dev :=
  match d.net.repeats with
  | [] => d
  | r :: rest =>
    if d.halted then d
    else
      let d := d.cancelFrames r.id r.dsts
      { d with net := { d.net with repeats := rest ++ (if 1 < r.left then [{ r with left := r.left - 1 }] else []) } }

/-- CANCEL_MEMORY_EXPIRY: the identity remembered longest is forgotten. -/
def Dev.cancelForget (d : Dev) : Dev := { d with net := { d.net with remembered := d.net.remembered.tail } }

/-! ### SHUFFLE_STRIP_SEND (R365) -/

/-- A fragment of a closed staging strip as a DATA frame. -/
def Dev.fragment (d : Dev) (flow epoch : Nat) (x : TxStrip) (i : Nat) : Frame :=
  let k := d.payloadLimit
  { type := 1, cls := d.dataClass, flags := b2n (decide (x.bytes.length ≤ (i + 1) * k)), src := d.nodeId, dst := x.dst
    epoch := epoch, flow := flow, tag := x.num, part := x.part, frag := i, off := i * k
    payload := (x.bytes.drop (i * k)).take k }

/-- Send what credit allows of one strip; the engine's own strips are delivered to its own SHUFFLE_IN. -/
def Dev.sendStrip (d : Dev) (ctx n flow epoch : Nat) (x : TxStrip) : Dev :=
  let own := decide (x.dst = d.nodeId)
  let count := ceilDiv x.bytes.length d.payloadLimit
  let credit := ((d.txFlow ctx n).map (fun t => Sparse.get 0 t.credit x.dst)).getD 0
  let k := if own then count - x.sent else min credit (count - x.sent)
  let d := (List.range k).foldl (fun d i =>
    let f := d.fragment flow epoch x (x.sent + i)
    if own then d.dataIn x.dst f else d.sendFrame f) d
  d.mapTx ctx n (fun t =>
    { t with credit := if own then t.credit else Sparse.set 0 t.credit x.dst (Sparse.get 0 t.credit x.dst - k)
             strips := if count ≤ x.sent + k then t.strips.filter (fun y => decide (y.dst ≠ x.dst ∨ y.num ≠ x.num))
               else t.strips.map (fun y => if y.dst = x.dst ∧ y.num = x.num then { y with sent := y.sent + k } else y) })

/-- END goes to every destination whose strips have all gone, once the input has ended. -/
def Dev.sendEnds (d : Dev) (ctx n epoch : Nat) : Dev :=
  match d.txFlow ctx n with
  | none => d
  | some t =>
    if t.inputOver = false then d
    else
      (shuffleNodes ((d.ctx ctx).prog.node n).param).foldl (fun d k =>
        if t.ended.contains k = true ∨ t.strips.any (fun x => x.dst == k) = true then d
        else
          let f : Frame := { type := 2, cls := d.dataClass, src := d.nodeId, dst := k, epoch := epoch, flow := t.flow
                             tag := Sparse.get 0 t.counts k }
          let d := if k = d.nodeId then d.endIn k f else d.sendFrame f
          d.mapTx ctx n (fun t => { t with ended := t.ended ++ [k] })) d

/-- SHUFFLE_STRIP_SEND: a SHUFFLE_OUT's closed strips go out while credit allows, oldest first, and then END. -/
def Dev.stripSend (d : Dev) (ctx n : Nat) : Dev :=
  match d.txFlow ctx n with
  | none => d
  | some t =>
    if d.halted then d
    else
      let e := (d.ctx ctx).epoch
      let d := t.strips.foldl (fun d x => d.sendStrip ctx n t.flow e x) d
      d.sendEnds ctx n e

/-! ### Timers and links (R353, R360, R361, R363) -/

/-- RETX_TIMEOUT: the sender sends again from the oldest unacknowledged frame onward. -/
def Dev.retransmit (d : Dev) (n : Nat) : Dev :=
  let p := d.peer n
  if p.unacked = [] ∨ d.halted = true then d
  else
    let d : Dev := { d with net := { d.net with txq := d.net.txq.filter (fun f => !(f.sequenced && f.dst == n)) } }
    let d := (d.setPeer n { p with rounds := p.rounds + 1, ackDue := false }).ocount O.RETRANSMITS 1
    p.unacked.foldl (fun d f => d.putOnWire { f with ack := p.rxSeq }) d

/-- The flow of a CREDIT frame to a node: one with units to return, else that of the frame it answers, while a local
pipeline has it. -/
def Dev.creditFlow (d : Dev) (n : Nat) : Nat :=
  match d.net.rx.find? (fun r => r.senders.any (fun s => s.node == n && s.back != 0)) with
  | some r => r.flow
  | none => if (d.flowCtx (d.peer n).ackFlow).isSome then (d.peer n).ackFlow else 0

/-- CREDIT_ACK_TIMEOUT: an acknowledgement or credit is owed to a peer and nothing else carries it. -/
def Dev.creditAck (d : Dev) (n : Nat) : Dev :=
  let flow := d.creditFlow n
  let back := d.net.rx.any (fun r => r.senders.any (fun s => s.node == n && s.back != 0))
  if (d.peer n).ackDue = false ∧ back = false then d
  else d.sendCredit flow n (match d.flowCtx flow with
    | some c => (d.ctx c).epoch
    | none => d.net.epoch)

/-- HELLO_TIMER. -/
def Dev.helloTimer (d : Dev) (n : Nat) : Dev :=
  if d.sharesFlow n then d.sendFrame { type := 6, cls := 6, src := 0, dst := n, epoch := d.net.epoch } else d

/-- RETX_LIMIT within its range. -/
def Dev.retxLimit (d : Dev) : Nat := d.oclamp O.RETX_LIMIT 2 32

/-- PEER_LOST: RETX_LIMIT rounds have brought no acknowledgement, or a peer that shares a running flow has been silent for
PEER_TIMEOUT. -/
def Dev.peerLost (d : Dev) (n : Nat) (silent : Bool) : Dev :=
  let p := d.peer n
  let due := if silent then d.sharesFlow n else !p.unacked.isEmpty && decide (d.retxLimit ≤ p.rounds)
  if d.halted = true ∨ d.net.members.contains n = false ∨ p.lost = true ∨ due = false then d
  else
    let d := ((d.setPeer n { p with lost := true }).raiseVector (d.oget O.LOST_VECTOR)).ocount O.PEERS_LOST 1
    ((d.faultRaise 466 0 false).cutPuts (fun k => k == n)).membersLost [n]

/-- FABRIC_PORT_LINK_CHANGE: a port goes down, which raises source 467, or comes up; frames that were kept go out where
they can. -/
def Dev.portLink (d : Dev) (port : Nat) (up : Bool) : Dev :=
  if bitAt d.net.links port = up then d
  else
    let d : Dev := { d with net := { d.net with links := setBit d.net.links port up, paused := Sparse.set 0 d.net.paused port 0 } }
    if up then d.drainWire else (d.faultRaise 467 0 false).drainWire

/-- PFC_PAUSE_RX: a pause frame names classes and, for each, whether it is paused from now on. -/
def Dev.pfcPause (d : Dev) (port named paused : Nat) : Dev :=
  if bitAt d.net.links port = false ∨ d.halted = true then d
  else
    let old := Sparse.get 0 d.net.paused port
    let now := (setBits named 7).foldl (fun v c => setBit v c (bitAt paused c)) old
    ({ d with net := { d.net with paused := Sparse.set 0 d.net.paused port now } } : Dev).drainWire

end Sys2Proof.Machine
end

