-- ==== Sys2Proof/Machine/Power.lean ====
section
/-!
DEFINITION. Power states (R442 to R444, R447), gating (R410, R443), the hold-up of R283, the thermal trip (R463), the core
rail (R467, R476) and the measured core rate (R26, R27).
-/

namespace Sys2Proof.Machine

/-! ### SHELF_DARK and PARK_OK (R444, R447, R449) -/

/-- SHELF_DARK_ASSERT: parking starts, or waits for a hand-off or the end of a bring-up. -/
def Dev.shelfDarkAssert (d : Dev) : Dev := ({ d with life := { d.life with shelfDark := true } } : Dev).startParking

/-- PARK_OK_ASSERT: everything gathered, the memories go to self-refresh and the engine is PARKED; where SHELF_DARK has been
deasserted it resumes at once (R449). -/
def Dev.parkOkAssert (d : Dev) (t : Tests) : Dev :=
  if d.parkReady = false then d
  else
    let d := d.parkMemories
    if d.life.shelfDark then { d with life := { d.life with parking := false, parked := true, parkOk := true } }
    else d.resume t

/-- SHELF_DARK_DEASSERT: a PARKED engine with every supply in range resumes. -/
def Dev.shelfDarkDeassert (d : Dev) (t : Tests) : Dev :=
  let d : Dev := { d with life := { d.life with shelfDark := false } }
  if d.life.parked = true ∧ d.life.supplies = true ∧ d.life.refclk = true then d.resume t else d

/-! ### Gating and IDLE (R410, R443) -/

/-- Nothing of Casement c is at work: the conditions of R443, and no strip on its Panes (assumption log 75). -/
def Dev.casementFree (d : Dev) (c : Nat) : Bool :=
  d.activeCtxs.all (fun q => q.2.nodes.all (fun y => decide (y.home ≠ c)))
  && (d.bcas c).queue.isEmpty && (List.range 12).all (fun e => ((d.bcas c).engine e).held.isNone)
  && (List.range 4).all (fun b => (d.lvBank c b).table.isNone)
  && d.pipes.works.all (fun w => decide (paneCas w.pane ≠ c))

/-- The registers of Casement c's block return to their reset values. -/
def Dev.clearCasement (d : Dev) (c : Nat) : Dev := d.clearFields (0x100000 + c * 0x100000) (0x200000 + c * 0x100000)

/-- CASEMENT_GATE_TIMEOUT: Sill is flush-invalidated and the Casement gated; its microcode is kept. -/
def Dev.gate (d : Dev) (c : Nat) : Dev :=
  if d.casUp c = false ∨ d.casementFree c = false ∨ d.oget O.CASEMENT_GATE_TIME = 0 ∨ d.halted = true then d
  else (((d.sillClear c true).clearCasement c).setLatch c {}).fput (F.CS_STAT_STATE c) 1

/-- CASEMENT_UNGATE: the Casement has its registers at reset values, then the mirrored ones from their objects. -/
def Dev.ungate (d : Dev) (c : Nat) : Dev :=
  let r := Sparse.get {} d.life.microcode c
  if d.fget (F.CS_STAT_STATE c) ≠ 1 ∨ r = {} ∨ d.halted = true then d
  else ((((d.clearCasement c).broughtUp c).fput (F.CS_STAT_STATE c) 3).fput (F.CS_MC_VER_VERSION c) r.version).restoreCas c

/-- The conditions of IDLE. -/
def Dev.idleFree (d : Dev) : Bool :=
  [0, 1, 2, 3].all (fun c => d.fget (F.CS_STAT_STATE c) == 1) && d.jamb.cmds.isEmpty
  && (d.thr.stores.filter (fun g => decide (g.phase = .staged))).isEmpty
  && d.mem.retrainNear.isEmpty && d.mem.retrainFar.isEmpty && d.memQuiet

/-- IDLE_TIMEOUT: both memories go to self-refresh with their contents kept and their rows closed (R223, R227). -/
def Dev.idleEnter (d : Dev) : Dev :=
  if d.idleFree = false ∨ d.oget O.IDLE_TIME = 0 ∨ d.halted = true ∨ d.life.parking = true ∨ d.life.parked = true then d
  else { d with life := { d.life with idle := true }, mem := { d.mem with selfRefresh := true, banks := [] } }

/-- IDLE_EXIT: the memories leave self-refresh. -/
def Dev.wake (d : Dev) : Dev :=
  if d.life.idle then { d with life := { d.life with idle := false }, mem := { d.mem with selfRefresh := false } } else d

/-! ### PWR_FAIL_N, THERMTRIP_N, watchdog -/

/-- Every landed STORE whose turn it is commits, in rounds. -/
def Dev.commitLanded (d : Dev) : Dev :=
  d.thr.stores.foldl (fun d _ => d.thr.stores.foldl (fun d g => d.storeCommit g.cmd) d) d

/-- PWR_FAIL_ASSERT (R283). -/
def Dev.pwrFailAssert (d : Dev) : Dev :=
  let d := if d.thr.pfSafe then d else d.commitLanded
  { d with thr := { d.thr with pfSafe := true }, life := { d.life with pwrFail := true } }

/-- PWR_FAIL_DEASSERT, for 1 ms with power present. -/
def Dev.pwrFailDeassert (d : Dev) : Dev :=
  { d with thr := { d.thr with pfSafe := false }, life := { d.life with pwrFail := false } }

/-- THERMTRIP: the engine halts with source number 0xFFFF in the record (R463). -/
def Dev.thermTrip (d : Dev) : Dev :=
  if d.life.thermtrip then d
  else
    let d := (d.halt 0xFFFF 0).emit .thermtrip
    { d with life := { d.life with thermtrip := true } }

/-- PERST_N_DEASSERT. -/
def Dev.perstDeassert (d : Dev) : Dev := { d with life := { d.life with perst := false } }

/-- HANDSHAKE_WATCHDOG: a stage of a Casement in service has made no progress for 1 ms (R420). -/
def Dev.watchdog (d : Dev) (c : Nat) : Dev :=
  if d.casUp c = false ∨ d.halted = true then d else d.faultRaise (casSource c 12) 0 false

/-! ### The measured core rate (R26 to R28) -/

/-- CRATE_WINDOW_CLOSE for one Casement: VALID is set for one that has been in service throughout the window. -/
def Dev.crateClose (d : Dev) (c : Nat) (x : Crate) : Dev :=
  let up := d.casUp c
  let d := d.fput (F.CRATE_C_RATE c) (if up then x.rate.toNat else 0)
  let d := d.fput (F.CRATE_C_TJ c) x.tj.toNat
  let d := d.fputB (F.CRATE_C_GATED c) (!up)
  let d := d.fputB (F.CRATE_C_VALID c) (up && bitAt d.life.wholeWindow c)
  { d with life := { d.life with wholeWindow := setBit d.life.wholeWindow c up } }

/-- CRATE_WINDOW_CLOSE. -/
def Dev.crateWindow (d : Dev) (x : List Crate) : Dev := x.zipIdx.foldl (fun d q => d.crateClose q.2 q.1) d

/-- The lowest rate of the Casements with VALID set (R28). -/
def Dev.lowestRate (d : Dev) : Option Nat :=
  ([0, 1, 2, 3].filter (fun c => d.fgetB (F.CRATE_C_VALID c))).foldl (fun (m : Option Nat) c =>
    let r := d.fget (F.CRATE_C_RATE c)
    some (m.elim r (min r))) none

/-! ### The core rail (R467, R476) -/

/-- CORE_VOLT_MODE; other values are taken as 0 (R477). -/
def Dev.voltMode (d : Dev) : Nat := let m := d.oget O.CORE_VOLT_MODE; if m ≤ 2 then m else 0

/-- A target within CORE_MV_MIN and CORE_MV_MAX, each taken within 650 to 900 mV. -/
def Dev.railLimit (d : Dev) (v : Nat) : Nat := max (d.oclamp O.CORE_MV_MIN 650 900) (min (d.oclamp O.CORE_MV_MAX 650 900) v)

/-- Five millivolts up or down from a target. -/
def railMove (v : Nat) (up down : Bool) : Nat := if up then v + 5 else if down then v - 5 else v

/-- The target of a 1 ms step in the mode in effect. -/
def Dev.railTarget (d : Dev) (vout iout : Nat) : Nat :=
  let v := d.fget F.AVS_TARGET_MV
  let next := match d.voltMode with
    | 1 =>
      let goal := d.oclamp O.RATE_TARGET 1000 2400
      match d.lowestRate with
      | some r => railMove v (decide (r < goal)) (decide (goal < r))
      | none => v
    | 2 =>
      let cap := d.oclamp O.POWER_CAP 100 600
      let watts := vout * iout / 1000
      railMove v (decide (watts < cap)) (decide (cap < watts))
    | _ => d.oget O.CORE_MV_SET
  d.railLimit next

/-- AVS_STEP: the regulator's readings, the temperatures of the dies that are powered, whether READ_VOUT has been out of
range for 100 µs, and the target that goes out. -/
def Dev.avsStep (d : Dev) (vout iout : Nat) (drifted : Bool) (temps : List (Option (BitVec 8))) : Dev :=
  if d.fget F.LM_STAT_STAGE ≠ 4 ∧ d.fget F.LM_STAT_STAGE ≠ 6 then d
  else
    let was := d.fget F.AVS_TARGET_MV
    let away := drifted && decide (was < ((vout - was) + (was - vout)) * 50)
    let d := ((d.fput F.AVS_STAT_VOUT_MV vout).fput F.AVS_STAT_IOUT_A iout).fputB F.AVS_STAT_FAULT away
    let d := temps.zipIdx.foldl (fun d q =>
      (d.fput (F.SENS_TEMP_TEMP q.2) (q.1.elim 0 BitVec.toNat)).fputB (F.SENS_TEMP_VALID q.2) q.1.isSome) d
    let next := if d.fgetB F.AVS_OVR_EN then d.fget F.AVS_OVR_MV else d.railTarget vout iout
    let d := ((d.fput F.AVS_TARGET_MV next).fput F.AVS_TARGET_MODE d.voltMode).emit (.avs next)
    if away then d.faultRaise 475 0 false else d

end Sys2Proof.Machine
end

