-- ==== Sys2Proof/Machine/Firmware.lean ====
section
/-!
DEFINITION. The Lintel mailbox (R451, R452, R455, R457): flash writes, activations, commit, recovery; and the fuses (R456).
-/

namespace Sys2Proof.Machine

/-! ### Operands and results -/

/-- LM_ADDR. -/
def Dev.lmAddr (d : Dev) : Nat := d.fget F.LM_ADDR_LO_ADDR + d.fget F.LM_ADDR_HI_ADDR * 2 ^ 32

/-- LM_LEN, at most 16 MiB. -/
def Dev.lmLen (d : Dev) : Nat := min (d.fget F.LM_LEN_LEN) (2 ^ 24)

/-- An operation ends: `LM_RESULT`, and `LM_CMD.GO` clears. -/
def Dev.lmEnd (d : Dev) (op code check : Nat) : Dev :=
  let d := ((d.fput F.LM_RESULT_OP op).fput F.LM_RESULT_CODE code).fput F.LM_RESULT_CHECK check
  (d.fputB F.LM_RESULT_DONE true).fputB F.LM_CMD_GO false

/-- An operation of the mailbox; RECOVERY has only RECOVER, operation 5 (R441). -/
def Dev.mailbox (d : Dev) (op : Nat) (f : Dev → Dev) : Dev :=
  if (d.fget F.LM_STAT_STAGE = 5 ∧ op ≠ 5) ∨ (d.life.parked = true ∧ op ≠ 1 ∧ op ≠ 4) then d.lmEnd op 2 0 else f d

/-- The image in a slot: Lintel firmware or microcode. -/
def Dev.flashImage (d : Dev) (micro : Bool) (slot : Nat) : Bytes :=
  Sparse.get [] (if micro then d.life.micro else d.life.lintel) slot

/-! ### FLASH_WRITE (R452) -/

/-- FLASH_WRITE: the image at LM_ADDR goes into a slot and is checked there. The slot booted is refused, and so is an image too
long for its place (assumption log 76); a poisoned source or a flash error ends with CODE 3. -/
def Dev.flashWrite (d : Dev) (slot : Nat) (micro flashError : Bool) : Dev :=
  let n := d.lmLen
  if slot = d.life.slot ∨ d.life.handoff.isSome = true ∨ (if micro then 2 ^ 23 else 2 ^ 24) < n then d.lmEnd 1 2 0
  else if flashError = true ∨ d.poisoned d.lmAddr n = true then d.lmEnd 1 3 0
  else
    let b := d.engBytes d.lmAddr n
    let d : Dev := { d with life := if micro then { d.life with micro := Sparse.set [] d.life.micro slot b }
      else { d.life with lintel := Sparse.set [] d.life.lintel slot b } }
    let r := imageReject d.trust (if micro then 2 else 1) b
    d.lmEnd 1 (if r = 0 then 0 else 1) r

/-! ### ACTIVATE_LINTEL (R452) -/

/-- ACTIVATE_LINTEL: the image of a slot is checked and takes over. One that does not report its start leaves the hold of R267
in force, with the hand-off under way, until HANDOFF_TIMEOUT. -/
def Dev.activateLintel (d : Dev) (slot : Nat) (starts : Bool) : Dev :=
  if d.life.handoff.isSome then d.lmEnd 2 2 0
  else
    let b := d.flashImage false slot
    let r := imageReject d.trust 1 b
    if r ≠ 0 then d.lmEnd 2 1 r
    else if starts then
      let d : Dev := { d with life := { d.life with running := runningOf b, slot := slot } }
      let d := (d.fput F.LM_STAT_SLOT slot).fputB F.LM_STAT_TRIAL (decide (slot ≠ d.life.preferred))
      (d.fputB F.LM_STAT_RECOVERED false).lmEnd 2 0 0
    else
      let d : Dev := { d with life := { d.life with
        handoff := some (d.life.running, d.life.slot, d.fgetB F.LM_STAT_TRIAL), incoming := runningOf b } }
      (d.fput F.LM_STAT_STAGE 6).fputB F.JB_STAT_HOLD true

/-- HANDOFF_TIMEOUT: the cores return to the old image, the hold ends, and parking that waited starts (R449, R452). Requests
held on the chain are served after it (Sash.lean). -/
def Dev.handoffTimeout (d : Dev) : Dev :=
  match d.life.handoff with
  | none => d
  | some _ =>
    let d : Dev := { d with life := { d.life with handoff := none, incoming := {} } }
    let d := (d.fput F.LM_STAT_STAGE 4).fputB F.JB_STAT_HOLD false
    (d.lmEnd 2 4 0).startParking

/-! ### ACTIVATE_CASEMENT (R428, R451) -/

/-- A LOUVRE_SEARCH of Casement c's copy ends when its activation fails (R267). -/
def Dev.searchesLost (d : Dev) (c : Nat) : Dev :=
  (d.jamb.cmds.filter (fun k => decide (k.phase = .dispatched ∧ k.opcode = opLouvreSearch ∧ fieldAt k.entry 17 1 = c))).foldl
    (fun d k => d.finish k.id 0x0404 (zeros 16) 0) d

/-- A Casement whose activation fails is fenced. -/
def Dev.activationFails (d : Dev) (c : Nat) : Dev := (((d.casementFence c).searchesLost c).lmEnd 3 5 0)

/-- A Casement enters service again: its Latch serves, its engines take blocks. -/
def Dev.rejoin (d : Dev) (c : Nat) (r : Running) : Dev :=
  let d := (d.runMicro c r).setLatch c { d.latch c with draining := false }
  let d := d.setBcas c { d.bcas c with stopped := false }
  ((List.range 24).foldl (fun (d : Dev) i => d.oput (O.SELFTEST_RESULT (24 * c + i)) 1) d).refillBlocks.testsPending c

/-- ACTIVATE_CASEMENT: the microcode of a slot is checked, the Casement drained and its Sill emptied, the microcode loaded and
the Panes tested (`pass`). A gated Casement is powered for it; software's writes to microcode staging make it fail
(R457). -/
def Dev.activateCasement (d : Dev) (c slot : Nat) (pass : Bool) : Dev :=
  if d.life.handoff.isSome = true ∨ d.halted = true then d.lmEnd 3 2 0
  else
    let b := d.flashImage true slot
    let r := imageReject d.trust 2 b
    if r ≠ 0 then d.lmEnd 3 1 r
    else
      let d := if d.casUp c then d.casementDrain c else d
      let d := if d.fget (F.CS_STAT_STATE c) = 1 then (d.clearCasement c).restoreCas c else d
      if pass = false ∨ bitAt d.life.staging c = true then d.activationFails c
      else (d.rejoin c (runningOf b)).lmEnd 3 0 0

/-! ### COMMIT and RECOVER (R441, R452) -/

/-- FIRMWARE_COMMIT: a copy of the boot record prefers the running slot; recovered firmware runs from none and is refused. -/
def Dev.firmwareCommit (d : Dev) (flashError : Bool) : Dev :=
  let l := d.life
  if l.slot ≥ 2 ∨ l.handoff.isSome = true then d.lmEnd 4 2 0
  else if flashError then d.lmEnd 4 3 0
  else
    let newest := l.boot.foldl (fun (m : Option (Nat × Nat)) c => match m with
      | some q => if q.1 < c.1 then some c else some q
      | none => some c) none
    let d : Dev := { d with life := { l with boot := (newest.elim 0 Prod.fst + 1, l.slot) :: newest.toList } }
    (d.fputB F.LM_STAT_TRIAL false).lmEnd 4 0 0

/-- RECOVER: in RECOVERY an image from host memory runs as firmware; elsewhere the operation is refused. A read that fails
leaves no image. -/
def Dev.recover (d : Dev) (t : Tests) : Dev :=
  if d.fget F.LM_STAT_STAGE ≠ 5 then d.lmEnd 5 2 0
  else
    let b := if d.hostFails d.lmAddr d.lmLen then [] else d.hostBytes d.lmAddr d.lmLen
    let r := imageReject d.trust 1 b
    if r ≠ 0 then d.lmEnd 5 1 r
    else
      let d : Dev := { d with life := { d.life with running := runningOf b, slot := 2 } }
      let d := (d.fputB F.LM_STAT_RECOVERED true).fput F.LM_STAT_STAGE 3
      (d.firmwareStart.bringUp t).lmEnd 5 0 0

/-! ### Fuses (R456) -/

/-- FUSE_READ: a fuse word into `FUSE_DATA`; the seed reads zero. -/
def Dev.fuseRead (d : Dev) (word : Nat) : Dev :=
  let v := if word < 12 then 0 else Sparse.get 0 d.life.fuses word
  (((d.fput F.FUSE_CTL_WORD word).fput F.FUSE_DATA_DATA v).fputB F.FUSE_CTL_READ false).fputB F.FUSE_CTL_DONE true

/-- FUSE_PROGRAM: the one bits of `FUSE_DATA` burn into a word; they take effect at the next device reset. -/
def Dev.fuseProgram (d : Dev) (word : Nat) : Dev :=
  let v := Sparse.get 0 d.life.fuses word ||| d.fget F.FUSE_DATA_DATA
  let d : Dev := { d with life := { d.life with fuses := Sparse.set 0 d.life.fuses word v } }
  ((d.fput F.FUSE_CTL_WORD word).fputB F.FUSE_CTL_PROGRAM false).fputB F.FUSE_CTL_DONE true

end Sys2Proof.Machine
end

