-- ==== Sys2Proof/Machine/Dictionary.lean ====
section
/-!
DEFINITION. Reading and writing objects (R64, R118, R139, R167, R191, R237, R272, R291, R310, R335, R351, R377, R386, R389,
R398, R435, R458, R477).
-/

namespace Sys2Proof.Machine

/-! ### What objects report -/

/-- SLOT_STATE of a slot (R291). -/
def Dev.slotState (d : Dev) (s : Nat) : Nat :=
  let x := d.drive s
  if (d.staged s).any (fun g => g.held.isSome) then 3
  else if x.failed then 4
  else if x.present = true ∧ x.ready = true ∧ x.resetting = false then 2
  else if x.present then 1
  else 0

/-- DISPATCH_STATE of a Pane (R191). -/
def Dev.dispatchState (d : Dev) (p : Nat) : Nat :=
  let x := d.pane p
  let cs := d.fget (F.CS_STAT_STATE (paneCas p))
  if cs = 0 then 5
  else if x.unfencing = true ∨ (x.draining = true ∧ d.pipes.works.all (fun w => w.pane != p) = true) then 3
  else if x.fenced = true ∨ cs = 6 then 4
  else if x.draining then 2
  else if d.paneHeld p then 1
  else 0

/-- POWER_STATE (R458). -/
def Dev.powerState (d : Dev) : Nat :=
  if d.halted then 4 else if d.life.parked then 3 else if d.life.parking then 2 else if d.life.idle then 1 else 0

/-- TJ_MAX: the highest valid junction of the compute and I/O dies (R477). -/
def Dev.tjMax (d : Dev) : Nat :=
  (List.range 5).foldl (fun m i => if d.fgetB (F.SENS_TEMP_VALID i) then max m (d.fget (F.SENS_TEMP_TEMP i)) else m) 0

/-- CORE_POWER_W. -/
def Dev.corePower (d : Dev) : Nat := d.fget F.AVS_STAT_VOUT_MV * d.fget F.AVS_STAT_IOUT_A / 1000

/-- PARK_BYTES_NEEDED. -/
def Dev.parkNeeded (d : Dev) : Nat :=
  ((d.pipes.ctxs.filter (fun q => q.2.state == 2 && !q.2.prog.fabric)).map (fun q => d.parkNeeds q.1)).sum

/-- Whether an operator is one of R128's users of chunks, or of R163's. -/
def joinNode (nd : Node) : Bool := nd.op == 0x12

/-- STATUS of `PCTX_STAT_n`: zero while the run goes on (R53). -/
def Ctx.lastStatus (x : Ctx) : Nat := if x.state = 2 ∨ x.state = 4 ∨ x.state = 5 then 0 else x.status

/-- CH_STATE: a retired channel shows its mark, another one its state (R237). -/
def Dev.chState (d : Dev) (ch : Nat) : Nat :=
  let mark := d.oget (O.CH_STATE ch)
  let s := (d.chan ch).state
  if mark ≠ 0 then mark else if s = 1 ∨ s = 2 then s else if d.chanUp ch then 0 else 5

/-- Objects 0x1000 to 0x1FFF. -/
def Dev.liveIdentity (d : Dev) (index sub : Nat) : Option Nat :=
  match index, sub with
  | 0x1000, 1 => some d.sash.addr
  | 0x1000, 2 => some d.sash.hops
  | 0x1000, 3 => some d.sash.links
  | 0x1000, 4 => some (leNat d.sashMac)
  | 0x1010, 3 => some (leNat (d.fuseBytes 71 16))
  | 0x1010, 4 => some (leNat (asciiBytes (if d.ordering288 then "FQ7840-AH288" else "FQ7840-AH216")))
  | _, _ => none

/-- Objects 0x2000 to 0x20FF. -/
def Dev.liveDevice (d : Dev) (index sub : Nat) : Option Nat :=
  match index, sub with
  | 0x2010, 0 => some (256 - (d.pipes.ctxs.filter (fun q => q.2.state != 0)).length)
  | 0x2030, 1 => some d.lvTablesBound
  | 0x2030, 2 => some d.freeBankCount
  | 0x2040, 1 => some (d.chunksUsed false joinNode * 2 ^ 21)
  | 0x2040, 2 => some (d.chunksUsed true joinNode * 2 ^ 21)
  | 0x2050, 1 => some (d.chunksUsed false (fun nd => !joinNode nd) * 2 ^ 21)
  | 0x2050, 2 => some (d.chunksUsed true (fun nd => !joinNode nd) * 2 ^ 21)
  | 0x2060, 1 => some d.freeUnits.length
  | 0x2060, 2 => some (d.thr.stores.filter (fun g => decide (g.phase = .staged))).length
  | 0x2060, 3 => some d.wearPct
  | 0x2080, 1 => some d.enginesReady
  | 0x2090, 1 => some (b2n d.hinge.halt)
  | 0x20A0, 1 => some (b2n d.halted)
  | 0x20A0, 2 => some d.panesUp.length
  | 0x20A0, 3 => some ([0, 1, 2, 3].filter (fun c => d.casUp c || d.fget (F.CS_STAT_STATE c) == 1)).length
  | 0x20A0, 4 => some (leNat d.thr.haltRec)
  | 0x20B0, 1 => some d.powerState
  | 0x20B0, 2 => some (d.pipes.ctxs.filter (fun q => q.2.state == 5)).length
  | 0x20B0, 3 => some d.parkNeeded
  | 0x20B0, 4 => some d.parkFree
  | 0x20B0, 6 => some d.life.slot
  | 0x20B0, 7 => some (d.fget F.LM_STAT_TRIAL)
  | 0x20C0, 1 => some (d.fget F.AVS_STAT_VOUT_MV)
  | 0x20C0, 2 => some (d.fget F.AVS_STAT_IOUT_A)
  | 0x20C0, 3 => some d.corePower
  | 0x20C0, 4 => some d.tjMax
  | 0x20C0, 5 => some (b2n d.life.tripSeen)
  | _, _ => if index = 0x2070 ∧ 1 ≤ sub ∧ sub ≤ 48 then some (d.slotState (sub - 1)) else none

/-- Objects of context n. -/
def Dev.liveContext (d : Dev) (n sub : Nat) : Option Nat :=
  let x := d.ctx n
  match sub with
  | 1 => some x.state
  | 2 => some x.lastStatus
  | 3 => some x.stripsDone
  | 4 => some x.rowsEmitted
  | 5 => some (leNat x.prog.query)
  | 6 => some x.epoch
  | 7 => some x.panes.length
  | _ => none

/-- Objects of Casement c, at their place in its record. -/
def Dev.liveCasement (d : Dev) (c at_ sub : Nat) : Option Nat :=
  match at_, sub with
  | 0x20, 1 => some (d.fget (F.LT_PANE_HOLD_HOLD c))
  | 0x20, 2 => some (d.readyList c).length
  | 0x20, 3 => some (d.storeUsed c)
  | 0x40, 2 => some (d.bcas c).queue.length
  | _, _ => none

/-- Objects of Pane p, at their place in its record. -/
def Dev.livePane (d : Dev) (p at_ sub : Nat) : Option Nat :=
  let x := d.pane p
  match at_, sub with
  | 2, 1 => some (b2n (x.testReq || x.draining || (x.fenced && x.failed)))
  | 2, 2 => some (d.dispatchState p)
  | 4, 1 => some (d.fget (F.PN_ARITH_STAT_MISMATCH (paneCas p) (p % 24)))
  | 4, 2 => some (d.fget (F.PN_ARITH_STAT_RETRY_OK (paneCas p) (p % 24)))
  | 8, 2 => some (b2n x.unfencing)
  | _, _ => none

/-- Objects of queues, fabric, memories, security and rates. -/
def Dev.liveRest (d : Dev) (index sub : Nat) : Option Nat :=
  match index, sub with
  | 0x6000, 1 => some (d.jamb.queues.filter (fun q => decide (q.2.st ≠ .absent))).length
  | 0x6000, 2 => some d.jamb.cmds.length
  | 0x6000, 3 => some d.jamb.backlog.length
  | 0x6100, 9 => some (leNat (d.mac 0))
  | 0x6100, 10 => some (leNat (d.mac 1))
  | 0x6110, 3 => some d.net.epoch
  | 0x6110, 4 => some d.net.members.length
  | 0x6110, 5 => some d.lostMap
  | 0x7000, 1 => some (6 * d.stackBytes)
  | 0x7000, 2 => some (d.stackList.length * d.stackBytes)
  | 0x7000, 3 => some d.mem.farCapacity
  | 0x7000, 4 => some (d.farBytes - d.mem.reserve)
  | 0x7000, 5 => some d.mem.farRate
  | 0x7000, 6 => some d.mem.farState
  | 0x9000, 1 => some (leNat d.dig.keyId)
  | 0x9000, 2 => some (b2n d.dig.certOk)
  | 0x9000, 3 => some d.life.running.version
  | 0x9000, 4 => some d.life.running.svn
  | 0x9000, 5 => some d.trust.minSvn
  | 0x9000, 6 => some d.trust.revoked
  | 0x9020, 0 => some d.freeDgctxs
  | _, _ =>
    if index = 0x7010 ∧ 1 ≤ sub ∧ sub ≤ 104 then some (d.chState (sub - 1))
    else if index = 0x9010 ∧ 1 ≤ sub ∧ sub ≤ 64 then
      some (let s := d.slot (sub - 1); if s.bad then 0xFF else s.type)
    else if index = 0xA010 ∧ 1 ≤ sub ∧ sub ≤ 4 then
      some (if d.fgetB (F.CRATE_C_VALID (sub - 1)) then d.fget (F.CRATE_C_RATE (sub - 1)) else 0)
    else none

/-- What an object reports of structured state; none for an object that holds its own value. -/
def Dev.objLive (d : Dev) (index sub : Nat) : Option Nat :=
  if index < 0x2000 then d.liveIdentity index sub
  else if index < 0x2100 then d.liveDevice index sub
  else if index < 0x2200 then d.liveContext (index - 0x2100) sub
  else if 0x4000 ≤ index ∧ index < 0x5000 then d.liveCasement ((index - 0x4000) / 0x400) ((index - 0x4000) % 0x400) sub
  else if 0x5000 ≤ index ∧ index < 0x5C00 then d.livePane ((index - 0x5000) / 0x20) ((index - 0x5000) % 0x20) sub
  else if 0x6000 ≤ index then d.liveRest index sub
  else none

/-- An object's value as a number of its size. -/
def Dev.objNat (d : Dev) (r : ObjRow) (index sub : Nat) : Nat :=
  (match d.objLive index sub with
   | some v => v
   | none => Sparse.get (r.default index) d.objs (objKey index sub)) % 2 ^ (8 * r.size)

/-- The bytes a read returns: an undefined object four zero bytes, a WO object zeros of its size (R389). -/
def Dev.readObj (d : Dev) (index sub : Nat) : Bytes :=
  match objRow index sub with
  | none => zeros 4
  | some r => if r.acc = .wo then zeros r.size else leBytes r.size (d.objNat r index sub)

/-! ### Writes -/

/-- BOOL objects that take writes: a non-zero value is taken as 1 (R386). -/
def boolObj (index sub : Nat) : Bool :=
  (decide (0x3100 ≤ index ∧ index < 0x3200) && sub == 1) || index == 0x3020 || (index == 0x1030) || (index == 0x20C0)
  || (decide (0x4000 ≤ index ∧ index < 0x5000) && sub == 3 && (index % 0x400 == 0x10 || index % 0x400 == 0x30))
  || (decide (0x5000 ≤ index ∧ index < 0x5C00)
      && ((index % 0x20 == 2 && sub == 1) || (index % 0x20 == 8 && sub == 2)))

/-- PANE_HOLD: the bits of Panes whose self-test drains keep their value, and tests that waited for a hold may begin (R190). -/
def Dev.paneHold (d : Dev) (c v : Nat) : Dev :=
  let f := F.LT_PANE_HOLD_HOLD c
  let v := (List.range 24).foldl (fun v i => if (d.pane (24 * c + i)).draining then setBit v i true else v) v
  (d.fput f v).testsPending c

/-- RESTORE_DEFAULTS: every RWP object, and the field it mirrors, at its default (R394). -/
def Dev.restoreDefaults (d : Dev) : Dev :=
  let gone := d.rwpObjs
  let d : Dev := { d with objs := d.objs.filter (fun p => !keepsOver p.1) }
  gone.foldl (fun d p => match mirrorOf p.1 with
    | some m => d.toField m
    | none => d) d

/-- A value stored in an object of its own, and in the field that it mirrors. -/
def Dev.storeValue (d : Dev) (r : ObjRow) (index sub v : Nat) : Dev :=
  let key := objKey index sub
  let d : Dev := { d with objs := Sparse.set (r.default index) d.objs key v }
  match mirrorOf key with
  | none => d
  | some m => d.toField m

/-- What a write to Pane p's record does: SELFTEST_REQ, UNFENCE, BANK_UNFENCE. -/
def Dev.writePane (d : Dev) (r : ObjRow) (index sub v : Nat) : Dev :=
  let p := (index - 0x5000) / 0x20
  match index % 0x20, sub with
  | 2, 1 => if v = 0 then d else d.selfTestReq p
  | 8, 2 =>
    let x := d.pane p
    if v ≠ 0 ∧ x.fenced = true ∧ d.halted = false then d.setPane p { x with unfencing := true } else d
  | 8, 3 =>
    if p % 24 = 0 then
      let c := paneCas p
      d.storeValue r index sub ((setBits v 4).foldl (fun m b => if (d.lvBank c b).fenced then setBit m b true else m)
        (d.oget (O.BANK_UNFENCE p)))
    else d
  | _, _ => d

/-- What a write of a whole value to an object does. -/
def Dev.applyObj (d : Dev) (r : ObjRow) (index sub v : Nat) : Dev :=
  let v := if boolObj index sub then min v 1 else v
  if index = 0x1020 then (if v = 0x52535444 then d.restoreDefaults else d)
  else if index = 0x20B0 then (if v = 0x44565253 then d.deviceReset {} else d)
  else if index = 0x20C0 then (if v = 0 then { d with life := { d.life with tripSeen := false } } else d)
  else if index = 0x6110 ∧ sub = 2 then d.epochCommit v
  else if index = 0x7010 then (if v = 0 then d.storeValue r index sub 0 else d)
  else if 0x4000 ≤ index ∧ index < 0x5000 ∧ index % 0x400 = 0x20 then
    (if d.fget (F.CS_STAT_STATE ((index - 0x4000) / 0x400)) = 1 then d else d.paneHold ((index - 0x4000) / 0x400) v)
  else if 0x5000 ≤ index ∧ index < 0x5C00 then d.writePane r index sub v
  else d.storeValue r index sub v

/-- How a write ends (R389): its RSTATUS, and whether it was stored or is a violation. -/
inductive Written where
  | violation
  | length
  | stored
deriving DecidableEq, Repr

/-- Judge a write of n bytes. -/
def writeJudge (index sub n : Nat) : Written :=
  match objRow index sub with
  | none => .violation
  | some r => if r.acc = .ro then .violation else if n = r.size then .stored else .length

/-- Whether a write has to be persisted before it is answered (R390, R394). -/
def writePersists (index sub : Nat) (value : Bytes) : Bool :=
  keepsOver (objKey index sub) || (index == 0x1020 && sub == 2 && leNat value == 0x52535444)

/-- A whole value is written. -/
def Dev.writeObj (d : Dev) (index sub : Nat) (value : Bytes) : Dev :=
  match objRow index sub with
  | none => d
  | some r => if r.acc ≠ .ro ∧ value.length = r.size then d.applyObj r index sub (leNat value) else d

end Sys2Proof.Machine
end

