-- ==== Sys2Proof/Machine/Sash.lean ====
section
/-!
DEFINITION. The Sash chain (R379 to R385, R387, R388, R390, R396, R397) and the dictionary's two paths: the order in which
accesses are served, the window of BAR0 (R391, R392), persisting (R394).
-/

namespace Sys2Proof.Machine

/-! ### Frames that arrive (R379 to R382) -/

/-- A frame of the chain's EtherType; any other is dropped without a trace (R379). -/
def sashFrame (bytes : Bytes) : Bool := decide (14 ≤ bytes.length) && (bytes.drop 12).take 2 == beBytes 2 0x88B5

/-- The types of R381. -/
def sashTypes : List Nat := [0x01, 0x02, 0x10, 0x20, 0x81, 0x82, 0x90, 0xA0]

/-- The header and body of a frame; none where R381 drops it. -/
def parseSash (bytes : Bytes) : Option SashMsg :=
  let p := bytes.drop 14
  let m : SashMsg := { type := fieldAt p 1 1, flags := fieldAt p 2 2, dst := fieldAt p 4 2, src := fieldAt p 6 2
                       hops := fieldAt p 8 2, tid := fieldAt p 10 2, body := (p.drop 16).take (fieldAt p 12 2) }
  if p.length < 16 ∨ 1500 < p.length ∨ fieldAt p 0 1 ≠ 1 ∨ sashTypes.contains m.type = false ∨ 4 ≤ m.flags ∨ 4096 ≤ m.dst
      ∨ 4096 ≤ m.src ∨ fieldAt p 14 2 ≠ 0 ∨ p.length < 16 + fieldAt p 12 2 then none
  else if m.type = 0x10 ∧ (m.body.length ≠ 4 ∨ fieldAt m.body 0 2 = 0 ∨ 0xFFE < fieldAt m.body 0 2
      ∨ fieldAt m.body 2 2 ≠ 0) then none
  else some m

/-- UP is set. -/
def SashMsg.up (m : SashMsg) : Bool := bitAt m.flags 0

/-- A frame on a port against its direction is dropped. -/
def SashMsg.wrongWay (m : SashMsg) (out : Bool) : Bool := m.up != out

/-- The engine consumes a frame: its own address, downstream, or a broadcast. -/
def Dev.consumes (d : Dev) (m : SashMsg) : Bool := m.dst == 0xFFF || (!m.up && m.dst != 0 && m.dst == d.sash.addr)

/-- The engine relays a frame: everything but what is for itself alone. -/
def Dev.relays (d : Dev) (m : SashMsg) : Bool := m.dst == 0xFFF || !d.consumes m

/-- A relayed frame: HOPS, at byte 22, counts one more. -/
def hopped (bytes : Bytes) (m : SashMsg) : Bytes := bytes.take 22 ++ leBytes 2 (m.hops + 1) ++ bytes.drop 24

/-- Relay a frame that came from one port on the other. -/
def Dev.relay (d : Dev) (out : Bool) (bytes : Bytes) (m : SashMsg) : Dev :=
  if d.relays m = true ∧ bitAt d.sash.links (b2n (!out)) = true then
    (d.sashPut (!out) (hopped bytes m)).ocount O.SASH_FRAMES_RELAYED 1
  else d

/-- The chain works: the always-on supply is there, and while parked the clock (R378, R468). -/
def Dev.chainLive (d : Dev) : Bool := d.life.always && (d.life.refclk || !d.life.parked)

/-- What the engine does with a frame that it consumes. -/
inductive SashAct where
  | read | write | enumerate | cancel | none
deriving DecidableEq, Repr

/-- The act of a frame. -/
def Dev.sashAct (d : Dev) (m : SashMsg) : SashAct :=
  if d.consumes m = false then .none
  else if m.type = 0x20 then (if m.dst = 0xFFF ∧ m.body.length = 64 then .cancel else .none)
  else if m.up then .none
  else if m.type = 0x01 then .read
  else if m.type = 0x02 then .write
  else if m.type = 0x10 ∧ m.dst = 0xFFF then .enumerate
  else .none

/-- A frame arrives on chain-in or chain-out (`out`). One that calls for the act expected is counted, relayed where R382 says
so, and handed on; one that calls for another act is another command's. -/
def Dev.sashArrives (d : Dev) (act : SashAct) (out : Bool) (bytes : Bytes) (k : Dev → SashMsg → Dev) : Dev :=
  if d.chainLive = false ∨ bitAt d.sash.links (b2n out) = false ∨ sashFrame bytes = false then d
  else
    let n := d.ocount O.SASH_FRAMES_RX 1
    match parseSash bytes with
    | none => n.ocount O.SASH_FRAMES_DROPPED 1
    | some m =>
      if m.wrongWay out then n.ocount O.SASH_FRAMES_DROPPED 1
      else if d.sashAct m = act then k (n.relay out bytes m) m
      else d

/-- SASH_RELAY. -/
def Dev.sashRelay (d : Dev) (out : Bool) (bytes : Bytes) : Dev := d.sashArrives .none out bytes (fun d _ => d)

/-- ENUMERATE (R384). -/
def Dev.enumerate (d : Dev) (out : Bool) (bytes : Bytes) : Dev :=
  d.sashArrives .enumerate out bytes (fun d m =>
    let a := fieldAt m.body 0 2 + m.hops
    let addr := if 0xFFE < a then 0 else a
    let d : Dev := { d with sash := { d.sash with addr := addr, hops := m.hops } }
    let flags := b2n (decide (0xFFE < a)) + (if bitAt d.sash.links 1 then 0 else 2)
    d.sashSend false
      { type := 0x90, flags := 3, src := addr, tid := m.tid
        body := leBytes 2 addr ++ leBytes 2 flags ++ d.readObj 0x1010 1 ++ d.readObj 0x6100 1 ++ zeros 2 ++ d.readObj 0x9000 1 })

/-- SASH_CANCEL_RX (R396): relayed first, then handed to the cancel logic unless CANCEL_RX is cleared. -/
def Dev.sashCancelRx (d : Dev) (out : Bool) (bytes : Bytes) : Dev :=
  d.sashArrives .cancel out bytes (fun d m =>
    let d := d.ocount O.SASH_CANCELS_RX 1
    if d.oget O.CANCEL_RX = 0 then d else d.cancelArrived m.body)

/-- SASH_LINK_CHANGE (R385): a link that goes down raises source 476. -/
def Dev.sashLink (d : Dev) (out up : Bool) : Dev :=
  if d.chainLive = false ∨ bitAt d.sash.links (b2n out) = up then d
  else
    let d : Dev := { d with sash := { d.sash with links := setBit d.sash.links (b2n out) up } }
    let d := if up then d else d.faultRaise 476 0 false
    if out then d.notify (if up then 1 else 2) else d.reportSelf

/-! ### Answers (R387, R389) -/

/-- A response to a request. -/
def SashMsg.answer (m : SashMsg) (addr status total : Nat) (applied : Bool) (data : Bytes) : SashMsg :=
  { type := m.type + 0x80, flags := 3, src := addr, tid := m.tid
    body := m.body.take 3 ++ leBytes 1 status ++ leBytes 4 total ++ sliceAt m.body 4 4 ++ leBytes 2 data.length
      ++ leBytes 1 (b2n applied) ++ zeros 1 ++ data }

/-- Send a response; an engine without an address answers nothing (R383). -/
def Dev.respond (d : Dev) (m : SashMsg) : Dev := if m.src = 0 then d else d.sashSend false m

/-- The window's access ends (R391, R392). -/
def Dev.windowEnd (d : Dev) : Dev :=
  (((d.fputB F.DICT_STAT_BUSY false).fputB F.DICT_STAT_DONE true).fputB F.DICT_CTL_READ false).fputB F.DICT_CTL_WRITE false

/-- The answer to a write. -/
def Dev.answerWrite (d : Dev) (a : Asker) (w : Written) : Dev :=
  match a with
  | .sash m => d.respond (m.answer m.src (if w = .length then 1 else 0) m.dst (decide (w ≠ .length)) [])
  | .window =>
    let d := if w = .length then d.fputB F.DICT_STAT_LENERR true else d
    (d.fputB F.DICT_STAT_APPLIED (decide (w ≠ .length))).windowEnd
  | .none => d

/-! ### Serving (R386 to R390, R393, R394) -/

/-- A dictionary access that RECOVERY serves: reads of 0x1000 and 0x1010 (R441). -/
def Dev.recovering (d : Dev) : Bool := d.fget F.LM_STAT_STAGE == 5

/-- What a read returns now. -/
def Dev.dictValue (d : Dev) (index sub : Nat) : Bytes :=
  if d.recovering = true ∧ index ≠ 0x1000 ∧ index ≠ 0x1010 then zeros 4 else d.readObj index sub

/-- A whole value is written; one to be persisted is answered when that is done, and waits while another is persisting. A
reset that the write brings about loses the answer (R397). -/
def Dev.dictStore (d : Dev) (a : Asker) (index sub : Nat) (value : Bytes) : Dev :=
  let w := if d.recovering then Written.violation else writeJudge index sub value.length
  if w ≠ .stored then (d.ocount O.DICT_WRITES 1).wake.answerWrite a w
  else if writePersists index sub value then
    if d.sash.persist.isSome then { d with sash := { d.sash with held := d.sash.held ++ [.store a index sub value] } }
    else
      let d := (d.ocount O.DICT_WRITES 1).wake.writeObj index sub value
      { d with sash := { d.sash with persist := some a } }
  else
    let resets := decide (index = 0x20B0 ∧ leNat value = 0x44565253 ∧ d.life.supplies = true ∧ d.life.parked = false)
    let d := (d.ocount O.DICT_WRITES 1).wake.writeObj index sub value
    if resets then d else d.answerWrite a w

/-- A READ is served (R387, R388). -/
def Dev.serveRead (d : Dev) (addr : Nat) (m : SashMsg) : Dev :=
  let b := m.body
  let index := fieldAt b 0 2
  let sub := fieldAt b 2 1
  let off := fieldAt b 4 4
  let key := objKey index sub
  let kept := match d.sash.snap with
    | some (t, o, v) => if t = m.tid ∧ o = key ∧ off ≠ 0 then some v else none
    | none => none
  let v := kept.getD (d.dictValue index sub)
  let part := (v.drop off).take (min 1468 (fieldAt b 12 2))
  let more := decide (off + part.length < v.length)
  let snap := if off = 0 then (if more then some (m.tid, key, v) else none)
    else if kept.isSome = true ∧ more = false then none else d.sash.snap
  let d := if kept.isSome then d else d.ocount O.DICT_READS 1
  let d : Dev := { d with sash := { d.sash with snap := snap } }
  d.respond (m.answer addr 0 v.length false part)

/-- A piece that does not continue the assembly (R388, R389). -/
def Dev.outOfSequence (d : Dev) (addr : Nat) (m : SashMsg) : Dev :=
  ({ d with sash := { d.sash with asm := none } } : Dev).respond (m.answer addr 2 0 false [])

/-- A WRITE piece is served: it continues the assembly, or starts one. The piece that reaches TOTAL applies the value. The
answer's TOTAL, and its sender, stand in the message kept for it. -/
def Dev.serveWrite (d : Dev) (addr : Nat) (m : SashMsg) : Dev :=
  let b := m.body
  let key := objKey (fieldAt b 0 2) (fieldAt b 2 1)
  let off := fieldAt b 4 4
  let total := fieldAt b 8 4
  let piece := (b.drop 16).take (fieldAt b 12 2)
  let prior := match d.sash.asm with
    | some a => if a.tid = m.tid then some a else none
    | none => none
  let grown : Option Bytes := match prior with
    | some a => if a.key = key ∧ a.total = total ∧ off = a.bytes.length then some (a.bytes ++ piece) else none
    | none => if off = 0 then some piece else none
  match grown with
  | none => d.outOfSequence addr m
  | some v =>
    if total < v.length then d.outOfSequence addr m
    else if v.length < total then
      ({ d with sash := { d.sash with asm := some { tid := m.tid, key := key, total := total, bytes := v } } } : Dev).respond
        (m.answer addr 0 v.length false [])
    else
      let d : Dev := { d with sash := { d.sash with asm := none } }
      d.dictStore (.sash { m with src := addr, dst := v.length }) (key / 256) (key % 256) v

/-- Bytes of the window. -/
def Dev.windowBytes (d : Dev) (n : Nat) : Bytes :=
  ((List.range (ceilDiv n 4)).flatMap (fun i => leBytes 4 (d.fget (F.DICT_DATA_DATA i)))).take n

/-- A value into the window; window bytes past it stay. -/
def Dev.windowPut (d : Dev) (v : Bytes) : Dev :=
  (List.range (ceilDiv v.length 4)).foldl (fun d i =>
    let f := F.DICT_DATA_DATA i
    let part := (v.drop (4 * i)).take 4
    d.fput f (leNat (part ++ (leBytes 4 (d.fget f)).drop part.length))) d

/-- A window access is served. -/
def Dev.serveWindow (d : Dev) (write : Bool) (index sub len : Nat) (bytes : Bytes) : Dev :=
  if write then
    if 4096 < len then
      (d.ocount O.DICT_WRITES 1).wake.answerWrite .window
        (if writeJudge index sub 0 = .violation ∨ d.recovering = true then .violation else .length)
    else d.dictStore .window index sub bytes
  else
    let v := d.dictValue index sub
    (((d.ocount O.DICT_READS 1).windowPut v).fput F.DICT_TOTAL_TOTAL v.length).windowEnd

/-- One request that waited. -/
def Dev.serveRequest (d : Dev) (q : Request) : Dev :=
  match q with
  | .frame addr m => if m.type = 1 then d.serveRead addr m else d.serveWrite addr m
  | .window w index sub len bytes => d.serveWindow w index sub len bytes
  | .store a index sub value => d.dictStore a index sub value

/-- Requests that waited are served in order, as far as nothing keeps them back; a reset they bring about drops the rest. -/
def Dev.serveHeld (d : Dev) : Dev :=
  if d.life.handoff.isSome then d
  else
    let qs := d.sash.held
    let d : Dev := { d with sash := { d.sash with held := [] } }
    let resets := fun (q : Request) => match q with
      | .window true index sub _ bytes => decide (index = 0x20B0 ∧ sub = 5 ∧ leNat bytes = 0x44565253)
      | .frame _ m => decide (m.type = 2 ∧ fieldAt m.body 0 2 = 0x20B0 ∧ fieldAt m.body 16 4 = 0x44565253)
      | _ => false
    (qs.foldl (fun (s : Bool × Dev) q => if s.1 then s else (resets q, s.2.serveRequest q)) (false, d)).2

/-! ### The commands -/

/-- The bodies of READ and WRITE as R387 lays them out. -/
def wellBodied (m : SashMsg) : Bool :=
  let b := m.body
  decide (16 ≤ b.length) && fieldAt b 3 1 == 0 && fieldAt b 14 2 == 0
  && (if m.type = 1 then fieldAt b 8 4 == 0 else decide (fieldAt b 12 2 ≤ 1468 ∧ 16 + fieldAt b 12 2 ≤ b.length))

/-- Requests of the chain that have no answer yet. -/
def Dev.heldCount (d : Dev) : Nat :=
  (d.sash.held.filter (fun q => match q with
    | .frame _ _ => true
    | .store (.sash _) _ _ _ => true
    | _ => false)).length
  + (match d.sash.persist with
    | some (.sash _) => 1
    | _ => 0)

/-- A READ or WRITE is accepted: answered BUSY beyond eight, held while a hand-off goes on, else served (R390). -/
def Dev.acceptRequest (d : Dev) (m : SashMsg) : Dev :=
  if wellBodied m = false then d.ocount O.SASH_FRAMES_DROPPED 1
  else if 8 ≤ d.heldCount then d.respond (m.answer d.sash.addr 3 0 false [])
  else if d.life.handoff.isSome then { d with sash := { d.sash with held := d.sash.held ++ [.frame d.sash.addr m] } }
  else d.serveRequest (.frame d.sash.addr m)

/-- SASH_READ. -/
def Dev.sashRead (d : Dev) (out : Bool) (bytes : Bytes) : Dev := d.sashArrives .read out bytes (fun d m => d.acceptRequest m)

/-- SASH_WRITE. -/
def Dev.sashWrite (d : Dev) (out : Bool) (bytes : Bytes) : Dev := d.sashArrives .write out bytes (fun d m => d.acceptRequest m)

/-- SASH_SNAPSHOT_TIMEOUT: the snapshot, or the assembly, has been idle for 1 s. -/
def Dev.snapshotTimeout (d : Dev) (assembly : Bool) : Dev :=
  { d with sash := if assembly then { d.sash with asm := none } else { d.sash with snap := none } }

/-- DICT_READ and DICT_WRITE: the bit is set while no access is in progress. With another value of the live test control the
test responder answers (R391). -/
def Dev.windowGo (d : Dev) (write : Bool) : Dev :=
  if d.fgetB F.DICT_STAT_BUSY = true ∨ d.recovering = true then d
  else if d.fget F.DICT_CTL_RSV8 ≠ 0xD1 then
    if write then ((d.fputB F.DICT_STAT_APPLIED false).fputB F.DICT_STAT_LENERR false).windowEnd
    else ((d.windowPut (zeros 4096)).fput F.DICT_TOTAL_TOTAL 0).windowEnd
  else
    let d := (d.fputB F.DICT_STAT_BUSY true).fputB (if write then F.DICT_CTL_WRITE else F.DICT_CTL_READ) true
    let index := d.fget F.DICT_ADDR_INDEX
    let sub := d.fget F.DICT_ADDR_SUB
    let len := d.fget F.DICT_LEN_LEN
    let bytes := if write then d.windowBytes (min len 4096) else []
    if d.life.handoff.isSome then
      { d with sash := { d.sash with held := d.sash.held ++ [.window write index sub len bytes] } }
    else d.serveWindow write index sub len bytes

/-- RWP_PERSIST_DONE: the copy is programmed, the answer goes out, and the next write that waited is persisted. -/
def Dev.persistDone (d : Dev) : Dev :=
  match d.sash.persist with
  | none => d
  | some a =>
    let d := d.persistWrite
    (({ d with sash := { d.sash with persist := none } } : Dev).answerWrite a .stored).serveHeld

/-- RESTORE_DEFAULTS: a write of 0x5253_5444 through the dictionary (R394). -/
def Dev.restoreGo (d : Dev) : Dev := d.dictStore .none 0x1020 2 (leBytes 4 0x52535444)

end Sys2Proof.Machine
end

