-- ==== Sys2Proof/Machine/Registers.lean ====
section
/-!
DEFINITION. BAR0 as R399 to R414 lay it down: what a register reads, what a write does, the slow domains, the MSI-X table; and
BAR4 (R413).
-/

namespace Sys2Proof.Machine

/-! ### Finding a register (R414, R415) -/

/-- The array indices that lead to a distance from a register's base. -/
def arrayIndex : List (Nat × Nat) → Nat → Option (List Nat)
  | [], r => if r = 0 then some [] else none
  | (s, c) :: ds, r => if r / s < c then (arrayIndex ds (r % s)).map (fun l => r / s :: l) else none

/-- A register found at an offset: its row and its array indices. -/
structure Found where
  row : RegRow
  idx : List Nat
deriving DecidableEq, Repr

/-- The register at an offset of BAR0. -/
def regAt (off : Nat) : Option Found :=
  regTable.findSome? (fun r => if r.base ≤ off then (arrayIndex r.dims (off - r.base)).map (fun l => ⟨r, l⟩) else none)

/-- First index of a register. -/
def Found.i (x : Found) : Nat := x.idx.getD 0 0
/-- Second index of a register. -/
def Found.j (x : Found) : Nat := x.idx.getD 1 0

/-- A field of a register found; severities differ in their reset values (R420). -/
def Found.fld (x : Found) (off : Nat) (f : FieldRow) : Fld :=
  ⟨fldKey off f.lo, f.hi + 1 - f.lo, if x.row.reg = .FC_SRC ∧ f.lo = 16 then faultDefault x.i else f.reset⟩

/-! ### Computed fields -/

/-- Bits of a list of Bools, the first lowest. -/
def boolBits (l : List Bool) : Nat := l.foldr (fun b n => b2n b + 2 * n) 0

/-- Contexts and Latch. -/
def Dev.liveLatch (d : Dev) (r : RegName) (i lo : Nat) : Option Nat :=
  match r, lo with
  | .PCTX_STAT, 0 => some (d.ctx i).state
  | .PCTX_STAT, 4 => some (b2n (d.ctx i).partialRun)
  | .PCTX_STAT, 5 => some (b2n (d.ctx i).prog.sealed)
  | .PCTX_STAT, 16 => some (d.ctx i).lastStatus
  | .LT_STAT, 0 => some (min 0xFFFF (d.readyList i).length)
  | .LT_STAT, 16 => some (d.storeUsed i)
  | .LT_STAT, 29 => some (b2n (d.activeCtxs.any (fun q => q.2.nodes.any (fun y => y.home == i && y.matching))))
  | .LT_STAT, 30 => some (b2n (d.latch i).draining)
  | .LT_STAT, 31 => some (d.fget (F.LT_CTL_HOLD i))
  | .LT_PANE_BUSY, 0 => some (boolBits ((List.range 24).map (fun p => d.pipes.works.any (fun w => w.pane == 24 * i + p && w.phase != .pooled))))
  | _, _ => none

/-- Sill, Louvre and Bifold. -/
def Dev.liveCas (d : Dev) (r : RegName) (i j lo : Nat) : Option Nat :=
  match r, lo with
  | .SL_STAT, 0 => some (d.maintActive i)
  | .SL_STAT, 8 => some ((List.range 16).map (fun b => (d.sbank i b).mrs.length)).sum
  | .LV_BANK_STAT, 0 => some ((d.lvBank i j).table.getD 0 % 64)
  | .LV_BANK_STAT, 6 => some (b2n (d.lvBank i j).table.isSome)
  | .LV_BANK_STAT, 7 => some (b2n (d.lvBank i j).shadow)
  | .LV_BANK_STAT, 8 => some (d.lvBank i j).validCount
  | .LV_BANK_STAT, 25 => some (b2n (d.lvBank i j).fenced)
  | .LV_BANK_STAT, 23 => some (b2n (d.swapPend i j))
  | .LV_BANK_STAT, 24 => some (b2n (bitAt (d.oget (O.BANK_UNFENCE (24 * i))) j))
  | .LV_BANK_STAT, 31 => some (b2n ((d.lvBank i j).table.any d.lvDamaged))
  | .BF_STAT, 0 => some (boolBits ((List.range 12).map (fun e => ((d.bcas i).engine e).held.isSome)))
  | .BF_STAT, 12 => some (d.bcas i).queue.length
  | .BF_STAT, 31 => some (b2n (d.bcas i).stopped)
  | _, _ => none

/-- Jamb. -/
def Dev.liveJamb (d : Dev) (r : RegName) (i lo : Nat) : Option Nat :=
  let sel := d.queue (d.fget F.QSEL_QID)
  let q := d.queue i
  match r, lo with
  | .JB_STAT, 0 => some d.jamb.cmds.length
  | .JB_BACKLOG, 0 => some d.jamb.backlog.length
  | .QI_SQ_PIDX, 0 => some sel.sqP.toNat
  | .QI_SQ_CIDX, 0 => some sel.sqC.toNat
  | .QI_CQ_CIDX, 0 => some sel.cqC.toNat
  | .SQ_ERR_IDX, 0 => some sel.errIdx.toNat
  | .QSTAT, 0 => some (b2n (decide (q.st ≠ .absent)))
  | .QSTAT, 1 => some (b2n (decide (q.st = .error)))
  | .QSTAT, 2 => some (b2n (decide (q.st = .flushing)))
  | .QSTAT, 3 => some (b2n (decide (q.st = .deleting)))
  | .QSTAT, 5 => some (d.inflight i)
  | .CQ_PIDX, 0 => some q.cqP.toNat
  | .CQSTAT, 0 => some (b2n q.stall)
  | .CQSTAT, 1 => some (d.backlogOf i)
  | _, _ => none

/-- Address of the descriptor a DMA list runs next; zero for engine traffic (R350). -/
def HList.nextAddr (l : HList) : Nat :=
  match l.owner, l.at_ with
  | .dma _, .mem _ a => a
  | .dma _, .inline i => (Config.inlineNext i).toNat
  | _, _ => 0

/-- A list of a DMA command. -/
def HList.isDma (l : HList) : Bool :=
  match l.owner with
  | .dma _ => true
  | _ => false

/-- Hinge. -/
def Dev.liveHinge (d : Dev) (r : RegName) (i lo : Nat) : Option Nat :=
  let x := d.hchan i
  let h := x.lists.head?
  match r, lo with
  | .HINGE_STAT, 0 => some (d.hinge.chans.filter (fun q => !q.2.lists.isEmpty)).length
  | .HINGE_STAT, 8 => some (b2n d.hinge.halt)
  | .HINGE_ERR_ADDR_LO, 0 => some d.hinge.errAddr
  | .HINGE_ERR_ADDR_HI, 0 => some (d.hinge.errAddr / 2 ^ 32)
  | .HINGE_ERR_INFO, 0 => some d.hinge.errKind
  | .HINGE_ERR_INFO, 3 => some (b2n d.hinge.errPort)
  | .HINGE_ERR_INFO, 4 => some d.hinge.errSlot
  | .HINGE_ERR_INFO, 10 => some (b2n d.hinge.errMore)
  | .HINGE_CH_STAT, 0 => some (b2n h.isSome)
  | .HINGE_CH_STAT, 1 => some (b2n x.stopped)
  | .HINGE_CH_STAT, 2 => some (b2n x.abandoned)
  | .HINGE_CH_STAT, 3 => some (h.elim 0 (fun l => b2n (!l.isDma)))
  | .HINGE_CH_DONE, 0 => some (h.elim 0 HList.done)
  | .HINGE_CH_TAG, 0 => some (h.elim 0 HList.tag)
  | .HINGE_CH_NEXT_LO, 0 => some (h.elim 0 HList.nextAddr)
  | .HINGE_CH_NEXT_HI, 0 => some (h.elim 0 (fun l => l.nextAddr / 2 ^ 32))
  | .HINGE_CH_CTL, 0 => some (b2n x.stopReq)
  | _, _ => none

/-- Digest contexts and key store. -/
def Dev.liveDigest (d : Dev) (r : RegName) (i j lo : Nat) : Option Nat :=
  let x := d.dgctx i
  match r, lo with
  | .DG_CTX_ALLOC, 0 => some d.dgAllocRead.1
  | .DG_CTX_FREE, 0 => some d.freeDgctxs
  | .KS_CMD, 24 => some (b2n d.dig.ksPending.isSome)
  | .KS_META, 0 => some (d.slot i).type
  | .KS_META, 3 => some (b2n (d.slot i).bad)
  | .KS_META, 8 => some (d.slot i).len
  | .DG_CTL, 17 => some (b2n x.finalReq)
  | .DG_STAT, 0 => some (b2n x.alloc)
  | .DG_STAT, 1 => some (b2n x.busy)
  | .DG_STAT, 2 => some (b2n x.done)
  | .DG_STAT, 3 => some (b2n x.early)
  | .DG_STAT, 4 => some (b2n x.overrun)
  | .DG_STAT, 5 => some (b2n x.lost)
  | .DG_STAT, 6 => some (b2n x.short)
  | .DG_STAT, 7 => some (b2n x.keyerr)
  | .DG_STAT, 8 => some (b2n x.slotted)
  | .DG_STAT, 9 => some (b2n x.cmd.isSome)
  | .DG_COUNT_LO, 0 => some x.msg.length
  | .DG_COUNT_HI, 0 => some (x.msg.length / 2 ^ 32)
  | .DG_RESULT, 0 => some (d.dgWord i j).1
  | _, _ => none

/-- The highest of some temperatures. -/
def hottest (l : Sparse Nat) : Nat := l.foldl (fun m p => max m p.2) 0

/-- Memories, Transom and the fault collector. -/
def Dev.liveMem (d : Dev) (r : RegName) (i lo : Nat) : Option Nat :=
  match r, lo with
  | .MC_STAT, 0 => some d.mem.nearUp
  | .MC_STAT, 6 => some d.mem.farUp
  | .MC_STAT, 14 => some (b2n d.mem.training)
  | .MC_STAT, 15 => some (b2n (!d.mem.retrainNear.isEmpty || !d.mem.retrainFar.isEmpty))
  | .MC_STAT, 16 => some (b2n (!d.mem.remaps.isEmpty))
  | .MC_STAT, 17 => some (b2n d.mem.nearHot)
  | .MC_STAT, 18 => some (b2n d.mem.farHot)
  | .MC_TEMP, 0 => some (hottest d.mem.nearTemp)
  | .MC_TEMP, 8 => some (if d.mem.farState = 0 then 0 else hottest d.mem.farTemp)
  | .TR_STAT, 0 => some d.net.links
  | .TR_STAT, 16 => some (d.net.peers.filter (fun p => p.2.lost)).length
  | .TR_EPOCH, 0 => some d.net.epoch
  | .TR_PUT_STAT, 0 => some (b2n (d.putChan i).busy)
  | .FC_STAT, 0 => some (b2n d.halted)
  | .FC_STAT, 1 => some (b2n ((List.range 105).any (fun c => d.fgetB (F.FC_REC_STAT_VALID c))))
  | .FC_STAT, 3 => some (d.fget F.FI_CTL_ARM)
  | _, _ => none

/-- Slots with held STOREs. -/
def Dev.heldSlots (d : Dev) : Nat :=
  boolBits ((List.range Config.slots).map (fun s => (d.staged s).any (fun g => g.held.isSome)))

/-- Threshold and drive ports. -/
def Dev.liveStore (d : Dev) (r : RegName) (i lo : Nat) : Option Nat :=
  let x := d.drive i
  match r, lo with
  | .DP_STAT, 0 => some ((List.range Config.slots).filter (fun s => (d.drive s).answers)).length
  | .DP_SLOT, 0 => some (b2n x.present)
  | .DP_SLOT, 1 => some (b2n x.answers)
  | .DP_SLOT, 2 => some (if x.present then x.width else 0)
  | .DP_SLOT, 5 => some (if x.present then x.speed else 0)
  | .DP_SLOT, 8 => some (b2n (bitAt d.heldSlots i))
  | .DP_SLOT, 9 => some (b2n (x.present && x.vwc))
  | .THR_STAT, 0 => some d.freeUnits.length
  | .THR_STAT, 11 => some (b2n d.thr.pfSafe)
  | .THR_STAT, 12 => some (b2n (d.thr.stores.any (fun g => decide (g.phase = .staged))))
  | .THR_STAT, 13 => some (b2n (decide (d.heldSlots ≠ 0)))
  | .THR_HELD_LO, 0 => some d.heldSlots
  | .THR_HELD_HI, 0 => some (d.heldSlots / 2 ^ 32)
  | .THR_WEAR, 0 => some d.wearPct
  | .THR_WEAR, 8 => some d.retiredUnits
  | _, _ => none

/-- PWR_STAT.STATE, which has no value for PARKED: it reads as PARKING (assumption log 19). -/
def Dev.pwrState (d : Dev) : Nat :=
  if d.halted then 3 else if d.life.parked = true ∨ d.life.parking = true then 2 else if d.life.idle then 1 else 0

/-- Power block. -/
def Dev.livePower (d : Dev) (r : RegName) (lo : Nat) : Option Nat :=
  match r, lo with
  | .PWR_STAT, 0 => some d.pwrState
  | .PWR_STAT, 2 => some (boolBits ([0, 1, 2, 3].map (fun c => d.fget (F.CS_STAT_STATE c) == 1)))
  | .PWR_STAT, 6 => some (b2n d.life.shelfDark)
  | .PWR_STAT, 7 => some (b2n d.life.parkOk)
  | .PWR_STAT, 8 => some (b2n d.life.pwrFail)
  | .TB_LO, 0 => some d.timeBase
  | .TB_HI, 0 => some (d.timeBase / 2 ^ 32)
  | _, _ => none

/-- A field that reports structured state; none for one that is kept as a field. -/
def Dev.live (d : Dev) (r : RegName) (i j lo : Nat) : Option Nat :=
  [d.liveLatch r i lo, d.liveCas r i j lo, d.liveJamb r i lo, d.liveHinge r i lo, d.liveDigest r i j lo, d.liveMem r i lo,
   d.liveStore r i lo, d.livePower r lo].findSome? id

/-! ### What is there (R409, R410, R441) -/

/-- The Casement whose block an offset lies in. -/
def blockCas (off : Nat) : Option Nat := if 0x100000 ≤ off ∧ off < 0x500000 then some (off / 0x100000 - 1) else none

/-- An offset answers: in RECOVERY only the identity block and the mailbox, in a gated Casement only its control registers, and
nothing of an absent Casement's Panes (assumption log 20). -/
def Dev.present (d : Dev) (off : Nat) : Bool :=
  if d.recovering then decide (off < 0x2000) || decide (0x10000 ≤ off ∧ off < 0x18000)
  else
    match blockCas off with
    | none => true
    | some c =>
      let s := d.fget (F.CS_STAT_STATE c)
      decide (off % 0x100000 < 8) || (s != 1 && (s != 0 || decide (off % 0x100000 < 0x80000)))

/-- The MSI-X table and its pending bits: word w of the structure at an offset. -/
def Dev.msixRead (d : Dev) (off : Nat) : Nat :=
  if 0x510000 ≤ off ∧ off < 0x518000 then
    let m := Sparse.get {} d.jamb.msix ((off - 0x510000) / 16)
    match off % 16 with
    | 0 => m.addr % 2 ^ 32
    | 4 => m.addr / 2 ^ 32
    | 8 => m.data
    | _ => b2n m.masked
  else if 0x518000 ≤ off ∧ off < 0x518100 then
    boolBits ((List.range 32).map (fun b => (Sparse.get ({} : Msix) d.jamb.msix ((off - 0x518000) * 8 + b)).pending))
  else 0

/-- What a field of a register reads. -/
def Dev.fieldRead (d : Dev) (x : Found) (off : Nat) (f : FieldRow) : Nat :=
  if f.acc = .wo then 0 else (d.live x.row.reg x.i x.j f.lo).getD (d.fget (x.fld off f))

/-- A 32-bit read of BAR0 at an aligned offset: what it returns. Two registers have side effects on a read, which are commands
of their own (R312, R317). -/
def Dev.regRead (d : Dev) (off : Nat) : BitVec 32 :=
  if d.present off = false then 0
  else
    match regAt off with
    | none => BitVec.ofNat 32 (d.msixRead off)
    | some x =>
      BitVec.ofNat 32 ((x.row.fields.map (fun f =>
        d.fieldRead x off f % 2 ^ (f.hi + 1 - f.lo) * 2 ^ f.lo)).sum)

/-- The side effects of a 32-bit read of a register: DG_CTX_ALLOC allocates a context, DG_RESULT notes a read that comes too
early (R312, R317). -/
def Dev.readActs (d : Dev) (off : Nat) : Dev :=
  if d.present off = false then d
  else
    match regAt off with
    | some x =>
      match x.row.reg with
      | .DG_CTX_ALLOC => d.dgAllocRead.2
      | .DG_RESULT => (d.dgWord x.i x.j).2
      | _ => d
    | none => d

/-- A read of n bytes at any offset: the bytes of the registers it covers, the lower register first, each with the side effects
of a 32-bit read (R399). -/
def Dev.busRead (d : Dev) (off n : Nat) : Bytes × Dev :=
  let words := (List.range ((off + n + 3) / 4 - off / 4)).map (fun i => (off / 4 + i) * 4)
  let r := words.foldl (fun (s : Bytes × Dev) a => (s.1 ++ leBytes 4 (s.2.regRead a).toNat, s.2.readActs a)) ([], d)
  ((r.1.drop (off % 4)).take n, r.2)

/-! ### Writes (R400 to R405) -/

/-- The slow block of an offset, by its bit in GL_STAT.POST_DROP (R404, R412). -/
def slowBlock (off : Nat) : Option Nat :=
  if 0x10000 ≤ off ∧ off < 0x19000 then some 0
  else if 0x900000 ≤ off ∧ off < 0x900020 then some 1
  else if 0xA00000 ≤ off ∧ off < 0xA00180 then some 2
  else if 0xC00000 ≤ off ∧ off < 0xC001C0 then some 3
  else if 0xD00000 ≤ off ∧ off < 0xD00014 then some 4
  else if 0xE00000 ≤ off ∧ off < 0xE10000 then some 5
  else none

/-- WPEND of a slow block. -/
def wpend (b : Nat) : Fld :=
  match b with
  | 0 => F.DICT_STAT_WPEND
  | 1 => F.MC_STAT_WPEND
  | 2 => F.TR_STAT_WPEND
  | 3 => F.DP_STAT_WPEND
  | 4 => F.THR_STAT_WPEND
  | _ => F.PWR_STAT_WPEND

/-- One field of a register takes a write under its access type. -/
def Dev.fieldWrite (d : Dev) (x : Found) (off v : Nat) (f : FieldRow) : Dev :=
  let w := bits v f.hi f.lo
  let l := x.fld off f
  match f.acc with
  | .rw | .sh | .rwh => d.fput l w
  | .w1c => d.fput l (d.fget l - (d.fget l &&& w))
  | .ro | .wo | .w1s => d

/-- A write of QCTL (R245). -/
def Dev.qctlWrite (d : Dev) (v : Nat) : Dev :=
  let q := v % 2 ^ 16
  match bits v 19 16 with
  | 1 => d.qctlCreate q
  | 2 => d.qctlDelete q
  | 4 => d.qctlFlush q
  | 8 => d.qctlResume q
  | _ => d.qctlReject

/-- A write of LM_CMD with GO: the operation runs, with nothing going wrong outside the engine (assumption log 73). -/
def Dev.lmGo (d : Dev) (v : Nat) : Dev :=
  let slot := bits v 4 4
  let d := d.fputB F.LM_CMD_GO true
  match bits v 3 0 with
  | 1 => d.mailbox 1 (fun d => d.flashWrite slot (bitAt v 5) false)
  | 2 => d.mailbox 2 (fun d => d.activateLintel slot true)
  | 3 => d.mailbox 3 (fun d => d.activateCasement (bits v 7 6) slot true)
  | 4 => d.mailbox 4 (fun d => d.firmwareCommit false)
  | 5 => d.mailbox 5 (fun d => d.recover {})
  | _ => d.fputB F.LM_CMD_GO false

/-- DG_STAT: software clears EARLY, OVERRUN and LOST. -/
def Dev.dgStatWrite (d : Dev) (k v : Nat) : Dev :=
  let x := d.dgctx k
  d.setDgctx k { x with early := x.early && !bitAt v 3, overrun := x.overrun && !bitAt v 4, lost := x.lost && !bitAt v 5 }

/-- A write of the window's control register (R392). -/
def Dev.dictCtl (d : Dev) (v : Nat) : Dev :=
  match v % 4 with
  | 1 => d.windowGo false
  | 2 => d.windowGo true
  | _ => d

/-- What a write starts, once its fields are stored. -/
def Dev.regActs (d : Dev) (r : RegName) (i v : Nat) : Dev :=
  match r with
  | .QCTL => d.qctlWrite v
  | .CANCEL_DOORBELL => d.cancelDoorbell (bitAt v 8) (v % 256)
  | .HINGE_CTL => if bitAt v 0 then d.hingeRestart else d
  | .HINGE_CH_CTL =>
    let d := if bitAt v 0 then d.hingeStop i else d
    if bitAt v 1 then d.hingeGo i else d
  | .KS_CMD => if bitAt v 24 then d.ksGo (ksOpOf v) else d
  | .DG_CTL => (d.dgCommands i (bitAt v 16) (bitAt v 17) (bitAt v 18)).ksSettle
  | .DG_STAT => d.dgStatWrite i v
  | .MC_RETRAIN => if bitAt v 8 then d.retrainGo (.software (BitVec.ofNat 7 v)) else d
  | .TR_PUT_CTL => if bitAt v 16 then d.putGo i else d
  | .THR_DISCARD => if bitAt v 6 then d.thrDiscard (v % 64) else d
  | .PWR_CTL => if bitAt v 0 then d.deviceReset {} else d
  | .LM_CMD => if bitAt v 16 then d.lmGo v else d
  | .FUSE_CTL =>
    let d := if bitAt v 8 then d.fuseRead (v % 128) else d
    if bitAt v 9 then d.fuseProgram (v % 128) else d
  | .DICT_CTL => d.dictCtl v
  | .FC_REC_STAT => if bitAt v 31 then d.recordClear i else d
  | _ => d

/-- A write of the MSI-X table; a vector unmasked with its pending bit set sends its message. -/
def Dev.msixWrite (d : Dev) (off v : Nat) : Dev :=
  if 0x510000 ≤ off ∧ off < 0x518000 then
    let n := (off - 0x510000) / 16
    let m := Sparse.get {} d.jamb.msix n
    let set (d : Dev) (m : Msix) : Dev := { d with jamb := { d.jamb with msix := Sparse.set {} d.jamb.msix n m } }
    match off % 16 with
    | 0 => set d { m with addr := m.addr / 2 ^ 32 * 2 ^ 32 + v }
    | 4 => set d { m with addr := m.addr % 2 ^ 32 + v * 2 ^ 32 }
    | 8 => set d { m with data := v }
    | _ =>
      if bitAt v 0 = false ∧ m.pending = true then
        (set d { m with masked := false, pending := false }).emit (.msix n m.addr m.data)
      else set d { m with masked := bitAt v 0 }
  else d

/-- A write of a register that is there. -/
def Dev.regWrite (d : Dev) (x : Found) (off v : Nat) : Dev :=
  match x.row.reg with
  | .LT_PANE_HOLD => d.paneHold x.i (v % 2 ^ 24)
  | .FI_CTL => d.fiWrite (bits v 8 0) (bits v 10 9) (bits v 12 11) (bitAt v 16)
  | r =>
    let d := x.row.fields.foldl (fun d f => d.fieldWrite x off v f) d
    ((mirrorsAt off).foldl (fun d m => d.toObject m) d).regActs r x.i v

/-- An aligned 32-bit write whose crossing, where it has one, is over. -/
def Dev.applyWrite (d : Dev) (off v : Nat) : Dev :=
  if d.present off = false then d
  else
    match regAt off with
    | some x => d.regWrite x off v
    | none =>
      match blockCas off with
      | some c =>
        if 0x1000 ≤ off % 0x100000 ∧ off % 0x100000 < 0x10000 then
          { d with life := { d.life with staging := setBit d.life.staging c true } }
        else d
      | none => d.msixWrite off v

/-- An aligned 32-bit write, from whatever master: discarded and counted while the slow block's crossing holds one (R405). -/
def Dev.busWrite (d : Dev) (off v : Nat) : Dev :=
  match slowBlock off with
  | none => d.applyWrite off v
  | some b =>
    if d.present off = false then d
    else if d.fgetB (wpend b) then
      (d.for_ F.GL_STAT_POST_DROP (2 ^ b)).fcount F.GL_STAT_DROP_COUNT 1
    else (d.fputB (wpend b) true).applyWrite off v

/-- Software waits for WPEND to read zero before a write. -/
def Dev.poll (d : Dev) (off : Nat) : Dev :=
  match slowBlock off with
  | none => d
  | some b => d.fputB (wpend b) false

/-- The crossings of all slow blocks end. -/
def Dev.crossed (d : Dev) : Dev := (List.range 6).foldl (fun d b => d.fputB (wpend b) false) d

/-- DG_DATA_k at an offset: the context. -/
def dgDataAt (off : Nat) : Option Nat :=
  if 0x701000 ≤ off ∧ off < 0x705000 ∧ (off % 0x100 = 0x10 ∨ off % 0x100 = 0x14) then some ((off - 0x701000) / 0x100) else none

/-- REGISTER_WRITE: a write of 1, 2, 4 or 8 bytes (R399). -/
def Dev.registerWrite (d : Dev) (polled : Bool) (off width v : Nat) : Dev :=
  let d := if polled then d.poll off else d
  if off % 4 ≠ 0 then d
  else
    match dgDataAt off with
    | some k => if width = 4 ∨ width = 8 then d.dgData k (leBytes width v) else d
    | none =>
      if width = 4 then d.busWrite off (v % 2 ^ 32)
      else if width = 8 then (d.busWrite off (v % 2 ^ 32)).busWrite (off + 4) (v / 2 ^ 32)
      else d

/-! ### PUT (R374) -/

/-- A PUT payload as 32-bit register writes in ascending order. -/
def wordsAt (a : Nat) : Nat → Bytes → List (Nat × Nat)
  | 0, _ => []
  | n + 1, b => if b.length < 4 then [] else (a, fieldAt b 0 4) :: wordsAt (a + 4) n (b.drop 4)

/-- PUT_FRAME_RX: the payload goes to engine memory, or as register writes, and is answered with PUT_ACK. -/
def Dev.putFrameRx (d : Dev) (port : Nat) (good : Bool) (bytes : Bytes) (reg : Bool) : Dev :=
  d.receive 4 port good bytes (fun d f =>
    match d.accept f with
    | none => d
    | some d =>
      let a := f.tag + f.off
      let d := if reg then
          (wordsAt a f.payload.length f.payload).foldl (fun d w => if w.1 % 4 = 0 ∧ w.1 < 2 ^ 26 then d.busWrite w.1 w.2 else d) d
        else d.engWrite a f.payload
      d.sendFrame { type := 5, cls := 6, src := 0, dst := f.src, epoch := d.net.epoch, tag := f.tag })

/-! ### BAR4 (R413) -/

/-- The engine address of a BAR4 offset. -/
def Dev.aperture (d : Dev) (off : Nat) : Nat := d.fget F.APT_BASE_BASE * 2 ^ 30 + off

/-- Bytes as a host read of BAR4 returns them. -/
def Dev.bar4Read (d : Dev) (off n : Nat) : Bytes := d.engBytes (d.aperture off) n

/-- A host write through BAR4; addresses at or beyond the end of the engine space ignore it. -/
def Dev.bar4Write (d : Dev) (off : Nat) (b : Bytes) : Dev :=
  let a := d.aperture off
  d.engWrite a (b.take (Config.engineEnd - a))

end Sys2Proof.Machine
end

