-- ==== Sys2Proof/Machine/Serving.lean ====
section
/-!
DEFINITION. The effects of the commands of the table that combine operations: what their register writes store before they act,
what a dispatch does by opcode, and when the device serves commands at all.
-/

namespace Sys2Proof.Machine

/-! ### Who serves (R436, R441, R444) -/

/-- The main supplies are there: registers, the dictionary window and the mailbox serve, also while parked. -/
def Dev.powered (d : Dev) : Bool := d.life.supplies

/-- The engine serves commands: powered, not parked, and not in RECOVERY (assumption log 17). -/
def Dev.serves (d : Dev) : Bool := d.powered && !d.life.parked && !d.recovering

/-- What a command does to a device that serves it, with all that follows at once. -/
def Dev.served (d : Dev) (f : Dev → Dev) : Dev := if d.serves then (f d).settle else d

/-- As `served`, for a command that nothing follows: it raises no source and touches no pipeline. -/
def Dev.servedAlone (d : Dev) (f : Dev → Dev) : Dev := if d.serves then f d else d

/-- As `served`, in RECOVERY too. -/
def Dev.servedPowered (d : Dev) (f : Dev → Dev) : Dev := if d.powered then (f d).settle else d

/-- Time passes with nothing commanded: the time base counts 10 ns (R13), and writes in transit to slow blocks arrive. Without its
clock or the always-on supply the device stands still (assumption log 2). -/
def Dev.tick (d : Dev) : Dev :=
  if d.life.always = true ∧ d.life.refclk = true then
    { d.crossed with timeBase := (d.timeBase + 10) % 2 ^ 64 }
  else d

/-! ### Jamb -/

/-- COMMAND_DISPATCH: the oldest fetched command of a queue is dispatched; what a STORE_SYNC covers, a DIGEST's context and the
fields an ATTEST takes are fixed then. -/
def Dev.commandDispatch (d : Dev) (q : Nat) : Dev :=
  if d.dispatches q = false then d
  else
    match d.nextDispatch q with
    | none => d
    | some c =>
      let d := d.markDispatched c.id
      if c.opcode = opStoreSync then d.syncDispatch c
      else if c.opcode = opDigest then d.digestDispatch c
      else if c.opcode = opAttest then d.attestDispatch c
      else d

/-- NOP. -/
def Dev.nopRun (d : Dev) (id : Nat) : Dev :=
  match d.running id opNop with
  | some _ => d.finish id 0 (zeros 16) 0
  | none => d

/-! ### Digest contexts and key store -/

/-- DG_CTL takes a value, and its command bits act; a key-store operation that waited may follow. -/
def Dev.dgControl (d : Dev) (k control : Nat) (start final release : Bool) : Dev :=
  let d := d.fput (F.DG_CTL_ALG k) (bits control 1 0)
  let d := d.fput (F.DG_CTL_HMAC k) (bits control 2 2)
  let d := d.fput (F.DG_CTL_TO_SLOT k) (bits control 3 3)
  let d := d.fput (F.DG_CTL_KEY_SLOT k) (bits control 9 4)
  let d := d.fput (F.DG_CTL_DEST_SLOT k) (bits control 15 10)
  (d.dgCommands k start final release).ksSettle

/-- KS_CMD takes an operation, and it starts. -/
def Dev.ksCommand (d : Dev) (o : KsOp) : Dev :=
  ((((d.fput F.KS_CMD_OP o.op).fput F.KS_CMD_SLOT o.slot).fput F.KS_CMD_TYPE o.type).fput F.KS_CMD_LEN o.len).ksGo o

/-! ### Service -/

/-- SELFTEST_REQ: a write of one to the object of Pane p. -/
def Dev.selfTestWrite (d : Dev) (p : Nat) : Dev := d.dictStore .none (0x5002 + 0x20 * p) 1 [1]

/-- UNFENCE: a write of one to the object of a fenced Pane, where it has not been written yet, and the test that it asks for. -/
def Dev.unfenceRun (d : Dev) (p : Nat) (pass : Bool) : Dev :=
  (if (d.pane p).unfencing then d else d.dictStore .none (0x5008 + 0x20 * p) 2 [1]).unfence p pass

/-- BANK_UNFENCE: a write of the mask to the Casement's object, where its banks are not asked for yet, and the tests. -/
def Dev.bankUnfenceRun (d : Dev) (c mask pass : Nat) : Dev :=
  let d := if d.oget (O.BANK_UNFENCE (24 * c)) &&& mask = mask then d
    else d.dictStore .none (0x5008 + 0x20 * (24 * c)) 3 [BitVec.ofNat 8 mask]
  d.bankUnfence c mask pass

/-- A source is raised by what it watches, or by an injection that is armed on it. -/
def Dev.sourceRaised (d : Dev) (n syndrome : Nat) (injected : Bool) : Dev :=
  if injected = true ∧ d.fiFires n = false then d
  else
    let hurt := decide (2 ≤ d.faultAction n)
    let d := if injected then (d.faultRaise n syndrome true).fiConsume else d.faultRaise n syndrome false
    if hurt = false then d
    else if n = 457 then d.poisonThr (syndrome % 2 ^ 48)
    else if n = 449 then d.poison (syndrome % 2 ^ 48)
    else if n = 452 then (d.poison (syndrome % 2 ^ 48 / 64 * 64)).poison (syndrome % 2 ^ 48 / 64 * 64 + 32)
    else d

/-! ### Fabric, mailbox, fuses, drives -/

/-- TR_PUT_CTL takes the node and DST_REG, and the channel starts. -/
def Dev.putCommand (d : Dev) (n node : Nat) (reg : Bool) : Dev :=
  ((d.fput (F.TR_PUT_CTL_NODE n) node).fputB (F.TR_PUT_CTL_DST_REG n) reg).putGo n

/-- LM_CMD takes an operation with GO, and it runs. -/
def Dev.lmCommand (d : Dev) (op slot : Nat) (part : Bool) (cas : Nat) (f : Dev → Dev) : Dev :=
  let d := ((d.fput F.LM_CMD_OP op).fput F.LM_CMD_SLOT slot).fputB F.LM_CMD_PART part
  ((d.fput F.LM_CMD_CASEMENT cas).fputB F.LM_CMD_GO true).mailbox op f

/-- DRIVE_REMOVED: an engine that does not serve learns of it when it next enumerates its slots. -/
def Dev.slotRemoved (d : Dev) (slot : Nat) : Dev :=
  if d.serves then (d.driveRemoved slot).settle else d.setDrive slot {}

/-- DRIVE_INSERTED, in the same way. -/
def Dev.slotInserted (d : Dev) (slot : Nat) (s : DriveSpec) : Dev :=
  if d.serves then (d.driveInserted slot s).settle
  else if Config.slots ≤ slot ∨ (d.drive slot).fitted = true then d
  else d.setDrive slot (driveOf s)

/-- THR_DISCARD takes a slot, and the discard runs. -/
def Dev.discardCommand (d : Dev) (slot : Nat) : Dev := (d.fput F.THR_DISCARD_SLOT slot).thrDiscard slot

/-- PERST_N is asserted. -/
def Dev.perstAssert (d : Dev) : Dev :=
  if d.serves then d.linkReset.settle else { d with life := { d.life with perst := true } }

/-- A BAR4 access wakes an idle engine; a read changes nothing more. -/
def Dev.bar4Access (d : Dev) (off : Nat) (a : BarAccess) : Dev :=
  match a with
  | .read _ => d.wake
  | .write b => d.wake.bar4Write off b

/-- HANDOFF_TIMEOUT, after which requests held on the chain are served. -/
def Dev.handoffEnd (d : Dev) : Dev := if d.life.handoff.isSome then d.handoffTimeout.serveHeld else d

/-- DIGEST_BLOCK_COMPRESSED. -/
def Dev.digestBlock (d : Dev) (w : DigestWork) : Dev :=
  match w with
  | .ctx k => d.dgBlock k.toNat |>.ksSettle
  | .seal_ c => d.foldBlock c.toNat

end Sys2Proof.Machine
end

