-- ==== Sys2Proof/Machine/State.lean ====
section
/-!
DEFINITION. The state of the machine: the device and the commands that wait.
-/

namespace Sys2Proof.Machine

/-- The device, and the commands waiting for it, first in, first out. -/
structure State where
  dev : Dev := {}
  pending : List Instr := []
deriving DecidableEq, Repr

/-- There is no fault: what the spec calls faults are sources, records and reactions of the device itself (chapter 18), and an
access to an address that does not exist reads zero or is ignored (R409, R413). -/
inductive Fault where
deriving DecidableEq, Repr

/-- Why a command has no meaning here. -/
inductive Refusal where
  /-- Raised by no meaning: it is what an arm of `exec` answers for a command without one. Safe. -/
  | notModelled (mnemonic : String)
  /-- Raised by REGISTER_WRITE and PUT_FRAME_RX whose write sets TEST_CTL.MODE: the manual no longer describes the device in a
  manufacturing test mode (R412). Safe. -/
  | testMode
deriving DecidableEq, Repr

/-- The machine right after reset: every register at its reset value, nothing in memory, nothing waiting. -/
def State.reset : State := { dev := {}, pending := [] }

end Sys2Proof.Machine
end

