-- ==== Sys2Proof/Machine/Outcomes.lean ====
section
/-!
DEFINITION. How the meaning of a command answers: by what the device serves, and with what follows the command at once.
-/

namespace Sys2Proof.Machine

/-- A command that the device serves; what it brings about follows at once. -/
def serve (s : State) (f : Dev → Dev) : Host.Outcome State Fault Refusal := .next { s with dev := s.dev.served f }

/-- A command that nothing follows. -/
def serveAlone (s : State) (f : Dev → Dev) : Host.Outcome State Fault Refusal := .next { s with dev := s.dev.servedAlone f }

/-- A command that RECOVERY serves as well. -/
def servePowered (s : State) (f : Dev → Dev) : Host.Outcome State Fault Refusal :=
  .next { s with dev := s.dev.servedPowered f }

/-- A happening on pins, supplies or the chain, which the device meets in every state. -/
def serveAlways (s : State) (f : Dev → Dev) : Host.Outcome State Fault Refusal := .next { s with dev := (f s.dev).settle }

/-- The same, where nothing follows. -/
def actAlways (s : State) (f : Dev → Dev) : Host.Outcome State Fault Refusal := .next { s with dev := f s.dev }

/-- A device as a write leaves it; the manual does not describe one in a manufacturing test mode (R412). -/
def unlessTest (s : State) (d : Dev) : Host.Outcome State Fault Refusal :=
  if d.fget F.TEST_CTL_MODE ≠ 0 then .refused .testMode else .next { s with dev := d.settle }

/-- A command that the device serves, and that may write TEST_CTL. -/
def serveTest (s : State) (f : Dev → Dev) : Host.Outcome State Fault Refusal :=
  if s.dev.serves then unlessTest s (f s.dev) else .next s

/-- The same, in RECOVERY as well. -/
def servePoweredTest (s : State) (f : Dev → Dev) : Host.Outcome State Fault Refusal :=
  if s.dev.powered then unlessTest s (f s.dev) else .next s

end Sys2Proof.Machine
end

