-- ==== Sys2Proof/Machine/DigestRows.lean ====
section
/-!
DEFINITION. The meanings of the commands of digests, keys and attestation (chapter 13), one for each row of the table.
-/

namespace Sys2Proof.Machine

/-- DIGEST (R319). -/
def execDigest (id : Nat) (s : State) : Host.Outcome State Fault Refusal :=
  serve s (fun d => (d.digestRun id).ksSettle)

/-- ATTEST_IDENTITY (R332). -/
def execAttestIdentity (id : Nat) (s : State) : Host.Outcome State Fault Refusal :=
  serve s (fun d => d.attestIdentity id)

/-- ATTEST_SEAL (R332). -/
def execAttestSeal (id : Nat) (s : State) : Host.Outcome State Fault Refusal :=
  serve s (fun d => d.attestSeal id)

/-- DG_CTX_ALLOC_READ (R312). -/
def execDgCtxAllocRead (s : State) : Host.Outcome State Fault Refusal :=
  serveAlone s (fun d => d.dgAllocRead.2)

/-- DG_START (R314). -/
def execDgStart (k : BitVec 6) (control : BitVec 16) (s : State) : Host.Outcome State Fault Refusal :=
  serve s (fun d => d.dgControl k.toNat control.toNat true false false)

/-- DG_DATA_WRITE (R315). -/
def execDgDataWrite (k : BitVec 6) (wide : Bool) (data : BitVec 64) (s : State) : Host.Outcome State Fault Refusal :=
  serve s (fun d => d.dgData k.toNat (leBytes (if wide then 8 else 4) data.toNat))

/-- DG_FINAL (R316). -/
def execDgFinal (k : BitVec 6) (control : BitVec 16) (s : State) : Host.Outcome State Fault Refusal :=
  serve s (fun d => d.dgControl k.toNat control.toNat false true false)

/-- DG_RELEASE (R318). -/
def execDgRelease (k : BitVec 6) (control : BitVec 16) (s : State) : Host.Outcome State Fault Refusal :=
  serve s (fun d => d.dgControl k.toNat control.toNat false false true)

/-- DG_RESULT_READ (R317). -/
def execDgResultRead (k : BitVec 6) (word : BitVec 4) (s : State) : Host.Outcome State Fault Refusal :=
  serveAlone s (fun d => (d.dgWord k.toNat word.toNat).2)

/-- KS_LOAD (R322). -/
def execKsLoad (slot : BitVec 6) (type : BitVec 3) (len : BitVec 8) (s : State) : Host.Outcome State Fault Refusal :=
  serve s (fun d => d.ksCommand { op := 1, slot := slot.toNat, type := type.toNat, len := len.toNat })

/-- KS_CLEAR (R322). -/
def execKsClear (slot : BitVec 6) (s : State) : Host.Outcome State Fault Refusal :=
  serve s (fun d => d.ksCommand { op := 2, slot := slot.toNat, type := d.fget F.KS_CMD_TYPE, len := d.fget F.KS_CMD_LEN })

/-- KS_EXPORT (R322). -/
def execKsExport (slot : BitVec 6) (s : State) : Host.Outcome State Fault Refusal :=
  serve s (fun d => d.ksCommand { op := 3, slot := slot.toNat, type := d.fget F.KS_CMD_TYPE, len := d.fget F.KS_CMD_LEN })

/-- DIGEST_BLOCK_COMPRESSED (R313). -/
def execDigestBlockCompressed (work : DigestWork) (s : State) : Host.Outcome State Fault Refusal :=
  serve s (fun d => d.digestBlock work)

end Sys2Proof.Machine
end

