-- ==== Sys2Proof/Machine/FabricRows.lean ====
section
/-!
DEFINITION. The meanings of the commands of Transom (chapter 15), one for each row of the table.
-/

namespace Sys2Proof.Machine

/-- EPOCH_COMMIT (R355). -/
def execEpochCommit (epoch : BitVec 32) (s : State) : Host.Outcome State Fault Refusal :=
  serve s (fun d => d.dictStore .none 0x6110 2 (leBytes 4 epoch.toNat))

/-- DATA_FRAME_RX (R360). -/
def execDataFrameRx (port : BitVec 1) (good : Bool) (bytes : Bytes) (s : State) : Host.Outcome State Fault Refusal :=
  serve s (fun d => d.wake.dataFrameRx port.toNat good bytes)

/-- END_FRAME_RX (R369). -/
def execEndFrameRx (port : BitVec 1) (good : Bool) (bytes : Bytes) (s : State) : Host.Outcome State Fault Refusal :=
  serve s (fun d => d.wake.endFrameRx port.toNat good bytes)

/-- CREDIT_FRAME_RX (R362). -/
def execCreditFrameRx (port : BitVec 1) (good : Bool) (bytes : Bytes) (s : State) : Host.Outcome State Fault Refusal :=
  serve s (fun d => d.wake.creditFrameRx port.toNat good bytes)

/-- PUT_FRAME_RX (R374). -/
def execPutFrameRx (port : BitVec 1) (good : Bool) (bytes : Bytes) (reg : Bool) (s : State) : Host.Outcome State Fault Refusal
    :=
  serveTest s (fun d => d.wake.putFrameRx port.toNat good bytes reg)

/-- PUT_ACK_RX (R374). -/
def execPutAckRx (port : BitVec 1) (good : Bool) (bytes : Bytes) (s : State) : Host.Outcome State Fault Refusal :=
  serve s (fun d => d.wake.putAckRx port.toNat good bytes)

/-- HELLO_RX (R361). -/
def execHelloRx (port : BitVec 1) (good : Bool) (bytes : Bytes) (s : State) : Host.Outcome State Fault Refusal :=
  serve s (fun d => d.wake.helloRx port.toNat good bytes)

/-- REJECT_RX (R357). -/
def execRejectRx (port : BitVec 1) (good : Bool) (bytes : Bytes) (s : State) : Host.Outcome State Fault Refusal :=
  serve s (fun d => d.wake.rejectRx port.toNat good bytes)

/-- CANCEL_FRAME_RX (R372). -/
def execCancelFrameRx (port : BitVec 1) (good : Bool) (bytes : Bytes) (s : State) : Host.Outcome State Fault Refusal :=
  serve s (fun d => d.wake.cancelFrameRx port.toNat good bytes)

/-- FABRIC_CANCEL_SEND (R371). -/
def execFabricCancelSend (s : State) : Host.Outcome State Fault Refusal :=
  serve s (fun d => d.fabricCancelSend)

/-- SHUFFLE_STRIP_SEND (R365). -/
def execShuffleStripSend (ctx : BitVec 8) (node : BitVec 10) (s : State) : Host.Outcome State Fault Refusal :=
  serve s (fun d => d.stripSend ctx.toNat node.toNat)

/-- RETX_TIMEOUT (R360). -/
def execRetxTimeout (node : BitVec 13) (s : State) : Host.Outcome State Fault Refusal :=
  serve s (fun d => d.retransmit node.toNat)

/-- CREDIT_ACK_TIMEOUT (R360). -/
def execCreditAckTimeout (node : BitVec 13) (s : State) : Host.Outcome State Fault Refusal :=
  serve s (fun d => d.creditAck node.toNat)

/-- HELLO_TIMER (R361). -/
def execHelloTimer (node : BitVec 13) (s : State) : Host.Outcome State Fault Refusal :=
  serve s (fun d => d.helloTimer node.toNat)

/-- PEER_LOST (R361). -/
def execPeerLost (node : BitVec 13) (silent : Bool) (s : State) : Host.Outcome State Fault Refusal :=
  serve s (fun d => d.peerLost node.toNat silent)

/-- CANCEL_REPEAT_TIMER (R372). -/
def execCancelRepeatTimer (s : State) : Host.Outcome State Fault Refusal :=
  serve s (fun d => d.cancelRepeat)

/-- CANCEL_MEMORY_EXPIRY (R372). -/
def execCancelMemoryExpiry (s : State) : Host.Outcome State Fault Refusal :=
  serveAlone s (fun d => d.cancelForget)

/-- FABRIC_PORT_LINK_CHANGE (R353). -/
def execFabricPortLinkChange (port : BitVec 1) (up : Bool) (s : State) : Host.Outcome State Fault Refusal :=
  serve s (fun d => d.portLink port.toNat up)

/-- TR_PUT_GO (R374). -/
def execTrPutGo (n : BitVec 2) (node : BitVec 13) (reg : Bool) (s : State) : Host.Outcome State Fault Refusal :=
  serve s (fun d => d.putCommand n.toNat node.toNat reg)

/-- PFC_PAUSE_RX (R363). -/
def execPfcPauseRx (port : BitVec 1) (named : BitVec 7) (paused : BitVec 7) (s : State) : Host.Outcome State Fault Refusal :=
  serve s (fun d => d.pfcPause port.toNat named.toNat paused.toNat)

end Sys2Proof.Machine
end

