-- ==== Sys2Proof/Machine/FaultRows.lean ====
section
/-!
DEFINITION. The meanings of the commands of faults, injections and fences (chapter 18), one for each row of the table.
-/

namespace Sys2Proof.Machine

/-- FAULT_SOURCE_RAISED (R418). -/
def execFaultSourceRaised (n : BitVec 9) (syndrome : BitVec 128) (injected : Bool) (s : State) : Host.Outcome State Fault
    Refusal :=
  serve s (fun d => d.sourceRaised n.toNat syndrome.toNat injected)

/-- HANDSHAKE_WATCHDOG (R420). -/
def execHandshakeWatchdog (c : BitVec 2) (s : State) : Host.Outcome State Fault Refusal :=
  serve s (fun d => d.watchdog c.toNat)

/-- FC_RECORD_CLEAR (R425). -/
def execFcRecordClear (record : BitVec 7) (s : State) : Host.Outcome State Fault Refusal :=
  serveAlone s (fun d => d.recordClear record.toNat)

/-- FI_ARM (R432). -/
def execFiArm (source : BitVec 9) (bits : BitVec 2) (mode : BitVec 2) (s : State) : Host.Outcome State Fault Refusal :=
  serveAlone s (fun d => d.fiArm source.toNat bits.toNat mode.toNat)

/-- UNFENCE (R435). -/
def execUnfence (p : BitVec 7) (pass : Bool) (s : State) : Host.Outcome State Fault Refusal :=
  serve s (fun d => d.unfenceRun p.toNat pass)

/-- BANK_UNFENCE (R435). -/
def execBankUnfence (c : BitVec 2) (mask : BitVec 4) (pass : BitVec 4) (s : State) : Host.Outcome State Fault Refusal :=
  serve s (fun d => d.bankUnfenceRun c.toNat mask.toNat pass.toNat)

end Sys2Proof.Machine
end

