-- ==== Sys2Proof/Machine/HingeRows.lean ====
section
/-!
DEFINITION. The meanings of the commands of Hinge and Bifold (chapters 12 and 14), one for each row of the table.
-/

namespace Sys2Proof.Machine

/-- DMA (R341). -/
def execDma (id : Nat) (s : State) : Host.Outcome State Fault Refusal :=
  serve s (fun d => d.dmaStart id)

/-- HINGE_DESCRIPTOR_DONE (R342). -/
def execHingeDescriptorDone (n : BitVec 6) (s : State) : Host.Outcome State Fault Refusal :=
  serve s (fun d => d.hingeDone n.toNat)

/-- COMPRESS (R300). -/
def execCompress (id : Nat) (s : State) : Host.Outcome State Fault Refusal :=
  serve s (fun d => d.bifoldRun id opCompress true)

/-- DECOMPRESS (R304). -/
def execDecompress (id : Nat) (s : State) : Host.Outcome State Fault Refusal :=
  serve s (fun d => d.bifoldRun id opDecompress false)

/-- BIFOLD_BLOCK_START (R305). -/
def execBifoldBlockStart (c : BitVec 2) (s : State) : Host.Outcome State Fault Refusal :=
  serve s (fun d => d.blockStart c.toNat)

/-- BIFOLD_BLOCK_DONE (R302). -/
def execBifoldBlockDone (c : BitVec 2) (e : BitVec 4) (parity : Bool) (s : State) : Host.Outcome State Fault Refusal :=
  serve s (fun d => d.blockDone c.toNat e.toNat parity)

/-- HINGE_BUS_ERROR (R346). -/
def execHingeBusError (addr : BitVec 64) (kind : BitVec 3) (port : Bool) (slot : BitVec 6) (s : State) : Host.Outcome State
    Fault Refusal :=
  serve s (fun d => d.hingeBusError addr.toNat kind.toNat port slot.toNat)

/-- HINGE_RESTART (R347). -/
def execHingeRestart (s : State) : Host.Outcome State Fault Refusal :=
  serve s (fun d => d.hingeRestart)

/-- HALT_TIMEOUT_EXPIRY (R347). -/
def execHaltTimeoutExpiry (s : State) : Host.Outcome State Fault Refusal :=
  serve s (fun d => d.haltTimeout)

/-- HINGE_CH_STOP (R343). -/
def execHingeChStop (n : BitVec 6) (s : State) : Host.Outcome State Fault Refusal :=
  serve s (fun d => d.hingeStop n.toNat)

/-- HINGE_CH_GO (R343). -/
def execHingeChGo (n : BitVec 6) (s : State) : Host.Outcome State Fault Refusal :=
  serve s (fun d => d.hingeGo n.toNat)

end Sys2Proof.Machine
end

