-- ==== Sys2Proof/Machine/HostRows.lean ====
section
/-!
DEFINITION. The meanings of the commands of register and memory accesses of the host (chapter 17), one for each row of the table.
-/

namespace Sys2Proof.Machine

/-- BAR4_ACCESS (R413). -/
def execBar4Access (off : BitVec 36) (access : BarAccess) (s : State) : Host.Outcome State Fault Refusal :=
  serve s (fun d => d.bar4Access off.toNat access)

/-- REGISTER_WRITE (R402). -/
def execRegisterWrite (polled : Bool) (off : BitVec 26) (width : BitVec 4) (value : BitVec 64) (s : State) : Host.Outcome
    State Fault Refusal :=
  servePoweredTest s (fun d => d.registerWrite polled off.toNat width.toNat value.toNat)

end Sys2Proof.Machine
end

