-- ==== Sys2Proof/Machine/JambRows.lean ====
section
/-!
DEFINITION. The meanings of the commands of the work rings (chapter 10), one for each row of the table.
-/

namespace Sys2Proof.Machine

/-- SQ_PRODUCER_DOORBELL (R242). -/
def execSqProducerDoorbell (q : BitVec 16) (width : BitVec 7) (value : BitVec 64) (s : State) : Host.Outcome State Fault
    Refusal :=
  serveAlone s (fun d => d.wake.doorbellWrite q.toNat false width.toNat value.toNat)

/-- CQ_CONSUMER_DOORBELL (R242). -/
def execCqConsumerDoorbell (q : BitVec 16) (width : BitVec 7) (value : BitVec 64) (s : State) : Host.Outcome State Fault
    Refusal :=
  serveAlone s (fun d => d.wake.doorbellWrite q.toNat true width.toNat value.toNat)

/-- ENTRY_FETCH (R257). -/
def execEntryFetch (unrotated : Option (BitVec 16)) (s : State) : Host.Outcome State Fault Refusal :=
  serve s (fun d => d.entryFetch (unrotated.map BitVec.toNat))

/-- COMMAND_DISPATCH (R257). -/
def execCommandDispatch (q : BitVec 16) (s : State) : Host.Outcome State Fault Refusal :=
  serve s (fun d => d.commandDispatch q.toNat)

/-- COMPLETION_POST (R243). -/
def execCompletionPost (id : Nat) (s : State) : Host.Outcome State Fault Refusal :=
  serveAlone s (fun d => d.completionPost id)

/-- COALESCE_TIMEOUT (R261). -/
def execCoalesceTimeout (q : BitVec 16) (s : State) : Host.Outcome State Fault Refusal :=
  serveAlone s (fun d => d.coalesceTimeout q.toNat)

/-- QCTL_CREATE (R245). -/
def execQctlCreate (q : BitVec 16) (s : State) : Host.Outcome State Fault Refusal :=
  serveAlone s (fun d => d.qctlCreate q.toNat)

/-- QCTL_DELETE (R266). -/
def execQctlDelete (q : BitVec 16) (s : State) : Host.Outcome State Fault Refusal :=
  serve s (fun d => d.qctlDelete q.toNat)

/-- QCTL_FLUSH (R265). -/
def execQctlFlush (q : BitVec 16) (s : State) : Host.Outcome State Fault Refusal :=
  serve s (fun d => d.qctlFlush q.toNat)

/-- QCTL_RESUME (R263). -/
def execQctlResume (q : BitVec 16) (s : State) : Host.Outcome State Fault Refusal :=
  serveAlone s (fun d => d.qctlResume q.toNat)

/-- CANCEL_DOORBELL (R269). -/
def execCancelDoorbell (ctx : BitVec 8) (all : Bool) (s : State) : Host.Outcome State Fault Refusal :=
  serve s (fun d => d.cancelDoorbell all ctx.toNat)

/-- NOP (R254). -/
def execNop (id : Nat) (s : State) : Host.Outcome State Fault Refusal :=
  serveAlone s (fun d => d.nopRun id)

end Sys2Proof.Machine
end

