-- ==== Sys2Proof/Machine/LifeRows.lean ====
section
/-!
DEFINITION. The meanings of the commands of power, resets, firmware and fuses (chapters 19 and 20), one for each row of the table.
-/

namespace Sys2Proof.Machine

/-- POWER_ON (R438). -/
def execPowerOn (board : Option Board) (dimms : List (Option Dimm)) (tests : Tests) (s : State) : Host.Outcome State Fault
    Refusal :=
  serveAlways s (fun d => d.powerOn board dimms tests)

/-- DEVICE_RESET (R436). -/
def execDeviceReset (tests : Tests) (s : State) : Host.Outcome State Fault Refusal :=
  serve s (fun d => d.deviceReset tests)

/-- LINK_RESET (R436). -/
def execLinkReset (s : State) : Host.Outcome State Fault Refusal :=
  actAlways s (fun d => d.perstAssert)

/-- FUNCTION_LEVEL_RESET (R267). -/
def execFunctionLevelReset (s : State) : Host.Outcome State Fault Refusal :=
  serve s (fun d => d.functionReset)

/-- SHELF_DARK_ASSERT (R444). -/
def execShelfDarkAssert (s : State) : Host.Outcome State Fault Refusal :=
  serveAlways s (fun d => d.shelfDarkAssert)

/-- PARK_OK_ASSERT (R444). -/
def execParkOkAssert (tests : Tests) (s : State) : Host.Outcome State Fault Refusal :=
  serveAlways s (fun d => d.parkOkAssert tests)

/-- SHELF_DARK_DEASSERT (R447). -/
def execShelfDarkDeassert (tests : Tests) (s : State) : Host.Outcome State Fault Refusal :=
  serveAlways s (fun d => d.shelfDarkDeassert tests)

/-- CASEMENT_GATE_TIMEOUT (R443). -/
def execCasementGateTimeout (c : BitVec 2) (s : State) : Host.Outcome State Fault Refusal :=
  serve s (fun d => d.gate c.toNat)

/-- CASEMENT_UNGATE (R443). -/
def execCasementUngate (c : BitVec 2) (s : State) : Host.Outcome State Fault Refusal :=
  serve s (fun d => d.ungate c.toNat)

/-- IDLE_TIMEOUT (R443). -/
def execIdleTimeout (s : State) : Host.Outcome State Fault Refusal :=
  serve s (fun d => d.idleEnter)

/-- IDLE_EXIT (R443). -/
def execIdleExit (s : State) : Host.Outcome State Fault Refusal :=
  serve s (fun d => d.wake)

/-- THERMTRIP (R463). -/
def execThermtrip (s : State) : Host.Outcome State Fault Refusal :=
  servePowered s (fun d => d.thermTrip)

/-- REFCLK_LOSS (R468). -/
def execRefclkLoss (s : State) : Host.Outcome State Fault Refusal :=
  serveAlways s (fun d => d.refclkLoss)

/-- AVS_STEP (R467). -/
def execAvsStep (vout : BitVec 12) (iout : BitVec 10) (drifted : Bool) (temps : List (Option (BitVec 8))) (s : State) :
    Host.Outcome State Fault Refusal :=
  serve s (fun d => d.avsStep vout.toNat iout.toNat drifted temps)

/-- CRATE_WINDOW_CLOSE (R27). -/
def execCrateWindowClose (windows : List Crate) (s : State) : Host.Outcome State Fault Refusal :=
  serveAlone s (fun d => d.crateWindow windows)

/-- FLASH_WRITE (R452). -/
def execFlashWrite (slot : BitVec 1) (micro : Bool) (flashError : Bool) (s : State) : Host.Outcome State Fault Refusal :=
  servePowered s (fun d => d.lmCommand 1 slot.toNat micro 0 (fun d => d.flashWrite slot.toNat micro flashError))

/-- ACTIVATE_LINTEL (R452). -/
def execActivateLintel (slot : BitVec 1) (starts : Bool) (s : State) : Host.Outcome State Fault Refusal :=
  servePowered s (fun d => d.lmCommand 2 slot.toNat false 0 (fun d => d.activateLintel slot.toNat starts))

/-- HANDOFF_TIMEOUT (R452). -/
def execHandoffTimeout (s : State) : Host.Outcome State Fault Refusal :=
  serve s (fun d => d.handoffEnd)

/-- ACTIVATE_CASEMENT (R451). -/
def execActivateCasement (c : BitVec 2) (slot : BitVec 1) (pass : Bool) (s : State) : Host.Outcome State Fault Refusal :=
  servePowered s (fun d => d.lmCommand 3 slot.toNat false c.toNat (fun d => d.activateCasement c.toNat slot.toNat pass))

/-- FIRMWARE_COMMIT (R452). -/
def execFirmwareCommit (flashError : Bool) (s : State) : Host.Outcome State Fault Refusal :=
  servePowered s (fun d => d.lmCommand 4 0 false 0 (fun d => d.firmwareCommit flashError))

/-- RECOVER (R441). -/
def execRecover (tests : Tests) (s : State) : Host.Outcome State Fault Refusal :=
  servePowered s (fun d => d.lmCommand 5 0 false 0 (fun d => d.recover tests))

/-- FUSE_READ (R456). -/
def execFuseRead (word : BitVec 7) (s : State) : Host.Outcome State Fault Refusal :=
  serveAlone s (fun d => d.fuseRead word.toNat)

/-- FUSE_PROGRAM (R456). -/
def execFuseProgram (word : BitVec 7) (s : State) : Host.Outcome State Fault Refusal :=
  serveAlone s (fun d => d.fuseProgram word.toNat)

/-- POWER_LOSS (R284). -/
def execPowerLoss (always : Bool) (s : State) : Host.Outcome State Fault Refusal :=
  serveAlways s (fun d => d.powerLoss always)

/-- REFCLK_RETURN (R468). -/
def execRefclkReturn (tests : Tests) (s : State) : Host.Outcome State Fault Refusal :=
  serveAlways s (fun d => d.refclkReturn tests)

/-- PERST_N_DEASSERT (R438). -/
def execPerstNDeassert (s : State) : Host.Outcome State Fault Refusal :=
  actAlways s (fun d => d.perstDeassert)

end Sys2Proof.Machine
end

