-- ==== Sys2Proof/Machine/LouvreRows.lean ====
section
/-!
DEFINITION. The meanings of the commands of Louvre tables (chapter 04), one for each row of the table.
-/

namespace Sys2Proof.Machine

/-- LOUVRE_CREATE (R104). -/
def execLouvreCreate (id : Nat) (s : State) : Host.Outcome State Fault Refusal :=
  serve s (fun d => d.louvreCreate id)

/-- LOUVRE_WRITE (R105). -/
def execLouvreWrite (id : Nat) (s : State) : Host.Outcome State Fault Refusal :=
  serve s (fun d => d.louvreWrite id)

/-- LOUVRE_SWAP (R103). -/
def execLouvreSwap (id : Nat) (s : State) : Host.Outcome State Fault Refusal :=
  serve s (fun d => d.louvreSwap id)

/-- LOUVRE_UNLOAD (R104). -/
def execLouvreUnload (id : Nat) (s : State) : Host.Outcome State Fault Refusal :=
  serve s (fun d => d.louvreUnload id)

/-- LOUVRE_SEARCH (R112). -/
def execLouvreSearch (id : Nat) (fail : Option (BitVec 32 × Bool)) (s : State) : Host.Outcome State Fault Refusal :=
  serve s (fun d => d.louvreSearch id (fail.map (fun x => (x.1.toNat, x.2))))

/-- LOUVRE_SCRUB_PASS (R115). -/
def execLouvreScrubPass (c : BitVec 2) (b : BitVec 2) (repaired : List (BitVec 14)) (lost : List (BitVec 14)) (s : State) :
    Host.Outcome State Fault Refusal :=
  serve s (fun d => d.lvScrub c.toNat b.toNat (repaired.map BitVec.toNat) (lost.map BitVec.toNat))

end Sys2Proof.Machine
end

