-- ==== Sys2Proof/Machine/MemRows.lean ====
section
/-!
DEFINITION. The meanings of the commands of both memories (chapter 09), one for each row of the table.
-/

namespace Sys2Proof.Machine

/-- REFRESH_INTERVAL (R224). -/
def execRefreshInterval (sub : BitVec 8) (s : State) : Host.Outcome State Fault Refusal :=
  serve s (fun d => d.refreshInterval sub.toNat)

/-- MEMORY_REQUEST (R221). -/
def execMemoryRequest (sub : BitVec 8) (err : Option MemErr) (s : State) : Host.Outcome State Fault Refusal :=
  serve s (fun d => Dev.failReaders (d.memRequest sub.toNat err))

/-- POWER_DOWN_TIMEOUT (R226). -/
def execPowerDownTimeout (sub : BitVec 8) (rank : BitVec 3) (s : State) : Host.Outcome State Fault Refusal :=
  serve s (fun d => d.powerDown sub.toNat rank.toNat)

/-- MEMORY_HOT (R220). -/
def execMemoryHot (unit : BitVec 4) (temp : BitVec 8) (s : State) : Host.Outcome State Fault Refusal :=
  serveAlone s (fun d => d.memoryTemp unit.toNat temp.toNat)

/-- MC_RETRAIN_GO (R229). -/
def execMcRetrainGo (cause : RetrainCause) (s : State) : Host.Outcome State Fault Refusal :=
  serve s (fun d => d.retrainGo cause)

/-- MEMORY_RETRAIN_DONE (R229). -/
def execMemoryRetrainDone (far : Bool) (pass : Bool) (s : State) : Host.Outcome State Fault Refusal :=
  serve s (fun d => d.retrainDone far pass)

/-- REMAP_COPY_DONE (R234). -/
def execRemapCopyDone (s : State) : Host.Outcome State Fault Refusal :=
  serve s (fun d => d.remapDone)

/-- PATROL_SCRUB_PASS (R232). -/
def execPatrolScrubPass (found : List (BitVec 35 × MemErr)) (s : State) : Host.Outcome State Fault Refusal :=
  serve s (fun d => d.scrubPass (found.map (fun x => (x.1.toNat, x.2))))

end Sys2Proof.Machine
end

