-- ==== Sys2Proof/Machine/PipeRows.lean ====
section
/-!
DEFINITION. The meanings of the commands of pipelines, Latch and Panes (chapters 02 to 07), one for each row of the table.
-/

namespace Sys2Proof.Machine

/-- PIPE_LOAD (R48). -/
def execPipeLoad (id : Nat) (s : State) : Host.Outcome State Fault Refusal :=
  serve s (fun d => d.pipeLoad id)

/-- PIPE_RUN (R54). -/
def execPipeRun (id : Nat) (s : State) : Host.Outcome State Fault Refusal :=
  serve s (fun d => d.pipeRun id)

/-- PIPE_CANCEL (R47). -/
def execPipeCancel (id : Nat) (s : State) : Host.Outcome State Fault Refusal :=
  serve s (fun d => d.pipeCancel id)

/-- PIPE_PARK (R47). -/
def execPipePark (id : Nat) (s : State) : Host.Outcome State Fault Refusal :=
  serve s (fun d => d.pipePark id)

/-- PIPE_RESUME (R448). -/
def execPipeResume (id : Nat) (s : State) : Host.Outcome State Fault Refusal :=
  serve s (fun d => d.pipeResume id)

/-- PIPE_UNLOAD (R47). -/
def execPipeUnload (id : Nat) (s : State) : Host.Outcome State Fault Refusal :=
  serve s (fun d => d.pipeUnload id)

/-- STRIP_DISPATCH (R177). -/
def execStripDispatch (c : BitVec 2) (s : State) : Host.Outcome State Fault Refusal :=
  serve s (fun d => d.stripDispatch c.toNat)

/-- NODE_STRIP_BOUNDARY (R41). -/
def execNodeStripBoundary (p : BitVec 7) (residue : Option Residue) (verify : Option (BitVec 16 × Bool)) (media : Option
    (BitVec 6 × BitVec 15)) (s : State) : Host.Outcome State Fault Refusal :=
  serve s (fun d =>
    d.stripBoundary p.toNat residue (verify.map (fun x => (x.1.toNat, x.2))) (media.map (fun x => (x.1.toNat, x.2.toNat))))

/-- SEAL_WRITE (R331). -/
def execSealWrite (ctx : BitVec 8) (s : State) : Host.Outcome State Fault Refusal :=
  serve s (fun d => d.sealWrite ctx.toNat)

/-- AGING_TIMEOUT (R176). -/
def execAgingTimeout (ctx : BitVec 8) (node : BitVec 10) (s : State) : Host.Outcome State Fault Refusal :=
  serve s (fun d => d.agingTimeout ctx.toNat node.toNat)

/-- AFFINITY_WAIT_EXPIRY (R177). -/
def execAffinityWaitExpiry (ctx : BitVec 8) (node : BitVec 10) (lapsed : BitVec 96) (s : State) : Host.Outcome State Fault
    Refusal :=
  serve s (fun d => d.affinityExpiry ctx.toNat node.toNat lapsed.toNat)

/-- CROSS_WAIT_EXPIRY (R177). -/
def execCrossWaitExpiry (ctx : BitVec 8) (node : BitVec 10) (s : State) : Host.Outcome State Fault Refusal :=
  serve s (fun d => d.crossExpiry ctx.toNat node.toNat)

/-- SELFTEST_REQ (R187). -/
def execSelftestReq (p : BitVec 7) (s : State) : Host.Outcome State Fault Refusal :=
  serve s (fun d => d.selfTestWrite p.toNat)

/-- PANE_SELFTEST_RUN (R187). -/
def execPaneSelftestRun (p : BitVec 7) (pass : Bool) (s : State) : Host.Outcome State Fault Refusal :=
  serve s (fun d => d.selfTestRun p.toNat pass)

end Sys2Proof.Machine
end

