-- ==== Sys2Proof/Machine/SashRows.lean ====
section
/-!
DEFINITION. The meanings of the commands of the Sash chain and the dictionary (chapter 16), one for each row of the table.
-/

namespace Sys2Proof.Machine

/-- SASH_READ (R387). -/
def execSashRead (out : Bool) (bytes : Bytes) (s : State) : Host.Outcome State Fault Refusal :=
  serveAlways s (fun d => d.sashRead out bytes)

/-- SASH_WRITE (R388). -/
def execSashWrite (out : Bool) (bytes : Bytes) (s : State) : Host.Outcome State Fault Refusal :=
  serveAlways s (fun d => d.sashWrite out bytes)

/-- ENUMERATE (R384). -/
def execEnumerate (out : Bool) (bytes : Bytes) (s : State) : Host.Outcome State Fault Refusal :=
  serveAlways s (fun d => d.enumerate out bytes)

/-- SASH_CANCEL_RX (R396). -/
def execSashCancelRx (out : Bool) (bytes : Bytes) (s : State) : Host.Outcome State Fault Refusal :=
  serveAlways s (fun d => d.sashCancelRx out bytes)

/-- SASH_RELAY (R382). -/
def execSashRelay (out : Bool) (bytes : Bytes) (s : State) : Host.Outcome State Fault Refusal :=
  serveAlways s (fun d => d.sashRelay out bytes)

/-- SASH_LINK_CHANGE (R385). -/
def execSashLinkChange (out : Bool) (up : Bool) (s : State) : Host.Outcome State Fault Refusal :=
  serveAlways s (fun d => d.sashLink out up)

/-- SASH_SNAPSHOT_TIMEOUT (R388). -/
def execSashSnapshotTimeout (assembly : Bool) (s : State) : Host.Outcome State Fault Refusal :=
  actAlways s (fun d => d.snapshotTimeout assembly)

/-- DICT_READ (R392). -/
def execDictRead (s : State) : Host.Outcome State Fault Refusal :=
  servePowered s (fun d => d.windowGo false)

/-- DICT_WRITE (R392). -/
def execDictWrite (s : State) : Host.Outcome State Fault Refusal :=
  servePowered s (fun d => d.windowGo true)

/-- RWP_PERSIST_DONE (R394). -/
def execRwpPersistDone (s : State) : Host.Outcome State Fault Refusal :=
  serveAlways s (fun d => if d.chainLive then d.persistDone else d)

/-- RESTORE_DEFAULTS (R394). -/
def execRestoreDefaults (s : State) : Host.Outcome State Fault Refusal :=
  serveAlways s (fun d => if d.chainLive then d.restoreGo else d)

end Sys2Proof.Machine
end

