-- ==== Sys2Proof/Machine/SillRows.lean ====
section
/-!
DEFINITION. The meanings of the commands of the Sill caches (chapter 08), one for each row of the table.
-/

namespace Sys2Proof.Machine

/-- CACHE_FLUSH (R206). -/
def execCacheFlush (id : Nat) (s : State) : Host.Outcome State Fault Refusal :=
  serve s (fun d => d.cacheMaint id 0)

/-- CACHE_INVALIDATE (R206). -/
def execCacheInvalidate (id : Nat) (s : State) : Host.Outcome State Fault Refusal :=
  serve s (fun d => d.cacheMaint id 1)

/-- CACHE_FLUSH_INVALIDATE (R206). -/
def execCacheFlushInvalidate (id : Nat) (s : State) : Host.Outcome State Fault Refusal :=
  serve s (fun d => d.cacheMaint id 2)

/-- CACHE_PRELOAD (R206). -/
def execCachePreload (id : Nat) (s : State) : Host.Outcome State Fault Refusal :=
  serve s (fun d => d.cacheMaint id 3)

/-- SILL_REQUEST (R198). -/
def execSillRequest (c : BitVec 2) (ctx : BitVec 8) (node : BitVec 10) (p : BitVec 7) (line : BitVec 35) (cls : SClass) (limit
    : Option (BitVec 35)) (write : List (BitVec 7 × Byte)) (err : Option SillErr) (s : State) : Host.Outcome State Fault
    Refusal :=
  serve s (fun d =>
    Dev.failReaders (d.sillRequest c.toNat (1024 * ctx.toNat + node.toNat) p.toNat line.toNat cls (limit.map BitVec.toNat)
    (write.map (fun x => (x.1.toNat, x.2))) err))

/-- SILL_FILL_LAND (R207). -/
def execSillFillLand (c : BitVec 2) (line : BitVec 35) (s : State) : Host.Outcome State Fault Refusal :=
  serve s (fun d => Dev.failReaders (d.fillLand c.toNat line.toNat))

/-- SILL_INVALIDATION (R200). -/
def execSillInvalidation (addr : BitVec 42) (bytes : Bytes) (s : State) : Host.Outcome State Fault Refusal :=
  serve s (fun d => d.engWrite addr.toNat bytes)

/-- SILL_PREFETCH (R204). -/
def execSillPrefetch (c : BitVec 2) (bank : BitVec 4) (stream : BitVec 6) (s : State) : Host.Outcome State Fault Refusal :=
  serve s (fun d => d.sillPrefetch c.toNat bank.toNat stream.toNat)

end Sys2Proof.Machine
end

