-- ==== Sys2Proof/Machine/StoreRows.lean ====
section
/-!
DEFINITION. The meanings of the commands of STORE, FETCH and the drives (chapter 11), one for each row of the table.
-/

namespace Sys2Proof.Machine

/-- STORE (R277). -/
def execStore (id : Nat) (s : State) : Host.Outcome State Fault Refusal :=
  serve s (fun d => d.storeRun id)

/-- STORE_COMMIT (R277). -/
def execStoreCommit (id : Nat) (s : State) : Host.Outcome State Fault Refusal :=
  serve s (fun d => d.storeCommit id)

/-- STORE_DRAIN_WRITE (R279). -/
def execStoreDrainWrite (slot : BitVec 6) (outcome : Option (BitVec 15)) (s : State) : Host.Outcome State Fault Refusal :=
  serve s (fun d => d.storeDrain slot.toNat (outcome.map BitVec.toNat))

/-- STORE_RELEASE (R279). -/
def execStoreRelease (slot : BitVec 6) (s : State) : Host.Outcome State Fault Refusal :=
  serve s (fun d => d.storeRelease slot.toNat)

/-- FETCH (R282). -/
def execFetch (id : Nat) (outcome : Option (BitVec 15)) (s : State) : Host.Outcome State Fault Refusal :=
  serve s (fun d => d.fetchRun id (outcome.map BitVec.toNat))

/-- STORE_SYNC (R280). -/
def execStoreSync (id : Nat) (s : State) : Host.Outcome State Fault Refusal :=
  serveAlone s (fun d => d.storeSync id)

/-- PWR_FAIL_ASSERT (R283). -/
def execPwrFailAssert (s : State) : Host.Outcome State Fault Refusal :=
  servePowered s (fun d => d.pwrFailAssert)

/-- PWR_FAIL_DEASSERT (R283). -/
def execPwrFailDeassert (s : State) : Host.Outcome State Fault Refusal :=
  servePowered s (fun d => d.pwrFailDeassert)

/-- NVME_TIMEOUT (R287). -/
def execNvmeTimeout (slot : BitVec 6) (work : DriveWork) (s : State) : Host.Outcome State Fault Refusal :=
  serve s (fun d => d.nvmeTimeout slot.toNat work)

/-- DRIVE_READY_TIMEOUT (R287). -/
def execDriveReadyTimeout (slot : BitVec 6) (s : State) : Host.Outcome State Fault Refusal :=
  serve s (fun d => d.readyTimeout slot.toNat)

/-- DRIVE_REMOVED (R288). -/
def execDriveRemoved (slot : BitVec 6) (s : State) : Host.Outcome State Fault Refusal :=
  actAlways s (fun d => d.slotRemoved slot.toNat)

/-- DRIVE_INSERTED (R288). -/
def execDriveInserted (slot : BitVec 6) (drive : DriveSpec) (s : State) : Host.Outcome State Fault Refusal :=
  actAlways s (fun d => d.slotInserted slot.toNat drive)

/-- THR_DISCARD (R290). -/
def execThrDiscard (slot : BitVec 6) (s : State) : Host.Outcome State Fault Refusal :=
  serve s (fun d => d.discardCommand slot.toNat)

/-- DRIVE_READY_AGAIN (R287). -/
def execDriveReadyAgain (slot : BitVec 6) (s : State) : Host.Outcome State Fault Refusal :=
  serve s (fun d => d.readyAgain slot.toNat)

end Sys2Proof.Machine
end

