-- ==== Sys2Proof/Machine/Dispatch.lean ====
section
/-!
DEFINITION. What each command does to everything but the queue: one meaning for each constructor.
-/

namespace Sys2Proof.Machine

def exec (i : Instr) (s : State) : Host.Outcome State Fault Refusal :=
  match i with
  | .sqProducerDoorbell q width value => Sys2Proof.Machine.execSqProducerDoorbell q width value s
  | .cqConsumerDoorbell q width value => Sys2Proof.Machine.execCqConsumerDoorbell q width value s
  | .entryFetch unrotated => Sys2Proof.Machine.execEntryFetch unrotated s
  | .commandDispatch q => Sys2Proof.Machine.execCommandDispatch q s
  | .completionPost id => Sys2Proof.Machine.execCompletionPost id s
  | .coalesceTimeout q => Sys2Proof.Machine.execCoalesceTimeout q s
  | .qctlCreate q => Sys2Proof.Machine.execQctlCreate q s
  | .qctlDelete q => Sys2Proof.Machine.execQctlDelete q s
  | .qctlFlush q => Sys2Proof.Machine.execQctlFlush q s
  | .qctlResume q => Sys2Proof.Machine.execQctlResume q s
  | .cancelDoorbell ctx all => Sys2Proof.Machine.execCancelDoorbell ctx all s
  | .nop id => Sys2Proof.Machine.execNop id s
  | .pipeLoad id => Sys2Proof.Machine.execPipeLoad id s
  | .pipeRun id => Sys2Proof.Machine.execPipeRun id s
  | .pipeCancel id => Sys2Proof.Machine.execPipeCancel id s
  | .pipePark id => Sys2Proof.Machine.execPipePark id s
  | .pipeResume id => Sys2Proof.Machine.execPipeResume id s
  | .pipeUnload id => Sys2Proof.Machine.execPipeUnload id s
  | .store id => Sys2Proof.Machine.execStore id s
  | .storeCommit id => Sys2Proof.Machine.execStoreCommit id s
  | .storeDrainWrite slot outcome => Sys2Proof.Machine.execStoreDrainWrite slot outcome s
  | .storeRelease slot => Sys2Proof.Machine.execStoreRelease slot s
  | .fetch id outcome => Sys2Proof.Machine.execFetch id outcome s
  | .storeSync id => Sys2Proof.Machine.execStoreSync id s
  | .dma id => Sys2Proof.Machine.execDma id s
  | .hingeDescriptorDone n => Sys2Proof.Machine.execHingeDescriptorDone n s
  | .compress id => Sys2Proof.Machine.execCompress id s
  | .decompress id => Sys2Proof.Machine.execDecompress id s
  | .digest id => Sys2Proof.Machine.execDigest id s
  | .louvreCreate id => Sys2Proof.Machine.execLouvreCreate id s
  | .louvreWrite id => Sys2Proof.Machine.execLouvreWrite id s
  | .louvreSwap id => Sys2Proof.Machine.execLouvreSwap id s
  | .louvreUnload id => Sys2Proof.Machine.execLouvreUnload id s
  | .louvreSearch id fail => Sys2Proof.Machine.execLouvreSearch id fail s
  | .cacheFlush id => Sys2Proof.Machine.execCacheFlush id s
  | .cacheInvalidate id => Sys2Proof.Machine.execCacheInvalidate id s
  | .cacheFlushInvalidate id => Sys2Proof.Machine.execCacheFlushInvalidate id s
  | .cachePreload id => Sys2Proof.Machine.execCachePreload id s
  | .attestIdentity id => Sys2Proof.Machine.execAttestIdentity id s
  | .attestSeal id => Sys2Proof.Machine.execAttestSeal id s
  | .stripDispatch c => Sys2Proof.Machine.execStripDispatch c s
  | .nodeStripBoundary p residue verify media => Sys2Proof.Machine.execNodeStripBoundary p residue verify media s
  | .sealWrite ctx => Sys2Proof.Machine.execSealWrite ctx s
  | .agingTimeout ctx node => Sys2Proof.Machine.execAgingTimeout ctx node s
  | .affinityWaitExpiry ctx node lapsed => Sys2Proof.Machine.execAffinityWaitExpiry ctx node lapsed s
  | .crossWaitExpiry ctx node => Sys2Proof.Machine.execCrossWaitExpiry ctx node s
  | .selftestReq p => Sys2Proof.Machine.execSelftestReq p s
  | .paneSelftestRun p pass => Sys2Proof.Machine.execPaneSelftestRun p pass s
  | .sillRequest c ctx node p line cls limit write err => Sys2Proof.Machine.execSillRequest c ctx node p line cls limit write err s
  | .sillFillLand c line => Sys2Proof.Machine.execSillFillLand c line s
  | .sillInvalidation addr bytes => Sys2Proof.Machine.execSillInvalidation addr bytes s
  | .sillPrefetch c bank stream => Sys2Proof.Machine.execSillPrefetch c bank stream s
  | .louvreScrubPass c b repaired lost => Sys2Proof.Machine.execLouvreScrubPass c b repaired lost s
  | .bifoldBlockStart c => Sys2Proof.Machine.execBifoldBlockStart c s
  | .bifoldBlockDone c e parity => Sys2Proof.Machine.execBifoldBlockDone c e parity s
  | .refreshInterval sub => Sys2Proof.Machine.execRefreshInterval sub s
  | .memoryRequest sub err => Sys2Proof.Machine.execMemoryRequest sub err s
  | .powerDownTimeout sub rank => Sys2Proof.Machine.execPowerDownTimeout sub rank s
  | .memoryHot unit temp => Sys2Proof.Machine.execMemoryHot unit temp s
  | .mcRetrainGo cause => Sys2Proof.Machine.execMcRetrainGo cause s
  | .memoryRetrainDone far pass => Sys2Proof.Machine.execMemoryRetrainDone far pass s
  | .remapCopyDone => Sys2Proof.Machine.execRemapCopyDone s
  | .patrolScrubPass found => Sys2Proof.Machine.execPatrolScrubPass found s
  | .pwrFailAssert => Sys2Proof.Machine.execPwrFailAssert s
  | .pwrFailDeassert => Sys2Proof.Machine.execPwrFailDeassert s
  | .nvmeTimeout slot work => Sys2Proof.Machine.execNvmeTimeout slot work s
  | .driveReadyTimeout slot => Sys2Proof.Machine.execDriveReadyTimeout slot s
  | .driveRemoved slot => Sys2Proof.Machine.execDriveRemoved slot s
  | .driveInserted slot drive => Sys2Proof.Machine.execDriveInserted slot drive s
  | .thrDiscard slot => Sys2Proof.Machine.execThrDiscard slot s
  | .hingeBusError addr kind port slot => Sys2Proof.Machine.execHingeBusError addr kind port slot s
  | .hingeRestart => Sys2Proof.Machine.execHingeRestart s
  | .haltTimeoutExpiry => Sys2Proof.Machine.execHaltTimeoutExpiry s
  | .hingeChStop n => Sys2Proof.Machine.execHingeChStop n s
  | .hingeChGo n => Sys2Proof.Machine.execHingeChGo n s
  | .dgCtxAllocRead => Sys2Proof.Machine.execDgCtxAllocRead s
  | .dgStart k control => Sys2Proof.Machine.execDgStart k control s
  | .dgDataWrite k wide data => Sys2Proof.Machine.execDgDataWrite k wide data s
  | .dgFinal k control => Sys2Proof.Machine.execDgFinal k control s
  | .dgRelease k control => Sys2Proof.Machine.execDgRelease k control s
  | .dgResultRead k word => Sys2Proof.Machine.execDgResultRead k word s
  | .ksLoad slot type len => Sys2Proof.Machine.execKsLoad slot type len s
  | .ksClear slot => Sys2Proof.Machine.execKsClear slot s
  | .ksExport slot => Sys2Proof.Machine.execKsExport slot s
  | .epochCommit epoch => Sys2Proof.Machine.execEpochCommit epoch s
  | .dataFrameRx port good bytes => Sys2Proof.Machine.execDataFrameRx port good bytes s
  | .endFrameRx port good bytes => Sys2Proof.Machine.execEndFrameRx port good bytes s
  | .creditFrameRx port good bytes => Sys2Proof.Machine.execCreditFrameRx port good bytes s
  | .putFrameRx port good bytes reg => Sys2Proof.Machine.execPutFrameRx port good bytes reg s
  | .putAckRx port good bytes => Sys2Proof.Machine.execPutAckRx port good bytes s
  | .helloRx port good bytes => Sys2Proof.Machine.execHelloRx port good bytes s
  | .rejectRx port good bytes => Sys2Proof.Machine.execRejectRx port good bytes s
  | .cancelFrameRx port good bytes => Sys2Proof.Machine.execCancelFrameRx port good bytes s
  | .fabricCancelSend => Sys2Proof.Machine.execFabricCancelSend s
  | .shuffleStripSend ctx node => Sys2Proof.Machine.execShuffleStripSend ctx node s
  | .retxTimeout node => Sys2Proof.Machine.execRetxTimeout node s
  | .creditAckTimeout node => Sys2Proof.Machine.execCreditAckTimeout node s
  | .helloTimer node => Sys2Proof.Machine.execHelloTimer node s
  | .peerLost node silent => Sys2Proof.Machine.execPeerLost node silent s
  | .cancelRepeatTimer => Sys2Proof.Machine.execCancelRepeatTimer s
  | .cancelMemoryExpiry => Sys2Proof.Machine.execCancelMemoryExpiry s
  | .fabricPortLinkChange port up => Sys2Proof.Machine.execFabricPortLinkChange port up s
  | .trPutGo n node reg => Sys2Proof.Machine.execTrPutGo n node reg s
  | .sashRead out bytes => Sys2Proof.Machine.execSashRead out bytes s
  | .sashWrite out bytes => Sys2Proof.Machine.execSashWrite out bytes s
  | .enumerate out bytes => Sys2Proof.Machine.execEnumerate out bytes s
  | .sashCancelRx out bytes => Sys2Proof.Machine.execSashCancelRx out bytes s
  | .sashRelay out bytes => Sys2Proof.Machine.execSashRelay out bytes s
  | .sashLinkChange out up => Sys2Proof.Machine.execSashLinkChange out up s
  | .sashSnapshotTimeout assembly => Sys2Proof.Machine.execSashSnapshotTimeout assembly s
  | .dictRead => Sys2Proof.Machine.execDictRead s
  | .dictWrite => Sys2Proof.Machine.execDictWrite s
  | .rwpPersistDone => Sys2Proof.Machine.execRwpPersistDone s
  | .restoreDefaults => Sys2Proof.Machine.execRestoreDefaults s
  | .faultSourceRaised n syndrome injected => Sys2Proof.Machine.execFaultSourceRaised n syndrome injected s
  | .handshakeWatchdog c => Sys2Proof.Machine.execHandshakeWatchdog c s
  | .fcRecordClear record => Sys2Proof.Machine.execFcRecordClear record s
  | .fiArm source bits mode => Sys2Proof.Machine.execFiArm source bits mode s
  | .unfence p pass => Sys2Proof.Machine.execUnfence p pass s
  | .bankUnfence c mask pass => Sys2Proof.Machine.execBankUnfence c mask pass s
  | .powerOn board dimms tests => Sys2Proof.Machine.execPowerOn board dimms tests s
  | .deviceReset tests => Sys2Proof.Machine.execDeviceReset tests s
  | .linkReset => Sys2Proof.Machine.execLinkReset s
  | .functionLevelReset => Sys2Proof.Machine.execFunctionLevelReset s
  | .shelfDarkAssert => Sys2Proof.Machine.execShelfDarkAssert s
  | .parkOkAssert tests => Sys2Proof.Machine.execParkOkAssert tests s
  | .shelfDarkDeassert tests => Sys2Proof.Machine.execShelfDarkDeassert tests s
  | .casementGateTimeout c => Sys2Proof.Machine.execCasementGateTimeout c s
  | .casementUngate c => Sys2Proof.Machine.execCasementUngate c s
  | .idleTimeout => Sys2Proof.Machine.execIdleTimeout s
  | .idleExit => Sys2Proof.Machine.execIdleExit s
  | .thermtrip => Sys2Proof.Machine.execThermtrip s
  | .refclkLoss => Sys2Proof.Machine.execRefclkLoss s
  | .avsStep vout iout drifted temps => Sys2Proof.Machine.execAvsStep vout iout drifted temps s
  | .crateWindowClose windows => Sys2Proof.Machine.execCrateWindowClose windows s
  | .flashWrite slot micro flashError => Sys2Proof.Machine.execFlashWrite slot micro flashError s
  | .activateLintel slot starts => Sys2Proof.Machine.execActivateLintel slot starts s
  | .handoffTimeout => Sys2Proof.Machine.execHandoffTimeout s
  | .activateCasement c slot pass => Sys2Proof.Machine.execActivateCasement c slot pass s
  | .firmwareCommit flashError => Sys2Proof.Machine.execFirmwareCommit flashError s
  | .recover tests => Sys2Proof.Machine.execRecover tests s
  | .fuseRead word => Sys2Proof.Machine.execFuseRead word s
  | .fuseProgram word => Sys2Proof.Machine.execFuseProgram word s
  | .bar4Access off access => Sys2Proof.Machine.execBar4Access off access s
  | .registerWrite polled off width value => Sys2Proof.Machine.execRegisterWrite polled off width value s
  | .powerLoss always => Sys2Proof.Machine.execPowerLoss always s
  | .refclkReturn tests => Sys2Proof.Machine.execRefclkReturn tests s
  | .perstNDeassert => Sys2Proof.Machine.execPerstNDeassert s
  | .pfcPauseRx port named paused => Sys2Proof.Machine.execPfcPauseRx port named paused s
  | .driveReadyAgain slot => Sys2Proof.Machine.execDriveReadyAgain slot s
  | .digestBlockCompressed work => Sys2Proof.Machine.execDigestBlockCompressed work s

end Sys2Proof.Machine
end

