-- ==== Sys2Proof/Machine/Step.lean ====
section
/-!
DEFINITION. One step: the command that waits longest, or, where none waits, the passing of time.
-/

namespace Sys2Proof.Machine

/-- The state with the queue's rest. -/
def State.rest (s : State) (q : List Instr) : State := { s with pending := q }

/-- One step. -/
def step (s : State) : Host.Outcome State Fault Refusal :=
  match s.pending with
  | [] => .next { s with dev := s.dev.tick }
  | i :: q => exec i (s.rest q)

/-- The state with the command that a word of the table spells put at the front of its queue; no row of the table has bits, so no
word spells one. -/
def State.withFetchWord (s : State) (nbits w : Nat) : State :=
  match decodeTableWord nbits w with
  | some i => { s with pending := i :: s.pending }
  | none => s

end Sys2Proof.Machine
end

