-- ==== Sys2Proof/Safety.lean ====
section
/-!
DEFINITION. What a safe run is, in the terms claims use.
-/

namespace Sys2Proof.Machine

/-- Nothing follows a command: no reaction is owed, and no pipeline runs, is being parked or is being cancelled. -/
def Dev.calm (d : Dev) : Bool := d.reacts.isEmpty && d.activeCtxs.isEmpty

/-- A command is completed from a state: it is answered with a next state. -/
def Completes (i : Instr) (s : State) : Prop := ∃ t, exec i s = .next t

/-- A command is answered with a next state that differs in the device alone, of which `P` holds. -/
def Gives (i : Instr) (s : State) (P : Dev → Prop) : Prop := ∃ d, exec i s = .next { s with dev := d } ∧ P d

/-- The same for a command that something may follow at once (fences, pipelines): `P` holds of the device as the command itself
leaves it, and what follows comes after. -/
def Brings (i : Instr) (s : State) (P : Dev → Prop) : Prop := ∃ d, exec i s = .next { s with dev := d.settle } ∧ P d

/-- As `Brings`, and on a calm device nothing follows: what the command itself leaves is then the next state. -/
def Lands (i : Instr) (s : State) (P : Dev → Prop) : Prop :=
  ∃ d, exec i s = .next { s with dev := d.settle } ∧ P d ∧ (s.dev.calm = true → exec i s = .next { s with dev := d })

/-- A command in flight has come to its end, with a status and a result; COMPLETION_POST posts it. -/
def Dev.ended (d : Dev) (id status : Nat) (result : Bytes) : Prop :=
  ∃ k, d.cmd id = some k ∧ k.phase = .finished ∧ k.status = status ∧ k.result = result

/-- Nothing stands between the engines and `n` bytes of engine memory at `a`: no channel is being moved off or is retired, and
no Sill holds a line of them. -/
def Dev.plainMem (d : Dev) (a n : Nat) : Prop :=
  (∀ ch, (d.chan ch).state ≠ 3 ∧ (d.chan ch).state ≠ 4) ∧
    ∀ c, c < 4 → ∀ l ∈ linesOf a n, d.sillHolds c l = false

/-- Engine memory is that of `e` with `bs` written at `a`; an address without memory behind it holds nothing. -/
def Dev.memWith (d e : Dev) (a : Nat) (bs : Bytes) : Prop :=
  ∀ i, d.engByte i = if a ≤ i ∧ i < a + bs.length ∧ e.implemented i = true then bs.getD (i - a) 0 else e.engByte i

/-- Engine memory in its canonical form: addresses rising, nothing listed that reads as an unlisted address does. -/
def Mem.wf (m : Mem) : Bool := Sparse.wf 0 m.cells && Sparse.wf false m.poison

/-- Host and engine memory in their canonical form. -/
def Memory.wf (d : Dev) : Bool := Sparse.wf 0 d.host && d.mem.wf

/-- A run of n steps that no refusal ends. -/
def SafeRun (n : Nat) (s : State) : Prop := ∃ t, Sys2Proof.core.run n s = .next t

end Sys2Proof.Machine
end

