-- ==== Sys2Proof/Certificates/Slice0/Obligations.lean ====
section
/-!
DEFINITION. The statements for the provers. Each says of the model what the rules it cites say of the engine.
-/

open Sys2Proof Sys2Proof.Machine

/-! ### The machine as a whole -/

/-- A step takes the command at the front of the queue and executes it with the rest of the queue; with nothing waiting it lets
time pass (assumption log 2, the model's choice). -/
def Obligations.StepRunsTheFrontCommand : Prop :=
  (∀ (c : Instr) (q : List Instr) (s : State),
      step { s with pending := c :: q } = Sys2Proof.Machine.exec c { s with pending := q })
  ∧ ∀ s : State, s.pending = [] → step s = .next { s with dev := s.dev.tick }

/-- With its clock and its always-on supply the idle engine's time base counts 10 ns a tick and wraps at 2^64 (R13); without
either the idle engine stands still (R468). That a tick is what a step does on an empty queue is the model's choice (assumption log 2).
-/
def Obligations.IdleTickCountsTime : Prop :=
  ∀ s : State, s.pending = [] →
    ∃ t, step s = .next t ∧ t.pending = []
      ∧ (s.dev.life.always = true → s.dev.life.refclk = true → t.dev.timeBase = (s.dev.timeBase + 10) % 2 ^ 64)
      ∧ ((s.dev.life.always = false ∨ s.dev.life.refclk = false) → t = s)

/-- What a step does to the queue and how it may end: a step never faults; where it answers a next state the queue has lost its
front command and nothing else; and the one refusal is that of a write that sets TEST_CTL.MODE (R412), by REGISTER_WRITE or
PUT_FRAME_RX. -/
def Obligations.StepNeverFaults : Prop :=
  ∀ s : State,
    (∃ t, step s = .next t ∧ t.pending = s.pending.tail)
    ∨ (step s = .refused .testMode
        ∧ ((∃ polled off width value, s.pending.head? = some (.registerWrite polled off width value))
          ∨ ∃ port good bytes reg, s.pending.head? = some (.putFrameRx port good bytes reg)))

/-- What reset leaves: every queue ABSENT, every context FREE, no command in flight, no engine memory written, the time base at
zero, no drive, no key in the key store, no reaction owed, nothing pending. Memory has its canonical form after reset.
Assumption logs 4 and 5 say what of this is the model's choice or reading. -/
def Obligations.ResetLeavesNothingRunning : Prop :=
  ((∀ q, (State.reset.dev.queue q).st = .absent) ∧ (∀ c, (State.reset.dev.ctx c).state = 0)
    ∧ (∀ id, State.reset.dev.cmd id = none) ∧ (∀ a, State.reset.dev.engByte a = 0)
    ∧ (∀ k, (State.reset.dev.slot k).type = 0) ∧ (∀ n, (State.reset.dev.drive n).present = false)
    ∧ State.reset.dev.timeBase = 0 ∧ State.reset.dev.calm = true ∧ State.reset.pending = [])
  ∧ (Memory.wf State.reset.dev = true)

/-- Host and engine memory, and the poison marks of engine memory, keep their canonical form in every step, whatever the command.
-/
def Obligations.MemoryStaysCanonical : Prop :=
  ∀ s t : State, Memory.wf s.dev = true → step s = .next t → Memory.wf t.dev = true

/-! ### Jamb: queues and commands -/

/-- R242: a 32-bit write of either doorbell that advances the index by no more than the rule allows is applied: the SQ producer
index of an existing queue, or the CQ consumer index, becomes the value written, which a read of the doorbell then returns; where
no completion of the queue waits in the backlog nothing else of the device changes but its leaving of IDLE. A 64-bit write applies
to both doorbells, the SQ producer doorbell first. Doorbell writes of a width other than 32 and 64
bits, writes that break the rule of their index, and writes to an absent queue or one being deleted are ignored: each adds one to
JB_BADDB.COUNT, which saturates, and no queue changes, so that reads of the doorbells return what they did. States that these
complete: SQ_PRODUCER_DOORBELL, CQ_CONSUMER_DOORBELL. -/
def Obligations.DoorbellsMoveTheirIndexOrAreCounted : Prop :=
  (∀ (s : State) (q : BitVec 16) (v : BitVec 64),
      let x := s.dev.wake.queue q.toNat
      let n := BitVec.ofNat 32 v.toNat
      s.dev.serves = true → x.st ≠ .absent → x.st ≠ .deleting →
      ((n - x.sqP).toNat ≤ x.sqSize - (x.sqP - x.sqC).toNat →
        Sys2Proof.Machine.exec (.sqProducerDoorbell q 32 v) s
          = .next { s with dev := s.dev.wake.setQueue q.toNat { x with sqP := n } }
        ∧ (s.dev.wake.setQueue q.toNat { x with sqP := n }).doorbellRead q.toNat false = n)
      ∧ ((n - x.cqC).toNat ≤ (x.cqP - x.cqC).toNat →
        Gives (.cqConsumerDoorbell q 32 v) s (fun d =>
          d.doorbellRead q.toNat true = n
          ∧ (s.dev.wake.backlogOf q.toNat = 0 → d = s.dev.wake.setQueue q.toNat { x with cqC := n }))))
  ∧ (∀ (s t : State) (q : BitVec 16) (v : BitVec 64), s.dev.serves = true →
      Sys2Proof.Machine.exec (.sqProducerDoorbell q 32 v) s = .next t →
      Sys2Proof.Machine.exec (.sqProducerDoorbell q 64 v) s = Sys2Proof.Machine.exec (.cqConsumerDoorbell q 32 (v >>> 32)) t)
  ∧ (∀ (s : State) (q : BitVec 16) (w : BitVec 7) (v : BitVec 64),
      let x := s.dev.wake.queue q.toNat
      let n := BitVec.ofNat 32 v.toNat
      let counted := fun d : Dev =>
        d.fget F.JB_BADDB_COUNT = min (s.dev.wake.fget F.JB_BADDB_COUNT + 1) (2 ^ F.JB_BADDB_COUNT.width - 1)
        ∧ d.jamb = s.dev.wake.jamb ∧ d.mem = s.dev.wake.mem ∧ d.host = s.dev.wake.host
      s.dev.serves = true →
      (w.toNat ≠ 32 → w.toNat ≠ 64 →
        Gives (.sqProducerDoorbell q w v) s counted ∧ Gives (.cqConsumerDoorbell q w v) s counted)
      ∧ ((x.st = .absent ∨ x.st = .deleting ∨ x.sqSize - (x.sqP - x.sqC).toNat < (n - x.sqP).toNat) →
        Gives (.sqProducerDoorbell q 32 v) s counted)
      ∧ ((x.st = .absent ∨ x.st = .deleting ∨ (x.cqP - x.cqC).toNat < (n - x.cqC).toNat) →
        Gives (.cqConsumerDoorbell q 32 v) s counted))

/-- R245: CREATE on an absent queue whose staged ring sizes lie in 6 to 20 copies the staged configuration into the queue, sets
its indices to zero and makes it ACTIVE; on any other queue, or with other sizes, it sets JB_STAT.CMD_REJECT and leaves every
queue as it was. No other queue changes in either case. R263, R245: RESUME on a queue in ERROR makes it ACTIVE with its SQ
consumer index at SQ_ERR_IDX; in any other state it sets JB_STAT.CMD_REJECT and changes no queue. States that these complete:
QCTL_CREATE, QCTL_RESUME. -/
def Obligations.CreateAndResumeMakeAQueueActive : Prop :=
  (∀ (s : State) (q : BitVec 16), s.dev.serves = true →
      let c := s.dev.stagedCfg
      let ok := (s.dev.queue q.toNat).st = .absent ∧ 6 ≤ c.sqLog ∧ c.sqLog ≤ 20 ∧ 6 ≤ c.cqLog ∧ c.cqLog ≤ 20
      (ok → Gives (.qctlCreate q) s (fun d =>
        d.queue q.toNat = { st := .active, cfg := c } ∧ (∀ p, p ≠ q.toNat → d.queue p = s.dev.queue p)
        ∧ d.jamb.cmds = s.dev.jamb.cmds))
      ∧ (¬ ok → Gives (.qctlCreate q) s (fun d =>
        d.fget F.JB_STAT_CMD_REJECT = 1 ∧ d.jamb = s.dev.jamb ∧ d.mem = s.dev.mem ∧ d.host = s.dev.host)))
  ∧ (∀ (s : State) (q : BitVec 16), s.dev.serves = true →
      let x := s.dev.queue q.toNat
      (x.st = .error → Gives (.qctlResume q) s (fun d =>
        d.queue q.toNat = { x with st := .active, sqC := x.errIdx } ∧ (∀ p, p ≠ q.toNat → d.queue p = s.dev.queue p)
        ∧ d.jamb.cmds = s.dev.jamb.cmds))
      ∧ (x.st ≠ .error → Gives (.qctlResume q) s (fun d =>
        d.fget F.JB_STAT_CMD_REJECT = 1 ∧ d.jamb = s.dev.jamb ∧ d.mem = s.dev.mem ∧ d.host = s.dev.host)))

/-- R265, R266: a FLUSH of a queue in ACTIVE or ERROR that has no command in flight discards the entries not fetched, its SQ
consumer index jumping to the producer index, and the queue is ACTIVE again at once; a DELETE of such a queue leaves it ABSENT. A
FLUSH or DELETE of an absent queue sets JB_STAT.CMD_REJECT and changes no queue. States that these complete: QCTL_FLUSH,
QCTL_DELETE. -/
def Obligations.FlushAndDeleteEndAnIdleQueue : Prop :=
  ∀ (s : State) (q : BitVec 16), s.dev.serves = true →
    let x := s.dev.queue q.toNat
    (x.st = .active ∨ x.st = .error → (∀ c ∈ s.dev.jamb.cmds, c.queue ≠ q.toNat) →
      Lands (.qctlFlush q) s (fun d =>
        (d.queue q.toNat).st = .active ∧ (d.queue q.toNat).sqC = x.sqP ∧ (d.queue q.toNat).sqP = x.sqP
        ∧ ∀ p, p ≠ q.toNat → d.queue p = s.dev.queue p)
      ∧ Lands (.qctlDelete q) s (fun d =>
        d.queue q.toNat = {} ∧ ∀ p, p ≠ q.toNat → d.queue p = s.dev.queue p))
    ∧ (x.st = .absent →
      Lands (.qctlFlush q) s (fun d => d.fget F.JB_STAT_CMD_REJECT = 1 ∧ d.jamb = s.dev.jamb)
      ∧ Lands (.qctlDelete q) s (fun d => d.fget F.JB_STAT_CMD_REJECT = 1 ∧ d.jamb = s.dev.jamb))

/-- R257: at its turn a queue with WEIGHT 1 whose next entry passes every check has that entry fetched: one more command in
flight, with the entry, its opcode, flags and tag, and the SQ consumer index past the entry's slots. R263: at its turn a queue
whose next entry fails a check posts one completion with the status and the entry's tag, latches SQ_ERR_IDX at the entry's first
slot, holds its consumer index there and enters ERROR. The completion goes into the completion ring, or into the backlog while
that is full. States that this completes: ENTRY_FETCH. -/
def Obligations.FetchTakesOrRefusesTheNextEntry : Prop :=
  (∀ (s : State) (q : Nat) (head b : Bytes),
      let x := s.dev.queue q
      let n := fieldAt head 1 1
      s.dev.serves = true → s.dev.halted = false → s.dev.life.parking = false →
      s.dev.nextTurn = some q → s.dev.fetchable q = true → x.cfg.weight ≤ 1 →
      s.dev.sqSlot x x.sqC = .ok head → 1 ≤ n → n ≤ 64 → n ≤ (x.sqP - x.sqC).toNat →
      s.dev.sqSlots x n x.sqC = .ok b → entryStatus b = 0 →
      Lands (.entryFetch none) s (fun d =>
        d.jamb.cmds = s.dev.jamb.cmds ++
          [{ id := s.dev.jamb.nextCmd, queue := q, slot := x.sqC, opcode := fieldAt b 0 1, flags := fieldAt b 2 2
             tag := fieldAt head 4 4, entry := b }]
        ∧ d.queue q = { x with sqC := x.sqC + BitVec.ofNat 32 n } ∧ d.jamb.rot = q))
  ∧ (∀ (s : State) (q : Nat) (head b : Bytes),
      let x := s.dev.queue q
      let n := fieldAt head 1 1
      s.dev.serves = true → s.dev.halted = false → s.dev.life.parking = false →
      s.dev.nextTurn = some q → s.dev.fetchable q = true → x.cfg.weight ≤ 1 →
      s.dev.sqSlot x x.sqC = .ok head → 1 ≤ n → n ≤ 64 → n ≤ (x.sqP - x.sqC).toNat →
      s.dev.sqSlots x n x.sqC = .ok b → entryStatus b ≠ 0 →
      Lands (.entryFetch none) s (fun d =>
        (d.queue q).st = .error ∧ (d.queue q).errIdx = x.sqC ∧ (d.queue q).sqC = x.sqC
        ∧ (x.cqRoom = true → s.dev.backlogOf q = 0 →
          (d.queue q).cqP = x.cqP + 1 ∧ d.jamb.backlog = s.dev.jamb.backlog.filter (fun i => i ≠ s.dev.jamb.nextCmd)
          ∧ (x.cfg.cqEng = false → x.cfg.mirEn = false →
            d.host = (s.dev.hostWrite (x.cfg.cqBase + x.cqP.toNat % x.cqSize * 32)
              (leBytes 4 (fieldAt head 4 4) ++ leBytes 2 q ++ leBytes 2 (entryStatus b) ++ zeros 24)).host))
        ∧ (x.cqRoom = false → (d.queue q).cqP = x.cqP ∧ (d.queue q).stall = true
          ∧ d.jamb.backlog = s.dev.jamb.backlog ++ [s.dev.jamb.nextCmd])))

/-- R257: the oldest fetched command of a queue, its FENCE met, is dispatched, next in dispatch order, and nothing else of the
device changes (a STORE_SYNC, a DIGEST and an ATTEST also fix what they cover then, and are left out here). States that this
completes: COMMAND_DISPATCH. -/
def Obligations.DispatchTakesTheOldestFetchedCommand : Prop :=
  ∀ (s : State) (q : BitVec 16) (c : Cmd),
    s.dev.serves = true → s.dev.dispatches q.toNat = true → s.dev.nextDispatch q.toNat = some c →
    c.opcode ≠ opStoreSync → c.opcode ≠ opDigest → c.opcode ≠ opAttest →
    Lands (.commandDispatch q) s (fun d => d = s.dev.markDispatched c.id
      ∧ d.jamb.cmds = s.dev.jamb.cmds.map (fun k =>
          if k.id = c.id then { k with phase := .dispatched, disp := s.dev.jamb.nextDisp } else k))

/-- R243, R255: a finished command of an ACTIVE queue with room in its completion ring and no backlog has its 32-byte completion
entry written at CQ_PIDX, in the queue's completion ring, before CQ_PIDX advances past it, and leaves the engine; where the ring
is in host memory the entry's bytes stand there. R259: a finished command of an ACTIVE queue whose completion ring is full goes
into the backlog, behind the others, and CQSTAT.STALL is set; CQ_PIDX does not move. States that this completes:
COMPLETION_POST. -/
def Obligations.CompletionsGoToTheRingOrTheBacklog : Prop :=
  (∀ (s : State) (id : Nat) (c : Cmd),
      let x := s.dev.queue c.queue
      let a := x.cfg.cqBase + x.cqP.toNat % x.cqSize * 32
      s.dev.serves = true → s.dev.halted = false → s.dev.cmd id = some c → c.phase = .finished →
      x.st = .active → x.cqRoom = true → s.dev.backlogOf c.queue = 0 →
      Gives (.completionPost id) s (fun d =>
        (d.queue c.queue).cqP = x.cqP + 1 ∧ d.cmd id = none
        ∧ (x.cfg.cqEng = false → x.cfg.mirEn = false →
            d.host = (s.dev.hostWrite a (cqEntry c)).host)))
  ∧ (∀ (s : State) (id : Nat) (c : Cmd),
      let x := s.dev.queue c.queue
      s.dev.serves = true → s.dev.halted = false → s.dev.cmd id = some c → c.phase = .finished →
      x.st = .active → x.cqRoom = false →
      Gives (.completionPost id) s (fun d =>
        (d.queue c.queue).stall = true ∧ (d.queue c.queue).cqP = x.cqP
        ∧ d.jamb.backlog = s.dev.jamb.backlog ++ [id] ∧ d.cmd id = some { c with phase := .backlogged }))

/-- R261: when the oldest pending completion of a queue that interrupts has waited COAL_TIME, its interrupt message goes out, or
sets the pending bit of a masked vector, and no completion is pending afterwards. Assumption log 7 says what of this is the
model's choice or reading. States that this completes: COALESCE_TIMEOUT. -/
def Obligations.CoalesceTimeoutSendsTheInterrupt : Prop :=
  ∀ (s : State) (q : BitVec 16),
    let x := s.dev.queue q.toNat
    let m := Sparse.get {} s.dev.jamb.msix x.cfg.vector
    s.dev.serves = true → x.pend ≠ 0 → x.cfg.irqEn = true → x.cfg.vector < 2048 →
    Gives (.coalesceTimeout q) s (fun d =>
      (d.queue q.toNat).pend = 0
      ∧ (m.masked = false → d.out = s.dev.out ++ [.msix x.cfg.vector m.addr m.data])
      ∧ (m.masked = true → d.out = s.dev.out
          ∧ Sparse.get {} d.jamb.msix x.cfg.vector = { m with pending := true }))

/-- R254: a NOP completes with status 0x0000 and a zero result, and changes nothing else of the device. Jamb checks the header of
a NOP entry (a LENGTH of 1 to 64 slots, the reserved FLAGS bits and bytes 8 to 15 zero) and nothing else of it. States that
this completes: NOP. -/
def Obligations.NopCompletesWithZero : Prop :=
  (∀ (s : State) (id : Nat) (k : Cmd),
    s.dev.serves = true → s.dev.running id opNop = some k →
    Gives (.nop id) s (fun d => d.ended id 0 (zeros 16)
      ∧ d = s.dev.mapCmd id (fun c => { c with phase := .finished, status := 0, result := zeros 16, resultLen := 0 })))
  ∧ ∀ b : Bytes, fieldAt b 0 1 = opNop → 16 ≤ b.length →
      entryStatus b = if fieldAt b 1 1 < 1 ∨ 64 < fieldAt b 1 1 then 0x0101
        else if fieldAt b 2 2 < 4 ∧ fieldAt b 8 8 = 0 then 0 else 0x0103

/-- R430: while the device is halted no entry is fetched, no command is dispatched, no completion is written and no ring command
goes on: each of these commands leaves the state as it was. -/
def Obligations.HaltedJambDoesNothing : Prop :=
  ∀ (s : State) (u : Option (BitVec 16)) (q : BitVec 16) (id : Nat),
    s.dev.halted = true → s.dev.reacts = [] →
    Sys2Proof.Machine.exec (.entryFetch u) s = .next s
    ∧ Sys2Proof.Machine.exec (.commandDispatch q) s = .next s
    ∧ Sys2Proof.Machine.exec (.completionPost id) s = .next s
    ∧ ∀ c ∈ [Instr.nop id, .pipeLoad id, .pipeRun id, .pipeCancel id, .pipePark id, .pipeResume id, .pipeUnload id,
        .store id, .storeSync id, .dma id, .compress id, .decompress id, .louvreCreate id, .louvreWrite id,
        .louvreSwap id, .louvreUnload id, .cacheFlush id, .cacheInvalidate id, .cacheFlushInvalidate id,
        .cachePreload id, .attestIdentity id, .attestSeal id],
      Sys2Proof.Machine.exec c s = .next s

/-! ### Pipelines and Latch -/

/-- R48: a dispatched PIPE_LOAD whose image is readable and passes its checks, with a context FREE and room in the pipeline
region, fills the lowest-numbered FREE context, which is LOADED then, and completes with 0x0000 and the context's number; an image
that fails a check makes the command complete with 0x0104 and the check's number and byte offset, and no context changes. The
image is copied into a free place of the pipeline region, and no other byte of engine memory changes; one that cannot be read
ends the command with the reason and changes no context. With no context FREE or without room the command completes with 0x0301
before the image is read. States that this completes: PIPE_LOAD. -/
def Obligations.LoadFillsTheLowestFreeContext : Prop :=
  ∀ (s : State) (id : Nat) (k : Cmd),
    let n := fieldAt k.entry 32 4
    let src := s.dev.readSpace (bitAt (fieldAt k.entry 18 1) 0) (fieldAt k.entry 24 8) n
    s.dev.serves = true → s.dev.running id opPipeLoad = some k →
    (∀ (c at_ : Nat), s.dev.lowestFree = some c → s.dev.imagePlace n = some at_ →
      let kept := fun (d : Dev) (b : Nat) =>
        { d.ctx b with parkBad := (s.dev.ctx b).parkBad } = s.dev.ctx b ∧ d.pipes.works = s.dev.pipes.works
      let wrote := fun (d : Dev) (image : Bytes) =>
        d.host = s.dev.host
        ∧ (s.dev.plainMem (s.dev.regionBase + at_) image.length → d.memWith s.dev (s.dev.regionBase + at_) image)
      (∀ image p, src = .ok image → imageCheck image n s.dev.edgeDepth = .ok p →
        Lands (.pipeLoad id) s (fun d =>
          d.ctx c = { state := 1, prog := p, image := image, imageAt := at_ } ∧ (∀ b, b ≠ c → kept d b)
          ∧ d.ended id 0 (loadResult c 0 0) ∧ wrote d image))
      ∧ (∀ image e, src = .ok image → imageCheck image n s.dev.edgeDepth = .error e →
        Lands (.pipeLoad id) s (fun d =>
          (∀ b, kept d b) ∧ d.ended id 0x0104 (loadResult 0xFFFF e.1 e.2) ∧ wrote d image))
      ∧ (∀ st, src = .error st →
        Lands (.pipeLoad id) s (fun d =>
          d.pipes = s.dev.pipes ∧ d.ended id st (loadResult 0xFFFF 0 0) ∧ d.mem = s.dev.mem ∧ d.host = s.dev.host)))
    ∧ (s.dev.lowestFree = none ∨ s.dev.imagePlace n = none →
      Lands (.pipeLoad id) s (fun d =>
        d.pipes = s.dev.pipes ∧ d.ended id 0x0301 (loadResult 0xFFFF 0 0) ∧ d.mem = s.dev.mem ∧ d.host = s.dev.host))

/-- R47, R54: a dispatched PIPE_RUN of a context in LOADED, DONE or FAILED that passes the checks of R54, R125 and R356 puts the
context into RUNNING, with the set of Panes in service and the fabric membership epoch of that moment as its snapshot; no other
context changes, and the command stays in flight. R47, R448: a dispatched PIPE_RESUME of a PARKED context that passes its checks
puts it into RUNNING with the Panes in service now, every node in matching mode, and the command stays in flight. States that
these complete: PIPE_RUN, PIPE_RESUME. -/
def Obligations.RunAndResumeStartTheNodes : Prop :=
  (∀ (s : State) (id : Nat) (k : Cmd),
      let c := cmdCtx k
      let x := s.dev.ctx c
      s.dev.serves = true → s.dev.running id opPipeRun = some k →
      x.runCmd ≠ some id → x.state = 1 ∨ x.state = 6 ∨ x.state = 7 → s.dev.runCheck c = 0 →
      Brings (.pipeRun id) s (fun d =>
        (d.ctx c).state = 2 ∧ (d.ctx c).runCmd = some id ∧ (d.ctx c).prog = x.prog ∧ (d.ctx c).panes = s.dev.panesUp
        ∧ (d.ctx c).epoch = s.dev.net.epoch ∧ (d.ctx c).members = s.dev.net.members ∧ (d.ctx c).ending = none
        ∧ (∀ b, b ≠ c → d.ctx b = s.dev.ctx b) ∧ d.jamb = s.dev.jamb ∧ d.mem = s.dev.mem ∧ d.host = s.dev.host))
  ∧ (∀ (s : State) (id : Nat) (k : Cmd),
      let c := cmdCtx k
      let x := s.dev.ctx c
      s.dev.serves = true → s.dev.running id opPipeResume = some k →
      x.runCmd ≠ some id → x.state = 5 → x.parkBad = false →
      x.extentsLeft.all (fun e => s.dev.sameDrive x e.slot) = true → s.dev.declared x.prog = true →
      (s.dev.resumeRun k c).isSome = true →
      Brings (.pipeResume id) s (fun d =>
        (d.ctx c).state = 2 ∧ (d.ctx c).runCmd = some id ∧ (d.ctx c).panes = s.dev.panesUp
        ∧ (∀ y ∈ (d.ctx c).nodes, y.matching = true)))

/-- R47: PIPE_CANCEL, PIPE_PARK and PIPE_UNLOAD of a context in a state that their rows list: a PARKED context is FAILED at once
by a cancel; one in RUNNING or PARKING goes to CANCELLING, with ABORTED_CANCEL as its end where nothing else has fixed one, and
the command waits; a park of a RUNNING context without FABRIC takes it to PARKING; an unload of one that does not run leaves it
FREE. R47: a pipeline command on a context in a state that the table does not list for it, or a park of one whose image sets
FABRIC, completes with 0x0000 and NOEFFECT and changes no context. R270: where a flush has fixed the end of a context, a cancel
or an unload adds nothing to it but the command that waits. States that these complete: PIPE_CANCEL, PIPE_PARK, PIPE_UNLOAD. -/
def Obligations.PipelineCommandsMoveContexts : Prop :=
  (∀ (s : State) (id : Nat) (k : Cmd),
      let c := cmdCtx k
      let x := s.dev.ctx c
      let cancelled := fun d : Dev =>
        id ∈ (d.ctx c).waiters ∧ (x.ending = none → (d.ctx c).ending = some 0x0402)
        ∧ (x.ending ≠ some 0x0401 → (d.ctx c).state = 3)
        ∧ (x.ending = some 0x0401 → d.ctx c = { x with waiters := x.waiters ++ [id] })
        ∧ (∀ b, b ≠ c → d.ctx b = s.dev.ctx b) ∧ d.jamb = s.dev.jamb ∧ d.mem = s.dev.mem ∧ d.host = s.dev.host
      s.dev.serves = true → x.waiters.contains id = false →
      (s.dev.running id opPipeCancel = some k →
        (x.state = 5 → Lands (.pipeCancel id) s (fun d =>
          (d.ctx c).state = 7 ∧ d.ended id 0 ((d.ctx c).result c false false) ∧ ∀ b, b ≠ c → d.ctx b = s.dev.ctx b))
        ∧ (x.state = 2 ∨ x.state = 4 → Brings (.pipeCancel id) s cancelled))
      ∧ (s.dev.running id opPipePark = some k → x.state = 2 → x.prog.fabric = false →
        Brings (.pipePark id) s (fun d =>
          d.ctx c = { x with state := 4, waiters := x.waiters ++ [id] } ∧ (∀ b, b ≠ c → d.ctx b = s.dev.ctx b)
          ∧ d.jamb = s.dev.jamb))
      ∧ (s.dev.running id opPipeUnload = some k →
        (x.state = 1 ∨ x.state = 5 ∨ x.state = 6 ∨ x.state = 7 → Lands (.pipeUnload id) s (fun d =>
          d.ctx c = {} ∧ d.ended id 0 ({ x with state := 0 }.result c false false) ∧ ∀ b, b ≠ c → d.ctx b = s.dev.ctx b))
        ∧ (x.state = 2 ∨ x.state = 4 → Brings (.pipeUnload id) s cancelled)))
  ∧ (∀ (s : State) (id : Nat) (k : Cmd),
      let c := cmdCtx k
      let x := s.dev.ctx c
      let none_ := fun d : Dev => d.pipes = s.dev.pipes ∧ d.ended id 0 (x.result c true false)
        ∧ d.mem = s.dev.mem ∧ d.host = s.dev.host
      s.dev.serves = true → x.waiters.contains id = false → x.runCmd ≠ some id →
      (s.dev.running id opPipeRun = some k → x.state ∉ [1, 6, 7] → Lands (.pipeRun id) s none_)
      ∧ (s.dev.running id opPipeCancel = some k → x.state ∉ [2, 4, 5] → Lands (.pipeCancel id) s none_)
      ∧ (s.dev.running id opPipePark = some k → x.state ≠ 2 ∨ x.prog.fabric = true → Lands (.pipePark id) s none_)
      ∧ (s.dev.running id opPipeResume = some k → x.state ≠ 5 → Lands (.pipeResume id) s none_)
      ∧ (s.dev.running id opPipeUnload = some k → x.state ∉ [1, 2, 4, 5, 6, 7] → Lands (.pipeUnload id) s none_))

/-- R269: a write to CANCEL_DOORBELL with ALL set takes every context in RUNNING or PARKING to CANCELLING and every PARKED one to
FAILED; with ALL clear it does so to the one context it names. Contexts in other states, and those whose end a flush has fixed
(R270), keep all they hold, and each write adds one to 0xA080:06. States that this completes: CANCEL_DOORBELL. -/
def Obligations.CancelDoorbellEndsContexts : Prop :=
  ∀ (s : State) (c : BitVec 8) (all : Bool), s.dev.serves = true →
    Brings (.cancelDoorbell c all) s (fun d =>
      (∀ b, (all = true ∨ b = c.toNat) →
        ((s.dev.ctx b).state = 2 ∨ (s.dev.ctx b).state = 4 → (s.dev.ctx b).ending ≠ some 0x0401 → (d.ctx b).state = 3)
        ∧ ((s.dev.ctx b).state = 5 → (d.ctx b).state = 7))
      ∧ (∀ b, ((all = false ∧ b ≠ c.toNat) ∨ (s.dev.ctx b).state ∉ [2, 4, 5]
          ∨ ((s.dev.ctx b).state ≠ 5 ∧ (s.dev.ctx b).ending = some 0x0401)) → d.ctx b = s.dev.ctx b)
      ∧ d.oget O.CANCEL_DOORBELLS = (s.dev.oget O.CANCEL_DOORBELLS + 1) % 2 ^ (8 * O.CANCEL_DOORBELLS.size)
      ∧ d.jamb = s.dev.jamb ∧ d.mem = s.dev.mem ∧ d.host = s.dev.host)

/-- R177, R176: one dispatch decision of a Casement's Latch, where a ready node has a Pane that takes its strip, puts one strip
more on the Panes; the node is no longer aged, and the next decision of equal priority begins after its context. R176, R177: a
node that is ready and has waited AGING_TIME rises one list, to at most list 7, unless AGING_TIME is 0; the ends of
AFFINITY_WAIT and CROSS_WAIT open the steps Local and Cross to it, and Panes whose wait has lapsed leave its affinity. No other
node changes, but that a Pane that takes up a strip joins the affinity of its node. Assumption logs 7, 102 and 104 say what of
this is the model's choice or reading. States that these complete: STRIP_DISPATCH, AGING_TIMEOUT, AFFINITY_WAIT_EXPIRY,
CROSS_WAIT_EXPIRY. -/
def Obligations.DispatchesAndTheWaitsForThem : Prop :=
  (∀ (s : State) (c : BitVec 2) (r : Ready) (p step : Nat),
      s.dev.serves = true → s.dev.halted = false → s.dev.fgetB (F.LT_CTL_HOLD c.toNat) = false →
      (s.dev.latch c.toNat).draining = false →
      (s.dev.readyList c.toNat).findSome? (fun r =>
        (s.dev.choosePane r.ctx r.node (s.dev.ctx r.ctx) (s.dev.nextAgain r.ctx r.node (s.dev.ctx r.ctx))).map
          (fun p => (r, p))) = some (r, (p, step)) →
      (s.dev.fire (paneCas p) r.ctx r.node (s.dev.ctx r.ctx)).2.2.1 = none →
      Brings (.stripDispatch c) s (fun d =>
        (∃ w ∈ d.pipes.works, w.ctx = r.ctx ∧ w.node = r.node ∧ w.pane = p) ∧ (d.latch c.toNat).last = r.ctx
        ∧ ((d.ctx r.ctx).node r.node).aged = 0
        ∧ ((∀ t, ((s.dev.ctx r.ctx).node r.node).st ≠ .scan t) →
          d.pipes.works.length = s.dev.pipes.works.length + 1
          ∧ (∀ b, b ≠ r.ctx → (∀ w ∈ s.dev.pipes.works, w.ctx = b → w.pane ≠ p) → d.ctx b = s.dev.ctx b)
          ∧ d.jamb = s.dev.jamb ∧ d.mem = s.dev.mem ∧ d.host = s.dev.host)))
  ∧ (∀ (s : State) (c : BitVec 8) (n : BitVec 10) (lapsed : BitVec 96),
      let x := s.dev.ctx c.toNat
      let y := x.node n.toNat
      let with_ := fun z => s.dev.setCtx c.toNat { x with nodes := x.nodes.set n.toNat z }
      s.dev.serves = true → x.live = true → n.toNat < x.nodes.length → y.readyAt.isSome = true →
      (s.dev.oget O.AGING_TIME ≠ 0 → Brings (.agingTimeout c n) s (fun d =>
        d = with_ { y with aged := min 7 (y.aged + 1) }))
      ∧ (s.dev.oget O.AGING_TIME = 0 → Brings (.agingTimeout c n) s (fun d => d = s.dev))
      ∧ Brings (.affinityWaitExpiry c n lapsed) s (fun d =>
        d = with_ { y with affinityOver := true, affinity := y.affinity.filter (fun p => !bitAt lapsed.toNat p) })
      ∧ Brings (.crossWaitExpiry c n) s (fun d => d = with_ { y with crossOver := true }))

/-- The strip that runs on a Pane comes to its boundary: it is staged, or held in the strip pool, and the Pane's lanes are free
for the next (R41, R175); a strip of a pipeline that stops is dropped (R45); a residue mismatch below severity 3, the first on
the strip, makes the Pane run the strip once more while 0x3020:00 allows it, and one on that run fails the pipeline with
RESIDUE_MISMATCH below severity 2 (R90); and a failed drive read of the SCAN that runs there fails its pipeline with MEDIA_ERROR
(R287). Assumption logs 27, 68, 193 and 195 say what of this is the model's choice or reading. States that this completes:
NODE_STRIP_BOUNDARY. -/
def Obligations.StripsReachTheirBoundary : Prop :=
  ∀ (s : State) (p : BitVec 7) (verify : Option (BitVec 16 × Bool)) (w : Work),
    let x := s.dev.ctx w.ctx
    let v := verify.map (fun q => (q.1.toNat, q.2))
    s.dev.serves = true → s.dev.halted = false → s.dev.runningOn p.toNat = some w →
    (x.live = true → s.dev.fiFires (4 * p.toNat) = false →
      Brings (.nodeStripBoundary p none verify none) s (fun d =>
        ({ w with phase := .staged, verify := v } ∈ d.pipes.works ∨ { w with phase := .pooled, verify := v } ∈ d.pipes.works)
        ∧ d.pipes.works.length = s.dev.pipes.works.length ∧ d.jamb = s.dev.jamb
        ∧ ((∀ v ∈ s.dev.pipes.works, v.pane = p.toNat → v.phase ≠ .queued) → d.pipes.ctxs = s.dev.pipes.ctxs)))
    ∧ (x.live = false →
      Brings (.nodeStripBoundary p none verify none) s (fun d =>
        d.pipes.works.length + 1 = s.dev.pipes.works.length ∧ d.jamb = s.dev.jamb
        ∧ ((∀ v ∈ s.dev.pipes.works, v.pane = p.toNat → v.phase ≠ .queued) → d.pipes.ctxs = s.dev.pipes.ctxs)))
    ∧ (∀ r : Residue, x.live = true → s.dev.fiFires (4 * p.toNat) = false → (s.dev.pane p.toNat).rerun = false →
      (x.node w.node).applied.residueRetry = true → s.dev.faultAction (4 * p.toNat) < 3 →
      Brings (.nodeStripBoundary p (some r) verify none) s (fun d =>
        (d.pane p.toNat).rerun = true ∧ d.pipes.works = s.dev.pipes.works ∧ d.pipes.ctxs = s.dev.pipes.ctxs))
    ∧ (∀ r : Residue, x.live = true → s.dev.fiFires (4 * p.toNat) = false → (s.dev.pane p.toNat).rerun = true →
      s.dev.faultAction (4 * p.toNat) < 2 →
      Brings (.nodeStripBoundary p (some r) verify none) s (fun d => (d.ctx w.ctx).ending = some 0x0701))
    ∧ (∀ (slot : BitVec 6) (st : BitVec 15) (r : Option Residue), x.live = true → (x.prog.node w.node).op = 0x01 →
      (x.prog.sourceOf w.node).kind = 3 →
      Brings (.nodeStripBoundary p r verify (some (slot, st))) s (fun d =>
        (d.ctx w.ctx).ending = some 0x0602 ∧ ∀ b, b ≠ w.ctx → d.ctx b = s.dev.ctx b))

/-- R331: when every node of a sealed pipeline has ended and no block awaits digesting, the seal block goes into the next free
slot of its sink and the context enters DONE in the same step; PIPE_RUN completes with 0x0000 and SEAL_WRITTEN. Assumption log
101 says what of this is the model's choice or reading. States that this completes: SEAL_WRITE. -/
def Obligations.SealClosesThePipeline : Prop :=
  ∀ (s : State) (c : BitVec 8) (id : Nat) (k : Sink) (i : Nat) (stmt : Bytes),
    let x := s.dev.ctx c.toNat
    let seq := (x.node k.node).nextSlot
    let y : Ctx := { x with sealing := { x.sealing with
      written := true, kept := true, digest := x.resultDigest, blocks := x.blocks, rows := x.rowsEmitted } }
    s.dev.serves = true → s.dev.halted = false → x.live = true → x.prog.sealed = true →
    s.dev.allDone c.toNat x = true → x.sealing.waiting = [] →
    x.prog.sinks.zipIdx.find? (fun k => k.1.sealHere) = some (k, i) → seq < k.slots →
    s.dev.signed (y.sealStmt c.toNat false []) = some stmt →
    x.runCmd = some id → x.waiters = [] → (s.dev.cmd id).isSome = true →
    Brings (.sealWrite c) s (fun d =>
      (d.ctx c.toNat).state = 6 ∧ (d.ctx c.toNat).sealing = y.sealing
      ∧ d.ended id 0 ({ x with state := 6, partialRun := x.skipped }.result c.toNat false true)
      ∧ (k.kind = 1 → d.host = (s.dev.hostWrite (k.base + seq * k.block)
          (sealBlock c.toNat i seq x.runTag k.block x.skipped stmt)).host))

/-! ### Threshold, the drives and FETCH -/

/-- R276, R277, R287: a STORE to a drive with the namespace and room it needs, whose list supplies LENGTH bytes, takes the ⌈LENGTH
/ 256 KiB⌉ free units written least, once that many are free, and its data is asked for; it stays in flight. To an empty slot it
completes with DRIVE_GONE, to a namespace that is absent or formatted otherwise with MEDIA_ERROR, to an extent that cannot
hold it with LENGTH_LONG, and with a list that is at fault or of another length with what that is; then no unit is taken. States
that this completes: STORE. -/
def Obligations.StoreTakesItsUnits : Prop :=
  ∀ (s : State) (id : Nat) (c : Cmd),
    let b := c.entry
    let x := s.dev.drive (fieldAt b 16 1)
    let n := ceilDiv (fieldAt b 32 4) Config.unitBytes
    let us := s.dev.leastWritten n
    let es := s.dev.dataList b (fieldAt b 40 8) (fieldAt b 48 2) 0 (bitAt (fieldAt b 17 1) 7)
    let fails := fun (st : Nat) (d : Dev) => d.ended id st (zeros 16) ∧ d.thr = s.dev.thr ∧ d.hinge = s.dev.hinge
    s.dev.serves = true → s.dev.running id opStore = some c → s.dev.stg id = none →
    (x.empty = true → Lands (.store id) s (fails 0x0601))
    ∧ (x.empty = false → (x.ready = true ∨ x.resetting = true) → x.space (fieldAt b 20 4) = none →
      Lands (.store id) s (fails 0x0602))
    ∧ (∀ ns, x.empty = false → (x.ready = true ∨ x.resetting = true) → x.space (fieldAt b 20 4) = some ns →
      (fieldAt b 36 4 * ns.lbaSize < storeNeeds b → Lands (.store id) s (fails 0x0202))
      ∧ (∀ e, storeNeeds b ≤ fieldAt b 36 4 * ns.lbaSize → es = .error e → Lands (.store id) s (fails e))
      ∧ (∀ l, storeNeeds b ≤ fieldAt b 36 4 * ns.lbaSize → es = .ok l →
        lengthStatus (elemTotal l) (fieldAt b 32 4) ≠ 0 →
        Lands (.store id) s (fails (lengthStatus (elemTotal l) (fieldAt b 32 4))))
      ∧ (∀ l, storeNeeds b ≤ fieldAt b 36 4 * ns.lbaSize → es = .ok l →
        lengthStatus (elemTotal l) (fieldAt b 32 4) = 0 → us.length = n → s.dev.thr.pfSafe = false →
        Lands (.store id) s (fun d =>
          d.thr.stores = s.dev.thr.stores ++
            [{ cmd := c.id, disp := c.disp, slot := fieldAt b 16 1, nsid := fieldAt b 20 4, lba := fieldAt b 24 8
               lbas := fieldAt b 36 4, lbaSize := ns.lbaSize, length := fieldAt b 32 4, form := storeForm b
               phase := .pulling, units := us }]
          ∧ (∀ u ∈ us, (d.tunit u).used = true) ∧ (∀ u, u ∉ us → d.tunit u = s.dev.tunit u)
          ∧ d.jamb = s.dev.jamb ∧ d.mem = s.dev.mem ∧ d.host = s.dev.host)))

/-- R277, R278, R283: the commit record of a STORE whose units have all been written lands once every earlier overlapping STORE
has committed or been discarded and Threshold is not in its safe state: the STORE is staged under the next commit sequence
number, and its command completes with COMMITTED set; until then nothing happens. R283: PWR_FAIL_N asserted sets
THR_STAT.PF_SAFE, after which no STORE takes units or commits; deasserted, PF_SAFE clears. No drive, no memory and no queue
changes. Assumption log 14 says what of this is the model's choice or reading. States that these complete: STORE_COMMIT,
PWR_FAIL_ASSERT, PWR_FAIL_DEASSERT. -/
def Obligations.StoresCommitInTheirTurnWhilePowerLasts : Prop :=
  (∀ (s : State) (id : Nat) (g : Stg) (c : Cmd),
      let x := s.dev.drive g.slot
      s.dev.serves = true → s.dev.stg id = some g → s.dev.running id opStore = some c → g.phase = .landed →
      (s.dev.thr.pfSafe = false → s.dev.earlierStore c.disp (g.slot, g.nsid, g.lba, g.lbas) = false →
        Lands (.storeCommit id) s (fun d =>
          d.thr.stores = s.dev.thr.stores.map (fun h =>
            if h = g then { h with phase := .staged, seq := s.dev.thr.nextSeq, serial := x.serial, nguid := x.nguid } else h)
          ∧ d.thr.nextSeq = s.dev.thr.nextSeq + 1 ∧ d.ended id 0 (result4 g.length 0 0 1)
          ∧ d.mem = s.dev.mem ∧ d.host = s.dev.host ∧ d.drives = s.dev.drives))
      ∧ (s.dev.thr.pfSafe = true ∨ s.dev.earlierStore c.disp (g.slot, g.nsid, g.lba, g.lbas) = true →
        Lands (.storeCommit id) s (fun d => d = s.dev)))
  ∧ (∀ s : State, s.dev.powered = true →
      Brings .pwrFailAssert s (fun d =>
        d.thr.pfSafe = true ∧ d.life.pwrFail = true ∧ d.drives = s.dev.drives ∧ d.mem = s.dev.mem ∧ d.host = s.dev.host
        ∧ d.jamb.queues = s.dev.jamb.queues)
      ∧ Lands .pwrFailDeassert s (fun d =>
        d = { s.dev with thr := { s.dev.thr with pfSafe := false }, life := { s.dev.life with pwrFail := false } }))

/-- R31, R274, R275, R279, R288: where a slot drains the oldest STORE of its drain queue, a plain one, the NVMe write goes out and
Hinge brings the image, which is the staging area's copy with its last LBA filled with zeros, to the drive port; where it has
come there and the drive's answer is success, the drive holds the image from the STORE's first LBA on, and the STORE counts as
written. A first failed write is kept to be retried, and a second one holds the slot's staged STOREs with MEDIA_ERROR; either
failure is recorded with its slot. R279, R288: a release frees the STOREs of a slot whose writes, and the Flush that covers them
where the drive has a volatile write cache, have completed, and THR_DISCARD the held ones; they leave Threshold and every other
STORE stays. With the drain queue empty a Flush of each namespace written goes out and covers what is written.
Assumption logs 5, 60, 183 and 184 say what of this is the model's choice or reading. States that these complete: STORE_DRAIN_WRITE, STORE_RELEASE,
THR_DISCARD. -/
def Obligations.DrainsWriteAndReleaseStores : Prop :=
  (∀ (s : State) (slot : BitVec 6) (outcome : Option (BitVec 15)) (g : Stg),
      let x := s.dev.drive slot.toNat
      let answer := fun image : Bytes =>
        s.dev.driveAnswer slot.toNat g.nsid g.lba (image.length / g.lbaSize) (outcome.map BitVec.toNat)
      let issues := fun image : Bytes => g.sent = false ∧ s.dev.life.parking = false
        ∧ s.dev.hinge.chans.any (fun p => p.2.lists.any (fun l => l.owner == .drain g.seq)) = false
        ∧ g.poisoned = false ∧ g.form.compress = false ∧ s.dev.job (.drain g.seq) = none
        ∧ (s.dev.stagedCopy g).map g.imageOf = some image
      s.dev.serves = true → s.dev.halted = false → oldest (s.dev.drainQueue slot.toNat) = some g →
      x.answers = true → g.held = none → s.dev.fetchPending g = false →
      (∀ image, issues image → answer image = (none, s.dev) →
        Lands (.storeDrainWrite slot outcome) s (fun d =>
          { g with image := image, blocks := 1 } ∈ d.thr.stores
          ∧ d.out = s.dev.out ++ [.nvmeWrite slot.toNat g.nsid g.lba (image.length / g.lbaSize)]
          ∧ (∃ ch ∈ poolDrive, ∃ l ∈ (d.hchan ch).lists, l.owner = .drain g.seq
            ∧ l.work = piecesOf (.imm image) .buffer image.length)
          ∧ d.drives = s.dev.drives ∧ d.jamb = s.dev.jamb ∧ d.mem = s.dev.mem ∧ d.host = s.dev.host))
      ∧ (g.sent = true → answer g.image = (none, s.dev) →
        Lands (.storeDrainWrite slot outcome) s (fun d =>
          (d.drive slot.toNat).cells = (x.write g.nsid (g.lba * g.lbaSize) g.image).cells
          ∧ (∃ h ∈ d.thr.stores, h.cmd = g.cmd ∧ h.seq = g.seq ∧ h.written = true)
          ∧ (∀ k, k ≠ slot.toNat → d.drive k = s.dev.drive k)
          ∧ d.jamb = s.dev.jamb ∧ d.mem = s.dev.mem ∧ d.host = s.dev.host))
      ∧ (∀ st : BitVec 15, outcome = some st → (g.sent = true ∨ ∃ image, issues image) → x.retried = false →
        Lands (.storeDrainWrite slot outcome) s (fun d =>
          (d.drive slot.toNat).retried = true ∧ (d.drive slot.toNat).cells = x.cells
          ∧ d.thr.stores = s.dev.thr.stores.map (fun h => if h = g then { h with image := [], sent := false } else h)
          ∧ d.oget O.LAST_NVME_STATUS = slot.toNat * 65536 + st.toNat))
      ∧ (∀ st : BitVec 15, outcome = some st → (g.sent = true ∨ ∃ image, issues image) → x.retried = true →
        Brings (.storeDrainWrite slot outcome) s (fun d =>
          (∀ h ∈ d.thr.stores, h.slot = slot.toNat → h.phase = .staged → h.written = false → h.held = some 0x0602)
          ∧ (d.drive slot.toNat).cells = x.cells ∧ d.oget O.LAST_NVME_STATUS = slot.toNat * 65536 + st.toNat)))
  ∧ (∀ (s : State) (slot : BitVec 6), s.dev.serves = true →
      let done := fun g : Stg => g.slot = slot.toNat ∧ g.phase = .staged ∧ g.written = true
        ∧ (g.flushed = true ∨ (s.dev.drive slot.toNat).vwc = false)
      let held := fun g : Stg => g.slot = slot.toNat ∧ g.phase = .staged ∧ g.held.isSome = true
      let leave := fun (gone : Stg → Prop) (d : Dev) =>
        (∀ h ∈ s.dev.thr.stores, ¬ gone h → ∃ g ∈ d.thr.stores, h = { g with flushed := h.flushed })
        ∧ (∀ g ∈ d.thr.stores, ∃ h ∈ s.dev.thr.stores, ¬ gone h ∧ h = { g with flushed := h.flushed })
        ∧ (∀ k, { d.drive k with sinceFlush := (s.dev.drive k).sinceFlush } = s.dev.drive k)
        ∧ d.jamb = s.dev.jamb ∧ d.mem = s.dev.mem ∧ d.host = s.dev.host
      Lands (.storeRelease slot) s (fun d => leave done d
        ∧ ((s.dev.drive slot.toNat).vwc = true → (s.dev.drive slot.toNat).answers = true → s.dev.drainQueue slot.toNat = [] →
          ∀ g ∈ s.dev.staged slot.toNat, g.written = true → g.flushed = false →
            Out.nvmeFlush slot.toNat g.nsid ∈ d.out ∧ { g with flushed := true } ∈ d.thr.stores))
      ∧ Lands (.thrDiscard slot) s (fun d => leave held d ∧ d.fget F.THR_DISCARD_GO = 0))

/-- R280: a dispatched STORE_SYNC completes once every STORE that it covers has been released, with the count of the covered
blocks written since its dispatch; where a covered STORE is held, with that STORE's status. States that this completes:
STORE_SYNC. -/
def Obligations.SyncWaitsForItsStores : Prop :=
  ∀ (s : State) (id : Nat) (c : Cmd) (y : Sync),
    let left := s.dev.thr.stores.filter (fun g => decide (g.phase = .staged) && y.covered.contains g.seq)
    s.dev.serves = true → s.dev.running id opStoreSync = some c →
    s.dev.thr.syncs.find? (fun s => s.cmd = id) = some y →
    (left = [] → Gives (.storeSync id) s (fun d =>
      d.ended id 0 (result4 y.counted 0 0 0) ∧ d.thr.stores = s.dev.thr.stores ∧ d.drives = s.dev.drives))
    ∧ (∀ st, left.findSome? Stg.held = some st → Gives (.storeSync id) s (fun d =>
      d.ended id st (result4 y.counted 0 0 0) ∧ d.thr.stores = s.dev.thr.stores ∧ d.drives = s.dev.drives))

/-- R30, R281, R282, R287, R288: a FETCH whose range no staged STORE meets and that no earlier STORE holds back reads the drive:
an NVMe Read of its LBAs goes out, and what the drive holds is under way through the drive pool; when it has come, without
DECOMPRESS, the bytes are under way to its destination list, the LBA count kept in the result. From an empty slot it completes
with DRIVE_GONE, from a namespace that is absent with MEDIA_ERROR and no NVMe command, and after an NVMe error status with
MEDIA_ERROR and the status recorded. A FETCH whose range staged plain STOREs cover reads no drive: their bytes are under way to its
destination list. Assumption log 109 says what of this is the model's choice or reading. States that this completes: FETCH. -/
def Obligations.FetchReadsTheDrive : Prop :=
  ∀ (s : State) (id : Nat) (outcome : Option (BitVec 15)) (c : Cmd) (es : List Elem),
    let e := extentOf c.entry
    let x := s.dev.drive e.1
    let n := fieldAt c.entry 32 4
    let read := Out.nvmeRead e.1 e.2.1 e.2.2.1 e.2.2.2
    s.dev.serves = true → s.dev.running id opFetch = some c →
    s.dev.hinge.chans.any (fun p => p.2.lists.any (fun l => l.owner == .fetch id || l.owner == .pull id)) = false →
    s.dev.job (.cmd id) = none →
    s.dev.dataList c.entry (fieldAt c.entry 40 8) (fieldAt c.entry 48 2) 0 (bitAt (fieldAt c.entry 17 1) 7) = .ok es →
    let fresh := c.pulled = false ∧ s.dev.earlierStore c.disp e = false ∧ 0 < e.2.2.2
    let drives := fresh ∧ s.dev.visible c = []
    let under := fun (d : Dev) (from_ : Nat) => (∃ ch ∈ poolHost, ∃ l ∈ (d.hchan ch).lists, l.owner = .fetch id ∧ l.tag = c.tag)
      ∧ (d.cmd id).map Cmd.result = some (fetchResult 0 e.2.2.2 from_)
      ∧ d.drives = s.dev.drives ∧ d.thr = s.dev.thr ∧ d.mem = s.dev.mem ∧ d.host = s.dev.host
    (drives → x.empty = true → Lands (.fetch id outcome) s (fun d =>
      d.ended id 0x0601 (fetchResult 0 0 0) ∧ d.out = s.dev.out ∧ d.mem = s.dev.mem ∧ d.host = s.dev.host))
    ∧ (drives → x.answers = true → x.space e.2.1 = none → Lands (.fetch id outcome) s (fun d =>
      d.ended id 0x0602 (fetchResult 0 0 0) ∧ d.out = s.dev.out ∧ d.oget O.LAST_NVME_STATUS = s.dev.oget O.LAST_NVME_STATUS
      ∧ d.mem = s.dev.mem ∧ d.host = s.dev.host))
    ∧ (∀ st : BitVec 15, outcome = some st → drives → x.answers = true → (x.space e.2.1).isSome = true →
      Lands (.fetch id outcome) s (fun d =>
        d.ended id 0x0602 (fetchResult 0 0 0) ∧ d.out = s.dev.out ++ [read]
        ∧ d.oget O.LAST_NVME_STATUS = e.1 * 65536 + st.toNat ∧ d.mem = s.dev.mem ∧ d.host = s.dev.host))
    ∧ (∀ ns : NSpace, outcome = none → drives → x.answers = true → x.space e.2.1 = some ns → e.2.2.1 + e.2.2.2 ≤ ns.lbas →
      Lands (.fetch id outcome) s (fun d =>
        d.out = s.dev.out ++ [read]
        ∧ (∃ ch ∈ poolDrive, ∃ l ∈ (d.hchan ch).lists, l.owner = .pull id ∧ l.tag = c.tag)
        ∧ (d.cmd id).map Cmd.buf = some (rangeBytes x [] ns.lbaSize e)
        ∧ d.drives = s.dev.drives ∧ d.thr = s.dev.thr ∧ d.mem = s.dev.mem ∧ d.host = s.dev.host))
    ∧ (outcome = none → c.pulled = true → bitAt (fieldAt c.entry 17 1) 0 = false → 0 < n → 0 < elemTotal es → c.buf ≠ [] →
      Lands (.fetch id outcome) s (fun d => d.out = s.dev.out ∧ under d c.origin))
    ∧ (∀ st : BitVec 15, outcome = some st → c.pulled = true →
      Lands (.fetch id outcome) s (fun d =>
        d.ended id 0x0602 (fetchResult 0 0 0) ∧ d.out = s.dev.out
        ∧ d.oget O.LAST_NVME_STATUS = e.1 * 65536 + st.toNat ∧ d.mem = s.dev.mem ∧ d.host = s.dev.host))
    ∧ (fresh → (∀ g ∈ s.dev.visible c, g.form.compress = false ∧ g.poisoned = false) → needsDrive (s.dev.visible c) e = false →
      s.dev.fiFires 456 = false → s.dev.fiFires 457 = false → bitAt (fieldAt c.entry 17 1) 0 = false → 0 < n → 0 < elemTotal es →
      (∀ g ∈ s.dev.visible c, 0 < g.lbaSize ∧ g.lbaSize = ((s.dev.visible c).head?.map Stg.lbaSize).getD 0) →
      Lands (.fetch id outcome) s (fun d => d.out = s.dev.out ∧ under d 1))

/-- R54, R288: a drive removed from a slot leaves it empty and sets the slot's event bit; a drive inserted where none is fitted is
recorded and, where the bifurcation in force creates the slot, seen and ready with as many lanes as both have, and the event bit
is set. Where the engine does not serve, the drive alone comes or goes (assumption log 21, the model's choice). R287: a drive
command that takes too long writes 0xFFFF with the slot number into 0x2070:31 and resets the drive's controller; while the reset
runs the drive does not answer. A drive that is ready again answers as before; one that is not ready in time is taken as empty.
States that these complete: DRIVE_INSERTED, DRIVE_REMOVED, NVME_TIMEOUT, DRIVE_READY_AGAIN, DRIVE_READY_TIMEOUT. -/
def Obligations.DrivesComeGoAndAreReset : Prop :=
  (∀ (s : State) (slot : BitVec 6) (v : DriveSpec),
      let k := slot.toNat
      let bit := fun d : Dev => if k < 32 then bitAt (d.fget F.DP_EVENT_LO_SLOTS) k = true
        else bitAt (d.fget F.DP_EVENT_HI_SLOTS) (k - 32) = true
      k < Config.slots →
      (s.dev.serves = true → (s.dev.drive k).present = true →
        Brings (.driveRemoved slot) s (fun d => d.drive k = {} ∧ bit d ∧ ∀ j, j ≠ k → d.drive j = s.dev.drive j))
      ∧ (s.dev.serves = true → (s.dev.drive k).fitted = false →
        Lands (.driveInserted slot v) s (fun d =>
          d.drive k = (driveOf v).attach s.dev.bifurcation k ∧ ((d.drive k).present = true → bit d)
          ∧ ∀ j, j ≠ k → d.drive j = s.dev.drive j))
      ∧ (s.dev.serves = false →
        Gives (.driveRemoved slot) s (fun d => d = s.dev.setDrive k {})
        ∧ ((s.dev.drive k).fitted = false → Gives (.driveInserted slot v) s (fun d => d = s.dev.setDrive k (driveOf v)))))
  ∧ (∀ (s : State) (slot : BitVec 6) (work : DriveWork),
      let k := slot.toNat
      s.dev.serves = true →
      (s.dev.halted = false → (s.dev.drive k).answers = true →
        Brings (.nvmeTimeout slot work) s (fun d =>
          (d.drive k).resetting = true ∧ (d.drive k).answers = false ∧ (d.drive k).cells = (s.dev.drive k).cells
          ∧ d.oget O.LAST_NVME_STATUS = k * 65536 + 0xFFFF ∧ Out.nvmeReset k ∈ d.out
          ∧ ∀ j, j ≠ k → d.drive j = s.dev.drive j))
      ∧ ((s.dev.drive k).present = true → (s.dev.drive k).resetting = true →
        Lands (.driveReadyAgain slot) s (fun d =>
          d = s.dev.setDrive k { s.dev.drive k with resetting := false, ready := true })
        ∧ Brings (.driveReadyTimeout slot) s (fun d =>
          (d.drive k).empty = true ∧ (d.drive k).cells = (s.dev.drive k).cells ∧ ∀ j, j ≠ k → d.drive j = s.dev.drive j)))

/-! ### Hinge and Bifold -/

/-- R336: a dispatched DMA's list joins the queue of the channel it names, or, with CHANNEL 0xFF, of the command-pool channel with
the fewest queued bytes; every other channel keeps its lists. R342, R343: a stop takes hold of a channel without a list at once
and of another at its next descriptor boundary; GO takes it back. Neither touches a list or another channel, and a stopped channel
runs no descriptor. States that these complete: DMA, HINGE_CH_STOP, HINGE_CH_GO. -/
def Obligations.DmaJoinsAChannelThatStopsAndGoes : Prop :=
  (∀ (s : State) (id : Nat) (c : Cmd),
      let ch := fieldAt c.entry 16 1
      let n := if ch = 0xFF then s.dev.leastQueued poolCommand else ch
      s.dev.serves = true → s.dev.running id opDma = some c →
      s.dev.hinge.chans.any (fun p => p.2.lists.any (fun l => l.owner == .dma id)) = false →
      Lands (.dma id) s (fun d =>
        (∃ l, l.owner = .dma id ∧ l.tag = c.tag ∧ l.count = fieldAt c.entry 18 2 ∧ l.total = fieldAt c.entry 32 8
          ∧ d.hchan n = { s.dev.hchan n with lists := (s.dev.hchan n).lists ++ [l] })
        ∧ (∀ m, m ≠ n → d.hchan m = s.dev.hchan m)
        ∧ (ch = 0xFF → ∀ m ∈ poolCommand, (s.dev.hchan n).queuedBytes ≤ (s.dev.hchan m).queuedBytes)
        ∧ d.jamb = s.dev.jamb ∧ d.mem = s.dev.mem ∧ d.host = s.dev.host))
  ∧ (∀ (s : State) (n : BitVec 6), s.dev.serves = true →
      let x := s.dev.hchan n.toNat
      let others := fun d : Dev => (∀ m, m ≠ n.toNat → d.hchan m = s.dev.hchan m) ∧ d.jamb = s.dev.jamb
        ∧ d.mem = s.dev.mem ∧ d.host = s.dev.host
      Lands (.hingeChStop n) s (fun d =>
        d.hchan n.toNat = (if x.lists = [] then { x with stopped := true } else { x with stopReq := true }) ∧ others d)
      ∧ Lands (.hingeChGo n) s (fun d => d.hchan n.toNat = { x with stopReq := false, stopped := false } ∧ others d)
      ∧ (x.stopped = true → Lands (.hingeDescriptorDone n) s (fun d => d = s.dev)))

/-- R338, R341: the one inline descriptor of a DMA list that copies one line of host memory to another that it does not meet,
TOTAL bytes long and not swapped, puts the source bytes at the destination and changes no other byte of host memory; the command
completes with 0x0000, one descriptor and TOTAL bytes, and its list leaves the channel. States that this completes:
HINGE_DESCRIPTOR_DONE. -/
def Obligations.DescriptorCopiesHostMemory : Prop :=
  ∀ (s : State) (n : BitVec 6) (id : Nat) (c : Cmd) (l : HList) (rest : List HList),
    let x := descOf (sliceAt c.entry 64 64)
    let k := x.srcLen
    s.dev.serves = true → s.dev.halted = false → s.dev.hinge.halt = false → s.dev.fgetB F.JB_STAT_HOLD = false →
    (s.dev.hchan n.toNat).stopped = false → (s.dev.hchan n.toNat).lists = l :: rest →
    l.owner = .dma id → l.at_ = .inline 0 → l.done = 0 → l.moved = 0 → l.count = 1 → l.total = k →
    s.dev.cmd id = some c → descOk (sliceAt c.entry 64 64) = true →
    x.srcEng = false → x.dstEng = false → x.swap = 0 → 0 < k → x.srcCount = 1 → x.dstLen = k → x.dstCount = 1 →
    x.src + k ≤ 2 ^ 64 → x.dst + k ≤ 2 ^ 64 → (x.src + k ≤ x.dst ∨ x.dst + k ≤ x.src) →
    s.dev.hostFails x.src k = false →
    Lands (.hingeDescriptorDone n) s (fun d =>
      d.hostBytes x.dst k = s.dev.hostBytes x.src k
      ∧ (∀ a, a < x.dst ∨ x.dst + k ≤ a → Sparse.get 0 d.host a = Sparse.get 0 s.dev.host a)
      ∧ d.ended id 0 (leBytes 4 1 ++ zeros 4 ++ leBytes 8 k) ∧ (d.hchan n.toNat).lists = rest
      ∧ (∀ m, m ≠ n.toNat → d.hchan m = s.dev.hchan m) ∧ d.mem = s.dev.mem)

/-- R346, R348: a bus error of a device that is not halted halts Hinge, latches the address and kind, abandons the current
descriptor of every channel that runs one and counts the halt; of memory no more changes than what those descriptors may have
written, which is open. A second one before RESTART only sets MORE. R347: RESTART, and the expiry of HALT_TIMEOUT, end the halt
and clear both abort registers. Where only DMA commands end by it, at RESTART a channel that is not aborted, and whose list no
flush or cancel has ended, keeps its lists, with ABANDONED clear; at the expiry so does one whose current descriptor does not read
host memory.
Assumption logs 185 and 186 say what of this is the model's choice or reading. States that these complete: HINGE_BUS_ERROR, HINGE_RESTART, HALT_TIMEOUT_EXPIRY. -/
def Obligations.BusErrorHaltsHingeUntilItRestarts : Prop :=
  (∀ (s : State) (addr : BitVec 64) (kind : BitVec 3) (port : Bool) (slot : BitVec 6),
      s.dev.serves = true → s.dev.halted = false →
      (s.dev.hinge.halt = false → Brings (.hingeBusError addr kind port slot) s (fun d =>
        d.hinge.halt = true ∧ d.hinge.errAddr = addr.toNat ∧ d.hinge.errKind = kind.toNat ∧ d.hinge.errMore = false
        ∧ (∀ n, (s.dev.hchan n).moving = true → d.hchan n = { s.dev.hchan n with abandoned := true })
        ∧ (∀ n, (s.dev.hchan n).moving = false → d.hchan n = s.dev.hchan n)
        ∧ d.oget O.HINGE_HALTS = (s.dev.oget O.HINGE_HALTS + 1) % 2 ^ (8 * O.HINGE_HALTS.size)
        ∧ d.jamb.cmds = s.dev.jamb.cmds ∧ d.mem = s.dev.partWritten.mem ∧ d.host = s.dev.partWritten.host
        ∧ ((∀ p ∈ s.dev.hinge.chans, p.2.moving = false) → d.mem = s.dev.mem ∧ d.host = s.dev.host)))
      ∧ (s.dev.hinge.halt = true → Lands (.hingeBusError addr kind port slot) s (fun d =>
        d = { s.dev with hinge := { s.dev.hinge with errMore := true } })))
  ∧ (∀ s : State, s.dev.serves = true → s.dev.halted = false → s.dev.hinge.halt = true →
      let free := fun d : Dev =>
        d.hinge.halt = false ∧ d.fget F.HINGE_ABORT_LO_CH = 0 ∧ d.fget F.HINGE_ABORT_HI_CH = 0
      let keeps := fun (d : Dev) (n : Nat) => d.hchan n = { s.dev.hchan n with abandoned := false }
      let onlyDma := fun ends : Nat → HList → Prop => ∀ p ∈ s.dev.hinge.chans, ∀ l ∈ p.2.lists.head?,
        l.drop.isSome = true ∨ bitAt s.dev.abortMask p.1 = true ∨ ends p.1 l → ∃ id, l.owner = .dma id
      Brings .hingeRestart s (fun d => free d ∧ ∀ n, onlyDma (fun _ _ => False) → (s.dev.hchan n).lists ≠ [] → bitAt s.dev.abortMask n = false →
        (∀ p ∈ s.dev.hinge.chans, p.1 = n → ∀ l ∈ p.2.lists.head?, l.drop = none) → keeps d n)
      ∧ Brings .haltTimeoutExpiry s (fun d => free d ∧ ∀ n, n < 64 → onlyDma (fun _ l => s.dev.readsHost l = true) →
        (s.dev.hchan n).lists ≠ [] → bitAt s.dev.abortMask n = false →
        (∀ p ∈ s.dev.hinge.chans, p.1 = n → ∀ l ∈ p.2.lists.head?, l.drop = none ∧ s.dev.readsHost l = false) → keeps d n))

/-- R305, R306: an engine of a Casement that is in service, idle and not held off takes the oldest request it may; when it ends
the block, the engine is free and the block's outcome joins its job, a decoded block's being what the decoder gives; a parity
error in the engine gives no outcome. Assumption log 59 says what of this is the model's choice or reading. States that these
complete: BIFOLD_BLOCK_START, BIFOLD_BLOCK_DONE. -/
def Obligations.EnginesTakeAndEndBlocks : Prop :=
  ∀ (s : State) (c : BitVec 2) (e : BitVec 4) (r : BReq),
    let x := s.dev.bcas c.toNat
    let y := x.engine e.toNat
    s.dev.serves = true → s.dev.halted = false →
    (x.stopped = false → takable e.toNat x.queue = some r →
      (List.range 12).find? (fun e =>
        s.dev.engineReady c.toNat e && (x.engine e).held.isNone && (takable e x.queue).isSome) = some e.toNat →
      Lands (.bifoldBlockStart c) s (fun d =>
        ((d.bcas c.toNat).engine e.toNat).held = some r ∧ d.bifold.jobs = s.dev.bifold.jobs
        ∧ d.jamb = s.dev.jamb ∧ d.mem = s.dev.mem ∧ d.host = s.dev.host))
    ∧ (∀ j, y.held = some r → s.dev.job r.owner = some j → s.dev.fiFires (casSource c.toNat 9) = false →
      Brings (.bifoldBlockDone c e false) s (fun d =>
        ((d.bcas c.toNat).engine e.toNat).held = none
        ∧ (∃ v, d.job r.owner = some { j with results := j.results ++ [(r.index, v)] }
          ∧ (j.build = false → v = decodeBlock j.noCheck (j.blocks.getD r.index []))
          ∧ (j.build = true → ∃ tag, v = (0, (buildBlock j.form tag (j.blocks.getD r.index [])).2)))
        ∧ d.jamb = s.dev.jamb ∧ d.mem = s.dev.mem ∧ d.host = s.dev.host)
      ∧ Brings (.bifoldBlockDone c e true) s (fun d =>
        ((d.bcas c.toNat).engine e.toNat).errors = y.errors + 1 ∧ d.job r.owner = some j
        ∧ d.mem = s.dev.mem ∧ d.host = s.dev.host))

/-- R293, R299, R301: whatever DEFLATE body Bifold builds, the block it writes of up to 1 MiB of input decodes to that input,
its checks passed, with the trailer checked or not; and its stored size never exceeds 32 + ULEN + 48 bytes. Assumption log 10
says what of this is the model's choice or reading. -/
def Obligations.BlocksDecodeToTheirInput : Prop :=
  ∀ (f : StoreForm) (tag : Nat) (input : Bytes) (noCheck : Bool),
    let col := leBytes 8 f.column
    1 ≤ input.length → input.length ≤ 1048576 →
    fieldAt col 0 1 ≤ 0x13 → fieldAt col 2 1 < 6 → fieldAt col 3 1 < 2 →
    decodeBlock noCheck (buildBlock f tag input).2 = (0, input)
    ∧ (buildBlock f tag input).2.length ≤ 32 + input.length + 48

/-- R249, R300, R304: a COMPRESS or DECOMPRESS reads its input and asks for its blocks, staying in flight; with no block to do it
completes at once with a zero result. Once every block has ended well and all of them fit the destination, its output stands
there, each built block filled with zeros to its 4,096-byte boundary, and it completes with the bytes consumed, the bytes written
and the count of blocks. States that these complete: COMPRESS, DECOMPRESS. -/
def Obligations.CompressionAsksAndEnds : Prop :=
  ∀ (s : State) (id : Nat) (c : Cmd) (src dst : List Elem),
    let b := c.entry
    let srcs := if fieldAt b 24 8 = 0 then fieldAt b 32 2 else 0
    let declared := fieldAt b 20 4
    let size := blockSize (fieldAt b 18 1)
    let st := lengthStatus (elemTotal src) declared
    let still := fun d : Dev => d.mem = s.dev.mem ∧ d.host = s.dev.host
    let asks := fun (build : Bool) (blocks : List Bytes) (d : Dev) =>
      (d.job (.cmd id)).map Job.blocks = some blocks ∧ (d.job (.cmd id)).map Job.build = some build
      ∧ d.jamb = s.dev.jamb ∧ still d
    let lands := fun (out : Bytes) (d : Dev) =>
      d.host = (s.dev.scatter dst out).host ∧ d.mem = (s.dev.scatter dst out).mem
    s.dev.serves = true →
    s.dev.dataList b (fieldAt b 24 8) (fieldAt b 32 2) 0 (bitAt (fieldAt b 17 1) 7) = .ok src →
    s.dev.dataList b (fieldAt b 40 8) (fieldAt b 34 2) srcs (bitAt (fieldAt b 17 1) 6) = .ok dst →
    (∀ input, s.dev.job (.cmd id) = none → s.dev.gather src (min (elemTotal src) declared) = .ok input →
      let cut := cutInput size (input.length / size + 1) input
      (s.dev.running id opCompress = some c →
        (cut ≠ [] → Lands (.compress id) s (asks true cut))
        ∧ (cut = [] → Lands (.compress id) s (fun d => d.ended id st (result4 0 0 0 0) ∧ still d)))
      ∧ (s.dev.running id opDecompress = some c →
        (blocksOf input ≠ [] → Lands (.decompress id) s (asks false (blocksOf input)))
        ∧ (blocksOf input = [] → Lands (.decompress id) s (fun d => d.ended id st (result4 0 0 0 0) ∧ still d))))
    ∧ (∀ j, s.dev.job (.cmd id) = some j → j.results.length = j.blocks.length →
      let rs := j.leading j.blocks.length
      let built := rs.flatMap (fun r => padBlock r.2)
      let decoded := rs.flatMap (fun r => r.2)
      rs.length = j.blocks.length → (∀ r ∈ rs, r.1 = 0) →
      (s.dev.running id opCompress = some c → j.build = true → built.length ≤ elemTotal dst →
        Lands (.compress id) s (fun d =>
          d.ended id st (result4 (j.blocks.map List.length).sum built.length j.blocks.length 0) ∧ lands built d))
      ∧ (s.dev.running id opDecompress = some c → j.build = false → decoded.length ≤ elemTotal dst →
        Lands (.decompress id) s (fun d =>
          (∃ used, used ≤ declared ∧ d.ended id st (result4 used decoded.length j.blocks.length 0)) ∧ lands decoded d)))

/-! ### The digest unit, the key store and ATTEST -/

/-- R312, R314, R315, R318: a read of DG_CTX_ALLOC allocates the lowest free context; START samples the fields and the declared
length and begins a message; a data write appends its bytes up to the declared length, or is lost while both input blocks are
full; a block turn compresses one full block; RELEASE frees the context. No other context changes. States that these complete:
DG_CTX_ALLOC_READ, DG_START, DG_RELEASE, DG_DATA_WRITE, DIGEST_BLOCK_COMPRESSED. -/
def Obligations.DigestContextsTakeMessages : Prop :=
  ∀ (s : State) (k : BitVec 6) (control : BitVec 16) (wide : Bool) (data : BitVec 64),
    let x := s.dev.dgctx k.toNat
    let b := leBytes (if wide then 8 else 4) data.toNat
    let others := fun (k : Nat) (d : Dev) => ∀ j, j ≠ k → d.dgctx j = s.dev.dgctx j
    s.dev.serves = true →
    (∀ j, s.dev.freeDgctx = some j → Gives .dgCtxAllocRead s (fun d =>
      d.dgctx j = { s.dev.dgctx j with alloc := true } ∧ others j d))
    ∧ Lands (.dgStart k control) s (fun d =>
      d.dgctx k.toNat = { alloc := x.alloc, cmd := x.cmd, running := true, alg := bits control.toNat 1 0
                          hmac := bitAt control.toNat 2, toSlot := bitAt control.toNat 3
                          keySlot := bits control.toNat 9 4, destSlot := bits control.toNat 15 10
                          declared := s.dev.fget (F.DG_LEN_LO_LEN k.toNat) + s.dev.fget (F.DG_LEN_HI_LEN k.toNat) * 2 ^ 32 }
      ∧ others k.toNat d)
    ∧ Lands (.dgRelease k control) s (fun d => d.dgctx k.toNat = {} ∧ others k.toNat d)
    ∧ (x.running = true → x.done = false → x.finalReq = false →
      (x.busy = true → Lands (.dgDataWrite k wide data) s (fun d =>
        d.dgctx k.toNat = { x with lost := true } ∧ others k.toNat d))
      ∧ (x.busy = false → x.msg.length < x.declared → Lands (.dgDataWrite k wide data) s (fun d =>
        d.dgctx k.toNat = { x with msg := x.msg ++ b.take (x.declared - x.msg.length) } ∧ others k.toNat d))
      ∧ (x.busy = false → x.declared ≤ x.msg.length → Lands (.dgDataWrite k wide data) s (fun d =>
        d.dgctx k.toNat = { x with overrun := true } ∧ others k.toNat d))
      ∧ (algBlock x.alg ≤ x.buffered → Lands (.digestBlockCompressed (.ctx k)) s (fun d =>
        d.dgctx k.toNat = { x with compressed := x.compressed + algBlock x.alg } ∧ others k.toNat d)))

/-- R316, R317, R320: FINAL of a message whose data has all come, none lost, leaves DONE and the digest or HMAC of the message in
the result registers, which later reads leave as they are; with data missing it leaves SHORT and no result. A read before DONE
sets EARLY. States that these complete: DG_FINAL, DG_RESULT_READ. -/
def Obligations.FinalGivesTheDigest : Prop :=
  ∀ (s : State) (k : BitVec 6) (control : BitVec 16) (word : BitVec 4) (r : Bytes),
    let x := s.dev.dgctx k.toNat
    s.dev.serves = true → x.alloc = true → x.running = true →
    (x.done = false → x.finalReq = false → x.buffered < algBlock x.alg → x.lost = false →
      (x.msg.length < x.declared → Lands (.dgFinal k control) s (fun d =>
        d.dgctx k.toNat = { x with done := true, compressed := x.msg.length, short := true }))
      ∧ (x.declared ≤ x.msg.length → x.toSlot = false →
        (x.hmac = false ∧ r = digestOf x.alg x.msg
          ∨ x.hmac = true ∧ ∃ key, s.dev.hmacKey x.keySlot = .ok key ∧ r = hmacOf x.alg key x.msg) →
        Lands (.dgFinal k control) s (fun d =>
          d.dgctx k.toNat = { x with done := true, compressed := x.msg.length, result := r })))
    ∧ (x.done = false → Gives (.dgResultRead k word) s (fun d => d.dgctx k.toNat = { x with early := true }))
    ∧ (x.done = true → Gives (.dgResultRead k word) s (fun d => d = s.dev))

/-- R322: with no operation waiting and the slot not in use, LOAD of a type, length and slot that it accepts fills the slot from
the key window under a fresh tag, and of another only sets KS_STAT.ERR; CLEAR empties the slot; EXPORT copies the slot's contents
into the window, whatever its type. On a slot in use each waits. States that these complete: KS_LOAD, KS_CLEAR, KS_EXPORT. -/
def Obligations.KeyStoreOperations : Prop :=
  ∀ (s : State) (slot : BitVec 6) (type : BitVec 3) (len : BitVec 8),
    let n := slot.toNat
    let others := fun d : Dev => ∀ m, m ≠ n → d.slot m = s.dev.slot m
    let waits := fun d : Dev => d.dig.ksPending.isSome = true ∧ d.fget F.KS_STAT_BUSY = 1 ∧ ∀ m, d.slot m = s.dev.slot m
    s.dev.serves = true → s.dev.dig.ksPending = none →
    (s.dev.slotInUse n = false →
      (loadOk n type.toNat len.toNat = true → Lands (.ksLoad slot type len) s (fun d =>
        d.slot n = slotOf type.toNat (s.dev.ksWindow.take len.toNat) ∧ others d))
      ∧ (loadOk n type.toNat len.toNat = false → Lands (.ksLoad slot type len) s (fun d =>
        d.fget F.KS_STAT_ERR = 1 ∧ d.dig = s.dev.dig))
      ∧ Lands (.ksClear slot) s (fun d => d.slot n = {} ∧ others d)
      ∧ Lands (.ksExport slot) s (fun d =>
        (∀ i, i < 32 → d.fget (F.KS_DATA_DATA i) = fieldAt (s.dev.slot n).data (4 * i) 4) ∧ d.dig = s.dev.dig))
    ∧ (s.dev.slotInUse n = true →
      Lands (.ksLoad slot type len) s waits ∧ Lands (.ksClear slot) s waits ∧ Lands (.ksExport slot) s waits)

/-- R319, R249: a DIGEST whose context no register write has touched writes the digest of its data, or with HMAC set its HMAC
under the key of the slot it names, to RESULT_ADDR and completes with the bytes read and written; a list shorter than LENGTH
completes with LENGTH_SHORT, and nothing is written. Assumption log 55 says what of this is the model's choice or reading. States
that this completes: DIGEST. -/
def Obligations.DigestCommandWritesTheDigest : Prop :=
  ∀ (s : State) (id : Nat) (c : Cmd) (es : List Elem) (m r : Bytes),
    let b := c.entry
    let hmac := bitAt (fieldAt b 17 1) 0
    let st := lengthStatus (elemTotal es) (fieldAt b 20 4)
    s.dev.serves = true → s.dev.running id opDigest = some c →
    s.dev.dataList b (fieldAt b 24 8) (fieldAt b 32 2) 0 (bitAt (fieldAt b 17 1) 7) = .ok es →
    s.dev.gather es (min (elemTotal es) (fieldAt b 20 4)) = .ok m →
    (st = 0x0201 → Lands (.digest id) s (fun d =>
      d.ended id st (result4 m.length 0 0 0) ∧ d.host = s.dev.host ∧ d.mem = s.dev.mem))
    ∧ (st ≠ 0x0201 → (hmac = false ∧ r = digestOf (fieldAt b 16 1) m
        ∨ hmac = true ∧ ∃ key, s.dev.hmacKey (fieldAt b 18 1) = .ok key ∧ r = hmacOf (fieldAt b 16 1) key m) →
      (List.range 64).any (fun k => s.dev.dgctx k = digestFresh c) = true →
      Lands (.digest id) s (fun d =>
        d.ended id st (result4 m.length r.length 0 0)
        ∧ (bitAt (fieldAt b 17 1) 6 = false → d.host = (s.dev.hostWrite (fieldAt b 40 8) r).host ∧ d.mem = s.dev.mem)
        ∧ (bitAt (fieldAt b 17 1) 6 = true → d.host = s.dev.host)))

/-- R332: an ATTEST whose output fits OUT_LEN writes it and completes with the bytes written: for KIND 0 the signed statement, the
public key and the certificate with its length, for KIND 1 the signed statement of the kept fields; where it does not fit nothing
is written and the command completes with LENGTH_LONG and the bytes needed; with no kept seal KIND 1 completes with 0x0000 and
zero bytes. States that these complete: ATTEST_IDENTITY, ATTEST_SEAL. -/
def Obligations.AttestWritesItsOutput : Prop :=
  ∀ (s : State) (id : Nat) (c : Cmd) (v : Bytes),
    let b := c.entry
    let report := v ++ fit 96 s.dev.dig.pubKey ++ leBytes 4 s.dev.life.cert.length ++ s.dev.life.cert
    let fits := fun (out : Bytes) (d : Dev) =>
      d.ended id 0 (result4 out.length 0 0 0)
      ∧ (bitAt (fieldAt b 17 1) 6 = false → d.host = (s.dev.hostWrite (fieldAt b 24 8) out).host ∧ d.mem = s.dev.mem)
      ∧ (bitAt (fieldAt b 17 1) 6 = true → d.host = s.dev.host)
    let long := fun (out : Bytes) (d : Dev) =>
      d.ended id 0x0202 (result4 0 out.length 0 0) ∧ d.host = s.dev.host ∧ d.mem = s.dev.mem
    s.dev.serves = true → s.dev.running id opAttest = some c →
    (fieldAt b 16 1 = 0 → s.dev.signed { form := 0, nonce := sliceAt b 64 32, digest := s.dev.measure } = some v →
      (report.length ≤ fieldAt b 20 4 → Lands (.attestIdentity id) s (fits report))
      ∧ (fieldAt b 20 4 < report.length → Lands (.attestIdentity id) s (long report)))
    ∧ (fieldAt b 16 1 = 1 → c.result ≠ [] → s.dev.signed (Stmt.unpack c.result (sliceAt b 64 32)) = some v →
      (v.length ≤ fieldAt b 20 4 → Lands (.attestSeal id) s (fits v))
      ∧ (fieldAt b 20 4 < v.length → Lands (.attestSeal id) s (long v)))
    ∧ (fieldAt b 16 1 = 1 → c.result = [] → Lands (.attestSeal id) s (fun d =>
      d.ended id 0 (zeros 16) ∧ d.host = s.dev.host ∧ d.mem = s.dev.mem))

/-! ### Louvre -/

/-- R96, R97: a table is 32, 64 or 128 bits wide; the records loaded into it hold zero at that width and above; an entry matches a
key just where it is VALID and agrees with the key on every bit below the width that it cares for. A search's walk gives every
match, and nothing else, in descending priority and then ascending index, so that its first is the winner; the result records of
the walk carry MULTI just where more than one entry matches. R115 (in part): a scrub pass of a bank that holds a table clears
VALID at every position whose shadow word is lost, marks the table damaged, and leaves every other position as it was; the
positions repaired from the shadow are counted. States that this completes: LOUVRE_SCRUB_PASS. -/
def Obligations.SearchesFindTheBestAndScrubsClearTheLost : Prop :=
  (∀ (b list : Bytes) (write : Bool) (n : Nat), fieldAt b 19 1 < 3 →
      let w := lvBits (lvTableOf b).width
      w ∈ [32, 64, 128] ∧ ∀ r ∈ (lvRecords (lvTableOf b) write n list).1, r.entry.key < 2 ^ w ∧ r.entry.care < 2 ^ w)
  ∧ (∀ (w key : Nat) (e : LvEntry), e.hit w key = true ↔
      e.valid = true ∧ ∀ i, i < w → e.care.testBit i = true → key.testBit i = e.key.testBit i)
  ∧ (∀ (w key : Nat) (es : List (Nat × LvEntry)),
      let hits := es.filter (fun p => p.2.hit w key)
      let walk := lvWalk w key es
      walk.Perm hits ∧ walk.Pairwise (fun m p => p.2.prio < m.2.prio ∨ (p.2.prio = m.2.prio ∧ m.1 ≤ p.1))
      ∧ (∀ m, walk.head? = some m →
        ∀ p ∈ es, p.2.hit w key = true → p.2.prio < m.2.prio ∨ (p.2.prio = m.2.prio ∧ m.1 ≤ p.1))
      ∧ ∀ k retried, k < walk.length → bitAt (fieldAt (lvResultRecord walk retried true k) 7 1) 1 = decide (1 < hits.length))
  ∧ (∀ (s : State) (c b : BitVec 2) (repaired lost : List (BitVec 14)) (t : Nat),
      s.dev.serves = true → (s.dev.lvBank c.toNat b.toNat).table = some t →
      Brings (.louvreScrubPass c b repaired lost) s (fun d =>
        (∀ i ∈ lost, (Sparse.get {} (d.lvBank c.toNat b.toNat).entries i.toNat).valid = false)
        ∧ (∀ i : Nat, (∀ k ∈ lost, k.toNat ≠ i) →
          Sparse.get {} (d.lvBank c.toNat b.toNat).entries i = Sparse.get {} (s.dev.lvBank c.toNat b.toNat).entries i)
        ∧ (lost ≠ [] → (s.dev.lvTable t).isSome = true → d.lvDamaged t = true)
        ∧ (repaired ≠ [] → d.oget O.LOUVRE_SCRUB_REPAIR
          = (s.dev.oget O.LOUVRE_SCRUB_REPAIR + repaired.length) % 2 ^ (8 * O.LOUVRE_SCRUB_REPAIR.size))
        ∧ d.mem = s.dev.mem ∧ d.host = s.dev.host))

/-- R102 to R106, R134: a CREATE of an unbound number, or a SWAP of a table that no context names, binds the table that its
entry describes and completes with the count of its records, where every record reads and the table fits; where it does not fit,
or a CREATE's number is bound, it completes with LOUVRE_FULL, and where a record fails with that record's status and place; then
no bank changes. A WRITE writes the records up to the first that fails and completes with their count; one without index steering
puts a single record at its index. An UNLOAD that no context stands against unbinds the table from every bank. A SWAP or UNLOAD of
a table that a context names, and a WRITE or UNLOAD of an unbound number or of a table that a build holds, have no effect and say
so.
Assumption logs 153, 164 and 169 say what of this is the model's choice or reading. States that these complete: LOUVRE_CREATE,
LOUVRE_SWAP, LOUVRE_UNLOAD, LOUVRE_WRITE. -/
def Obligations.LouvreLoadsBindTables : Prop :=
  ∀ (s : State) (id : Nat) (c : Cmd) (list : Bytes),
    let b := c.entry
    let t := fieldAt b 17 1
    let n := fieldAt b 32 4
    let x := lvTableOf b
    let rs := lvRecords x false n list
    let result := fun (e : Dev) (records fail : Nat) (noEffect : Bool) => leBytes 4 records ++ leBytes 4 fail
      ++ leBytes 1 (b2n noEffect) ++ leBytes 1 (e.lvHeld t) ++ leBytes 2 (e.lvNamers t) ++ zeros 4
    let idle := fun d : Dev => d.louvre = s.dev.louvre ∧ d.mem = s.dev.mem ∧ d.host = s.dev.host
    let nothing := fun d : Dev => idle d ∧ d.ended id 0 (result s.dev 0 noRecord true)
    let refused := fun (st fail : Nat) (d : Dev) => idle d ∧ d.ended id st (result s.dev 0 fail false)
    let binds := fun (e d : Dev) =>
      d.lvTable t = some x ∧ (∀ u, u ≠ t → u < 64 → d.lvTable u = s.dev.lvTable u) ∧ d.louvre = e.louvre
      ∧ d.ended id 0 (result e n noRecord false) ∧ d.mem = s.dev.mem ∧ d.host = s.dev.host
    s.dev.serves = true →
    (s.dev.lvLoad id 0 = some c → (s.dev.lvTable t).isSome = true → Lands (.louvreCreate id) s (refused 0x0303 noRecord))
    ∧ (s.dev.lvLoad id 0 = some c → s.dev.lvTable t = none → s.dev.lvList b = .ok list →
      (rs.2 ≠ 0 → Lands (.louvreCreate id) s (refused rs.2 rs.1.length))
      ∧ (∀ e, rs.2 = 0 → s.dev.lvBind t x (rs.1.map LvRecord.entry) = some e → Lands (.louvreCreate id) s (binds e))
      ∧ (rs.2 = 0 → s.dev.lvBind t x (rs.1.map LvRecord.entry) = none → Lands (.louvreCreate id) s (refused 0x0303 noRecord)))
    ∧ (s.dev.lvLoad id 2 = some c → s.dev.lvNamers t ≠ 0 → Lands (.louvreSwap id) s nothing)
    ∧ (s.dev.lvLoad id 2 = some c → s.dev.lvNamers t = 0 → s.dev.lvList b = .ok list →
      (rs.2 ≠ 0 → Lands (.louvreSwap id) s (refused rs.2 rs.1.length))
      ∧ (∀ e, rs.2 = 0 → s.dev.lvBind t x (rs.1.map LvRecord.entry) = some e → Lands (.louvreSwap id) s (binds e))
      ∧ (rs.2 = 0 → s.dev.lvBind t x (rs.1.map LvRecord.entry) = none → Lands (.louvreSwap id) s (refused 0x0303 noRecord)))
    ∧ (s.dev.lvLoad id 3 = some c → s.dev.lvNamers t = 0 → (s.dev.lvTable t).isSome = true → s.dev.lvBuilt t = false →
      Lands (.louvreUnload id) s (fun d =>
        d.lvTable t = none ∧ (∀ cas k, (d.lvBank cas k).table ≠ some t) ∧ (∀ u, u ≠ t → d.lvTable u = s.dev.lvTable u)
        ∧ d.ended id 0 (leBytes 4 0 ++ leBytes 4 noRecord ++ zeros 8)))
    ∧ (s.dev.lvLoad id 3 = some c → s.dev.lvNamers t ≠ 0 ∨ s.dev.lvTable t = none ∨ s.dev.lvBuilt t = true →
      Lands (.louvreUnload id) s nothing)
    ∧ (s.dev.lvLoad id 1 = some c → s.dev.lvTable t = none ∨ s.dev.lvBuilt t = true → Lands (.louvreWrite id) s nothing)
    ∧ (∀ y, s.dev.lvLoad id 1 = some c → s.dev.lvTable t = some y → s.dev.lvBuilt t = false → s.dev.lvList b = .ok list →
      let ws := lvRecords y true n list
      let v := s.dev.lvWriteAll t y ws.1 0
      let kept := fun d : Dev => d.louvre = v.1.louvre ∧ d.mem = s.dev.mem ∧ d.host = s.dev.host
      (ws.2 = 0 → v.2.2 = 0 → Lands (.louvreWrite id) s (fun d =>
        d.ended id 0 (result s.dev ws.1.length noRecord false) ∧ kept d
        ∧ (∀ r, ws.1 = [r] → y.layout ≠ 1 → ∀ cas ∈ y.casements, ∀ k, k < 4 → (s.dev.lvBank cas k).table = some t →
          (y.layout = 0 ∨ (s.dev.lvBank cas k).ordinal = r.index / bankEntries) →
          Sparse.get {} (d.lvBank cas k).entries (r.index % bankEntries) = r.entry.checked)))
      ∧ (ws.2 ≠ 0 → v.2.2 = 0 → Lands (.louvreWrite id) s (fun d =>
        d.ended id ws.2 (result s.dev ws.1.length ws.1.length false) ∧ kept d)))

/-- R112, R118: a LOUVRE_SEARCH of a copy that is bound, of a table that is not damaged, with no verification failing, writes for
each key the records of its walk and completes with the number of keys and of keys that hit; it changes no table. Of a number or
in a Casement without a copy it completes at once with NOEFFECT, and of a damaged table with the status for it. States that this
completes: LOUVRE_SEARCH. -/
def Obligations.LouvreSearchWritesItsMatches : Prop :=
  ∀ (s : State) (id : Nat) (c : Cmd) (fail : Option (BitVec 32 × Bool)),
    let b := c.entry
    let t := fieldAt b 16 1
    let n := fieldAt b 20 4
    let still := fun d : Dev => d.louvre = s.dev.louvre ∧ d.mem = s.dev.mem ∧ d.host = s.dev.host
    s.dev.serves = true → s.dev.running id opLouvreSearch = some c →
    (s.dev.lvTable t = none → Lands (.louvreSearch id fail) s (fun d => d.ended id 0 (zeros 8 ++ [1] ++ zeros 7) ∧ still d))
    ∧ (∀ x : LvTable, s.dev.lvTable t = some x →
      let cas := searchCas x b
      (bitAt x.mask cas = false ∨ 4 ≤ cas → Lands (.louvreSearch id fail) s (fun d =>
        d.ended id 0 (zeros 8 ++ [1] ++ zeros 7) ∧ still d))
      ∧ (bitAt x.mask cas = true → cas < 4 → s.dev.lvDamaged t = true → Lands (.louvreSearch id fail) s (fun d =>
        d.ended id 0x0702 (zeros 16) ∧ still d))
      ∧ (∀ keys, bitAt x.mask cas = true → cas < 4 → s.dev.lvDamaged t = false →
        s.dev.readSpace (bitAt (fieldAt b 19 1) 0) (fieldAt b 24 8) (16 * n) = .ok keys →
        let ks := (List.range n).map (fun i => fieldAt keys (16 * i) 16 % 2 ^ lvBits x.width)
        let out := ks.flatMap (fun k =>
          (List.range (fieldAt b 18 1)).flatMap (lvResultRecord (s.dev.lvSearch t cas x k) false true))
        let hits := (ks.filter (fun k => decide (s.dev.lvSearch t cas x k ≠ []))).length
        Lands (.louvreSearch id none) s (fun d =>
          d.ended id 0 (result4 n hits 0 0) ∧ d.louvre = s.dev.louvre
          ∧ (bitAt (fieldAt b 19 1) 1 = false → d.host = (s.dev.hostWrite (fieldAt b 32 8) out).host ∧ d.mem = s.dev.mem)
          ∧ (bitAt (fieldAt b 19 1) 1 = true → d.host = s.dev.host))))

/-! ### Sill -/

/-- R205 to R210: a dispatched CACHE_MAINT whose Sills have no fill in flight completes at once with 0x0000 and its counts: a FLUSH
of the lines written, an INVALIDATE or FLUSH_INVALIDATE of those written and dropped, a PRELOAD of those loaded; SKIPPED is set
where a Casement that it names is not in service. With fills in flight it completes so, or stays in flight until the operations
held on them have acted. An INVALIDATE of everything writes nothing back. Assumption log 49 says what of this is the model's choice
or reading. States that these complete: CACHE_FLUSH, CACHE_INVALIDATE, CACHE_FLUSH_INVALIDATE, CACHE_PRELOAD. -/
def Obligations.CacheMaintenanceCompletes : Prop :=
  ∀ (s : State) (id : Nat) (k : Cmd),
    let e := k.entry
    let skipped := (setBits (fieldAt e 18 1) 4).any (fun c => !s.dev.casUp c)
    let free := ∀ c ∈ setBits (fieldAt e 18 1) 4, s.dev.casUp c = true → ∀ b, b < 16 → (s.dev.sbank c b).mrs = []
    let over_ := fun d : Dev =>
      (∃ written dropped loaded, d.ended id 0 (result4 written dropped loaded (b2n skipped)))
      ∨ ∃ m ∈ d.maint, m.cmd = id ∧ 0 < m.waits
    s.dev.serves = true → s.dev.running id opCacheMaint = some k → s.dev.maint.any (fun m => m.cmd = id) = false →
    (free →
      (fieldAt e 16 1 = 0 → Lands (.cacheFlush id) s (fun d =>
        (∃ written, d.ended id 0 (result4 written 0 0 (b2n skipped))) ∧ d.host = s.dev.host))
      ∧ (fieldAt e 16 1 = 1 → Lands (.cacheInvalidate id) s (fun d =>
        (∃ written dropped, d.ended id 0 (result4 written dropped 0 (b2n skipped))
          ∧ (fieldAt e 17 1 = 1 → written = 0 ∧ d.mem = s.dev.mem)) ∧ d.host = s.dev.host))
      ∧ (fieldAt e 16 1 = 2 → Lands (.cacheFlushInvalidate id) s (fun d =>
        (∃ written dropped, d.ended id 0 (result4 written dropped 0 (b2n skipped))) ∧ d.host = s.dev.host))
      ∧ (fieldAt e 16 1 = 3 → Lands (.cachePreload id) s (fun d =>
        (∃ loaded, d.ended id 0 (result4 0 0 loaded (b2n skipped))) ∧ d.host = s.dev.host)))
    ∧ (fieldAt e 16 1 = 0 → Lands (.cacheFlush id) s over_)
    ∧ (fieldAt e 16 1 = 1 → Lands (.cacheInvalidate id) s (fun d => over_ d
        ∧ (fieldAt e 17 1 = 1 → d.mem = s.dev.mem ∧ d.host = s.dev.host)))
    ∧ (fieldAt e 16 1 = 2 → Lands (.cacheFlushInvalidate id) s over_)
    ∧ (fieldAt e 16 1 = 3 → Lands (.cachePreload id) s over_)

/-- R195, R196, R198, R204, R211: a request that hits a line in the sets is served from it, a write's bytes in the line and its
words dirty, and a read of a poisoned line fails the pipeline that asked; one that misses everywhere, and does not write the whole
line, takes a miss register. A served fill without held operations frees its register as it lands, and its line, with what the
merged requests write, is installed where its class has ways; a stream within its distance issues its next line as a prefetch.
Assumption logs 47, 50, 53 and 179 say what of this is the model's choice or reading. States that these complete: SILL_REQUEST,
SILL_FILL_LAND, SILL_PREFETCH. -/
def Obligations.SillServesRequests : Prop :=
  ∀ (s : State) (c : BitVec 2) (ctx : BitVec 8) (node : BitVec 10) (p : BitVec 7) (line : BitVec 35) (cls : SClass)
      (limit : Option (BitVec 35)) (write : List (BitVec 7 × Byte)),
    let b := sillBank line.toNat
    let k := s.dev.sbank c.toNat b
    let set := Sparse.get {} k.sets (sillSet line.toNat)
    let q : SReq := { pane := p.toNat, owner := 1024 * ctx.toNat + node.toNat
                      write := write.map (fun x => (x.1.toNat, x.2)) }
    s.dev.serves = true → s.dev.casUp c.toNat = true → s.dev.halted = false → k.waiting = [] →
    (s.dev.implemented (line.toNat * 128) = true → s.dev.sillInjected c.toNat = none →
      (∀ w l, set.find line.toNat = some (w, l) →
        Brings (.sillRequest c ctx node p line cls limit write none) s (fun d =>
          Sparse.get none (Sparse.get {} (d.sbank c.toNat b).sets (sillSet line.toNat)).ways w
              = some (({ l with prefetched := false }).write q)
          ∧ (d.sbank c.toNat b).mrs = k.mrs ∧ d.oget O.SILL_HITS = (s.dev.oget O.SILL_HITS + 1) % 2 ^ (8 * O.SILL_HITS.size)
          ∧ (write = [] → l.poison ≠ 0 → (s.dev.ctx ctx.toNat).live = true → (d.ctx ctx.toNat).ending = some 0x0703)
          ∧ d.mem = s.dev.mem ∧ d.host = s.dev.host))
      ∧ (set.find line.toNat = none → k.recallable line.toNat = false → (∀ r ∈ k.mrs, r.line ≠ line.toNat) →
        q.whole = false → k.mrs.length < 16 →
        Brings (.sillRequest c ctx node p line cls limit write none) s (fun d =>
          (∃ r ∈ (d.sbank c.toNat b).mrs, r.line = line.toNat ∧ r.reqs = [q] ∧ r.prefetch = false)
          ∧ (d.sbank c.toNat b).mrs.length = k.mrs.length + 1
          ∧ d.oget O.SILL_MISSES = (s.dev.oget O.SILL_MISSES + 1) % 2 ^ (8 * O.SILL_MISSES.size)
          ∧ d.mem.cells = s.dev.mem.cells ∧ d.host = s.dev.host)))
    ∧ (∀ r, k.mrs.find? (fun r => r.line = line.toNat ∧ r.served) = some r → r.held = [] → k.wbuf.length < 16 →
      s.dev.sillCopy c.toNat line.toNat = none →
      let f := r.fill.getD ([], 0)
      let l : SLine := r.reqs.foldl (fun l q => l.write q)
        { line := line.toNat, data := fit 128 f.1, poison := f.2, prefetched := r.prefetch && r.reqs.isEmpty }
      let cls : SClass := if r.reqs.any (fun q => q.write ≠ []) then .table else r.cls
      Brings (.sillFillLand c line) s (fun d =>
        (d.sbank c.toNat b).mrs = k.mrs.erase r ∧ d.host = s.dev.host
        ∧ (s.dev.ways c.toNat cls ≠ 0 → d.mem = s.dev.mem
          ∧ ∃ w, Sparse.get none (Sparse.get {} (d.sbank c.toNat b).sets (sillSet line.toNat)).ways w = some l)))
    ∧ (∀ (bank : BitVec 4) (i : BitVec 6) (v : PfStream) (next : Nat),
      (s.dev.sbank c.toNat bank.toNat).streams[i.toNat]? = some v → s.dev.fgetB (F.SL_CTL_PF_EN c.toNat) = true →
      v.target (s.dev.pfDistance c.toNat) (s.dev.pfConfirm c.toNat) = some next →
      s.dev.sillHolds c.toNat next = false → s.dev.implemented (next * 128) = true →
      ((s.dev.sbank c.toNat (sillBank next)).mrs.filter MissReg.prefetch).length < s.dev.pfLimit c.toNat →
      (s.dev.sbank c.toNat (sillBank next)).mrs.length < 16 →
      Brings (.sillPrefetch c bank i) s (fun d =>
        (∃ r ∈ (d.sbank c.toNat (sillBank next)).mrs, r.line = next ∧ r.prefetch = true ∧ r.reqs = [])
        ∧ d.oget O.SILL_PF_ISSUED = (s.dev.oget O.SILL_PF_ISSUED + 1) % 2 ^ (8 * O.SILL_PF_ISSUED.size)
        ∧ d.mem.cells = s.dev.mem.cells ∧ d.host = s.dev.host))

/-- R200, R215: a write to engine memory from outside the Casements, to lines that no Sill holds and with no channel remapped or
offline, stands at its addresses, and every other byte reads as before; host memory does not change, and unimplemented addresses
go on reading zero. States that this completes: SILL_INVALIDATION. -/
def Obligations.OutsideWritesReachMemory : Prop :=
  ∀ (s : State) (addr : BitVec 42) (bytes : Bytes),
    s.dev.serves = true → s.dev.plainMem addr.toNat bytes.length →
    Lands (.sillInvalidation addr bytes) s (fun d =>
      (∀ i, i < bytes.length → s.dev.implemented (addr.toNat + i) = true → d.engByte (addr.toNat + i) = bytes.getD i 0)
      ∧ (∀ a, a < addr.toNat ∨ addr.toNat + bytes.length ≤ a → d.engByte a = s.dev.engByte a)
      ∧ (∀ a, s.dev.implemented a = false → d.engByte a = 0) ∧ d.host = s.dev.host ∧ d.jamb = s.dev.jamb)

/-! ### Memory controllers -/

/-- R220, R224 to R226: an all-bank refresh of a channel in service closes every row and puts the clamped k in force; a
pseudo-channel or rank without requests enters power-down with its rows closed; a stack or DIMM above 85 °C makes its memory hot,
and it stays so until every one reads 82 °C or less. No byte of memory changes. States that these complete: REFRESH_INTERVAL,
POWER_DOWN_TIMEOUT, MEMORY_HOT. -/
def Obligations.RefreshClosesRows : Prop :=
  ∀ (s : State) (sub : BitVec 8) (rank : BitVec 3) (unit : BitVec 4) (t : BitVec 8),
    let k := sub.toNat
    let idle := fun d : Dev => d.mem.cells = s.dev.mem.cells ∧ d.mem.poison = s.dev.mem.poison ∧ d.host = s.dev.host
    s.dev.serves = true →
    (s.dev.mem.selfRefresh = false → s.dev.chanUp (subChannel k) = true →
      Lands (.refreshInterval sub) s (fun d =>
        (∀ b, b < 256 → (d.mbank (mbankKey k b)).open_ = none)
        ∧ (d.sub k).activeK = clampK (s.dev.fget (if 192 ≤ k then F.MC_CTL_FAR_K else F.MC_CTL_NEAR_K)) ∧ idle d)
      ∧ (s.dev.fget (if k < 192 then F.MC_PD_NEAR_NS else F.MC_PD_FAR_NS) ≠ 0 →
        rank.toNat < (if k < 192 then 1 else s.dev.mem.farRanks) →
        (∀ b ∈ s.dev.mem.banks, b.1 / 256 = k → s.dev.rankOf k (b.1 % 256) = rank.toNat → b.2.queue = []) →
        Lands (.powerDownTimeout sub rank) s (fun d =>
          bitAt (d.sub k).powerDown rank.toNat = true
          ∧ (∀ b, b < 256 → s.dev.rankOf k b = rank.toNat → (d.mbank (mbankKey k b)).open_ = none) ∧ idle d)))
    ∧ Gives (.memoryHot unit t) s (fun d => idle d
      ∧ (85 < t.toNat → (if unit.toNat < 6 then d.mem.nearHot else d.mem.farHot) = true)
      ∧ (unit.toNat < 6 → t.toNat ≤ 82 → (∀ p ∈ s.dev.mem.nearTemp, p.2 ≤ 82) → d.mem.nearHot = false))

/-- R221, R223: a controller that is not held serves one request of a bank that has one ready: the request leaves its bank's
queue, which else at most grows, and its row is the bank's open one. Where no request waits in a Sill no other bank changes, and,
the data of the request having counted from its arrival (R222), memory keeps what it holds. Assumption logs 47 and 48 say what of
this is the model's choice or reading. States that this completes: MEMORY_REQUEST. -/
def Obligations.ControllersServeOneRequest : Prop :=
  ∀ (s : State) (sub : BitVec 8) (b hits : Nat) (q : MReq),
    let e := s.dev.mcUpstream sub.toNat
    let x := e.sub sub.toNat
    let n := e.writesAt sub.toNat
    let writing := if 12 ≤ n then true else if n ≤ 4 then false else x.writing
    let key := mbankKey sub.toNat b
    s.dev.serves = true → s.dev.subBlocked sub.toNat = false →
    ((List.range 256).map (fun i => (x.lastBank + 1 + i) % 256)).findSome? (fun b =>
      ((e.mbank (mbankKey sub.toNat b)).pick writing).map (fun p => (b, p))) = some (b, (q, hits)) →
    e.memInjected (decide (192 ≤ sub.toNat)) = none →
    Brings (.memoryRequest sub none) s (fun d =>
      (e.mbank key).queue.erase q <+: (d.mbank key).queue ∧ (d.mbank key).open_ = some q.row
      ∧ (d.sub sub.toNat).lastBank = b ∧ (d.sub sub.toNat).writing = writing ∧ d.host = s.dev.host
      ∧ ((∀ p ∈ s.dev.sill, p.2.waiting = []) → (d.mbank key).queue = (e.mbank key).queue.erase q
        ∧ (∀ j, j ≠ key → d.mbank j = e.mbank j) ∧ d.mem.cells = e.mem.cells))

/-- R229, R230, R233, R234: a retrain that software asks for waits behind those of its memory, and runs if it is alone; one that
passes returns its channel to service, is counted, sets MC_RETRAIN.DONE where software asked for it, and lets the next run; one
that fails for the first time sets FAIL and is repeated. The end of a copy into the reserve leaves the channel remapped. A
patrol scrub pass is counted and changes no byte. Assumption logs 46 and 54 say what of this is the model's choice or reading.
States that these complete: MC_RETRAIN_GO, MEMORY_RETRAIN_DONE, REMAP_COPY_DONE, PATROL_SCRUB_PASS. -/
def Obligations.RetrainsRunInTurn : Prop :=
  ∀ (s : State) (ch : BitVec 7) (far : Bool) (found : List (BitVec 35 × MemErr)),
    let n := ch.toNat
    let away := decide (96 ≤ n)
    s.dev.serves = true →
    (n < 104 → s.dev.chanUp n = true → (s.dev.retrains away).contains n = false → (s.dev.chan n).state < 2 →
      Lands (.mcRetrainGo (.software ch)) s (fun d =>
        d.retrains away = s.dev.retrains away ++ [n] ∧ (d.chan n).requested = true
        ∧ (s.dev.retrains away = [] → (d.chan n).state = 1) ∧ d.mem.cells = s.dev.mem.cells))
    ∧ (∀ first rest, s.dev.retrains far = first :: rest →
      (rest.contains first = false → Lands (.memoryRetrainDone far true) s (fun d =>
        d.retrains far = rest ∧ (d.chan first).state = 0 ∧ (d.chan first).trainedAt = s.dev.chanTemp first
        ∧ (∀ next more, rest = next :: more → (d.chan next).state = 1)
        ∧ ((s.dev.chan first).requested = true → d.fget F.MC_RETRAIN_DONE = 1)
        ∧ d.oget O.RETRAINS = (s.dev.oget O.RETRAINS + 1) % 2 ^ (8 * O.RETRAINS.size) ∧ d.mem.cells = s.dev.mem.cells))
      ∧ ((s.dev.chan first).retried = false → Brings (.memoryRetrainDone far false) s (fun d =>
        d.retrains far = s.dev.retrains far ∧ (d.chan first).retried = true ∧ d.fget F.MC_RETRAIN_FAIL = 1
        ∧ d.mem.cells = s.dev.mem.cells)))
    ∧ (∀ first rest r, first < 96 → s.dev.mem.remaps = first :: rest → (s.dev.chan first).reserveAt = some r →
      Lands .remapCopyDone s (fun d => (d.chan first).state = 3 ∧ d.mem.remaps = rest
        ∧ d.oget (O.CH_STATE first) = 3))
    ∧ (s.dev.fgetB F.MC_CTL_SCRUB_EN = true → s.dev.mem.selfRefresh = false →
      Brings (.patrolScrubPass found) s (fun d =>
        d.oget O.SCRUB_PASSES = (s.dev.oget O.SCRUB_PASSES + 1) % 2 ^ (8 * O.SCRUB_PASSES.size)
        ∧ d.mem.cells = s.dev.mem.cells ∧ d.host = s.dev.host))

/-! ### Transom -/

/-- R355: a write of a higher epoch whose staged membership holds the engine's own node, and whose peer-table entries are all
valid, puts the epoch and its members in force, each with the addresses of its entry and not lost, and fails the running
pipelines that use the fabric and whose own epoch holds a node that has left; any other write sets TR_STAT.COMMIT_ERR and
changes no membership. Assumption logs 122 and 127 say what of this is the model's choice or reading. States that this completes:
EPOCH_COMMIT. -/
def Obligations.EpochsAreCommitted : Prop :=
  ∀ (s : State) (epoch : BitVec 32), s.dev.serves = true →
    let new := setBits (s.dev.oget O.MEMBER_STAGE) 8192
    let ok := s.dev.netUp = true ∧ s.dev.net.epoch < epoch.toNat ∧ s.dev.nodeId ∈ new
      ∧ ∀ n ∈ new, entryValid (s.dev.peerEntry n) = true
    (ok → Lands (.epochCommit epoch) s (fun d =>
      d.net.epoch = epoch.toNat ∧ d.net.members = new
      ∧ (∀ n ∈ new, d.peer n = (s.dev.peer n).ofEntry (s.dev.peerEntry n)) ∧ (∀ n, n ∉ new → d.peer n = {})
      ∧ (∀ c, (s.dev.ctx c).active = true → (s.dev.ctx c).prog.fabric = true → (s.dev.ctx c).ending = none →
          (∃ n ∈ (s.dev.ctx c).members, n ∉ new) → (d.ctx c).ending = some 0x0501)
      ∧ d.jamb = s.dev.jamb ∧ d.host = s.dev.host))
    ∧ (¬ ok → Lands (.epochCommit epoch) s (fun d =>
      d.fget F.TR_STAT_COMMIT_ERR = 1 ∧ d.net = s.dev.net ∧ d.pipes = s.dev.pipes ∧ d.jamb = s.dev.jamb
      ∧ d.host = s.dev.host))

/-- R357 to R362, R368, R369, R372, R374: frames on a port whose link is up. One that is damaged, or does not read as R358 says,
is dropped and counted. One of a member, addressed to the engine, takes the frames it acknowledges out of the stream; a DATA,
END or PUT is accepted only where its FSEQ is the one expected. An accepted DATA of an unknown flow is counted; one of a known
flow at its epoch joins its strip, and a strip that is whole and next goes to the SHUFFLE_IN; an END gives its sender's count; a
CREDIT returns credit; a PUT_ACK takes one frame off its PUT channel, which ends with the last; a REJECT fails the pipeline of
its flow that runs at the epoch rejected; a CANCEL ends the contexts of its query, but those whose end a flush has fixed (R270);
and a PUT to memory that no Sill holds stands there. Assumption logs 115, 116, 118 to 121 and 123 say what of this is the model's
choice or reading. States that these complete: DATA_FRAME_RX, END_FRAME_RX, CREDIT_FRAME_RX, PUT_ACK_RX, HELLO_RX, REJECT_RX,
CANCEL_FRAME_RX, PUT_FRAME_RX. -/
def Obligations.FramesOfMembersAreReceived : Prop :=
  ∀ (s : State) (port : BitVec 1) (b : Bytes),
    s.dev.serves = true → s.dev.halted = false → bitAt s.dev.net.links port.toNat = true → s.dev.netUp = true →
    (∀ good, (good = false ∨ parseFrame b = none) →
      let dropped := fun d : Dev =>
        d.oget O.FRAMES_DROPPED = (s.dev.oget O.FRAMES_DROPPED + 1) % 2 ^ (8 * O.FRAMES_DROPPED.size)
        ∧ d.net = s.dev.net ∧ d.pipes = s.dev.pipes ∧ d.jamb = s.dev.jamb ∧ d.host = s.dev.host
      Lands (.dataFrameRx port good b) s dropped ∧ Lands (.endFrameRx port good b) s dropped
      ∧ Lands (.creditFrameRx port good b) s dropped ∧ Lands (.putAckRx port good b) s dropped
      ∧ Lands (.helloRx port good b) s dropped ∧ Lands (.rejectRx port good b) s dropped
      ∧ Lands (.cancelFrameRx port good b) s dropped)
    ∧ ∀ f : Frame, parseFrame b = some f → f.dst = s.dev.nodeId → f.src ∈ s.dev.net.members →
      let p := s.dev.peer f.src
      let left := p.unacked.filter (fun g => decide ((g.fseq + 2 ^ 32 - f.ack) % 2 ^ 32 < 2 ^ 31))
      let acked := fun d : Dev => (d.peer f.src).unacked = left
      let next := fun d : Dev => acked d ∧ (d.peer f.src).rxSeq = (p.rxSeq + 1) % 2 ^ 32
      let idle := fun d : Dev => d.pipes = s.dev.pipes ∧ d.jamb = s.dev.jamb ∧ d.host = s.dev.host
      let credited := s.dev.net.tx.map (fun t => if t.flow = f.flow
        then { t with credit := Sparse.set 0 t.credit f.src (Sparse.get 0 t.credit f.src + f.credits) } else t)
      let ends := fun (c st : Nat) (d : Dev) =>
        (s.dev.ctx c).active = true → (s.dev.ctx c).ending = none → (d.ctx c).ending = some st
      (f.type = 6 → Lands (.helloRx port true b) s (fun d => acked d ∧ idle d ∧ d.net.rx = s.dev.net.rx))
      ∧ (f.type = 3 → (∀ c, s.dev.flowCtx f.flow = some c → (s.dev.ctx c).epoch = f.epoch) →
        Lands (.creditFrameRx port true b) s (fun d => acked d ∧ idle d ∧ d.net.tx = credited))
      ∧ (∀ c, f.type = 3 → s.dev.flowCtx f.flow = some c → (s.dev.ctx c).epoch ≠ f.epoch →
        Brings (.creditFrameRx port true b) s (ends c 0x0502))
      ∧ (f.type = 1 → f.fseq ≠ p.rxSeq → Lands (.dataFrameRx port true b) s (fun d =>
        acked d ∧ idle d ∧ (d.peer f.src).rxSeq = p.rxSeq ∧ d.net.rx = s.dev.net.rx ∧ d.net.tx = s.dev.net.tx))
      ∧ (f.type = 1 → f.fseq = p.rxSeq → s.dev.flowCtx f.flow = none → s.dev.rxFlow f.flow = none →
        Lands (.dataFrameRx port true b) s (fun d => next d ∧ idle d
          ∧ d.oget O.FLOW_UNKNOWN = (s.dev.oget O.FLOW_UNKNOWN + 1) % 2 ^ (8 * O.FLOW_UNKNOWN.size)))
      ∧ (∀ (r : RxFlow) (x : RxSender), s.dev.rxFlow f.flow = some r → r.senders.find? (fun x => x.node = f.src) = some x →
        (s.dev.ctx r.ctx).epoch = f.epoch → f.fseq = p.rxSeq →
        (f.type = 1 → (x.place f).ready = none → Lands (.dataFrameRx port true b) s (fun d => next d ∧ idle d
          ∧ (d.rxFlow f.flow).bind (fun r => r.senders.find? (fun x => x.node = f.src)) = some (x.place f)
          ∧ d.net.tx = credited))
        ∧ (∀ (z : RxStrip) (v : Bytes), f.type = 1 → f.tag = x.next → (∀ z ∈ x.strips, z.tag = x.next) →
          (x.place f).ready = some (z, v) → r.node < (s.dev.ctx r.ctx).nodes.length →
          let nd := (s.dev.ctx r.ctx).prog.node r.node
          fieldAt v 16 8 = schemaSum nd.schema →
          Brings (.dataFrameRx port true b) s (fun d => next d
            ∧ ((d.ctx r.ctx).node r.node).rx = ((s.dev.ctx r.ctx).node r.node).rx
              ++ [denseStrip (tagOf r.ctx r.node (r.emitted * 256)) (deserialize nd.schema v) (nd.schema.map (fun _ => 0))]))
        ∧ (f.type = 2 → Lands (.endFrameRx port true b) s (fun d => next d ∧ idle d
          ∧ (d.rxFlow f.flow).bind (fun r => r.senders.find? (fun x => x.node = f.src)) = some { x with count := some f.tag })))
      ∧ (∀ (n : Nat) (x : Put), f.type = 5 → s.dev.net.puts.find?
          (fun q => q.2.busy && q.2.node == f.src && q.2.dst == f.tag && !q.2.open_.isEmpty) = some (n, x) → x.len ≤ x.sent →
        Lands (.putAckRx port true b) s (fun d => idle d
          ∧ (x.open_.tail ≠ [] → d.putChan n = { x with open_ := x.open_.tail })
          ∧ (x.open_.tail = [] → d.putChan n = {} ∧ d.fget (F.TR_PUT_STAT_DONE n) = 1)))
      ∧ (∀ c, f.type = 7 → s.dev.flowCtx f.flow = some c → (s.dev.ctx c).epoch = fieldAt f.payload 0 4 →
        Brings (.rejectRx port true b) s (fun d => acked d ∧ ends c 0x0502 d))
      ∧ (f.type = 8 → Brings (.cancelFrameRx port true b) s (fun d =>
        (∀ c, (s.dev.ctx c).prog.fabric = true → (s.dev.ctx c).prog.query = sliceAt f.payload 0 16 →
          ((s.dev.ctx c).state = 2 ∨ (s.dev.ctx c).state = 4 → (s.dev.ctx c).ending ≠ some 0x0401 → (d.ctx c).state = 3)
          ∧ ((s.dev.ctx c).state = 5 → (d.ctx c).state = 7))
        ∧ cancelOf f.payload ∈ d.net.remembered
        ∧ d.oget O.CANCELS_RX = (s.dev.oget O.CANCELS_RX + 1) % 2 ^ (8 * O.CANCELS_RX.size)))
      ∧ (f.type = 4 → f.fseq = p.rxSeq → s.dev.fget F.TEST_CTL_MODE = 0 →
        s.dev.plainMem (f.tag + f.off) f.payload.length →
        Brings (.putFrameRx port true b false) s (fun d => next d ∧ d.host = s.dev.host
          ∧ (∀ i, i < f.payload.length → s.dev.implemented (f.tag + f.off + i) = true →
              d.engByte (f.tag + f.off + i) = f.payload.getD i 0)
          ∧ ∀ a, a < f.tag + f.off ∨ f.tag + f.off + f.payload.length ≤ a → d.engByte a = s.dev.engByte a))

/-- R360 to R362, R371, R372: after a retransmission timeout every frame the peer has not acknowledged goes out again; an
acknowledgement or credit that is owed goes out in a CREDIT frame; a HELLO goes to a peer that shares a flow; a peer that has
been silent too long, or has not acknowledged for RETX_LIMIT rounds, is lost, once, and the pipelines of the fabric that it is a
member of fail; an owed cancel goes to its targets, and is repeated; and the oldest remembered cancel is forgotten. A frame goes
out, or is kept while its class is paused or its links are down. Assumption logs 123 and 126 say what of this is the model's
choice or reading. States that these complete: RETX_TIMEOUT, CREDIT_ACK_TIMEOUT, HELLO_TIMER, PEER_LOST, FABRIC_CANCEL_SEND,
CANCEL_REPEAT_TIMER, CANCEL_MEMORY_EXPIRY. -/
def Obligations.FabricTimersSendAndGiveUp : Prop :=
  ∀ (s : State) (node : BitVec 13) (silent : Bool), s.dev.serves = true → s.dev.halted = false →
    let n := node.toNat
    let p := s.dev.peer n
    let goes := fun (d : Dev) (f : Frame) =>
      (∃ port, Out.frame (s.dev.carriage f port) f.bytes ∈ d.out) ∨ f ∈ d.net.txq
    let idle := fun d : Dev => d.pipes = s.dev.pipes ∧ d.mem = s.dev.mem ∧ d.host = s.dev.host
    let lost := if silent then s.dev.sharesFlow n else !p.unacked.isEmpty && decide (s.dev.retxLimit ≤ p.rounds)
    (p.unacked ≠ [] → Lands (.retxTimeout node) s (fun d =>
      (∀ f ∈ p.unacked, goes d { f with ack := p.rxSeq }) ∧ (d.peer n).unacked = p.unacked ∧ (d.peer n).rounds = p.rounds + 1
      ∧ d.oget O.RETRANSMITS = (s.dev.oget O.RETRANSMITS + 1) % 2 ^ (8 * O.RETRANSMITS.size) ∧ idle d))
    ∧ (s.dev.netUp = true → p.ackDue = true → Lands (.creditAckTimeout node) s (fun d =>
      (∃ f : Frame, goes d f ∧ f.type = 3 ∧ f.dst = n ∧ f.ack = p.rxSeq) ∧ (d.peer n).ackDue = false ∧ idle d))
    ∧ (s.dev.netUp = true → s.dev.sharesFlow n = true → Lands (.helloTimer node) s (fun d =>
      (∃ f : Frame, goes d f ∧ f.type = 6 ∧ f.dst = n ∧ f.ack = p.rxSeq) ∧ idle d))
    ∧ (s.dev.sharesFlow n = false → Lands (.helloTimer node) s (fun d => d = s.dev))
    ∧ (n ∈ s.dev.net.members → p.lost = false → lost = true → Brings (.peerLost node silent) s (fun d =>
      (d.peer n).lost = true ∧ d.oget O.PEERS_LOST = (s.dev.oget O.PEERS_LOST + 1) % 2 ^ (8 * O.PEERS_LOST.size)
      ∧ (∀ c, (s.dev.ctx c).active = true → (s.dev.ctx c).prog.fabric = true → (s.dev.ctx c).ending = none →
          n ∈ (s.dev.ctx c).members → (d.ctx c).ending = some 0x0501)
      ∧ d.mem = s.dev.mem ∧ d.host = s.dev.host))
    ∧ (n ∉ s.dev.net.members ∨ p.lost = true ∨ lost = false → Lands (.peerLost node silent) s (fun d => d = s.dev))
    ∧ (∀ i dsts rest, s.dev.netUp = true → s.dev.net.cancels = (i, dsts) :: rest → Lands .fabricCancelSend s (fun d =>
      (∀ k ∈ dsts, ∃ f : Frame, goes d f ∧ f.type = 8 ∧ f.cls = 7 ∧ f.dst = k ∧ f.payload = i.payload)
      ∧ d.net.cancels = rest ∧ i ∈ d.net.remembered ∧ idle d))
    ∧ (∀ r rest, s.dev.netUp = true → s.dev.net.repeats = r :: rest → Lands .cancelRepeatTimer s (fun d =>
      (∀ k ∈ r.dsts, ∃ f : Frame, goes d f ∧ f.type = 8 ∧ f.cls = 7 ∧ f.dst = k ∧ f.payload = r.id.payload)
      ∧ d.net.repeats = rest ++ (if 1 < r.left then [{ r with left := r.left - 1 }] else []) ∧ idle d))
    ∧ Gives .cancelMemoryExpiry s (fun d => d = { s.dev with net := { s.dev.net with remembered := s.dev.net.remembered.tail } })

/-- R353, R362, R363, R365, R374: a port's link goes down or comes up, and nothing stays paused there; a pause frame pauses and
resumes the classes it names and no other; a PUT channel that is free starts with the frames it may send, or ends at once, with
ERR where its target is no member, and a busy one takes no notice; a SHUFFLE_OUT sends of its closed strip the fragments that
credit allows, and END to its destinations once its input has ended and its strips have gone. Assumption logs 89, 91, 117, 124
and 125 say what of this is the model's choice or reading. States that these complete: FABRIC_PORT_LINK_CHANGE, PFC_PAUSE_RX,
TR_PUT_GO, SHUFFLE_STRIP_SEND. -/
def Obligations.PortsPutsAndShufflesMove : Prop :=
  ∀ (s : State) (port : BitVec 1) (up : Bool) (named paused : BitVec 7) (ch : BitVec 2) (node : BitVec 13) (reg : Bool)
      (c : BitVec 8) (n : BitVec 10) (t : TxFlow),
    let e := s.dev
    let goes := fun (d : Dev) (f : Frame) => (∃ port, Out.frame (e.carriage f port) f.bytes ∈ d.out) ∨ f ∈ d.net.txq
    let idle := fun d : Dev => d.pipes = e.pipes ∧ d.jamb = e.jamb ∧ d.mem = e.mem ∧ d.host = e.host
    let limit := e.payloadLimit
    let src := e.fget (F.TR_PUT_SRC_LO_ADDR ch.toNat) + e.fget (F.TR_PUT_SRC_HI_ADDR ch.toNat) * 2 ^ 32
    let len := e.fget (F.TR_PUT_LEN_LEN ch.toNat)
    let refused := e.netUp = false ∨ node.toNat ∉ e.net.members ∨ (e.peer node.toNat).lost = true
    e.serves = true →
    (bitAt e.net.links port.toNat ≠ up → Brings (.fabricPortLinkChange port up) s (fun d =>
      bitAt d.net.links port.toNat = up ∧ Sparse.get 0 d.net.paused port.toNat = 0 ∧ (∀ f ∈ e.net.txq, goes d f)
      ∧ bitAt d.net.links (1 - port.toNat) = bitAt e.net.links (1 - port.toNat) ∧ d.pipes = e.pipes ∧ d.mem = e.mem))
    ∧ (e.halted = false → bitAt e.net.links port.toNat = true → Lands (.pfcPauseRx port named paused) s (fun d =>
      (∀ k, k < 7 → bitAt (Sparse.get 0 d.net.paused port.toNat) k
        = if bitAt named.toNat k then bitAt paused.toNat k else bitAt (Sparse.get 0 e.net.paused port.toNat) k)
      ∧ (∀ f ∈ e.net.txq, goes d f) ∧ idle d))
    ∧ (e.halted = false → (e.putChan ch.toNat).busy = false →
      (refused → Lands (.trPutGo ch node reg) s (fun d => d.fget (F.TR_PUT_STAT_DONE ch.toNat) = 1
        ∧ d.fget (F.TR_PUT_STAT_ERR ch.toNat) = 1 ∧ (d.putChan ch.toNat).busy = false ∧ idle d))
      ∧ (¬ refused → len = 0 → Lands (.trPutGo ch node reg) s (fun d =>
        d.fget (F.TR_PUT_STAT_DONE ch.toNat) = 1 ∧ (d.putChan ch.toNat).busy = false ∧ idle d))
      ∧ (¬ refused → 0 < len → (∀ o k, o + k ≤ len → e.poisoned (src + o) k = false) →
        Lands (.trPutGo ch node reg) s (fun d =>
          (d.putChan ch.toNat).busy = true ∧ (d.putChan ch.toNat).node = node.toNat ∧ (d.putChan ch.toNat).reg = reg
          ∧ (d.putChan ch.toNat).len = len ∧ (d.putChan ch.toNat).sent = min len (64 * limit)
          ∧ (∀ i, i < 64 → i * limit < len → ∃ f : Frame, goes d f ∧ f.type = 4 ∧ f.dst = node.toNat ∧ f.off = i * limit
              ∧ f.frag = i ∧ f.payload = e.engBytes (src + i * limit) (min limit (len - i * limit))) ∧ idle d)))
    ∧ (e.halted = false → (e.putChan ch.toNat).busy = true → Lands (.trPutGo ch node reg) s (fun d => d.net = e.net ∧ idle d))
    ∧ (e.halted = false → e.netUp = true → e.txFlow c.toNat n.toNat = some t →
      (∀ x : TxStrip, t.inputOver = false → t.strips = [x] → x.dst ≠ e.nodeId → x.sent = 0 →
        let count := ceilDiv x.bytes.length limit
        let k := min (Sparse.get 0 t.credit x.dst) count
        Lands (.shuffleStripSend c n) s (fun d =>
          (∃ u, d.txFlow c.toNat n.toNat = some u ∧ u.strips = (if count ≤ k then [] else [{ x with sent := k }])
            ∧ Sparse.get 0 u.credit x.dst = Sparse.get 0 t.credit x.dst - k)
          ∧ (∀ i, i < k → ∃ f : Frame, goes d f ∧ f.type = 1 ∧ f.dst = x.dst ∧ f.flow = t.flow ∧ f.tag = x.num ∧ f.frag = i
              ∧ f.epoch = (e.ctx c.toNat).epoch ∧ f.payload = (x.bytes.drop (i * limit)).take limit) ∧ idle d))
      ∧ (t.inputOver = true → t.strips = [] → Lands (.shuffleStripSend c n) s (fun d =>
        (∃ u, d.txFlow c.toNat n.toNat = some u
          ∧ ∀ k ∈ shuffleNodes ((e.ctx c.toNat).prog.node n.toNat).param, k ∈ u.ended)
        ∧ (∀ k ∈ shuffleNodes ((e.ctx c.toNat).prog.node n.toNat).param, k ≠ e.nodeId → k ∉ t.ended →
          ∃ f : Frame, goes d f ∧ f.type = 2 ∧ f.dst = k ∧ f.flow = t.flow ∧ f.tag = Sparse.get 0 t.counts k) ∧ idle d)))

/-! ### Sash -/

/-- R379 to R390, R396: a Sash frame that arrives over a link that is up while the chain works is counted; one that R381 drops
is counted as dropped; any other that is not for the engine alone is relayed on the other port, its HOPS raised. ENUMERATE gives
the engine its address, or none beyond 0xFFE, and is answered; a READ from offset 0 is answered with the first bytes of the
value, which is kept while there are more; a WRITE that comes whole is applied and answered, one of which more is to come is
kept, and one that does not continue what is kept is answered SEQUENCE; a request beyond eight is answered BUSY; a CANCEL ends
the contexts of its query, but those whose end a flush has fixed (R270), unless CANCEL_RX is cleared. Assumption logs 31 to 33,
37 and 40 say what of this is the model's choice or reading. States that these complete: SASH_READ, SASH_WRITE, ENUMERATE,
SASH_CANCEL_RX, SASH_RELAY. -/
def Obligations.ChainFramesAreServed : Prop :=
  ∀ (s : State) (out : Bool) (bytes : Bytes),
    let e := s.dev.ocount O.SASH_FRAMES_RX 1
    let others := fun d : Dev => d.pipes = s.dev.pipes ∧ d.jamb = s.dev.jamb ∧ d.mem = s.dev.mem ∧ d.host = s.dev.host
    s.dev.chainLive = true → bitAt s.dev.sash.links (b2n out) = true → sashFrame bytes = true →
    (parseSash bytes = none →
      let dropped := fun d : Dev => d = e.ocount O.SASH_FRAMES_DROPPED 1
      Lands (.sashRead out bytes) s dropped ∧ Lands (.sashWrite out bytes) s dropped ∧ Lands (.enumerate out bytes) s dropped
      ∧ Lands (.sashCancelRx out bytes) s dropped ∧ Lands (.sashRelay out bytes) s dropped)
    ∧ ∀ m : SashMsg, parseSash bytes = some m → m.wrongWay out = false →
      let r := e.relay out bytes m
      let b := m.body
      let index := fieldAt b 0 2
      let sub := fieldAt b 2 1
      let sends := fun (d : Dev) (a : SashMsg) =>
        d.out = r.out ++ [Out.sash false (etherFrame sashGroup s.dev.sashMac a.payload)]
      let served := wellBodied m = true ∧ s.dev.heldCount < 8 ∧ s.dev.life.handoff = none ∧ s.dev.sash.addr ≠ 0
      (s.dev.sashAct m = .none → Lands (.sashRelay out bytes) s (fun d =>
        d.out = (if s.dev.relays m = true ∧ bitAt s.dev.sash.links (b2n (!out)) = true
          then s.dev.out ++ [Out.sash (!out) (hopped bytes m)] else s.dev.out)
        ∧ d.sash = s.dev.sash ∧ others d))
      ∧ (s.dev.sashAct m = .enumerate → Lands (.enumerate out bytes) s (fun d =>
        let a := fieldAt b 0 2 + m.hops
        d.sash.addr = (if 0xFFE < a then 0 else a) ∧ d.sash.hops = m.hops ∧ (∃ a, sends d a ∧ a.type = 0x90 ∧ a.tid = m.tid)
        ∧ others d))
      ∧ (s.dev.sashAct m = .read → served → fieldAt b 4 4 = 0 → Lands (.sashRead out bytes) s (fun d =>
        let v := r.dictValue index sub
        let part := v.take (min 1468 (fieldAt b 12 2))
        sends d (m.answer s.dev.sash.addr 0 v.length false part)
        ∧ d.sash.snap = (if part.length < v.length then some (m.tid, objKey index sub, v) else none) ∧ others d))
      ∧ (s.dev.sashAct m = .write → served →
        (∀ a, s.dev.sash.asm = some a → a.tid ≠ m.tid) →
        let piece := (b.drop 16).take (fieldAt b 12 2)
        (fieldAt b 4 4 ≠ 0 → Lands (.sashWrite out bytes) s (fun d =>
          sends d (m.answer s.dev.sash.addr 2 0 false []) ∧ d.sash.asm = none ∧ others d))
        ∧ (fieldAt b 4 4 = 0 → piece.length < fieldAt b 8 4 → Lands (.sashWrite out bytes) s (fun d =>
          sends d (m.answer s.dev.sash.addr 0 piece.length false [])
          ∧ d.sash.asm = some { tid := m.tid, key := objKey index sub, total := fieldAt b 8 4, bytes := piece } ∧ others d))
        ∧ (fieldAt b 4 4 = 0 → piece.length = fieldAt b 8 4 → s.dev.recovering = false → index ≠ 0x20B0 →
          writeJudge index sub piece.length = .stored → writePersists index sub piece = false →
          Brings (.sashWrite out bytes) s (fun d =>
            let w := (({ r with sash := { r.sash with asm := none } }.ocount O.DICT_WRITES 1).wake).writeObj index sub piece
            d = w.respond (m.answer s.dev.sash.addr 0 piece.length true []))))
      ∧ (wellBodied m = true → 8 ≤ s.dev.heldCount → s.dev.sash.addr ≠ 0 →
        let busy := fun d : Dev => sends d (m.answer s.dev.sash.addr 3 0 false []) ∧ d.sash = s.dev.sash ∧ others d
        (s.dev.sashAct m = .read → Lands (.sashRead out bytes) s busy)
        ∧ (s.dev.sashAct m = .write → Lands (.sashWrite out bytes) s busy))
      ∧ (s.dev.sashAct m = .cancel →
        Brings (.sashCancelRx out bytes) s (fun d =>
          (s.dev.oget O.CANCEL_RX = 0 → others d)
          ∧ (s.dev.oget O.CANCEL_RX ≠ 0 →
            (∀ c, (s.dev.ctx c).prog.fabric = true → (s.dev.ctx c).prog.query = sliceAt b 0 16 →
              ((s.dev.ctx c).state = 2 ∨ (s.dev.ctx c).state = 4 → (s.dev.ctx c).ending ≠ some 0x0401 → (d.ctx c).state = 3)
              ∧ ((s.dev.ctx c).state = 5 → (d.ctx c).state = 7))
            ∧ cancelOf b ∈ d.net.remembered)
          ∧ d.oget O.SASH_CANCELS_RX = (s.dev.oget O.SASH_CANCELS_RX + 1) % 2 ^ (8 * O.SASH_CANCELS_RX.size)))

/-- R385, R388, R391 to R394: a chain link that changes is taken note of, a change of chain-out announced upstream; an idle
snapshot or assembly is given up; the dictionary window reads an object into its data words with the object's length, and writes
one from them, setting APPLIED, or LENERR where the length is another; the end of a persist leaves a newest copy with every
persisted object, and nothing under way; a restore puts every persisted object at its default and is itself persisted.
Assumption logs 35, 36 and 38 say what of this is the model's choice or reading. States that these complete: SASH_LINK_CHANGE,
SASH_SNAPSHOT_TIMEOUT, DICT_READ, DICT_WRITE, RWP_PERSIST_DONE, RESTORE_DEFAULTS. -/
def Obligations.WindowsLinksAndPersists : Prop :=
  ∀ (s : State) (out up assembly : Bool),
    let e := s.dev
    let index := e.fget F.DICT_ADDR_INDEX
    let sub := e.fget F.DICT_ADDR_SUB
    let len := e.fget F.DICT_LEN_LEN
    let bytes := e.windowBytes len
    let opens := e.powered = true ∧ e.recovering = false ∧ e.fgetB F.DICT_STAT_BUSY = false
      ∧ e.fget F.DICT_CTL_RSV8 = 0xD1 ∧ e.life.handoff = none
    (e.chainLive = true → bitAt e.sash.links (b2n out) ≠ up → Brings (.sashLinkChange out up) s (fun d =>
      bitAt d.sash.links (b2n out) = up ∧ bitAt d.sash.links (b2n (!out)) = bitAt e.sash.links (b2n (!out))
      ∧ (out = true → e.oget O.NOTIFY_EN ≠ 0 → bitAt e.sash.links 0 = true →
        ∃ l, d.out = l ++ [Out.sash false (etherFrame sashGroup e.sashMac
          { type := 0xA0, flags := 1, src := e.sash.addr
            body := leBytes 1 (if up then 1 else 2) ++ zeros 1 ++ leBytes 2 e.sash.addr : SashMsg }.payload)])
      ∧ d.pipes = e.pipes ∧ d.mem = e.mem ∧ d.host = e.host))
    ∧ Gives (.sashSnapshotTimeout assembly) s (fun d => d = { e with sash :=
        if assembly then { e.sash with asm := none } else { e.sash with snap := none } })
    ∧ (opens →
      (let v := ((e.fputB F.DICT_STAT_BUSY true).fputB F.DICT_CTL_READ true).dictValue index sub
       v.length ≤ 4096 → Lands .dictRead s (fun d =>
        d.windowBytes v.length = v ∧ d.fget F.DICT_TOTAL_TOTAL = v.length ∧ d.fget F.DICT_STAT_BUSY = 0
        ∧ d.fget F.DICT_STAT_DONE = 1 ∧ d.pipes = e.pipes ∧ d.jamb = e.jamb ∧ d.mem = e.mem ∧ d.host = e.host))
      ∧ (len ≤ 4096 → index ≠ 0x20B0 → writeJudge index sub len = .stored → writePersists index sub bytes = false →
        Brings .dictWrite s (fun d =>
          let w := ((((e.fputB F.DICT_STAT_BUSY true).fputB F.DICT_CTL_WRITE true).ocount O.DICT_WRITES 1).wake).writeObj index sub bytes
          d.fget F.DICT_STAT_APPLIED = 1 ∧ d.fget F.DICT_STAT_BUSY = 0 ∧ d.fget F.DICT_STAT_DONE = 1 ∧ d.objs = w.objs
          ∧ d.pipes = w.pipes ∧ d.net = w.net ∧ d.jamb = w.jamb))
      ∧ (len ≤ 4096 → writeJudge index sub len = .length → Lands .dictWrite s (fun d =>
        d.fget F.DICT_STAT_APPLIED = 0 ∧ d.fget F.DICT_STAT_LENERR = 1 ∧ d.fget F.DICT_STAT_BUSY = 0 ∧ d.pipes = e.pipes
        ∧ d.objs = (e.ocount O.DICT_WRITES 1).objs)))
    ∧ (∀ a, e.chainLive = true → e.sash.persist = some a → e.sash.held = [] → Lands .rwpPersistDone s (fun d =>
      d.sash.persist = none ∧ d.life.newest = some { seq := (e.life.newest.map Persisted.seq).getD 0 + 1, objs := e.rwpObjs }
      ∧ d.pipes = e.pipes ∧ d.jamb = e.jamb ∧ d.mem = e.mem ∧ d.host = e.host))
    ∧ (e.chainLive = true → e.recovering = false →
      (e.sash.persist = none → Lands .restoreDefaults s (fun d =>
        d.rwpObjs = [] ∧ d.sash.persist = some .none ∧ d.pipes = e.pipes ∧ d.jamb = e.jamb ∧ d.host = e.host))
      ∧ (e.sash.persist ≠ none → Lands .restoreDefaults s (fun d => d = { e with sash := { e.sash with
          held := e.sash.held ++ [.store .none 0x1020 2 (leBytes 4 0x52535444)] } })))

/-! ### Faults, injections and fences -/

/-- R418, R419, R422 to R427, R430, R432, R434: a listed source that is raised adds one to its saturating count and sets its
sticky bit; at an effective severity of 1 or more it takes its collector's record where that is not VALID, with its number,
severity, syndrome and the time, and otherwise only sets OVERFLOW and keeps the record; severity 5 halts the device; from
severity 2 on the memory or Threshold data the syndrome names is poisoned. A reserved source, and an injection that is not
armed, do nothing. A Casement's watchdog raises its source; a cleared record is free for the next error and keeps its other
fields; a write that arms an injection arms it unless the source cannot be injected or MODE is 0 or 3. Assumption logs 18, 28
and 29 say what of this is the model's choice or reading. States that these complete: FAULT_SOURCE_RAISED, HANDSHAKE_WATCHDOG,
FC_RECORD_CLEAR, FI_ARM. -/
def Obligations.FaultSourcesAreRecorded : Prop :=
  ∀ (s : State) (n : BitVec 9) (syn : BitVec 128) (c : BitVec 2) (record : BitVec 7) (bits mode : BitVec 2), s.dev.serves = true →
    let k := n.toNat
    let i := collectorOf k
    let sev := effectiveSeverity k (s.dev.severity k)
    let up := fun (o : Obj) (d : Dev) => d.oget o = (s.dev.oget o + 1) % 2 ^ (8 * o.size)
    let counted := fun (k : Nat) (d : Dev) => d.fget (F.FC_SRC_COUNT k) = satAdd 16 (s.dev.fget (F.FC_SRC_COUNT k)) 1
      ∧ bitAt (d.fget (F.FC_STICKY_BITS (k / 32))) (k % 32) = true
    let same := fun (f : Fld) (d : Dev) => d.fget f = s.dev.fget f
    let raised := Instr.faultSourceRaised n syn false
    (faultListed k = false → Lands raised s (fun d => d = s.dev))
    ∧ (faultListed k = true →
      (sev = 0 → Lands raised s (fun d => counted k d ∧ same (F.FC_REC_STAT_VALID i) d ∧ d.reacts = s.dev.reacts))
      ∧ (sev ≠ 0 → s.dev.fgetB (F.FC_REC_STAT_VALID i) = false → Brings raised s (fun d =>
        counted k d ∧ d.fget (F.FC_REC_STAT_VALID i) = 1 ∧ d.fget (F.FC_REC_STAT_OVERFLOW i) = 0
        ∧ d.fget (F.FC_REC_STAT_SOURCE i) = k ∧ d.fget (F.FC_REC_STAT_SEV i) = sev ∧ d.fget (F.FC_REC_STAT_INJ i) = 0
        ∧ (∀ j, j < 4 → d.fget (F.FC_REC_SYN_SYN i j) = syn.toNat / 2 ^ (32 * j) % 2 ^ 32)
        ∧ d.fget (F.FC_REC_TIME_LO_TIME i) = s.dev.timeBase % 2 ^ 32
        ∧ d.fget (F.FC_REC_TIME_HI_TIME i) = s.dev.timeBase / 2 ^ 32 % 2 ^ 32 ∧ up O.FAULTS_CAPTURED d
        ∧ d.reacts = (if sev < 3 then s.dev.reacts else s.dev.reacts ++ [(k, sev, syn.toNat)])
        ∧ (sev < 2 → d.mem = s.dev.mem ∧ d.thr = s.dev.thr)
        ∧ (2 ≤ sev → k = 449 → d.mem = (s.dev.poison (syn.toNat % 2 ^ 48)).mem)
        ∧ (2 ≤ sev → k = 457 → d.thr = (s.dev.poisonThr (syn.toNat % 2 ^ 48)).thr)))
      ∧ (sev ≠ 0 → s.dev.fgetB (F.FC_REC_STAT_VALID i) = true → Brings raised s (fun d =>
        counted k d ∧ d.fget (F.FC_REC_STAT_OVERFLOW i) = 1 ∧ up O.OVERFLOWS d
        ∧ ∀ f ∈ [F.FC_REC_STAT_VALID i, F.FC_REC_STAT_SOURCE i, F.FC_REC_STAT_SEV i, F.FC_REC_TIME_LO_TIME i,
            F.FC_REC_TIME_HI_TIME i, F.FC_REC_SYN_SYN i 0, F.FC_REC_SYN_SYN i 1, F.FC_REC_SYN_SYN i 2, F.FC_REC_SYN_SYN i 3],
            same f d))
      ∧ (s.dev.severity k = 5 → s.dev.reacts = [] → s.dev.fget (F.FC_REC_STAT_SEV i) ≤ 5 →
        ∃ t, Sys2Proof.Machine.exec raised s = .next t ∧ t.dev.halted = true))
    ∧ (s.dev.fiFires k = false → Lands (.faultSourceRaised n syn true) s (fun d => d = s.dev))
    ∧ (s.dev.fiFires k = true → Brings (.faultSourceRaised n syn true) s (fun d =>
      up O.INJECTIONS d ∧ d.fget F.FI_STAT_FIRED = 1 ∧ d.fget F.FI_CTL_ARM = (if s.dev.fget F.FI_CTL_MODE = 1 then 0 else s.dev.fget F.FI_CTL_ARM)
      ∧ (faultListed k = true → counted k d)))
    ∧ (s.dev.casUp c.toNat = true → s.dev.halted = false →
      Brings (.handshakeWatchdog c) s (counted (casSource c.toNat 12)))
    ∧ (s.dev.casUp c.toNat = false ∨ s.dev.halted = true → Lands (.handshakeWatchdog c) s (fun d => d = s.dev))
    ∧ (let r := record.toNat
      Gives (.fcRecordClear record) s (fun d => d.fget (F.FC_REC_STAT_VALID r) = 0 ∧ d.fget (F.FC_REC_STAT_OVERFLOW r) = 0
        ∧ same (F.FC_REC_STAT_SOURCE r) d ∧ same (F.FC_REC_STAT_SEV r) d ∧ d.objs = s.dev.objs ∧ d.pipes = s.dev.pipes))
    ∧ Gives (.fiArm n bits mode) s (fun d =>
      d.fget F.FI_CTL_SOURCE = k ∧ d.fget F.FI_CTL_BITS = bits.toNat ∧ d.fget F.FI_CTL_MODE = mode.toNat
      ∧ (mode = 0 ∨ mode = 3 → d.fget F.FI_CTL_ARM = 0)
      ∧ (mode = 1 ∨ mode = 2 → d.fget F.FI_CTL_ARM = if fiUnsupported k then s.dev.fget F.FI_CTL_ARM else 1)
      ∧ (fiUnsupported k = true → d.fget F.FI_STAT_UNSUPPORTED = 1) ∧ d.objs = s.dev.objs)

/-- R187, R190, R191, R435: a self-test that software asks of a Pane that may begin one drains the Pane, which is held;
otherwise it stays requested. Once no strip is on the Pane but finished ones that wait in the Casement's strip pool the test
runs: a Pane that passes rejoins with nothing of it held; one that fails raises its source. A fenced Pane whose test passes is
fenced no more; one that fails stays fenced and raises its source; a fenced Louvre bank whose test passes returns unbound, and no
other bank changes. Assumption logs 30, 43 and 105 say what of this is the model's choice or reading. States that these complete:
SELFTEST_REQ, PANE_SELFTEST_RUN, UNFENCE, BANK_UNFENCE. -/
def Obligations.FencesEndWithATest : Prop :=
  ∀ (s : State) (p : BitVec 7) (c : BitVec 2) (mask pass : BitVec 4), s.dev.serves = true → p.toNat < 96 →
    let k := p.toNat
    let x := s.dev.pane k
    let free := x.draining = false ∧ x.fenced = false ∧ s.dev.casUp (paneCas k) = true ∧ s.dev.paneHeld k = false
    let raised := fun d : Dev =>
      d.fget (F.FC_SRC_COUNT (4 * k + 3)) = satAdd 16 (s.dev.fget (F.FC_SRC_COUNT (4 * k + 3))) 1
    let alone := fun d : Dev => (∀ q, q ≠ k → d.pane q = s.dev.pane q) ∧ d.jamb.cmds = s.dev.jamb.cmds ∧ d.mem.cells = s.dev.mem.cells
    (free → Brings (.selftestReq p) s (fun d => (d.pane k).draining = true ∧ (d.pane k).testReq = false
      ∧ d.paneHeld k = true ∧ d.pipes.works = s.dev.pipes.works ∧ alone d))
    ∧ (¬ free → Lands (.selftestReq p) s (fun d => d.pane k = { x with testReq := true } ∧ d.pipes.works = s.dev.pipes.works
      ∧ alone d))
    ∧ (x.draining = true → s.dev.halted = false → s.dev.casUp (paneCas k) = true →
      ((∃ w ∈ s.dev.pipes.works, w.pane = k ∧ w.phase ≠ .pooled) → ∀ b, Lands (.paneSelftestRun p b) s (fun d => d = s.dev))
      ∧ ((∀ w ∈ s.dev.pipes.works, w.pane = k → w.phase = .pooled) → x.testReq = false →
        Lands (.paneSelftestRun p true) s (fun d =>
          d.pane k = { x with draining := false, resident := [], rerun := false, failed := false } ∧ d.paneHeld k = false
          ∧ d.oget (O.SELFTEST_RESULT k) = 1 ∧ alone d)
        ∧ Brings (.paneSelftestRun p false) s (fun d =>
          (d.pane k).draining = false ∧ d.oget (O.SELFTEST_RESULT k) = 2 ∧ raised d ∧ alone d)))
    ∧ (x.fenced = true → s.dev.halted = false →
      Brings (.unfence p true) s (fun d =>
        (d.pane k).fenced = false ∧ (d.pane k).unfencing = false ∧ d.oget (O.SELFTEST_RESULT k) = 1 ∧ alone d)
      ∧ Brings (.unfence p false) s (fun d =>
        d.pane k = { x with unfencing := false } ∧ d.oget (O.SELFTEST_RESULT k) = 2 ∧ raised d ∧ alone d))
    ∧ (x.fenced = false → ∀ b, Lands (.unfence p b) s (fun d => d.pipes = s.dev.pipes ∧ alone d))
    ∧ (s.dev.halted = false → Lands (.bankUnfence c mask pass) s (fun d =>
      (∀ b, b < 4 → d.lvBank c.toNat b =
        (if bitAt mask.toNat b = true ∧ bitAt pass.toNat b = true ∧ (s.dev.lvBank c.toNat b).fenced = true
          then { shadow := (s.dev.lvBank c.toNat b).shadow } else s.dev.lvBank c.toNat b))
      ∧ (∀ a b, a ≠ c.toNat → a < 4 → b < 4 → d.lvBank a b = s.dev.lvBank a b)
      ∧ d.oget (O.BANK_UNFENCE (24 * c.toNat)) &&& mask.toNat = 0))

/-! ### Resets, supplies and the clock -/

/-- R51, R267, R318, R323, R436 to R438, R468: a device reset, a power-on and the return of the clock leave no queue, no command
and no halt, with firmware READY or the boot ROM in RECOVERY; a Function Level Reset, and PERST_N with it, leave no queue, no
command, no digest context, and no key but slot 0's; of all of these only PARKED contexts survive, and none survives the loss of
the always-on supply or the clock. Committed STOREs, and what drives hold, survive every one. The clock's loss raises source 474
unless the engine is parked; without the supplies, or with them there already, a reset and a power-on do nothing. Assumption
logs 4, 74, 144, 145 and 147 say what of this is the model's choice or reading. States that these complete: DEVICE_RESET,
FUNCTION_LEVEL_RESET, LINK_RESET, PERST_N_DEASSERT, POWER_ON, POWER_LOSS, REFCLK_LOSS, REFCLK_RETURN. -/
def Obligations.ResetsKeepWhatTheyKeep : Prop :=
  ∀ (s : State) (tests : Tests) (board : Option Board) (dimms : List (Option Dimm)),
    let e := s.dev
    let noQueue := fun d : Dev => (∀ q, (d.queue q).st = .absent) ∧ d.jamb.cmds = []
    let fresh := fun d : Dev => noQueue d ∧ d.halted = false ∧ d.host = e.host
      ∧ (d.fget F.LM_STAT_STAGE = 4 ∨ d.fget F.LM_STAT_STAGE = 5)
    let stored := fun d : Dev =>
      (∀ g ∈ e.thr.stores, g.phase = .staged → ∃ h ∈ d.thr.stores, h.cmd = g.cmd ∧ h.seq = g.seq ∧ h.data = g.data)
      ∧ (∀ h ∈ d.thr.stores, h.phase = .staged ∧ ∃ g ∈ e.thr.stores, g.phase = .staged ∧ g.seq = h.seq ∧ g.data = h.data)
      ∧ ((e.drives.map Prod.fst).Nodup → ∀ k, (d.drive k).cells = (e.drive k).cells)
    let empty := fun d : Dev => ∀ c, (d.ctx c).state = 0
    let parks := fun d : Dev => ∀ c, (d.ctx c).state = 0 ∨ (d.ctx c).state = 5 ∨ (e.life.shelfDark = true ∧ (d.ctx c).state = 7)
    let flr := fun d : Dev => noQueue d ∧ (∀ k, d.dgctx k = {}) ∧ (∀ k, k ≠ 0 → d.slot k = {}) ∧ d.slot 0 = e.slot 0
      ∧ (∀ g, g ∈ d.thr.stores ↔ g ∈ e.thr.stores ∧ g.phase = .staged) ∧ d.drives = e.drives
      ∧ ∀ c, ((e.ctx c).state ≠ 5 → d.ctx c = {})
        ∧ ((∀ p ∈ e.pipes.ctxs, p.1 = c → p.2.state = 5) → (d.ctx c).state = (e.ctx c).state)
    (e.serves = true → Brings (.deviceReset tests) s (fun d => fresh d ∧ stored d ∧ parks d ∧ d.timeBase = e.timeBase)
      ∧ Brings .functionLevelReset s flr ∧ Brings .linkReset s (fun d => flr d ∧ d.life.perst = true))
    ∧ (e.serves = false → Gives (.deviceReset tests) s (fun d => d = e)
      ∧ Gives .linkReset s (fun d => d = { e with life := { e.life with perst := true } }))
    ∧ Gives .perstNDeassert s (fun d => d = { e with life := { e.life with perst := false } })
    ∧ (e.life.always = false → Brings (.powerOn board dimms tests) s (fun d =>
      fresh d ∧ stored d ∧ empty d ∧ d.timeBase = 0 ∧ d.life.always = true ∧ d.life.supplies = true ∧ d.life.refclk = true
      ∧ d.life.thermtrip = false ∧ d.life.tripSeen = (e.life.tripSeen || e.life.thermtrip)))
    ∧ (e.life.always = true → e.life.supplies = true → e.fget F.LM_STAT_STAGE ≠ 0 →
      Lands (.powerOn board dimms tests) s (fun d => d = e))
    ∧ (e.life.always = true → e.life.supplies = false → e.life.refclk = true → e.life.parked = false →
      Brings (.powerOn board dimms tests) s (fun d => fresh d ∧ stored d ∧ parks d ∧ d.life.supplies = true))
    ∧ Brings (.powerLoss true) s (fun d => noQueue d ∧ stored d ∧ d.pipes = {} ∧ (∀ a, d.engByte a = 0) ∧ d.timeBase = 0
      ∧ d.life.always = false ∧ d.life.supplies = false ∧ d.host = e.host)
    ∧ (e.life.supplies = true → Brings (.powerLoss false) s (fun d =>
      noQueue d ∧ stored d ∧ d.life.supplies = false ∧ d.life.always = e.life.always ∧ d.timeBase = e.timeBase ∧ d.host = e.host
      ∧ ∀ c, (d.ctx c).state = 0 ∨ (d.ctx c).state = 5))
    ∧ (e.life.refclk = true → e.life.always = true → Brings .refclkLoss s (fun d => d.life.refclk = false
      ∧ d.pipes = e.pipes ∧ d.mem = e.mem ∧ (e.life.parked = false → e.life.supplies = true →
        d.fget (F.FC_SRC_COUNT 474) = satAdd 16 (e.fget (F.FC_SRC_COUNT 474)) 1)))
    ∧ (e.life.refclk = false → e.life.always = true → Brings (.refclkReturn tests) s (fun d =>
      noQueue d ∧ stored d ∧ empty d ∧ d.timeBase = 0 ∧ d.life.refclk = true ∧ (e.life.supplies = true → fresh d)))

/-! ### Parking, gating and IDLE -/

/-- R443, R444, R447, R463, R468: SHELF_DARK on a READY engine takes every RUNNING context without FABRIC to PARKING and cancels
the others that run, where no command is in flight and DARK_ACTION is 0; where parking cannot begin it is only noted. Once
everything has been gathered the engine is PARKED with its memories in self-refresh and its key store empty, and it resumes when
the shelf lights up, its PARKED contexts as they were. A Casement that has nothing to do is gated, and comes back with the
fields of its objects; an engine with nothing to do enters IDLE, its memories in self-refresh and their rows closed, and leaves it.
Assumption logs 75 and 131 say what of this is the model's choice or reading. States that these complete: SHELF_DARK_ASSERT,
PARK_OK_ASSERT, SHELF_DARK_DEASSERT, CASEMENT_GATE_TIMEOUT, CASEMENT_UNGATE, IDLE_TIMEOUT, IDLE_EXIT. -/
def Obligations.PowerStatesFollowTheirInputs : Prop :=
  ∀ (s : State) (tests : Tests) (c : BitVec 2),
    let e := s.dev
    let k := c.toNat
    let lit := { e with life := { e.life with shelfDark := false } }
    let dark := { e with life := { e.life with shelfDark := true } }
    (dark.mayPark = true → e.jamb.cmds = [] → e.oget O.DARK_ACTION = 0 → Brings .shelfDarkAssert s (fun d =>
      d.life.shelfDark = true ∧ d.life.parking = true ∧ ∀ n,
        (((e.ctx n).state = 2 ∧ (e.ctx n).prog.fabric = false ∧ (e.ctx n).ending = none) → d.ctx n = { e.ctx n with state := 4 })
        ∧ ((e.ctx n).state = 2 ∧ (e.ctx n).prog.fabric = true ∧ (e.ctx n).ending ≠ some 0x0401 → (d.ctx n).state = 3)
        ∧ ((e.ctx n).state ∉ [2, 4] → (d.ctx n).state = (e.ctx n).state)))
    ∧ (dark.mayPark = false → Lands .shelfDarkAssert s (fun d => d = dark))
    ∧ (e.parkReady = true → e.life.shelfDark = true → e.maint = [] → Lands (.parkOkAssert tests) s (fun d =>
      d.life.parked = true ∧ d.life.parkOk = true ∧ d.life.parking = false ∧ d.mem.selfRefresh = true ∧ d.pipes = e.pipes
      ∧ d.jamb = e.jamb ∧ (∀ n, d.slot n = {}) ∧ (∀ n, d.dgctx n = {}) ∧ d.thr = e.thr ∧ d.drives = e.drives ∧ d.host = e.host))
    ∧ (e.parkReady = false → Lands (.parkOkAssert tests) s (fun d => d = e))
    ∧ (e.life.parked = true → e.life.supplies = true → e.life.refclk = true → Brings (.shelfDarkDeassert tests) s (fun d =>
      d.life.parked = false ∧ d.life.shelfDark = false ∧ d.life.parkOk = false ∧ d.fget F.LM_STAT_STAGE = 4
      ∧ (∀ n, (d.ctx n).state = (e.ctx n).state) ∧ d.mem.selfRefresh = false ∧ d.host = e.host))
    ∧ (e.life.parked = false → Lands (.shelfDarkDeassert tests) s (fun d => d = lit))
    ∧ (e.serves = true →
      (e.casUp k = true → e.casementFree k = true → e.oget O.CASEMENT_GATE_TIME ≠ 0 → e.halted = false →
        Lands (.casementGateTimeout c) s (fun d => d.fget (F.CS_STAT_STATE k) = 1
          ∧ (∀ j, j < 4 → j ≠ k → d.fget (F.CS_STAT_STATE j) = e.fget (F.CS_STAT_STATE j))
          ∧ (∀ b, d.sbank k b = {} ∨ 16 ≤ b) ∧ d.pipes.ctxs = e.pipes.ctxs ∧ d.pipes.works = e.pipes.works))
      ∧ (e.casUp k = false ∨ e.casementFree k = false ∨ e.oget O.CASEMENT_GATE_TIME = 0 ∨ e.halted = true →
        Lands (.casementGateTimeout c) s (fun d => d = e))
      ∧ (e.fget (F.CS_STAT_STATE k) = 1 → Sparse.get {} e.life.microcode k ≠ {} → e.halted = false →
        Lands (.casementUngate c) s (fun d => d.fget (F.CS_STAT_STATE k) = 3
          ∧ d.fget (F.CS_MC_VER_VERSION k) = (Sparse.get {} e.life.microcode k).version % 2 ^ 32
          ∧ (∀ m ∈ casMirrors k, d.fget m.fld = m.cut (e.oget m.obj)) ∧ d.objs = e.objs ∧ d.pipes = e.pipes ∧ d.mem = e.mem))
      ∧ (e.idleFree = true → e.oget O.IDLE_TIME ≠ 0 → e.halted = false → e.life.parking = false →
        Lands .idleTimeout s (fun d =>
          d = { e with life := { e.life with idle := true }, mem := { e.mem with selfRefresh := true, banks := [] } }))
      ∧ (e.life.idle = true → Lands .idleExit s (fun d =>
        d = { e with life := { e.life with idle := false }, mem := { e.mem with selfRefresh := false } }))
      ∧ (e.life.idle = false → Lands .idleExit s (fun d => d = e)))

/-- R26, R27, R283, R463, R467, R476: a thermal trip halts the device, records 0xFFFF as its cause where it was not halted, and
drives THERMTRIP_N; a step of the rail takes the regulator's readings and sends the overriding target, or one of 650 to 900 mV,
and a reading that stays away from the target raises source 475; a closing window gives each Casement its rate, temperature,
GATED, and VALID where it has been in service throughout the window. Assumption logs 134, 135 and 146 say what of this is the
model's choice or reading. States that these complete: THERMTRIP, AVS_STEP, CRATE_WINDOW_CLOSE. -/
def Obligations.SensorsAndTheRail : Prop :=
  ∀ (s : State) (vout : BitVec 12) (iout : BitVec 10) (drifted : Bool) (temps : List (Option (BitVec 8))) (ws : List Crate),
    let e := s.dev
    let was := e.fget F.AVS_TARGET_MV
    let away := drifted = true ∧ was < ((vout.toNat - was) + (was - vout.toNat)) * 50
    (e.powered = true → e.life.thermtrip = false → Brings .thermtrip s (fun d =>
      d.halted = true ∧ d.life.thermtrip = true ∧ Out.thermtrip ∈ d.out
      ∧ (e.halted = false → d.thr.haltRec = e.haltRecord 0xFFFF 0) ∧ (e.halted = true → d.thr = e.thr)
      ∧ d.pipes = e.pipes ∧ d.mem = e.mem ∧ d.host = e.host))
    ∧ (e.powered = true → e.life.thermtrip = true → Lands .thermtrip s (fun d => d = e))
    ∧ (e.serves = true → e.fget F.LM_STAT_STAGE = 4 ∨ e.fget F.LM_STAT_STAGE = 6 →
      Brings (.avsStep vout iout drifted temps) s (fun d =>
        d.fget F.AVS_STAT_VOUT_MV = vout.toNat ∧ d.fget F.AVS_STAT_IOUT_A = iout.toNat
        ∧ (e.fgetB F.AVS_OVR_EN = true → d.fget F.AVS_TARGET_MV = e.fget F.AVS_OVR_MV % 2 ^ 12
            ∧ Out.avs (e.fget F.AVS_OVR_MV) ∈ d.out)
        ∧ (e.fgetB F.AVS_OVR_EN = false → 650 ≤ d.fget F.AVS_TARGET_MV ∧ d.fget F.AVS_TARGET_MV ≤ 900
            ∧ Out.avs (d.fget F.AVS_TARGET_MV) ∈ d.out)
        ∧ (away → d.fget (F.FC_SRC_COUNT 475) = satAdd 16 (e.fget (F.FC_SRC_COUNT 475)) 1)
        ∧ (¬ away → d.fget (F.FC_SRC_COUNT 475) = e.fget (F.FC_SRC_COUNT 475))
        ∧ d.pipes = e.pipes ∧ d.mem = e.mem))
    ∧ (e.serves = true → ws.length ≤ 4 → Gives (.crateWindowClose ws) s (fun d =>
      (∀ c x, ws[c]? = some x →
        d.fget (F.CRATE_C_RATE c) = (if e.casUp c then x.rate.toNat else 0) ∧ d.fget (F.CRATE_C_TJ c) = x.tj.toNat
        ∧ d.fget (F.CRATE_C_GATED c) = b2n (!e.casUp c)
        ∧ d.fget (F.CRATE_C_VALID c) = b2n (e.casUp c && bitAt e.life.wholeWindow c) ∧ bitAt d.life.wholeWindow c = e.casUp c)
      ∧ d.objs = e.objs ∧ d.pipes = e.pipes ∧ d.mem = e.mem))

/-! ### Firmware and fuses -/

/-- R441, R451, R452, R455, R456: each operation of the mailbox ends with its number, CODE and CHECK in LM_RESULT and GO clear.
FLASH_WRITE stores the image from engine memory in the other slot and reports its check; the booted slot is refused with CODE 2,
and a poisoned source or a flash error ends with CODE 3. ACTIVATE_LINTEL runs an image that passes, or begins a hand-off that
its timeout undoes with CODE 4; COMMIT makes the running slot preferred; RECOVER runs an image of host memory in RECOVERY and is
refused elsewhere; ACTIVATE_CASEMENT loads the microcode of a slot into a Casement out of service, whose Panes pass. An image
that a check rejects changes nothing that runs. A fuse word reads as burned, the seed as zero, and FUSE_PROGRAM burns the one
bits of FUSE_DATA into its word alone. Assumption logs 73, 76, 137, 138 and 142 say what of this is the model's choice or
reading. States that these complete: FLASH_WRITE, FIRMWARE_COMMIT, RECOVER, ACTIVATE_LINTEL, ACTIVATE_CASEMENT, HANDOFF_TIMEOUT,
FUSE_READ, FUSE_PROGRAM. -/
def Obligations.FirmwareAndFuses : Prop :=
  ∀ (s : State) (slot : BitVec 1) (micro flashError starts : Bool) (c : BitVec 2) (tests : Tests) (word : BitVec 7),
    let e := s.dev
    let n := slot.toNat
    let ends := fun (op code check : Nat) (d : Dev) => d.fget F.LM_RESULT_OP = op ∧ d.fget F.LM_RESULT_CODE = code
      ∧ d.fget F.LM_RESULT_CHECK = check % 8 ∧ d.fget F.LM_RESULT_DONE = 1 ∧ d.fget F.LM_CMD_GO = 0
    let refused := fun (op code check : Nat) (d : Dev) => ends op code check d ∧ d.life = e.life
      ∧ d.pipes = e.pipes ∧ d.jamb = e.jamb ∧ d.mem = e.mem
    let busy := e.life.handoff.isSome = true
    let b := e.engBytes e.lmAddr e.lmLen
    let image := e.flashImage false n
    let load := e.flashImage true n
    (e.powered = true → e.fget F.LM_STAT_STAGE ≠ 5 →
      (n = e.life.slot ∨ busy ∨ (if micro then 2 ^ 23 else 2 ^ 24) < e.lmLen →
        Lands (.flashWrite slot micro flashError) s (refused 1 2 0))
      ∧ (n ≠ e.life.slot → ¬ busy → e.lmLen ≤ (if micro then 2 ^ 23 else 2 ^ 24) →
        (flashError = true ∨ e.poisoned e.lmAddr e.lmLen = true → Lands (.flashWrite slot micro flashError) s (refused 1 3 0))
        ∧ (flashError = false → e.poisoned e.lmAddr e.lmLen = false → Lands (.flashWrite slot micro flashError) s (fun d =>
          let r := imageReject e.trust (if micro then 2 else 1) b
          ends 1 (if r = 0 then 0 else 1) r d ∧ d.flashImage micro n = b
          ∧ (∀ m p, m ≠ micro ∨ p ≠ n → d.flashImage m p = e.flashImage m p) ∧ d.pipes = e.pipes ∧ d.mem = e.mem)))
      ∧ (e.life.slot ≥ 2 ∨ busy → Lands (.firmwareCommit flashError) s (refused 4 2 0))
      ∧ (e.life.slot < 2 → ¬ busy → (flashError = true → Lands (.firmwareCommit flashError) s (refused 4 3 0))
        ∧ (flashError = false → Lands (.firmwareCommit flashError) s (fun d => ends 4 0 0 d ∧ d.life.preferred = e.life.slot
          ∧ d.fget F.LM_STAT_TRIAL = 0 ∧ d.pipes = e.pipes ∧ d.mem = e.mem)))
      ∧ Lands (.recover tests) s (refused 5 2 0)
      ∧ (e.life.parked = false →
        (busy → Lands (.activateLintel slot starts) s (refused 2 2 0))
        ∧ (¬ busy → imageReject e.trust 1 image ≠ 0 →
          Lands (.activateLintel slot starts) s (refused 2 1 (imageReject e.trust 1 image)))
        ∧ (¬ busy → imageReject e.trust 1 image = 0 →
          Lands (.activateLintel slot true) s (fun d => ends 2 0 0 d ∧ d.life.running = runningOf image ∧ d.life.slot = n
            ∧ d.fget F.LM_STAT_SLOT = n ∧ d.fget F.LM_STAT_TRIAL = b2n (decide (n ≠ e.life.preferred)) ∧ d.pipes = e.pipes)
          ∧ Lands (.activateLintel slot false) s (fun d => d.life.handoff.isSome = true ∧ d.life.running = e.life.running
            ∧ d.fget F.LM_STAT_STAGE = 6 ∧ d.fget F.JB_STAT_HOLD = 1 ∧ d.fget F.LM_CMD_GO = 1 ∧ d.pipes = e.pipes))
        ∧ (∀ pass, busy ∨ e.halted = true → Lands (.activateCasement c slot pass) s (refused 3 2 0))
        ∧ (∀ pass, ¬ busy → e.halted = false → imageReject e.trust 2 load ≠ 0 →
          Lands (.activateCasement c slot pass) s (refused 3 1 (imageReject e.trust 2 load)))
        ∧ (¬ busy → e.halted = false → imageReject e.trust 2 load = 0 → bitAt e.life.staging c.toNat = false →
          e.fget (F.CS_STAT_STATE c.toNat) = 6 →
          Brings (.activateCasement c slot true) s (fun d => ends 3 0 0 d ∧ d.fget (F.CS_STAT_STATE c.toNat) = 3
            ∧ d.fget (F.CS_MC_VER_VERSION c.toNat) = (runningOf load).version % 2 ^ 32)
          ∧ Brings (.activateCasement c slot false) s (fun d => ends 3 5 0 d ∧ d.fget (F.CS_STAT_STATE c.toNat) = 6))))
    ∧ (e.serves = true → busy → e.sash.held = [] → e.life.shelfDark = false → Lands .handoffTimeout s (fun d =>
      ends 2 4 0 d ∧ d.life.handoff = none ∧ d.life.running = e.life.running ∧ d.fget F.LM_STAT_STAGE = 4
      ∧ d.fget F.JB_STAT_HOLD = 0 ∧ d.pipes = e.pipes ∧ d.jamb = e.jamb))
    ∧ (e.powered = true → e.fget F.LM_STAT_STAGE = 5 → e.life.parked = false → e.hostFails e.lmAddr e.lmLen = false →
      let v := e.hostBytes e.lmAddr e.lmLen
      (imageReject e.trust 1 v ≠ 0 → Lands (.recover tests) s (refused 5 1 (imageReject e.trust 1 v)))
      ∧ (imageReject e.trust 1 v = 0 → Brings (.recover tests) s (fun d => ends 5 0 0 d ∧ d.life.running = runningOf v
        ∧ d.life.slot = 2 ∧ d.fget F.LM_STAT_RECOVERED = 1 ∧ d.fget F.LM_STAT_STAGE = 4 ∧ d.host = e.host)))
    ∧ (e.serves = true →
      Gives (.fuseRead word) s (fun d => d.fget F.FUSE_CTL_DONE = 1 ∧ d.life = e.life
        ∧ d.fget F.FUSE_DATA_DATA = if word.toNat < 12 then 0 else Sparse.get 0 e.life.fuses word.toNat % 2 ^ 32)
      ∧ Gives (.fuseProgram word) s (fun d => d.fget F.FUSE_CTL_DONE = 1 ∧ d.life.fused = e.life.fused
        ∧ Sparse.get 0 d.life.fuses word.toNat = Sparse.get 0 e.life.fuses word.toNat ||| e.fget F.FUSE_DATA_DATA
        ∧ ∀ w, w ≠ word.toNat → Sparse.get 0 d.life.fuses w = Sparse.get 0 e.life.fuses w))

/-! ### Registers and the aperture -/

/-- R399, R402, R404, R405, R412, R413: an aligned write of four bytes sets what the register lets be written (APT_BASE,
LM_ADDR_LO); one that is not aligned, or of another width than four or eight, changes nothing; one to a slow block whose
crossing is under way is discarded and counted, and otherwise its crossing begins. A write that sets TEST_CTL.MODE stops the
model, since R412 leaves what follows out. A host write through BAR4 reaches the engine memory that the aperture shows, and a
read changes nothing but that an idle engine wakes. Assumption logs 11 and 44 say what of this is the model's choice or reading.
States that these complete: REGISTER_WRITE, BAR4_ACCESS. -/
def Obligations.HostAccessesReachTheirTarget : Prop :=
  ∀ (s : State) (polled : Bool) (off : BitVec 26) (width : BitVec 4) (value : BitVec 64) (at_ : BitVec 36) (bytes : Bytes)
      (n : BitVec 13),
    let e := s.dev
    let o := off.toNat
    let a := e.aperture at_.toNat
    let polledDev := if polled then e.poll o else e
    (e.powered = true →
      (value.toNat % 16 ≠ 0 → Sys2Proof.Machine.exec (.registerWrite polled 0x10 4 value) s = .refused .testMode)
      ∧ (e.fget F.TEST_CTL_MODE = 0 →
        (o % 4 ≠ 0 ∨ (width ≠ 4 ∧ width ≠ 8) → Lands (.registerWrite polled off width value) s (fun d => d = polledDev))
        ∧ Lands (.registerWrite polled 0xC 4 value) s (fun d => d = e.fput F.APT_BASE_BASE value.toNat)
        ∧ (polled = true ∨ e.fgetB (wpend 0) = false → Lands (.registerWrite polled 0x10008 4 value) s (fun d =>
          d.fget F.LM_ADDR_LO_ADDR = value.toNat % 2 ^ 32 ∧ d.fgetB (wpend 0) = true ∧ d.objs = e.objs ∧ d.pipes = e.pipes
          ∧ d.jamb = e.jamb ∧ d.mem = e.mem ∧ d.host = e.host))
        ∧ (∀ b, slowBlock o = some b → e.present o = true → e.fgetB (wpend b) = true → o % 4 = 0 →
          Lands (.registerWrite false off 4 value) s (fun d => d.fget F.GL_STAT_DROP_COUNT = satAdd 16 (e.fget F.GL_STAT_DROP_COUNT) 1
            ∧ bitAt (d.fget F.GL_STAT_POST_DROP) b = true ∧ d.objs = e.objs ∧ d.pipes = e.pipes ∧ d.jamb = e.jamb
            ∧ d.mem = e.mem ∧ d.host = e.host))))
    ∧ (e.serves = true →
      Lands (.bar4Access at_ (.read n)) s (fun d => d = e.wake)
      ∧ (e.plainMem a bytes.length → a + bytes.length ≤ Config.engineEnd →
        Lands (.bar4Access at_ (.write bytes)) s (fun d =>
          (∀ i, i < bytes.length → e.implemented (a + i) = true → d.engByte (a + i) = bytes.getD i 0)
          ∧ (∀ k, k < a ∨ a + bytes.length ≤ k → d.engByte k = e.engByte k) ∧ d.host = e.host ∧ d.jamb = e.jamb)))
end

