-- ==== Sys2Proof/Laws/Sparse.lean ====
section
/-!
SUPPORT. Laws of sparse tables: what a read after a write gives, and that writing keeps the canonical form.
-/

namespace Sys2Proof.Machine

/-! ### Reading after writing -/

theorem Sparse.get_insert_self {α : Type} (z : α) (m : Sparse α) (k : Nat) (v : α) :
    Sparse.get z (Sparse.insert m k v) k = v := by
  induction m with
  | nil => simp [Sparse.insert, Sparse.get]
  | cons p m ih => grind [Sparse.insert, Sparse.get]

theorem Sparse.get_insert_ne {α : Type} (z : α) (m : Sparse α) {k j : Nat} (v : α) (h : j ≠ k) :
    Sparse.get z (Sparse.insert m k v) j = Sparse.get z m j := by
  induction m with
  | nil => simp [Sparse.insert, Sparse.get, h]
  | cons p m ih => grind [Sparse.insert, Sparse.get]

theorem Sparse.get_erase_self {α : Type} (z : α) (m : Sparse α) (k : Nat) :
    Sparse.get z (Sparse.erase m k) k = z := by
  induction m with
  | nil => rfl
  | cons p m ih => grind [Sparse.erase, Sparse.get]

theorem Sparse.get_erase_ne {α : Type} (z : α) (m : Sparse α) {k j : Nat} (h : j ≠ k) :
    Sparse.get z (Sparse.erase m k) j = Sparse.get z m j := by
  induction m with
  | nil => rfl
  | cons p m ih => grind [Sparse.erase, Sparse.get]

/-- A key reads what was last written to it. -/
@[simp] theorem Sparse.get_set_self {α : Type} [DecidableEq α] (z : α) (m : Sparse α) (k : Nat) (v : α) :
    Sparse.get z (Sparse.set z m k v) k = v := by
  unfold Sparse.set
  split
  · next h => rw [h, Sparse.get_erase_self]
  · exact Sparse.get_insert_self z m k v

/-- The other keys read as before, under whichever default. -/
theorem Sparse.get_set_ne {α : Type} [DecidableEq α] (y z : α) (m : Sparse α) {k j : Nat} (v : α) (h : j ≠ k) :
    Sparse.get y (Sparse.set z m k v) j = Sparse.get y m j := by
  unfold Sparse.set
  split
  · exact Sparse.get_erase_ne y m h
  · exact Sparse.get_insert_ne y m v h

/-! ### The canonical form -/

/-- The canonical form, by its two parts. -/
theorem Sparse.wf_iff {α : Type} [DecidableEq α] (z : α) (m : Sparse α) :
    Sparse.wf z m = true ↔ m.Pairwise (fun p q => p.1 < q.1) ∧ ∀ p ∈ m, p.2 ≠ z := by
  induction m with
  | nil => simp [Sparse.wf]
  | cons p m ih =>
    cases m with
    | nil => simp [Sparse.wf]
    | cons q m =>
      simp only [Sparse.wf, Bool.and_eq_true, decide_eq_true_eq, ih, List.pairwise_cons, List.mem_cons, forall_eq_or_imp]
      grind

@[simp] theorem Sparse.wf_nil {α : Type} [DecidableEq α] (z : α) : Sparse.wf z ([] : Sparse α) = true := rfl

theorem Sparse.wf_filter {α : Type} [DecidableEq α] (z : α) (p : Nat × α → Bool) (m : Sparse α)
    (h : Sparse.wf z m = true) : Sparse.wf z (m.filter p) = true := by
  rw [Sparse.wf_iff] at h ⊢
  exact ⟨h.1.filter p, fun q hq => h.2 q (List.mem_filter.mp hq).1⟩

theorem Sparse.mem_insert {α : Type} {m : Sparse α} {k : Nat} {v : α} {p : Nat × α}
    (h : p ∈ Sparse.insert m k v) : p = (k, v) ∨ p ∈ m := by
  induction m with
  | nil => simpa [Sparse.insert] using h
  | cons q m ih => grind [Sparse.insert]

theorem Sparse.rising_insert {α : Type} (m : Sparse α) (k : Nat) (v : α)
    (h : m.Pairwise (fun p q => p.1 < q.1)) : (Sparse.insert m k v).Pairwise (fun p q => p.1 < q.1) := by
  induction m with
  | nil => simp [Sparse.insert]
  | cons p m ih =>
    obtain ⟨j, w⟩ := p
    rw [List.pairwise_cons] at h
    simp only [Sparse.insert]
    split
    · next e => subst e; exact List.pairwise_cons.mpr h
    · split
      · next lt =>
        refine List.pairwise_cons.mpr ⟨fun q hq => ?_, List.pairwise_cons.mpr h⟩
        rcases List.mem_cons.mp hq with rfl | hq
        · exact lt
        · exact Nat.lt_trans lt (h.1 q hq)
      · next ne nlt =>
        refine List.pairwise_cons.mpr ⟨fun q hq => ?_, ih h.2⟩
        rcases Sparse.mem_insert hq with rfl | hq
        · exact Nat.lt_of_le_of_ne (Nat.le_of_not_lt nlt) (Ne.symm ne)
        · exact h.1 q hq

/-- A write keeps the canonical form. -/
theorem Sparse.wf_set {α : Type} [DecidableEq α] (z : α) (m : Sparse α) (k : Nat) (v : α)
    (h : Sparse.wf z m = true) : Sparse.wf z (Sparse.set z m k v) = true := by
  unfold Sparse.set
  split
  · exact Sparse.wf_filter z _ m h
  · next hv =>
    rw [Sparse.wf_iff] at h ⊢
    refine ⟨Sparse.rising_insert m k v h.1, fun p hp => ?_⟩
    rcases Sparse.mem_insert hp with rfl | hp
    · exact hv
    · exact h.2 p hp

theorem Sparse.wf_setAll {α : Type} [DecidableEq α] (z : α) (l : List (Nat × α)) (m : Sparse α)
    (h : Sparse.wf z m = true) : Sparse.wf z (Sparse.setAll z m l) = true := by
  induction l generalizing m with
  | nil => exact h
  | cons p l ih => exact ih _ (Sparse.wf_set z m _ _ h)

/-! ### Folds -/

/-- What every step of a fold keeps, the fold keeps. -/
theorem foldl_keeps {α β : Type} (P : β → Prop) (f : β → α → β) (hf : ∀ b a, P b → P (f b a)) :
    ∀ (l : List α) (b : β), P b → P (l.foldl f b)
  | [], _, h => h
  | a :: l, b, h => foldl_keeps P f hf l (f b a) (hf b a h)

end Sys2Proof.Machine
end

