-- ==== Sys2Proof/Laws/Memory.lean ====
section
/-!
SUPPORT. The canonical form of memory, part by part, and the shapes of operations that keep it.
-/

namespace Sys2Proof.Machine

theorem Memory.wf_host {d : Dev} (h : Memory.wf d = true) : Sparse.wf 0 d.host = true := by
  simp_all [Memory.wf]

theorem Memory.wf_mem {d : Dev} (h : Memory.wf d = true) : d.mem.wf = true := by
  simp_all [Memory.wf]

theorem Memory.wf_cells {m : Mem} (h : m.wf = true) : Sparse.wf 0 m.cells = true := by
  simp_all [Mem.wf]

theorem Memory.wf_poison {m : Mem} (h : m.wf = true) : Sparse.wf false m.poison = true := by
  simp_all [Mem.wf]

/-- Only host and engine memory count. -/
theorem Memory.wf_mk (a b c d e f g h i j k l m n o p q r s t u v w x y) :
    Memory.wf (Dev.mk a b c d e f g h i j k l m n o p q r s t u v w x y) = (Sparse.wf 0 c && f.wf) := rfl

theorem Mem.wf_mk (a b c d e f g h i j k l m n o p q r s t u v w x) :
    Mem.wf (Mem.mk a b c d e f g h i j k l m n o p q r s t u v w x) = (Sparse.wf 0 a && Sparse.wf false b) := rfl

theorem Memory.wf_ite {c : Prop} [Decidable c] {a b : Dev} (h : Memory.wf a = true) (k : Memory.wf b = true) :
    Memory.wf (if c then a else b) = true := by
  split <;> assumption

theorem Memory.wf_foldl {α : Type} (f : Dev → α → Dev) (l : List α) (d : Dev)
    (hf : ∀ d a, Memory.wf d = true → Memory.wf (f d a) = true) (h : Memory.wf d = true) :
    Memory.wf (l.foldl f d) = true :=
  foldl_keeps (fun d => Memory.wf d = true) f hf l d h

end Sys2Proof.Machine
end

