-- ==== Sys2Proof/Laws/MemoryA.lean ====
section
/-!
SUPPORT. Every operation of Ops, Operands, Jamb, Faults, Bifold keeps memory in its canonical form.
-/

set_option linter.style.nameCheck false

namespace Sys2Proof.Machine

theorem Dev.fput_wf : ∀ d f v, Memory.wf d = true → Memory.wf (Dev.fput d f v) = true := by
  intros; unfold Dev.fput; simp +contextual (maxDischargeDepth := 40) only [Memory.wf_mk, Memory.wf_host,
    Memory.wf_mem, Bool.and_self, *]

theorem Dev.fputB_wf : ∀ d f b, Memory.wf d = true → Memory.wf (Dev.fputB d f b) = true := by
  intros; unfold Dev.fputB; simp +contextual (maxDischargeDepth := 40) only [Dev.fput_wf, *]

theorem Dev.fcount_wf : ∀ d f n, Memory.wf d = true → Memory.wf (Dev.fcount d f n) = true := by
  intros; unfold Dev.fcount; simp +contextual (maxDischargeDepth := 40) only [Dev.fput_wf, *]

theorem Dev.for__wf : ∀ d f m, Memory.wf d = true → Memory.wf (Dev.for_ d f m) = true := by
  intros; unfold Dev.for_; simp +contextual (maxDischargeDepth := 40) only [Dev.fput_wf, *]

theorem Dev.fcount64_wf : ∀ d lo hi n, Memory.wf d = true → Memory.wf (Dev.fcount64 d lo hi n) = true := by
  intros; unfold Dev.fcount64; simp +contextual (maxDischargeDepth := 40) only [Dev.fput_wf, *]

theorem Dev.oput_wf : ∀ d o v, Memory.wf d = true → Memory.wf (Dev.oput d o v) = true := by
  intros; unfold Dev.oput; simp +contextual (maxDischargeDepth := 40) only [Memory.wf_mk, Memory.wf_host,
    Memory.wf_mem, Bool.and_self, *]

theorem Dev.ocount_wf : ∀ d o n, Memory.wf d = true → Memory.wf (Dev.ocount d o n) = true := by
  intros; unfold Dev.ocount; simp +contextual (maxDischargeDepth := 40) only [Dev.oput_wf, *]

theorem Dev.draw_wf : ∀ d, Memory.wf d = true → Memory.wf (Dev.draw d).2 = true := by
  intros; unfold Dev.draw; simp +contextual (maxDischargeDepth := 40) only [Memory.wf_mk, Memory.wf_host,
    Memory.wf_mem, Bool.and_self, *]

theorem Dev.emit_wf : ∀ d o, Memory.wf d = true → Memory.wf (Dev.emit d o) = true := by
  intros; unfold Dev.emit; simp +contextual (maxDischargeDepth := 40) only [Memory.wf_mk, Memory.wf_host,
    Memory.wf_mem, Bool.and_self, *]

theorem Dev.hostWrite_wf : ∀ d a bs, Memory.wf d = true → Memory.wf (Dev.hostWrite d a bs) = true := by
  intros; unfold Dev.hostWrite; simp +contextual (maxDischargeDepth := 40) only [Memory.wf_mk, Memory.wf_host,
    Memory.wf_mem, Bool.and_self, Sparse.wf_setAll, *]

theorem Dev.setChan_wf : ∀ d c x, Memory.wf d = true → Memory.wf (Dev.setChan d c x) = true := by
  intros; unfold Dev.setChan; simp +contextual (maxDischargeDepth := 40) only [Memory.wf_mk, Mem.wf_mk,
    Memory.wf_host, Memory.wf_mem, Memory.wf_cells, Memory.wf_poison, Bool.and_self, *]

theorem Dev.poison_wf : ∀ d a, Memory.wf d = true → Memory.wf (Dev.poison d a) = true := by
  intros; unfold Dev.poison; simp +contextual (maxDischargeDepth := 40) only [Memory.wf_mk, Mem.wf_mk, Memory.wf_host,
    Memory.wf_mem, Memory.wf_cells, Memory.wf_poison, Bool.and_self, Sparse.wf_set, Memory.wf_ite, *]

theorem Dev.memWrite_wf : ∀ d a bs, Memory.wf d = true → Memory.wf (Dev.memWrite d a bs) = true := by
  intros; unfold Dev.memWrite; simp +contextual (maxDischargeDepth := 40) only [Memory.wf_mk, Mem.wf_mk,
    Memory.wf_host, Memory.wf_mem, Memory.wf_cells, Memory.wf_poison, Bool.and_self, Sparse.wf_setAll, *]

theorem Dev.memWriteAt_wf : ∀ d ps, Memory.wf d = true → Memory.wf (Dev.memWriteAt d ps) = true := by
  intros; unfold Dev.memWriteAt; simp +contextual (maxDischargeDepth := 40) only [Memory.wf_mk, Mem.wf_mk,
    Memory.wf_host, Memory.wf_mem, Memory.wf_cells, Memory.wf_poison, Bool.and_self, Sparse.wf_setAll, *]

theorem Dev.setSbank_wf : ∀ d c b x, Memory.wf d = true → Memory.wf (Dev.setSbank d c b x) = true := by
  intros; unfold Dev.setSbank; simp +contextual (maxDischargeDepth := 40) only [Memory.wf_mk, Memory.wf_host,
    Memory.wf_mem, Bool.and_self, *]

theorem Dev.writeLine_wf : ∀ d l, Memory.wf d = true → Memory.wf (Dev.writeLine d l) = true := by
  intros; unfold Dev.writeLine; simp +contextual (maxDischargeDepth := 40) only [Memory.wf_foldl, implies_true,
    Dev.poison_wf, Dev.memWriteAt_wf, *]

theorem Dev.sillSnoop_wf : ∀ d c line, Memory.wf d = true → Memory.wf (Dev.sillSnoop d c line) = true := by
  intros; unfold Dev.sillSnoop; dsimp only; (repeat' split) <;> simp +contextual (maxDischargeDepth := 40) only
    [Dev.writeLine_wf, Dev.setSbank_wf, *]

theorem Dev.snoopAll_wf : ∀ d lines, Memory.wf d = true → Memory.wf (Dev.snoopAll d lines) = true := by
  intros; unfold Dev.snoopAll; simp +contextual (maxDischargeDepth := 40) only [Memory.wf_ite, Memory.wf_foldl,
    implies_true, Dev.sillSnoop_wf, *]

theorem Dev.writeOut_wf : ∀ d c l, Memory.wf d = true → Memory.wf (Dev.writeOut d c l) = true := by
  intros; unfold Dev.writeOut; simp +contextual (maxDischargeDepth := 40) only [Memory.wf_ite, Memory.wf_foldl,
    implies_true, Dev.writeLine_wf, Dev.sillSnoop_wf, *]

theorem Dev.writeBack_wf : ∀ d c l, Memory.wf d = true → Memory.wf (Dev.writeBack d c l) = true := by
  intros; unfold Dev.writeBack; simp +contextual (maxDischargeDepth := 40) only [Dev.ocount_wf, Dev.writeOut_wf, *]

theorem Dev.parkTouch_wf : ∀ d a n, Memory.wf d = true → Memory.wf (Dev.parkTouch d a n) = true := by
  intros; unfold Dev.parkTouch; simp +contextual (maxDischargeDepth := 40) only [Memory.wf_mk, Memory.wf_host,
    Memory.wf_mem, Bool.and_self, Memory.wf_ite, Dev.draw_wf, *]

theorem Dev.engWrite_wf : ∀ d a bs, Memory.wf d = true → Memory.wf (Dev.engWrite d a bs) = true := by
  intros; unfold Dev.engWrite; simp +contextual (maxDischargeDepth := 40) only [Dev.parkTouch_wf, Dev.memWrite_wf,
    Dev.snoopAll_wf, *]

theorem Dev.writeSpace_wf : ∀ d eng a bs, Memory.wf d = true → Memory.wf (Dev.writeSpace d eng a bs) = true := by
  intros; unfold Dev.writeSpace; simp +contextual (maxDischargeDepth := 40) only [Memory.wf_ite, Dev.engWrite_wf,
    Dev.hostWrite_wf, *]

theorem Dev.raiseVector_wf : ∀ d v, Memory.wf d = true → Memory.wf (Dev.raiseVector d v) = true := by
  intros; unfold Dev.raiseVector; simp +contextual (maxDischargeDepth := 40) only [Memory.wf_mk, Memory.wf_host,
    Memory.wf_mem, Bool.and_self, Memory.wf_ite, Dev.emit_wf, *]

theorem Dev.faultCount_wf : ∀ d n, Memory.wf d = true → Memory.wf (Dev.faultCount d n) = true := by
  intros; unfold Dev.faultCount; simp +contextual (maxDischargeDepth := 40) only [Dev.for__wf, Dev.fcount_wf, *]

theorem Dev.faultCapture_wf : ∀ d n sev syndrome injected, Memory.wf d = true → Memory.wf (Dev.faultCapture d n sev
    syndrome injected).1 = true := by
  intros; unfold Dev.faultCapture; dsimp only; (repeat' split) <;> simp +contextual (maxDischargeDepth := 40) only
    [Memory.wf_foldl, implies_true, Dev.ocount_wf, Dev.fputB_wf, Dev.fput_wf, *]

theorem Dev.faultIrq_wf : ∀ d, Memory.wf d = true → Memory.wf (Dev.faultIrq d) = true := by
  intros; unfold Dev.faultIrq; simp +contextual (maxDischargeDepth := 40) only [Dev.raiseVector_wf, *]

theorem Dev.scatter_wf : ∀ d a y2, Memory.wf d = true → Memory.wf (Dev.scatter d a y2) = true := by
  intro d a y2; fun_induction Dev.scatter d a y2 <;> intros <;> grind [Memory.wf_mk, Mem.wf_mk, → Memory.wf_host, →
    Memory.wf_mem, → Memory.wf_cells, → Memory.wf_poison, Sparse.wf_set, Sparse.wf_setAll, Memory.wf_foldl,
    Dev.writeSpace_wf]

theorem Dev.setQueue_wf : ∀ d q x, Memory.wf d = true → Memory.wf (Dev.setQueue d q x) = true := by
  intros; unfold Dev.setQueue; simp +contextual (maxDischargeDepth := 40) only [Memory.wf_mk, Memory.wf_host,
    Memory.wf_mem, Bool.and_self, *]

theorem Dev.mapCmd_wf : ∀ d id f, Memory.wf d = true → Memory.wf (Dev.mapCmd d id f) = true := by
  intros; unfold Dev.mapCmd; simp +contextual (maxDischargeDepth := 40) only [Memory.wf_mk, Memory.wf_host,
    Memory.wf_mem, Bool.and_self, *]

theorem Dev.countPoison_wf : ∀ d status, Memory.wf d = true → Memory.wf (Dev.countPoison d status) = true := by
  intros; unfold Dev.countPoison; simp +contextual (maxDischargeDepth := 40) only [Memory.wf_ite, Dev.ocount_wf, *]

theorem Dev.finish_wf : ∀ d id status result len, Memory.wf d = true → Memory.wf (Dev.finish d id status result len) =
    true := by
  intros; unfold Dev.finish; simp +contextual (maxDischargeDepth := 40) only [Dev.mapCmd_wf, Dev.countPoison_wf, *]

theorem Dev.mirror_wf : ∀ d q, Memory.wf d = true → Memory.wf (Dev.mirror d q) = true := by
  intros; unfold Dev.mirror; simp +contextual (maxDischargeDepth := 40) only [Memory.wf_ite, Dev.writeSpace_wf, *]

theorem Dev.queueIrq_wf : ∀ d q, Memory.wf d = true → Memory.wf (Dev.queueIrq d q) = true := by
  intros; unfold Dev.queueIrq; simp +contextual (maxDischargeDepth := 40) only [Memory.wf_ite, Dev.mirror_wf,
    Dev.raiseVector_wf, Dev.setQueue_wf, *]

theorem Dev.dropCmd_wf : ∀ d id, Memory.wf d = true → Memory.wf (Dev.dropCmd d id) = true := by
  intros; unfold Dev.dropCmd; simp +contextual (maxDischargeDepth := 40) only [Memory.wf_mk, Memory.wf_host,
    Memory.wf_mem, Bool.and_self, *]

theorem Dev.writeCqe_wf : ∀ d c, Memory.wf d = true → Memory.wf (Dev.writeCqe d c) = true := by
  intros; unfold Dev.writeCqe; simp +contextual (maxDischargeDepth := 40) only [Dev.writeSpace_wf, Dev.setQueue_wf,
    Dev.ocount_wf, Dev.dropCmd_wf, *]

theorem Dev.settleQueue_wf : ∀ d q, Memory.wf d = true → Memory.wf (Dev.settleQueue d q) = true := by
  intros; unfold Dev.settleQueue; dsimp only; (repeat' split) <;> simp +contextual (maxDischargeDepth := 40) only
    [Memory.wf_mk, Memory.wf_host, Memory.wf_mem, Bool.and_self, Dev.setQueue_wf, *]

theorem Dev.toBacklog_wf : ∀ d c, Memory.wf d = true → Memory.wf (Dev.toBacklog d c) = true := by
  intros; unfold Dev.toBacklog; simp +contextual (maxDischargeDepth := 40) only [Memory.wf_mk, Memory.wf_host,
    Memory.wf_mem, Bool.and_self, Memory.wf_ite, Dev.mapCmd_wf, Dev.fput_wf, Dev.queueIrq_wf, Dev.ocount_wf,
    Dev.setQueue_wf, *]

theorem Dev.post_wf : ∀ d c, Memory.wf d = true → Memory.wf (Dev.post d c) = true := by
  intros; unfold Dev.post; simp +contextual (maxDischargeDepth := 40) only [Memory.wf_ite, Dev.settleQueue_wf,
    Dev.mirror_wf, Dev.dropCmd_wf, Dev.writeCqe_wf, Dev.queueIrq_wf, Dev.toBacklog_wf, *]

theorem Dev.completionPost_wf : ∀ d id, Memory.wf d = true → Memory.wf (Dev.completionPost d id) = true := by
  intros; unfold Dev.completionPost; (repeat' split) <;> simp +contextual (maxDischargeDepth := 40) only [Dev.post_wf,
    *]

theorem Dev.drainBacklog_wf : ∀ d q a, Memory.wf d = true → Memory.wf (Dev.drainBacklog d q a) = true := by
  intro d q a; fun_induction Dev.drainBacklog d q a <;> intros <;> grind [Memory.wf_mk, Mem.wf_mk, → Memory.wf_host, →
    Memory.wf_mem, → Memory.wf_cells, → Memory.wf_poison, Sparse.wf_set, Sparse.wf_setAll, Memory.wf_foldl,
    Dev.setQueue_wf, Dev.writeCqe_wf, Dev.queueIrq_wf]

theorem Dev.badDoorbell_wf : ∀ d, Memory.wf d = true → Memory.wf (Dev.badDoorbell d) = true := by
  intros; unfold Dev.badDoorbell; simp +contextual (maxDischargeDepth := 40) only [Dev.ocount_wf, Dev.fcount_wf, *]

theorem Dev.sqDoorbell_wf : ∀ d q n, Memory.wf d = true → Memory.wf (Dev.sqDoorbell d q n) = true := by
  intros; unfold Dev.sqDoorbell; simp +contextual (maxDischargeDepth := 40) only [Memory.wf_ite, Dev.setQueue_wf,
    Dev.badDoorbell_wf, *]

theorem Dev.cqDoorbell_wf : ∀ d q n, Memory.wf d = true → Memory.wf (Dev.cqDoorbell d q n) = true := by
  intros; unfold Dev.cqDoorbell; simp +contextual (maxDischargeDepth := 40) only [Memory.wf_ite, Dev.setQueue_wf,
    Dev.mirror_wf, Dev.drainBacklog_wf, Dev.badDoorbell_wf, *]

theorem Dev.doorbellWrite_wf : ∀ d q consumer width value, Memory.wf d = true → Memory.wf (Dev.doorbellWrite d q
    consumer width value) = true := by
  intros; unfold Dev.doorbellWrite; simp +contextual (maxDischargeDepth := 40) only [Memory.wf_ite, Dev.cqDoorbell_wf,
    Dev.sqDoorbell_wf, Dev.badDoorbell_wf, *]

theorem Dev.addCmd_wf : ∀ d c, Memory.wf d = true → Memory.wf (Dev.addCmd d c) = true := by
  intros; unfold Dev.addCmd; simp +contextual (maxDischargeDepth := 40) only [Memory.wf_mk, Memory.wf_host,
    Memory.wf_mem, Bool.and_self, *]

theorem Dev.fetchFail_wf : ∀ d q status tag, Memory.wf d = true → Memory.wf (Dev.fetchFail d q status tag) = true := by
  intros; unfold Dev.fetchFail; simp +contextual (maxDischargeDepth := 40) only [Dev.post_wf, Dev.addCmd_wf,
    Dev.setQueue_wf, Dev.queueIrq_wf, Dev.ocount_wf, Dev.countPoison_wf, *]

theorem Dev.fetchOne_wf : ∀ d q, Memory.wf d = true → Memory.wf (Dev.fetchOne d q) = true := by
  intros; unfold Dev.fetchOne; dsimp only; (repeat' split) <;> simp +contextual (maxDischargeDepth := 40) only
    [Dev.fetchFail_wf, Dev.addCmd_wf, Dev.mirror_wf, Dev.ocount_wf, Dev.setQueue_wf, *]

theorem Dev.fetchMany_wf : ∀ d q a, Memory.wf d = true → Memory.wf (Dev.fetchMany d q a) = true := by
  intro d q a; fun_induction Dev.fetchMany d q a <;> intros <;> grind [Memory.wf_mk, Mem.wf_mk, → Memory.wf_host, →
    Memory.wf_mem, → Memory.wf_cells, → Memory.wf_poison, Sparse.wf_set, Sparse.wf_setAll, Memory.wf_foldl,
    Dev.fetchOne_wf]

theorem Dev.turn_wf : ∀ d q, Memory.wf d = true → Memory.wf (Dev.turn d q) = true := by
  intros; unfold Dev.turn; simp +contextual (maxDischargeDepth := 40) only [Dev.fetchMany_wf, *]

theorem Dev.entryFetch_wf : ∀ d unrotated, Memory.wf d = true → Memory.wf (Dev.entryFetch d unrotated) = true := by
  intros; unfold Dev.entryFetch; (repeat' split) <;> simp +contextual (maxDischargeDepth := 40) only [Memory.wf_mk,
    Memory.wf_host, Memory.wf_mem, Bool.and_self, Dev.turn_wf, *]

theorem Dev.markDispatched_wf : ∀ d id, Memory.wf d = true → Memory.wf (Dev.markDispatched d id) = true := by
  intros; unfold Dev.markDispatched; simp +contextual (maxDischargeDepth := 40) only [Memory.wf_mk, Memory.wf_host,
    Memory.wf_mem, Bool.and_self, Dev.mapCmd_wf, *]

theorem Dev.qctlReject_wf : ∀ d, Memory.wf d = true → Memory.wf (Dev.qctlReject d) = true := by
  intros; unfold Dev.qctlReject; simp +contextual (maxDischargeDepth := 40) only [Dev.fputB_wf, *]

theorem Dev.qctlCreate_wf : ∀ d q, Memory.wf d = true → Memory.wf (Dev.qctlCreate d q) = true := by
  intros; unfold Dev.qctlCreate; simp +contextual (maxDischargeDepth := 40) only [Memory.wf_ite, Dev.mirror_wf,
    Dev.setQueue_wf, Dev.qctlReject_wf, *]

theorem Dev.qctlResume_wf : ∀ d q, Memory.wf d = true → Memory.wf (Dev.qctlResume d q) = true := by
  intros; unfold Dev.qctlResume; simp +contextual (maxDischargeDepth := 40) only [Memory.wf_ite, Dev.mirror_wf,
    Dev.setQueue_wf, Dev.qctlReject_wf, *]

theorem Dev.coalesceTimeout_wf : ∀ d q, Memory.wf d = true → Memory.wf (Dev.coalesceTimeout d q) = true := by
  intros; unfold Dev.coalesceTimeout; simp +contextual (maxDischargeDepth := 40) only [Memory.wf_ite, Dev.queueIrq_wf,
    *]

theorem Dev.faultRaise_wf : ∀ d n syndrome injected, Memory.wf d = true → Memory.wf (Dev.faultRaise d n syndrome
    injected) = true := by
  intros; unfold Dev.faultRaise; simp +contextual (maxDischargeDepth := 40) only [Memory.wf_mk, Memory.wf_host,
    Memory.wf_mem, Bool.and_self, Memory.wf_ite, Dev.faultCount_wf, Dev.faultCapture_wf, Dev.faultIrq_wf, *]

theorem Dev.fiConsume_wf : ∀ d, Memory.wf d = true → Memory.wf (Dev.fiConsume d) = true := by
  intros; unfold Dev.fiConsume; simp +contextual (maxDischargeDepth := 40) only [Memory.wf_ite, Dev.ocount_wf,
    Dev.fputB_wf, Dev.fcount_wf, *]

theorem Dev.setBcas_wf : ∀ d c x, Memory.wf d = true → Memory.wf (Dev.setBcas d c x) = true := by
  intros; unfold Dev.setBcas; simp +contextual (maxDischargeDepth := 40) only [Memory.wf_mk, Memory.wf_host,
    Memory.wf_mem, Bool.and_self, *]

theorem Dev.offerBlock_wf : ∀ d r0, Memory.wf d = true → Memory.wf (Dev.offerBlock d r0) = true := by
  intros; unfold Dev.offerBlock; (repeat' split) <;> simp +contextual (maxDischargeDepth := 40) only [Memory.wf_mk,
    Memory.wf_host, Memory.wf_mem, Bool.and_self, Dev.setBcas_wf, *]

theorem Dev.refillBlocks_wf : ∀ d, Memory.wf d = true → Memory.wf (Dev.refillBlocks d) = true := by
  intros; unfold Dev.refillBlocks; simp +contextual (maxDischargeDepth := 40) only [Memory.wf_mk, Memory.wf_host,
    Memory.wf_mem, Bool.and_self, Memory.wf_foldl, implies_true, Dev.offerBlock_wf, *]

theorem Dev.mapJob_wf : ∀ d o f, Memory.wf d = true → Memory.wf (Dev.mapJob d o f) = true := by
  intros; unfold Dev.mapJob; simp +contextual (maxDischargeDepth := 40) only [Memory.wf_mk, Memory.wf_host,
    Memory.wf_mem, Bool.and_self, *]

theorem Dev.startJob_wf : ∀ d j, Memory.wf d = true → Memory.wf (Dev.startJob d j) = true := by
  intros; unfold Dev.startJob; simp +contextual (maxDischargeDepth := 40) only [Memory.wf_mk, Memory.wf_host,
    Memory.wf_mem, Bool.and_self, Memory.wf_foldl, implies_true, Dev.offerBlock_wf, *]

theorem Dev.unqueue_wf : ∀ d o, Memory.wf d = true → Memory.wf (Dev.unqueue d o) = true := by
  intros; unfold Dev.unqueue; simp +contextual (maxDischargeDepth := 40) only [Memory.wf_mk, Memory.wf_host,
    Memory.wf_mem, Bool.and_self, Memory.wf_foldl, implies_true, Dev.setBcas_wf, *]

theorem Dev.abandonBlocks_wf : ∀ d o, Memory.wf d = true → Memory.wf (Dev.abandonBlocks d o) = true := by
  intros; unfold Dev.abandonBlocks; simp +contextual (maxDischargeDepth := 40) only [Memory.wf_foldl, implies_true,
    Dev.setBcas_wf, *]

theorem Dev.cutLists_wf : ∀ d p st, Memory.wf d = true → Memory.wf (Dev.cutLists d p st) = true := by
  intros; unfold Dev.cutLists; simp +contextual (maxDischargeDepth := 40) only [Memory.wf_mk, Memory.wf_host,
    Memory.wf_mem, Bool.and_self, *]

theorem Dev.dropJob_wf : ∀ d o, Memory.wf d = true → Memory.wf (Dev.dropJob d o) = true := by
  intros; unfold Dev.dropJob; simp +contextual (maxDischargeDepth := 40) only [Memory.wf_mk, Memory.wf_host,
    Memory.wf_mem, Bool.and_self, Dev.cutLists_wf, Dev.abandonBlocks_wf, Dev.unqueue_wf, Dev.refillBlocks_wf, *]

theorem Dev.stopJob_wf : ∀ d o, Memory.wf d = true → Memory.wf (Dev.stopJob d o) = true := by
  intros; unfold Dev.stopJob; simp +contextual (maxDischargeDepth := 40) only [Dev.refillBlocks_wf, Dev.unqueue_wf,
    Dev.mapJob_wf, *]

theorem Dev.blockStart_wf : ∀ d c, Memory.wf d = true → Memory.wf (Dev.blockStart d c) = true := by
  intros; unfold Dev.blockStart; dsimp only; (repeat' split) <;> simp +contextual (maxDischargeDepth := 40) only
    [Dev.refillBlocks_wf, Dev.setBcas_wf, *]

theorem Dev.runBlock_wf : ∀ d c j i, Memory.wf d = true → Memory.wf (Dev.runBlock d c j i).1 = true := by
  intros; unfold Dev.runBlock; (repeat' split) <;> simp +contextual (maxDischargeDepth := 40) only [Memory.wf_ite,
    Dev.draw_wf, Dev.ocount_wf, Dev.fcount_wf, *]

theorem Dev.blockParity_wf : ∀ d c e r0 offset injected, Memory.wf d = true → Memory.wf (Dev.blockParity d c e r0
    offset injected) = true := by
  intros; unfold Dev.blockParity; dsimp only; (repeat' split) <;> simp +contextual (maxDischargeDepth := 40) only
    [Memory.wf_mk, Memory.wf_host, Memory.wf_mem, Bool.and_self, Dev.setBcas_wf, Dev.faultRaise_wf, *]

theorem Dev.blockDone_wf : ∀ d c e parity, Memory.wf d = true → Memory.wf (Dev.blockDone d c e parity) = true := by
  intros; unfold Dev.blockDone; dsimp only; (repeat' split) <;> simp +contextual (maxDischargeDepth := 40) only
    [Dev.setBcas_wf, Dev.blockParity_wf, Dev.fiConsume_wf, Dev.runBlock_wf, Dev.mapJob_wf, *]

theorem Dev.bifoldLeave_wf : ∀ d c atOnce, Memory.wf d = true → Memory.wf (Dev.bifoldLeave d c atOnce) = true := by
  intros; unfold Dev.bifoldLeave; simp +contextual (maxDischargeDepth := 40) only [Memory.wf_foldl, implies_true,
    Dev.setBcas_wf, Dev.offerBlock_wf, *]

theorem Dev.bifoldEnd_wf : ∀ d c j dst listStatus, Memory.wf d = true → Memory.wf (Dev.bifoldEnd d c j dst listStatus)
    = true := by
  intros; unfold Dev.bifoldEnd; simp +contextual (maxDischargeDepth := 40) only [Dev.finish_wf, Dev.dropJob_wf,
    Dev.scatter_wf, *]

theorem Dev.bifoldRun_wf : ∀ d id op build, Memory.wf d = true → Memory.wf (Dev.bifoldRun d id op build) = true := by
  intros; unfold Dev.bifoldRun; dsimp only; (repeat' split) <;> grind [Memory.wf_mk, Mem.wf_mk, → Memory.wf_host, →
    Memory.wf_mem, → Memory.wf_cells, → Memory.wf_poison, Sparse.wf_set, Sparse.wf_setAll, Memory.wf_foldl,
    Dev.finish_wf, Dev.dropJob_wf, Dev.startJob_wf, Dev.bifoldEnd_wf]

end Sys2Proof.Machine
end

