-- ==== Sys2Proof/Laws/MemoryB.lean ====
section
/-!
SUPPORT. Every operation of Louvre, Join, SortAgg, Persist, Sill keeps memory in its canonical form.
-/

set_option linter.style.nameCheck false

namespace Sys2Proof.Machine

theorem Dev.setLvBank_wf : ∀ d c b x, Memory.wf d = true → Memory.wf (Dev.setLvBank d c b x) = true := by
  intros; unfold Dev.setLvBank; simp +contextual (maxDischargeDepth := 40) only [Memory.wf_mk, Memory.wf_host,
    Memory.wf_mem, Bool.and_self, *]

theorem Dev.setLvTable_wf : ∀ d t x, Memory.wf d = true → Memory.wf (Dev.setLvTable d t x) = true := by
  intros; unfold Dev.setLvTable; simp +contextual (maxDischargeDepth := 40) only [Memory.wf_mk, Memory.wf_host,
    Memory.wf_mem, Bool.and_self, *]

theorem Dev.lvDamage_wf : ∀ d t, Memory.wf d = true → Memory.wf (Dev.lvDamage d t) = true := by
  intros; unfold Dev.lvDamage; (repeat' split) <;> simp +contextual (maxDischargeDepth := 40) only [Dev.setLvTable_wf,
    *]

theorem Dev.lvCount_wf : ∀ d walk, Memory.wf d = true → Memory.wf (Dev.lvCount d walk) = true := by
  intros; unfold Dev.lvCount; simp +contextual (maxDischargeDepth := 40) only [Memory.wf_ite, Dev.ocount_wf, *]

theorem Dev.lvUnbind_wf : ∀ d t, Memory.wf d = true → Memory.wf (Dev.lvUnbind d t) = true := by
  intros; unfold Dev.lvUnbind; simp +contextual (maxDischargeDepth := 40) only [Memory.wf_mk, Memory.wf_host,
    Memory.wf_mem, Bool.and_self, Dev.setLvTable_wf, *]

theorem Dev.lvBindCopy_wf : ∀ d t c free lists, Memory.wf d = true → Memory.wf (Dev.lvBindCopy d t c free lists) =
    true := by
  intros; unfold Dev.lvBindCopy; simp +contextual (maxDischargeDepth := 40) only [Memory.wf_foldl, implies_true,
    Dev.setLvBank_wf, *]

theorem Dev.lvRetire_wf : ∀ d t owner, Memory.wf d = true → Memory.wf (Dev.lvRetire d t owner) = true := by
  intros; unfold Dev.lvRetire; simp +contextual (maxDischargeDepth := 40) only [Memory.wf_mk, Memory.wf_host,
    Memory.wf_mem, Bool.and_self, Memory.wf_ite, Dev.lvUnbind_wf, Dev.setLvTable_wf, *]

theorem Dev.lvSweep_wf : ∀ d, Memory.wf d = true → Memory.wf (Dev.lvSweep d) = true := by
  intros; unfold Dev.lvSweep; simp +contextual (maxDischargeDepth := 40) only [Memory.wf_foldl, implies_true,
    Dev.lvUnbind_wf, *]

theorem Dev.lvBind_wf : ∀ d t x es, Memory.wf d = true → ∀ r, (Dev.lvBind d t x es) = some r → Memory.wf r = true := by
  intros; unfold Dev.lvBind at *; grind [Memory.wf_mk, Mem.wf_mk, → Memory.wf_host, → Memory.wf_mem, →
    Memory.wf_cells, → Memory.wf_poison, Sparse.wf_set, Sparse.wf_setAll, Memory.wf_foldl, Dev.lvRetire_wf,
    Dev.lvBindCopy_wf, Dev.setLvTable_wf]

theorem Dev.lvResult_wf : ∀ d id t st records fail noEffect, Memory.wf d = true → Memory.wf (Dev.lvResult d id t st
    records fail noEffect) = true := by
  intros; unfold Dev.lvResult; simp +contextual (maxDischargeDepth := 40) only [Dev.finish_wf, *]

theorem Dev.lvCreate_wf : ∀ d id b, Memory.wf d = true → Memory.wf (Dev.lvCreate d id b) = true := by
  intros; unfold Dev.lvCreate; grind [Memory.wf_mk, Mem.wf_mk, → Memory.wf_host, → Memory.wf_mem, → Memory.wf_cells, →
    Memory.wf_poison, Sparse.wf_set, Sparse.wf_setAll, Memory.wf_foldl, Dev.lvResult_wf, Dev.lvBind_wf]

theorem Dev.louvreCreate_wf : ∀ d id, Memory.wf d = true → Memory.wf (Dev.louvreCreate d id) = true := by
  intros; unfold Dev.louvreCreate; (repeat' split) <;> simp +contextual (maxDischargeDepth := 40) only [Memory.wf_ite,
    Dev.lvResult_wf, Dev.lvCreate_wf, *]

theorem Dev.louvreSwap_wf : ∀ d id, Memory.wf d = true → Memory.wf (Dev.louvreSwap d id) = true := by
  intros; unfold Dev.louvreSwap; (repeat' split) <;> simp +contextual (maxDischargeDepth := 40) only [Memory.wf_ite,
    Dev.lvResult_wf, Dev.lvCreate_wf, *]

theorem Dev.louvreUnload_wf : ∀ d id, Memory.wf d = true → Memory.wf (Dev.louvreUnload d id) = true := by
  intros; unfold Dev.louvreUnload; (repeat' split) <;> simp +contextual (maxDischargeDepth := 40) only [Memory.wf_ite,
    Dev.lvResult_wf, Dev.lvUnbind_wf, *]

theorem Dev.lvPut_wf : ∀ d t x ordinal pos e, Memory.wf d = true → Memory.wf (Dev.lvPut d t x ordinal pos e) = true := by
  intros; unfold Dev.lvPut; simp +contextual (maxDischargeDepth := 40) only [Memory.wf_ite, Memory.wf_foldl,
    implies_true, Dev.setLvBank_wf, *]

theorem Dev.lvWriteRecord_wf : ∀ d t x r0, Memory.wf d = true → ∀ r, (Dev.lvWriteRecord d t x r0) = some r → Memory.wf r = true := by
  intro d t x e h r hr
  have p (o i v) : Memory.wf (d.lvPut t x o i v) = true := Dev.lvPut_wf _ _ _ _ _ _ h
  simp only [Dev.lvWriteRecord] at hr
  repeat' split at hr
  all_goals simp only [Option.map_eq_some_iff, Option.some.injEq] at hr
  all_goals grind

theorem Dev.lvWriteAll_wf : ∀ d t x a y4, Memory.wf d = true → Memory.wf (Dev.lvWriteAll d t x a y4).1 = true := by
  intro d t x a y4; fun_induction Dev.lvWriteAll d t x a y4 <;> intros <;> grind [Memory.wf_mk, Mem.wf_mk, →
    Memory.wf_host, → Memory.wf_mem, → Memory.wf_cells, → Memory.wf_poison, Sparse.wf_set, Sparse.wf_setAll,
    Memory.wf_foldl, Dev.lvWriteRecord_wf]

theorem Dev.louvreWrite_wf : ∀ d id, Memory.wf d = true → Memory.wf (Dev.louvreWrite d id) = true := by
  intros; unfold Dev.louvreWrite; dsimp only; (repeat' split) <;> simp +contextual (maxDischargeDepth := 40) only
    [Dev.lvResult_wf, Dev.lvWriteAll_wf, *]

theorem Dev.louvreLoadFlush_wf : ∀ d c, Memory.wf d = true → Memory.wf (Dev.louvreLoadFlush d c) = true := by
  intros; unfold Dev.louvreLoadFlush; dsimp only; (repeat' split) <;> simp +contextual (maxDischargeDepth := 40) only
    [Dev.lvWriteAll_wf, Dev.draw_wf, Dev.lvResult_wf, *]

theorem Dev.lvVerifyFail_wf : ∀ d c t index retry again injected, Memory.wf d = true → Memory.wf (Dev.lvVerifyFail d c
    t index retry again injected) = true := by
  intros; unfold Dev.lvVerifyFail; simp +contextual (maxDischargeDepth := 40) only [Memory.wf_ite, Dev.ocount_wf,
    Dev.fcount_wf, Dev.faultRaise_wf, *]

theorem Dev.lvVerify_wf : ∀ d c t index shadow retry twice, Memory.wf d = true → Memory.wf (Dev.lvVerify d c t index
    shadow retry twice).1 = true := by
  intros; unfold Dev.lvVerify; (repeat' split) <;> simp +contextual (maxDischargeDepth := 40) only
    [Dev.lvVerifyFail_wf, *]

theorem Dev.lvSearchKeys_wf : ∀ d t c x maxm fail a y7 y8 y9, Memory.wf d = true → Memory.wf (Dev.lvSearchKeys d t c x
    maxm fail a y7 y8 y9).1 = true := by
  intro d t c x maxm fail a y7 y8 y9; fun_induction Dev.lvSearchKeys d t c x maxm fail a y7 y8 y9 <;> intros <;> grind
    [Memory.wf_mk, Mem.wf_mk, → Memory.wf_host, → Memory.wf_mem, → Memory.wf_cells, → Memory.wf_poison, Sparse.wf_set,
    Sparse.wf_setAll, Memory.wf_foldl, Dev.lvCount_wf, Dev.lvVerify_wf]

theorem Dev.searchEnd_wf : ∀ d c x fail st ks, Memory.wf d = true → Memory.wf (Dev.searchEnd d c x fail st ks) = true := by
  intros; unfold Dev.searchEnd; simp +contextual (maxDischargeDepth := 40) only [Dev.lvSearchKeys_wf, Dev.finish_wf,
    Dev.writeSpace_wf, *]

theorem Dev.louvreSearch_wf : ∀ d id fail, Memory.wf d = true → Memory.wf (Dev.louvreSearch d id fail) = true := by
  intros; unfold Dev.louvreSearch; dsimp only; (repeat' split) <;> simp +contextual (maxDischargeDepth := 40) only
    [Dev.finish_wf, Dev.searchEnd_wf, *]

theorem Dev.searchFlush_wf : ∀ d c, Memory.wf d = true → Memory.wf (Dev.searchFlush d c) = true := by
  intros; unfold Dev.searchFlush; dsimp only; (repeat' split) <;> simp +contextual (maxDischargeDepth := 40) only
    [Dev.finish_wf, Dev.searchEnd_wf, Dev.draw_wf, *]

theorem Dev.lvScrub_wf : ∀ d c b repaired lost, Memory.wf d = true → Memory.wf (Dev.lvScrub d c b repaired lost) =
    true := by
  intros; unfold Dev.lvScrub; dsimp only; (repeat' split) <;> simp +contextual (maxDischargeDepth := 40) only
    [Memory.wf_foldl, implies_true, Dev.faultRaise_wf, Dev.ocount_wf, Dev.fcount_wf, Dev.setLvBank_wf,
    Dev.lvDamage_wf, *]

theorem Dev.lvClearBank_wf : ∀ d c b fenced, Memory.wf d = true → Memory.wf (Dev.lvClearBank d c b fenced) = true := by
  intros; unfold Dev.lvClearBank; simp +contextual (maxDischargeDepth := 40) only [Dev.setLvBank_wf, *]

theorem Dev.lvDropCopy_wf : ∀ d t c, Memory.wf d = true → Memory.wf (Dev.lvDropCopy d t c) = true := by
  intros; unfold Dev.lvDropCopy; (repeat' split) <;> simp +contextual (maxDischargeDepth := 40) only
    [Dev.setLvTable_wf, *]

theorem Dev.lvLoseBank_wf : ∀ d c b, Memory.wf d = true → Memory.wf (Dev.lvLoseBank d c b) = true := by
  intros; unfold Dev.lvLoseBank; dsimp only; (repeat' split) <;> simp +contextual (maxDischargeDepth := 40) only
    [Dev.lvClearBank_wf, Dev.lvDamage_wf, Dev.lvDropCopy_wf, *]

theorem Dev.lvLoseCasement_wf : ∀ d c, Memory.wf d = true → Memory.wf (Dev.lvLoseCasement d c) = true := by
  intros; unfold Dev.lvLoseCasement; grind [Memory.wf_mk, Mem.wf_mk, → Memory.wf_host, → Memory.wf_mem, →
    Memory.wf_cells, → Memory.wf_poison, Sparse.wf_set, Sparse.wf_setAll, Memory.wf_foldl, Dev.lvDropCopy_wf,
    Dev.lvClearBank_wf]

theorem Dev.lvUnfence_wf : ∀ d c b pass, Memory.wf d = true → Memory.wf (Dev.lvUnfence d c b pass) = true := by
  intros; unfold Dev.lvUnfence; simp +contextual (maxDischargeDepth := 40) only [Memory.wf_ite, Dev.setLvBank_wf, *]

theorem Dev.runLvBuild_wf : ∀ d body s es rows x, Memory.wf d = true → Memory.wf (Dev.runLvBuild d body s es rows
    x).dev = true := by
  intros; unfold Dev.runLvBuild; simp +contextual (maxDischargeDepth := 40) only [Dev.ocount_wf, *]

theorem Dev.lookupRows_wf : ∀ d t c tbl s fs a, Memory.wf d = true → Memory.wf (Dev.lookupRows d t c tbl s fs a).2 =
    true := by
  intro d t c tbl s fs a; fun_induction Dev.lookupRows d t c tbl s fs a <;> intros <;> grind [Memory.wf_mk, Mem.wf_mk,
    → Memory.wf_host, → Memory.wf_mem, → Memory.wf_cells, → Memory.wf_poison, Sparse.wf_set, Sparse.wf_setAll,
    Memory.wf_foldl, Dev.lvCount_wf]

theorem Dev.runLookup_wf : ∀ d c t node s ap verify x, Memory.wf d = true → Memory.wf (Dev.runLookup d c t node s ap
    verify x).dev = true := by
  intros; unfold Dev.runLookup; dsimp only; (repeat' split) <;> simp +contextual (maxDischargeDepth := 40) only
    [Dev.lookupRows_wf, Dev.lvVerify_wf, *]

theorem Dev.hjAppend_wf : ∀ d body s k st r0, Memory.wf d = true → Memory.wf (Dev.hjAppend d body s k st r0).1 = true := by
  intros; unfold Dev.hjAppend; dsimp only; (repeat' split) <;> simp +contextual (maxDischargeDepth := 40) only
    [Dev.draw_wf, Dev.ocount_wf, *]

theorem Dev.runHjBuild_wf : ∀ d body s k st x, Memory.wf d = true → Memory.wf (Dev.runHjBuild d body s k st x).dev = true :=
  fun _ _ _ _ _ _ h => foldl_keeps (fun (v : Dev × HjSt) => Memory.wf v.1 = true) _ (fun _ _ hb => Dev.hjAppend_wf _ _ _ _ _ _ hb) _ _ h

theorem Dev.lvRelease_wf : ∀ d t ctx, Memory.wf d = true → Memory.wf (Dev.lvRelease d t ctx) = true := by
  intros; unfold Dev.lvRelease; simp +contextual (maxDischargeDepth := 40) only [Memory.wf_ite, Dev.lvUnbind_wf, *]

theorem Dev.bindOwners_wf : ∀ d ctx t seed ts st a, Memory.wf d = true → ∀ r, (Dev.bindOwners d ctx t seed ts st a) =
    some r → Memory.wf r = true := by
  intro d ctx t seed ts st a; fun_induction Dev.bindOwners d ctx t seed ts st a <;> intros <;> grind [Memory.wf_mk,
    Mem.wf_mk, → Memory.wf_host, → Memory.wf_mem, → Memory.wf_cells, → Memory.wf_poison, Sparse.wf_set,
    Sparse.wf_setAll, Memory.wf_foldl, Dev.lvBind_wf, Dev.lvRelease_wf]

theorem Dev.loadPrefilter_wf : ∀ d ctx body cas st, Memory.wf d = true → Memory.wf (Dev.loadPrefilter d ctx body cas
    st).1 = true := by
  intros; unfold Dev.loadPrefilter; grind [Memory.wf_mk, Mem.wf_mk, → Memory.wf_host, → Memory.wf_mem, →
    Memory.wf_cells, → Memory.wf_poison, Sparse.wf_set, Sparse.wf_setAll, Memory.wf_foldl, Dev.ocount_wf,
    Dev.lvBind_wf, Dev.lvRelease_wf]

theorem Dev.endHjBuild_wf : ∀ d ctx body s cas st, Memory.wf d = true → ∀ r, (Dev.endHjBuild d ctx body s cas st) = some r → Memory.wf r.1 = true := by
  intro d ctx body s cas st h r hr
  simp only [Dev.endHjBuild] at hr
  repeat' split at hr
  all_goals simp only [Option.map_eq_some_iff, Option.some.injEq] at hr
  all_goals grind [Dev.bindOwners_wf, Dev.loadPrefilter_wf]

theorem Dev.probeKey_wf : ∀ d b c usePf key, Memory.wf d = true → Memory.wf (Dev.probeKey d b c usePf key).1 = true := by
  intros; unfold Dev.probeKey; dsimp only; (repeat' split) <;> simp +contextual (maxDischargeDepth := 40) only
    [Dev.ocount_wf, Dev.lvCount_wf, *]

theorem Dev.probeRow_wf : ∀ d b c body r0, Memory.wf d = true → Memory.wf (Dev.probeRow d b c body r0).1 = true := by
  intros; unfold Dev.probeRow; simp +contextual (maxDischargeDepth := 40) only [Dev.probeKey_wf, Dev.ocount_wf, *]

theorem Dev.probeRows_wf : ∀ d b c body a, Memory.wf d = true → Memory.wf (Dev.probeRows d b c body a).1 = true := by
  intro d b c body a; fun_induction Dev.probeRows d b c body a <;> intros <;> grind [Memory.wf_mk, Mem.wf_mk, →
    Memory.wf_host, → Memory.wf_mem, → Memory.wf_cells, → Memory.wf_poison, Sparse.wf_set, Sparse.wf_setAll,
    Memory.wf_foldl, Dev.probeRow_wf]

theorem Dev.runProbe_wf : ∀ d b c node matched x, Memory.wf d = true → Memory.wf (Dev.runProbe d b c node matched
    x).dev = true := by
  intros; unfold Dev.runProbe; dsimp only; (repeat' split) <;> simp +contextual (maxDischargeDepth := 40) only
    [Dev.probeRows_wf, *]

theorem Dev.countTrunc_wf : ∀ d e sorted, Memory.wf d = true → Memory.wf (Dev.countTrunc d e sorted) = true := by
  intros; unfold Dev.countTrunc; simp +contextual (maxDischargeDepth := 40) only [Memory.wf_ite, Dev.ocount_wf,
    Dev.draw_wf, *]

theorem Dev.runSortRun_wf : ∀ d ctx n pane body s st x, Memory.wf d = true → Memory.wf (Dev.runSortRun d ctx n pane
    body s st x).dev = true := by
  intros; unfold Dev.runSortRun; simp +contextual (maxDischargeDepth := 40) only [Memory.wf_foldl, implies_true,
    Dev.countTrunc_wf, Dev.ocount_wf, *]

theorem Dev.runTopk_wf : ∀ d cas body s parts x, Memory.wf d = true → Memory.wf (Dev.runTopk d cas body s parts x).dev
    = true := by
  intros; unfold Dev.runTopk; simp +contextual (maxDischargeDepth := 40) only [*]

theorem Dev.aggRow_wf : ∀ d pane body s loc r0 a, Memory.wf d = true → Memory.wf (Dev.aggRow d pane body s loc r0 a).1
    = true := by
  intros; unfold Dev.aggRow; dsimp only; (repeat' split) <;> simp +contextual (maxDischargeDepth := 40) only
    [Dev.ocount_wf, *]

theorem Dev.runAgg_wf : ∀ d pane body s a x, Memory.wf d = true → Memory.wf (Dev.runAgg d pane body s a x).dev = true := by
  intro d pane body s a x h
  simp only [Dev.runAgg]
  split
  · exact h
  · exact foldl_keeps (fun (v : Dev × AggSt) => Memory.wf v.1 = true) _
      (fun _ _ hb => Dev.aggRow_wf _ _ _ _ _ _ _ hb) _ _ h

theorem Dev.countNulls_wf : ∀ d ctx c, Memory.wf d = true → Memory.wf (Dev.countNulls d ctx c) = true := by
  intros; unfold Dev.countNulls; simp +contextual (maxDischargeDepth := 40) only [Memory.wf_mk, Memory.wf_host,
    Memory.wf_mem, Bool.and_self, Dev.ocount_wf, *]

theorem Dev.runPartition_wf : ∀ d ctx n body s dicts a p, Memory.wf d = true → Memory.wf (Dev.runPartition d ctx n
    body s dicts a p).dev = true := by
  intros; unfold Dev.runPartition; dsimp only; (repeat' split) <;> simp +contextual (maxDischargeDepth := 40) only
    [Dev.ocount_wf, Dev.countNulls_wf, *]

theorem Dev.sortAggOut_wf : ∀ d ctx n body s dicts seq last done, Memory.wf d = true → Memory.wf (Dev.sortAggOut d ctx
    n body s dicts seq last done).2.2 = true := by
  intros; unfold Dev.sortAggOut; simp +contextual (maxDischargeDepth := 40) only [Dev.ocount_wf, Dev.countNulls_wf, *]

theorem Dev.runSortAgg_wf : ∀ d ctx n body s open_ done seq x, Memory.wf d = true → Memory.wf (Dev.runSortAgg d ctx n
    body s open_ done seq x).dev = true := by
  intros; unfold Dev.runSortAgg; (repeat' split) <;> simp +contextual (maxDischargeDepth := 40) only
    [Dev.sortAggOut_wf, *]

theorem Dev.endSortAgg_wf : ∀ d ctx n body s dicts open_ done seq, Memory.wf d = true → Memory.wf (Dev.endSortAgg d
    ctx n body s dicts open_ done seq).2 = true := by
  intros; unfold Dev.endSortAgg; simp +contextual (maxDischargeDepth := 40) only [Dev.sortAggOut_wf, *]

theorem Dev.persistWrite_wf : ∀ d, Memory.wf d = true → Memory.wf (Dev.persistWrite d) = true := by
  intros; unfold Dev.persistWrite; simp +contextual (maxDischargeDepth := 40) only [Memory.wf_mk, Memory.wf_host,
    Memory.wf_mem, Bool.and_self, Dev.ocount_wf, Dev.oput_wf, *]

theorem Dev.setMbank_wf : ∀ d k x, Memory.wf d = true → Memory.wf (Dev.setMbank d k x) = true := by
  intros; unfold Dev.setMbank; simp +contextual (maxDischargeDepth := 40) only [Memory.wf_mk, Mem.wf_mk,
    Memory.wf_host, Memory.wf_mem, Memory.wf_cells, Memory.wf_poison, Bool.and_self, *]

theorem Dev.setSub_wf : ∀ d s x, Memory.wf d = true → Memory.wf (Dev.setSub d s x) = true := by
  intros; unfold Dev.setSub; simp +contextual (maxDischargeDepth := 40) only [Memory.wf_mk, Mem.wf_mk, Memory.wf_host,
    Memory.wf_mem, Memory.wf_cells, Memory.wf_poison, Bool.and_self, *]

theorem Dev.mcEnter_wf : ∀ d write line cas, Memory.wf d = true → ∀ r, (Dev.mcEnter d write line cas) = some r →
    Memory.wf r = true := by
  intros; unfold Dev.mcEnter at *; grind [Memory.wf_mk, Mem.wf_mk, → Memory.wf_host, → Memory.wf_mem, →
    Memory.wf_cells, → Memory.wf_poison, Sparse.wf_set, Sparse.wf_setAll, Memory.wf_foldl, Dev.setMbank_wf]

theorem Dev.install_wf : ∀ d c cls l, Memory.wf d = true → ∀ r, (Dev.install d c cls l) = some r → Memory.wf r = true := by
  intros; unfold Dev.install at *; grind [Memory.wf_mk, Mem.wf_mk, → Memory.wf_host, → Memory.wf_mem, →
    Memory.wf_cells, → Memory.wf_poison, Sparse.wf_set, Sparse.wf_setAll, Memory.wf_foldl, Dev.writeBack_wf,
    Dev.setSbank_wf]

theorem Dev.hitCount_wf : ∀ d c used, Memory.wf d = true → Memory.wf (Dev.hitCount d c used) = true := by
  intros; unfold Dev.hitCount; simp +contextual (maxDischargeDepth := 40) only [Memory.wf_ite, Dev.ocount_wf,
    Dev.fcount64_wf, Dev.fcount_wf, *]

theorem Dev.hit_wf : ∀ d c line w l q, Memory.wf d = true → Memory.wf (Dev.hit d c line w l q) = true := by
  intros; unfold Dev.hit; simp +contextual (maxDischargeDepth := 40) only [Dev.hitCount_wf, Dev.setSbank_wf, *]

theorem Dev.newStream_wf : ∀ d c line p, Memory.wf d = true → Memory.wf (Dev.newStream d c line p) = true := by
  intros; unfold Dev.newStream; simp +contextual (maxDischargeDepth := 40) only [Dev.setSbank_wf, *]

theorem Dev.declareStream_wf : ∀ d c owner line limit, Memory.wf d = true → Memory.wf (Dev.declareStream d c owner
    line limit) = true := by
  intros; unfold Dev.declareStream; dsimp only; (repeat' split) <;> simp +contextual (maxDischargeDepth := 40) only
    [Dev.newStream_wf, Dev.setSbank_wf, *]

theorem Dev.trainStream_wf : ∀ d c owner line, Memory.wf d = true → Memory.wf (Dev.trainStream d c owner line) = true := by
  intros; unfold Dev.trainStream; dsimp only; (repeat' split) <;> simp +contextual (maxDischargeDepth := 40) only
    [Dev.setSbank_wf, Dev.newStream_wf, *]

theorem Dev.releaseStreams_wf : ∀ d c p, Memory.wf d = true → Memory.wf (Dev.releaseStreams d c p) = true := by
  intros; unfold Dev.releaseStreams; simp +contextual (maxDischargeDepth := 40) only [Memory.wf_foldl, implies_true,
    Dev.setSbank_wf, *]

theorem Dev.releaseAllStreams_wf : ∀ d p, Memory.wf d = true → Memory.wf (Dev.releaseAllStreams d p) = true := by
  intros; unfold Dev.releaseAllStreams; simp +contextual (maxDischargeDepth := 40) only [Memory.wf_ite,
    Memory.wf_foldl, implies_true, Dev.releaseStreams_wf, *]

theorem Dev.issueFill_wf : ∀ d c r0, Memory.wf d = true → Memory.wf (Dev.issueFill d c r0).2 = true := by
  intros; unfold Dev.issueFill; grind [Memory.wf_mk, Mem.wf_mk, → Memory.wf_host, → Memory.wf_mem, → Memory.wf_cells,
    → Memory.wf_poison, Sparse.wf_set, Sparse.wf_setAll, Memory.wf_foldl, Dev.mcEnter_wf]

theorem Dev.missAdd_wf : ∀ d c r0, Memory.wf d = true → Memory.wf (Dev.missAdd d c r0) = true := by
  intros; unfold Dev.missAdd; simp +contextual (maxDischargeDepth := 40) only [Dev.issueFill_wf, Dev.setSbank_wf, *]

theorem Dev.recall_wf : ∀ d c line cls q, Memory.wf d = true → ∀ r, (Dev.recall d c line cls q) = some r → Memory.wf r = true := by
  intro d c line cls q h r hr
  simp only [Dev.recall] at hr
  split at hr
  all_goals simp only [Option.map_eq_some_iff, reduceCtorEq] at hr
  all_goals
    obtain ⟨a, ha, rfl⟩ := hr
    exact Dev.hitCount_wf _ _ _ (Dev.ocount_wf _ _ _ (Dev.fcount_wf _ _ _ (Dev.install_wf _ _ _ _ (Dev.setSbank_wf _ _ _ _ h) _ ha)))

theorem Dev.serve_wf : ∀ d c line cls q, Memory.wf d = true → ∀ r, (Dev.serve d c line cls q) = some r → Memory.wf r = true := by
  intro d c line cls q h r hr
  have hs : Memory.wf ([0, 1, 2, 3].foldl (fun (d : Dev) c => if d.sillHolds c line then d.sillSnoop c line else d) d) = true :=
    foldl_keeps (fun d => Memory.wf d = true) _ (fun b a hb => Memory.wf_ite (Dev.sillSnoop_wf _ _ _ hb) hb) _ _ h
  simp only [Dev.serve] at hr
  repeat' split at hr
  all_goals try simp only [Option.map_eq_some_iff, Option.some.injEq, reduceCtorEq] at hr
  · exact hr ▸ Dev.hit_wf _ _ _ _ _ _ h
  · exact Dev.recall_wf _ _ _ _ _ h _ hr
  · exact hr ▸ Dev.ocount_wf _ _ _ (Dev.setSbank_wf _ _ _ _ h)
  · obtain ⟨a, ha, rfl⟩ := hr
    exact Dev.memWrite_wf _ _ _ (Dev.mcEnter_wf _ _ _ _ hs _ ha)
  · exact hr ▸ Dev.ocount_wf _ _ _ (Dev.fcount64_wf _ _ _ _ (Dev.missAdd_wf _ _ _ h))

theorem Dev.hold_wf : ∀ d c line cls q declared, Memory.wf d = true → Memory.wf (Dev.hold d c line cls q declared) =
    true := by
  intros; unfold Dev.hold; simp +contextual (maxDischargeDepth := 40) only [Memory.wf_ite, Dev.ocount_wf,
    Dev.fcount_wf, Dev.setSbank_wf, *]

theorem Dev.request_wf : ∀ d c line cls q declared, Memory.wf d = true → ∀ r, (Dev.request d c line cls q declared) = some r → Memory.wf r.1 = true := by
  intro d c line cls q declared h r hr
  simp only [Dev.request, Option.map_eq_some_iff] at hr
  obtain ⟨e, he, rfl⟩ := hr
  have k := Dev.serve_wf _ _ _ _ _ h _ he
  exact Memory.wf_ite (Dev.trainStream_wf _ _ _ _ k) k

theorem Dev.serveWaiting_wf : ∀ d c b a y4 y5, Memory.wf d = true → Memory.wf (Dev.serveWaiting d c b a y4 y5).1 =
    true := by
  intro d c b a y4 y5; fun_induction Dev.serveWaiting d c b a y4 y5 <;> intros <;> grind [Memory.wf_mk, Mem.wf_mk, →
    Memory.wf_host, → Memory.wf_mem, → Memory.wf_cells, → Memory.wf_poison, Sparse.wf_set, Sparse.wf_setAll,
    Memory.wf_foldl, Dev.setSbank_wf, Dev.request_wf]

theorem Dev.retryWaiting_wf : ∀ d c b, Memory.wf d = true → Memory.wf (Dev.retryWaiting d c b).1 = true := by
  intros; unfold Dev.retryWaiting; dsimp only; (repeat' split) <;> simp +contextual (maxDischargeDepth := 40) only
    [Dev.serveWaiting_wf, Dev.setSbank_wf, *]

theorem Dev.sillCorrected_wf : ∀ d c syn inj, Memory.wf d = true → Memory.wf (Dev.sillCorrected d c syn inj) = true := by
  intros; unfold Dev.sillCorrected; simp +contextual (maxDischargeDepth := 40) only [Dev.faultRaise_wf, Dev.ocount_wf,
    Dev.fcount_wf, *]

theorem Dev.sillError_wf : ∀ d c line e inj, Memory.wf d = true → Memory.wf (Dev.sillError d c line e inj) = true := by
  intros; unfold Dev.sillError; dsimp only; (repeat' split) <;> simp +contextual (maxDischargeDepth := 40) only
    [Dev.sillCorrected_wf, Dev.setSbank_wf, Dev.faultRaise_wf, Dev.ocount_wf, Dev.fcount_wf, *]

theorem Dev.sillRequest_wf : ∀ d c owner pane line cls limit write err, Memory.wf d = true → Memory.wf
    (Dev.sillRequest d c owner pane line cls limit write err).1 = true := by
  intros; unfold Dev.sillRequest; grind [Memory.wf_mk, Mem.wf_mk, → Memory.wf_host, → Memory.wf_mem, →
    Memory.wf_cells, → Memory.wf_poison, Sparse.wf_set, Sparse.wf_setAll, Memory.wf_foldl, Dev.retryWaiting_wf,
    Dev.draw_wf, Dev.sillError_wf, Dev.fiConsume_wf, Dev.request_wf, Dev.hold_wf, Dev.declareStream_wf]

theorem Dev.wbRoom_wf : ∀ d c b, Memory.wf d = true → Memory.wf (Dev.wbRoom d c b) = true := by
  intros; unfold Dev.wbRoom; dsimp only; (repeat' split) <;> simp +contextual (maxDischargeDepth := 40) only
    [Dev.setSbank_wf, Dev.writeBack_wf, *]

theorem Dev.stripLine_wf : ∀ d c owner pane line cls limit, Memory.wf d = true → Memory.wf (Dev.stripLine d c owner pane line cls limit) = true := by
  intro d c owner pane line cls limit h
  have get {o : Option Dev} {e : Dev} (he : Memory.wf e = true) (ho : ∀ r, o = some r → Memory.wf r = true) :
      Memory.wf (o.getD e) = true := by
    cases o with
    | none => exact he
    | some a => exact ho a rfl
  have k := Dev.wbRoom_wf _ c (sillBank line) h
  have miss (l : SLine) : Memory.wf (((((d.wbRoom c (sillBank line)).install c cls l).getD
        (d.wbRoom c (sillBank line))).fcount64 (F.SL_MISS_LO_COUNT c) (F.SL_MISS_HI_COUNT c) 1).ocount O.SILL_MISSES 1) = true :=
    Dev.ocount_wf _ _ _ (Dev.fcount64_wf _ _ _ _ (get k (fun r hr => Dev.install_wf _ _ _ _ k _ hr)))
  have hit (q : SReq) : Memory.wf (((d.wbRoom c (sillBank line)).serve c line cls q).getD (d.wbRoom c (sillBank line))) = true :=
    get k (fun r hr => Dev.serve_wf _ _ _ _ _ k _ hr)
  simp only [Dev.stripLine]
  refine Memory.wf_ite h ?_
  split
  · exact Dev.declareStream_wf _ _ _ _ _ (Memory.wf_ite (hit _) (Memory.wf_ite (miss _) (Dev.trainStream_wf _ _ _ _ (miss _))))
  · exact Memory.wf_ite (hit _) (Memory.wf_ite (miss _) (Dev.trainStream_wf _ _ _ _ (miss _)))

theorem Dev.stripRead_wf : ∀ d c owner pane a n stop, Memory.wf d = true → Memory.wf (Dev.stripRead d c owner pane a n
    stop) = true := by
  intros; unfold Dev.stripRead; simp +contextual (maxDischargeDepth := 40) only [Memory.wf_foldl, implies_true,
    Dev.stripLine_wf, *]

theorem Dev.maintActs_wf : ∀ d cmd written dropped, Memory.wf d = true → Memory.wf (Dev.maintActs d cmd written
    dropped) = true := by
  intros; unfold Dev.maintActs; (repeat' split) <;> simp +contextual (maxDischargeDepth := 40) only [Memory.wf_mk,
    Memory.wf_host, Memory.wf_mem, Bool.and_self, *]

theorem Dev.heldAct_wf : ∀ d c l h0, Memory.wf d = true → Memory.wf (Dev.heldAct d c l h0).2 = true := by
  intros; unfold Dev.heldAct; (repeat' split) <;> simp +contextual (maxDischargeDepth := 40) only [Memory.wf_ite,
    Dev.writeBack_wf, Dev.maintActs_wf, *]

theorem Dev.maintEnd_wf : ∀ d, Memory.wf d = true → Memory.wf (Dev.maintEnd d) = true := by
  intros; unfold Dev.maintEnd; simp +contextual (maxDischargeDepth := 40) only [Memory.wf_mk, Memory.wf_host,
    Memory.wf_mem, Bool.and_self, Memory.wf_foldl, implies_true, Dev.finish_wf, *]

theorem Dev.takeCopy_wf : ∀ d c line, Memory.wf d = true → ∀ r, (Dev.takeCopy d c line) = some r → Memory.wf r.2 =
    true := by
  intros; unfold Dev.takeCopy at *; grind [Memory.wf_mk, Mem.wf_mk, → Memory.wf_host, → Memory.wf_mem, →
    Memory.wf_cells, → Memory.wf_poison, Sparse.wf_set, Sparse.wf_setAll, Memory.wf_foldl, Dev.setSbank_wf]

theorem Dev.fillLand_wf : ∀ d c line, Memory.wf d = true → Memory.wf (Dev.fillLand d c line).1 = true := by
  intro d c line h
  simp only [Dev.fillLand]
  split
  · exact h
  · rename_i r _
    generalize ht : (d.takeCopy c line).getD _ = t
    have kt : Memory.wf t.2 = true := by
      rw [← ht]
      cases e : d.takeCopy c line with
      | none => exact h
      | some a => exact Dev.takeCopy_wf _ _ _ h _ e
    have hv (a : Option SLine) : Memory.wf (r.held.foldl (fun (a : Option SLine × Dev) h => a.2.heldAct c a.1 h) (a, t.2)).2 = true :=
      foldl_keeps (fun (a : Option SLine × Dev) => Memory.wf a.2 = true) _ (fun b a hb => Dev.heldAct_wf _ _ _ _ hb) _ _ kt
    split
    · exact h
    · rename_i e he
      have : Memory.wf e = true := by
        split at he
        · exact Dev.install_wf _ _ _ _ (hv _) _ he
        · exact (Option.some.inj he) ▸ hv _
      exact Dev.maintEnd_wf _ (Dev.retryWaiting_wf _ _ _ (Dev.setSbank_wf _ _ _ _ this))

theorem Dev.sillPrefetch_wf : ∀ d c b i, Memory.wf d = true → Memory.wf (Dev.sillPrefetch d c b i) = true := by
  intros; unfold Dev.sillPrefetch; dsimp only; (repeat' split) <;> simp +contextual (maxDischargeDepth := 40) only
    [Dev.setSbank_wf, Dev.missAdd_wf, Dev.ocount_wf, Dev.fcount_wf, *]

theorem Dev.maintLine_wf : ∀ d c line op cmd inside m, Memory.wf d = true → Memory.wf (Dev.maintLine d c line op cmd
    inside m).2 = true := by
  intros; unfold Dev.maintLine; dsimp only; (repeat' split) <;> simp +contextual (maxDischargeDepth := 40) only
    [Dev.writeBack_wf, Dev.setSbank_wf, *]

theorem Dev.preloadLine_wf : ∀ d c line cls cmd m, Memory.wf d = true → Memory.wf (Dev.preloadLine d c line cls cmd
    m).2 = true := by
  intros; unfold Dev.preloadLine; grind [Memory.wf_mk, Mem.wf_mk, → Memory.wf_host, → Memory.wf_mem, →
    Memory.wf_cells, → Memory.wf_poison, Sparse.wf_set, Sparse.wf_setAll, Memory.wf_foldl, Dev.setSbank_wf,
    Dev.wbRoom_wf, Dev.install_wf]

theorem Dev.preloadWalk_wf : ∀ d c cls cmd m a y6, Memory.wf d = true → Memory.wf (Dev.preloadWalk d c cls cmd m a
    y6).2 = true := by
  intro d c cls cmd m a y6; fun_induction Dev.preloadWalk d c cls cmd m a y6 <;> intros <;> grind [Memory.wf_mk,
    Mem.wf_mk, → Memory.wf_host, → Memory.wf_mem, → Memory.wf_cells, → Memory.wf_poison, Sparse.wf_set,
    Sparse.wf_setAll, Memory.wf_foldl, Dev.preloadLine_wf]

theorem Dev.cacheMaint_wf : ∀ d id op, Memory.wf d = true → Memory.wf (Dev.cacheMaint d id op) = true := by
  intro d id op h
  simp only [Dev.cacheMaint]
  split
  · exact h
  · split
    · exact h
    · refine Dev.maintEnd_wf _ ?_
      generalize hv : List.foldl _ _ _ = v
      have k : Memory.wf v.2 = true := by
        rw [← hv]
        refine foldl_keeps (fun (a : MaintSum × Dev) => Memory.wf a.2 = true) _ (fun b a hb => ?_) _ _ h
        split
        · exact Dev.preloadWalk_wf _ _ _ _ _ _ _ hb
        · exact foldl_keeps (fun (a : MaintSum × Dev) => Memory.wf a.2 = true) _
            (fun b a hb => Dev.maintLine_wf _ _ _ _ _ _ _ hb) _ _ hb
      simp only [Memory.wf_mk, Memory.wf_host k, Memory.wf_mem k, Bool.and_self]

theorem Dev.commitBank_wf : ∀ d c owner b, Memory.wf d = true → Memory.wf (Dev.commitBank d c owner b) = true := by
  intros; unfold Dev.commitBank; grind [Memory.wf_mk, Mem.wf_mk, → Memory.wf_host, → Memory.wf_mem, → Memory.wf_cells,
    → Memory.wf_poison, Sparse.wf_set, Sparse.wf_setAll, Memory.wf_foldl, Dev.writeBack_wf, Dev.setSbank_wf]

theorem Dev.commitLines_wf : ∀ d c owner, Memory.wf d = true → Memory.wf (Dev.commitLines d c owner) = true := by
  intros; unfold Dev.commitLines; simp +contextual (maxDischargeDepth := 40) only [Memory.wf_ite, Memory.wf_foldl,
    implies_true, Dev.commitBank_wf, *]

theorem Dev.flushBank_wf : ∀ d c b, Memory.wf d = true → Memory.wf (Dev.flushBank d c b) = true := by
  intros; unfold Dev.flushBank; simp +contextual (maxDischargeDepth := 40) only [Memory.wf_ite, Memory.wf_foldl,
    implies_true, Dev.writeOut_wf, *]

theorem Dev.sillClear_wf : ∀ d c flush, Memory.wf d = true → Memory.wf (Dev.sillClear d c flush) = true := by
  intros; unfold Dev.sillClear; simp +contextual (maxDischargeDepth := 40) only [Memory.wf_ite, Memory.wf_foldl,
    implies_true, Dev.maintEnd_wf, Dev.flushBank_wf, Dev.setSbank_wf, Dev.maintActs_wf, *]

end Sys2Proof.Machine
end

