-- ==== Sys2Proof/Laws/MemoryC.lean ====
section
/-!
SUPPORT. Every operation of Hinge, Store, Scan, Emit, Transom, Latch keeps memory in its canonical form.
-/

set_option linter.style.nameCheck false

namespace Sys2Proof.Machine

theorem Dev.setHchan_wf : ∀ d n x, Memory.wf d = true → Memory.wf (Dev.setHchan d n x) = true := by
  intros; unfold Dev.setHchan; simp +contextual (maxDischargeDepth := 40) only [Memory.wf_mk, Memory.wf_host,
    Memory.wf_mem, Bool.and_self, *]

theorem Dev.enqueueList_wf : ∀ d n l, Memory.wf d = true → Memory.wf (Dev.enqueueList d n l) = true := by
  intros; unfold Dev.enqueueList; simp +contextual (maxDischargeDepth := 40) only [Dev.setHchan_wf, *]

theorem Dev.issueList_wf : ∀ d pool owner tag work, Memory.wf d = true → Memory.wf (Dev.issueList d pool owner tag
    work) = true := by
  intros; unfold Dev.issueList; simp +contextual (maxDischargeDepth := 40) only [Dev.enqueueList_wf, *]

theorem Dev.dmaStart_wf : ∀ d id, Memory.wf d = true → Memory.wf (Dev.dmaStart d id) = true := by
  intros; unfold Dev.dmaStart; (repeat' split) <;> simp +contextual (maxDischargeDepth := 40) only [Memory.wf_ite,
    Dev.enqueueList_wf, *]

theorem Dev.streamBytes_wf : ∀ d sameSpace eng dsts a y5, Memory.wf d = true → Memory.wf (Dev.streamBytes d sameSpace
    eng dsts a y5).2 = true := by
  intro d sameSpace eng dsts a y5; fun_induction Dev.streamBytes d sameSpace eng dsts a y5 <;> intros <;> grind
    [Memory.wf_mk, Mem.wf_mk, → Memory.wf_host, → Memory.wf_mem, → Memory.wf_cells, → Memory.wf_poison, Sparse.wf_set,
    Sparse.wf_setAll, Memory.wf_foldl, Dev.draw_wf]

theorem Dev.writeLines_wf : ∀ d x a y3 y4, Memory.wf d = true → Memory.wf (Dev.writeLines d x a y3 y4) = true := by
  intro d x a y3 y4; fun_induction Dev.writeLines d x a y3 y4 <;> intros <;> grind [Memory.wf_mk, Mem.wf_mk, →
    Memory.wf_host, → Memory.wf_mem, → Memory.wf_cells, → Memory.wf_poison, Sparse.wf_set, Sparse.wf_setAll,
    Memory.wf_foldl, Dev.writeSpace_wf]

theorem Dev.partLine_wf : ∀ d eng a b, Memory.wf d = true → Memory.wf (Dev.partLine d eng a b) = true := by
  intros; unfold Dev.partLine; simp +contextual (maxDischargeDepth := 40) only [Dev.writeSpace_wf, Dev.draw_wf, *]

theorem Dev.partLines_wf : ∀ d x a y3 y4, Memory.wf d = true → Memory.wf (Dev.partLines d x a y3 y4) = true := by
  intro d x a y3 y4; fun_induction Dev.partLines d x a y3 y4 <;> intros <;> grind [Memory.wf_mk, Mem.wf_mk, →
    Memory.wf_host, → Memory.wf_mem, → Memory.wf_cells, → Memory.wf_poison, Sparse.wf_set, Sparse.wf_setAll,
    Memory.wf_foldl, Dev.partLine_wf]

theorem Dev.partDesc_wf : ∀ d x n, Memory.wf d = true → Memory.wf (Dev.partDesc d x n) = true := by
  intros; unfold Dev.partDesc; simp +contextual (maxDischargeDepth := 40) only [Dev.streamBytes_wf, Dev.partLines_wf,
    *]

theorem Dev.partList_wf : ∀ d l, Memory.wf d = true → Memory.wf (Dev.partList d l) = true := by
  intros; unfold Dev.partList; (repeat' split) <;> simp +contextual (maxDischargeDepth := 40) only [Dev.partDesc_wf,
    Dev.partLine_wf, *]

theorem Dev.partWritten_wf : ∀ d, Memory.wf d = true → Memory.wf (Dev.partWritten d) = true := by
  intro d h
  refine foldl_keeps (fun d => Memory.wf d = true) _ (fun b a hb => ?_) _ _ h
  cases a.2.lists.head? with
  | none => exact hb
  | some l => exact Dev.partList_wf _ _ hb

theorem Dev.busError_wf : ∀ d addr kind port slot, Memory.wf d = true → Memory.wf (Dev.busError d addr kind port slot)
    = true := by
  intros; unfold Dev.busError; simp +contextual (maxDischargeDepth := 40) only [Memory.wf_mk, Memory.wf_host,
    Memory.wf_mem, Bool.and_self, Memory.wf_ite, Dev.partWritten_wf, Dev.ocount_wf, Dev.fcount_wf, Dev.raiseVector_wf,
    Dev.faultRaise_wf, *]

theorem Dev.hingeStop_wf : ∀ d n, Memory.wf d = true → Memory.wf (Dev.hingeStop d n) = true := by
  intros; unfold Dev.hingeStop; simp +contextual (maxDischargeDepth := 40) only [Memory.wf_ite, Dev.setHchan_wf, *]

theorem Dev.hingeGo_wf : ∀ d n, Memory.wf d = true → Memory.wf (Dev.hingeGo d n) = true := by
  intros; unfold Dev.hingeGo; simp +contextual (maxDischargeDepth := 40) only [Dev.setHchan_wf, *]

theorem Dev.popList_wf : ∀ d n, Memory.wf d = true → Memory.wf (Dev.popList d n) = true := by
  intros; unfold Dev.popList; simp +contextual (maxDischargeDepth := 40) only [Dev.setHchan_wf, *]

theorem Dev.setHead_wf : ∀ d n l, Memory.wf d = true → Memory.wf (Dev.setHead d n l) = true := by
  intros; unfold Dev.setHead; simp +contextual (maxDischargeDepth := 40) only [Dev.setHchan_wf, *]

theorem Dev.atBoundary_wf : ∀ d n, Memory.wf d = true → Memory.wf (Dev.atBoundary d n) = true := by
  intros; unfold Dev.atBoundary; simp +contextual (maxDischargeDepth := 40) only [Memory.wf_ite, Dev.setHchan_wf, *]

theorem Dev.setDrive_wf : ∀ d s x, Memory.wf d = true → Memory.wf (Dev.setDrive d s x) = true := by
  intros; unfold Dev.setDrive; simp +contextual (maxDischargeDepth := 40) only [Memory.wf_mk, Memory.wf_host,
    Memory.wf_mem, Bool.and_self, *]

theorem Dev.nvmeStatus_wf : ∀ d slot st, Memory.wf d = true → Memory.wf (Dev.nvmeStatus d slot st) = true := by
  intros; unfold Dev.nvmeStatus; simp +contextual (maxDischargeDepth := 40) only [Dev.oput_wf, *]

theorem Dev.driveAnswer_wf : ∀ d slot nsid lba n outcome, Memory.wf d = true → Memory.wf (Dev.driveAnswer d slot nsid
    lba n outcome).2 = true := by
  intros; unfold Dev.driveAnswer; (repeat' split) <;> simp +contextual (maxDischargeDepth := 40) only [Dev.draw_wf, *]

theorem Dev.mapStores_wf : ∀ d p f, Memory.wf d = true → Memory.wf (Dev.mapStores d p f) = true := by
  intros; unfold Dev.mapStores; simp +contextual (maxDischargeDepth := 40) only [Memory.wf_mk, Memory.wf_host,
    Memory.wf_mem, Bool.and_self, *]

theorem Dev.setUnit_wf : ∀ d u x, Memory.wf d = true → Memory.wf (Dev.setUnit d u x) = true := by
  intros; unfold Dev.setUnit; simp +contextual (maxDischargeDepth := 40) only [Memory.wf_mk, Memory.wf_host,
    Memory.wf_mem, Bool.and_self, *]

theorem Dev.freeStoreUnits_wf : ∀ d us, Memory.wf d = true → Memory.wf (Dev.freeStoreUnits d us) = true := by
  intros; unfold Dev.freeStoreUnits; simp +contextual (maxDischargeDepth := 40) only [Memory.wf_foldl, implies_true,
    Dev.setUnit_wf, *]

theorem Dev.dropStore_wf : ∀ d g, Memory.wf d = true → Memory.wf (Dev.dropStore d g) = true := by
  intros; unfold Dev.dropStore; simp +contextual (maxDischargeDepth := 40) only [Memory.wf_mk, Memory.wf_host,
    Memory.wf_mem, Bool.and_self, Memory.wf_ite, Dev.freeStoreUnits_wf, Dev.cutLists_wf, Dev.dropJob_wf, *]

theorem Dev.discardStore_wf : ∀ d id status, Memory.wf d = true → Memory.wf (Dev.discardStore d id status) = true := by
  intros; unfold Dev.discardStore; (repeat' split) <;> simp +contextual (maxDischargeDepth := 40) only [Dev.finish_wf,
    Dev.dropStore_wf, *]

theorem Dev.storeBegin_wf : ∀ d c lbaSize es, Memory.wf d = true → Memory.wf (Dev.storeBegin d c lbaSize es) = true := by
  intros; unfold Dev.storeBegin; simp +contextual (maxDischargeDepth := 40) only [Memory.wf_mk, Memory.wf_host,
    Memory.wf_mem, Bool.and_self, Memory.wf_ite, Memory.wf_foldl, implies_true, Dev.setUnit_wf, Dev.issueList_wf, *]

theorem Dev.storeRun_wf : ∀ d id, Memory.wf d = true → Memory.wf (Dev.storeRun d id) = true := by
  intros; unfold Dev.storeRun; dsimp only; (repeat' split) <;> simp +contextual (maxDischargeDepth := 40) only
    [Dev.finish_wf, Dev.storeBegin_wf, *]

theorem Dev.stageBytes_wf : ∀ d us a y3 y4, Memory.wf d = true → Memory.wf (Dev.stageBytes d us a y3 y4) = true := by
  intro d us a y3 y4; fun_induction Dev.stageBytes d us a y3 y4 <;> intros <;> grind [Memory.wf_mk, Mem.wf_mk, →
    Memory.wf_host, → Memory.wf_mem, → Memory.wf_cells, → Memory.wf_poison, Sparse.wf_set, Sparse.wf_setAll,
    Memory.wf_foldl, Dev.engWrite_wf]

theorem Dev.storeBytes_wf : ∀ d id b, Memory.wf d = true → Memory.wf (Dev.storeBytes d id b) = true := by
  intros; unfold Dev.storeBytes; (repeat' split) <;> simp +contextual (maxDischargeDepth := 40) only
    [Dev.stageBytes_wf, Dev.mapStores_wf, *]

theorem Dev.storeLanded_wf : ∀ d id, Memory.wf d = true → Memory.wf (Dev.storeLanded d id) = true := by
  intros; unfold Dev.storeLanded; (repeat' split) <;> simp +contextual (maxDischargeDepth := 40) only
    [Memory.wf_foldl, implies_true, Dev.setUnit_wf, Dev.mapStores_wf, *]

theorem Dev.storeCommit_wf : ∀ d id, Memory.wf d = true → Memory.wf (Dev.storeCommit d id) = true := by
  intros; unfold Dev.storeCommit; (repeat' split) <;> simp +contextual (maxDischargeDepth := 40) only [Memory.wf_mk,
    Memory.wf_host, Memory.wf_mem, Bool.and_self, Dev.mapStores_wf, Dev.finish_wf, Dev.ocount_wf, *]

theorem Dev.drainFlush_wf : ∀ d slot, Memory.wf d = true → Memory.wf (Dev.drainFlush d slot) = true := by
  intros; unfold Dev.drainFlush; simp +contextual (maxDischargeDepth := 40) only [Memory.wf_ite, Memory.wf_foldl,
    implies_true, Dev.emit_wf, Dev.setDrive_wf, Dev.mapStores_wf, *]

theorem Dev.holdSlot_wf : ∀ d slot st, Memory.wf d = true → Memory.wf (Dev.holdSlot d slot st) = true := by
  intros; unfold Dev.holdSlot; simp +contextual (maxDischargeDepth := 40) only [Memory.wf_foldl, implies_true,
    Dev.cutLists_wf, Dev.drainFlush_wf, Dev.mapStores_wf, *]

theorem Dev.drainFailed_wf : ∀ d slot st g, Memory.wf d = true → Memory.wf (Dev.drainFailed d slot st g) = true := by
  intros; unfold Dev.drainFailed; simp +contextual (maxDischargeDepth := 40) only [Memory.wf_ite, Dev.nvmeStatus_wf,
    Dev.holdSlot_wf, Dev.setDrive_wf, Dev.faultRaise_wf, Dev.mapStores_wf, Dev.cutLists_wf, *]

theorem Dev.drainIssue_wf : ∀ d g image blocks, Memory.wf d = true → Memory.wf (Dev.drainIssue d g image blocks) =
    true := by
  intros; unfold Dev.drainIssue; simp +contextual (maxDischargeDepth := 40) only [Dev.emit_wf, Dev.mapStores_wf,
    Dev.issueList_wf, *]

theorem Dev.drainWrite_wf : ∀ d g, Memory.wf d = true → Memory.wf (Dev.drainWrite d g) = true := by
  intros; unfold Dev.drainWrite; simp +contextual (maxDischargeDepth := 40) only [Memory.wf_mk, Memory.wf_host,
    Memory.wf_mem, Bool.and_self, Dev.setDrive_wf, Dev.ocount_wf, Dev.mapStores_wf, Dev.drainFlush_wf, Dev.dropJob_wf,
    *]

theorem Dev.drainAnswer_wf : ∀ d g image blocks outcome, Memory.wf d = true → Memory.wf (Dev.drainAnswer d g image
    blocks outcome) = true := by
  intros; unfold Dev.drainAnswer; grind [Memory.wf_mk, Mem.wf_mk, → Memory.wf_host, → Memory.wf_mem, →
    Memory.wf_cells, → Memory.wf_poison, Sparse.wf_set, Sparse.wf_setAll, Memory.wf_foldl, Dev.driveAnswer_wf,
    Dev.drainFailed_wf, Dev.emit_wf, Dev.drainWrite_wf, Dev.drainIssue_wf]

theorem Dev.storeDrain_wf : ∀ d slot outcome, Memory.wf d = true → Memory.wf (Dev.storeDrain d slot outcome) = true := by
  intros; unfold Dev.storeDrain; grind [Memory.wf_mk, Mem.wf_mk, → Memory.wf_host, → Memory.wf_mem, → Memory.wf_cells,
    → Memory.wf_poison, Sparse.wf_set, Sparse.wf_setAll, Memory.wf_foldl, Dev.drainAnswer_wf, Dev.holdSlot_wf,
    Dev.countPoison_wf, Dev.startJob_wf]

theorem Dev.storeRelease_wf : ∀ d slot, Memory.wf d = true → Memory.wf (Dev.storeRelease d slot) = true := by
  intros; unfold Dev.storeRelease; simp +contextual (maxDischargeDepth := 40) only [Memory.wf_foldl, implies_true,
    Dev.drainFlush_wf, Dev.dropStore_wf, *]

theorem Dev.syncDispatch_wf : ∀ d c, Memory.wf d = true → Memory.wf (Dev.syncDispatch d c) = true := by
  intros; unfold Dev.syncDispatch; simp +contextual (maxDischargeDepth := 40) only [Memory.wf_mk, Memory.wf_host,
    Memory.wf_mem, Bool.and_self, *]

theorem Dev.dropSync_wf : ∀ d id, Memory.wf d = true → Memory.wf (Dev.dropSync d id) = true := by
  intros; unfold Dev.dropSync; simp +contextual (maxDischargeDepth := 40) only [Memory.wf_mk, Memory.wf_host,
    Memory.wf_mem, Bool.and_self, *]

theorem Dev.storeSync_wf : ∀ d id, Memory.wf d = true → Memory.wf (Dev.storeSync d id) = true := by
  intros; unfold Dev.storeSync; dsimp only; (repeat' split) <;> simp +contextual (maxDischargeDepth := 40) only
    [Dev.finish_wf, Dev.dropSync_wf, *]

theorem Dev.thrDiscard_wf : ∀ d slot, Memory.wf d = true → Memory.wf (Dev.thrDiscard d slot) = true := by
  intros; unfold Dev.thrDiscard; simp +contextual (maxDischargeDepth := 40) only [Memory.wf_foldl, implies_true,
    Dev.drainFlush_wf, Dev.dropStore_wf, Dev.fputB_wf, *]

theorem Dev.fetchDeliver_wf : ∀ d c es st lbas from_ b, Memory.wf d = true → Memory.wf (Dev.fetchDeliver d c es st
    lbas from_ b) = true := by
  intros; unfold Dev.fetchDeliver; simp +contextual (maxDischargeDepth := 40) only [Memory.wf_ite, Dev.ocount_wf,
    Dev.finish_wf, Dev.mapCmd_wf, Dev.issueList_wf, *]

theorem Dev.fetchDecoded_wf : ∀ d c es lbas from_ j, Memory.wf d = true → Memory.wf (Dev.fetchDecoded d c es lbas
    from_ j) = true := by
  intros; unfold Dev.fetchDecoded; simp +contextual (maxDischargeDepth := 40) only [Dev.fetchDeliver_wf,
    Dev.dropJob_wf, *]

theorem Dev.fetchRead_wf : ∀ d c es lbas from_ b, Memory.wf d = true → Memory.wf (Dev.fetchRead d c es lbas from_ b) =
    true := by
  intros; unfold Dev.fetchRead; dsimp only; (repeat' split) <;> simp +contextual (maxDischargeDepth := 40) only
    [Dev.mapCmd_wf, Dev.startJob_wf, Dev.fetchDecoded_wf, Dev.fetchDeliver_wf, *]

theorem Dev.poisonThr_wf : ∀ d off, Memory.wf d = true → Memory.wf (Dev.poisonThr d off) = true := by
  intros; unfold Dev.poisonThr; simp +contextual (maxDischargeDepth := 40) only [Dev.mapStores_wf, *]

theorem Dev.thrCheck_wf : ∀ d g, Memory.wf d = true → Memory.wf (Dev.thrCheck d g).1 = true := by
  intros; unfold Dev.thrCheck; dsimp only; (repeat' split) <;> simp +contextual (maxDischargeDepth := 40) only
    [Dev.draw_wf, Dev.fiConsume_wf, Dev.faultRaise_wf, Dev.poisonThr_wf, *]

theorem Dev.fetchPull_wf : ∀ d c gs size range from_, Memory.wf d = true → Memory.wf (Dev.fetchPull d c gs size range
    from_) = true := by
  intros; unfold Dev.fetchPull; simp +contextual (maxDischargeDepth := 40) only [Dev.issueList_wf, Dev.mapCmd_wf, *]

theorem Dev.fetchSource_wf : ∀ d c es outcome, Memory.wf d = true → Memory.wf (Dev.fetchSource d c es outcome) = true := by
  intro d c es outcome h
  unfold Dev.fetchSource
  dsimp only
  generalize extentOf c.entry = e
  generalize needsDrive (d.visible c) e = need
  have k1 : Memory.wf (if need = true then d.emit (.nvmeRead e.1 e.2.1 e.2.2.1 e.2.2.2) else d) = true :=
    Memory.wf_ite (Dev.emit_wf _ _ h) h
  generalize (if need = true then d.emit (.nvmeRead e.1 e.2.1 e.2.2.1 e.2.2.2) else d) = d1 at k1
  have k2 : Memory.wf (if need = true then d1.driveAnswer e.1 e.2.1 e.2.2.1 e.2.2.2 outcome else (none, d1)).2 = true := by
    split
    · exact Dev.driveAnswer_wf _ _ _ _ _ _ k1
    · exact k1
  have k3 (o : Option Stg) (d : Dev) (hd : Memory.wf d = true) : Memory.wf (match o with
      | some g => d.thrCheck g
      | none => (d, false)).1 = true := by
    split
    · exact Dev.thrCheck_wf _ _ hd
    · exact hd
  split
  · exact Memory.wf_ite (Dev.finish_wf _ _ _ _ _ (Dev.thrCheck_wf _ _ h)) (Dev.fetchDeliver_wf _ _ _ _ _ _ _ (Dev.thrCheck_wf _ _ h))
  · refine Memory.wf_ite h (Memory.wf_ite (Dev.finish_wf _ _ _ _ _ h) (Memory.wf_ite h (Memory.wf_ite (Dev.finish_wf _ _ _ _ _ h) ?_)))
    split
    · next e1 => rw [e1] at k2; exact Dev.finish_wf _ _ _ _ _ (Dev.nvmeStatus_wf _ _ _ k2)
    · next e1 =>
      rw [e1] at k2
      exact Memory.wf_ite (Dev.finish_wf _ _ _ _ _ (k3 _ _ k2)) (Memory.wf_ite (Dev.fetchPull_wf _ _ _ _ _ _ (k3 _ _ k2))
        (Dev.fetchRead_wf _ _ _ _ _ _ (k3 _ _ k2)))

theorem Dev.fetchPulled_wf : ∀ d c es outcome, Memory.wf d = true → Memory.wf (Dev.fetchPulled d c es outcome) = true := by
  intros; unfold Dev.fetchPulled; (repeat' split) <;> simp +contextual (maxDischargeDepth := 40) only [Dev.finish_wf,
    Dev.nvmeStatus_wf, Dev.mapCmd_wf, Dev.fetchRead_wf, *]

theorem Dev.fetchRun_wf : ∀ d id outcome, Memory.wf d = true → Memory.wf (Dev.fetchRun d id outcome) = true := by
  intros; unfold Dev.fetchRun; dsimp only; (repeat' split) <;> simp +contextual (maxDischargeDepth := 40) only
    [Dev.finish_wf, Dev.dropJob_wf, Dev.fetchDecoded_wf, Dev.fetchPulled_wf, Dev.fetchSource_wf, *]

theorem Dev.slotEvent_wf : ∀ d s, Memory.wf d = true → Memory.wf (Dev.slotEvent d s) = true := by
  intros; unfold Dev.slotEvent; simp +contextual (maxDischargeDepth := 40) only [Memory.wf_ite, Dev.for__wf,
    Dev.raiseVector_wf, Dev.ocount_wf, *]

theorem Dev.endSlotCommands_wf : ∀ d s, Memory.wf d = true → Memory.wf (Dev.endSlotCommands d s) = true := by
  intros; unfold Dev.endSlotCommands; simp +contextual (maxDischargeDepth := 40) only [Memory.wf_ite, Memory.wf_foldl,
    implies_true, Dev.discardStore_wf, Dev.cutLists_wf, Dev.finish_wf, *]

theorem Dev.driveGone_wf : ∀ d s, Memory.wf d = true → Memory.wf (Dev.driveGone d s) = true := by
  intros; unfold Dev.driveGone; simp +contextual (maxDischargeDepth := 40) only [Memory.wf_foldl, implies_true,
    Dev.endSlotCommands_wf, Dev.cutLists_wf, Dev.mapStores_wf, *]

theorem Dev.driveBack_wf : ∀ d s, Memory.wf d = true → Memory.wf (Dev.driveBack d s) = true := by
  intros; unfold Dev.driveBack; simp +contextual (maxDischargeDepth := 40) only [Dev.mapStores_wf, *]

theorem Dev.retireUnit_wf : ∀ d u, Memory.wf d = true → Memory.wf (Dev.retireUnit d u) = true := by
  intros; unfold Dev.retireUnit; simp +contextual (maxDischargeDepth := 40) only [Memory.wf_ite, Dev.setUnit_wf,
    Dev.faultRaise_wf, *]

theorem Dev.askBlock_wf : ∀ d ctx n home i noCheck c, Memory.wf d = true → ∀ r, (Dev.askBlock d ctx n home i noCheck
    c) = some r → Memory.wf r.1 = true := by
  intros; unfold Dev.askBlock at *; grind [Memory.wf_mk, Mem.wf_mk, → Memory.wf_host, → Memory.wf_mem, →
    Memory.wf_cells, → Memory.wf_poison, Sparse.wf_set, Sparse.wf_setAll, Memory.wf_foldl, Dev.nvmeStatus_wf,
    Dev.draw_wf, Dev.emit_wf, Dev.mapJob_wf, Dev.issueList_wf]

theorem Dev.askBlocks_wf : ∀ d ctx n home i noCheck a y7, Memory.wf d = true → Memory.wf (Dev.askBlocks d ctx n home i
    noCheck a y7).1 = true := by
  intro d ctx n home i noCheck a y7; fun_induction Dev.askBlocks d ctx n home i noCheck a y7 <;> intros <;> grind
    [Memory.wf_mk, Mem.wf_mk, → Memory.wf_host, → Memory.wf_mem, → Memory.wf_cells, → Memory.wf_poison, Sparse.wf_set,
    Sparse.wf_setAll, Memory.wf_foldl, Dev.askBlock_wf]

theorem Dev.resultBlock_wf : ∀ d ctx sink seq flags slot s rows, Memory.wf d = true → Memory.wf (Dev.resultBlock d ctx
    sink seq flags slot s rows).2 = true := by
  intros; unfold Dev.resultBlock; simp +contextual (maxDischargeDepth := 40) only [Memory.wf_mk, Memory.wf_host,
    Memory.wf_mem, Bool.and_self, *]

theorem Dev.setPeer_wf : ∀ d n x, Memory.wf d = true → Memory.wf (Dev.setPeer d n x) = true := by
  intros; unfold Dev.setPeer; simp +contextual (maxDischargeDepth := 40) only [Memory.wf_mk, Memory.wf_host,
    Memory.wf_mem, Bool.and_self, *]

theorem Dev.putOnWire_wf : ∀ d f, Memory.wf d = true → Memory.wf (Dev.putOnWire d f) = true := by
  intros; unfold Dev.putOnWire; (repeat' split) <;> simp +contextual (maxDischargeDepth := 40) only [Memory.wf_mk,
    Memory.wf_host, Memory.wf_mem, Bool.and_self, Dev.ocount_wf, Dev.emit_wf, *]

theorem Dev.drainWire_wf : ∀ d, Memory.wf d = true → Memory.wf (Dev.drainWire d) = true := by
  intros; unfold Dev.drainWire; simp +contextual (maxDischargeDepth := 40) only [Memory.wf_mk, Memory.wf_host,
    Memory.wf_mem, Bool.and_self, Memory.wf_foldl, implies_true, Dev.putOnWire_wf, *]

theorem Dev.takeCredit_wf : ∀ d flow node, Memory.wf d = true → Memory.wf (Dev.takeCredit d flow node).2 = true := by
  intros; unfold Dev.takeCredit; (repeat' split) <;> simp +contextual (maxDischargeDepth := 40) only [Memory.wf_mk,
    Memory.wf_host, Memory.wf_mem, Bool.and_self, *]

theorem Dev.sendFrame_wf : ∀ d f, Memory.wf d = true → Memory.wf (Dev.sendFrame d f) = true := by
  intros; unfold Dev.sendFrame; (repeat' split) <;> simp +contextual (maxDischargeDepth := 40) only
    [Dev.takeCredit_wf, Dev.putOnWire_wf, Dev.setPeer_wf, *]

theorem Dev.sendCredit_wf : ∀ d flow node epoch, Memory.wf d = true → Memory.wf (Dev.sendCredit d flow node epoch) =
    true := by
  intros; unfold Dev.sendCredit; simp +contextual (maxDischargeDepth := 40) only [Dev.sendFrame_wf, *]

theorem Dev.acked_wf : ∀ d n ack, Memory.wf d = true → Memory.wf (Dev.acked d n ack) = true := by
  intros; unfold Dev.acked; simp +contextual (maxDischargeDepth := 40) only [Memory.wf_ite, Dev.setPeer_wf, *]

theorem Dev.serialize_wf : ∀ d s rows, Memory.wf d = true → Memory.wf (Dev.serialize d s rows).2 = true := by
  intros; unfold Dev.serialize; simp +contextual (maxDischargeDepth := 40) only [Memory.wf_mk, Memory.wf_host,
    Memory.wf_mem, Bool.and_self, *]

theorem Dev.mapTx_wf : ∀ d ctx n f, Memory.wf d = true → Memory.wf (Dev.mapTx d ctx n f) = true := by
  intros; unfold Dev.mapTx; simp +contextual (maxDischargeDepth := 40) only [Memory.wf_mk, Memory.wf_host,
    Memory.wf_mem, Bool.and_self, *]

theorem Dev.closeStaging_wf : ∀ d ctx n s dst rows, Memory.wf d = true → Memory.wf (Dev.closeStaging d ctx n s dst
    rows) = true := by
  intros; unfold Dev.closeStaging; dsimp only; (repeat' split) <;> simp +contextual (maxDischargeDepth := 40) only
    [Dev.draw_wf, Dev.serialize_wf, Dev.mapTx_wf, *]

theorem Dev.stageRow_wf : ∀ d ctx n flush s st dst p r0, Memory.wf d = true → Memory.wf (Dev.stageRow d ctx n flush s
    st dst p r0).1 = true := by
  intros; unfold Dev.stageRow; dsimp only; (repeat' split) <;> simp +contextual (maxDischargeDepth := 40) only
    [Dev.closeStaging_wf, *]

theorem Dev.runShuffleOut_wf : ∀ d ctx n body s st x, Memory.wf d = true → Memory.wf (Dev.runShuffleOut d ctx n body s st x).dev = true :=
  fun _ _ _ _ _ _ _ h => foldl_keeps (fun (v : Dev × Sparse (List (Nat × Row))) => Memory.wf v.1 = true) _
    (fun _ _ hb => foldl_keeps (fun (v : Dev × Sparse (List (Nat × Row))) => Memory.wf v.1 = true) _
      (fun _ _ hc => Dev.stageRow_wf _ _ _ _ _ _ _ _ _ hc) _ _ hb) _ _ h

theorem Dev.endShuffleOut_wf : ∀ d ctx n s st, Memory.wf d = true → Memory.wf (Dev.endShuffleOut d ctx n s st) = true := by
  intros; unfold Dev.endShuffleOut; simp +contextual (maxDischargeDepth := 40) only [Memory.wf_foldl, implies_true,
    Dev.mapTx_wf, Dev.closeStaging_wf, *]

theorem Dev.mapSender_wf : ∀ d flow node f, Memory.wf d = true → Memory.wf (Dev.mapSender d flow node f) = true := by
  intros; unfold Dev.mapSender; simp +contextual (maxDischargeDepth := 40) only [Memory.wf_mk, Memory.wf_host,
    Memory.wf_mem, Bool.and_self, *]

theorem Dev.releaseCredit_wf : ∀ d ctx n count, Memory.wf d = true → Memory.wf (Dev.releaseCredit d ctx n count) =
    true := by
  intros; unfold Dev.releaseCredit; simp +contextual (maxDischargeDepth := 40) only [Memory.wf_mk, Memory.wf_host,
    Memory.wf_mem, Bool.and_self, *]

theorem Dev.dropFlows_wf : ∀ d ctx, Memory.wf d = true → Memory.wf (Dev.dropFlows d ctx) = true := by
  intros; unfold Dev.dropFlows; simp +contextual (maxDischargeDepth := 40) only [Memory.wf_mk, Memory.wf_host,
    Memory.wf_mem, Bool.and_self, *]

theorem Dev.setCtx_wf : ∀ d c x, Memory.wf d = true → Memory.wf (Dev.setCtx d c x) = true := by
  intros; unfold Dev.setCtx; simp +contextual (maxDischargeDepth := 40) only [Memory.wf_mk, Memory.wf_host,
    Memory.wf_mem, Bool.and_self, *]

theorem Dev.setNode_wf : ∀ d c n y, Memory.wf d = true → Memory.wf (Dev.setNode d c n y) = true := by
  intros; unfold Dev.setNode; simp +contextual (maxDischargeDepth := 40) only [Dev.setCtx_wf, *]

theorem Dev.setPane_wf : ∀ d p x, Memory.wf d = true → Memory.wf (Dev.setPane d p x) = true := by
  intros; unfold Dev.setPane; simp +contextual (maxDischargeDepth := 40) only [Memory.wf_mk, Memory.wf_host,
    Memory.wf_mem, Bool.and_self, *]

theorem Dev.setLatch_wf : ∀ d c x, Memory.wf d = true → Memory.wf (Dev.setLatch d c x) = true := by
  intros; unfold Dev.setLatch; simp +contextual (maxDischargeDepth := 40) only [Memory.wf_mk, Memory.wf_host,
    Memory.wf_mem, Bool.and_self, *]

theorem Dev.toStore_wf : ∀ d c n port s, Memory.wf d = true → Memory.wf (Dev.toStore d c n port s) = true := by
  intros; unfold Dev.toStore; simp +contextual (maxDischargeDepth := 40) only [Memory.wf_ite, Dev.faultRaise_wf,
    Dev.ocount_wf, Dev.setNode_wf, *]

theorem Dev.toMatching_wf : ∀ d c n, Memory.wf d = true → Memory.wf (Dev.toMatching d c n) = true := by
  intros; unfold Dev.toMatching; simp +contextual (maxDischargeDepth := 40) only [Dev.setNode_wf, *]

theorem Dev.matchWithConsumers_wf : ∀ d c n, Memory.wf d = true → Memory.wf (Dev.matchWithConsumers d c n) = true := by
  intros; unfold Dev.matchWithConsumers; simp +contextual (maxDischargeDepth := 40) only [Memory.wf_foldl,
    implies_true, Dev.toMatching_wf, *]

theorem Dev.scanRead_wf : ∀ d k c n p x s rows, Memory.wf d = true → Memory.wf (Dev.scanRead d k c n p x s rows) =
    true := by
  intros; unfold Dev.scanRead; simp +contextual (maxDischargeDepth := 40) only [Memory.wf_foldl, implies_true,
    Dev.stripRead_wf, *]

end Sys2Proof.Machine
end

