-- ==== Sys2Proof/Laws/MemoryD.lean ====
section
/-!
SUPPORT. Every operation of Run, Pipe, PipeCmd keeps memory in its canonical form.
-/

set_option linter.style.nameCheck false

namespace Sys2Proof.Machine

theorem Dev.addChunk_wf : ∀ d c n key, Memory.wf d = true → ∀ r, (Dev.addChunk d c n key) = some r → Memory.wf r = true := by
  intro d c n key h r hr
  simp only [Dev.addChunk, Option.map_eq_some_iff] at hr
  obtain ⟨k, -, rfl⟩ := hr
  exact Dev.setNode_wf _ _ _ _ h

theorem Dev.addChunks_wf : ∀ d c n key a, Memory.wf d = true → ∀ r, (Dev.addChunks d c n key a) = some r → Memory.wf r = true := by
  intro d c n key a
  induction a generalizing d with
  | zero => intro h r hr; exact (Option.some.inj hr) ▸ h
  | succ k ih =>
    intro h r hr
    obtain ⟨e, he, hr⟩ := Option.bind_eq_some_iff.mp hr
    exact ih e (Dev.addChunk_wf _ _ _ _ h _ he) r hr

theorem Dev.growAreas_wf : ∀ d c n a, Memory.wf d = true → ∀ r, (Dev.growAreas d c n a) = some r → Memory.wf r = true := by
  intro d c n a
  induction a generalizing d with
  | nil => intro h r hr; exact (Option.some.inj hr) ▸ h
  | cons a as ih =>
    intro h r hr
    obtain ⟨e, he, hr⟩ := Option.bind_eq_some_iff.mp hr
    exact ih e (Dev.addChunks_wf _ _ _ _ _ h _ he) r hr

theorem Dev.takeChunks_wf : ∀ d c n, Memory.wf d = true → ∀ r, (Dev.takeChunks d c n) = some r → Memory.wf r = true := by
  intros; unfold Dev.takeChunks at *; grind [Memory.wf_mk, Mem.wf_mk, → Memory.wf_host, → Memory.wf_mem, →
    Memory.wf_cells, → Memory.wf_poison, Sparse.wf_set, Sparse.wf_setAll, Memory.wf_foldl, Dev.growAreas_wf]

theorem Dev.freeArea_wf : ∀ d c n key, Memory.wf d = true → Memory.wf (Dev.freeArea d c n key) = true := by
  intros; unfold Dev.freeArea; simp +contextual (maxDischargeDepth := 40) only [Dev.setNode_wf, *]

theorem Dev.runPlain_wf : ∀ d c x nd a b, Memory.wf d = true → Memory.wf (Dev.runPlain d c x nd a b).dev = true := by
  intros; unfold Dev.runPlain; (repeat' split) <;> simp +contextual (maxDischargeDepth := 40) only [Dev.ocount_wf,
    Dev.countNulls_wf, *]

theorem Dev.runRange_wf : ∀ d c x n m i, Memory.wf d = true → Memory.wf (Dev.runRange d c x n m i).dev = true := by
  intros; unfold Dev.runRange; (repeat' split) <;> simp +contextual (maxDischargeDepth := 40) only [*]

theorem Dev.runFinish_wf : ∀ d c x n a, Memory.wf d = true → Memory.wf (Dev.runFinish d c x n a).dev = true := by
  intros; unfold Dev.runFinish; dsimp only; (repeat' split) <;> simp +contextual (maxDischargeDepth := 40) only
    [Dev.runRange_wf, Dev.runPartition_wf, *]

theorem Dev.runNode_wf : ∀ d w, Memory.wf d = true → Memory.wf (Dev.runNode d w).dev = true := by
  intros; unfold Dev.runNode; dsimp only; (repeat' split) <;> simp +contextual (maxDischargeDepth := 40) only
    [Dev.runFinish_wf, Dev.runLvBuild_wf, Dev.runHjBuild_wf, Dev.runProbe_wf, Dev.runSortRun_wf, Dev.runTopk_wf,
    Dev.runAgg_wf, Dev.runSortAgg_wf, Dev.runShuffleOut_wf, Dev.runLookup_wf, Dev.runPlain_wf, *]

theorem Dev.sendBlock_wf : ∀ d c sink seq k body, Memory.wf d = true → Memory.wf (Dev.sendBlock d c sink seq k body) =
    true := by
  intros; unfold Dev.sendBlock; simp +contextual (maxDischargeDepth := 40) only [Memory.wf_ite, Dev.issueList_wf,
    Dev.setCtx_wf, *]

theorem Dev.closeBlock_wf : ∀ d c n rows last e, Memory.wf d = true → ∀ r, (Dev.closeBlock d c n rows last e) = some r
    → Memory.wf r.1 = true := by
  intros; unfold Dev.closeBlock at *; grind [Memory.wf_mk, Mem.wf_mk, → Memory.wf_host, → Memory.wf_mem, →
    Memory.wf_cells, → Memory.wf_poison, Sparse.wf_set, Sparse.wf_setAll, Memory.wf_foldl, Dev.resultBlock_wf,
    Dev.sendBlock_wf]

theorem Dev.closeBlocks_wf : ∀ d c n a y4, Memory.wf d = true → Memory.wf (Dev.closeBlocks d c n a y4).1 = true := by
  intro d c n a y4; fun_induction Dev.closeBlocks d c n a y4 <;> intros <;> grind [Memory.wf_mk, Mem.wf_mk, →
    Memory.wf_host, → Memory.wf_mem, → Memory.wf_cells, → Memory.wf_poison, Sparse.wf_set, Sparse.wf_setAll,
    Memory.wf_foldl, Dev.closeBlock_wf]

theorem Dev.emitRows_wf : ∀ d c n e, Memory.wf d = true → Memory.wf (Dev.emitRows d c n e).1 = true := by
  intros; unfold Dev.emitRows; dsimp only; (repeat' split) <;> simp +contextual (maxDischargeDepth := 40) only
    [Dev.closeBlocks_wf, *]

theorem Dev.cutResults_wf : ∀ d c st, Memory.wf d = true → Memory.wf (Dev.cutResults d c st) = true := by
  intros; unfold Dev.cutResults; simp +contextual (maxDischargeDepth := 40) only [Dev.cutLists_wf, *]

theorem Dev.stopNodes_wf : ∀ d c, Memory.wf d = true → Memory.wf (Dev.stopNodes d c) = true := by
  intros; unfold Dev.stopNodes; simp +contextual (maxDischargeDepth := 40) only [Memory.wf_mk, Memory.wf_host,
    Memory.wf_mem, Bool.and_self, Memory.wf_foldl, implies_true, Dev.dropJob_wf, Dev.dropFlows_wf, Dev.setCtx_wf, *]

theorem Dev.oweCancel_wf : ∀ d x, Memory.wf d = true → Memory.wf (Dev.oweCancel d x) = true := by
  intros; unfold Dev.oweCancel; simp +contextual (maxDischargeDepth := 40) only [Memory.wf_mk, Memory.wf_host,
    Memory.wf_mem, Bool.and_self, Memory.wf_ite, *]

theorem Dev.failCtx_wf : ∀ d c st, Memory.wf d = true → Memory.wf (Dev.failCtx d c st) = true := by
  intros; unfold Dev.failCtx; simp +contextual (maxDischargeDepth := 40) only [Memory.wf_ite, Dev.oweCancel_wf,
    Dev.stopNodes_wf, Dev.setCtx_wf, *]

theorem Dev.failReaders_wf : ∀ v, Memory.wf v.1 = true → Memory.wf (Dev.failReaders v) = true :=
  fun v h => foldl_keeps (fun d => Memory.wf d = true) _ (fun _ _ hb => Dev.failCtx_wf _ _ _ hb) _ _ h

theorem Dev.cancelCtx_wf : ∀ d c st, Memory.wf d = true → Memory.wf (Dev.cancelCtx d c st) = true := by
  intros; unfold Dev.cancelCtx; simp +contextual (maxDischargeDepth := 40) only [Memory.wf_ite, Dev.setCtx_wf,
    Dev.cutResults_wf, Dev.failCtx_wf, *]

theorem Dev.pipeFinish_wf : ∀ d id c st noEffect sealed, Memory.wf d = true → Memory.wf (Dev.pipeFinish d id c st
    noEffect sealed) = true := by
  intros; unfold Dev.pipeFinish; simp +contextual (maxDischargeDepth := 40) only [Dev.finish_wf, *]

theorem Dev.freeCtx_wf : ∀ d c, Memory.wf d = true → Memory.wf (Dev.freeCtx d c) = true := by
  intros; unfold Dev.freeCtx; simp +contextual (maxDischargeDepth := 40) only [Memory.wf_foldl, implies_true,
    Dev.setCtx_wf, Dev.lvUnbind_wf, *]

theorem Dev.evictCtx_wf : ∀ d c, Memory.wf d = true → Memory.wf (Dev.evictCtx d c) = true := by
  intros; unfold Dev.evictCtx; simp +contextual (maxDischargeDepth := 40) only [Memory.wf_mk, Memory.wf_host,
    Memory.wf_mem, Bool.and_self, Dev.releaseAllStreams_wf, *]

theorem Dev.endWaiters_wf : ∀ d c st a, Memory.wf d = true → Memory.wf (Dev.endWaiters d c st a) = true := by
  intro d c st a; fun_induction Dev.endWaiters d c st a <;> intros <;> grind [Memory.wf_mk, Mem.wf_mk, →
    Memory.wf_host, → Memory.wf_mem, → Memory.wf_cells, → Memory.wf_poison, Sparse.wf_set, Sparse.wf_setAll,
    Memory.wf_foldl, Dev.pipeFinish_wf, Dev.finish_wf, Dev.freeCtx_wf]

theorem Dev.closeCtx_wf : ∀ d c state st part sealed, Memory.wf d = true → Memory.wf (Dev.closeCtx d c state st part
    sealed) = true := by
  intros; unfold Dev.closeCtx; dsimp only; (repeat' split) <;> simp +contextual (maxDischargeDepth := 40) only
    [Dev.evictCtx_wf, Dev.dropFlows_wf, Dev.setCtx_wf, Dev.lvSweep_wf, Dev.pipeFinish_wf, Dev.endWaiters_wf, *]

theorem Dev.grant_wf : ∀ d p, Memory.wf d = true → Memory.wf (Dev.grant d p) = true := by
  intros; unfold Dev.grant; dsimp only; (repeat' split) <;> simp +contextual (maxDischargeDepth := 40) only
    [Memory.wf_mk, Memory.wf_host, Memory.wf_mem, Bool.and_self, Dev.setPane_wf, Dev.setNode_wf, *]

theorem Dev.dispatchTo_wf : ∀ d cas c n p step, Memory.wf d = true → Memory.wf (Dev.dispatchTo d cas c n p step) =
    true := by
  intros; unfold Dev.dispatchTo; dsimp only; (repeat' split) <;> simp +contextual (maxDischargeDepth := 40) only
    [Memory.wf_mk, Memory.wf_host, Memory.wf_mem, Bool.and_self, Dev.scanRead_wf, Dev.failCtx_wf, Dev.draw_wf,
    Dev.setNode_wf, Dev.releaseStreams_wf, Dev.setPane_wf, Dev.setLatch_wf, Dev.ocount_wf, Dev.fcount64_wf,
    Dev.fcount_wf, Dev.grant_wf, *]

theorem Dev.stripDispatch_wf : ∀ d cas, Memory.wf d = true → Memory.wf (Dev.stripDispatch d cas) = true := by
  intros; unfold Dev.stripDispatch; (repeat' split) <;> simp +contextual (maxDischargeDepth := 40) only
    [Dev.dispatchTo_wf, *]

theorem Dev.modeAt_wf : ∀ d c n, Memory.wf d = true → Memory.wf (Dev.modeAt d c n) = true := by
  intros; unfold Dev.modeAt; simp +contextual (maxDischargeDepth := 40) only [Memory.wf_ite, Dev.toMatching_wf,
    Dev.setNode_wf, *]

theorem Dev.sourceDone_wf : ∀ d w, Memory.wf d = true → Memory.wf (Dev.sourceDone d w) = true := by
  intros; unfold Dev.sourceDone; simp +contextual (maxDischargeDepth := 40) only [Memory.wf_ite, Memory.wf_foldl,
    implies_true, Dev.setCtx_wf, Dev.releaseCredit_wf, *]

theorem Dev.emitDone_wf : ∀ d w rows, Memory.wf d = true → Memory.wf (Dev.emitDone d w rows) = true := by
  intros; unfold Dev.emitDone; dsimp only; (repeat' split) <;> simp +contextual (maxDischargeDepth := 40) only
    [Dev.emitRows_wf, Dev.setCtx_wf, Dev.failCtx_wf, *]

theorem Dev.setWork_wf : ∀ d w v, Memory.wf d = true → Memory.wf (Dev.setWork d w v) = true := by
  intros; unfold Dev.setWork; simp +contextual (maxDischargeDepth := 40) only [Memory.wf_mk, Memory.wf_host,
    Memory.wf_mem, Bool.and_self, *]

theorem Dev.lookupBoundary_wf : ∀ d t, Memory.wf d = true → Memory.wf (Dev.lookupBoundary d t) = true := by
  intros; unfold Dev.lookupBoundary; simp +contextual (maxDischargeDepth := 40) only [Memory.wf_mk, Memory.wf_host,
    Memory.wf_mem, Bool.and_self, *]

theorem Dev.applyAt_wf : ∀ d c n, Memory.wf d = true → Memory.wf (Dev.applyAt d c n) = true := by
  intros; unfold Dev.applyAt; simp +contextual (maxDischargeDepth := 40) only [Memory.wf_ite, Dev.setNode_wf,
    Dev.lvSweep_wf, Dev.lookupBoundary_wf, *]

theorem Dev.commit_wf : ∀ d w, Memory.wf d = true → Memory.wf (Dev.commit d w) = true := by
  intros; unfold Dev.commit; grind [Memory.wf_mk, Mem.wf_mk, → Memory.wf_host, → Memory.wf_mem, → Memory.wf_cells, →
    Memory.wf_poison, Sparse.wf_set, Sparse.wf_setAll, Memory.wf_foldl, Dev.runNode_wf, Dev.failCtx_wf,
    Dev.setWork_wf, Dev.setNode_wf]

theorem Dev.enterFinish_wf : ∀ d c n out, Memory.wf d = true → Memory.wf (Dev.enterFinish d c n out) = true := by
  intros; unfold Dev.enterFinish; simp +contextual (maxDischargeDepth := 40) only [Dev.setNode_wf, *]

theorem Dev.startPass_wf : ∀ d c n m, Memory.wf d = true → Memory.wf (Dev.startPass d c n m) = true := by
  intros; unfold Dev.startPass; grind [Memory.wf_mk, Mem.wf_mk, → Memory.wf_host, → Memory.wf_mem, → Memory.wf_cells,
    → Memory.wf_poison, Sparse.wf_set, Sparse.wf_setAll, Memory.wf_foldl, Dev.setNode_wf, Dev.enterFinish_wf,
    Dev.takeChunks_wf, Dev.failCtx_wf]

theorem Dev.rangeDone_wf : ∀ d c n, Memory.wf d = true → Memory.wf (Dev.rangeDone d c n) = true := by
  intros; unfold Dev.rangeDone; dsimp only; (repeat' split) <;> simp +contextual (maxDischargeDepth := 40) only
    [Memory.wf_foldl, implies_true, Dev.countTrunc_wf, Dev.ocount_wf, Dev.setNode_wf, Dev.freeArea_wf,
    Dev.startPass_wf, *]

theorem Dev.boundary_wf : ∀ d w st count, Memory.wf d = true → Memory.wf (Dev.boundary d w st count) = true := by
  intros; unfold Dev.boundary; grind [Memory.wf_mk, Mem.wf_mk, → Memory.wf_host, → Memory.wf_mem, → Memory.wf_cells, →
    Memory.wf_poison, Sparse.wf_set, Sparse.wf_setAll, Memory.wf_foldl, Dev.commitLines_wf, Dev.setNode_wf,
    Dev.sourceDone_wf, Dev.emitDone_wf, Dev.takeChunks_wf, Dev.failCtx_wf, Dev.rangeDone_wf, Dev.modeAt_wf,
    Dev.applyAt_wf]

theorem Dev.deliver_wf : ∀ d c n port s, Memory.wf d = true → Memory.wf (Dev.deliver d c n port s) = true := by
  intros; unfold Dev.deliver; simp +contextual (maxDischargeDepth := 40) only [Memory.wf_ite, Memory.wf_foldl,
    implies_true, Dev.toStore_wf, Dev.setNode_wf, *]

theorem Dev.countStall_wf : ∀ d c n x port s, Memory.wf d = true → ∀ r, (Dev.countStall d c n x port s) = some r →
    Memory.wf r = true := by
  intros; unfold Dev.countStall at *; grind [Memory.wf_mk, Mem.wf_mk, → Memory.wf_host, → Memory.wf_mem, →
    Memory.wf_cells, → Memory.wf_poison, Sparse.wf_set, Sparse.wf_setAll, Memory.wf_foldl, Dev.fcount_wf,
    Dev.setNode_wf]

theorem Dev.stallNext_wf : ∀ d c x n, Memory.wf d = true → ∀ r, (Dev.stallNext d c x n) = some r → Memory.wf r = true := by
  intro d c x n h r hr
  simp only [Dev.stallNext, Option.or_eq_some_iff] at hr
  rcases hr with hr | ⟨-, hr⟩
  · obtain ⟨a, -, ha⟩ := List.exists_of_findSome?_eq_some hr
    exact Dev.countStall_wf _ _ _ _ _ _ h _ ha
  · obtain ⟨w, -, hw⟩ := List.exists_of_findSome?_eq_some hr
    obtain ⟨q, -, hq⟩ := List.exists_of_findSome?_eq_some hw
    obtain ⟨s, -, hs⟩ := Option.bind_eq_some_iff.mp hq
    split at hs
    · exact Dev.countStall_wf _ _ _ _ _ _ h _ hs
    · cases hs

theorem Dev.enterStore_wf : ∀ d c x n, Memory.wf d = true → ∀ r, (Dev.enterStore d c x n) = some r → Memory.wf r =
    true := by
  intros; unfold Dev.enterStore at *; grind [Memory.wf_mk, Mem.wf_mk, → Memory.wf_host, → Memory.wf_mem, →
    Memory.wf_cells, → Memory.wf_poison, Sparse.wf_set, Sparse.wf_setAll, Memory.wf_foldl, Dev.toStore_wf,
    Dev.setNode_wf, Dev.fcount_wf]

theorem Dev.drainHold_wf : ∀ d c x n, Memory.wf d = true → ∀ r, (Dev.drainHold d c x n) = some r → Memory.wf r = true := by
  intro d c x n h r hr
  simp only [Dev.drainHold, Option.map_eq_some_iff] at hr
  obtain ⟨a, ha, rfl⟩ := hr
  exact Dev.deliver_wf _ _ _ _ _ (Dev.setNode_wf _ _ _ _ h)

theorem Dev.commitNext_wf : ∀ d c x n, Memory.wf d = true → ∀ r, (Dev.commitNext d c x n) = some r → Memory.wf r = true := by
  intro d c x n h r hr
  simp only [Dev.commitNext, Option.map_eq_some_iff] at hr
  obtain ⟨a, ha, rfl⟩ := hr
  exact Dev.commit_wf _ _ h

theorem Dev.boundaryNext_wf : ∀ d c x n, Memory.wf d = true → ∀ r, (Dev.boundaryNext d c x n) = some r → Memory.wf r = true := by
  intro d c x n h r hr
  simp only [Dev.boundaryNext] at hr
  split at hr
  · cases hr
  · obtain ⟨w, -, hw⟩ := List.exists_of_findSome?_eq_some hr
    split at hw
    · cases hw
    · obtain ⟨m, -, rfl⟩ := Option.map_eq_some_iff.mp hw
      exact Dev.boundary_wf _ _ _ _ h

theorem Dev.scanBlocks_wf : ∀ d c x n, Memory.wf d = true → ∀ r, (Dev.scanBlocks d c x n) = some r → Memory.wf r = true := by
  intro d c x n h r hr
  simp only [Dev.scanBlocks] at hr
  split at hr
  · split at hr
    · cases hr
    · generalize hv : List.foldl _ _ _ = v at hr
      have k : Memory.wf v.1 = true := by
        rw [← hv]
        refine foldl_keeps (fun (a : Dev × ScanSt × List (List Datum) × Option Nat) => Memory.wf a.1 = true) _ (fun b a hb => ?_) _ _ h
        split
        · exact Dev.askBlocks_wf _ _ _ _ _ _ _ _ hb
        · exact hb
      split at hr
      · exact (Option.some.inj hr) ▸ Dev.failCtx_wf _ _ _ k
      · split at hr
        · split at hr
          · exact (Option.some.inj hr) ▸ Dev.failCtx_wf _ _ _ h
          · cases hr
        · cases Option.some.inj hr
          exact k
  · cases hr

theorem Dev.endNode_wf : ∀ d c n, Memory.wf d = true → Memory.wf (Dev.endNode d c n) = true := by
  intros; unfold Dev.endNode; simp +contextual (maxDischargeDepth := 40) only [Memory.wf_ite, Memory.wf_foldl,
    implies_true, Dev.releaseAllStreams_wf, Dev.setNode_wf, Dev.lvSweep_wf, Dev.dropJob_wf, *]

theorem Dev.startMerge_wf : ∀ d c x n, Memory.wf d = true → Memory.wf (Dev.startMerge d c x n) = true := by
  intros; unfold Dev.startMerge; grind [Memory.wf_mk, Mem.wf_mk, → Memory.wf_host, → Memory.wf_mem, → Memory.wf_cells,
    → Memory.wf_poison, Sparse.wf_set, Sparse.wf_setAll, Memory.wf_foldl, Dev.failCtx_wf, Dev.startPass_wf]

theorem Dev.inputEnds_wf : ∀ d c x n, Memory.wf d = true → Memory.wf (Dev.inputEnds d c x n) = true := by
  intros; unfold Dev.inputEnds; dsimp only; (repeat' split) <;> grind [Memory.wf_mk, Mem.wf_mk, → Memory.wf_host, →
    Memory.wf_mem, → Memory.wf_cells, → Memory.wf_poison, Sparse.wf_set, Sparse.wf_setAll, Memory.wf_foldl,
    Dev.setNode_wf, Dev.lvBind_wf, Dev.endNode_wf, Dev.failCtx_wf, Dev.endHjBuild_wf, Dev.takeChunks_wf,
    Dev.enterFinish_wf, Dev.countTrunc_wf, Dev.endSortAgg_wf, Dev.closeBlock_wf, Dev.endShuffleOut_wf,
    Dev.startMerge_wf]

theorem Dev.nodeEnds_wf : ∀ d c x n, Memory.wf d = true → ∀ r, (Dev.nodeEnds d c x n) = some r → Memory.wf r = true := by
  intros; unfold Dev.nodeEnds at *; grind [Memory.wf_mk, Mem.wf_mk, → Memory.wf_host, → Memory.wf_mem, →
    Memory.wf_cells, → Memory.wf_poison, Sparse.wf_set, Sparse.wf_setAll, Memory.wf_foldl, Dev.endNode_wf,
    Dev.inputEnds_wf]

theorem Dev.nodeStep_wf : ∀ d c x n, Memory.wf d = true → ∀ r, (Dev.nodeStep d c x n) = some r → Memory.wf r = true := by
  intro d c x n h r hr
  simp only [Dev.nodeStep, Option.or_eq_some_iff] at hr
  rcases hr with hr | ⟨-, hr | ⟨-, hr | ⟨-, hr | ⟨-, hr | ⟨-, hr | ⟨-, hr | ⟨-, hr⟩⟩⟩⟩⟩⟩⟩
  · exact Dev.drainHold_wf _ _ _ _ h _ hr
  · exact Dev.boundaryNext_wf _ _ _ _ h _ hr
  · exact Dev.enterStore_wf _ _ _ _ h _ hr
  · split at hr
    · exact (Option.some.inj hr) ▸ Dev.failCtx_wf _ _ _ h
    · cases hr
  · exact Dev.commitNext_wf _ _ _ _ h _ hr
  · exact Dev.scanBlocks_wf _ _ _ _ h _ hr
  · exact Dev.nodeEnds_wf _ _ _ _ h _ hr
  · exact Dev.stallNext_wf _ _ _ _ h _ hr

theorem Dev.parkGather_wf : ∀ d c, Memory.wf d = true → Memory.wf (Dev.parkGather d c) = true := by
  intros; unfold Dev.parkGather; dsimp only; (repeat' split) <;> simp +contextual (maxDischargeDepth := 40) only
    [Memory.wf_foldl, implies_true, Dev.lvUnbind_wf, Dev.setCtx_wf, Dev.evictCtx_wf, Dev.dropJob_wf,
    Dev.pipeFinish_wf, Dev.failCtx_wf, *]

theorem Dev.parkStep_wf : ∀ d c x, Memory.wf d = true → ∀ r, (Dev.parkStep d c x) = some r → Memory.wf r = true := by
  intros; rename_i hr; unfold Dev.parkStep at hr; (try dsimp only at hr); (repeat' split at hr) <;> grind
    [Memory.wf_mk, Mem.wf_mk, → Memory.wf_host, → Memory.wf_mem, → Memory.wf_cells, → Memory.wf_poison, Sparse.wf_set,
    Sparse.wf_setAll, Memory.wf_foldl, Dev.closeBlock_wf, Dev.setNode_wf, Dev.failCtx_wf, Dev.parkGather_wf]

theorem Dev.ctxStep_wf : ∀ d c x, Memory.wf d = true → ∀ r, (Dev.ctxStep d c x) = some r → Memory.wf r = true := by
  intro d c x h r hr
  simp only [Dev.ctxStep] at hr
  split at hr
  · split at hr
    · cases hr
    · exact (Option.some.inj hr) ▸ Dev.closeCtx_wf _ _ _ _ _ _ h
  · split at hr
    · rename_i he
      obtain ⟨n, -, hn⟩ := List.exists_of_findSome?_eq_some he
      exact (Option.some.inj hr) ▸ Dev.nodeStep_wf _ _ _ _ h _ hn
    · repeat' split at hr
      · cases hr
      · exact (Option.some.inj hr) ▸ Dev.closeCtx_wf _ _ _ _ _ _ h
      · exact Dev.parkStep_wf _ _ _ h _ hr
      · cases hr

theorem Dev.readyNode_wf : ∀ d c n, Memory.wf d = true → Memory.wf (Dev.readyNode d c n) = true := by
  intros; unfold Dev.readyNode; simp +contextual (maxDischargeDepth := 40) only [Memory.wf_mk, Memory.wf_host,
    Memory.wf_mem, Bool.and_self, Memory.wf_ite, Dev.setNode_wf, *]

theorem Dev.readiness_wf : ∀ d, Memory.wf d = true → Memory.wf (Dev.readiness d) = true := by
  intros; unfold Dev.readiness; simp +contextual (maxDischargeDepth := 40) only [Memory.wf_foldl, implies_true,
    Dev.readyNode_wf, Dev.grant_wf, *]

theorem Dev.pipeStep_wf : ∀ d, Memory.wf d = true → ∀ r, (Dev.pipeStep d) = some r → Memory.wf r = true := by
  intro d h r hr
  obtain ⟨q, -, hq⟩ := List.exists_of_findSome?_eq_some hr
  exact Dev.ctxStep_wf _ _ _ h _ hq

theorem Dev.residueMismatch_wf : ∀ d p w r0 injected, Memory.wf d = true → Memory.wf (Dev.residueMismatch d p w r0
    injected).1 = true := by
  intros; unfold Dev.residueMismatch; dsimp only; (repeat' split) <;> simp +contextual (maxDischargeDepth := 40) only
    [Dev.faultRaise_wf, Dev.fcount_wf, Dev.setPane_wf, Dev.setWork_wf, Dev.failCtx_wf, *]

theorem Dev.stage_wf : ∀ d p w verify, Memory.wf d = true → Memory.wf (Dev.stage d p w verify) = true := by
  intros; unfold Dev.stage; simp +contextual (maxDischargeDepth := 40) only [Dev.setWork_wf, Dev.grant_wf,
    Dev.setPane_wf, *]

theorem Dev.scanMedia_wf : ∀ d p slot st, Memory.wf d = true → Memory.wf (Dev.scanMedia d p slot st) = true := by
  intros; unfold Dev.scanMedia; dsimp only; (repeat' split) <;> simp +contextual (maxDischargeDepth := 40) only
    [Dev.failCtx_wf, Dev.nvmeStatus_wf, *]

theorem Dev.stripBoundary_wf : ∀ d p mismatch verify media, Memory.wf d = true → Memory.wf (Dev.stripBoundary d p
    mismatch verify media) = true := by
  intros; unfold Dev.stripBoundary; dsimp only; (repeat' split) <;> simp +contextual (maxDischargeDepth := 40) only
    [Memory.wf_mk, Memory.wf_host, Memory.wf_mem, Bool.and_self, Dev.scanMedia_wf, Dev.grant_wf, Dev.setPane_wf,
    Dev.draw_wf, Dev.fiConsume_wf, Dev.residueMismatch_wf, Dev.stage_wf, Dev.ocount_wf, Dev.fcount_wf, *]

theorem Dev.fillCtx_wf : ∀ d c at_ image p, Memory.wf d = true → Memory.wf (Dev.fillCtx d c at_ image p) = true := by
  intros; unfold Dev.fillCtx; simp +contextual (maxDischargeDepth := 40) only [Dev.setCtx_wf, Dev.oput_wf, *]

theorem Dev.pipeLoad_wf : ∀ d id, Memory.wf d = true → Memory.wf (Dev.pipeLoad d id) = true := by
  intros; unfold Dev.pipeLoad; dsimp only; (repeat' split) <;> simp +contextual (maxDischargeDepth := 40) only
    [Dev.finish_wf, Dev.engWrite_wf, Dev.fillCtx_wf, *]

theorem Dev.startFlow_wf : ∀ d c epoch n, Memory.wf d = true → Memory.wf (Dev.startFlow d c epoch n) = true := by
  intros; unfold Dev.startFlow; simp +contextual (maxDischargeDepth := 40) only [Memory.wf_mk, Memory.wf_host,
    Memory.wf_mem, Bool.and_self, Memory.wf_ite, Memory.wf_foldl, implies_true, Dev.sendCredit_wf, *]

theorem Dev.zeroArith_wf : ∀ d c, Memory.wf d = true → Memory.wf (Dev.zeroArith d c) = true := by
  intros; unfold Dev.zeroArith; simp +contextual (maxDischargeDepth := 40) only [Memory.wf_foldl, implies_true,
    Dev.oput_wf, *]

theorem Dev.startRun_wf : ∀ d k c, Memory.wf d = true → Memory.wf (Dev.startRun d k c) = true := by
  intros; unfold Dev.startRun; simp +contextual (maxDischargeDepth := 40) only [Memory.wf_foldl, implies_true,
    Dev.ocount_wf, Dev.zeroArith_wf, Dev.setCtx_wf, Dev.startFlow_wf, *]

theorem Dev.pipeRun_wf : ∀ d id, Memory.wf d = true → Memory.wf (Dev.pipeRun d id) = true := by
  intros; unfold Dev.pipeRun; (repeat' split) <;> simp +contextual (maxDischargeDepth := 40) only [Memory.wf_ite,
    Dev.pipeFinish_wf, Dev.finish_wf, Dev.startRun_wf, *]

theorem Dev.waitCtx_wf : ∀ d c id, Memory.wf d = true → Memory.wf (Dev.waitCtx d c id) = true := by
  intros; unfold Dev.waitCtx; simp +contextual (maxDischargeDepth := 40) only [Dev.setCtx_wf, *]

theorem Dev.pipeCancel_wf : ∀ d id, Memory.wf d = true → Memory.wf (Dev.pipeCancel d id) = true := by
  intros; unfold Dev.pipeCancel; (repeat' split) <;> simp +contextual (maxDischargeDepth := 40) only [Memory.wf_ite,
    Dev.pipeFinish_wf, Dev.cancelCtx_wf, Dev.waitCtx_wf, *]

theorem Dev.pipePark_wf : ∀ d id, Memory.wf d = true → Memory.wf (Dev.pipePark d id) = true := by
  intros; unfold Dev.pipePark; (repeat' split) <;> simp +contextual (maxDischargeDepth := 40) only [Memory.wf_ite,
    Dev.waitCtx_wf, Dev.setCtx_wf, Dev.pipeFinish_wf, *]

theorem Dev.pipeUnload_wf : ∀ d id, Memory.wf d = true → Memory.wf (Dev.pipeUnload d id) = true := by
  intros; unfold Dev.pipeUnload; (repeat' split) <;> simp +contextual (maxDischargeDepth := 40) only [Memory.wf_ite,
    Dev.waitCtx_wf, Dev.cancelCtx_wf, Dev.finish_wf, Dev.freeCtx_wf, Dev.pipeFinish_wf, *]

theorem Dev.rebind_wf : ∀ d a, Memory.wf d = true → ∀ r, (Dev.rebind d a) = some r → Memory.wf r = true := by
  intro d a; fun_induction Dev.rebind d a <;> intros <;> grind [Memory.wf_mk, Mem.wf_mk, → Memory.wf_host, →
    Memory.wf_mem, → Memory.wf_cells, → Memory.wf_poison, Sparse.wf_set, Sparse.wf_setAll, Memory.wf_foldl,
    Dev.lvBind_wf]

theorem Dev.rechunk_wf : ∀ d c a, Memory.wf d = true → ∀ r, (Dev.rechunk d c a) = some r → Memory.wf r = true := by
  intro d c a; fun_induction Dev.rechunk d c a <;> intros <;> grind [Memory.wf_mk, Mem.wf_mk, → Memory.wf_host, →
    Memory.wf_mem, → Memory.wf_cells, → Memory.wf_poison, Sparse.wf_set, Sparse.wf_setAll, Memory.wf_foldl,
    Dev.takeChunks_wf]

theorem Dev.resumeFail_wf : ∀ d id c st, Memory.wf d = true → Memory.wf (Dev.resumeFail d id c st) = true := by
  intros; unfold Dev.resumeFail; simp +contextual (maxDischargeDepth := 40) only [Dev.pipeFinish_wf, Dev.cancelCtx_wf,
    *]

theorem Dev.resumeRun_wf : ∀ d k c, Memory.wf d = true → ∀ r, (Dev.resumeRun d k c) = some r → Memory.wf r = true := by
  intro d k c h r hr
  simp only [Dev.resumeRun] at hr
  split at hr
  · cases hr
  · rename_i e he
    obtain ⟨a, ha, hb⟩ := Option.bind_eq_some_iff.mp he
    exact (Option.some.inj hr) ▸ Dev.setCtx_wf _ _ _ (Dev.ocount_wf _ _ _
      (Dev.rechunk_wf _ _ _ (Dev.rebind_wf _ _ h _ ha) _ hb))

theorem Dev.pipeResume_wf : ∀ d id, Memory.wf d = true → Memory.wf (Dev.pipeResume d id) = true := by
  intros; unfold Dev.pipeResume; grind [Memory.wf_mk, Mem.wf_mk, → Memory.wf_host, → Memory.wf_mem, → Memory.wf_cells,
    → Memory.wf_poison, Sparse.wf_set, Sparse.wf_setAll, Memory.wf_foldl, Dev.pipeFinish_wf, Dev.resumeFail_wf,
    Dev.resumeRun_wf]

theorem Dev.cancelDoorbell_wf : ∀ d all c, Memory.wf d = true → Memory.wf (Dev.cancelDoorbell d all c) = true := by
  intros; unfold Dev.cancelDoorbell; simp +contextual (maxDischargeDepth := 40) only [Memory.wf_ite, Memory.wf_foldl,
    implies_true, Dev.ocount_wf, Dev.cancelCtx_wf, *]

theorem Dev.driveLost_wf : ∀ d slot, Memory.wf d = true → Memory.wf (Dev.driveLost d slot) = true := by
  intros; unfold Dev.driveLost; simp +contextual (maxDischargeDepth := 40) only [Memory.wf_ite, Memory.wf_foldl,
    implies_true, Dev.failCtx_wf, *]

theorem Dev.membersLost_wf : ∀ d gone, Memory.wf d = true → Memory.wf (Dev.membersLost d gone) = true := by
  intros; unfold Dev.membersLost; simp +contextual (maxDischargeDepth := 40) only [Memory.wf_ite, Memory.wf_foldl,
    implies_true, Dev.failCtx_wf, *]

end Sys2Proof.Machine
end

