-- ==== Sys2Proof/Laws/MemoryE.lean ====
section
/-!
SUPPORT. Every operation of MemCtl, Service, Digest, HingeRun keeps memory in its canonical form.
-/

set_option linter.style.nameCheck false

namespace Sys2Proof.Machine

theorem Dev.setRetrains_wf : ∀ d far l, Memory.wf d = true → Memory.wf (Dev.setRetrains d far l) = true := by
  intros; unfold Dev.setRetrains; (repeat' split) <;> simp +contextual (maxDischargeDepth := 40) only [Memory.wf_mk,
    Mem.wf_mk, Memory.wf_host, Memory.wf_mem, Memory.wf_cells, Memory.wf_poison, Bool.and_self, Dev.setChan_wf, *]

theorem Dev.nearUncorrected_wf : ∀ d ch, Memory.wf d = true → Memory.wf (Dev.nearUncorrected d ch) = true := by
  intros; unfold Dev.nearUncorrected; simp +contextual (maxDischargeDepth := 40) only [Memory.wf_ite, Dev.setChan_wf,
    Dev.faultRaise_wf, *]

theorem Dev.memError_wf : ∀ d line e inj, Memory.wf d = true → Memory.wf (Dev.memError d line e inj) = true := by
  intros; unfold Dev.memError; simp +contextual (maxDischargeDepth := 40) only [Memory.wf_ite, Dev.poison_wf,
    Dev.ocount_wf, Dev.fcount_wf, Dev.faultRaise_wf, Dev.nearUncorrected_wf, *]

theorem Dev.mcUpstream_wf : ∀ d s, Memory.wf d = true → Memory.wf (Dev.mcUpstream d s) = true := by
  intros; unfold Dev.mcUpstream; grind [Memory.wf_mk, Mem.wf_mk, → Memory.wf_host, → Memory.wf_mem, → Memory.wf_cells,
    → Memory.wf_poison, Sparse.wf_set, Sparse.wf_setAll, Memory.wf_foldl, Dev.mcEnter_wf, Dev.writeBack_wf,
    Dev.setSbank_wf, Dev.issueFill_wf]

theorem Dev.mcServed_wf : ∀ d q, Memory.wf d = true → Memory.wf (Dev.mcServed d q) = true := by
  intros; unfold Dev.mcServed; dsimp only; (repeat' split) <;> simp +contextual (maxDischargeDepth := 40) only
    [Dev.setSbank_wf, *]

theorem Dev.neighbour_wf : ∀ d s, Memory.wf d = true → Memory.wf (Dev.neighbour d s) = true := by
  intros; unfold Dev.neighbour; simp +contextual (maxDischargeDepth := 40) only [Memory.wf_ite, Dev.draw_wf,
    Dev.ocount_wf, *]

theorem Dev.retryAll_wf : ∀ d, Memory.wf d = true → Memory.wf (Dev.retryAll d).1 = true :=
  fun d h => foldl_keeps (fun (a : Dev × List Nat) => Memory.wf a.1 = true)
    (fun a key => ((a.1.retryWaiting (key / 16) (key % 16)).1, a.2 ++ (a.1.retryWaiting (key / 16) (key % 16)).2))
    (fun _ _ hb => Dev.retryWaiting_wf _ _ _ hb) _ (d, []) h

theorem Dev.mcServe_wf : ∀ d s err, Memory.wf d = true → Memory.wf (Dev.mcServe d s err) = true := by
  intros; unfold Dev.mcServe; dsimp only; (repeat' split) <;> simp +contextual (maxDischargeDepth := 40) only
    [Dev.draw_wf, Dev.mcUpstream_wf, Dev.setSub_wf, Dev.setMbank_wf, Dev.neighbour_wf, Dev.memError_wf, Dev.fiConsume_wf,
    Dev.mcServed_wf, *]

theorem Dev.memRequest_wf : ∀ d s err, Memory.wf d = true → Memory.wf (Dev.memRequest d s err).1 = true := by
  intros; unfold Dev.memRequest; simp +contextual (maxDischargeDepth := 40) only [Dev.retryAll_wf, Dev.mcServe_wf, *]

theorem Dev.closeRows_wf : ∀ d s p, Memory.wf d = true → Memory.wf (Dev.closeRows d s p) = true := by
  intros; unfold Dev.closeRows; simp +contextual (maxDischargeDepth := 40) only [Memory.wf_mk, Mem.wf_mk,
    Memory.wf_host, Memory.wf_mem, Memory.wf_cells, Memory.wf_poison, Bool.and_self, *]

theorem Dev.refreshInterval_wf : ∀ d s, Memory.wf d = true → Memory.wf (Dev.refreshInterval d s) = true := by
  intros; unfold Dev.refreshInterval; simp +contextual (maxDischargeDepth := 40) only [Memory.wf_ite,
    Dev.closeRows_wf, Dev.setSub_wf, *]

theorem Dev.powerDown_wf : ∀ d s rank, Memory.wf d = true → Memory.wf (Dev.powerDown d s rank) = true := by
  intros; unfold Dev.powerDown; simp +contextual (maxDischargeDepth := 40) only [Memory.wf_ite, Dev.closeRows_wf,
    Dev.setSub_wf, *]

theorem Dev.memoryTemp_wf : ∀ d u t, Memory.wf d = true → Memory.wf (Dev.memoryTemp d u t) = true := by
  intros; unfold Dev.memoryTemp; simp +contextual (maxDischargeDepth := 40) only [Memory.wf_mk, Mem.wf_mk,
    Memory.wf_host, Memory.wf_mem, Memory.wf_cells, Memory.wf_poison, Bool.and_self, Memory.wf_ite, *]

theorem Dev.retrainRequest_wf : ∀ d ch asked, Memory.wf d = true → Memory.wf (Dev.retrainRequest d ch asked) = true := by
  intros; unfold Dev.retrainRequest; simp +contextual (maxDischargeDepth := 40) only [Memory.wf_ite, Dev.setChan_wf,
    Dev.setRetrains_wf, *]

theorem Dev.retrainGo_wf : ∀ d a, Memory.wf d = true → Memory.wf (Dev.retrainGo d a) = true := by
  intros; unfold Dev.retrainGo; (repeat' split) <;> simp +contextual (maxDischargeDepth := 40) only [Memory.wf_ite,
    Dev.retrainRequest_wf, Dev.fput_wf, *]

theorem Dev.recordChan_wf : ∀ d ch st, Memory.wf d = true → Memory.wf (Dev.recordChan d ch st) = true := by
  intros; unfold Dev.recordChan; simp +contextual (maxDischargeDepth := 40) only [Dev.persistWrite_wf, Dev.oput_wf,
    Dev.setChan_wf, *]

theorem Dev.retireChan_wf : ∀ d ch, Memory.wf d = true → Memory.wf (Dev.retireChan d ch) = true := by
  intros; unfold Dev.retireChan; simp +contextual (maxDischargeDepth := 40) only [Memory.wf_mk, Mem.wf_mk,
    Memory.wf_host, Memory.wf_mem, Memory.wf_cells, Memory.wf_poison, Bool.and_self, Memory.wf_ite,
    Dev.setRetrains_wf, Dev.setChan_wf, Dev.recordChan_wf, *]

theorem Dev.retrainDone_wf : ∀ d far pass, Memory.wf d = true → Memory.wf (Dev.retrainDone d far pass) = true := by
  intros; unfold Dev.retrainDone; (repeat' split) <;> simp +contextual (maxDischargeDepth := 40) only [Memory.wf_ite,
    Dev.fputB_wf, Dev.faultRaise_wf, Dev.setChan_wf, Dev.ocount_wf, Dev.setRetrains_wf, Dev.retireChan_wf, *]

theorem Dev.remapDone_wf : ∀ d, Memory.wf d = true → Memory.wf (Dev.remapDone d) = true := by
  intro d h
  simp only [Dev.remapDone]
  repeat' split
  · exact h
  · exact h
  · refine Dev.recordChan_wf _ _ _ ?_
    simp only [Memory.wf_mk, Mem.wf_mk, Memory.wf_host h,
      Sparse.wf_setAll _ _ _ (Sparse.wf_filter 0 _ _ (Memory.wf_cells (Memory.wf_mem h))),
      Sparse.wf_setAll _ _ _ (Sparse.wf_filter false _ _ (Memory.wf_poison (Memory.wf_mem h))), Bool.and_self]

theorem Dev.scrubPass_wf : ∀ d found, Memory.wf d = true → Memory.wf (Dev.scrubPass d found) = true := by
  intros; unfold Dev.scrubPass; simp +contextual (maxDischargeDepth := 40) only [Memory.wf_ite, Memory.wf_foldl,
    implies_true, Dev.ocount_wf, Dev.memError_wf, *]

theorem Dev.returnWorks_wf : ∀ d p cut, Memory.wf d = true → Memory.wf (Dev.returnWorks d p cut) = true := by
  intros; unfold Dev.returnWorks; simp +contextual (maxDischargeDepth := 40) only [Memory.wf_mk, Memory.wf_host,
    Memory.wf_mem, Bool.and_self, Memory.wf_ite, Memory.wf_foldl, implies_true, Dev.setNode_wf,
    Dev.matchWithConsumers_wf, *]

theorem Dev.forgetPane_wf : ∀ d p, Memory.wf d = true → Memory.wf (Dev.forgetPane d p) = true := by
  intros; unfold Dev.forgetPane; simp +contextual (maxDischargeDepth := 40) only [Memory.wf_foldl, implies_true,
    Dev.setCtx_wf, *]

theorem Dev.orphanRuns_wf : ∀ d p, Memory.wf d = true → Memory.wf (Dev.orphanRuns d p) = true := by
  intros; unfold Dev.orphanRuns; simp +contextual (maxDischargeDepth := 40) only [Memory.wf_foldl, implies_true,
    Dev.setCtx_wf, *]

theorem Dev.moveNodes_wf : ∀ d c cas moved, Memory.wf d = true → Memory.wf (Dev.moveNodes d c cas moved) = true := by
  intros; unfold Dev.moveNodes; simp +contextual (maxDischargeDepth := 40) only [Memory.wf_foldl, implies_true,
    Dev.setNode_wf, Dev.matchWithConsumers_wf, *]

theorem Dev.moveScanBlocks_wf : ∀ d k atOnce, Memory.wf d = true → Memory.wf (Dev.moveScanBlocks d k atOnce) = true := by
  intros; unfold Dev.moveScanBlocks; grind [Memory.wf_mk, Mem.wf_mk, → Memory.wf_host, → Memory.wf_mem, →
    Memory.wf_cells, → Memory.wf_poison, Sparse.wf_set, Sparse.wf_setAll, Memory.wf_foldl, Dev.setBcas_wf]

theorem Dev.moveHomes_wf : ∀ d k fence, Memory.wf d = true → Memory.wf (Dev.moveHomes d k fence) = true := by
  intros; unfold Dev.moveHomes; simp +contextual (maxDischargeDepth := 40) only [Memory.wf_ite, Memory.wf_foldl,
    implies_true, Dev.failCtx_wf, Dev.moveNodes_wf, *]

theorem Dev.fenceEvent_wf : ∀ d, Memory.wf d = true → Memory.wf (Dev.fenceEvent d) = true := by
  intros; unfold Dev.fenceEvent; simp +contextual (maxDischargeDepth := 40) only [Dev.faultIrq_wf, Dev.ocount_wf,
    Dev.fputB_wf, *]

theorem Dev.holdPane_wf : ∀ d p b, Memory.wf d = true → Memory.wf (Dev.holdPane d p b) = true := by
  intros; unfold Dev.holdPane; simp +contextual (maxDischargeDepth := 40) only [Dev.fput_wf, *]

theorem Dev.afterFence_wf : ∀ d k, Memory.wf d = true → Memory.wf (Dev.afterFence d k) = true := by
  intros; unfold Dev.afterFence; simp +contextual (maxDischargeDepth := 40) only [Memory.wf_ite, Memory.wf_foldl,
    implies_true, Dev.failCtx_wf, Dev.moveNodes_wf, *]

theorem Dev.paneFence_wf : ∀ d p, Memory.wf d = true → Memory.wf (Dev.paneFence d p) = true := by
  intros; unfold Dev.paneFence; simp +contextual (maxDischargeDepth := 40) only [Memory.wf_ite, Dev.holdPane_wf,
    Dev.setPane_wf, Dev.forgetPane_wf, Dev.orphanRuns_wf, Dev.returnWorks_wf, Dev.afterFence_wf, Dev.fenceEvent_wf, *]

theorem Dev.lookupsLost_wf : ∀ d, Memory.wf d = true → Memory.wf (Dev.lookupsLost d) = true := by
  intros; unfold Dev.lookupsLost; simp +contextual (maxDischargeDepth := 40) only [Memory.wf_ite, Memory.wf_foldl,
    implies_true, Dev.failCtx_wf, *]

theorem Dev.ownersLost_wf : ∀ d k, Memory.wf d = true → Memory.wf (Dev.ownersLost d k) = true := by
  intros; unfold Dev.ownersLost; simp +contextual (maxDischargeDepth := 40) only [Memory.wf_ite, Memory.wf_foldl,
    implies_true, Dev.failCtx_wf, *]

theorem Dev.casementFence_wf : ∀ d k, Memory.wf d = true → Memory.wf (Dev.casementFence d k) = true := by
  intros; unfold Dev.casementFence; simp +contextual (maxDischargeDepth := 40) only [Memory.wf_ite, Memory.wf_foldl,
    implies_true, Dev.fput_wf, Dev.holdPane_wf, Dev.forgetPane_wf, Dev.setPane_wf, Dev.returnWorks_wf,
    Dev.orphanRuns_wf, Dev.moveScanBlocks_wf, Dev.moveHomes_wf, Dev.sillClear_wf, Dev.bifoldLeave_wf,
    Dev.ownersLost_wf, Dev.lookupsLost_wf, Dev.lvLoseCasement_wf, Dev.setLatch_wf, Dev.afterFence_wf,
    Dev.fenceEvent_wf, *]

theorem Dev.testBegin_wf : ∀ d p, Memory.wf d = true → Memory.wf (Dev.testBegin d p) = true := by
  intros; unfold Dev.testBegin; simp +contextual (maxDischargeDepth := 40) only [Memory.wf_ite, Memory.wf_foldl,
    implies_true, Dev.holdPane_wf, Dev.setPane_wf, Dev.matchWithConsumers_wf, *]

theorem Dev.testPending_wf : ∀ d p, Memory.wf d = true → Memory.wf (Dev.testPending d p) = true := by
  intros; unfold Dev.testPending; simp +contextual (maxDischargeDepth := 40) only [Memory.wf_ite, Dev.testBegin_wf, *]

theorem Dev.testsPending_wf : ∀ d k, Memory.wf d = true → Memory.wf (Dev.testsPending d k) = true := by
  intros; unfold Dev.testsPending; simp +contextual (maxDischargeDepth := 40) only [Memory.wf_foldl, implies_true,
    Dev.testPending_wf, *]

theorem Dev.selfTestReq_wf : ∀ d p, Memory.wf d = true → Memory.wf (Dev.selfTestReq d p) = true := by
  intros; unfold Dev.selfTestReq; simp +contextual (maxDischargeDepth := 40) only [Dev.testPending_wf, Dev.setPane_wf,
    *]

theorem Dev.selfTestRun_wf : ∀ d p pass, Memory.wf d = true → Memory.wf (Dev.selfTestRun d p pass) = true := by
  intros; unfold Dev.selfTestRun; simp +contextual (maxDischargeDepth := 40) only [Memory.wf_ite, Dev.oput_wf,
    Dev.orphanRuns_wf, Dev.setPane_wf, Dev.faultRaise_wf, Dev.testPending_wf, Dev.holdPane_wf, *]

theorem Dev.rejoinHold_wf : ∀ d p failed, Memory.wf d = true → Memory.wf (Dev.rejoinHold d p failed) = true := by
  intros; unfold Dev.rejoinHold; simp +contextual (maxDischargeDepth := 40) only [Memory.wf_ite, Dev.holdPane_wf, *]

theorem Dev.unfence_wf : ∀ d p pass, Memory.wf d = true → Memory.wf (Dev.unfence d p pass) = true := by
  intros; unfold Dev.unfence; simp +contextual (maxDischargeDepth := 40) only [Memory.wf_ite, Dev.oput_wf,
    Dev.testPending_wf, Dev.rejoinHold_wf, Dev.setPane_wf, Dev.faultRaise_wf, *]

theorem Dev.bankUnfence_wf : ∀ d c mask pass, Memory.wf d = true → Memory.wf (Dev.bankUnfence d c mask pass) = true := by
  intros; unfold Dev.bankUnfence; simp +contextual (maxDischargeDepth := 40) only [Memory.wf_ite, Memory.wf_foldl,
    implies_true, Dev.lvUnfence_wf, Dev.oput_wf, *]

theorem Dev.halt_wf : ∀ d n syn, Memory.wf d = true → Memory.wf (Dev.halt d n syn) = true := by
  intros; unfold Dev.halt; simp +contextual (maxDischargeDepth := 40) only [Memory.wf_mk, Memory.wf_host,
    Memory.wf_mem, Bool.and_self, Memory.wf_ite, Dev.emit_wf, Dev.faultIrq_wf, *]

theorem Dev.engineFence_wf : ∀ d c e, Memory.wf d = true → Memory.wf (Dev.engineFence d c e) = true := by
  intros; unfold Dev.engineFence; dsimp only; (repeat' split) <;> simp +contextual (maxDischargeDepth := 40) only
    [Dev.setBcas_wf, Dev.offerBlock_wf, Dev.fenceEvent_wf, *]

theorem Dev.fenceUnit_wf : ∀ d n syn, Memory.wf d = true → Memory.wf (Dev.fenceUnit d n syn) = true := by
  intros; unfold Dev.fenceUnit; simp +contextual (maxDischargeDepth := 40) only [Memory.wf_ite, Dev.paneFence_wf,
    Dev.engineFence_wf, Dev.fenceEvent_wf, Dev.lookupsLost_wf, Dev.lvLoseBank_wf, Dev.retireChan_wf, *]

theorem Dev.react_wf : ∀ d n act syn, Memory.wf d = true → Memory.wf (Dev.react d n act syn) = true := by
  intros; unfold Dev.react; simp +contextual (maxDischargeDepth := 40) only [Memory.wf_ite, Dev.halt_wf,
    Dev.casementFence_wf, Dev.fenceUnit_wf, *]

theorem Dev.reactAll_wf : ∀ a y1, Memory.wf y1 = true → Memory.wf (Dev.reactAll a y1) = true := by
  intro a y1; fun_induction Dev.reactAll a y1 <;> intros <;> grind [Memory.wf_mk, Mem.wf_mk, → Memory.wf_host, →
    Memory.wf_mem, → Memory.wf_cells, → Memory.wf_poison, Sparse.wf_set, Sparse.wf_setAll, Memory.wf_foldl,
    Dev.react_wf]

theorem Dev.flow_wf : ∀ a y1, Memory.wf y1 = true → Memory.wf (Dev.flow a y1) = true := by
  intro a y1; fun_induction Dev.flow a y1 <;> intros <;> grind [Memory.wf_mk, Mem.wf_mk, → Memory.wf_host, →
    Memory.wf_mem, → Memory.wf_cells, → Memory.wf_poison, Sparse.wf_set, Sparse.wf_setAll, Memory.wf_foldl,
    Dev.pipeStep_wf, Dev.reactAll_wf]

theorem Dev.settle_wf : ∀ d, Memory.wf d = true → Memory.wf (Dev.settle d) = true := by
  intros; unfold Dev.settle; simp +contextual (maxDischargeDepth := 40) only [Memory.wf_ite, Dev.reactAll_wf,
    Dev.readiness_wf, Dev.flow_wf, *]

theorem Dev.finishStrips_wf : ∀ d k, Memory.wf d = true → Memory.wf (Dev.finishStrips d k) = true := by
  intros; unfold Dev.finishStrips; simp +contextual (maxDischargeDepth := 40) only [Memory.wf_foldl, implies_true,
    Dev.stage_wf, *]

theorem Dev.finishBlocks_wf : ∀ d k, Memory.wf d = true → Memory.wf (Dev.finishBlocks d k) = true := by
  intros; unfold Dev.finishBlocks; simp +contextual (maxDischargeDepth := 40) only [Memory.wf_foldl, implies_true,
    Dev.blockDone_wf, *]

theorem Dev.poolStrips_wf : ∀ d k, Memory.wf d = true → Memory.wf (Dev.poolStrips d k) = true := by
  intros; unfold Dev.poolStrips; simp +contextual (maxDischargeDepth := 40) only [Memory.wf_mk, Memory.wf_host,
    Memory.wf_mem, Bool.and_self, *]

theorem Dev.casementDrain_wf : ∀ d k, Memory.wf d = true → Memory.wf (Dev.casementDrain d k) = true := by
  intros; unfold Dev.casementDrain; simp +contextual (maxDischargeDepth := 40) only [Memory.wf_foldl, implies_true,
    Dev.setLatch_wf, Dev.returnWorks_wf, Dev.moveHomes_wf, Dev.finishStrips_wf, Dev.flow_wf, Dev.poolStrips_wf,
    Dev.orphanRuns_wf, Dev.setPane_wf, Dev.bifoldLeave_wf, Dev.finishBlocks_wf, Dev.moveScanBlocks_wf,
    Dev.sillClear_wf, *]

theorem Dev.setSlot_wf : ∀ d s x, Memory.wf d = true → Memory.wf (Dev.setSlot d s x) = true := by
  intros; unfold Dev.setSlot; simp +contextual (maxDischargeDepth := 40) only [Memory.wf_mk, Memory.wf_host,
    Memory.wf_mem, Bool.and_self, *]

theorem Dev.tagFailure_wf : ∀ d s, Memory.wf d = true → Memory.wf (Dev.tagFailure d s) = true := by
  intros; unfold Dev.tagFailure; simp +contextual (maxDischargeDepth := 40) only [Dev.setSlot_wf, Dev.faultRaise_wf,
    Dev.ocount_wf, *]

theorem Dev.reportTag_wf : ∀ d s, Memory.wf d = true → Memory.wf (Dev.reportTag d s) = true := by
  intros; unfold Dev.reportTag; simp +contextual (maxDischargeDepth := 40) only [Memory.wf_ite, Dev.tagFailure_wf, *]

theorem Dev.setDgctx_wf : ∀ d k x, Memory.wf d = true → Memory.wf (Dev.setDgctx d k x) = true := by
  intros; unfold Dev.setDgctx; simp +contextual (maxDischargeDepth := 40) only [Memory.wf_mk, Memory.wf_host,
    Memory.wf_mem, Bool.and_self, *]

theorem Dev.dgAllocRead_wf : ∀ d, Memory.wf d = true → Memory.wf (Dev.dgAllocRead d).2 = true := by
  intros; unfold Dev.dgAllocRead; (repeat' split) <;> simp +contextual (maxDischargeDepth := 40) only
    [Dev.setDgctx_wf, *]

theorem Dev.dgStart_wf : ∀ d k, Memory.wf d = true → Memory.wf (Dev.dgStart d k) = true := by
  intros; unfold Dev.dgStart; simp +contextual (maxDischargeDepth := 40) only [Dev.setDgctx_wf, *]

theorem Dev.dgData_wf : ∀ d k b, Memory.wf d = true → Memory.wf (Dev.dgData d k b) = true := by
  intros; unfold Dev.dgData; simp +contextual (maxDischargeDepth := 40) only [Memory.wf_ite, Dev.setDgctx_wf, *]

theorem Dev.dgComplete_wf : ∀ d k, Memory.wf d = true → Memory.wf (Dev.dgComplete d k) = true := by
  intros; unfold Dev.dgComplete; dsimp only; (repeat' split) <;> simp +contextual (maxDischargeDepth := 40) only
    [Dev.setDgctx_wf, Dev.reportTag_wf, Dev.setSlot_wf, *]

theorem Dev.dgFinal_wf : ∀ d k, Memory.wf d = true → Memory.wf (Dev.dgFinal d k) = true := by
  intros; unfold Dev.dgFinal; simp +contextual (maxDischargeDepth := 40) only [Memory.wf_ite, Dev.setDgctx_wf,
    Dev.dgComplete_wf, *]

theorem Dev.dgRelease_wf : ∀ d k, Memory.wf d = true → Memory.wf (Dev.dgRelease d k) = true := by
  intros; unfold Dev.dgRelease; simp +contextual (maxDischargeDepth := 40) only [Dev.setDgctx_wf, *]

theorem Dev.dgBlock_wf : ∀ d k, Memory.wf d = true → Memory.wf (Dev.dgBlock d k) = true := by
  intros; unfold Dev.dgBlock; simp +contextual (maxDischargeDepth := 40) only [Memory.wf_ite, Dev.setDgctx_wf,
    Dev.dgComplete_wf, *]

theorem Dev.dgWord_wf : ∀ d k i, Memory.wf d = true → Memory.wf (Dev.dgWord d k i).2 = true := by
  intros; unfold Dev.dgWord; dsimp only; (repeat' split) <;> simp +contextual (maxDischargeDepth := 40) only
    [Dev.setDgctx_wf, *]

theorem Dev.dgCommands_wf : ∀ d k start final release, Memory.wf d = true → Memory.wf (Dev.dgCommands d k start final
    release) = true := by
  intros; unfold Dev.dgCommands; simp +contextual (maxDischargeDepth := 40) only [Memory.wf_ite, Dev.dgStart_wf,
    Dev.dgFinal_wf, Dev.dgRelease_wf, *]

theorem Dev.digestDispatch_wf : ∀ d c, Memory.wf d = true → Memory.wf (Dev.digestDispatch d c) = true := by
  intros; unfold Dev.digestDispatch; (repeat' split) <;> simp +contextual (maxDischargeDepth := 40) only
    [Dev.setDgctx_wf, Dev.finish_wf, *]

theorem Dev.digestFree_wf : ∀ d id, Memory.wf d = true → Memory.wf (Dev.digestFree d id) = true := by
  intros; unfold Dev.digestFree; (repeat' split) <;> simp +contextual (maxDischargeDepth := 40) only [Dev.setDgctx_wf,
    *]

theorem Dev.drawBytes_wf : ∀ d a, Memory.wf d = true → Memory.wf (Dev.drawBytes d a).2 = true := by
  intro d a; fun_induction Dev.drawBytes d a <;> intros <;> grind [Memory.wf_mk, Mem.wf_mk, → Memory.wf_host, →
    Memory.wf_mem, → Memory.wf_cells, → Memory.wf_poison, Sparse.wf_set, Sparse.wf_setAll, Memory.wf_foldl,
    Dev.draw_wf]

theorem Dev.digestDeliver_wf : ∀ d c st m untouched, Memory.wf d = true → Memory.wf (Dev.digestDeliver d c st m
    untouched) = true := by
  intros; unfold Dev.digestDeliver; dsimp only; (repeat' split) <;> simp +contextual (maxDischargeDepth := 40) only
    [Dev.finish_wf, Dev.reportTag_wf, Dev.drawBytes_wf, Dev.writeSpace_wf, *]

theorem Dev.digestRun_wf : ∀ d id, Memory.wf d = true → Memory.wf (Dev.digestRun d id) = true := by
  intros; unfold Dev.digestRun; dsimp only; (repeat' split) <;> simp +contextual (maxDischargeDepth := 40) only
    [Dev.digestFree_wf, Dev.finish_wf, Dev.digestDeliver_wf, *]

theorem Dev.setKsWindow_wf : ∀ d b, Memory.wf d = true → Memory.wf (Dev.setKsWindow d b) = true := by
  intros; unfold Dev.setKsWindow; simp +contextual (maxDischargeDepth := 40) only [Memory.wf_foldl, implies_true,
    Dev.fput_wf, *]

theorem Dev.ksAct_wf : ∀ d o, Memory.wf d = true → Memory.wf (Dev.ksAct d o) = true := by
  intros; unfold Dev.ksAct; (repeat' split) <;> simp +contextual (maxDischargeDepth := 40) only [Dev.fputB_wf,
    Dev.setSlot_wf, Dev.setKsWindow_wf, *]

theorem Dev.ksGo_wf : ∀ d o, Memory.wf d = true → Memory.wf (Dev.ksGo d o) = true := by
  intros; unfold Dev.ksGo; simp +contextual (maxDischargeDepth := 40) only [Memory.wf_mk, Memory.wf_host,
    Memory.wf_mem, Bool.and_self, Memory.wf_ite, Dev.fputB_wf, Dev.ksAct_wf, *]

theorem Dev.ksSettle_wf : ∀ d, Memory.wf d = true → Memory.wf (Dev.ksSettle d) = true := by
  intros; unfold Dev.ksSettle; (repeat' split) <;> simp +contextual (maxDischargeDepth := 40) only [Memory.wf_mk,
    Memory.wf_host, Memory.wf_mem, Bool.and_self, Dev.ksAct_wf, *]

theorem Dev.failList_wf : ∀ d l st, Memory.wf d = true → Memory.wf (Dev.failList d l st) = true := by
  intros; unfold Dev.failList; (repeat' split) <;> simp +contextual (maxDischargeDepth := 40) only [Dev.finish_wf,
    Dev.discardStore_wf, Dev.failCtx_wf, *]

theorem Dev.workOver_wf : ∀ d l, Memory.wf d = true → Memory.wf (Dev.workOver d l) = true := by
  intros; unfold Dev.workOver; (repeat' split) <;> simp +contextual (maxDischargeDepth := 40) only
    [Dev.storeLanded_wf, Dev.mapCmd_wf, Dev.mapStores_wf, Dev.offerBlock_wf, Dev.finish_wf, *]

theorem Dev.leaveList_wf : ∀ d n, Memory.wf d = true → Memory.wf (Dev.leaveList d n) = true := by
  intros; unfold Dev.leaveList; simp +contextual (maxDischargeDepth := 40) only [Dev.atBoundary_wf, Dev.popList_wf, *]

theorem Dev.dropHead_wf : ∀ d n l st, Memory.wf d = true → Memory.wf (Dev.dropHead d n l st) = true := by
  intros; unfold Dev.dropHead; (repeat' split) <;> simp +contextual (maxDischargeDepth := 40) only [Memory.wf_ite,
    Dev.leaveList_wf, Dev.failList_wf, *]

theorem Dev.descBoundary_wf : ∀ d n l, Memory.wf d = true → Memory.wf (Dev.descBoundary d n l) = true := by
  intros; unfold Dev.descBoundary; (repeat' split) <;> simp +contextual (maxDischargeDepth := 40) only
    [Dev.dropHead_wf, Dev.atBoundary_wf, Dev.setHead_wf, *]

theorem Dev.moveDesc_wf : ∀ (d : Dev) x n, Memory.wf d = true → ∀ r, Dev.moveDesc d x n = .ok r → Memory.wf r = true := by
  intro d x n h r hr
  unfold Dev.moveDesc at hr
  grind [Dev.streamBytes_wf, Dev.writeLines_wf, Dev.ocount_wf]

theorem Dev.dmaStep_wf : ∀ d n l c, Memory.wf d = true → Memory.wf (Dev.dmaStep d n l c) = true := by
  intro d n l c h
  unfold Dev.dmaStep
  grind [Dev.moveDesc_wf, Dev.busError_wf, Dev.leaveList_wf, Dev.failList_wf, Dev.finish_wf, Dev.descBoundary_wf]

theorem Dev.workStep_wf : ∀ d n l e rest, Memory.wf d = true → Memory.wf (Dev.workStep d n l e rest) = true := by
  intros; unfold Dev.workStep; (repeat' split) <;> simp +contextual (maxDischargeDepth := 40) only [Memory.wf_ite,
    Dev.busError_wf, Dev.failList_wf, Dev.leaveList_wf, Dev.hostWrite_wf, Dev.engWrite_wf, Dev.storeBytes_wf,
    Dev.ocount_wf, Dev.setCtx_wf, Dev.workOver_wf, Dev.descBoundary_wf, *]

theorem Dev.hingeDone_wf : ∀ d n, Memory.wf d = true → Memory.wf (Dev.hingeDone d n) = true := by
  intros; unfold Dev.hingeDone; dsimp only; (repeat' split) <;> simp +contextual (maxDischargeDepth := 40) only
    [Dev.dmaStep_wf, Dev.leaveList_wf, Dev.workOver_wf, Dev.workStep_wf, *]

theorem Dev.hingeBusError_wf : ∀ d addr kind port slot, Memory.wf d = true → Memory.wf (Dev.hingeBusError d addr kind
    port slot) = true := by
  intros; unfold Dev.hingeBusError; simp +contextual (maxDischargeDepth := 40) only [Memory.wf_ite, Dev.busError_wf,
    *]

theorem Dev.hingeRestart_wf : ∀ d, Memory.wf d = true → Memory.wf (Dev.hingeRestart d) = true := by
  intro d h
  simp only [Dev.hingeRestart]
  split
  · exact h
  · refine Dev.fputB_wf _ _ _ (Dev.fput_wf _ _ _ (Dev.fput_wf _ _ _ ?_))
    generalize hv : List.foldl _ _ _ = v
    have k : Memory.wf v = true := by
      rw [← hv]
      refine Memory.wf_foldl _ _ _ (fun b a hb => ?_) ?_
      · repeat' split
        · exact Dev.dropHead_wf _ _ _ _ hb
        · exact Dev.ocount_wf _ _ _ (Dev.failList_wf _ _ _ (Dev.leaveList_wf _ _ hb))
        · exact hb
      · simp only [Memory.wf_mk, Memory.wf_host h, Memory.wf_mem h, Bool.and_self]
    simp only [Memory.wf_mk, Memory.wf_host k, Memory.wf_mem k, Bool.and_self]

theorem Dev.haltTimeout_wf : ∀ d, Memory.wf d = true → Memory.wf (Dev.haltTimeout d) = true := by
  intros; unfold Dev.haltTimeout; simp +contextual (maxDischargeDepth := 40) only [Memory.wf_ite, Dev.hingeRestart_wf,
    Dev.fput_wf, *]

theorem Dev.flushList_wf : ∀ d id st, Memory.wf d = true → Memory.wf (Dev.flushList d id st) = true := by
  intros; unfold Dev.flushList; (repeat' split) <;> simp +contextual (maxDischargeDepth := 40) only [Memory.wf_ite,
    Dev.failList_wf, Dev.setHchan_wf, Dev.popList_wf, Dev.setHead_wf, *]

theorem Dev.digestFlush_wf : ∀ d c, Memory.wf d = true → Memory.wf (Dev.digestFlush d c) = true := by
  intros; unfold Dev.digestFlush; dsimp only; (repeat' split) <;> simp +contextual (maxDischargeDepth := 40) only
    [Dev.digestFree_wf, Dev.ksSettle_wf, Dev.finish_wf, Dev.draw_wf, *]

theorem Dev.flushCmd_wf : ∀ d c, Memory.wf d = true → Memory.wf (Dev.flushCmd d c) = true := by
  intros; unfold Dev.flushCmd; dsimp only; (repeat' split) <;> simp +contextual (maxDischargeDepth := 40) only
    [Dev.failCtx_wf, Dev.pipeFinish_wf, Dev.flushList_wf, Dev.discardStore_wf, Dev.finish_wf, Dev.stopJob_wf,
    Dev.mapCmd_wf, Dev.digestFlush_wf, Dev.louvreLoadFlush_wf, Dev.searchFlush_wf, Dev.dropSync_wf, *]

theorem Dev.flushWork_wf : ∀ d q, Memory.wf d = true → Memory.wf (Dev.flushWork d q) = true := by
  intros; unfold Dev.flushWork; simp +contextual (maxDischargeDepth := 40) only [Memory.wf_foldl, implies_true,
    Dev.finish_wf, Dev.flushCmd_wf, *]

theorem Dev.qctlFlush_wf : ∀ d q, Memory.wf d = true → Memory.wf (Dev.qctlFlush d q) = true := by
  intros; unfold Dev.qctlFlush; simp +contextual (maxDischargeDepth := 40) only [Memory.wf_ite, Dev.setQueue_wf,
    Dev.ocount_wf, Dev.mirror_wf, Dev.settleQueue_wf, Dev.flushWork_wf, Dev.qctlReject_wf, *]

theorem Dev.qctlDelete_wf : ∀ d q, Memory.wf d = true → Memory.wf (Dev.qctlDelete d q) = true := by
  intros; unfold Dev.qctlDelete; simp +contextual (maxDischargeDepth := 40) only [Memory.wf_mk, Memory.wf_host,
    Memory.wf_mem, Bool.and_self, Memory.wf_ite, Dev.qctlReject_wf, Dev.setQueue_wf, Dev.ocount_wf,
    Dev.settleQueue_wf, Dev.mirror_wf, Dev.flushWork_wf, *]

end Sys2Proof.Machine
end

