-- ==== Sys2Proof/Laws/MemoryF.lean ====
section
/-!
SUPPORT. Every operation of Mirror, Reset, Attest, Parking, Chain, Boot, Power, Firmware keeps memory in its canonical form.
-/

set_option linter.style.nameCheck false

namespace Sys2Proof.Machine

theorem Dev.shadowSearch_wf : ∀ d c, Memory.wf d = true → Memory.wf (Dev.shadowSearch d c) = true := by
  intros; unfold Dev.shadowSearch; simp +contextual (maxDischargeDepth := 40) only [Memory.wf_mk, Memory.wf_host,
    Memory.wf_mem, Bool.and_self, *]

theorem Dev.toField_wf : ∀ d m, Memory.wf d = true → Memory.wf (Dev.toField d m) = true := by
  intros; unfold Dev.toField; simp +contextual (maxDischargeDepth := 40) only [Dev.fput_wf, *]

theorem Dev.toObject_wf : ∀ d m, Memory.wf d = true → Memory.wf (Dev.toObject d m) = true := by
  intros; unfold Dev.toObject; simp +contextual (maxDischargeDepth := 40) only [Dev.oput_wf, *]

theorem Dev.restoreCas_wf : ∀ d c, Memory.wf d = true → Memory.wf (Dev.restoreCas d c) = true := by
  intros; unfold Dev.restoreCas; simp +contextual (maxDischargeDepth := 40) only [Memory.wf_foldl, implies_true,
    Dev.shadowSearch_wf, Dev.toField_wf, *]

theorem Dev.restoreFields_wf : ∀ d, Memory.wf d = true → Memory.wf (Dev.restoreFields d) = true := by
  intros; unfold Dev.restoreFields; grind [Memory.wf_mk, Mem.wf_mk, → Memory.wf_host, → Memory.wf_mem, →
    Memory.wf_cells, → Memory.wf_poison, Sparse.wf_set, Sparse.wf_setAll, Memory.wf_foldl, Dev.toField_wf,
    Dev.shadowSearch_wf, Dev.fput_wf]

theorem Dev.clearFields_wf : ∀ d lo hi, Memory.wf d = true → Memory.wf (Dev.clearFields d lo hi) = true := by
  intros; unfold Dev.clearFields; simp +contextual (maxDischargeDepth := 40) only [Memory.wf_mk, Memory.wf_host,
    Memory.wf_mem, Bool.and_self, *]

theorem Dev.jambReset_wf : ∀ d, Memory.wf d = true → Memory.wf (Dev.jambReset d) = true := by
  intros; unfold Dev.jambReset; simp +contextual (maxDischargeDepth := 40) only [Memory.wf_mk, Memory.wf_host,
    Memory.wf_mem, Bool.and_self, Dev.fput_wf, Dev.clearFields_wf, *]

theorem Dev.contextsReset_wf : ∀ d, Memory.wf d = true → Memory.wf (Dev.contextsReset d) = true := by
  intros; unfold Dev.contextsReset; simp +contextual (maxDischargeDepth := 40) only [Memory.wf_mk, Memory.wf_host,
    Memory.wf_mem, Bool.and_self, Memory.wf_foldl, implies_true, Dev.freeCtx_wf, Dev.evictCtx_wf, *]

theorem Dev.storesReset_wf : ∀ d, Memory.wf d = true → Memory.wf (Dev.storesReset d) = true := by
  intros; unfold Dev.storesReset; simp +contextual (maxDischargeDepth := 40) only [Memory.wf_mk, Memory.wf_host,
    Memory.wf_mem, Bool.and_self, Memory.wf_foldl, implies_true, Dev.dropStore_wf, *]

theorem Dev.digestReset_wf : ∀ d, Memory.wf d = true → Memory.wf (Dev.digestReset d) = true := by
  intros; unfold Dev.digestReset; simp +contextual (maxDischargeDepth := 40) only [Memory.wf_mk, Memory.wf_host,
    Memory.wf_mem, Bool.and_self, Dev.clearFields_wf, *]

theorem Dev.hingeReset_wf : ∀ d, Memory.wf d = true → Memory.wf (Dev.hingeReset d) = true := by
  intros; unfold Dev.hingeReset; simp +contextual (maxDischargeDepth := 40) only [Memory.wf_mk, Memory.wf_host,
    Memory.wf_mem, Bool.and_self, *]

theorem Dev.bifoldReset_wf : ∀ d, Memory.wf d = true → Memory.wf (Dev.bifoldReset d) = true := by
  intros; unfold Dev.bifoldReset; simp +contextual (maxDischargeDepth := 40) only [Memory.wf_foldl, implies_true,
    Dev.dropJob_wf, *]

theorem Dev.sillsReset_wf : ∀ d, Memory.wf d = true → Memory.wf (Dev.sillsReset d) = true := by
  intros; unfold Dev.sillsReset; simp +contextual (maxDischargeDepth := 40) only [Memory.wf_mk, Memory.wf_host,
    Memory.wf_mem, Bool.and_self, Memory.wf_ite, Memory.wf_foldl, implies_true, Dev.sillClear_wf, *]

theorem Dev.functionReset_wf : ∀ d, Memory.wf d = true → Memory.wf (Dev.functionReset d) = true := by
  intros; unfold Dev.functionReset; simp +contextual (maxDischargeDepth := 40) only [Dev.digestReset_wf,
    Dev.contextsReset_wf, Dev.bifoldReset_wf, Dev.hingeReset_wf, Dev.storesReset_wf, Dev.sillsReset_wf,
    Dev.jambReset_wf, Dev.clearFields_wf, *]

theorem Dev.linkReset_wf : ∀ d, Memory.wf d = true → Memory.wf (Dev.linkReset d) = true := by
  intros; unfold Dev.linkReset; simp +contextual (maxDischargeDepth := 40) only [Memory.wf_mk, Memory.wf_host,
    Memory.wf_mem, Bool.and_self, Dev.functionReset_wf, *]

theorem Dev.loseMain_wf : ∀ d park, Memory.wf d = true → Memory.wf (Dev.loseMain d park) = true := by
  intro d park h
  simp only [Dev.loseMain, Dev.parkedPart, Memory.wf_mk, Mem.wf_mk, Memory.wf_host h, Bool.true_and, Bool.and_eq_true]
  refine ⟨?_, ?_⟩ <;> (repeat' split) <;>
    first
    | rfl
    | exact Sparse.wf_filter _ _ _ (Memory.wf_cells (Memory.wf_mem h))
    | exact Sparse.wf_filter _ _ _ (Memory.wf_poison (Memory.wf_mem h))

theorem Dev.loseParked_wf : ∀ d, Memory.wf d = true → Memory.wf (Dev.loseParked d) = true := by
  intros; unfold Dev.loseParked; simp +contextual (maxDischargeDepth := 40) only [Memory.wf_mk, Memory.wf_host,
    Memory.wf_mem, Bool.and_self, Dev.loseMain_wf, *]

theorem Dev.keepTap_wf : ∀ d t, Memory.wf d = true → Memory.wf (Dev.keepTap d t) = true := by
  intros; unfold Dev.keepTap; simp +contextual (maxDischargeDepth := 40) only [Memory.wf_mk, Memory.wf_host,
    Memory.wf_mem, Bool.and_self, *]

theorem Dev.loseDevice_wf : ∀ d, Memory.wf d = true → Memory.wf (Dev.loseDevice d) = true := by
  intros; unfold Dev.loseDevice; simp +contextual (maxDischargeDepth := 40) only [Memory.wf_ite, Dev.keepTap_wf,
    Dev.loseMain_wf, Dev.sillsReset_wf, Dev.persistWrite_wf, *]

theorem Dev.spoilParked_wf : ∀ d, Memory.wf d = true → Memory.wf (Dev.spoilParked d) = true := by
  intros; unfold Dev.spoilParked; simp +contextual (maxDischargeDepth := 40) only [Memory.wf_mk, Memory.wf_host,
    Memory.wf_mem, Bool.and_self, *]

theorem Dev.foldBlock_wf : ∀ d c, Memory.wf d = true → Memory.wf (Dev.foldBlock d c) = true := by
  intros; unfold Dev.foldBlock; dsimp only; (repeat' split) <;> simp +contextual (maxDischargeDepth := 40) only
    [Dev.setCtx_wf, *]

theorem Dev.sealWrite_wf : ∀ d c, Memory.wf d = true → Memory.wf (Dev.sealWrite d c) = true := by
  intros; unfold Dev.sealWrite; dsimp only; (repeat' split) <;> simp +contextual (maxDischargeDepth := 40) only
    [Dev.failCtx_wf, Dev.tagFailure_wf, Dev.setCtx_wf, Dev.writeSpace_wf, Dev.ocount_wf, Dev.closeCtx_wf, *]

theorem Dev.attestDispatch_wf : ∀ d c, Memory.wf d = true → Memory.wf (Dev.attestDispatch d c) = true := by
  intros; unfold Dev.attestDispatch; (repeat' split) <;> simp +contextual (maxDischargeDepth := 40) only
    [Dev.mapCmd_wf, *]

theorem Dev.attestOut_wf : ∀ d c out, Memory.wf d = true → Memory.wf (Dev.attestOut d c out) = true := by
  intros; unfold Dev.attestOut; simp +contextual (maxDischargeDepth := 40) only [Memory.wf_ite, Dev.finish_wf,
    Dev.writeSpace_wf, Dev.ocount_wf, *]

theorem Dev.attestIdentity_wf : ∀ d id, Memory.wf d = true → Memory.wf (Dev.attestIdentity d id) = true := by
  intros; unfold Dev.attestIdentity; (repeat' split) <;> simp +contextual (maxDischargeDepth := 40) only
    [Dev.finish_wf, Dev.tagFailure_wf, Dev.attestOut_wf, *]

theorem Dev.attestSeal_wf : ∀ d id, Memory.wf d = true → Memory.wf (Dev.attestSeal d id) = true := by
  intros; unfold Dev.attestSeal; (repeat' split) <;> simp +contextual (maxDischargeDepth := 40) only [Dev.finish_wf,
    Dev.tagFailure_wf, Dev.attestOut_wf, *]

theorem Dev.darkFlush_wf : ∀ d q, Memory.wf d = true → Memory.wf (Dev.darkFlush d q) = true := by
  intros; unfold Dev.darkFlush; simp +contextual (maxDischargeDepth := 40) only [Memory.wf_ite, Memory.wf_foldl,
    implies_true, Dev.setQueue_wf, Dev.finish_wf, Dev.flushCmd_wf, Dev.ocount_wf, Dev.mirror_wf, Dev.settleQueue_wf,
    *]

theorem Dev.darkContexts_wf : ∀ d, Memory.wf d = true → Memory.wf (Dev.darkContexts d) = true := by
  intros; unfold Dev.darkContexts; simp +contextual (maxDischargeDepth := 40) only [Memory.wf_ite, Memory.wf_foldl,
    implies_true, Dev.cancelCtx_wf, Dev.setCtx_wf, *]

theorem Dev.startParking_wf : ∀ d, Memory.wf d = true → Memory.wf (Dev.startParking d) = true := by
  intros; unfold Dev.startParking; simp +contextual (maxDischargeDepth := 40) only [Memory.wf_mk, Memory.wf_host,
    Memory.wf_mem, Bool.and_self, Memory.wf_ite, Memory.wf_foldl, implies_true, Dev.darkFlush_wf, Dev.darkContexts_wf,
    *]

theorem Dev.parkMemories_wf : ∀ d, Memory.wf d = true → Memory.wf (Dev.parkMemories d) = true := by
  intro d h0
  simp only [Dev.parkMemories]
  generalize hv : List.foldl _ _ _ = d
  have h : Memory.wf d = true := by
    rw [← hv]
    exact Memory.wf_foldl _ _ _ (fun b a hb => Memory.wf_ite (Dev.sillClear_wf _ _ _ hb) hb) h0
  simp only [Dev.parkedPart, Memory.wf_mk, Mem.wf_mk, Memory.wf_host h, Bool.true_and, Bool.and_eq_true]
  refine ⟨?_, ?_⟩ <;> (repeat' split) <;>
    first
    | rfl
    | exact Sparse.wf_filter _ _ _ (Memory.wf_cells (Memory.wf_mem h))
    | exact Sparse.wf_filter _ _ _ (Memory.wf_poison (Memory.wf_mem h))

theorem Dev.sashPut_wf : ∀ d out bytes, Memory.wf d = true → Memory.wf (Dev.sashPut d out bytes) = true := by
  intros; unfold Dev.sashPut; simp +contextual (maxDischargeDepth := 40) only [Memory.wf_ite, Dev.emit_wf, *]

theorem Dev.sashSend_wf : ∀ d out m, Memory.wf d = true → Memory.wf (Dev.sashSend d out m) = true := by
  intros; unfold Dev.sashSend; simp +contextual (maxDischargeDepth := 40) only [Memory.wf_ite, Dev.ocount_wf,
    Dev.sashPut_wf, *]

theorem Dev.sashCancel_wf : ∀ d payload, Memory.wf d = true → Memory.wf (Dev.sashCancel d payload) = true := by
  intros; unfold Dev.sashCancel; simp +contextual (maxDischargeDepth := 40) only [Dev.sashSend_wf, *]

theorem Dev.notify_wf : ∀ d event, Memory.wf d = true → Memory.wf (Dev.notify d event) = true := by
  intros; unfold Dev.notify; simp +contextual (maxDischargeDepth := 40) only [Memory.wf_ite, Dev.sashSend_wf, *]

theorem Dev.reportSelf_wf : ∀ d, Memory.wf d = true → Memory.wf (Dev.reportSelf d) = true := by
  intros; unfold Dev.reportSelf; simp +contextual (maxDischargeDepth := 40) only [Memory.wf_mk, Memory.wf_host,
    Memory.wf_mem, Bool.and_self, Memory.wf_ite, Dev.notify_wf, *]

theorem Dev.deriveIdentity_wf : ∀ d, Memory.wf d = true → Memory.wf (Dev.deriveIdentity d) = true := by
  intros; unfold Dev.deriveIdentity; simp +contextual (maxDischargeDepth := 40) only [Memory.wf_mk, Memory.wf_host,
    Memory.wf_mem, Bool.and_self, Dev.setSlot_wf, *]

theorem Dev.reject_wf : ∀ d slot check, Memory.wf d = true → Memory.wf (Dev.reject d slot check) = true := by
  intros; unfold Dev.reject; simp +contextual (maxDischargeDepth := 40) only [Dev.fput_wf, *]

theorem Dev.runSlot_wf : ∀ d slot b, Memory.wf d = true → Memory.wf (Dev.runSlot d slot b) = true := by
  intros; unfold Dev.runSlot; simp +contextual (maxDischargeDepth := 40) only [Memory.wf_mk, Memory.wf_host,
    Memory.wf_mem, Bool.and_self, Dev.fput_wf, *]

theorem Dev.bootRom_wf : ∀ d, Memory.wf d = true → Memory.wf (Dev.bootRom d) = true := by
  intros; unfold Dev.bootRom; simp +contextual (maxDischargeDepth := 40) only [Memory.wf_mk, Memory.wf_host,
    Memory.wf_mem, Bool.and_self, Memory.wf_ite, Dev.deriveIdentity_wf, Dev.runSlot_wf, Dev.reject_wf, Dev.fputB_wf,
    Dev.fput_wf, *]

theorem Dev.firmwareStart_wf : ∀ d, Memory.wf d = true → Memory.wf (Dev.firmwareStart d) = true := by
  intros; unfold Dev.firmwareStart; dsimp only; (repeat' split) <;> simp +contextual (maxDischargeDepth := 40) only
    [Memory.wf_mk, Memory.wf_host, Memory.wf_mem, Bool.and_self, Dev.oput_wf, Dev.restoreFields_wf, Dev.faultRaise_wf,
    *]

theorem Dev.trainFailed_wf : ∀ d ch, Memory.wf d = true → Memory.wf (Dev.trainFailed d ch) = true := by
  intros; unfold Dev.trainFailed; simp +contextual (maxDischargeDepth := 40) only [Dev.faultRaise_wf, Dev.oput_wf, *]

theorem Dev.trainNear_wf : ∀ d fail, Memory.wf d = true → Memory.wf (Dev.trainNear d fail) = true := by
  intros; unfold Dev.trainNear; dsimp only; (repeat' split) <;> simp +contextual (maxDischargeDepth := 40) only
    [Memory.wf_mk, Mem.wf_mk, Memory.wf_host, Memory.wf_mem, Memory.wf_cells, Memory.wf_poison, Bool.and_self,
    Memory.wf_foldl, implies_true, Sparse.wf_nil, Dev.trainFailed_wf, Dev.persistWrite_wf, Dev.spoilParked_wf, *]

theorem Dev.trainFar_wf : ∀ d fail, Memory.wf d = true → Memory.wf (Dev.trainFar d fail) = true := by
  intros; unfold Dev.trainFar; (repeat' split) <;> simp +contextual (maxDischargeDepth := 40) only [Memory.wf_mk,
    Mem.wf_mk, Memory.wf_host, Memory.wf_mem, Memory.wf_cells, Memory.wf_poison, Bool.and_self, Memory.wf_ite,
    Memory.wf_foldl, implies_true, Dev.trainFailed_wf, Dev.persistWrite_wf, *]

theorem Dev.train_wf : ∀ d t, Memory.wf d = true → Memory.wf (Dev.train d t) = true := by
  intros; unfold Dev.train; simp +contextual (maxDischargeDepth := 40) only [Memory.wf_mk, Mem.wf_mk, Memory.wf_host,
    Memory.wf_mem, Memory.wf_cells, Memory.wf_poison, Bool.and_self, Memory.wf_ite, Memory.wf_foldl, implies_true,
    Dev.trainFar_wf, Dev.trainNear_wf, Dev.setChan_wf, *]

theorem Dev.broughtUp_wf : ∀ d c, Memory.wf d = true → Memory.wf (Dev.broughtUp d c) = true := by
  intros; unfold Dev.broughtUp; simp +contextual (maxDischargeDepth := 40) only [Memory.wf_mk, Memory.wf_host,
    Memory.wf_mem, Bool.and_self, *]

theorem Dev.runMicro_wf : ∀ d c r0, Memory.wf d = true → Memory.wf (Dev.runMicro d c r0) = true := by
  intros; unfold Dev.runMicro; simp +contextual (maxDischargeDepth := 40) only [Memory.wf_mk, Memory.wf_host,
    Memory.wf_mem, Bool.and_self, Dev.fput_wf, Dev.broughtUp_wf, *]

theorem Dev.testUnits_wf : ∀ d c badPanes badBanks, Memory.wf d = true → Memory.wf (Dev.testUnits d c badPanes
    badBanks) = true := by
  intros; unfold Dev.testUnits; simp +contextual (maxDischargeDepth := 40) only [Memory.wf_ite, Memory.wf_foldl,
    implies_true, Dev.faultRaise_wf, Dev.oput_wf, Dev.setPane_wf, Dev.setLvBank_wf, *]

theorem Dev.bringCasements_wf : ∀ d t, Memory.wf d = true → Memory.wf (Dev.bringCasements d t) = true := by
  intros; unfold Dev.bringCasements; dsimp only; (repeat' split) <;> simp +contextual (maxDischargeDepth := 40) only
    [Memory.wf_mk, Memory.wf_host, Memory.wf_mem, Bool.and_self, Memory.wf_ite, Memory.wf_foldl, implies_true,
    Dev.fenceEvent_wf, Dev.fput_wf, Dev.testUnits_wf, Dev.runMicro_wf, Dev.shadowSearch_wf, *]

theorem Dev.bringDrives_wf : ∀ d, Memory.wf d = true → Memory.wf (Dev.bringDrives d) = true := by
  intros; unfold Dev.bringDrives; simp +contextual (maxDischargeDepth := 40) only [Memory.wf_ite, Memory.wf_foldl,
    implies_true, Dev.stageBytes_wf, Dev.setDrive_wf, Dev.driveBack_wf, Dev.slotEvent_wf, Dev.mapStores_wf, *]

theorem Dev.ready_wf : ∀ d, Memory.wf d = true → Memory.wf (Dev.ready d) = true := by
  intros; unfold Dev.ready; simp +contextual (maxDischargeDepth := 40) only [Dev.fput_wf, Dev.fputB_wf,
    Dev.startParking_wf, Dev.reportSelf_wf, *]

theorem Dev.bringUp_wf : ∀ d t, Memory.wf d = true → Memory.wf (Dev.bringUp d t) = true := by
  intros; unfold Dev.bringUp; simp +contextual (maxDischargeDepth := 40) only [Dev.ready_wf, Dev.bringDrives_wf,
    Dev.bringCasements_wf, Dev.train_wf, *]

theorem Dev.boot_wf : ∀ d t, Memory.wf d = true → Memory.wf (Dev.boot d t) = true := by
  intros; unfold Dev.boot; simp +contextual (maxDischargeDepth := 40) only [Memory.wf_ite, Dev.bootRom_wf,
    Dev.bringUp_wf, Dev.firmwareStart_wf, *]

theorem Dev.deviceReset_wf : ∀ d t, Memory.wf d = true → Memory.wf (Dev.deviceReset d t) = true := by
  intros; unfold Dev.deviceReset; simp +contextual (maxDischargeDepth := 40) only [Memory.wf_ite, Dev.boot_wf,
    Dev.loseDevice_wf, *]

theorem Dev.resume_wf : ∀ d t, Memory.wf d = true → Memory.wf (Dev.resume d t) = true := by
  intros; unfold Dev.resume; simp +contextual (maxDischargeDepth := 40) only [Memory.wf_mk, Memory.wf_host,
    Memory.wf_mem, Bool.and_self, Dev.bringUp_wf, Dev.restoreFields_wf, Dev.deriveIdentity_wf, *]

theorem Dev.powerFresh_wf : ∀ d board t, Memory.wf d = true → Memory.wf (Dev.powerFresh d board t) = true := by
  intros; unfold Dev.powerFresh; (repeat' split) <;> simp +contextual (maxDischargeDepth := 40) only [Memory.wf_mk,
    Memory.wf_host, Memory.wf_mem, Bool.and_self, Dev.loseMain_wf, Dev.boot_wf, *]

theorem Dev.powerOn_wf : ∀ d board dimms t, Memory.wf d = true → Memory.wf (Dev.powerOn d board dimms t) = true := by
  intros; unfold Dev.powerOn; simp +contextual (maxDischargeDepth := 40) only [Memory.wf_mk, Memory.wf_host,
    Memory.wf_mem, Bool.and_self, Memory.wf_ite, Dev.powerFresh_wf, Dev.resume_wf, Dev.boot_wf, Dev.loseMain_wf, *]

theorem Dev.powerLoss_wf : ∀ d always, Memory.wf d = true → Memory.wf (Dev.powerLoss d always) = true := by
  intros; unfold Dev.powerLoss; simp +contextual (maxDischargeDepth := 40) only [Memory.wf_mk, Memory.wf_host,
    Memory.wf_mem, Bool.and_self, Memory.wf_ite, Dev.loseMain_wf, Dev.loseParked_wf, *]

theorem Dev.refclkLoss_wf : ∀ d, Memory.wf d = true → Memory.wf (Dev.refclkLoss d) = true := by
  intros; unfold Dev.refclkLoss; simp +contextual (maxDischargeDepth := 40) only [Memory.wf_mk, Memory.wf_host,
    Memory.wf_mem, Bool.and_self, Memory.wf_ite, Dev.faultRaise_wf, *]

theorem Dev.refclkReturn_wf : ∀ d t, Memory.wf d = true → Memory.wf (Dev.refclkReturn d t) = true := by
  intros; unfold Dev.refclkReturn; simp +contextual (maxDischargeDepth := 40) only [Memory.wf_mk, Memory.wf_host,
    Memory.wf_mem, Bool.and_self, Memory.wf_ite, Dev.loseMain_wf, Dev.boot_wf, *]

theorem Dev.shelfDarkAssert_wf : ∀ d, Memory.wf d = true → Memory.wf (Dev.shelfDarkAssert d) = true := by
  intros; unfold Dev.shelfDarkAssert; simp +contextual (maxDischargeDepth := 40) only [Memory.wf_mk, Memory.wf_host,
    Memory.wf_mem, Bool.and_self, Dev.startParking_wf, *]

theorem Dev.parkOkAssert_wf : ∀ d t, Memory.wf d = true → Memory.wf (Dev.parkOkAssert d t) = true := by
  intros; unfold Dev.parkOkAssert; simp +contextual (maxDischargeDepth := 40) only [Memory.wf_mk, Memory.wf_host,
    Memory.wf_mem, Bool.and_self, Memory.wf_ite, Dev.parkMemories_wf, Dev.resume_wf, *]

theorem Dev.shelfDarkDeassert_wf : ∀ d t, Memory.wf d = true → Memory.wf (Dev.shelfDarkDeassert d t) = true := by
  intros; unfold Dev.shelfDarkDeassert; simp +contextual (maxDischargeDepth := 40) only [Memory.wf_mk, Memory.wf_host,
    Memory.wf_mem, Bool.and_self, Memory.wf_ite, Dev.resume_wf, *]

theorem Dev.clearCasement_wf : ∀ d c, Memory.wf d = true → Memory.wf (Dev.clearCasement d c) = true := by
  intros; unfold Dev.clearCasement; simp +contextual (maxDischargeDepth := 40) only [Dev.clearFields_wf, *]

theorem Dev.gate_wf : ∀ d c, Memory.wf d = true → Memory.wf (Dev.gate d c) = true := by
  intros; unfold Dev.gate; simp +contextual (maxDischargeDepth := 40) only [Memory.wf_ite, Dev.fput_wf,
    Dev.setLatch_wf, Dev.clearCasement_wf, Dev.sillClear_wf, *]

theorem Dev.ungate_wf : ∀ d c, Memory.wf d = true → Memory.wf (Dev.ungate d c) = true := by
  intros; unfold Dev.ungate; simp +contextual (maxDischargeDepth := 40) only [Memory.wf_ite, Dev.restoreCas_wf,
    Dev.fput_wf, Dev.broughtUp_wf, Dev.clearCasement_wf, *]

theorem Dev.idleEnter_wf : ∀ d, Memory.wf d = true → Memory.wf (Dev.idleEnter d) = true := by
  intros; unfold Dev.idleEnter; simp +contextual (maxDischargeDepth := 40) only [Memory.wf_mk, Mem.wf_mk,
    Memory.wf_host, Memory.wf_mem, Memory.wf_cells, Memory.wf_poison, Bool.and_self, Memory.wf_ite, *]

theorem Dev.wake_wf : ∀ d, Memory.wf d = true → Memory.wf (Dev.wake d) = true := by
  intros; unfold Dev.wake; simp +contextual (maxDischargeDepth := 40) only [Memory.wf_mk, Mem.wf_mk, Memory.wf_host,
    Memory.wf_mem, Memory.wf_cells, Memory.wf_poison, Bool.and_self, Memory.wf_ite, *]

theorem Dev.commitLanded_wf : ∀ d, Memory.wf d = true → Memory.wf (Dev.commitLanded d) = true := by
  intros; unfold Dev.commitLanded; simp +contextual (maxDischargeDepth := 40) only [Memory.wf_foldl, implies_true,
    Dev.storeCommit_wf, *]

theorem Dev.pwrFailAssert_wf : ∀ d, Memory.wf d = true → Memory.wf (Dev.pwrFailAssert d) = true := by
  intros; unfold Dev.pwrFailAssert; simp +contextual (maxDischargeDepth := 40) only [Memory.wf_mk, Memory.wf_host,
    Memory.wf_mem, Bool.and_self, Memory.wf_ite, Dev.commitLanded_wf, *]

theorem Dev.pwrFailDeassert_wf : ∀ d, Memory.wf d = true → Memory.wf (Dev.pwrFailDeassert d) = true := by
  intros; unfold Dev.pwrFailDeassert; simp +contextual (maxDischargeDepth := 40) only [Memory.wf_mk, Memory.wf_host,
    Memory.wf_mem, Bool.and_self, *]

theorem Dev.thermTrip_wf : ∀ d, Memory.wf d = true → Memory.wf (Dev.thermTrip d) = true := by
  intros; unfold Dev.thermTrip; simp +contextual (maxDischargeDepth := 40) only [Memory.wf_mk, Memory.wf_host,
    Memory.wf_mem, Bool.and_self, Memory.wf_ite, Dev.emit_wf, Dev.halt_wf, *]

theorem Dev.perstDeassert_wf : ∀ d, Memory.wf d = true → Memory.wf (Dev.perstDeassert d) = true := by
  intros; unfold Dev.perstDeassert; simp +contextual (maxDischargeDepth := 40) only [Memory.wf_mk, Memory.wf_host,
    Memory.wf_mem, Bool.and_self, *]

theorem Dev.watchdog_wf : ∀ d c, Memory.wf d = true → Memory.wf (Dev.watchdog d c) = true := by
  intros; unfold Dev.watchdog; simp +contextual (maxDischargeDepth := 40) only [Memory.wf_ite, Dev.faultRaise_wf, *]

theorem Dev.crateClose_wf : ∀ d c x, Memory.wf d = true → Memory.wf (Dev.crateClose d c x) = true := by
  intros; unfold Dev.crateClose; simp +contextual (maxDischargeDepth := 40) only [Memory.wf_mk, Memory.wf_host,
    Memory.wf_mem, Bool.and_self, Dev.fput_wf, Dev.fputB_wf, *]

theorem Dev.crateWindow_wf : ∀ d x, Memory.wf d = true → Memory.wf (Dev.crateWindow d x) = true := by
  intros; unfold Dev.crateWindow; simp +contextual (maxDischargeDepth := 40) only [Memory.wf_foldl, implies_true,
    Dev.crateClose_wf, *]

theorem Dev.avsStep_wf : ∀ d vout iout drifted temps, Memory.wf d = true → Memory.wf (Dev.avsStep d vout iout drifted
    temps) = true := by
  intros; unfold Dev.avsStep; simp +contextual (maxDischargeDepth := 40) only [Memory.wf_ite, Memory.wf_foldl,
    implies_true, Dev.fputB_wf, Dev.fput_wf, Dev.emit_wf, Dev.faultRaise_wf, *]

theorem Dev.lmEnd_wf : ∀ d op code check, Memory.wf d = true → Memory.wf (Dev.lmEnd d op code check) = true := by
  intros; unfold Dev.lmEnd; simp +contextual (maxDischargeDepth := 40) only [Dev.fput_wf, Dev.fputB_wf, *]

theorem Dev.mailbox_wf : ∀ d op f, Memory.wf d = true → (∀ z0, Memory.wf z0 = true → Memory.wf (f z0) = true) →
    Memory.wf (Dev.mailbox d op f) = true := by
  intros; unfold Dev.mailbox; simp +contextual (maxDischargeDepth := 40) only [Memory.wf_ite, Dev.lmEnd_wf, *]

theorem Dev.flashWrite_wf : ∀ d slot micro flashError, Memory.wf d = true → Memory.wf (Dev.flashWrite d slot micro
    flashError) = true := by
  intros; unfold Dev.flashWrite; simp +contextual (maxDischargeDepth := 40) only [Memory.wf_mk, Memory.wf_host,
    Memory.wf_mem, Bool.and_self, Memory.wf_ite, Dev.lmEnd_wf, *]

theorem Dev.activateLintel_wf : ∀ d slot starts, Memory.wf d = true → Memory.wf (Dev.activateLintel d slot starts) =
    true := by
  intros; unfold Dev.activateLintel; simp +contextual (maxDischargeDepth := 40) only [Memory.wf_mk, Memory.wf_host,
    Memory.wf_mem, Bool.and_self, Memory.wf_ite, Dev.lmEnd_wf, Dev.fputB_wf, Dev.fput_wf, *]

theorem Dev.handoffTimeout_wf : ∀ d, Memory.wf d = true → Memory.wf (Dev.handoffTimeout d) = true := by
  intros; unfold Dev.handoffTimeout; (repeat' split) <;> simp +contextual (maxDischargeDepth := 40) only
    [Memory.wf_mk, Memory.wf_host, Memory.wf_mem, Bool.and_self, Dev.fputB_wf, Dev.fput_wf, Dev.startParking_wf,
    Dev.lmEnd_wf, *]

theorem Dev.searchesLost_wf : ∀ d c, Memory.wf d = true → Memory.wf (Dev.searchesLost d c) = true := by
  intros; unfold Dev.searchesLost; simp +contextual (maxDischargeDepth := 40) only [Memory.wf_foldl, implies_true,
    Dev.finish_wf, *]

theorem Dev.activationFails_wf : ∀ d c, Memory.wf d = true → Memory.wf (Dev.activationFails d c) = true := by
  intros; unfold Dev.activationFails; simp +contextual (maxDischargeDepth := 40) only [Dev.lmEnd_wf,
    Dev.searchesLost_wf, Dev.casementFence_wf, *]

theorem Dev.rejoin_wf : ∀ d c r0, Memory.wf d = true → Memory.wf (Dev.rejoin d c r0) = true := by
  intros; unfold Dev.rejoin; simp +contextual (maxDischargeDepth := 40) only [Memory.wf_foldl, implies_true,
    Dev.setLatch_wf, Dev.runMicro_wf, Dev.setBcas_wf, Dev.testsPending_wf, Dev.refillBlocks_wf, Dev.oput_wf, *]

theorem Dev.activateCasement_wf : ∀ d c slot pass, Memory.wf d = true → Memory.wf (Dev.activateCasement d c slot pass)
    = true := by
  intros; unfold Dev.activateCasement; simp +contextual (maxDischargeDepth := 40) only [Memory.wf_ite, Dev.lmEnd_wf,
    Dev.casementDrain_wf, Dev.restoreCas_wf, Dev.clearCasement_wf, Dev.activationFails_wf, Dev.rejoin_wf, *]

theorem Dev.firmwareCommit_wf : ∀ d flashError, Memory.wf d = true → Memory.wf (Dev.firmwareCommit d flashError) =
    true := by
  intros; unfold Dev.firmwareCommit; simp +contextual (maxDischargeDepth := 40) only [Memory.wf_mk, Memory.wf_host,
    Memory.wf_mem, Bool.and_self, Memory.wf_ite, Dev.lmEnd_wf, Dev.fputB_wf, *]

theorem Dev.recover_wf : ∀ d t, Memory.wf d = true → Memory.wf (Dev.recover d t) = true := by
  intros; unfold Dev.recover; simp +contextual (maxDischargeDepth := 40) only [Memory.wf_mk, Memory.wf_host,
    Memory.wf_mem, Bool.and_self, Memory.wf_ite, Dev.lmEnd_wf, Dev.fput_wf, Dev.fputB_wf, Dev.bringUp_wf,
    Dev.firmwareStart_wf, *]

theorem Dev.fuseRead_wf : ∀ d word, Memory.wf d = true → Memory.wf (Dev.fuseRead d word) = true := by
  intros; unfold Dev.fuseRead; simp +contextual (maxDischargeDepth := 40) only [Dev.fputB_wf, Dev.fput_wf, *]

theorem Dev.fuseProgram_wf : ∀ d word, Memory.wf d = true → Memory.wf (Dev.fuseProgram d word) = true := by
  intros; unfold Dev.fuseProgram; simp +contextual (maxDischargeDepth := 40) only [Memory.wf_mk, Memory.wf_host,
    Memory.wf_mem, Bool.and_self, Dev.fputB_wf, Dev.fput_wf, *]

end Sys2Proof.Machine
end

