-- ==== Sys2Proof/Laws/MemoryG.lean ====
section
/-!
SUPPORT. Every operation of Fabric, Dictionary, Sash, Collector, Registers keeps memory in its canonical form.
-/

set_option linter.style.nameCheck false

namespace Sys2Proof.Machine

theorem Dev.addCredit_wf : ∀ d flow node n, Memory.wf d = true → Memory.wf (Dev.addCredit d flow node n) = true := by
  intros; unfold Dev.addCredit; simp +contextual (maxDischargeDepth := 40) only [Memory.wf_mk, Memory.wf_host,
    Memory.wf_mem, Bool.and_self, *]

theorem Dev.endPut_wf : ∀ d n err, Memory.wf d = true → Memory.wf (Dev.endPut d n err) = true := by
  intros; unfold Dev.endPut; simp +contextual (maxDischargeDepth := 40) only [Memory.wf_mk, Memory.wf_host,
    Memory.wf_mem, Bool.and_self, Memory.wf_ite, Dev.fputB_wf, *]

theorem Dev.cutPuts_wf : ∀ d p, Memory.wf d = true → Memory.wf (Dev.cutPuts d p) = true := by
  intros; unfold Dev.cutPuts; simp +contextual (maxDischargeDepth := 40) only [Memory.wf_foldl, implies_true,
    Dev.endPut_wf, *]

theorem Dev.epochCommit_wf : ∀ d epoch, Memory.wf d = true → Memory.wf (Dev.epochCommit d epoch) = true := by
  intros; unfold Dev.epochCommit; simp +contextual (maxDischargeDepth := 40) only [Memory.wf_mk, Memory.wf_host,
    Memory.wf_mem, Bool.and_self, Memory.wf_ite, Dev.membersLost_wf, Dev.cutPuts_wf, Dev.fputB_wf, *]

theorem Dev.setPut_wf : ∀ d n x, Memory.wf d = true → Memory.wf (Dev.setPut d n x) = true := by
  intros; unfold Dev.setPut; simp +contextual (maxDischargeDepth := 40) only [Memory.wf_mk, Memory.wf_host,
    Memory.wf_mem, Bool.and_self, *]

theorem Dev.pumpPut_wf : ∀ d n a, Memory.wf d = true → Memory.wf (Dev.pumpPut d n a) = true := by
  intro d n a; fun_induction Dev.pumpPut d n a <;> intros <;> grind [Memory.wf_mk, Mem.wf_mk, → Memory.wf_host, →
    Memory.wf_mem, → Memory.wf_cells, → Memory.wf_poison, Sparse.wf_set, Sparse.wf_setAll, Memory.wf_foldl,
    Dev.countPoison_wf, Dev.endPut_wf, Dev.sendFrame_wf, Dev.setPut_wf]

theorem Dev.putGo_wf : ∀ d n, Memory.wf d = true → Memory.wf (Dev.putGo d n) = true := by
  intros; unfold Dev.putGo; simp +contextual (maxDischargeDepth := 40) only [Memory.wf_ite, Dev.endPut_wf,
    Dev.setPut_wf, Dev.pumpPut_wf, *]

theorem Dev.putAcked_wf : ∀ d src tag, Memory.wf d = true → Memory.wf (Dev.putAcked d src tag) = true := by
  intros; unfold Dev.putAcked; (repeat' split) <;> simp +contextual (maxDischargeDepth := 40) only [Memory.wf_ite,
    Dev.endPut_wf, Dev.setPut_wf, Dev.pumpPut_wf, *]

theorem Dev.frameDrop_wf : ∀ d, Memory.wf d = true → Memory.wf (Dev.frameDrop d) = true := by
  intros; unfold Dev.frameDrop; simp +contextual (maxDischargeDepth := 40) only [Dev.ocount_wf, *]

theorem Dev.receive_wf : ∀ d type port good bytes k, Memory.wf d = true → (∀ z0 z1, Memory.wf z0 = true → Memory.wf (k
    z0 z1) = true) → Memory.wf (Dev.receive d type port good bytes k) = true := by
  intros; unfold Dev.receive; (repeat' split) <;> simp +contextual (maxDischargeDepth := 40) only [Dev.ocount_wf,
    Dev.frameDrop_wf, Dev.acked_wf, *]

theorem Dev.accept_wf : ∀ d f, Memory.wf d = true → ∀ r, (Dev.accept d f) = some r → Memory.wf r = true := by
  intros; unfold Dev.accept at *; grind [Memory.wf_mk, Mem.wf_mk, → Memory.wf_host, → Memory.wf_mem, →
    Memory.wf_cells, → Memory.wf_poison, Sparse.wf_set, Sparse.wf_setAll, Memory.wf_foldl, Dev.setPeer_wf]

theorem Dev.epochGuard_wf : ∀ d f k, Memory.wf d = true → (∀ z0, Memory.wf z0 = true → Memory.wf (k z0) = true) →
    Memory.wf (Dev.epochGuard d f k) = true := by
  intros; unfold Dev.epochGuard; (repeat' split) <;> simp +contextual (maxDischargeDepth := 40) only [Memory.wf_ite,
    Dev.failCtx_wf, Dev.sendFrame_wf, *]

theorem Dev.emitReceived_wf : ∀ d flow node a, Memory.wf d = true → Memory.wf (Dev.emitReceived d flow node a) = true := by
  intro d flow node a; fun_induction Dev.emitReceived d flow node a <;> intros <;> grind [Memory.wf_mk, Mem.wf_mk, →
    Memory.wf_host, → Memory.wf_mem, → Memory.wf_cells, → Memory.wf_poison, Sparse.wf_set, Sparse.wf_setAll,
    Memory.wf_foldl, Dev.failCtx_wf, Dev.mapSender_wf, Dev.setNode_wf]

theorem Dev.dataIn_wf : ∀ d src f, Memory.wf d = true → Memory.wf (Dev.dataIn d src f) = true := by
  intros; unfold Dev.dataIn; (repeat' split) <;> simp +contextual (maxDischargeDepth := 40) only [Dev.ocount_wf,
    Dev.mapSender_wf, Dev.emitReceived_wf, *]

theorem Dev.endIn_wf : ∀ d src f, Memory.wf d = true → Memory.wf (Dev.endIn d src f) = true := by
  intros; unfold Dev.endIn; (repeat' split) <;> simp +contextual (maxDischargeDepth := 40) only [Dev.ocount_wf,
    Dev.mapSender_wf, *]

theorem Dev.dataFrameRx_wf : ∀ d port good bytes, Memory.wf d = true → Memory.wf (Dev.dataFrameRx d port good bytes) =
    true := by
  intros; unfold Dev.dataFrameRx; grind [Memory.wf_mk, Mem.wf_mk, → Memory.wf_host, → Memory.wf_mem, →
    Memory.wf_cells, → Memory.wf_poison, Sparse.wf_set, Sparse.wf_setAll, Memory.wf_foldl, Dev.receive_wf,
    Dev.accept_wf, Dev.epochGuard_wf, Dev.dataIn_wf, Dev.addCredit_wf]

theorem Dev.endFrameRx_wf : ∀ d port good bytes, Memory.wf d = true → Memory.wf (Dev.endFrameRx d port good bytes) =
    true := by
  intros; unfold Dev.endFrameRx; grind [Memory.wf_mk, Mem.wf_mk, → Memory.wf_host, → Memory.wf_mem, → Memory.wf_cells,
    → Memory.wf_poison, Sparse.wf_set, Sparse.wf_setAll, Memory.wf_foldl, Dev.receive_wf, Dev.accept_wf,
    Dev.epochGuard_wf, Dev.endIn_wf, Dev.addCredit_wf]

theorem Dev.creditFrameRx_wf : ∀ d port good bytes, Memory.wf d = true → Memory.wf (Dev.creditFrameRx d port good
    bytes) = true := by
  intros; unfold Dev.creditFrameRx; simp +contextual (maxDischargeDepth := 40) only [implies_true, Dev.receive_wf,
    Dev.epochGuard_wf, Dev.addCredit_wf, *]

theorem Dev.putAckRx_wf : ∀ d port good bytes, Memory.wf d = true → Memory.wf (Dev.putAckRx d port good bytes) = true := by
  intros; unfold Dev.putAckRx; simp +contextual (maxDischargeDepth := 40) only [implies_true, Dev.receive_wf,
    Dev.putAcked_wf, *]

theorem Dev.helloRx_wf : ∀ d port good bytes, Memory.wf d = true → Memory.wf (Dev.helloRx d port good bytes) = true := by
  intros; unfold Dev.helloRx; simp +contextual (maxDischargeDepth := 40) only [implies_true, Dev.receive_wf, *]

theorem Dev.rejectRx_wf : ∀ d port good bytes, Memory.wf d = true → Memory.wf (Dev.rejectRx d port good bytes) = true := by
  intros; unfold Dev.rejectRx; grind [Memory.wf_mk, Mem.wf_mk, → Memory.wf_host, → Memory.wf_mem, → Memory.wf_cells, →
    Memory.wf_poison, Sparse.wf_set, Sparse.wf_setAll, Memory.wf_foldl, Dev.receive_wf, Dev.failCtx_wf]

theorem Dev.cancelFrames_wf : ∀ d i dsts, Memory.wf d = true → Memory.wf (Dev.cancelFrames d i dsts) = true := by
  intros; unfold Dev.cancelFrames; simp +contextual (maxDischargeDepth := 40) only [Memory.wf_foldl, implies_true,
    Dev.sendFrame_wf, *]

theorem Dev.cancelSend_wf : ∀ d i dsts, Memory.wf d = true → Memory.wf (Dev.cancelSend d i dsts) = true := by
  intros; unfold Dev.cancelSend; simp +contextual (maxDischargeDepth := 40) only [Memory.wf_mk, Memory.wf_host,
    Memory.wf_mem, Bool.and_self, Memory.wf_ite, Dev.cancelFrames_wf, *]

theorem Dev.cancelArrived_wf : ∀ d payload, Memory.wf d = true → Memory.wf (Dev.cancelArrived d payload) = true := by
  intros; unfold Dev.cancelArrived; simp +contextual (maxDischargeDepth := 40) only [Memory.wf_mk, Memory.wf_host,
    Memory.wf_mem, Bool.and_self, Memory.wf_ite, Memory.wf_foldl, implies_true, Dev.cancelCtx_wf, Dev.cancelSend_wf,
    *]

theorem Dev.cancelFrameRx_wf : ∀ d port good bytes, Memory.wf d = true → Memory.wf (Dev.cancelFrameRx d port good
    bytes) = true := by
  intros; unfold Dev.cancelFrameRx; simp +contextual (maxDischargeDepth := 40) only [implies_true, Dev.receive_wf,
    Dev.cancelArrived_wf, Dev.ocount_wf, *]

theorem Dev.fabricCancelSend_wf : ∀ d, Memory.wf d = true → Memory.wf (Dev.fabricCancelSend d) = true := by
  intros; unfold Dev.fabricCancelSend; (repeat' split) <;> simp +contextual (maxDischargeDepth := 40) only
    [Memory.wf_mk, Memory.wf_host, Memory.wf_mem, Bool.and_self, Memory.wf_ite, Dev.cancelSend_wf, Dev.sashCancel_wf,
    *]

theorem Dev.cancelRepeat_wf : ∀ d, Memory.wf d = true → Memory.wf (Dev.cancelRepeat d) = true := by
  intros; unfold Dev.cancelRepeat; (repeat' split) <;> simp +contextual (maxDischargeDepth := 40) only [Memory.wf_mk,
    Memory.wf_host, Memory.wf_mem, Bool.and_self, Dev.cancelFrames_wf, *]

theorem Dev.cancelForget_wf : ∀ d, Memory.wf d = true → Memory.wf (Dev.cancelForget d) = true := by
  intros; unfold Dev.cancelForget; simp +contextual (maxDischargeDepth := 40) only [Memory.wf_mk, Memory.wf_host,
    Memory.wf_mem, Bool.and_self, *]

theorem Dev.sendStrip_wf : ∀ d ctx n flow epoch x, Memory.wf d = true → Memory.wf (Dev.sendStrip d ctx n flow epoch x)
    = true := by
  intros; unfold Dev.sendStrip; simp +contextual (maxDischargeDepth := 40) only [Memory.wf_ite, Memory.wf_foldl,
    implies_true, Dev.dataIn_wf, Dev.sendFrame_wf, Dev.mapTx_wf, *]

theorem Dev.sendEnds_wf : ∀ d ctx n epoch, Memory.wf d = true → Memory.wf (Dev.sendEnds d ctx n epoch) = true := by
  intros; unfold Dev.sendEnds; (repeat' split) <;> simp +contextual (maxDischargeDepth := 40) only [Memory.wf_ite,
    Memory.wf_foldl, implies_true, Dev.endIn_wf, Dev.sendFrame_wf, Dev.mapTx_wf, *]

theorem Dev.stripSend_wf : ∀ d ctx n, Memory.wf d = true → Memory.wf (Dev.stripSend d ctx n) = true := by
  intros; unfold Dev.stripSend; (repeat' split) <;> simp +contextual (maxDischargeDepth := 40) only [Memory.wf_foldl,
    implies_true, Dev.sendStrip_wf, Dev.sendEnds_wf, *]

theorem Dev.retransmit_wf : ∀ d n, Memory.wf d = true → Memory.wf (Dev.retransmit d n) = true := by
  intros; unfold Dev.retransmit; simp +contextual (maxDischargeDepth := 40) only [Memory.wf_mk, Memory.wf_host,
    Memory.wf_mem, Bool.and_self, Memory.wf_ite, Memory.wf_foldl, implies_true, Dev.ocount_wf, Dev.setPeer_wf,
    Dev.putOnWire_wf, *]

theorem Dev.creditAck_wf : ∀ d n, Memory.wf d = true → Memory.wf (Dev.creditAck d n) = true := by
  intros; unfold Dev.creditAck; simp +contextual (maxDischargeDepth := 40) only [Memory.wf_ite, Dev.sendCredit_wf, *]

theorem Dev.helloTimer_wf : ∀ d n, Memory.wf d = true → Memory.wf (Dev.helloTimer d n) = true := by
  intros; unfold Dev.helloTimer; simp +contextual (maxDischargeDepth := 40) only [Memory.wf_ite, Dev.sendFrame_wf, *]

theorem Dev.peerLost_wf : ∀ d n silent, Memory.wf d = true → Memory.wf (Dev.peerLost d n silent) = true := by
  intros; unfold Dev.peerLost; simp +contextual (maxDischargeDepth := 40) only [Memory.wf_ite, Dev.ocount_wf,
    Dev.raiseVector_wf, Dev.setPeer_wf, Dev.membersLost_wf, Dev.cutPuts_wf, Dev.faultRaise_wf, *]

theorem Dev.portLink_wf : ∀ d port up, Memory.wf d = true → Memory.wf (Dev.portLink d port up) = true := by
  intros; unfold Dev.portLink; simp +contextual (maxDischargeDepth := 40) only [Memory.wf_mk, Memory.wf_host,
    Memory.wf_mem, Bool.and_self, Memory.wf_ite, Dev.drainWire_wf, Dev.faultRaise_wf, *]

theorem Dev.pfcPause_wf : ∀ d port named paused, Memory.wf d = true → Memory.wf (Dev.pfcPause d port named paused) =
    true := by
  intros; unfold Dev.pfcPause; simp +contextual (maxDischargeDepth := 40) only [Memory.wf_mk, Memory.wf_host,
    Memory.wf_mem, Bool.and_self, Memory.wf_ite, Dev.drainWire_wf, *]

theorem Dev.paneHold_wf : ∀ d c v, Memory.wf d = true → Memory.wf (Dev.paneHold d c v) = true := by
  intros; unfold Dev.paneHold; simp +contextual (maxDischargeDepth := 40) only [Dev.testsPending_wf, Dev.fput_wf, *]

theorem Dev.restoreDefaults_wf : ∀ d, Memory.wf d = true → Memory.wf (Dev.restoreDefaults d) = true := by
  intros; unfold Dev.restoreDefaults; grind [Memory.wf_mk, Mem.wf_mk, → Memory.wf_host, → Memory.wf_mem, →
    Memory.wf_cells, → Memory.wf_poison, Sparse.wf_set, Sparse.wf_setAll, Memory.wf_foldl, Dev.toField_wf]

theorem Dev.storeValue_wf : ∀ d r0 index sub v, Memory.wf d = true → Memory.wf (Dev.storeValue d r0 index sub v) =
    true := by
  intros; unfold Dev.storeValue; dsimp only; (repeat' split) <;> simp +contextual (maxDischargeDepth := 40) only
    [Memory.wf_mk, Memory.wf_host, Memory.wf_mem, Bool.and_self, Dev.toField_wf, *]

theorem Dev.writePane_wf : ∀ d r0 index sub v, Memory.wf d = true → Memory.wf (Dev.writePane d r0 index sub v) = true := by
  intros; unfold Dev.writePane; (repeat' split) <;> simp +contextual (maxDischargeDepth := 40) only [Memory.wf_ite,
    Dev.selfTestReq_wf, Dev.setPane_wf, Dev.storeValue_wf, *]

theorem Dev.applyObj_wf : ∀ d r0 index sub v, Memory.wf d = true → Memory.wf (Dev.applyObj d r0 index sub v) = true := by
  intros; unfold Dev.applyObj; simp +contextual (maxDischargeDepth := 40) only [Memory.wf_mk, Memory.wf_host,
    Memory.wf_mem, Bool.and_self, Memory.wf_ite, Dev.restoreDefaults_wf, Dev.deviceReset_wf, Dev.epochCommit_wf,
    Dev.storeValue_wf, Dev.paneHold_wf, Dev.writePane_wf, *]

theorem Dev.writeObj_wf : ∀ d index sub value, Memory.wf d = true → Memory.wf (Dev.writeObj d index sub value) = true := by
  intros; unfold Dev.writeObj; (repeat' split) <;> simp +contextual (maxDischargeDepth := 40) only [Dev.applyObj_wf,
    *]

theorem Dev.relay_wf : ∀ d out bytes m, Memory.wf d = true → Memory.wf (Dev.relay d out bytes m) = true := by
  intros; unfold Dev.relay; simp +contextual (maxDischargeDepth := 40) only [Memory.wf_ite, Dev.ocount_wf,
    Dev.sashPut_wf, *]

theorem Dev.sashArrives_wf : ∀ d act out bytes k, Memory.wf d = true → (∀ z0 z1, Memory.wf z0 = true → Memory.wf (k z0
    z1) = true) → Memory.wf (Dev.sashArrives d act out bytes k) = true := by
  intros; unfold Dev.sashArrives; (repeat' split) <;> simp +contextual (maxDischargeDepth := 40) only [Dev.ocount_wf,
    Dev.relay_wf, *]

theorem Dev.sashRelay_wf : ∀ d out bytes, Memory.wf d = true → Memory.wf (Dev.sashRelay d out bytes) = true := by
  intros; unfold Dev.sashRelay; simp +contextual (maxDischargeDepth := 40) only [implies_true, Dev.sashArrives_wf, *]

theorem Dev.enumerate_wf : ∀ d out bytes, Memory.wf d = true → Memory.wf (Dev.enumerate d out bytes) = true := by
  intros; unfold Dev.enumerate; simp +contextual (maxDischargeDepth := 40) only [Memory.wf_mk, Memory.wf_host,
    Memory.wf_mem, Bool.and_self, implies_true, Dev.sashArrives_wf, Dev.sashSend_wf, *]

theorem Dev.sashCancelRx_wf : ∀ d out bytes, Memory.wf d = true → Memory.wf (Dev.sashCancelRx d out bytes) = true := by
  intros; unfold Dev.sashCancelRx; simp +contextual (maxDischargeDepth := 40) only [Memory.wf_ite, implies_true,
    Dev.sashArrives_wf, Dev.ocount_wf, Dev.cancelArrived_wf, *]

theorem Dev.sashLink_wf : ∀ d out up, Memory.wf d = true → Memory.wf (Dev.sashLink d out up) = true := by
  intros; unfold Dev.sashLink; simp +contextual (maxDischargeDepth := 40) only [Memory.wf_mk, Memory.wf_host,
    Memory.wf_mem, Bool.and_self, Memory.wf_ite, Dev.faultRaise_wf, Dev.notify_wf, Dev.reportSelf_wf, *]

theorem Dev.respond_wf : ∀ d m, Memory.wf d = true → Memory.wf (Dev.respond d m) = true := by
  intros; unfold Dev.respond; simp +contextual (maxDischargeDepth := 40) only [Memory.wf_ite, Dev.sashSend_wf, *]

theorem Dev.windowEnd_wf : ∀ d, Memory.wf d = true → Memory.wf (Dev.windowEnd d) = true := by
  intros; unfold Dev.windowEnd; simp +contextual (maxDischargeDepth := 40) only [Dev.fputB_wf, *]

theorem Dev.answerWrite_wf : ∀ d a w, Memory.wf d = true → Memory.wf (Dev.answerWrite d a w) = true := by
  intros; unfold Dev.answerWrite; (repeat' split) <;> simp +contextual (maxDischargeDepth := 40) only [Dev.respond_wf,
    Dev.fputB_wf, Dev.windowEnd_wf, *]

theorem Dev.dictStore_wf : ∀ d a index sub value, Memory.wf d = true → Memory.wf (Dev.dictStore d a index sub value) =
    true := by
  intros; unfold Dev.dictStore; simp +contextual (maxDischargeDepth := 40) only [Memory.wf_mk, Memory.wf_host,
    Memory.wf_mem, Bool.and_self, Memory.wf_ite, Dev.answerWrite_wf, Dev.wake_wf, Dev.ocount_wf, Dev.writeObj_wf, *]

theorem Dev.serveRead_wf : ∀ d addr m, Memory.wf d = true → Memory.wf (Dev.serveRead d addr m) = true := by
  intros; unfold Dev.serveRead; simp +contextual (maxDischargeDepth := 40) only [Memory.wf_mk, Memory.wf_host,
    Memory.wf_mem, Bool.and_self, Memory.wf_ite, Dev.ocount_wf, Dev.respond_wf, *]

theorem Dev.outOfSequence_wf : ∀ d addr m, Memory.wf d = true → Memory.wf (Dev.outOfSequence d addr m) = true := by
  intros; unfold Dev.outOfSequence; simp +contextual (maxDischargeDepth := 40) only [Memory.wf_mk, Memory.wf_host,
    Memory.wf_mem, Bool.and_self, Dev.respond_wf, *]

theorem Dev.serveWrite_wf : ∀ d addr m, Memory.wf d = true → Memory.wf (Dev.serveWrite d addr m) = true := by
  intros; unfold Dev.serveWrite; dsimp only; (repeat' split) <;> simp +contextual (maxDischargeDepth := 40) only
    [Memory.wf_mk, Memory.wf_host, Memory.wf_mem, Bool.and_self, Dev.outOfSequence_wf, Dev.respond_wf,
    Dev.dictStore_wf, *]

theorem Dev.windowPut_wf : ∀ d v, Memory.wf d = true → Memory.wf (Dev.windowPut d v) = true := by
  intros; unfold Dev.windowPut; simp +contextual (maxDischargeDepth := 40) only [Memory.wf_foldl, implies_true,
    Dev.fput_wf, *]

theorem Dev.serveWindow_wf : ∀ d write index sub len bytes, Memory.wf d = true → Memory.wf (Dev.serveWindow d write
    index sub len bytes) = true := by
  intros; unfold Dev.serveWindow; simp +contextual (maxDischargeDepth := 40) only [Memory.wf_ite, Dev.answerWrite_wf,
    Dev.wake_wf, Dev.ocount_wf, Dev.dictStore_wf, Dev.windowEnd_wf, Dev.fput_wf, Dev.windowPut_wf, *]

theorem Dev.serveRequest_wf : ∀ d q, Memory.wf d = true → Memory.wf (Dev.serveRequest d q) = true := by
  intros; unfold Dev.serveRequest; (repeat' split) <;> simp +contextual (maxDischargeDepth := 40) only
    [Dev.serveRead_wf, Dev.serveWrite_wf, Dev.serveWindow_wf, Dev.dictStore_wf, *]

theorem Dev.serveHeld_wf : ∀ d, Memory.wf d = true → Memory.wf (Dev.serveHeld d) = true := by
  intro d h
  simp only [Dev.serveHeld]
  split
  · exact h
  · refine foldl_keeps (fun (a : Bool × Dev) => Memory.wf a.2 = true) _ (fun b a hb => ?_) _ _ ?_
    · split
      · exact hb
      · exact Dev.serveRequest_wf _ _ hb
    · simp only [Memory.wf_mk, Memory.wf_host h, Memory.wf_mem h, Bool.and_self]

theorem Dev.acceptRequest_wf : ∀ d m, Memory.wf d = true → Memory.wf (Dev.acceptRequest d m) = true := by
  intros; unfold Dev.acceptRequest; simp +contextual (maxDischargeDepth := 40) only [Memory.wf_mk, Memory.wf_host,
    Memory.wf_mem, Bool.and_self, Memory.wf_ite, Dev.ocount_wf, Dev.respond_wf, Dev.serveRequest_wf, *]

theorem Dev.sashRead_wf : ∀ d out bytes, Memory.wf d = true → Memory.wf (Dev.sashRead d out bytes) = true := by
  intros; unfold Dev.sashRead; simp +contextual (maxDischargeDepth := 40) only [implies_true, Dev.sashArrives_wf,
    Dev.acceptRequest_wf, *]

theorem Dev.sashWrite_wf : ∀ d out bytes, Memory.wf d = true → Memory.wf (Dev.sashWrite d out bytes) = true := by
  intros; unfold Dev.sashWrite; simp +contextual (maxDischargeDepth := 40) only [implies_true, Dev.sashArrives_wf,
    Dev.acceptRequest_wf, *]

theorem Dev.snapshotTimeout_wf : ∀ d assembly, Memory.wf d = true → Memory.wf (Dev.snapshotTimeout d assembly) = true := by
  intros; unfold Dev.snapshotTimeout; simp +contextual (maxDischargeDepth := 40) only [Memory.wf_mk, Memory.wf_host,
    Memory.wf_mem, Bool.and_self, *]

theorem Dev.windowGo_wf : ∀ d write, Memory.wf d = true → Memory.wf (Dev.windowGo d write) = true := by
  intros; unfold Dev.windowGo; simp +contextual (maxDischargeDepth := 40) only [Memory.wf_mk, Memory.wf_host,
    Memory.wf_mem, Bool.and_self, Memory.wf_ite, Dev.windowEnd_wf, Dev.fputB_wf, Dev.fput_wf, Dev.windowPut_wf,
    Dev.serveWindow_wf, *]

theorem Dev.persistDone_wf : ∀ d, Memory.wf d = true → Memory.wf (Dev.persistDone d) = true := by
  intros; unfold Dev.persistDone; (repeat' split) <;> simp +contextual (maxDischargeDepth := 40) only [Memory.wf_mk,
    Memory.wf_host, Memory.wf_mem, Bool.and_self, Dev.persistWrite_wf, Dev.serveHeld_wf, Dev.answerWrite_wf, *]

theorem Dev.restoreGo_wf : ∀ d, Memory.wf d = true → Memory.wf (Dev.restoreGo d) = true := by
  intros; unfold Dev.restoreGo; simp +contextual (maxDischargeDepth := 40) only [Dev.dictStore_wf, *]

theorem Dev.recordClear_wf : ∀ d i, Memory.wf d = true → Memory.wf (Dev.recordClear d i) = true := by
  intros; unfold Dev.recordClear; simp +contextual (maxDischargeDepth := 40) only [Dev.fputB_wf, *]

theorem Dev.fiWrite_wf : ∀ d source bits mode arm, Memory.wf d = true → Memory.wf (Dev.fiWrite d source bits mode arm)
    = true := by
  intros; unfold Dev.fiWrite; simp +contextual (maxDischargeDepth := 40) only [Memory.wf_ite, Dev.fput_wf,
    Dev.fputB_wf, *]

theorem Dev.fiArm_wf : ∀ d source bits mode, Memory.wf d = true → Memory.wf (Dev.fiArm d source bits mode) = true := by
  intros; unfold Dev.fiArm; simp +contextual (maxDischargeDepth := 40) only [Dev.fiWrite_wf, *]

theorem Dev.readActs_wf : ∀ d off, Memory.wf d = true → Memory.wf (Dev.readActs d off) = true := by
  intros; unfold Dev.readActs; (repeat' split) <;> simp +contextual (maxDischargeDepth := 40) only
    [Dev.dgAllocRead_wf, Dev.dgWord_wf, *]

theorem Dev.busRead_wf : ∀ d off n, Memory.wf d = true → Memory.wf (Dev.busRead d off n).2 = true :=
  fun d off n h => foldl_keeps (fun (s : Bytes × Dev) => Memory.wf s.2 = true) _ (fun _ _ hb => Dev.readActs_wf _ _ hb) _ _ h

theorem Dev.fieldWrite_wf : ∀ d x off v f, Memory.wf d = true → Memory.wf (Dev.fieldWrite d x off v f) = true := by
  intros; unfold Dev.fieldWrite; (repeat' split) <;> simp +contextual (maxDischargeDepth := 40) only [Dev.fput_wf, *]

theorem Dev.qctlWrite_wf : ∀ d v, Memory.wf d = true → Memory.wf (Dev.qctlWrite d v) = true := by
  intros; unfold Dev.qctlWrite; (repeat' split) <;> simp +contextual (maxDischargeDepth := 40) only
    [Dev.qctlCreate_wf, Dev.qctlDelete_wf, Dev.qctlFlush_wf, Dev.qctlResume_wf, Dev.qctlReject_wf, *]

theorem Dev.lmGo_wf : ∀ d v, Memory.wf d = true → Memory.wf (Dev.lmGo d v) = true := by
  intros; unfold Dev.lmGo; (repeat' split) <;> simp +contextual (maxDischargeDepth := 40) only [implies_true,
    Dev.fputB_wf, Dev.mailbox_wf, Dev.flashWrite_wf, Dev.activateLintel_wf, Dev.activateCasement_wf,
    Dev.firmwareCommit_wf, Dev.recover_wf, *]

theorem Dev.dgStatWrite_wf : ∀ d k v, Memory.wf d = true → Memory.wf (Dev.dgStatWrite d k v) = true := by
  intros; unfold Dev.dgStatWrite; simp +contextual (maxDischargeDepth := 40) only [Dev.setDgctx_wf, *]

theorem Dev.dictCtl_wf : ∀ d v, Memory.wf d = true → Memory.wf (Dev.dictCtl d v) = true := by
  intros; unfold Dev.dictCtl; (repeat' split) <;> simp +contextual (maxDischargeDepth := 40) only [Dev.windowGo_wf, *]

theorem Dev.regActs_wf : ∀ d r0 i v, Memory.wf d = true → Memory.wf (Dev.regActs d r0 i v) = true := by
  intros; unfold Dev.regActs; (repeat' split) <;> simp +contextual (maxDischargeDepth := 40) only [Dev.qctlWrite_wf,
    Dev.cancelDoorbell_wf, Dev.hingeRestart_wf, Dev.hingeStop_wf, Dev.hingeGo_wf, Dev.ksGo_wf, Dev.ksSettle_wf,
    Dev.dgCommands_wf, Dev.dgStatWrite_wf, Dev.retrainGo_wf, Dev.putGo_wf, Dev.thrDiscard_wf, Dev.deviceReset_wf,
    Dev.lmGo_wf, Dev.fuseRead_wf, Dev.fuseProgram_wf, Dev.dictCtl_wf, Dev.recordClear_wf, *]

theorem Dev.msixWrite_wf : ∀ d off v, Memory.wf d = true → Memory.wf (Dev.msixWrite d off v) = true := by
  intros; unfold Dev.msixWrite; (repeat' split) <;> simp +contextual (maxDischargeDepth := 40) only [Memory.wf_mk,
    Memory.wf_host, Memory.wf_mem, Bool.and_self, Memory.wf_ite, Dev.emit_wf, *]

theorem Dev.regWrite_wf : ∀ d x off v, Memory.wf d = true → Memory.wf (Dev.regWrite d x off v) = true := by
  intros; unfold Dev.regWrite; (repeat' split) <;> simp +contextual (maxDischargeDepth := 40) only [Memory.wf_foldl,
    implies_true, Dev.paneHold_wf, Dev.fiWrite_wf, Dev.fieldWrite_wf, Dev.regActs_wf, Dev.toObject_wf, *]

theorem Dev.applyWrite_wf : ∀ d off v, Memory.wf d = true → Memory.wf (Dev.applyWrite d off v) = true := by
  intros; unfold Dev.applyWrite; (repeat' split) <;> simp +contextual (maxDischargeDepth := 40) only [Memory.wf_mk,
    Memory.wf_host, Memory.wf_mem, Bool.and_self, Dev.regWrite_wf, Dev.msixWrite_wf, *]

theorem Dev.busWrite_wf : ∀ d off v, Memory.wf d = true → Memory.wf (Dev.busWrite d off v) = true := by
  intros; unfold Dev.busWrite; (repeat' split) <;> simp +contextual (maxDischargeDepth := 40) only [Dev.applyWrite_wf,
    Dev.fcount_wf, Dev.for__wf, Dev.fputB_wf, *]

theorem Dev.poll_wf : ∀ d off, Memory.wf d = true → Memory.wf (Dev.poll d off) = true := by
  intros; unfold Dev.poll; (repeat' split) <;> simp +contextual (maxDischargeDepth := 40) only [Dev.fputB_wf, *]

theorem Dev.crossed_wf : ∀ d, Memory.wf d = true → Memory.wf (Dev.crossed d) = true := by
  intros; unfold Dev.crossed; simp +contextual (maxDischargeDepth := 40) only [Memory.wf_foldl, implies_true,
    Dev.fputB_wf, *]

theorem Dev.registerWrite_wf : ∀ d polled off width v, Memory.wf d = true → Memory.wf (Dev.registerWrite d polled off
    width v) = true := by
  intros; unfold Dev.registerWrite; (repeat' split) <;> simp +contextual (maxDischargeDepth := 40) only [Dev.poll_wf,
    Dev.dgData_wf, Dev.busWrite_wf, *]

theorem Dev.putFrameRx_wf : ∀ d port good bytes reg, Memory.wf d = true → Memory.wf (Dev.putFrameRx d port good bytes
    reg) = true := by
  intros; unfold Dev.putFrameRx; grind [Memory.wf_mk, Mem.wf_mk, → Memory.wf_host, → Memory.wf_mem, → Memory.wf_cells,
    → Memory.wf_poison, Sparse.wf_set, Sparse.wf_setAll, Memory.wf_foldl, Dev.receive_wf, Dev.accept_wf,
    Dev.busWrite_wf, Dev.engWrite_wf, Dev.sendFrame_wf]

theorem Dev.bar4Write_wf : ∀ d off b, Memory.wf d = true → Memory.wf (Dev.bar4Write d off b) = true := by
  intros; unfold Dev.bar4Write; simp +contextual (maxDischargeDepth := 40) only [Dev.engWrite_wf, *]

end Sys2Proof.Machine
end

