-- ==== Sys2Proof/Laws/MemoryH.lean ====
section
/-!
SUPPORT. Every operation of Drives, Serving keeps memory in its canonical form.
-/

set_option linter.style.nameCheck false

namespace Sys2Proof.Machine

theorem Dev.timedOut_wf : ∀ d slot w, Memory.wf d = true → Memory.wf (Dev.timedOut d slot w) = true := by
  intros; unfold Dev.timedOut; (repeat' split) <;> simp +contextual (maxDischargeDepth := 40) only [Dev.cutLists_wf,
    Dev.finish_wf, Dev.drainFailed_wf, Dev.failCtx_wf, *]

theorem Dev.nvmeTimeout_wf : ∀ d slot w, Memory.wf d = true → Memory.wf (Dev.nvmeTimeout d slot w) = true := by
  intros; unfold Dev.nvmeTimeout; simp +contextual (maxDischargeDepth := 40) only [Memory.wf_ite, Dev.timedOut_wf,
    Dev.nvmeStatus_wf, Dev.emit_wf, Dev.setDrive_wf, *]

theorem Dev.readyTimeout_wf : ∀ d slot, Memory.wf d = true → Memory.wf (Dev.readyTimeout d slot) = true := by
  intros; unfold Dev.readyTimeout; simp +contextual (maxDischargeDepth := 40) only [Memory.wf_ite, Dev.driveLost_wf,
    Dev.driveGone_wf, Dev.setDrive_wf, *]

theorem Dev.readyAgain_wf : ∀ d slot, Memory.wf d = true → Memory.wf (Dev.readyAgain d slot) = true := by
  intros; unfold Dev.readyAgain; simp +contextual (maxDischargeDepth := 40) only [Memory.wf_ite, Dev.setDrive_wf, *]

theorem Dev.driveRemoved_wf : ∀ d slot, Memory.wf d = true → Memory.wf (Dev.driveRemoved d slot) = true := by
  intros; unfold Dev.driveRemoved; simp +contextual (maxDischargeDepth := 40) only [Memory.wf_ite, Dev.setDrive_wf,
    Dev.slotEvent_wf, Dev.driveLost_wf, Dev.driveGone_wf, *]

theorem Dev.driveInserted_wf : ∀ d slot s, Memory.wf d = true → Memory.wf (Dev.driveInserted d slot s) = true := by
  intros; unfold Dev.driveInserted; simp +contextual (maxDischargeDepth := 40) only [Memory.wf_ite, Dev.setDrive_wf,
    Dev.slotEvent_wf, Dev.driveBack_wf, *]

theorem Dev.readyChange_wf : ∀ d c n f, Memory.wf d = true → Memory.wf (Dev.readyChange d c n f) = true := by
  intros; unfold Dev.readyChange; simp +contextual (maxDischargeDepth := 40) only [Memory.wf_ite, Dev.setNode_wf, *]

theorem Dev.agingTimeout_wf : ∀ d c n, Memory.wf d = true → Memory.wf (Dev.agingTimeout d c n) = true := by
  intros; unfold Dev.agingTimeout; simp +contextual (maxDischargeDepth := 40) only [Memory.wf_ite, Dev.readyChange_wf,
    *]

theorem Dev.affinityExpiry_wf : ∀ d c n lapsed, Memory.wf d = true → Memory.wf (Dev.affinityExpiry d c n lapsed) =
    true := by
  intros; unfold Dev.affinityExpiry; simp +contextual (maxDischargeDepth := 40) only [Memory.wf_ite, Dev.setNode_wf,
    *]

theorem Dev.crossExpiry_wf : ∀ d c n, Memory.wf d = true → Memory.wf (Dev.crossExpiry d c n) = true := by
  intros; unfold Dev.crossExpiry; simp +contextual (maxDischargeDepth := 40) only [Dev.readyChange_wf, *]

theorem Dev.served_wf : ∀ d f, Memory.wf d = true → (∀ z0, Memory.wf z0 = true → Memory.wf (f z0) = true) → Memory.wf
    (Dev.served d f) = true := by
  intros; unfold Dev.served; simp +contextual (maxDischargeDepth := 40) only [Memory.wf_ite, Dev.settle_wf, *]

theorem Dev.servedAlone_wf : ∀ d f, Memory.wf d = true → (∀ z0, Memory.wf z0 = true → Memory.wf (f z0) = true) →
    Memory.wf (Dev.servedAlone d f) = true := by
  intros; unfold Dev.servedAlone; simp +contextual (maxDischargeDepth := 40) only [Memory.wf_ite, *]

theorem Dev.servedPowered_wf : ∀ d f, Memory.wf d = true → (∀ z0, Memory.wf z0 = true → Memory.wf (f z0) = true) →
    Memory.wf (Dev.servedPowered d f) = true := by
  intros; unfold Dev.servedPowered; simp +contextual (maxDischargeDepth := 40) only [Memory.wf_ite, Dev.settle_wf, *]

theorem Dev.tick_wf : ∀ d, Memory.wf d = true → Memory.wf (Dev.tick d) = true := by
  intros; unfold Dev.tick; simp +contextual (maxDischargeDepth := 40) only [Memory.wf_mk, Memory.wf_host,
    Memory.wf_mem, Bool.and_self, Memory.wf_ite, Dev.crossed_wf, *]

theorem Dev.commandDispatch_wf : ∀ d q, Memory.wf d = true → Memory.wf (Dev.commandDispatch d q) = true := by
  intros; unfold Dev.commandDispatch; (repeat' split) <;> simp +contextual (maxDischargeDepth := 40) only
    [Dev.markDispatched_wf, Dev.syncDispatch_wf, Dev.digestDispatch_wf, Dev.attestDispatch_wf, *]

theorem Dev.nopRun_wf : ∀ d id, Memory.wf d = true → Memory.wf (Dev.nopRun d id) = true := by
  intros; unfold Dev.nopRun; (repeat' split) <;> simp +contextual (maxDischargeDepth := 40) only [Dev.finish_wf, *]

theorem Dev.dgControl_wf : ∀ d k control start final release, Memory.wf d = true → Memory.wf (Dev.dgControl d k
    control start final release) = true := by
  intros; unfold Dev.dgControl; simp +contextual (maxDischargeDepth := 40) only [Dev.fput_wf, Dev.ksSettle_wf,
    Dev.dgCommands_wf, *]

theorem Dev.ksCommand_wf : ∀ d o, Memory.wf d = true → Memory.wf (Dev.ksCommand d o) = true := by
  intros; unfold Dev.ksCommand; simp +contextual (maxDischargeDepth := 40) only [Dev.ksGo_wf, Dev.fput_wf, *]

theorem Dev.selfTestWrite_wf : ∀ d p, Memory.wf d = true → Memory.wf (Dev.selfTestWrite d p) = true := by
  intros; unfold Dev.selfTestWrite; simp +contextual (maxDischargeDepth := 40) only [Dev.dictStore_wf, *]

theorem Dev.unfenceRun_wf : ∀ d p pass, Memory.wf d = true → Memory.wf (Dev.unfenceRun d p pass) = true := by
  intros; unfold Dev.unfenceRun; simp +contextual (maxDischargeDepth := 40) only [Memory.wf_ite, Dev.unfence_wf,
    Dev.dictStore_wf, *]

theorem Dev.bankUnfenceRun_wf : ∀ d c mask pass, Memory.wf d = true → Memory.wf (Dev.bankUnfenceRun d c mask pass) =
    true := by
  intros; unfold Dev.bankUnfenceRun; simp +contextual (maxDischargeDepth := 40) only [Memory.wf_ite, Dev.dictStore_wf,
    Dev.bankUnfence_wf, *]

theorem Dev.sourceRaised_wf : ∀ d n syndrome injected, Memory.wf d = true → Memory.wf (Dev.sourceRaised d n syndrome
    injected) = true := by
  intros; unfold Dev.sourceRaised; simp +contextual (maxDischargeDepth := 40) only [Memory.wf_ite, Dev.fiConsume_wf,
    Dev.faultRaise_wf, Dev.poisonThr_wf, Dev.poison_wf, *]

theorem Dev.putCommand_wf : ∀ d n node reg, Memory.wf d = true → Memory.wf (Dev.putCommand d n node reg) = true := by
  intros; unfold Dev.putCommand; simp +contextual (maxDischargeDepth := 40) only [Dev.putGo_wf, Dev.fputB_wf,
    Dev.fput_wf, *]

theorem Dev.lmCommand_wf : ∀ d op slot part cas f, Memory.wf d = true → (∀ z0, Memory.wf z0 = true → Memory.wf (f z0)
    = true) → Memory.wf (Dev.lmCommand d op slot part cas f) = true := by
  intros; unfold Dev.lmCommand; simp +contextual (maxDischargeDepth := 40) only [implies_true, Dev.fputB_wf,
    Dev.fput_wf, Dev.mailbox_wf, *]

theorem Dev.slotRemoved_wf : ∀ d slot, Memory.wf d = true → Memory.wf (Dev.slotRemoved d slot) = true := by
  intros; unfold Dev.slotRemoved; simp +contextual (maxDischargeDepth := 40) only [Memory.wf_ite, Dev.settle_wf,
    Dev.driveRemoved_wf, Dev.setDrive_wf, *]

theorem Dev.slotInserted_wf : ∀ d slot s, Memory.wf d = true → Memory.wf (Dev.slotInserted d slot s) = true := by
  intros; unfold Dev.slotInserted; simp +contextual (maxDischargeDepth := 40) only [Memory.wf_ite, Dev.settle_wf,
    Dev.driveInserted_wf, Dev.setDrive_wf, *]

theorem Dev.discardCommand_wf : ∀ d slot, Memory.wf d = true → Memory.wf (Dev.discardCommand d slot) = true := by
  intros; unfold Dev.discardCommand; simp +contextual (maxDischargeDepth := 40) only [Dev.thrDiscard_wf, Dev.fput_wf,
    *]

theorem Dev.perstAssert_wf : ∀ d, Memory.wf d = true → Memory.wf (Dev.perstAssert d) = true := by
  intros; unfold Dev.perstAssert; simp +contextual (maxDischargeDepth := 40) only [Memory.wf_mk, Memory.wf_host,
    Memory.wf_mem, Bool.and_self, Memory.wf_ite, Dev.settle_wf, Dev.linkReset_wf, *]

theorem Dev.bar4Access_wf : ∀ d off a, Memory.wf d = true → Memory.wf (Dev.bar4Access d off a) = true := by
  intros; unfold Dev.bar4Access; (repeat' split) <;> simp +contextual (maxDischargeDepth := 40) only [Dev.wake_wf,
    Dev.bar4Write_wf, *]

theorem Dev.handoffEnd_wf : ∀ d, Memory.wf d = true → Memory.wf (Dev.handoffEnd d) = true := by
  intros; unfold Dev.handoffEnd; simp +contextual (maxDischargeDepth := 40) only [Memory.wf_ite, Dev.serveHeld_wf,
    Dev.handoffTimeout_wf, *]

theorem Dev.digestBlock_wf : ∀ d w, Memory.wf d = true → Memory.wf (Dev.digestBlock d w) = true := by
  intros; unfold Dev.digestBlock; (repeat' split) <;> simp +contextual (maxDischargeDepth := 40) only
    [Dev.ksSettle_wf, Dev.dgBlock_wf, Dev.foldBlock_wf, *]

end Sys2Proof.Machine
end

