-- ==== Sys2Proof/Laws/State.lean ====
section
/-!
SUPPORT. What each update of the device leaves as it was: one lemma for each field, true by unfolding.
-/

namespace Sys2Proof.Machine

@[simp] theorem State.rest_dev (s : State) (q : List Instr) : (s.rest q).dev = s.dev := rfl
@[simp] theorem State.rest_pending (s : State) (q : List Instr) : (s.rest q).pending = q := rfl

/-! ### Dev.fput -/

section
variable (d : Dev) (f : Fld) (v : Nat)
@[simp] theorem Dev.fput_objs : (d.fput f v).objs = d.objs := rfl
@[simp] theorem Dev.fput_host : (d.fput f v).host = d.host := rfl
@[simp] theorem Dev.fput_hostBad : (d.fput f v).hostBad = d.hostBad := rfl
@[simp] theorem Dev.fput_jamb : (d.fput f v).jamb = d.jamb := rfl
@[simp] theorem Dev.fput_mem : (d.fput f v).mem = d.mem := rfl
@[simp] theorem Dev.fput_sill : (d.fput f v).sill = d.sill := rfl
@[simp] theorem Dev.fput_maint : (d.fput f v).maint = d.maint := rfl
@[simp] theorem Dev.fput_thr : (d.fput f v).thr = d.thr := rfl
@[simp] theorem Dev.fput_drives : (d.fput f v).drives = d.drives := rfl
@[simp] theorem Dev.fput_bifold : (d.fput f v).bifold = d.bifold := rfl
@[simp] theorem Dev.fput_dig : (d.fput f v).dig = d.dig := rfl
@[simp] theorem Dev.fput_hinge : (d.fput f v).hinge = d.hinge := rfl
@[simp] theorem Dev.fput_pipes : (d.fput f v).pipes = d.pipes := rfl
@[simp] theorem Dev.fput_louvre : (d.fput f v).louvre = d.louvre := rfl
@[simp] theorem Dev.fput_net : (d.fput f v).net = d.net := rfl
@[simp] theorem Dev.fput_sash : (d.fput f v).sash = d.sash := rfl
@[simp] theorem Dev.fput_life : (d.fput f v).life = d.life := rfl
@[simp] theorem Dev.fput_tap : (d.fput f v).tap = d.tap := rfl
@[simp] theorem Dev.fput_ordering288 : (d.fput f v).ordering288 = d.ordering288 := rfl
@[simp] theorem Dev.fput_timeBase : (d.fput f v).timeBase = d.timeBase := rfl
@[simp] theorem Dev.fput_halted : (d.fput f v).halted = d.halted := rfl
@[simp] theorem Dev.fput_reacts : (d.fput f v).reacts = d.reacts := rfl
@[simp] theorem Dev.fput_out : (d.fput f v).out = d.out := rfl
@[simp] theorem Dev.fput_free : (d.fput f v).free = d.free := rfl
end

/-! ### Dev.oput -/

section
variable (d : Dev) (o : Obj) (v : Nat)
@[simp] theorem Dev.oput_flds : (d.oput o v).flds = d.flds := rfl
@[simp] theorem Dev.oput_host : (d.oput o v).host = d.host := rfl
@[simp] theorem Dev.oput_hostBad : (d.oput o v).hostBad = d.hostBad := rfl
@[simp] theorem Dev.oput_jamb : (d.oput o v).jamb = d.jamb := rfl
@[simp] theorem Dev.oput_mem : (d.oput o v).mem = d.mem := rfl
@[simp] theorem Dev.oput_sill : (d.oput o v).sill = d.sill := rfl
@[simp] theorem Dev.oput_maint : (d.oput o v).maint = d.maint := rfl
@[simp] theorem Dev.oput_thr : (d.oput o v).thr = d.thr := rfl
@[simp] theorem Dev.oput_drives : (d.oput o v).drives = d.drives := rfl
@[simp] theorem Dev.oput_bifold : (d.oput o v).bifold = d.bifold := rfl
@[simp] theorem Dev.oput_dig : (d.oput o v).dig = d.dig := rfl
@[simp] theorem Dev.oput_hinge : (d.oput o v).hinge = d.hinge := rfl
@[simp] theorem Dev.oput_pipes : (d.oput o v).pipes = d.pipes := rfl
@[simp] theorem Dev.oput_louvre : (d.oput o v).louvre = d.louvre := rfl
@[simp] theorem Dev.oput_net : (d.oput o v).net = d.net := rfl
@[simp] theorem Dev.oput_sash : (d.oput o v).sash = d.sash := rfl
@[simp] theorem Dev.oput_life : (d.oput o v).life = d.life := rfl
@[simp] theorem Dev.oput_tap : (d.oput o v).tap = d.tap := rfl
@[simp] theorem Dev.oput_ordering288 : (d.oput o v).ordering288 = d.ordering288 := rfl
@[simp] theorem Dev.oput_timeBase : (d.oput o v).timeBase = d.timeBase := rfl
@[simp] theorem Dev.oput_halted : (d.oput o v).halted = d.halted := rfl
@[simp] theorem Dev.oput_reacts : (d.oput o v).reacts = d.reacts := rfl
@[simp] theorem Dev.oput_out : (d.oput o v).out = d.out := rfl
@[simp] theorem Dev.oput_free : (d.oput o v).free = d.free := rfl
end

/-! ### Dev.emit -/

section
variable (d : Dev) (o : Out)
@[simp] theorem Dev.emit_flds : (d.emit o).flds = d.flds := rfl
@[simp] theorem Dev.emit_objs : (d.emit o).objs = d.objs := rfl
@[simp] theorem Dev.emit_host : (d.emit o).host = d.host := rfl
@[simp] theorem Dev.emit_hostBad : (d.emit o).hostBad = d.hostBad := rfl
@[simp] theorem Dev.emit_jamb : (d.emit o).jamb = d.jamb := rfl
@[simp] theorem Dev.emit_mem : (d.emit o).mem = d.mem := rfl
@[simp] theorem Dev.emit_sill : (d.emit o).sill = d.sill := rfl
@[simp] theorem Dev.emit_maint : (d.emit o).maint = d.maint := rfl
@[simp] theorem Dev.emit_thr : (d.emit o).thr = d.thr := rfl
@[simp] theorem Dev.emit_drives : (d.emit o).drives = d.drives := rfl
@[simp] theorem Dev.emit_bifold : (d.emit o).bifold = d.bifold := rfl
@[simp] theorem Dev.emit_dig : (d.emit o).dig = d.dig := rfl
@[simp] theorem Dev.emit_hinge : (d.emit o).hinge = d.hinge := rfl
@[simp] theorem Dev.emit_pipes : (d.emit o).pipes = d.pipes := rfl
@[simp] theorem Dev.emit_louvre : (d.emit o).louvre = d.louvre := rfl
@[simp] theorem Dev.emit_net : (d.emit o).net = d.net := rfl
@[simp] theorem Dev.emit_sash : (d.emit o).sash = d.sash := rfl
@[simp] theorem Dev.emit_life : (d.emit o).life = d.life := rfl
@[simp] theorem Dev.emit_tap : (d.emit o).tap = d.tap := rfl
@[simp] theorem Dev.emit_ordering288 : (d.emit o).ordering288 = d.ordering288 := rfl
@[simp] theorem Dev.emit_timeBase : (d.emit o).timeBase = d.timeBase := rfl
@[simp] theorem Dev.emit_halted : (d.emit o).halted = d.halted := rfl
@[simp] theorem Dev.emit_reacts : (d.emit o).reacts = d.reacts := rfl
@[simp] theorem Dev.emit_free : (d.emit o).free = d.free := rfl
end

/-! ### Dev.hostWrite -/

section
variable (d : Dev) (a : Nat) (bs : Bytes)
@[simp] theorem Dev.hostWrite_flds : (d.hostWrite a bs).flds = d.flds := rfl
@[simp] theorem Dev.hostWrite_objs : (d.hostWrite a bs).objs = d.objs := rfl
@[simp] theorem Dev.hostWrite_hostBad : (d.hostWrite a bs).hostBad = d.hostBad := rfl
@[simp] theorem Dev.hostWrite_jamb : (d.hostWrite a bs).jamb = d.jamb := rfl
@[simp] theorem Dev.hostWrite_mem : (d.hostWrite a bs).mem = d.mem := rfl
@[simp] theorem Dev.hostWrite_sill : (d.hostWrite a bs).sill = d.sill := rfl
@[simp] theorem Dev.hostWrite_maint : (d.hostWrite a bs).maint = d.maint := rfl
@[simp] theorem Dev.hostWrite_thr : (d.hostWrite a bs).thr = d.thr := rfl
@[simp] theorem Dev.hostWrite_drives : (d.hostWrite a bs).drives = d.drives := rfl
@[simp] theorem Dev.hostWrite_bifold : (d.hostWrite a bs).bifold = d.bifold := rfl
@[simp] theorem Dev.hostWrite_dig : (d.hostWrite a bs).dig = d.dig := rfl
@[simp] theorem Dev.hostWrite_hinge : (d.hostWrite a bs).hinge = d.hinge := rfl
@[simp] theorem Dev.hostWrite_pipes : (d.hostWrite a bs).pipes = d.pipes := rfl
@[simp] theorem Dev.hostWrite_louvre : (d.hostWrite a bs).louvre = d.louvre := rfl
@[simp] theorem Dev.hostWrite_net : (d.hostWrite a bs).net = d.net := rfl
@[simp] theorem Dev.hostWrite_sash : (d.hostWrite a bs).sash = d.sash := rfl
@[simp] theorem Dev.hostWrite_life : (d.hostWrite a bs).life = d.life := rfl
@[simp] theorem Dev.hostWrite_tap : (d.hostWrite a bs).tap = d.tap := rfl
@[simp] theorem Dev.hostWrite_ordering288 : (d.hostWrite a bs).ordering288 = d.ordering288 := rfl
@[simp] theorem Dev.hostWrite_timeBase : (d.hostWrite a bs).timeBase = d.timeBase := rfl
@[simp] theorem Dev.hostWrite_halted : (d.hostWrite a bs).halted = d.halted := rfl
@[simp] theorem Dev.hostWrite_reacts : (d.hostWrite a bs).reacts = d.reacts := rfl
@[simp] theorem Dev.hostWrite_out : (d.hostWrite a bs).out = d.out := rfl
@[simp] theorem Dev.hostWrite_free : (d.hostWrite a bs).free = d.free := rfl
end

/-! ### Dev.setChan -/

section
variable (d : Dev) (c : Nat) (x : Chan)
@[simp] theorem Dev.setChan_flds : (d.setChan c x).flds = d.flds := rfl
@[simp] theorem Dev.setChan_objs : (d.setChan c x).objs = d.objs := rfl
@[simp] theorem Dev.setChan_host : (d.setChan c x).host = d.host := rfl
@[simp] theorem Dev.setChan_hostBad : (d.setChan c x).hostBad = d.hostBad := rfl
@[simp] theorem Dev.setChan_jamb : (d.setChan c x).jamb = d.jamb := rfl
@[simp] theorem Dev.setChan_sill : (d.setChan c x).sill = d.sill := rfl
@[simp] theorem Dev.setChan_maint : (d.setChan c x).maint = d.maint := rfl
@[simp] theorem Dev.setChan_thr : (d.setChan c x).thr = d.thr := rfl
@[simp] theorem Dev.setChan_drives : (d.setChan c x).drives = d.drives := rfl
@[simp] theorem Dev.setChan_bifold : (d.setChan c x).bifold = d.bifold := rfl
@[simp] theorem Dev.setChan_dig : (d.setChan c x).dig = d.dig := rfl
@[simp] theorem Dev.setChan_hinge : (d.setChan c x).hinge = d.hinge := rfl
@[simp] theorem Dev.setChan_pipes : (d.setChan c x).pipes = d.pipes := rfl
@[simp] theorem Dev.setChan_louvre : (d.setChan c x).louvre = d.louvre := rfl
@[simp] theorem Dev.setChan_net : (d.setChan c x).net = d.net := rfl
@[simp] theorem Dev.setChan_sash : (d.setChan c x).sash = d.sash := rfl
@[simp] theorem Dev.setChan_life : (d.setChan c x).life = d.life := rfl
@[simp] theorem Dev.setChan_tap : (d.setChan c x).tap = d.tap := rfl
@[simp] theorem Dev.setChan_ordering288 : (d.setChan c x).ordering288 = d.ordering288 := rfl
@[simp] theorem Dev.setChan_timeBase : (d.setChan c x).timeBase = d.timeBase := rfl
@[simp] theorem Dev.setChan_halted : (d.setChan c x).halted = d.halted := rfl
@[simp] theorem Dev.setChan_reacts : (d.setChan c x).reacts = d.reacts := rfl
@[simp] theorem Dev.setChan_out : (d.setChan c x).out = d.out := rfl
@[simp] theorem Dev.setChan_free : (d.setChan c x).free = d.free := rfl
@[simp] theorem Dev.setChan_mem_cells : (d.setChan c x).mem.cells = d.mem.cells := rfl
@[simp] theorem Dev.setChan_mem_poison : (d.setChan c x).mem.poison = d.mem.poison := rfl
@[simp] theorem Dev.setChan_mem_nearUp : (d.setChan c x).mem.nearUp = d.mem.nearUp := rfl
@[simp] theorem Dev.setChan_mem_farUp : (d.setChan c x).mem.farUp = d.mem.farUp := rfl
@[simp] theorem Dev.setChan_mem_parkGiB : (d.setChan c x).mem.parkGiB = d.mem.parkGiB := rfl
@[simp] theorem Dev.setChan_mem_subs : (d.setChan c x).mem.subs = d.mem.subs := rfl
@[simp] theorem Dev.setChan_mem_banks : (d.setChan c x).mem.banks = d.mem.banks := rfl
end

/-! ### Dev.setSbank -/

section
variable (d : Dev) (c b : Nat) (x : SBank)
@[simp] theorem Dev.setSbank_flds : (d.setSbank c b x).flds = d.flds := rfl
@[simp] theorem Dev.setSbank_objs : (d.setSbank c b x).objs = d.objs := rfl
@[simp] theorem Dev.setSbank_host : (d.setSbank c b x).host = d.host := rfl
@[simp] theorem Dev.setSbank_hostBad : (d.setSbank c b x).hostBad = d.hostBad := rfl
@[simp] theorem Dev.setSbank_jamb : (d.setSbank c b x).jamb = d.jamb := rfl
@[simp] theorem Dev.setSbank_mem : (d.setSbank c b x).mem = d.mem := rfl
@[simp] theorem Dev.setSbank_maint : (d.setSbank c b x).maint = d.maint := rfl
@[simp] theorem Dev.setSbank_thr : (d.setSbank c b x).thr = d.thr := rfl
@[simp] theorem Dev.setSbank_drives : (d.setSbank c b x).drives = d.drives := rfl
@[simp] theorem Dev.setSbank_bifold : (d.setSbank c b x).bifold = d.bifold := rfl
@[simp] theorem Dev.setSbank_dig : (d.setSbank c b x).dig = d.dig := rfl
@[simp] theorem Dev.setSbank_hinge : (d.setSbank c b x).hinge = d.hinge := rfl
@[simp] theorem Dev.setSbank_pipes : (d.setSbank c b x).pipes = d.pipes := rfl
@[simp] theorem Dev.setSbank_louvre : (d.setSbank c b x).louvre = d.louvre := rfl
@[simp] theorem Dev.setSbank_net : (d.setSbank c b x).net = d.net := rfl
@[simp] theorem Dev.setSbank_sash : (d.setSbank c b x).sash = d.sash := rfl
@[simp] theorem Dev.setSbank_life : (d.setSbank c b x).life = d.life := rfl
@[simp] theorem Dev.setSbank_tap : (d.setSbank c b x).tap = d.tap := rfl
@[simp] theorem Dev.setSbank_ordering288 : (d.setSbank c b x).ordering288 = d.ordering288 := rfl
@[simp] theorem Dev.setSbank_timeBase : (d.setSbank c b x).timeBase = d.timeBase := rfl
@[simp] theorem Dev.setSbank_halted : (d.setSbank c b x).halted = d.halted := rfl
@[simp] theorem Dev.setSbank_reacts : (d.setSbank c b x).reacts = d.reacts := rfl
@[simp] theorem Dev.setSbank_out : (d.setSbank c b x).out = d.out := rfl
@[simp] theorem Dev.setSbank_free : (d.setSbank c b x).free = d.free := rfl
end

/-! ### Dev.setQueue -/

section
variable (d : Dev) (q : Nat) (x : Queue)
@[simp] theorem Dev.setQueue_flds : (d.setQueue q x).flds = d.flds := rfl
@[simp] theorem Dev.setQueue_objs : (d.setQueue q x).objs = d.objs := rfl
@[simp] theorem Dev.setQueue_host : (d.setQueue q x).host = d.host := rfl
@[simp] theorem Dev.setQueue_hostBad : (d.setQueue q x).hostBad = d.hostBad := rfl
@[simp] theorem Dev.setQueue_mem : (d.setQueue q x).mem = d.mem := rfl
@[simp] theorem Dev.setQueue_sill : (d.setQueue q x).sill = d.sill := rfl
@[simp] theorem Dev.setQueue_maint : (d.setQueue q x).maint = d.maint := rfl
@[simp] theorem Dev.setQueue_thr : (d.setQueue q x).thr = d.thr := rfl
@[simp] theorem Dev.setQueue_drives : (d.setQueue q x).drives = d.drives := rfl
@[simp] theorem Dev.setQueue_bifold : (d.setQueue q x).bifold = d.bifold := rfl
@[simp] theorem Dev.setQueue_dig : (d.setQueue q x).dig = d.dig := rfl
@[simp] theorem Dev.setQueue_hinge : (d.setQueue q x).hinge = d.hinge := rfl
@[simp] theorem Dev.setQueue_pipes : (d.setQueue q x).pipes = d.pipes := rfl
@[simp] theorem Dev.setQueue_louvre : (d.setQueue q x).louvre = d.louvre := rfl
@[simp] theorem Dev.setQueue_net : (d.setQueue q x).net = d.net := rfl
@[simp] theorem Dev.setQueue_sash : (d.setQueue q x).sash = d.sash := rfl
@[simp] theorem Dev.setQueue_life : (d.setQueue q x).life = d.life := rfl
@[simp] theorem Dev.setQueue_tap : (d.setQueue q x).tap = d.tap := rfl
@[simp] theorem Dev.setQueue_ordering288 : (d.setQueue q x).ordering288 = d.ordering288 := rfl
@[simp] theorem Dev.setQueue_timeBase : (d.setQueue q x).timeBase = d.timeBase := rfl
@[simp] theorem Dev.setQueue_halted : (d.setQueue q x).halted = d.halted := rfl
@[simp] theorem Dev.setQueue_reacts : (d.setQueue q x).reacts = d.reacts := rfl
@[simp] theorem Dev.setQueue_out : (d.setQueue q x).out = d.out := rfl
@[simp] theorem Dev.setQueue_free : (d.setQueue q x).free = d.free := rfl
@[simp] theorem Dev.setQueue_jamb_cmds : (d.setQueue q x).jamb.cmds = d.jamb.cmds := rfl
@[simp] theorem Dev.setQueue_jamb_backlog : (d.setQueue q x).jamb.backlog = d.jamb.backlog := rfl
@[simp] theorem Dev.setQueue_jamb_rot : (d.setQueue q x).jamb.rot = d.jamb.rot := rfl
@[simp] theorem Dev.setQueue_jamb_nextCmd : (d.setQueue q x).jamb.nextCmd = d.jamb.nextCmd := rfl
@[simp] theorem Dev.setQueue_jamb_nextDisp : (d.setQueue q x).jamb.nextDisp = d.jamb.nextDisp := rfl
@[simp] theorem Dev.setQueue_jamb_msix : (d.setQueue q x).jamb.msix = d.jamb.msix := rfl
end

/-! ### Dev.mapCmd -/

section
variable (d : Dev) (id : Nat) (f : Cmd → Cmd)
@[simp] theorem Dev.mapCmd_flds : (d.mapCmd id f).flds = d.flds := rfl
@[simp] theorem Dev.mapCmd_objs : (d.mapCmd id f).objs = d.objs := rfl
@[simp] theorem Dev.mapCmd_host : (d.mapCmd id f).host = d.host := rfl
@[simp] theorem Dev.mapCmd_hostBad : (d.mapCmd id f).hostBad = d.hostBad := rfl
@[simp] theorem Dev.mapCmd_mem : (d.mapCmd id f).mem = d.mem := rfl
@[simp] theorem Dev.mapCmd_sill : (d.mapCmd id f).sill = d.sill := rfl
@[simp] theorem Dev.mapCmd_maint : (d.mapCmd id f).maint = d.maint := rfl
@[simp] theorem Dev.mapCmd_thr : (d.mapCmd id f).thr = d.thr := rfl
@[simp] theorem Dev.mapCmd_drives : (d.mapCmd id f).drives = d.drives := rfl
@[simp] theorem Dev.mapCmd_bifold : (d.mapCmd id f).bifold = d.bifold := rfl
@[simp] theorem Dev.mapCmd_dig : (d.mapCmd id f).dig = d.dig := rfl
@[simp] theorem Dev.mapCmd_hinge : (d.mapCmd id f).hinge = d.hinge := rfl
@[simp] theorem Dev.mapCmd_pipes : (d.mapCmd id f).pipes = d.pipes := rfl
@[simp] theorem Dev.mapCmd_louvre : (d.mapCmd id f).louvre = d.louvre := rfl
@[simp] theorem Dev.mapCmd_net : (d.mapCmd id f).net = d.net := rfl
@[simp] theorem Dev.mapCmd_sash : (d.mapCmd id f).sash = d.sash := rfl
@[simp] theorem Dev.mapCmd_life : (d.mapCmd id f).life = d.life := rfl
@[simp] theorem Dev.mapCmd_tap : (d.mapCmd id f).tap = d.tap := rfl
@[simp] theorem Dev.mapCmd_ordering288 : (d.mapCmd id f).ordering288 = d.ordering288 := rfl
@[simp] theorem Dev.mapCmd_timeBase : (d.mapCmd id f).timeBase = d.timeBase := rfl
@[simp] theorem Dev.mapCmd_halted : (d.mapCmd id f).halted = d.halted := rfl
@[simp] theorem Dev.mapCmd_reacts : (d.mapCmd id f).reacts = d.reacts := rfl
@[simp] theorem Dev.mapCmd_out : (d.mapCmd id f).out = d.out := rfl
@[simp] theorem Dev.mapCmd_free : (d.mapCmd id f).free = d.free := rfl
@[simp] theorem Dev.mapCmd_jamb_queues : (d.mapCmd id f).jamb.queues = d.jamb.queues := rfl
@[simp] theorem Dev.mapCmd_jamb_backlog : (d.mapCmd id f).jamb.backlog = d.jamb.backlog := rfl
@[simp] theorem Dev.mapCmd_jamb_rot : (d.mapCmd id f).jamb.rot = d.jamb.rot := rfl
@[simp] theorem Dev.mapCmd_jamb_nextCmd : (d.mapCmd id f).jamb.nextCmd = d.jamb.nextCmd := rfl
@[simp] theorem Dev.mapCmd_jamb_nextDisp : (d.mapCmd id f).jamb.nextDisp = d.jamb.nextDisp := rfl
@[simp] theorem Dev.mapCmd_jamb_msix : (d.mapCmd id f).jamb.msix = d.jamb.msix := rfl
end

/-! ### Dev.dropCmd -/

section
variable (d : Dev) (id : Nat)
@[simp] theorem Dev.dropCmd_flds : (d.dropCmd id).flds = d.flds := rfl
@[simp] theorem Dev.dropCmd_objs : (d.dropCmd id).objs = d.objs := rfl
@[simp] theorem Dev.dropCmd_host : (d.dropCmd id).host = d.host := rfl
@[simp] theorem Dev.dropCmd_hostBad : (d.dropCmd id).hostBad = d.hostBad := rfl
@[simp] theorem Dev.dropCmd_mem : (d.dropCmd id).mem = d.mem := rfl
@[simp] theorem Dev.dropCmd_sill : (d.dropCmd id).sill = d.sill := rfl
@[simp] theorem Dev.dropCmd_maint : (d.dropCmd id).maint = d.maint := rfl
@[simp] theorem Dev.dropCmd_thr : (d.dropCmd id).thr = d.thr := rfl
@[simp] theorem Dev.dropCmd_drives : (d.dropCmd id).drives = d.drives := rfl
@[simp] theorem Dev.dropCmd_bifold : (d.dropCmd id).bifold = d.bifold := rfl
@[simp] theorem Dev.dropCmd_dig : (d.dropCmd id).dig = d.dig := rfl
@[simp] theorem Dev.dropCmd_hinge : (d.dropCmd id).hinge = d.hinge := rfl
@[simp] theorem Dev.dropCmd_pipes : (d.dropCmd id).pipes = d.pipes := rfl
@[simp] theorem Dev.dropCmd_louvre : (d.dropCmd id).louvre = d.louvre := rfl
@[simp] theorem Dev.dropCmd_net : (d.dropCmd id).net = d.net := rfl
@[simp] theorem Dev.dropCmd_sash : (d.dropCmd id).sash = d.sash := rfl
@[simp] theorem Dev.dropCmd_life : (d.dropCmd id).life = d.life := rfl
@[simp] theorem Dev.dropCmd_tap : (d.dropCmd id).tap = d.tap := rfl
@[simp] theorem Dev.dropCmd_ordering288 : (d.dropCmd id).ordering288 = d.ordering288 := rfl
@[simp] theorem Dev.dropCmd_timeBase : (d.dropCmd id).timeBase = d.timeBase := rfl
@[simp] theorem Dev.dropCmd_halted : (d.dropCmd id).halted = d.halted := rfl
@[simp] theorem Dev.dropCmd_reacts : (d.dropCmd id).reacts = d.reacts := rfl
@[simp] theorem Dev.dropCmd_out : (d.dropCmd id).out = d.out := rfl
@[simp] theorem Dev.dropCmd_free : (d.dropCmd id).free = d.free := rfl
@[simp] theorem Dev.dropCmd_jamb_queues : (d.dropCmd id).jamb.queues = d.jamb.queues := rfl
@[simp] theorem Dev.dropCmd_jamb_rot : (d.dropCmd id).jamb.rot = d.jamb.rot := rfl
@[simp] theorem Dev.dropCmd_jamb_nextCmd : (d.dropCmd id).jamb.nextCmd = d.jamb.nextCmd := rfl
@[simp] theorem Dev.dropCmd_jamb_nextDisp : (d.dropCmd id).jamb.nextDisp = d.jamb.nextDisp := rfl
@[simp] theorem Dev.dropCmd_jamb_msix : (d.dropCmd id).jamb.msix = d.jamb.msix := rfl
end

/-! ### Dev.addCmd -/

section
variable (d : Dev) (c : Cmd)
@[simp] theorem Dev.addCmd_flds : (d.addCmd c).flds = d.flds := rfl
@[simp] theorem Dev.addCmd_objs : (d.addCmd c).objs = d.objs := rfl
@[simp] theorem Dev.addCmd_host : (d.addCmd c).host = d.host := rfl
@[simp] theorem Dev.addCmd_hostBad : (d.addCmd c).hostBad = d.hostBad := rfl
@[simp] theorem Dev.addCmd_mem : (d.addCmd c).mem = d.mem := rfl
@[simp] theorem Dev.addCmd_sill : (d.addCmd c).sill = d.sill := rfl
@[simp] theorem Dev.addCmd_maint : (d.addCmd c).maint = d.maint := rfl
@[simp] theorem Dev.addCmd_thr : (d.addCmd c).thr = d.thr := rfl
@[simp] theorem Dev.addCmd_drives : (d.addCmd c).drives = d.drives := rfl
@[simp] theorem Dev.addCmd_bifold : (d.addCmd c).bifold = d.bifold := rfl
@[simp] theorem Dev.addCmd_dig : (d.addCmd c).dig = d.dig := rfl
@[simp] theorem Dev.addCmd_hinge : (d.addCmd c).hinge = d.hinge := rfl
@[simp] theorem Dev.addCmd_pipes : (d.addCmd c).pipes = d.pipes := rfl
@[simp] theorem Dev.addCmd_louvre : (d.addCmd c).louvre = d.louvre := rfl
@[simp] theorem Dev.addCmd_net : (d.addCmd c).net = d.net := rfl
@[simp] theorem Dev.addCmd_sash : (d.addCmd c).sash = d.sash := rfl
@[simp] theorem Dev.addCmd_life : (d.addCmd c).life = d.life := rfl
@[simp] theorem Dev.addCmd_tap : (d.addCmd c).tap = d.tap := rfl
@[simp] theorem Dev.addCmd_ordering288 : (d.addCmd c).ordering288 = d.ordering288 := rfl
@[simp] theorem Dev.addCmd_timeBase : (d.addCmd c).timeBase = d.timeBase := rfl
@[simp] theorem Dev.addCmd_halted : (d.addCmd c).halted = d.halted := rfl
@[simp] theorem Dev.addCmd_reacts : (d.addCmd c).reacts = d.reacts := rfl
@[simp] theorem Dev.addCmd_out : (d.addCmd c).out = d.out := rfl
@[simp] theorem Dev.addCmd_free : (d.addCmd c).free = d.free := rfl
@[simp] theorem Dev.addCmd_jamb_queues : (d.addCmd c).jamb.queues = d.jamb.queues := rfl
@[simp] theorem Dev.addCmd_jamb_backlog : (d.addCmd c).jamb.backlog = d.jamb.backlog := rfl
@[simp] theorem Dev.addCmd_jamb_rot : (d.addCmd c).jamb.rot = d.jamb.rot := rfl
@[simp] theorem Dev.addCmd_jamb_nextDisp : (d.addCmd c).jamb.nextDisp = d.jamb.nextDisp := rfl
@[simp] theorem Dev.addCmd_jamb_msix : (d.addCmd c).jamb.msix = d.jamb.msix := rfl
end

/-! ### Dev.setBcas -/

section
variable (d : Dev) (c : Nat) (x : BCas)
@[simp] theorem Dev.setBcas_flds : (d.setBcas c x).flds = d.flds := rfl
@[simp] theorem Dev.setBcas_objs : (d.setBcas c x).objs = d.objs := rfl
@[simp] theorem Dev.setBcas_host : (d.setBcas c x).host = d.host := rfl
@[simp] theorem Dev.setBcas_hostBad : (d.setBcas c x).hostBad = d.hostBad := rfl
@[simp] theorem Dev.setBcas_jamb : (d.setBcas c x).jamb = d.jamb := rfl
@[simp] theorem Dev.setBcas_mem : (d.setBcas c x).mem = d.mem := rfl
@[simp] theorem Dev.setBcas_sill : (d.setBcas c x).sill = d.sill := rfl
@[simp] theorem Dev.setBcas_maint : (d.setBcas c x).maint = d.maint := rfl
@[simp] theorem Dev.setBcas_thr : (d.setBcas c x).thr = d.thr := rfl
@[simp] theorem Dev.setBcas_drives : (d.setBcas c x).drives = d.drives := rfl
@[simp] theorem Dev.setBcas_dig : (d.setBcas c x).dig = d.dig := rfl
@[simp] theorem Dev.setBcas_hinge : (d.setBcas c x).hinge = d.hinge := rfl
@[simp] theorem Dev.setBcas_pipes : (d.setBcas c x).pipes = d.pipes := rfl
@[simp] theorem Dev.setBcas_louvre : (d.setBcas c x).louvre = d.louvre := rfl
@[simp] theorem Dev.setBcas_net : (d.setBcas c x).net = d.net := rfl
@[simp] theorem Dev.setBcas_sash : (d.setBcas c x).sash = d.sash := rfl
@[simp] theorem Dev.setBcas_life : (d.setBcas c x).life = d.life := rfl
@[simp] theorem Dev.setBcas_tap : (d.setBcas c x).tap = d.tap := rfl
@[simp] theorem Dev.setBcas_ordering288 : (d.setBcas c x).ordering288 = d.ordering288 := rfl
@[simp] theorem Dev.setBcas_timeBase : (d.setBcas c x).timeBase = d.timeBase := rfl
@[simp] theorem Dev.setBcas_halted : (d.setBcas c x).halted = d.halted := rfl
@[simp] theorem Dev.setBcas_reacts : (d.setBcas c x).reacts = d.reacts := rfl
@[simp] theorem Dev.setBcas_out : (d.setBcas c x).out = d.out := rfl
@[simp] theorem Dev.setBcas_free : (d.setBcas c x).free = d.free := rfl
@[simp] theorem Dev.setBcas_bifold_jobs : (d.setBcas c x).bifold.jobs = d.bifold.jobs := rfl
@[simp] theorem Dev.setBcas_bifold_waiting : (d.setBcas c x).bifold.waiting = d.bifold.waiting := rfl
end

/-! ### Dev.mapJob -/

section
variable (d : Dev) (o : BOwner) (f : Job → Job)
@[simp] theorem Dev.mapJob_flds : (d.mapJob o f).flds = d.flds := rfl
@[simp] theorem Dev.mapJob_objs : (d.mapJob o f).objs = d.objs := rfl
@[simp] theorem Dev.mapJob_host : (d.mapJob o f).host = d.host := rfl
@[simp] theorem Dev.mapJob_hostBad : (d.mapJob o f).hostBad = d.hostBad := rfl
@[simp] theorem Dev.mapJob_jamb : (d.mapJob o f).jamb = d.jamb := rfl
@[simp] theorem Dev.mapJob_mem : (d.mapJob o f).mem = d.mem := rfl
@[simp] theorem Dev.mapJob_sill : (d.mapJob o f).sill = d.sill := rfl
@[simp] theorem Dev.mapJob_maint : (d.mapJob o f).maint = d.maint := rfl
@[simp] theorem Dev.mapJob_thr : (d.mapJob o f).thr = d.thr := rfl
@[simp] theorem Dev.mapJob_drives : (d.mapJob o f).drives = d.drives := rfl
@[simp] theorem Dev.mapJob_dig : (d.mapJob o f).dig = d.dig := rfl
@[simp] theorem Dev.mapJob_hinge : (d.mapJob o f).hinge = d.hinge := rfl
@[simp] theorem Dev.mapJob_pipes : (d.mapJob o f).pipes = d.pipes := rfl
@[simp] theorem Dev.mapJob_louvre : (d.mapJob o f).louvre = d.louvre := rfl
@[simp] theorem Dev.mapJob_net : (d.mapJob o f).net = d.net := rfl
@[simp] theorem Dev.mapJob_sash : (d.mapJob o f).sash = d.sash := rfl
@[simp] theorem Dev.mapJob_life : (d.mapJob o f).life = d.life := rfl
@[simp] theorem Dev.mapJob_tap : (d.mapJob o f).tap = d.tap := rfl
@[simp] theorem Dev.mapJob_ordering288 : (d.mapJob o f).ordering288 = d.ordering288 := rfl
@[simp] theorem Dev.mapJob_timeBase : (d.mapJob o f).timeBase = d.timeBase := rfl
@[simp] theorem Dev.mapJob_halted : (d.mapJob o f).halted = d.halted := rfl
@[simp] theorem Dev.mapJob_reacts : (d.mapJob o f).reacts = d.reacts := rfl
@[simp] theorem Dev.mapJob_out : (d.mapJob o f).out = d.out := rfl
@[simp] theorem Dev.mapJob_free : (d.mapJob o f).free = d.free := rfl
@[simp] theorem Dev.mapJob_bifold_cas : (d.mapJob o f).bifold.cas = d.bifold.cas := rfl
@[simp] theorem Dev.mapJob_bifold_waiting : (d.mapJob o f).bifold.waiting = d.bifold.waiting := rfl
end

/-! ### Dev.setLvBank -/

section
variable (d : Dev) (c b : Nat) (x : LvBank)
@[simp] theorem Dev.setLvBank_flds : (d.setLvBank c b x).flds = d.flds := rfl
@[simp] theorem Dev.setLvBank_objs : (d.setLvBank c b x).objs = d.objs := rfl
@[simp] theorem Dev.setLvBank_host : (d.setLvBank c b x).host = d.host := rfl
@[simp] theorem Dev.setLvBank_hostBad : (d.setLvBank c b x).hostBad = d.hostBad := rfl
@[simp] theorem Dev.setLvBank_jamb : (d.setLvBank c b x).jamb = d.jamb := rfl
@[simp] theorem Dev.setLvBank_mem : (d.setLvBank c b x).mem = d.mem := rfl
@[simp] theorem Dev.setLvBank_sill : (d.setLvBank c b x).sill = d.sill := rfl
@[simp] theorem Dev.setLvBank_maint : (d.setLvBank c b x).maint = d.maint := rfl
@[simp] theorem Dev.setLvBank_thr : (d.setLvBank c b x).thr = d.thr := rfl
@[simp] theorem Dev.setLvBank_drives : (d.setLvBank c b x).drives = d.drives := rfl
@[simp] theorem Dev.setLvBank_bifold : (d.setLvBank c b x).bifold = d.bifold := rfl
@[simp] theorem Dev.setLvBank_dig : (d.setLvBank c b x).dig = d.dig := rfl
@[simp] theorem Dev.setLvBank_hinge : (d.setLvBank c b x).hinge = d.hinge := rfl
@[simp] theorem Dev.setLvBank_pipes : (d.setLvBank c b x).pipes = d.pipes := rfl
@[simp] theorem Dev.setLvBank_net : (d.setLvBank c b x).net = d.net := rfl
@[simp] theorem Dev.setLvBank_sash : (d.setLvBank c b x).sash = d.sash := rfl
@[simp] theorem Dev.setLvBank_life : (d.setLvBank c b x).life = d.life := rfl
@[simp] theorem Dev.setLvBank_tap : (d.setLvBank c b x).tap = d.tap := rfl
@[simp] theorem Dev.setLvBank_ordering288 : (d.setLvBank c b x).ordering288 = d.ordering288 := rfl
@[simp] theorem Dev.setLvBank_timeBase : (d.setLvBank c b x).timeBase = d.timeBase := rfl
@[simp] theorem Dev.setLvBank_halted : (d.setLvBank c b x).halted = d.halted := rfl
@[simp] theorem Dev.setLvBank_reacts : (d.setLvBank c b x).reacts = d.reacts := rfl
@[simp] theorem Dev.setLvBank_out : (d.setLvBank c b x).out = d.out := rfl
@[simp] theorem Dev.setLvBank_free : (d.setLvBank c b x).free = d.free := rfl
@[simp] theorem Dev.setLvBank_louvre_tables : (d.setLvBank c b x).louvre.tables = d.louvre.tables := rfl
end

/-! ### Dev.setLvTable -/

section
variable (d : Dev) (t : Nat) (x : Option LvTable)
@[simp] theorem Dev.setLvTable_flds : (d.setLvTable t x).flds = d.flds := rfl
@[simp] theorem Dev.setLvTable_objs : (d.setLvTable t x).objs = d.objs := rfl
@[simp] theorem Dev.setLvTable_host : (d.setLvTable t x).host = d.host := rfl
@[simp] theorem Dev.setLvTable_hostBad : (d.setLvTable t x).hostBad = d.hostBad := rfl
@[simp] theorem Dev.setLvTable_jamb : (d.setLvTable t x).jamb = d.jamb := rfl
@[simp] theorem Dev.setLvTable_mem : (d.setLvTable t x).mem = d.mem := rfl
@[simp] theorem Dev.setLvTable_sill : (d.setLvTable t x).sill = d.sill := rfl
@[simp] theorem Dev.setLvTable_maint : (d.setLvTable t x).maint = d.maint := rfl
@[simp] theorem Dev.setLvTable_thr : (d.setLvTable t x).thr = d.thr := rfl
@[simp] theorem Dev.setLvTable_drives : (d.setLvTable t x).drives = d.drives := rfl
@[simp] theorem Dev.setLvTable_bifold : (d.setLvTable t x).bifold = d.bifold := rfl
@[simp] theorem Dev.setLvTable_dig : (d.setLvTable t x).dig = d.dig := rfl
@[simp] theorem Dev.setLvTable_hinge : (d.setLvTable t x).hinge = d.hinge := rfl
@[simp] theorem Dev.setLvTable_pipes : (d.setLvTable t x).pipes = d.pipes := rfl
@[simp] theorem Dev.setLvTable_net : (d.setLvTable t x).net = d.net := rfl
@[simp] theorem Dev.setLvTable_sash : (d.setLvTable t x).sash = d.sash := rfl
@[simp] theorem Dev.setLvTable_life : (d.setLvTable t x).life = d.life := rfl
@[simp] theorem Dev.setLvTable_tap : (d.setLvTable t x).tap = d.tap := rfl
@[simp] theorem Dev.setLvTable_ordering288 : (d.setLvTable t x).ordering288 = d.ordering288 := rfl
@[simp] theorem Dev.setLvTable_timeBase : (d.setLvTable t x).timeBase = d.timeBase := rfl
@[simp] theorem Dev.setLvTable_halted : (d.setLvTable t x).halted = d.halted := rfl
@[simp] theorem Dev.setLvTable_reacts : (d.setLvTable t x).reacts = d.reacts := rfl
@[simp] theorem Dev.setLvTable_out : (d.setLvTable t x).out = d.out := rfl
@[simp] theorem Dev.setLvTable_free : (d.setLvTable t x).free = d.free := rfl
@[simp] theorem Dev.setLvTable_louvre_banks : (d.setLvTable t x).louvre.banks = d.louvre.banks := rfl
end

/-! ### Dev.setHchan -/

section
variable (d : Dev) (n : Nat) (x : HChan)
@[simp] theorem Dev.setHchan_flds : (d.setHchan n x).flds = d.flds := rfl
@[simp] theorem Dev.setHchan_objs : (d.setHchan n x).objs = d.objs := rfl
@[simp] theorem Dev.setHchan_host : (d.setHchan n x).host = d.host := rfl
@[simp] theorem Dev.setHchan_hostBad : (d.setHchan n x).hostBad = d.hostBad := rfl
@[simp] theorem Dev.setHchan_jamb : (d.setHchan n x).jamb = d.jamb := rfl
@[simp] theorem Dev.setHchan_mem : (d.setHchan n x).mem = d.mem := rfl
@[simp] theorem Dev.setHchan_sill : (d.setHchan n x).sill = d.sill := rfl
@[simp] theorem Dev.setHchan_maint : (d.setHchan n x).maint = d.maint := rfl
@[simp] theorem Dev.setHchan_thr : (d.setHchan n x).thr = d.thr := rfl
@[simp] theorem Dev.setHchan_drives : (d.setHchan n x).drives = d.drives := rfl
@[simp] theorem Dev.setHchan_bifold : (d.setHchan n x).bifold = d.bifold := rfl
@[simp] theorem Dev.setHchan_dig : (d.setHchan n x).dig = d.dig := rfl
@[simp] theorem Dev.setHchan_pipes : (d.setHchan n x).pipes = d.pipes := rfl
@[simp] theorem Dev.setHchan_louvre : (d.setHchan n x).louvre = d.louvre := rfl
@[simp] theorem Dev.setHchan_net : (d.setHchan n x).net = d.net := rfl
@[simp] theorem Dev.setHchan_sash : (d.setHchan n x).sash = d.sash := rfl
@[simp] theorem Dev.setHchan_life : (d.setHchan n x).life = d.life := rfl
@[simp] theorem Dev.setHchan_tap : (d.setHchan n x).tap = d.tap := rfl
@[simp] theorem Dev.setHchan_ordering288 : (d.setHchan n x).ordering288 = d.ordering288 := rfl
@[simp] theorem Dev.setHchan_timeBase : (d.setHchan n x).timeBase = d.timeBase := rfl
@[simp] theorem Dev.setHchan_halted : (d.setHchan n x).halted = d.halted := rfl
@[simp] theorem Dev.setHchan_reacts : (d.setHchan n x).reacts = d.reacts := rfl
@[simp] theorem Dev.setHchan_out : (d.setHchan n x).out = d.out := rfl
@[simp] theorem Dev.setHchan_free : (d.setHchan n x).free = d.free := rfl
@[simp] theorem Dev.setHchan_hinge_halt : (d.setHchan n x).hinge.halt = d.hinge.halt := rfl
@[simp] theorem Dev.setHchan_hinge_errAddr : (d.setHchan n x).hinge.errAddr = d.hinge.errAddr := rfl
@[simp] theorem Dev.setHchan_hinge_errKind : (d.setHchan n x).hinge.errKind = d.hinge.errKind := rfl
@[simp] theorem Dev.setHchan_hinge_errPort : (d.setHchan n x).hinge.errPort = d.hinge.errPort := rfl
@[simp] theorem Dev.setHchan_hinge_errSlot : (d.setHchan n x).hinge.errSlot = d.hinge.errSlot := rfl
@[simp] theorem Dev.setHchan_hinge_errMore : (d.setHchan n x).hinge.errMore = d.hinge.errMore := rfl
end

/-! ### Dev.setDrive -/

section
variable (d : Dev) (s : Nat) (x : Drive)
@[simp] theorem Dev.setDrive_flds : (d.setDrive s x).flds = d.flds := rfl
@[simp] theorem Dev.setDrive_objs : (d.setDrive s x).objs = d.objs := rfl
@[simp] theorem Dev.setDrive_host : (d.setDrive s x).host = d.host := rfl
@[simp] theorem Dev.setDrive_hostBad : (d.setDrive s x).hostBad = d.hostBad := rfl
@[simp] theorem Dev.setDrive_jamb : (d.setDrive s x).jamb = d.jamb := rfl
@[simp] theorem Dev.setDrive_mem : (d.setDrive s x).mem = d.mem := rfl
@[simp] theorem Dev.setDrive_sill : (d.setDrive s x).sill = d.sill := rfl
@[simp] theorem Dev.setDrive_maint : (d.setDrive s x).maint = d.maint := rfl
@[simp] theorem Dev.setDrive_thr : (d.setDrive s x).thr = d.thr := rfl
@[simp] theorem Dev.setDrive_bifold : (d.setDrive s x).bifold = d.bifold := rfl
@[simp] theorem Dev.setDrive_dig : (d.setDrive s x).dig = d.dig := rfl
@[simp] theorem Dev.setDrive_hinge : (d.setDrive s x).hinge = d.hinge := rfl
@[simp] theorem Dev.setDrive_pipes : (d.setDrive s x).pipes = d.pipes := rfl
@[simp] theorem Dev.setDrive_louvre : (d.setDrive s x).louvre = d.louvre := rfl
@[simp] theorem Dev.setDrive_net : (d.setDrive s x).net = d.net := rfl
@[simp] theorem Dev.setDrive_sash : (d.setDrive s x).sash = d.sash := rfl
@[simp] theorem Dev.setDrive_life : (d.setDrive s x).life = d.life := rfl
@[simp] theorem Dev.setDrive_tap : (d.setDrive s x).tap = d.tap := rfl
@[simp] theorem Dev.setDrive_ordering288 : (d.setDrive s x).ordering288 = d.ordering288 := rfl
@[simp] theorem Dev.setDrive_timeBase : (d.setDrive s x).timeBase = d.timeBase := rfl
@[simp] theorem Dev.setDrive_halted : (d.setDrive s x).halted = d.halted := rfl
@[simp] theorem Dev.setDrive_reacts : (d.setDrive s x).reacts = d.reacts := rfl
@[simp] theorem Dev.setDrive_out : (d.setDrive s x).out = d.out := rfl
@[simp] theorem Dev.setDrive_free : (d.setDrive s x).free = d.free := rfl
end

/-! ### Dev.mapStores -/

section
variable (d : Dev) (p : Stg → Bool) (f : Stg → Stg)
@[simp] theorem Dev.mapStores_flds : (d.mapStores p f).flds = d.flds := rfl
@[simp] theorem Dev.mapStores_objs : (d.mapStores p f).objs = d.objs := rfl
@[simp] theorem Dev.mapStores_host : (d.mapStores p f).host = d.host := rfl
@[simp] theorem Dev.mapStores_hostBad : (d.mapStores p f).hostBad = d.hostBad := rfl
@[simp] theorem Dev.mapStores_jamb : (d.mapStores p f).jamb = d.jamb := rfl
@[simp] theorem Dev.mapStores_mem : (d.mapStores p f).mem = d.mem := rfl
@[simp] theorem Dev.mapStores_sill : (d.mapStores p f).sill = d.sill := rfl
@[simp] theorem Dev.mapStores_maint : (d.mapStores p f).maint = d.maint := rfl
@[simp] theorem Dev.mapStores_drives : (d.mapStores p f).drives = d.drives := rfl
@[simp] theorem Dev.mapStores_bifold : (d.mapStores p f).bifold = d.bifold := rfl
@[simp] theorem Dev.mapStores_dig : (d.mapStores p f).dig = d.dig := rfl
@[simp] theorem Dev.mapStores_hinge : (d.mapStores p f).hinge = d.hinge := rfl
@[simp] theorem Dev.mapStores_pipes : (d.mapStores p f).pipes = d.pipes := rfl
@[simp] theorem Dev.mapStores_louvre : (d.mapStores p f).louvre = d.louvre := rfl
@[simp] theorem Dev.mapStores_net : (d.mapStores p f).net = d.net := rfl
@[simp] theorem Dev.mapStores_sash : (d.mapStores p f).sash = d.sash := rfl
@[simp] theorem Dev.mapStores_life : (d.mapStores p f).life = d.life := rfl
@[simp] theorem Dev.mapStores_tap : (d.mapStores p f).tap = d.tap := rfl
@[simp] theorem Dev.mapStores_ordering288 : (d.mapStores p f).ordering288 = d.ordering288 := rfl
@[simp] theorem Dev.mapStores_timeBase : (d.mapStores p f).timeBase = d.timeBase := rfl
@[simp] theorem Dev.mapStores_halted : (d.mapStores p f).halted = d.halted := rfl
@[simp] theorem Dev.mapStores_reacts : (d.mapStores p f).reacts = d.reacts := rfl
@[simp] theorem Dev.mapStores_out : (d.mapStores p f).out = d.out := rfl
@[simp] theorem Dev.mapStores_free : (d.mapStores p f).free = d.free := rfl
@[simp] theorem Dev.mapStores_thr_units : (d.mapStores p f).thr.units = d.thr.units := rfl
@[simp] theorem Dev.mapStores_thr_nextSeq : (d.mapStores p f).thr.nextSeq = d.thr.nextSeq := rfl
@[simp] theorem Dev.mapStores_thr_pfSafe : (d.mapStores p f).thr.pfSafe = d.thr.pfSafe := rfl
@[simp] theorem Dev.mapStores_thr_haltRec : (d.mapStores p f).thr.haltRec = d.thr.haltRec := rfl
@[simp] theorem Dev.mapStores_thr_syncs : (d.mapStores p f).thr.syncs = d.thr.syncs := rfl
end

/-! ### Dev.setUnit -/

section
variable (d : Dev) (u : Nat) (x : TUnit)
@[simp] theorem Dev.setUnit_flds : (d.setUnit u x).flds = d.flds := rfl
@[simp] theorem Dev.setUnit_objs : (d.setUnit u x).objs = d.objs := rfl
@[simp] theorem Dev.setUnit_host : (d.setUnit u x).host = d.host := rfl
@[simp] theorem Dev.setUnit_hostBad : (d.setUnit u x).hostBad = d.hostBad := rfl
@[simp] theorem Dev.setUnit_jamb : (d.setUnit u x).jamb = d.jamb := rfl
@[simp] theorem Dev.setUnit_mem : (d.setUnit u x).mem = d.mem := rfl
@[simp] theorem Dev.setUnit_sill : (d.setUnit u x).sill = d.sill := rfl
@[simp] theorem Dev.setUnit_maint : (d.setUnit u x).maint = d.maint := rfl
@[simp] theorem Dev.setUnit_drives : (d.setUnit u x).drives = d.drives := rfl
@[simp] theorem Dev.setUnit_bifold : (d.setUnit u x).bifold = d.bifold := rfl
@[simp] theorem Dev.setUnit_dig : (d.setUnit u x).dig = d.dig := rfl
@[simp] theorem Dev.setUnit_hinge : (d.setUnit u x).hinge = d.hinge := rfl
@[simp] theorem Dev.setUnit_pipes : (d.setUnit u x).pipes = d.pipes := rfl
@[simp] theorem Dev.setUnit_louvre : (d.setUnit u x).louvre = d.louvre := rfl
@[simp] theorem Dev.setUnit_net : (d.setUnit u x).net = d.net := rfl
@[simp] theorem Dev.setUnit_sash : (d.setUnit u x).sash = d.sash := rfl
@[simp] theorem Dev.setUnit_life : (d.setUnit u x).life = d.life := rfl
@[simp] theorem Dev.setUnit_tap : (d.setUnit u x).tap = d.tap := rfl
@[simp] theorem Dev.setUnit_ordering288 : (d.setUnit u x).ordering288 = d.ordering288 := rfl
@[simp] theorem Dev.setUnit_timeBase : (d.setUnit u x).timeBase = d.timeBase := rfl
@[simp] theorem Dev.setUnit_halted : (d.setUnit u x).halted = d.halted := rfl
@[simp] theorem Dev.setUnit_reacts : (d.setUnit u x).reacts = d.reacts := rfl
@[simp] theorem Dev.setUnit_out : (d.setUnit u x).out = d.out := rfl
@[simp] theorem Dev.setUnit_free : (d.setUnit u x).free = d.free := rfl
@[simp] theorem Dev.setUnit_thr_stores : (d.setUnit u x).thr.stores = d.thr.stores := rfl
@[simp] theorem Dev.setUnit_thr_nextSeq : (d.setUnit u x).thr.nextSeq = d.thr.nextSeq := rfl
@[simp] theorem Dev.setUnit_thr_pfSafe : (d.setUnit u x).thr.pfSafe = d.thr.pfSafe := rfl
@[simp] theorem Dev.setUnit_thr_haltRec : (d.setUnit u x).thr.haltRec = d.thr.haltRec := rfl
@[simp] theorem Dev.setUnit_thr_syncs : (d.setUnit u x).thr.syncs = d.thr.syncs := rfl
end

/-! ### Dev.dropSync -/

section
variable (d : Dev) (id : Nat)
@[simp] theorem Dev.dropSync_flds : (d.dropSync id).flds = d.flds := rfl
@[simp] theorem Dev.dropSync_objs : (d.dropSync id).objs = d.objs := rfl
@[simp] theorem Dev.dropSync_host : (d.dropSync id).host = d.host := rfl
@[simp] theorem Dev.dropSync_hostBad : (d.dropSync id).hostBad = d.hostBad := rfl
@[simp] theorem Dev.dropSync_jamb : (d.dropSync id).jamb = d.jamb := rfl
@[simp] theorem Dev.dropSync_mem : (d.dropSync id).mem = d.mem := rfl
@[simp] theorem Dev.dropSync_sill : (d.dropSync id).sill = d.sill := rfl
@[simp] theorem Dev.dropSync_maint : (d.dropSync id).maint = d.maint := rfl
@[simp] theorem Dev.dropSync_drives : (d.dropSync id).drives = d.drives := rfl
@[simp] theorem Dev.dropSync_bifold : (d.dropSync id).bifold = d.bifold := rfl
@[simp] theorem Dev.dropSync_dig : (d.dropSync id).dig = d.dig := rfl
@[simp] theorem Dev.dropSync_hinge : (d.dropSync id).hinge = d.hinge := rfl
@[simp] theorem Dev.dropSync_pipes : (d.dropSync id).pipes = d.pipes := rfl
@[simp] theorem Dev.dropSync_louvre : (d.dropSync id).louvre = d.louvre := rfl
@[simp] theorem Dev.dropSync_net : (d.dropSync id).net = d.net := rfl
@[simp] theorem Dev.dropSync_sash : (d.dropSync id).sash = d.sash := rfl
@[simp] theorem Dev.dropSync_life : (d.dropSync id).life = d.life := rfl
@[simp] theorem Dev.dropSync_tap : (d.dropSync id).tap = d.tap := rfl
@[simp] theorem Dev.dropSync_ordering288 : (d.dropSync id).ordering288 = d.ordering288 := rfl
@[simp] theorem Dev.dropSync_timeBase : (d.dropSync id).timeBase = d.timeBase := rfl
@[simp] theorem Dev.dropSync_halted : (d.dropSync id).halted = d.halted := rfl
@[simp] theorem Dev.dropSync_reacts : (d.dropSync id).reacts = d.reacts := rfl
@[simp] theorem Dev.dropSync_out : (d.dropSync id).out = d.out := rfl
@[simp] theorem Dev.dropSync_free : (d.dropSync id).free = d.free := rfl
@[simp] theorem Dev.dropSync_thr_units : (d.dropSync id).thr.units = d.thr.units := rfl
@[simp] theorem Dev.dropSync_thr_stores : (d.dropSync id).thr.stores = d.thr.stores := rfl
@[simp] theorem Dev.dropSync_thr_nextSeq : (d.dropSync id).thr.nextSeq = d.thr.nextSeq := rfl
@[simp] theorem Dev.dropSync_thr_pfSafe : (d.dropSync id).thr.pfSafe = d.thr.pfSafe := rfl
@[simp] theorem Dev.dropSync_thr_haltRec : (d.dropSync id).thr.haltRec = d.thr.haltRec := rfl
end

/-! ### Dev.setPeer -/

section
variable (d : Dev) (n : Nat) (x : Peer)
@[simp] theorem Dev.setPeer_flds : (d.setPeer n x).flds = d.flds := rfl
@[simp] theorem Dev.setPeer_objs : (d.setPeer n x).objs = d.objs := rfl
@[simp] theorem Dev.setPeer_host : (d.setPeer n x).host = d.host := rfl
@[simp] theorem Dev.setPeer_hostBad : (d.setPeer n x).hostBad = d.hostBad := rfl
@[simp] theorem Dev.setPeer_jamb : (d.setPeer n x).jamb = d.jamb := rfl
@[simp] theorem Dev.setPeer_mem : (d.setPeer n x).mem = d.mem := rfl
@[simp] theorem Dev.setPeer_sill : (d.setPeer n x).sill = d.sill := rfl
@[simp] theorem Dev.setPeer_maint : (d.setPeer n x).maint = d.maint := rfl
@[simp] theorem Dev.setPeer_thr : (d.setPeer n x).thr = d.thr := rfl
@[simp] theorem Dev.setPeer_drives : (d.setPeer n x).drives = d.drives := rfl
@[simp] theorem Dev.setPeer_bifold : (d.setPeer n x).bifold = d.bifold := rfl
@[simp] theorem Dev.setPeer_dig : (d.setPeer n x).dig = d.dig := rfl
@[simp] theorem Dev.setPeer_hinge : (d.setPeer n x).hinge = d.hinge := rfl
@[simp] theorem Dev.setPeer_pipes : (d.setPeer n x).pipes = d.pipes := rfl
@[simp] theorem Dev.setPeer_louvre : (d.setPeer n x).louvre = d.louvre := rfl
@[simp] theorem Dev.setPeer_sash : (d.setPeer n x).sash = d.sash := rfl
@[simp] theorem Dev.setPeer_life : (d.setPeer n x).life = d.life := rfl
@[simp] theorem Dev.setPeer_tap : (d.setPeer n x).tap = d.tap := rfl
@[simp] theorem Dev.setPeer_ordering288 : (d.setPeer n x).ordering288 = d.ordering288 := rfl
@[simp] theorem Dev.setPeer_timeBase : (d.setPeer n x).timeBase = d.timeBase := rfl
@[simp] theorem Dev.setPeer_halted : (d.setPeer n x).halted = d.halted := rfl
@[simp] theorem Dev.setPeer_reacts : (d.setPeer n x).reacts = d.reacts := rfl
@[simp] theorem Dev.setPeer_out : (d.setPeer n x).out = d.out := rfl
@[simp] theorem Dev.setPeer_free : (d.setPeer n x).free = d.free := rfl
@[simp] theorem Dev.setPeer_net_epoch : (d.setPeer n x).net.epoch = d.net.epoch := rfl
@[simp] theorem Dev.setPeer_net_members : (d.setPeer n x).net.members = d.net.members := rfl
@[simp] theorem Dev.setPeer_net_links : (d.setPeer n x).net.links = d.net.links := rfl
end

/-! ### Dev.mapTx -/

section
variable (d : Dev) (ctx n : Nat) (f : TxFlow → TxFlow)
@[simp] theorem Dev.mapTx_flds : (d.mapTx ctx n f).flds = d.flds := rfl
@[simp] theorem Dev.mapTx_objs : (d.mapTx ctx n f).objs = d.objs := rfl
@[simp] theorem Dev.mapTx_host : (d.mapTx ctx n f).host = d.host := rfl
@[simp] theorem Dev.mapTx_hostBad : (d.mapTx ctx n f).hostBad = d.hostBad := rfl
@[simp] theorem Dev.mapTx_jamb : (d.mapTx ctx n f).jamb = d.jamb := rfl
@[simp] theorem Dev.mapTx_mem : (d.mapTx ctx n f).mem = d.mem := rfl
@[simp] theorem Dev.mapTx_sill : (d.mapTx ctx n f).sill = d.sill := rfl
@[simp] theorem Dev.mapTx_maint : (d.mapTx ctx n f).maint = d.maint := rfl
@[simp] theorem Dev.mapTx_thr : (d.mapTx ctx n f).thr = d.thr := rfl
@[simp] theorem Dev.mapTx_drives : (d.mapTx ctx n f).drives = d.drives := rfl
@[simp] theorem Dev.mapTx_bifold : (d.mapTx ctx n f).bifold = d.bifold := rfl
@[simp] theorem Dev.mapTx_dig : (d.mapTx ctx n f).dig = d.dig := rfl
@[simp] theorem Dev.mapTx_hinge : (d.mapTx ctx n f).hinge = d.hinge := rfl
@[simp] theorem Dev.mapTx_pipes : (d.mapTx ctx n f).pipes = d.pipes := rfl
@[simp] theorem Dev.mapTx_louvre : (d.mapTx ctx n f).louvre = d.louvre := rfl
@[simp] theorem Dev.mapTx_sash : (d.mapTx ctx n f).sash = d.sash := rfl
@[simp] theorem Dev.mapTx_life : (d.mapTx ctx n f).life = d.life := rfl
@[simp] theorem Dev.mapTx_tap : (d.mapTx ctx n f).tap = d.tap := rfl
@[simp] theorem Dev.mapTx_ordering288 : (d.mapTx ctx n f).ordering288 = d.ordering288 := rfl
@[simp] theorem Dev.mapTx_timeBase : (d.mapTx ctx n f).timeBase = d.timeBase := rfl
@[simp] theorem Dev.mapTx_halted : (d.mapTx ctx n f).halted = d.halted := rfl
@[simp] theorem Dev.mapTx_reacts : (d.mapTx ctx n f).reacts = d.reacts := rfl
@[simp] theorem Dev.mapTx_out : (d.mapTx ctx n f).out = d.out := rfl
@[simp] theorem Dev.mapTx_free : (d.mapTx ctx n f).free = d.free := rfl
@[simp] theorem Dev.mapTx_net_epoch : (d.mapTx ctx n f).net.epoch = d.net.epoch := rfl
@[simp] theorem Dev.mapTx_net_members : (d.mapTx ctx n f).net.members = d.net.members := rfl
@[simp] theorem Dev.mapTx_net_peers : (d.mapTx ctx n f).net.peers = d.net.peers := rfl
@[simp] theorem Dev.mapTx_net_links : (d.mapTx ctx n f).net.links = d.net.links := rfl
end

/-! ### Dev.mapSender -/

section
variable (d : Dev) (flow node : Nat) (f : RxSender → RxSender)
@[simp] theorem Dev.mapSender_flds : (d.mapSender flow node f).flds = d.flds := rfl
@[simp] theorem Dev.mapSender_objs : (d.mapSender flow node f).objs = d.objs := rfl
@[simp] theorem Dev.mapSender_host : (d.mapSender flow node f).host = d.host := rfl
@[simp] theorem Dev.mapSender_hostBad : (d.mapSender flow node f).hostBad = d.hostBad := rfl
@[simp] theorem Dev.mapSender_jamb : (d.mapSender flow node f).jamb = d.jamb := rfl
@[simp] theorem Dev.mapSender_mem : (d.mapSender flow node f).mem = d.mem := rfl
@[simp] theorem Dev.mapSender_sill : (d.mapSender flow node f).sill = d.sill := rfl
@[simp] theorem Dev.mapSender_maint : (d.mapSender flow node f).maint = d.maint := rfl
@[simp] theorem Dev.mapSender_thr : (d.mapSender flow node f).thr = d.thr := rfl
@[simp] theorem Dev.mapSender_drives : (d.mapSender flow node f).drives = d.drives := rfl
@[simp] theorem Dev.mapSender_bifold : (d.mapSender flow node f).bifold = d.bifold := rfl
@[simp] theorem Dev.mapSender_dig : (d.mapSender flow node f).dig = d.dig := rfl
@[simp] theorem Dev.mapSender_hinge : (d.mapSender flow node f).hinge = d.hinge := rfl
@[simp] theorem Dev.mapSender_pipes : (d.mapSender flow node f).pipes = d.pipes := rfl
@[simp] theorem Dev.mapSender_louvre : (d.mapSender flow node f).louvre = d.louvre := rfl
@[simp] theorem Dev.mapSender_sash : (d.mapSender flow node f).sash = d.sash := rfl
@[simp] theorem Dev.mapSender_life : (d.mapSender flow node f).life = d.life := rfl
@[simp] theorem Dev.mapSender_tap : (d.mapSender flow node f).tap = d.tap := rfl
@[simp] theorem Dev.mapSender_ordering288 : (d.mapSender flow node f).ordering288 = d.ordering288 := rfl
@[simp] theorem Dev.mapSender_timeBase : (d.mapSender flow node f).timeBase = d.timeBase := rfl
@[simp] theorem Dev.mapSender_halted : (d.mapSender flow node f).halted = d.halted := rfl
@[simp] theorem Dev.mapSender_reacts : (d.mapSender flow node f).reacts = d.reacts := rfl
@[simp] theorem Dev.mapSender_out : (d.mapSender flow node f).out = d.out := rfl
@[simp] theorem Dev.mapSender_free : (d.mapSender flow node f).free = d.free := rfl
@[simp] theorem Dev.mapSender_net_epoch : (d.mapSender flow node f).net.epoch = d.net.epoch := rfl
@[simp] theorem Dev.mapSender_net_members : (d.mapSender flow node f).net.members = d.net.members := rfl
@[simp] theorem Dev.mapSender_net_peers : (d.mapSender flow node f).net.peers = d.net.peers := rfl
@[simp] theorem Dev.mapSender_net_links : (d.mapSender flow node f).net.links = d.net.links := rfl
end

/-! ### Dev.setCtx -/

section
variable (d : Dev) (c : Nat) (x : Ctx)
@[simp] theorem Dev.setCtx_flds : (d.setCtx c x).flds = d.flds := rfl
@[simp] theorem Dev.setCtx_objs : (d.setCtx c x).objs = d.objs := rfl
@[simp] theorem Dev.setCtx_host : (d.setCtx c x).host = d.host := rfl
@[simp] theorem Dev.setCtx_hostBad : (d.setCtx c x).hostBad = d.hostBad := rfl
@[simp] theorem Dev.setCtx_jamb : (d.setCtx c x).jamb = d.jamb := rfl
@[simp] theorem Dev.setCtx_mem : (d.setCtx c x).mem = d.mem := rfl
@[simp] theorem Dev.setCtx_sill : (d.setCtx c x).sill = d.sill := rfl
@[simp] theorem Dev.setCtx_maint : (d.setCtx c x).maint = d.maint := rfl
@[simp] theorem Dev.setCtx_thr : (d.setCtx c x).thr = d.thr := rfl
@[simp] theorem Dev.setCtx_drives : (d.setCtx c x).drives = d.drives := rfl
@[simp] theorem Dev.setCtx_bifold : (d.setCtx c x).bifold = d.bifold := rfl
@[simp] theorem Dev.setCtx_dig : (d.setCtx c x).dig = d.dig := rfl
@[simp] theorem Dev.setCtx_hinge : (d.setCtx c x).hinge = d.hinge := rfl
@[simp] theorem Dev.setCtx_louvre : (d.setCtx c x).louvre = d.louvre := rfl
@[simp] theorem Dev.setCtx_net : (d.setCtx c x).net = d.net := rfl
@[simp] theorem Dev.setCtx_sash : (d.setCtx c x).sash = d.sash := rfl
@[simp] theorem Dev.setCtx_life : (d.setCtx c x).life = d.life := rfl
@[simp] theorem Dev.setCtx_tap : (d.setCtx c x).tap = d.tap := rfl
@[simp] theorem Dev.setCtx_ordering288 : (d.setCtx c x).ordering288 = d.ordering288 := rfl
@[simp] theorem Dev.setCtx_timeBase : (d.setCtx c x).timeBase = d.timeBase := rfl
@[simp] theorem Dev.setCtx_halted : (d.setCtx c x).halted = d.halted := rfl
@[simp] theorem Dev.setCtx_reacts : (d.setCtx c x).reacts = d.reacts := rfl
@[simp] theorem Dev.setCtx_out : (d.setCtx c x).out = d.out := rfl
@[simp] theorem Dev.setCtx_free : (d.setCtx c x).free = d.free := rfl
@[simp] theorem Dev.setCtx_pipes_works : (d.setCtx c x).pipes.works = d.pipes.works := rfl
@[simp] theorem Dev.setCtx_pipes_panes : (d.setCtx c x).pipes.panes = d.pipes.panes := rfl
@[simp] theorem Dev.setCtx_pipes_latches : (d.setCtx c x).pipes.latches = d.pipes.latches := rfl
@[simp] theorem Dev.setCtx_pipes_ticks : (d.setCtx c x).pipes.ticks = d.pipes.ticks := rfl
end

/-! ### Dev.setPane -/

section
variable (d : Dev) (p : Nat) (x : Pane)
@[simp] theorem Dev.setPane_flds : (d.setPane p x).flds = d.flds := rfl
@[simp] theorem Dev.setPane_objs : (d.setPane p x).objs = d.objs := rfl
@[simp] theorem Dev.setPane_host : (d.setPane p x).host = d.host := rfl
@[simp] theorem Dev.setPane_hostBad : (d.setPane p x).hostBad = d.hostBad := rfl
@[simp] theorem Dev.setPane_jamb : (d.setPane p x).jamb = d.jamb := rfl
@[simp] theorem Dev.setPane_mem : (d.setPane p x).mem = d.mem := rfl
@[simp] theorem Dev.setPane_sill : (d.setPane p x).sill = d.sill := rfl
@[simp] theorem Dev.setPane_maint : (d.setPane p x).maint = d.maint := rfl
@[simp] theorem Dev.setPane_thr : (d.setPane p x).thr = d.thr := rfl
@[simp] theorem Dev.setPane_drives : (d.setPane p x).drives = d.drives := rfl
@[simp] theorem Dev.setPane_bifold : (d.setPane p x).bifold = d.bifold := rfl
@[simp] theorem Dev.setPane_dig : (d.setPane p x).dig = d.dig := rfl
@[simp] theorem Dev.setPane_hinge : (d.setPane p x).hinge = d.hinge := rfl
@[simp] theorem Dev.setPane_louvre : (d.setPane p x).louvre = d.louvre := rfl
@[simp] theorem Dev.setPane_net : (d.setPane p x).net = d.net := rfl
@[simp] theorem Dev.setPane_sash : (d.setPane p x).sash = d.sash := rfl
@[simp] theorem Dev.setPane_life : (d.setPane p x).life = d.life := rfl
@[simp] theorem Dev.setPane_tap : (d.setPane p x).tap = d.tap := rfl
@[simp] theorem Dev.setPane_ordering288 : (d.setPane p x).ordering288 = d.ordering288 := rfl
@[simp] theorem Dev.setPane_timeBase : (d.setPane p x).timeBase = d.timeBase := rfl
@[simp] theorem Dev.setPane_halted : (d.setPane p x).halted = d.halted := rfl
@[simp] theorem Dev.setPane_reacts : (d.setPane p x).reacts = d.reacts := rfl
@[simp] theorem Dev.setPane_out : (d.setPane p x).out = d.out := rfl
@[simp] theorem Dev.setPane_free : (d.setPane p x).free = d.free := rfl
@[simp] theorem Dev.setPane_pipes_ctxs : (d.setPane p x).pipes.ctxs = d.pipes.ctxs := rfl
@[simp] theorem Dev.setPane_pipes_works : (d.setPane p x).pipes.works = d.pipes.works := rfl
@[simp] theorem Dev.setPane_pipes_latches : (d.setPane p x).pipes.latches = d.pipes.latches := rfl
@[simp] theorem Dev.setPane_pipes_ticks : (d.setPane p x).pipes.ticks = d.pipes.ticks := rfl
end

/-! ### Dev.setLatch -/

section
variable (d : Dev) (c : Nat) (x : Latch)
@[simp] theorem Dev.setLatch_flds : (d.setLatch c x).flds = d.flds := rfl
@[simp] theorem Dev.setLatch_objs : (d.setLatch c x).objs = d.objs := rfl
@[simp] theorem Dev.setLatch_host : (d.setLatch c x).host = d.host := rfl
@[simp] theorem Dev.setLatch_hostBad : (d.setLatch c x).hostBad = d.hostBad := rfl
@[simp] theorem Dev.setLatch_jamb : (d.setLatch c x).jamb = d.jamb := rfl
@[simp] theorem Dev.setLatch_mem : (d.setLatch c x).mem = d.mem := rfl
@[simp] theorem Dev.setLatch_sill : (d.setLatch c x).sill = d.sill := rfl
@[simp] theorem Dev.setLatch_maint : (d.setLatch c x).maint = d.maint := rfl
@[simp] theorem Dev.setLatch_thr : (d.setLatch c x).thr = d.thr := rfl
@[simp] theorem Dev.setLatch_drives : (d.setLatch c x).drives = d.drives := rfl
@[simp] theorem Dev.setLatch_bifold : (d.setLatch c x).bifold = d.bifold := rfl
@[simp] theorem Dev.setLatch_dig : (d.setLatch c x).dig = d.dig := rfl
@[simp] theorem Dev.setLatch_hinge : (d.setLatch c x).hinge = d.hinge := rfl
@[simp] theorem Dev.setLatch_louvre : (d.setLatch c x).louvre = d.louvre := rfl
@[simp] theorem Dev.setLatch_net : (d.setLatch c x).net = d.net := rfl
@[simp] theorem Dev.setLatch_sash : (d.setLatch c x).sash = d.sash := rfl
@[simp] theorem Dev.setLatch_life : (d.setLatch c x).life = d.life := rfl
@[simp] theorem Dev.setLatch_tap : (d.setLatch c x).tap = d.tap := rfl
@[simp] theorem Dev.setLatch_ordering288 : (d.setLatch c x).ordering288 = d.ordering288 := rfl
@[simp] theorem Dev.setLatch_timeBase : (d.setLatch c x).timeBase = d.timeBase := rfl
@[simp] theorem Dev.setLatch_halted : (d.setLatch c x).halted = d.halted := rfl
@[simp] theorem Dev.setLatch_reacts : (d.setLatch c x).reacts = d.reacts := rfl
@[simp] theorem Dev.setLatch_out : (d.setLatch c x).out = d.out := rfl
@[simp] theorem Dev.setLatch_free : (d.setLatch c x).free = d.free := rfl
@[simp] theorem Dev.setLatch_pipes_ctxs : (d.setLatch c x).pipes.ctxs = d.pipes.ctxs := rfl
@[simp] theorem Dev.setLatch_pipes_works : (d.setLatch c x).pipes.works = d.pipes.works := rfl
@[simp] theorem Dev.setLatch_pipes_panes : (d.setLatch c x).pipes.panes = d.pipes.panes := rfl
@[simp] theorem Dev.setLatch_pipes_ticks : (d.setLatch c x).pipes.ticks = d.pipes.ticks := rfl
end

/-! ### Dev.setMbank -/

section
variable (d : Dev) (k : Nat) (x : Bank)
@[simp] theorem Dev.setMbank_flds : (d.setMbank k x).flds = d.flds := rfl
@[simp] theorem Dev.setMbank_objs : (d.setMbank k x).objs = d.objs := rfl
@[simp] theorem Dev.setMbank_host : (d.setMbank k x).host = d.host := rfl
@[simp] theorem Dev.setMbank_hostBad : (d.setMbank k x).hostBad = d.hostBad := rfl
@[simp] theorem Dev.setMbank_jamb : (d.setMbank k x).jamb = d.jamb := rfl
@[simp] theorem Dev.setMbank_sill : (d.setMbank k x).sill = d.sill := rfl
@[simp] theorem Dev.setMbank_maint : (d.setMbank k x).maint = d.maint := rfl
@[simp] theorem Dev.setMbank_thr : (d.setMbank k x).thr = d.thr := rfl
@[simp] theorem Dev.setMbank_drives : (d.setMbank k x).drives = d.drives := rfl
@[simp] theorem Dev.setMbank_bifold : (d.setMbank k x).bifold = d.bifold := rfl
@[simp] theorem Dev.setMbank_dig : (d.setMbank k x).dig = d.dig := rfl
@[simp] theorem Dev.setMbank_hinge : (d.setMbank k x).hinge = d.hinge := rfl
@[simp] theorem Dev.setMbank_pipes : (d.setMbank k x).pipes = d.pipes := rfl
@[simp] theorem Dev.setMbank_louvre : (d.setMbank k x).louvre = d.louvre := rfl
@[simp] theorem Dev.setMbank_net : (d.setMbank k x).net = d.net := rfl
@[simp] theorem Dev.setMbank_sash : (d.setMbank k x).sash = d.sash := rfl
@[simp] theorem Dev.setMbank_life : (d.setMbank k x).life = d.life := rfl
@[simp] theorem Dev.setMbank_tap : (d.setMbank k x).tap = d.tap := rfl
@[simp] theorem Dev.setMbank_ordering288 : (d.setMbank k x).ordering288 = d.ordering288 := rfl
@[simp] theorem Dev.setMbank_timeBase : (d.setMbank k x).timeBase = d.timeBase := rfl
@[simp] theorem Dev.setMbank_halted : (d.setMbank k x).halted = d.halted := rfl
@[simp] theorem Dev.setMbank_reacts : (d.setMbank k x).reacts = d.reacts := rfl
@[simp] theorem Dev.setMbank_out : (d.setMbank k x).out = d.out := rfl
@[simp] theorem Dev.setMbank_free : (d.setMbank k x).free = d.free := rfl
@[simp] theorem Dev.setMbank_mem_cells : (d.setMbank k x).mem.cells = d.mem.cells := rfl
@[simp] theorem Dev.setMbank_mem_poison : (d.setMbank k x).mem.poison = d.mem.poison := rfl
@[simp] theorem Dev.setMbank_mem_nearUp : (d.setMbank k x).mem.nearUp = d.mem.nearUp := rfl
@[simp] theorem Dev.setMbank_mem_farUp : (d.setMbank k x).mem.farUp = d.mem.farUp := rfl
@[simp] theorem Dev.setMbank_mem_parkGiB : (d.setMbank k x).mem.parkGiB = d.mem.parkGiB := rfl
@[simp] theorem Dev.setMbank_mem_chans : (d.setMbank k x).mem.chans = d.mem.chans := rfl
@[simp] theorem Dev.setMbank_mem_subs : (d.setMbank k x).mem.subs = d.mem.subs := rfl
end

/-! ### Dev.setSub -/

section
variable (d : Dev) (s : Nat) (x : SubChan)
@[simp] theorem Dev.setSub_flds : (d.setSub s x).flds = d.flds := rfl
@[simp] theorem Dev.setSub_objs : (d.setSub s x).objs = d.objs := rfl
@[simp] theorem Dev.setSub_host : (d.setSub s x).host = d.host := rfl
@[simp] theorem Dev.setSub_hostBad : (d.setSub s x).hostBad = d.hostBad := rfl
@[simp] theorem Dev.setSub_jamb : (d.setSub s x).jamb = d.jamb := rfl
@[simp] theorem Dev.setSub_sill : (d.setSub s x).sill = d.sill := rfl
@[simp] theorem Dev.setSub_maint : (d.setSub s x).maint = d.maint := rfl
@[simp] theorem Dev.setSub_thr : (d.setSub s x).thr = d.thr := rfl
@[simp] theorem Dev.setSub_drives : (d.setSub s x).drives = d.drives := rfl
@[simp] theorem Dev.setSub_bifold : (d.setSub s x).bifold = d.bifold := rfl
@[simp] theorem Dev.setSub_dig : (d.setSub s x).dig = d.dig := rfl
@[simp] theorem Dev.setSub_hinge : (d.setSub s x).hinge = d.hinge := rfl
@[simp] theorem Dev.setSub_pipes : (d.setSub s x).pipes = d.pipes := rfl
@[simp] theorem Dev.setSub_louvre : (d.setSub s x).louvre = d.louvre := rfl
@[simp] theorem Dev.setSub_net : (d.setSub s x).net = d.net := rfl
@[simp] theorem Dev.setSub_sash : (d.setSub s x).sash = d.sash := rfl
@[simp] theorem Dev.setSub_life : (d.setSub s x).life = d.life := rfl
@[simp] theorem Dev.setSub_tap : (d.setSub s x).tap = d.tap := rfl
@[simp] theorem Dev.setSub_ordering288 : (d.setSub s x).ordering288 = d.ordering288 := rfl
@[simp] theorem Dev.setSub_timeBase : (d.setSub s x).timeBase = d.timeBase := rfl
@[simp] theorem Dev.setSub_halted : (d.setSub s x).halted = d.halted := rfl
@[simp] theorem Dev.setSub_reacts : (d.setSub s x).reacts = d.reacts := rfl
@[simp] theorem Dev.setSub_out : (d.setSub s x).out = d.out := rfl
@[simp] theorem Dev.setSub_free : (d.setSub s x).free = d.free := rfl
@[simp] theorem Dev.setSub_mem_cells : (d.setSub s x).mem.cells = d.mem.cells := rfl
@[simp] theorem Dev.setSub_mem_poison : (d.setSub s x).mem.poison = d.mem.poison := rfl
@[simp] theorem Dev.setSub_mem_nearUp : (d.setSub s x).mem.nearUp = d.mem.nearUp := rfl
@[simp] theorem Dev.setSub_mem_farUp : (d.setSub s x).mem.farUp = d.mem.farUp := rfl
@[simp] theorem Dev.setSub_mem_parkGiB : (d.setSub s x).mem.parkGiB = d.mem.parkGiB := rfl
@[simp] theorem Dev.setSub_mem_chans : (d.setSub s x).mem.chans = d.mem.chans := rfl
@[simp] theorem Dev.setSub_mem_banks : (d.setSub s x).mem.banks = d.mem.banks := rfl
end

/-! ### Dev.setWork -/

section
variable (d : Dev) (w v : Work)
@[simp] theorem Dev.setWork_flds : (d.setWork w v).flds = d.flds := rfl
@[simp] theorem Dev.setWork_objs : (d.setWork w v).objs = d.objs := rfl
@[simp] theorem Dev.setWork_host : (d.setWork w v).host = d.host := rfl
@[simp] theorem Dev.setWork_hostBad : (d.setWork w v).hostBad = d.hostBad := rfl
@[simp] theorem Dev.setWork_jamb : (d.setWork w v).jamb = d.jamb := rfl
@[simp] theorem Dev.setWork_mem : (d.setWork w v).mem = d.mem := rfl
@[simp] theorem Dev.setWork_sill : (d.setWork w v).sill = d.sill := rfl
@[simp] theorem Dev.setWork_maint : (d.setWork w v).maint = d.maint := rfl
@[simp] theorem Dev.setWork_thr : (d.setWork w v).thr = d.thr := rfl
@[simp] theorem Dev.setWork_drives : (d.setWork w v).drives = d.drives := rfl
@[simp] theorem Dev.setWork_bifold : (d.setWork w v).bifold = d.bifold := rfl
@[simp] theorem Dev.setWork_dig : (d.setWork w v).dig = d.dig := rfl
@[simp] theorem Dev.setWork_hinge : (d.setWork w v).hinge = d.hinge := rfl
@[simp] theorem Dev.setWork_louvre : (d.setWork w v).louvre = d.louvre := rfl
@[simp] theorem Dev.setWork_net : (d.setWork w v).net = d.net := rfl
@[simp] theorem Dev.setWork_sash : (d.setWork w v).sash = d.sash := rfl
@[simp] theorem Dev.setWork_life : (d.setWork w v).life = d.life := rfl
@[simp] theorem Dev.setWork_tap : (d.setWork w v).tap = d.tap := rfl
@[simp] theorem Dev.setWork_ordering288 : (d.setWork w v).ordering288 = d.ordering288 := rfl
@[simp] theorem Dev.setWork_timeBase : (d.setWork w v).timeBase = d.timeBase := rfl
@[simp] theorem Dev.setWork_halted : (d.setWork w v).halted = d.halted := rfl
@[simp] theorem Dev.setWork_reacts : (d.setWork w v).reacts = d.reacts := rfl
@[simp] theorem Dev.setWork_out : (d.setWork w v).out = d.out := rfl
@[simp] theorem Dev.setWork_free : (d.setWork w v).free = d.free := rfl
@[simp] theorem Dev.setWork_pipes_ctxs : (d.setWork w v).pipes.ctxs = d.pipes.ctxs := rfl
@[simp] theorem Dev.setWork_pipes_panes : (d.setWork w v).pipes.panes = d.pipes.panes := rfl
@[simp] theorem Dev.setWork_pipes_latches : (d.setWork w v).pipes.latches = d.pipes.latches := rfl
@[simp] theorem Dev.setWork_pipes_ticks : (d.setWork w v).pipes.ticks = d.pipes.ticks := rfl
end

/-! ### Dev.setSlot -/

section
variable (d : Dev) (s : Nat) (x : KeySlot)
@[simp] theorem Dev.setSlot_flds : (d.setSlot s x).flds = d.flds := rfl
@[simp] theorem Dev.setSlot_objs : (d.setSlot s x).objs = d.objs := rfl
@[simp] theorem Dev.setSlot_host : (d.setSlot s x).host = d.host := rfl
@[simp] theorem Dev.setSlot_hostBad : (d.setSlot s x).hostBad = d.hostBad := rfl
@[simp] theorem Dev.setSlot_jamb : (d.setSlot s x).jamb = d.jamb := rfl
@[simp] theorem Dev.setSlot_mem : (d.setSlot s x).mem = d.mem := rfl
@[simp] theorem Dev.setSlot_sill : (d.setSlot s x).sill = d.sill := rfl
@[simp] theorem Dev.setSlot_maint : (d.setSlot s x).maint = d.maint := rfl
@[simp] theorem Dev.setSlot_thr : (d.setSlot s x).thr = d.thr := rfl
@[simp] theorem Dev.setSlot_drives : (d.setSlot s x).drives = d.drives := rfl
@[simp] theorem Dev.setSlot_bifold : (d.setSlot s x).bifold = d.bifold := rfl
@[simp] theorem Dev.setSlot_hinge : (d.setSlot s x).hinge = d.hinge := rfl
@[simp] theorem Dev.setSlot_pipes : (d.setSlot s x).pipes = d.pipes := rfl
@[simp] theorem Dev.setSlot_louvre : (d.setSlot s x).louvre = d.louvre := rfl
@[simp] theorem Dev.setSlot_net : (d.setSlot s x).net = d.net := rfl
@[simp] theorem Dev.setSlot_sash : (d.setSlot s x).sash = d.sash := rfl
@[simp] theorem Dev.setSlot_life : (d.setSlot s x).life = d.life := rfl
@[simp] theorem Dev.setSlot_tap : (d.setSlot s x).tap = d.tap := rfl
@[simp] theorem Dev.setSlot_ordering288 : (d.setSlot s x).ordering288 = d.ordering288 := rfl
@[simp] theorem Dev.setSlot_timeBase : (d.setSlot s x).timeBase = d.timeBase := rfl
@[simp] theorem Dev.setSlot_halted : (d.setSlot s x).halted = d.halted := rfl
@[simp] theorem Dev.setSlot_reacts : (d.setSlot s x).reacts = d.reacts := rfl
@[simp] theorem Dev.setSlot_out : (d.setSlot s x).out = d.out := rfl
@[simp] theorem Dev.setSlot_free : (d.setSlot s x).free = d.free := rfl
@[simp] theorem Dev.setSlot_dig_ctxs : (d.setSlot s x).dig.ctxs = d.dig.ctxs := rfl
@[simp] theorem Dev.setSlot_dig_ksPending : (d.setSlot s x).dig.ksPending = d.dig.ksPending := rfl
@[simp] theorem Dev.setSlot_dig_lastCtx : (d.setSlot s x).dig.lastCtx = d.dig.lastCtx := rfl
@[simp] theorem Dev.setSlot_dig_pubKey : (d.setSlot s x).dig.pubKey = d.dig.pubKey := rfl
@[simp] theorem Dev.setSlot_dig_keyId : (d.setSlot s x).dig.keyId = d.dig.keyId := rfl
@[simp] theorem Dev.setSlot_dig_certOk : (d.setSlot s x).dig.certOk = d.dig.certOk := rfl
end

/-! ### Dev.setDgctx -/

section
variable (d : Dev) (k : Nat) (x : DgCtx)
@[simp] theorem Dev.setDgctx_flds : (d.setDgctx k x).flds = d.flds := rfl
@[simp] theorem Dev.setDgctx_objs : (d.setDgctx k x).objs = d.objs := rfl
@[simp] theorem Dev.setDgctx_host : (d.setDgctx k x).host = d.host := rfl
@[simp] theorem Dev.setDgctx_hostBad : (d.setDgctx k x).hostBad = d.hostBad := rfl
@[simp] theorem Dev.setDgctx_jamb : (d.setDgctx k x).jamb = d.jamb := rfl
@[simp] theorem Dev.setDgctx_mem : (d.setDgctx k x).mem = d.mem := rfl
@[simp] theorem Dev.setDgctx_sill : (d.setDgctx k x).sill = d.sill := rfl
@[simp] theorem Dev.setDgctx_maint : (d.setDgctx k x).maint = d.maint := rfl
@[simp] theorem Dev.setDgctx_thr : (d.setDgctx k x).thr = d.thr := rfl
@[simp] theorem Dev.setDgctx_drives : (d.setDgctx k x).drives = d.drives := rfl
@[simp] theorem Dev.setDgctx_bifold : (d.setDgctx k x).bifold = d.bifold := rfl
@[simp] theorem Dev.setDgctx_hinge : (d.setDgctx k x).hinge = d.hinge := rfl
@[simp] theorem Dev.setDgctx_pipes : (d.setDgctx k x).pipes = d.pipes := rfl
@[simp] theorem Dev.setDgctx_louvre : (d.setDgctx k x).louvre = d.louvre := rfl
@[simp] theorem Dev.setDgctx_net : (d.setDgctx k x).net = d.net := rfl
@[simp] theorem Dev.setDgctx_sash : (d.setDgctx k x).sash = d.sash := rfl
@[simp] theorem Dev.setDgctx_life : (d.setDgctx k x).life = d.life := rfl
@[simp] theorem Dev.setDgctx_tap : (d.setDgctx k x).tap = d.tap := rfl
@[simp] theorem Dev.setDgctx_ordering288 : (d.setDgctx k x).ordering288 = d.ordering288 := rfl
@[simp] theorem Dev.setDgctx_timeBase : (d.setDgctx k x).timeBase = d.timeBase := rfl
@[simp] theorem Dev.setDgctx_halted : (d.setDgctx k x).halted = d.halted := rfl
@[simp] theorem Dev.setDgctx_reacts : (d.setDgctx k x).reacts = d.reacts := rfl
@[simp] theorem Dev.setDgctx_out : (d.setDgctx k x).out = d.out := rfl
@[simp] theorem Dev.setDgctx_free : (d.setDgctx k x).free = d.free := rfl
@[simp] theorem Dev.setDgctx_dig_slots : (d.setDgctx k x).dig.slots = d.dig.slots := rfl
@[simp] theorem Dev.setDgctx_dig_ksPending : (d.setDgctx k x).dig.ksPending = d.dig.ksPending := rfl
@[simp] theorem Dev.setDgctx_dig_lastCtx : (d.setDgctx k x).dig.lastCtx = d.dig.lastCtx := rfl
@[simp] theorem Dev.setDgctx_dig_pubKey : (d.setDgctx k x).dig.pubKey = d.dig.pubKey := rfl
@[simp] theorem Dev.setDgctx_dig_keyId : (d.setDgctx k x).dig.keyId = d.dig.keyId := rfl
@[simp] theorem Dev.setDgctx_dig_certOk : (d.setDgctx k x).dig.certOk = d.dig.certOk := rfl
end

/-! ### Dev.setPut -/

section
variable (d : Dev) (n : Nat) (x : Put)
@[simp] theorem Dev.setPut_flds : (d.setPut n x).flds = d.flds := rfl
@[simp] theorem Dev.setPut_objs : (d.setPut n x).objs = d.objs := rfl
@[simp] theorem Dev.setPut_host : (d.setPut n x).host = d.host := rfl
@[simp] theorem Dev.setPut_hostBad : (d.setPut n x).hostBad = d.hostBad := rfl
@[simp] theorem Dev.setPut_jamb : (d.setPut n x).jamb = d.jamb := rfl
@[simp] theorem Dev.setPut_mem : (d.setPut n x).mem = d.mem := rfl
@[simp] theorem Dev.setPut_sill : (d.setPut n x).sill = d.sill := rfl
@[simp] theorem Dev.setPut_maint : (d.setPut n x).maint = d.maint := rfl
@[simp] theorem Dev.setPut_thr : (d.setPut n x).thr = d.thr := rfl
@[simp] theorem Dev.setPut_drives : (d.setPut n x).drives = d.drives := rfl
@[simp] theorem Dev.setPut_bifold : (d.setPut n x).bifold = d.bifold := rfl
@[simp] theorem Dev.setPut_dig : (d.setPut n x).dig = d.dig := rfl
@[simp] theorem Dev.setPut_hinge : (d.setPut n x).hinge = d.hinge := rfl
@[simp] theorem Dev.setPut_pipes : (d.setPut n x).pipes = d.pipes := rfl
@[simp] theorem Dev.setPut_louvre : (d.setPut n x).louvre = d.louvre := rfl
@[simp] theorem Dev.setPut_sash : (d.setPut n x).sash = d.sash := rfl
@[simp] theorem Dev.setPut_life : (d.setPut n x).life = d.life := rfl
@[simp] theorem Dev.setPut_tap : (d.setPut n x).tap = d.tap := rfl
@[simp] theorem Dev.setPut_ordering288 : (d.setPut n x).ordering288 = d.ordering288 := rfl
@[simp] theorem Dev.setPut_timeBase : (d.setPut n x).timeBase = d.timeBase := rfl
@[simp] theorem Dev.setPut_halted : (d.setPut n x).halted = d.halted := rfl
@[simp] theorem Dev.setPut_reacts : (d.setPut n x).reacts = d.reacts := rfl
@[simp] theorem Dev.setPut_out : (d.setPut n x).out = d.out := rfl
@[simp] theorem Dev.setPut_free : (d.setPut n x).free = d.free := rfl
@[simp] theorem Dev.setPut_net_epoch : (d.setPut n x).net.epoch = d.net.epoch := rfl
@[simp] theorem Dev.setPut_net_members : (d.setPut n x).net.members = d.net.members := rfl
@[simp] theorem Dev.setPut_net_peers : (d.setPut n x).net.peers = d.net.peers := rfl
@[simp] theorem Dev.setPut_net_links : (d.setPut n x).net.links = d.net.links := rfl
end

/-! ### Dev.fputB -/

section
variable (d : Dev) (f : Fld) (b : Bool)
@[simp] theorem Dev.fputB_objs : (d.fputB f b).objs = d.objs := Dev.fput_objs d f _
@[simp] theorem Dev.fputB_host : (d.fputB f b).host = d.host := Dev.fput_host d f _
@[simp] theorem Dev.fputB_hostBad : (d.fputB f b).hostBad = d.hostBad := Dev.fput_hostBad d f _
@[simp] theorem Dev.fputB_jamb : (d.fputB f b).jamb = d.jamb := Dev.fput_jamb d f _
@[simp] theorem Dev.fputB_mem : (d.fputB f b).mem = d.mem := Dev.fput_mem d f _
@[simp] theorem Dev.fputB_sill : (d.fputB f b).sill = d.sill := Dev.fput_sill d f _
@[simp] theorem Dev.fputB_maint : (d.fputB f b).maint = d.maint := Dev.fput_maint d f _
@[simp] theorem Dev.fputB_thr : (d.fputB f b).thr = d.thr := Dev.fput_thr d f _
@[simp] theorem Dev.fputB_drives : (d.fputB f b).drives = d.drives := Dev.fput_drives d f _
@[simp] theorem Dev.fputB_bifold : (d.fputB f b).bifold = d.bifold := Dev.fput_bifold d f _
@[simp] theorem Dev.fputB_dig : (d.fputB f b).dig = d.dig := Dev.fput_dig d f _
@[simp] theorem Dev.fputB_hinge : (d.fputB f b).hinge = d.hinge := Dev.fput_hinge d f _
@[simp] theorem Dev.fputB_pipes : (d.fputB f b).pipes = d.pipes := Dev.fput_pipes d f _
@[simp] theorem Dev.fputB_louvre : (d.fputB f b).louvre = d.louvre := Dev.fput_louvre d f _
@[simp] theorem Dev.fputB_net : (d.fputB f b).net = d.net := Dev.fput_net d f _
@[simp] theorem Dev.fputB_sash : (d.fputB f b).sash = d.sash := Dev.fput_sash d f _
@[simp] theorem Dev.fputB_life : (d.fputB f b).life = d.life := Dev.fput_life d f _
@[simp] theorem Dev.fputB_tap : (d.fputB f b).tap = d.tap := Dev.fput_tap d f _
@[simp] theorem Dev.fputB_ordering288 : (d.fputB f b).ordering288 = d.ordering288 := Dev.fput_ordering288 d f _
@[simp] theorem Dev.fputB_timeBase : (d.fputB f b).timeBase = d.timeBase := Dev.fput_timeBase d f _
@[simp] theorem Dev.fputB_halted : (d.fputB f b).halted = d.halted := Dev.fput_halted d f _
@[simp] theorem Dev.fputB_reacts : (d.fputB f b).reacts = d.reacts := Dev.fput_reacts d f _
@[simp] theorem Dev.fputB_out : (d.fputB f b).out = d.out := Dev.fput_out d f _
@[simp] theorem Dev.fputB_free : (d.fputB f b).free = d.free := Dev.fput_free d f _
end

/-! ### Dev.fcount -/

section
variable (d : Dev) (f : Fld) (n : Nat)
@[simp] theorem Dev.fcount_objs : (d.fcount f n).objs = d.objs := Dev.fput_objs d f _
@[simp] theorem Dev.fcount_host : (d.fcount f n).host = d.host := Dev.fput_host d f _
@[simp] theorem Dev.fcount_hostBad : (d.fcount f n).hostBad = d.hostBad := Dev.fput_hostBad d f _
@[simp] theorem Dev.fcount_jamb : (d.fcount f n).jamb = d.jamb := Dev.fput_jamb d f _
@[simp] theorem Dev.fcount_mem : (d.fcount f n).mem = d.mem := Dev.fput_mem d f _
@[simp] theorem Dev.fcount_sill : (d.fcount f n).sill = d.sill := Dev.fput_sill d f _
@[simp] theorem Dev.fcount_maint : (d.fcount f n).maint = d.maint := Dev.fput_maint d f _
@[simp] theorem Dev.fcount_thr : (d.fcount f n).thr = d.thr := Dev.fput_thr d f _
@[simp] theorem Dev.fcount_drives : (d.fcount f n).drives = d.drives := Dev.fput_drives d f _
@[simp] theorem Dev.fcount_bifold : (d.fcount f n).bifold = d.bifold := Dev.fput_bifold d f _
@[simp] theorem Dev.fcount_dig : (d.fcount f n).dig = d.dig := Dev.fput_dig d f _
@[simp] theorem Dev.fcount_hinge : (d.fcount f n).hinge = d.hinge := Dev.fput_hinge d f _
@[simp] theorem Dev.fcount_pipes : (d.fcount f n).pipes = d.pipes := Dev.fput_pipes d f _
@[simp] theorem Dev.fcount_louvre : (d.fcount f n).louvre = d.louvre := Dev.fput_louvre d f _
@[simp] theorem Dev.fcount_net : (d.fcount f n).net = d.net := Dev.fput_net d f _
@[simp] theorem Dev.fcount_sash : (d.fcount f n).sash = d.sash := Dev.fput_sash d f _
@[simp] theorem Dev.fcount_life : (d.fcount f n).life = d.life := Dev.fput_life d f _
@[simp] theorem Dev.fcount_tap : (d.fcount f n).tap = d.tap := Dev.fput_tap d f _
@[simp] theorem Dev.fcount_ordering288 : (d.fcount f n).ordering288 = d.ordering288 := Dev.fput_ordering288 d f _
@[simp] theorem Dev.fcount_timeBase : (d.fcount f n).timeBase = d.timeBase := Dev.fput_timeBase d f _
@[simp] theorem Dev.fcount_halted : (d.fcount f n).halted = d.halted := Dev.fput_halted d f _
@[simp] theorem Dev.fcount_reacts : (d.fcount f n).reacts = d.reacts := Dev.fput_reacts d f _
@[simp] theorem Dev.fcount_out : (d.fcount f n).out = d.out := Dev.fput_out d f _
@[simp] theorem Dev.fcount_free : (d.fcount f n).free = d.free := Dev.fput_free d f _
end

/-! ### Dev.for_ -/

section
variable (d : Dev) (f : Fld) (m : Nat)
@[simp] theorem Dev.for_objs : (d.for_ f m).objs = d.objs := Dev.fput_objs d f _
@[simp] theorem Dev.for_host : (d.for_ f m).host = d.host := Dev.fput_host d f _
@[simp] theorem Dev.for_hostBad : (d.for_ f m).hostBad = d.hostBad := Dev.fput_hostBad d f _
@[simp] theorem Dev.for_jamb : (d.for_ f m).jamb = d.jamb := Dev.fput_jamb d f _
@[simp] theorem Dev.for_mem : (d.for_ f m).mem = d.mem := Dev.fput_mem d f _
@[simp] theorem Dev.for_sill : (d.for_ f m).sill = d.sill := Dev.fput_sill d f _
@[simp] theorem Dev.for_maint : (d.for_ f m).maint = d.maint := Dev.fput_maint d f _
@[simp] theorem Dev.for_thr : (d.for_ f m).thr = d.thr := Dev.fput_thr d f _
@[simp] theorem Dev.for_drives : (d.for_ f m).drives = d.drives := Dev.fput_drives d f _
@[simp] theorem Dev.for_bifold : (d.for_ f m).bifold = d.bifold := Dev.fput_bifold d f _
@[simp] theorem Dev.for_dig : (d.for_ f m).dig = d.dig := Dev.fput_dig d f _
@[simp] theorem Dev.for_hinge : (d.for_ f m).hinge = d.hinge := Dev.fput_hinge d f _
@[simp] theorem Dev.for_pipes : (d.for_ f m).pipes = d.pipes := Dev.fput_pipes d f _
@[simp] theorem Dev.for_louvre : (d.for_ f m).louvre = d.louvre := Dev.fput_louvre d f _
@[simp] theorem Dev.for_net : (d.for_ f m).net = d.net := Dev.fput_net d f _
@[simp] theorem Dev.for_sash : (d.for_ f m).sash = d.sash := Dev.fput_sash d f _
@[simp] theorem Dev.for_life : (d.for_ f m).life = d.life := Dev.fput_life d f _
@[simp] theorem Dev.for_tap : (d.for_ f m).tap = d.tap := Dev.fput_tap d f _
@[simp] theorem Dev.for_ordering288 : (d.for_ f m).ordering288 = d.ordering288 := Dev.fput_ordering288 d f _
@[simp] theorem Dev.for_timeBase : (d.for_ f m).timeBase = d.timeBase := Dev.fput_timeBase d f _
@[simp] theorem Dev.for_halted : (d.for_ f m).halted = d.halted := Dev.fput_halted d f _
@[simp] theorem Dev.for_reacts : (d.for_ f m).reacts = d.reacts := Dev.fput_reacts d f _
@[simp] theorem Dev.for_out : (d.for_ f m).out = d.out := Dev.fput_out d f _
@[simp] theorem Dev.for_free : (d.for_ f m).free = d.free := Dev.fput_free d f _
end

/-! ### Dev.fcount64 -/

section
variable (d : Dev) (lo hi : Fld) (n : Nat)
@[simp] theorem Dev.fcount64_objs : (d.fcount64 lo hi n).objs = d.objs := (Dev.fput_objs _ hi _).trans (Dev.fput_objs d lo _)
@[simp] theorem Dev.fcount64_host : (d.fcount64 lo hi n).host = d.host := (Dev.fput_host _ hi _).trans (Dev.fput_host d lo _)
@[simp] theorem Dev.fcount64_hostBad : (d.fcount64 lo hi n).hostBad = d.hostBad := (Dev.fput_hostBad _ hi _).trans (Dev.fput_hostBad d lo _)
@[simp] theorem Dev.fcount64_jamb : (d.fcount64 lo hi n).jamb = d.jamb := (Dev.fput_jamb _ hi _).trans (Dev.fput_jamb d lo _)
@[simp] theorem Dev.fcount64_mem : (d.fcount64 lo hi n).mem = d.mem := (Dev.fput_mem _ hi _).trans (Dev.fput_mem d lo _)
@[simp] theorem Dev.fcount64_sill : (d.fcount64 lo hi n).sill = d.sill := (Dev.fput_sill _ hi _).trans (Dev.fput_sill d lo _)
@[simp] theorem Dev.fcount64_maint : (d.fcount64 lo hi n).maint = d.maint := (Dev.fput_maint _ hi _).trans (Dev.fput_maint d lo _)
@[simp] theorem Dev.fcount64_thr : (d.fcount64 lo hi n).thr = d.thr := (Dev.fput_thr _ hi _).trans (Dev.fput_thr d lo _)
@[simp] theorem Dev.fcount64_drives : (d.fcount64 lo hi n).drives = d.drives := (Dev.fput_drives _ hi _).trans (Dev.fput_drives d lo _)
@[simp] theorem Dev.fcount64_bifold : (d.fcount64 lo hi n).bifold = d.bifold := (Dev.fput_bifold _ hi _).trans (Dev.fput_bifold d lo _)
@[simp] theorem Dev.fcount64_dig : (d.fcount64 lo hi n).dig = d.dig := (Dev.fput_dig _ hi _).trans (Dev.fput_dig d lo _)
@[simp] theorem Dev.fcount64_hinge : (d.fcount64 lo hi n).hinge = d.hinge := (Dev.fput_hinge _ hi _).trans (Dev.fput_hinge d lo _)
@[simp] theorem Dev.fcount64_pipes : (d.fcount64 lo hi n).pipes = d.pipes := (Dev.fput_pipes _ hi _).trans (Dev.fput_pipes d lo _)
@[simp] theorem Dev.fcount64_louvre : (d.fcount64 lo hi n).louvre = d.louvre := (Dev.fput_louvre _ hi _).trans (Dev.fput_louvre d lo _)
@[simp] theorem Dev.fcount64_net : (d.fcount64 lo hi n).net = d.net := (Dev.fput_net _ hi _).trans (Dev.fput_net d lo _)
@[simp] theorem Dev.fcount64_sash : (d.fcount64 lo hi n).sash = d.sash := (Dev.fput_sash _ hi _).trans (Dev.fput_sash d lo _)
@[simp] theorem Dev.fcount64_life : (d.fcount64 lo hi n).life = d.life := (Dev.fput_life _ hi _).trans (Dev.fput_life d lo _)
@[simp] theorem Dev.fcount64_tap : (d.fcount64 lo hi n).tap = d.tap := (Dev.fput_tap _ hi _).trans (Dev.fput_tap d lo _)
@[simp] theorem Dev.fcount64_ordering288 : (d.fcount64 lo hi n).ordering288 = d.ordering288 := (Dev.fput_ordering288 _ hi _).trans (Dev.fput_ordering288 d lo _)
@[simp] theorem Dev.fcount64_timeBase : (d.fcount64 lo hi n).timeBase = d.timeBase := (Dev.fput_timeBase _ hi _).trans (Dev.fput_timeBase d lo _)
@[simp] theorem Dev.fcount64_halted : (d.fcount64 lo hi n).halted = d.halted := (Dev.fput_halted _ hi _).trans (Dev.fput_halted d lo _)
@[simp] theorem Dev.fcount64_reacts : (d.fcount64 lo hi n).reacts = d.reacts := (Dev.fput_reacts _ hi _).trans (Dev.fput_reacts d lo _)
@[simp] theorem Dev.fcount64_out : (d.fcount64 lo hi n).out = d.out := (Dev.fput_out _ hi _).trans (Dev.fput_out d lo _)
@[simp] theorem Dev.fcount64_free : (d.fcount64 lo hi n).free = d.free := (Dev.fput_free _ hi _).trans (Dev.fput_free d lo _)
end

/-! ### Dev.ocount -/

section
variable (d : Dev) (o : Obj) (n : Nat)
@[simp] theorem Dev.ocount_flds : (d.ocount o n).flds = d.flds := Dev.oput_flds d o _
@[simp] theorem Dev.ocount_host : (d.ocount o n).host = d.host := Dev.oput_host d o _
@[simp] theorem Dev.ocount_hostBad : (d.ocount o n).hostBad = d.hostBad := Dev.oput_hostBad d o _
@[simp] theorem Dev.ocount_jamb : (d.ocount o n).jamb = d.jamb := Dev.oput_jamb d o _
@[simp] theorem Dev.ocount_mem : (d.ocount o n).mem = d.mem := Dev.oput_mem d o _
@[simp] theorem Dev.ocount_sill : (d.ocount o n).sill = d.sill := Dev.oput_sill d o _
@[simp] theorem Dev.ocount_maint : (d.ocount o n).maint = d.maint := Dev.oput_maint d o _
@[simp] theorem Dev.ocount_thr : (d.ocount o n).thr = d.thr := Dev.oput_thr d o _
@[simp] theorem Dev.ocount_drives : (d.ocount o n).drives = d.drives := Dev.oput_drives d o _
@[simp] theorem Dev.ocount_bifold : (d.ocount o n).bifold = d.bifold := Dev.oput_bifold d o _
@[simp] theorem Dev.ocount_dig : (d.ocount o n).dig = d.dig := Dev.oput_dig d o _
@[simp] theorem Dev.ocount_hinge : (d.ocount o n).hinge = d.hinge := Dev.oput_hinge d o _
@[simp] theorem Dev.ocount_pipes : (d.ocount o n).pipes = d.pipes := Dev.oput_pipes d o _
@[simp] theorem Dev.ocount_louvre : (d.ocount o n).louvre = d.louvre := Dev.oput_louvre d o _
@[simp] theorem Dev.ocount_net : (d.ocount o n).net = d.net := Dev.oput_net d o _
@[simp] theorem Dev.ocount_sash : (d.ocount o n).sash = d.sash := Dev.oput_sash d o _
@[simp] theorem Dev.ocount_life : (d.ocount o n).life = d.life := Dev.oput_life d o _
@[simp] theorem Dev.ocount_tap : (d.ocount o n).tap = d.tap := Dev.oput_tap d o _
@[simp] theorem Dev.ocount_ordering288 : (d.ocount o n).ordering288 = d.ordering288 := Dev.oput_ordering288 d o _
@[simp] theorem Dev.ocount_timeBase : (d.ocount o n).timeBase = d.timeBase := Dev.oput_timeBase d o _
@[simp] theorem Dev.ocount_halted : (d.ocount o n).halted = d.halted := Dev.oput_halted d o _
@[simp] theorem Dev.ocount_reacts : (d.ocount o n).reacts = d.reacts := Dev.oput_reacts d o _
@[simp] theorem Dev.ocount_out : (d.ocount o n).out = d.out := Dev.oput_out d o _
@[simp] theorem Dev.ocount_free : (d.ocount o n).free = d.free := Dev.oput_free d o _
end

end Sys2Proof.Machine
end

