-- ==== Sys2Proof/Laws/Reads.lean ====
section
/-!
SUPPORT. What reads of the device give after each of its updates.
-/

namespace Sys2Proof.Machine

/-! ### A read of what was written -/

@[simp] theorem Dev.fget_fput (d : Dev) (f : Fld) (v : Nat) : (d.fput f v).fget f = v % 2 ^ f.width := by
  simp [Dev.fget, Dev.fput]

theorem Dev.fget_fput_ne (d : Dev) {f g : Fld} (v : Nat) (h : g.key ≠ f.key) : (d.fput f v).fget g = d.fget g :=
  Sparse.get_set_ne _ _ _ _ h

@[simp] theorem Dev.fget_fputB (d : Dev) (f : Fld) (b : Bool) : (d.fputB f b).fget f = b2n b % 2 ^ f.width :=
  Dev.fget_fput d f _

theorem Dev.fget_fputB_ne (d : Dev) {f g : Fld} (b : Bool) (h : g.key ≠ f.key) : (d.fputB f b).fget g = d.fget g :=
  Dev.fget_fput_ne d _ h

@[simp] theorem Dev.fget_fcount (d : Dev) (f : Fld) (n : Nat) :
    (d.fcount f n).fget f = satAdd f.width (d.fget f) n % 2 ^ f.width := Dev.fget_fput d f _

theorem Dev.fget_fcount_ne (d : Dev) {f g : Fld} (n : Nat) (h : g.key ≠ f.key) : (d.fcount f n).fget g = d.fget g :=
  Dev.fget_fput_ne d _ h

@[simp] theorem Dev.oget_oput (d : Dev) (o : Obj) (v : Nat) : (d.oput o v).oget o = v % 2 ^ (8 * o.size) := by
  simp [Dev.oget, Dev.oput]

theorem Dev.oget_oput_ne (d : Dev) {o p : Obj} (v : Nat) (h : p.key ≠ o.key) : (d.oput o v).oget p = d.oget p :=
  Sparse.get_set_ne _ _ _ _ h

@[simp] theorem Dev.oget_ocount (d : Dev) (o : Obj) (n : Nat) : (d.ocount o n).oget o = (d.oget o + n) % 2 ^ (8 * o.size) :=
  Dev.oget_oput d o _

theorem Dev.oget_ocount_ne (d : Dev) {o p : Obj} (n : Nat) (h : p.key ≠ o.key) : (d.ocount o n).oget p = d.oget p :=
  Dev.oget_oput_ne d _ h

@[simp] theorem Dev.queue_setQueue (d : Dev) (k : Nat) (x : Queue) : (d.setQueue k x).queue k = x := by
  simp [Dev.queue, Dev.setQueue]

theorem Dev.queue_setQueue_ne (d : Dev) {j k : Nat} (x : Queue) (h : j ≠ k) : (d.setQueue k x).queue j = d.queue j :=
  Sparse.get_set_ne _ _ _ _ h

@[simp] theorem Dev.chan_setChan (d : Dev) (k : Nat) (x : Chan) : (d.setChan k x).chan k = x := by
  simp [Dev.chan, Dev.setChan]

theorem Dev.chan_setChan_ne (d : Dev) {j k : Nat} (x : Chan) (h : j ≠ k) : (d.setChan k x).chan j = d.chan j :=
  Sparse.get_set_ne _ _ _ _ h

@[simp] theorem Dev.drive_setDrive (d : Dev) (k : Nat) (x : Drive) : (d.setDrive k x).drive k = x := by
  simp [Dev.drive, Dev.setDrive]

theorem Dev.drive_setDrive_ne (d : Dev) {j k : Nat} (x : Drive) (h : j ≠ k) : (d.setDrive k x).drive j = d.drive j :=
  Sparse.get_set_ne _ _ _ _ h

@[simp] theorem Dev.ctx_setCtx (d : Dev) (k : Nat) (x : Ctx) : (d.setCtx k x).ctx k = x := by
  simp [Dev.ctx, Dev.setCtx]

theorem Dev.ctx_setCtx_ne (d : Dev) {j k : Nat} (x : Ctx) (h : j ≠ k) : (d.setCtx k x).ctx j = d.ctx j :=
  Sparse.get_set_ne _ _ _ _ h

@[simp] theorem Dev.pane_setPane (d : Dev) (k : Nat) (x : Pane) : (d.setPane k x).pane k = x := by
  simp [Dev.pane, Dev.setPane]

theorem Dev.pane_setPane_ne (d : Dev) {j k : Nat} (x : Pane) (h : j ≠ k) : (d.setPane k x).pane j = d.pane j :=
  Sparse.get_set_ne _ _ _ _ h

@[simp] theorem Dev.latch_setLatch (d : Dev) (k : Nat) (x : Latch) : (d.setLatch k x).latch k = x := by
  simp [Dev.latch, Dev.setLatch]

theorem Dev.latch_setLatch_ne (d : Dev) {j k : Nat} (x : Latch) (h : j ≠ k) : (d.setLatch k x).latch j = d.latch j :=
  Sparse.get_set_ne _ _ _ _ h

@[simp] theorem Dev.lvTable_setLvTable (d : Dev) (k : Nat) (x : Option LvTable) : (d.setLvTable k x).lvTable k = x := by
  simp [Dev.lvTable, Dev.setLvTable]

theorem Dev.lvTable_setLvTable_ne (d : Dev) {j k : Nat} (x : Option LvTable) (h : j ≠ k) : (d.setLvTable k x).lvTable j = d.lvTable j :=
  Sparse.get_set_ne _ _ _ _ h

@[simp] theorem Dev.hchan_setHchan (d : Dev) (k : Nat) (x : HChan) : (d.setHchan k x).hchan k = x := by
  simp [Dev.hchan, Dev.setHchan]

theorem Dev.hchan_setHchan_ne (d : Dev) {j k : Nat} (x : HChan) (h : j ≠ k) : (d.setHchan k x).hchan j = d.hchan j :=
  Sparse.get_set_ne _ _ _ _ h

@[simp] theorem Dev.slot_setSlot (d : Dev) (k : Nat) (x : KeySlot) : (d.setSlot k x).slot k = x := by
  simp [Dev.slot, Dev.setSlot]

theorem Dev.slot_setSlot_ne (d : Dev) {j k : Nat} (x : KeySlot) (h : j ≠ k) : (d.setSlot k x).slot j = d.slot j :=
  Sparse.get_set_ne _ _ _ _ h

@[simp] theorem Dev.dgctx_setDgctx (d : Dev) (k : Nat) (x : DgCtx) : (d.setDgctx k x).dgctx k = x := by
  simp [Dev.dgctx, Dev.setDgctx]

theorem Dev.dgctx_setDgctx_ne (d : Dev) {j k : Nat} (x : DgCtx) (h : j ≠ k) : (d.setDgctx k x).dgctx j = d.dgctx j :=
  Sparse.get_set_ne _ _ _ _ h

@[simp] theorem Dev.tunit_setUnit (d : Dev) (k : Nat) (x : TUnit) : (d.setUnit k x).tunit k = x := by
  simp [Dev.tunit, Dev.setUnit]

theorem Dev.tunit_setUnit_ne (d : Dev) {j k : Nat} (x : TUnit) (h : j ≠ k) : (d.setUnit k x).tunit j = d.tunit j :=
  Sparse.get_set_ne _ _ _ _ h

@[simp] theorem Dev.peer_setPeer (d : Dev) (k : Nat) (x : Peer) : (d.setPeer k x).peer k = x := by
  simp [Dev.peer, Dev.setPeer]

theorem Dev.peer_setPeer_ne (d : Dev) {j k : Nat} (x : Peer) (h : j ≠ k) : (d.setPeer k x).peer j = d.peer j :=
  Sparse.get_set_ne _ _ _ _ h

@[simp] theorem Dev.bcas_setBcas (d : Dev) (k : Nat) (x : BCas) : (d.setBcas k x).bcas k = x := by
  simp [Dev.bcas, Dev.setBcas]

theorem Dev.bcas_setBcas_ne (d : Dev) {j k : Nat} (x : BCas) (h : j ≠ k) : (d.setBcas k x).bcas j = d.bcas j :=
  Sparse.get_set_ne _ _ _ _ h

/-! ### Dev.fput -/

section
variable (d : Dev) (f : Fld) (v : Nat)
@[simp] theorem Dev.oget_fput (o2 : Obj) : (d.fput f v).oget o2 = d.oget o2 := by
  simp only [Dev.oget, Dev.fput_objs]
@[simp] theorem Dev.queue_fput (j : Nat) : (d.fput f v).queue j = d.queue j := by
  simp only [Dev.queue, Dev.fput_jamb]
@[simp] theorem Dev.cmd_fput (j : Nat) : (d.fput f v).cmd j = d.cmd j := by
  simp only [Dev.cmd, Dev.fput_jamb]
@[simp] theorem Dev.chan_fput (j : Nat) : (d.fput f v).chan j = d.chan j := by
  simp only [Dev.chan, Dev.fput_mem]
@[simp] theorem Dev.drive_fput (j : Nat) : (d.fput f v).drive j = d.drive j := by
  simp only [Dev.drive, Dev.fput_drives]
@[simp] theorem Dev.ctx_fput (j : Nat) : (d.fput f v).ctx j = d.ctx j := by
  simp only [Dev.ctx, Dev.fput_pipes]
@[simp] theorem Dev.pane_fput (j : Nat) : (d.fput f v).pane j = d.pane j := by
  simp only [Dev.pane, Dev.fput_pipes]
@[simp] theorem Dev.latch_fput (j : Nat) : (d.fput f v).latch j = d.latch j := by
  simp only [Dev.latch, Dev.fput_pipes]
@[simp] theorem Dev.lvTable_fput (j : Nat) : (d.fput f v).lvTable j = d.lvTable j := by
  simp only [Dev.lvTable, Dev.fput_louvre]
@[simp] theorem Dev.hchan_fput (j : Nat) : (d.fput f v).hchan j = d.hchan j := by
  simp only [Dev.hchan, Dev.fput_hinge]
@[simp] theorem Dev.slot_fput (j : Nat) : (d.fput f v).slot j = d.slot j := by
  simp only [Dev.slot, Dev.fput_dig]
@[simp] theorem Dev.dgctx_fput (j : Nat) : (d.fput f v).dgctx j = d.dgctx j := by
  simp only [Dev.dgctx, Dev.fput_dig]
@[simp] theorem Dev.tunit_fput (j : Nat) : (d.fput f v).tunit j = d.tunit j := by
  simp only [Dev.tunit, Dev.fput_thr]
@[simp] theorem Dev.peer_fput (j : Nat) : (d.fput f v).peer j = d.peer j := by
  simp only [Dev.peer, Dev.fput_net]
@[simp] theorem Dev.bcas_fput (j : Nat) : (d.fput f v).bcas j = d.bcas j := by
  simp only [Dev.bcas, Dev.fput_bifold]
end

/-! ### Dev.oput -/

section
variable (d : Dev) (o : Obj) (v : Nat)
@[simp] theorem Dev.fget_oput (g : Fld) : (d.oput o v).fget g = d.fget g := by
  simp only [Dev.fget, Dev.oput_flds]
@[simp] theorem Dev.fgetB_oput (g : Fld) : (d.oput o v).fgetB g = d.fgetB g := by
  simp only [Dev.fgetB, Dev.fget, Dev.oput_flds]
@[simp] theorem Dev.queue_oput (j : Nat) : (d.oput o v).queue j = d.queue j := by
  simp only [Dev.queue, Dev.oput_jamb]
@[simp] theorem Dev.cmd_oput (j : Nat) : (d.oput o v).cmd j = d.cmd j := by
  simp only [Dev.cmd, Dev.oput_jamb]
@[simp] theorem Dev.chan_oput (j : Nat) : (d.oput o v).chan j = d.chan j := by
  simp only [Dev.chan, Dev.oput_mem]
@[simp] theorem Dev.drive_oput (j : Nat) : (d.oput o v).drive j = d.drive j := by
  simp only [Dev.drive, Dev.oput_drives]
@[simp] theorem Dev.ctx_oput (j : Nat) : (d.oput o v).ctx j = d.ctx j := by
  simp only [Dev.ctx, Dev.oput_pipes]
@[simp] theorem Dev.pane_oput (j : Nat) : (d.oput o v).pane j = d.pane j := by
  simp only [Dev.pane, Dev.oput_pipes]
@[simp] theorem Dev.latch_oput (j : Nat) : (d.oput o v).latch j = d.latch j := by
  simp only [Dev.latch, Dev.oput_pipes]
@[simp] theorem Dev.lvTable_oput (j : Nat) : (d.oput o v).lvTable j = d.lvTable j := by
  simp only [Dev.lvTable, Dev.oput_louvre]
@[simp] theorem Dev.hchan_oput (j : Nat) : (d.oput o v).hchan j = d.hchan j := by
  simp only [Dev.hchan, Dev.oput_hinge]
@[simp] theorem Dev.slot_oput (j : Nat) : (d.oput o v).slot j = d.slot j := by
  simp only [Dev.slot, Dev.oput_dig]
@[simp] theorem Dev.dgctx_oput (j : Nat) : (d.oput o v).dgctx j = d.dgctx j := by
  simp only [Dev.dgctx, Dev.oput_dig]
@[simp] theorem Dev.tunit_oput (j : Nat) : (d.oput o v).tunit j = d.tunit j := by
  simp only [Dev.tunit, Dev.oput_thr]
@[simp] theorem Dev.peer_oput (j : Nat) : (d.oput o v).peer j = d.peer j := by
  simp only [Dev.peer, Dev.oput_net]
@[simp] theorem Dev.bcas_oput (j : Nat) : (d.oput o v).bcas j = d.bcas j := by
  simp only [Dev.bcas, Dev.oput_bifold]
end

/-! ### Dev.emit -/

section
variable (d : Dev) (o : Out)
@[simp] theorem Dev.fget_emit (g : Fld) : (d.emit o).fget g = d.fget g := by
  simp only [Dev.fget, Dev.emit_flds]
@[simp] theorem Dev.fgetB_emit (g : Fld) : (d.emit o).fgetB g = d.fgetB g := by
  simp only [Dev.fgetB, Dev.fget, Dev.emit_flds]
@[simp] theorem Dev.oget_emit (o2 : Obj) : (d.emit o).oget o2 = d.oget o2 := by
  simp only [Dev.oget, Dev.emit_objs]
@[simp] theorem Dev.queue_emit (j : Nat) : (d.emit o).queue j = d.queue j := by
  simp only [Dev.queue, Dev.emit_jamb]
@[simp] theorem Dev.cmd_emit (j : Nat) : (d.emit o).cmd j = d.cmd j := by
  simp only [Dev.cmd, Dev.emit_jamb]
@[simp] theorem Dev.chan_emit (j : Nat) : (d.emit o).chan j = d.chan j := by
  simp only [Dev.chan, Dev.emit_mem]
@[simp] theorem Dev.drive_emit (j : Nat) : (d.emit o).drive j = d.drive j := by
  simp only [Dev.drive, Dev.emit_drives]
@[simp] theorem Dev.ctx_emit (j : Nat) : (d.emit o).ctx j = d.ctx j := by
  simp only [Dev.ctx, Dev.emit_pipes]
@[simp] theorem Dev.pane_emit (j : Nat) : (d.emit o).pane j = d.pane j := by
  simp only [Dev.pane, Dev.emit_pipes]
@[simp] theorem Dev.latch_emit (j : Nat) : (d.emit o).latch j = d.latch j := by
  simp only [Dev.latch, Dev.emit_pipes]
@[simp] theorem Dev.lvTable_emit (j : Nat) : (d.emit o).lvTable j = d.lvTable j := by
  simp only [Dev.lvTable, Dev.emit_louvre]
@[simp] theorem Dev.hchan_emit (j : Nat) : (d.emit o).hchan j = d.hchan j := by
  simp only [Dev.hchan, Dev.emit_hinge]
@[simp] theorem Dev.slot_emit (j : Nat) : (d.emit o).slot j = d.slot j := by
  simp only [Dev.slot, Dev.emit_dig]
@[simp] theorem Dev.dgctx_emit (j : Nat) : (d.emit o).dgctx j = d.dgctx j := by
  simp only [Dev.dgctx, Dev.emit_dig]
@[simp] theorem Dev.tunit_emit (j : Nat) : (d.emit o).tunit j = d.tunit j := by
  simp only [Dev.tunit, Dev.emit_thr]
@[simp] theorem Dev.peer_emit (j : Nat) : (d.emit o).peer j = d.peer j := by
  simp only [Dev.peer, Dev.emit_net]
@[simp] theorem Dev.bcas_emit (j : Nat) : (d.emit o).bcas j = d.bcas j := by
  simp only [Dev.bcas, Dev.emit_bifold]
end

/-! ### Dev.hostWrite -/

section
variable (d : Dev) (a : Nat) (bs : Bytes)
@[simp] theorem Dev.fget_hostWrite (g : Fld) : (d.hostWrite a bs).fget g = d.fget g := by
  simp only [Dev.fget, Dev.hostWrite_flds]
@[simp] theorem Dev.fgetB_hostWrite (g : Fld) : (d.hostWrite a bs).fgetB g = d.fgetB g := by
  simp only [Dev.fgetB, Dev.fget, Dev.hostWrite_flds]
@[simp] theorem Dev.oget_hostWrite (o2 : Obj) : (d.hostWrite a bs).oget o2 = d.oget o2 := by
  simp only [Dev.oget, Dev.hostWrite_objs]
@[simp] theorem Dev.queue_hostWrite (j : Nat) : (d.hostWrite a bs).queue j = d.queue j := by
  simp only [Dev.queue, Dev.hostWrite_jamb]
@[simp] theorem Dev.cmd_hostWrite (j : Nat) : (d.hostWrite a bs).cmd j = d.cmd j := by
  simp only [Dev.cmd, Dev.hostWrite_jamb]
@[simp] theorem Dev.chan_hostWrite (j : Nat) : (d.hostWrite a bs).chan j = d.chan j := by
  simp only [Dev.chan, Dev.hostWrite_mem]
@[simp] theorem Dev.drive_hostWrite (j : Nat) : (d.hostWrite a bs).drive j = d.drive j := by
  simp only [Dev.drive, Dev.hostWrite_drives]
@[simp] theorem Dev.ctx_hostWrite (j : Nat) : (d.hostWrite a bs).ctx j = d.ctx j := by
  simp only [Dev.ctx, Dev.hostWrite_pipes]
@[simp] theorem Dev.pane_hostWrite (j : Nat) : (d.hostWrite a bs).pane j = d.pane j := by
  simp only [Dev.pane, Dev.hostWrite_pipes]
@[simp] theorem Dev.latch_hostWrite (j : Nat) : (d.hostWrite a bs).latch j = d.latch j := by
  simp only [Dev.latch, Dev.hostWrite_pipes]
@[simp] theorem Dev.lvTable_hostWrite (j : Nat) : (d.hostWrite a bs).lvTable j = d.lvTable j := by
  simp only [Dev.lvTable, Dev.hostWrite_louvre]
@[simp] theorem Dev.hchan_hostWrite (j : Nat) : (d.hostWrite a bs).hchan j = d.hchan j := by
  simp only [Dev.hchan, Dev.hostWrite_hinge]
@[simp] theorem Dev.slot_hostWrite (j : Nat) : (d.hostWrite a bs).slot j = d.slot j := by
  simp only [Dev.slot, Dev.hostWrite_dig]
@[simp] theorem Dev.dgctx_hostWrite (j : Nat) : (d.hostWrite a bs).dgctx j = d.dgctx j := by
  simp only [Dev.dgctx, Dev.hostWrite_dig]
@[simp] theorem Dev.tunit_hostWrite (j : Nat) : (d.hostWrite a bs).tunit j = d.tunit j := by
  simp only [Dev.tunit, Dev.hostWrite_thr]
@[simp] theorem Dev.peer_hostWrite (j : Nat) : (d.hostWrite a bs).peer j = d.peer j := by
  simp only [Dev.peer, Dev.hostWrite_net]
@[simp] theorem Dev.bcas_hostWrite (j : Nat) : (d.hostWrite a bs).bcas j = d.bcas j := by
  simp only [Dev.bcas, Dev.hostWrite_bifold]
end

/-! ### Dev.setChan -/

section
variable (d : Dev) (c : Nat) (x : Chan)
@[simp] theorem Dev.fget_setChan (g : Fld) : (d.setChan c x).fget g = d.fget g := by
  simp only [Dev.fget, Dev.setChan_flds]
@[simp] theorem Dev.fgetB_setChan (g : Fld) : (d.setChan c x).fgetB g = d.fgetB g := by
  simp only [Dev.fgetB, Dev.fget, Dev.setChan_flds]
@[simp] theorem Dev.oget_setChan (o2 : Obj) : (d.setChan c x).oget o2 = d.oget o2 := by
  simp only [Dev.oget, Dev.setChan_objs]
@[simp] theorem Dev.queue_setChan (j : Nat) : (d.setChan c x).queue j = d.queue j := by
  simp only [Dev.queue, Dev.setChan_jamb]
@[simp] theorem Dev.cmd_setChan (j : Nat) : (d.setChan c x).cmd j = d.cmd j := by
  simp only [Dev.cmd, Dev.setChan_jamb]
@[simp] theorem Dev.drive_setChan (j : Nat) : (d.setChan c x).drive j = d.drive j := by
  simp only [Dev.drive, Dev.setChan_drives]
@[simp] theorem Dev.ctx_setChan (j : Nat) : (d.setChan c x).ctx j = d.ctx j := by
  simp only [Dev.ctx, Dev.setChan_pipes]
@[simp] theorem Dev.pane_setChan (j : Nat) : (d.setChan c x).pane j = d.pane j := by
  simp only [Dev.pane, Dev.setChan_pipes]
@[simp] theorem Dev.latch_setChan (j : Nat) : (d.setChan c x).latch j = d.latch j := by
  simp only [Dev.latch, Dev.setChan_pipes]
@[simp] theorem Dev.lvTable_setChan (j : Nat) : (d.setChan c x).lvTable j = d.lvTable j := by
  simp only [Dev.lvTable, Dev.setChan_louvre]
@[simp] theorem Dev.hchan_setChan (j : Nat) : (d.setChan c x).hchan j = d.hchan j := by
  simp only [Dev.hchan, Dev.setChan_hinge]
@[simp] theorem Dev.slot_setChan (j : Nat) : (d.setChan c x).slot j = d.slot j := by
  simp only [Dev.slot, Dev.setChan_dig]
@[simp] theorem Dev.dgctx_setChan (j : Nat) : (d.setChan c x).dgctx j = d.dgctx j := by
  simp only [Dev.dgctx, Dev.setChan_dig]
@[simp] theorem Dev.tunit_setChan (j : Nat) : (d.setChan c x).tunit j = d.tunit j := by
  simp only [Dev.tunit, Dev.setChan_thr]
@[simp] theorem Dev.peer_setChan (j : Nat) : (d.setChan c x).peer j = d.peer j := by
  simp only [Dev.peer, Dev.setChan_net]
@[simp] theorem Dev.bcas_setChan (j : Nat) : (d.setChan c x).bcas j = d.bcas j := by
  simp only [Dev.bcas, Dev.setChan_bifold]
end

/-! ### Dev.setSbank -/

section
variable (d : Dev) (c b : Nat) (x : SBank)
@[simp] theorem Dev.fget_setSbank (g : Fld) : (d.setSbank c b x).fget g = d.fget g := by
  simp only [Dev.fget, Dev.setSbank_flds]
@[simp] theorem Dev.fgetB_setSbank (g : Fld) : (d.setSbank c b x).fgetB g = d.fgetB g := by
  simp only [Dev.fgetB, Dev.fget, Dev.setSbank_flds]
@[simp] theorem Dev.oget_setSbank (o2 : Obj) : (d.setSbank c b x).oget o2 = d.oget o2 := by
  simp only [Dev.oget, Dev.setSbank_objs]
@[simp] theorem Dev.queue_setSbank (j : Nat) : (d.setSbank c b x).queue j = d.queue j := by
  simp only [Dev.queue, Dev.setSbank_jamb]
@[simp] theorem Dev.cmd_setSbank (j : Nat) : (d.setSbank c b x).cmd j = d.cmd j := by
  simp only [Dev.cmd, Dev.setSbank_jamb]
@[simp] theorem Dev.chan_setSbank (j : Nat) : (d.setSbank c b x).chan j = d.chan j := by
  simp only [Dev.chan, Dev.setSbank_mem]
@[simp] theorem Dev.drive_setSbank (j : Nat) : (d.setSbank c b x).drive j = d.drive j := by
  simp only [Dev.drive, Dev.setSbank_drives]
@[simp] theorem Dev.ctx_setSbank (j : Nat) : (d.setSbank c b x).ctx j = d.ctx j := by
  simp only [Dev.ctx, Dev.setSbank_pipes]
@[simp] theorem Dev.pane_setSbank (j : Nat) : (d.setSbank c b x).pane j = d.pane j := by
  simp only [Dev.pane, Dev.setSbank_pipes]
@[simp] theorem Dev.latch_setSbank (j : Nat) : (d.setSbank c b x).latch j = d.latch j := by
  simp only [Dev.latch, Dev.setSbank_pipes]
@[simp] theorem Dev.lvTable_setSbank (j : Nat) : (d.setSbank c b x).lvTable j = d.lvTable j := by
  simp only [Dev.lvTable, Dev.setSbank_louvre]
@[simp] theorem Dev.hchan_setSbank (j : Nat) : (d.setSbank c b x).hchan j = d.hchan j := by
  simp only [Dev.hchan, Dev.setSbank_hinge]
@[simp] theorem Dev.slot_setSbank (j : Nat) : (d.setSbank c b x).slot j = d.slot j := by
  simp only [Dev.slot, Dev.setSbank_dig]
@[simp] theorem Dev.dgctx_setSbank (j : Nat) : (d.setSbank c b x).dgctx j = d.dgctx j := by
  simp only [Dev.dgctx, Dev.setSbank_dig]
@[simp] theorem Dev.tunit_setSbank (j : Nat) : (d.setSbank c b x).tunit j = d.tunit j := by
  simp only [Dev.tunit, Dev.setSbank_thr]
@[simp] theorem Dev.peer_setSbank (j : Nat) : (d.setSbank c b x).peer j = d.peer j := by
  simp only [Dev.peer, Dev.setSbank_net]
@[simp] theorem Dev.bcas_setSbank (j : Nat) : (d.setSbank c b x).bcas j = d.bcas j := by
  simp only [Dev.bcas, Dev.setSbank_bifold]
end

/-! ### Dev.setQueue -/

section
variable (d : Dev) (q : Nat) (x : Queue)
@[simp] theorem Dev.fget_setQueue (g : Fld) : (d.setQueue q x).fget g = d.fget g := by
  simp only [Dev.fget, Dev.setQueue_flds]
@[simp] theorem Dev.fgetB_setQueue (g : Fld) : (d.setQueue q x).fgetB g = d.fgetB g := by
  simp only [Dev.fgetB, Dev.fget, Dev.setQueue_flds]
@[simp] theorem Dev.oget_setQueue (o2 : Obj) : (d.setQueue q x).oget o2 = d.oget o2 := by
  simp only [Dev.oget, Dev.setQueue_objs]
@[simp] theorem Dev.cmd_setQueue (j : Nat) : (d.setQueue q x).cmd j = d.cmd j := by
  simp only [Dev.cmd, Dev.setQueue_jamb_cmds]
@[simp] theorem Dev.chan_setQueue (j : Nat) : (d.setQueue q x).chan j = d.chan j := by
  simp only [Dev.chan, Dev.setQueue_mem]
@[simp] theorem Dev.drive_setQueue (j : Nat) : (d.setQueue q x).drive j = d.drive j := by
  simp only [Dev.drive, Dev.setQueue_drives]
@[simp] theorem Dev.ctx_setQueue (j : Nat) : (d.setQueue q x).ctx j = d.ctx j := by
  simp only [Dev.ctx, Dev.setQueue_pipes]
@[simp] theorem Dev.pane_setQueue (j : Nat) : (d.setQueue q x).pane j = d.pane j := by
  simp only [Dev.pane, Dev.setQueue_pipes]
@[simp] theorem Dev.latch_setQueue (j : Nat) : (d.setQueue q x).latch j = d.latch j := by
  simp only [Dev.latch, Dev.setQueue_pipes]
@[simp] theorem Dev.lvTable_setQueue (j : Nat) : (d.setQueue q x).lvTable j = d.lvTable j := by
  simp only [Dev.lvTable, Dev.setQueue_louvre]
@[simp] theorem Dev.hchan_setQueue (j : Nat) : (d.setQueue q x).hchan j = d.hchan j := by
  simp only [Dev.hchan, Dev.setQueue_hinge]
@[simp] theorem Dev.slot_setQueue (j : Nat) : (d.setQueue q x).slot j = d.slot j := by
  simp only [Dev.slot, Dev.setQueue_dig]
@[simp] theorem Dev.dgctx_setQueue (j : Nat) : (d.setQueue q x).dgctx j = d.dgctx j := by
  simp only [Dev.dgctx, Dev.setQueue_dig]
@[simp] theorem Dev.tunit_setQueue (j : Nat) : (d.setQueue q x).tunit j = d.tunit j := by
  simp only [Dev.tunit, Dev.setQueue_thr]
@[simp] theorem Dev.peer_setQueue (j : Nat) : (d.setQueue q x).peer j = d.peer j := by
  simp only [Dev.peer, Dev.setQueue_net]
@[simp] theorem Dev.bcas_setQueue (j : Nat) : (d.setQueue q x).bcas j = d.bcas j := by
  simp only [Dev.bcas, Dev.setQueue_bifold]
end

/-! ### Dev.mapCmd -/

section
variable (d : Dev) (id : Nat) (f : Cmd → Cmd)
@[simp] theorem Dev.fget_mapCmd (g : Fld) : (d.mapCmd id f).fget g = d.fget g := by
  simp only [Dev.fget, Dev.mapCmd_flds]
@[simp] theorem Dev.fgetB_mapCmd (g : Fld) : (d.mapCmd id f).fgetB g = d.fgetB g := by
  simp only [Dev.fgetB, Dev.fget, Dev.mapCmd_flds]
@[simp] theorem Dev.oget_mapCmd (o2 : Obj) : (d.mapCmd id f).oget o2 = d.oget o2 := by
  simp only [Dev.oget, Dev.mapCmd_objs]
@[simp] theorem Dev.queue_mapCmd (j : Nat) : (d.mapCmd id f).queue j = d.queue j := by
  simp only [Dev.queue, Dev.mapCmd_jamb_queues]
@[simp] theorem Dev.chan_mapCmd (j : Nat) : (d.mapCmd id f).chan j = d.chan j := by
  simp only [Dev.chan, Dev.mapCmd_mem]
@[simp] theorem Dev.drive_mapCmd (j : Nat) : (d.mapCmd id f).drive j = d.drive j := by
  simp only [Dev.drive, Dev.mapCmd_drives]
@[simp] theorem Dev.ctx_mapCmd (j : Nat) : (d.mapCmd id f).ctx j = d.ctx j := by
  simp only [Dev.ctx, Dev.mapCmd_pipes]
@[simp] theorem Dev.pane_mapCmd (j : Nat) : (d.mapCmd id f).pane j = d.pane j := by
  simp only [Dev.pane, Dev.mapCmd_pipes]
@[simp] theorem Dev.latch_mapCmd (j : Nat) : (d.mapCmd id f).latch j = d.latch j := by
  simp only [Dev.latch, Dev.mapCmd_pipes]
@[simp] theorem Dev.lvTable_mapCmd (j : Nat) : (d.mapCmd id f).lvTable j = d.lvTable j := by
  simp only [Dev.lvTable, Dev.mapCmd_louvre]
@[simp] theorem Dev.hchan_mapCmd (j : Nat) : (d.mapCmd id f).hchan j = d.hchan j := by
  simp only [Dev.hchan, Dev.mapCmd_hinge]
@[simp] theorem Dev.slot_mapCmd (j : Nat) : (d.mapCmd id f).slot j = d.slot j := by
  simp only [Dev.slot, Dev.mapCmd_dig]
@[simp] theorem Dev.dgctx_mapCmd (j : Nat) : (d.mapCmd id f).dgctx j = d.dgctx j := by
  simp only [Dev.dgctx, Dev.mapCmd_dig]
@[simp] theorem Dev.tunit_mapCmd (j : Nat) : (d.mapCmd id f).tunit j = d.tunit j := by
  simp only [Dev.tunit, Dev.mapCmd_thr]
@[simp] theorem Dev.peer_mapCmd (j : Nat) : (d.mapCmd id f).peer j = d.peer j := by
  simp only [Dev.peer, Dev.mapCmd_net]
@[simp] theorem Dev.bcas_mapCmd (j : Nat) : (d.mapCmd id f).bcas j = d.bcas j := by
  simp only [Dev.bcas, Dev.mapCmd_bifold]
end

/-! ### Dev.dropCmd -/

section
variable (d : Dev) (id : Nat)
@[simp] theorem Dev.fget_dropCmd (g : Fld) : (d.dropCmd id).fget g = d.fget g := by
  simp only [Dev.fget, Dev.dropCmd_flds]
@[simp] theorem Dev.fgetB_dropCmd (g : Fld) : (d.dropCmd id).fgetB g = d.fgetB g := by
  simp only [Dev.fgetB, Dev.fget, Dev.dropCmd_flds]
@[simp] theorem Dev.oget_dropCmd (o2 : Obj) : (d.dropCmd id).oget o2 = d.oget o2 := by
  simp only [Dev.oget, Dev.dropCmd_objs]
@[simp] theorem Dev.queue_dropCmd (j : Nat) : (d.dropCmd id).queue j = d.queue j := by
  simp only [Dev.queue, Dev.dropCmd_jamb_queues]
@[simp] theorem Dev.chan_dropCmd (j : Nat) : (d.dropCmd id).chan j = d.chan j := by
  simp only [Dev.chan, Dev.dropCmd_mem]
@[simp] theorem Dev.drive_dropCmd (j : Nat) : (d.dropCmd id).drive j = d.drive j := by
  simp only [Dev.drive, Dev.dropCmd_drives]
@[simp] theorem Dev.ctx_dropCmd (j : Nat) : (d.dropCmd id).ctx j = d.ctx j := by
  simp only [Dev.ctx, Dev.dropCmd_pipes]
@[simp] theorem Dev.pane_dropCmd (j : Nat) : (d.dropCmd id).pane j = d.pane j := by
  simp only [Dev.pane, Dev.dropCmd_pipes]
@[simp] theorem Dev.latch_dropCmd (j : Nat) : (d.dropCmd id).latch j = d.latch j := by
  simp only [Dev.latch, Dev.dropCmd_pipes]
@[simp] theorem Dev.lvTable_dropCmd (j : Nat) : (d.dropCmd id).lvTable j = d.lvTable j := by
  simp only [Dev.lvTable, Dev.dropCmd_louvre]
@[simp] theorem Dev.hchan_dropCmd (j : Nat) : (d.dropCmd id).hchan j = d.hchan j := by
  simp only [Dev.hchan, Dev.dropCmd_hinge]
@[simp] theorem Dev.slot_dropCmd (j : Nat) : (d.dropCmd id).slot j = d.slot j := by
  simp only [Dev.slot, Dev.dropCmd_dig]
@[simp] theorem Dev.dgctx_dropCmd (j : Nat) : (d.dropCmd id).dgctx j = d.dgctx j := by
  simp only [Dev.dgctx, Dev.dropCmd_dig]
@[simp] theorem Dev.tunit_dropCmd (j : Nat) : (d.dropCmd id).tunit j = d.tunit j := by
  simp only [Dev.tunit, Dev.dropCmd_thr]
@[simp] theorem Dev.peer_dropCmd (j : Nat) : (d.dropCmd id).peer j = d.peer j := by
  simp only [Dev.peer, Dev.dropCmd_net]
@[simp] theorem Dev.bcas_dropCmd (j : Nat) : (d.dropCmd id).bcas j = d.bcas j := by
  simp only [Dev.bcas, Dev.dropCmd_bifold]
end

/-! ### Dev.addCmd -/

section
variable (d : Dev) (c : Cmd)
@[simp] theorem Dev.fget_addCmd (g : Fld) : (d.addCmd c).fget g = d.fget g := by
  simp only [Dev.fget, Dev.addCmd_flds]
@[simp] theorem Dev.fgetB_addCmd (g : Fld) : (d.addCmd c).fgetB g = d.fgetB g := by
  simp only [Dev.fgetB, Dev.fget, Dev.addCmd_flds]
@[simp] theorem Dev.oget_addCmd (o2 : Obj) : (d.addCmd c).oget o2 = d.oget o2 := by
  simp only [Dev.oget, Dev.addCmd_objs]
@[simp] theorem Dev.queue_addCmd (j : Nat) : (d.addCmd c).queue j = d.queue j := by
  simp only [Dev.queue, Dev.addCmd_jamb_queues]
@[simp] theorem Dev.chan_addCmd (j : Nat) : (d.addCmd c).chan j = d.chan j := by
  simp only [Dev.chan, Dev.addCmd_mem]
@[simp] theorem Dev.drive_addCmd (j : Nat) : (d.addCmd c).drive j = d.drive j := by
  simp only [Dev.drive, Dev.addCmd_drives]
@[simp] theorem Dev.ctx_addCmd (j : Nat) : (d.addCmd c).ctx j = d.ctx j := by
  simp only [Dev.ctx, Dev.addCmd_pipes]
@[simp] theorem Dev.pane_addCmd (j : Nat) : (d.addCmd c).pane j = d.pane j := by
  simp only [Dev.pane, Dev.addCmd_pipes]
@[simp] theorem Dev.latch_addCmd (j : Nat) : (d.addCmd c).latch j = d.latch j := by
  simp only [Dev.latch, Dev.addCmd_pipes]
@[simp] theorem Dev.lvTable_addCmd (j : Nat) : (d.addCmd c).lvTable j = d.lvTable j := by
  simp only [Dev.lvTable, Dev.addCmd_louvre]
@[simp] theorem Dev.hchan_addCmd (j : Nat) : (d.addCmd c).hchan j = d.hchan j := by
  simp only [Dev.hchan, Dev.addCmd_hinge]
@[simp] theorem Dev.slot_addCmd (j : Nat) : (d.addCmd c).slot j = d.slot j := by
  simp only [Dev.slot, Dev.addCmd_dig]
@[simp] theorem Dev.dgctx_addCmd (j : Nat) : (d.addCmd c).dgctx j = d.dgctx j := by
  simp only [Dev.dgctx, Dev.addCmd_dig]
@[simp] theorem Dev.tunit_addCmd (j : Nat) : (d.addCmd c).tunit j = d.tunit j := by
  simp only [Dev.tunit, Dev.addCmd_thr]
@[simp] theorem Dev.peer_addCmd (j : Nat) : (d.addCmd c).peer j = d.peer j := by
  simp only [Dev.peer, Dev.addCmd_net]
@[simp] theorem Dev.bcas_addCmd (j : Nat) : (d.addCmd c).bcas j = d.bcas j := by
  simp only [Dev.bcas, Dev.addCmd_bifold]
end

/-! ### Dev.setBcas -/

section
variable (d : Dev) (c : Nat) (x : BCas)
@[simp] theorem Dev.fget_setBcas (g : Fld) : (d.setBcas c x).fget g = d.fget g := by
  simp only [Dev.fget, Dev.setBcas_flds]
@[simp] theorem Dev.fgetB_setBcas (g : Fld) : (d.setBcas c x).fgetB g = d.fgetB g := by
  simp only [Dev.fgetB, Dev.fget, Dev.setBcas_flds]
@[simp] theorem Dev.oget_setBcas (o2 : Obj) : (d.setBcas c x).oget o2 = d.oget o2 := by
  simp only [Dev.oget, Dev.setBcas_objs]
@[simp] theorem Dev.queue_setBcas (j : Nat) : (d.setBcas c x).queue j = d.queue j := by
  simp only [Dev.queue, Dev.setBcas_jamb]
@[simp] theorem Dev.cmd_setBcas (j : Nat) : (d.setBcas c x).cmd j = d.cmd j := by
  simp only [Dev.cmd, Dev.setBcas_jamb]
@[simp] theorem Dev.chan_setBcas (j : Nat) : (d.setBcas c x).chan j = d.chan j := by
  simp only [Dev.chan, Dev.setBcas_mem]
@[simp] theorem Dev.drive_setBcas (j : Nat) : (d.setBcas c x).drive j = d.drive j := by
  simp only [Dev.drive, Dev.setBcas_drives]
@[simp] theorem Dev.ctx_setBcas (j : Nat) : (d.setBcas c x).ctx j = d.ctx j := by
  simp only [Dev.ctx, Dev.setBcas_pipes]
@[simp] theorem Dev.pane_setBcas (j : Nat) : (d.setBcas c x).pane j = d.pane j := by
  simp only [Dev.pane, Dev.setBcas_pipes]
@[simp] theorem Dev.latch_setBcas (j : Nat) : (d.setBcas c x).latch j = d.latch j := by
  simp only [Dev.latch, Dev.setBcas_pipes]
@[simp] theorem Dev.lvTable_setBcas (j : Nat) : (d.setBcas c x).lvTable j = d.lvTable j := by
  simp only [Dev.lvTable, Dev.setBcas_louvre]
@[simp] theorem Dev.hchan_setBcas (j : Nat) : (d.setBcas c x).hchan j = d.hchan j := by
  simp only [Dev.hchan, Dev.setBcas_hinge]
@[simp] theorem Dev.slot_setBcas (j : Nat) : (d.setBcas c x).slot j = d.slot j := by
  simp only [Dev.slot, Dev.setBcas_dig]
@[simp] theorem Dev.dgctx_setBcas (j : Nat) : (d.setBcas c x).dgctx j = d.dgctx j := by
  simp only [Dev.dgctx, Dev.setBcas_dig]
@[simp] theorem Dev.tunit_setBcas (j : Nat) : (d.setBcas c x).tunit j = d.tunit j := by
  simp only [Dev.tunit, Dev.setBcas_thr]
@[simp] theorem Dev.peer_setBcas (j : Nat) : (d.setBcas c x).peer j = d.peer j := by
  simp only [Dev.peer, Dev.setBcas_net]
end

/-! ### Dev.mapJob -/

section
variable (d : Dev) (o : BOwner) (f : Job → Job)
@[simp] theorem Dev.fget_mapJob (g : Fld) : (d.mapJob o f).fget g = d.fget g := by
  simp only [Dev.fget, Dev.mapJob_flds]
@[simp] theorem Dev.fgetB_mapJob (g : Fld) : (d.mapJob o f).fgetB g = d.fgetB g := by
  simp only [Dev.fgetB, Dev.fget, Dev.mapJob_flds]
@[simp] theorem Dev.oget_mapJob (o2 : Obj) : (d.mapJob o f).oget o2 = d.oget o2 := by
  simp only [Dev.oget, Dev.mapJob_objs]
@[simp] theorem Dev.queue_mapJob (j : Nat) : (d.mapJob o f).queue j = d.queue j := by
  simp only [Dev.queue, Dev.mapJob_jamb]
@[simp] theorem Dev.cmd_mapJob (j : Nat) : (d.mapJob o f).cmd j = d.cmd j := by
  simp only [Dev.cmd, Dev.mapJob_jamb]
@[simp] theorem Dev.chan_mapJob (j : Nat) : (d.mapJob o f).chan j = d.chan j := by
  simp only [Dev.chan, Dev.mapJob_mem]
@[simp] theorem Dev.drive_mapJob (j : Nat) : (d.mapJob o f).drive j = d.drive j := by
  simp only [Dev.drive, Dev.mapJob_drives]
@[simp] theorem Dev.ctx_mapJob (j : Nat) : (d.mapJob o f).ctx j = d.ctx j := by
  simp only [Dev.ctx, Dev.mapJob_pipes]
@[simp] theorem Dev.pane_mapJob (j : Nat) : (d.mapJob o f).pane j = d.pane j := by
  simp only [Dev.pane, Dev.mapJob_pipes]
@[simp] theorem Dev.latch_mapJob (j : Nat) : (d.mapJob o f).latch j = d.latch j := by
  simp only [Dev.latch, Dev.mapJob_pipes]
@[simp] theorem Dev.lvTable_mapJob (j : Nat) : (d.mapJob o f).lvTable j = d.lvTable j := by
  simp only [Dev.lvTable, Dev.mapJob_louvre]
@[simp] theorem Dev.hchan_mapJob (j : Nat) : (d.mapJob o f).hchan j = d.hchan j := by
  simp only [Dev.hchan, Dev.mapJob_hinge]
@[simp] theorem Dev.slot_mapJob (j : Nat) : (d.mapJob o f).slot j = d.slot j := by
  simp only [Dev.slot, Dev.mapJob_dig]
@[simp] theorem Dev.dgctx_mapJob (j : Nat) : (d.mapJob o f).dgctx j = d.dgctx j := by
  simp only [Dev.dgctx, Dev.mapJob_dig]
@[simp] theorem Dev.tunit_mapJob (j : Nat) : (d.mapJob o f).tunit j = d.tunit j := by
  simp only [Dev.tunit, Dev.mapJob_thr]
@[simp] theorem Dev.peer_mapJob (j : Nat) : (d.mapJob o f).peer j = d.peer j := by
  simp only [Dev.peer, Dev.mapJob_net]
@[simp] theorem Dev.bcas_mapJob (j : Nat) : (d.mapJob o f).bcas j = d.bcas j := by
  simp only [Dev.bcas, Dev.mapJob_bifold_cas]
end

/-! ### Dev.setLvBank -/

section
variable (d : Dev) (c b : Nat) (x : LvBank)
@[simp] theorem Dev.fget_setLvBank (g : Fld) : (d.setLvBank c b x).fget g = d.fget g := by
  simp only [Dev.fget, Dev.setLvBank_flds]
@[simp] theorem Dev.fgetB_setLvBank (g : Fld) : (d.setLvBank c b x).fgetB g = d.fgetB g := by
  simp only [Dev.fgetB, Dev.fget, Dev.setLvBank_flds]
@[simp] theorem Dev.oget_setLvBank (o2 : Obj) : (d.setLvBank c b x).oget o2 = d.oget o2 := by
  simp only [Dev.oget, Dev.setLvBank_objs]
@[simp] theorem Dev.queue_setLvBank (j : Nat) : (d.setLvBank c b x).queue j = d.queue j := by
  simp only [Dev.queue, Dev.setLvBank_jamb]
@[simp] theorem Dev.cmd_setLvBank (j : Nat) : (d.setLvBank c b x).cmd j = d.cmd j := by
  simp only [Dev.cmd, Dev.setLvBank_jamb]
@[simp] theorem Dev.chan_setLvBank (j : Nat) : (d.setLvBank c b x).chan j = d.chan j := by
  simp only [Dev.chan, Dev.setLvBank_mem]
@[simp] theorem Dev.drive_setLvBank (j : Nat) : (d.setLvBank c b x).drive j = d.drive j := by
  simp only [Dev.drive, Dev.setLvBank_drives]
@[simp] theorem Dev.ctx_setLvBank (j : Nat) : (d.setLvBank c b x).ctx j = d.ctx j := by
  simp only [Dev.ctx, Dev.setLvBank_pipes]
@[simp] theorem Dev.pane_setLvBank (j : Nat) : (d.setLvBank c b x).pane j = d.pane j := by
  simp only [Dev.pane, Dev.setLvBank_pipes]
@[simp] theorem Dev.latch_setLvBank (j : Nat) : (d.setLvBank c b x).latch j = d.latch j := by
  simp only [Dev.latch, Dev.setLvBank_pipes]
@[simp] theorem Dev.lvTable_setLvBank (j : Nat) : (d.setLvBank c b x).lvTable j = d.lvTable j := by
  simp only [Dev.lvTable, Dev.setLvBank_louvre_tables]
@[simp] theorem Dev.hchan_setLvBank (j : Nat) : (d.setLvBank c b x).hchan j = d.hchan j := by
  simp only [Dev.hchan, Dev.setLvBank_hinge]
@[simp] theorem Dev.slot_setLvBank (j : Nat) : (d.setLvBank c b x).slot j = d.slot j := by
  simp only [Dev.slot, Dev.setLvBank_dig]
@[simp] theorem Dev.dgctx_setLvBank (j : Nat) : (d.setLvBank c b x).dgctx j = d.dgctx j := by
  simp only [Dev.dgctx, Dev.setLvBank_dig]
@[simp] theorem Dev.tunit_setLvBank (j : Nat) : (d.setLvBank c b x).tunit j = d.tunit j := by
  simp only [Dev.tunit, Dev.setLvBank_thr]
@[simp] theorem Dev.peer_setLvBank (j : Nat) : (d.setLvBank c b x).peer j = d.peer j := by
  simp only [Dev.peer, Dev.setLvBank_net]
@[simp] theorem Dev.bcas_setLvBank (j : Nat) : (d.setLvBank c b x).bcas j = d.bcas j := by
  simp only [Dev.bcas, Dev.setLvBank_bifold]
end

/-! ### Dev.setLvTable -/

section
variable (d : Dev) (t : Nat) (x : Option LvTable)
@[simp] theorem Dev.fget_setLvTable (g : Fld) : (d.setLvTable t x).fget g = d.fget g := by
  simp only [Dev.fget, Dev.setLvTable_flds]
@[simp] theorem Dev.fgetB_setLvTable (g : Fld) : (d.setLvTable t x).fgetB g = d.fgetB g := by
  simp only [Dev.fgetB, Dev.fget, Dev.setLvTable_flds]
@[simp] theorem Dev.oget_setLvTable (o2 : Obj) : (d.setLvTable t x).oget o2 = d.oget o2 := by
  simp only [Dev.oget, Dev.setLvTable_objs]
@[simp] theorem Dev.queue_setLvTable (j : Nat) : (d.setLvTable t x).queue j = d.queue j := by
  simp only [Dev.queue, Dev.setLvTable_jamb]
@[simp] theorem Dev.cmd_setLvTable (j : Nat) : (d.setLvTable t x).cmd j = d.cmd j := by
  simp only [Dev.cmd, Dev.setLvTable_jamb]
@[simp] theorem Dev.chan_setLvTable (j : Nat) : (d.setLvTable t x).chan j = d.chan j := by
  simp only [Dev.chan, Dev.setLvTable_mem]
@[simp] theorem Dev.drive_setLvTable (j : Nat) : (d.setLvTable t x).drive j = d.drive j := by
  simp only [Dev.drive, Dev.setLvTable_drives]
@[simp] theorem Dev.ctx_setLvTable (j : Nat) : (d.setLvTable t x).ctx j = d.ctx j := by
  simp only [Dev.ctx, Dev.setLvTable_pipes]
@[simp] theorem Dev.pane_setLvTable (j : Nat) : (d.setLvTable t x).pane j = d.pane j := by
  simp only [Dev.pane, Dev.setLvTable_pipes]
@[simp] theorem Dev.latch_setLvTable (j : Nat) : (d.setLvTable t x).latch j = d.latch j := by
  simp only [Dev.latch, Dev.setLvTable_pipes]
@[simp] theorem Dev.hchan_setLvTable (j : Nat) : (d.setLvTable t x).hchan j = d.hchan j := by
  simp only [Dev.hchan, Dev.setLvTable_hinge]
@[simp] theorem Dev.slot_setLvTable (j : Nat) : (d.setLvTable t x).slot j = d.slot j := by
  simp only [Dev.slot, Dev.setLvTable_dig]
@[simp] theorem Dev.dgctx_setLvTable (j : Nat) : (d.setLvTable t x).dgctx j = d.dgctx j := by
  simp only [Dev.dgctx, Dev.setLvTable_dig]
@[simp] theorem Dev.tunit_setLvTable (j : Nat) : (d.setLvTable t x).tunit j = d.tunit j := by
  simp only [Dev.tunit, Dev.setLvTable_thr]
@[simp] theorem Dev.peer_setLvTable (j : Nat) : (d.setLvTable t x).peer j = d.peer j := by
  simp only [Dev.peer, Dev.setLvTable_net]
@[simp] theorem Dev.bcas_setLvTable (j : Nat) : (d.setLvTable t x).bcas j = d.bcas j := by
  simp only [Dev.bcas, Dev.setLvTable_bifold]
end

/-! ### Dev.setHchan -/

section
variable (d : Dev) (n : Nat) (x : HChan)
@[simp] theorem Dev.fget_setHchan (g : Fld) : (d.setHchan n x).fget g = d.fget g := by
  simp only [Dev.fget, Dev.setHchan_flds]
@[simp] theorem Dev.fgetB_setHchan (g : Fld) : (d.setHchan n x).fgetB g = d.fgetB g := by
  simp only [Dev.fgetB, Dev.fget, Dev.setHchan_flds]
@[simp] theorem Dev.oget_setHchan (o2 : Obj) : (d.setHchan n x).oget o2 = d.oget o2 := by
  simp only [Dev.oget, Dev.setHchan_objs]
@[simp] theorem Dev.queue_setHchan (j : Nat) : (d.setHchan n x).queue j = d.queue j := by
  simp only [Dev.queue, Dev.setHchan_jamb]
@[simp] theorem Dev.cmd_setHchan (j : Nat) : (d.setHchan n x).cmd j = d.cmd j := by
  simp only [Dev.cmd, Dev.setHchan_jamb]
@[simp] theorem Dev.chan_setHchan (j : Nat) : (d.setHchan n x).chan j = d.chan j := by
  simp only [Dev.chan, Dev.setHchan_mem]
@[simp] theorem Dev.drive_setHchan (j : Nat) : (d.setHchan n x).drive j = d.drive j := by
  simp only [Dev.drive, Dev.setHchan_drives]
@[simp] theorem Dev.ctx_setHchan (j : Nat) : (d.setHchan n x).ctx j = d.ctx j := by
  simp only [Dev.ctx, Dev.setHchan_pipes]
@[simp] theorem Dev.pane_setHchan (j : Nat) : (d.setHchan n x).pane j = d.pane j := by
  simp only [Dev.pane, Dev.setHchan_pipes]
@[simp] theorem Dev.latch_setHchan (j : Nat) : (d.setHchan n x).latch j = d.latch j := by
  simp only [Dev.latch, Dev.setHchan_pipes]
@[simp] theorem Dev.lvTable_setHchan (j : Nat) : (d.setHchan n x).lvTable j = d.lvTable j := by
  simp only [Dev.lvTable, Dev.setHchan_louvre]
@[simp] theorem Dev.slot_setHchan (j : Nat) : (d.setHchan n x).slot j = d.slot j := by
  simp only [Dev.slot, Dev.setHchan_dig]
@[simp] theorem Dev.dgctx_setHchan (j : Nat) : (d.setHchan n x).dgctx j = d.dgctx j := by
  simp only [Dev.dgctx, Dev.setHchan_dig]
@[simp] theorem Dev.tunit_setHchan (j : Nat) : (d.setHchan n x).tunit j = d.tunit j := by
  simp only [Dev.tunit, Dev.setHchan_thr]
@[simp] theorem Dev.peer_setHchan (j : Nat) : (d.setHchan n x).peer j = d.peer j := by
  simp only [Dev.peer, Dev.setHchan_net]
@[simp] theorem Dev.bcas_setHchan (j : Nat) : (d.setHchan n x).bcas j = d.bcas j := by
  simp only [Dev.bcas, Dev.setHchan_bifold]
end

/-! ### Dev.setDrive -/

section
variable (d : Dev) (s : Nat) (x : Drive)
@[simp] theorem Dev.fget_setDrive (g : Fld) : (d.setDrive s x).fget g = d.fget g := by
  simp only [Dev.fget, Dev.setDrive_flds]
@[simp] theorem Dev.fgetB_setDrive (g : Fld) : (d.setDrive s x).fgetB g = d.fgetB g := by
  simp only [Dev.fgetB, Dev.fget, Dev.setDrive_flds]
@[simp] theorem Dev.oget_setDrive (o2 : Obj) : (d.setDrive s x).oget o2 = d.oget o2 := by
  simp only [Dev.oget, Dev.setDrive_objs]
@[simp] theorem Dev.queue_setDrive (j : Nat) : (d.setDrive s x).queue j = d.queue j := by
  simp only [Dev.queue, Dev.setDrive_jamb]
@[simp] theorem Dev.cmd_setDrive (j : Nat) : (d.setDrive s x).cmd j = d.cmd j := by
  simp only [Dev.cmd, Dev.setDrive_jamb]
@[simp] theorem Dev.chan_setDrive (j : Nat) : (d.setDrive s x).chan j = d.chan j := by
  simp only [Dev.chan, Dev.setDrive_mem]
@[simp] theorem Dev.ctx_setDrive (j : Nat) : (d.setDrive s x).ctx j = d.ctx j := by
  simp only [Dev.ctx, Dev.setDrive_pipes]
@[simp] theorem Dev.pane_setDrive (j : Nat) : (d.setDrive s x).pane j = d.pane j := by
  simp only [Dev.pane, Dev.setDrive_pipes]
@[simp] theorem Dev.latch_setDrive (j : Nat) : (d.setDrive s x).latch j = d.latch j := by
  simp only [Dev.latch, Dev.setDrive_pipes]
@[simp] theorem Dev.lvTable_setDrive (j : Nat) : (d.setDrive s x).lvTable j = d.lvTable j := by
  simp only [Dev.lvTable, Dev.setDrive_louvre]
@[simp] theorem Dev.hchan_setDrive (j : Nat) : (d.setDrive s x).hchan j = d.hchan j := by
  simp only [Dev.hchan, Dev.setDrive_hinge]
@[simp] theorem Dev.slot_setDrive (j : Nat) : (d.setDrive s x).slot j = d.slot j := by
  simp only [Dev.slot, Dev.setDrive_dig]
@[simp] theorem Dev.dgctx_setDrive (j : Nat) : (d.setDrive s x).dgctx j = d.dgctx j := by
  simp only [Dev.dgctx, Dev.setDrive_dig]
@[simp] theorem Dev.tunit_setDrive (j : Nat) : (d.setDrive s x).tunit j = d.tunit j := by
  simp only [Dev.tunit, Dev.setDrive_thr]
@[simp] theorem Dev.peer_setDrive (j : Nat) : (d.setDrive s x).peer j = d.peer j := by
  simp only [Dev.peer, Dev.setDrive_net]
@[simp] theorem Dev.bcas_setDrive (j : Nat) : (d.setDrive s x).bcas j = d.bcas j := by
  simp only [Dev.bcas, Dev.setDrive_bifold]
end

/-! ### Dev.mapStores -/

section
variable (d : Dev) (p : Stg → Bool) (f : Stg → Stg)
@[simp] theorem Dev.fget_mapStores (g : Fld) : (d.mapStores p f).fget g = d.fget g := by
  simp only [Dev.fget, Dev.mapStores_flds]
@[simp] theorem Dev.fgetB_mapStores (g : Fld) : (d.mapStores p f).fgetB g = d.fgetB g := by
  simp only [Dev.fgetB, Dev.fget, Dev.mapStores_flds]
@[simp] theorem Dev.oget_mapStores (o2 : Obj) : (d.mapStores p f).oget o2 = d.oget o2 := by
  simp only [Dev.oget, Dev.mapStores_objs]
@[simp] theorem Dev.queue_mapStores (j : Nat) : (d.mapStores p f).queue j = d.queue j := by
  simp only [Dev.queue, Dev.mapStores_jamb]
@[simp] theorem Dev.cmd_mapStores (j : Nat) : (d.mapStores p f).cmd j = d.cmd j := by
  simp only [Dev.cmd, Dev.mapStores_jamb]
@[simp] theorem Dev.chan_mapStores (j : Nat) : (d.mapStores p f).chan j = d.chan j := by
  simp only [Dev.chan, Dev.mapStores_mem]
@[simp] theorem Dev.drive_mapStores (j : Nat) : (d.mapStores p f).drive j = d.drive j := by
  simp only [Dev.drive, Dev.mapStores_drives]
@[simp] theorem Dev.ctx_mapStores (j : Nat) : (d.mapStores p f).ctx j = d.ctx j := by
  simp only [Dev.ctx, Dev.mapStores_pipes]
@[simp] theorem Dev.pane_mapStores (j : Nat) : (d.mapStores p f).pane j = d.pane j := by
  simp only [Dev.pane, Dev.mapStores_pipes]
@[simp] theorem Dev.latch_mapStores (j : Nat) : (d.mapStores p f).latch j = d.latch j := by
  simp only [Dev.latch, Dev.mapStores_pipes]
@[simp] theorem Dev.lvTable_mapStores (j : Nat) : (d.mapStores p f).lvTable j = d.lvTable j := by
  simp only [Dev.lvTable, Dev.mapStores_louvre]
@[simp] theorem Dev.hchan_mapStores (j : Nat) : (d.mapStores p f).hchan j = d.hchan j := by
  simp only [Dev.hchan, Dev.mapStores_hinge]
@[simp] theorem Dev.slot_mapStores (j : Nat) : (d.mapStores p f).slot j = d.slot j := by
  simp only [Dev.slot, Dev.mapStores_dig]
@[simp] theorem Dev.dgctx_mapStores (j : Nat) : (d.mapStores p f).dgctx j = d.dgctx j := by
  simp only [Dev.dgctx, Dev.mapStores_dig]
@[simp] theorem Dev.tunit_mapStores (j : Nat) : (d.mapStores p f).tunit j = d.tunit j := by
  simp only [Dev.tunit, Dev.mapStores_thr_units]
@[simp] theorem Dev.peer_mapStores (j : Nat) : (d.mapStores p f).peer j = d.peer j := by
  simp only [Dev.peer, Dev.mapStores_net]
@[simp] theorem Dev.bcas_mapStores (j : Nat) : (d.mapStores p f).bcas j = d.bcas j := by
  simp only [Dev.bcas, Dev.mapStores_bifold]
end

/-! ### Dev.setUnit -/

section
variable (d : Dev) (u : Nat) (x : TUnit)
@[simp] theorem Dev.fget_setUnit (g : Fld) : (d.setUnit u x).fget g = d.fget g := by
  simp only [Dev.fget, Dev.setUnit_flds]
@[simp] theorem Dev.fgetB_setUnit (g : Fld) : (d.setUnit u x).fgetB g = d.fgetB g := by
  simp only [Dev.fgetB, Dev.fget, Dev.setUnit_flds]
@[simp] theorem Dev.oget_setUnit (o2 : Obj) : (d.setUnit u x).oget o2 = d.oget o2 := by
  simp only [Dev.oget, Dev.setUnit_objs]
@[simp] theorem Dev.queue_setUnit (j : Nat) : (d.setUnit u x).queue j = d.queue j := by
  simp only [Dev.queue, Dev.setUnit_jamb]
@[simp] theorem Dev.cmd_setUnit (j : Nat) : (d.setUnit u x).cmd j = d.cmd j := by
  simp only [Dev.cmd, Dev.setUnit_jamb]
@[simp] theorem Dev.chan_setUnit (j : Nat) : (d.setUnit u x).chan j = d.chan j := by
  simp only [Dev.chan, Dev.setUnit_mem]
@[simp] theorem Dev.drive_setUnit (j : Nat) : (d.setUnit u x).drive j = d.drive j := by
  simp only [Dev.drive, Dev.setUnit_drives]
@[simp] theorem Dev.ctx_setUnit (j : Nat) : (d.setUnit u x).ctx j = d.ctx j := by
  simp only [Dev.ctx, Dev.setUnit_pipes]
@[simp] theorem Dev.pane_setUnit (j : Nat) : (d.setUnit u x).pane j = d.pane j := by
  simp only [Dev.pane, Dev.setUnit_pipes]
@[simp] theorem Dev.latch_setUnit (j : Nat) : (d.setUnit u x).latch j = d.latch j := by
  simp only [Dev.latch, Dev.setUnit_pipes]
@[simp] theorem Dev.lvTable_setUnit (j : Nat) : (d.setUnit u x).lvTable j = d.lvTable j := by
  simp only [Dev.lvTable, Dev.setUnit_louvre]
@[simp] theorem Dev.hchan_setUnit (j : Nat) : (d.setUnit u x).hchan j = d.hchan j := by
  simp only [Dev.hchan, Dev.setUnit_hinge]
@[simp] theorem Dev.slot_setUnit (j : Nat) : (d.setUnit u x).slot j = d.slot j := by
  simp only [Dev.slot, Dev.setUnit_dig]
@[simp] theorem Dev.dgctx_setUnit (j : Nat) : (d.setUnit u x).dgctx j = d.dgctx j := by
  simp only [Dev.dgctx, Dev.setUnit_dig]
@[simp] theorem Dev.peer_setUnit (j : Nat) : (d.setUnit u x).peer j = d.peer j := by
  simp only [Dev.peer, Dev.setUnit_net]
@[simp] theorem Dev.bcas_setUnit (j : Nat) : (d.setUnit u x).bcas j = d.bcas j := by
  simp only [Dev.bcas, Dev.setUnit_bifold]
end

/-! ### Dev.dropSync -/

section
variable (d : Dev) (id : Nat)
@[simp] theorem Dev.fget_dropSync (g : Fld) : (d.dropSync id).fget g = d.fget g := by
  simp only [Dev.fget, Dev.dropSync_flds]
@[simp] theorem Dev.fgetB_dropSync (g : Fld) : (d.dropSync id).fgetB g = d.fgetB g := by
  simp only [Dev.fgetB, Dev.fget, Dev.dropSync_flds]
@[simp] theorem Dev.oget_dropSync (o2 : Obj) : (d.dropSync id).oget o2 = d.oget o2 := by
  simp only [Dev.oget, Dev.dropSync_objs]
@[simp] theorem Dev.queue_dropSync (j : Nat) : (d.dropSync id).queue j = d.queue j := by
  simp only [Dev.queue, Dev.dropSync_jamb]
@[simp] theorem Dev.cmd_dropSync (j : Nat) : (d.dropSync id).cmd j = d.cmd j := by
  simp only [Dev.cmd, Dev.dropSync_jamb]
@[simp] theorem Dev.chan_dropSync (j : Nat) : (d.dropSync id).chan j = d.chan j := by
  simp only [Dev.chan, Dev.dropSync_mem]
@[simp] theorem Dev.drive_dropSync (j : Nat) : (d.dropSync id).drive j = d.drive j := by
  simp only [Dev.drive, Dev.dropSync_drives]
@[simp] theorem Dev.ctx_dropSync (j : Nat) : (d.dropSync id).ctx j = d.ctx j := by
  simp only [Dev.ctx, Dev.dropSync_pipes]
@[simp] theorem Dev.pane_dropSync (j : Nat) : (d.dropSync id).pane j = d.pane j := by
  simp only [Dev.pane, Dev.dropSync_pipes]
@[simp] theorem Dev.latch_dropSync (j : Nat) : (d.dropSync id).latch j = d.latch j := by
  simp only [Dev.latch, Dev.dropSync_pipes]
@[simp] theorem Dev.lvTable_dropSync (j : Nat) : (d.dropSync id).lvTable j = d.lvTable j := by
  simp only [Dev.lvTable, Dev.dropSync_louvre]
@[simp] theorem Dev.hchan_dropSync (j : Nat) : (d.dropSync id).hchan j = d.hchan j := by
  simp only [Dev.hchan, Dev.dropSync_hinge]
@[simp] theorem Dev.slot_dropSync (j : Nat) : (d.dropSync id).slot j = d.slot j := by
  simp only [Dev.slot, Dev.dropSync_dig]
@[simp] theorem Dev.dgctx_dropSync (j : Nat) : (d.dropSync id).dgctx j = d.dgctx j := by
  simp only [Dev.dgctx, Dev.dropSync_dig]
@[simp] theorem Dev.tunit_dropSync (j : Nat) : (d.dropSync id).tunit j = d.tunit j := by
  simp only [Dev.tunit, Dev.dropSync_thr_units]
@[simp] theorem Dev.peer_dropSync (j : Nat) : (d.dropSync id).peer j = d.peer j := by
  simp only [Dev.peer, Dev.dropSync_net]
@[simp] theorem Dev.bcas_dropSync (j : Nat) : (d.dropSync id).bcas j = d.bcas j := by
  simp only [Dev.bcas, Dev.dropSync_bifold]
end

/-! ### Dev.setPeer -/

section
variable (d : Dev) (n : Nat) (x : Peer)
@[simp] theorem Dev.fget_setPeer (g : Fld) : (d.setPeer n x).fget g = d.fget g := by
  simp only [Dev.fget, Dev.setPeer_flds]
@[simp] theorem Dev.fgetB_setPeer (g : Fld) : (d.setPeer n x).fgetB g = d.fgetB g := by
  simp only [Dev.fgetB, Dev.fget, Dev.setPeer_flds]
@[simp] theorem Dev.oget_setPeer (o2 : Obj) : (d.setPeer n x).oget o2 = d.oget o2 := by
  simp only [Dev.oget, Dev.setPeer_objs]
@[simp] theorem Dev.queue_setPeer (j : Nat) : (d.setPeer n x).queue j = d.queue j := by
  simp only [Dev.queue, Dev.setPeer_jamb]
@[simp] theorem Dev.cmd_setPeer (j : Nat) : (d.setPeer n x).cmd j = d.cmd j := by
  simp only [Dev.cmd, Dev.setPeer_jamb]
@[simp] theorem Dev.chan_setPeer (j : Nat) : (d.setPeer n x).chan j = d.chan j := by
  simp only [Dev.chan, Dev.setPeer_mem]
@[simp] theorem Dev.drive_setPeer (j : Nat) : (d.setPeer n x).drive j = d.drive j := by
  simp only [Dev.drive, Dev.setPeer_drives]
@[simp] theorem Dev.ctx_setPeer (j : Nat) : (d.setPeer n x).ctx j = d.ctx j := by
  simp only [Dev.ctx, Dev.setPeer_pipes]
@[simp] theorem Dev.pane_setPeer (j : Nat) : (d.setPeer n x).pane j = d.pane j := by
  simp only [Dev.pane, Dev.setPeer_pipes]
@[simp] theorem Dev.latch_setPeer (j : Nat) : (d.setPeer n x).latch j = d.latch j := by
  simp only [Dev.latch, Dev.setPeer_pipes]
@[simp] theorem Dev.lvTable_setPeer (j : Nat) : (d.setPeer n x).lvTable j = d.lvTable j := by
  simp only [Dev.lvTable, Dev.setPeer_louvre]
@[simp] theorem Dev.hchan_setPeer (j : Nat) : (d.setPeer n x).hchan j = d.hchan j := by
  simp only [Dev.hchan, Dev.setPeer_hinge]
@[simp] theorem Dev.slot_setPeer (j : Nat) : (d.setPeer n x).slot j = d.slot j := by
  simp only [Dev.slot, Dev.setPeer_dig]
@[simp] theorem Dev.dgctx_setPeer (j : Nat) : (d.setPeer n x).dgctx j = d.dgctx j := by
  simp only [Dev.dgctx, Dev.setPeer_dig]
@[simp] theorem Dev.tunit_setPeer (j : Nat) : (d.setPeer n x).tunit j = d.tunit j := by
  simp only [Dev.tunit, Dev.setPeer_thr]
@[simp] theorem Dev.bcas_setPeer (j : Nat) : (d.setPeer n x).bcas j = d.bcas j := by
  simp only [Dev.bcas, Dev.setPeer_bifold]
end

/-! ### Dev.mapTx -/

section
variable (d : Dev) (ctx n : Nat) (f : TxFlow → TxFlow)
@[simp] theorem Dev.fget_mapTx (g : Fld) : (d.mapTx ctx n f).fget g = d.fget g := by
  simp only [Dev.fget, Dev.mapTx_flds]
@[simp] theorem Dev.fgetB_mapTx (g : Fld) : (d.mapTx ctx n f).fgetB g = d.fgetB g := by
  simp only [Dev.fgetB, Dev.fget, Dev.mapTx_flds]
@[simp] theorem Dev.oget_mapTx (o2 : Obj) : (d.mapTx ctx n f).oget o2 = d.oget o2 := by
  simp only [Dev.oget, Dev.mapTx_objs]
@[simp] theorem Dev.queue_mapTx (j : Nat) : (d.mapTx ctx n f).queue j = d.queue j := by
  simp only [Dev.queue, Dev.mapTx_jamb]
@[simp] theorem Dev.cmd_mapTx (j : Nat) : (d.mapTx ctx n f).cmd j = d.cmd j := by
  simp only [Dev.cmd, Dev.mapTx_jamb]
@[simp] theorem Dev.chan_mapTx (j : Nat) : (d.mapTx ctx n f).chan j = d.chan j := by
  simp only [Dev.chan, Dev.mapTx_mem]
@[simp] theorem Dev.drive_mapTx (j : Nat) : (d.mapTx ctx n f).drive j = d.drive j := by
  simp only [Dev.drive, Dev.mapTx_drives]
@[simp] theorem Dev.ctx_mapTx (j : Nat) : (d.mapTx ctx n f).ctx j = d.ctx j := by
  simp only [Dev.ctx, Dev.mapTx_pipes]
@[simp] theorem Dev.pane_mapTx (j : Nat) : (d.mapTx ctx n f).pane j = d.pane j := by
  simp only [Dev.pane, Dev.mapTx_pipes]
@[simp] theorem Dev.latch_mapTx (j : Nat) : (d.mapTx ctx n f).latch j = d.latch j := by
  simp only [Dev.latch, Dev.mapTx_pipes]
@[simp] theorem Dev.lvTable_mapTx (j : Nat) : (d.mapTx ctx n f).lvTable j = d.lvTable j := by
  simp only [Dev.lvTable, Dev.mapTx_louvre]
@[simp] theorem Dev.hchan_mapTx (j : Nat) : (d.mapTx ctx n f).hchan j = d.hchan j := by
  simp only [Dev.hchan, Dev.mapTx_hinge]
@[simp] theorem Dev.slot_mapTx (j : Nat) : (d.mapTx ctx n f).slot j = d.slot j := by
  simp only [Dev.slot, Dev.mapTx_dig]
@[simp] theorem Dev.dgctx_mapTx (j : Nat) : (d.mapTx ctx n f).dgctx j = d.dgctx j := by
  simp only [Dev.dgctx, Dev.mapTx_dig]
@[simp] theorem Dev.tunit_mapTx (j : Nat) : (d.mapTx ctx n f).tunit j = d.tunit j := by
  simp only [Dev.tunit, Dev.mapTx_thr]
@[simp] theorem Dev.bcas_mapTx (j : Nat) : (d.mapTx ctx n f).bcas j = d.bcas j := by
  simp only [Dev.bcas, Dev.mapTx_bifold]
end

/-! ### Dev.mapSender -/

section
variable (d : Dev) (flow node : Nat) (f : RxSender → RxSender)
@[simp] theorem Dev.fget_mapSender (g : Fld) : (d.mapSender flow node f).fget g = d.fget g := by
  simp only [Dev.fget, Dev.mapSender_flds]
@[simp] theorem Dev.fgetB_mapSender (g : Fld) : (d.mapSender flow node f).fgetB g = d.fgetB g := by
  simp only [Dev.fgetB, Dev.fget, Dev.mapSender_flds]
@[simp] theorem Dev.oget_mapSender (o2 : Obj) : (d.mapSender flow node f).oget o2 = d.oget o2 := by
  simp only [Dev.oget, Dev.mapSender_objs]
@[simp] theorem Dev.queue_mapSender (j : Nat) : (d.mapSender flow node f).queue j = d.queue j := by
  simp only [Dev.queue, Dev.mapSender_jamb]
@[simp] theorem Dev.cmd_mapSender (j : Nat) : (d.mapSender flow node f).cmd j = d.cmd j := by
  simp only [Dev.cmd, Dev.mapSender_jamb]
@[simp] theorem Dev.chan_mapSender (j : Nat) : (d.mapSender flow node f).chan j = d.chan j := by
  simp only [Dev.chan, Dev.mapSender_mem]
@[simp] theorem Dev.drive_mapSender (j : Nat) : (d.mapSender flow node f).drive j = d.drive j := by
  simp only [Dev.drive, Dev.mapSender_drives]
@[simp] theorem Dev.ctx_mapSender (j : Nat) : (d.mapSender flow node f).ctx j = d.ctx j := by
  simp only [Dev.ctx, Dev.mapSender_pipes]
@[simp] theorem Dev.pane_mapSender (j : Nat) : (d.mapSender flow node f).pane j = d.pane j := by
  simp only [Dev.pane, Dev.mapSender_pipes]
@[simp] theorem Dev.latch_mapSender (j : Nat) : (d.mapSender flow node f).latch j = d.latch j := by
  simp only [Dev.latch, Dev.mapSender_pipes]
@[simp] theorem Dev.lvTable_mapSender (j : Nat) : (d.mapSender flow node f).lvTable j = d.lvTable j := by
  simp only [Dev.lvTable, Dev.mapSender_louvre]
@[simp] theorem Dev.hchan_mapSender (j : Nat) : (d.mapSender flow node f).hchan j = d.hchan j := by
  simp only [Dev.hchan, Dev.mapSender_hinge]
@[simp] theorem Dev.slot_mapSender (j : Nat) : (d.mapSender flow node f).slot j = d.slot j := by
  simp only [Dev.slot, Dev.mapSender_dig]
@[simp] theorem Dev.dgctx_mapSender (j : Nat) : (d.mapSender flow node f).dgctx j = d.dgctx j := by
  simp only [Dev.dgctx, Dev.mapSender_dig]
@[simp] theorem Dev.tunit_mapSender (j : Nat) : (d.mapSender flow node f).tunit j = d.tunit j := by
  simp only [Dev.tunit, Dev.mapSender_thr]
@[simp] theorem Dev.bcas_mapSender (j : Nat) : (d.mapSender flow node f).bcas j = d.bcas j := by
  simp only [Dev.bcas, Dev.mapSender_bifold]
end

/-! ### Dev.setCtx -/

section
variable (d : Dev) (c : Nat) (x : Ctx)
@[simp] theorem Dev.fget_setCtx (g : Fld) : (d.setCtx c x).fget g = d.fget g := by
  simp only [Dev.fget, Dev.setCtx_flds]
@[simp] theorem Dev.fgetB_setCtx (g : Fld) : (d.setCtx c x).fgetB g = d.fgetB g := by
  simp only [Dev.fgetB, Dev.fget, Dev.setCtx_flds]
@[simp] theorem Dev.oget_setCtx (o2 : Obj) : (d.setCtx c x).oget o2 = d.oget o2 := by
  simp only [Dev.oget, Dev.setCtx_objs]
@[simp] theorem Dev.queue_setCtx (j : Nat) : (d.setCtx c x).queue j = d.queue j := by
  simp only [Dev.queue, Dev.setCtx_jamb]
@[simp] theorem Dev.cmd_setCtx (j : Nat) : (d.setCtx c x).cmd j = d.cmd j := by
  simp only [Dev.cmd, Dev.setCtx_jamb]
@[simp] theorem Dev.chan_setCtx (j : Nat) : (d.setCtx c x).chan j = d.chan j := by
  simp only [Dev.chan, Dev.setCtx_mem]
@[simp] theorem Dev.drive_setCtx (j : Nat) : (d.setCtx c x).drive j = d.drive j := by
  simp only [Dev.drive, Dev.setCtx_drives]
@[simp] theorem Dev.pane_setCtx (j : Nat) : (d.setCtx c x).pane j = d.pane j := by
  simp only [Dev.pane, Dev.setCtx_pipes_panes]
@[simp] theorem Dev.latch_setCtx (j : Nat) : (d.setCtx c x).latch j = d.latch j := by
  simp only [Dev.latch, Dev.setCtx_pipes_latches]
@[simp] theorem Dev.lvTable_setCtx (j : Nat) : (d.setCtx c x).lvTable j = d.lvTable j := by
  simp only [Dev.lvTable, Dev.setCtx_louvre]
@[simp] theorem Dev.hchan_setCtx (j : Nat) : (d.setCtx c x).hchan j = d.hchan j := by
  simp only [Dev.hchan, Dev.setCtx_hinge]
@[simp] theorem Dev.slot_setCtx (j : Nat) : (d.setCtx c x).slot j = d.slot j := by
  simp only [Dev.slot, Dev.setCtx_dig]
@[simp] theorem Dev.dgctx_setCtx (j : Nat) : (d.setCtx c x).dgctx j = d.dgctx j := by
  simp only [Dev.dgctx, Dev.setCtx_dig]
@[simp] theorem Dev.tunit_setCtx (j : Nat) : (d.setCtx c x).tunit j = d.tunit j := by
  simp only [Dev.tunit, Dev.setCtx_thr]
@[simp] theorem Dev.peer_setCtx (j : Nat) : (d.setCtx c x).peer j = d.peer j := by
  simp only [Dev.peer, Dev.setCtx_net]
@[simp] theorem Dev.bcas_setCtx (j : Nat) : (d.setCtx c x).bcas j = d.bcas j := by
  simp only [Dev.bcas, Dev.setCtx_bifold]
end

/-! ### Dev.setPane -/

section
variable (d : Dev) (p : Nat) (x : Pane)
@[simp] theorem Dev.fget_setPane (g : Fld) : (d.setPane p x).fget g = d.fget g := by
  simp only [Dev.fget, Dev.setPane_flds]
@[simp] theorem Dev.fgetB_setPane (g : Fld) : (d.setPane p x).fgetB g = d.fgetB g := by
  simp only [Dev.fgetB, Dev.fget, Dev.setPane_flds]
@[simp] theorem Dev.oget_setPane (o2 : Obj) : (d.setPane p x).oget o2 = d.oget o2 := by
  simp only [Dev.oget, Dev.setPane_objs]
@[simp] theorem Dev.queue_setPane (j : Nat) : (d.setPane p x).queue j = d.queue j := by
  simp only [Dev.queue, Dev.setPane_jamb]
@[simp] theorem Dev.cmd_setPane (j : Nat) : (d.setPane p x).cmd j = d.cmd j := by
  simp only [Dev.cmd, Dev.setPane_jamb]
@[simp] theorem Dev.chan_setPane (j : Nat) : (d.setPane p x).chan j = d.chan j := by
  simp only [Dev.chan, Dev.setPane_mem]
@[simp] theorem Dev.drive_setPane (j : Nat) : (d.setPane p x).drive j = d.drive j := by
  simp only [Dev.drive, Dev.setPane_drives]
@[simp] theorem Dev.ctx_setPane (j : Nat) : (d.setPane p x).ctx j = d.ctx j := by
  simp only [Dev.ctx, Dev.setPane_pipes_ctxs]
@[simp] theorem Dev.latch_setPane (j : Nat) : (d.setPane p x).latch j = d.latch j := by
  simp only [Dev.latch, Dev.setPane_pipes_latches]
@[simp] theorem Dev.lvTable_setPane (j : Nat) : (d.setPane p x).lvTable j = d.lvTable j := by
  simp only [Dev.lvTable, Dev.setPane_louvre]
@[simp] theorem Dev.hchan_setPane (j : Nat) : (d.setPane p x).hchan j = d.hchan j := by
  simp only [Dev.hchan, Dev.setPane_hinge]
@[simp] theorem Dev.slot_setPane (j : Nat) : (d.setPane p x).slot j = d.slot j := by
  simp only [Dev.slot, Dev.setPane_dig]
@[simp] theorem Dev.dgctx_setPane (j : Nat) : (d.setPane p x).dgctx j = d.dgctx j := by
  simp only [Dev.dgctx, Dev.setPane_dig]
@[simp] theorem Dev.tunit_setPane (j : Nat) : (d.setPane p x).tunit j = d.tunit j := by
  simp only [Dev.tunit, Dev.setPane_thr]
@[simp] theorem Dev.peer_setPane (j : Nat) : (d.setPane p x).peer j = d.peer j := by
  simp only [Dev.peer, Dev.setPane_net]
@[simp] theorem Dev.bcas_setPane (j : Nat) : (d.setPane p x).bcas j = d.bcas j := by
  simp only [Dev.bcas, Dev.setPane_bifold]
end

/-! ### Dev.setLatch -/

section
variable (d : Dev) (c : Nat) (x : Latch)
@[simp] theorem Dev.fget_setLatch (g : Fld) : (d.setLatch c x).fget g = d.fget g := by
  simp only [Dev.fget, Dev.setLatch_flds]
@[simp] theorem Dev.fgetB_setLatch (g : Fld) : (d.setLatch c x).fgetB g = d.fgetB g := by
  simp only [Dev.fgetB, Dev.fget, Dev.setLatch_flds]
@[simp] theorem Dev.oget_setLatch (o2 : Obj) : (d.setLatch c x).oget o2 = d.oget o2 := by
  simp only [Dev.oget, Dev.setLatch_objs]
@[simp] theorem Dev.queue_setLatch (j : Nat) : (d.setLatch c x).queue j = d.queue j := by
  simp only [Dev.queue, Dev.setLatch_jamb]
@[simp] theorem Dev.cmd_setLatch (j : Nat) : (d.setLatch c x).cmd j = d.cmd j := by
  simp only [Dev.cmd, Dev.setLatch_jamb]
@[simp] theorem Dev.chan_setLatch (j : Nat) : (d.setLatch c x).chan j = d.chan j := by
  simp only [Dev.chan, Dev.setLatch_mem]
@[simp] theorem Dev.drive_setLatch (j : Nat) : (d.setLatch c x).drive j = d.drive j := by
  simp only [Dev.drive, Dev.setLatch_drives]
@[simp] theorem Dev.ctx_setLatch (j : Nat) : (d.setLatch c x).ctx j = d.ctx j := by
  simp only [Dev.ctx, Dev.setLatch_pipes_ctxs]
@[simp] theorem Dev.pane_setLatch (j : Nat) : (d.setLatch c x).pane j = d.pane j := by
  simp only [Dev.pane, Dev.setLatch_pipes_panes]
@[simp] theorem Dev.lvTable_setLatch (j : Nat) : (d.setLatch c x).lvTable j = d.lvTable j := by
  simp only [Dev.lvTable, Dev.setLatch_louvre]
@[simp] theorem Dev.hchan_setLatch (j : Nat) : (d.setLatch c x).hchan j = d.hchan j := by
  simp only [Dev.hchan, Dev.setLatch_hinge]
@[simp] theorem Dev.slot_setLatch (j : Nat) : (d.setLatch c x).slot j = d.slot j := by
  simp only [Dev.slot, Dev.setLatch_dig]
@[simp] theorem Dev.dgctx_setLatch (j : Nat) : (d.setLatch c x).dgctx j = d.dgctx j := by
  simp only [Dev.dgctx, Dev.setLatch_dig]
@[simp] theorem Dev.tunit_setLatch (j : Nat) : (d.setLatch c x).tunit j = d.tunit j := by
  simp only [Dev.tunit, Dev.setLatch_thr]
@[simp] theorem Dev.peer_setLatch (j : Nat) : (d.setLatch c x).peer j = d.peer j := by
  simp only [Dev.peer, Dev.setLatch_net]
@[simp] theorem Dev.bcas_setLatch (j : Nat) : (d.setLatch c x).bcas j = d.bcas j := by
  simp only [Dev.bcas, Dev.setLatch_bifold]
end

/-! ### Dev.setMbank -/

section
variable (d : Dev) (k : Nat) (x : Bank)
@[simp] theorem Dev.fget_setMbank (g : Fld) : (d.setMbank k x).fget g = d.fget g := by
  simp only [Dev.fget, Dev.setMbank_flds]
@[simp] theorem Dev.fgetB_setMbank (g : Fld) : (d.setMbank k x).fgetB g = d.fgetB g := by
  simp only [Dev.fgetB, Dev.fget, Dev.setMbank_flds]
@[simp] theorem Dev.oget_setMbank (o2 : Obj) : (d.setMbank k x).oget o2 = d.oget o2 := by
  simp only [Dev.oget, Dev.setMbank_objs]
@[simp] theorem Dev.queue_setMbank (j : Nat) : (d.setMbank k x).queue j = d.queue j := by
  simp only [Dev.queue, Dev.setMbank_jamb]
@[simp] theorem Dev.cmd_setMbank (j : Nat) : (d.setMbank k x).cmd j = d.cmd j := by
  simp only [Dev.cmd, Dev.setMbank_jamb]
@[simp] theorem Dev.chan_setMbank (j : Nat) : (d.setMbank k x).chan j = d.chan j := by
  simp only [Dev.chan, Dev.setMbank_mem_chans]
@[simp] theorem Dev.drive_setMbank (j : Nat) : (d.setMbank k x).drive j = d.drive j := by
  simp only [Dev.drive, Dev.setMbank_drives]
@[simp] theorem Dev.ctx_setMbank (j : Nat) : (d.setMbank k x).ctx j = d.ctx j := by
  simp only [Dev.ctx, Dev.setMbank_pipes]
@[simp] theorem Dev.pane_setMbank (j : Nat) : (d.setMbank k x).pane j = d.pane j := by
  simp only [Dev.pane, Dev.setMbank_pipes]
@[simp] theorem Dev.latch_setMbank (j : Nat) : (d.setMbank k x).latch j = d.latch j := by
  simp only [Dev.latch, Dev.setMbank_pipes]
@[simp] theorem Dev.lvTable_setMbank (j : Nat) : (d.setMbank k x).lvTable j = d.lvTable j := by
  simp only [Dev.lvTable, Dev.setMbank_louvre]
@[simp] theorem Dev.hchan_setMbank (j : Nat) : (d.setMbank k x).hchan j = d.hchan j := by
  simp only [Dev.hchan, Dev.setMbank_hinge]
@[simp] theorem Dev.slot_setMbank (j : Nat) : (d.setMbank k x).slot j = d.slot j := by
  simp only [Dev.slot, Dev.setMbank_dig]
@[simp] theorem Dev.dgctx_setMbank (j : Nat) : (d.setMbank k x).dgctx j = d.dgctx j := by
  simp only [Dev.dgctx, Dev.setMbank_dig]
@[simp] theorem Dev.tunit_setMbank (j : Nat) : (d.setMbank k x).tunit j = d.tunit j := by
  simp only [Dev.tunit, Dev.setMbank_thr]
@[simp] theorem Dev.peer_setMbank (j : Nat) : (d.setMbank k x).peer j = d.peer j := by
  simp only [Dev.peer, Dev.setMbank_net]
@[simp] theorem Dev.bcas_setMbank (j : Nat) : (d.setMbank k x).bcas j = d.bcas j := by
  simp only [Dev.bcas, Dev.setMbank_bifold]
end

/-! ### Dev.setSub -/

section
variable (d : Dev) (s : Nat) (x : SubChan)
@[simp] theorem Dev.fget_setSub (g : Fld) : (d.setSub s x).fget g = d.fget g := by
  simp only [Dev.fget, Dev.setSub_flds]
@[simp] theorem Dev.fgetB_setSub (g : Fld) : (d.setSub s x).fgetB g = d.fgetB g := by
  simp only [Dev.fgetB, Dev.fget, Dev.setSub_flds]
@[simp] theorem Dev.oget_setSub (o2 : Obj) : (d.setSub s x).oget o2 = d.oget o2 := by
  simp only [Dev.oget, Dev.setSub_objs]
@[simp] theorem Dev.queue_setSub (j : Nat) : (d.setSub s x).queue j = d.queue j := by
  simp only [Dev.queue, Dev.setSub_jamb]
@[simp] theorem Dev.cmd_setSub (j : Nat) : (d.setSub s x).cmd j = d.cmd j := by
  simp only [Dev.cmd, Dev.setSub_jamb]
@[simp] theorem Dev.chan_setSub (j : Nat) : (d.setSub s x).chan j = d.chan j := by
  simp only [Dev.chan, Dev.setSub_mem_chans]
@[simp] theorem Dev.drive_setSub (j : Nat) : (d.setSub s x).drive j = d.drive j := by
  simp only [Dev.drive, Dev.setSub_drives]
@[simp] theorem Dev.ctx_setSub (j : Nat) : (d.setSub s x).ctx j = d.ctx j := by
  simp only [Dev.ctx, Dev.setSub_pipes]
@[simp] theorem Dev.pane_setSub (j : Nat) : (d.setSub s x).pane j = d.pane j := by
  simp only [Dev.pane, Dev.setSub_pipes]
@[simp] theorem Dev.latch_setSub (j : Nat) : (d.setSub s x).latch j = d.latch j := by
  simp only [Dev.latch, Dev.setSub_pipes]
@[simp] theorem Dev.lvTable_setSub (j : Nat) : (d.setSub s x).lvTable j = d.lvTable j := by
  simp only [Dev.lvTable, Dev.setSub_louvre]
@[simp] theorem Dev.hchan_setSub (j : Nat) : (d.setSub s x).hchan j = d.hchan j := by
  simp only [Dev.hchan, Dev.setSub_hinge]
@[simp] theorem Dev.slot_setSub (j : Nat) : (d.setSub s x).slot j = d.slot j := by
  simp only [Dev.slot, Dev.setSub_dig]
@[simp] theorem Dev.dgctx_setSub (j : Nat) : (d.setSub s x).dgctx j = d.dgctx j := by
  simp only [Dev.dgctx, Dev.setSub_dig]
@[simp] theorem Dev.tunit_setSub (j : Nat) : (d.setSub s x).tunit j = d.tunit j := by
  simp only [Dev.tunit, Dev.setSub_thr]
@[simp] theorem Dev.peer_setSub (j : Nat) : (d.setSub s x).peer j = d.peer j := by
  simp only [Dev.peer, Dev.setSub_net]
@[simp] theorem Dev.bcas_setSub (j : Nat) : (d.setSub s x).bcas j = d.bcas j := by
  simp only [Dev.bcas, Dev.setSub_bifold]
end

/-! ### Dev.setWork -/

section
variable (d : Dev) (w v : Work)
@[simp] theorem Dev.fget_setWork (g : Fld) : (d.setWork w v).fget g = d.fget g := by
  simp only [Dev.fget, Dev.setWork_flds]
@[simp] theorem Dev.fgetB_setWork (g : Fld) : (d.setWork w v).fgetB g = d.fgetB g := by
  simp only [Dev.fgetB, Dev.fget, Dev.setWork_flds]
@[simp] theorem Dev.oget_setWork (o2 : Obj) : (d.setWork w v).oget o2 = d.oget o2 := by
  simp only [Dev.oget, Dev.setWork_objs]
@[simp] theorem Dev.queue_setWork (j : Nat) : (d.setWork w v).queue j = d.queue j := by
  simp only [Dev.queue, Dev.setWork_jamb]
@[simp] theorem Dev.cmd_setWork (j : Nat) : (d.setWork w v).cmd j = d.cmd j := by
  simp only [Dev.cmd, Dev.setWork_jamb]
@[simp] theorem Dev.chan_setWork (j : Nat) : (d.setWork w v).chan j = d.chan j := by
  simp only [Dev.chan, Dev.setWork_mem]
@[simp] theorem Dev.drive_setWork (j : Nat) : (d.setWork w v).drive j = d.drive j := by
  simp only [Dev.drive, Dev.setWork_drives]
@[simp] theorem Dev.ctx_setWork (j : Nat) : (d.setWork w v).ctx j = d.ctx j := by
  simp only [Dev.ctx, Dev.setWork_pipes_ctxs]
@[simp] theorem Dev.pane_setWork (j : Nat) : (d.setWork w v).pane j = d.pane j := by
  simp only [Dev.pane, Dev.setWork_pipes_panes]
@[simp] theorem Dev.latch_setWork (j : Nat) : (d.setWork w v).latch j = d.latch j := by
  simp only [Dev.latch, Dev.setWork_pipes_latches]
@[simp] theorem Dev.lvTable_setWork (j : Nat) : (d.setWork w v).lvTable j = d.lvTable j := by
  simp only [Dev.lvTable, Dev.setWork_louvre]
@[simp] theorem Dev.hchan_setWork (j : Nat) : (d.setWork w v).hchan j = d.hchan j := by
  simp only [Dev.hchan, Dev.setWork_hinge]
@[simp] theorem Dev.slot_setWork (j : Nat) : (d.setWork w v).slot j = d.slot j := by
  simp only [Dev.slot, Dev.setWork_dig]
@[simp] theorem Dev.dgctx_setWork (j : Nat) : (d.setWork w v).dgctx j = d.dgctx j := by
  simp only [Dev.dgctx, Dev.setWork_dig]
@[simp] theorem Dev.tunit_setWork (j : Nat) : (d.setWork w v).tunit j = d.tunit j := by
  simp only [Dev.tunit, Dev.setWork_thr]
@[simp] theorem Dev.peer_setWork (j : Nat) : (d.setWork w v).peer j = d.peer j := by
  simp only [Dev.peer, Dev.setWork_net]
@[simp] theorem Dev.bcas_setWork (j : Nat) : (d.setWork w v).bcas j = d.bcas j := by
  simp only [Dev.bcas, Dev.setWork_bifold]
end

/-! ### Dev.setSlot -/

section
variable (d : Dev) (s : Nat) (x : KeySlot)
@[simp] theorem Dev.fget_setSlot (g : Fld) : (d.setSlot s x).fget g = d.fget g := by
  simp only [Dev.fget, Dev.setSlot_flds]
@[simp] theorem Dev.fgetB_setSlot (g : Fld) : (d.setSlot s x).fgetB g = d.fgetB g := by
  simp only [Dev.fgetB, Dev.fget, Dev.setSlot_flds]
@[simp] theorem Dev.oget_setSlot (o2 : Obj) : (d.setSlot s x).oget o2 = d.oget o2 := by
  simp only [Dev.oget, Dev.setSlot_objs]
@[simp] theorem Dev.queue_setSlot (j : Nat) : (d.setSlot s x).queue j = d.queue j := by
  simp only [Dev.queue, Dev.setSlot_jamb]
@[simp] theorem Dev.cmd_setSlot (j : Nat) : (d.setSlot s x).cmd j = d.cmd j := by
  simp only [Dev.cmd, Dev.setSlot_jamb]
@[simp] theorem Dev.chan_setSlot (j : Nat) : (d.setSlot s x).chan j = d.chan j := by
  simp only [Dev.chan, Dev.setSlot_mem]
@[simp] theorem Dev.drive_setSlot (j : Nat) : (d.setSlot s x).drive j = d.drive j := by
  simp only [Dev.drive, Dev.setSlot_drives]
@[simp] theorem Dev.ctx_setSlot (j : Nat) : (d.setSlot s x).ctx j = d.ctx j := by
  simp only [Dev.ctx, Dev.setSlot_pipes]
@[simp] theorem Dev.pane_setSlot (j : Nat) : (d.setSlot s x).pane j = d.pane j := by
  simp only [Dev.pane, Dev.setSlot_pipes]
@[simp] theorem Dev.latch_setSlot (j : Nat) : (d.setSlot s x).latch j = d.latch j := by
  simp only [Dev.latch, Dev.setSlot_pipes]
@[simp] theorem Dev.lvTable_setSlot (j : Nat) : (d.setSlot s x).lvTable j = d.lvTable j := by
  simp only [Dev.lvTable, Dev.setSlot_louvre]
@[simp] theorem Dev.hchan_setSlot (j : Nat) : (d.setSlot s x).hchan j = d.hchan j := by
  simp only [Dev.hchan, Dev.setSlot_hinge]
@[simp] theorem Dev.dgctx_setSlot (j : Nat) : (d.setSlot s x).dgctx j = d.dgctx j := by
  simp only [Dev.dgctx, Dev.setSlot_dig_ctxs]
@[simp] theorem Dev.tunit_setSlot (j : Nat) : (d.setSlot s x).tunit j = d.tunit j := by
  simp only [Dev.tunit, Dev.setSlot_thr]
@[simp] theorem Dev.peer_setSlot (j : Nat) : (d.setSlot s x).peer j = d.peer j := by
  simp only [Dev.peer, Dev.setSlot_net]
@[simp] theorem Dev.bcas_setSlot (j : Nat) : (d.setSlot s x).bcas j = d.bcas j := by
  simp only [Dev.bcas, Dev.setSlot_bifold]
end

/-! ### Dev.setDgctx -/

section
variable (d : Dev) (k : Nat) (x : DgCtx)
@[simp] theorem Dev.fget_setDgctx (g : Fld) : (d.setDgctx k x).fget g = d.fget g := by
  simp only [Dev.fget, Dev.setDgctx_flds]
@[simp] theorem Dev.fgetB_setDgctx (g : Fld) : (d.setDgctx k x).fgetB g = d.fgetB g := by
  simp only [Dev.fgetB, Dev.fget, Dev.setDgctx_flds]
@[simp] theorem Dev.oget_setDgctx (o2 : Obj) : (d.setDgctx k x).oget o2 = d.oget o2 := by
  simp only [Dev.oget, Dev.setDgctx_objs]
@[simp] theorem Dev.queue_setDgctx (j : Nat) : (d.setDgctx k x).queue j = d.queue j := by
  simp only [Dev.queue, Dev.setDgctx_jamb]
@[simp] theorem Dev.cmd_setDgctx (j : Nat) : (d.setDgctx k x).cmd j = d.cmd j := by
  simp only [Dev.cmd, Dev.setDgctx_jamb]
@[simp] theorem Dev.chan_setDgctx (j : Nat) : (d.setDgctx k x).chan j = d.chan j := by
  simp only [Dev.chan, Dev.setDgctx_mem]
@[simp] theorem Dev.drive_setDgctx (j : Nat) : (d.setDgctx k x).drive j = d.drive j := by
  simp only [Dev.drive, Dev.setDgctx_drives]
@[simp] theorem Dev.ctx_setDgctx (j : Nat) : (d.setDgctx k x).ctx j = d.ctx j := by
  simp only [Dev.ctx, Dev.setDgctx_pipes]
@[simp] theorem Dev.pane_setDgctx (j : Nat) : (d.setDgctx k x).pane j = d.pane j := by
  simp only [Dev.pane, Dev.setDgctx_pipes]
@[simp] theorem Dev.latch_setDgctx (j : Nat) : (d.setDgctx k x).latch j = d.latch j := by
  simp only [Dev.latch, Dev.setDgctx_pipes]
@[simp] theorem Dev.lvTable_setDgctx (j : Nat) : (d.setDgctx k x).lvTable j = d.lvTable j := by
  simp only [Dev.lvTable, Dev.setDgctx_louvre]
@[simp] theorem Dev.hchan_setDgctx (j : Nat) : (d.setDgctx k x).hchan j = d.hchan j := by
  simp only [Dev.hchan, Dev.setDgctx_hinge]
@[simp] theorem Dev.slot_setDgctx (j : Nat) : (d.setDgctx k x).slot j = d.slot j := by
  simp only [Dev.slot, Dev.setDgctx_dig_slots]
@[simp] theorem Dev.tunit_setDgctx (j : Nat) : (d.setDgctx k x).tunit j = d.tunit j := by
  simp only [Dev.tunit, Dev.setDgctx_thr]
@[simp] theorem Dev.peer_setDgctx (j : Nat) : (d.setDgctx k x).peer j = d.peer j := by
  simp only [Dev.peer, Dev.setDgctx_net]
@[simp] theorem Dev.bcas_setDgctx (j : Nat) : (d.setDgctx k x).bcas j = d.bcas j := by
  simp only [Dev.bcas, Dev.setDgctx_bifold]
end

/-! ### Dev.setPut -/

section
variable (d : Dev) (n : Nat) (x : Put)
@[simp] theorem Dev.fget_setPut (g : Fld) : (d.setPut n x).fget g = d.fget g := by
  simp only [Dev.fget, Dev.setPut_flds]
@[simp] theorem Dev.fgetB_setPut (g : Fld) : (d.setPut n x).fgetB g = d.fgetB g := by
  simp only [Dev.fgetB, Dev.fget, Dev.setPut_flds]
@[simp] theorem Dev.oget_setPut (o2 : Obj) : (d.setPut n x).oget o2 = d.oget o2 := by
  simp only [Dev.oget, Dev.setPut_objs]
@[simp] theorem Dev.queue_setPut (j : Nat) : (d.setPut n x).queue j = d.queue j := by
  simp only [Dev.queue, Dev.setPut_jamb]
@[simp] theorem Dev.cmd_setPut (j : Nat) : (d.setPut n x).cmd j = d.cmd j := by
  simp only [Dev.cmd, Dev.setPut_jamb]
@[simp] theorem Dev.chan_setPut (j : Nat) : (d.setPut n x).chan j = d.chan j := by
  simp only [Dev.chan, Dev.setPut_mem]
@[simp] theorem Dev.drive_setPut (j : Nat) : (d.setPut n x).drive j = d.drive j := by
  simp only [Dev.drive, Dev.setPut_drives]
@[simp] theorem Dev.ctx_setPut (j : Nat) : (d.setPut n x).ctx j = d.ctx j := by
  simp only [Dev.ctx, Dev.setPut_pipes]
@[simp] theorem Dev.pane_setPut (j : Nat) : (d.setPut n x).pane j = d.pane j := by
  simp only [Dev.pane, Dev.setPut_pipes]
@[simp] theorem Dev.latch_setPut (j : Nat) : (d.setPut n x).latch j = d.latch j := by
  simp only [Dev.latch, Dev.setPut_pipes]
@[simp] theorem Dev.lvTable_setPut (j : Nat) : (d.setPut n x).lvTable j = d.lvTable j := by
  simp only [Dev.lvTable, Dev.setPut_louvre]
@[simp] theorem Dev.hchan_setPut (j : Nat) : (d.setPut n x).hchan j = d.hchan j := by
  simp only [Dev.hchan, Dev.setPut_hinge]
@[simp] theorem Dev.slot_setPut (j : Nat) : (d.setPut n x).slot j = d.slot j := by
  simp only [Dev.slot, Dev.setPut_dig]
@[simp] theorem Dev.dgctx_setPut (j : Nat) : (d.setPut n x).dgctx j = d.dgctx j := by
  simp only [Dev.dgctx, Dev.setPut_dig]
@[simp] theorem Dev.tunit_setPut (j : Nat) : (d.setPut n x).tunit j = d.tunit j := by
  simp only [Dev.tunit, Dev.setPut_thr]
@[simp] theorem Dev.bcas_setPut (j : Nat) : (d.setPut n x).bcas j = d.bcas j := by
  simp only [Dev.bcas, Dev.setPut_bifold]
end

/-! ### Dev.fputB -/

section
variable (d : Dev) (f : Fld) (b : Bool)
@[simp] theorem Dev.oget_fputB (o2 : Obj) : (d.fputB f b).oget o2 = d.oget o2 := by
  simp only [Dev.oget, Dev.fputB_objs]
@[simp] theorem Dev.queue_fputB (j : Nat) : (d.fputB f b).queue j = d.queue j := by
  simp only [Dev.queue, Dev.fputB_jamb]
@[simp] theorem Dev.cmd_fputB (j : Nat) : (d.fputB f b).cmd j = d.cmd j := by
  simp only [Dev.cmd, Dev.fputB_jamb]
@[simp] theorem Dev.chan_fputB (j : Nat) : (d.fputB f b).chan j = d.chan j := by
  simp only [Dev.chan, Dev.fputB_mem]
@[simp] theorem Dev.drive_fputB (j : Nat) : (d.fputB f b).drive j = d.drive j := by
  simp only [Dev.drive, Dev.fputB_drives]
@[simp] theorem Dev.ctx_fputB (j : Nat) : (d.fputB f b).ctx j = d.ctx j := by
  simp only [Dev.ctx, Dev.fputB_pipes]
@[simp] theorem Dev.pane_fputB (j : Nat) : (d.fputB f b).pane j = d.pane j := by
  simp only [Dev.pane, Dev.fputB_pipes]
@[simp] theorem Dev.latch_fputB (j : Nat) : (d.fputB f b).latch j = d.latch j := by
  simp only [Dev.latch, Dev.fputB_pipes]
@[simp] theorem Dev.lvTable_fputB (j : Nat) : (d.fputB f b).lvTable j = d.lvTable j := by
  simp only [Dev.lvTable, Dev.fputB_louvre]
@[simp] theorem Dev.hchan_fputB (j : Nat) : (d.fputB f b).hchan j = d.hchan j := by
  simp only [Dev.hchan, Dev.fputB_hinge]
@[simp] theorem Dev.slot_fputB (j : Nat) : (d.fputB f b).slot j = d.slot j := by
  simp only [Dev.slot, Dev.fputB_dig]
@[simp] theorem Dev.dgctx_fputB (j : Nat) : (d.fputB f b).dgctx j = d.dgctx j := by
  simp only [Dev.dgctx, Dev.fputB_dig]
@[simp] theorem Dev.tunit_fputB (j : Nat) : (d.fputB f b).tunit j = d.tunit j := by
  simp only [Dev.tunit, Dev.fputB_thr]
@[simp] theorem Dev.peer_fputB (j : Nat) : (d.fputB f b).peer j = d.peer j := by
  simp only [Dev.peer, Dev.fputB_net]
@[simp] theorem Dev.bcas_fputB (j : Nat) : (d.fputB f b).bcas j = d.bcas j := by
  simp only [Dev.bcas, Dev.fputB_bifold]
end

/-! ### Dev.fcount -/

section
variable (d : Dev) (f : Fld) (n : Nat)
@[simp] theorem Dev.oget_fcount (o2 : Obj) : (d.fcount f n).oget o2 = d.oget o2 := by
  simp only [Dev.oget, Dev.fcount_objs]
@[simp] theorem Dev.queue_fcount (j : Nat) : (d.fcount f n).queue j = d.queue j := by
  simp only [Dev.queue, Dev.fcount_jamb]
@[simp] theorem Dev.cmd_fcount (j : Nat) : (d.fcount f n).cmd j = d.cmd j := by
  simp only [Dev.cmd, Dev.fcount_jamb]
@[simp] theorem Dev.chan_fcount (j : Nat) : (d.fcount f n).chan j = d.chan j := by
  simp only [Dev.chan, Dev.fcount_mem]
@[simp] theorem Dev.drive_fcount (j : Nat) : (d.fcount f n).drive j = d.drive j := by
  simp only [Dev.drive, Dev.fcount_drives]
@[simp] theorem Dev.ctx_fcount (j : Nat) : (d.fcount f n).ctx j = d.ctx j := by
  simp only [Dev.ctx, Dev.fcount_pipes]
@[simp] theorem Dev.pane_fcount (j : Nat) : (d.fcount f n).pane j = d.pane j := by
  simp only [Dev.pane, Dev.fcount_pipes]
@[simp] theorem Dev.latch_fcount (j : Nat) : (d.fcount f n).latch j = d.latch j := by
  simp only [Dev.latch, Dev.fcount_pipes]
@[simp] theorem Dev.lvTable_fcount (j : Nat) : (d.fcount f n).lvTable j = d.lvTable j := by
  simp only [Dev.lvTable, Dev.fcount_louvre]
@[simp] theorem Dev.hchan_fcount (j : Nat) : (d.fcount f n).hchan j = d.hchan j := by
  simp only [Dev.hchan, Dev.fcount_hinge]
@[simp] theorem Dev.slot_fcount (j : Nat) : (d.fcount f n).slot j = d.slot j := by
  simp only [Dev.slot, Dev.fcount_dig]
@[simp] theorem Dev.dgctx_fcount (j : Nat) : (d.fcount f n).dgctx j = d.dgctx j := by
  simp only [Dev.dgctx, Dev.fcount_dig]
@[simp] theorem Dev.tunit_fcount (j : Nat) : (d.fcount f n).tunit j = d.tunit j := by
  simp only [Dev.tunit, Dev.fcount_thr]
@[simp] theorem Dev.peer_fcount (j : Nat) : (d.fcount f n).peer j = d.peer j := by
  simp only [Dev.peer, Dev.fcount_net]
@[simp] theorem Dev.bcas_fcount (j : Nat) : (d.fcount f n).bcas j = d.bcas j := by
  simp only [Dev.bcas, Dev.fcount_bifold]
end

/-! ### Dev.for_ -/

section
variable (d : Dev) (f : Fld) (m : Nat)
@[simp] theorem Dev.oget_for (o2 : Obj) : (d.for_ f m).oget o2 = d.oget o2 := by
  simp only [Dev.oget, Dev.for_objs]
@[simp] theorem Dev.queue_for (j : Nat) : (d.for_ f m).queue j = d.queue j := by
  simp only [Dev.queue, Dev.for_jamb]
@[simp] theorem Dev.cmd_for (j : Nat) : (d.for_ f m).cmd j = d.cmd j := by
  simp only [Dev.cmd, Dev.for_jamb]
@[simp] theorem Dev.chan_for (j : Nat) : (d.for_ f m).chan j = d.chan j := by
  simp only [Dev.chan, Dev.for_mem]
@[simp] theorem Dev.drive_for (j : Nat) : (d.for_ f m).drive j = d.drive j := by
  simp only [Dev.drive, Dev.for_drives]
@[simp] theorem Dev.ctx_for (j : Nat) : (d.for_ f m).ctx j = d.ctx j := by
  simp only [Dev.ctx, Dev.for_pipes]
@[simp] theorem Dev.pane_for (j : Nat) : (d.for_ f m).pane j = d.pane j := by
  simp only [Dev.pane, Dev.for_pipes]
@[simp] theorem Dev.latch_for (j : Nat) : (d.for_ f m).latch j = d.latch j := by
  simp only [Dev.latch, Dev.for_pipes]
@[simp] theorem Dev.lvTable_for (j : Nat) : (d.for_ f m).lvTable j = d.lvTable j := by
  simp only [Dev.lvTable, Dev.for_louvre]
@[simp] theorem Dev.hchan_for (j : Nat) : (d.for_ f m).hchan j = d.hchan j := by
  simp only [Dev.hchan, Dev.for_hinge]
@[simp] theorem Dev.slot_for (j : Nat) : (d.for_ f m).slot j = d.slot j := by
  simp only [Dev.slot, Dev.for_dig]
@[simp] theorem Dev.dgctx_for (j : Nat) : (d.for_ f m).dgctx j = d.dgctx j := by
  simp only [Dev.dgctx, Dev.for_dig]
@[simp] theorem Dev.tunit_for (j : Nat) : (d.for_ f m).tunit j = d.tunit j := by
  simp only [Dev.tunit, Dev.for_thr]
@[simp] theorem Dev.peer_for (j : Nat) : (d.for_ f m).peer j = d.peer j := by
  simp only [Dev.peer, Dev.for_net]
@[simp] theorem Dev.bcas_for (j : Nat) : (d.for_ f m).bcas j = d.bcas j := by
  simp only [Dev.bcas, Dev.for_bifold]
end

/-! ### Dev.fcount64 -/

section
variable (d : Dev) (lo hi : Fld) (n : Nat)
@[simp] theorem Dev.oget_fcount64 (o2 : Obj) : (d.fcount64 lo hi n).oget o2 = d.oget o2 := by
  simp only [Dev.oget, Dev.fcount64_objs]
@[simp] theorem Dev.queue_fcount64 (j : Nat) : (d.fcount64 lo hi n).queue j = d.queue j := by
  simp only [Dev.queue, Dev.fcount64_jamb]
@[simp] theorem Dev.cmd_fcount64 (j : Nat) : (d.fcount64 lo hi n).cmd j = d.cmd j := by
  simp only [Dev.cmd, Dev.fcount64_jamb]
@[simp] theorem Dev.chan_fcount64 (j : Nat) : (d.fcount64 lo hi n).chan j = d.chan j := by
  simp only [Dev.chan, Dev.fcount64_mem]
@[simp] theorem Dev.drive_fcount64 (j : Nat) : (d.fcount64 lo hi n).drive j = d.drive j := by
  simp only [Dev.drive, Dev.fcount64_drives]
@[simp] theorem Dev.ctx_fcount64 (j : Nat) : (d.fcount64 lo hi n).ctx j = d.ctx j := by
  simp only [Dev.ctx, Dev.fcount64_pipes]
@[simp] theorem Dev.pane_fcount64 (j : Nat) : (d.fcount64 lo hi n).pane j = d.pane j := by
  simp only [Dev.pane, Dev.fcount64_pipes]
@[simp] theorem Dev.latch_fcount64 (j : Nat) : (d.fcount64 lo hi n).latch j = d.latch j := by
  simp only [Dev.latch, Dev.fcount64_pipes]
@[simp] theorem Dev.lvTable_fcount64 (j : Nat) : (d.fcount64 lo hi n).lvTable j = d.lvTable j := by
  simp only [Dev.lvTable, Dev.fcount64_louvre]
@[simp] theorem Dev.hchan_fcount64 (j : Nat) : (d.fcount64 lo hi n).hchan j = d.hchan j := by
  simp only [Dev.hchan, Dev.fcount64_hinge]
@[simp] theorem Dev.slot_fcount64 (j : Nat) : (d.fcount64 lo hi n).slot j = d.slot j := by
  simp only [Dev.slot, Dev.fcount64_dig]
@[simp] theorem Dev.dgctx_fcount64 (j : Nat) : (d.fcount64 lo hi n).dgctx j = d.dgctx j := by
  simp only [Dev.dgctx, Dev.fcount64_dig]
@[simp] theorem Dev.tunit_fcount64 (j : Nat) : (d.fcount64 lo hi n).tunit j = d.tunit j := by
  simp only [Dev.tunit, Dev.fcount64_thr]
@[simp] theorem Dev.peer_fcount64 (j : Nat) : (d.fcount64 lo hi n).peer j = d.peer j := by
  simp only [Dev.peer, Dev.fcount64_net]
@[simp] theorem Dev.bcas_fcount64 (j : Nat) : (d.fcount64 lo hi n).bcas j = d.bcas j := by
  simp only [Dev.bcas, Dev.fcount64_bifold]
end

/-! ### Dev.ocount -/

section
variable (d : Dev) (o : Obj) (n : Nat)
@[simp] theorem Dev.fget_ocount (g : Fld) : (d.ocount o n).fget g = d.fget g := by
  simp only [Dev.fget, Dev.ocount_flds]
@[simp] theorem Dev.fgetB_ocount (g : Fld) : (d.ocount o n).fgetB g = d.fgetB g := by
  simp only [Dev.fgetB, Dev.fget, Dev.ocount_flds]
@[simp] theorem Dev.queue_ocount (j : Nat) : (d.ocount o n).queue j = d.queue j := by
  simp only [Dev.queue, Dev.ocount_jamb]
@[simp] theorem Dev.cmd_ocount (j : Nat) : (d.ocount o n).cmd j = d.cmd j := by
  simp only [Dev.cmd, Dev.ocount_jamb]
@[simp] theorem Dev.chan_ocount (j : Nat) : (d.ocount o n).chan j = d.chan j := by
  simp only [Dev.chan, Dev.ocount_mem]
@[simp] theorem Dev.drive_ocount (j : Nat) : (d.ocount o n).drive j = d.drive j := by
  simp only [Dev.drive, Dev.ocount_drives]
@[simp] theorem Dev.ctx_ocount (j : Nat) : (d.ocount o n).ctx j = d.ctx j := by
  simp only [Dev.ctx, Dev.ocount_pipes]
@[simp] theorem Dev.pane_ocount (j : Nat) : (d.ocount o n).pane j = d.pane j := by
  simp only [Dev.pane, Dev.ocount_pipes]
@[simp] theorem Dev.latch_ocount (j : Nat) : (d.ocount o n).latch j = d.latch j := by
  simp only [Dev.latch, Dev.ocount_pipes]
@[simp] theorem Dev.lvTable_ocount (j : Nat) : (d.ocount o n).lvTable j = d.lvTable j := by
  simp only [Dev.lvTable, Dev.ocount_louvre]
@[simp] theorem Dev.hchan_ocount (j : Nat) : (d.ocount o n).hchan j = d.hchan j := by
  simp only [Dev.hchan, Dev.ocount_hinge]
@[simp] theorem Dev.slot_ocount (j : Nat) : (d.ocount o n).slot j = d.slot j := by
  simp only [Dev.slot, Dev.ocount_dig]
@[simp] theorem Dev.dgctx_ocount (j : Nat) : (d.ocount o n).dgctx j = d.dgctx j := by
  simp only [Dev.dgctx, Dev.ocount_dig]
@[simp] theorem Dev.tunit_ocount (j : Nat) : (d.ocount o n).tunit j = d.tunit j := by
  simp only [Dev.tunit, Dev.ocount_thr]
@[simp] theorem Dev.peer_ocount (j : Nat) : (d.ocount o n).peer j = d.peer j := by
  simp only [Dev.peer, Dev.ocount_net]
@[simp] theorem Dev.bcas_ocount (j : Nat) : (d.ocount o n).bcas j = d.bcas j := by
  simp only [Dev.bcas, Dev.ocount_bifold]
end

end Sys2Proof.Machine
end

