-- ==== Sys2Proof/Laws/Outcomes.lean ====
section
/-!
SUPPORT. How the meanings of commands answer: each of the ways of Outcomes.lean, what follows on a calm device, and commands in
flight.
-/

namespace Sys2Proof.Machine

/-! ### What follows a command -/

theorem Dev.reactAll_nil (k : Nat) (d : Dev) (h : d.reacts = []) : Dev.reactAll k d = d := by
  cases k with
  | zero => rfl
  | succ k => simp only [Dev.reactAll, h]

/-- Nothing follows a command that leaves the device calm. -/
theorem Dev.settle_calm (d : Dev) (h : d.calm = true) : d.settle = d := by
  simp only [Dev.calm, Bool.and_eq_true, List.isEmpty_iff] at h
  simp only [Dev.settle, Dev.reactAll_nil _ _ h.1, h.2, or_true, if_true]

/-! ### The ways of answering -/

theorem serve_of {s : State} (f : Dev → Dev) (h : s.dev.serves = true) :
    serve s f = .next { s with dev := (f s.dev).settle } := by
  simp only [serve, Dev.served, h, if_true]

theorem serve_not {s : State} (f : Dev → Dev) (h : s.dev.serves = false) : serve s f = .next s := by
  simp [serve, Dev.served, h]

theorem serveAlone_of {s : State} (f : Dev → Dev) (h : s.dev.serves = true) :
    serveAlone s f = .next { s with dev := f s.dev } := by
  simp only [serveAlone, Dev.servedAlone, h, if_true]

theorem serveAlone_not {s : State} (f : Dev → Dev) (h : s.dev.serves = false) : serveAlone s f = .next s := by
  simp [serveAlone, Dev.servedAlone, h]

theorem servePowered_of {s : State} (f : Dev → Dev) (h : s.dev.powered = true) :
    servePowered s f = .next { s with dev := (f s.dev).settle } := by
  simp only [servePowered, Dev.servedPowered, h, if_true]

theorem servePowered_not {s : State} (f : Dev → Dev) (h : s.dev.powered = false) : servePowered s f = .next s := by
  simp [servePowered, Dev.servedPowered, h]

theorem serves_powered {d : Dev} (h : d.serves = true) : d.powered = true := by
  simp only [Dev.serves, Bool.and_eq_true] at h
  exact h.1.1

/-- Calm is a matter of what is owed and of the pipelines alone. -/
theorem Dev.calm_congr {d e : Dev} (hr : e.reacts = d.reacts) (hp : e.pipes = d.pipes) : e.calm = d.calm := by
  simp only [Dev.calm, Dev.activeCtxs, hr, hp]

/-- What a served command lands, from what its operation does. -/
theorem lands_of {i : Instr} {s : State} {f : Dev → Dev} {P : Dev → Prop} (h : exec i s = serve s f)
    (hs : s.dev.serves = true) (hP : P (f s.dev)) (hc : s.dev.calm = true → (f s.dev).calm = true) : Lands i s P := by
  rw [serve_of f hs] at h
  exact ⟨f s.dev, h, hP, fun c => by rw [h, Dev.settle_calm _ (hc c)]⟩

/-- What a served command brings about, from what its operation does. -/
theorem brings_of {i : Instr} {s : State} {f : Dev → Dev} {P : Dev → Prop} (h : exec i s = serve s f)
    (hs : s.dev.serves = true) (hP : P (f s.dev)) : Brings i s P := by
  rw [serve_of f hs] at h
  exact ⟨f s.dev, h, hP⟩

/-- What a command that nothing follows gives, from what its operation does. -/
theorem gives_of {i : Instr} {s : State} {f : Dev → Dev} {P : Dev → Prop} (h : exec i s = serveAlone s f)
    (hs : s.dev.serves = true) (hP : P (f s.dev)) : Gives i s P := by
  rw [serveAlone_of f hs] at h
  exact ⟨f s.dev, h, hP⟩

/-! ### Commands in flight -/

theorem Dev.cmd_mapCmd (d : Dev) (id : Nat) (f : Cmd → Cmd) (hf : ∀ c, (f c).id = c.id) :
    (d.mapCmd id f).cmd id = (d.cmd id).map f := by
  simp only [Dev.cmd, Dev.mapCmd, List.find?_map]
  have hp : ((fun c : Cmd => decide (c.id = id)) ∘ fun c => if c.id = id then f c else c) = fun c => decide (c.id = id) := by
    funext c
    by_cases h : c.id = id <;> simp [h, hf]
  rw [hp]
  cases h : d.jamb.cmds.find? (fun c => decide (c.id = id)) with
  | none => rfl
  | some k =>
    have := List.find?_some h
    simp_all

/-- The end of a command in flight. -/
theorem Dev.cmd_finish (d : Dev) (id status : Nat) (r : Bytes) (n : Nat) :
    (d.finish id status r n).cmd id
      = (d.cmd id).map (fun c => { c with phase := .finished, status := status, result := r, resultLen := n }) := by
  unfold Dev.finish
  rw [Dev.cmd_mapCmd _ id _ (by intro c; rfl)]
  unfold Dev.countPoison
  split <;> simp

theorem Dev.finish_ended (d : Dev) (id status : Nat) (r : Bytes) (n : Nat) (h : (d.cmd id).isSome = true) :
    (d.finish id status r n).ended id status r := by
  obtain ⟨k, hk⟩ := Option.isSome_iff_exists.mp h
  exact ⟨_, by rw [Dev.cmd_finish, hk]; rfl, rfl, rfl, rfl⟩

theorem Dev.running_cmd {d : Dev} {id op : Nat} {k : Cmd} (h : d.running id op = some k) :
    d.cmd id = some k ∧ k.phase = .dispatched ∧ k.opcode = op ∧ d.halted = false := by
  unfold Dev.running at h
  split at h
  · split at h
    · obtain rfl := Option.some.inj h
      exact ⟨‹_›, by simp_all⟩
    · cases h
  · cases h

end Sys2Proof.Machine
end

