-- ==== Sys2Proof/Laws/Frames.lean ====
section
/-!
SUPPORT. What each operation of the device leaves as it was.
-/

set_option linter.unusedTactic false
set_option linter.unnecessarySeqFocus false
set_option linter.unusedSimpArgs false

namespace Sys2Proof.Machine

theorem foldl_flds {α : Type} (g : Dev → α → Dev) (l : List α) (d : Dev) (h : ∀ d a, (g d a).flds = d.flds) :
    (l.foldl g d).flds = d.flds :=
  foldl_keeps (fun e => e.flds = d.flds) g (fun b a hb => (h b a).trans hb) l d rfl

theorem foldl_objs {α : Type} (g : Dev → α → Dev) (l : List α) (d : Dev) (h : ∀ d a, (g d a).objs = d.objs) :
    (l.foldl g d).objs = d.objs :=
  foldl_keeps (fun e => e.objs = d.objs) g (fun b a hb => (h b a).trans hb) l d rfl

theorem foldl_host {α : Type} (g : Dev → α → Dev) (l : List α) (d : Dev) (h : ∀ d a, (g d a).host = d.host) :
    (l.foldl g d).host = d.host :=
  foldl_keeps (fun e => e.host = d.host) g (fun b a hb => (h b a).trans hb) l d rfl

theorem foldl_hostBad {α : Type} (g : Dev → α → Dev) (l : List α) (d : Dev) (h : ∀ d a, (g d a).hostBad = d.hostBad) :
    (l.foldl g d).hostBad = d.hostBad :=
  foldl_keeps (fun e => e.hostBad = d.hostBad) g (fun b a hb => (h b a).trans hb) l d rfl

theorem foldl_jamb {α : Type} (g : Dev → α → Dev) (l : List α) (d : Dev) (h : ∀ d a, (g d a).jamb = d.jamb) :
    (l.foldl g d).jamb = d.jamb :=
  foldl_keeps (fun e => e.jamb = d.jamb) g (fun b a hb => (h b a).trans hb) l d rfl

theorem foldl_mem {α : Type} (g : Dev → α → Dev) (l : List α) (d : Dev) (h : ∀ d a, (g d a).mem = d.mem) :
    (l.foldl g d).mem = d.mem :=
  foldl_keeps (fun e => e.mem = d.mem) g (fun b a hb => (h b a).trans hb) l d rfl

theorem foldl_sill {α : Type} (g : Dev → α → Dev) (l : List α) (d : Dev) (h : ∀ d a, (g d a).sill = d.sill) :
    (l.foldl g d).sill = d.sill :=
  foldl_keeps (fun e => e.sill = d.sill) g (fun b a hb => (h b a).trans hb) l d rfl

theorem foldl_maint {α : Type} (g : Dev → α → Dev) (l : List α) (d : Dev) (h : ∀ d a, (g d a).maint = d.maint) :
    (l.foldl g d).maint = d.maint :=
  foldl_keeps (fun e => e.maint = d.maint) g (fun b a hb => (h b a).trans hb) l d rfl

theorem foldl_thr {α : Type} (g : Dev → α → Dev) (l : List α) (d : Dev) (h : ∀ d a, (g d a).thr = d.thr) :
    (l.foldl g d).thr = d.thr :=
  foldl_keeps (fun e => e.thr = d.thr) g (fun b a hb => (h b a).trans hb) l d rfl

theorem foldl_drives {α : Type} (g : Dev → α → Dev) (l : List α) (d : Dev) (h : ∀ d a, (g d a).drives = d.drives) :
    (l.foldl g d).drives = d.drives :=
  foldl_keeps (fun e => e.drives = d.drives) g (fun b a hb => (h b a).trans hb) l d rfl

theorem foldl_bifold {α : Type} (g : Dev → α → Dev) (l : List α) (d : Dev) (h : ∀ d a, (g d a).bifold = d.bifold) :
    (l.foldl g d).bifold = d.bifold :=
  foldl_keeps (fun e => e.bifold = d.bifold) g (fun b a hb => (h b a).trans hb) l d rfl

theorem foldl_dig {α : Type} (g : Dev → α → Dev) (l : List α) (d : Dev) (h : ∀ d a, (g d a).dig = d.dig) :
    (l.foldl g d).dig = d.dig :=
  foldl_keeps (fun e => e.dig = d.dig) g (fun b a hb => (h b a).trans hb) l d rfl

theorem foldl_hinge {α : Type} (g : Dev → α → Dev) (l : List α) (d : Dev) (h : ∀ d a, (g d a).hinge = d.hinge) :
    (l.foldl g d).hinge = d.hinge :=
  foldl_keeps (fun e => e.hinge = d.hinge) g (fun b a hb => (h b a).trans hb) l d rfl

theorem foldl_pipes {α : Type} (g : Dev → α → Dev) (l : List α) (d : Dev) (h : ∀ d a, (g d a).pipes = d.pipes) :
    (l.foldl g d).pipes = d.pipes :=
  foldl_keeps (fun e => e.pipes = d.pipes) g (fun b a hb => (h b a).trans hb) l d rfl

theorem foldl_louvre {α : Type} (g : Dev → α → Dev) (l : List α) (d : Dev) (h : ∀ d a, (g d a).louvre = d.louvre) :
    (l.foldl g d).louvre = d.louvre :=
  foldl_keeps (fun e => e.louvre = d.louvre) g (fun b a hb => (h b a).trans hb) l d rfl

theorem foldl_net {α : Type} (g : Dev → α → Dev) (l : List α) (d : Dev) (h : ∀ d a, (g d a).net = d.net) :
    (l.foldl g d).net = d.net :=
  foldl_keeps (fun e => e.net = d.net) g (fun b a hb => (h b a).trans hb) l d rfl

theorem foldl_sash {α : Type} (g : Dev → α → Dev) (l : List α) (d : Dev) (h : ∀ d a, (g d a).sash = d.sash) :
    (l.foldl g d).sash = d.sash :=
  foldl_keeps (fun e => e.sash = d.sash) g (fun b a hb => (h b a).trans hb) l d rfl

theorem foldl_life {α : Type} (g : Dev → α → Dev) (l : List α) (d : Dev) (h : ∀ d a, (g d a).life = d.life) :
    (l.foldl g d).life = d.life :=
  foldl_keeps (fun e => e.life = d.life) g (fun b a hb => (h b a).trans hb) l d rfl

theorem foldl_tap {α : Type} (g : Dev → α → Dev) (l : List α) (d : Dev) (h : ∀ d a, (g d a).tap = d.tap) :
    (l.foldl g d).tap = d.tap :=
  foldl_keeps (fun e => e.tap = d.tap) g (fun b a hb => (h b a).trans hb) l d rfl

theorem foldl_ordering288 {α : Type} (g : Dev → α → Dev) (l : List α) (d : Dev) (h : ∀ d a, (g d a).ordering288 = d.ordering288) :
    (l.foldl g d).ordering288 = d.ordering288 :=
  foldl_keeps (fun e => e.ordering288 = d.ordering288) g (fun b a hb => (h b a).trans hb) l d rfl

theorem foldl_timeBase {α : Type} (g : Dev → α → Dev) (l : List α) (d : Dev) (h : ∀ d a, (g d a).timeBase = d.timeBase) :
    (l.foldl g d).timeBase = d.timeBase :=
  foldl_keeps (fun e => e.timeBase = d.timeBase) g (fun b a hb => (h b a).trans hb) l d rfl

theorem foldl_halted {α : Type} (g : Dev → α → Dev) (l : List α) (d : Dev) (h : ∀ d a, (g d a).halted = d.halted) :
    (l.foldl g d).halted = d.halted :=
  foldl_keeps (fun e => e.halted = d.halted) g (fun b a hb => (h b a).trans hb) l d rfl

theorem foldl_reacts {α : Type} (g : Dev → α → Dev) (l : List α) (d : Dev) (h : ∀ d a, (g d a).reacts = d.reacts) :
    (l.foldl g d).reacts = d.reacts :=
  foldl_keeps (fun e => e.reacts = d.reacts) g (fun b a hb => (h b a).trans hb) l d rfl

theorem foldl_out {α : Type} (g : Dev → α → Dev) (l : List α) (d : Dev) (h : ∀ d a, (g d a).out = d.out) :
    (l.foldl g d).out = d.out :=
  foldl_keeps (fun e => e.out = d.out) g (fun b a hb => (h b a).trans hb) l d rfl

theorem foldl_free {α : Type} (g : Dev → α → Dev) (l : List α) (d : Dev) (h : ∀ d a, (g d a).free = d.free) :
    (l.foldl g d).free = d.free :=
  foldl_keeps (fun e => e.free = d.free) g (fun b a hb => (h b a).trans hb) l d rfl

@[simp] theorem Dev.poison_flds (d : Dev) (a : ℕ) : (Dev.poison d a).flds = d.flds := by
  unfold Dev.poison; (try dsimp only); (repeat' split) <;> simp [foldl_flds]

@[simp] theorem Dev.poison_objs (d : Dev) (a : ℕ) : (Dev.poison d a).objs = d.objs := by
  unfold Dev.poison; (try dsimp only); (repeat' split) <;> simp [foldl_objs]

@[simp] theorem Dev.poison_host (d : Dev) (a : ℕ) : (Dev.poison d a).host = d.host := by
  unfold Dev.poison; (try dsimp only); (repeat' split) <;> simp [foldl_host]

@[simp] theorem Dev.poison_hostBad (d : Dev) (a : ℕ) : (Dev.poison d a).hostBad = d.hostBad := by
  unfold Dev.poison; (try dsimp only); (repeat' split) <;> simp [foldl_hostBad]

@[simp] theorem Dev.poison_jamb (d : Dev) (a : ℕ) : (Dev.poison d a).jamb = d.jamb := by
  unfold Dev.poison; (try dsimp only); (repeat' split) <;> simp [foldl_jamb]

@[simp] theorem Dev.poison_sill (d : Dev) (a : ℕ) : (Dev.poison d a).sill = d.sill := by
  unfold Dev.poison; (try dsimp only); (repeat' split) <;> simp [foldl_sill]

@[simp] theorem Dev.poison_maint (d : Dev) (a : ℕ) : (Dev.poison d a).maint = d.maint := by
  unfold Dev.poison; (try dsimp only); (repeat' split) <;> simp [foldl_maint]

@[simp] theorem Dev.poison_thr (d : Dev) (a : ℕ) : (Dev.poison d a).thr = d.thr := by
  unfold Dev.poison; (try dsimp only); (repeat' split) <;> simp [foldl_thr]

@[simp] theorem Dev.poison_drives (d : Dev) (a : ℕ) : (Dev.poison d a).drives = d.drives := by
  unfold Dev.poison; (try dsimp only); (repeat' split) <;> simp [foldl_drives]

@[simp] theorem Dev.poison_bifold (d : Dev) (a : ℕ) : (Dev.poison d a).bifold = d.bifold := by
  unfold Dev.poison; (try dsimp only); (repeat' split) <;> simp [foldl_bifold]

@[simp] theorem Dev.poison_dig (d : Dev) (a : ℕ) : (Dev.poison d a).dig = d.dig := by
  unfold Dev.poison; (try dsimp only); (repeat' split) <;> simp [foldl_dig]

@[simp] theorem Dev.poison_hinge (d : Dev) (a : ℕ) : (Dev.poison d a).hinge = d.hinge := by
  unfold Dev.poison; (try dsimp only); (repeat' split) <;> simp [foldl_hinge]

@[simp] theorem Dev.poison_pipes (d : Dev) (a : ℕ) : (Dev.poison d a).pipes = d.pipes := by
  unfold Dev.poison; (try dsimp only); (repeat' split) <;> simp [foldl_pipes]

@[simp] theorem Dev.poison_louvre (d : Dev) (a : ℕ) : (Dev.poison d a).louvre = d.louvre := by
  unfold Dev.poison; (try dsimp only); (repeat' split) <;> simp [foldl_louvre]

@[simp] theorem Dev.poison_net (d : Dev) (a : ℕ) : (Dev.poison d a).net = d.net := by
  unfold Dev.poison; (try dsimp only); (repeat' split) <;> simp [foldl_net]

@[simp] theorem Dev.poison_sash (d : Dev) (a : ℕ) : (Dev.poison d a).sash = d.sash := by
  unfold Dev.poison; (try dsimp only); (repeat' split) <;> simp [foldl_sash]

@[simp] theorem Dev.poison_life (d : Dev) (a : ℕ) : (Dev.poison d a).life = d.life := by
  unfold Dev.poison; (try dsimp only); (repeat' split) <;> simp [foldl_life]

@[simp] theorem Dev.poison_tap (d : Dev) (a : ℕ) : (Dev.poison d a).tap = d.tap := by
  unfold Dev.poison; (try dsimp only); (repeat' split) <;> simp [foldl_tap]

@[simp] theorem Dev.poison_ordering288 (d : Dev) (a : ℕ) : (Dev.poison d a).ordering288 = d.ordering288 := by
  unfold Dev.poison; (try dsimp only); (repeat' split) <;> simp [foldl_ordering288]

@[simp] theorem Dev.poison_timeBase (d : Dev) (a : ℕ) : (Dev.poison d a).timeBase = d.timeBase := by
  unfold Dev.poison; (try dsimp only); (repeat' split) <;> simp [foldl_timeBase]

@[simp] theorem Dev.poison_halted (d : Dev) (a : ℕ) : (Dev.poison d a).halted = d.halted := by
  unfold Dev.poison; (try dsimp only); (repeat' split) <;> simp [foldl_halted]

@[simp] theorem Dev.poison_reacts (d : Dev) (a : ℕ) : (Dev.poison d a).reacts = d.reacts := by
  unfold Dev.poison; (try dsimp only); (repeat' split) <;> simp [foldl_reacts]

@[simp] theorem Dev.poison_out (d : Dev) (a : ℕ) : (Dev.poison d a).out = d.out := by
  unfold Dev.poison; (try dsimp only); (repeat' split) <;> simp [foldl_out]

@[simp] theorem Dev.poison_free (d : Dev) (a : ℕ) : (Dev.poison d a).free = d.free := by
  unfold Dev.poison; (try dsimp only); (repeat' split) <;> simp [foldl_free]

theorem Dev.poisonFold_bifold (g : Nat → Nat) (l : List Nat) (d : Dev) :
    (l.foldl (fun d i => d.poison (g i)) d).bifold = d.bifold := by
  induction l generalizing d with
  | nil => rfl
  | cons x xs ih => rw [List.foldl_cons, ih, Dev.poison_bifold]

theorem Dev.poisonFold_dig (g : Nat → Nat) (l : List Nat) (d : Dev) :
    (l.foldl (fun d i => d.poison (g i)) d).dig = d.dig := by
  induction l generalizing d with
  | nil => rfl
  | cons x xs ih => rw [List.foldl_cons, ih, Dev.poison_dig]

theorem Dev.poisonFold_drives (g : Nat → Nat) (l : List Nat) (d : Dev) :
    (l.foldl (fun d i => d.poison (g i)) d).drives = d.drives := by
  induction l generalizing d with
  | nil => rfl
  | cons x xs ih => rw [List.foldl_cons, ih, Dev.poison_drives]

theorem Dev.poisonFold_flds (g : Nat → Nat) (l : List Nat) (d : Dev) :
    (l.foldl (fun d i => d.poison (g i)) d).flds = d.flds := by
  induction l generalizing d with
  | nil => rfl
  | cons x xs ih => rw [List.foldl_cons, ih, Dev.poison_flds]

theorem Dev.poisonFold_free (g : Nat → Nat) (l : List Nat) (d : Dev) :
    (l.foldl (fun d i => d.poison (g i)) d).free = d.free := by
  induction l generalizing d with
  | nil => rfl
  | cons x xs ih => rw [List.foldl_cons, ih, Dev.poison_free]

theorem Dev.poisonFold_halted (g : Nat → Nat) (l : List Nat) (d : Dev) :
    (l.foldl (fun d i => d.poison (g i)) d).halted = d.halted := by
  induction l generalizing d with
  | nil => rfl
  | cons x xs ih => rw [List.foldl_cons, ih, Dev.poison_halted]

theorem Dev.poisonFold_hinge (g : Nat → Nat) (l : List Nat) (d : Dev) :
    (l.foldl (fun d i => d.poison (g i)) d).hinge = d.hinge := by
  induction l generalizing d with
  | nil => rfl
  | cons x xs ih => rw [List.foldl_cons, ih, Dev.poison_hinge]

theorem Dev.poisonFold_host (g : Nat → Nat) (l : List Nat) (d : Dev) :
    (l.foldl (fun d i => d.poison (g i)) d).host = d.host := by
  induction l generalizing d with
  | nil => rfl
  | cons x xs ih => rw [List.foldl_cons, ih, Dev.poison_host]

theorem Dev.poisonFold_hostBad (g : Nat → Nat) (l : List Nat) (d : Dev) :
    (l.foldl (fun d i => d.poison (g i)) d).hostBad = d.hostBad := by
  induction l generalizing d with
  | nil => rfl
  | cons x xs ih => rw [List.foldl_cons, ih, Dev.poison_hostBad]

theorem Dev.poisonFold_jamb (g : Nat → Nat) (l : List Nat) (d : Dev) :
    (l.foldl (fun d i => d.poison (g i)) d).jamb = d.jamb := by
  induction l generalizing d with
  | nil => rfl
  | cons x xs ih => rw [List.foldl_cons, ih, Dev.poison_jamb]

theorem Dev.poisonFold_life (g : Nat → Nat) (l : List Nat) (d : Dev) :
    (l.foldl (fun d i => d.poison (g i)) d).life = d.life := by
  induction l generalizing d with
  | nil => rfl
  | cons x xs ih => rw [List.foldl_cons, ih, Dev.poison_life]

theorem Dev.poisonFold_louvre (g : Nat → Nat) (l : List Nat) (d : Dev) :
    (l.foldl (fun d i => d.poison (g i)) d).louvre = d.louvre := by
  induction l generalizing d with
  | nil => rfl
  | cons x xs ih => rw [List.foldl_cons, ih, Dev.poison_louvre]

theorem Dev.poisonFold_maint (g : Nat → Nat) (l : List Nat) (d : Dev) :
    (l.foldl (fun d i => d.poison (g i)) d).maint = d.maint := by
  induction l generalizing d with
  | nil => rfl
  | cons x xs ih => rw [List.foldl_cons, ih, Dev.poison_maint]

theorem Dev.poisonFold_net (g : Nat → Nat) (l : List Nat) (d : Dev) :
    (l.foldl (fun d i => d.poison (g i)) d).net = d.net := by
  induction l generalizing d with
  | nil => rfl
  | cons x xs ih => rw [List.foldl_cons, ih, Dev.poison_net]

theorem Dev.poisonFold_objs (g : Nat → Nat) (l : List Nat) (d : Dev) :
    (l.foldl (fun d i => d.poison (g i)) d).objs = d.objs := by
  induction l generalizing d with
  | nil => rfl
  | cons x xs ih => rw [List.foldl_cons, ih, Dev.poison_objs]

theorem Dev.poisonFold_ordering288 (g : Nat → Nat) (l : List Nat) (d : Dev) :
    (l.foldl (fun d i => d.poison (g i)) d).ordering288 = d.ordering288 := by
  induction l generalizing d with
  | nil => rfl
  | cons x xs ih => rw [List.foldl_cons, ih, Dev.poison_ordering288]

theorem Dev.poisonFold_out (g : Nat → Nat) (l : List Nat) (d : Dev) :
    (l.foldl (fun d i => d.poison (g i)) d).out = d.out := by
  induction l generalizing d with
  | nil => rfl
  | cons x xs ih => rw [List.foldl_cons, ih, Dev.poison_out]

theorem Dev.poisonFold_pipes (g : Nat → Nat) (l : List Nat) (d : Dev) :
    (l.foldl (fun d i => d.poison (g i)) d).pipes = d.pipes := by
  induction l generalizing d with
  | nil => rfl
  | cons x xs ih => rw [List.foldl_cons, ih, Dev.poison_pipes]

theorem Dev.poisonFold_reacts (g : Nat → Nat) (l : List Nat) (d : Dev) :
    (l.foldl (fun d i => d.poison (g i)) d).reacts = d.reacts := by
  induction l generalizing d with
  | nil => rfl
  | cons x xs ih => rw [List.foldl_cons, ih, Dev.poison_reacts]

theorem Dev.poisonFold_sash (g : Nat → Nat) (l : List Nat) (d : Dev) :
    (l.foldl (fun d i => d.poison (g i)) d).sash = d.sash := by
  induction l generalizing d with
  | nil => rfl
  | cons x xs ih => rw [List.foldl_cons, ih, Dev.poison_sash]

theorem Dev.poisonFold_sill (g : Nat → Nat) (l : List Nat) (d : Dev) :
    (l.foldl (fun d i => d.poison (g i)) d).sill = d.sill := by
  induction l generalizing d with
  | nil => rfl
  | cons x xs ih => rw [List.foldl_cons, ih, Dev.poison_sill]

theorem Dev.poisonFold_tap (g : Nat → Nat) (l : List Nat) (d : Dev) :
    (l.foldl (fun d i => d.poison (g i)) d).tap = d.tap := by
  induction l generalizing d with
  | nil => rfl
  | cons x xs ih => rw [List.foldl_cons, ih, Dev.poison_tap]

theorem Dev.poisonFold_thr (g : Nat → Nat) (l : List Nat) (d : Dev) :
    (l.foldl (fun d i => d.poison (g i)) d).thr = d.thr := by
  induction l generalizing d with
  | nil => rfl
  | cons x xs ih => rw [List.foldl_cons, ih, Dev.poison_thr]

theorem Dev.poisonFold_timeBase (g : Nat → Nat) (l : List Nat) (d : Dev) :
    (l.foldl (fun d i => d.poison (g i)) d).timeBase = d.timeBase := by
  induction l generalizing d with
  | nil => rfl
  | cons x xs ih => rw [List.foldl_cons, ih, Dev.poison_timeBase]

@[simp] theorem Dev.memWrite_flds (d : Dev) (a : ℕ) (bs : Bytes) : (Dev.memWrite d a bs).flds = d.flds := by
  rw [Dev.memWrite.eq_1]

@[simp] theorem Dev.memWrite_objs (d : Dev) (a : ℕ) (bs : Bytes) : (Dev.memWrite d a bs).objs = d.objs := by
  rw [Dev.memWrite.eq_1]

@[simp] theorem Dev.memWrite_host (d : Dev) (a : ℕ) (bs : Bytes) : (Dev.memWrite d a bs).host = d.host := by
  rw [Dev.memWrite.eq_1]

@[simp] theorem Dev.memWrite_hostBad (d : Dev) (a : ℕ) (bs : Bytes) : (Dev.memWrite d a bs).hostBad = d.hostBad := by
  rw [Dev.memWrite.eq_1]

@[simp] theorem Dev.memWrite_jamb (d : Dev) (a : ℕ) (bs : Bytes) : (Dev.memWrite d a bs).jamb = d.jamb := by
  rw [Dev.memWrite.eq_1]

@[simp] theorem Dev.memWrite_sill (d : Dev) (a : ℕ) (bs : Bytes) : (Dev.memWrite d a bs).sill = d.sill := by
  rw [Dev.memWrite.eq_1]

@[simp] theorem Dev.memWrite_maint (d : Dev) (a : ℕ) (bs : Bytes) : (Dev.memWrite d a bs).maint = d.maint := by
  rw [Dev.memWrite.eq_1]

@[simp] theorem Dev.memWrite_thr (d : Dev) (a : ℕ) (bs : Bytes) : (Dev.memWrite d a bs).thr = d.thr := by
  rw [Dev.memWrite.eq_1]

@[simp] theorem Dev.memWrite_drives (d : Dev) (a : ℕ) (bs : Bytes) : (Dev.memWrite d a bs).drives = d.drives := by
  rw [Dev.memWrite.eq_1]

@[simp] theorem Dev.memWrite_bifold (d : Dev) (a : ℕ) (bs : Bytes) : (Dev.memWrite d a bs).bifold = d.bifold := by
  rw [Dev.memWrite.eq_1]

@[simp] theorem Dev.memWrite_dig (d : Dev) (a : ℕ) (bs : Bytes) : (Dev.memWrite d a bs).dig = d.dig := by
  rw [Dev.memWrite.eq_1]

@[simp] theorem Dev.memWrite_hinge (d : Dev) (a : ℕ) (bs : Bytes) : (Dev.memWrite d a bs).hinge = d.hinge := by
  rw [Dev.memWrite.eq_1]

@[simp] theorem Dev.memWrite_pipes (d : Dev) (a : ℕ) (bs : Bytes) : (Dev.memWrite d a bs).pipes = d.pipes := by
  rw [Dev.memWrite.eq_1]

@[simp] theorem Dev.memWrite_louvre (d : Dev) (a : ℕ) (bs : Bytes) : (Dev.memWrite d a bs).louvre = d.louvre := by
  rw [Dev.memWrite.eq_1]

@[simp] theorem Dev.memWrite_net (d : Dev) (a : ℕ) (bs : Bytes) : (Dev.memWrite d a bs).net = d.net := by
  rw [Dev.memWrite.eq_1]

@[simp] theorem Dev.memWrite_sash (d : Dev) (a : ℕ) (bs : Bytes) : (Dev.memWrite d a bs).sash = d.sash := by
  rw [Dev.memWrite.eq_1]

@[simp] theorem Dev.memWrite_life (d : Dev) (a : ℕ) (bs : Bytes) : (Dev.memWrite d a bs).life = d.life := by
  rw [Dev.memWrite.eq_1]

@[simp] theorem Dev.memWrite_tap (d : Dev) (a : ℕ) (bs : Bytes) : (Dev.memWrite d a bs).tap = d.tap := by
  rw [Dev.memWrite.eq_1]

@[simp] theorem Dev.memWrite_ordering288 (d : Dev) (a : ℕ) (bs : Bytes) : (Dev.memWrite d a bs).ordering288 =
    d.ordering288 := by
  rw [Dev.memWrite.eq_1]

@[simp] theorem Dev.memWrite_timeBase (d : Dev) (a : ℕ) (bs : Bytes) : (Dev.memWrite d a bs).timeBase = d.timeBase := by
  rw [Dev.memWrite.eq_1]

@[simp] theorem Dev.memWrite_halted (d : Dev) (a : ℕ) (bs : Bytes) : (Dev.memWrite d a bs).halted = d.halted := by
  rw [Dev.memWrite.eq_1]

@[simp] theorem Dev.memWrite_reacts (d : Dev) (a : ℕ) (bs : Bytes) : (Dev.memWrite d a bs).reacts = d.reacts := by
  rw [Dev.memWrite.eq_1]

@[simp] theorem Dev.memWrite_out (d : Dev) (a : ℕ) (bs : Bytes) : (Dev.memWrite d a bs).out = d.out := by
  rw [Dev.memWrite.eq_1]

@[simp] theorem Dev.memWrite_free (d : Dev) (a : ℕ) (bs : Bytes) : (Dev.memWrite d a bs).free = d.free := by
  rw [Dev.memWrite.eq_1]

@[simp] theorem Dev.memWriteAt_flds (d : Dev) (ps : List (ℕ × Byte)) : (Dev.memWriteAt d ps).flds = d.flds := by
  rw [Dev.memWriteAt.eq_1]

@[simp] theorem Dev.memWriteAt_objs (d : Dev) (ps : List (ℕ × Byte)) : (Dev.memWriteAt d ps).objs = d.objs := by
  rw [Dev.memWriteAt.eq_1]

@[simp] theorem Dev.memWriteAt_host (d : Dev) (ps : List (ℕ × Byte)) : (Dev.memWriteAt d ps).host = d.host := by
  rw [Dev.memWriteAt.eq_1]

@[simp] theorem Dev.memWriteAt_hostBad (d : Dev) (ps : List (ℕ × Byte)) : (Dev.memWriteAt d ps).hostBad = d.hostBad := by
  rw [Dev.memWriteAt.eq_1]

@[simp] theorem Dev.memWriteAt_jamb (d : Dev) (ps : List (ℕ × Byte)) : (Dev.memWriteAt d ps).jamb = d.jamb := by
  rw [Dev.memWriteAt.eq_1]

@[simp] theorem Dev.memWriteAt_sill (d : Dev) (ps : List (ℕ × Byte)) : (Dev.memWriteAt d ps).sill = d.sill := by
  rw [Dev.memWriteAt.eq_1]

@[simp] theorem Dev.memWriteAt_maint (d : Dev) (ps : List (ℕ × Byte)) : (Dev.memWriteAt d ps).maint = d.maint := by
  rw [Dev.memWriteAt.eq_1]

@[simp] theorem Dev.memWriteAt_thr (d : Dev) (ps : List (ℕ × Byte)) : (Dev.memWriteAt d ps).thr = d.thr := by
  rw [Dev.memWriteAt.eq_1]

@[simp] theorem Dev.memWriteAt_drives (d : Dev) (ps : List (ℕ × Byte)) : (Dev.memWriteAt d ps).drives = d.drives := by
  rw [Dev.memWriteAt.eq_1]

@[simp] theorem Dev.memWriteAt_bifold (d : Dev) (ps : List (ℕ × Byte)) : (Dev.memWriteAt d ps).bifold = d.bifold := by
  rw [Dev.memWriteAt.eq_1]

@[simp] theorem Dev.memWriteAt_dig (d : Dev) (ps : List (ℕ × Byte)) : (Dev.memWriteAt d ps).dig = d.dig := by
  rw [Dev.memWriteAt.eq_1]

@[simp] theorem Dev.memWriteAt_hinge (d : Dev) (ps : List (ℕ × Byte)) : (Dev.memWriteAt d ps).hinge = d.hinge := by
  rw [Dev.memWriteAt.eq_1]

@[simp] theorem Dev.memWriteAt_pipes (d : Dev) (ps : List (ℕ × Byte)) : (Dev.memWriteAt d ps).pipes = d.pipes := by
  rw [Dev.memWriteAt.eq_1]

@[simp] theorem Dev.memWriteAt_louvre (d : Dev) (ps : List (ℕ × Byte)) : (Dev.memWriteAt d ps).louvre = d.louvre := by
  rw [Dev.memWriteAt.eq_1]

@[simp] theorem Dev.memWriteAt_net (d : Dev) (ps : List (ℕ × Byte)) : (Dev.memWriteAt d ps).net = d.net := by
  rw [Dev.memWriteAt.eq_1]

@[simp] theorem Dev.memWriteAt_sash (d : Dev) (ps : List (ℕ × Byte)) : (Dev.memWriteAt d ps).sash = d.sash := by
  rw [Dev.memWriteAt.eq_1]

@[simp] theorem Dev.memWriteAt_life (d : Dev) (ps : List (ℕ × Byte)) : (Dev.memWriteAt d ps).life = d.life := by
  rw [Dev.memWriteAt.eq_1]

@[simp] theorem Dev.memWriteAt_tap (d : Dev) (ps : List (ℕ × Byte)) : (Dev.memWriteAt d ps).tap = d.tap := by
  rw [Dev.memWriteAt.eq_1]

@[simp] theorem Dev.memWriteAt_ordering288 (d : Dev) (ps : List (ℕ × Byte)) : (Dev.memWriteAt d ps).ordering288 =
    d.ordering288 := by
  rw [Dev.memWriteAt.eq_1]

@[simp] theorem Dev.memWriteAt_timeBase (d : Dev) (ps : List (ℕ × Byte)) : (Dev.memWriteAt d ps).timeBase = d.timeBase := by
  rw [Dev.memWriteAt.eq_1]

@[simp] theorem Dev.memWriteAt_halted (d : Dev) (ps : List (ℕ × Byte)) : (Dev.memWriteAt d ps).halted = d.halted := by
  rw [Dev.memWriteAt.eq_1]

@[simp] theorem Dev.memWriteAt_reacts (d : Dev) (ps : List (ℕ × Byte)) : (Dev.memWriteAt d ps).reacts = d.reacts := by
  rw [Dev.memWriteAt.eq_1]

@[simp] theorem Dev.memWriteAt_out (d : Dev) (ps : List (ℕ × Byte)) : (Dev.memWriteAt d ps).out = d.out := by
  rw [Dev.memWriteAt.eq_1]

@[simp] theorem Dev.memWriteAt_free (d : Dev) (ps : List (ℕ × Byte)) : (Dev.memWriteAt d ps).free = d.free := by
  rw [Dev.memWriteAt.eq_1]

@[simp] theorem Dev.writeLine_flds (d : Dev) (l : SLine) : (Dev.writeLine d l).flds = d.flds := by
  rw [Dev.writeLine.eq_1, Dev.poisonFold_flds, Dev.memWriteAt_flds]

@[simp] theorem Dev.writeLine_objs (d : Dev) (l : SLine) : (Dev.writeLine d l).objs = d.objs := by
  rw [Dev.writeLine.eq_1, Dev.poisonFold_objs, Dev.memWriteAt_objs]

@[simp] theorem Dev.writeLine_host (d : Dev) (l : SLine) : (Dev.writeLine d l).host = d.host := by
  rw [Dev.writeLine.eq_1, Dev.poisonFold_host, Dev.memWriteAt_host]

@[simp] theorem Dev.writeLine_hostBad (d : Dev) (l : SLine) : (Dev.writeLine d l).hostBad = d.hostBad := by
  rw [Dev.writeLine.eq_1, Dev.poisonFold_hostBad, Dev.memWriteAt_hostBad]

@[simp] theorem Dev.writeLine_jamb (d : Dev) (l : SLine) : (Dev.writeLine d l).jamb = d.jamb := by
  rw [Dev.writeLine.eq_1, Dev.poisonFold_jamb, Dev.memWriteAt_jamb]

@[simp] theorem Dev.writeLine_sill (d : Dev) (l : SLine) : (Dev.writeLine d l).sill = d.sill := by
  rw [Dev.writeLine.eq_1, Dev.poisonFold_sill, Dev.memWriteAt_sill]

@[simp] theorem Dev.writeLine_maint (d : Dev) (l : SLine) : (Dev.writeLine d l).maint = d.maint := by
  rw [Dev.writeLine.eq_1, Dev.poisonFold_maint, Dev.memWriteAt_maint]

@[simp] theorem Dev.writeLine_thr (d : Dev) (l : SLine) : (Dev.writeLine d l).thr = d.thr := by
  rw [Dev.writeLine.eq_1, Dev.poisonFold_thr, Dev.memWriteAt_thr]

@[simp] theorem Dev.writeLine_drives (d : Dev) (l : SLine) : (Dev.writeLine d l).drives = d.drives := by
  rw [Dev.writeLine.eq_1, Dev.poisonFold_drives, Dev.memWriteAt_drives]

@[simp] theorem Dev.writeLine_bifold (d : Dev) (l : SLine) : (Dev.writeLine d l).bifold = d.bifold := by
  rw [Dev.writeLine.eq_1, Dev.poisonFold_bifold, Dev.memWriteAt_bifold]

@[simp] theorem Dev.writeLine_dig (d : Dev) (l : SLine) : (Dev.writeLine d l).dig = d.dig := by
  rw [Dev.writeLine.eq_1, Dev.poisonFold_dig, Dev.memWriteAt_dig]

@[simp] theorem Dev.writeLine_hinge (d : Dev) (l : SLine) : (Dev.writeLine d l).hinge = d.hinge := by
  rw [Dev.writeLine.eq_1, Dev.poisonFold_hinge, Dev.memWriteAt_hinge]

@[simp] theorem Dev.writeLine_pipes (d : Dev) (l : SLine) : (Dev.writeLine d l).pipes = d.pipes := by
  rw [Dev.writeLine.eq_1, Dev.poisonFold_pipes, Dev.memWriteAt_pipes]

@[simp] theorem Dev.writeLine_louvre (d : Dev) (l : SLine) : (Dev.writeLine d l).louvre = d.louvre := by
  rw [Dev.writeLine.eq_1, Dev.poisonFold_louvre, Dev.memWriteAt_louvre]

@[simp] theorem Dev.writeLine_net (d : Dev) (l : SLine) : (Dev.writeLine d l).net = d.net := by
  rw [Dev.writeLine.eq_1, Dev.poisonFold_net, Dev.memWriteAt_net]

@[simp] theorem Dev.writeLine_sash (d : Dev) (l : SLine) : (Dev.writeLine d l).sash = d.sash := by
  rw [Dev.writeLine.eq_1, Dev.poisonFold_sash, Dev.memWriteAt_sash]

@[simp] theorem Dev.writeLine_life (d : Dev) (l : SLine) : (Dev.writeLine d l).life = d.life := by
  rw [Dev.writeLine.eq_1, Dev.poisonFold_life, Dev.memWriteAt_life]

@[simp] theorem Dev.writeLine_tap (d : Dev) (l : SLine) : (Dev.writeLine d l).tap = d.tap := by
  rw [Dev.writeLine.eq_1, Dev.poisonFold_tap, Dev.memWriteAt_tap]

@[simp] theorem Dev.writeLine_ordering288 (d : Dev) (l : SLine) : (Dev.writeLine d l).ordering288 = d.ordering288 := by
  rw [Dev.writeLine.eq_1, Dev.poisonFold_ordering288, Dev.memWriteAt_ordering288]

@[simp] theorem Dev.writeLine_timeBase (d : Dev) (l : SLine) : (Dev.writeLine d l).timeBase = d.timeBase := by
  rw [Dev.writeLine.eq_1, Dev.poisonFold_timeBase, Dev.memWriteAt_timeBase]

@[simp] theorem Dev.writeLine_halted (d : Dev) (l : SLine) : (Dev.writeLine d l).halted = d.halted := by
  rw [Dev.writeLine.eq_1, Dev.poisonFold_halted, Dev.memWriteAt_halted]

@[simp] theorem Dev.writeLine_reacts (d : Dev) (l : SLine) : (Dev.writeLine d l).reacts = d.reacts := by
  rw [Dev.writeLine.eq_1, Dev.poisonFold_reacts, Dev.memWriteAt_reacts]

@[simp] theorem Dev.writeLine_out (d : Dev) (l : SLine) : (Dev.writeLine d l).out = d.out := by
  rw [Dev.writeLine.eq_1, Dev.poisonFold_out, Dev.memWriteAt_out]

@[simp] theorem Dev.writeLine_free (d : Dev) (l : SLine) : (Dev.writeLine d l).free = d.free := by
  rw [Dev.writeLine.eq_1, Dev.poisonFold_free, Dev.memWriteAt_free]

@[simp] theorem Dev.sillSnoop_flds (d : Dev) (c : ℕ) (line : ℕ) : (Dev.sillSnoop d c line).flds = d.flds := by
  unfold Dev.sillSnoop; dsimp only; split <;> split <;> (try split) <;> (try split) <;> simp

@[simp] theorem Dev.sillSnoop_objs (d : Dev) (c : ℕ) (line : ℕ) : (Dev.sillSnoop d c line).objs = d.objs := by
  unfold Dev.sillSnoop; dsimp only; split <;> split <;> (try split) <;> (try split) <;> simp

@[simp] theorem Dev.sillSnoop_host (d : Dev) (c : ℕ) (line : ℕ) : (Dev.sillSnoop d c line).host = d.host := by
  unfold Dev.sillSnoop; dsimp only; split <;> split <;> (try split) <;> (try split) <;> simp

@[simp] theorem Dev.sillSnoop_hostBad (d : Dev) (c : ℕ) (line : ℕ) : (Dev.sillSnoop d c line).hostBad = d.hostBad := by
  unfold Dev.sillSnoop; dsimp only; split <;> split <;> (try split) <;> (try split) <;> simp

@[simp] theorem Dev.sillSnoop_jamb (d : Dev) (c : ℕ) (line : ℕ) : (Dev.sillSnoop d c line).jamb = d.jamb := by
  unfold Dev.sillSnoop; dsimp only; split <;> split <;> (try split) <;> (try split) <;> simp

@[simp] theorem Dev.sillSnoop_maint (d : Dev) (c : ℕ) (line : ℕ) : (Dev.sillSnoop d c line).maint = d.maint := by
  unfold Dev.sillSnoop; dsimp only; split <;> split <;> (try split) <;> (try split) <;> simp

@[simp] theorem Dev.sillSnoop_thr (d : Dev) (c : ℕ) (line : ℕ) : (Dev.sillSnoop d c line).thr = d.thr := by
  unfold Dev.sillSnoop; dsimp only; split <;> split <;> (try split) <;> (try split) <;> simp

@[simp] theorem Dev.sillSnoop_drives (d : Dev) (c : ℕ) (line : ℕ) : (Dev.sillSnoop d c line).drives = d.drives := by
  unfold Dev.sillSnoop; dsimp only; split <;> split <;> (try split) <;> (try split) <;> simp

@[simp] theorem Dev.sillSnoop_bifold (d : Dev) (c : ℕ) (line : ℕ) : (Dev.sillSnoop d c line).bifold = d.bifold := by
  unfold Dev.sillSnoop; dsimp only; split <;> split <;> (try split) <;> (try split) <;> simp

@[simp] theorem Dev.sillSnoop_dig (d : Dev) (c : ℕ) (line : ℕ) : (Dev.sillSnoop d c line).dig = d.dig := by
  unfold Dev.sillSnoop; dsimp only; split <;> split <;> (try split) <;> (try split) <;> simp

@[simp] theorem Dev.sillSnoop_hinge (d : Dev) (c : ℕ) (line : ℕ) : (Dev.sillSnoop d c line).hinge = d.hinge := by
  unfold Dev.sillSnoop; dsimp only; split <;> split <;> (try split) <;> (try split) <;> simp

@[simp] theorem Dev.sillSnoop_pipes (d : Dev) (c : ℕ) (line : ℕ) : (Dev.sillSnoop d c line).pipes = d.pipes := by
  unfold Dev.sillSnoop; dsimp only; split <;> split <;> (try split) <;> (try split) <;> simp

@[simp] theorem Dev.sillSnoop_louvre (d : Dev) (c : ℕ) (line : ℕ) : (Dev.sillSnoop d c line).louvre = d.louvre := by
  unfold Dev.sillSnoop; dsimp only; split <;> split <;> (try split) <;> (try split) <;> simp

@[simp] theorem Dev.sillSnoop_net (d : Dev) (c : ℕ) (line : ℕ) : (Dev.sillSnoop d c line).net = d.net := by
  unfold Dev.sillSnoop; dsimp only; split <;> split <;> (try split) <;> (try split) <;> simp

@[simp] theorem Dev.sillSnoop_sash (d : Dev) (c : ℕ) (line : ℕ) : (Dev.sillSnoop d c line).sash = d.sash := by
  unfold Dev.sillSnoop; dsimp only; split <;> split <;> (try split) <;> (try split) <;> simp

@[simp] theorem Dev.sillSnoop_life (d : Dev) (c : ℕ) (line : ℕ) : (Dev.sillSnoop d c line).life = d.life := by
  unfold Dev.sillSnoop; dsimp only; split <;> split <;> (try split) <;> (try split) <;> simp

@[simp] theorem Dev.sillSnoop_tap (d : Dev) (c : ℕ) (line : ℕ) : (Dev.sillSnoop d c line).tap = d.tap := by
  unfold Dev.sillSnoop; dsimp only; split <;> split <;> (try split) <;> (try split) <;> simp

@[simp] theorem Dev.sillSnoop_ordering288 (d : Dev) (c : ℕ) (line : ℕ) : (Dev.sillSnoop d c line).ordering288 =
    d.ordering288 := by
  unfold Dev.sillSnoop; dsimp only; split <;> split <;> (try split) <;> (try split) <;> simp

@[simp] theorem Dev.sillSnoop_timeBase (d : Dev) (c : ℕ) (line : ℕ) : (Dev.sillSnoop d c line).timeBase = d.timeBase := by
  unfold Dev.sillSnoop; dsimp only; split <;> split <;> (try split) <;> (try split) <;> simp

@[simp] theorem Dev.sillSnoop_halted (d : Dev) (c : ℕ) (line : ℕ) : (Dev.sillSnoop d c line).halted = d.halted := by
  unfold Dev.sillSnoop; dsimp only; split <;> split <;> (try split) <;> (try split) <;> simp

@[simp] theorem Dev.sillSnoop_reacts (d : Dev) (c : ℕ) (line : ℕ) : (Dev.sillSnoop d c line).reacts = d.reacts := by
  unfold Dev.sillSnoop; dsimp only; split <;> split <;> (try split) <;> (try split) <;> simp

@[simp] theorem Dev.sillSnoop_out (d : Dev) (c : ℕ) (line : ℕ) : (Dev.sillSnoop d c line).out = d.out := by
  unfold Dev.sillSnoop; dsimp only; split <;> split <;> (try split) <;> (try split) <;> simp

@[simp] theorem Dev.sillSnoop_free (d : Dev) (c : ℕ) (line : ℕ) : (Dev.sillSnoop d c line).free = d.free := by
  unfold Dev.sillSnoop; dsimp only; split <;> split <;> (try split) <;> (try split) <;> simp

@[simp] theorem Dev.writeOut_flds (d : Dev) (c : ℕ) (l : SLine) : (Dev.writeOut d c l).flds = d.flds := by
  rw [Dev.writeOut.eq_1, Dev.writeLine_flds]; simp only [List.foldl_cons, List.foldl_nil]; (repeat' split) <;> simp only [Dev.sillSnoop_flds]

@[simp] theorem Dev.writeOut_objs (d : Dev) (c : ℕ) (l : SLine) : (Dev.writeOut d c l).objs = d.objs := by
  rw [Dev.writeOut.eq_1, Dev.writeLine_objs]; simp only [List.foldl_cons, List.foldl_nil]; (repeat' split) <;> simp only [Dev.sillSnoop_objs]

@[simp] theorem Dev.writeOut_host (d : Dev) (c : ℕ) (l : SLine) : (Dev.writeOut d c l).host = d.host := by
  rw [Dev.writeOut.eq_1, Dev.writeLine_host]; simp only [List.foldl_cons, List.foldl_nil]; (repeat' split) <;> simp only [Dev.sillSnoop_host]

@[simp] theorem Dev.writeOut_hostBad (d : Dev) (c : ℕ) (l : SLine) : (Dev.writeOut d c l).hostBad = d.hostBad := by
  rw [Dev.writeOut.eq_1, Dev.writeLine_hostBad]; simp only [List.foldl_cons, List.foldl_nil]; (repeat' split) <;> simp only [Dev.sillSnoop_hostBad]

@[simp] theorem Dev.writeOut_jamb (d : Dev) (c : ℕ) (l : SLine) : (Dev.writeOut d c l).jamb = d.jamb := by
  rw [Dev.writeOut.eq_1, Dev.writeLine_jamb]; simp only [List.foldl_cons, List.foldl_nil]; (repeat' split) <;> simp only [Dev.sillSnoop_jamb]

@[simp] theorem Dev.writeOut_maint (d : Dev) (c : ℕ) (l : SLine) : (Dev.writeOut d c l).maint = d.maint := by
  rw [Dev.writeOut.eq_1, Dev.writeLine_maint]; simp only [List.foldl_cons, List.foldl_nil]; (repeat' split) <;> simp only [Dev.sillSnoop_maint]

@[simp] theorem Dev.writeOut_thr (d : Dev) (c : ℕ) (l : SLine) : (Dev.writeOut d c l).thr = d.thr := by
  rw [Dev.writeOut.eq_1, Dev.writeLine_thr]; simp only [List.foldl_cons, List.foldl_nil]; (repeat' split) <;> simp only [Dev.sillSnoop_thr]

@[simp] theorem Dev.writeOut_drives (d : Dev) (c : ℕ) (l : SLine) : (Dev.writeOut d c l).drives = d.drives := by
  rw [Dev.writeOut.eq_1, Dev.writeLine_drives]; simp only [List.foldl_cons, List.foldl_nil]; (repeat' split) <;> simp only [Dev.sillSnoop_drives]

@[simp] theorem Dev.writeOut_bifold (d : Dev) (c : ℕ) (l : SLine) : (Dev.writeOut d c l).bifold = d.bifold := by
  rw [Dev.writeOut.eq_1, Dev.writeLine_bifold]; simp only [List.foldl_cons, List.foldl_nil]; (repeat' split) <;> simp only [Dev.sillSnoop_bifold]

@[simp] theorem Dev.writeOut_dig (d : Dev) (c : ℕ) (l : SLine) : (Dev.writeOut d c l).dig = d.dig := by
  rw [Dev.writeOut.eq_1, Dev.writeLine_dig]; simp only [List.foldl_cons, List.foldl_nil]; (repeat' split) <;> simp only [Dev.sillSnoop_dig]

@[simp] theorem Dev.writeOut_hinge (d : Dev) (c : ℕ) (l : SLine) : (Dev.writeOut d c l).hinge = d.hinge := by
  rw [Dev.writeOut.eq_1, Dev.writeLine_hinge]; simp only [List.foldl_cons, List.foldl_nil]; (repeat' split) <;> simp only [Dev.sillSnoop_hinge]

@[simp] theorem Dev.writeOut_pipes (d : Dev) (c : ℕ) (l : SLine) : (Dev.writeOut d c l).pipes = d.pipes := by
  rw [Dev.writeOut.eq_1, Dev.writeLine_pipes]; simp only [List.foldl_cons, List.foldl_nil]; (repeat' split) <;> simp only [Dev.sillSnoop_pipes]

@[simp] theorem Dev.writeOut_louvre (d : Dev) (c : ℕ) (l : SLine) : (Dev.writeOut d c l).louvre = d.louvre := by
  rw [Dev.writeOut.eq_1, Dev.writeLine_louvre]; simp only [List.foldl_cons, List.foldl_nil]; (repeat' split) <;> simp only [Dev.sillSnoop_louvre]

@[simp] theorem Dev.writeOut_net (d : Dev) (c : ℕ) (l : SLine) : (Dev.writeOut d c l).net = d.net := by
  rw [Dev.writeOut.eq_1, Dev.writeLine_net]; simp only [List.foldl_cons, List.foldl_nil]; (repeat' split) <;> simp only [Dev.sillSnoop_net]

@[simp] theorem Dev.writeOut_sash (d : Dev) (c : ℕ) (l : SLine) : (Dev.writeOut d c l).sash = d.sash := by
  rw [Dev.writeOut.eq_1, Dev.writeLine_sash]; simp only [List.foldl_cons, List.foldl_nil]; (repeat' split) <;> simp only [Dev.sillSnoop_sash]

@[simp] theorem Dev.writeOut_life (d : Dev) (c : ℕ) (l : SLine) : (Dev.writeOut d c l).life = d.life := by
  rw [Dev.writeOut.eq_1, Dev.writeLine_life]; simp only [List.foldl_cons, List.foldl_nil]; (repeat' split) <;> simp only [Dev.sillSnoop_life]

@[simp] theorem Dev.writeOut_tap (d : Dev) (c : ℕ) (l : SLine) : (Dev.writeOut d c l).tap = d.tap := by
  rw [Dev.writeOut.eq_1, Dev.writeLine_tap]; simp only [List.foldl_cons, List.foldl_nil]; (repeat' split) <;> simp only [Dev.sillSnoop_tap]

@[simp] theorem Dev.writeOut_ordering288 (d : Dev) (c : ℕ) (l : SLine) : (Dev.writeOut d c l).ordering288 =
    d.ordering288 := by
  rw [Dev.writeOut.eq_1, Dev.writeLine_ordering288]; simp only [List.foldl_cons, List.foldl_nil]; (repeat' split) <;> simp only [Dev.sillSnoop_ordering288]

@[simp] theorem Dev.writeOut_timeBase (d : Dev) (c : ℕ) (l : SLine) : (Dev.writeOut d c l).timeBase = d.timeBase := by
  rw [Dev.writeOut.eq_1, Dev.writeLine_timeBase]; simp only [List.foldl_cons, List.foldl_nil]; (repeat' split) <;> simp only [Dev.sillSnoop_timeBase]

@[simp] theorem Dev.writeOut_halted (d : Dev) (c : ℕ) (l : SLine) : (Dev.writeOut d c l).halted = d.halted := by
  rw [Dev.writeOut.eq_1, Dev.writeLine_halted]; simp only [List.foldl_cons, List.foldl_nil]; (repeat' split) <;> simp only [Dev.sillSnoop_halted]

@[simp] theorem Dev.writeOut_reacts (d : Dev) (c : ℕ) (l : SLine) : (Dev.writeOut d c l).reacts = d.reacts := by
  rw [Dev.writeOut.eq_1, Dev.writeLine_reacts]; simp only [List.foldl_cons, List.foldl_nil]; (repeat' split) <;> simp only [Dev.sillSnoop_reacts]

@[simp] theorem Dev.writeOut_out (d : Dev) (c : ℕ) (l : SLine) : (Dev.writeOut d c l).out = d.out := by
  rw [Dev.writeOut.eq_1, Dev.writeLine_out]; simp only [List.foldl_cons, List.foldl_nil]; (repeat' split) <;> simp only [Dev.sillSnoop_out]

@[simp] theorem Dev.writeOut_free (d : Dev) (c : ℕ) (l : SLine) : (Dev.writeOut d c l).free = d.free := by
  rw [Dev.writeOut.eq_1, Dev.writeLine_free]; simp only [List.foldl_cons, List.foldl_nil]; (repeat' split) <;> simp only [Dev.sillSnoop_free]

@[simp] theorem Dev.writeBack_flds (d : Dev) (c : ℕ) (l : SLine) : (Dev.writeBack d c l).flds = d.flds := by
  rw [Dev.writeBack.eq_1, Dev.ocount_flds, Dev.writeOut_flds]

@[simp] theorem Dev.writeBack_host (d : Dev) (c : ℕ) (l : SLine) : (Dev.writeBack d c l).host = d.host := by
  rw [Dev.writeBack.eq_1, Dev.ocount_host, Dev.writeOut_host]

@[simp] theorem Dev.writeBack_hostBad (d : Dev) (c : ℕ) (l : SLine) : (Dev.writeBack d c l).hostBad = d.hostBad := by
  rw [Dev.writeBack.eq_1, Dev.ocount_hostBad, Dev.writeOut_hostBad]

@[simp] theorem Dev.writeBack_jamb (d : Dev) (c : ℕ) (l : SLine) : (Dev.writeBack d c l).jamb = d.jamb := by
  rw [Dev.writeBack.eq_1, Dev.ocount_jamb, Dev.writeOut_jamb]

@[simp] theorem Dev.writeBack_maint (d : Dev) (c : ℕ) (l : SLine) : (Dev.writeBack d c l).maint = d.maint := by
  rw [Dev.writeBack.eq_1, Dev.ocount_maint, Dev.writeOut_maint]

@[simp] theorem Dev.writeBack_thr (d : Dev) (c : ℕ) (l : SLine) : (Dev.writeBack d c l).thr = d.thr := by
  rw [Dev.writeBack.eq_1, Dev.ocount_thr, Dev.writeOut_thr]

@[simp] theorem Dev.writeBack_drives (d : Dev) (c : ℕ) (l : SLine) : (Dev.writeBack d c l).drives = d.drives := by
  rw [Dev.writeBack.eq_1, Dev.ocount_drives, Dev.writeOut_drives]

@[simp] theorem Dev.writeBack_bifold (d : Dev) (c : ℕ) (l : SLine) : (Dev.writeBack d c l).bifold = d.bifold := by
  rw [Dev.writeBack.eq_1, Dev.ocount_bifold, Dev.writeOut_bifold]

@[simp] theorem Dev.writeBack_dig (d : Dev) (c : ℕ) (l : SLine) : (Dev.writeBack d c l).dig = d.dig := by
  rw [Dev.writeBack.eq_1, Dev.ocount_dig, Dev.writeOut_dig]

@[simp] theorem Dev.writeBack_hinge (d : Dev) (c : ℕ) (l : SLine) : (Dev.writeBack d c l).hinge = d.hinge := by
  rw [Dev.writeBack.eq_1, Dev.ocount_hinge, Dev.writeOut_hinge]

@[simp] theorem Dev.writeBack_pipes (d : Dev) (c : ℕ) (l : SLine) : (Dev.writeBack d c l).pipes = d.pipes := by
  rw [Dev.writeBack.eq_1, Dev.ocount_pipes, Dev.writeOut_pipes]

@[simp] theorem Dev.writeBack_louvre (d : Dev) (c : ℕ) (l : SLine) : (Dev.writeBack d c l).louvre = d.louvre := by
  rw [Dev.writeBack.eq_1, Dev.ocount_louvre, Dev.writeOut_louvre]

@[simp] theorem Dev.writeBack_net (d : Dev) (c : ℕ) (l : SLine) : (Dev.writeBack d c l).net = d.net := by
  rw [Dev.writeBack.eq_1, Dev.ocount_net, Dev.writeOut_net]

@[simp] theorem Dev.writeBack_sash (d : Dev) (c : ℕ) (l : SLine) : (Dev.writeBack d c l).sash = d.sash := by
  rw [Dev.writeBack.eq_1, Dev.ocount_sash, Dev.writeOut_sash]

@[simp] theorem Dev.writeBack_life (d : Dev) (c : ℕ) (l : SLine) : (Dev.writeBack d c l).life = d.life := by
  rw [Dev.writeBack.eq_1, Dev.ocount_life, Dev.writeOut_life]

@[simp] theorem Dev.writeBack_tap (d : Dev) (c : ℕ) (l : SLine) : (Dev.writeBack d c l).tap = d.tap := by
  rw [Dev.writeBack.eq_1, Dev.ocount_tap, Dev.writeOut_tap]

@[simp] theorem Dev.writeBack_ordering288 (d : Dev) (c : ℕ) (l : SLine) : (Dev.writeBack d c l).ordering288 =
    d.ordering288 := by
  rw [Dev.writeBack.eq_1, Dev.ocount_ordering288, Dev.writeOut_ordering288]

@[simp] theorem Dev.writeBack_timeBase (d : Dev) (c : ℕ) (l : SLine) : (Dev.writeBack d c l).timeBase = d.timeBase := by
  rw [Dev.writeBack.eq_1, Dev.ocount_timeBase, Dev.writeOut_timeBase]

@[simp] theorem Dev.writeBack_halted (d : Dev) (c : ℕ) (l : SLine) : (Dev.writeBack d c l).halted = d.halted := by
  rw [Dev.writeBack.eq_1, Dev.ocount_halted, Dev.writeOut_halted]

@[simp] theorem Dev.writeBack_reacts (d : Dev) (c : ℕ) (l : SLine) : (Dev.writeBack d c l).reacts = d.reacts := by
  rw [Dev.writeBack.eq_1, Dev.ocount_reacts, Dev.writeOut_reacts]

@[simp] theorem Dev.writeBack_out (d : Dev) (c : ℕ) (l : SLine) : (Dev.writeBack d c l).out = d.out := by
  rw [Dev.writeBack.eq_1, Dev.ocount_out, Dev.writeOut_out]

@[simp] theorem Dev.writeBack_free (d : Dev) (c : ℕ) (l : SLine) : (Dev.writeBack d c l).free = d.free := by
  rw [Dev.writeBack.eq_1, Dev.ocount_free, Dev.writeOut_free]

@[simp] theorem Dev.snoopAll_flds (d : Dev) (lines : List ℕ) : (Dev.snoopAll d lines).flds = d.flds := by
  rw [Dev.snoopAll.eq_1]
  induction lines generalizing d with
  | nil => rfl
  | cons x xs ih =>
    rw [List.foldl_cons, ih]; simp only [List.foldl_cons, List.foldl_nil]; (repeat' split) <;> simp only [Dev.sillSnoop_flds]

@[simp] theorem Dev.snoopAll_objs (d : Dev) (lines : List ℕ) : (Dev.snoopAll d lines).objs = d.objs := by
  rw [Dev.snoopAll.eq_1]
  induction lines generalizing d with
  | nil => rfl
  | cons x xs ih =>
    rw [List.foldl_cons, ih]; simp only [List.foldl_cons, List.foldl_nil]; (repeat' split) <;> simp only [Dev.sillSnoop_objs]

@[simp] theorem Dev.snoopAll_host (d : Dev) (lines : List ℕ) : (Dev.snoopAll d lines).host = d.host := by
  rw [Dev.snoopAll.eq_1]
  induction lines generalizing d with
  | nil => rfl
  | cons x xs ih =>
    rw [List.foldl_cons, ih]; simp only [List.foldl_cons, List.foldl_nil]; (repeat' split) <;> simp only [Dev.sillSnoop_host]

@[simp] theorem Dev.snoopAll_hostBad (d : Dev) (lines : List ℕ) : (Dev.snoopAll d lines).hostBad = d.hostBad := by
  rw [Dev.snoopAll.eq_1]
  induction lines generalizing d with
  | nil => rfl
  | cons x xs ih =>
    rw [List.foldl_cons, ih]; simp only [List.foldl_cons, List.foldl_nil]; (repeat' split) <;> simp only [Dev.sillSnoop_hostBad]

@[simp] theorem Dev.snoopAll_jamb (d : Dev) (lines : List ℕ) : (Dev.snoopAll d lines).jamb = d.jamb := by
  rw [Dev.snoopAll.eq_1]
  induction lines generalizing d with
  | nil => rfl
  | cons x xs ih =>
    rw [List.foldl_cons, ih]; simp only [List.foldl_cons, List.foldl_nil]; (repeat' split) <;> simp only [Dev.sillSnoop_jamb]

@[simp] theorem Dev.snoopAll_maint (d : Dev) (lines : List ℕ) : (Dev.snoopAll d lines).maint = d.maint := by
  rw [Dev.snoopAll.eq_1]
  induction lines generalizing d with
  | nil => rfl
  | cons x xs ih =>
    rw [List.foldl_cons, ih]; simp only [List.foldl_cons, List.foldl_nil]; (repeat' split) <;> simp only [Dev.sillSnoop_maint]

@[simp] theorem Dev.snoopAll_thr (d : Dev) (lines : List ℕ) : (Dev.snoopAll d lines).thr = d.thr := by
  rw [Dev.snoopAll.eq_1]
  induction lines generalizing d with
  | nil => rfl
  | cons x xs ih =>
    rw [List.foldl_cons, ih]; simp only [List.foldl_cons, List.foldl_nil]; (repeat' split) <;> simp only [Dev.sillSnoop_thr]

@[simp] theorem Dev.snoopAll_drives (d : Dev) (lines : List ℕ) : (Dev.snoopAll d lines).drives = d.drives := by
  rw [Dev.snoopAll.eq_1]
  induction lines generalizing d with
  | nil => rfl
  | cons x xs ih =>
    rw [List.foldl_cons, ih]; simp only [List.foldl_cons, List.foldl_nil]; (repeat' split) <;> simp only [Dev.sillSnoop_drives]

@[simp] theorem Dev.snoopAll_bifold (d : Dev) (lines : List ℕ) : (Dev.snoopAll d lines).bifold = d.bifold := by
  rw [Dev.snoopAll.eq_1]
  induction lines generalizing d with
  | nil => rfl
  | cons x xs ih =>
    rw [List.foldl_cons, ih]; simp only [List.foldl_cons, List.foldl_nil]; (repeat' split) <;> simp only [Dev.sillSnoop_bifold]

@[simp] theorem Dev.snoopAll_dig (d : Dev) (lines : List ℕ) : (Dev.snoopAll d lines).dig = d.dig := by
  rw [Dev.snoopAll.eq_1]
  induction lines generalizing d with
  | nil => rfl
  | cons x xs ih =>
    rw [List.foldl_cons, ih]; simp only [List.foldl_cons, List.foldl_nil]; (repeat' split) <;> simp only [Dev.sillSnoop_dig]

@[simp] theorem Dev.snoopAll_hinge (d : Dev) (lines : List ℕ) : (Dev.snoopAll d lines).hinge = d.hinge := by
  rw [Dev.snoopAll.eq_1]
  induction lines generalizing d with
  | nil => rfl
  | cons x xs ih =>
    rw [List.foldl_cons, ih]; simp only [List.foldl_cons, List.foldl_nil]; (repeat' split) <;> simp only [Dev.sillSnoop_hinge]

@[simp] theorem Dev.snoopAll_pipes (d : Dev) (lines : List ℕ) : (Dev.snoopAll d lines).pipes = d.pipes := by
  rw [Dev.snoopAll.eq_1]
  induction lines generalizing d with
  | nil => rfl
  | cons x xs ih =>
    rw [List.foldl_cons, ih]; simp only [List.foldl_cons, List.foldl_nil]; (repeat' split) <;> simp only [Dev.sillSnoop_pipes]

@[simp] theorem Dev.snoopAll_louvre (d : Dev) (lines : List ℕ) : (Dev.snoopAll d lines).louvre = d.louvre := by
  rw [Dev.snoopAll.eq_1]
  induction lines generalizing d with
  | nil => rfl
  | cons x xs ih =>
    rw [List.foldl_cons, ih]; simp only [List.foldl_cons, List.foldl_nil]; (repeat' split) <;> simp only [Dev.sillSnoop_louvre]

@[simp] theorem Dev.snoopAll_net (d : Dev) (lines : List ℕ) : (Dev.snoopAll d lines).net = d.net := by
  rw [Dev.snoopAll.eq_1]
  induction lines generalizing d with
  | nil => rfl
  | cons x xs ih =>
    rw [List.foldl_cons, ih]; simp only [List.foldl_cons, List.foldl_nil]; (repeat' split) <;> simp only [Dev.sillSnoop_net]

@[simp] theorem Dev.snoopAll_sash (d : Dev) (lines : List ℕ) : (Dev.snoopAll d lines).sash = d.sash := by
  rw [Dev.snoopAll.eq_1]
  induction lines generalizing d with
  | nil => rfl
  | cons x xs ih =>
    rw [List.foldl_cons, ih]; simp only [List.foldl_cons, List.foldl_nil]; (repeat' split) <;> simp only [Dev.sillSnoop_sash]

@[simp] theorem Dev.snoopAll_life (d : Dev) (lines : List ℕ) : (Dev.snoopAll d lines).life = d.life := by
  rw [Dev.snoopAll.eq_1]
  induction lines generalizing d with
  | nil => rfl
  | cons x xs ih =>
    rw [List.foldl_cons, ih]; simp only [List.foldl_cons, List.foldl_nil]; (repeat' split) <;> simp only [Dev.sillSnoop_life]

@[simp] theorem Dev.snoopAll_tap (d : Dev) (lines : List ℕ) : (Dev.snoopAll d lines).tap = d.tap := by
  rw [Dev.snoopAll.eq_1]
  induction lines generalizing d with
  | nil => rfl
  | cons x xs ih =>
    rw [List.foldl_cons, ih]; simp only [List.foldl_cons, List.foldl_nil]; (repeat' split) <;> simp only [Dev.sillSnoop_tap]

@[simp] theorem Dev.snoopAll_ordering288 (d : Dev) (lines : List ℕ) : (Dev.snoopAll d lines).ordering288 =
    d.ordering288 := by
  rw [Dev.snoopAll.eq_1]
  induction lines generalizing d with
  | nil => rfl
  | cons x xs ih =>
    rw [List.foldl_cons, ih]; simp only [List.foldl_cons, List.foldl_nil]; (repeat' split) <;> simp only [Dev.sillSnoop_ordering288]

@[simp] theorem Dev.snoopAll_timeBase (d : Dev) (lines : List ℕ) : (Dev.snoopAll d lines).timeBase = d.timeBase := by
  rw [Dev.snoopAll.eq_1]
  induction lines generalizing d with
  | nil => rfl
  | cons x xs ih =>
    rw [List.foldl_cons, ih]; simp only [List.foldl_cons, List.foldl_nil]; (repeat' split) <;> simp only [Dev.sillSnoop_timeBase]

@[simp] theorem Dev.snoopAll_halted (d : Dev) (lines : List ℕ) : (Dev.snoopAll d lines).halted = d.halted := by
  rw [Dev.snoopAll.eq_1]
  induction lines generalizing d with
  | nil => rfl
  | cons x xs ih =>
    rw [List.foldl_cons, ih]; simp only [List.foldl_cons, List.foldl_nil]; (repeat' split) <;> simp only [Dev.sillSnoop_halted]

@[simp] theorem Dev.snoopAll_reacts (d : Dev) (lines : List ℕ) : (Dev.snoopAll d lines).reacts = d.reacts := by
  rw [Dev.snoopAll.eq_1]
  induction lines generalizing d with
  | nil => rfl
  | cons x xs ih =>
    rw [List.foldl_cons, ih]; simp only [List.foldl_cons, List.foldl_nil]; (repeat' split) <;> simp only [Dev.sillSnoop_reacts]

@[simp] theorem Dev.snoopAll_out (d : Dev) (lines : List ℕ) : (Dev.snoopAll d lines).out = d.out := by
  rw [Dev.snoopAll.eq_1]
  induction lines generalizing d with
  | nil => rfl
  | cons x xs ih =>
    rw [List.foldl_cons, ih]; simp only [List.foldl_cons, List.foldl_nil]; (repeat' split) <;> simp only [Dev.sillSnoop_out]

@[simp] theorem Dev.snoopAll_free (d : Dev) (lines : List ℕ) : (Dev.snoopAll d lines).free = d.free := by
  rw [Dev.snoopAll.eq_1]
  induction lines generalizing d with
  | nil => rfl
  | cons x xs ih =>
    rw [List.foldl_cons, ih]; simp only [List.foldl_cons, List.foldl_nil]; (repeat' split) <;> simp only [Dev.sillSnoop_free]

@[simp] theorem Dev.parkTouch_flds (d : Dev) (a : ℕ) (n : ℕ) : (Dev.parkTouch d a n).flds = d.flds := by
  unfold Dev.parkTouch; split <;> simp [Dev.draw]

@[simp] theorem Dev.parkTouch_objs (d : Dev) (a : ℕ) (n : ℕ) : (Dev.parkTouch d a n).objs = d.objs := by
  unfold Dev.parkTouch; split <;> simp [Dev.draw]

@[simp] theorem Dev.parkTouch_host (d : Dev) (a : ℕ) (n : ℕ) : (Dev.parkTouch d a n).host = d.host := by
  unfold Dev.parkTouch; split <;> simp [Dev.draw]

@[simp] theorem Dev.parkTouch_hostBad (d : Dev) (a : ℕ) (n : ℕ) : (Dev.parkTouch d a n).hostBad = d.hostBad := by
  unfold Dev.parkTouch; split <;> simp [Dev.draw]

@[simp] theorem Dev.parkTouch_jamb (d : Dev) (a : ℕ) (n : ℕ) : (Dev.parkTouch d a n).jamb = d.jamb := by
  unfold Dev.parkTouch; split <;> simp [Dev.draw]

@[simp] theorem Dev.parkTouch_mem (d : Dev) (a : ℕ) (n : ℕ) : (Dev.parkTouch d a n).mem = d.mem := by
  unfold Dev.parkTouch; split <;> simp [Dev.draw]

@[simp] theorem Dev.parkTouch_sill (d : Dev) (a : ℕ) (n : ℕ) : (Dev.parkTouch d a n).sill = d.sill := by
  unfold Dev.parkTouch; split <;> simp [Dev.draw]

@[simp] theorem Dev.parkTouch_maint (d : Dev) (a : ℕ) (n : ℕ) : (Dev.parkTouch d a n).maint = d.maint := by
  unfold Dev.parkTouch; split <;> simp [Dev.draw]

@[simp] theorem Dev.parkTouch_thr (d : Dev) (a : ℕ) (n : ℕ) : (Dev.parkTouch d a n).thr = d.thr := by
  unfold Dev.parkTouch; split <;> simp [Dev.draw]

@[simp] theorem Dev.parkTouch_drives (d : Dev) (a : ℕ) (n : ℕ) : (Dev.parkTouch d a n).drives = d.drives := by
  unfold Dev.parkTouch; split <;> simp [Dev.draw]

@[simp] theorem Dev.parkTouch_bifold (d : Dev) (a : ℕ) (n : ℕ) : (Dev.parkTouch d a n).bifold = d.bifold := by
  unfold Dev.parkTouch; split <;> simp [Dev.draw]

@[simp] theorem Dev.parkTouch_dig (d : Dev) (a : ℕ) (n : ℕ) : (Dev.parkTouch d a n).dig = d.dig := by
  unfold Dev.parkTouch; split <;> simp [Dev.draw]

@[simp] theorem Dev.parkTouch_hinge (d : Dev) (a : ℕ) (n : ℕ) : (Dev.parkTouch d a n).hinge = d.hinge := by
  unfold Dev.parkTouch; split <;> simp [Dev.draw]

@[simp] theorem Dev.parkTouch_louvre (d : Dev) (a : ℕ) (n : ℕ) : (Dev.parkTouch d a n).louvre = d.louvre := by
  unfold Dev.parkTouch; split <;> simp [Dev.draw]

@[simp] theorem Dev.parkTouch_net (d : Dev) (a : ℕ) (n : ℕ) : (Dev.parkTouch d a n).net = d.net := by
  unfold Dev.parkTouch; split <;> simp [Dev.draw]

@[simp] theorem Dev.parkTouch_sash (d : Dev) (a : ℕ) (n : ℕ) : (Dev.parkTouch d a n).sash = d.sash := by
  unfold Dev.parkTouch; split <;> simp [Dev.draw]

@[simp] theorem Dev.parkTouch_life (d : Dev) (a : ℕ) (n : ℕ) : (Dev.parkTouch d a n).life = d.life := by
  unfold Dev.parkTouch; split <;> simp [Dev.draw]

@[simp] theorem Dev.parkTouch_tap (d : Dev) (a : ℕ) (n : ℕ) : (Dev.parkTouch d a n).tap = d.tap := by
  unfold Dev.parkTouch; split <;> simp [Dev.draw]

@[simp] theorem Dev.parkTouch_ordering288 (d : Dev) (a : ℕ) (n : ℕ) : (Dev.parkTouch d a n).ordering288 =
    d.ordering288 := by
  unfold Dev.parkTouch; split <;> simp [Dev.draw]

@[simp] theorem Dev.parkTouch_timeBase (d : Dev) (a : ℕ) (n : ℕ) : (Dev.parkTouch d a n).timeBase = d.timeBase := by
  unfold Dev.parkTouch; split <;> simp [Dev.draw]

@[simp] theorem Dev.parkTouch_halted (d : Dev) (a : ℕ) (n : ℕ) : (Dev.parkTouch d a n).halted = d.halted := by
  unfold Dev.parkTouch; split <;> simp [Dev.draw]

@[simp] theorem Dev.parkTouch_reacts (d : Dev) (a : ℕ) (n : ℕ) : (Dev.parkTouch d a n).reacts = d.reacts := by
  unfold Dev.parkTouch; split <;> simp [Dev.draw]

@[simp] theorem Dev.parkTouch_out (d : Dev) (a : ℕ) (n : ℕ) : (Dev.parkTouch d a n).out = d.out := by
  unfold Dev.parkTouch; split <;> simp [Dev.draw]

@[simp] theorem Dev.engWrite_flds (d : Dev) (a : ℕ) (bs : Bytes) : (Dev.engWrite d a bs).flds = d.flds := by
  unfold Dev.engWrite; simp

@[simp] theorem Dev.engWrite_objs (d : Dev) (a : ℕ) (bs : Bytes) : (Dev.engWrite d a bs).objs = d.objs := by
  unfold Dev.engWrite; simp

@[simp] theorem Dev.engWrite_host (d : Dev) (a : ℕ) (bs : Bytes) : (Dev.engWrite d a bs).host = d.host := by
  unfold Dev.engWrite; simp

@[simp] theorem Dev.engWrite_hostBad (d : Dev) (a : ℕ) (bs : Bytes) : (Dev.engWrite d a bs).hostBad = d.hostBad := by
  unfold Dev.engWrite; simp

@[simp] theorem Dev.engWrite_jamb (d : Dev) (a : ℕ) (bs : Bytes) : (Dev.engWrite d a bs).jamb = d.jamb := by
  unfold Dev.engWrite; simp

@[simp] theorem Dev.engWrite_maint (d : Dev) (a : ℕ) (bs : Bytes) : (Dev.engWrite d a bs).maint = d.maint := by
  unfold Dev.engWrite; simp

@[simp] theorem Dev.engWrite_thr (d : Dev) (a : ℕ) (bs : Bytes) : (Dev.engWrite d a bs).thr = d.thr := by
  unfold Dev.engWrite; simp

@[simp] theorem Dev.engWrite_drives (d : Dev) (a : ℕ) (bs : Bytes) : (Dev.engWrite d a bs).drives = d.drives := by
  unfold Dev.engWrite; simp

@[simp] theorem Dev.engWrite_bifold (d : Dev) (a : ℕ) (bs : Bytes) : (Dev.engWrite d a bs).bifold = d.bifold := by
  unfold Dev.engWrite; simp

@[simp] theorem Dev.engWrite_dig (d : Dev) (a : ℕ) (bs : Bytes) : (Dev.engWrite d a bs).dig = d.dig := by
  unfold Dev.engWrite; simp

@[simp] theorem Dev.engWrite_hinge (d : Dev) (a : ℕ) (bs : Bytes) : (Dev.engWrite d a bs).hinge = d.hinge := by
  unfold Dev.engWrite; simp

@[simp] theorem Dev.engWrite_louvre (d : Dev) (a : ℕ) (bs : Bytes) : (Dev.engWrite d a bs).louvre = d.louvre := by
  unfold Dev.engWrite; simp

@[simp] theorem Dev.engWrite_net (d : Dev) (a : ℕ) (bs : Bytes) : (Dev.engWrite d a bs).net = d.net := by
  unfold Dev.engWrite; simp

@[simp] theorem Dev.engWrite_sash (d : Dev) (a : ℕ) (bs : Bytes) : (Dev.engWrite d a bs).sash = d.sash := by
  unfold Dev.engWrite; simp

@[simp] theorem Dev.engWrite_life (d : Dev) (a : ℕ) (bs : Bytes) : (Dev.engWrite d a bs).life = d.life := by
  unfold Dev.engWrite; simp

@[simp] theorem Dev.engWrite_tap (d : Dev) (a : ℕ) (bs : Bytes) : (Dev.engWrite d a bs).tap = d.tap := by
  unfold Dev.engWrite; simp

@[simp] theorem Dev.engWrite_ordering288 (d : Dev) (a : ℕ) (bs : Bytes) : (Dev.engWrite d a bs).ordering288 =
    d.ordering288 := by
  unfold Dev.engWrite; simp

@[simp] theorem Dev.engWrite_timeBase (d : Dev) (a : ℕ) (bs : Bytes) : (Dev.engWrite d a bs).timeBase = d.timeBase := by
  unfold Dev.engWrite; simp

@[simp] theorem Dev.engWrite_halted (d : Dev) (a : ℕ) (bs : Bytes) : (Dev.engWrite d a bs).halted = d.halted := by
  unfold Dev.engWrite; simp

@[simp] theorem Dev.engWrite_reacts (d : Dev) (a : ℕ) (bs : Bytes) : (Dev.engWrite d a bs).reacts = d.reacts := by
  unfold Dev.engWrite; simp

@[simp] theorem Dev.engWrite_out (d : Dev) (a : ℕ) (bs : Bytes) : (Dev.engWrite d a bs).out = d.out := by
  unfold Dev.engWrite; simp

@[simp] theorem Dev.writeSpace_flds (d : Dev) (eng : Bool) (a : ℕ) (bs : Bytes) : (Dev.writeSpace d eng a bs).flds =
    d.flds := by
  unfold Dev.writeSpace; split <;> simp

@[simp] theorem Dev.writeSpace_objs (d : Dev) (eng : Bool) (a : ℕ) (bs : Bytes) : (Dev.writeSpace d eng a bs).objs =
    d.objs := by
  unfold Dev.writeSpace; split <;> simp

@[simp] theorem Dev.writeSpace_hostBad (d : Dev) (eng : Bool) (a : ℕ) (bs : Bytes) : (Dev.writeSpace d eng a
    bs).hostBad = d.hostBad := by
  unfold Dev.writeSpace; split <;> simp

@[simp] theorem Dev.writeSpace_jamb (d : Dev) (eng : Bool) (a : ℕ) (bs : Bytes) : (Dev.writeSpace d eng a bs).jamb =
    d.jamb := by
  unfold Dev.writeSpace; split <;> simp

@[simp] theorem Dev.writeSpace_maint (d : Dev) (eng : Bool) (a : ℕ) (bs : Bytes) : (Dev.writeSpace d eng a bs).maint =
    d.maint := by
  unfold Dev.writeSpace; split <;> simp

@[simp] theorem Dev.writeSpace_thr (d : Dev) (eng : Bool) (a : ℕ) (bs : Bytes) : (Dev.writeSpace d eng a bs).thr =
    d.thr := by
  unfold Dev.writeSpace; split <;> simp

@[simp] theorem Dev.writeSpace_drives (d : Dev) (eng : Bool) (a : ℕ) (bs : Bytes) : (Dev.writeSpace d eng a bs).drives
    = d.drives := by
  unfold Dev.writeSpace; split <;> simp

@[simp] theorem Dev.writeSpace_bifold (d : Dev) (eng : Bool) (a : ℕ) (bs : Bytes) : (Dev.writeSpace d eng a bs).bifold
    = d.bifold := by
  unfold Dev.writeSpace; split <;> simp

@[simp] theorem Dev.writeSpace_dig (d : Dev) (eng : Bool) (a : ℕ) (bs : Bytes) : (Dev.writeSpace d eng a bs).dig =
    d.dig := by
  unfold Dev.writeSpace; split <;> simp

@[simp] theorem Dev.writeSpace_hinge (d : Dev) (eng : Bool) (a : ℕ) (bs : Bytes) : (Dev.writeSpace d eng a bs).hinge =
    d.hinge := by
  unfold Dev.writeSpace; split <;> simp

@[simp] theorem Dev.writeSpace_louvre (d : Dev) (eng : Bool) (a : ℕ) (bs : Bytes) : (Dev.writeSpace d eng a bs).louvre
    = d.louvre := by
  unfold Dev.writeSpace; split <;> simp

@[simp] theorem Dev.writeSpace_net (d : Dev) (eng : Bool) (a : ℕ) (bs : Bytes) : (Dev.writeSpace d eng a bs).net =
    d.net := by
  unfold Dev.writeSpace; split <;> simp

@[simp] theorem Dev.writeSpace_sash (d : Dev) (eng : Bool) (a : ℕ) (bs : Bytes) : (Dev.writeSpace d eng a bs).sash =
    d.sash := by
  unfold Dev.writeSpace; split <;> simp

@[simp] theorem Dev.writeSpace_life (d : Dev) (eng : Bool) (a : ℕ) (bs : Bytes) : (Dev.writeSpace d eng a bs).life =
    d.life := by
  unfold Dev.writeSpace; split <;> simp

@[simp] theorem Dev.writeSpace_tap (d : Dev) (eng : Bool) (a : ℕ) (bs : Bytes) : (Dev.writeSpace d eng a bs).tap =
    d.tap := by
  unfold Dev.writeSpace; split <;> simp

@[simp] theorem Dev.writeSpace_ordering288 (d : Dev) (eng : Bool) (a : ℕ) (bs : Bytes) : (Dev.writeSpace d eng a
    bs).ordering288 = d.ordering288 := by
  unfold Dev.writeSpace; split <;> simp

@[simp] theorem Dev.writeSpace_timeBase (d : Dev) (eng : Bool) (a : ℕ) (bs : Bytes) : (Dev.writeSpace d eng a
    bs).timeBase = d.timeBase := by
  unfold Dev.writeSpace; split <;> simp

@[simp] theorem Dev.writeSpace_halted (d : Dev) (eng : Bool) (a : ℕ) (bs : Bytes) : (Dev.writeSpace d eng a bs).halted
    = d.halted := by
  unfold Dev.writeSpace; split <;> simp

@[simp] theorem Dev.writeSpace_reacts (d : Dev) (eng : Bool) (a : ℕ) (bs : Bytes) : (Dev.writeSpace d eng a bs).reacts
    = d.reacts := by
  unfold Dev.writeSpace; split <;> simp

@[simp] theorem Dev.writeSpace_out (d : Dev) (eng : Bool) (a : ℕ) (bs : Bytes) : (Dev.writeSpace d eng a bs).out =
    d.out := by
  unfold Dev.writeSpace; split <;> simp

@[simp] theorem Dev.raiseVector_flds (d : Dev) (v : ℕ) : (Dev.raiseVector d v).flds = d.flds := by
  unfold Dev.raiseVector; (try dsimp only); (repeat' split) <;> simp [foldl_flds]

@[simp] theorem Dev.raiseVector_objs (d : Dev) (v : ℕ) : (Dev.raiseVector d v).objs = d.objs := by
  unfold Dev.raiseVector; (try dsimp only); (repeat' split) <;> simp [foldl_objs]

@[simp] theorem Dev.raiseVector_host (d : Dev) (v : ℕ) : (Dev.raiseVector d v).host = d.host := by
  unfold Dev.raiseVector; (try dsimp only); (repeat' split) <;> simp [foldl_host]

@[simp] theorem Dev.raiseVector_hostBad (d : Dev) (v : ℕ) : (Dev.raiseVector d v).hostBad = d.hostBad := by
  unfold Dev.raiseVector; (try dsimp only); (repeat' split) <;> simp [foldl_hostBad]

@[simp] theorem Dev.raiseVector_mem (d : Dev) (v : ℕ) : (Dev.raiseVector d v).mem = d.mem := by
  unfold Dev.raiseVector; (try dsimp only); (repeat' split) <;> simp [foldl_mem]

@[simp] theorem Dev.raiseVector_sill (d : Dev) (v : ℕ) : (Dev.raiseVector d v).sill = d.sill := by
  unfold Dev.raiseVector; (try dsimp only); (repeat' split) <;> simp [foldl_sill]

@[simp] theorem Dev.raiseVector_maint (d : Dev) (v : ℕ) : (Dev.raiseVector d v).maint = d.maint := by
  unfold Dev.raiseVector; (try dsimp only); (repeat' split) <;> simp [foldl_maint]

@[simp] theorem Dev.raiseVector_thr (d : Dev) (v : ℕ) : (Dev.raiseVector d v).thr = d.thr := by
  unfold Dev.raiseVector; (try dsimp only); (repeat' split) <;> simp [foldl_thr]

@[simp] theorem Dev.raiseVector_drives (d : Dev) (v : ℕ) : (Dev.raiseVector d v).drives = d.drives := by
  unfold Dev.raiseVector; (try dsimp only); (repeat' split) <;> simp [foldl_drives]

@[simp] theorem Dev.raiseVector_bifold (d : Dev) (v : ℕ) : (Dev.raiseVector d v).bifold = d.bifold := by
  unfold Dev.raiseVector; (try dsimp only); (repeat' split) <;> simp [foldl_bifold]

@[simp] theorem Dev.raiseVector_dig (d : Dev) (v : ℕ) : (Dev.raiseVector d v).dig = d.dig := by
  unfold Dev.raiseVector; (try dsimp only); (repeat' split) <;> simp [foldl_dig]

@[simp] theorem Dev.raiseVector_hinge (d : Dev) (v : ℕ) : (Dev.raiseVector d v).hinge = d.hinge := by
  unfold Dev.raiseVector; (try dsimp only); (repeat' split) <;> simp [foldl_hinge]

@[simp] theorem Dev.raiseVector_pipes (d : Dev) (v : ℕ) : (Dev.raiseVector d v).pipes = d.pipes := by
  unfold Dev.raiseVector; (try dsimp only); (repeat' split) <;> simp [foldl_pipes]

@[simp] theorem Dev.raiseVector_louvre (d : Dev) (v : ℕ) : (Dev.raiseVector d v).louvre = d.louvre := by
  unfold Dev.raiseVector; (try dsimp only); (repeat' split) <;> simp [foldl_louvre]

@[simp] theorem Dev.raiseVector_net (d : Dev) (v : ℕ) : (Dev.raiseVector d v).net = d.net := by
  unfold Dev.raiseVector; (try dsimp only); (repeat' split) <;> simp [foldl_net]

@[simp] theorem Dev.raiseVector_sash (d : Dev) (v : ℕ) : (Dev.raiseVector d v).sash = d.sash := by
  unfold Dev.raiseVector; (try dsimp only); (repeat' split) <;> simp [foldl_sash]

@[simp] theorem Dev.raiseVector_life (d : Dev) (v : ℕ) : (Dev.raiseVector d v).life = d.life := by
  unfold Dev.raiseVector; (try dsimp only); (repeat' split) <;> simp [foldl_life]

@[simp] theorem Dev.raiseVector_tap (d : Dev) (v : ℕ) : (Dev.raiseVector d v).tap = d.tap := by
  unfold Dev.raiseVector; (try dsimp only); (repeat' split) <;> simp [foldl_tap]

@[simp] theorem Dev.raiseVector_ordering288 (d : Dev) (v : ℕ) : (Dev.raiseVector d v).ordering288 = d.ordering288 := by
  unfold Dev.raiseVector; (try dsimp only); (repeat' split) <;> simp [foldl_ordering288]

@[simp] theorem Dev.raiseVector_timeBase (d : Dev) (v : ℕ) : (Dev.raiseVector d v).timeBase = d.timeBase := by
  unfold Dev.raiseVector; (try dsimp only); (repeat' split) <;> simp [foldl_timeBase]

@[simp] theorem Dev.raiseVector_halted (d : Dev) (v : ℕ) : (Dev.raiseVector d v).halted = d.halted := by
  unfold Dev.raiseVector; (try dsimp only); (repeat' split) <;> simp [foldl_halted]

@[simp] theorem Dev.raiseVector_reacts (d : Dev) (v : ℕ) : (Dev.raiseVector d v).reacts = d.reacts := by
  unfold Dev.raiseVector; (try dsimp only); (repeat' split) <;> simp [foldl_reacts]

@[simp] theorem Dev.raiseVector_free (d : Dev) (v : ℕ) : (Dev.raiseVector d v).free = d.free := by
  unfold Dev.raiseVector; (try dsimp only); (repeat' split) <;> simp [foldl_free]

@[simp] theorem Dev.faultCount_objs (d : Dev) (n : ℕ) : (Dev.faultCount d n).objs = d.objs := by
  unfold Dev.faultCount; (try dsimp only); (repeat' split) <;> simp [foldl_objs]

@[simp] theorem Dev.faultCount_host (d : Dev) (n : ℕ) : (Dev.faultCount d n).host = d.host := by
  unfold Dev.faultCount; (try dsimp only); (repeat' split) <;> simp [foldl_host]

@[simp] theorem Dev.faultCount_hostBad (d : Dev) (n : ℕ) : (Dev.faultCount d n).hostBad = d.hostBad := by
  unfold Dev.faultCount; (try dsimp only); (repeat' split) <;> simp [foldl_hostBad]

@[simp] theorem Dev.faultCount_jamb (d : Dev) (n : ℕ) : (Dev.faultCount d n).jamb = d.jamb := by
  unfold Dev.faultCount; (try dsimp only); (repeat' split) <;> simp [foldl_jamb]

@[simp] theorem Dev.faultCount_mem (d : Dev) (n : ℕ) : (Dev.faultCount d n).mem = d.mem := by
  unfold Dev.faultCount; (try dsimp only); (repeat' split) <;> simp [foldl_mem]

@[simp] theorem Dev.faultCount_sill (d : Dev) (n : ℕ) : (Dev.faultCount d n).sill = d.sill := by
  unfold Dev.faultCount; (try dsimp only); (repeat' split) <;> simp [foldl_sill]

@[simp] theorem Dev.faultCount_maint (d : Dev) (n : ℕ) : (Dev.faultCount d n).maint = d.maint := by
  unfold Dev.faultCount; (try dsimp only); (repeat' split) <;> simp [foldl_maint]

@[simp] theorem Dev.faultCount_thr (d : Dev) (n : ℕ) : (Dev.faultCount d n).thr = d.thr := by
  unfold Dev.faultCount; (try dsimp only); (repeat' split) <;> simp [foldl_thr]

@[simp] theorem Dev.faultCount_drives (d : Dev) (n : ℕ) : (Dev.faultCount d n).drives = d.drives := by
  unfold Dev.faultCount; (try dsimp only); (repeat' split) <;> simp [foldl_drives]

@[simp] theorem Dev.faultCount_bifold (d : Dev) (n : ℕ) : (Dev.faultCount d n).bifold = d.bifold := by
  unfold Dev.faultCount; (try dsimp only); (repeat' split) <;> simp [foldl_bifold]

@[simp] theorem Dev.faultCount_dig (d : Dev) (n : ℕ) : (Dev.faultCount d n).dig = d.dig := by
  unfold Dev.faultCount; (try dsimp only); (repeat' split) <;> simp [foldl_dig]

@[simp] theorem Dev.faultCount_hinge (d : Dev) (n : ℕ) : (Dev.faultCount d n).hinge = d.hinge := by
  unfold Dev.faultCount; (try dsimp only); (repeat' split) <;> simp [foldl_hinge]

@[simp] theorem Dev.faultCount_pipes (d : Dev) (n : ℕ) : (Dev.faultCount d n).pipes = d.pipes := by
  unfold Dev.faultCount; (try dsimp only); (repeat' split) <;> simp [foldl_pipes]

@[simp] theorem Dev.faultCount_louvre (d : Dev) (n : ℕ) : (Dev.faultCount d n).louvre = d.louvre := by
  unfold Dev.faultCount; (try dsimp only); (repeat' split) <;> simp [foldl_louvre]

@[simp] theorem Dev.faultCount_net (d : Dev) (n : ℕ) : (Dev.faultCount d n).net = d.net := by
  unfold Dev.faultCount; (try dsimp only); (repeat' split) <;> simp [foldl_net]

@[simp] theorem Dev.faultCount_sash (d : Dev) (n : ℕ) : (Dev.faultCount d n).sash = d.sash := by
  unfold Dev.faultCount; (try dsimp only); (repeat' split) <;> simp [foldl_sash]

@[simp] theorem Dev.faultCount_life (d : Dev) (n : ℕ) : (Dev.faultCount d n).life = d.life := by
  unfold Dev.faultCount; (try dsimp only); (repeat' split) <;> simp [foldl_life]

@[simp] theorem Dev.faultCount_tap (d : Dev) (n : ℕ) : (Dev.faultCount d n).tap = d.tap := by
  unfold Dev.faultCount; (try dsimp only); (repeat' split) <;> simp [foldl_tap]

@[simp] theorem Dev.faultCount_ordering288 (d : Dev) (n : ℕ) : (Dev.faultCount d n).ordering288 = d.ordering288 := by
  unfold Dev.faultCount; (try dsimp only); (repeat' split) <;> simp [foldl_ordering288]

@[simp] theorem Dev.faultCount_timeBase (d : Dev) (n : ℕ) : (Dev.faultCount d n).timeBase = d.timeBase := by
  unfold Dev.faultCount; (try dsimp only); (repeat' split) <;> simp [foldl_timeBase]

@[simp] theorem Dev.faultCount_halted (d : Dev) (n : ℕ) : (Dev.faultCount d n).halted = d.halted := by
  unfold Dev.faultCount; (try dsimp only); (repeat' split) <;> simp [foldl_halted]

@[simp] theorem Dev.faultCount_reacts (d : Dev) (n : ℕ) : (Dev.faultCount d n).reacts = d.reacts := by
  unfold Dev.faultCount; (try dsimp only); (repeat' split) <;> simp [foldl_reacts]

@[simp] theorem Dev.faultCount_out (d : Dev) (n : ℕ) : (Dev.faultCount d n).out = d.out := by
  unfold Dev.faultCount; (try dsimp only); (repeat' split) <;> simp [foldl_out]

@[simp] theorem Dev.faultCount_free (d : Dev) (n : ℕ) : (Dev.faultCount d n).free = d.free := by
  unfold Dev.faultCount; (try dsimp only); (repeat' split) <;> simp [foldl_free]

@[simp] theorem Dev.faultIrq_flds (d : Dev) : (Dev.faultIrq d).flds = d.flds := by
  unfold Dev.faultIrq; (try dsimp only); (repeat' split) <;> simp [foldl_flds]

@[simp] theorem Dev.faultIrq_objs (d : Dev) : (Dev.faultIrq d).objs = d.objs := by
  unfold Dev.faultIrq; (try dsimp only); (repeat' split) <;> simp [foldl_objs]

@[simp] theorem Dev.faultIrq_host (d : Dev) : (Dev.faultIrq d).host = d.host := by
  unfold Dev.faultIrq; (try dsimp only); (repeat' split) <;> simp [foldl_host]

@[simp] theorem Dev.faultIrq_hostBad (d : Dev) : (Dev.faultIrq d).hostBad = d.hostBad := by
  unfold Dev.faultIrq; (try dsimp only); (repeat' split) <;> simp [foldl_hostBad]

@[simp] theorem Dev.faultIrq_mem (d : Dev) : (Dev.faultIrq d).mem = d.mem := by
  unfold Dev.faultIrq; (try dsimp only); (repeat' split) <;> simp [foldl_mem]

@[simp] theorem Dev.faultIrq_sill (d : Dev) : (Dev.faultIrq d).sill = d.sill := by
  unfold Dev.faultIrq; (try dsimp only); (repeat' split) <;> simp [foldl_sill]

@[simp] theorem Dev.faultIrq_maint (d : Dev) : (Dev.faultIrq d).maint = d.maint := by
  unfold Dev.faultIrq; (try dsimp only); (repeat' split) <;> simp [foldl_maint]

@[simp] theorem Dev.faultIrq_thr (d : Dev) : (Dev.faultIrq d).thr = d.thr := by
  unfold Dev.faultIrq; (try dsimp only); (repeat' split) <;> simp [foldl_thr]

@[simp] theorem Dev.faultIrq_drives (d : Dev) : (Dev.faultIrq d).drives = d.drives := by
  unfold Dev.faultIrq; (try dsimp only); (repeat' split) <;> simp [foldl_drives]

@[simp] theorem Dev.faultIrq_bifold (d : Dev) : (Dev.faultIrq d).bifold = d.bifold := by
  unfold Dev.faultIrq; (try dsimp only); (repeat' split) <;> simp [foldl_bifold]

@[simp] theorem Dev.faultIrq_dig (d : Dev) : (Dev.faultIrq d).dig = d.dig := by
  unfold Dev.faultIrq; (try dsimp only); (repeat' split) <;> simp [foldl_dig]

@[simp] theorem Dev.faultIrq_hinge (d : Dev) : (Dev.faultIrq d).hinge = d.hinge := by
  unfold Dev.faultIrq; (try dsimp only); (repeat' split) <;> simp [foldl_hinge]

@[simp] theorem Dev.faultIrq_pipes (d : Dev) : (Dev.faultIrq d).pipes = d.pipes := by
  unfold Dev.faultIrq; (try dsimp only); (repeat' split) <;> simp [foldl_pipes]

@[simp] theorem Dev.faultIrq_louvre (d : Dev) : (Dev.faultIrq d).louvre = d.louvre := by
  unfold Dev.faultIrq; (try dsimp only); (repeat' split) <;> simp [foldl_louvre]

@[simp] theorem Dev.faultIrq_net (d : Dev) : (Dev.faultIrq d).net = d.net := by
  unfold Dev.faultIrq; (try dsimp only); (repeat' split) <;> simp [foldl_net]

@[simp] theorem Dev.faultIrq_sash (d : Dev) : (Dev.faultIrq d).sash = d.sash := by
  unfold Dev.faultIrq; (try dsimp only); (repeat' split) <;> simp [foldl_sash]

@[simp] theorem Dev.faultIrq_life (d : Dev) : (Dev.faultIrq d).life = d.life := by
  unfold Dev.faultIrq; (try dsimp only); (repeat' split) <;> simp [foldl_life]

@[simp] theorem Dev.faultIrq_tap (d : Dev) : (Dev.faultIrq d).tap = d.tap := by
  unfold Dev.faultIrq; (try dsimp only); (repeat' split) <;> simp [foldl_tap]

@[simp] theorem Dev.faultIrq_ordering288 (d : Dev) : (Dev.faultIrq d).ordering288 = d.ordering288 := by
  unfold Dev.faultIrq; (try dsimp only); (repeat' split) <;> simp [foldl_ordering288]

@[simp] theorem Dev.faultIrq_timeBase (d : Dev) : (Dev.faultIrq d).timeBase = d.timeBase := by
  unfold Dev.faultIrq; (try dsimp only); (repeat' split) <;> simp [foldl_timeBase]

@[simp] theorem Dev.faultIrq_halted (d : Dev) : (Dev.faultIrq d).halted = d.halted := by
  unfold Dev.faultIrq; (try dsimp only); (repeat' split) <;> simp [foldl_halted]

@[simp] theorem Dev.faultIrq_reacts (d : Dev) : (Dev.faultIrq d).reacts = d.reacts := by
  unfold Dev.faultIrq; (try dsimp only); (repeat' split) <;> simp [foldl_reacts]

@[simp] theorem Dev.faultIrq_free (d : Dev) : (Dev.faultIrq d).free = d.free := by
  unfold Dev.faultIrq; (try dsimp only); (repeat' split) <;> simp [foldl_free]

@[simp] theorem Dev.faultRaise_host (d : Dev) (n : ℕ) (syndrome : ℕ) (injected : Bool) : (Dev.faultRaise d n syndrome
    injected).host = d.host := by
  unfold Dev.faultRaise Dev.faultCapture; dsimp only; (repeat' split) <;> simp [foldl_host]

@[simp] theorem Dev.faultRaise_hostBad (d : Dev) (n : ℕ) (syndrome : ℕ) (injected : Bool) : (Dev.faultRaise d n
    syndrome injected).hostBad = d.hostBad := by
  unfold Dev.faultRaise Dev.faultCapture; dsimp only; (repeat' split) <;> simp [foldl_hostBad]

@[simp] theorem Dev.faultRaise_mem (d : Dev) (n : ℕ) (syndrome : ℕ) (injected : Bool) : (Dev.faultRaise d n syndrome
    injected).mem = d.mem := by
  unfold Dev.faultRaise Dev.faultCapture; dsimp only; (repeat' split) <;> simp [foldl_mem]

@[simp] theorem Dev.faultRaise_sill (d : Dev) (n : ℕ) (syndrome : ℕ) (injected : Bool) : (Dev.faultRaise d n syndrome
    injected).sill = d.sill := by
  unfold Dev.faultRaise Dev.faultCapture; dsimp only; (repeat' split) <;> simp [foldl_sill]

@[simp] theorem Dev.faultRaise_maint (d : Dev) (n : ℕ) (syndrome : ℕ) (injected : Bool) : (Dev.faultRaise d n syndrome
    injected).maint = d.maint := by
  unfold Dev.faultRaise Dev.faultCapture; dsimp only; (repeat' split) <;> simp [foldl_maint]

@[simp] theorem Dev.faultRaise_thr (d : Dev) (n : ℕ) (syndrome : ℕ) (injected : Bool) : (Dev.faultRaise d n syndrome
    injected).thr = d.thr := by
  unfold Dev.faultRaise Dev.faultCapture; dsimp only; (repeat' split) <;> simp [foldl_thr]

@[simp] theorem Dev.faultRaise_drives (d : Dev) (n : ℕ) (syndrome : ℕ) (injected : Bool) : (Dev.faultRaise d n
    syndrome injected).drives = d.drives := by
  unfold Dev.faultRaise Dev.faultCapture; dsimp only; (repeat' split) <;> simp [foldl_drives]

@[simp] theorem Dev.faultRaise_bifold (d : Dev) (n : ℕ) (syndrome : ℕ) (injected : Bool) : (Dev.faultRaise d n
    syndrome injected).bifold = d.bifold := by
  unfold Dev.faultRaise Dev.faultCapture; dsimp only; (repeat' split) <;> simp [foldl_bifold]

@[simp] theorem Dev.faultRaise_dig (d : Dev) (n : ℕ) (syndrome : ℕ) (injected : Bool) : (Dev.faultRaise d n syndrome
    injected).dig = d.dig := by
  unfold Dev.faultRaise Dev.faultCapture; dsimp only; (repeat' split) <;> simp [foldl_dig]

@[simp] theorem Dev.faultRaise_hinge (d : Dev) (n : ℕ) (syndrome : ℕ) (injected : Bool) : (Dev.faultRaise d n syndrome
    injected).hinge = d.hinge := by
  unfold Dev.faultRaise Dev.faultCapture; dsimp only; (repeat' split) <;> simp [foldl_hinge]

@[simp] theorem Dev.faultRaise_pipes (d : Dev) (n : ℕ) (syndrome : ℕ) (injected : Bool) : (Dev.faultRaise d n syndrome
    injected).pipes = d.pipes := by
  unfold Dev.faultRaise Dev.faultCapture; dsimp only; (repeat' split) <;> simp [foldl_pipes]

@[simp] theorem Dev.faultRaise_louvre (d : Dev) (n : ℕ) (syndrome : ℕ) (injected : Bool) : (Dev.faultRaise d n
    syndrome injected).louvre = d.louvre := by
  unfold Dev.faultRaise Dev.faultCapture; dsimp only; (repeat' split) <;> simp [foldl_louvre]

@[simp] theorem Dev.faultRaise_net (d : Dev) (n : ℕ) (syndrome : ℕ) (injected : Bool) : (Dev.faultRaise d n syndrome
    injected).net = d.net := by
  unfold Dev.faultRaise Dev.faultCapture; dsimp only; (repeat' split) <;> simp [foldl_net]

@[simp] theorem Dev.faultRaise_sash (d : Dev) (n : ℕ) (syndrome : ℕ) (injected : Bool) : (Dev.faultRaise d n syndrome
    injected).sash = d.sash := by
  unfold Dev.faultRaise Dev.faultCapture; dsimp only; (repeat' split) <;> simp [foldl_sash]

@[simp] theorem Dev.faultRaise_life (d : Dev) (n : ℕ) (syndrome : ℕ) (injected : Bool) : (Dev.faultRaise d n syndrome
    injected).life = d.life := by
  unfold Dev.faultRaise Dev.faultCapture; dsimp only; (repeat' split) <;> simp [foldl_life]

@[simp] theorem Dev.faultRaise_tap (d : Dev) (n : ℕ) (syndrome : ℕ) (injected : Bool) : (Dev.faultRaise d n syndrome
    injected).tap = d.tap := by
  unfold Dev.faultRaise Dev.faultCapture; dsimp only; (repeat' split) <;> simp [foldl_tap]

@[simp] theorem Dev.faultRaise_ordering288 (d : Dev) (n : ℕ) (syndrome : ℕ) (injected : Bool) : (Dev.faultRaise d n
    syndrome injected).ordering288 = d.ordering288 := by
  unfold Dev.faultRaise Dev.faultCapture; dsimp only; (repeat' split) <;> simp [foldl_ordering288]

@[simp] theorem Dev.faultRaise_timeBase (d : Dev) (n : ℕ) (syndrome : ℕ) (injected : Bool) : (Dev.faultRaise d n
    syndrome injected).timeBase = d.timeBase := by
  unfold Dev.faultRaise Dev.faultCapture; dsimp only; (repeat' split) <;> simp [foldl_timeBase]

@[simp] theorem Dev.faultRaise_halted (d : Dev) (n : ℕ) (syndrome : ℕ) (injected : Bool) : (Dev.faultRaise d n
    syndrome injected).halted = d.halted := by
  unfold Dev.faultRaise Dev.faultCapture; dsimp only; (repeat' split) <;> simp [foldl_halted]

@[simp] theorem Dev.faultRaise_free (d : Dev) (n : ℕ) (syndrome : ℕ) (injected : Bool) : (Dev.faultRaise d n syndrome
    injected).free = d.free := by
  unfold Dev.faultRaise Dev.faultCapture; dsimp only; (repeat' split) <;> simp [foldl_free]

@[simp] theorem Dev.mirror_flds (d : Dev) (q : ℕ) : (Dev.mirror d q).flds = d.flds := by
  unfold Dev.mirror; dsimp only; split <;> simp

@[simp] theorem Dev.mirror_objs (d : Dev) (q : ℕ) : (Dev.mirror d q).objs = d.objs := by
  unfold Dev.mirror; dsimp only; split <;> simp

@[simp] theorem Dev.mirror_hostBad (d : Dev) (q : ℕ) : (Dev.mirror d q).hostBad = d.hostBad := by
  unfold Dev.mirror; dsimp only; split <;> simp

@[simp] theorem Dev.mirror_jamb (d : Dev) (q : ℕ) : (Dev.mirror d q).jamb = d.jamb := by
  unfold Dev.mirror; dsimp only; split <;> simp

@[simp] theorem Dev.mirror_maint (d : Dev) (q : ℕ) : (Dev.mirror d q).maint = d.maint := by
  unfold Dev.mirror; dsimp only; split <;> simp

@[simp] theorem Dev.mirror_thr (d : Dev) (q : ℕ) : (Dev.mirror d q).thr = d.thr := by
  unfold Dev.mirror; dsimp only; split <;> simp

@[simp] theorem Dev.mirror_drives (d : Dev) (q : ℕ) : (Dev.mirror d q).drives = d.drives := by
  unfold Dev.mirror; dsimp only; split <;> simp

@[simp] theorem Dev.mirror_bifold (d : Dev) (q : ℕ) : (Dev.mirror d q).bifold = d.bifold := by
  unfold Dev.mirror; dsimp only; split <;> simp

@[simp] theorem Dev.mirror_dig (d : Dev) (q : ℕ) : (Dev.mirror d q).dig = d.dig := by
  unfold Dev.mirror; dsimp only; split <;> simp

@[simp] theorem Dev.mirror_hinge (d : Dev) (q : ℕ) : (Dev.mirror d q).hinge = d.hinge := by
  unfold Dev.mirror; dsimp only; split <;> simp

@[simp] theorem Dev.mirror_louvre (d : Dev) (q : ℕ) : (Dev.mirror d q).louvre = d.louvre := by
  unfold Dev.mirror; dsimp only; split <;> simp

@[simp] theorem Dev.mirror_net (d : Dev) (q : ℕ) : (Dev.mirror d q).net = d.net := by
  unfold Dev.mirror; dsimp only; split <;> simp

@[simp] theorem Dev.mirror_sash (d : Dev) (q : ℕ) : (Dev.mirror d q).sash = d.sash := by
  unfold Dev.mirror; dsimp only; split <;> simp

@[simp] theorem Dev.mirror_life (d : Dev) (q : ℕ) : (Dev.mirror d q).life = d.life := by
  unfold Dev.mirror; dsimp only; split <;> simp

@[simp] theorem Dev.mirror_tap (d : Dev) (q : ℕ) : (Dev.mirror d q).tap = d.tap := by
  unfold Dev.mirror; dsimp only; split <;> simp

@[simp] theorem Dev.mirror_ordering288 (d : Dev) (q : ℕ) : (Dev.mirror d q).ordering288 = d.ordering288 := by
  unfold Dev.mirror; dsimp only; split <;> simp

@[simp] theorem Dev.mirror_timeBase (d : Dev) (q : ℕ) : (Dev.mirror d q).timeBase = d.timeBase := by
  unfold Dev.mirror; dsimp only; split <;> simp

@[simp] theorem Dev.mirror_halted (d : Dev) (q : ℕ) : (Dev.mirror d q).halted = d.halted := by
  unfold Dev.mirror; dsimp only; split <;> simp

@[simp] theorem Dev.mirror_reacts (d : Dev) (q : ℕ) : (Dev.mirror d q).reacts = d.reacts := by
  unfold Dev.mirror; dsimp only; split <;> simp

@[simp] theorem Dev.mirror_out (d : Dev) (q : ℕ) : (Dev.mirror d q).out = d.out := by
  unfold Dev.mirror; dsimp only; split <;> simp

@[simp] theorem Dev.queueIrq_flds (d : Dev) (q : ℕ) : (Dev.queueIrq d q).flds = d.flds := by
  unfold Dev.queueIrq; dsimp only; split <;> simp

@[simp] theorem Dev.queueIrq_objs (d : Dev) (q : ℕ) : (Dev.queueIrq d q).objs = d.objs := by
  unfold Dev.queueIrq; dsimp only; split <;> simp

@[simp] theorem Dev.queueIrq_hostBad (d : Dev) (q : ℕ) : (Dev.queueIrq d q).hostBad = d.hostBad := by
  unfold Dev.queueIrq; dsimp only; split <;> simp

@[simp] theorem Dev.queueIrq_maint (d : Dev) (q : ℕ) : (Dev.queueIrq d q).maint = d.maint := by
  unfold Dev.queueIrq; dsimp only; split <;> simp

@[simp] theorem Dev.queueIrq_thr (d : Dev) (q : ℕ) : (Dev.queueIrq d q).thr = d.thr := by
  unfold Dev.queueIrq; dsimp only; split <;> simp

@[simp] theorem Dev.queueIrq_drives (d : Dev) (q : ℕ) : (Dev.queueIrq d q).drives = d.drives := by
  unfold Dev.queueIrq; dsimp only; split <;> simp

@[simp] theorem Dev.queueIrq_bifold (d : Dev) (q : ℕ) : (Dev.queueIrq d q).bifold = d.bifold := by
  unfold Dev.queueIrq; dsimp only; split <;> simp

@[simp] theorem Dev.queueIrq_dig (d : Dev) (q : ℕ) : (Dev.queueIrq d q).dig = d.dig := by
  unfold Dev.queueIrq; dsimp only; split <;> simp

@[simp] theorem Dev.queueIrq_hinge (d : Dev) (q : ℕ) : (Dev.queueIrq d q).hinge = d.hinge := by
  unfold Dev.queueIrq; dsimp only; split <;> simp

@[simp] theorem Dev.queueIrq_louvre (d : Dev) (q : ℕ) : (Dev.queueIrq d q).louvre = d.louvre := by
  unfold Dev.queueIrq; dsimp only; split <;> simp

@[simp] theorem Dev.queueIrq_net (d : Dev) (q : ℕ) : (Dev.queueIrq d q).net = d.net := by
  unfold Dev.queueIrq; dsimp only; split <;> simp

@[simp] theorem Dev.queueIrq_sash (d : Dev) (q : ℕ) : (Dev.queueIrq d q).sash = d.sash := by
  unfold Dev.queueIrq; dsimp only; split <;> simp

@[simp] theorem Dev.queueIrq_life (d : Dev) (q : ℕ) : (Dev.queueIrq d q).life = d.life := by
  unfold Dev.queueIrq; dsimp only; split <;> simp

@[simp] theorem Dev.queueIrq_tap (d : Dev) (q : ℕ) : (Dev.queueIrq d q).tap = d.tap := by
  unfold Dev.queueIrq; dsimp only; split <;> simp

@[simp] theorem Dev.queueIrq_ordering288 (d : Dev) (q : ℕ) : (Dev.queueIrq d q).ordering288 = d.ordering288 := by
  unfold Dev.queueIrq; dsimp only; split <;> simp

@[simp] theorem Dev.queueIrq_timeBase (d : Dev) (q : ℕ) : (Dev.queueIrq d q).timeBase = d.timeBase := by
  unfold Dev.queueIrq; dsimp only; split <;> simp

@[simp] theorem Dev.queueIrq_halted (d : Dev) (q : ℕ) : (Dev.queueIrq d q).halted = d.halted := by
  unfold Dev.queueIrq; dsimp only; split <;> simp

@[simp] theorem Dev.queueIrq_reacts (d : Dev) (q : ℕ) : (Dev.queueIrq d q).reacts = d.reacts := by
  unfold Dev.queueIrq; dsimp only; split <;> simp

@[simp] theorem Dev.writeCqe_flds (d : Dev) (c : Cmd) : (Dev.writeCqe d c).flds = d.flds := by
  unfold Dev.writeCqe; simp

@[simp] theorem Dev.writeCqe_hostBad (d : Dev) (c : Cmd) : (Dev.writeCqe d c).hostBad = d.hostBad := by
  unfold Dev.writeCqe; simp

@[simp] theorem Dev.writeCqe_maint (d : Dev) (c : Cmd) : (Dev.writeCqe d c).maint = d.maint := by
  unfold Dev.writeCqe; simp

@[simp] theorem Dev.writeCqe_thr (d : Dev) (c : Cmd) : (Dev.writeCqe d c).thr = d.thr := by
  unfold Dev.writeCqe; simp

@[simp] theorem Dev.writeCqe_drives (d : Dev) (c : Cmd) : (Dev.writeCqe d c).drives = d.drives := by
  unfold Dev.writeCqe; simp

@[simp] theorem Dev.writeCqe_bifold (d : Dev) (c : Cmd) : (Dev.writeCqe d c).bifold = d.bifold := by
  unfold Dev.writeCqe; simp

@[simp] theorem Dev.writeCqe_dig (d : Dev) (c : Cmd) : (Dev.writeCqe d c).dig = d.dig := by
  unfold Dev.writeCqe; simp

@[simp] theorem Dev.writeCqe_hinge (d : Dev) (c : Cmd) : (Dev.writeCqe d c).hinge = d.hinge := by
  unfold Dev.writeCqe; simp

@[simp] theorem Dev.writeCqe_louvre (d : Dev) (c : Cmd) : (Dev.writeCqe d c).louvre = d.louvre := by
  unfold Dev.writeCqe; simp

@[simp] theorem Dev.writeCqe_net (d : Dev) (c : Cmd) : (Dev.writeCqe d c).net = d.net := by
  unfold Dev.writeCqe; simp

@[simp] theorem Dev.writeCqe_sash (d : Dev) (c : Cmd) : (Dev.writeCqe d c).sash = d.sash := by
  unfold Dev.writeCqe; simp

@[simp] theorem Dev.writeCqe_life (d : Dev) (c : Cmd) : (Dev.writeCqe d c).life = d.life := by
  unfold Dev.writeCqe; simp

@[simp] theorem Dev.writeCqe_tap (d : Dev) (c : Cmd) : (Dev.writeCqe d c).tap = d.tap := by
  unfold Dev.writeCqe; simp

@[simp] theorem Dev.writeCqe_ordering288 (d : Dev) (c : Cmd) : (Dev.writeCqe d c).ordering288 = d.ordering288 := by
  unfold Dev.writeCqe; simp

@[simp] theorem Dev.writeCqe_timeBase (d : Dev) (c : Cmd) : (Dev.writeCqe d c).timeBase = d.timeBase := by
  unfold Dev.writeCqe; simp

@[simp] theorem Dev.writeCqe_halted (d : Dev) (c : Cmd) : (Dev.writeCqe d c).halted = d.halted := by
  unfold Dev.writeCqe; simp

@[simp] theorem Dev.writeCqe_reacts (d : Dev) (c : Cmd) : (Dev.writeCqe d c).reacts = d.reacts := by
  unfold Dev.writeCqe; simp

@[simp] theorem Dev.writeCqe_out (d : Dev) (c : Cmd) : (Dev.writeCqe d c).out = d.out := by
  unfold Dev.writeCqe; simp

@[simp] theorem Dev.settleQueue_flds (d : Dev) (q : ℕ) : (Dev.settleQueue d q).flds = d.flds := by
  unfold Dev.settleQueue; (try dsimp only); (repeat' split) <;> simp [foldl_flds]

@[simp] theorem Dev.settleQueue_objs (d : Dev) (q : ℕ) : (Dev.settleQueue d q).objs = d.objs := by
  unfold Dev.settleQueue; (try dsimp only); (repeat' split) <;> simp [foldl_objs]

@[simp] theorem Dev.settleQueue_host (d : Dev) (q : ℕ) : (Dev.settleQueue d q).host = d.host := by
  unfold Dev.settleQueue; (try dsimp only); (repeat' split) <;> simp [foldl_host]

@[simp] theorem Dev.settleQueue_hostBad (d : Dev) (q : ℕ) : (Dev.settleQueue d q).hostBad = d.hostBad := by
  unfold Dev.settleQueue; (try dsimp only); (repeat' split) <;> simp [foldl_hostBad]

@[simp] theorem Dev.settleQueue_mem (d : Dev) (q : ℕ) : (Dev.settleQueue d q).mem = d.mem := by
  unfold Dev.settleQueue; (try dsimp only); (repeat' split) <;> simp [foldl_mem]

@[simp] theorem Dev.settleQueue_sill (d : Dev) (q : ℕ) : (Dev.settleQueue d q).sill = d.sill := by
  unfold Dev.settleQueue; (try dsimp only); (repeat' split) <;> simp [foldl_sill]

@[simp] theorem Dev.settleQueue_maint (d : Dev) (q : ℕ) : (Dev.settleQueue d q).maint = d.maint := by
  unfold Dev.settleQueue; (try dsimp only); (repeat' split) <;> simp [foldl_maint]

@[simp] theorem Dev.settleQueue_thr (d : Dev) (q : ℕ) : (Dev.settleQueue d q).thr = d.thr := by
  unfold Dev.settleQueue; (try dsimp only); (repeat' split) <;> simp [foldl_thr]

@[simp] theorem Dev.settleQueue_drives (d : Dev) (q : ℕ) : (Dev.settleQueue d q).drives = d.drives := by
  unfold Dev.settleQueue; (try dsimp only); (repeat' split) <;> simp [foldl_drives]

@[simp] theorem Dev.settleQueue_bifold (d : Dev) (q : ℕ) : (Dev.settleQueue d q).bifold = d.bifold := by
  unfold Dev.settleQueue; (try dsimp only); (repeat' split) <;> simp [foldl_bifold]

@[simp] theorem Dev.settleQueue_dig (d : Dev) (q : ℕ) : (Dev.settleQueue d q).dig = d.dig := by
  unfold Dev.settleQueue; (try dsimp only); (repeat' split) <;> simp [foldl_dig]

@[simp] theorem Dev.settleQueue_hinge (d : Dev) (q : ℕ) : (Dev.settleQueue d q).hinge = d.hinge := by
  unfold Dev.settleQueue; (try dsimp only); (repeat' split) <;> simp [foldl_hinge]

@[simp] theorem Dev.settleQueue_pipes (d : Dev) (q : ℕ) : (Dev.settleQueue d q).pipes = d.pipes := by
  unfold Dev.settleQueue; (try dsimp only); (repeat' split) <;> simp [foldl_pipes]

@[simp] theorem Dev.settleQueue_louvre (d : Dev) (q : ℕ) : (Dev.settleQueue d q).louvre = d.louvre := by
  unfold Dev.settleQueue; (try dsimp only); (repeat' split) <;> simp [foldl_louvre]

@[simp] theorem Dev.settleQueue_net (d : Dev) (q : ℕ) : (Dev.settleQueue d q).net = d.net := by
  unfold Dev.settleQueue; (try dsimp only); (repeat' split) <;> simp [foldl_net]

@[simp] theorem Dev.settleQueue_sash (d : Dev) (q : ℕ) : (Dev.settleQueue d q).sash = d.sash := by
  unfold Dev.settleQueue; (try dsimp only); (repeat' split) <;> simp [foldl_sash]

@[simp] theorem Dev.settleQueue_life (d : Dev) (q : ℕ) : (Dev.settleQueue d q).life = d.life := by
  unfold Dev.settleQueue; (try dsimp only); (repeat' split) <;> simp [foldl_life]

@[simp] theorem Dev.settleQueue_tap (d : Dev) (q : ℕ) : (Dev.settleQueue d q).tap = d.tap := by
  unfold Dev.settleQueue; (try dsimp only); (repeat' split) <;> simp [foldl_tap]

@[simp] theorem Dev.settleQueue_ordering288 (d : Dev) (q : ℕ) : (Dev.settleQueue d q).ordering288 = d.ordering288 := by
  unfold Dev.settleQueue; (try dsimp only); (repeat' split) <;> simp [foldl_ordering288]

@[simp] theorem Dev.settleQueue_timeBase (d : Dev) (q : ℕ) : (Dev.settleQueue d q).timeBase = d.timeBase := by
  unfold Dev.settleQueue; (try dsimp only); (repeat' split) <;> simp [foldl_timeBase]

@[simp] theorem Dev.settleQueue_halted (d : Dev) (q : ℕ) : (Dev.settleQueue d q).halted = d.halted := by
  unfold Dev.settleQueue; (try dsimp only); (repeat' split) <;> simp [foldl_halted]

@[simp] theorem Dev.settleQueue_reacts (d : Dev) (q : ℕ) : (Dev.settleQueue d q).reacts = d.reacts := by
  unfold Dev.settleQueue; (try dsimp only); (repeat' split) <;> simp [foldl_reacts]

@[simp] theorem Dev.settleQueue_out (d : Dev) (q : ℕ) : (Dev.settleQueue d q).out = d.out := by
  unfold Dev.settleQueue; (try dsimp only); (repeat' split) <;> simp [foldl_out]

@[simp] theorem Dev.settleQueue_free (d : Dev) (q : ℕ) : (Dev.settleQueue d q).free = d.free := by
  unfold Dev.settleQueue; (try dsimp only); (repeat' split) <;> simp [foldl_free]

@[simp] theorem Dev.toBacklog_hostBad (d : Dev) (c : Cmd) : (Dev.toBacklog d c).hostBad = d.hostBad := by
  unfold Dev.toBacklog; dsimp only; split <;> simp

@[simp] theorem Dev.toBacklog_maint (d : Dev) (c : Cmd) : (Dev.toBacklog d c).maint = d.maint := by
  unfold Dev.toBacklog; dsimp only; split <;> simp

@[simp] theorem Dev.toBacklog_thr (d : Dev) (c : Cmd) : (Dev.toBacklog d c).thr = d.thr := by
  unfold Dev.toBacklog; dsimp only; split <;> simp

@[simp] theorem Dev.toBacklog_drives (d : Dev) (c : Cmd) : (Dev.toBacklog d c).drives = d.drives := by
  unfold Dev.toBacklog; dsimp only; split <;> simp

@[simp] theorem Dev.toBacklog_bifold (d : Dev) (c : Cmd) : (Dev.toBacklog d c).bifold = d.bifold := by
  unfold Dev.toBacklog; dsimp only; split <;> simp

@[simp] theorem Dev.toBacklog_dig (d : Dev) (c : Cmd) : (Dev.toBacklog d c).dig = d.dig := by
  unfold Dev.toBacklog; dsimp only; split <;> simp

@[simp] theorem Dev.toBacklog_hinge (d : Dev) (c : Cmd) : (Dev.toBacklog d c).hinge = d.hinge := by
  unfold Dev.toBacklog; dsimp only; split <;> simp

@[simp] theorem Dev.toBacklog_louvre (d : Dev) (c : Cmd) : (Dev.toBacklog d c).louvre = d.louvre := by
  unfold Dev.toBacklog; dsimp only; split <;> simp

@[simp] theorem Dev.toBacklog_net (d : Dev) (c : Cmd) : (Dev.toBacklog d c).net = d.net := by
  unfold Dev.toBacklog; dsimp only; split <;> simp

@[simp] theorem Dev.toBacklog_sash (d : Dev) (c : Cmd) : (Dev.toBacklog d c).sash = d.sash := by
  unfold Dev.toBacklog; dsimp only; split <;> simp

@[simp] theorem Dev.toBacklog_life (d : Dev) (c : Cmd) : (Dev.toBacklog d c).life = d.life := by
  unfold Dev.toBacklog; dsimp only; split <;> simp

@[simp] theorem Dev.toBacklog_tap (d : Dev) (c : Cmd) : (Dev.toBacklog d c).tap = d.tap := by
  unfold Dev.toBacklog; dsimp only; split <;> simp

@[simp] theorem Dev.toBacklog_ordering288 (d : Dev) (c : Cmd) : (Dev.toBacklog d c).ordering288 = d.ordering288 := by
  unfold Dev.toBacklog; dsimp only; split <;> simp

@[simp] theorem Dev.toBacklog_timeBase (d : Dev) (c : Cmd) : (Dev.toBacklog d c).timeBase = d.timeBase := by
  unfold Dev.toBacklog; dsimp only; split <;> simp

@[simp] theorem Dev.toBacklog_halted (d : Dev) (c : Cmd) : (Dev.toBacklog d c).halted = d.halted := by
  unfold Dev.toBacklog; dsimp only; split <;> simp

@[simp] theorem Dev.toBacklog_reacts (d : Dev) (c : Cmd) : (Dev.toBacklog d c).reacts = d.reacts := by
  unfold Dev.toBacklog; dsimp only; split <;> simp

@[simp] theorem Dev.post_hostBad (d : Dev) (c : Cmd) : (Dev.post d c).hostBad = d.hostBad := by
  unfold Dev.post; dsimp only; (repeat' split) <;> simp

@[simp] theorem Dev.post_maint (d : Dev) (c : Cmd) : (Dev.post d c).maint = d.maint := by
  unfold Dev.post; dsimp only; (repeat' split) <;> simp

@[simp] theorem Dev.post_thr (d : Dev) (c : Cmd) : (Dev.post d c).thr = d.thr := by
  unfold Dev.post; dsimp only; (repeat' split) <;> simp

@[simp] theorem Dev.post_drives (d : Dev) (c : Cmd) : (Dev.post d c).drives = d.drives := by
  unfold Dev.post; dsimp only; (repeat' split) <;> simp

@[simp] theorem Dev.post_bifold (d : Dev) (c : Cmd) : (Dev.post d c).bifold = d.bifold := by
  unfold Dev.post; dsimp only; (repeat' split) <;> simp

@[simp] theorem Dev.post_dig (d : Dev) (c : Cmd) : (Dev.post d c).dig = d.dig := by
  unfold Dev.post; dsimp only; (repeat' split) <;> simp

@[simp] theorem Dev.post_hinge (d : Dev) (c : Cmd) : (Dev.post d c).hinge = d.hinge := by
  unfold Dev.post; dsimp only; (repeat' split) <;> simp

@[simp] theorem Dev.post_louvre (d : Dev) (c : Cmd) : (Dev.post d c).louvre = d.louvre := by
  unfold Dev.post; dsimp only; (repeat' split) <;> simp

@[simp] theorem Dev.post_net (d : Dev) (c : Cmd) : (Dev.post d c).net = d.net := by
  unfold Dev.post; dsimp only; (repeat' split) <;> simp

@[simp] theorem Dev.post_sash (d : Dev) (c : Cmd) : (Dev.post d c).sash = d.sash := by
  unfold Dev.post; dsimp only; (repeat' split) <;> simp

@[simp] theorem Dev.post_life (d : Dev) (c : Cmd) : (Dev.post d c).life = d.life := by
  unfold Dev.post; dsimp only; (repeat' split) <;> simp

@[simp] theorem Dev.post_tap (d : Dev) (c : Cmd) : (Dev.post d c).tap = d.tap := by
  unfold Dev.post; dsimp only; (repeat' split) <;> simp

@[simp] theorem Dev.post_ordering288 (d : Dev) (c : Cmd) : (Dev.post d c).ordering288 = d.ordering288 := by
  unfold Dev.post; dsimp only; (repeat' split) <;> simp

@[simp] theorem Dev.post_timeBase (d : Dev) (c : Cmd) : (Dev.post d c).timeBase = d.timeBase := by
  unfold Dev.post; dsimp only; (repeat' split) <;> simp

@[simp] theorem Dev.post_halted (d : Dev) (c : Cmd) : (Dev.post d c).halted = d.halted := by
  unfold Dev.post; dsimp only; (repeat' split) <;> simp

@[simp] theorem Dev.post_reacts (d : Dev) (c : Cmd) : (Dev.post d c).reacts = d.reacts := by
  unfold Dev.post; dsimp only; (repeat' split) <;> simp

@[simp] theorem Dev.completionPost_hostBad (d : Dev) (id : ℕ) : (Dev.completionPost d id).hostBad = d.hostBad := by
  unfold Dev.completionPost; (split <;> try rfl); split <;> simp

@[simp] theorem Dev.completionPost_maint (d : Dev) (id : ℕ) : (Dev.completionPost d id).maint = d.maint := by
  unfold Dev.completionPost; (split <;> try rfl); split <;> simp

@[simp] theorem Dev.completionPost_thr (d : Dev) (id : ℕ) : (Dev.completionPost d id).thr = d.thr := by
  unfold Dev.completionPost; (split <;> try rfl); split <;> simp

@[simp] theorem Dev.completionPost_drives (d : Dev) (id : ℕ) : (Dev.completionPost d id).drives = d.drives := by
  unfold Dev.completionPost; (split <;> try rfl); split <;> simp

@[simp] theorem Dev.completionPost_bifold (d : Dev) (id : ℕ) : (Dev.completionPost d id).bifold = d.bifold := by
  unfold Dev.completionPost; (split <;> try rfl); split <;> simp

@[simp] theorem Dev.completionPost_dig (d : Dev) (id : ℕ) : (Dev.completionPost d id).dig = d.dig := by
  unfold Dev.completionPost; (split <;> try rfl); split <;> simp

@[simp] theorem Dev.completionPost_hinge (d : Dev) (id : ℕ) : (Dev.completionPost d id).hinge = d.hinge := by
  unfold Dev.completionPost; (split <;> try rfl); split <;> simp

@[simp] theorem Dev.completionPost_louvre (d : Dev) (id : ℕ) : (Dev.completionPost d id).louvre = d.louvre := by
  unfold Dev.completionPost; (split <;> try rfl); split <;> simp

@[simp] theorem Dev.completionPost_net (d : Dev) (id : ℕ) : (Dev.completionPost d id).net = d.net := by
  unfold Dev.completionPost; (split <;> try rfl); split <;> simp

@[simp] theorem Dev.completionPost_sash (d : Dev) (id : ℕ) : (Dev.completionPost d id).sash = d.sash := by
  unfold Dev.completionPost; (split <;> try rfl); split <;> simp

@[simp] theorem Dev.completionPost_life (d : Dev) (id : ℕ) : (Dev.completionPost d id).life = d.life := by
  unfold Dev.completionPost; (split <;> try rfl); split <;> simp

@[simp] theorem Dev.completionPost_tap (d : Dev) (id : ℕ) : (Dev.completionPost d id).tap = d.tap := by
  unfold Dev.completionPost; (split <;> try rfl); split <;> simp

@[simp] theorem Dev.completionPost_ordering288 (d : Dev) (id : ℕ) : (Dev.completionPost d id).ordering288 =
    d.ordering288 := by
  unfold Dev.completionPost; (split <;> try rfl); split <;> simp

@[simp] theorem Dev.completionPost_timeBase (d : Dev) (id : ℕ) : (Dev.completionPost d id).timeBase = d.timeBase := by
  unfold Dev.completionPost; (split <;> try rfl); split <;> simp

@[simp] theorem Dev.completionPost_halted (d : Dev) (id : ℕ) : (Dev.completionPost d id).halted = d.halted := by
  unfold Dev.completionPost; (split <;> try rfl); split <;> simp

@[simp] theorem Dev.completionPost_reacts (d : Dev) (id : ℕ) : (Dev.completionPost d id).reacts = d.reacts := by
  unfold Dev.completionPost; (split <;> try rfl); split <;> simp

@[simp] theorem Dev.badDoorbell_host (d : Dev) : (Dev.badDoorbell d).host = d.host := by
  unfold Dev.badDoorbell; (try dsimp only); (repeat' split) <;> simp [foldl_host]

@[simp] theorem Dev.badDoorbell_hostBad (d : Dev) : (Dev.badDoorbell d).hostBad = d.hostBad := by
  unfold Dev.badDoorbell; (try dsimp only); (repeat' split) <;> simp [foldl_hostBad]

@[simp] theorem Dev.badDoorbell_jamb (d : Dev) : (Dev.badDoorbell d).jamb = d.jamb := by
  unfold Dev.badDoorbell; (try dsimp only); (repeat' split) <;> simp [foldl_jamb]

@[simp] theorem Dev.badDoorbell_mem (d : Dev) : (Dev.badDoorbell d).mem = d.mem := by
  unfold Dev.badDoorbell; (try dsimp only); (repeat' split) <;> simp [foldl_mem]

@[simp] theorem Dev.badDoorbell_sill (d : Dev) : (Dev.badDoorbell d).sill = d.sill := by
  unfold Dev.badDoorbell; (try dsimp only); (repeat' split) <;> simp [foldl_sill]

@[simp] theorem Dev.badDoorbell_maint (d : Dev) : (Dev.badDoorbell d).maint = d.maint := by
  unfold Dev.badDoorbell; (try dsimp only); (repeat' split) <;> simp [foldl_maint]

@[simp] theorem Dev.badDoorbell_thr (d : Dev) : (Dev.badDoorbell d).thr = d.thr := by
  unfold Dev.badDoorbell; (try dsimp only); (repeat' split) <;> simp [foldl_thr]

@[simp] theorem Dev.badDoorbell_drives (d : Dev) : (Dev.badDoorbell d).drives = d.drives := by
  unfold Dev.badDoorbell; (try dsimp only); (repeat' split) <;> simp [foldl_drives]

@[simp] theorem Dev.badDoorbell_bifold (d : Dev) : (Dev.badDoorbell d).bifold = d.bifold := by
  unfold Dev.badDoorbell; (try dsimp only); (repeat' split) <;> simp [foldl_bifold]

@[simp] theorem Dev.badDoorbell_dig (d : Dev) : (Dev.badDoorbell d).dig = d.dig := by
  unfold Dev.badDoorbell; (try dsimp only); (repeat' split) <;> simp [foldl_dig]

@[simp] theorem Dev.badDoorbell_hinge (d : Dev) : (Dev.badDoorbell d).hinge = d.hinge := by
  unfold Dev.badDoorbell; (try dsimp only); (repeat' split) <;> simp [foldl_hinge]

@[simp] theorem Dev.badDoorbell_pipes (d : Dev) : (Dev.badDoorbell d).pipes = d.pipes := by
  unfold Dev.badDoorbell; (try dsimp only); (repeat' split) <;> simp [foldl_pipes]

@[simp] theorem Dev.badDoorbell_louvre (d : Dev) : (Dev.badDoorbell d).louvre = d.louvre := by
  unfold Dev.badDoorbell; (try dsimp only); (repeat' split) <;> simp [foldl_louvre]

@[simp] theorem Dev.badDoorbell_net (d : Dev) : (Dev.badDoorbell d).net = d.net := by
  unfold Dev.badDoorbell; (try dsimp only); (repeat' split) <;> simp [foldl_net]

@[simp] theorem Dev.badDoorbell_sash (d : Dev) : (Dev.badDoorbell d).sash = d.sash := by
  unfold Dev.badDoorbell; (try dsimp only); (repeat' split) <;> simp [foldl_sash]

@[simp] theorem Dev.badDoorbell_life (d : Dev) : (Dev.badDoorbell d).life = d.life := by
  unfold Dev.badDoorbell; (try dsimp only); (repeat' split) <;> simp [foldl_life]

@[simp] theorem Dev.badDoorbell_tap (d : Dev) : (Dev.badDoorbell d).tap = d.tap := by
  unfold Dev.badDoorbell; (try dsimp only); (repeat' split) <;> simp [foldl_tap]

@[simp] theorem Dev.badDoorbell_ordering288 (d : Dev) : (Dev.badDoorbell d).ordering288 = d.ordering288 := by
  unfold Dev.badDoorbell; (try dsimp only); (repeat' split) <;> simp [foldl_ordering288]

@[simp] theorem Dev.badDoorbell_timeBase (d : Dev) : (Dev.badDoorbell d).timeBase = d.timeBase := by
  unfold Dev.badDoorbell; (try dsimp only); (repeat' split) <;> simp [foldl_timeBase]

@[simp] theorem Dev.badDoorbell_halted (d : Dev) : (Dev.badDoorbell d).halted = d.halted := by
  unfold Dev.badDoorbell; (try dsimp only); (repeat' split) <;> simp [foldl_halted]

@[simp] theorem Dev.badDoorbell_reacts (d : Dev) : (Dev.badDoorbell d).reacts = d.reacts := by
  unfold Dev.badDoorbell; (try dsimp only); (repeat' split) <;> simp [foldl_reacts]

@[simp] theorem Dev.badDoorbell_out (d : Dev) : (Dev.badDoorbell d).out = d.out := by
  unfold Dev.badDoorbell; (try dsimp only); (repeat' split) <;> simp [foldl_out]

@[simp] theorem Dev.badDoorbell_free (d : Dev) : (Dev.badDoorbell d).free = d.free := by
  unfold Dev.badDoorbell; (try dsimp only); (repeat' split) <;> simp [foldl_free]

@[simp] theorem Dev.countPoison_flds (d : Dev) (status : ℕ) : (Dev.countPoison d status).flds = d.flds := by
  unfold Dev.countPoison; (try dsimp only); (repeat' split) <;> simp [foldl_flds]

@[simp] theorem Dev.countPoison_host (d : Dev) (status : ℕ) : (Dev.countPoison d status).host = d.host := by
  unfold Dev.countPoison; (try dsimp only); (repeat' split) <;> simp [foldl_host]

@[simp] theorem Dev.countPoison_hostBad (d : Dev) (status : ℕ) : (Dev.countPoison d status).hostBad = d.hostBad := by
  unfold Dev.countPoison; (try dsimp only); (repeat' split) <;> simp [foldl_hostBad]

@[simp] theorem Dev.countPoison_jamb (d : Dev) (status : ℕ) : (Dev.countPoison d status).jamb = d.jamb := by
  unfold Dev.countPoison; (try dsimp only); (repeat' split) <;> simp [foldl_jamb]

@[simp] theorem Dev.countPoison_mem (d : Dev) (status : ℕ) : (Dev.countPoison d status).mem = d.mem := by
  unfold Dev.countPoison; (try dsimp only); (repeat' split) <;> simp [foldl_mem]

@[simp] theorem Dev.countPoison_sill (d : Dev) (status : ℕ) : (Dev.countPoison d status).sill = d.sill := by
  unfold Dev.countPoison; (try dsimp only); (repeat' split) <;> simp [foldl_sill]

@[simp] theorem Dev.countPoison_maint (d : Dev) (status : ℕ) : (Dev.countPoison d status).maint = d.maint := by
  unfold Dev.countPoison; (try dsimp only); (repeat' split) <;> simp [foldl_maint]

@[simp] theorem Dev.countPoison_thr (d : Dev) (status : ℕ) : (Dev.countPoison d status).thr = d.thr := by
  unfold Dev.countPoison; (try dsimp only); (repeat' split) <;> simp [foldl_thr]

@[simp] theorem Dev.countPoison_drives (d : Dev) (status : ℕ) : (Dev.countPoison d status).drives = d.drives := by
  unfold Dev.countPoison; (try dsimp only); (repeat' split) <;> simp [foldl_drives]

@[simp] theorem Dev.countPoison_bifold (d : Dev) (status : ℕ) : (Dev.countPoison d status).bifold = d.bifold := by
  unfold Dev.countPoison; (try dsimp only); (repeat' split) <;> simp [foldl_bifold]

@[simp] theorem Dev.countPoison_dig (d : Dev) (status : ℕ) : (Dev.countPoison d status).dig = d.dig := by
  unfold Dev.countPoison; (try dsimp only); (repeat' split) <;> simp [foldl_dig]

@[simp] theorem Dev.countPoison_hinge (d : Dev) (status : ℕ) : (Dev.countPoison d status).hinge = d.hinge := by
  unfold Dev.countPoison; (try dsimp only); (repeat' split) <;> simp [foldl_hinge]

@[simp] theorem Dev.countPoison_pipes (d : Dev) (status : ℕ) : (Dev.countPoison d status).pipes = d.pipes := by
  unfold Dev.countPoison; (try dsimp only); (repeat' split) <;> simp [foldl_pipes]

@[simp] theorem Dev.countPoison_louvre (d : Dev) (status : ℕ) : (Dev.countPoison d status).louvre = d.louvre := by
  unfold Dev.countPoison; (try dsimp only); (repeat' split) <;> simp [foldl_louvre]

@[simp] theorem Dev.countPoison_net (d : Dev) (status : ℕ) : (Dev.countPoison d status).net = d.net := by
  unfold Dev.countPoison; (try dsimp only); (repeat' split) <;> simp [foldl_net]

@[simp] theorem Dev.countPoison_sash (d : Dev) (status : ℕ) : (Dev.countPoison d status).sash = d.sash := by
  unfold Dev.countPoison; (try dsimp only); (repeat' split) <;> simp [foldl_sash]

@[simp] theorem Dev.countPoison_life (d : Dev) (status : ℕ) : (Dev.countPoison d status).life = d.life := by
  unfold Dev.countPoison; (try dsimp only); (repeat' split) <;> simp [foldl_life]

@[simp] theorem Dev.countPoison_tap (d : Dev) (status : ℕ) : (Dev.countPoison d status).tap = d.tap := by
  unfold Dev.countPoison; (try dsimp only); (repeat' split) <;> simp [foldl_tap]

@[simp] theorem Dev.countPoison_ordering288 (d : Dev) (status : ℕ) : (Dev.countPoison d status).ordering288 =
    d.ordering288 := by
  unfold Dev.countPoison; (try dsimp only); (repeat' split) <;> simp [foldl_ordering288]

@[simp] theorem Dev.countPoison_timeBase (d : Dev) (status : ℕ) : (Dev.countPoison d status).timeBase = d.timeBase := by
  unfold Dev.countPoison; (try dsimp only); (repeat' split) <;> simp [foldl_timeBase]

@[simp] theorem Dev.countPoison_halted (d : Dev) (status : ℕ) : (Dev.countPoison d status).halted = d.halted := by
  unfold Dev.countPoison; (try dsimp only); (repeat' split) <;> simp [foldl_halted]

@[simp] theorem Dev.countPoison_reacts (d : Dev) (status : ℕ) : (Dev.countPoison d status).reacts = d.reacts := by
  unfold Dev.countPoison; (try dsimp only); (repeat' split) <;> simp [foldl_reacts]

@[simp] theorem Dev.countPoison_out (d : Dev) (status : ℕ) : (Dev.countPoison d status).out = d.out := by
  unfold Dev.countPoison; (try dsimp only); (repeat' split) <;> simp [foldl_out]

@[simp] theorem Dev.countPoison_free (d : Dev) (status : ℕ) : (Dev.countPoison d status).free = d.free := by
  unfold Dev.countPoison; (try dsimp only); (repeat' split) <;> simp [foldl_free]

@[simp] theorem Dev.finish_flds (d : Dev) (id : ℕ) (status : ℕ) (result : Bytes) (len : ℕ) : (Dev.finish d id status
    result len).flds = d.flds := by
  unfold Dev.finish; (try dsimp only); (repeat' split) <;> simp [foldl_flds]

@[simp] theorem Dev.finish_host (d : Dev) (id : ℕ) (status : ℕ) (result : Bytes) (len : ℕ) : (Dev.finish d id status
    result len).host = d.host := by
  unfold Dev.finish; (try dsimp only); (repeat' split) <;> simp [foldl_host]

@[simp] theorem Dev.finish_hostBad (d : Dev) (id : ℕ) (status : ℕ) (result : Bytes) (len : ℕ) : (Dev.finish d id
    status result len).hostBad = d.hostBad := by
  unfold Dev.finish; (try dsimp only); (repeat' split) <;> simp [foldl_hostBad]

@[simp] theorem Dev.finish_mem (d : Dev) (id : ℕ) (status : ℕ) (result : Bytes) (len : ℕ) : (Dev.finish d id status
    result len).mem = d.mem := by
  unfold Dev.finish; (try dsimp only); (repeat' split) <;> simp [foldl_mem]

@[simp] theorem Dev.finish_sill (d : Dev) (id : ℕ) (status : ℕ) (result : Bytes) (len : ℕ) : (Dev.finish d id status
    result len).sill = d.sill := by
  unfold Dev.finish; (try dsimp only); (repeat' split) <;> simp [foldl_sill]

@[simp] theorem Dev.finish_maint (d : Dev) (id : ℕ) (status : ℕ) (result : Bytes) (len : ℕ) : (Dev.finish d id status
    result len).maint = d.maint := by
  unfold Dev.finish; (try dsimp only); (repeat' split) <;> simp [foldl_maint]

@[simp] theorem Dev.finish_thr (d : Dev) (id : ℕ) (status : ℕ) (result : Bytes) (len : ℕ) : (Dev.finish d id status
    result len).thr = d.thr := by
  unfold Dev.finish; (try dsimp only); (repeat' split) <;> simp [foldl_thr]

@[simp] theorem Dev.finish_drives (d : Dev) (id : ℕ) (status : ℕ) (result : Bytes) (len : ℕ) : (Dev.finish d id status
    result len).drives = d.drives := by
  unfold Dev.finish; (try dsimp only); (repeat' split) <;> simp [foldl_drives]

@[simp] theorem Dev.finish_bifold (d : Dev) (id : ℕ) (status : ℕ) (result : Bytes) (len : ℕ) : (Dev.finish d id status
    result len).bifold = d.bifold := by
  unfold Dev.finish; (try dsimp only); (repeat' split) <;> simp [foldl_bifold]

@[simp] theorem Dev.finish_dig (d : Dev) (id : ℕ) (status : ℕ) (result : Bytes) (len : ℕ) : (Dev.finish d id status
    result len).dig = d.dig := by
  unfold Dev.finish; (try dsimp only); (repeat' split) <;> simp [foldl_dig]

@[simp] theorem Dev.finish_hinge (d : Dev) (id : ℕ) (status : ℕ) (result : Bytes) (len : ℕ) : (Dev.finish d id status
    result len).hinge = d.hinge := by
  unfold Dev.finish; (try dsimp only); (repeat' split) <;> simp [foldl_hinge]

@[simp] theorem Dev.finish_pipes (d : Dev) (id : ℕ) (status : ℕ) (result : Bytes) (len : ℕ) : (Dev.finish d id status
    result len).pipes = d.pipes := by
  unfold Dev.finish; (try dsimp only); (repeat' split) <;> simp [foldl_pipes]

@[simp] theorem Dev.finish_louvre (d : Dev) (id : ℕ) (status : ℕ) (result : Bytes) (len : ℕ) : (Dev.finish d id status
    result len).louvre = d.louvre := by
  unfold Dev.finish; (try dsimp only); (repeat' split) <;> simp [foldl_louvre]

@[simp] theorem Dev.finish_net (d : Dev) (id : ℕ) (status : ℕ) (result : Bytes) (len : ℕ) : (Dev.finish d id status
    result len).net = d.net := by
  unfold Dev.finish; (try dsimp only); (repeat' split) <;> simp [foldl_net]

@[simp] theorem Dev.finish_sash (d : Dev) (id : ℕ) (status : ℕ) (result : Bytes) (len : ℕ) : (Dev.finish d id status
    result len).sash = d.sash := by
  unfold Dev.finish; (try dsimp only); (repeat' split) <;> simp [foldl_sash]

@[simp] theorem Dev.finish_life (d : Dev) (id : ℕ) (status : ℕ) (result : Bytes) (len : ℕ) : (Dev.finish d id status
    result len).life = d.life := by
  unfold Dev.finish; (try dsimp only); (repeat' split) <;> simp [foldl_life]

@[simp] theorem Dev.finish_tap (d : Dev) (id : ℕ) (status : ℕ) (result : Bytes) (len : ℕ) : (Dev.finish d id status
    result len).tap = d.tap := by
  unfold Dev.finish; (try dsimp only); (repeat' split) <;> simp [foldl_tap]

@[simp] theorem Dev.finish_ordering288 (d : Dev) (id : ℕ) (status : ℕ) (result : Bytes) (len : ℕ) : (Dev.finish d id
    status result len).ordering288 = d.ordering288 := by
  unfold Dev.finish; (try dsimp only); (repeat' split) <;> simp [foldl_ordering288]

@[simp] theorem Dev.finish_timeBase (d : Dev) (id : ℕ) (status : ℕ) (result : Bytes) (len : ℕ) : (Dev.finish d id
    status result len).timeBase = d.timeBase := by
  unfold Dev.finish; (try dsimp only); (repeat' split) <;> simp [foldl_timeBase]

@[simp] theorem Dev.finish_halted (d : Dev) (id : ℕ) (status : ℕ) (result : Bytes) (len : ℕ) : (Dev.finish d id status
    result len).halted = d.halted := by
  unfold Dev.finish; (try dsimp only); (repeat' split) <;> simp [foldl_halted]

@[simp] theorem Dev.finish_reacts (d : Dev) (id : ℕ) (status : ℕ) (result : Bytes) (len : ℕ) : (Dev.finish d id status
    result len).reacts = d.reacts := by
  unfold Dev.finish; (try dsimp only); (repeat' split) <;> simp [foldl_reacts]

@[simp] theorem Dev.finish_out (d : Dev) (id : ℕ) (status : ℕ) (result : Bytes) (len : ℕ) : (Dev.finish d id status
    result len).out = d.out := by
  unfold Dev.finish; (try dsimp only); (repeat' split) <;> simp [foldl_out]

@[simp] theorem Dev.finish_free (d : Dev) (id : ℕ) (status : ℕ) (result : Bytes) (len : ℕ) : (Dev.finish d id status
    result len).free = d.free := by
  unfold Dev.finish; (try dsimp only); (repeat' split) <;> simp [foldl_free]

@[simp] theorem Dev.markDispatched_flds (d : Dev) (id : ℕ) : (Dev.markDispatched d id).flds = d.flds := by
  unfold Dev.markDispatched; (try dsimp only); (repeat' split) <;> simp [foldl_flds]

@[simp] theorem Dev.markDispatched_objs (d : Dev) (id : ℕ) : (Dev.markDispatched d id).objs = d.objs := by
  unfold Dev.markDispatched; (try dsimp only); (repeat' split) <;> simp [foldl_objs]

@[simp] theorem Dev.markDispatched_host (d : Dev) (id : ℕ) : (Dev.markDispatched d id).host = d.host := by
  unfold Dev.markDispatched; (try dsimp only); (repeat' split) <;> simp [foldl_host]

@[simp] theorem Dev.markDispatched_hostBad (d : Dev) (id : ℕ) : (Dev.markDispatched d id).hostBad = d.hostBad := by
  unfold Dev.markDispatched; (try dsimp only); (repeat' split) <;> simp [foldl_hostBad]

@[simp] theorem Dev.markDispatched_mem (d : Dev) (id : ℕ) : (Dev.markDispatched d id).mem = d.mem := by
  unfold Dev.markDispatched; (try dsimp only); (repeat' split) <;> simp [foldl_mem]

@[simp] theorem Dev.markDispatched_sill (d : Dev) (id : ℕ) : (Dev.markDispatched d id).sill = d.sill := by
  unfold Dev.markDispatched; (try dsimp only); (repeat' split) <;> simp [foldl_sill]

@[simp] theorem Dev.markDispatched_maint (d : Dev) (id : ℕ) : (Dev.markDispatched d id).maint = d.maint := by
  unfold Dev.markDispatched; (try dsimp only); (repeat' split) <;> simp [foldl_maint]

@[simp] theorem Dev.markDispatched_thr (d : Dev) (id : ℕ) : (Dev.markDispatched d id).thr = d.thr := by
  unfold Dev.markDispatched; (try dsimp only); (repeat' split) <;> simp [foldl_thr]

@[simp] theorem Dev.markDispatched_drives (d : Dev) (id : ℕ) : (Dev.markDispatched d id).drives = d.drives := by
  unfold Dev.markDispatched; (try dsimp only); (repeat' split) <;> simp [foldl_drives]

@[simp] theorem Dev.markDispatched_bifold (d : Dev) (id : ℕ) : (Dev.markDispatched d id).bifold = d.bifold := by
  unfold Dev.markDispatched; (try dsimp only); (repeat' split) <;> simp [foldl_bifold]

@[simp] theorem Dev.markDispatched_dig (d : Dev) (id : ℕ) : (Dev.markDispatched d id).dig = d.dig := by
  unfold Dev.markDispatched; (try dsimp only); (repeat' split) <;> simp [foldl_dig]

@[simp] theorem Dev.markDispatched_hinge (d : Dev) (id : ℕ) : (Dev.markDispatched d id).hinge = d.hinge := by
  unfold Dev.markDispatched; (try dsimp only); (repeat' split) <;> simp [foldl_hinge]

@[simp] theorem Dev.markDispatched_pipes (d : Dev) (id : ℕ) : (Dev.markDispatched d id).pipes = d.pipes := by
  unfold Dev.markDispatched; (try dsimp only); (repeat' split) <;> simp [foldl_pipes]

@[simp] theorem Dev.markDispatched_louvre (d : Dev) (id : ℕ) : (Dev.markDispatched d id).louvre = d.louvre := by
  unfold Dev.markDispatched; (try dsimp only); (repeat' split) <;> simp [foldl_louvre]

@[simp] theorem Dev.markDispatched_net (d : Dev) (id : ℕ) : (Dev.markDispatched d id).net = d.net := by
  unfold Dev.markDispatched; (try dsimp only); (repeat' split) <;> simp [foldl_net]

@[simp] theorem Dev.markDispatched_sash (d : Dev) (id : ℕ) : (Dev.markDispatched d id).sash = d.sash := by
  unfold Dev.markDispatched; (try dsimp only); (repeat' split) <;> simp [foldl_sash]

@[simp] theorem Dev.markDispatched_life (d : Dev) (id : ℕ) : (Dev.markDispatched d id).life = d.life := by
  unfold Dev.markDispatched; (try dsimp only); (repeat' split) <;> simp [foldl_life]

@[simp] theorem Dev.markDispatched_tap (d : Dev) (id : ℕ) : (Dev.markDispatched d id).tap = d.tap := by
  unfold Dev.markDispatched; (try dsimp only); (repeat' split) <;> simp [foldl_tap]

@[simp] theorem Dev.markDispatched_ordering288 (d : Dev) (id : ℕ) : (Dev.markDispatched d id).ordering288 =
    d.ordering288 := by
  unfold Dev.markDispatched; (try dsimp only); (repeat' split) <;> simp [foldl_ordering288]

@[simp] theorem Dev.markDispatched_timeBase (d : Dev) (id : ℕ) : (Dev.markDispatched d id).timeBase = d.timeBase := by
  unfold Dev.markDispatched; (try dsimp only); (repeat' split) <;> simp [foldl_timeBase]

@[simp] theorem Dev.markDispatched_halted (d : Dev) (id : ℕ) : (Dev.markDispatched d id).halted = d.halted := by
  unfold Dev.markDispatched; (try dsimp only); (repeat' split) <;> simp [foldl_halted]

@[simp] theorem Dev.markDispatched_reacts (d : Dev) (id : ℕ) : (Dev.markDispatched d id).reacts = d.reacts := by
  unfold Dev.markDispatched; (try dsimp only); (repeat' split) <;> simp [foldl_reacts]

@[simp] theorem Dev.markDispatched_out (d : Dev) (id : ℕ) : (Dev.markDispatched d id).out = d.out := by
  unfold Dev.markDispatched; (try dsimp only); (repeat' split) <;> simp [foldl_out]

@[simp] theorem Dev.markDispatched_free (d : Dev) (id : ℕ) : (Dev.markDispatched d id).free = d.free := by
  unfold Dev.markDispatched; (try dsimp only); (repeat' split) <;> simp [foldl_free]

@[simp] theorem Dev.qctlReject_objs (d : Dev) : (Dev.qctlReject d).objs = d.objs := by
  unfold Dev.qctlReject; (try dsimp only); (repeat' split) <;> simp [foldl_objs]

@[simp] theorem Dev.qctlReject_host (d : Dev) : (Dev.qctlReject d).host = d.host := by
  unfold Dev.qctlReject; (try dsimp only); (repeat' split) <;> simp [foldl_host]

@[simp] theorem Dev.qctlReject_hostBad (d : Dev) : (Dev.qctlReject d).hostBad = d.hostBad := by
  unfold Dev.qctlReject; (try dsimp only); (repeat' split) <;> simp [foldl_hostBad]

@[simp] theorem Dev.qctlReject_jamb (d : Dev) : (Dev.qctlReject d).jamb = d.jamb := by
  unfold Dev.qctlReject; (try dsimp only); (repeat' split) <;> simp [foldl_jamb]

@[simp] theorem Dev.qctlReject_mem (d : Dev) : (Dev.qctlReject d).mem = d.mem := by
  unfold Dev.qctlReject; (try dsimp only); (repeat' split) <;> simp [foldl_mem]

@[simp] theorem Dev.qctlReject_sill (d : Dev) : (Dev.qctlReject d).sill = d.sill := by
  unfold Dev.qctlReject; (try dsimp only); (repeat' split) <;> simp [foldl_sill]

@[simp] theorem Dev.qctlReject_maint (d : Dev) : (Dev.qctlReject d).maint = d.maint := by
  unfold Dev.qctlReject; (try dsimp only); (repeat' split) <;> simp [foldl_maint]

@[simp] theorem Dev.qctlReject_thr (d : Dev) : (Dev.qctlReject d).thr = d.thr := by
  unfold Dev.qctlReject; (try dsimp only); (repeat' split) <;> simp [foldl_thr]

@[simp] theorem Dev.qctlReject_drives (d : Dev) : (Dev.qctlReject d).drives = d.drives := by
  unfold Dev.qctlReject; (try dsimp only); (repeat' split) <;> simp [foldl_drives]

@[simp] theorem Dev.qctlReject_bifold (d : Dev) : (Dev.qctlReject d).bifold = d.bifold := by
  unfold Dev.qctlReject; (try dsimp only); (repeat' split) <;> simp [foldl_bifold]

@[simp] theorem Dev.qctlReject_dig (d : Dev) : (Dev.qctlReject d).dig = d.dig := by
  unfold Dev.qctlReject; (try dsimp only); (repeat' split) <;> simp [foldl_dig]

@[simp] theorem Dev.qctlReject_hinge (d : Dev) : (Dev.qctlReject d).hinge = d.hinge := by
  unfold Dev.qctlReject; (try dsimp only); (repeat' split) <;> simp [foldl_hinge]

@[simp] theorem Dev.qctlReject_pipes (d : Dev) : (Dev.qctlReject d).pipes = d.pipes := by
  unfold Dev.qctlReject; (try dsimp only); (repeat' split) <;> simp [foldl_pipes]

@[simp] theorem Dev.qctlReject_louvre (d : Dev) : (Dev.qctlReject d).louvre = d.louvre := by
  unfold Dev.qctlReject; (try dsimp only); (repeat' split) <;> simp [foldl_louvre]

@[simp] theorem Dev.qctlReject_net (d : Dev) : (Dev.qctlReject d).net = d.net := by
  unfold Dev.qctlReject; (try dsimp only); (repeat' split) <;> simp [foldl_net]

@[simp] theorem Dev.qctlReject_sash (d : Dev) : (Dev.qctlReject d).sash = d.sash := by
  unfold Dev.qctlReject; (try dsimp only); (repeat' split) <;> simp [foldl_sash]

@[simp] theorem Dev.qctlReject_life (d : Dev) : (Dev.qctlReject d).life = d.life := by
  unfold Dev.qctlReject; (try dsimp only); (repeat' split) <;> simp [foldl_life]

@[simp] theorem Dev.qctlReject_tap (d : Dev) : (Dev.qctlReject d).tap = d.tap := by
  unfold Dev.qctlReject; (try dsimp only); (repeat' split) <;> simp [foldl_tap]

@[simp] theorem Dev.qctlReject_ordering288 (d : Dev) : (Dev.qctlReject d).ordering288 = d.ordering288 := by
  unfold Dev.qctlReject; (try dsimp only); (repeat' split) <;> simp [foldl_ordering288]

@[simp] theorem Dev.qctlReject_timeBase (d : Dev) : (Dev.qctlReject d).timeBase = d.timeBase := by
  unfold Dev.qctlReject; (try dsimp only); (repeat' split) <;> simp [foldl_timeBase]

@[simp] theorem Dev.qctlReject_halted (d : Dev) : (Dev.qctlReject d).halted = d.halted := by
  unfold Dev.qctlReject; (try dsimp only); (repeat' split) <;> simp [foldl_halted]

@[simp] theorem Dev.qctlReject_reacts (d : Dev) : (Dev.qctlReject d).reacts = d.reacts := by
  unfold Dev.qctlReject; (try dsimp only); (repeat' split) <;> simp [foldl_reacts]

@[simp] theorem Dev.qctlReject_out (d : Dev) : (Dev.qctlReject d).out = d.out := by
  unfold Dev.qctlReject; (try dsimp only); (repeat' split) <;> simp [foldl_out]

@[simp] theorem Dev.qctlReject_free (d : Dev) : (Dev.qctlReject d).free = d.free := by
  unfold Dev.qctlReject; (try dsimp only); (repeat' split) <;> simp [foldl_free]

@[simp] theorem Dev.fetchFail_hostBad (d : Dev) (q : ℕ) (status : ℕ) (tag : ℕ) : (Dev.fetchFail d q status
    tag).hostBad = d.hostBad := by
  unfold Dev.fetchFail; dsimp only; simp

@[simp] theorem Dev.fetchFail_maint (d : Dev) (q : ℕ) (status : ℕ) (tag : ℕ) : (Dev.fetchFail d q status tag).maint =
    d.maint := by
  unfold Dev.fetchFail; dsimp only; simp

@[simp] theorem Dev.fetchFail_thr (d : Dev) (q : ℕ) (status : ℕ) (tag : ℕ) : (Dev.fetchFail d q status tag).thr =
    d.thr := by
  unfold Dev.fetchFail; dsimp only; simp

@[simp] theorem Dev.fetchFail_drives (d : Dev) (q : ℕ) (status : ℕ) (tag : ℕ) : (Dev.fetchFail d q status tag).drives
    = d.drives := by
  unfold Dev.fetchFail; dsimp only; simp

@[simp] theorem Dev.fetchFail_bifold (d : Dev) (q : ℕ) (status : ℕ) (tag : ℕ) : (Dev.fetchFail d q status tag).bifold
    = d.bifold := by
  unfold Dev.fetchFail; dsimp only; simp

@[simp] theorem Dev.fetchFail_dig (d : Dev) (q : ℕ) (status : ℕ) (tag : ℕ) : (Dev.fetchFail d q status tag).dig =
    d.dig := by
  unfold Dev.fetchFail; dsimp only; simp

@[simp] theorem Dev.fetchFail_hinge (d : Dev) (q : ℕ) (status : ℕ) (tag : ℕ) : (Dev.fetchFail d q status tag).hinge =
    d.hinge := by
  unfold Dev.fetchFail; dsimp only; simp

@[simp] theorem Dev.fetchFail_louvre (d : Dev) (q : ℕ) (status : ℕ) (tag : ℕ) : (Dev.fetchFail d q status tag).louvre
    = d.louvre := by
  unfold Dev.fetchFail; dsimp only; simp

@[simp] theorem Dev.fetchFail_net (d : Dev) (q : ℕ) (status : ℕ) (tag : ℕ) : (Dev.fetchFail d q status tag).net =
    d.net := by
  unfold Dev.fetchFail; dsimp only; simp

@[simp] theorem Dev.fetchFail_sash (d : Dev) (q : ℕ) (status : ℕ) (tag : ℕ) : (Dev.fetchFail d q status tag).sash =
    d.sash := by
  unfold Dev.fetchFail; dsimp only; simp

@[simp] theorem Dev.fetchFail_life (d : Dev) (q : ℕ) (status : ℕ) (tag : ℕ) : (Dev.fetchFail d q status tag).life =
    d.life := by
  unfold Dev.fetchFail; dsimp only; simp

@[simp] theorem Dev.fetchFail_tap (d : Dev) (q : ℕ) (status : ℕ) (tag : ℕ) : (Dev.fetchFail d q status tag).tap =
    d.tap := by
  unfold Dev.fetchFail; dsimp only; simp

@[simp] theorem Dev.fetchFail_ordering288 (d : Dev) (q : ℕ) (status : ℕ) (tag : ℕ) : (Dev.fetchFail d q status
    tag).ordering288 = d.ordering288 := by
  unfold Dev.fetchFail; dsimp only; simp

@[simp] theorem Dev.fetchFail_timeBase (d : Dev) (q : ℕ) (status : ℕ) (tag : ℕ) : (Dev.fetchFail d q status
    tag).timeBase = d.timeBase := by
  unfold Dev.fetchFail; dsimp only; simp

@[simp] theorem Dev.fetchFail_halted (d : Dev) (q : ℕ) (status : ℕ) (tag : ℕ) : (Dev.fetchFail d q status tag).halted
    = d.halted := by
  unfold Dev.fetchFail; dsimp only; simp

@[simp] theorem Dev.fetchFail_reacts (d : Dev) (q : ℕ) (status : ℕ) (tag : ℕ) : (Dev.fetchFail d q status tag).reacts
    = d.reacts := by
  unfold Dev.fetchFail; dsimp only; simp

@[simp] theorem Dev.wake_flds (d : Dev) : (Dev.wake d).flds = d.flds := by
  unfold Dev.wake; (try dsimp only); (repeat' split) <;> simp [foldl_flds]

@[simp] theorem Dev.wake_objs (d : Dev) : (Dev.wake d).objs = d.objs := by
  unfold Dev.wake; (try dsimp only); (repeat' split) <;> simp [foldl_objs]

@[simp] theorem Dev.wake_host (d : Dev) : (Dev.wake d).host = d.host := by
  unfold Dev.wake; (try dsimp only); (repeat' split) <;> simp [foldl_host]

@[simp] theorem Dev.wake_hostBad (d : Dev) : (Dev.wake d).hostBad = d.hostBad := by
  unfold Dev.wake; (try dsimp only); (repeat' split) <;> simp [foldl_hostBad]

@[simp] theorem Dev.wake_jamb (d : Dev) : (Dev.wake d).jamb = d.jamb := by
  unfold Dev.wake; (try dsimp only); (repeat' split) <;> simp [foldl_jamb]

@[simp] theorem Dev.wake_sill (d : Dev) : (Dev.wake d).sill = d.sill := by
  unfold Dev.wake; (try dsimp only); (repeat' split) <;> simp [foldl_sill]

@[simp] theorem Dev.wake_maint (d : Dev) : (Dev.wake d).maint = d.maint := by
  unfold Dev.wake; (try dsimp only); (repeat' split) <;> simp [foldl_maint]

@[simp] theorem Dev.wake_thr (d : Dev) : (Dev.wake d).thr = d.thr := by
  unfold Dev.wake; (try dsimp only); (repeat' split) <;> simp [foldl_thr]

@[simp] theorem Dev.wake_drives (d : Dev) : (Dev.wake d).drives = d.drives := by
  unfold Dev.wake; (try dsimp only); (repeat' split) <;> simp [foldl_drives]

@[simp] theorem Dev.wake_bifold (d : Dev) : (Dev.wake d).bifold = d.bifold := by
  unfold Dev.wake; (try dsimp only); (repeat' split) <;> simp [foldl_bifold]

@[simp] theorem Dev.wake_dig (d : Dev) : (Dev.wake d).dig = d.dig := by
  unfold Dev.wake; (try dsimp only); (repeat' split) <;> simp [foldl_dig]

@[simp] theorem Dev.wake_hinge (d : Dev) : (Dev.wake d).hinge = d.hinge := by
  unfold Dev.wake; (try dsimp only); (repeat' split) <;> simp [foldl_hinge]

@[simp] theorem Dev.wake_pipes (d : Dev) : (Dev.wake d).pipes = d.pipes := by
  unfold Dev.wake; (try dsimp only); (repeat' split) <;> simp [foldl_pipes]

@[simp] theorem Dev.wake_louvre (d : Dev) : (Dev.wake d).louvre = d.louvre := by
  unfold Dev.wake; (try dsimp only); (repeat' split) <;> simp [foldl_louvre]

@[simp] theorem Dev.wake_net (d : Dev) : (Dev.wake d).net = d.net := by
  unfold Dev.wake; (try dsimp only); (repeat' split) <;> simp [foldl_net]

@[simp] theorem Dev.wake_sash (d : Dev) : (Dev.wake d).sash = d.sash := by
  unfold Dev.wake; (try dsimp only); (repeat' split) <;> simp [foldl_sash]

@[simp] theorem Dev.wake_tap (d : Dev) : (Dev.wake d).tap = d.tap := by
  unfold Dev.wake; (try dsimp only); (repeat' split) <;> simp [foldl_tap]

@[simp] theorem Dev.wake_ordering288 (d : Dev) : (Dev.wake d).ordering288 = d.ordering288 := by
  unfold Dev.wake; (try dsimp only); (repeat' split) <;> simp [foldl_ordering288]

@[simp] theorem Dev.wake_timeBase (d : Dev) : (Dev.wake d).timeBase = d.timeBase := by
  unfold Dev.wake; (try dsimp only); (repeat' split) <;> simp [foldl_timeBase]

@[simp] theorem Dev.wake_halted (d : Dev) : (Dev.wake d).halted = d.halted := by
  unfold Dev.wake; (try dsimp only); (repeat' split) <;> simp [foldl_halted]

@[simp] theorem Dev.wake_reacts (d : Dev) : (Dev.wake d).reacts = d.reacts := by
  unfold Dev.wake; (try dsimp only); (repeat' split) <;> simp [foldl_reacts]

@[simp] theorem Dev.wake_out (d : Dev) : (Dev.wake d).out = d.out := by
  unfold Dev.wake; (try dsimp only); (repeat' split) <;> simp [foldl_out]

@[simp] theorem Dev.wake_free (d : Dev) : (Dev.wake d).free = d.free := by
  unfold Dev.wake; (try dsimp only); (repeat' split) <;> simp [foldl_free]

end Sys2Proof.Machine
end

