-- ==== Sys2Proof/Machine/Tap.lean ====
section
/-!
DEFINITION. The test access port of IEEE 1149.1 (R475); no row of the table clocks it, so no command moves it from
Test-Logic-Reset (assumption log 154). And the levels of the pins the engine drives (R462).
-/

namespace Sys2Proof.Machine

/-- The IDCODE: version 0x1, part 0x7840, manufacturer 0x2B7, and the one that IEEE 1149.1 puts below them. -/
def tapIdcode : BitVec 32 := 0x1784056F

/-- The controller's next state at a rising edge of TCK (IEEE 1149.1). -/
def TapCtl.next (c : TapCtl) (tms : Bool) : TapCtl :=
  match c with
  | .testLogicReset => if tms then .testLogicReset else .runTestIdle
  | .runTestIdle => if tms then .selectDr else .runTestIdle
  | .selectDr => if tms then .selectIr else .captureDr
  | .captureDr => if tms then .exit1Dr else .shiftDr
  | .shiftDr => if tms then .exit1Dr else .shiftDr
  | .exit1Dr => if tms then .updateDr else .pauseDr
  | .pauseDr => if tms then .exit2Dr else .pauseDr
  | .exit2Dr => if tms then .updateDr else .shiftDr
  | .updateDr => if tms then .selectDr else .runTestIdle
  | .selectIr => if tms then .testLogicReset else .captureIr
  | .captureIr => if tms then .exit1Ir else .shiftIr
  | .shiftIr => if tms then .exit1Ir else .shiftIr
  | .exit1Ir => if tms then .updateIr else .pauseIr
  | .pauseIr => if tms then .exit2Ir else .pauseIr
  | .exit2Ir => if tms then .updateIr else .shiftIr
  | .updateIr => if tms then .selectDr else .runTestIdle

/-- One clock of TCK. While TRST_N is low the port stays in Test-Logic-Reset, where IDCODE is the instruction. `loaded` is the
instruction that the bits shifted into the instruction register name: the spec gives their codes only by the boundary-scan
description file. -/
def Tap.clock (t : Tap) (tms tdi : Bool) (loaded : TapIns) : Tap :=
  if t.trstN = false then {}
  else
    let into (b : BitVec 32) : BitVec 32 :=
      if t.ins = .idcode then (b >>> 1) ||| (if tdi then 0x80000000 else 0) else (if tdi then 1 else 0)
    let c := t.ctl.next tms
    { t with
      ctl := c
      ins := if c = .testLogicReset then .idcode else if c = .updateIr then loaded else t.ins
      shift := match t.ctl with
        | .captureDr => if t.ins = .idcode then tapIdcode else 0
        | .shiftDr => into t.shift
        | _ => t.shift }

/-- TDO: the lowest bit of the register that shifts, and none, high impedance, outside the Shift states. The bits of the
instruction register and of the boundary-scan register are open (assumption log 154). -/
def Tap.tdo (t : Tap) : Option Bool :=
  if t.ctl = .shiftDr ∧ (t.ins = .idcode ∨ t.ins = .bypass) then some (t.shift.getLsbD 0) else none

/-- TRST_N is driven: low, the port goes to Test-Logic-Reset. -/
def Tap.drive (t : Tap) (trstN : Bool) : Tap := if trstN then { t with trstN := true } else {}

/-! ### Pins (R462, R463) -/

/-- PARK_OK; none while the always-on supply is absent. -/
def Dev.parkOkPin (d : Dev) : Option Bool := if d.life.always then some d.life.parkOk else none

/-- THERMTRIP_N, an open drain: low when tripped, else high impedance. -/
def Dev.thermtripPin (d : Dev) : Option Bool := if d.life.always = true ∧ d.life.thermtrip = true then some false else none

/-- DP_PERST_N of a slot: low until the slot's link has trained; none while its supply is absent. -/
def Dev.dpPerstPin (d : Dev) (slot : Nat) : Option Bool :=
  if d.life.always then some ((d.drive slot).ready || (d.drive slot).resetting || (d.drive slot).failed) else none

/-- The port has taken control of the pins; nothing inside stops. -/
def Tap.extest (t : Tap) : Bool := t.ins == .extest || t.ins == .extestPulse || t.ins == .extestTrain

end Sys2Proof.Machine
end

