-- ==== Sys2Proof/Tests/Slice0.lean ====
section
/-!
SUPPORT. Tests, each of one command on a small state. A test named after an obligation shows a state and operands that meet the
hypotheses of its clause, with something of what the clause then says. Expected values are the rules' own.
-/

namespace Sys2Proof.Tests

set_option Elab.async false

open Sys2Proof Sys2Proof.Machine

/-- The device that a command leaves, where it leaves one. -/
def after (i : Instr) (d : Dev) : Option Dev :=
  match Sys2Proof.Machine.exec i { dev := d } with
  | .next t => some t.dev
  | _ => none

/-- Something of the device that a command leaves. -/
def see {α : Type} (i : Instr) (d : Dev) (f : Dev → α) : Option α := (after i d).map f

/-- n bytes, from byte k on: zero but for the fields given by offset, size and value in rising order. -/
def overlay (n : Nat) (fs : List (Nat × Nat × Nat)) (k : Nat := 0) : Bytes :=
  match fs with
  | [] => zeros (n - k)
  | f :: r => zeros (f.1 - k) ++ leBytes f.2.1 f.2.2 ++ overlay n r (f.1 + f.2.1)

/-- An ACTIVE queue with its rings in host memory. -/
def active : Queue := { st := .active, cfg := { sqBase := 0x1000, cqBase := 0x8000 } }

/-- A device whose queue 1 is as given. -/
def withQ (x : Queue) : Dev := ({} : Dev).setQueue 1 x

/-- A dispatched command 0 of queue 1. -/
def cmdOf (op : Nat) (fs : List (Nat × Nat × Nat)) (slots : Nat := 1) : Cmd :=
  { id := 0, queue := 1, slot := 0, opcode := op, flags := 0, tag := 7, phase := .dispatched
    entry := overlay (64 * slots) ((0, 1, op) :: (1, 1, slots) :: (4, 4, 7) :: fs) }

/-- A device with that command alone in flight. -/
def withCmd (k : Cmd) (d : Dev := {}) : Dev := (d.setQueue 1 active).addCmd k

/-- The status and result with which a command in flight has ended. -/
def ending (id : Nat) (d : Dev) : Option (Nat × Bytes) :=
  (d.cmd id).bind (fun k => if k.phase = .finished then some (k.status, k.result) else none)

/-- A device whose Casement 0 is in service. -/
def up : Dev := ({} : Dev).fput (F.CS_STAT_STATE 0) 3

/-! ### Well-formed commands -/

/-- Each check refuses a command that breaks it: the widths, Panes, slots, engines, sub-channels, units and records that do not
exist, kinds that R346 does not list, and lists of another length than what they speak of. -/
theorem test_wellFormed_refuses :
    ([.sqProducerDoorbell 0 12 0, .cqConsumerDoorbell 0 0 0, .storeDrainWrite 48 none, .storeRelease 63,
      .nodeStripBoundary 96 none none none, .nodeStripBoundary 0 none none (some (48, 0)), .selftestReq 96, .paneSelftestRun 127 true,
      .sillRequest 0 0 0 96 0 .stream none [] none, .bifoldBlockDone 0 12 false, .refreshInterval 208, .memoryRequest 208 none,
      .powerDownTimeout 208 0, .memoryHot 14 85, .nvmeTimeout 48 .drain, .driveReadyTimeout 48, .driveRemoved 48,
      .driveReadyAgain 48, .hingeBusError 0 0 false 0, .hingeBusError 0 5 false 0, .hingeBusError 0 1 true 48,
      .fcRecordClear 105, .unfence 96 true, .powerOn none [] {}, .avsStep 0 0 false [], .crateWindowClose [],
      .bar4Access 0 (.read 4097), .registerWrite false 0 3 0] : List Instr).all (fun i => !i.wellFormed) = true := by decide

/-- The same commands with the last operand that each check lets pass. -/
theorem test_wellFormed_accepts :
    ([.sqProducerDoorbell 0 64 0, .storeDrainWrite 47 none, .nodeStripBoundary 95 none none (some (47, 0)), .selftestReq 95,
      .bifoldBlockDone 3 11 false, .refreshInterval 207, .memoryHot 13 85, .hingeBusError 0 4 true 47, .fcRecordClear 104,
      .powerOn none (List.replicate 16 none) {}, .avsStep 0 0 false (List.replicate 15 none), .bar4Access 0 (.read 4096),
      .registerWrite false 0 8 0] : List Instr).all Instr.wellFormed = true := by decide

/-! ### The machine as a whole -/

theorem test_step_front : step { pending := [.perstNDeassert, .thermtrip] }
    = Sys2Proof.Machine.exec .perstNDeassert { pending := [.thermtrip] } := rfl

theorem test_step_idle : step State.reset = .next { dev := ({} : Dev).tick } ∧ (({} : Dev).tick).timeBase = 10 := ⟨rfl, rfl⟩

theorem test_idle_wraps : (({ timeBase := 2 ^ 64 - 10 } : Dev).tick).timeBase = 0 := by decide

theorem test_idle_without_clock (d : Dev) (h : d = { life := { refclk := false } }) : d.tick = d := by subst h; decide

theorem test_memory_stays_canonical : Memory.wf (({} : Dev).hostWrite 5 [1, 0, 2]) = true
    ∧ see (.bar4Access 0 (.write [1, 2])) (({} : Dev).hostWrite 5 [1, 0, 2]) Memory.wf = some true := by decide

theorem test_decode_none : decodeTableWord 64 0 = none := rfl

/-! ### Jamb -/

/-- The last advance that a free ring takes: 64 entries. -/
theorem test_sq_doorbell_full : (withQ active).serves = true
    ∧ see (.sqProducerDoorbell 1 32 64) (withQ active) (fun d => (d.queue 1).sqP) = some 64 := by decide

theorem test_cq_doorbell : (withQ { active with cqP := 2 }).wake.backlogOf 1 = 0
    ∧ see (.cqConsumerDoorbell 1 32 2) (withQ { active with cqP := 2 }) (fun d => (d.queue 1).cqC) = some 2 := by decide

/-- 64 bits at the SQ producer doorbell: both indices, 3 in the low half and 2 in the high. -/
theorem test_both_doorbells : see (.sqProducerDoorbell 1 64 0x200000003) (withQ { active with cqP := 2 })
    (fun d => (d.doorbellRead 1 false, d.doorbellRead 1 true)) = some (3, 2) := by decide

/-- An advance one past the free room, one past CQ_PIDX, a 16-bit write, an absent queue and one being deleted are counted. -/
theorem test_bad_doorbells :
    ([(.sqProducerDoorbell 1 32 65, active), (.cqConsumerDoorbell 1 32 1, active), (.sqProducerDoorbell 1 16 1, active),
      (.cqConsumerDoorbell 1 8 0, active), (.sqProducerDoorbell 1 32 0, {}), (.cqConsumerDoorbell 1 32 0, {}),
      (.sqProducerDoorbell 1 32 0, { st := .deleting }), (.cqConsumerDoorbell 1 32 0, { st := .deleting })]
      : List (Instr × Queue)).all (fun p => see p.1 (withQ p.2) (fun d => (d.fget F.JB_BADDB_COUNT, d.queue 1))
        == some (1, p.2)) = true := by decide

/-- Staged sizes 6 and 20 pass, 5 and 21 do not, nor does a queue that exists. -/
theorem test_create : (({} : Dev).fput F.QCFG_SIZE_SQ_LOG2 20).stagedCfg.sqLog = 20
    ∧ see (.qctlCreate 1) (({} : Dev).fput F.QCFG_SIZE_SQ_LOG2 20) (fun d => ((d.queue 1).st, (d.queue 1).cfg.sqLog)) = some (.active, 20)
    ∧ see (.qctlCreate 1) (({} : Dev).fput F.QCFG_SIZE_CQ_LOG2 6) (fun d => (d.queue 1).st) = some .active
    ∧ see (.qctlCreate 1) (({} : Dev).fput F.QCFG_SIZE_SQ_LOG2 21) (fun d => ((d.queue 1).st, d.fget F.JB_STAT_CMD_REJECT)) = some (.absent, 1)
    ∧ see (.qctlCreate 1) (({} : Dev).fput F.QCFG_SIZE_CQ_LOG2 5) (fun d => d.fget F.JB_STAT_CMD_REJECT) = some 1
    ∧ see (.qctlCreate 1) (withQ active) (fun d => d.fget F.JB_STAT_CMD_REJECT) = some 1 := by decide

theorem test_resume : see (.qctlResume 1) (withQ { active with st := .error, sqC := 9, errIdx := 8 })
      (fun d => ((d.queue 1).st, (d.queue 1).sqC)) = some (.active, 8)
    ∧ see (.qctlResume 1) (withQ active) (fun d => d.fget F.JB_STAT_CMD_REJECT) = some 1 := by decide

theorem test_flush_delete : (∀ c ∈ (withQ active).jamb.cmds, c.queue ≠ 1) ∧ (withQ active).calm = true
    ∧ see (.qctlFlush 1) (withQ { active with sqP := 3 }) (fun d => ((d.queue 1).st, (d.queue 1).sqC)) = some (.active, 3)
    ∧ see (.qctlFlush 1) (withQ { active with st := .error, sqP := 3 }) (fun d => (d.queue 1).st) = some .active
    ∧ see (.qctlDelete 1) (withQ { active with sqP := 3 }) (fun d => (d.queue 1)) = some {}
    ∧ see (.qctlFlush 1) {} (fun d => d.fget F.JB_STAT_CMD_REJECT) = some 1
    ∧ see (.qctlDelete 1) {} (fun d => d.fget F.JB_STAT_CMD_REJECT) = some 1 := by decide

/-- A submission ring with one entry of 64 bytes at its first slot. -/
def ring (op flags : Nat) : Dev :=
  (withQ { active with sqP := 1 }).hostWrite 0x1000 (overlay 64 [(0, 1, op), (1, 1, 1), (2, 2, flags), (4, 4, 0xABCD)])

/-- The words of R247: opcode 1, LENGTH 1, FLAGS 2 (IRQ_NOW), TAG 0xABCD. -/
theorem test_fetch : (ring 1 2).nextTurn = some 1 ∧ (ring 1 2).fetchable 1 = true
    ∧ entryStatus (overlay 64 [(0, 1, 1), (1, 1, 1), (2, 2, 2), (4, 4, 0xABCD)]) = 0
    ∧ see (.entryFetch none) (ring 1 2) (fun d =>
        (d.jamb.cmds.map (fun c => (c.opcode, c.flags, c.tag)), (d.queue 1).sqC)) = some ([(1, 2, 0xABCD)], 1) := by decide

/-- Opcode 0 is undefined (0x0102); the completion is posted and the queue stops at the entry. -/
theorem test_fetch_refuses : entryStatus (overlay 64 [(1, 1, 1), (4, 4, 0xABCD)]) ≠ 0 ∧ ((ring 0 0).queue 1).cqRoom = true
    ∧ see (.entryFetch none) (ring 0 0) (fun d =>
        (d.hostBytes 0x8000 8, d.jamb.cmds, (d.queue 1).st, (d.queue 1).errIdx, (d.queue 1).sqC, (d.queue 1).cqP))
        = some ([0xCD, 0xAB, 0, 0, 1, 0, 2, 1], [], .error, 0, 0, 1) := by decide

/-- With the completion ring full, 64 completions not consumed, it goes into the backlog. -/
theorem test_fetch_refuses_full :
    see (.entryFetch none) ((ring 0 0).setQueue 1 { active with sqP := 1, cqP := 64 }) (fun d =>
        ((d.queue 1).st, (d.queue 1).cqP, (d.queue 1).stall, d.jamb.backlog)) = some (.error, 64, true, [0]) := by decide

theorem test_dispatch : (withCmd { cmdOf 1 [] with phase := .fetched }).dispatches 1 = true
    ∧ (withCmd { cmdOf 1 [] with phase := .fetched }).nextDispatch 1 = some { cmdOf 1 [] with phase := .fetched }
    ∧ see (.commandDispatch 1) (withCmd { cmdOf 1 [] with phase := .fetched }) (fun d => d.jamb.cmds.map Cmd.phase)
        = some [.dispatched] := by decide

/-- A finished command. -/
def ended0 : Cmd := { cmdOf 1 [] with phase := .finished, status := 0x0104 }

/-- R255: bytes 0 to 3 the tag, 4 and 5 the queue, 6 and 7 the status. -/
theorem test_completion : (withCmd ended0).serves = true ∧ ((withCmd ended0).queue 1).cqRoom = true ∧ (withCmd ended0).backlogOf 1 = 0
    ∧ see (.completionPost 0) (withCmd ended0) (fun d => (d.hostBytes 0x8000 8, (d.queue 1).cqP, d.cmd 0))
        = some ([7, 0, 0, 0, 1, 0, 4, 1], 1, none) := by decide

theorem test_completion_backlog : ({ active with cqP := 64 } : Queue).cqRoom = false
    ∧ see (.completionPost 0) ((withCmd ended0).setQueue 1 { active with cqP := 64 })
        (fun d => ((d.queue 1).stall, d.jamb.backlog, (d.queue 1).cqP)) = some (true, [0], 64) := by decide

/-- A queue that interrupts, one completion pending, with vector 3 as given. -/
def pendQ (m : Msix) : Dev :=
  let d := withQ { active with cfg := { active.cfg with irqEn := true, vector := 3 }, pend := 1 }
  { d with jamb := { d.jamb with msix := [(3, m)] } }

theorem test_coalesce : see (.coalesceTimeout 1) (pendQ { addr := 5, data := 6, masked := false }) (fun d => (d.out, (d.queue 1).pend))
      = some ([.msix 3 5 6], 0)
    ∧ see (.coalesceTimeout 1) (pendQ {}) (fun d => (d.out, (Sparse.get {} d.jamb.msix 3).pending)) = some ([], true) := by decide

theorem test_nop : (withCmd (cmdOf 1 [])).running 0 opNop = some (cmdOf 1 [])
    ∧ see (.nop 0) (withCmd (cmdOf 1 [])) (ending 0) = some (some (0, zeros 16)) := by decide

theorem test_halted : see (.nop 0) { withCmd (cmdOf 1 []) with halted := true } id = some { withCmd (cmdOf 1 []) with halted := true }
    ∧ see (.entryFetch none) { ring 1 0 with halted := true } id = some { ring 1 0 with halted := true } := by decide

/-! ### Pipelines -/

/-- An image from the tables of R56 to R61 and R65: a SCAN of one INT32 column of near memory, then an EMIT to host memory. Its
first word is given apart. -/
def imageOf (magic : Nat) : Bytes := overlay 392
  [(0, 4, magic), (4, 2, 1), (8, 4, 392), (0xC, 2, 2), (0xE, 2, 1), (0x10, 4, 64), (0x14, 4, 192), (0x18, 4, 224), (0x1C, 2, 1),
   (0x1E, 2, 1), (0x20, 4, 288), (0x24, 4, 104),
   (66, 1, 1), (69, 1, 1), (70, 1, 255), (80, 4, 64), (84, 4, 40),
   (128, 2, 1), (130, 1, 0x40), (132, 1, 1), (134, 1, 255), (140, 4, 0xFFFFFFFF), (144, 4, 0xFFFFFFFF),
   (196, 2, 1), (200, 4, 1),
   (224, 1, 1), (225, 1, 1), (228, 4, 24), (232, 8, 2),
   (256, 1, 1), (258, 2, 1), (260, 4, 131072), (264, 8, 0x100000), (272, 8, 131072),
   (288, 2, 1), (292, 4, 24), (296, 2, 1), (304, 1, 3),
   (312, 2, 2), (316, 4, 40), (328, 8, 0x4000),
   (352, 2, 4), (356, 4, 40), (364, 4, 1)]

/-- The image as PIPE_LOAD takes it in. -/
def prog0 : Prog := progOf (imageOf 0x49504C46) 4

/-- A dispatched PIPE_LOAD of that image, which lies at host address 0x10000, with a region that has room. -/
def loading (magic : Nat) : Dev :=
  (withCmd (cmdOf opPipeLoad [(24, 8, 0x10000), (32, 4, 392)]) { mem := { region := 2 ^ 36 } }).hostWrite 0x10000 (imageOf magic)

theorem test_load : (loading 0x49504C46).lowestFree = some 0 ∧ (loading 0x49504C46).regionFree = 2 ^ 36 - 2 ^ 30
    ∧ (loading 0x49504C46).imagePlace 392 = some 0
    ∧ see (.pipeLoad 0) (loading 0x49504C46) (fun d => ((d.ctx 0).state, (d.ctx 0).imageAt, ending 0 d))
      = some (1, 0, some (0, zeros 16)) := by decide +kernel

/-- Stack 0 is in service; a region of 64 KiB ends with near memory, and the image stands where it begins. -/
theorem test_load_place :
    let d : Dev := { loading 0x49504C46 with mem := { nearUp := 1, region := 2 ^ 30 + 2 ^ 16 } }
    see (.pipeLoad 0) d (fun e => e.engBytes (d.nearEnd - 2 ^ 30 - 2 ^ 16) 4) = some [0x46, 0x4C, 0x50, 0x49] := by decide +kernel

/-- An image that the host does not give ends the command with its status, and no context is filled. -/
theorem test_load_unread : see (.pipeLoad 0) { loading 0x49504C46 with hostBad := [(0x10000, 1, 1)] }
    (fun d => ((d.ctx 0).state, (ending 0 d).map Prod.fst)) = some (0, some 0x0702) := by decide +kernel

/-- Check 1 reports the offset of MAGIC; R48 gives context 0xFFFF. -/
theorem test_load_bad : see (.pipeLoad 0) (loading 0x49504C47) (fun d => ((d.ctx 0).state, ending 0 d))
    = some (0, some (0x0104, [0xFF, 0xFF, 0, 0, 1, 0, 0, 0] ++ zeros 8)) := by decide +kernel

theorem test_load_no_room : (withCmd (cmdOf opPipeLoad [(32, 4, 392)])).imagePlace 392 = none
    ∧ see (.pipeLoad 0) (withCmd (cmdOf opPipeLoad [(32, 4, 392)])) (fun d => (ending 0 d).map Prod.fst) = some (some 0x0301) := by
  decide +kernel

/-- The context in its states, a ring command upon it, and a device around them. -/
def ctxOf (state : Nat) : Ctx := { state := state, prog := prog0 }
def onCtx (op : Nat) (x : Ctx) : Dev := (withCmd (cmdOf op [(16, 2, 5)]) up).setCtx 5 x

theorem test_run : (onCtx opPipeRun (ctxOf 1)).running 0 opPipeRun = some (cmdOf opPipeRun [(16, 2, 5)])
    ∧ (onCtx opPipeRun (ctxOf 1)).runCheck 5 = 0 ∧ (onCtx opPipeRun (ctxOf 6)).runCheck 5 = 0
    ∧ see (.pipeRun 0) (onCtx opPipeRun (ctxOf 1)) (fun d => ((d.ctx 5).state, (d.ctx 5).runCmd, (d.ctx 5).panes))
      = some (2, some 0, List.range 96) := by decide +kernel

theorem test_resume_ctx : ((onCtx opPipeResume (ctxOf 5)).resumeRun (cmdOf opPipeResume [(16, 2, 5)]) 5).isSome = true
    ∧ (ctxOf 5).extentsLeft.all (fun e => (onCtx opPipeResume (ctxOf 5)).sameDrive (ctxOf 5) e.slot) = true
    ∧ (onCtx opPipeResume (ctxOf 5)).declared prog0 = true
    ∧ see (.pipeResume 0) (onCtx opPipeResume { ctxOf 5 with nodes := [{}, {}] }) (fun d =>
        ((d.ctx 5).state, (d.ctx 5).nodes.all (fun y => y.matching || y.ended))) = some (2, true) := by decide +kernel

/-- A context that runs: its SCAN is ready, its EMIT waits. -/
def runs : Ctx := { ctxOf 2 with
  panes := List.range 96, casements := [0, 1, 2, 3]
  nodes := [{ readyAt := some 0, st := .scan {} }, { queues := [[]], store := [[]], st := .emit {} }] }

/-- The running context with its SCAN's first strip on Pane 0. -/
def onPane (x : Ctx) (d : Dev := up) : Dev :=
  let d := d.setCtx 5 x
  { d with pipes := { d.pipes with
      works := [{ ctx := 5, node := 0, pane := 0, ins := [{ tag := tagOf 5 0 0, rows := [[some (.num 1)]], live := [true], dicts := [0] }]
                  phase := .running }] } }

theorem test_pipe_cancel : runs.live = true ∧ (onCtx opPipeCancel runs).serves = true
    ∧ see (.pipeCancel 0) (onCtx opPipeCancel (ctxOf 5)) (fun d => ((d.ctx 5).state, (d.ctx 5).status, (ending 0 d).map Prod.fst))
      = some (7, 0x0402, some 0)
    ∧ see (.pipeCancel 0) (onPane runs (onCtx opPipeCancel {})) (fun d => ((d.ctx 5).state, (d.ctx 5).ending, (d.ctx 5).waiters))
      = some (3, some 0x0402, [0])
    ∧ see (.pipeCancel 0) (onPane { runs with ending := some 0x0401 } (onCtx opPipeCancel {}))
        (fun d => ((d.ctx 5).ending, (d.ctx 5).waiters)) = some (some 0x0401, [0])
    ∧ see (.pipeCancel 0) (onCtx opPipeCancel (ctxOf 1)) (ending 0) = some (some (0, (ctxOf 1).result 5 true false)) := by decide +kernel

theorem test_pipe_park : see (.pipePark 0) (onPane runs (onCtx opPipePark {})) (fun d => ((d.ctx 5).state, (d.ctx 5).waiters))
      = some (4, [0])
    ∧ see (.pipePark 0) (onCtx opPipePark { runs with prog := { prog0 with fabric := true } }) (fun d => (d.ctx 5).state) = some 2
    ∧ see (.pipePark 0) (onCtx opPipePark (ctxOf 6)) (ending 0) = some (some (0, (ctxOf 6).result 5 true false)) := by
  decide +kernel

theorem test_pipe_unload : ([1, 5, 6, 7].all (fun n => see (.pipeUnload 0) (onCtx opPipeUnload (ctxOf n)) (fun d => (d.ctx 5).state)
      == some 0)) = true
    ∧ see (.pipeUnload 0) (onCtx opPipeUnload (ctxOf 3)) (ending 0) = some (some (0, (ctxOf 3).result 5 true false)) := by
  decide +kernel

theorem test_pipe_noeffect : see (.pipeRun 0) (onCtx opPipeRun (ctxOf 5)) (ending 0) = some (some (0, (ctxOf 5).result 5 true false))
    ∧ see (.pipeResume 0) (onCtx opPipeResume (ctxOf 6)) (ending 0) = some (some (0, (ctxOf 6).result 5 true false)) := by
  decide +kernel

theorem test_cancel_doorbell : see (.cancelDoorbell 5 false) ((up.setCtx 5 (ctxOf 5)).setCtx 6 (ctxOf 5))
      (fun d => ((d.ctx 5).state, (d.ctx 6).state, d.oget O.CANCEL_DOORBELLS)) = some (7, 5, 1)
    ∧ see (.cancelDoorbell 0 true) ((up.setCtx 5 (ctxOf 5)).setCtx 6 (ctxOf 1)) (fun d => ((d.ctx 5).state, (d.ctx 6).state)) = some (7, 1) := by
  decide +kernel

/-- R177: with no affinity the idle step gives the strip to the lowest Pane of the home Casement. -/
theorem test_dispatch_strip : (up.setCtx 5 runs).fgetB (F.LT_CTL_HOLD 0) = false ∧ (up.setCtx 5 runs).nodeReady 5 runs 0 = true
    ∧ (((up.setCtx 5 runs).readyList 0).map (fun r => (r.ctx, r.node))) = [(5, 0)]
    ∧ (up.setCtx 5 runs).choosePane 5 0 runs ((up.setCtx 5 runs).nextAgain 5 0 runs) = some (0, 2)
    ∧ ((up.setCtx 5 runs).fire 0 5 0 runs).2.2.1 = none
    ∧ see (.stripDispatch 0) (up.setCtx 5 runs) (fun d => (d.pipes.works.map (fun w => (w.ctx, w.node, w.pane)), (d.latch 0).last))
      = some ([(5, 0, 0)], 5) := by decide +kernel

theorem test_waits : (runs.node 0).readyAt.isSome = true
    ∧ see (.agingTimeout 5 0) (up.setCtx 5 runs) (fun d => ((d.ctx 5).node 0).aged) = some 1
    ∧ see (.agingTimeout 5 0) ((up.setCtx 5 runs).oput O.AGING_TIME 0) (fun d => ((d.ctx 5).node 0).aged) = some 0
    ∧ see (.affinityWaitExpiry 5 0 2) (up.setCtx 5 { runs with nodes := runs.nodes.set 0 { runs.node 0 with affinity := [1, 2] } })
        (fun d => (((d.ctx 5).node 0).affinityOver, ((d.ctx 5).node 0).affinity)) = some (true, [2])
    ∧ see (.crossWaitExpiry 5 0) (up.setCtx 5 runs) (fun d => ((d.ctx 5).node 0).crossOver) = some true := by decide +kernel

/-- The boundary commits the strip into the EMIT's queue; a stopped pipeline's strip is dropped. -/
theorem test_boundary : ((onPane runs).runningOn 0).isSome = true ∧ (onPane runs).fiFires 0 = false
    ∧ see (.nodeStripBoundary 0 none none none) (onPane runs) (fun d => ((d.ctx 5).stripsDone, (d.ctx 5).state)) = some (1, 2)
    ∧ see (.nodeStripBoundary 0 none none none) (onPane (ctxOf 7)) (fun d => d.pipes.works) = some [] := by decide +kernel

/-- R90: below severity 3 the first mismatch reruns the strip. -/
theorem test_boundary_residue : (runs.node 0).applied.residueRetry = true
    ∧ ((onPane runs).fput (F.FC_SRC_SEV 0) 1).faultAction 0 < 3
    ∧ see (.nodeStripBoundary 0 (some ⟨0, 1, 2⟩) none none) ((onPane runs).fput (F.FC_SRC_SEV 0) 1)
        (fun d => ((d.pane 0).rerun, d.pipes.works.length)) = some (true, 1)
    ∧ ((onPane runs).fput (F.FC_SRC_SEV 0) 1).faultAction 0 < 2
    ∧ see (.nodeStripBoundary 0 (some ⟨0, 1, 2⟩) none none)
        (((onPane runs).fput (F.FC_SRC_SEV 0) 1).setPane 0 { (onPane runs).pane 0 with rerun := true })
        (fun d => (d.ctx 5).ending) = some (some 0x0701) := by decide +kernel

/-- The image's source as one on drives. -/
def onDrive : Ctx := { runs with prog := { prog0 with sources := prog0.sources.map (fun s => { s with kind := 3 }) } }

theorem test_boundary_media : (onDrive.prog.node 0).op = 1 ∧ (onDrive.prog.sourceOf 0).kind = 3
    ∧ see (.nodeStripBoundary 0 none none (some (3, 0x281))) (onPane onDrive) (fun d => (d.ctx 5).ending) = some (some 0x0602) := by
  decide +kernel

/-- A sealed run with every node ended, under its PIPE_RUN. -/
def sealed : Ctx := { runs with
  prog := { prog0 with sealed := true, sinks := prog0.sinks.map (fun k => { k with sealHere := true, block := 512, len := 1024 }) }
  nodes := runs.nodes.map (fun y => { y with ended := true }), runCmd := some 0, runTag := 7 }

theorem test_seal : (onCtx opPipeRun sealed).serves = true ∧ sealed.live = true ∧ (onCtx opPipeRun sealed).allDone 5 sealed = true
    ∧ sealed.sealing.waiting = [] ∧ sealed.waiters = [] ∧ (sealed.prog.sinks.zipIdx.find? (fun k => k.1.sealHere)).map Prod.snd = some 0
    ∧ (sealed.node 1).nextSlot < 2 ∧ ((onCtx opPipeRun sealed).signed (sealed.sealStmt 5 false [])).isSome = true
    ∧ ((onCtx opPipeRun sealed).cmd 0).isSome = true := by decide +kernel

/-! ### Threshold, the drives and FETCH -/

/-- A drive that answers, with 100 LBAs of 512 bytes. -/
def drive0 : Drive :=
  { fitted := true, lanes := 4, present := true, ready := true, width := 4, serial := 5, spaces := [{ nsid := 1, lbaSize := 512, lbas := 100 }] }

/-- A STORE or FETCH of LENGTH bytes and one LBA at LBA 10 of slot 3, its list one inline element of host memory (R249, R251). -/
def ioCmd (op nsid len count elem : Nat) : Cmd :=
  cmdOf op [(16, 1, 3), (20, 4, nsid), (24, 8, 10), (32, 4, len), (36, 4, count), (48, 2, 1), (64, 8, 0x5000), (72, 4, elem)] 2

/-- That command in flight, with a drive in slot 3. -/
def io (x : Drive) (k : Cmd) : Dev := (withCmd k).setDrive 3 x

theorem test_store_begin : drive0.empty = false ∧ (drive0.space 1).isSome = true ∧ storeNeeds (ioCmd opStore 1 2 1 2).entry ≤ 512
    ∧ lengthStatus 2 2 = 0 ∧ (io drive0 (ioCmd opStore 1 2 1 2)).leastWritten 1 = [0]
    ∧ see (.store 0) (io drive0 (ioCmd opStore 1 2 1 2)) (fun d => (d.thr.stores.map (fun g => (g.lba, g.units)), (d.tunit 0).used))
      = some ([(10, [0])], true) := by decide +kernel

/-- DRIVE_GONE, MEDIA_ERROR and LENGTH_LONG; 513 bytes need more than the extent's one LBA. -/
theorem test_store_fails : see (.store 0) (io {} (ioCmd opStore 1 2 1 2)) (ending 0) = some (some (0x0601, zeros 16))
    ∧ see (.store 0) (io drive0 (ioCmd opStore 1 2 1 3)) (ending 0) = some (some (0x0202, zeros 16))
    ∧ see (.store 0) (io drive0 (ioCmd opStore 1 2 1 1)) (ending 0) = some (some (0x0201, zeros 16))
    ∧ see (.store 0) { io drive0 (cmdOf opStore [(16, 1, 3), (20, 4, 1), (24, 8, 10), (32, 4, 2), (36, 4, 1), (40, 8, 0x7000), (48, 2, 1)])
        with hostBad := [(0x7000, 1, 1)] } (ending 0) = some (some (0x0702, zeros 16))
    ∧ see (.store 0) (io drive0 (ioCmd opStore 2 2 1 2)) (ending 0) = some (some (0x0602, zeros 16))
    ∧ see (.store 0) (io drive0 (ioCmd opStore 1 513 1 513)) (ending 0) = some (some (0x0202, zeros 16)) := by decide +kernel

/-- A STORE of two bytes in Threshold, in a phase. -/
def stg (p : SPhase) : Stg :=
  { cmd := 0, disp := 0, slot := 3, nsid := 1, lba := 10, lbas := 1, lbaSize := 512, length := 2, form := {}, phase := p
    data := [1, 2], units := [0] }

/-- A device with those STOREs. -/
def holding (l : List Stg) (d : Dev) : Dev := { d with thr := { d.thr with stores := l } }

theorem test_commit : (holding [stg .landed] (io drive0 (ioCmd opStore 1 2 1 2))).stg 0 = some (stg .landed)
    ∧ see (.storeCommit 0) (holding [stg .landed] (io drive0 (ioCmd opStore 1 2 1 2))) (fun d =>
        (d.thr.stores.map Stg.phase, d.thr.nextSeq, ending 0 d)) = some ([.staged], 1, some (0, result4 2 0 0 1)) := by decide +kernel

/-- In the safe state, and behind an earlier STORE of the same LBA, it does not commit. -/
theorem test_commit_waits :
    ({ (holding [stg .landed] (io drive0 (ioCmd opStore 1 2 1 2))).thr with pfSafe := true } : Thr).pfSafe = true
    ∧ (withCmd { ioCmd opStore 1 2 1 2 with id := 4, disp := 0 }).earlierStore 1 (3, 1, 10, 1) = true
    ∧ (let d := holding [stg .landed] (io drive0 (ioCmd opStore 1 2 1 2))
       see (.storeCommit 0) { d with thr := { d.thr with pfSafe := true } } (fun d => d.thr.stores.map Stg.phase) = some [.landed]) := by
  decide +kernel

theorem test_pwr_fail : ({} : Dev).powered = true ∧ see .pwrFailAssert {} (fun d => (d.thr.pfSafe, d.life.pwrFail)) = some (true, true)
    ∧ see .pwrFailDeassert { thr := { pfSafe := true } } (fun d => d.thr.pfSafe) = some false := by decide +kernel

/-- A STORE that slot 3 drains next, and one whose image has come to the drive port. -/
def due : Stg := { stg .staged with serial := 5 }
def sent : Stg := { due with image := due.plainImage, blocks := 1, sent := true }

/-- The device that drains it, the bytes in the staging area. -/
def draining (g : Stg) (x : Drive := drive0) : Dev :=
  let d := holding [g] ((withCmd (cmdOf 1 []) { mem := { nearUp := 1 } }).setDrive 3 x)
  d.engWrite d.stagingBase [1, 2]

/-- R31: the staging area's copy goes to the drive port. -/
theorem test_drain_issue : oldest ((draining due).drainQueue 3) = some due ∧ drive0.answers = true ∧ (draining due).fetchPending due = false
    ∧ ((draining due).driveAnswer 3 1 10 1 none).1 = none ∧ (draining due).job (.drain 0) = none
    ∧ ((draining due).stagedCopy due).map due.imageOf = some due.plainImage
    ∧ see (.storeDrainWrite 3 none) (draining due) (fun d => (d.out, (d.drive 3).cells, d.thr.stores.map (fun g => g.image.take 3),
        poolDrive.any (fun c => (d.hchan c).lists.any (fun l => l.owner == .drain 0))))
      = some ([.nvmeWrite 3 1 10 1], [], [[1, 2, 0]], true) := by decide +kernel

/-- R275: the image's first bytes, at LBA 10 of 512 bytes, are the STORE's. -/
theorem test_drain : oldest ((draining sent).drainQueue 3) = some sent
    ∧ see (.storeDrainWrite 3 none) (draining sent) (fun d => ((d.drive 3).read 1 5120 3, d.thr.stores.map Stg.written))
      = some ([1, 2, 0], [true]) := by decide +kernel

theorem test_drain_fails :
    see (.storeDrainWrite 3 (some 0x281)) (draining sent) (fun d =>
        ((d.drive 3).retried, d.oget O.LAST_NVME_STATUS, d.thr.stores == [due])) = some (true, 3 * 65536 + 0x281, false)
    ∧ see (.storeDrainWrite 3 (some 0x281)) (draining due) (fun d => (d.drive 3).retried) = some true
    ∧ see (.storeDrainWrite 3 (some 0x281)) (draining sent { drive0 with retried := true }) (fun d =>
        d.thr.stores.map Stg.held) = some [some 0x0602] := by decide +kernel

/-- A STORE written and one held, of a drive without a volatile write cache. -/
theorem test_release : see (.storeRelease 3) (holding [{ stg .staged with written := true }, { stg .staged with seq := 1, held := some 0x0601 }] (io drive0 (cmdOf 1 [])))
      (fun d => d.thr.stores.map Stg.seq) = some [1]
    ∧ see (.thrDiscard 3) (holding [{ stg .staged with written := true }, { stg .staged with seq := 1, held := some 0x0601 }] (io drive0 (cmdOf 1 [])))
      (fun d => (d.thr.stores.map Stg.seq, d.fget F.THR_DISCARD_GO)) = some ([0], 0) := by decide +kernel

/-- R279: a drive with a volatile write cache is flushed once nothing is left to write; the release comes after. -/
theorem test_flush : (draining { due with written := true } { drive0 with vwc := true }).drainQueue 3 = []
    ∧ see (.storeRelease 3) (draining { due with written := true } { drive0 with vwc := true }) (fun d => (d.out, d.thr.stores.map Stg.flushed))
      = some ([.nvmeFlush 3 1], [true])
    ∧ see (.storeRelease 3) (draining { due with written := true, flushed := true } { drive0 with vwc := true }) (fun d => d.thr.stores)
      = some [] := by decide +kernel

/-- A STORE_SYNC that covers the STORE of sequence number 0. -/
def syncing (l : List Stg) : Dev :=
  let d := holding l (withCmd (cmdOf opStoreSync [(16, 1, 3)]))
  { d with thr := { d.thr with syncs := [{ cmd := 0, covered := [0], counted := 4 }] } }

theorem test_sync : (syncing []).running 0 opStoreSync = some (cmdOf opStoreSync [(16, 1, 3)])
    ∧ see (.storeSync 0) (syncing []) (ending 0) = some (some (0, result4 4 0 0 0))
    ∧ see (.storeSync 0) (syncing [{ stg .staged with held := some 0x0601 }]) (ending 0) = some (some (0x0601, result4 4 0 0 0)) := by
  decide +kernel

theorem test_fetch_io : (io drive0 (ioCmd opFetch 1 2 1 2)).earlierStore 0 (3, 1, 10, 1) = false
    ∧ (io drive0 (ioCmd opFetch 1 2 1 2)).visible (ioCmd opFetch 1 2 1 2) = []
    ∧ see (.fetch 0 none) (io drive0 (ioCmd opFetch 1 2 1 2)) (fun d =>
        (d.out, (d.cmd 0).map (fun c => c.buf.length), poolDrive.any (fun c => (d.hchan c).lists.any (fun l => l.owner == .pull 0))))
      = some ([.nvmeRead 3 1 10 1], some 512, true) := by decide +kernel

/-- What the drive read has brought goes on to the destination; R287 where the read has failed. -/
theorem test_fetch_pulled :
    let c : Cmd := { ioCmd opFetch 1 2 1 2 with pulled := true, buf := [8, 9], origin := 2 }
    see (.fetch 0 none) (io drive0 c) (fun d =>
        ((d.cmd 0).map Cmd.result, poolHost.any (fun c => (d.hchan c).lists.any (fun l => l.owner == .fetch 0))))
      = some (some (fetchResult 0 1 2), true)
    ∧ see (.fetch 0 (some 0x281)) (io drive0 c) (ending 0) = some (some (0x0602, fetchResult 0 0 0)) := by decide +kernel

/-- A staged STORE covers the one LBA: no drive read. -/
theorem test_fetch_staged : let c : Cmd := { ioCmd opFetch 1 2 1 2 with disp := 1 }
    (holding [stg .staged] (io drive0 c)).visible c = [stg .staged] ∧ needsDrive [stg .staged] (3, 1, 10, 1) = false
    ∧ see (.fetch 0 none) (holding [stg .staged] (io {} c)) (fun d => (d.out, (d.cmd 0).map Cmd.result)) = some ([], some (fetchResult 0 1 1)) := by
  decide +kernel

theorem test_fetch_io_fails : see (.fetch 0 none) (io {} (ioCmd opFetch 1 2 1 2)) (ending 0) = some (some (0x0601, fetchResult 0 0 0))
    ∧ see (.fetch 0 none) (io drive0 (ioCmd opFetch 2 2 1 2)) (fun d => (ending 0 d, d.out)) = some (some (0x0602, fetchResult 0 0 0), [])
    ∧ see (.fetch 0 (some 0x281)) (io drive0 (ioCmd opFetch 1 2 1 2)) (fun d => (ending 0 d, d.oget O.LAST_NVME_STATUS))
      = some (some (0x0602, fetchResult 0 0 0), 3 * 65536 + 0x281) := by decide +kernel

/-- A drive as it is inserted, of four lanes. -/
def spec0 : DriveSpec := { width := 2, speed := 5, vwc := false, serial := 5, nguid := 6, spaces := [], data := [] }

/-- Slots 0 and 44: the event bits lie in the two registers. -/
theorem test_drive_removed : ((({} : Dev).setDrive 44 drive0).drive 44).present = true
    ∧ see (.driveRemoved 44) (({} : Dev).setDrive 44 drive0) (fun d => (d.drive 44, d.fget F.DP_EVENT_HI_SLOTS)) = some ({}, 2 ^ 12)
    ∧ see (.driveRemoved 0) { ({} : Dev).setDrive 0 drive0 with life := { supplies := false } } (fun d => d.drive 0) = some {} := by
  decide +kernel

theorem test_drive_inserted : (({} : Dev).drive 0).fitted = false
    ∧ see (.driveInserted 0 spec0) {} (fun d => ((d.drive 0).present, (d.drive 0).ready, d.fget F.DP_EVENT_LO_SLOTS)) = some (true, true, 1)
    ∧ see (.driveInserted 1 spec0) {} (fun d => ((d.drive 1).present, (d.drive 1).fitted, d.fget F.DP_EVENT_LO_SLOTS)) = some (false, true, 0)
    ∧ see (.driveInserted 0 spec0) { life := { supplies := false } } (fun d => ((d.drive 0).fitted, (d.drive 0).present)) = some (true, false) := by
  decide +kernel

theorem test_drive_resets : see (.nvmeTimeout 3 .drain) (({} : Dev).setDrive 3 drive0) (fun d =>
      ((d.drive 3).resetting, d.oget O.LAST_NVME_STATUS, d.out)) = some (true, 3 * 65536 + 0xFFFF, [.nvmeReset 3])
    ∧ see (.driveReadyAgain 3) (({} : Dev).setDrive 3 { drive0 with resetting := true }) (fun d => (d.drive 3).answers) = some true
    ∧ see (.driveReadyTimeout 3) (({} : Dev).setDrive 3 { drive0 with resetting := true }) (fun d => (d.drive 3).empty) = some true := by
  decide +kernel

/-! ### Hinge and Bifold -/

/-- A DMA on a channel with one inline descriptor (R252, R337): three bytes of host memory from 0x5000 to 0x6000. -/
def dmaCmd (channel : Nat) : Cmd :=
  cmdOf opDma [(16, 1, channel), (18, 2, 1), (32, 8, 3), (64, 8, 0x5000), (72, 8, 0x6000), (80, 4, 3), (84, 4, 1), (96, 4, 3), (100, 4, 1)] 2

theorem test_dma : see (.dma 0) (withCmd (dmaCmd 2)) (fun d => (d.hchan 2).lists.map (fun l => (l.owner, l.count, l.total)))
      = some [(.dma 0, 1, 3)]
    ∧ see (.dma 0) (withCmd (dmaCmd 0xFF)) (fun d => (d.hchan 0).lists.length) = some 1 := by decide +kernel

/-- The list of that DMA. -/
def dmaList : HList := { owner := .dma 0, tag := 7, count := 1, total := 3 }

/-- Its device, the list on channel 2, and bytes 9, 8, 7 at its source. -/
def moving (x : HChan := { lists := [dmaList] }) : Dev := ((withCmd (dmaCmd 2)).hostWrite 0x5000 [9, 8, 7]).setHchan 2 x

theorem test_channel : see (.hingeChStop 2) (withCmd (dmaCmd 2)) (fun d => (d.hchan 2).stopped) = some true
    ∧ see (.hingeChStop 2) moving (fun d => ((d.hchan 2).stopped, (d.hchan 2).stopReq)) = some (false, true)
    ∧ see (.hingeChGo 2) (moving { stopped := true }) (fun d => (d.hchan 2).stopped) = some false
    ∧ see (.hingeDescriptorDone 2) (moving { lists := [dmaList], stopped := true }) (fun d => (d.hchan 2).lists.length) = some 1 := by
  decide +kernel

theorem test_descriptor : descOk (sliceAt (dmaCmd 2).entry 64 64) = true ∧ (descOf (sliceAt (dmaCmd 2).entry 64 64)).srcLen = 3
    ∧ (descOf (sliceAt (dmaCmd 2).entry 64 64)).dst = 0x6000 ∧ (descOf (sliceAt (dmaCmd 2).entry 64 64)).dstCount = 1
    ∧ moving.hostFails 0x5000 3 = false ∧ moving.fgetB F.JB_STAT_HOLD = false ∧ moving.cmd 0 = some (dmaCmd 2)
    ∧ see (.hingeDescriptorDone 2) moving (fun d => (d.hostBytes 0x6000 4, ending 0 d, (d.hchan 2).lists.length))
      = some ([9, 8, 7, 0], some (0, leBytes 4 1 ++ zeros 4 ++ leBytes 8 3), 0) := by decide +kernel

theorem test_bus_error : see (.hingeBusError 0x5000 1 false 0) moving (fun d => (d.hinge.halt, d.hinge.errAddr, (d.hchan 2).abandoned))
      = some (true, 0x5000, true)
    ∧ see (.hingeBusError 0x5000 4 true 47) { moving with hinge := { moving.hinge with halt := true } } (fun d => (d.hinge.errMore, d.hinge.errSlot))
      = some (true, 0) := by decide +kernel

/-- A halted Hinge whose channel 2 has abandoned a list, as given. -/
def haltedHinge (l : HList) : Dev :=
  let d := moving { lists := [l], abandoned := true }
  { d with hinge := { d.hinge with halt := true } }

theorem test_restart : bitAt (haltedHinge dmaList).abortMask 2 = false
    ∧ see .hingeRestart (haltedHinge dmaList) (fun d => (d.hinge.halt, d.hchan 2)) = some (false, { lists := [dmaList] })
    ∧ (haltedHinge { owner := .store 0, tag := 7, work := [{ src := .imm [1], dst := .host 0, len := 1 }] }).readsHost
        { owner := .store 0, tag := 7, work := [{ src := .imm [1], dst := .host 0, len := 1 }] } = false
    ∧ see .haltTimeoutExpiry (haltedHinge { owner := .drain 0, tag := 7, work := [{ src := .imm [1], dst := .host 0, len := 1 }] })
        (fun d => (d.hinge.halt, (d.hchan 2).abandoned)) = some (false, false) := by decide +kernel

/-- Casement 0's Bifold and one job of one RAW block of one byte. -/
def withJob (x : BCas) (j : Job) : Dev := let d := up.setBcas 0 x; { d with bifold := { d.bifold with jobs := [j] } }
def rawBlock : Bytes := blockBytes {} 1 [5] [5]
def decJob : Job := { owner := .cmd 0, build := false, blocks := [rawBlock] }
def req0 : BReq := { owner := .cmd 0, index := 0 }

theorem test_engine : takable 0 [req0] = some req0 ∧ (withJob { queue := [req0] } decJob).engineReady 0 0 = true
    ∧ see (.bifoldBlockStart 0) (withJob { queue := [req0] } decJob) (fun d => ((d.bcas 0).engine 0).held) = some (some req0)
    ∧ takable 3 [{ req0 with avoid := some 3 }] = none := by decide +kernel

/-- The RAW block's decoding is its one byte; a parity error leaves the job without an outcome. -/
theorem test_block_done : (withJob { engines := [(11, { held := some req0 })] } decJob).fiFires (casSource 0 9) = false
    ∧ see (.bifoldBlockDone 0 11 false) (withJob { engines := [(11, { held := some req0 })] } decJob)
        (fun d => d.job (.cmd 0)) = some (some { decJob with results := [(0, 0, [5])] })
    ∧ see (.bifoldBlockDone 0 11 true) (withJob { engines := [(11, { held := some req0 })] } decJob)
        (fun d => (d.job (.cmd 0) == some decJob, ((d.bcas 0).engine 11).errors)) = some (true, 1) := by decide +kernel

/-- R293: 32 bytes of header, MAGIC first, FLAGS bit 0 for RAW, ULEN and SLEN 1, then the body. -/
theorem test_raw_block : rawBlock = [0x42, 0x4D, 0x4C, 0x46, 1, 1, 0, 0, 1, 0, 0, 0, 1, 0, 0, 0] ++ zeros 16 ++ [5]
    ∧ decodeBlock false rawBlock = (0, [5]) := by decide +kernel

theorem test_block_forms : fieldAt (leBytes 8 ({} : StoreForm).column) 0 1 ≤ 0x13 ∧ 1 ≤ ([5] : Bytes).length := by decide

/-- A fixed-code DEFLATE body of RFC 1951 for the byte 0x61: bits 1, 1 0, then 10010001, then 0000000. -/
theorem test_inflate : inflate [0x4B, 0x04, 0x00] 1 = .ok [0x61] := by decide +kernel

/-- COMPRESS and DECOMPRESS of a list at 0x5000 into one at 0x6000, inline (R252). -/
def bifoldCmd (op len : Nat) : Cmd :=
  cmdOf op [(20, 4, len), (32, 2, 1), (34, 2, 1), (64, 8, 0x5000), (72, 4, len), (80, 8, 0x6000), (88, 4, 8192)] 2

theorem test_compress_asks : (withCmd (bifoldCmd opCompress 2)).job (.cmd 0) = none
    ∧ see (.compress 0) ((withCmd (bifoldCmd opCompress 2)).hostWrite 0x5000 [1, 2]) (fun d => (d.job (.cmd 0)).map Job.blocks) = some (some [[1, 2]])
    ∧ see (.decompress 0) ((withCmd (bifoldCmd opDecompress 33)).hostWrite 0x5000 rawBlock) (fun d => (d.job (.cmd 0)).map Job.blocks)
      = some (some [rawBlock]) := by decide +kernel

/-- The jobs of the two ended: the decoded byte is at the destination. -/
theorem test_decompress_ends : ({ decJob with results := [(0, 0, [5])] } : Job).leading 1 = [(0, [5])]
    ∧ (let d := withCmd (bifoldCmd opDecompress 33)
       see (.decompress 0) { d with bifold := { d.bifold with jobs := [{ decJob with results := [(0, 0, [5])] }] } }
         (fun d => (d.hostBytes 0x6000 2, (ending 0 d).map Prod.fst)) = some ([5, 0], some 0)) := by decide +kernel

theorem test_compress_ends :
    (let d := withCmd (bifoldCmd opCompress 1)
     see (.compress 0) { d with bifold := { d.bifold with jobs := [{ owner := .cmd 0, build := true, blocks := [[5]], results := [(0, 0, rawBlock)] }] } }
       (ending 0) = some (some (0, result4 1 4096 1 0))) := by decide +kernel

/-! ### The digest unit, the key store and ATTEST -/

/-- A device whose digest context 63 is as given. -/
def dig (x : DgCtx) : Dev := ({} : Dev).setDgctx 63 x

/-- An allocated SHA-256 context (ALG 1) with a message under way: its bytes and its declared length. -/
def hashing (b : Bytes) (n : Nat) : DgCtx := { alloc := true, running := true, alg := 1, declared := n, msg := b }

theorem test_dg_alloc : ({} : Dev).freeDgctx = some 0 ∧ see .dgCtxAllocRead {} (fun d => (d.dgctx 0).alloc) = some true := by decide +kernel

/-- R314: ALG in bits 1:0, HMAC bit 2, TO_SLOT bit 3, KEY_SLOT 9:4, DEST_SLOT 15:10. -/
theorem test_dg_start : see (.dgStart 63 0xFC57) ((dig { alloc := true }).fput (F.DG_LEN_HI_LEN 63) 1) (fun d => d.dgctx 63)
    = some { alloc := true, running := true, alg := 3, hmac := true, keySlot := 5, destSlot := 63, declared := 2 ^ 32 } := by decide +kernel

theorem test_dg_release : see (.dgRelease 63 0) (dig (hashing [] 3)) (fun d => d.dgctx 63) = some {} := by decide +kernel

/-- Four bytes of a declared three; one at the declared length; one while both blocks of 64 bytes are full. -/
theorem test_dg_data : see (.dgDataWrite 63 false 0x64636261) (dig (hashing [] 3)) (fun d => (d.dgctx 63).msg) = some [0x61, 0x62, 0x63]
    ∧ see (.dgDataWrite 63 true 1) (dig (hashing [1] 1)) (fun d => ((d.dgctx 63).overrun, (d.dgctx 63).msg)) = some (true, [1])
    ∧ (hashing (zeros 128) 200).busy = true ∧ (hashing (zeros 127) 200).busy = false
    ∧ see (.dgDataWrite 63 false 1) (dig (hashing (zeros 128) 200)) (fun d => (d.dgctx 63).lost) = some true := by decide +kernel

theorem test_dg_block : algBlock 1 ≤ (hashing (zeros 64) 64).buffered
    ∧ see (.digestBlockCompressed (.ctx 63)) (dig (hashing (zeros 64) 64)) (fun d => (d.dgctx 63).compressed) = some 64 := by decide +kernel

/-- FIPS 180-4: SHA-256 of "abc" begins BA7816BF. -/
theorem test_dg_final : (hashing [0x61, 0x62, 0x63] 3).buffered < algBlock 1
    ∧ see (.dgFinal 63 0) (dig (hashing [0x61, 0x62, 0x63] 3)) (fun d => ((d.dgctx 63).done, (d.dgctx 63).result.take 4))
      = some (true, [0xBA, 0x78, 0x16, 0xBF])
    ∧ see (.dgFinal 63 0) (dig (hashing [0x61] 3)) (fun d => ((d.dgctx 63).done, (d.dgctx 63).short, (d.dgctx 63).result)) = some (true, true, []) := by
  decide +kernel

/-- An HMAC key in slot 7, of type HMAC (2). -/
theorem test_dg_hmac : (({} : Dev).setSlot 7 (slotOf 2 [1])).hmacKey 7 = .ok [1] := by decide +kernel

theorem test_dg_read : see (.dgResultRead 63 0) (dig (hashing [] 3)) (fun d => (d.dgctx 63).early) = some true
    ∧ see (.dgResultRead 63 0) (dig { hashing [] 0 with done := true }) id = some (dig { hashing [] 0 with done := true }) := by decide +kernel

/-- R322: a key of 16 bytes is accepted, type SEED (1) is not, nor slot 0. -/
theorem test_ks : ({} : Dev).slotInUse 5 = false ∧ loadOk 5 2 16 = true ∧ loadOk 5 1 16 = false ∧ loadOk 0 2 16 = false
    ∧ see (.ksLoad 5 2 16) (({} : Dev).fput (F.KS_DATA_DATA 0) 9) (fun d => ((d.slot 5).type, (d.slot 5).len, (d.slot 5).data.take 2))
      = some (2, 16, [9, 0])
    ∧ see (.ksLoad 0 2 16) {} (fun d => (d.fget F.KS_STAT_ERR, d.slot 0)) = some (1, {})
    ∧ see (.ksClear 5) (({} : Dev).setSlot 5 (slotOf 2 [9])) (fun d => d.slot 5) = some {}
    ∧ see (.ksExport 5) (({} : Dev).setSlot 5 { type := 1, len := 2, data := [9, 8] }) (fun d => d.fget (F.KS_DATA_DATA 0)) = some 0x809 := by
  decide +kernel

/-- A message with HMAC holds its key slot. -/
theorem test_ks_busy : (dig { hashing [] 3 with hmac := true, keySlot := 5 }).slotInUse 5 = true
    ∧ see (.ksClear 5) (dig { hashing [] 3 with hmac := true, keySlot := 5 }) (fun d => (d.dig.ksPending.isSome, d.fget F.KS_STAT_BUSY)) = some (true, 1) := by
  decide +kernel

/-- A DIGEST of SHA-256 over three bytes at 0x5000, its result at 0x7000 (R253), with the context that its dispatch took. -/
def digestCmd (len : Nat) : Cmd := cmdOf opDigest [(16, 1, 1), (20, 4, len), (32, 2, 1), (40, 8, 0x7000), (64, 8, 0x5000), (72, 4, 3)] 2
def digesting (len : Nat) : Dev :=
  ((withCmd (digestCmd len)).hostWrite 0x5000 [0x61, 0x62, 0x63]).setDgctx 9 (digestFresh (digestCmd len))

theorem test_digest_cmd : (List.range 64).any (fun k => (digesting 3).dgctx k = digestFresh (digestCmd 3)) = true
    ∧ see (.digest 0) (digesting 3) (fun d => (d.hostBytes 0x7000 4, ending 0 d)) = some ([0xBA, 0x78, 0x16, 0xBF], some (0, result4 3 32 0 0))
    ∧ see (.digest 0) (digesting 4) (fun d => (d.hostBytes 0x7000 1, ending 0 d)) = some ([0], some (0x0201, result4 3 0 0 0)) := by decide +kernel

/-- An ATTEST of a kind with room for n bytes. -/
def attestCmd (kind n : Nat) : Cmd := cmdOf opAttest [(16, 1, kind), (20, 4, n), (24, 8, 0x7000)] 2

/-- Slot 0 passes its tag, so a statement is signed; without a kept seal KIND 1 ends with nothing. -/
theorem test_attest : ((withCmd (attestCmd 0 4096)).signed { form := 0, nonce := zeros 32, digest := (withCmd (attestCmd 0 4096)).measure }).isSome = true
    ∧ ((withCmd { attestCmd 1 4096 with result := [1] }).signed (Stmt.unpack [1] (zeros 32))).isSome = true
    ∧ see (.attestSeal 0) (withCmd (attestCmd 1 4096)) (ending 0) = some (some (0, zeros 16)) := by decide +kernel

/-! ### Louvre -/

/-- R96, R97: the higher priority is first, then the lower index. -/
theorem test_walk : lvWalk 32 5 [(0, { key := 5, care := 0xFF, prio := 1, valid := true }), (1, { key := 4, care := 0xFE, prio := 3, valid := true }),
    (2, { key := 5, care := 0xFF, prio := 3, valid := true }), (3, { key := 5, care := 0xFF, prio := 9 })]
    = [(1, { key := 4, care := 0xFE, prio := 3, valid := true }), (2, { key := 5, care := 0xFF, prio := 3, valid := true }),
       (0, { key := 5, care := 0xFF, prio := 1, valid := true })] := by decide +kernel

/-- MULTI, bit 1 of byte 7 of a result record: set beside VALID where two entries match, clear where one does. -/
theorem test_multi : fieldAt (lvResultRecord [(0, {}), (1, {})] false true 1) 7 1 = 3
    ∧ fieldAt (lvResultRecord [(0, {})] false true 0) 7 1 = 1 := by decide

/-- A LOUVRE_LOAD of table 9, one Casement, one bank of 32 bits, a list of one record at 0x5000 (R104). -/
def lvCmd (op : Nat) : Cmd := cmdOf opLouvreLoad [(16, 1, op), (17, 1, 9), (20, 1, 1), (21, 1, 1), (24, 8, 0x5000), (32, 4, 1)]

/-- The record of R104: KEY 5, CARE 0xFF, VALID, INDEX as given. -/
def lvRec (index : Nat) : Bytes := overlay 48 [(0, 1, 5), (16, 1, 0xFF), (34, 1, 1), (40, 4, index)]

/-- Its entry. -/
def entry0 : LvEntry := { key := 5, care := 0xFF, valid := true }

/-- The table as CREATE binds it, and a device that has it. -/
def tab0 : LvTable := { width := 0, layout := 0, span := 1, mask := 1, steer := 0 }
def bound (d : Dev := up) : Dev := (d.setLvTable 9 (some tab0)).setLvBank 0 0 { table := some 9, entries := [(0, entry0)] }

def loadLv (op index : Nat) (d : Dev) : Dev := (withCmd (lvCmd op) d).hostWrite 0x5000 (lvRec index)

theorem test_lv_create : (loadLv 0 0 up).lvLoad 0 0 = some (lvCmd 0) ∧ (loadLv 0 0 up).lvList (lvCmd 0).entry = .ok (lvRec 0)
    ∧ (lvRecords (lvTableOf (lvCmd 0).entry) false 1 (lvRec 0)).2 = 0 ∧ ((loadLv 0 0 up).lvBind 9 tab0 [entry0]).isSome = true
    ∧ see (.louvreCreate 0) (loadLv 0 0 up) (fun d => (d.lvTable 9, d.lvBank 0 0, (ending 0 d).map (fun e => e.2.getD 9 0)))
      = some (some tab0, { table := some 9, entries := [(0, entry0.checked)] }, some 1) := by
  decide +kernel

/-- A bound number, and a record whose last bytes are not zero. -/
theorem test_lv_create_fails : see (.louvreCreate 0) (loadLv 0 0 (bound)) (fun d => (ending 0 d).map Prod.fst) = some (some 0x0303)
    ∧ (lvRecords (lvTableOf (lvCmd 0).entry) false 1 (lvRec 1)).2 = 0x0103
    ∧ see (.louvreCreate 0) (loadLv 0 1 up) (fun d => ((ending 0 d).map (fun e => (e.1, e.2.take 8)), d.lvTable 9))
      = some (some (0x0103, zeros 8), none) := by decide +kernel

/-- With every bank of the Casement bound to table 8 there is no room: LOUVRE_FULL. -/
def lvTaken : Dev :=
  [0, 1, 2, 3].foldl (fun d b => d.setLvBank 0 b { table := some 8 }) (up.setLvTable 8 (some { tab0 with span := 4 }))

theorem test_lv_full : ((loadLv 0 0 lvTaken).lvBind 9 tab0 [entry0]).isNone = true
    ∧ see (.louvreCreate 0) (loadLv 0 0 lvTaken) (fun d => (ending 0 d).map Prod.fst) = some (some 0x0303)
    ∧ see (.louvreSwap 0) (loadLv 2 0 lvTaken) (fun d => (ending 0 d).map Prod.fst) = some (some 0x0303) := by decide +kernel

/-- A PARKED context with a LOOKUP that names table 9. -/
def namer : Ctx := { state := 5, prog := { nodes := [
  { id := 0, op := 0x11, stateful := false, blocking := false, ins := 1, outs := 1, cas := 255, mask := 0, schema := [], param := [9], paramAt := 0 }] } }

theorem test_lv_swap : (bound).lvNamers 9 = 0
    ∧ see (.louvreSwap 0) (loadLv 2 0 (bound)) (fun d => ((d.lvBank 0 0).table, (d.lvBank 0 1).table)) = some (none, some 9)
    ∧ ((bound).setCtx 3 namer).lvNamers 9 = 1
    ∧ see (.louvreSwap 0) (loadLv 2 0 ((bound).setCtx 3 namer)) (fun d => ((d.lvBank 0 0).table, (ending 0 d).map Prod.fst))
      = some (some 9, some 0) := by decide +kernel

theorem test_lv_unload : see (.louvreUnload 0) (loadLv 3 0 (bound)) (fun d => (d.lvTable 9, (d.lvBank 0 0).table)) = some (none, none)
    ∧ see (.louvreUnload 0) (loadLv 3 0 ((bound).setCtx 3 namer)) (fun d => (d.lvTable 9).isSome) = some true
    ∧ see (.louvreUnload 0) (loadLv 3 0 up) (fun d => (ending 0 d).map (fun e => e.2.getD 8 0)) = some (some 1) := by decide +kernel

/-- The last index of the bank; one past it is beyond the table. -/
theorem test_lv_write : ((loadLv 1 16383 (bound)).lvWriteAll 9 tab0 (lvRecords tab0 true 1 (lvRec 16383)).1 0).2.2 = 0
    ∧ (lvRecords tab0 true 1 (lvRec 16384)).2 = 0x0303
    ∧ see (.louvreWrite 0) (loadLv 1 16383 (bound)) (fun d => Sparse.get {} (d.lvBank 0 0).entries 16383) = some entry0.checked
    ∧ see (.louvreWrite 0) (loadLv 1 16384 (bound)) (fun d => (ending 0 d).map (fun e => (e.1, e.2.take 8))) = some (some (0x0303, zeros 8))
    ∧ see (.louvreWrite 0) (loadLv 1 0 up) (fun d => (ending 0 d).map (fun e => e.2.getD 8 0)) = some (some 1) := by decide +kernel

/-- The lost entry is cleared; its source fences the bank, which unbinds the table (R435). -/
theorem test_lv_scrub : ((bound).lvBank 0 0).table = some 9
    ∧ see (.louvreScrubPass 0 0 [1] [0]) (bound) (fun d =>
        ((Sparse.get {} (d.lvBank 0 0).entries 0).valid, (d.lvBank 0 0).fenced, d.oget O.LOUVRE_SCRUB_REPAIR)) = some (false, true, 1) := by decide +kernel

/-- A LOUVRE_SEARCH of the table for the key 5 at 0x5000 into 0x6000, two matches wanted (R112). -/
def searchCmd : Cmd := cmdOf opLouvreSearch [(16, 1, 9), (17, 1, 0xFF), (18, 1, 2), (20, 4, 1), (24, 8, 0x5000), (32, 8, 0x6000)]

theorem test_lv_search : bitAt tab0.mask 0 = true ∧ (bound).lvDamaged 9 = false
    ∧ see (.louvreSearch 0 none) ((withCmd searchCmd (bound)).hostWrite 0x5000 [5]) (fun d =>
        (d.hostBytes 0x6000 8, d.hostBytes 0x6010 4, ending 0 d))
      = some ([0, 0, 0, 0, 0, 0, 0, 1], [0xFF, 0xFF, 0xFF, 0xFF], some (0, result4 1 1 0 0)) := by decide +kernel

/-- An unbound number, a Casement without a copy, and a damaged table. -/
theorem test_lv_search_ends : see (.louvreSearch 0 none) (withCmd searchCmd) (ending 0) = some (some (0, zeros 8 ++ [1] ++ zeros 7))
    ∧ see (.louvreSearch 0 none) (withCmd searchCmd ((bound).setLvTable 9 (some { tab0 with mask := 0 }))) (ending 0)
      = some (some (0, zeros 8 ++ [1] ++ zeros 7))
    ∧ see (.louvreSearch 0 none) (withCmd searchCmd ((bound).setLvTable 9 (some { tab0 with damaged := true }))) (ending 0)
      = some (some (0x0702, zeros 16)) := by decide +kernel

/-! ### Sill -/

/-- A CACHE_MAINT of the Sill of Casement 0, which is in service, over 128 bytes at 0x80 (R205), or over all of it. -/
def maintCmd (op scope : Nat) : Cmd :=
  cmdOf opCacheMaint [(16, 1, op), (17, 1, scope), (18, 1, 1), (24, 8, if scope = 1 then 0 else 0x80), (32, 8, if scope = 1 then 0 else 128)]

/-- Engine memory of one stack; the line 1 of the Sill of Casement 0, its first word dirty. -/
def memUp : Dev := { up with mem := { nearUp := 1 } }
def line1 : SLine := { line := 1, data := 7 :: zeros 127, dirty := 1 }
def cached : Dev := memUp.setSbank 0 (sillBank 1) { sets := [(sillSet 1, { ways := [(0, some line1)] })] }

theorem test_maint : (withCmd (maintCmd 0 1) cached).maint.any (fun m => m.cmd = 0) = false
    ∧ see (.cacheFlush 0) (withCmd (maintCmd 0 1) cached) (fun d => (ending 0 d, d.engByte 128)) = some (some (0, result4 1 0 0 0), 7)
    ∧ see (.cacheInvalidate 0) (withCmd (maintCmd 1 1) cached) (fun d => (ending 0 d, d.engByte 128)) = some (some (0, result4 0 1 0 0), 0)
    ∧ see (.cacheFlushInvalidate 0) (withCmd (maintCmd 2 1) cached) (fun d => (ending 0 d, d.engByte 128)) = some (some (0, result4 1 1 0 0), 7) := by
  decide +kernel

theorem test_preload : see (.cachePreload 0) (withCmd (maintCmd 3 0) memUp) (fun d => (ending 0 d, d.sillHolds 0 1))
    = some (some (0, result4 0 0 1 0), true) := by decide +kernel

theorem test_sill_hit : cached.implemented 128 = true ∧ cached.sillInjected 0 = none ∧ cached.casUp 0 = true
    ∧ (Sparse.get {} (cached.sbank 0 (sillBank 1)).sets (sillSet 1)).find 1 = some (0, line1)
    ∧ see (.sillRequest 0 5 0 95 1 .table none [(127, 9)] none) cached (fun d =>
        (Sparse.get {} (d.sbank 0 (sillBank 1)).sets (sillSet 1)).find 1) = some (some (0,
          { line1 with data := 7 :: zeros 126 ++ [9], dirty := 0x8001, owners := [5120] })) := by decide +kernel

/-- R211: a read of a poisoned line fails the pipeline that asked. -/
theorem test_sill_poison :
    let d := (memUp.setSbank 0 (sillBank 1) { sets := [(sillSet 1, { ways := [(0, some { line1 with poison := 8 })] })] }).setCtx 5 { state := 2 }
    see (.sillRequest 0 5 0 95 1 .table none [] none) d (fun d => ((d.ctx 5).state, (d.ctx 5).status)) = some (7, 0x0703) := by decide +kernel

theorem test_sill_miss : (Sparse.get {} (memUp.sbank 0 (sillBank 1)).sets (sillSet 1)).find 1 = none
    ∧ (memUp.sbank 0 (sillBank 1)).recallable 1 = false
    ∧ see (.sillRequest 0 5 0 95 1 .table none [] none) memUp (fun d =>
        ((d.sbank 0 (sillBank 1)).mrs.map (fun r => (r.line, r.prefetch)), d.oget O.SILL_MISSES)) = some ([(1, false)], 1) := by decide +kernel

/-- The fill of line 1 served by its controller. -/
def filled : Dev := memUp.setSbank 0 (sillBank 1) { mrs := [{ line := 1, cls := .table, queued := true, fill := some (zeros 128, 0), served := true }] }

theorem test_sill_fill : ((filled.sbank 0 (sillBank 1)).mrs.find? (fun r => r.line = 1 ∧ r.served)).isSome = true
    ∧ filled.sillCopy 0 1 = none ∧ filled.ways 0 .table ≠ 0
    ∧ see (.sillFillLand 0 1) filled (fun d => ((d.sbank 0 (sillBank 1)).mrs, d.sillHolds 0 1)) = some ([], true) := by decide +kernel

/-- A declared stream at line 1 with stride 1 asks for line 2. -/
def streamed : Dev :=
  (memUp.setSbank 0 0 { streams := [{ owner := 0, declared := true, stride := 1, last := 1, count := 9, limit := 100, ahead := 0 }] }).fputB (F.SL_CTL_PF_EN 0) true

theorem test_prefetch : ((streamed.sbank 0 0).streams[0]?.bind (fun v => v.target (streamed.pfDistance 0) (streamed.pfConfirm 0))) = some 2
    ∧ streamed.sillHolds 0 2 = false ∧ 0 < streamed.pfLimit 0
    ∧ see (.sillPrefetch 0 0 0) streamed (fun d => ((d.sbank 0 (sillBank 2)).mrs.map (fun r => (r.line, r.prefetch)), d.oget O.SILL_PF_ISSUED))
      = some ([(2, true)], 1) := by decide +kernel

/-- A write from outside to memory that no Sill holds, and to a line that one holds. -/
theorem test_outside : memUp.implemented 5 = true ∧ memUp.sillHolds 0 0 = false ∧ linesOf 5 2 = [0]
    ∧ (memUp.chan 3).state = 0 ∧ see (.sillInvalidation 5 [1, 2]) memUp (fun d => (d.engByte 5, d.engByte 6, d.engByte 7)) = some (1, 2, 0)
    ∧ see (.sillInvalidation 129 [1]) cached (fun d => (d.engByte 128, d.engByte 129, d.sillHolds 0 1)) = some (7, 1, false) := by decide +kernel

/-! ### Memory controllers -/

/-- No channel is moved off, and no Sill holds anything. -/
theorem test_plain (a n : Nat) : memUp.plainMem a n := by
  refine ⟨fun ch => ?_, fun c _ l _ => ?_⟩
  · have h : memUp.chan ch = {} := rfl
    rw [h]; exact ⟨by decide, by decide⟩
  · have h : memUp.sbank c (sillBank l) = {} := rfl
    unfold Dev.sillHolds; rw [h]; rfl

/-- Every channel in service, and bank 3 of pseudo-channel 0 with a row open. -/
def memOpen : Dev := memUp.setMbank (mbankKey 0 3) { open_ := some 4 }

theorem test_refresh : memOpen.chanUp (subChannel 0) = true
    ∧ see (.refreshInterval 0) memOpen (fun d => ((d.mbank (mbankKey 0 3)).open_, (d.sub 0).activeK)) = some (none, clampK (memOpen.fget F.MC_CTL_NEAR_K)) := by
  decide +kernel

theorem test_power_down : memOpen.fget F.MC_PD_NEAR_NS ≠ 0 ∧ memOpen.rankOf 0 3 = 0
    ∧ see (.powerDownTimeout 0 0) memOpen (fun d => ((d.sub 0).powerDown, (d.mbank (mbankKey 0 3)).open_)) = some (1, none) := by decide +kernel

/-- 86 °C is hot, 82 °C ends it. -/
theorem test_hot : see (.memoryHot 0 86) {} (fun d => d.mem.nearHot) = some true ∧ see (.memoryHot 13 86) {} (fun d => d.mem.farHot) = some true
    ∧ see (.memoryHot 0 82) { mem := { nearHot := true, nearTemp := [(0, 86)] } } (fun d => d.mem.nearHot) = some false := by decide +kernel

/-- A read of row 4, which is open, waits at bank 3 of pseudo-channel 0. -/
def asked : Dev := memUp.setMbank (mbankKey 0 3) { queue := [{ write := false, line := 1, row := 4, cas := 4 }], open_ := some 4 }

theorem test_mem_request : asked.subBlocked 0 = false ∧ asked.memInjected false = none
    ∧ see (.memoryRequest 0 none) asked (fun d => ((d.mbank (mbankKey 0 3)).queue, (d.mbank (mbankKey 0 3)).open_, (d.sub 0).lastBank))
      = some ([], some 4, 3) := by decide +kernel

theorem test_retrain_go : memUp.chanUp 0 = true
    ∧ see (.mcRetrainGo (.software 0)) memUp (fun d => (d.retrains false, (d.chan 0).state, (d.chan 0).requested)) = some ([0], 1, true) := by decide +kernel

/-- Channel 0 retraining as software asked. -/
def retraining : Dev := { memUp with mem := { memUp.mem with retrainNear := [0], chans := [(0, { state := 1, requested := true })] } }

theorem test_retrain_done : retraining.retrains false = [0]
    ∧ see (.memoryRetrainDone false true) retraining (fun d => (d.retrains false, (d.chan 0).state, d.fget F.MC_RETRAIN_DONE)) = some ([], 0, 1)
    ∧ see (.memoryRetrainDone false false) retraining (fun d => (d.retrains false, (d.chan 0).retried, d.fget F.MC_RETRAIN_FAIL)) = some ([0], true, 1) := by
  decide +kernel

theorem test_remap : see .remapCopyDone { memUp with mem := { memUp.mem with remaps := [95], chans := [(95, { state := 2, reserveAt := some 0 })] } }
      (fun d => ((d.chan 95).state, d.mem.remaps)) = some (3, []) := by decide +kernel

theorem test_scrub : memUp.fgetB F.MC_CTL_SCRUB_EN = true ∧ see (.patrolScrubPass []) memUp (fun d => d.oget O.SCRUB_PASSES) = some 1 := by decide +kernel

/-! ### Transom -/

/-- An engine of node number 5 whose ports' links are up, node 6 a member with it at epoch 3, context 7 running on the fabric. -/
def fabCtx : Ctx := { runs with epoch := 3, members := [5, 6], prog := { prog0 with fabric := true, query := [1], nodes := prog0.nodes.map (fun n =>
  { n with schema := [], param := overlay 40 [(0, 1, 8), (4, 1, 2), (32, 2, 6)] }) } }
def net0 : Dev :=
  let d := ((up.fput F.TR_NODE_NODE 5).setCtx 7 fabCtx)
  { d with net := { epoch := 3, members := [5, 6], links := 3 }, mem := { nearUp := 1 } }

/-- The header of R358 from node 6 to node 5 at epoch 3 for flow 8, with the other fields as given, and the payload. -/
def frame (type flags fseq tag len off : Nat) (payload : Bytes) (epoch : Nat := 3) : Bytes :=
  overlay 48 [(0, 1, 1), (1, 1, type), (2, 1, 3), (3, 1, flags), (4, 2, 6), (6, 2, 5), (8, 4, epoch), (12, 4, 8), (16, 4, fseq),
    (24, 8, tag), (34, 2, 2), (38, 2, len), (40, 4, off)] ++ payload

/-- With flow 8 at SHUFFLE_IN node 0 of context 7 from node 6, and a SHUFFLE_OUT of the same flow at node 1. -/
def flows (x : RxSender := { node := 6 }) (t : TxFlow := { flow := 8, ctx := 7, node := 1 }) : Dev :=
  { net0 with net := { net0.net with rx := [{ flow := 8, ctx := 7, node := 0, senders := [x] }], tx := [t] } }

theorem test_frame : net0.netUp = true ∧ net0.nodeId = 5 ∧ (parseFrame (frame 1 1 4 9 1 0 [7])).map (fun f => (f.type, f.flags, f.src, f.dst, f.fseq))
      = some (1, 1, 6, 5, 4)
    ∧ (parseFrame (frame 1 1 4 9 1 0 [7])).map (fun f => (f.epoch, f.flow, f.tag, f.credits, f.payload)) = some (3, 8, 9, 2, [7])
    ∧ parseFrame (frame 9 0 0 0 0 0 []) = none := by decide +kernel

/-- A damaged frame, and one of TYPE 9. -/
theorem test_frame_dropped : see (.helloRx 0 false (frame 6 0 0 0 0 0 [])) net0 (fun d => d.oget O.FRAMES_DROPPED) = some 1
    ∧ see (.dataFrameRx 1 true (frame 9 0 0 0 0 0 [])) net0 (fun d => d.oget O.FRAMES_DROPPED) = some 1 := by decide +kernel

/-- Frame 0 stands unacknowledged; ACK 0 keeps it, and nothing else happens. -/
theorem test_hello : see (.helloRx 0 true (frame 6 0 0 0 0 0 [])) (net0.setPeer 6 { unacked := [{ type := 1, cls := 3, src := 5, dst := 6 }] })
    (fun d => ((d.peer 6).unacked.length, d.net.rx)) = some (1, []) := by decide +kernel

theorem test_credit : flows.flowCtx 8 = some 7 ∧ (flows.ctx 7).epoch = 3
    ∧ see (.creditFrameRx 0 true (frame 3 0 0 0 0 0 [])) flows (fun d => d.net.tx.map (fun t => Sparse.get 0 t.credit 6)) = some [2]
    ∧ see (.creditFrameRx 0 true (frame 3 0 0 0 0 0 [] 2)) flows (fun d => (d.ctx 7).status) = some 0x0502 := by decide +kernel

/-- A frame out of order, one of an unknown flow, and one that begins its strip. -/
theorem test_data : see (.dataFrameRx 0 true (frame 1 0 1 0 1 0 [7])) flows (fun d => (d.peer 6).rxSeq) = some 0
    ∧ see (.dataFrameRx 0 true (frame 1 0 0 0 1 0 [7])) net0 (fun d => ((d.peer 6).rxSeq, d.oget O.FLOW_UNKNOWN)) = some (1, 1)
    ∧ (({ node := 6 } : RxSender).place { type := 1, cls := 3, src := 6, dst := 5, payload := [7] }).ready = none
    ∧ see (.dataFrameRx 0 true (frame 1 0 0 0 1 0 [7])) flows (fun d => ((d.rxFlow 8).map (fun r => r.senders.map (fun s => s.strips.length))))
      = some (some [1]) := by decide +kernel

/-- A strip of no rows whole in one frame (R368). -/
theorem test_data_whole : fieldAt (overlay 64 [(16, 8, schemaSum [])]) 16 8 = schemaSum ((flows.ctx 7).prog.node 0).schema
    ∧ see (.dataFrameRx 0 true (frame 1 1 0 0 64 0 (overlay 64 [(16, 8, schemaSum [])]))) flows
        (fun d => (((d.ctx 7).node 0).rx.length, (d.rxFlow 8).map RxFlow.emitted)) = some (1, some 1) := by decide +kernel

theorem test_end : see (.endFrameRx 0 true (frame 2 0 0 9 0 0 [])) flows (fun d => (d.rxFlow 8).map (fun r => r.senders.map RxSender.count))
    = some (some [some 9]) := by decide +kernel

/-- A PUT channel with one, and with two frames outstanding. -/
def putting (l : List Nat) : Dev :=
  { net0 with net := { net0.net with puts := [(1, { busy := true, node := 6, dst := 9, len := 4, sent := 4, open_ := l })] } }

theorem test_put_ack : see (.putAckRx 0 true (frame 5 0 0 9 0 0 [])) (putting [0]) (fun d => ((d.putChan 1).busy, d.fget (F.TR_PUT_STAT_DONE 1))) = some (false, 1)
    ∧ see (.putAckRx 0 true (frame 5 0 0 9 0 0 [])) (putting [0, 2]) (fun d => (d.putChan 1).open_) = some [2] := by decide +kernel

/-- R359: bytes 0 to 3 of a REJECT hold the epoch rejected. -/
theorem test_reject : see (.rejectRx 0 true (frame 7 0 0 0 8 0 [3, 0, 0, 0, 4, 0, 0, 0])) flows (fun d => (d.ctx 7).status) = some 0x0502 := by decide +kernel

/-- A CANCEL of the query, originated by node 6 at epoch 3 (R371). -/
theorem test_cancel_rx : sliceAt (overlay 64 [(0, 1, 1), (16, 2, 6), (24, 4, 3)]) 0 16 = 1 :: zeros 15
    ∧ see (.cancelFrameRx 0 true (frame 8 0 0 0 64 0 (overlay 64 [(0, 1, 1), (16, 2, 6), (24, 4, 3)])))
        (net0.setCtx 7 { fabCtx with prog := { fabCtx.prog with query := 1 :: zeros 15 } }) (fun d =>
          ((d.ctx 7).status, d.net.remembered.map CancelId.origin)) = some (0x0402, [6]) := by decide +kernel

theorem test_put_rx : net0.sillHolds 0 0 = false ∧ (net0.chan 0).state = 0 ∧ linesOf 9 2 = [0] ∧ net0.implemented 9 = true
    ∧ net0.fget F.TEST_CTL_MODE = 0
    ∧ see (.putFrameRx 0 true (frame 4 1 0 8 2 1 [7, 6]) false) (net0.setPeer 6 { ports := 3 }) (fun d => (d.engBytes 9 2, d.out.length)) = some ([7, 6], 1) := by decide +kernel

/-- No channel of such a device is remapped or offline. -/
theorem test_channels_up (ch : Nat) : (net0.chan ch).state ≠ 3 ∧ (net0.chan ch).state ≠ 4 := by
  have h : net0.chan ch = {} := rfl
  simp [h]

/-- Two members with VALID entries at their places in the peer table. -/
def staged : Dev :=
  (({ net0 with net := { net0.net with members := [] } }.oput O.MEMBER_STAGE 0x60).engWrite ((net0.oget O.PEER_TABLE_ADDR) + 32 * 5 + 0x16) [1, 1]).engWrite
    ((net0.oget O.PEER_TABLE_ADDR) + 32 * 6 + 0x16) [2, 1]

theorem test_epoch : setBits (staged.oget O.MEMBER_STAGE) 8 = [5, 6] ∧ entryValid (staged.peerEntry 5) = true ∧ entryValid (staged.peerEntry 6) = true
    ∧ see (.epochCommit 4) staged (fun d => (d.net.epoch, d.net.members, (d.peer 6).ports)) = some (4, [5, 6], 2)
    ∧ see (.epochCommit 3) staged (fun d => (d.net.epoch, d.fget F.TR_STAT_COMMIT_ERR)) = some (3, 1) := by decide +kernel

/-- The stream to node 6 with one frame unacknowledged, as many rounds as given, and an acknowledgement owed. -/
def peer6 (rounds : Nat) : Dev := flows.setPeer 6 { unacked := [{ type := 1, cls := 3, src := 5, dst := 6 }], rounds := rounds, ackDue := true, ports := 3 }

theorem test_retx : see (.retxTimeout 6) (peer6 0) (fun d => (d.out.length, (d.peer 6).rounds, d.oget O.RETRANSMITS)) = some (1, 1, 1) := by decide +kernel

theorem test_credit_ack : see (.creditAckTimeout 6) (peer6 0) (fun d => (d.out.length, (d.peer 6).ackDue)) = some (1, false) := by decide +kernel

theorem test_hello_timer : flows.sharesFlow 6 = true ∧ flows.sharesFlow 9 = false ∧ see (.helloTimer 6) (peer6 0) (fun d => d.out.length) = some 1
    ∧ see (.helloTimer 9) flows id = some flows := by decide +kernel

/-- RETX_LIMIT rounds, or silence, lose the peer once. -/
theorem test_peer_lost : (peer6 0).retxLimit = 8 ∧ see (.peerLost 6 false) (peer6 8) (fun d => ((d.peer 6).lost, (d.ctx 7).status)) = some (true, 0x0501)
    ∧ see (.peerLost 6 false) (peer6 7) id = some (peer6 7) ∧ see (.peerLost 6 true) (peer6 0) (fun d => (d.peer 6).lost) = some true
    ∧ see (.peerLost 4 true) (peer6 0) id = some (peer6 0) := by decide +kernel

/-- A cancel owed to node 6, and one to repeat for the last time. -/
def cancel0 : CancelId := { query := [1], origin := 5, epoch := 3 }
theorem test_cancel_send : see .fabricCancelSend { net0 with net := { net0.net with cancels := [(cancel0, [6])] } } (fun d =>
      (d.net.cancels, d.net.remembered, d.net.repeats.map CancelSent.left)) = some ([], [cancel0], [2])
    ∧ see .cancelRepeatTimer { net0 with net := { net0.net with repeats := [{ id := cancel0, dsts := [6], left := 1 }] } } (fun d =>
      (d.net.repeats, d.out.length + d.net.txq.length)) = some ([], 1)
    ∧ see .cancelMemoryExpiry { net0 with net := { net0.net with remembered := [cancel0] } } (fun d => d.net.remembered) = some [] := by decide +kernel

theorem test_port_link : see (.fabricPortLinkChange 1 false) net0 (fun d => d.net.links) = some 1
    ∧ see (.pfcPauseRx 0 5 4) { net0 with net := { net0.net with paused := [(0, 3)] } } (fun d => Sparse.get 0 d.net.paused 0) = some 6 := by decide +kernel

/-- PUTs of channel 2: to a node that is no member, of no bytes, of four, and on a busy channel. -/
def toPut (len : Nat) : Dev := (net0.setPeer 6 { ports := 3 }).fput (F.TR_PUT_LEN_LEN 2) len

theorem test_put_go : see (.trPutGo 2 4 false) (toPut 4) (fun d => (d.fget (F.TR_PUT_STAT_DONE 2), d.fget (F.TR_PUT_STAT_ERR 2))) = some (1, 1)
    ∧ see (.trPutGo 2 6 false) (toPut 0) (fun d => (d.fget (F.TR_PUT_STAT_DONE 2), (d.putChan 2).busy)) = some (1, false)
    ∧ see (.trPutGo 2 6 false) (toPut 4) (fun d => ((d.putChan 2).sent, (d.putChan 2).open_, d.out.length)) = some (4, [0], 1)
    ∧ see (.trPutGo 1 6 false) (putting [0]) (fun d => d.net.puts) = some (putting [0]).net.puts := by decide +kernel

/-- Nothing of such memory is poisoned. -/
theorem test_no_poison (a n : Nat) : (toPut 4).poisoned a n = false := by
  have h : ∀ b, (toPut 4).poisonedAt b = false := fun b => by
    have ho : (toPut 4).offline b = false := rfl
    have hp : (toPut 4).mem.poison = [] := rfl
    simp [Dev.poisonedAt, ho, hp, Sparse.get]
  simp [Dev.poisoned, h]

/-- A closed strip of one byte for node 6, with credit 2; and a SHUFFLE_OUT whose input has ended. -/
def sends0 : TxFlow := { flow := 8, ctx := 7, node := 1, credit := [(6, 2)], strips := [{ dst := 6, num := 0, part := 0, bytes := [7] }] }

theorem test_strip_send : (flows { node := 6 } sends0).txFlow 7 1 = some sends0
    ∧ see (.shuffleStripSend 7 1) (flows { node := 6 } sends0) (fun d => ((d.txFlow 7 1).map (fun t => (t.strips.length, Sparse.get 0 t.credit 6)), (d.peer 6).txSeq))
      = some (some (0, 1), 1)
    ∧ shuffleNodes ((flows.ctx 7).prog.node 1).param = [6]
    ∧ see (.shuffleStripSend 7 1) (flows { node := 6 } { sends0 with strips := [], inputOver := true }) (fun d => (d.txFlow 7 1).map TxFlow.ended) = some (some [6]) := by
  decide +kernel

/-! ### Sash -/

/-- A Sash frame as R379 and R380 lay it out: its header and body after the Ethernet header. -/
def sash (type flags dst hops : Nat) (body : Bytes) : Bytes :=
  zeros 12 ++ [0x88, 0xB5] ++ overlay 16 [(0, 1, 1), (1, 1, type), (2, 2, flags), (4, 2, dst), (8, 2, hops), (10, 2, 77), (12, 2, body.length)] ++ body
    ++ zeros 30

/-- Both chain links up, chain address 3. -/
def chained : Dev := { sash := { addr := 3, links := 3, fresh := false } }

/-- READ (R387) of object 0x3011:00, EDGE_DEPTH_DEFAULT, whose default is 4; WRITE of one of two bytes, and of one. -/
def readBody (len : Nat) : Bytes := overlay 16 [(0, 2, 0x3011), (12, 2, len)]
def writeBody (off total : Nat) : Bytes := overlay 16 [(0, 2, 0x3011), (4, 4, off), (8, 4, total), (12, 2, 1)] ++ [9]

theorem test_sash_frame : sashFrame (sash 1 0 3 0 (readBody 8)) = true
    ∧ (parseSash (sash 1 0 3 0 (readBody 8))).map (fun m => (m.type, m.dst, m.tid, m.body.length)) = some (1, 3, 77, 16)
    ∧ parseSash (sash 3 0 3 0 []) = none ∧ see (.sashRelay false (sash 3 0 3 0 [])) chained (fun d => d.oget O.SASH_FRAMES_DROPPED) = some 1 := by
  decide +kernel

/-- A frame for address 4 goes on, its HOPS at byte 22 raised. -/
theorem test_relay : see (.sashRelay false (sash 1 0 4 2 (readBody 8))) chained (fun d => d.out) = some [.sash true (sash 1 0 4 3 (readBody 8))] := by
  decide +kernel

/-- BASE 1 at the 2nd hop; BASE 0xFFE at the first leaves no address. -/
theorem test_enumerate : see (.enumerate false (sash 0x10 0 0xFFF 2 (overlay 4 [(0, 2, 1)]))) chained (fun d => (d.sash.addr, d.sash.hops, d.out.length)) = some (3, 2, 2)
    ∧ see (.enumerate false (sash 0x10 0 0xFFF 1 (overlay 4 [(0, 2, 0xFFE)]))) chained (fun d => d.sash.addr) = some 0 := by decide +kernel

/-- The frames the engine answered with: their RSTATUS (byte 33), and DATA and RFLAGS. -/
def answers (d : Dev) : List Nat := d.out.map (fun o => match o with
  | .sash false b => fieldAt b 33 1 + 256 * fieldAt b 44 1
  | _ => 9)

theorem test_sash_read : chained.heldCount = 0 ∧ see (.sashRead false (sash 1 0 3 0 (readBody 8))) chained (fun d =>
      (answers d, d.out.map (fun o => match o with | .sash _ b => fieldAt b 46 1 | _ => 0))) = some ([0], [4]) := by decide +kernel

/-- One byte of two is kept; the next at OFFSET 1 of no assembly is answered SEQUENCE (2); a whole byte is applied. -/
theorem test_sash_write : see (.sashWrite false (sash 2 0 3 0 (writeBody 0 2))) chained (fun d => (answers d, d.sash.asm.map Assembly.bytes)) = some ([0], some [9])
    ∧ see (.sashWrite false (sash 2 0 3 0 (writeBody 1 2))) chained (fun d => (answers d, d.sash.asm)) = some ([2], none)
    ∧ writeJudge 0x3011 0 1 = .stored ∧ writePersists 0x3011 0 [9] = false
    ∧ see (.sashWrite false (sash 2 0 3 0 (writeBody 0 1))) chained (fun d => (answers d, d.oget O.EDGE_DEPTH_DEFAULT)) = some ([256], 9) := by
  decide +kernel

/-- Beyond eight requests the answer is BUSY (3). -/
def busyChain : Dev := { chained with sash := { chained.sash with held := List.replicate 8 (.store (.sash { type := 0x82 }) 0 0 []) } }
theorem test_sash_busy : busyChain.heldCount = 8 ∧ see (.sashRead false (sash 1 0 3 0 (readBody 8))) busyChain answers = some [3]
    ∧ see (.sashWrite false (sash 2 0 3 0 (writeBody 0 1))) busyChain answers = some [3] := by decide +kernel

/-- A CANCEL of a PARKED context's query (R396), and with CANCEL_RX cleared. -/
def parkedQuery : Dev := chained.setCtx 7 { state := 5, prog := { fabric := true, query := 1 :: zeros 15 } }
theorem test_sash_cancel : see (.sashCancelRx false (sash 0x20 0 0xFFF 0 (overlay 64 [(0, 1, 1), (16, 2, 6)]))) parkedQuery
      (fun d => ((d.ctx 7).state, d.net.remembered.map CancelId.origin)) = some (7, [6])
    ∧ see (.sashCancelRx false (sash 0x20 0 0xFFF 0 (overlay 64 [(0, 1, 1), (16, 2, 6)]))) (parkedQuery.oput O.CANCEL_RX 0)
      (fun d => ((d.ctx 7).state, d.oget O.SASH_CANCELS_RX)) = some (5, 1) := by decide +kernel

/-- Chain-out goes down: a NOTIFY of event 2 goes upstream. -/
theorem test_sash_link : see (.sashLinkChange true false) chained (fun d => (d.sash.links, d.out.map (fun o => match o with | .sash false b => fieldAt b 30 1 | _ => 0)))
    = some (1, [2]) := by decide +kernel

theorem test_snapshot_timeout : see (.sashSnapshotTimeout false) { chained with sash := { chained.sash with snap := some (1, 2, []) } } (fun d => d.sash.snap) = some none
    ∧ see (.sashSnapshotTimeout true) { chained with sash := { chained.sash with asm := some { tid := 1, key := 2, total := 3, bytes := [] } } } (fun d => d.sash.asm)
      = some none := by decide +kernel

/-- The window on object 0x3011:00, its key 0xD1, LEN as given and 9 in its first data word. -/
def window (len : Nat) : Dev :=
  ((((({} : Dev).fput F.DICT_ADDR_INDEX 0x3011).fput F.DICT_CTL_RSV8 0xD1).fput F.DICT_LEN_LEN len).fput (F.DICT_DATA_DATA 0) 9).fputB F.DICT_STAT_BUSY false

theorem test_window : (window 1).recovering = false ∧ ((window 1).dictValue 0x3011 0).length = 1 ∧ (window 1).life.handoff = none
    ∧ see .dictRead (window 1) (fun d => (d.fget (F.DICT_DATA_DATA 0), d.fget F.DICT_TOTAL_TOTAL, d.fget F.DICT_STAT_DONE)) = some (4, 1, 1)
    ∧ see .dictWrite (window 1) (fun d => (d.oget O.EDGE_DEPTH_DEFAULT, d.fget F.DICT_STAT_APPLIED)) = some (9, 1)
    ∧ writeJudge 0x3011 0 2 = .length ∧ see .dictWrite (window 2) (fun d => (d.oget O.EDGE_DEPTH_DEFAULT, d.fget F.DICT_STAT_LENERR)) = some (4, 1) := by
  decide +kernel

/-- A persist under way ends with a newest copy; a restore begins one, or waits behind it. -/
theorem test_persist : see .rwpPersistDone { chained with sash := { chained.sash with persist := some .none } } (fun d => (d.sash.persist, d.life.newest.map Persisted.seq))
      = some (none, some 1)
    ∧ see .restoreDefaults chained (fun d => d.sash.persist) = some (some .none)
    ∧ see .restoreDefaults { chained with sash := { chained.sash with persist := some .none } } (fun d => d.sash.held.length) = some 1 := by decide +kernel

/-! ### Faults, injections and fences -/

/-- Source 448, near corrected errors, at its severity of reset and at others; reserved source 470 does nothing. -/
theorem test_fault : faultListed 448 = true ∧ faultListed 511 = false ∧ see (.faultSourceRaised 511 0 false) {} id = some {}
    ∧ see (.faultSourceRaised 448 5 false) (({} : Dev).fput (F.FC_SRC_SEV 448) 0) (fun d => (d.fget (F.FC_SRC_COUNT 448), d.fget (F.FC_REC_STAT_VALID 100)))
      = some (1, 0)
    ∧ see (.faultSourceRaised 448 5 false) (({ timeBase := 30 } : Dev).fput (F.FC_SRC_SEV 448) 1) (fun d =>
        (d.fget (F.FC_REC_STAT_SOURCE 100), d.fget (F.FC_REC_SYN_SYN 100 0), d.fget (F.FC_REC_TIME_LO_TIME 100))) = some (448, 5, 30) := by decide +kernel

theorem test_fault_overflow : see (.faultSourceRaised 448 5 false) ((({} : Dev).fput (F.FC_SRC_SEV 448) 1).fputB (F.FC_REC_STAT_VALID 100) true) (fun d =>
      (d.fget (F.FC_REC_STAT_OVERFLOW 100), d.fget (F.FC_REC_SYN_SYN 100 0))) = some (1, 0)
    ∧ see (.faultSourceRaised 448 5 false) (({} : Dev).fput (F.FC_SRC_SEV 448) 5) (fun d => d.halted) = some true
    ∧ see (.faultSourceRaised 449 64 false) ({ mem := { nearUp := 1 } }) (fun d => d.poisoned 64 1) = some true := by decide +kernel

/-- An injection armed once on source 448. -/
def armed : Dev := (((({} : Dev).fput F.FI_CTL_SOURCE 448).fput F.FI_CTL_BITS 1).fput F.FI_CTL_MODE 1).fput F.FI_CTL_ARM 1
theorem test_injected : armed.fiFires 448 = true ∧ ({} : Dev).fiFires 448 = false
    ∧ see (.faultSourceRaised 448 0 true) armed (fun d => (d.oget O.INJECTIONS, d.fget F.FI_CTL_ARM, d.fget F.FI_STAT_FIRED)) = some (1, 0, 1)
    ∧ see (.faultSourceRaised 448 0 true) {} id = some {} := by decide +kernel

theorem test_watchdog : see (.handshakeWatchdog 0) up (fun d => d.fget (F.FC_SRC_COUNT (casSource 0 12))) = some 1
    ∧ see (.handshakeWatchdog 1) up id = some up := by decide +kernel

/-- The last record; its SOURCE stays. -/
theorem test_record_clear : see (.fcRecordClear 104) ((({} : Dev).fputB (F.FC_REC_STAT_VALID 104) true).fput (F.FC_REC_STAT_SOURCE 104) 474)
    (fun d => (d.fget (F.FC_REC_STAT_VALID 104), d.fget (F.FC_REC_STAT_SOURCE 104))) = some (0, 474) := by decide +kernel

/-- MODE 1 arms; MODE 3 does not; a source that cannot be injected says so. -/
theorem test_arm : see (.fiArm 448 1 1) {} (fun d => (d.fget F.FI_CTL_SOURCE, d.fget F.FI_CTL_ARM)) = some (448, 1)
    ∧ see (.fiArm 448 1 3) {} (fun d => d.fget F.FI_CTL_ARM) = some 0
    ∧ fiUnsupported 474 = true ∧ see (.fiArm 474 1 2) {} (fun d => (d.fget F.FI_CTL_ARM, d.fget F.FI_STAT_UNSUPPORTED)) = some (0, 1) := by decide +kernel

/-- Pane 0 idle, with a strip on it, draining, and fenced. -/
def paneAs (x : Pane) : Dev := up.setPane 0 x
theorem test_selftest_req : up.paneHeld 0 = false ∧ paneCas 95 = 3
    ∧ see (.selftestReq 0) (onPane runs) (fun d => ((d.pane 0).draining, d.paneHeld 0)) = some (true, true)
    ∧ see (.selftestReq 0) (paneAs { fenced := true }) (fun d => ((d.pane 0).testReq, (d.pane 0).draining)) = some (true, false) := by decide +kernel

theorem test_selftest : see (.paneSelftestRun 0 true) (onPane runs (paneAs { draining := true })) (fun d => (d.pane 0).draining) = some true
    ∧ see (.paneSelftestRun 0 true) (paneAs { draining := true }) (fun d => (d.pane 0, d.oget (O.SELFTEST_RESULT 0))) = some ({}, 1)
    ∧ see (.paneSelftestRun 0 false) (paneAs { draining := true }) (fun d => (d.oget (O.SELFTEST_RESULT 0), d.fget (F.FC_SRC_COUNT 3))) = some (2, 1) := by
  decide +kernel

theorem test_unfence : see (.unfence 0 true) (paneAs { fenced := true }) (fun d => (d.pane 0).fenced) = some false
    ∧ see (.unfence 0 false) (paneAs { fenced := true }) (fun d => ((d.pane 0).fenced, d.oget (O.SELFTEST_RESULT 0))) = some (true, 2)
    ∧ see (.unfence 0 true) up (fun d => d.pipes) = some up.pipes := by decide +kernel

theorem test_bank_unfence : see (.bankUnfence 3 8 8) (({} : Dev).setLvBank 3 3 { fenced := true, table := some 1 }) (fun d => d.lvBank 3 3) = some {}
    ∧ see (.bankUnfence 3 8 0) (({} : Dev).setLvBank 3 3 { fenced := true }) (fun d => (d.lvBank 3 3).fenced) = some true := by decide +kernel

/-! ### Resets, supplies and the clock -/

/-- PARKED context 2, LOADED context 3, a committed STORE, a key in slot 5 and a digest context. -/
def busy : Dev :=
  let d := (withCmd (cmdOf opNop []) ((({ timeBase := 50 } : Dev).setCtx 2 { state := 5 }).setCtx 3 { state := 1 }))
  { d with thr := { d.thr with stores := [{ cmd := 9, disp := 0, slot := 0, nsid := 1, lba := 0, lbas := 1, lbaSize := 512, length := 1, form := {}
                                            phase := .staged, seq := 4 }] }
           dig := { d.dig with slots := [(5, { type := 2 })], ctxs := [(1, { alloc := true })] } }

theorem test_flr : see .functionLevelReset busy (fun d => ((d.queue 1).st, d.jamb.cmds.length, (d.ctx 2).state, (d.ctx 3).state))
      = some (.absent, 0, 5, 0)
    ∧ see .functionLevelReset busy (fun d => (d.slot 5, d.dgctx 1, d.thr.stores.map Stg.seq)) = some ({}, {}, [4])
    ∧ see .linkReset busy (fun d => (d.life.perst, (d.queue 1).st)) = some (true, .absent)
    ∧ see .perstNDeassert busy (fun d => d.life.perst) = some false := by decide +kernel

/-- An engine that is parked takes no reset. -/
def parkedUp : Dev := { busy with life := { busy.life with parked := true, shelfDark := true } }
theorem test_no_reset : parkedUp.serves = false ∧ see (.deviceReset {}) parkedUp id = some parkedUp
    ∧ see .linkReset parkedUp (fun d => (d.life.perst, (d.queue 1).st)) = some (true, .active) := by decide +kernel

/-- With no image in flash the boot ROM ends in RECOVERY (5). -/
theorem test_device_reset : busy.serves = true
    ∧ see (.deviceReset {}) busy (fun d => ((d.queue 1).st, (d.ctx 2).state, (d.ctx 3).state, d.fget F.LM_STAT_STAGE, d.timeBase)) = some (.absent, 5, 0, 5, 50) := by
  decide +kernel

theorem test_power_loss : see (.powerLoss true) busy (fun d => ((d.queue 1).st, (d.ctx 2).state, d.thr.stores.map Stg.seq, d.timeBase, d.life.always))
      = some (.absent, 0, [4], 0, false)
    ∧ see (.powerLoss false) busy (fun d => ((d.ctx 2).state, (d.ctx 3).state, d.life.supplies, d.life.always, d.timeBase)) = some (5, 0, false, true, 50) := by
  decide +kernel

def unpowered : Dev := { busy with life := { busy.life with always := false, supplies := false, thermtrip := true } }
def mainsLost : Dev := { busy with life := { busy.life with supplies := false } }
theorem test_power_on : see (.powerOn none [] {}) unpowered (fun d => (d.timeBase, (d.ctx 2).state, d.life.thermtrip, d.life.tripSeen, d.life.supplies))
      = some (0, 0, false, true, true) := by decide +kernel
theorem test_mains_return : see (.powerOn none [] {}) mainsLost (fun d => (d.timeBase, (d.ctx 2).state, (d.ctx 3).state, d.life.supplies)) = some (50, 5, 0, true) := by
  decide +kernel
theorem test_power_stays : see (.powerOn none [] {}) (busy.fput F.LM_STAT_STAGE 4) id = some (busy.fput F.LM_STAT_STAGE 4) := by decide +kernel

theorem test_refclk : see .refclkLoss busy (fun d => (d.life.refclk, d.fget (F.FC_SRC_COUNT 474))) = some (false, 1)
    ∧ see .refclkLoss parkedUp (fun d => (d.life.refclk, d.fget (F.FC_SRC_COUNT 474))) = some (false, 0)
    ∧ see (.refclkReturn {}) { mainsLost with life := { mainsLost.life with refclk := false } } (fun d => (d.life.refclk, (d.ctx 2).state, d.timeBase))
      = some (true, 0, 0) := by decide +kernel

/-! ### Parking, gating and IDLE -/

/-- READY, context 2 RUNNING and context 4 RUNNING with FABRIC. -/
def ready4 : Dev := ((({} : Dev).fput F.LM_STAT_STAGE 4).setCtx 2 { state := 2 }).setCtx 4 { state := 2, prog := { fabric := true } }
theorem test_shelf_dark : ({ ready4 with life := { ready4.life with shelfDark := true } } : Dev).mayPark = true ∧ ready4.jamb.cmds = [] ∧ ready4.oget O.DARK_ACTION = 0
    ∧ (ready4.shelfDarkAssert.ctx 2).state = 4 ∧ (ready4.shelfDarkAssert.ctx 4).state = 3
    ∧ see .shelfDarkAssert ready4 (fun d => d.life.parking) = some true
    ∧ see .shelfDarkAssert {} (fun d => (d.life.shelfDark, d.life.parking)) = some (true, false) := by decide +kernel

def gathered : Dev := let d := (({} : Dev).fput F.LM_STAT_STAGE 4).setCtx 2 { state := 5 }
  { d with life := { d.life with parking := true, shelfDark := true }, dig := { d.dig with slots := [(5, { type := 2 })] } }
theorem test_park_ok : gathered.parkReady = true ∧ ready4.parkReady = false ∧ see (.parkOkAssert {}) {} id = some {}
    ∧ see (.parkOkAssert {}) gathered (fun d => (d.life.parked, d.life.parkOk, d.mem.selfRefresh, (d.ctx 2).state, d.slot 5)) = some (true, true, true, 5, {}) := by
  decide +kernel

theorem test_shelf_lit : see (.shelfDarkDeassert {}) parkedUp (fun d => (d.life.parked, (d.ctx 2).state)) = some (false, 5) := by decide +kernel
theorem test_shelf_lit_unparked : see (.shelfDarkDeassert {}) { life := { ({} : Life) with shelfDark := true } } id = some {} := by
  decide +kernel

theorem test_gate : up.casementFree 0 = true ∧ up.oget O.CASEMENT_GATE_TIME ≠ 0 ∧ see (.casementGateTimeout 0) up (fun d => d.fget (F.CS_STAT_STATE 0)) = some 1
    ∧ (up.setLvBank 0 3 { table := some 1 }).casementFree 0 = false
    ∧ see (.casementGateTimeout 0) (up.setLvBank 0 3 { table := some 1 }) (fun d => d.fget (F.CS_STAT_STATE 0)) = some 3 := by decide +kernel

theorem test_ungate : ({} : Dev).fget (F.CS_STAT_STATE 3) = 1
    ∧ see (.casementUngate 3) { life := { ({} : Life) with microcode := [(3, { version := 7 })] } } (fun d => (d.fget (F.CS_STAT_STATE 3), d.fget (F.CS_MC_VER_VERSION 3)))
      = some (3, 7) := by decide +kernel

theorem test_idle : ({} : Dev).idleFree = true ∧ ({} : Dev).oget O.IDLE_TIME ≠ 0
    ∧ see .idleTimeout {} (fun d => (d.life.idle, d.mem.selfRefresh)) = some (true, true)
    ∧ see .idleExit { life := { ({} : Life) with idle := true } } (fun d => d.life.idle) = some false
    ∧ see .idleExit {} id = some {} := by decide +kernel

/-! ### Sensors and the rail -/

theorem test_thermtrip : see .thermtrip {} (fun d => (d.halted, d.life.thermtrip, d.out.contains .thermtrip)) = some (true, true, true)
    ∧ see .thermtrip { life := { ({} : Life) with thermtrip := true } } (fun d => d.halted) = some false := by decide +kernel

/-- A target of 800 mV: 785 mV is off by less than 2 %, 783 mV by more. -/
def rail : Dev := (({} : Dev).fput F.LM_STAT_STAGE 4).fput F.AVS_TARGET_MV 800
theorem test_avs : see (.avsStep 783 5 true []) rail (fun d => (d.fget F.AVS_STAT_VOUT_MV, d.fget F.AVS_STAT_IOUT_A, d.fget (F.FC_SRC_COUNT 475))) = some (783, 5, 1)
    ∧ see (.avsStep 785 5 true []) rail (fun d => d.fget (F.FC_SRC_COUNT 475)) = some 0
    ∧ see (.avsStep 785 5 true []) ((rail.fputB F.AVS_OVR_EN true).fput F.AVS_OVR_MV 850) (fun d => (d.fget F.AVS_TARGET_MV, d.out)) = some (850, [.avs 850]) := by
  decide +kernel

/-- Windows of Casement 0, in service since before the window began or within it, and of Casement 3, which is gated. -/
def crates (d : Dev) : List (List Nat) :=
  [0, 3].map (fun c => [F.CRATE_C_RATE c, F.CRATE_C_TJ c, F.CRATE_C_GATED c, F.CRATE_C_VALID c].map d.fget)
def upSince (w : Nat) : Dev := { up with life := { up.life with wholeWindow := w } }
theorem test_crate : see (.crateWindowClose (List.replicate 4 ⟨2000, 60⟩)) (upSince 1) crates = some [[2000, 60, 0, 1], [0, 60, 1, 0]]
    ∧ see (.crateWindowClose (List.replicate 4 ⟨2000, 60⟩)) (upSince 0) (fun d => (crates d, d.life.wholeWindow)) = some ([[2000, 60, 0, 0], [0, 60, 1, 0]], 1) := by
  decide +kernel

/-! ### Firmware and fuses -/

/-- Slot 0 booted, an image of 16 zero bytes at engine address 0. -/
def mail : Dev := ((({ mem := { nearUp := 1 } } : Dev).fput F.LM_STAT_STAGE 4).fput F.LM_LEN_LEN 16)
def handing : Dev := { mail with life := { mail.life with handoff := some ({}, 0, false) } }
def lmResult (d : Dev) : List Nat := [F.LM_RESULT_OP, F.LM_RESULT_CODE, F.LM_RESULT_CHECK, F.LM_RESULT_DONE].map d.fget

theorem test_flash_write : mail.life.slot = 0 ∧ see (.flashWrite 0 false false) mail lmResult = some [1, 2, 0, 1]
    ∧ see (.flashWrite 1 false true) mail lmResult = some [1, 3, 0, 1]
    ∧ see (.flashWrite 1 false false) mail (fun d => (lmResult d, d.flashImage false 1)) = some ([1, 1, 1, 1], zeros 16)
    ∧ see (.flashWrite 1 true false) (mail.fput F.LM_LEN_LEN (2 ^ 23 + 1)) lmResult = some [1, 2, 0, 1] := by decide +kernel

theorem test_firmware_commit : see (.firmwareCommit false) { mail with life := { mail.life with slot := 1, boot := [(3, 0)] } } (fun d => (lmResult d, d.life.preferred))
      = some ([4, 0, 0, 1], 1)
    ∧ see (.firmwareCommit true) mail lmResult = some [4, 3, 0, 1] ∧ see (.firmwareCommit false) { mail with life := { mail.life with slot := 2 } } lmResult = some [4, 2, 0, 1] := by
  decide +kernel

theorem test_recover_refused : see (.recover {}) mail lmResult = some [5, 2, 0, 1]
    ∧ see (.recover {}) (mail.fput F.LM_STAT_STAGE 5) lmResult = some [5, 1, 1, 1] := by decide +kernel

theorem test_activate_refused : see (.activateLintel 1 true) handing lmResult = some [2, 2, 0, 1]
    ∧ see (.activateLintel 1 true) mail lmResult = some [2, 1, 1, 1] ∧ see (.activateCasement 0 1 true) handing lmResult = some [3, 2, 0, 1]
    ∧ see (.activateCasement 0 1 true) mail lmResult = some [3, 1, 1, 1]
    ∧ see .handoffTimeout ((handing.fput F.LM_STAT_STAGE 6).fputB F.JB_STAT_HOLD true) (fun d => (lmResult d, d.fget F.LM_STAT_STAGE, d.fget F.JB_STAT_HOLD))
      = some ([2, 4, 0, 1], 4, 0) := by decide +kernel

/-- Images with an empty body, of version 7, signed with the private number 1 and the nonce 5: Lintel firmware and microcode. -/
def signedImage (kind sig : Nat) : Bytes :=
  overlay 0x20 [(0, 4, 0x57464C46), (4, 2, 1), (6, 2, kind), (8, 4, 7)] ++ leBytes 48 0x5bb99848f1d21ad5fb656fe7bfde4e27dae1f663bfc70c4c4307be1411b7fd216ae3b1b17e32d94c3896ac51a760b038
  ++ leBytes 96 0x5f0eea907c1d437a9d817e1dceb1600ac0b8f0b51331dae97c149a28bd1df4f829dc9292bf989e5d6f2c26964ade1736b70a7672385e543a6c2955bf5df20255382a5482e041f759989ba78b623b1d6e74ad20f31ec7b18e37058bbe22ca87aa
  ++ leBytes 96 sig ++ zeros 0xF0
def lintelImage : Bytes := signedImage 1
  0xaa52f51dcef95dcc3f42d5b291e52e6e13518c3ab89578117a949f8db66bdbf74bcd4c2159c4b509a0927fbc66fae618bc846d83c3dbbc0ae697a21c4a2f8837b08365e5cb61664fc58ff9bf1de508f267e425a05eac3c5777c751c2a224de11
def microImage : Bytes := signedImage 2
  0xa8cedbd0caecdd7b68acedab0bb10e193990443a124f598f4e512ebddeeedd4599af28ab88a901ad7b2622bf2ba04f2dbc846d83c3dbbc0ae697a21c4a2f8837b08365e5cb61664fc58ff9bf1de508f267e425a05eac3c5777c751c2a224de11

/-- A part fused with the hash of that key as its first signer's, both images in slot 1. -/
def trusting : Dev := { mail with life := { mail.life with
  lintel := [(1, lintelImage)], micro := [(1, microImage)]
  fused := (List.range 12).map (fun i => (12 + i, 0x654b811f19e108eab70600d86aa5f04bfad296f7d87d69500977a9c8d122aa9478e155e5cfb05280eb82b571b14d9da1 / 2 ^ (32 * i) % 2 ^ 32)) } }

theorem test_images : imageReject trusting.trust 1 lintelImage = 0 ∧ imageReject trusting.trust 2 microImage = 0
    ∧ imageReject mail.trust 1 lintelImage = 2 := by decide +kernel

theorem test_activate_lintel : see (.activateLintel 1 true) trusting (fun d => (lmResult d, d.life.running.version, d.life.slot, d.fget F.LM_STAT_TRIAL))
      = some ([2, 0, 0, 1], 7, 1, 1) := by
  decide +kernel

def fenced0 : Dev := trusting.fput (F.CS_STAT_STATE 0) 6
theorem test_activate_casement : see (.activateCasement 0 1 true) fenced0 (fun d => (lmResult d, d.fget (F.CS_STAT_STATE 0), d.fget (F.CS_MC_VER_VERSION 0)))
      = some ([3, 0, 0, 1], 3, 7) := by decide +kernel

/-- RECOVER of the image at host address 0. -/
def lost : Dev := { (trusting.fput F.LM_STAT_STAGE 5).fput F.LM_LEN_LEN 512 with host := (lintelImage.zipIdx.map (fun b => (b.2, b.1))).filter (fun c => c.2 ≠ 0) }
theorem test_recover : see (.recover {}) lost (fun d => (lmResult d, d.life.running.version, d.life.slot, d.fget F.LM_STAT_STAGE)) = some ([5, 0, 0, 1], 7, 2, 4) := by
  decide +kernel

/-- Word 11 is of the seed, word 12 is not; word 100 has bit 0 burned. -/
def burned : Dev := ({ life := { ({} : Life) with fuses := [(11, 5), (12, 6), (100, 1)] } } : Dev).fput F.FUSE_DATA_DATA 2
theorem test_fuses : see (.fuseRead 11) burned (fun d => d.fget F.FUSE_DATA_DATA) = some 0 ∧ see (.fuseRead 12) burned (fun d => d.fget F.FUSE_DATA_DATA) = some 6
    ∧ see (.fuseProgram 100) burned (fun d => [11, 100].map (Sparse.get 0 d.life.fuses)) = some [5, 3] := by decide +kernel

/-! ### Registers and the aperture -/

/-- A command is refused for the reason that R412 gives. -/
def refusedTest (i : Instr) (d : Dev) : Bool :=
  match Sys2Proof.Machine.exec i { dev := d } with
  | .refused .testMode => true
  | _ => false

theorem test_register_write : refusedTest (.registerWrite false 0x10 4 1) {} = true
    ∧ see (.registerWrite false 0xE 4 5) {} id = some {} ∧ see (.registerWrite false 0xC 2 5) {} id = some {}
    ∧ see (.registerWrite false 0xC 4 5) {} (fun d => d.fget F.APT_BASE_BASE) = some 5 := by decide +kernel

/-- LM_ADDR_LO, in a slow block. -/
theorem test_slow_write : slowBlock 0x10008 = some 0 ∧ ({} : Dev).present 0x10008 = true
    ∧ see (.registerWrite false 0x10008 4 0x1000) {} (fun d => (d.fget F.LM_ADDR_LO_ADDR, d.fgetB (wpend 0))) = some (0x1000, true)
    ∧ see (.registerWrite false 0x10008 4 0x1000) (({} : Dev).fputB (wpend 0) true) (fun d => (d.fget F.LM_ADDR_LO_ADDR, d.fget F.GL_STAT_DROP_COUNT)) = some (0, 1) := by
  decide +kernel

theorem test_bar4 : see (.bar4Access 64 (.write [7])) mail (fun d => d.engByte 64) = some 7
    ∧ see (.bar4Access 64 (.read 4)) { mail with life := { mail.life with idle := true } } (fun d => d.life.idle) = some false := by decide +kernel

end Sys2Proof.Tests
end

/-! ## The machine as a whole: what one step does, and how an idle engine keeps time -/

namespace Sys2Proof.Machine

/-! ### The two cases of a step -/

theorem step_of_pending_cons {s : State} {c : Instr} {q : List Instr} (h : s.pending = c :: q) :
    step s = exec c { s with pending := q } := by
  simp only [step, h, State.rest]

theorem step_of_pending_nil {s : State} (h : s.pending = []) :
    step s = .next { s with dev := s.dev.tick } := by
  simp only [step, h]

/-! ### The time base of an idle engine (R13, R468) -/

theorem Dev.tick_timeBase {d : Dev} (ha : d.life.always = true) (hc : d.life.refclk = true) :
    d.tick.timeBase = (d.timeBase + 10) % 2 ^ 64 := by
  simp only [Dev.tick, ha, hc, and_self, if_true]

theorem Dev.tick_of_stopped {d : Dev} (h : d.life.always = false ∨ d.life.refclk = false) :
    d.tick = d := by
  have hstop : ¬ (d.life.always = true ∧ d.life.refclk = true) := by
    rintro ⟨ha, hc⟩
    simp [ha, hc] at h
  exact if_neg hstop

/-! ### The statements -/

/-- Settles O1: the two cases of a step. -/
theorem stepRunsTheFrontCommand : Obligations.StepRunsTheFrontCommand :=
  ⟨fun _ _ _ => step_of_pending_cons rfl, fun _ => step_of_pending_nil⟩

/-- Settles O2: an idle step is a tick of the device, which either counts 10 ns or stands still. -/
theorem idleTickCountsTime : Obligations.IdleTickCountsTime := by
  intro s hidle
  refine ⟨{ s with dev := s.dev.tick }, step_of_pending_nil hidle, hidle, Dev.tick_timeBase, ?_⟩
  intro hstopped
  rw [Dev.tick_of_stopped hstopped]

end Sys2Proof.Machine

/-! ## Sensors and the rail (R26, R27, R463, R467, R476) -/

namespace Sys2Proof.Machine

/-! ### Raising a fault source: its fields and its messages (R422 to R426) -/

theorem satAdd_mod (w a b : Nat) : satAdd w a b % 2 ^ w = satAdd w a b :=
  Nat.mod_eq_of_lt (by have := Nat.two_pow_pos w; unfold satAdd; omega)

theorem collectorOf_le (n : Nat) : collectorOf n ≤ 104 := by
  unfold collectorOf
  split_ifs <;> omega

/-- A raising puts its messages behind those that have gone out. -/
theorem Dev.raiseVector_out (d : Dev) (v : Nat) : ∃ l, (d.raiseVector v).out = d.out ++ l := by
  unfold Dev.raiseVector
  dsimp only
  split_ifs
  · exact ⟨[], (List.append_nil _).symm⟩
  · exact ⟨_, rfl⟩
  · exact ⟨[], (List.append_nil _).symm⟩

@[simp] theorem Dev.fget_faultIrq (d : Dev) (g : Fld) : d.faultIrq.fget g = d.fget g := by
  simp only [Dev.fget, Dev.faultIrq, Dev.raiseVector_flds]

/-- A field that lies outside the collectors' records is left alone by a capture. -/
theorem Dev.fget_faultCapture (d : Dev) (n sev syn : Nat) (injected : Bool) (g : Fld)
    (h : g.key < fldKey 0xB01000 0 ∨ fldKey 0xB03000 0 ≤ g.key) :
    (d.faultCapture n sev syn injected).1.fget g = d.fget g := by
  have hi := collectorOf_le n
  simp only [fldKey] at h
  unfold Dev.faultCapture
  dsimp only
  split
  · rw [Dev.fget_fputB_ne, Dev.ocount, Dev.fget_oput, Dev.fget_fputB_ne]
    all_goals simp only [F.FC_REC_STAT_INJ, F.FC_REC_STAT_OVERFLOW, fldKey]; omega
  · simp only [List.foldl_cons, List.foldl_nil]
    rw [Dev.ocount, Dev.fget_oput, Dev.fget_fput_ne, Dev.fget_fput_ne, Dev.fget_fput_ne, Dev.fget_fput_ne, Dev.fget_fput_ne,
      Dev.fget_fput_ne, Dev.fget_fputB_ne, Dev.fget_fputB_ne, Dev.fget_fputB_ne, Dev.fget_fput_ne, Dev.fget_fput_ne]
    all_goals
      simp only [F.FC_REC_STAT_SOURCE, F.FC_REC_STAT_SEV, F.FC_REC_STAT_INJ, F.FC_REC_STAT_OVERFLOW, F.FC_REC_STAT_VALID,
        F.FC_REC_SYN_SYN, F.FC_REC_TIME_LO_TIME, F.FC_REC_TIME_HI_TIME, fldKey]
      omega

@[simp] theorem Dev.faultCapture_out (d : Dev) (n sev syn : Nat) (injected : Bool) :
    (d.faultCapture n sev syn injected).1.out = d.out := by
  unfold Dev.faultCapture
  dsimp only
  split <;> simp

/-- The reactions that are owed are no field. -/
theorem Dev.fget_reacts (d : Dev) (r : List (Nat × Nat × Nat)) (g : Fld) : ({ d with reacts := r } : Dev).fget g = d.fget g := rfl

/-- Raising a source of the table: it is counted, and of the fields only the records change beyond that. -/
theorem Dev.fget_faultRaise (d : Dev) (n syn : Nat) (injected : Bool) (g : Fld) (hn : faultListed n = true)
    (h : g.key < fldKey 0xB01000 0 ∨ fldKey 0xB03000 0 ≤ g.key) :
    (d.faultRaise n syn injected).fget g = (d.faultCount n).fget g := by
  unfold Dev.faultRaise
  rw [if_pos hn]
  dsimp only
  split_ifs
  · rfl
  · rw [Dev.fget_faultIrq, Dev.fget_faultCapture _ _ _ _ _ _ h]
  · rw [Dev.fget_reacts, Dev.fget_faultIrq, Dev.fget_faultCapture _ _ _ _ _ _ h]

theorem Dev.faultRaise_out (d : Dev) (n syn : Nat) (injected : Bool) :
    ∃ l, (d.faultRaise n syn injected).out = d.out ++ l := by
  have hcount : (d.faultCount n).out = d.out := by simp
  unfold Dev.faultRaise
  dsimp only
  split_ifs
  · exact ⟨[], by rw [hcount, List.append_nil]⟩
  · obtain ⟨l, hl⟩ := Dev.raiseVector_out _ _
    exact ⟨l, by rw [Dev.faultIrq, hl, Dev.faultCapture_out, hcount]⟩
  · obtain ⟨l, hl⟩ := Dev.raiseVector_out _ _
    exact ⟨l, by rw [Dev.faultIrq, hl, Dev.faultCapture_out, hcount]⟩
  · exact ⟨[], (List.append_nil _).symm⟩

/-- What has gone out stays out when a source is raised. -/
theorem Dev.mem_faultRaise_out {d : Dev} {o : Out} (n syn : Nat) (injected : Bool) (h : o ∈ d.out) :
    o ∈ (d.faultRaise n syn injected).out := by
  obtain ⟨l, hl⟩ := Dev.faultRaise_out d n syn injected
  exact hl ▸ List.mem_append_left l h

/-! ### The thermal trip (R463) -/

/-- A halt keeps what the pipelines and the memories hold. -/
theorem Dev.halt_frame (d : Dev) (n syn : Nat) :
    (d.halt n syn).halted = true ∧ (d.halt n syn).pipes = d.pipes ∧ (d.halt n syn).mem = d.mem
      ∧ (d.halt n syn).host = d.host := by
  unfold Dev.halt
  split_ifs with h
  · exact ⟨h, rfl, rfl, rfl⟩
  · simp

/-- The record of a halt is of the time and the sticky bits at which it came. -/
theorem Dev.halt_haltRec {d : Dev} (h : d.halted = false) (n syn : Nat) :
    (d.halt n syn).thr = { d.thr with haltRec := d.haltRecord n syn } := by
  unfold Dev.halt
  rw [if_neg (by simp [h])]
  simp [Dev.haltRecord, Dev.fget]

theorem Dev.halt_of_halted {d : Dev} (h : d.halted = true) (n syn : Nat) : d.halt n syn = d := by
  unfold Dev.halt
  rw [if_pos h]

theorem thermtrip_brings {s : State} (hp : s.dev.powered = true) (ht : s.dev.life.thermtrip = false) :
    Brings .thermtrip s (fun d =>
      d.halted = true ∧ d.life.thermtrip = true ∧ Out.thermtrip ∈ d.out
      ∧ (s.dev.halted = false → d.thr.haltRec = s.dev.haltRecord 0xFFFF 0) ∧ (s.dev.halted = true → d.thr = s.dev.thr)
      ∧ d.pipes = s.dev.pipes ∧ d.mem = s.dev.mem ∧ d.host = s.dev.host) := by
  obtain ⟨hhalted, hpipes, hmem, hhost⟩ := Dev.halt_frame s.dev 0xFFFF 0
  refine ⟨s.dev.thermTrip, servePowered_of Dev.thermTrip hp, ?_⟩
  rw [Dev.thermTrip, if_neg (by simp [ht])]
  refine ⟨hhalted, rfl, List.mem_append_right _ (List.mem_singleton_self _), fun h => ?_, fun h => ?_, hpipes, hmem, hhost⟩
  · exact congrArg Thr.haltRec (Dev.halt_haltRec h 0xFFFF 0)
  · exact (congrArg Dev.thr (Dev.halt_of_halted h 0xFFFF 0) :)

/-- A trip that has come changes nothing when it comes again. -/
theorem thermtrip_again {s : State} (hp : s.dev.powered = true) (ht : s.dev.life.thermtrip = true) :
    Lands .thermtrip s (fun d => d = s.dev) := by
  have hsame : s.dev.thermTrip = s.dev := if_pos ht
  have hexec : exec .thermtrip s = .next { s with dev := s.dev.settle } := by
    rw [show exec .thermtrip s = _ from servePowered_of Dev.thermTrip hp, hsame]
  exact ⟨s.dev, hexec, rfl, fun hcalm => by rw [hexec, Dev.settle_calm _ hcalm]⟩

/-! ### A step of the rail (R467, R476) -/

/-- A sensor's place takes its reading, or none where its die is not powered. -/
def Dev.sense (d : Dev) (q : Option (BitVec 8) × Nat) : Dev :=
  (d.fput (F.SENS_TEMP_TEMP q.2) (q.1.elim 0 BitVec.toNat)).fputB (F.SENS_TEMP_VALID q.2) q.1.isSome

/-- The readings that a step takes: the regulator's, with whether the voltage strays, and the sensors'. -/
def Dev.railRead (d : Dev) (vout iout : Nat) (away : Bool) (temps : List (Option (BitVec 8))) : Dev :=
  temps.zipIdx.foldl Dev.sense
    (((d.fput F.AVS_STAT_VOUT_MV vout).fput F.AVS_STAT_IOUT_A iout).fputB F.AVS_STAT_FAULT away)

/-- The target that a step sends: the one that overrides, or that of the mode. -/
def Dev.railNext (d : Dev) (vout iout : Nat) : Nat :=
  if d.fgetB F.AVS_OVR_EN then d.fget F.AVS_OVR_MV else d.railTarget vout iout

/-- A target goes out. -/
def Dev.railSend (d : Dev) (next : Nat) : Dev :=
  ((d.fput F.AVS_TARGET_MV next).fput F.AVS_TARGET_MODE d.voltMode).emit (.avs next)

/-- Whether the reading has stayed off the target by more than 2 %. -/
def Dev.railAway (d : Dev) (vout : Nat) (drifted : Bool) : Bool :=
  drifted && decide (d.fget F.AVS_TARGET_MV < ((vout - d.fget F.AVS_TARGET_MV) + (d.fget F.AVS_TARGET_MV - vout)) * 50)

/-- What a step of the rail does before any source is raised. -/
def Dev.railStep (d : Dev) (vout iout : Nat) (drifted : Bool) (temps : List (Option (BitVec 8))) : Dev :=
  let r := d.railRead vout iout (d.railAway vout drifted) temps
  r.railSend (r.railNext vout iout)

/-- A step of the rail: the readings, the target, and source 475 where the reading strays. -/
theorem Dev.avsStep_eq {d : Dev} (hst : d.fget F.LM_STAT_STAGE = 4 ∨ d.fget F.LM_STAT_STAGE = 6) (vout iout : Nat)
    (drifted : Bool) (temps : List (Option (BitVec 8))) :
    d.avsStep vout iout drifted temps =
      if d.railAway vout drifted then (d.railStep vout iout drifted temps).faultRaise 475 0 false
      else d.railStep vout iout drifted temps := by
  unfold Dev.avsStep
  rw [if_neg (by rintro ⟨h4, h6⟩; exact hst.elim h4 h6)]
  rfl

/-- The sensors' readings touch no field below theirs. -/
theorem Dev.fget_sense_foldl (d : Dev) (l : List (Option (BitVec 8) × Nat)) {g : Fld} (h : g.key < fldKey 0xE00400 0) :
    (l.foldl Dev.sense d).fget g = d.fget g := by
  refine foldl_keeps (fun e : Dev => e.fget g = d.fget g) _ (fun e q he => ?_) l d rfl
  simp only [fldKey] at h
  rw [Dev.sense, Dev.fget_fputB_ne, Dev.fget_fput_ne, he]
  all_goals simp only [F.SENS_TEMP_TEMP, F.SENS_TEMP_VALID, fldKey]; omega

/-- Of the fields below the sensors' the readings touch AVS_STAT alone. -/
theorem Dev.fget_railRead (d : Dev) (vout iout : Nat) (away : Bool) (temps : List (Option (BitVec 8))) {g : Fld}
    (h : g.key < fldKey 0xE00400 0)
    (hs : g.key ∉ [F.AVS_STAT_VOUT_MV.key, F.AVS_STAT_IOUT_A.key, F.AVS_STAT_FAULT.key]) :
    (d.railRead vout iout away temps).fget g = d.fget g := by
  simp only [List.mem_cons, List.not_mem_nil, or_false, not_or] at hs
  obtain ⟨hv, hi, hf⟩ := hs
  rw [Dev.railRead, Dev.fget_sense_foldl _ _ h, Dev.fget_fputB_ne _ _ hf, Dev.fget_fput_ne _ _ hi, Dev.fget_fput_ne _ _ hv]

/-- A target that goes out touches AVS_TARGET alone. -/
theorem Dev.fget_railSend (d : Dev) (next : Nat) {g : Fld}
    (hs : g.key ∉ [F.AVS_TARGET_MV.key, F.AVS_TARGET_MODE.key]) : (d.railSend next).fget g = d.fget g := by
  simp only [List.mem_cons, List.not_mem_nil, or_false, not_or] at hs
  obtain ⟨hv, hm⟩ := hs
  rw [Dev.railSend, Dev.fget_emit, Dev.fget_fput_ne _ _ hm, Dev.fget_fput_ne _ _ hv]

theorem Dev.fget_railSend_target (d : Dev) (next : Nat) : (d.railSend next).fget F.AVS_TARGET_MV = next % 2 ^ 12 := by
  rw [Dev.railSend, Dev.fget_emit, Dev.fget_fput_ne _ _ (by decide), Dev.fget_fput]
  rfl

/-- A step shows the regulator's readings. -/
theorem Dev.fget_railStep_readings (d : Dev) (vout : BitVec 12) (iout : BitVec 10) (drifted : Bool)
    (temps : List (Option (BitVec 8))) :
    (d.railStep vout.toNat iout.toNat drifted temps).fget F.AVS_STAT_VOUT_MV = vout.toNat
      ∧ (d.railStep vout.toNat iout.toNat drifted temps).fget F.AVS_STAT_IOUT_A = iout.toNat := by
  constructor
  · rw [Dev.railStep, Dev.fget_railSend _ _ (by decide), Dev.railRead, Dev.fget_sense_foldl _ _ (by decide),
      Dev.fget_fputB_ne _ _ (by decide), Dev.fget_fput_ne _ _ (by decide), Dev.fget_fput]
    exact Nat.mod_eq_of_lt vout.isLt
  · rw [Dev.railStep, Dev.fget_railSend _ _ (by decide), Dev.railRead, Dev.fget_sense_foldl _ _ (by decide),
      Dev.fget_fputB_ne _ _ (by decide), Dev.fget_fput]
    exact Nat.mod_eq_of_lt iout.isLt

/-- The counts of the sources are no field of the rail's. -/
theorem Dev.fget_railStep_count (d : Dev) (vout iout : Nat) (drifted : Bool) (temps : List (Option (BitVec 8))) :
    (d.railStep vout iout drifted temps).fget (F.FC_SRC_COUNT 475) = d.fget (F.FC_SRC_COUNT 475) := by
  rw [Dev.railStep, Dev.fget_railSend _ _ (by decide), Dev.fget_railRead _ _ _ _ _ (by decide) (by decide)]

/-- The step reads the override as it stands. -/
theorem Dev.railNext_railRead_of_override {d : Dev} (h : d.fgetB F.AVS_OVR_EN = true) (vout iout : Nat) (away : Bool)
    (temps : List (Option (BitVec 8))) :
    (d.railRead vout iout away temps).railNext vout iout = d.fget F.AVS_OVR_MV := by
  have hen : (d.railRead vout iout away temps).fgetB F.AVS_OVR_EN = true := by
    rw [Dev.fgetB, Dev.fget_railRead _ _ _ _ _ (by decide) (by decide)]
    exact h
  rw [Dev.railNext, if_pos hen, Dev.fget_railRead _ _ _ _ _ (by decide) (by decide)]

/-- The limits of a target lie within 650 to 900 mV, whatever their objects hold. -/
theorem Dev.railLimit_bounds (d : Dev) (v : Nat) : 650 ≤ d.railLimit v ∧ d.railLimit v ≤ 900 := by
  unfold Dev.railLimit Dev.oclamp
  omega

theorem Dev.railNext_railRead_bounds {d : Dev} (h : d.fgetB F.AVS_OVR_EN = false) (vout iout : Nat) (away : Bool)
    (temps : List (Option (BitVec 8))) :
    650 ≤ (d.railRead vout iout away temps).railNext vout iout ∧ (d.railRead vout iout away temps).railNext vout iout ≤ 900 := by
  have hen : ¬ (d.railRead vout iout away temps).fgetB F.AVS_OVR_EN = true := by
    rw [Dev.fgetB, Dev.fget_railRead _ _ _ _ _ (by decide) (by decide), ← Dev.fgetB, h]
    exact Bool.false_ne_true
  rw [Dev.railNext, if_neg hen]
  exact Dev.railLimit_bounds _ _

/-- A step of the rail leaves the pipelines and the memories as they were. -/
theorem Dev.railStep_frame (d : Dev) (vout iout : Nat) (drifted : Bool) (temps : List (Option (BitVec 8))) :
    (d.railStep vout iout drifted temps).pipes = d.pipes ∧ (d.railStep vout iout drifted temps).mem = d.mem :=
  ⟨foldl_pipes Dev.sense _ _ fun _ _ => rfl, foldl_mem Dev.sense _ _ fun _ _ => rfl⟩

/-- A step of the rail puts its target out. -/
theorem Dev.mem_railSend_out (d : Dev) (next : Nat) : Out.avs next ∈ (d.railSend next).out :=
  List.mem_append_right _ (List.mem_singleton_self _)

/-- What a step shows, puts out and leaves, it does so whether or not its reading strays: raising source 475 adds to the
count of that source and to what has gone out. -/
theorem Dev.avsStep_facts {d : Dev} (hst : d.fget F.LM_STAT_STAGE = 4 ∨ d.fget F.LM_STAT_STAGE = 6) (vout iout : Nat)
    (drifted : Bool) (temps : List (Option (BitVec 8))) :
    let t := d.railStep vout iout drifted temps
    let a := d.avsStep vout iout drifted temps
    (∀ g : Fld, fldKey 0xB03000 0 ≤ g.key → a.fget g = t.fget g) ∧ (∀ o ∈ t.out, o ∈ a.out)
      ∧ a.pipes = t.pipes ∧ a.mem = t.mem := by
  dsimp only
  rw [Dev.avsStep_eq hst]
  split_ifs
  · refine ⟨fun g hg => ?_, fun o => Dev.mem_faultRaise_out 475 0 false, by simp, by simp⟩
    rw [Dev.fget_faultRaise _ _ _ _ _ (by decide) (.inr hg), Dev.faultCount, Dev.for_]
    simp only [fldKey] at hg
    rw [Dev.fget_fput_ne, Dev.fget_fcount_ne]
    all_goals simp only [F.FC_SRC_COUNT, F.FC_STICKY_BITS, fldKey]; omega
  · exact ⟨fun _ _ => rfl, fun _ h => h, rfl, rfl⟩

/-- Source 475 is counted where the reading strays, and only there. -/
theorem Dev.avsStep_count {d : Dev} (hst : d.fget F.LM_STAT_STAGE = 4 ∨ d.fget F.LM_STAT_STAGE = 6) (vout iout : Nat)
    (drifted : Bool) (temps : List (Option (BitVec 8))) :
    (d.avsStep vout iout drifted temps).fget (F.FC_SRC_COUNT 475)
      = if d.railAway vout drifted then satAdd 16 (d.fget (F.FC_SRC_COUNT 475)) 1 else d.fget (F.FC_SRC_COUNT 475) := by
  rw [Dev.avsStep_eq hst]
  split_ifs
  · rw [Dev.fget_faultRaise _ _ _ _ _ (by decide) (.inl (by decide)), Dev.faultCount, Dev.for_,
      Dev.fget_fput_ne _ _ (by decide), Dev.fget_fcount, Dev.fget_railStep_count]
    exact satAdd_mod 16 _ 1
  · exact Dev.fget_railStep_count _ _ _ _ _

theorem avsStep_brings {s : State} (vout : BitVec 12) (iout : BitVec 10) (drifted : Bool) (temps : List (Option (BitVec 8)))
    (hs : s.dev.serves = true) (hst : s.dev.fget F.LM_STAT_STAGE = 4 ∨ s.dev.fget F.LM_STAT_STAGE = 6) :
    let e := s.dev
    let was := e.fget F.AVS_TARGET_MV
    let away := drifted = true ∧ was < ((vout.toNat - was) + (was - vout.toNat)) * 50
    Brings (.avsStep vout iout drifted temps) s (fun d =>
      d.fget F.AVS_STAT_VOUT_MV = vout.toNat ∧ d.fget F.AVS_STAT_IOUT_A = iout.toNat
      ∧ (e.fgetB F.AVS_OVR_EN = true → d.fget F.AVS_TARGET_MV = e.fget F.AVS_OVR_MV % 2 ^ 12
          ∧ Out.avs (e.fget F.AVS_OVR_MV) ∈ d.out)
      ∧ (e.fgetB F.AVS_OVR_EN = false → 650 ≤ d.fget F.AVS_TARGET_MV ∧ d.fget F.AVS_TARGET_MV ≤ 900
          ∧ Out.avs (d.fget F.AVS_TARGET_MV) ∈ d.out)
      ∧ (away → d.fget (F.FC_SRC_COUNT 475) = satAdd 16 (e.fget (F.FC_SRC_COUNT 475)) 1)
      ∧ (¬ away → d.fget (F.FC_SRC_COUNT 475) = e.fget (F.FC_SRC_COUNT 475))
      ∧ d.pipes = e.pipes ∧ d.mem = e.mem) := by
  intro e was away
  have haway : e.railAway vout.toNat drifted = true ↔ away := by
    simp only [Dev.railAway, Bool.and_eq_true, decide_eq_true_eq]
    rfl
  obtain ⟨hfld, hout, hpipes, hmem⟩ := Dev.avsStep_facts hst vout.toNat iout.toNat drifted temps
  obtain ⟨hv, hi⟩ := Dev.fget_railStep_readings e vout iout drifted temps
  obtain ⟨hp, hm⟩ := Dev.railStep_frame e vout.toNat iout.toNat drifted temps
  have hcount := Dev.avsStep_count hst vout.toNat iout.toNat drifted temps
  have htarget := hfld F.AVS_TARGET_MV (by decide)
  rw [Dev.railStep, Dev.fget_railSend_target] at htarget
  have hsent := hout _ (Dev.mem_railSend_out _ _)
  refine brings_of (f := fun d => d.avsStep vout.toNat iout.toNat drifted temps) rfl hs
    ⟨(hfld _ (by decide)).trans hv, (hfld _ (by decide)).trans hi, fun hen => ?_, fun hen => ?_, fun h => ?_, fun h => ?_,
      hpipes.trans hp, hmem.trans hm⟩
  · rw [Dev.railNext_railRead_of_override hen] at htarget hsent
    exact ⟨htarget, hsent⟩
  · obtain ⟨hlo, hhi⟩ := Dev.railNext_railRead_bounds hen vout.toNat iout.toNat (e.railAway vout.toNat drifted) temps
    rw [Nat.mod_eq_of_lt (Nat.lt_of_le_of_lt hhi (by decide))] at htarget
    rw [htarget]
    exact ⟨hlo, hhi, hsent⟩
  · exact hcount.trans (if_pos (haway.mpr h))
  · exact hcount.trans (if_neg (mt haway.mp h))

/-! ### The measured core rate (R26, R27) -/

theorem bitAt_eq_testBit (n i : Nat) : bitAt n i = n.testBit i := by
  rw [bitAt, Nat.testBit_eq_decide_div_mod_eq, Nat.shiftRight_eq_div_pow]
  rfl

/-- A number by its bit i and what lies above and below that bit. -/
theorem eq_around_bit (n i : Nat) : n = 2 ^ i * (2 * (n / 2 ^ (i + 1)) + b2n (bitAt n i)) + n % 2 ^ i := by
  have hbit : b2n (bitAt n i) = n / 2 ^ i % 2 := by
    rw [bitAt, Nat.shiftRight_eq_div_pow, b2n]
    have := Nat.mod_two_eq_zero_or_one (n / 2 ^ i)
    rcases this with h | h <;> simp [h]
  rw [hbit, Nat.pow_succ, ← Nat.div_div_eq_div_mul, Nat.div_add_mod, Nat.div_add_mod]

/-- Setting bit i keeps what lies above and below it. -/
theorem setBit_eq (n i : Nat) (b : Bool) : setBit n i b = 2 ^ i * (2 * (n / 2 ^ (i + 1)) + b2n b) + n % 2 ^ i := by
  have hn := eq_around_bit n i
  unfold setBit
  dsimp only
  generalize n / 2 ^ (i + 1) = q at *
  generalize n % 2 ^ i = r at *
  generalize bitAt n i = t at *
  cases t <;> cases b <;> simp only [b2n, Nat.mul_add, if_true, if_false, Bool.false_eq_true] at hn ⊢ <;> omega

theorem bitAt_setBit (n i j : Nat) (b : Bool) : bitAt (setBit n i b) j = if j = i then b else bitAt n j := by
  have hr : n % 2 ^ i < 2 ^ i := Nat.mod_lt _ (Nat.two_pow_pos i)
  have above (c : Bool) (k : Nat) : (2 * (n / 2 ^ (i + 1)) + b2n c).testBit (k + 1) = (n / 2 ^ (i + 1)).testBit k := by
    rw [Nat.testBit_succ]
    congr 1
    cases c <;> simp only [b2n, if_true, if_false, Bool.false_eq_true] <;> omega
  rw [setBit_eq, bitAt_eq_testBit, Nat.testBit_two_pow_mul_add _ hr]
  split_ifs with hlt heq heq
  · omega
  · rw [bitAt_eq_testBit]
    conv_rhs => rw [eq_around_bit n i, Nat.testBit_two_pow_mul_add _ hr, if_pos hlt]
  · subst heq
    rw [Nat.sub_self, Nat.testBit_zero]
    cases b <;> simp [b2n]
  · rw [bitAt_eq_testBit]
    conv_rhs => rw [eq_around_bit n i, Nat.testBit_two_pow_mul_add _ hr, if_neg hlt]
    obtain ⟨k, hk⟩ : ∃ k, j - i = k + 1 := ⟨j - i - 1, by omega⟩
    rw [hk, above, above]

/-- What the end of a window with measurement `x` gives Casement c, of the state `e` it came to. -/
def Dev.crateShown (e d : Dev) (c : Nat) (x : Crate) : Prop :=
  d.fget (F.CRATE_C_RATE c) = (if e.casUp c then x.rate.toNat else 0) ∧ d.fget (F.CRATE_C_TJ c) = x.tj.toNat
    ∧ d.fget (F.CRATE_C_GATED c) = b2n (!e.casUp c)
    ∧ d.fget (F.CRATE_C_VALID c) = b2n (e.casUp c && bitAt e.life.wholeWindow c) ∧ bitAt d.life.wholeWindow c = e.casUp c

/-- The end of a window at Casement j is no matter of a field outside that Casement's own register. -/
theorem Dev.fget_crateClose (d : Dev) (j : Nat) (y : Crate) {g : Fld}
    (h : g.key < fldKey (0xE00200 + j * 0x4) 0 ∨ fldKey (0xE00200 + j * 0x4) 32 ≤ g.key) :
    (d.crateClose j y).fget g = d.fget g := by
  simp only [fldKey] at h
  change (((((d.fput _ _).fput _ _).fputB _ _).fputB _ _)).fget g = d.fget g
  rw [Dev.fget_fputB_ne, Dev.fget_fputB_ne, Dev.fget_fput_ne, Dev.fget_fput_ne]
  all_goals simp only [F.CRATE_C_RATE, F.CRATE_C_TJ, F.CRATE_C_GATED, F.CRATE_C_VALID, fldKey]; omega

theorem Dev.casUp_crateClose (d : Dev) (j : Nat) (y : Crate) {c : Nat} (hc : c < 4) : (d.crateClose j y).casUp c = d.casUp c := by
  rw [Dev.casUp, Dev.fget_crateClose _ _ _ (.inl (by simp only [F.CS_STAT_STATE, fldKey]; omega)), Dev.casUp]

theorem Dev.wholeWindow_crateClose (d : Dev) (j : Nat) (y : Crate) (c : Nat) :
    bitAt (d.crateClose j y).life.wholeWindow c = if c = j then d.casUp j else bitAt d.life.wholeWindow c :=
  bitAt_setBit _ _ _ _

theorem b2n_mod_two (b : Bool) : b2n b % 2 ^ 1 = b2n b := by cases b <;> rfl

/-- The end of a window shows its measurement. -/
theorem Dev.crateClose_shown {e d : Dev} {c : Nat} (x : Crate) (hup : d.casUp c = e.casUp c)
    (hwhole : bitAt d.life.wholeWindow c = bitAt e.life.wholeWindow c) : e.crateShown (d.crateClose c x) c x := by
  have hrate : (if e.casUp c then x.rate.toNat else 0) < 2 ^ 16 := by
    split_ifs
    exacts [x.rate.isLt, by decide]
  refine ⟨?_, ?_, ?_, ?_, ?_⟩
  · change (((((d.fput _ _).fput _ _).fputB _ _).fputB _ _)).fget _ = _
    rw [Dev.fget_fputB_ne, Dev.fget_fputB_ne, Dev.fget_fput_ne, Dev.fget_fput, hup]
    · exact Nat.mod_eq_of_lt hrate
    all_goals simp only [F.CRATE_C_RATE, F.CRATE_C_TJ, F.CRATE_C_GATED, F.CRATE_C_VALID, fldKey]; omega
  · change (((((d.fput _ _).fput _ _).fputB _ _).fputB _ _)).fget _ = _
    rw [Dev.fget_fputB_ne, Dev.fget_fputB_ne, Dev.fget_fput]
    · exact Nat.mod_eq_of_lt x.tj.isLt
    all_goals simp only [F.CRATE_C_TJ, F.CRATE_C_GATED, F.CRATE_C_VALID, fldKey]; omega
  · change (((((d.fput _ _).fput _ _).fputB _ _).fputB _ _)).fget _ = _
    rw [Dev.fget_fputB_ne, Dev.fget_fputB, hup]
    · exact b2n_mod_two _
    · simp only [F.CRATE_C_GATED, F.CRATE_C_VALID, fldKey]; omega
  · change (((((d.fput _ _).fput _ _).fputB _ _).fputB _ _)).fget _ = _
    rw [Dev.fget_fputB, ← hup, ← hwhole]
    exact b2n_mod_two _
  · rw [Dev.wholeWindow_crateClose, if_pos rfl, hup]

/-- The end of a window at another Casement keeps what is shown. -/
theorem Dev.crateShown_crateClose_ne {e d : Dev} {c j : Nat} {x : Crate} (y : Crate) (hcj : c ≠ j) (h : e.crateShown d c x) :
    e.crateShown (d.crateClose j y) c x := by
  obtain ⟨hrate, htj, hgated, hvalid, hwhole⟩ := h
  refine ⟨?_, ?_, ?_, ?_, ?_⟩
  · rwa [Dev.fget_crateClose _ _ _ (by simp only [F.CRATE_C_RATE, fldKey]; omega)]
  · rwa [Dev.fget_crateClose _ _ _ (by simp only [F.CRATE_C_TJ, fldKey]; omega)]
  · rwa [Dev.fget_crateClose _ _ _ (by simp only [F.CRATE_C_GATED, fldKey]; omega)]
  · rwa [Dev.fget_crateClose _ _ _ (by simp only [F.CRATE_C_VALID, fldKey]; omega)]
  · rwa [Dev.wholeWindow_crateClose, if_neg hcj]

/-- Windows of different Casements end one after another, each as on a device where it alone ends. -/
theorem Dev.crateShown_foldl {e : Dev} {c : Nat} {x : Crate} (hc : c < 4) (l : List (Crate × Nat)) (hl : (l.map Prod.snd).Nodup)
    (hx : (x, c) ∈ l) (d : Dev) (hup : d.casUp c = e.casUp c)
    (hwhole : bitAt d.life.wholeWindow c = bitAt e.life.wholeWindow c) :
    e.crateShown (l.foldl (fun d q => d.crateClose q.2 q.1) d) c x := by
  induction l generalizing d with
  | nil => exact absurd hx List.not_mem_nil
  | cons q l ih =>
    rw [List.map_cons, List.nodup_cons] at hl
    rw [List.foldl_cons]
    obtain ⟨hq, hl⟩ := hl
    rcases List.mem_cons.mp hx with rfl | hx
    · have hrest : ∀ p ∈ l, c ≠ p.2 := fun p hp h => hq (List.mem_map.mpr ⟨p, hp, h.symm⟩)
      refine List.foldlRecOn (motive := fun d => e.crateShown d c x) l _ (Dev.crateClose_shown x hup hwhole) fun d hd p hp => ?_
      exact Dev.crateShown_crateClose_ne p.1 (hrest p hp) hd
    · have hne : c ≠ q.2 := fun h => hq (List.mem_map.mpr ⟨(x, c), hx, h⟩)
      refine ih hl hx _ ?_ ?_
      · rw [Dev.casUp_crateClose _ _ _ hc, hup]
      · rw [Dev.wholeWindow_crateClose, if_neg hne, hwhole]

/-- The windows of the Casements' measurements, which come in the Casements' order. -/
theorem Dev.crateWindow_shown (d : Dev) {ws : List Crate} (hws : ws.length ≤ 4) {c : Nat} {x : Crate} (hx : ws[c]? = some x) :
    d.crateShown (d.crateWindow ws) c x := by
  have hc : c < ws.length := (List.getElem?_eq_some_iff.mp hx).1
  have hnodup : (ws.zipIdx.map Prod.snd).Nodup := by
    rw [List.zipIdx_map_snd]
    exact List.nodup_range'
  unfold Dev.crateWindow
  exact Dev.crateShown_foldl (by omega) ws.zipIdx hnodup (List.mem_zipIdx_iff_getElem?.mpr hx) d rfl rfl

theorem Dev.crateWindow_frame (d : Dev) (ws : List Crate) :
    (d.crateWindow ws).objs = d.objs ∧ (d.crateWindow ws).pipes = d.pipes ∧ (d.crateWindow ws).mem = d.mem := by
  unfold Dev.crateWindow
  exact ⟨foldl_objs _ _ _ fun _ _ => rfl, foldl_pipes _ _ _ fun _ _ => rfl, foldl_mem _ _ _ fun _ _ => rfl⟩

/-- CRATE_WINDOW_CLOSE shows each Casement's measurement and leaves objects, pipelines and memories. -/
theorem crateWindowClose_gives {s : State} {ws : List Crate} (hs : s.dev.serves = true) (hws : ws.length ≤ 4) :
    Gives (.crateWindowClose ws) s (fun d =>
      (∀ c x, ws[c]? = some x → s.dev.crateShown d c x)
      ∧ d.objs = s.dev.objs ∧ d.pipes = s.dev.pipes ∧ d.mem = s.dev.mem) :=
  gives_of (f := fun d => d.crateWindow ws) rfl hs
    ⟨fun _ _ hx => Dev.crateWindow_shown s.dev hws hx, Dev.crateWindow_frame s.dev ws⟩

/-- Settles O58: the trip, the step of the rail and the end of a window, each by what its operation does. -/
theorem sensorsAndTheRail : Obligations.SensorsAndTheRail := fun _ vout iout drifted temps _ =>
  ⟨thermtrip_brings, thermtrip_again, avsStep_brings vout iout drifted temps, crateWindowClose_gives⟩

end Sys2Proof.Machine

/-! ## FETCH: reads of the drive and of staged STOREs (R30, R281, R282, R287, R288) -/

namespace Sys2Proof.Machine

/-! ### Numbers of an entry, commands, lists of engine traffic -/

theorem leNat_lt : ∀ b : Bytes, leNat b < 256 ^ b.length
  | [] => Nat.one_pos
  | x :: b => by
    have hx := x.isLt
    have hb := leNat_lt b
    simp only [leNat, List.length_cons, Nat.pow_succ]
    omega

theorem fieldAt_lt (b : Bytes) (o n : Nat) : fieldAt b o n < 256 ^ n :=
  Nat.lt_of_lt_of_le (leNat_lt _) (Nat.pow_le_pow_right (by decide) (List.length_take_le _ _))

theorem Dev.cmd_id {d : Dev} {id : Nat} {c : Cmd} (h : d.cmd id = some c) : c.id = id := by
  simpa using List.find?_some h

/-- What a served command lands that owes no reaction and leaves the pipelines as they were. -/
theorem lands_of_quiet {i : Instr} {s : State} {f : Dev → Dev} {P : Dev → Prop} (h : exec i s = serve s f)
    (hs : s.dev.serves = true) (hr : (f s.dev).reacts = s.dev.reacts) (hp : (f s.dev).pipes = s.dev.pipes) (hP : P (f s.dev)) :
    Lands i s P :=
  lands_of h hs hP fun hcalm => (Dev.calm_congr hr hp).trans hcalm

/-- What `Lands` says may be said weaker. -/
theorem Lands.imp {i : Instr} {s : State} {P Q : Dev → Prop} (h : Lands i s P) (hPQ : ∀ d, P d → Q d) : Lands i s Q := by
  obtain ⟨d, hd, hP, hcalm⟩ := h
  exact ⟨d, hd, hPQ d hP, hcalm⟩

/-- A command that does not end in POISON_CONSUMED is counted nowhere as it ends. -/
theorem Dev.oget_finish (d : Dev) (id st : Nat) (r : Bytes) (n : Nat) (o : Obj) (h : st ≠ 0x0703) :
    (d.finish id st r n).oget o = d.oget o := by
  rw [Dev.finish, Dev.countPoison, if_neg h]
  rfl

theorem Dev.leastQueued_mem (d : Dev) : ∀ {l : List Nat}, l ≠ [] → d.leastQueued l ∈ l
  | [], h => absurd rfl h
  | [n], _ => List.mem_singleton_self n
  | n :: m :: rest, _ => by
    rw [Dev.leastQueued]
    split
    · exact List.mem_cons_self
    · exact List.mem_cons_of_mem n (d.leastQueued_mem (List.cons_ne_nil m rest))

/-- Traffic that is issued waits on a channel of its pool. -/
theorem Dev.issueList_lists (d : Dev) {pool : List Nat} (hpool : pool ≠ []) (owner : Owner) (tag : Nat) (work : List EDesc) :
    ∃ ch ∈ pool, ∃ l ∈ ((d.issueList pool owner tag work).hchan ch).lists, l.owner = owner ∧ l.tag = tag ∧ l.work = work := by
  refine ⟨d.leastQueued pool, d.leastQueued_mem hpool,
    { owner := owner, tag := tag, count := work.length, work := work, queued := (work.map EDesc.len).sum }, ?_, rfl, rfl, rfl⟩
  rw [Dev.issueList, Dev.enqueueList, Dev.hchan_setHchan]
  exact List.mem_append_right _ (List.mem_singleton_self _)

@[simp] theorem Dev.cmd_issueList (d : Dev) (pool : List Nat) (owner : Owner) (tag : Nat) (work : List EDesc) (id : Nat) :
    (d.issueList pool owner tag work).cmd id = d.cmd id := rfl

theorem poolHost_ne_nil : poolHost ≠ [] := by decide

theorem poolDrive_ne_nil : poolDrive ≠ [] := by decide

/-! ### What a drive reports (R287) -/

/-- An NVMe status is kept with its slot. -/
theorem Dev.oget_nvmeStatus (d : Dev) {slot : Nat} (h : slot < 256) (st : BitVec 15) :
    (d.nvmeStatus slot st.toNat).oget O.LAST_NVME_STATUS = slot * 65536 + st.toNat := by
  have hst := st.isLt
  rw [Dev.nvmeStatus, Dev.oget_oput, Nat.mod_eq_of_lt (show st.toNat < 65536 by omega)]
  exact Nat.mod_eq_of_lt (show _ < 2 ^ 32 by omega)

/-- A namespace that the drive has answers for LBAs inside it. -/
theorem Dev.driveAnswer_of_space {d : Dev} {slot nsid lba n : Nat} {ns : NSpace} (hns : (d.drive slot).space nsid = some ns)
    (hin : lba + n ≤ ns.lbas) : d.driveAnswer slot nsid lba n none = (none, d) := by
  simp only [Dev.driveAnswer, hns]
  exact if_neg (Nat.not_lt.mpr hin)

theorem Drive.empty_of_answers {x : Drive} (h : x.answers = true) : x.empty = false := by
  simp only [Drive.answers, Bool.and_eq_true, Bool.not_eq_true'] at h
  obtain ⟨⟨hempty, -⟩, -⟩ := h
  exact hempty

/-! ### What a FETCH does next (R282) -/

section
variable {d : Dev} {id : Nat} {c : Cmd} {es : List Elem} (hc : d.running id opFetch = some c)
  (hl : d.hinge.chans.any (fun p => p.2.lists.any (fun l => l.owner == .fetch id || l.owner == .pull id)) = false)
  (hj : d.job (.cmd id) = none)
  (hes : d.dataList c.entry (fieldAt c.entry 40 8) (fieldAt c.entry 48 2) 0 (bitAt (fieldAt c.entry 17 1) 7) = .ok es)
include hc hl hj hes

/-- A FETCH whose drive read has come. -/
theorem Dev.fetchRun_of_pulled (outcome : Option Nat) (hp : c.pulled = true) :
    d.fetchRun id outcome = d.fetchPulled c es outcome := by
  simp only [Dev.fetchRun, hc, hl, hj, hes, hp, if_true, Bool.false_eq_true, if_false]

/-- A FETCH that has read nothing yet and that no earlier STORE holds back. -/
theorem Dev.fetchRun_of_fresh (outcome : Option Nat) (hp : c.pulled = false) (he : d.earlierStore c.disp (extentOf c.entry) = false) :
    d.fetchRun id outcome = d.fetchSource c es outcome := by
  simp only [Dev.fetchRun, hc, hl, hj, hes, hp, he, Bool.false_eq_true, if_false]

end

/-- An extent of LBAs that no staged STORE meets needs the drive. -/
theorem needsDrive_nil {e : Nat × Nat × Nat × Nat} (h : 0 < e.2.2.2) : needsDrive [] e = true :=
  List.any_eq_true.mpr ⟨e.2.2.1 + 0, List.mem_map.mpr ⟨0, List.mem_range.mpr h, rfl⟩, rfl⟩

section
variable {d : Dev} {c : Cmd} (es : List Elem) (outcome : Option Nat) (hv : d.visible c = []) (hn : 0 < (extentOf c.entry).2.2.2)
include hv hn

/-- R288: from an empty slot. -/
theorem Dev.fetchSource_of_empty (hx : (d.drive (extentOf c.entry).1).empty = true) :
    d.fetchSource c es outcome = d.finish c.id 0x0601 (fetchResult 0 0 0) 0 := by
  simp [Dev.fetchSource, hv, needsDrive_nil hn, hx]

/-- R287: from a namespace that the drive does not have. -/
theorem Dev.fetchSource_of_absent (hx : (d.drive (extentOf c.entry).1).answers = true)
    (hns : (d.drive (extentOf c.entry).1).space (extentOf c.entry).2.1 = none) :
    d.fetchSource c es outcome = d.finish c.id 0x0602 (fetchResult 0 0 0) 0 := by
  simp [Dev.fetchSource, hv, needsDrive_nil hn, hx, Drive.empty_of_answers hx, hns]

/-- R287: a drive that answers the read with an error. -/
theorem Dev.fetchSource_of_status (st : Nat) (hx : (d.drive (extentOf c.entry).1).answers = true)
    (hns : ((d.drive (extentOf c.entry).1).space (extentOf c.entry).2.1).isSome = true) :
    let e := extentOf c.entry
    d.fetchSource c es (some st)
      = ((d.emit (.nvmeRead e.1 e.2.1 e.2.2.1 e.2.2.2)).nvmeStatus e.1 st).finish c.id 0x0602 (fetchResult 0 0 0) 0 := by
  simp [Dev.fetchSource, hv, needsDrive_nil hn, hx, Drive.empty_of_answers hx, Option.isSome_iff_ne_none.mp hns, Dev.driveAnswer]

/-- R30: a drive that has the LBAs is read, and what it holds of them is under way. -/
theorem Dev.fetchSource_of_space {ns : NSpace} (hx : (d.drive (extentOf c.entry).1).answers = true)
    (hns : (d.drive (extentOf c.entry).1).space (extentOf c.entry).2.1 = some ns)
    (hin : (extentOf c.entry).2.2.1 + (extentOf c.entry).2.2.2 ≤ ns.lbas) :
    let e := extentOf c.entry
    d.fetchSource c es none = (d.emit (.nvmeRead e.1 e.2.1 e.2.2.1 e.2.2.2)).fetchPull c [] ns.lbaSize
      (rangeBytes (d.drive e.1) [] ns.lbaSize e) 0 := by
  have hans := Dev.driveAnswer_of_space
    (d := d.emit (.nvmeRead (extentOf c.entry).1 (extentOf c.entry).2.1 (extentOf c.entry).2.2.1 (extentOf c.entry).2.2.2)) hns hin
  simp [Dev.fetchSource, hv, needsDrive_nil hn, hx, Drive.empty_of_answers hx, hns, hans]

end

/-- With no injection armed on Threshold a read of a STORE's copy meets only the poison that it holds. -/
theorem Dev.thrCheck_of_quiet {d : Dev} (h6 : d.fiFires 456 = false) (h7 : d.fiFires 457 = false) (g : Stg) :
    d.thrCheck g = (d, g.poisoned) := by
  simp only [Dev.thrCheck, h6, h7, Bool.or_false, Bool.false_eq_true, if_false]

/-- R282: plain STOREs that are sound and cover the range give its bytes, and no drive is read. -/
theorem Dev.fetchSource_of_staged {d : Dev} {c : Cmd} {g : Stg} (es : List Elem) (outcome : Option Nat)
    (hplain : ∀ g ∈ d.visible c, g.form.compress = false ∧ g.poisoned = false)
    (hneed : needsDrive (d.visible c) (extentOf c.entry) = false) (hg : (d.visible c).head? = some g)
    (h6 : d.fiFires 456 = false) (h7 : d.fiFires 457 = false) :
    let e := extentOf c.entry
    d.fetchSource c es outcome = d.fetchRead c es e.2.2.2 1 (rangeBytes (d.drive e.1) (d.visible c) g.lbaSize e) := by
  have hexact (newest : Nat) (dec : Bool) (e : Nat × Nat × Nat × Nat) : (d.visible c).find? (fun g => g.form.compress && dec
      && decide (g.seq = newest) && decide (g.lba = e.2.2.1) && decide (e.2.2.1 + e.2.2.2 ≤ g.lba + g.lbas)) = none :=
    List.find?_eq_none.mpr fun g hg => by simp [(hplain g hg).1]
  have hblocks : (d.visible c).any (fun g => g.form.compress) = false :=
    List.any_eq_false.mpr fun g hg => by simp [(hplain g hg).1]
  have hsound (p : Stg → Bool) : ((d.visible c).filter p).any Stg.poisoned = false :=
    List.any_eq_false.mpr fun g hg => by simp [(hplain g (List.mem_filter.mp hg).1).2]
  have hcheck (p : Stg → Bool) (h : Stg) (hh : ((d.visible c).filter p).head? = some h) : d.thrCheck h = (d, false) := by
    rw [Dev.thrCheck_of_quiet h6 h7, (hplain h (List.mem_filter.mp (List.mem_of_head? hh)).1).2]
  simp only [Dev.fetchSource, hexact, hblocks, hneed, hg, hsound, Bool.false_eq_true, false_and, if_false, if_true]
  split
  · next h hh => rw [hcheck _ h hh]; simp
  · simp

/-! ### What a FETCH leaves under way (R30, R281) -/

/-- The bytes of a FETCH are under way to its destination list on device `t`, with the LBA count and their origin in its result;
beyond commands, counters and Hinge `t` is as `d`. -/
structure Dev.Delivers (d t : Dev) (id tag lbas from_ : Nat) : Prop where
  lists : ∃ ch ∈ poolHost, ∃ l ∈ (t.hchan ch).lists, l.owner = .fetch id ∧ l.tag = tag
  result : (t.cmd id).map Cmd.result = some (fetchResult 0 lbas from_)
  drives : t.drives = d.drives
  thr : t.thr = d.thr
  mem : t.mem = d.mem
  host : t.host = d.host
  out : t.out = d.out
  reacts : t.reacts = d.reacts
  pipes : t.pipes = d.pipes

/-- A FETCH that has bytes to deliver issues their list. -/
theorem Dev.fetchDeliver_delivers {d : Dev} {c : Cmd} {es : List Elem} {b : Bytes} (hc : (d.cmd c.id).isSome = true)
    (hb : b.take (elemTotal es) ≠ []) (st lbas from_ : Nat) :
    d.Delivers (d.fetchDeliver c es st lbas from_ b) c.id c.tag lbas from_ := by
  obtain ⟨k, hk⟩ := Option.isSome_iff_exists.mp hc
  rw [Dev.fetchDeliver, if_neg hb]
  refine ⟨?_, ?_, rfl, rfl, rfl, rfl, rfl, rfl, rfl⟩
  · obtain ⟨ch, hch, l, hl, ho, ht, -⟩ := Dev.issueList_lists _ poolHost_ne_nil _ _ _
    exact ⟨ch, hch, l, hl, ho, ht⟩
  · rw [Dev.cmd_issueList, Dev.cmd_mapCmd _ _ _ (by intro _; rfl), Dev.cmd_ocount, Dev.cmd_ocount, hk]
    rfl

theorem take_ne_nil {b : Bytes} {n : Nat} (hb : b ≠ []) (hn : 0 < n) : b.take n ≠ [] := by
  rw [Ne, List.take_eq_nil_iff, not_or]
  exact ⟨Nat.ne_of_gt hn, hb⟩

/-- Without DECOMPRESS the bytes that a FETCH has read are delivered. -/
theorem Dev.fetchRead_delivers {d : Dev} {c : Cmd} {es : List Elem} {b : Bytes} (hc : (d.cmd c.id).isSome = true)
    (hdec : bitAt (fieldAt c.entry 17 1) 0 = false) (hn : 0 < fieldAt c.entry 32 4) (htotal : 0 < elemTotal es) (hb : b ≠ [])
    (lbas from_ : Nat) : d.Delivers (d.fetchRead c es lbas from_ b) c.id c.tag lbas from_ := by
  rw [Dev.fetchRead, if_neg (by simp [hdec])]
  exact Dev.fetchDeliver_delivers hc (take_ne_nil (take_ne_nil hb hn) htotal) _ _ _

/-- What the drive has brought is delivered, from where the read found it. -/
theorem Dev.fetchPulled_delivers {d : Dev} {c : Cmd} {es : List Elem} (hc : (d.cmd c.id).isSome = true)
    (hdec : bitAt (fieldAt c.entry 17 1) 0 = false) (hn : 0 < fieldAt c.entry 32 4) (htotal : 0 < elemTotal es) (hb : c.buf ≠ []) :
    d.Delivers (d.fetchPulled c es none) c.id c.tag (extentOf c.entry).2.2.2 c.origin := by
  have hcmd : ((d.mapCmd c.id (fun x => { x with pulled := false, buf := [] })).cmd c.id).isSome = true := by
    rw [Dev.cmd_mapCmd _ _ _ (by intro _; rfl), Option.isSome_map, hc]
  obtain ⟨lists, result, drives, thr, mem, host, out, reacts, pipes⟩ :=
    Dev.fetchRead_delivers (c := { c with pulled := false, buf := [] }) hcmd hdec hn htotal hb (extentOf c.entry).2.2.2 c.origin
  exact ⟨lists, result, drives, thr, mem, host, out, reacts, pipes⟩

/-- The range of staged STOREs that need no drive holds bytes. -/
theorem rangeBytes_ne_nil {x : Drive} {gs : List Stg} {size : Nat} {e : Nat × Nat × Nat × Nat} (hn : 0 < e.2.2.2) (hsize : 0 < size)
    (hneed : needsDrive gs e = false) : rangeBytes x gs size e ≠ [] := by
  have hl : e.2.2.1 + 0 ∈ lbasOf e := List.mem_map.mpr ⟨0, List.mem_range.mpr hn, rfl⟩
  obtain ⟨g, hg⟩ : ∃ g, newestAt gs (e.2.2.1 + 0) = some g :=
    Option.ne_none_iff_exists'.mp fun h => List.any_eq_false.mp hneed _ hl (by rw [h]; rfl)
  have hslice : sliceAt g.plainImage ((e.2.2.1 + 0 - g.lba) * size) size ≠ [] := by
    rw [Ne, ← List.length_eq_zero_iff, sliceAt, List.length_append, List.length_replicate]
    omega
  intro hnil
  have := List.flatMap_eq_nil_iff.mp hnil _ hl
  rw [hg] at this
  exact hslice this

/-- A FETCH's read of its drive is under way, what the range holds waiting in the command. -/
theorem Dev.fetchPull_lists {d : Dev} {c : Cmd} (hc : (d.cmd c.id).isSome = true) (gs : List Stg) (size : Nat) (range : Bytes)
    (from_ : Nat) :
    (∃ ch ∈ poolDrive, ∃ l ∈ ((d.fetchPull c gs size range from_).hchan ch).lists, l.owner = .pull c.id ∧ l.tag = c.tag)
      ∧ ((d.fetchPull c gs size range from_).cmd c.id).map Cmd.buf = some range := by
  obtain ⟨k, hk⟩ := Option.isSome_iff_exists.mp hc
  constructor
  · obtain ⟨ch, hch, l, hl, ho, ht, -⟩ := Dev.issueList_lists _ poolDrive_ne_nil _ _ _
    exact ⟨ch, hch, l, hl, ho, ht⟩
  · rw [Dev.fetchPull, Dev.cmd_issueList, Dev.cmd_mapCmd _ _ _ (by intro _; rfl), hk]
    rfl

/-! ### FETCH -/

/-- Where a FETCH's operation ends its command, with nothing delivered, on a device that holds the command still. -/
theorem fetch_lands_ended {s : State} {id : Nat} {outcome : Option (BitVec 15)} {st : Nat} {d : Dev} (hs : s.dev.serves = true)
    (hrun : s.dev.fetchRun id (outcome.map BitVec.toNat) = d.finish id st (fetchResult 0 0 0) 0) (hst : st ≠ 0x0703)
    (hcmd : (d.cmd id).isSome = true) (hr : d.reacts = s.dev.reacts) (hp : d.pipes = s.dev.pipes) (hm : d.mem = s.dev.mem)
    (hh : d.host = s.dev.host) :
    Lands (.fetch id outcome) s (fun t => t.ended id st (fetchResult 0 0 0) ∧ t.out = d.out ∧ (∀ o, t.oget o = d.oget o)
      ∧ t.mem = s.dev.mem ∧ t.host = s.dev.host) := by
  refine lands_of_quiet (f := fun d => d.fetchRun id (outcome.map BitVec.toNat)) rfl hs ?_ ?_ ?_ <;> rw [hrun]
  · exact (Dev.finish_reacts _ _ _ _ _).trans hr
  · exact (Dev.finish_pipes _ _ _ _ _).trans hp
  · exact ⟨Dev.finish_ended _ _ _ _ _ hcmd, Dev.finish_out _ _ _ _ _, fun o => Dev.oget_finish _ _ _ _ _ o hst,
      (Dev.finish_mem _ _ _ _ _).trans hm, (Dev.finish_host _ _ _ _ _).trans hh⟩

/-- Where a FETCH's operation delivers. -/
theorem fetch_lands_delivers {s : State} {id : Nat} {outcome : Option (BitVec 15)} {tag lbas from_ : Nat} (hs : s.dev.serves = true)
    (h : s.dev.Delivers (s.dev.fetchRun id (outcome.map BitVec.toNat)) id tag lbas from_) :
    Lands (.fetch id outcome) s (fun d => d.out = s.dev.out
      ∧ (∃ ch ∈ poolHost, ∃ l ∈ (d.hchan ch).lists, l.owner = .fetch id ∧ l.tag = tag)
      ∧ (d.cmd id).map Cmd.result = some (fetchResult 0 lbas from_)
      ∧ d.drives = s.dev.drives ∧ d.thr = s.dev.thr ∧ d.mem = s.dev.mem ∧ d.host = s.dev.host) :=
  lands_of_quiet (f := fun d => d.fetchRun id (outcome.map BitVec.toNat)) rfl hs h.reacts h.pipes
    ⟨h.out, h.lists, h.result, h.drives, h.thr, h.mem, h.host⟩

/-- Settles O26: what a FETCH does next is fixed by whether its drive read has come, by the staged STOREs it sees and by its
drive; each way ends its command, has the drive read, or delivers. -/
theorem fetchReadsTheDrive : Obligations.FetchReadsTheDrive := by
  intro s id outcome c es e x n read hs hc hl hj hes fresh drives under
  obtain ⟨hcmd, -⟩ := Dev.running_cmd hc
  have hid : c.id = id := Dev.cmd_id hcmd
  have hsome : (s.dev.cmd id).isSome = true := by rw [hcmd]; rfl
  have hslot : e.1 < 256 := fieldAt_lt c.entry 16 1
  have hpulled := Dev.fetchRun_of_pulled hc hl hj hes
  have hfresh := Dev.fetchRun_of_fresh hc hl hj hes
  subst hid
  refine ⟨?empty, ?absent, ?fails, ?reads, ?comes, ?pullFails, ?staged⟩
  case empty =>
    rintro ⟨⟨hp, he, hn⟩, hv⟩ hx
    have hrun := (hfresh (outcome.map BitVec.toNat) hp he).trans (Dev.fetchSource_of_empty es _ hv hn hx)
    exact (fetch_lands_ended hs hrun (by decide) hsome rfl rfl rfl rfl).imp
      fun d ⟨hend, hout, _, hmem, hhost⟩ => ⟨hend, hout, hmem, hhost⟩
  case absent =>
    rintro ⟨⟨hp, he, hn⟩, hv⟩ hx hns
    have hrun := (hfresh (outcome.map BitVec.toNat) hp he).trans (Dev.fetchSource_of_absent es _ hv hn hx hns)
    exact (fetch_lands_ended hs hrun (by decide) hsome rfl rfl rfl rfl).imp
      fun d ⟨hend, hout, hobj, hmem, hhost⟩ => ⟨hend, hout, hobj _, hmem, hhost⟩
  case fails =>
    rintro st rfl ⟨⟨hp, he, hn⟩, hv⟩ hx hns
    have hrun := (hfresh (some st.toNat) hp he).trans (Dev.fetchSource_of_status es hv hn st.toNat hx hns)
    exact (fetch_lands_ended (outcome := some st) hs hrun (by decide) hsome rfl rfl rfl rfl).imp fun d ⟨hend, hout, hobj, hmem, hhost⟩ =>
      ⟨hend, hout, (hobj _).trans (Dev.oget_nvmeStatus _ hslot st), hmem, hhost⟩
  case reads =>
    rintro ns rfl ⟨⟨hp, he, hn⟩, hv⟩ hx hns hin
    have hrun := (hfresh none hp he).trans (Dev.fetchSource_of_space es hv hn hx hns hin)
    obtain ⟨hlist, hbuf⟩ := Dev.fetchPull_lists (d := s.dev.emit read) hsome [] ns.lbaSize (rangeBytes x [] ns.lbaSize e) 0
    refine lands_of_quiet (f := fun d => d.fetchRun c.id none) rfl hs ?_ ?_ ?_ <;> rw [hrun]
    · rfl
    · rfl
    · exact ⟨rfl, hlist, hbuf, rfl, rfl, rfl, rfl⟩
  case comes =>
    rintro rfl hp hdec hn htotal hbuf
    refine fetch_lands_delivers hs ?_
    rw [hpulled _ hp]
    exact Dev.fetchPulled_delivers hsome hdec hn htotal hbuf
  case pullFails =>
    rintro st rfl hp
    exact (fetch_lands_ended (outcome := some st) hs (hpulled _ hp) (by decide) hsome rfl rfl rfl rfl).imp fun d ⟨hend, hout, hobj, hmem, hhost⟩ =>
      ⟨hend, hout, (hobj _).trans (Dev.oget_nvmeStatus _ hslot st), hmem, hhost⟩
  case staged =>
    rintro ⟨hp, he, hcount⟩ hplain hneed h6 h7 hdec hn htotal hsize
    obtain ⟨g, hg⟩ : ∃ g, (s.dev.visible c).head? = some g := by
      cases hv : s.dev.visible c with
      | nil => rw [hv, needsDrive_nil hcount] at hneed; exact absurd hneed (by decide)
      | cons g gs => exact ⟨g, rfl⟩
    have hpos : 0 < g.lbaSize := (hsize g (List.mem_of_head? hg)).1
    refine fetch_lands_delivers hs ?_
    rw [hfresh _ hp he, Dev.fetchSource_of_staged es _ hplain hneed hg h6 h7]
    exact Dev.fetchRead_delivers hsome hdec hn htotal (rangeBytes_ne_nil hcount hpos hneed) _ _

end Sys2Proof.Machine

/-! ## The drain of staged STOREs (R31, R274, R275, R279, R288) -/

namespace Sys2Proof.Machine

/-! ### What the drain's operations touch -/

/-- A fold of steps that each touch Bifold alone. -/
theorem foldl_bifold_frame {α : Type} (g : Dev → α → Dev) (hg : ∀ e a, ∃ b, g e a = { e with bifold := b }) (l : List α) (d : Dev) :
    ∃ b, l.foldl g d = { d with bifold := b } := by
  refine foldl_keeps (fun e : Dev => ∃ b, e = { d with bifold := b }) g (fun e a he => ?_) l d ⟨_, rfl⟩
  obtain ⟨b, rfl⟩ := he
  obtain ⟨b', hb'⟩ := hg { d with bifold := b } a
  exact ⟨b', hb'⟩

theorem Dev.offerBlock_frame (d : Dev) (r : BReq) : ∃ b, d.offerBlock r = { d with bifold := b } := by
  unfold Dev.offerBlock
  split <;> exact ⟨_, rfl⟩

theorem Dev.refillBlocks_frame (d : Dev) : ∃ b, d.refillBlocks = { d with bifold := b } :=
  foldl_bifold_frame Dev.offerBlock Dev.offerBlock_frame d.bifold.waiting { d with bifold := { d.bifold with waiting := [] } }

theorem Dev.unqueue_frame (d : Dev) (o : BOwner) : ∃ b, d.unqueue o = { d with bifold := b } := by
  unfold Dev.unqueue
  obtain ⟨b, hb⟩ := foldl_bifold_frame (fun d c => let x := d.bcas c
    d.setBcas c { x with queue := x.queue.filter (fun r => decide (r.owner ≠ o)) }) (fun _ _ => ⟨_, rfl⟩) [0, 1, 2, 3] d
  exact ⟨_, congrArg (fun e : Dev => { e with bifold := { e.bifold with
    waiting := e.bifold.waiting.filter (fun r => decide (r.owner ≠ o)) } }) hb⟩

theorem Dev.abandonBlocks_frame (d : Dev) (o : BOwner) : ∃ b, d.abandonBlocks o = { d with bifold := b } := by
  unfold Dev.abandonBlocks
  exact foldl_bifold_frame _ (fun _ _ => ⟨_, rfl⟩) _ d

/-- Forgetting a job is a matter of Bifold and of Hinge alone. -/
theorem Dev.dropJob_frame (d : Dev) (o : BOwner) : ∃ b h, d.dropJob o = { d with bifold := b, hinge := h } := by
  obtain ⟨b, hb⟩ := Dev.unqueue_frame d o
  obtain ⟨b', hb'⟩ := Dev.abandonBlocks_frame { d with bifold := b } o
  rw [Dev.dropJob, hb, hb']
  obtain ⟨b'', hb''⟩ := Dev.refillBlocks_frame _
  exact ⟨b'', _, hb''⟩

theorem Dev.freeStoreUnits_frame (d : Dev) (us : List Nat) :
    ∃ u, d.freeStoreUnits us = { d with thr := { d.thr with units := u } } := by
  refine foldl_keeps (fun e : Dev => ∃ u, e = { d with thr := { d.thr with units := u } }) _ (fun e u he => ?_) us d ⟨_, rfl⟩
  obtain ⟨u', rfl⟩ := he
  exact ⟨_, rfl⟩

/-- A STORE leaves Threshold: of the STOREs it alone goes, and beyond them its units, Bifold and Hinge change. -/
theorem Dev.dropStore_frame (d : Dev) (g : Stg) : ∃ u b h, d.dropStore g = { d with
    thr := { d.thr with units := u, stores := d.thr.stores.filter (fun h => decide (h ≠ g)) }, bifold := b, hinge := h } := by
  obtain ⟨u, hu⟩ := Dev.freeStoreUnits_frame d g.units
  rw [Dev.dropStore, hu]
  dsimp only
  split
  · exact ⟨u, _, _, rfl⟩
  · obtain ⟨b, h, hj⟩ := Dev.dropJob_frame
      { d with thr := { d.thr with units := u, stores := d.thr.stores.filter (fun h => decide (h ≠ g)) } } (.drain g.seq)
    rw [hj]
    exact ⟨u, b, _, rfl⟩

/-- STOREs leave Threshold one after another. -/
theorem Dev.dropStores_frame (gs : List Stg) (d : Dev) : ∃ u b h, gs.foldl (fun d g => d.dropStore g) d = { d with
    thr := { d.thr with units := u, stores := d.thr.stores.filter (fun h => decide (h ∉ gs)) }, bifold := b, hinge := h } := by
  induction gs generalizing d with
  | nil => exact ⟨d.thr.units, d.bifold, d.hinge, by simp⟩
  | cons g gs ih =>
    obtain ⟨u, b, h, hd⟩ := Dev.dropStore_frame d g
    obtain ⟨u', b', h', hgs⟩ := ih (d.dropStore g)
    refine ⟨u', b', h', ?_⟩
    rw [List.foldl_cons, hgs, hd]
    simp [List.filter_filter, not_or, Bool.and_comm]

/-! ### The Flush of a drive's volatile write cache (R279) -/

theorem Dev.foldl_emit {α : Type} (f : α → Out) (l : List α) (d : Dev) :
    l.foldl (fun d a => d.emit (f a)) d = { d with out := d.out ++ l.map f } := by
  induction l generalizing d with
  | nil => simp
  | cons a l ih => rw [List.foldl_cons, ih]; simp [Dev.emit]

/-- The staged STOREs of a slot that are written and that no Flush covers. -/
def Dev.unflushed (d : Dev) (slot : Nat) : List Stg := (d.staged slot).filter (fun g => g.written && !g.flushed)

/-- The device once each namespace written is flushed. -/
def Dev.flushSlot (d : Dev) (slot : Nat) : Dev :=
  let e := (d.setDrive slot { d.drive slot with sinceFlush := 0 }).mapStores (fun g => decide (g.slot = slot) && g.written)
    (fun g => { g with flushed := true })
  { e with out := d.out ++ ((d.unflushed slot).map Stg.nsid).dedup.map (.nvmeFlush slot) }

theorem Dev.drainFlush_eq (d : Dev) (slot : Nat) : d.drainFlush slot =
    if (d.drive slot).vwc = true ∧ (d.drive slot).answers = true ∧ d.unflushed slot ≠ []
      ∧ ((oldest (d.drainQueue slot)).any (fun g => g.held.isNone) = false ∨ 2 ^ 26 ≤ (d.drive slot).sinceFlush)
    then d.flushSlot slot else d := by
  unfold Dev.drainFlush
  dsimp only
  rw [Dev.foldl_emit]
  rfl

/-- What may have changed on a device `t` that has flushed a slot's drive, or that had nothing to flush: marks of STOREs that a
Flush covers, the slot's count of bytes since a Flush, and what has gone out. -/
structure Dev.Flushed (d t : Dev) (slot : Nat) : Prop where
  stores : ∃ p : Stg → Bool, t.thr.stores = d.thr.stores.map (fun g => { g with flushed := p g })
  drive : ∀ k, { t.drive k with sinceFlush := (d.drive k).sinceFlush } = d.drive k
  other : ∀ k, k ≠ slot → t.drive k = d.drive k
  jamb : t.jamb = d.jamb
  mem : t.mem = d.mem
  host : t.host = d.host
  objs : t.objs = d.objs
  pipes : t.pipes = d.pipes
  reacts : t.reacts = d.reacts

theorem Dev.flushSlot_flushed (d : Dev) (slot : Nat) : d.Flushed (d.flushSlot slot) slot := by
  have hother (k : Nat) (hk : k ≠ slot) : (d.flushSlot slot).drive k = d.drive k := Dev.drive_setDrive_ne d _ hk
  refine ⟨⟨fun g => (decide (g.slot = slot) && g.written) || g.flushed, List.map_congr_left fun g _ => ?_⟩, fun k => ?_, hother, rfl, rfl, rfl, rfl, rfl, rfl⟩
  · dsimp only
    split_ifs with hp
    · rw [hp, Bool.true_or]
    · rw [Bool.eq_false_iff.mpr hp, Bool.false_or]
  · by_cases hk : k = slot
    · subst hk
      have hself : (d.flushSlot k).drive k = { d.drive k with sinceFlush := 0 } := Dev.drive_setDrive d k _
      rw [hself]
    · rw [hother k hk]

theorem Dev.drainFlush_flushed (d : Dev) (slot : Nat) : d.Flushed (d.drainFlush slot) slot := by
  rw [Dev.drainFlush_eq]
  split
  · exact d.flushSlot_flushed slot
  · exact ⟨⟨Stg.flushed, by simp⟩, fun _ => rfl, fun _ _ => rfl, rfl, rfl, rfl, rfl, rfl, rfl⟩

namespace Dev.Flushed
variable {d t : Dev} {slot : Nat} (h : d.Flushed t slot)
include h

theorem cells (k : Nat) : (t.drive k).cells = (d.drive k).cells := by rw [← h.drive k]

/-- A STORE of the device was there before, its mark apart. -/
theorem of_mem {g : Stg} (hg : g ∈ t.thr.stores) : ∃ f ∈ d.thr.stores, ∃ b, g = { f with flushed := b } := by
  obtain ⟨p, hp⟩ := h.stores
  obtain ⟨f, hf, rfl⟩ := List.mem_map.mp (hp ▸ hg)
  exact ⟨f, hf, p f, rfl⟩

/-- A STORE stays, its mark apart. -/
theorem mem_of {f : Stg} (hf : f ∈ d.thr.stores) : ∃ b, { f with flushed := b } ∈ t.thr.stores := by
  obtain ⟨p, hp⟩ := h.stores
  exact ⟨p f, hp ▸ List.mem_map.mpr ⟨f, hf, rfl⟩⟩

end Dev.Flushed

/-! ### Which STORE a slot drains, and what its drain comes to -/

theorem oldest_mem {g : Stg} : ∀ {l : List Stg}, oldest l = some g → g ∈ l
  | [], h => by cases h
  | f :: l, h => by
    rw [oldest] at h
    split at h
    · next k hk =>
      split_ifs at h
      · exact Option.some.inj h ▸ List.mem_cons_self
      · exact List.mem_cons_of_mem f (oldest_mem (hk.trans h))
    · exact Option.some.inj h ▸ List.mem_cons_self

theorem Dev.mem_staged {d : Dev} {slot : Nat} {g : Stg} :
    g ∈ d.staged slot ↔ g ∈ d.thr.stores ∧ g.slot = slot ∧ g.phase = .staged := by
  simp [Dev.staged]

theorem Dev.mem_drainQueue {d : Dev} {slot : Nat} {g : Stg} (h : g ∈ d.drainQueue slot) :
    g ∈ d.thr.stores ∧ g.slot = slot ∧ g.phase = .staged ∧ g.written = false := by
  simp only [Dev.drainQueue, List.mem_filter, Bool.and_eq_true, Bool.not_eq_true', Dev.mem_staged] at h
  obtain ⟨⟨hmem, hslot, hphase⟩, ⟨hwritten, -⟩, -⟩ := h
  exact ⟨hmem, hslot, hphase, hwritten⟩

/-- The STORE's image is to be issued now: nothing of it is under way, and its copy can be read. -/
def Dev.issues (d : Dev) (g : Stg) (image : Bytes) : Prop :=
  g.sent = false ∧ d.life.parking = false ∧ d.hinge.chans.any (fun p => p.2.lists.any (fun l => l.owner == .drain g.seq)) = false
    ∧ g.poisoned = false ∧ g.form.compress = false ∧ d.job (.drain g.seq) = none ∧ (d.stagedCopy g).map g.imageOf = some image

theorem Dev.drainAnswer_of_none {d : Dev} {g : Stg} {image : Bytes} {blocks : Nat} {outcome : Option Nat}
    (h : d.driveAnswer g.slot g.nsid g.lba (image.length / g.lbaSize) outcome = (none, d)) :
    d.drainAnswer g image blocks outcome = if g.sent then d.drainWrite g else d.drainIssue g image blocks := by
  simp only [Dev.drainAnswer, h]

theorem Dev.drainAnswer_of_status (d : Dev) (g : Stg) (image : Bytes) (blocks st : Nat) :
    d.drainAnswer g image blocks (some st)
      = (if g.sent then d else d.emit (.nvmeWrite g.slot g.nsid g.lba (image.length / g.lbaSize))).drainFailed g.slot st g := rfl

section
variable {d : Dev} {slot : Nat} {g : Stg} (hq : oldest (d.drainQueue slot) = some g) (hh : d.halted = false)
  (hx : (d.drive slot).answers = true) (hheld : g.held = none) (hf : d.fetchPending g = false) (outcome : Option Nat)
include hq hh hx hheld hf

/-- The drive's answer ends the write of an image that has come to its port. -/
theorem Dev.storeDrain_of_sent (hs : g.sent = true) : d.storeDrain slot outcome = d.drainAnswer g g.image g.blocks outcome := by
  simp [Dev.storeDrain, hq, hh, hx, hheld, hf, hs]

/-- The drive answers to the image of a STORE that is to be issued. -/
theorem Dev.storeDrain_of_issues {image : Bytes} (hi : d.issues g image) :
    d.storeDrain slot outcome = d.drainAnswer g image 1 outcome := by
  obtain ⟨hs, hp, hl, hpoison, hplain, hj, hcopy⟩ := hi
  obtain ⟨b, hb, rfl⟩ := Option.map_eq_some_iff.mp hcopy
  simp [Dev.storeDrain, hq, hh, hx, hheld, hf, hs, hp, hl, hpoison, hplain, hj, hb]

/-- A write that the drive answers with an error has failed, whether it is issued now or has been before. -/
theorem Dev.storeDrain_of_status (st : Nat) (hi : g.sent = true ∨ ∃ image, d.issues g image) :
    ∃ out, d.storeDrain slot (some st) = ({ d with out := out } : Dev).drainFailed slot st g := by
  obtain ⟨-, hslot, -⟩ := Dev.mem_drainQueue (oldest_mem hq)
  rcases hi with hsent | ⟨image, hi⟩
  · rw [Dev.storeDrain_of_sent hq hh hx hheld hf _ hsent, Dev.drainAnswer_of_status, if_pos hsent, hslot]
    exact ⟨d.out, rfl⟩
  · rw [Dev.storeDrain_of_issues hq hh hx hheld hf _ hi, Dev.drainAnswer_of_status, if_neg (by simp [hi.1]), hslot]
    exact ⟨_, rfl⟩

end

/-! ### The image goes out, and comes to lie on the drive (R31, R275, R279) -/

/-- The write of an image is issued: it goes out, the STORE keeps the image, and the data is under way to the drive port. -/
theorem Dev.drainIssue_facts {d : Dev} {g : Stg} (hg : g ∈ d.thr.stores) (image : Bytes) (blocks : Nat) :
    { g with image := image, blocks := blocks } ∈ (d.drainIssue g image blocks).thr.stores
      ∧ ∃ ch ∈ poolDrive, ∃ l ∈ ((d.drainIssue g image blocks).hchan ch).lists, l.owner = .drain g.seq
        ∧ l.work = piecesOf (.imm image) .buffer image.length := by
  constructor
  · exact List.mem_map.mpr ⟨g, hg, by simp⟩
  · obtain ⟨ch, hch, l, hl, ho, -, hw⟩ := Dev.issueList_lists _ poolDrive_ne_nil _ _ _
    exact ⟨ch, hch, l, hl, ho, hw⟩

/-- The device once a STORE's image lies on its drive, before its job goes and a Flush may follow. -/
def Dev.imageLands (d : Dev) (g : Stg) : Dev :=
  let x := (d.drive g.slot).write g.nsid (g.lba * g.lbaSize) g.image
  let e := ((d.setDrive g.slot { x with retried := false, sinceFlush := x.sinceFlush + g.image.length }).ocount
    O.DRAIN_BYTES g.image.length).mapStores (fun h => h = g) (fun h => { h with written := true, image := [], sent := false })
  { e with thr := { e.thr with syncs := e.thr.syncs.map (fun (s : Sync) =>
    if s.covered.contains g.seq then { s with counted := s.counted + g.blocks } else s) } }

/-- The slot's drive holds the image, the STORE counts as written, and nothing else of drives, commands and memories changes. -/
theorem Dev.drainWrite_facts {d : Dev} {g : Stg} (hg : g ∈ d.thr.stores) :
    let t := d.drainWrite g
    (t.drive g.slot).cells = ((d.drive g.slot).write g.nsid (g.lba * g.lbaSize) g.image).cells
      ∧ (∃ h ∈ t.thr.stores, h.cmd = g.cmd ∧ h.seq = g.seq ∧ h.written = true)
      ∧ (∀ k, k ≠ g.slot → t.drive k = d.drive k)
      ∧ t.jamb = d.jamb ∧ t.mem = d.mem ∧ t.host = d.host ∧ t.pipes = d.pipes ∧ t.reacts = d.reacts := by
  obtain ⟨b, h, hj⟩ := Dev.dropJob_frame (d.imageLands g) (.drain g.seq)
  have hflush := Dev.drainFlush_flushed ((d.imageLands g).dropJob (.drain g.seq)) g.slot
  rw [hj] at hflush
  have heq : d.drainWrite g = ({ d.imageLands g with bifold := b, hinge := h } : Dev).drainFlush g.slot := by
    rw [← hj]
    rfl
  have hmem : { g with written := true, image := [], sent := false } ∈ (d.imageLands g).thr.stores :=
    List.mem_map.mpr ⟨g, hg, by simp⟩
  have hcells : ((d.imageLands g).drive g.slot).cells = ((d.drive g.slot).write g.nsid (g.lba * g.lbaSize) g.image).cells := by
    simp [Dev.imageLands, Dev.drive, Dev.setDrive]
  obtain ⟨b', hf⟩ := hflush.mem_of hmem
  dsimp only
  rw [heq]
  exact ⟨(hflush.cells g.slot).trans hcells, ⟨_, hf, rfl, rfl, rfl⟩,
    fun k hk => (hflush.other k hk).trans (Dev.drive_setDrive_ne d _ hk),
    hflush.jamb, hflush.mem, hflush.host, hflush.pipes, hflush.reacts⟩

/-! ### A drain write fails (R288) -/

/-- A first failure keeps the STORE to be written again. -/
theorem Dev.drainFailed_first {d : Dev} {slot : Nat} (hslot : slot < 256) (st : BitVec 15) (g : Stg)
    (hx : (d.drive slot).retried = false) :
    let t := d.drainFailed slot st.toNat g
    (t.drive slot).retried = true ∧ (t.drive slot).cells = (d.drive slot).cells
      ∧ t.thr.stores = d.thr.stores.map (fun h => if h = g then { h with image := [], sent := false } else h)
      ∧ t.oget O.LAST_NVME_STATUS = slot * 65536 + st.toNat ∧ t.pipes = d.pipes ∧ t.reacts = d.reacts := by
  have heq : d.drainFailed slot st.toNat g = ((((d.nvmeStatus slot st.toNat).setDrive slot
      { d.drive slot with retried := true }).cutLists (fun w => w == .drain g.seq) 0x0402).mapStores (fun h => h = g)
      (fun h => { h with image := [], sent := false })) := if_neg (ne_true_of_eq_false hx)
  have hdrive : (d.drainFailed slot st.toNat g).drive slot = { d.drive slot with retried := true } := by
    rw [heq]
    exact Dev.drive_setDrive d slot _
  refine ⟨(congrArg Drive.retried hdrive :), (congrArg Drive.cells hdrive :), ?_, ?_, ?_, ?_⟩
  · rw [heq]
    simp [Dev.mapStores, Dev.cutLists, Dev.setDrive, Dev.nvmeStatus]
  · rw [heq]
    exact Dev.oget_nvmeStatus d hslot st
  · rw [heq]
    rfl
  · rw [heq]
    rfl

/-- A slot whose STOREs are held: those that are not written carry the status, and the drive keeps what it holds. -/
theorem Dev.holdSlot_facts (d : Dev) (slot st : Nat) :
    let t := d.holdSlot slot st
    (∀ h ∈ t.thr.stores, h.slot = slot → h.phase = .staged → h.written = false → h.held = some st)
      ∧ (∀ k, (t.drive k).cells = (d.drive k).cells) ∧ t.objs = d.objs := by
  have hcut := foldl_keeps (fun e : Dev => ∃ h, e = { d with hinge := h })
    (fun d (g : Stg) => d.cutLists (fun w => w == .drain g.seq) 0x0402)
    (by rintro _ g ⟨h, rfl⟩; exact ⟨_, rfl⟩) (d.drainQueue slot) d ⟨_, rfl⟩
  obtain ⟨h, hcut⟩ := hcut
  have hflush := Dev.drainFlush_flushed (({ d with hinge := h } : Dev).mapStores
    (fun g => decide (g.slot = slot) && decide (g.phase = .staged) && !g.written)
    (fun g => { g with held := some st, image := [], sent := false })) slot
  intro t
  simp only [t, Dev.holdSlot, hcut]
  refine ⟨fun k hk hslot hphase hwritten => ?_, hflush.cells, hflush.objs⟩
  obtain ⟨f, hf, b, rfl⟩ := hflush.of_mem hk
  obtain ⟨g, -, rfl⟩ := List.mem_map.mp hf
  split_ifs at hslot hphase hwritten ⊢ with hpick
  · rfl
  · exact absurd (by simp [show g.slot = slot from hslot, show g.phase = .staged from hphase,
      show g.written = false from hwritten]) hpick

/-- Raising a source is a matter of two counters of the objects. -/
theorem Dev.oget_faultRaise (d : Dev) (n syn : Nat) (injected : Bool) (o : Obj)
    (h : o.key ≠ O.OVERFLOWS.key ∧ o.key ≠ O.FAULTS_CAPTURED.key) : (d.faultRaise n syn injected).oget o = d.oget o := by
  have hirq (e : Dev) : e.faultIrq.oget o = e.oget o := by simp [Dev.oget, Dev.faultIrq]
  have hreacts (e : Dev) (r : List (Nat × Nat × Nat)) : ({ e with reacts := r } : Dev).oget o = e.oget o := rfl
  have hcount : (d.faultCount n).oget o = d.oget o := by simp [Dev.oget]
  have hcapture (e : Dev) (sev : Nat) : (e.faultCapture n sev syn injected).1.oget o = e.oget o := by
    unfold Dev.faultCapture
    dsimp only
    split
    · rw [Dev.fputB, Dev.oget_fput, Dev.oget_ocount_ne _ _ h.1, Dev.fputB, Dev.oget_fput]
    · rw [Dev.oget_ocount_ne _ _ h.2]
      simp [Dev.oget]
  unfold Dev.faultRaise
  dsimp only
  split_ifs
  · exact hcount
  · rw [hirq, hcapture, hcount]
  · rw [hreacts, hirq, hcapture, hcount]
  · rfl

/-- A second failure holds the slot's STOREs with MEDIA_ERROR. -/
theorem Dev.drainFailed_second {d : Dev} {slot : Nat} (hslot : slot < 256) (st : BitVec 15) (g : Stg)
    (hx : (d.drive slot).retried = true) :
    let t := d.drainFailed slot st.toNat g
    (∀ h ∈ t.thr.stores, h.slot = slot → h.phase = .staged → h.written = false → h.held = some 0x0602)
      ∧ (t.drive slot).cells = (d.drive slot).cells ∧ t.oget O.LAST_NVME_STATUS = slot * 65536 + st.toNat := by
  have heq : d.drainFailed slot st.toNat g = (((d.nvmeStatus slot st.toNat).setDrive slot
      { d.drive slot with retried := false }).holdSlot slot 0x0602).faultRaise 462
      ((g.lba * g.lbaSize) % 2 ^ 64 + slot * 2 ^ 64) false := if_pos hx
  obtain ⟨hheld, hcells, hobjs⟩ := Dev.holdSlot_facts ((d.nvmeStatus slot st.toNat).setDrive slot
    { d.drive slot with retried := false }) slot 0x0602
  intro t
  simp only [t, heq]
  refine ⟨?_, ?_, ?_⟩
  · rw [Dev.faultRaise_thr]
    exact hheld
  · rw [Dev.drive, Dev.faultRaise_drives, ← Dev.drive, hcells, Dev.drive_setDrive]
  · rw [Dev.oget_faultRaise _ _ _ _ _ (by decide), Dev.oget, hobjs]
    exact Dev.oget_nvmeStatus d hslot st

/-! ### Release and discard (R279, R288, R290) -/

/-- The STOREs that `gone` names have left device `t`; every other stays, the mark of a Flush apart, and beyond the count of
bytes since a Flush the drives, the commands and the memories are as on `d`. -/
structure Dev.Leaves (d t : Dev) (gone : Stg → Prop) : Prop where
  stay : ∀ h ∈ d.thr.stores, ¬ gone h → ∃ g ∈ t.thr.stores, h = { g with flushed := h.flushed }
  come : ∀ g ∈ t.thr.stores, ∃ h ∈ d.thr.stores, ¬ gone h ∧ h = { g with flushed := h.flushed }
  drive : ∀ k, { t.drive k with sinceFlush := (d.drive k).sinceFlush } = d.drive k
  jamb : t.jamb = d.jamb
  mem : t.mem = d.mem
  host : t.host = d.host
  pipes : t.pipes = d.pipes
  reacts : t.reacts = d.reacts

/-- STOREs of a slot leave, and a Flush may follow. -/
def Dev.releaseStores (d : Dev) (slot : Nat) (p : Stg → Bool) : Dev :=
  (((d.staged slot).filter p).foldl (fun d g => d.dropStore g) d).drainFlush slot

theorem Dev.releaseStores_leaves (d : Dev) (slot : Nat) (p : Stg → Bool) (gone : Stg → Prop)
    (hgone : ∀ h, gone h ↔ h.slot = slot ∧ h.phase = .staged ∧ p h = true) : d.Leaves (d.releaseStores slot p) gone := by
  obtain ⟨u, b, hinge, hdrop⟩ := Dev.dropStores_frame ((d.staged slot).filter p) d
  have hflush := Dev.drainFlush_flushed (((d.staged slot).filter p).foldl (fun d g => d.dropStore g) d) slot
  rw [hdrop] at hflush
  have hpick (h : Stg) (hh : h ∈ d.thr.stores) : h ∈ (d.staged slot).filter p ↔ gone h := by
    rw [List.mem_filter, Dev.mem_staged, hgone]
    tauto
  rw [Dev.releaseStores, hdrop]
  refine ⟨fun h hh hstay => ?_, fun g hg => ?_, hflush.drive, hflush.jamb, hflush.mem, hflush.host, hflush.pipes, hflush.reacts⟩
  · obtain ⟨b, hb⟩ := hflush.mem_of (List.mem_filter.mpr ⟨hh, decide_eq_true (mt (hpick h hh).mp hstay)⟩)
    exact ⟨_, hb, rfl⟩
  · obtain ⟨h, hh, b, rfl⟩ := hflush.of_mem hg
    obtain ⟨hh, hne⟩ := List.mem_filter.mp hh
    exact ⟨h, hh, mt (hpick h hh).mpr (of_decide_eq_true hne), rfl⟩

/-- R279: with nothing left to drain, a Flush goes out for each namespace written and covers what it holds. -/
theorem Dev.releaseStores_flushes {d : Dev} {slot : Nat} {p : Stg → Bool} {g : Stg} (hvwc : (d.drive slot).vwc = true)
    (hans : (d.drive slot).answers = true) (hqueue : d.drainQueue slot = []) (hg : g ∈ d.staged slot) (hp : p g = false)
    (hw : g.written = true) (hf : g.flushed = false) :
    Out.nvmeFlush slot g.nsid ∈ (d.releaseStores slot p).out
      ∧ { g with flushed := true } ∈ (d.releaseStores slot p).thr.stores := by
  obtain ⟨u, b, hinge, hdrop⟩ := Dev.dropStores_frame ((d.staged slot).filter p) d
  have hrelease : d.releaseStores slot p = (((d.staged slot).filter p).foldl (fun d g => d.dropStore g) d).drainFlush slot := rfl
  obtain ⟨hmem, hslot, hphase⟩ := Dev.mem_staged.mp hg
  generalize he : ((d.staged slot).filter p).foldl (fun d g => d.dropStore g) d = e at hdrop hrelease
  have hstores : e.thr.stores = d.thr.stores.filter (fun h => decide (h ∉ (d.staged slot).filter p)) := by rw [hdrop]
  have hdrive : e.drive slot = d.drive slot := by rw [hdrop]; rfl
  have hkept : g ∈ e.thr.stores := by
    rw [hstores, List.mem_filter]
    exact ⟨hmem, decide_eq_true fun h => by simp [hp] at h⟩
  have hunflushed : g ∈ e.unflushed slot :=
    List.mem_filter.mpr ⟨Dev.mem_staged.mpr ⟨hkept, hslot, hphase⟩, by simp [hw, hf]⟩
  have hempty : e.drainQueue slot = [] := by
    refine List.eq_nil_iff_forall_not_mem.mpr fun h hh => ?_
    have hold : h ∈ d.drainQueue slot := by
      simp only [Dev.drainQueue, List.mem_filter, Dev.mem_staged, hdrive, hstores] at hh ⊢
      obtain ⟨⟨⟨hin, -⟩, hstaged⟩, hdrains⟩ := hh
      exact ⟨⟨hin, hstaged⟩, hdrains⟩
    exact absurd (hqueue ▸ hold) List.not_mem_nil
  have hflush : d.releaseStores slot p = e.flushSlot slot := by
    rw [hrelease, Dev.drainFlush_eq, if_pos]
    exact ⟨hdrive ▸ hvwc, hdrive ▸ hans, List.ne_nil_of_mem hunflushed, .inl (by rw [hempty]; rfl)⟩
  rw [hflush]
  constructor
  · exact List.mem_append_right _ (List.mem_map.mpr
      ⟨g.nsid, List.mem_dedup.mpr (List.mem_map.mpr ⟨g, hunflushed, rfl⟩), rfl⟩)
  · exact List.mem_map.mpr ⟨g, hkept, if_pos (by simp [hslot, hw])⟩

theorem storeRelease_lands {s : State} (slot : BitVec 6) (hs : s.dev.serves = true) :
    Lands (.storeRelease slot) s (fun d =>
      s.dev.Leaves d (fun g => g.slot = slot.toNat ∧ g.phase = .staged ∧ g.written = true
        ∧ (g.flushed = true ∨ (s.dev.drive slot.toNat).vwc = false))
      ∧ ((s.dev.drive slot.toNat).vwc = true → (s.dev.drive slot.toNat).answers = true → s.dev.drainQueue slot.toNat = [] →
        ∀ g ∈ s.dev.staged slot.toNat, g.written = true → g.flushed = false →
          Out.nvmeFlush slot.toNat g.nsid ∈ d.out ∧ { g with flushed := true } ∈ d.thr.stores)) := by
  have hleaves := Dev.releaseStores_leaves s.dev slot.toNat (fun g => g.written && (g.flushed || !(s.dev.drive slot.toNat).vwc))
    (fun g => g.slot = slot.toNat ∧ g.phase = .staged ∧ g.written = true
      ∧ (g.flushed = true ∨ (s.dev.drive slot.toNat).vwc = false)) (fun h => by simp)
  refine lands_of_quiet (f := fun d => d.storeRelease slot.toNat) rfl hs hleaves.reacts hleaves.pipes ⟨hleaves, ?_⟩
  intro hvwc hans hqueue g hg hw hf
  exact Dev.releaseStores_flushes hvwc hans hqueue hg (by simp [hf, hvwc]) hw hf

theorem thrDiscard_lands {s : State} (slot : BitVec 6) (hs : s.dev.serves = true) :
    Lands (.thrDiscard slot) s (fun d =>
      s.dev.Leaves d (fun g => g.slot = slot.toNat ∧ g.phase = .staged ∧ g.held.isSome = true) ∧ d.fget F.THR_DISCARD_GO = 0) := by
  obtain ⟨stay, come, drive, jamb, mem, host, pipes, reacts⟩ := Dev.releaseStores_leaves
    (s.dev.fput F.THR_DISCARD_SLOT slot.toNat) slot.toNat (fun g => g.held.isSome)
    (fun g => g.slot = slot.toNat ∧ g.phase = .staged ∧ g.held.isSome = true) (fun _ => Iff.rfl)
  exact lands_of_quiet (f := fun d => d.discardCommand slot.toNat) rfl hs reacts pipes
    ⟨⟨stay, come, drive, jamb, mem, host, pipes, reacts⟩, Dev.fget_fputB _ _ _⟩

/-! ### STORE_DRAIN_WRITE -/

section
variable {s : State} {slot : BitVec 6} {g : Stg} (hs : s.dev.serves = true) (hh : s.dev.halted = false)
  (hq : oldest (s.dev.drainQueue slot.toNat) = some g) (hx : (s.dev.drive slot.toNat).answers = true) (hheld : g.held = none)
  (hf : s.dev.fetchPending g = false)
include hs hh hq hx hheld hf

/-- R31: a STORE whose image is to be issued, and whose drive takes the write. -/
theorem storeDrainWrite_issues {outcome : Option (BitVec 15)} {image : Bytes} (hi : s.dev.issues g image)
    (ha : s.dev.driveAnswer slot.toNat g.nsid g.lba (image.length / g.lbaSize) (outcome.map BitVec.toNat) = (none, s.dev)) :
    Lands (.storeDrainWrite slot outcome) s (fun d =>
      { g with image := image, blocks := 1 } ∈ d.thr.stores
      ∧ d.out = s.dev.out ++ [.nvmeWrite slot.toNat g.nsid g.lba (image.length / g.lbaSize)]
      ∧ (∃ ch ∈ poolDrive, ∃ l ∈ (d.hchan ch).lists, l.owner = .drain g.seq
        ∧ l.work = piecesOf (.imm image) .buffer image.length)
      ∧ d.drives = s.dev.drives ∧ d.jamb = s.dev.jamb ∧ d.mem = s.dev.mem ∧ d.host = s.dev.host) := by
  obtain ⟨hg, hslot, -⟩ := Dev.mem_drainQueue (oldest_mem hq)
  rw [← hslot] at ha ⊢
  have hrun : s.dev.storeDrain slot.toNat (outcome.map BitVec.toNat) = s.dev.drainIssue g image 1 := by
    rw [Dev.storeDrain_of_issues hq hh hx hheld hf _ hi, Dev.drainAnswer_of_none ha, if_neg (by simp [hi.1])]
  obtain ⟨hstore, hlist⟩ := Dev.drainIssue_facts hg image 1
  refine lands_of_quiet (f := fun d => d.storeDrain slot.toNat (outcome.map BitVec.toNat)) rfl hs ?_ ?_ ?_ <;> rw [hrun]
  · rfl
  · rfl
  · exact ⟨hstore, rfl, hlist, rfl, rfl, rfl, rfl⟩

/-- R279: an image that has come to the port of a drive that takes it lies on the drive. -/
theorem storeDrainWrite_writes {outcome : Option (BitVec 15)} (hsent : g.sent = true)
    (ha : s.dev.driveAnswer slot.toNat g.nsid g.lba (g.image.length / g.lbaSize) (outcome.map BitVec.toNat) = (none, s.dev)) :
    Lands (.storeDrainWrite slot outcome) s (fun d =>
      (d.drive slot.toNat).cells = ((s.dev.drive slot.toNat).write g.nsid (g.lba * g.lbaSize) g.image).cells
      ∧ (∃ h ∈ d.thr.stores, h.cmd = g.cmd ∧ h.seq = g.seq ∧ h.written = true)
      ∧ (∀ k, k ≠ slot.toNat → d.drive k = s.dev.drive k)
      ∧ d.jamb = s.dev.jamb ∧ d.mem = s.dev.mem ∧ d.host = s.dev.host) := by
  obtain ⟨hg, hslot, -⟩ := Dev.mem_drainQueue (oldest_mem hq)
  rw [← hslot] at ha ⊢
  have hrun : s.dev.storeDrain slot.toNat (outcome.map BitVec.toNat) = s.dev.drainWrite g := by
    rw [Dev.storeDrain_of_sent hq hh hx hheld hf _ hsent, Dev.drainAnswer_of_none ha, if_pos hsent]
  obtain ⟨hcells, hwritten, hother, hjamb, hmem, hhost, hpipes, hreacts⟩ := Dev.drainWrite_facts hg
  refine lands_of_quiet (f := fun d => d.storeDrain slot.toNat (outcome.map BitVec.toNat)) rfl hs ?_ ?_ ?_ <;> rw [hrun]
  · exact hreacts
  · exact hpipes
  · exact ⟨hcells, hwritten, hother, hjamb, hmem, hhost⟩

theorem storeDrainWrite_retries (st : BitVec 15) (hi : g.sent = true ∨ ∃ image, s.dev.issues g image)
    (hr : (s.dev.drive slot.toNat).retried = false) :
    Lands (.storeDrainWrite slot (some st)) s (fun d =>
      (d.drive slot.toNat).retried = true ∧ (d.drive slot.toNat).cells = (s.dev.drive slot.toNat).cells
      ∧ d.thr.stores = s.dev.thr.stores.map (fun h => if h = g then { h with image := [], sent := false } else h)
      ∧ d.oget O.LAST_NVME_STATUS = slot.toNat * 65536 + st.toNat) := by
  obtain ⟨out, hrun⟩ := Dev.storeDrain_of_status hq hh hx hheld hf st.toNat hi
  obtain ⟨hretried, hcells, hstores, hstatus, hpipes, hreacts⟩ :=
    Dev.drainFailed_first (d := { s.dev with out := out }) (Nat.lt_trans slot.isLt (by decide)) st g hr
  refine lands_of_quiet (f := fun d => d.storeDrain slot.toNat (some st.toNat)) rfl hs ?_ ?_ ?_ <;> rw [hrun]
  · exact hreacts
  · exact hpipes
  · exact ⟨hretried, hcells, hstores, hstatus⟩

theorem storeDrainWrite_holds (st : BitVec 15) (hi : g.sent = true ∨ ∃ image, s.dev.issues g image)
    (hr : (s.dev.drive slot.toNat).retried = true) :
    Brings (.storeDrainWrite slot (some st)) s (fun d =>
      (∀ h ∈ d.thr.stores, h.slot = slot.toNat → h.phase = .staged → h.written = false → h.held = some 0x0602)
      ∧ (d.drive slot.toNat).cells = (s.dev.drive slot.toNat).cells
      ∧ d.oget O.LAST_NVME_STATUS = slot.toNat * 65536 + st.toNat) := by
  obtain ⟨out, hrun⟩ := Dev.storeDrain_of_status hq hh hx hheld hf st.toNat hi
  refine brings_of (f := fun d => d.storeDrain slot.toNat (some st.toNat)) rfl hs ?_
  rw [hrun]
  exact Dev.drainFailed_second (d := { s.dev with out := out }) (Nat.lt_trans slot.isLt (by decide)) st g hr

end

/-- Settles O24: a drain issues, writes, is retried or holds by the drive's answer; a release and a discard take the STOREs that
they name out of Threshold, and a Flush follows where one is due. -/
theorem drainsWriteAndReleaseStores : Obligations.DrainsWriteAndReleaseStores := by
  constructor
  · intro s slot outcome g x answer issues hs hh hq hx hheld hf
    refine ⟨fun image hi ha => storeDrainWrite_issues hs hh hq hx hheld hf hi ha,
      fun hsent ha => storeDrainWrite_writes hs hh hq hx hheld hf hsent ha, ?_, ?_⟩
    · rintro st rfl hi hr
      exact storeDrainWrite_retries hs hh hq hx hheld hf st hi hr
    · rintro st rfl hi hr
      exact storeDrainWrite_holds hs hh hq hx hheld hf st hi hr
  · intro s slot hs done held leave
    constructor
    · obtain ⟨d, hexec, ⟨⟨stay, come, drive, jamb, mem, host, -, -⟩, hflush⟩, hcalm⟩ := storeRelease_lands slot hs
      exact ⟨d, hexec, ⟨⟨stay, come, drive, jamb, mem, host⟩, hflush⟩, hcalm⟩
    · obtain ⟨d, hexec, ⟨⟨stay, come, drive, jamb, mem, host, -, -⟩, hgo⟩, hcalm⟩ := thrDiscard_lands slot hs
      exact ⟨d, hexec, ⟨⟨stay, come, drive, jamb, mem, host⟩, hgo⟩, hcalm⟩

end Sys2Proof.Machine

/-! ## Reset, pipeline contexts and the commands on them (R46 to R55, R269, R270) -/

namespace Sys2Proof.Machine

/-- Settles O4: every table of the device at reset is empty, so that each reads as its default, and nothing is owed or waits. -/
theorem resetLeavesNothingRunning : Obligations.ResetLeavesNothingRunning :=
  ⟨⟨fun _ => rfl, fun _ => rfl, fun _ => rfl, fun _ => ite_self 0, fun _ => rfl, fun _ => rfl, rfl, rfl, rfl⟩, rfl⟩

/-! ### When nothing follows a change of contexts -/

/-- What stands in a table after a write stood there before, or is what was written. -/
theorem Sparse.mem_set {α : Type} [DecidableEq α] {z : α} {m : Sparse α} {k : Nat} {v : α} {p : Nat × α}
    (h : p ∈ Sparse.set z m k v) : p = (k, v) ∨ p ∈ m := by
  unfold Sparse.set at h
  split at h
  · exact .inr (List.mem_filter.mp h).1
  · exact Sparse.mem_insert h

/-- A device is as calm as another where it owes the same and no context runs that made the other less than calm. -/
theorem Dev.calm_of_idle {d e : Dev} (hr : e.reacts = d.reacts)
    (hp : ∀ q ∈ e.pipes.ctxs, q.2.active = true → ∃ r ∈ d.pipes.ctxs, r.2.active = true) (h : d.calm = true) : e.calm = true := by
  simp only [Dev.calm, Bool.and_eq_true, List.isEmpty_iff, Dev.activeCtxs, List.filter_eq_nil_iff] at h ⊢
  obtain ⟨howed, hidle⟩ := h
  refine ⟨hr.trans howed, fun q hq hact => ?_⟩
  obtain ⟨r, hr, hract⟩ := hp q hq hact
  exact hidle r hr hract

theorem Dev.ctx_congr {d e : Dev} (h : e.pipes.ctxs = d.pipes.ctxs) (c : Nat) : e.ctx c = d.ctx c := by
  rw [Dev.ctx, Dev.ctx, h]

theorem Dev.mem_setCtx {d : Dev} {c : Nat} {x : Ctx} {q : Nat × Ctx} (h : q ∈ (d.setCtx c x).pipes.ctxs) :
    q = (c, x) ∨ q ∈ d.pipes.ctxs :=
  Sparse.mem_set h

/-- A context that is put and does not run leaves a calm device calm. -/
theorem Dev.calm_of_setCtx {d e : Dev} {c : Nat} {x : Ctx} (hr : e.reacts = d.reacts)
    (hp : e.pipes.ctxs = (d.setCtx c x).pipes.ctxs) (hx : x.active = false) (h : d.calm = true) : e.calm = true := by
  refine Dev.calm_of_idle hr (fun q hq hact => ?_) h
  rcases Dev.mem_setCtx (hp ▸ hq) with rfl | hq
  · exact absurd hact (by simp [hx])
  · exact ⟨q, hq, hact⟩

/-! ### What ends a run touches -/

/-- Device `t` is `d` but for the pipelines and for what Bifold, Hinge and Transom hold. -/
def Dev.EndsRuns (d t : Dev) : Prop := ∃ p b h n, t = { d with pipes := p, bifold := b, hinge := h, net := n }

theorem Dev.EndsRuns.refl (d : Dev) : d.EndsRuns d := ⟨_, _, _, _, rfl⟩

theorem Dev.EndsRuns.trans {d e t : Dev} (h : d.EndsRuns e) (k : e.EndsRuns t) : d.EndsRuns t := by
  obtain ⟨p, b, g, n, rfl⟩ := h
  obtain ⟨p', b', g', n', rfl⟩ := k
  exact ⟨p', b', g', n', rfl⟩

theorem Dev.endsRuns_foldl {α : Type} {f : Dev → α → Dev} (hf : ∀ (d : Dev) a, d.EndsRuns (f d a)) (l : List α) (d : Dev) :
    d.EndsRuns (l.foldl f d) :=
  foldl_keeps (fun e => d.EndsRuns e) f (fun e a he => he.trans (hf e a)) l d (.refl d)

theorem Dev.endsRuns_setCtx (d : Dev) (c : Nat) (x : Ctx) : d.EndsRuns (d.setCtx c x) := ⟨_, _, _, _, rfl⟩

/-- Jobs that are forgotten are a matter of Bifold and of Hinge. -/
theorem Dev.dropJobs_frame (l : List BOwner) (d : Dev) :
    ∃ b h, l.foldl (fun d o => d.dropJob o) d = { d with bifold := b, hinge := h } := by
  refine foldl_keeps (fun e : Dev => ∃ b h, e = { d with bifold := b, hinge := h }) _ (fun e o he => ?_) l d ⟨_, _, rfl⟩
  obtain ⟨b, h, rfl⟩ := he
  exact Dev.dropJob_frame _ o

/-- A node whose context has stopped: its home and its chunks are all that it keeps. -/
def NodeRun.stopped (y : NodeRun) : NodeRun := { home := y.home, areas := y.areas }

/-- On device `t` context `c` reads as `x`; every other context, and what ending a run does not touch, is as on `d`. -/
structure Dev.MovesCtx (d t : Dev) (c : Nat) (x : Ctx) : Prop where
  ends : d.EndsRuns t
  self : t.ctx c = x
  other : ∀ b, b ≠ c → t.ctx b = d.ctx b

theorem Dev.movesCtx_setCtx (d : Dev) (c : Nat) (x : Ctx) : d.MovesCtx (d.setCtx c x) c x :=
  ⟨d.endsRuns_setCtx c x, d.ctx_setCtx c x, fun _ hb => d.ctx_setCtx_ne x hb⟩

/-- A context that has moved is put once more. -/
theorem Dev.MovesCtx.setCtx {d t : Dev} {c : Nat} {x : Ctx} (h : d.MovesCtx t c x) (y : Ctx) : d.MovesCtx (t.setCtx c y) c y :=
  ⟨h.ends.trans (t.endsRuns_setCtx c y), t.ctx_setCtx c y, fun b hb => (t.ctx_setCtx_ne y hb).trans (h.other b hb)⟩

/-- What leaves every context as it is may come after. -/
theorem Dev.MovesCtx.then {d t u : Dev} {c : Nat} {x : Ctx} (h : d.MovesCtx t c x) (hu : t.EndsRuns u)
    (hp : u.pipes.ctxs = t.pipes.ctxs) : d.MovesCtx u c x :=
  ⟨h.ends.trans hu, (Dev.ctx_congr hp c).trans h.self, fun b hb => (Dev.ctx_congr hp b).trans (h.other b hb)⟩

/-- The nodes of a context stop. -/
theorem Dev.stopNodes_moves (d : Dev) (c : Nat) :
    d.MovesCtx (d.stopNodes c) c { d.ctx c with nodes := (d.ctx c).nodes.map NodeRun.stopped } := by
  unfold Dev.stopNodes
  dsimp only
  obtain ⟨b, h, hjobs⟩ := Dev.dropJobs_frame _ _
  rw [hjobs]
  exact ⟨⟨_, _, _, _, rfl⟩, Dev.ctx_setCtx _ _ _, fun _ hk => Dev.ctx_setCtx_ne _ _ hk⟩

/-- A FABRIC context's cancel is owed by Transom. -/
theorem Dev.oweCancel_frame (d : Dev) (x : Ctx) : ∃ n, d.oweCancel x = { d with net := n } := by
  unfold Dev.oweCancel
  split
  · exact ⟨_, rfl⟩
  · exact ⟨d.net, rfl⟩

/-- A run fails with a status: its nodes stop. -/
theorem Dev.failCtx_moves {d : Dev} {c : Nat} (st : Nat) (ha : (d.ctx c).active = true) (he : (d.ctx c).ending = none) :
    d.MovesCtx (d.failCtx c st) c { d.ctx c with nodes := (d.ctx c).nodes.map NodeRun.stopped, ending := some st } := by
  unfold Dev.failCtx
  dsimp only
  rw [if_neg (by simp [ha, he])]
  obtain ⟨n, howe⟩ := (d.stopNodes c).oweCancel_frame (d.ctx c)
  rw [howe]
  have hstop : d.MovesCtx { d.stopNodes c with net := n } c { d.ctx c with nodes := (d.ctx c).nodes.map NodeRun.stopped } :=
    (d.stopNodes_moves c).then ⟨_, _, _, _, rfl⟩ rfl
  rw [hstop.self]
  exact hstop.setCtx _

/-- What has ended already, or does not run, does not fail. -/
theorem Dev.failCtx_of_ended {d : Dev} {c : Nat} (st : Nat) (h : (d.ctx c).active = false ∨ (d.ctx c).ending.isSome = true) :
    d.failCtx c st = d :=
  if_pos h

theorem Dev.failCtx_ends (d : Dev) (c st : Nat) : d.EndsRuns (d.failCtx c st) := by
  by_cases h : (d.ctx c).active = false ∨ (d.ctx c).ending.isSome = true
  · rw [Dev.failCtx_of_ended st h]
    exact .refl d
  · simp only [not_or, Bool.not_eq_false, Option.not_isSome_iff_eq_none] at h
    exact (Dev.failCtx_moves st h.1 h.2).ends

/-! ### Cancels (R47, R269, R270) -/

/-- A cancel of a PARKED context leaves it FAILED, its space freed. -/
def Ctx.parkedFailed (x : Ctx) (st : Nat) : Ctx :=
  { x with state := 7, partialRun := true, status := st, parked := 0, tables := [], nodes := [], dicts := [], parkBad := false
           sealing := {} }

theorem Dev.cancelCtx_of_parked {d : Dev} {c : Nat} (st : Nat) (h : (d.ctx c).state = 5) :
    d.cancelCtx c st = d.setCtx c ((d.ctx c).parkedFailed st) :=
  if_pos h

/-- A cancel adds nothing to an end that a flush has fixed, and nothing to a context that does not run. -/
theorem Dev.cancelCtx_of_still {d : Dev} {c : Nat} (st : Nat) (h5 : (d.ctx c).state ≠ 5)
    (h : ((d.ctx c).state ≠ 2 ∧ (d.ctx c).state ≠ 4) ∨ (d.ctx c).ending = some 0x0401) : d.cancelCtx c st = d := by
  unfold Dev.cancelCtx
  dsimp only
  rw [if_neg h5, if_neg (by tauto)]

/-- What a cancel makes of a context that runs: CANCELLING, with the status where nothing else has fixed one. -/
def Ctx.cancelled (x : Ctx) (st : Nat) : Ctx :=
  if x.ending = none then { x with state := 3, nodes := x.nodes.map NodeRun.stopped, ending := some st } else { x with state := 3 }

theorem Ctx.not_parked_of_runs {x : Ctx} (h : x.state = 2 ∨ x.state = 4) : x.state ≠ 5 := by omega

theorem Dev.cancelCtx_moves {d : Dev} {c : Nat} (st : Nat) (h : (d.ctx c).state = 2 ∨ (d.ctx c).state = 4)
    (hf : (d.ctx c).ending ≠ some 0x0401) : d.MovesCtx (d.cancelCtx c st) c ((d.ctx c).cancelled st) := by
  have hact : (d.ctx c).active = true := by rcases h with h | h <;> simp [Ctx.active, h]
  unfold Dev.cancelCtx
  dsimp only
  rw [if_neg (Ctx.not_parked_of_runs h), if_pos ⟨h, hf⟩]
  by_cases he : (d.ctx c).ending = none
  · have hcut := (Dev.failCtx_moves st hact he).then (u := (d.failCtx c st).cutResults c st) ⟨_, _, _, _, rfl⟩ rfl
    rw [hcut.self, Ctx.cancelled, if_pos he]
    exact hcut.setCtx _
  · rw [Dev.failCtx_of_ended st (.inr (Option.isSome_iff_ne_none.mpr he)), Ctx.cancelled, if_neg he]
    exact (d.movesCtx_setCtx c { d.ctx c with state := 3 }).then ⟨_, _, _, _, rfl⟩ rfl

/-! ### A pipeline command that ends, or waits -/

/-- A command whose operation ends it and does nothing else. -/
theorem lands_of_finish {i : Instr} {s : State} {f : Dev → Dev} {id st : Nat} {r : Bytes} {n : Nat} (h : exec i s = serve s f)
    (hs : s.dev.serves = true) (hcmd : (s.dev.cmd id).isSome = true) (hf : f s.dev = s.dev.finish id st r n) :
    Lands i s (fun d => d.pipes = s.dev.pipes ∧ d.ended id st r ∧ d.mem = s.dev.mem ∧ d.host = s.dev.host) := by
  refine lands_of_quiet h hs ?_ ?_ ?_ <;> rw [hf]
  · exact Dev.finish_reacts _ _ _ _ _
  · exact Dev.finish_pipes _ _ _ _ _
  · exact ⟨Dev.finish_pipes _ _ _ _ _, Dev.finish_ended _ _ _ _ _ hcmd, Dev.finish_mem _ _ _ _ _, Dev.finish_host _ _ _ _ _⟩

theorem Dev.running_isSome {d : Dev} {id op : Nat} {k : Cmd} (h : d.running id op = some k) : (d.cmd id).isSome = true := by
  rw [(Dev.running_cmd h).1]
  rfl

theorem Dev.endsRuns_jamb {d t : Dev} (h : d.EndsRuns t) : t.jamb = d.jamb ∧ t.mem = d.mem ∧ t.host = d.host := by
  obtain ⟨p, b, g, n, rfl⟩ := h
  exact ⟨rfl, rfl, rfl⟩

/-- A command waits for a context that has moved. -/
theorem Dev.MovesCtx.waits {d t : Dev} {c : Nat} {x : Ctx} (h : d.MovesCtx t c x) (id : Nat) :
    d.MovesCtx (t.waitCtx c id) c { x with waiters := x.waiters ++ [id] } := by
  have hx := h.self
  subst hx
  exact h.setCtx _

/-- R47, R270: a cancel or an unload of a context that runs waits for its end, and fixes one where nothing else has. -/
theorem Dev.cancelWaits {d : Dev} {c : Nat} (id : Nat) (h : (d.ctx c).state = 2 ∨ (d.ctx c).state = 4) :
    let x := d.ctx c
    let t := (d.cancelCtx c 0x0402).waitCtx c id
    id ∈ (t.ctx c).waiters ∧ (x.ending = none → (t.ctx c).ending = some 0x0402) ∧ (x.ending ≠ some 0x0401 → (t.ctx c).state = 3)
      ∧ (x.ending = some 0x0401 → t.ctx c = { x with waiters := x.waiters ++ [id] })
      ∧ (∀ b, b ≠ c → t.ctx b = d.ctx b) ∧ t.jamb = d.jamb ∧ t.mem = d.mem ∧ t.host = d.host := by
  intro x t
  by_cases hf : x.ending = some 0x0401
  · have ht : d.MovesCtx t c { x with waiters := x.waiters ++ [id] } := by
      simp only [t, Dev.cancelCtx_of_still 0x0402 (Ctx.not_parked_of_runs h) (.inr hf)]
      exact d.movesCtx_setCtx c _
    rw [ht.self]
    exact ⟨List.mem_append_right _ (List.mem_singleton_self id), fun hn => absurd (hf.symm.trans hn) (by simp),
      fun hn => absurd hf hn, fun _ => rfl, ht.other, Dev.endsRuns_jamb ht.ends⟩
  · have ht := (Dev.cancelCtx_moves 0x0402 h hf).waits id
    rw [ht.self]
    refine ⟨List.mem_append_right _ (List.mem_singleton_self id), fun hn => ?_, fun _ => ?_, fun hn => absurd hn hf, ht.other,
      Dev.endsRuns_jamb ht.ends⟩
    · rw [Ctx.cancelled, if_pos hn]
    · rw [Ctx.cancelled]
      split <;> rfl

/-- Tables that are unbound are a matter of Louvre. -/
theorem Dev.freeCtx_moves (d : Dev) (c : Nat) : d.freeCtx c = ({ d with louvre := (d.freeCtx c).louvre } : Dev).setCtx c {} := by
  obtain ⟨l, hl⟩ := foldl_keeps (fun e : Dev => ∃ l, e = { d with louvre := l }) (fun d t => d.lvUnbind t)
    (by rintro _ t ⟨l, rfl⟩; exact ⟨_, rfl⟩) ((d.louvre.tables.filter (fun p => p.2.bind LvTable.owner == some c)).map Prod.fst) d
    ⟨d.louvre, rfl⟩
  unfold Dev.freeCtx
  dsimp only
  rw [hl]
  rfl

/-! ### PIPE_CANCEL, PIPE_PARK and PIPE_UNLOAD (R47) -/

section
variable {d : Dev} {id : Nat} {k : Cmd} (hw : (d.ctx (cmdCtx k)).waiters.contains id = false)
include hw

theorem Dev.pipeCancel_eq (hk : d.running id opPipeCancel = some k) : d.pipeCancel id =
    if (d.ctx (cmdCtx k)).state = 5 then (d.cancelCtx (cmdCtx k) 0x0402).pipeFinish id (cmdCtx k) 0 false false
    else if (d.ctx (cmdCtx k)).state = 2 ∨ (d.ctx (cmdCtx k)).state = 4 then
      (d.cancelCtx (cmdCtx k) 0x0402).waitCtx (cmdCtx k) id
    else d.pipeFinish id (cmdCtx k) 0 true false := by
  simp only [Dev.pipeCancel, hk, hw, Bool.false_eq_true, if_false]

theorem Dev.pipePark_eq (hk : d.running id opPipePark = some k) : d.pipePark id =
    if (d.ctx (cmdCtx k)).state = 2 ∧ (d.ctx (cmdCtx k)).prog.fabric = false then
      (d.setCtx (cmdCtx k) { d.ctx (cmdCtx k) with state := 4 }).waitCtx (cmdCtx k) id
    else d.pipeFinish id (cmdCtx k) 0 true false := by
  simp only [Dev.pipePark, hk, hw, Bool.false_eq_true, if_false]

theorem Dev.pipeUnload_eq (hk : d.running id opPipeUnload = some k) : d.pipeUnload id =
    if (d.ctx (cmdCtx k)).state = 2 ∨ (d.ctx (cmdCtx k)).state = 4 then
      (d.cancelCtx (cmdCtx k) 0x0402).waitCtx (cmdCtx k) id
    else if (d.ctx (cmdCtx k)).state = 1 ∨ (d.ctx (cmdCtx k)).state = 5 ∨ (d.ctx (cmdCtx k)).state = 6
        ∨ (d.ctx (cmdCtx k)).state = 7 then
      (d.freeCtx (cmdCtx k)).finish id 0 ({ d.ctx (cmdCtx k) with state := 0 }.result (cmdCtx k) false false) 0
    else d.pipeFinish id (cmdCtx k) 0 true false := by
  simp only [Dev.pipeUnload, hk, hw, Bool.false_eq_true, if_false]

end

theorem Dev.pipeRun_eq {d : Dev} {id : Nat} {k : Cmd} (hk : d.running id opPipeRun = some k)
    (hr : (d.ctx (cmdCtx k)).runCmd ≠ some id) : d.pipeRun id =
    if (d.ctx (cmdCtx k)).state ≠ 1 ∧ (d.ctx (cmdCtx k)).state ≠ 6 ∧ (d.ctx (cmdCtx k)).state ≠ 7 then
      d.pipeFinish id (cmdCtx k) 0 true false
    else if d.runCheck (cmdCtx k) ≠ 0 then
      d.finish id (d.runCheck (cmdCtx k))
        ({ d.ctx (cmdCtx k) with partialRun := false, blocks := 0, stripsDone := 0 }.result (cmdCtx k) false false) 0
    else d.startRun k (cmdCtx k) := by
  simp only [Dev.pipeRun, hk, hr, if_false]

theorem Dev.pipeResume_of_other {d : Dev} {id : Nat} {k : Cmd} (hk : d.running id opPipeResume = some k)
    (hr : (d.ctx (cmdCtx k)).runCmd ≠ some id) (h5 : (d.ctx (cmdCtx k)).state ≠ 5) :
    d.pipeResume id = d.pipeFinish id (cmdCtx k) 0 true false := by
  simp only [Dev.pipeResume, hk, hr, h5, if_false, ne_eq, not_false_eq_true, if_true]

/-- A command that puts a context which does not run, and ends. -/
theorem lands_of_setCtx {i : Instr} {s : State} {f : Dev → Dev} {id c : Nat} {x : Ctx} {r : Bytes} {d : Dev}
    (h : exec i s = serve s f) (hs : s.dev.serves = true) (hcmd : (s.dev.cmd id).isSome = true)
    (hf : f s.dev = (d.setCtx c x).finish id 0 r 0) (hd : d.pipes = s.dev.pipes ∧ d.jamb = s.dev.jamb ∧ d.reacts = s.dev.reacts)
    (hx : x.active = false) :
    Lands i s (fun d => d.ctx c = x ∧ d.ended id 0 r ∧ ∀ b, b ≠ c → d.ctx b = s.dev.ctx b) := by
  obtain ⟨hpipes, hjamb, hreacts⟩ := hd
  have hctxs : (f s.dev).pipes.ctxs = (s.dev.setCtx c x).pipes.ctxs := by
    rw [hf, Dev.finish_pipes, Dev.setCtx, Dev.setCtx, hpipes]
  refine lands_of h hs ⟨?_, ?_, fun b hb => ?_⟩ fun hcalm => ?_
  · rw [Dev.ctx_congr hctxs, Dev.ctx_setCtx]
  · rw [hf]
    refine Dev.finish_ended _ _ _ _ _ ?_
    rw [Dev.cmd, Dev.setCtx, hjamb]
    exact hcmd
  · rw [Dev.ctx_congr hctxs, Dev.ctx_setCtx_ne _ _ hb]
  · refine Dev.calm_of_setCtx ?_ hctxs hx hcalm
    rw [hf, Dev.finish_reacts]
    exact hreacts

section
variable {s : State} {id : Nat} {k : Cmd} (hs : s.dev.serves = true) (hw : (s.dev.ctx (cmdCtx k)).waiters.contains id = false)
include hs hw

theorem pipeCancel_lands_parked (hk : s.dev.running id opPipeCancel = some k) (h5 : (s.dev.ctx (cmdCtx k)).state = 5) :
    Lands (.pipeCancel id) s (fun d =>
      d.ctx (cmdCtx k) = (s.dev.ctx (cmdCtx k)).parkedFailed 0x0402
      ∧ d.ended id 0 (((s.dev.ctx (cmdCtx k)).parkedFailed 0x0402).result (cmdCtx k) false false)
      ∧ ∀ b, b ≠ cmdCtx k → d.ctx b = s.dev.ctx b) := by
  refine lands_of_setCtx (f := fun d => d.pipeCancel id) (d := s.dev) rfl hs (Dev.running_isSome hk) ?_ ⟨rfl, rfl, rfl⟩ rfl
  rw [Dev.pipeCancel_eq hw hk, if_pos h5, Dev.cancelCtx_of_parked _ h5, Dev.pipeFinish, Dev.ctx_setCtx]

theorem pipeUnload_lands_free (hk : s.dev.running id opPipeUnload = some k) (h : (s.dev.ctx (cmdCtx k)).state = 1
      ∨ (s.dev.ctx (cmdCtx k)).state = 5 ∨ (s.dev.ctx (cmdCtx k)).state = 6 ∨ (s.dev.ctx (cmdCtx k)).state = 7) :
    Lands (.pipeUnload id) s (fun d => d.ctx (cmdCtx k) = {}
      ∧ d.ended id 0 ({ s.dev.ctx (cmdCtx k) with state := 0 }.result (cmdCtx k) false false)
      ∧ ∀ b, b ≠ cmdCtx k → d.ctx b = s.dev.ctx b) := by
  refine lands_of_setCtx (f := fun d => d.pipeUnload id) (d := { s.dev with louvre := (s.dev.freeCtx (cmdCtx k)).louvre }) rfl hs
    (Dev.running_isSome hk) ?_ ⟨rfl, rfl, rfl⟩ rfl
  rw [Dev.pipeUnload_eq hw hk, if_neg (by omega), if_pos h, ← Dev.freeCtx_moves]

end

/-- A pipeline command that has no effect on its context. -/
theorem lands_noEffect {i : Instr} {s : State} {f : Dev → Dev} {id op : Nat} {k : Cmd} (h : exec i s = serve s f)
    (hs : s.dev.serves = true) (hk : s.dev.running id op = some k)
    (hf : f s.dev = s.dev.pipeFinish id (cmdCtx k) 0 true false) :
    Lands i s (fun d => d.pipes = s.dev.pipes ∧ d.ended id 0 ((s.dev.ctx (cmdCtx k)).result (cmdCtx k) true false)
      ∧ d.mem = s.dev.mem ∧ d.host = s.dev.host) :=
  lands_of_finish h hs (Dev.running_isSome hk) hf

/-- Settles O17: each command by what its operation does in the state that its context is in. -/
theorem pipelineCommandsMoveContexts : Obligations.PipelineCommandsMoveContexts := by
  constructor
  · intro s id k c x cancelled hs hw
    refine ⟨fun hk => ⟨fun h5 => ?_, fun h => ?_⟩, fun hk h2 hfab => ?_, fun hk => ⟨fun h => ?_, fun h => ?_⟩⟩
    · exact (pipeCancel_lands_parked hs hw hk h5).imp fun d ⟨hself, hend, hother⟩ => ⟨by rw [hself]; rfl, by rwa [hself], hother⟩
    · refine brings_of (f := fun d => d.pipeCancel id) rfl hs ?_
      rw [Dev.pipeCancel_eq hw hk, if_neg (Ctx.not_parked_of_runs h), if_pos h]
      exact Dev.cancelWaits id h
    · refine brings_of (f := fun d => d.pipePark id) rfl hs ?_
      rw [Dev.pipePark_eq hw hk, if_pos ⟨h2, hfab⟩]
      have hmoved := (s.dev.movesCtx_setCtx c { x with state := 4 }).waits id
      exact ⟨hmoved.self, hmoved.other, rfl⟩
    · exact pipeUnload_lands_free hs hw hk h
    · refine brings_of (f := fun d => d.pipeUnload id) rfl hs ?_
      rw [Dev.pipeUnload_eq hw hk, if_pos h]
      exact Dev.cancelWaits id h
  · intro s id k c x none_ hs hw hr
    simp only [List.mem_cons, List.not_mem_nil, or_false, not_or]
    refine ⟨fun hk h => ?_, fun hk h => ?_, fun hk h => ?_, fun hk h => ?_, fun hk h => ?_⟩
    · exact lands_noEffect rfl hs hk ((Dev.pipeRun_eq hk hr).trans (if_pos h))
    · refine lands_noEffect rfl hs hk ((Dev.pipeCancel_eq hw hk).trans ?_)
      rw [if_neg (by tauto), if_neg (by tauto)]
    · refine lands_noEffect rfl hs hk ((Dev.pipePark_eq hw hk).trans (if_neg ?_))
      rintro ⟨h2, hfab⟩
      exact h.elim (absurd h2) (fun hf => absurd (hfab.symm.trans hf) Bool.false_ne_true)
    · exact lands_noEffect rfl hs hk (Dev.pipeResume_of_other hk hr h)
    · refine lands_noEffect rfl hs hk ((Dev.pipeUnload_eq hw hk).trans ?_)
      rw [if_neg (by tauto), if_neg (by tauto)]

end Sys2Proof.Machine

/-! ## PIPE_RUN and PIPE_RESUME (R54, R55, R362, R448) -/

namespace Sys2Proof.Machine

/-! ### What the start of a flow touches -/

/-- Device `t` is `d` but for Transom, what has gone out and the objects, which count it. -/
def Dev.Sends (d t : Dev) : Prop := ∃ n o u, t = { d with net := n, objs := o, out := u }

theorem Dev.Sends.refl (d : Dev) : d.Sends d := ⟨_, _, _, rfl⟩

theorem Dev.Sends.trans {d e t : Dev} (h : d.Sends e) (k : e.Sends t) : d.Sends t := by
  obtain ⟨n, o, u, rfl⟩ := h
  obtain ⟨n', o', u', rfl⟩ := k
  exact ⟨n', o', u', rfl⟩

theorem Dev.sends_foldl {α : Type} {f : Dev → α → Dev} (hf : ∀ (d : Dev) a, d.Sends (f d a)) (l : List α) (d : Dev) :
    d.Sends (l.foldl f d) :=
  foldl_keeps (fun e => d.Sends e) f (fun e a he => he.trans (hf e a)) l d (.refl d)

theorem Dev.takeCredit_sends (d : Dev) (flow node : Nat) : d.Sends (d.takeCredit flow node).2 := by
  unfold Dev.takeCredit
  split
  · exact .refl d
  · exact ⟨_, _, _, rfl⟩

theorem Dev.putOnWire_sends (d : Dev) (f : Frame) : d.Sends (d.putOnWire f) := by
  unfold Dev.putOnWire
  split
  · split
    · exact ⟨_, _, _, rfl⟩
    · exact ⟨_, _, _, rfl⟩
  · exact ⟨_, _, _, rfl⟩

theorem Dev.sendFrame_sends (d : Dev) (f : Frame) : d.Sends (d.sendFrame f) := by
  unfold Dev.sendFrame
  split
  · exact .refl d
  · dsimp only
    refine Dev.Sends.trans (e := (if f.flow = 0 ∨ f.type = 7 then (0, d) else d.takeCredit f.flow f.dst).2) ?_
      (.trans ⟨_, _, _, rfl⟩ (Dev.putOnWire_sends _ _))
    split
    · exact .refl d
    · exact d.takeCredit_sends _ _

/-- A fabric node's flow starts. -/
theorem Dev.startFlow_sends (d : Dev) (c epoch : Nat) (n : Node) : d.Sends (d.startFlow c epoch n) := by
  unfold Dev.startFlow
  dsimp only
  split
  · exact ⟨_, _, _, rfl⟩
  · split
    · refine .trans ⟨_, _, _, rfl⟩ (Dev.sends_foldl (fun e k => ?_) _ _)
      split
      · exact .refl e
      · exact e.sendFrame_sends _
    · exact .refl d

/-- The flows of a pipeline start: contexts, commands and memories stay. -/
theorem Dev.startFlows_frame (c : Nat) (l : List Node) (d : Dev) :
    let t := l.foldl (fun d n => d.startFlow c d.net.epoch n) d
    (∀ b, t.ctx b = d.ctx b) ∧ t.jamb = d.jamb ∧ t.mem = d.mem ∧ t.host = d.host := by
  obtain ⟨n, o, u, ht⟩ := Dev.sends_foldl (f := fun d n => d.startFlow c d.net.epoch n) (fun e a => e.startFlow_sends c _ a) l d
  intro t
  rw [show t = _ from ht]
  exact ⟨fun _ => rfl, rfl, rfl, rfl⟩

/-- The counters of a run start from zero: objects alone. -/
theorem Dev.zeroArith_frame (d : Dev) (c : Nat) : ∃ o, d.zeroArith c = { d with objs := o } :=
  foldl_keeps (fun e : Dev => ∃ o, e = { d with objs := o }) _ (by rintro _ o ⟨l, rfl⟩; exact ⟨_, rfl⟩) _ d ⟨d.objs, rfl⟩

/-! ### PIPE_RUN (R54) -/

/-- R54: what an accepted PIPE_RUN makes of its context, and what it leaves. -/
theorem Dev.startRun_facts (d : Dev) (k : Cmd) (c : Nat) :
    let x := d.ctx c
    let t := d.startRun k c
    (t.ctx c).state = 2 ∧ (t.ctx c).runCmd = some k.id ∧ (t.ctx c).prog = x.prog ∧ (t.ctx c).panes = d.panesUp
      ∧ (t.ctx c).epoch = d.net.epoch ∧ (t.ctx c).members = d.net.members ∧ (t.ctx c).ending = none
      ∧ (∀ b, b ≠ c → t.ctx b = d.ctx b) ∧ t.jamb = d.jamb ∧ t.mem = d.mem ∧ t.host = d.host := by
  obtain ⟨o, hzero⟩ := d.zeroArith_frame c
  dsimp only [Dev.startRun]
  rw [hzero]
  obtain ⟨hctx, hjamb, hmem, hhost⟩ := Dev.startFlows_frame c _ _
  rw [hctx c, hjamb, hmem, hhost, Dev.ctx_setCtx]
  exact ⟨rfl, rfl, rfl, rfl, rfl, rfl, rfl, fun b hb => (hctx b).trans (Dev.ctx_setCtx_ne _ _ hb), rfl, rfl, rfl⟩

theorem pipeRun_brings {s : State} {id : Nat} {k : Cmd} (hs : s.dev.serves = true) (hk : s.dev.running id opPipeRun = some k)
    (hr : (s.dev.ctx (cmdCtx k)).runCmd ≠ some id) (hst : (s.dev.ctx (cmdCtx k)).state = 1 ∨ (s.dev.ctx (cmdCtx k)).state = 6
      ∨ (s.dev.ctx (cmdCtx k)).state = 7) (hcheck : s.dev.runCheck (cmdCtx k) = 0) :
    let c := cmdCtx k
    let x := s.dev.ctx c
    Brings (.pipeRun id) s (fun d =>
      (d.ctx c).state = 2 ∧ (d.ctx c).runCmd = some id ∧ (d.ctx c).prog = x.prog ∧ (d.ctx c).panes = s.dev.panesUp
      ∧ (d.ctx c).epoch = s.dev.net.epoch ∧ (d.ctx c).members = s.dev.net.members ∧ (d.ctx c).ending = none
      ∧ (∀ b, b ≠ c → d.ctx b = s.dev.ctx b) ∧ d.jamb = s.dev.jamb ∧ d.mem = s.dev.mem ∧ d.host = s.dev.host) := by
  have hrun : s.dev.pipeRun id = s.dev.startRun k (cmdCtx k) := by
    rw [Dev.pipeRun_eq hk hr, if_neg (by omega), if_neg (by simp [hcheck])]
  refine brings_of (f := fun d => d.pipeRun id) rfl hs ?_
  rw [hrun, ← Dev.cmd_id (Dev.running_cmd hk).1]
  exact s.dev.startRun_facts k (cmdCtx k)

/-! ### PIPE_RESUME (R55, R448) -/

/-- R448: a context that resumes runs on the Panes in service now, with every node in matching mode. -/
theorem Dev.resumeRun_facts {d t : Dev} {k : Cmd} {c : Nat} (h : d.resumeRun k c = some t) :
    (t.ctx c).state = 2 ∧ (t.ctx c).runCmd = some k.id ∧ (t.ctx c).panes = d.panesUp
      ∧ ∀ y ∈ (t.ctx c).nodes, y.matching = true := by
  unfold Dev.resumeRun at h
  dsimp only at h
  split at h
  · cases h
  · cases h
    rw [Dev.ctx_setCtx]
    refine ⟨rfl, rfl, rfl, fun y hy => ?_⟩
    obtain ⟨e, -, rfl⟩ := List.mem_map.mp hy
    rfl

theorem pipeResume_brings {s : State} {id : Nat} {k : Cmd} (hs : s.dev.serves = true)
    (hk : s.dev.running id opPipeResume = some k) (hr : (s.dev.ctx (cmdCtx k)).runCmd ≠ some id)
    (h5 : (s.dev.ctx (cmdCtx k)).state = 5) (hbad : (s.dev.ctx (cmdCtx k)).parkBad = false)
    (hdrives : (s.dev.ctx (cmdCtx k)).extentsLeft.all (fun e => s.dev.sameDrive (s.dev.ctx (cmdCtx k)) e.slot) = true)
    (hdecl : s.dev.declared (s.dev.ctx (cmdCtx k)).prog = true) (hroom : (s.dev.resumeRun k (cmdCtx k)).isSome = true) :
    Brings (.pipeResume id) s (fun d =>
      (d.ctx (cmdCtx k)).state = 2 ∧ (d.ctx (cmdCtx k)).runCmd = some id ∧ (d.ctx (cmdCtx k)).panes = s.dev.panesUp
      ∧ ∀ y ∈ (d.ctx (cmdCtx k)).nodes, y.matching = true) := by
  obtain ⟨t, ht⟩ := Option.isSome_iff_exists.mp hroom
  have hrun : s.dev.pipeResume id = t := by
    simp [Dev.pipeResume, hk, hr, h5, hbad, hdrives, hdecl, ht]
  refine brings_of (f := fun d => d.pipeResume id) rfl hs ?_
  rw [hrun, ← Dev.cmd_id (Dev.running_cmd hk).1]
  exact Dev.resumeRun_facts ht

/-- Settles O16: a run and a resume that pass their checks put their context into RUNNING with its snapshot. -/
theorem runAndResumeStartTheNodes : Obligations.RunAndResumeStartTheNodes :=
  ⟨fun _ _ _ => pipeRun_brings, fun _ _ _ => pipeResume_brings⟩

end Sys2Proof.Machine

/-! ## PIPE_LOAD, and what a write to engine memory does (R48, R63, R200, R215, R231, R448) -/

namespace Sys2Proof.Machine

/-! ### Tables whose entries are changed in place -/

/-- What holds between each entry and its image, and of the default, holds between what the two tables read as. -/
theorem Sparse.get_map_rel {α : Type} {z : α} {R : α → α → Prop} {f : Nat × α → Nat × α} (hz : R z z)
    (hf : ∀ q, (f q).1 = q.1 ∧ R (f q).2 q.2) (m : Sparse α) (k : Nat) : R (Sparse.get z (m.map f) k) (Sparse.get z m k) := by
  induction m with
  | nil => exact hz
  | cons q m ih =>
    obtain ⟨hkey, hrel⟩ := hf q
    rw [List.map_cons]
    simp only [Sparse.get, hkey]
    split_ifs
    · exact hrel
    · exact ih

/-- Bytes that are written at their addresses, where a test lets them through. -/
theorem Sparse.get_setAll_addressed (p : Nat → Bool) (bs : Bytes) (a : Nat) (m : Sparse Byte) (i : Nat) :
    Sparse.get 0 (Sparse.setAll 0 m ((addressed a bs).filter (fun q => p q.1))) i
      = if a ≤ i ∧ i < a + bs.length ∧ p i = true then bs.getD (i - a) 0 else Sparse.get 0 m i := by
  induction bs generalizing a m with
  | nil => exact (if_neg fun ⟨hle, hlt, _⟩ => Nat.not_lt.mpr hle hlt).symm
  | cons b bs ih =>
    have hset : Sparse.setAll 0 m ((addressed a (b :: bs)).filter (fun q => p q.1))
        = Sparse.setAll 0 (if p a then Sparse.set 0 m a b else m) ((addressed (a + 1) bs).filter (fun q => p q.1)) := by
      rw [addressed, List.filter_cons]
      split <;> rfl
    have hput : Sparse.get 0 (if p a then Sparse.set 0 m a b else m) i = if i = a ∧ p a = true then b else Sparse.get 0 m i := by
      by_cases hi : i = a
      · subst hi
        split <;> simp_all
      · split <;> simp [hi, Sparse.get_set_ne]
    rw [hset, ih, hput]
    rcases Nat.lt_trichotomy i a with hlt | rfl | hgt
    · simp [show ¬ a ≤ i by omega, show ¬ a + 1 ≤ i by omega, show i ≠ a by omega]
    · simp
    · have hidx : i - a = i - (a + 1) + 1 := by omega
      simp [hidx, show a ≤ i by omega, show a + 1 ≤ i by omega, show i ≠ a by omega, Nat.add_assoc, Nat.add_comm 1]

/-! ### Engine memory that nothing stands before -/

/-- Device `e` maps engine addresses as `d` does: their memories differ at most in what they hold. -/
def Dev.MapsAs (e d : Dev) : Prop :=
  e.ordering288 = d.ordering288 ∧ ∃ cells poison, e.mem = { d.mem with cells := cells, poison := poison }

namespace Dev.MapsAs
variable {d e : Dev} (h : e.MapsAs d)
include h

theorem parkBytes : e.parkBytes = d.parkBytes := by
  obtain ⟨-, cells, poison, hm⟩ := h
  simp only [Dev.parkBytes, hm]

theorem stackList : e.stackList = d.stackList := by
  obtain ⟨-, cells, poison, hm⟩ := h
  simp only [Dev.stackList, hm]

theorem stackBytes : e.stackBytes = d.stackBytes := by simp only [Dev.stackBytes, h.1]

theorem nearEnd : e.nearEnd = d.nearEnd := by
  simp only [Dev.nearEnd, Dev.interleaved, h.parkBytes, h.stackList, h.stackBytes]

theorem farBytes : e.farBytes = d.farBytes := by
  obtain ⟨-, cells, poison, hm⟩ := h
  simp only [Dev.farBytes, hm]

theorem localOf (a : Nat) : e.localOf a = d.localOf a := by
  have hp := h.parkBytes
  obtain ⟨-, cells, poison, hm⟩ := h
  simp only [Dev.localOf, hp, hm]

theorem implemented (a : Nat) : e.implemented a = d.implemented a := by
  simp only [Dev.implemented, h.localOf, h.parkBytes, h.nearEnd, h.farBytes]

theorem chan (c : Nat) : e.chan c = d.chan c := by
  obtain ⟨-, cells, poison, hm⟩ := h
  simp only [Dev.chan, hm]

end Dev.MapsAs

/-- No Sill is told of a write to lines that none holds. -/
theorem Dev.snoopAll_of_unheld {d : Dev} {lines : List Nat} (h : ∀ c, c < 4 → ∀ l ∈ lines, d.sillHolds c l = false) :
    d.snoopAll lines = d := by
  unfold Dev.snoopAll
  induction lines with
  | nil => rfl
  | cons l lines ih =>
    have hone : [0, 1, 2, 3].foldl (fun d c => if d.sillHolds c l then d.sillSnoop c l else d) d = d := by
      have hl (c : Nat) (hc : c < 4) := h c hc l List.mem_cons_self
      simp only [List.foldl_cons, List.foldl_nil, hl 0 (by decide), hl 1 (by decide), hl 2 (by decide), hl 3 (by decide),
        Bool.false_eq_true, if_false]
    rw [List.foldl_cons, hone]
    exact ih fun c hc m hm => h c hc m (List.mem_cons_of_mem l hm)

section
variable {d : Dev} (h : ∀ ch, (d.chan ch).state ≠ 3 ∧ (d.chan ch).state ≠ 4)
include h

theorem Dev.physical_of_plain (a : Nat) : d.physical a = a := by
  unfold Dev.physical
  split
  · rfl
  · split
    · rw [if_neg (h _).1]
    · rfl

theorem Dev.offline_of_plain (a : Nat) : d.offline a = false := by
  simp [Dev.offline, (h _).2]

/-- Where no channel is remapped each address keeps its own byte. -/
theorem Dev.MapsAs.engByte_of_plain {e : Dev} (he : e.MapsAs d) (a : Nat) :
    e.engByte a = if d.implemented a then Sparse.get 0 e.mem.cells a else 0 := by
  rw [Dev.engByte, he.implemented, Dev.physical_of_plain (fun ch => he.chan ch ▸ h ch)]

/-- A write where no channel is remapped or offline puts its bytes at the addresses that have memory behind them. -/
theorem Dev.memWrite_cells (a : Nat) (bs : Bytes) :
    (d.memWrite a bs).mem.cells = Sparse.setAll 0 d.mem.cells ((addressed a bs).filter (fun p => d.implemented p.1)) := by
  have hlive : ((addressed a bs).filter (fun p => d.implemented p.1 && !d.offline p.1)).map (fun p => (d.physical p.1, p.2))
      = (addressed a bs).filter (fun p => d.implemented p.1) := by
    simp [Dev.offline_of_plain h, Dev.physical_of_plain h]
  exact congrArg (Sparse.setAll 0 d.mem.cells) hlive

end

/-- A write to engine memory that nothing stands before is read back, on whatever device has its memory. -/
theorem Dev.memWith_engWrite {d t : Dev} {a : Nat} {bs : Bytes} (h : d.plainMem a bs.length) (hm : t.mem = (d.engWrite a bs).mem)
    (ho : t.ordering288 = d.ordering288) : t.memWith d a bs := by
  obtain ⟨hchan, hsill⟩ := h
  rw [Dev.engWrite, Dev.snoopAll_of_unheld hsill, Dev.parkTouch_mem] at hm
  have hself : d.MapsAs d := ⟨rfl, _, _, rfl⟩
  have hmap : t.MapsAs d := ⟨ho, _, _, hm⟩
  intro i
  rw [hmap.engByte_of_plain hchan, hself.engByte_of_plain hchan, hm, Dev.memWrite_cells hchan, Sparse.get_setAll_addressed]
  by_cases hi : d.implemented i = true
  · simp [hi]
  · simp [hi]

/-! ### Contexts under a write to engine memory (R448) -/

/-- A write may break the tags of parked contexts, and changes nothing else of the pipelines. -/
theorem Dev.parkTouch_pipes (d : Dev) (a n : Nat) : ∃ f : Nat × Ctx → Nat × Ctx,
    (∀ q, (f q).1 = q.1 ∧ { (f q).2 with parkBad := q.2.parkBad } = q.2)
      ∧ (d.parkTouch a n).pipes = { d.pipes with ctxs := d.pipes.ctxs.map f } := by
  unfold Dev.parkTouch
  split
  · refine ⟨_, fun q => ?_, rfl⟩
    dsimp only
    split <;> exact ⟨rfl, rfl⟩
  · exact ⟨id, fun q => ⟨rfl, rfl⟩, by simp⟩

theorem Dev.engWrite_pipes (d : Dev) (a : Nat) (bs : Bytes) : ∃ f : Nat × Ctx → Nat × Ctx,
    (∀ q, (f q).1 = q.1 ∧ { (f q).2 with parkBad := q.2.parkBad } = q.2)
      ∧ (d.engWrite a bs).pipes = { d.pipes with ctxs := d.pipes.ctxs.map f } := by
  obtain ⟨f, hf, hpipes⟩ := Dev.parkTouch_pipes ((d.snoopAll (linesOf a bs.length)).memWrite a bs) a bs.length
  exact ⟨f, hf, by rw [Dev.engWrite, hpipes, Dev.memWrite_pipes, Dev.snoopAll_pipes]⟩

/-- A context under a write to engine memory: its tags apart it stays. -/
theorem Dev.engWrite_ctx (d : Dev) (a : Nat) (bs : Bytes) (c : Nat) :
    { (d.engWrite a bs).ctx c with parkBad := (d.ctx c).parkBad } = d.ctx c := by
  obtain ⟨f, hf, hpipes⟩ := d.engWrite_pipes a bs
  rw [Dev.ctx, hpipes]
  exact Sparse.get_map_rel (z := ({} : Ctx)) (R := fun x y => { x with parkBad := y.parkBad } = y) rfl hf d.pipes.ctxs c

theorem Dev.engWrite_works (d : Dev) (a : Nat) (bs : Bytes) : (d.engWrite a bs).pipes.works = d.pipes.works := by
  obtain ⟨f, -, hpipes⟩ := d.engWrite_pipes a bs
  rw [hpipes]

/-- No context runs after a write to engine memory that did not run before. -/
theorem Dev.engWrite_active {d : Dev} {a : Nat} {bs : Bytes} {q : Nat × Ctx} (hq : q ∈ (d.engWrite a bs).pipes.ctxs)
    (ha : q.2.active = true) : ∃ r ∈ d.pipes.ctxs, r.2.active = true := by
  obtain ⟨f, hf, hpipes⟩ := d.engWrite_pipes a bs
  rw [hpipes] at hq
  obtain ⟨r, hr, rfl⟩ := List.mem_map.mp hq
  refine ⟨r, hr, ?_⟩
  rw [← (hf r).2]
  exact ha

/-! ### PIPE_LOAD (R48) -/

/-- A context whose image fills it: objects apart, a context that is put. -/
theorem Dev.fillCtx_frame (d : Dev) (c at_ : Nat) (image : Bytes) (p : Prog) : ∃ o,
    d.fillCtx c at_ image p = ({ d with objs := o } : Dev).setCtx c { state := 1, prog := p, image := image, imageAt := at_ } :=
  ⟨_, rfl⟩

theorem Dev.edgeDepth_engWrite (d : Dev) (a : Nat) (bs : Bytes) : (d.engWrite a bs).edgeDepth = d.edgeDepth := by
  simp [Dev.edgeDepth, Dev.oclamp, Dev.oget]

section
variable {d : Dev} {id : Nat} {k : Cmd} (hk : d.running id opPipeLoad = some k)
include hk

theorem Dev.pipeLoad_of_full (h : d.lowestFree = none ∨ d.imagePlace (fieldAt k.entry 32 4) = none) :
    d.pipeLoad id = d.finish id 0x0301 (loadResult 0xFFFF 0 0) 0 := by
  rcases h with h | h
  · simp only [Dev.pipeLoad, hk, h]
  · cases hfree : d.lowestFree <;> simp only [Dev.pipeLoad, hk, h, hfree]

variable {c at_ : Nat} (hc : d.lowestFree = some c) (hat : d.imagePlace (fieldAt k.entry 32 4) = some at_)
include hc hat

theorem Dev.pipeLoad_of_unread {st : Nat}
    (h : d.readSpace (bitAt (fieldAt k.entry 18 1) 0) (fieldAt k.entry 24 8) (fieldAt k.entry 32 4) = .error st) :
    d.pipeLoad id = d.finish id st (loadResult 0xFFFF 0 0) 0 := by
  simp only [Dev.pipeLoad, hk, hc, hat, h]

variable {image : Bytes}
  (hread : d.readSpace (bitAt (fieldAt k.entry 18 1) 0) (fieldAt k.entry 24 8) (fieldAt k.entry 32 4) = .ok image)
include hread

theorem Dev.pipeLoad_of_bad {e : Nat × Nat} (h : imageCheck image (fieldAt k.entry 32 4) d.edgeDepth = .error e) :
    d.pipeLoad id = (d.engWrite (d.regionBase + at_) image).finish id 0x0104 (loadResult 0xFFFF e.1 e.2) 0 := by
  simp only [Dev.pipeLoad, hk, hc, hat, hread, Dev.edgeDepth_engWrite, h]

theorem Dev.pipeLoad_of_good {p : Prog} (h : imageCheck image (fieldAt k.entry 32 4) d.edgeDepth = .ok p) :
    d.pipeLoad id
      = ((d.engWrite (d.regionBase + at_) image).fillCtx c at_ image p).finish id 0 (loadResult c 0 0) 0 := by
  simp only [Dev.pipeLoad, hk, hc, hat, hread, Dev.edgeDepth_engWrite, h]

end

/-- Contexts, memories and commands once an image has been copied and its command ends, on a device that differs from the one
with the image in its objects and contexts alone. -/
theorem pipeLoad_lands {s : State} {id st a : Nat} {image r : Bytes} {t : Dev} {P : Dev → Prop} (hs : s.dev.serves = true)
    (hcmd : (s.dev.cmd id).isSome = true) (hrun : s.dev.pipeLoad id = t.finish id st r 0)
    (ht : ∃ o p, t = { s.dev.engWrite a image with objs := o, pipes := p })
    (hidle : ∀ q ∈ t.pipes.ctxs, q.2.active = true → q ∈ (s.dev.engWrite a image).pipes.ctxs)
    (hP : ∀ d : Dev, d.pipes = t.pipes → P d) :
    Lands (.pipeLoad id) s (fun d => P d ∧ d.ended id st r ∧ d.host = s.dev.host
      ∧ (s.dev.plainMem a image.length → d.memWith s.dev a image)) := by
  obtain ⟨o, p, rfl⟩ := ht
  refine lands_of (f := fun d => d.pipeLoad id) rfl hs ⟨hP _ ?_, ?_, ?_, fun hplain => ?_⟩ fun hcalm => ?_
  · rw [hrun, Dev.finish_pipes]
  · rw [hrun]
    refine Dev.finish_ended _ _ _ _ _ ?_
    simpa [Dev.cmd] using hcmd
  · rw [hrun, Dev.finish_host]
    exact Dev.engWrite_host _ _ _
  · refine Dev.memWith_engWrite hplain ?_ ?_
    · rw [hrun, Dev.finish_mem]
    · rw [hrun, Dev.finish_ordering288]
      exact Dev.engWrite_ordering288 _ _ _
  · refine Dev.calm_of_idle ?_ (fun q hq hact => ?_) hcalm
    · rw [hrun, Dev.finish_reacts]
      exact Dev.engWrite_reacts _ _ _
    · rw [hrun, Dev.finish_pipes] at hq
      exact Dev.engWrite_active (hidle q hq hact) hact

/-- Settles O15: what a load does is fixed by room, by its read and by the checks of its image. -/
theorem loadFillsTheLowestFreeContext : Obligations.LoadFillsTheLowestFreeContext := by
  intro s id k n src hs hk
  have hcmd := Dev.running_isSome hk
  constructor
  · intro c at_ hc hat kept wrote
    refine ⟨fun image p hread hgood => ?_, fun image e hread hbad => ?_, fun st hread => ?_⟩
    · obtain ⟨o, hfill⟩ := (s.dev.engWrite (s.dev.regionBase + at_) image).fillCtx_frame c at_ image p
      have hrun := Dev.pipeLoad_of_good hk hc hat hread hgood
      rw [hfill] at hrun
      refine (pipeLoad_lands (P := fun d => d.ctx c = { state := 1, prog := p, image := image, imageAt := at_ } ∧ ∀ b, b ≠ c → kept d b)
        hs hcmd hrun ⟨o, _, rfl⟩ (fun q hq hact => ?_) fun d hd => ⟨?_, fun b hb => ⟨?_, ?_⟩⟩).imp
          fun d ⟨⟨hself, hkept⟩, hend, hwrote⟩ => ⟨hself, hkept, hend, hwrote⟩
      · rcases Dev.mem_setCtx hq with rfl | hq
        · cases hact
        · exact hq
      · rw [Dev.ctx_congr (congrArg Pipes.ctxs hd), Dev.ctx_setCtx]
      · rw [Dev.ctx_congr (congrArg Pipes.ctxs hd), Dev.ctx_setCtx_ne _ _ hb]
        exact Dev.engWrite_ctx _ _ _ _
      · rw [hd]
        exact Dev.engWrite_works _ _ _
    · refine (pipeLoad_lands (P := fun d => ∀ b, kept d b) hs hcmd (Dev.pipeLoad_of_bad hk hc hat hread hbad) ⟨_, _, rfl⟩
        (fun q hq _ => hq) fun d hd b => ⟨?_, ?_⟩)
      · rw [Dev.ctx_congr (congrArg Pipes.ctxs hd)]
        exact Dev.engWrite_ctx _ _ _ _
      · rw [hd]
        exact Dev.engWrite_works _ _ _
    · exact lands_of_finish (f := fun d => d.pipeLoad id) rfl hs hcmd (Dev.pipeLoad_of_unread hk hc hat hread)
  · intro hfull
    exact lands_of_finish (f := fun d => d.pipeLoad id) rfl hs hcmd (Dev.pipeLoad_of_full hk hfull)

end Sys2Proof.Machine

/-! ## NODE_STRIP_BOUNDARY (R41, R45, R90, R175, R287) -/

namespace Sys2Proof.Machine

/-! ### The strip on a Pane's lanes, and the grant of the next -/

theorem Dev.runningOn_mem {d : Dev} {p : Nat} {w : Work} (h : d.runningOn p = some w) :
    w ∈ d.pipes.works ∧ w.pane = p ∧ w.phase = .running := by
  have hw := List.find?_some h
  exact ⟨List.mem_of_find?_eq_some h, of_decide_eq_true hw⟩

/-- A grant of the lanes of a Pane: nothing, or one strip queued there now runs. -/
theorem Dev.grant_cases (d : Dev) (p : Nat) : d.grant p = d ∨ ∃ w ps cs, w ∈ d.pipes.works ∧ w.pane = p ∧ w.phase = .queued
    ∧ d.grant p = { d with pipes := { d.pipes with
        works := { w with phase := .running } :: d.pipes.works.erase w, panes := ps, ctxs := cs } } := by
  unfold Dev.grant
  dsimp only
  split
  · exact .inl rfl
  · split
    · exact .inl rfl
    · next w hw =>
      obtain ⟨r, -, hfound⟩ := Option.bind_eq_some_iff.mp hw
      obtain ⟨⟨hmem, hpane⟩, hqueued, -⟩ : (w ∈ d.pipes.works ∧ w.pane = p) ∧ w.phase = .queued ∧ _ := by
        simpa only [List.mem_filter, decide_eq_true_eq] using List.mem_of_find?_eq_some hfound
      exact .inr ⟨w, _, _, hmem, hpane, hqueued, rfl⟩

/-- What a grant of the lanes of Pane `p` leaves on device `t`. -/
structure Dev.Grants (d t : Dev) (p : Nat) : Prop where
  stay : ∀ v ∈ d.pipes.works, v.phase ≠ .queued → v ∈ t.pipes.works
  length : t.pipes.works.length = d.pipes.works.length
  idle : (∀ v ∈ d.pipes.works, v.pane = p → v.phase ≠ .queued) → t.pipes.ctxs = d.pipes.ctxs
  jamb : t.jamb = d.jamb

theorem Dev.grant_grants (d : Dev) (p : Nat) : d.Grants (d.grant p) p := by
  rcases d.grant_cases p with h | ⟨w, ps, cs, hmem, hpane, hqueued, h⟩
  · rw [h]
    exact ⟨fun _ hv _ => hv, rfl, fun _ => rfl, rfl⟩
  · rw [h]
    refine ⟨fun v hv hphase => ?_, ?_, fun hidle => absurd hqueued (hidle w hmem hpane), rfl⟩
    · exact List.mem_cons_of_mem _ ((List.mem_erase_of_ne (by rintro rfl; exact hphase hqueued)).mpr hv)
    · have hpos := List.length_pos_of_mem hmem
      rw [List.length_cons, List.length_erase_of_mem hmem]
      omega

/-! ### Staging (R41, R175) -/

/-- R41, R175: the strip is staged or held in the strip pool, and the lanes go to the next. -/
theorem Dev.stage_facts {d : Dev} {p : Nat} {w : Work} (hw : w ∈ d.pipes.works) (verify : Option (Nat × Bool)) :
    let t := d.stage p w verify
    ({ w with phase := .staged, verify := verify } ∈ t.pipes.works ∨ { w with phase := .pooled, verify := verify } ∈ t.pipes.works)
      ∧ t.pipes.works.length = d.pipes.works.length ∧ t.jamb = d.jamb
      ∧ ((∀ v ∈ d.pipes.works, v.pane = p → v.phase ≠ .queued) → t.pipes.ctxs = d.pipes.ctxs) := by
  intro t
  obtain ⟨ph, hph, ht⟩ : ∃ ph : WPhase, (ph = .staged ∨ ph = .pooled) ∧ t = (((d.setWork w { w with phase := ph, verify := verify }).setPane p
      { (d.setWork w { w with phase := ph, verify := verify }).pane p with rerun := false })).grant p := by
    refine ⟨_, ?_, rfl⟩
    split
    · exact .inl rfl
    · exact .inr rfl
  have hnot : ph ≠ .queued := by rcases hph with rfl | rfl <;> decide
  obtain ⟨stay, length, idle, jamb⟩ := Dev.grant_grants (((d.setWork w { w with phase := ph, verify := verify }).setPane p
      { (d.setWork w { w with phase := ph, verify := verify }).pane p with rerun := false })) p
  rw [← ht] at stay length idle jamb
  have hself := stay { w with phase := ph, verify := verify } (List.mem_map.mpr ⟨w, hw, if_pos rfl⟩) hnot
  refine ⟨?_, length.trans (List.length_map _), jamb, fun hidle => idle fun v hv hpane => ?_⟩
  · rcases hph with rfl | rfl
    · exact .inl hself
    · exact .inr hself
  · obtain ⟨z, hz, rfl⟩ := List.mem_map.mp hv
    split_ifs at hpane ⊢
    · exact hnot
    · exact hidle z hz hpane

/-! ### The ways a boundary goes -/

section
variable {d : Dev} {p : Nat} {w : Work} (hh : d.halted = false) (hw : d.runningOn p = some w)
include hh hw

/-- R45: a strip of a pipeline that stops is dropped, and the lanes go to the next. -/
theorem Dev.stripBoundary_of_stopped (mismatch : Option Residue) (verify : Option (Nat × Bool)) (hx : (d.ctx w.ctx).live = false) :
    d.stripBoundary p mismatch verify none = (({ d with pipes := { d.pipes with works := d.pipes.works.erase w } } : Dev).setPane p
      { d.pane p with rerun := false }).grant p := by
  simp [Dev.stripBoundary, hh, hw, hx]

variable (hx : (d.ctx w.ctx).live = true) (hf : d.fiFires (4 * p) = false)
include hx hf

/-- A strip without a mismatch is staged, one that has been run again counted (R90). -/
theorem Dev.stripBoundary_of_sound (verify : Option (Nat × Bool)) :
    ∃ e : Dev, (e.pipes = d.pipes ∧ e.jamb = d.jamb) ∧ d.stripBoundary p none verify none = e.stage p w verify := by
  simp only [Dev.stripBoundary, hh, hw, hx, hf, Bool.and_false, Bool.false_eq_true, if_false, Option.or_none, reduceCtorEq]
  split
  · exact ⟨(d.fcount (F.PN_ARITH_STAT_RETRY_OK (p / 24) (p % 24)) 1).ocount (O.RESIDUE_RETRIES w.ctx) 1, ⟨by simp, by simp⟩, rfl⟩
  · exact ⟨d, ⟨rfl, rfl⟩, rfl⟩

/-- A strip with a mismatch that is not staged. -/
theorem Dev.stripBoundary_of_mismatch {r : Residue} {t : Dev} (hr : d.residueMismatch p w r false = (t, false))
    (verify : Option (Nat × Bool)) : d.stripBoundary p (some r) verify none = t := by
  simp only [Dev.stripBoundary, hh, hw, hx, hf, hr, Bool.and_false, Bool.false_eq_true, if_false, Option.some_or, reduceCtorEq]

end

/-- R90: what a mismatch comes to, once it is counted and raised. -/
theorem Dev.residueMismatch_eq (d : Dev) (p : Nat) (w : Work) (r : Residue) : ∃ e : Dev, e.pipes = d.pipes ∧
    d.residueMismatch p w r false =
      if 3 ≤ d.faultAction (4 * p) then (e, false)
      else if (d.pane p).rerun = false ∧ ((d.ctx w.ctx).node w.node).applied.residueRetry = true then
        (e.setPane p { e.pane p with rerun := true }, false)
      else if d.faultAction (4 * p) = 2 then (e.setWork w { w with poison := true }, true)
      else (e.failCtx w.ctx 0x0701, false) := by
  have hctx (syn : Nat) : ((d.fcount (F.PN_ARITH_STAT_MISMATCH (p / 24) (p % 24)) 1).faultRaise (4 * p) syn false).ctx w.ctx
      = d.ctx w.ctx := Dev.ctx_congr (by simp) _
  refine ⟨?_, ?_, ?eq⟩
  case eq =>
    unfold Dev.residueMismatch
    dsimp only
    rw [hctx]
  · simp

/-- A context that is live runs, and nothing has fixed its end. -/
theorem Ctx.active_of_live {x : Ctx} (h : x.live = true) : x.active = true ∧ x.ending = none := by
  simp only [Ctx.live, Bool.and_eq_true, Bool.or_eq_true, beq_iff_eq, Option.isNone_iff_eq_none] at h
  obtain ⟨h2 | h4, hend⟩ := h
  · exact ⟨by simp [Ctx.active, h2], hend⟩
  · exact ⟨by simp [Ctx.active, h4], hend⟩

/-- R287: a failed drive read of the SCAN that runs on a Pane fails its pipeline. -/
theorem Dev.scanMedia_of_running {d : Dev} {p : Nat} {w : Work} (hw : d.runningOn p = some w) (hx : (d.ctx w.ctx).live = true)
    (hop : ((d.ctx w.ctx).prog.node w.node).op = 0x01) (hkind : ((d.ctx w.ctx).prog.sourceOf w.node).kind = 3) (slot st : Nat) :
    d.scanMedia p slot st = (d.nvmeStatus slot st).failCtx w.ctx 0x0602 := by
  have hon : (some w).filter (fun w => decide (((d.ctx w.ctx).prog.node w.node).op = 0x01)
      && decide (((d.ctx w.ctx).prog.sourceOf w.node).kind = 3) && (d.ctx w.ctx).live) = some w :=
    if_pos (by simp [hx, hop, hkind])
  simp only [Dev.scanMedia, hw, hon, Option.map_some, Option.some_or]

/-- A pipeline fails, on a device whose contexts are as on another. -/
theorem Dev.failCtx_ending {d e : Dev} (he : e.pipes = d.pipes) {c : Nat} (hx : (d.ctx c).live = true) (st : Nat) :
    ((e.failCtx c st).ctx c).ending = some st ∧ ∀ b, b ≠ c → (e.failCtx c st).ctx b = d.ctx b := by
  have hctx := Dev.ctx_congr (congrArg Pipes.ctxs he)
  obtain ⟨hact, hend⟩ := Ctx.active_of_live hx
  rw [← hctx] at hact hend
  have hmoved := Dev.failCtx_moves st hact hend
  exact ⟨by rw [hmoved.self], fun b hb => (hmoved.other b hb).trans (hctx b)⟩

/-- Settles O20: each way that a boundary goes, by what it does to the strip. -/
theorem stripsReachTheirBoundary : Obligations.StripsReachTheirBoundary := by
  intro s p verify w x v hs hh hw
  obtain ⟨hmem, -, -⟩ := Dev.runningOn_mem hw
  refine ⟨fun hx hf => ?_, fun hx => ?_, fun r hx hf hagain hretry hact => ?_, fun r hx hf hagain hact => ?_,
    fun slot st r hx hop hkind => ?_⟩
  · obtain ⟨e, ⟨hpipes, hjamb⟩, hrun⟩ := Dev.stripBoundary_of_sound hh hw hx hf v
    refine brings_of (f := fun d => d.stripBoundary p.toNat none v none) rfl hs ?_
    rw [hrun, ← hjamb, ← hpipes]
    exact Dev.stage_facts (hpipes ▸ hmem) v
  · refine brings_of (f := fun d => d.stripBoundary p.toNat none v none) rfl hs ?_
    rw [Dev.stripBoundary_of_stopped hh hw none v hx]
    obtain ⟨-, length, idle, jamb⟩ := Dev.grant_grants ((({ s.dev with pipes := { s.dev.pipes with
      works := s.dev.pipes.works.erase w } } : Dev)).setPane p.toNat { s.dev.pane p.toNat with rerun := false }) p.toNat
    refine ⟨?_, jamb, fun hidle => idle fun u hu => hidle u (List.mem_of_mem_erase hu)⟩
    have hpos := List.length_pos_of_mem hmem
    have herase : (s.dev.pipes.works.erase w).length = s.dev.pipes.works.length - 1 := List.length_erase_of_mem hmem
    exact (congrArg (· + 1) (length.trans herase)).trans (Nat.sub_add_cancel hpos)
  · obtain ⟨e, hpipes, hrun⟩ := s.dev.residueMismatch_eq p.toNat w r
    rw [if_neg (Nat.not_le.mpr hact), if_pos ⟨hagain, hretry⟩] at hrun
    refine brings_of (f := fun d => d.stripBoundary p.toNat (some r) v none) rfl hs ?_
    rw [Dev.stripBoundary_of_mismatch hh hw hx hf hrun, Dev.pane_setPane, ← hpipes]
    exact ⟨rfl, rfl, rfl⟩
  · obtain ⟨e, hpipes, hrun⟩ := s.dev.residueMismatch_eq p.toNat w r
    rw [if_neg (by omega), if_neg (by simp [hagain]), if_neg (by omega)] at hrun
    refine brings_of (f := fun d => d.stripBoundary p.toNat (some r) v none) rfl hs ?_
    rw [Dev.stripBoundary_of_mismatch hh hw hx hf hrun]
    exact (Dev.failCtx_ending hpipes hx _).1
  · refine brings_of (f := fun d => d.stripBoundary p.toNat r v (some (slot.toNat, st.toNat))) rfl hs ?_
    rw [show s.dev.stripBoundary p.toNat r v (some (slot.toNat, st.toNat)) = s.dev.scanMedia p.toNat slot.toNat st.toNat by
      simp [Dev.stripBoundary, hh], Dev.scanMedia_of_running hw hx hop hkind]
    exact Dev.failCtx_ending (e := s.dev.nvmeStatus slot.toNat st.toNat) rfl hx _

end Sys2Proof.Machine

/-! ## Drives that come, go and are reset (R54, R286 to R288) -/

namespace Sys2Proof.Machine

/-! ### What a drive's loss leaves of the drives -/

theorem Dev.EndsRuns.drives_eq {d t : Dev} (h : d.EndsRuns t) : t.drives = d.drives := by
  obtain ⟨p, b, g, n, rfl⟩ := h
  rfl

theorem Dev.drive_congr {d e : Dev} (h : e.drives = d.drives) (k : Nat) : e.drive k = d.drive k := by
  rw [Dev.drive, Dev.drive, h]

theorem Dev.cutLists_drives (d : Dev) (p : Owner → Bool) (st : Nat) : (d.cutLists p st).drives = d.drives := rfl

theorem Dev.discardStore_drives (d : Dev) (id status : Nat) : (d.discardStore id status).drives = d.drives := by
  unfold Dev.discardStore
  split
  next g _ =>
    obtain ⟨u, b, h, hdrop⟩ := Dev.dropStore_frame d g
    rw [Dev.finish_drives, hdrop]
  next => exact Dev.finish_drives ..

theorem Dev.endSlotCommands_drives (d : Dev) (k : Nat) : (d.endSlotCommands k).drives = d.drives := by
  refine foldl_drives _ _ d fun d c => ?_
  split_ifs
  · rfl
  · exact Dev.discardStore_drives ..
  · rw [Dev.cutLists_drives, Dev.finish_drives]
  · rfl

/-- A drive that is gone takes commands, lists and STOREs with it, and no drive's contents. -/
theorem Dev.driveGone_drives (d : Dev) (k : Nat) : (d.driveGone k).drives = d.drives := by
  rw [Dev.driveGone, Dev.mapStores_drives, foldl_drives _ _ _ fun d g => Dev.cutLists_drives .., Dev.endSlotCommands_drives]

theorem Dev.driveLost_ends (d : Dev) (k : Nat) : d.EndsRuns (d.driveLost k) := by
  refine Dev.endsRuns_foldl (fun d q => ?_) d.activeCtxs d
  split
  · exact Dev.failCtx_ends ..
  · exact .refl d

/-! ### The event of a slot (R288) -/

/-- Slot k's event bit is set. -/
def Dev.slotBit (d : Dev) (k : Nat) : Prop :=
  if k < 32 then bitAt (d.fget F.DP_EVENT_LO_SLOTS) k = true else bitAt (d.fget F.DP_EVENT_HI_SLOTS) (k - 32) = true

theorem Dev.bitAt_for_ (d : Dev) (f : Fld) {i : Nat} (hi : i < f.width) : bitAt ((d.for_ f (2 ^ i)).fget f) i = true := by
  rw [Dev.for_, Dev.fget_fput, bitAt_eq_testBit, Nat.testBit_mod_two_pow, Nat.testBit_or, Nat.testBit_two_pow_self]
  simp [hi]

theorem Dev.slotEvent_bit (d : Dev) {k : Nat} (hk : k < Config.slots) : (d.slotEvent k).slotBit k := by
  unfold Dev.slotBit Dev.slotEvent
  simp only [Dev.fget, Dev.raiseVector_flds, Dev.ocount_flds]
  split
  next hlo => exact d.bitAt_for_ F.DP_EVENT_LO_SLOTS hlo
  next hlo => exact d.bitAt_for_ F.DP_EVENT_HI_SLOTS (show k - 32 < 16 by simp only [Config.slots] at hk; omega)

theorem Dev.slotEvent_drives (d : Dev) (k : Nat) : (d.slotEvent k).drives = d.drives := by
  unfold Dev.slotEvent
  split <;> simp [Dev.for_drives]

theorem Dev.slotEvent_pipes (d : Dev) (k : Nat) : (d.slotEvent k).pipes = d.pipes := by
  unfold Dev.slotEvent
  split <;> simp [Dev.for_]

theorem Dev.slotEvent_reacts (d : Dev) (k : Nat) : (d.slotEvent k).reacts = d.reacts := by
  unfold Dev.slotEvent
  split <;> simp [Dev.for_]

/-! ### Removal and insertion -/

/-- DRIVE_REMOVED of a drive in a slot: the position is empty, its event is set, and no other drive changes. -/
theorem Dev.driveRemoved_facts {d : Dev} {k : Nat} (hk : k < Config.slots) (hp : (d.drive k).present = true) :
    (d.driveRemoved k).drive k = {} ∧ (d.driveRemoved k).slotBit k ∧ ∀ j, j ≠ k → (d.driveRemoved k).drive j = d.drive j := by
  have heq : d.driveRemoved k = (((d.driveGone k).setDrive k {}).driveLost k).slotEvent k := if_neg (by simp [hp])
  have hdrives : (d.driveRemoved k).drives = ((d.driveGone k).setDrive k {}).drives := by
    rw [heq, Dev.slotEvent_drives, (Dev.driveLost_ends _ k).drives_eq]
  refine ⟨?_, heq ▸ Dev.slotEvent_bit _ hk, fun j hj => ?_⟩
  · rw [Dev.drive_congr hdrives, Dev.drive_setDrive]
  · rw [Dev.drive_congr hdrives, Dev.drive_setDrive_ne _ _ hj, Dev.drive_congr (d.driveGone_drives k)]

/-- DRIVE_INSERTED where nothing is fitted: the drive stands there as the bifurcation attaches it, with its event where it is
seen; no other drive, no pipeline and nothing owed changes. -/
theorem Dev.driveInserted_facts {d : Dev} {k : Nat} (v : DriveSpec) (hk : k < Config.slots) (hf : (d.drive k).fitted = false) :
    let t := d.driveInserted k v
    t.drives = (d.setDrive k ((driveOf v).attach d.bifurcation k)).drives ∧ ((t.drive k).present = true → t.slotBit k)
      ∧ t.pipes = d.pipes ∧ t.reacts = d.reacts := by
  have hguard : ¬ (Config.slots ≤ k ∨ (d.drive k).fitted = true) := by simp [hf, hk]
  simp only [Dev.driveInserted, if_neg hguard]
  split
  next =>
    exact ⟨Dev.slotEvent_drives .., fun _ => Dev.slotEvent_bit _ hk, Dev.slotEvent_pipes .., Dev.slotEvent_reacts ..⟩
  next hp => exact ⟨rfl, fun h => absurd h hp, rfl, rfl⟩

/-! ### A drive command that takes too long (R287) -/

/-- Device `t` has the drives of `d`, but for marks on drive k that leave what it holds, and names the same NVMe status. -/
structure Dev.KeepsDrive (d t : Dev) (k : Nat) : Prop where
  cells : (t.drive k).cells = (d.drive k).cells
  other : ∀ j, j ≠ k → t.drive j = d.drive j
  status : t.oget O.LAST_NVME_STATUS = d.oget O.LAST_NVME_STATUS

theorem Dev.KeepsDrive.of_eq {d t : Dev} (k : Nat) (hd : t.drives = d.drives)
    (ho : t.oget O.LAST_NVME_STATUS = d.oget O.LAST_NVME_STATUS) : d.KeepsDrive t k :=
  ⟨congrArg Drive.cells (Dev.drive_congr hd k), fun j _ => Dev.drive_congr hd j, ho⟩

theorem Dev.KeepsDrive.trans {d e t : Dev} {k : Nat} (h : d.KeepsDrive e k) (g : e.KeepsDrive t k) : d.KeepsDrive t k :=
  ⟨g.cells.trans h.cells, fun j hj => (g.other j hj).trans (h.other j hj), g.status.trans h.status⟩

theorem Dev.keepsDrive_setDrive (d : Dev) {k : Nat} {x : Drive} (hx : x.cells = (d.drive k).cells) :
    d.KeepsDrive (d.setDrive k x) k :=
  ⟨by rw [Dev.drive_setDrive, hx], fun j hj => Dev.drive_setDrive_ne d x hj, rfl⟩

/-- STOREs that are held keep the drives, but for the Flush that is then due. -/
theorem Dev.keepsDrive_holdSlot (d : Dev) (k st : Nat) : d.KeepsDrive (d.holdSlot k st) k := by
  obtain ⟨-, hcells, hobjs⟩ := d.holdSlot_facts k st
  refine ⟨hcells k, fun j hj => ?_, congrArg (Sparse.get 0 · _) hobjs⟩
  rw [Dev.holdSlot, (Dev.drainFlush_flushed _ k).other j hj, Dev.drive, Dev.mapStores_drives,
    foldl_drives _ _ _ fun d g => Dev.cutLists_drives .., ← Dev.drive]

/-- The failure of a drain write keeps every drive's contents and leaves its own status named. -/
theorem Dev.keepsDrive_drainFailed (d : Dev) (k st : Nat) (g : Stg) :
    (d.nvmeStatus k st).KeepsDrive (d.drainFailed k st g) k := by
  have hset (b : Bool) := (d.nvmeStatus k st).keepsDrive_setDrive
    (k := k) (x := { (d.nvmeStatus k st).drive k with retried := b }) rfl
  unfold Dev.drainFailed
  dsimp only
  split
  next =>
    refine (hset false).trans ((Dev.keepsDrive_holdSlot _ k 0x0602).trans (.of_eq k (Dev.faultRaise_drives ..) ?_))
    exact Dev.oget_faultRaise _ _ _ _ _ (by decide)
  next => exact (hset true).trans (.of_eq k rfl rfl)

theorem Dev.EndsRuns.keepsDrive {d t : Dev} (h : d.EndsRuns t) (k : Nat) : d.KeepsDrive t k := by
  obtain ⟨p, b, g, n, rfl⟩ := h
  exact .of_eq k rfl rfl

theorem Dev.keepsDrive_cutLists (d : Dev) (k : Nat) (p : Owner → Bool) (st : Nat) : d.KeepsDrive (d.cutLists p st) k :=
  .of_eq k rfl rfl

theorem Dev.keepsDrive_finish (d : Dev) (k id : Nat) {st : Nat} (r : Bytes) (n : Nat) (h : st ≠ 0x703) :
    d.KeepsDrive (d.finish id st r n) k :=
  .of_eq k (Dev.finish_drives ..) (d.oget_finish id st r n _ h)

theorem Dev.nvmeStatus_drives (d : Dev) (k st : Nat) : (d.nvmeStatus k st).drives = d.drives := Dev.oput_drives ..

/-- Whatever waited for the drive, its end keeps every drive's contents and names the status already named. -/
theorem Dev.keepsDrive_timedOut (d : Dev) (k : Nat) (w : DriveWork) :
    (d.nvmeStatus k 0xFFFF).KeepsDrive ((d.nvmeStatus k 0xFFFF).timedOut k w) k := by
  have hrefl : (d.nvmeStatus k 0xFFFF).KeepsDrive (d.nvmeStatus k 0xFFFF) k := .of_eq k rfl rfl
  cases w with
  | fetch id =>
    simp only [Dev.timedOut]
    split
    · exact hrefl
    · split
      · exact (Dev.keepsDrive_finish _ k id _ 0 (by decide)).trans (Dev.keepsDrive_cutLists _ k _ _)
      · exact hrefl
  | drain =>
    simp only [Dev.timedOut]
    split
    · exact hrefl
    next g _ =>
      have hagain : (d.nvmeStatus k 0xFFFF).KeepsDrive ((d.nvmeStatus k 0xFFFF).nvmeStatus k 0xFFFF) k :=
        .of_eq k (Dev.nvmeStatus_drives ..) (by simp [Dev.nvmeStatus])
      exact hagain.trans (Dev.keepsDrive_drainFailed _ k 0xFFFF g)
  | scan c =>
    simp only [Dev.timedOut]
    split
    · exact (Dev.failCtx_ends ..).keepsDrive k
    · exact hrefl

theorem Dev.oget_nvmeStatus_timeout (d : Dev) {k : Nat} (hk : k < 64) :
    (d.nvmeStatus k 0xFFFF).oget O.LAST_NVME_STATUS = k * 65536 + 0xFFFF := by
  rw [Dev.nvmeStatus, Dev.oget_oput]
  exact Nat.mod_eq_of_lt (show _ < 2 ^ 32 by omega)

/-- NVME_TIMEOUT at a drive that answered (R287). -/
theorem Dev.nvmeTimeout_facts {d : Dev} {k : Nat} (w : DriveWork) (hk : k < 64) (hh : d.halted = false)
    (ha : (d.drive k).answers = true) :
    let t := d.nvmeTimeout k w
    (t.drive k).resetting = true ∧ (t.drive k).answers = false ∧ (t.drive k).cells = (d.drive k).cells
      ∧ t.oget O.LAST_NVME_STATUS = k * 65536 + 0xFFFF ∧ Out.nvmeReset k ∈ t.out ∧ ∀ j, j ≠ k → t.drive j = d.drive j := by
  have hkeep := d.keepsDrive_timedOut k w
  have heq : d.nvmeTimeout k w = (((d.nvmeStatus k 0xFFFF).timedOut k w).setDrive k
      { ((d.nvmeStatus k 0xFFFF).timedOut k w).drive k with resetting := true, ready := false }).emit (.nvmeReset k) :=
    if_neg (by simp [hh, ha])
  have hdrive : (d.nvmeTimeout k w).drive k =
      { ((d.nvmeStatus k 0xFFFF).timedOut k w).drive k with resetting := true, ready := false } := by
    rw [heq, Dev.drive, Dev.emit_drives, ← Dev.drive, Dev.drive_setDrive]
  intro t
  refine ⟨congrArg Drive.resetting hdrive, ?_, ?_, ?_, ?_, fun j hj => ?_⟩
  · simp [t, hdrive, Drive.answers]
  · rw [← Dev.drive_congr (d.nvmeStatus_drives k 0xFFFF), ← hkeep.cells]
    exact (congrArg Drive.cells hdrive :)
  · rw [← d.oget_nvmeStatus_timeout hk, ← hkeep.status]
    simp only [t, heq]
    rfl
  · simp [t, heq, Dev.emit]
  · simp only [t, heq]
    rw [Dev.drive, Dev.emit_drives, ← Dev.drive, Dev.drive_setDrive_ne _ _ hj]
    rw [hkeep.other j hj, Dev.drive_congr (Dev.nvmeStatus_drives ..)]

/-- DRIVE_READY_TIMEOUT: the slot counts as empty, and what the drive holds stays. -/
theorem Dev.readyTimeout_facts {d : Dev} {k : Nat} (hp : (d.drive k).present = true) (hr : (d.drive k).resetting = true) :
    let t := d.readyTimeout k
    (t.drive k).empty = true ∧ (t.drive k).cells = (d.drive k).cells ∧ ∀ j, j ≠ k → t.drive j = d.drive j := by
  have heq : d.readyTimeout k =
      ((d.setDrive k { d.drive k with failed := true, resetting := false }).driveGone k).driveLost k :=
    if_neg (by simp [hp, hr])
  have hdrives : (d.readyTimeout k).drives = (d.setDrive k { d.drive k with failed := true, resetting := false }).drives := by
    rw [heq, (Dev.driveLost_ends _ k).drives_eq, Dev.driveGone_drives]
  have hdrive : (d.readyTimeout k).drive k = { d.drive k with failed := true, resetting := false } := by
    rw [Dev.drive_congr hdrives, Dev.drive_setDrive]
  intro t
  refine ⟨?_, (congrArg Drive.cells hdrive :), fun j hj => ?_⟩
  · simp [t, hdrive, Drive.empty]
  · simp only [t, Dev.drive_congr hdrives, Dev.drive_setDrive_ne _ _ hj]

theorem actAlways_of {i : Instr} {s : State} {f : Dev → Dev} {d : Dev} (h : exec i s = actAlways s f) (hf : f s.dev = d) :
    exec i s = .next { s with dev := d } := by
  rw [h, actAlways, hf]

/-- Settles O27: each drive event by what it leaves of the drives, the slot's event and the NVMe status. -/
theorem drivesComeGoAndAreReset : Obligations.DrivesComeGoAndAreReset := by
  constructor
  · intro s slot v k bit hk
    refine ⟨fun hs hp => ?_, fun hs hf => ?_, fun hs => ⟨?_, fun hf => ?_⟩⟩
    · exact ⟨s.dev.driveRemoved k,
        actAlways_of (f := fun d => d.slotRemoved k) rfl (if_pos hs), Dev.driveRemoved_facts hk hp⟩
    · obtain ⟨hdrives, hbit, hpipes, hreacts⟩ := Dev.driveInserted_facts v hk hf
      have hexec : exec (.driveInserted slot v) s = .next { s with dev := (s.dev.driveInserted k v).settle } :=
        actAlways_of (f := fun d => d.slotInserted k v) rfl (if_pos hs)
      refine ⟨s.dev.driveInserted k v, hexec, ⟨?_, hbit, fun j hj => ?_⟩, fun hcalm => ?_⟩
      · rw [Dev.drive_congr hdrives, Dev.drive_setDrive]
      · rw [Dev.drive_congr hdrives, Dev.drive_setDrive_ne _ _ hj]
      · rw [hexec, Dev.settle_calm _ ((Dev.calm_congr hreacts hpipes).trans hcalm)]
    · exact ⟨_, rfl, if_neg (by simp [hs])⟩
    · refine ⟨_, rfl, (if_neg (by simp [hs])).trans (if_neg ?_)⟩
      simp [show (s.dev.drive slot.toNat).fitted = false from hf, show slot.toNat < Config.slots from hk]
  · intro s slot work k hs
    refine ⟨fun hh ha => ?_, fun hp hr => ⟨?_, ?_⟩⟩
    · exact brings_of rfl hs (Dev.nvmeTimeout_facts work slot.isLt hh ha)
    · have heq : s.dev.readyAgain slot.toNat = s.dev.setDrive k { s.dev.drive k with resetting := false, ready := true } :=
        if_neg (by simp [show (s.dev.drive slot.toNat).present = true from hp,
          show (s.dev.drive slot.toNat).resetting = true from hr])
      exact lands_of_quiet (f := fun d => d.readyAgain slot.toNat) rfl hs (by rw [heq]; rfl) (by rw [heq]; rfl) heq
    · exact brings_of rfl hs (Dev.readyTimeout_facts hp hr)

end Sys2Proof.Machine

/-! ## Restarts: what the boot keeps of a device (R436 to R449) -/

namespace Sys2Proof.Machine

/-! ### What every step of a restart keeps -/

/-- The pins and supplies, and what the power block remembers of a thermal trip. -/
def Life.pins (l : Life) : Life :=
  { always := l.always, supplies := l.supplies, refclk := l.refclk, perst := l.perst, shelfDark := l.shelfDark
    thermtrip := l.thermtrip, tripSeen := l.tripSeen }

/-- Of a STORE: its command, its phase, its commit number and its bytes. -/
def Stg.core (g : Stg) : Nat × SPhase × Nat × Bytes := (g.cmd, g.phase, g.seq, g.data)

/-- What of a device every step of a restart keeps. -/
structure Kept where
  queues : Sparse Queue
  cmds : List Cmd
  host : Sparse Byte
  stores : List (Nat × SPhase × Nat × Bytes)
  cells : Nat → Sparse Byte
  states : Nat → Nat
  pins : Life
  timeBase : Nat
  halted : Bool

def Dev.kept (d : Dev) : Kept where
  queues := d.jamb.queues
  cmds := d.jamb.cmds
  host := d.host
  stores := d.thr.stores.map Stg.core
  cells k := (d.drive k).cells
  states c := (d.ctx c).state
  pins := d.life.pins
  timeBase := d.timeBase
  halted := d.halted

theorem Dev.queues_of_kept {d e : Dev} (h : e.kept = d.kept) : e.jamb.queues = d.jamb.queues := congrArg Kept.queues h

theorem Dev.state_of_kept {d e : Dev} (h : e.kept = d.kept) (c : Nat) : (e.ctx c).state = (d.ctx c).state :=
  congrFun (congrArg Kept.states h) c

theorem foldl_kept {α : Type} {f : Dev → α → Dev} (hf : ∀ d a, (f d a).kept = d.kept) (l : List α) (d : Dev) :
    (l.foldl f d).kept = d.kept :=
  foldl_keeps (fun e => e.kept = d.kept) f (fun e a he => (hf e a).trans he) l d rfl

/-! ### Fields, objects and fault sources -/

@[simp] theorem Dev.kept_fput (d : Dev) (f : Fld) (v : Nat) : (d.fput f v).kept = d.kept := rfl

@[simp] theorem Dev.kept_fputB (d : Dev) (f : Fld) (b : Bool) : (d.fputB f b).kept = d.kept := rfl

@[simp] theorem Dev.kept_oput (d : Dev) (o : Obj) (v : Nat) : (d.oput o v).kept = d.kept := by
  simp [Dev.kept, Dev.drive, Dev.ctx]

@[simp] theorem Dev.kept_ocount (d : Dev) (o : Obj) (n : Nat) : (d.ocount o n).kept = d.kept := Dev.kept_oput d o _

@[simp] theorem Dev.kept_raiseVector (d : Dev) (v : Nat) : (d.raiseVector v).kept = d.kept := by
  unfold Dev.raiseVector
  dsimp only
  split_ifs <;> rfl

@[simp] theorem Dev.kept_faultIrq (d : Dev) : d.faultIrq.kept = d.kept := Dev.kept_raiseVector ..

theorem Dev.kept_faultCapture (d : Dev) (n sev syn : Nat) (injected : Bool) :
    (d.faultCapture n sev syn injected).1.kept = d.kept := by
  unfold Dev.faultCapture
  dsimp only
  split <;> simp

@[simp] theorem Dev.kept_faultRaise (d : Dev) (n syn : Nat) (injected : Bool) : (d.faultRaise n syn injected).kept = d.kept := by
  have hcount : (d.faultCount n).kept = d.kept := rfl
  have howe (e : Dev) (r : List (Nat × Nat × Nat)) : ({ e with reacts := r } : Dev).kept = e.kept := rfl
  unfold Dev.faultRaise
  dsimp only
  split_ifs
  · exact hcount
  · rw [Dev.kept_faultIrq, Dev.kept_faultCapture, hcount]
  · rw [howe, Dev.kept_faultIrq, Dev.kept_faultCapture, hcount]
  · rfl

@[simp] theorem Dev.kept_fenceEvent (d : Dev) : d.fenceEvent.kept = d.kept := by simp [Dev.fenceEvent]

@[simp] theorem Dev.kept_persistWrite (d : Dev) : d.persistWrite.kept = d.kept := by
  rw [Dev.persistWrite, Dev.kept_ocount, Dev.kept_oput]
  rfl

/-! ### Boot ROM and the start of firmware -/

theorem Dev.kept_runSlot (d : Dev) (k : Nat) (b : Bytes) : (d.runSlot k b).kept = d.kept := rfl

theorem Dev.kept_reject (d : Dev) (k check : Nat) : (d.reject k check).kept = d.kept := rfl

theorem Dev.kept_bootRom (d : Dev) : d.bootRom.kept = d.kept := by
  have hfused : ({ d with life := { d.life with fused := d.life.fuses } } : Dev).deriveIdentity.kept = d.kept := rfl
  unfold Dev.bootRom
  dsimp only
  split_ifs
  · rw [Dev.kept_runSlot, hfused]
  · rw [Dev.kept_fputB, Dev.kept_runSlot, Dev.kept_reject, hfused]
  · rw [Dev.kept_fput, Dev.kept_reject, Dev.kept_reject, hfused]

theorem Dev.kept_shadowSearch (d : Dev) (c : Nat) : (d.shadowSearch c).kept = d.kept := rfl

theorem Dev.kept_restoreFields (d : Dev) : d.restoreFields.kept = d.kept := by
  rw [Dev.restoreFields, Dev.kept_fput, foldl_kept Dev.kept_shadowSearch]
  refine foldl_kept (fun d p => ?_) d.objs d
  split <;> rfl

theorem Dev.kept_firmwareStart (d : Dev) : d.firmwareStart.kept = d.kept := by
  have hstart (e : Dev) (m : Sparse Nat) (g : Dig) : ({ e with objs := m, dig := g } : Dev).kept = e.kept := rfl
  have hactive (e : Dev) (m : Sparse Nat) : ({ e with life := { e.life with active := m } } : Dev).kept = e.kept := rfl
  unfold Dev.firmwareStart
  dsimp only
  split <;> simp only [Dev.kept_faultRaise, Dev.kept_oput, Dev.kept_restoreFields, hactive, hstart]

/-! ### Training -/

theorem Dev.kept_trainFailed (d : Dev) (ch : Nat) : (d.trainFailed ch).kept = d.kept := by simp [Dev.trainFailed]

theorem Dev.kept_spoilParked (d : Dev) : d.spoilParked.kept = d.kept := by
  have hstates : (fun c => (d.spoilParked.ctx c).state) = fun c => (d.ctx c).state := funext fun c =>
    Sparse.get_map_rel (f := fun q => (q.1, { q.2 with parkBad := true })) (R := fun x y : Ctx => x.state = y.state) rfl
      (fun q => ⟨rfl, rfl⟩) d.pipes.ctxs c
  simp only [Dev.kept, hstates]
  rfl

theorem Dev.kept_mem (d : Dev) (m : Mem) : ({ d with mem := m } : Dev).kept = d.kept := rfl

theorem Dev.kept_trainNear (d : Dev) (fail : Nat) : (d.trainNear fail).kept = d.kept := by
  have hbad (l : List Nat) := foldl_kept (f := fun (d : Dev) k => (List.range 16).foldl (fun d i => d.trainFailed (16 * k + i)) d)
    (fun d k => foldl_kept (fun d i => Dev.kept_trainFailed d _) _ d) l d
  unfold Dev.trainNear
  dsimp only
  split_ifs <;> simp only [Dev.kept_spoilParked, Dev.kept_mem, Dev.kept_persistWrite, hbad]

theorem Dev.kept_trainFar (d : Dev) (fail : Nat) : (d.trainFar fail).kept = d.kept := by
  have hbad (l : List Nat) := foldl_kept (fun (d : Dev) c => Dev.kept_trainFailed d (96 + c)) l d
  unfold Dev.trainFar
  dsimp only
  split
  · rfl
  · split
    · rfl
    · rw [Dev.kept_mem, Dev.kept_mem]
      split <;> simp only [Dev.kept_persistWrite, hbad]

theorem Dev.kept_train (d : Dev) (t : Tests) : (d.train t).kept = d.kept := by
  unfold Dev.train
  dsimp only
  rw [foldl_kept fun d ch => ?_]
  · rw [Dev.kept_mem, Dev.kept_trainFar, Dev.kept_trainNear]
  · split <;> rfl

/-! ### Casements -/

theorem Dev.kept_testUnits (d : Dev) (c badPanes badBanks : Nat) : (d.testUnits c badPanes badBanks).kept = d.kept := by
  unfold Dev.testUnits
  dsimp only
  rw [foldl_kept fun d b => ?_, foldl_kept fun d i => ?_]
  · split
    · rw [Dev.kept_faultRaise, Dev.kept_oput]
      rfl
    · rw [Dev.kept_oput]
  · split
    · rw [Dev.kept_faultRaise]
      rfl
    · rfl

theorem Dev.kept_bringCasements (d : Dev) (t : Tests) : (d.bringCasements t).kept = d.kept := by
  have hmicro (d : Dev) (c : Nat) (r : Running) : (d.runMicro c r).kept = d.kept := rfl
  unfold Dev.bringCasements
  dsimp only
  rw [foldl_kept Dev.kept_shadowSearch, foldl_kept fun d c => ?_]
  · rfl
  · split
    · split
      · rw [Dev.kept_fenceEvent, Dev.kept_fput]
      · rw [Dev.kept_testUnits, hmicro]
    · split
      · rw [Dev.kept_fenceEvent, Dev.kept_fput]
      · rw [Dev.kept_fput]

/-! ### Drives and staging -/

theorem Dev.kept_engWrite (d : Dev) (a : Nat) (b : Bytes) : (d.engWrite a b).kept = d.kept := by
  have hstates : (fun c => ((d.engWrite a b).ctx c).state) = fun c => (d.ctx c).state := funext fun c =>
    (congrArg Ctx.state (d.engWrite_ctx a b c) :)
  simp only [Dev.kept, hstates, Dev.drive, Dev.engWrite_jamb, Dev.engWrite_host, Dev.engWrite_thr, Dev.engWrite_drives,
    Dev.engWrite_life, Dev.engWrite_timeBase, Dev.engWrite_halted]

theorem Dev.kept_stageBytes (us : List Nat) (n o : Nat) (b : Bytes) (d : Dev) : (d.stageBytes us n o b).kept = d.kept := by
  induction n generalizing d o b with
  | zero => rfl
  | succ n ih =>
    unfold Dev.stageBytes
    dsimp only
    split
    · rfl
    · rw [ih, Dev.kept_engWrite]

/-- A change of STOREs that leaves each one's core. -/
theorem Dev.kept_mapStores (d : Dev) (p : Stg → Bool) {f : Stg → Stg} (hf : ∀ g, (f g).core = g.core) :
    (d.mapStores p f).kept = d.kept := by
  have hcore : (d.mapStores p f).thr.stores.map Stg.core = d.thr.stores.map Stg.core := by
    rw [Dev.mapStores, List.map_map]
    refine List.map_congr_left fun g _ => ?_
    simp only [Function.comp]
    split
    · exact hf g
    · rfl
  simp only [Dev.kept, hcore]
  rfl

theorem Dev.kept_driveBack (d : Dev) (k : Nat) : (d.driveBack k).kept = d.kept := Dev.kept_mapStores d _ fun _ => rfl

theorem Dev.kept_setDrive (d : Dev) {k : Nat} {x : Drive} (hx : x.cells = (d.drive k).cells) : (d.setDrive k x).kept = d.kept := by
  have hcells : (fun j => ((d.setDrive k x).drive j).cells) = fun j => (d.drive j).cells := funext fun j => by
    by_cases h : j = k
    · rw [h, Dev.drive_setDrive, hx]
    · rw [Dev.drive_setDrive_ne d x h]
  simp only [Dev.kept, hcells]
  rfl

theorem Dev.kept_slotEvent (d : Dev) (k : Nat) : (d.slotEvent k).kept = d.kept := by
  unfold Dev.slotEvent
  dsimp only
  split <;> simp [Dev.for_]

theorem Dev.kept_bringDrives (d : Dev) : d.bringDrives.kept = d.kept := by
  unfold Dev.bringDrives
  dsimp only
  rw [foldl_kept fun d k => ?_, foldl_kept fun d g => Dev.kept_stageBytes ..]
  have hattach := d.kept_setDrive (k := k) (x := (d.drive k).attach d.bifurcation k) rfl
  split_ifs
  · rw [Dev.kept_driveBack, hattach]
  · rw [Dev.kept_slotEvent, Dev.kept_driveBack, hattach]
  · exact (Dev.kept_mapStores _ _ (f := fun g => { g with held := some 0x0601 }) fun _ => rfl).trans hattach

/-! ### READY, on a shelf that may be dark (R449) -/

/-- Device `t` keeps what `d` had, but for PARKED contexts that a dark shelf cancels. -/
structure Dev.Restarted (d t : Dev) : Prop where
  kept : t.kept = { d.kept with states := t.kept.states }
  ctx : ∀ c, (t.ctx c).state = (d.ctx c).state ∨ (d.life.shelfDark = true ∧ (d.ctx c).state = 5 ∧ (t.ctx c).state = 7)

theorem Dev.Restarted.of_kept {d t : Dev} (h : t.kept = d.kept) : d.Restarted t :=
  ⟨by rw [h], fun c => .inl (Dev.state_of_kept h c)⟩

theorem Dev.Restarted.after {d e t : Dev} (h : e.kept = d.kept) (k : e.Restarted t) : d.Restarted t := by
  obtain ⟨hkept, hctx⟩ := k
  refine ⟨h ▸ hkept, fun c => ?_⟩
  rw [← show e.life.shelfDark = d.life.shelfDark from congrArg (fun k => k.pins.shelfDark) h, ← Dev.state_of_kept h c]
  exact hctx c

/-- No context is in RUNNING or PARKING. -/
def Dev.NoRun (d : Dev) : Prop := ∀ c, (d.ctx c).state ≠ 2 ∧ (d.ctx c).state ≠ 4

/-- Device `t` is `d` but for its pipelines, in which PARKED contexts may have been cancelled. -/
structure Dev.Darkened (d t : Dev) : Prop where
  frame : ∃ p, t = { d with pipes := p }
  ctx : ∀ c, (t.ctx c).state = (d.ctx c).state ∨ ((d.ctx c).state = 5 ∧ (t.ctx c).state = 7)

/-- A cancel of a context that does not run. -/
theorem Dev.Darkened.cancelCtx {d t : Dev} (h : d.Darkened t) {c : Nat} (hc : (t.ctx c).state ≠ 2 ∧ (t.ctx c).state ≠ 4)
    (st : Nat) : d.Darkened (t.cancelCtx c st) := by
  by_cases hp : (t.ctx c).state = 5
  · rw [Dev.cancelCtx_of_parked _ hp]
    obtain ⟨⟨p, rfl⟩, hctx⟩ := h
    refine ⟨⟨_, rfl⟩, fun k => ?_⟩
    by_cases hk : k = c
    · subst hk
      rw [Dev.ctx_setCtx]
      have hwas := hctx k
      rw [hp] at hwas
      exact .inr ⟨(by simpa using hwas : 5 = _).symm, rfl⟩
    · rw [Dev.ctx_setCtx_ne _ _ hk]
      exact hctx k
  · rw [Dev.cancelCtx_of_still _ hp (by simp [hc])]
    exact h

/-- Where no context runs, going dark cancels PARKED ones at most. -/
theorem Dev.darkContexts_darkened {d : Dev} (hidle : d.NoRun) : d.Darkened d.darkContexts := by
  refine foldl_keeps (fun t => d.Darkened t) _ (fun t c h => ?_) _ d ⟨⟨_, rfl⟩, fun _ => .inl rfl⟩
  have hc : (t.ctx c).state ≠ 2 ∧ (t.ctx c).state ≠ 4 := by
    rcases h.ctx c with hsame | ⟨-, hfailed⟩
    · rw [hsame]
      exact hidle c
    · simp [hfailed]
  dsimp only
  split
  · exact h.cancelCtx hc _
  · simpa [hc] using h

/-- A restarted engine parks at once on a dark shelf: it has no queue to flush and no context that runs. -/
theorem Dev.startParking_restarted {d : Dev} (hq : d.jamb.queues = [])
    (hidle : d.NoRun) : d.Restarted d.startParking ∧ d.startParking.flds = d.flds := by
  by_cases hpark : d.mayPark = true
  · have heq : d.startParking = ({ d with life := { d.life with parking := true } } : Dev).darkContexts := by
      rw [Dev.startParking, if_pos hpark]
      simp only [hq]
      rfl
    have hdark : d.life.shelfDark = true := by
      simp only [Dev.mayPark, Bool.and_eq_true] at hpark
      tauto
    obtain ⟨⟨p, hp⟩, hctx⟩ :=
      Dev.darkContexts_darkened (d := { d with life := { d.life with parking := true } }) hidle
    rw [← heq] at hp hctx
    exact ⟨⟨by rw [hp]; rfl, fun c => (hctx c).imp_right fun h => ⟨hdark, h⟩⟩, by rw [hp]⟩
  · rw [Dev.startParking, if_neg hpark]
    exact ⟨.of_kept rfl, rfl⟩

theorem Dev.reportSelf_facts (d : Dev) : d.reportSelf.kept = d.kept ∧ d.reportSelf.flds = d.flds := by
  have hemit (e : Dev) (o : Out) : (e.emit o).kept = e.kept := rfl
  unfold Dev.reportSelf Dev.notify Dev.sashSend Dev.sashPut
  split_ifs <;> simp [hemit] <;> rfl

theorem Dev.noRun_of_kept {d e : Dev} (h : e.kept = d.kept) (hidle : d.NoRun) : e.NoRun := by
  intro c
  rw [Dev.state_of_kept h]
  exact hidle c

theorem Dev.ready_restarted {d : Dev} (hq : d.jamb.queues = []) (hidle : d.NoRun) :
    d.Restarted d.ready ∧ d.ready.fget F.LM_STAT_STAGE = 4 := by
  obtain ⟨hkept, hflds⟩ := Dev.reportSelf_facts ((d.fputB F.JB_STAT_HOLD false).fput F.LM_STAT_STAGE 4)
  rw [Dev.kept_fput, Dev.kept_fputB] at hkept
  obtain ⟨hrest, hend⟩ := Dev.startParking_restarted ((Dev.queues_of_kept hkept).trans hq) (Dev.noRun_of_kept hkept hidle)
  refine ⟨hrest.after hkept, ?_⟩
  rw [Dev.ready, Dev.fget, hend, hflds, ← Dev.fget, Dev.fget_fput]
  rfl

/-- Up to READY nothing that is kept changes; at READY a dark shelf may cancel PARKED contexts. -/
theorem Dev.bringUp_restarted {d : Dev} (t : Tests) (hq : d.jamb.queues = [])
    (hidle : d.NoRun) :
    d.Restarted (d.bringUp t) ∧ (d.bringUp t).fget F.LM_STAT_STAGE = 4 := by
  have hbefore : (((d.train t).bringCasements t).bringDrives).kept = d.kept := by
    rw [Dev.kept_bringDrives, Dev.kept_bringCasements, Dev.kept_train]
  obtain ⟨hrest, hstage⟩ := Dev.ready_restarted ((Dev.queues_of_kept hbefore).trans hq) (Dev.noRun_of_kept hbefore hidle)
  exact ⟨hrest.after hbefore, hstage⟩

/-- R438, R440: the boot of a device without a queue, where no context runs, ends READY or in RECOVERY. -/
theorem Dev.boot_restarted {d : Dev} (t : Tests) (hq : d.jamb.queues = [])
    (hidle : d.NoRun) :
    d.Restarted (d.boot t) ∧ ((d.boot t).fget F.LM_STAT_STAGE = 4 ∨ (d.boot t).fget F.LM_STAT_STAGE = 5) := by
  unfold Dev.boot
  dsimp only
  split
  next hstage => exact ⟨.of_kept d.kept_bootRom, .inr hstage⟩
  next =>
    have hkept := d.bootRom.kept_firmwareStart.trans d.kept_bootRom
    obtain ⟨hrest, hstage⟩ := Dev.bringUp_restarted (d := d.bootRom.firmwareStart) t
      ((Dev.queues_of_kept hkept).trans hq) (Dev.noRun_of_kept hkept hidle)
    exact ⟨hrest.after hkept, .inl hstage⟩

end Sys2Proof.Machine

/-! ## Device resets, the supplies and the reference clock (R436 to R438, R468) -/

namespace Sys2Proof.Machine

/-! ### Tables of which a part is kept -/

/-- What holds of every entry and of the default holds of what a key reads as. -/
theorem Sparse.get_forall {α : Type} {z : α} {P : α → Prop} (hz : P z) {m : Sparse α} (hm : ∀ q ∈ m, P q.2) (k : Nat) :
    P (Sparse.get z m k) := by
  induction m with
  | nil => exact hz
  | cons q m ih =>
    rw [List.forall_mem_cons] at hm
    simp only [Sparse.get]
    split
    · exact hm.1
    · exact ih hm.2

theorem Sparse.get_of_not_mem {α : Type} (z : α) {m : Sparse α} {k : Nat} (h : k ∉ m.map Prod.fst) : Sparse.get z m k = z := by
  induction m with
  | nil => rfl
  | cons q m ih =>
    rw [List.map_cons, List.mem_cons, not_or] at h
    rw [Sparse.get, if_neg h.1, ih h.2]

/-- Every drive after a reset. -/
def restDrives (m : Sparse Drive) : Sparse Drive :=
  m.filterMap (fun (q : Nat × Drive) => if q.2.rest = ({} : Drive) then none else some (q.1, q.2.rest))

/-- A drive keeps what it holds; one of which nothing is left held nothing. -/
theorem restDrives_cells {m : Sparse Drive} (h : (m.map Prod.fst).Nodup) (k : Nat) :
    (Sparse.get {} (restDrives m) k).cells = (Sparse.get {} m k).cells := by
  induction m with
  | nil => rfl
  | cons q m ih =>
    obtain ⟨hq, hm⟩ := List.nodup_cons.mp h
    simp only [restDrives, List.filterMap_cons] at ih ⊢
    split_ifs with hrest
    · by_cases hk : k = q.1
      · have hcells : q.2.cells = [] := (congrArg Drive.cells hrest :)
        rw [ih hm, Sparse.get, if_pos hk, hcells, Sparse.get_of_not_mem _ (hk ▸ hq)]
      · rw [ih hm, Sparse.get, if_neg hk]
    · simp only [Sparse.get]
      split
      · rfl
      · exact ih hm

/-! ### What the restarts keep of STOREs, drives and queues -/

/-- Device `t` has the STOREs that had committed on `d`, and its drives hold what they held. -/
def Dev.Stores (d t : Dev) : Prop :=
  (∀ g ∈ d.thr.stores, g.phase = .staged → ∃ h ∈ t.thr.stores, h.cmd = g.cmd ∧ h.seq = g.seq ∧ h.data = g.data)
    ∧ (∀ h ∈ t.thr.stores, h.phase = .staged ∧ ∃ g ∈ d.thr.stores, g.phase = .staged ∧ g.seq = h.seq ∧ g.data = h.data)
    ∧ ((d.drives.map Prod.fst).Nodup → ∀ k, (t.drive k).cells = (d.drive k).cells)

theorem Dev.stores_of_kept {d t : Dev}
    (hs : t.kept.stores = (d.thr.stores.filter (fun g => decide (g.phase = .staged))).map Stg.core)
    (hc : (d.drives.map Prod.fst).Nodup → ∀ k, t.kept.cells k = (d.drive k).cells) : d.Stores t := by
  have hcore {g h : Stg} (k : g.core = h.core) : g.cmd = h.cmd ∧ g.phase = h.phase ∧ g.seq = h.seq ∧ g.data = h.data := by
    simpa [Stg.core] using k
  refine ⟨fun g hg hp => ?_, fun h hh => ?_, hc⟩
  · have hmem : g.core ∈ t.kept.stores := hs ▸ List.mem_map_of_mem (List.mem_filter.mpr ⟨hg, decide_eq_true hp⟩)
    obtain ⟨h, hh, heq⟩ := List.mem_map.mp hmem
    obtain ⟨hcmd, -, hseq, hdata⟩ := hcore heq
    exact ⟨h, hh, hcmd, hseq, hdata⟩
  · have hmem : h.core ∈ t.kept.stores := List.mem_map_of_mem hh
    rw [hs] at hmem
    obtain ⟨g, hg, heq⟩ := List.mem_map.mp hmem
    obtain ⟨hg, hp⟩ := List.mem_filter.mp hg
    obtain ⟨-, hphase, hseq, hdata⟩ := hcore heq
    exact ⟨hphase ▸ of_decide_eq_true hp, g, hg, of_decide_eq_true hp, hseq, hdata⟩

/-- No queue and no command. -/
def Dev.Quiet (d : Dev) : Prop := (∀ q, (d.queue q).st = .absent) ∧ d.jamb.cmds = []

theorem Dev.quiet_of {d : Dev} (hq : d.jamb.queues = []) (hc : d.jamb.cmds = []) : d.Quiet :=
  ⟨fun q => by rw [Dev.queue, hq]; rfl, hc⟩

/-- What is left of device `d` when `t` has lost what main power holds: nothing in flight, the committed STOREs, what the drives
hold, and of the contexts PARKED ones at most. -/
structure Dev.Lost (d t : Dev) : Prop where
  queues : t.jamb.queues = []
  cmds : t.jamb.cmds = []
  host : t.host = d.host
  halted : t.halted = false
  stores : t.kept.stores = (d.thr.stores.filter (fun g => decide (g.phase = .staged))).map Stg.core
  cells : (d.drives.map Prod.fst).Nodup → ∀ k, t.kept.cells k = (d.drive k).cells
  parked : ∀ c, (t.ctx c).state = 0 ∨ (t.ctx c).state = 5

theorem Thr.rest_core (t : Thr) :
    t.rest.stores.map Stg.core = (t.stores.filter (fun g => decide (g.phase = .staged))).map Stg.core := by
  rw [Thr.rest, List.map_map]
  rfl

theorem Dev.loseMain_lost (d : Dev) (park : Bool) : d.Lost (d.loseMain park) where
  queues := rfl
  cmds := rfl
  host := rfl
  halted := rfl
  stores := d.thr.rest_core
  cells h k := restDrives_cells h k
  parked c := by
    refine Sparse.get_forall (P := fun x : Ctx => x.state = 0 ∨ x.state = 5) (.inl rfl) (fun q hq => ?_) c
    cases park with
    | false => exact absurd hq List.not_mem_nil
    | true => exact .inr (by simpa using (List.mem_filter.mp hq).2)

theorem Dev.Lost.quiet {d t : Dev} (h : d.Lost t) : t.Quiet := Dev.quiet_of h.queues h.cmds

theorem Dev.Lost.stored {d t : Dev} (h : d.Lost t) : d.Stores t := Dev.stores_of_kept h.stores h.cells

/-- What is lost stays lost where nothing that restarts keep changes. -/
theorem Dev.Lost.of_kept {d t e : Dev} (h : d.Lost t) (hq : e.jamb.queues = t.jamb.queues) (hc : e.jamb.cmds = t.jamb.cmds)
    (hh : e.host = t.host) (hl : e.halted = t.halted) (hs : e.thr.stores = t.thr.stores) (hd : e.drives = t.drives)
    (hp : e.pipes = t.pipes) : d.Lost e := by
  obtain ⟨kq, kc, kh, kl, ks, kd, kp⟩ := h
  refine ⟨hq.trans kq, hc.trans kc, hh.trans kh, hl.trans kl, ?_, fun hn k => ?_, fun c => ?_⟩
  · rw [← ks]
    exact congrArg (List.map Stg.core) hs
  · rw [← kd hn]
    exact congrArg Drive.cells (Dev.drive_congr hd k)
  · rw [Dev.ctx_congr (congrArg Pipes.ctxs hp)]
    exact kp c

/-- Of device `d`, `t` is a fresh start: no queue, no command, no halt, and READY or in RECOVERY. -/
def Dev.Fresh (d t : Dev) : Prop :=
  t.Quiet ∧ t.halted = false ∧ t.host = d.host ∧ (t.fget F.LM_STAT_STAGE = 4 ∨ t.fget F.LM_STAT_STAGE = 5)

theorem Dev.Lost.boot {d t : Dev} (h : d.Lost t) (tests : Tests) :
    d.Fresh (t.boot tests) ∧ d.Stores (t.boot tests) ∧ t.Restarted (t.boot tests) := by
  have hidle : t.NoRun := fun c => by rcases h.parked c with hc | hc <;> simp [hc]
  obtain ⟨hrest, hstage⟩ := Dev.boot_restarted tests h.queues hidle
  have hk := hrest.kept
  refine ⟨⟨Dev.quiet_of ?_ ?_, ?_, ?_, hstage⟩, Dev.stores_of_kept ?_ fun hn k => ?_, hrest⟩
  · exact (congrArg Kept.queues hk).trans h.queues
  · exact (congrArg Kept.cmds hk).trans h.cmds
  · exact (congrArg Kept.halted hk).trans h.halted
  · exact (congrArg Kept.host hk).trans h.host
  · exact (congrArg Kept.stores hk).trans h.stores
  · exact (congrFun (congrArg Kept.cells hk) k).trans (h.cells hn k)

end Sys2Proof.Machine

/-! ## The Function Level Reset and what it shares with a device reset (R51, R212, R267, R318, R323, R375, R437) -/

namespace Sys2Proof.Machine

/-! ### Sills that are flush-invalidated (R212) -/

/-- The device without engine memory and the Sills. -/
def Dev.offMem (d : Dev) : Dev := { d with mem := {}, sill := [] }

theorem Dev.eq_of_offMem {d t : Dev} (h : t.offMem = d.offMem) : ∃ m s, t = { d with mem := m, sill := s } :=
  ⟨t.mem, t.sill, congrArg (fun e : Dev => { e with mem := t.mem, sill := t.sill }) h⟩

theorem foldl_offMem {α : Type} {f : Dev → α → Dev} (hf : ∀ d a, (f d a).offMem = d.offMem) (l : List α) (d : Dev) :
    (l.foldl f d).offMem = d.offMem :=
  foldl_keeps (fun e => e.offMem = d.offMem) f (fun e a he => (hf e a).trans he) l d rfl

theorem Dev.offMem_writeOut (d : Dev) (c : Nat) (l : SLine) : (d.writeOut c l).offMem = d.offMem := by simp [Dev.offMem]

theorem Dev.offMem_flushBank (d : Dev) (c b : Nat) : (d.flushBank c b).offMem = d.offMem := by
  have hput (d : Dev) (line : Nat) (q : SReq) : (if q.write = [] then d else
      d.writeOut c (({ line := line, data := (d.lineRead line).1 } : SLine).write q)).offMem = d.offMem := by
    split
    · rfl
    · exact Dev.offMem_writeOut ..
  unfold Dev.flushBank
  dsimp only
  rw [foldl_offMem fun d w => hput .., foldl_offMem fun d r => foldl_offMem (fun d q => hput ..) _ d,
    foldl_offMem fun d w => ?_, foldl_offMem fun d l => ?_]
  · split
    · rfl
    · exact Dev.offMem_writeOut ..
  · split
    · rfl
    · exact Dev.offMem_writeOut ..

theorem Dev.maintActs_of_nil {d : Dev} (h : d.maint = []) (cmd : Option Nat) (written dropped : Nat) :
    d.maintActs cmd written dropped = d := by
  cases cmd with
  | none => rfl
  | some id =>
    rw [Dev.maintActs, h]
    exact congrArg (fun m => ({ d with maint := m } : Dev)) h.symm

theorem Dev.maintEnd_of_nil {d : Dev} (h : d.maint = []) : d.maintEnd = d := by
  rw [Dev.maintEnd, h]
  exact congrArg (fun m => ({ d with maint := m } : Dev)) h.symm

/-- With no maintenance under way, a Sill that is flush-invalidated changes memory and itself. -/
theorem Dev.offMem_sillClear {d : Dev} (h : d.maint = []) (c : Nat) : (d.sillClear c true).offMem = d.offMem := by
  have hmaint {e : Dev} (he : e.offMem = d.offMem) : e.maint = [] := (congrArg Dev.maint he).trans h
  have hbanks := foldl_keeps (fun e : Dev => e.offMem = d.offMem)
    (fun (d : Dev) b =>
      ((((d.sbank c b).mrs.flatMap MissReg.held).map HeldOp.cmd).foldl (fun d cmd => d.maintActs cmd 0 0)
        (if true then d.flushBank c b else d)).setSbank c b {})
    (fun e b he => by
      have hflush := (e.offMem_flushBank c b).trans he
      have hacts := foldl_keeps (fun t => t = e.flushBank c b) (fun (d : Dev) cmd => d.maintActs cmd 0 0)
        (fun t cmd ht => by rw [ht, Dev.maintActs_of_nil (hmaint hflush)])
        (((e.sbank c b).mrs.flatMap MissReg.held).map HeldOp.cmd) (e.flushBank c b) rfl
      rw [if_pos rfl, hacts]
      exact hflush)
    (List.range 16) d rfl
  rw [Dev.sillClear, Dev.maintEnd_of_nil (hmaint hbanks)]
  exact hbanks

theorem Dev.sillsReset_frame (d : Dev) : ∃ m s, d.sillsReset = { d with maint := [], mem := m, sill := s } := by
  refine Dev.eq_of_offMem (d := { d with maint := [] }) ?_
  refine foldl_keeps (fun e : Dev => e.offMem = ({ d with maint := [] } : Dev).offMem) _ (fun e c he => ?_) _ _ rfl
  have hmaint : e.maint = [] := (congrArg Dev.maint he :)
  by_cases hup : e.casUp c = true
  · rw [if_pos hup, Dev.offMem_sillClear hmaint, he]
  · rw [if_neg hup, he]

/-! ### Device reset (R436) -/

theorem Dev.Lost.of_source {d e t : Dev} (h : e.Lost t) (hs : e.thr.stores = d.thr.stores) (hd : e.drives = d.drives)
    (hh : e.host = d.host) : d.Lost t where
  queues := h.queues
  cmds := h.cmds
  host := h.host.trans hh
  halted := h.halted
  stores := hs ▸ h.stores
  cells hn k := (h.cells (hd ▸ hn) k).trans (congrArg Drive.cells (Dev.drive_congr hd k))
  parked := h.parked

/-- A device reset loses what main power holds; the time base, the pins and the supplies go on. -/
theorem Dev.loseDevice_lost (d : Dev) :
    d.Lost d.loseDevice ∧ d.loseDevice.life.shelfDark = d.life.shelfDark ∧ d.loseDevice.timeBase = d.timeBase := by
  obtain ⟨e, hlose, hkept, hthr, hdrives⟩ : ∃ e : Dev, d.loseDevice = (e.sillsReset.loseMain true).keepTap d.tap ∧ e.kept = d.kept
      ∧ e.thr = d.thr ∧ e.drives = d.drives := by
    by_cases hp : d.sash.persist.isSome = true
    · exact ⟨d.persistWrite, by rw [Dev.loseDevice, if_pos hp], d.kept_persistWrite, by simp [Dev.persistWrite],
        by simp [Dev.persistWrite]⟩
    · exact ⟨d, by rw [Dev.loseDevice, if_neg hp], rfl, rfl, rfl⟩
  obtain ⟨m, s, hsills⟩ := e.sillsReset_frame
  have hlost : e.sillsReset.Lost d.loseDevice := by
    rw [hlose]
    exact (Dev.loseMain_lost _ true).of_kept rfl rfl rfl rfl rfl rfl rfl
  rw [hsills] at hlost hlose
  refine ⟨hlost.of_source (congrArg Thr.stores hthr) hdrives (congrArg Kept.host hkept), ?_, ?_⟩
  · rw [hlose]
    exact congrArg (fun k => k.pins.shelfDark) hkept
  · rw [hlose]
    exact congrArg Kept.timeBase hkept

/-! ### Function Level Reset -/

/-- Of the STOREs only those that have committed stay (R267). -/
theorem Dev.storesReset_frame (d : Dev) : ∃ t b h, d.storesReset = { d with thr := t, bifold := b, hinge := h }
    ∧ ∀ g, g ∈ t.stores ↔ g ∈ d.thr.stores ∧ g.phase = .staged := by
  obtain ⟨u, b, h, hdrop⟩ := Dev.dropStores_frame (d.thr.stores.filter (fun g => decide (g.phase ≠ .staged))) d
  refine ⟨_, b, h, by rw [Dev.storesReset, hdrop], fun g => ?_⟩
  simp only [List.mem_filter, decide_eq_true_eq, not_and, not_not]
  exact and_congr_right fun hg => ⟨fun h => h hg, fun h _ => h⟩

theorem Dev.bifoldReset_frame (d : Dev) : ∃ b h, d.bifoldReset = { d with bifold := b, hinge := h } := by
  rw [Dev.bifoldReset, ← List.foldl_map (g := fun (d : Dev) o => d.dropJob o)]
  exact Dev.dropJobs_frame _ d

theorem Dev.releaseAllStreams_frame (d : Dev) (p : Nat → Bool) : ∃ s, d.releaseAllStreams p = { d with sill := s } := by
  unfold Dev.releaseAllStreams
  split
  · exact ⟨d.sill, rfl⟩
  · refine foldl_keeps (fun e : Dev => ∃ s, e = { d with sill := s }) _ (fun e c he => ?_) _ d ⟨_, rfl⟩
    refine foldl_keeps (fun e : Dev => ∃ s, e = { d with sill := s }) _ (fun e b he => ?_) _ e he
    obtain ⟨s, rfl⟩ := he
    exact ⟨_, rfl⟩

/-- A context that is evicted and freed reads as FREE; beyond it its streams, its place in Panes and its tables change. -/
theorem Dev.freed_frame (d : Dev) (c : Nat) : ∃ s l p, (d.evictCtx c).freeCtx c =
    ({ d with sill := s, louvre := l, pipes := { d.pipes with panes := p } } : Dev).setCtx c {} := by
  obtain ⟨s, hs⟩ := d.releaseAllStreams_frame (fun o => o / 1024 == c)
  refine ⟨s, ((d.evictCtx c).freeCtx c).louvre, (d.evictCtx c).pipes.panes, ?_⟩
  rw [Dev.freeCtx_moves, Dev.evictCtx, hs]
  rfl

/-- Contexts `cs` read as FREE on device `t`; every other, and all but Sills, Louvre and the pipelines, is as on `d`. -/
structure Dev.Frees (d t : Dev) (cs : List Nat) : Prop where
  frame : ∃ s l p, t = { d with sill := s, louvre := l, pipes := p }
  gone : ∀ c ∈ cs, t.ctx c = {}
  others : ∀ c, c ∉ cs → t.ctx c = d.ctx c

theorem Dev.frees_foldl (cs : List Nat) (d : Dev) : d.Frees (cs.foldl (fun d c => (d.evictCtx c).freeCtx c) d) cs := by
  induction cs generalizing d with
  | nil => exact ⟨⟨_, _, _, rfl⟩, fun c hc => absurd hc List.not_mem_nil, fun _ _ => rfl⟩
  | cons c cs ih =>
    obtain ⟨s, l, p, hstep⟩ := d.freed_frame c
    obtain ⟨⟨s', l', p', hfold⟩, hgone, hothers⟩ := ih ((d.evictCtx c).freeCtx c)
    have hself : ((d.evictCtx c).freeCtx c).ctx c = {} := by rw [hstep, Dev.ctx_setCtx]
    refine ⟨⟨s', l', p', by rw [List.foldl_cons, hfold, hstep]; rfl⟩, fun k hk => ?_, fun k hk => ?_⟩
    · rw [List.foldl_cons]
      by_cases hin : k ∈ cs
      · exact hgone k hin
      · rw [hothers k hin, (List.mem_cons.mp hk).resolve_right hin, hself]
    · rw [List.mem_cons, not_or] at hk
      rw [List.foldl_cons, hothers k hk.2, hstep, Dev.ctx_setCtx_ne _ _ hk.1]
      rfl

/-- The numbers of the contexts that hold something and are not PARKED. -/
def Dev.unparked (d : Dev) : List Nat := (d.pipes.ctxs.filter (fun q => decide (q.2.state ≠ 5))).map Prod.fst

theorem Sparse.get_mem_of_ne {α : Type} {z : α} {m : Sparse α} {k : Nat} (h : Sparse.get z m k ≠ z) : (k, Sparse.get z m k) ∈ m := by
  induction m with
  | nil => exact absurd rfl h
  | cons q m ih =>
    simp only [Sparse.get] at h ⊢
    split_ifs at h ⊢ with hk
    · exact hk ▸ List.mem_cons_self
    · exact List.mem_cons_of_mem _ (ih h)

/-- A context that is not PARKED is one of those freed, or holds nothing. -/
theorem Dev.unparked_of_state {d : Dev} {c : Nat} (h : (d.ctx c).state ≠ 5) : c ∈ d.unparked ∨ d.ctx c = {} := by
  by_cases hz : d.ctx c = {}
  · exact .inr hz
  · exact .inl (List.mem_map.mpr ⟨(c, d.ctx c), List.mem_filter.mpr ⟨Sparse.get_mem_of_ne hz, decide_eq_true h⟩, rfl⟩)

theorem Dev.not_unparked {d : Dev} {c : Nat} (h : ∀ p ∈ d.pipes.ctxs, p.1 = c → p.2.state = 5) : c ∉ d.unparked := by
  intro hc
  obtain ⟨p, hp, hkey⟩ := List.mem_map.mp hc
  obtain ⟨hmem, hstate⟩ := List.mem_filter.mp hp
  exact of_decide_eq_true hstate (h p hmem hkey)

theorem Dev.contextsReset_facts (d : Dev) :
    (∃ s l p n, d.contextsReset = { d with sill := s, louvre := l, pipes := p, net := n })
      ∧ ∀ c, ((d.ctx c).state ≠ 5 → d.contextsReset.ctx c = {})
        ∧ ((∀ p ∈ d.pipes.ctxs, p.1 = c → p.2.state = 5) → (d.contextsReset.ctx c).state = (d.ctx c).state) := by
  obtain ⟨⟨s, l, p, hframe⟩, hgone, hothers⟩ := Dev.frees_foldl d.unparked { d with
    pipes := { d.pipes with works := [] }
    net := { d.net with tx := [], rx := [], txq := d.net.txq.filter (fun f => decide (4 ≤ f.type)) } }
  refine ⟨⟨s, l, p, _, hframe⟩, fun c => ⟨fun h => ?_, fun h => ?_⟩⟩
  · by_cases hc : c ∈ d.unparked
    · exact hgone c hc
    · exact (hothers c hc).trans ((Dev.unparked_of_state h).resolve_left hc)
  · exact congrArg Ctx.state (hothers c (Dev.not_unparked h))

/-- What a Function Level Reset leaves of device `d`. -/
def Dev.FlrLeaves (d t : Dev) : Prop :=
  t.Quiet ∧ (∀ k, t.dgctx k = {}) ∧ (∀ k, k ≠ 0 → t.slot k = {}) ∧ t.slot 0 = d.slot 0
    ∧ (∀ g, g ∈ t.thr.stores ↔ g ∈ d.thr.stores ∧ g.phase = .staged) ∧ t.drives = d.drives
    ∧ ∀ c, ((d.ctx c).state ≠ 5 → t.ctx c = {})
      ∧ ((∀ p ∈ d.pipes.ctxs, p.1 = c → p.2.state = 5) → (t.ctx c).state = (d.ctx c).state)

theorem Sparse.get_filter_key {α : Type} (z : α) (p : Nat → Bool) (m : Sparse α) (k : Nat) :
    Sparse.get z (m.filter (fun q => p q.1)) k = if p k then Sparse.get z m k else z := by
  induction m with
  | nil => simp [Sparse.get]
  | cons q m ih =>
    by_cases hk : k = q.1
    · subst hk
      cases hp : p q.1
      · simpa [hp] using ih
      · simp [Sparse.get, hp]
    · cases hp : p q.1 <;> simpa [Sparse.get, hk, hp] using ih

theorem Dev.jambReset_frame (d : Dev) :
    ∃ f j, d.jambReset = { d with flds := f, jamb := j } ∧ j.queues = [] ∧ j.cmds = [] :=
  ⟨_, _, rfl, rfl, rfl⟩

/-- A Function Level Reset as far as its contexts, before those and the digest engine are reset. -/
def Dev.beforeContexts (d : Dev) : Dev := d.jambReset.sillsReset.storesReset.hingeReset.bifoldReset

theorem Dev.beforeContexts_frame (d : Dev) : ∃ f j m s b h t, d.beforeContexts =
    { d with flds := f, jamb := j, mem := m, sill := s, maint := [], bifold := b, hinge := h, thr := t }
      ∧ j.queues = [] ∧ j.cmds = [] ∧ ∀ g, g ∈ t.stores ↔ g ∈ d.thr.stores ∧ g.phase = .staged := by
  obtain ⟨f, j, hjamb, hq, hc⟩ := d.jambReset_frame
  obtain ⟨m, s, hsills⟩ := d.jambReset.sillsReset_frame
  obtain ⟨t, b, h, hstores, ht⟩ := d.jambReset.sillsReset.storesReset_frame
  obtain ⟨b', h', hbifold⟩ := d.jambReset.sillsReset.storesReset.hingeReset.bifoldReset_frame
  rw [hsills, hjamb] at ht
  refine ⟨f, j, m, s, b', h', t, ?_, hq, hc, ht⟩
  rw [Dev.beforeContexts, hbifold, Dev.hingeReset, hstores, hsills, hjamb]

theorem Dev.functionReset_eq (d : Dev) : d.functionReset =
    (d.beforeContexts.contextsReset.digestReset.clearFields 0xC 0x10).clearFields 0x8 0xC := rfl

theorem Dev.functionReset_leaves (d : Dev) : d.FlrLeaves d.functionReset := by
  obtain ⟨f, j, m, s, b, h, t, hbefore, hq, hc, hstores⟩ := d.beforeContexts_frame
  have hctxs := d.beforeContexts.contextsReset_facts
  rw [Dev.functionReset_eq]
  rw [hbefore] at hctxs ⊢
  obtain ⟨⟨s', l, p, n, hframe⟩, hctx⟩ := hctxs
  rw [hframe] at hctx ⊢
  have hslots := Sparse.get_filter_key {} (· == 0) d.dig.slots
  refine ⟨Dev.quiet_of hq hc, fun k => rfl, fun k hk => ?_, hslots 0, hstores, rfl, hctx⟩
  exact (hslots k).trans (if_neg (by simpa using hk))

end Sys2Proof.Machine

/-! ## What resets, supplies and the clock keep (R51, R267, R318, R323, R436 to R438, R468) -/

namespace Sys2Proof.Machine

/-! ### Contexts after a restart -/

theorem Dev.Restarted.empty {d t : Dev} (h : d.Restarted t) (hd : ∀ c, (d.ctx c).state = 0) (c : Nat) : (t.ctx c).state = 0 := by
  rcases h.ctx c with hc | ⟨-, hc, -⟩
  · rw [hc, hd]
  · simp [hd] at hc

theorem Dev.Restarted.parks {d t : Dev} (h : d.Restarted t) (hd : ∀ c, (d.ctx c).state = 0 ∨ (d.ctx c).state = 5) (c : Nat) :
    (t.ctx c).state = 0 ∨ (t.ctx c).state = 5 ∨ (d.life.shelfDark = true ∧ (t.ctx c).state = 7) := by
  rcases h.ctx c with hc | ⟨hdark, -, hc⟩
  · rw [hc]
    exact (hd c).imp_right .inl
  · exact .inr (.inr ⟨hdark, hc⟩)

theorem Dev.Restarted.pins_eq {d t : Dev} (h : d.Restarted t) :
    t.life.always = d.life.always ∧ t.life.supplies = d.life.supplies ∧ t.life.refclk = d.life.refclk
      ∧ t.life.thermtrip = d.life.thermtrip ∧ t.life.tripSeen = d.life.tripSeen := by
  have hpins : t.life.pins = d.life.pins := congrArg Kept.pins h.kept
  simp only [Life.pins, Life.mk.injEq] at hpins
  tauto

theorem Dev.Restarted.timeBase_eq {d t : Dev} (h : d.Restarted t) : t.timeBase = d.timeBase := congrArg Kept.timeBase h.kept

/-! ### Device reset and power-on -/

theorem Dev.deviceReset_facts {d : Dev} (t : Tests) (hs : d.serves = true) :
    let r := d.deviceReset t
    d.Fresh r ∧ d.Stores r
      ∧ (∀ c, (r.ctx c).state = 0 ∨ (r.ctx c).state = 5 ∨ (d.life.shelfDark = true ∧ (r.ctx c).state = 7))
      ∧ r.timeBase = d.timeBase := by
  have heq : d.deviceReset t = d.loseDevice.boot t := by
    simp only [Dev.serves, Dev.powered, Bool.and_eq_true, Bool.not_eq_true'] at hs
    exact if_neg (by simp [hs])
  obtain ⟨hlost, hdark, htime⟩ := d.loseDevice_lost
  obtain ⟨hfresh, hstores, hrest⟩ := hlost.boot t
  intro r
  simp only [r, heq]
  exact ⟨hfresh, hstores, fun c => hdark ▸ hrest.parks hlost.parked c, hrest.timeBase_eq.trans htime⟩

/-- A power-on from nothing as far as the boot. -/
def Dev.poweredFresh (d : Dev) (board : Option Board) : Dev :=
  let d := d.loseMain false
  let d : Dev := match board with
    | some b => { d with life := b.fit d.life, ordering288 := b.ordering288 }
    | none => d
  { d with
    timeBase := 0
    life := { d.life with always := true, supplies := true, refclk := true, thermtrip := false
                          tripSeen := d.life.tripSeen || d.life.thermtrip } }

theorem Dev.poweredFresh_facts (d : Dev) (board : Option Board) :
    let f := d.poweredFresh board
    d.Lost f ∧ (∀ c, (f.ctx c).state = 0) ∧ f.timeBase = 0 ∧ f.life.always = true ∧ f.life.supplies = true
      ∧ f.life.refclk = true ∧ f.life.thermtrip = false ∧ f.life.tripSeen = (d.life.tripSeen || d.life.thermtrip) := by
  cases board with
  | none =>
    exact ⟨(d.loseMain_lost false).of_kept rfl rfl rfl rfl rfl rfl rfl, fun c => rfl, rfl, rfl, rfl, rfl, rfl, rfl⟩
  | some b =>
    exact ⟨(d.loseMain_lost false).of_kept rfl rfl rfl rfl rfl rfl rfl, fun c => rfl, rfl, rfl, rfl, rfl, rfl, rfl⟩

/-- POWER_ON where the always-on supply was gone: a power-on from nothing. -/
theorem Dev.powerOn_fresh {d : Dev} (board : Option Board) (dimms : List (Option Dimm)) (t : Tests) (h : d.life.always = false) :
    let r := d.powerOn board dimms t
    d.Fresh r ∧ d.Stores r ∧ (∀ c, (r.ctx c).state = 0) ∧ r.timeBase = 0 ∧ r.life.always = true ∧ r.life.supplies = true
      ∧ r.life.refclk = true ∧ r.life.thermtrip = false ∧ r.life.tripSeen = (d.life.tripSeen || d.life.thermtrip) := by
  have heq : d.powerOn board dimms t = (({ d with life := { d.life with dimms := dimms } } : Dev).poweredFresh board).boot t :=
    if_pos (.inl h)
  obtain ⟨hlost, hempty, htime, halways, hsupplies, hrefclk, htherm, hseen⟩ :=
    ({ d with life := { d.life with dimms := dimms } } : Dev).poweredFresh_facts board
  obtain ⟨hfresh, hstores, hrest⟩ := (hlost.of_source (d := d) rfl rfl rfl).boot t
  obtain ⟨kalways, ksupplies, krefclk, ktherm, kseen⟩ := hrest.pins_eq
  intro r
  simp only [r, heq]
  exact ⟨hfresh, hstores, hrest.empty hempty, hrest.timeBase_eq.trans htime, kalways.trans halways, ksupplies.trans hsupplies,
    krefclk.trans hrefclk, ktherm.trans htherm, kseen.trans hseen⟩

/-- POWER_ON where the always-on supply was kept, from no parked state: a boot with what the parking segment holds. -/
theorem Dev.powerOn_kept {d : Dev} (board : Option Board) (dimms : List (Option Dimm)) (t : Tests) (ha : d.life.always = true)
    (hs : d.life.supplies = false) (hr : d.life.refclk = true) (hp : d.life.parked = false) :
    let r := d.powerOn board dimms t
    d.Fresh r ∧ d.Stores r
      ∧ (∀ c, (r.ctx c).state = 0 ∨ (r.ctx c).state = 5 ∨ (d.life.shelfDark = true ∧ (r.ctx c).state = 7))
      ∧ r.life.supplies = true := by
  have heq : d.powerOn board dimms t =
      (({ d with life := { d.life with dimms := dimms, supplies := true } } : Dev).loseMain true).boot t := by
    simp [Dev.powerOn, ha, hs, hr, hp]
  have hlost := ((({ d with life := { d.life with dimms := dimms, supplies := true } } : Dev).loseMain_lost true).of_source
    (d := d) rfl rfl rfl)
  obtain ⟨hfresh, hstores, hrest⟩ := hlost.boot t
  obtain ⟨-, hsupplies, -⟩ := hrest.pins_eq
  intro r
  simp only [r, heq]
  exact ⟨hfresh, hstores, hrest.parks hlost.parked, hsupplies⟩

/-! ### Loss of the supplies and of the clock -/

theorem Dev.powerLoss_all (d : Dev) :
    let r := d.powerLoss true
    r.Quiet ∧ d.Stores r ∧ r.pipes = {} ∧ (∀ a, r.engByte a = 0) ∧ r.timeBase = 0
      ∧ r.life.always = false ∧ r.life.supplies = false ∧ r.host = d.host := by
  have hlost : d.Lost (d.powerLoss true) := (d.loseMain_lost false).of_kept rfl rfl rfl rfl rfl rfl rfl
  refine ⟨hlost.quiet, hlost.stored, rfl, fun a => ?_, rfl, rfl, rfl, rfl⟩
  rw [Dev.engByte, show (d.powerLoss true).mem.cells = [] from rfl]
  exact ite_self 0

theorem Dev.powerLoss_main {d : Dev} (hs : d.life.supplies = true) :
    let r := d.powerLoss false
    r.Quiet ∧ d.Stores r ∧ r.life.supplies = false ∧ r.life.always = d.life.always ∧ r.timeBase = d.timeBase ∧ r.host = d.host
      ∧ ∀ c, (r.ctx c).state = 0 ∨ (r.ctx c).state = 5 := by
  intro r
  by_cases hp : d.life.parked = true
  · have hlost : d.Lost { d.loseParked with life := { d.loseParked.life with supplies := false } } :=
      (d.loseMain_lost true).of_kept rfl rfl rfl rfl rfl rfl rfl
    rw [show r = { d.loseParked with life := { d.loseParked.life with supplies := false } } by simp [r, Dev.powerLoss, hs, hp]]
    exact ⟨hlost.quiet, hlost.stored, rfl, rfl, rfl, rfl, hlost.parked⟩
  · have hlost : d.Lost { d.loseMain true with life := { (d.loseMain true).life with supplies := false } } :=
      (d.loseMain_lost true).of_kept rfl rfl rfl rfl rfl rfl rfl
    rw [show r = { d.loseMain true with life := { (d.loseMain true).life with supplies := false } } by
      simp [r, Dev.powerLoss, hs, hp]]
    exact ⟨hlost.quiet, hlost.stored, rfl, rfl, rfl, rfl, hlost.parked⟩

/-- Source 474 counts one raising more; its bits and the records stand elsewhere. -/
theorem Dev.fget_faultRaise_clock (d : Dev) (syn : Nat) (injected : Bool) :
    (d.faultRaise 474 syn injected).fget (F.FC_SRC_COUNT 474) = satAdd 16 (d.fget (F.FC_SRC_COUNT 474)) 1 := by
  rw [Dev.fget_faultRaise _ _ _ _ _ (by decide) (by decide), Dev.faultCount, Dev.for_, Dev.fget_fput_ne _ _ (by decide),
    Dev.fget_fcount]
  exact satAdd_mod 16 _ 1

theorem Dev.refclkLoss_facts {d : Dev} (hr : d.life.refclk = true) (ha : d.life.always = true) :
    let r := d.refclkLoss
    r.life.refclk = false ∧ r.pipes = d.pipes ∧ r.mem = d.mem
      ∧ (d.life.parked = false → d.life.supplies = true →
        r.fget (F.FC_SRC_COUNT 474) = satAdd 16 (d.fget (F.FC_SRC_COUNT 474)) 1) := by
  have heq : d.refclkLoss = if d.life.parked = true ∨ d.life.supplies = false then
      { d with life := { d.life with refclk := false } }
      else ({ d with life := { d.life with refclk := false } } : Dev).faultRaise 474 0 false := by
    simp [Dev.refclkLoss, hr, ha]
  intro r
  simp only [r, heq]
  split
  next h => exact ⟨rfl, rfl, rfl, fun hp hs => absurd h (by simp [hp, hs])⟩
  next => exact ⟨by simp, by simp, by simp, fun _ _ => Dev.fget_faultRaise_clock ..⟩

theorem Dev.refclkReturn_facts {d : Dev} (t : Tests) (hr : d.life.refclk = false) (ha : d.life.always = true) :
    let r := d.refclkReturn t
    r.Quiet ∧ d.Stores r ∧ (∀ c, (r.ctx c).state = 0) ∧ r.timeBase = 0 ∧ r.life.refclk = true
      ∧ (d.life.supplies = true → d.Fresh r) := by
  have heq : d.refclkReturn t = if d.life.supplies = true then
      ({ d.loseMain false with timeBase := 0, life := { (d.loseMain false).life with refclk := true } } : Dev).boot t
      else { d.loseMain false with timeBase := 0, life := { (d.loseMain false).life with refclk := true } } := by
    rw [Dev.refclkReturn, if_neg (by simp [hr, ha])]
    rfl
  have hlost : d.Lost { d.loseMain false with timeBase := 0, life := { (d.loseMain false).life with refclk := true } } :=
    (d.loseMain_lost false).of_kept rfl rfl rfl rfl rfl rfl rfl
  intro r
  simp only [r, heq]
  split
  next =>
    obtain ⟨hfresh, hstores, hrest⟩ := hlost.boot t
    obtain ⟨-, -, hrefclk, -⟩ := hrest.pins_eq
    exact ⟨hfresh.1, hstores, hrest.empty fun _ => rfl, hrest.timeBase_eq, hrefclk, fun _ => hfresh⟩
  next hs => exact ⟨hlost.quiet, hlost.stored, fun _ => rfl, rfl, rfl, fun h => absurd h hs⟩

theorem Dev.powerOn_there {d : Dev} (board : Option Board) (dimms : List (Option Dimm)) (t : Tests) (ha : d.life.always = true)
    (hs : d.life.supplies = true) (hstage : d.fget F.LM_STAT_STAGE ≠ 0) : d.powerOn board dimms t = d := by
  have hnothing : ¬ (d.life.always = false ∨ (d.life.supplies = true ∧ d.fget F.LM_STAT_STAGE = 0)) := by simp [ha, hstage]
  exact (if_neg hnothing).trans (if_pos hs)

/-! ### A link reset (R436) -/

theorem Dev.FlrLeaves.setLife {d t : Dev} (h : d.FlrLeaves t) (l : Life) : d.FlrLeaves { t with life := l } := h

theorem Dev.linkReset_leaves (d : Dev) : d.FlrLeaves d.linkReset ∧ d.linkReset.life.perst = true :=
  ⟨d.functionReset_leaves.setLife _, rfl⟩

/-! ### The obligation -/

theorem serveAlways_brings {i : Instr} {s : State} (f : Dev → Dev) {P : Dev → Prop} (h : exec i s = serveAlways s f)
    (hP : P (f s.dev)) : Brings i s P :=
  ⟨f s.dev, h, hP⟩

theorem serveAlways_idle {i : Instr} {s : State} (f : Dev → Dev) (h : exec i s = serveAlways s f) (hf : f s.dev = s.dev) :
    Lands i s (fun d => d = s.dev) := by
  have hexec : exec i s = .next { s with dev := s.dev.settle } := by rw [h, serveAlways, hf]
  exact ⟨s.dev, hexec, rfl, fun hcalm => by rw [hexec, Dev.settle_calm _ hcalm]⟩

/-- Settles O56: each reset and each event of the supplies and the clock, by what it loses and what the boot then keeps. -/
theorem resetsKeepWhatTheyKeep : Obligations.ResetsKeepWhatTheyKeep := by
  intro s tests board dimms e noQueue fresh stored empty parks flr
  have hflr (d : Dev) (h : e.FlrLeaves d) : flr d := h
  refine ⟨fun hs => ⟨?_, ?_, ?_⟩, fun hs => ⟨⟨e, serve_not _ hs, rfl⟩, ?_⟩, ⟨_, rfl, rfl⟩, fun ha => ?_, fun ha hs hstage => ?_,
    fun ha hs hr hp => ?_, ?_, fun hs => ?_, fun hr ha => ?_, fun hr ha => ?_⟩
  · exact brings_of (f := fun d => d.deviceReset tests) rfl hs (Dev.deviceReset_facts tests hs)
  · exact brings_of (f := fun d => d.functionReset) rfl hs (hflr _ (Dev.functionReset_leaves e))
  · exact ⟨e.linkReset, actAlways_of (f := fun d => d.perstAssert) rfl (if_pos hs), (Dev.linkReset_leaves e).imp_left (hflr _)⟩
  · exact ⟨_, rfl, if_neg (by simp [show s.dev.serves = false from hs])⟩
  · exact serveAlways_brings (fun d => d.powerOn board dimms tests) rfl (Dev.powerOn_fresh board dimms tests ha)
  · exact serveAlways_idle (fun d => d.powerOn board dimms tests) rfl (Dev.powerOn_there board dimms tests ha hs hstage)
  · exact serveAlways_brings (fun d => d.powerOn board dimms tests) rfl (Dev.powerOn_kept board dimms tests ha hs hr hp)
  · exact serveAlways_brings (fun d => d.powerLoss true) rfl (Dev.powerLoss_all e)
  · exact serveAlways_brings (fun d => d.powerLoss false) rfl (Dev.powerLoss_main hs)
  · exact serveAlways_brings (fun d => d.refclkLoss) rfl (Dev.refclkLoss_facts hr ha)
  · exact serveAlways_brings (fun d => d.refclkReturn tests) rfl (Dev.refclkReturn_facts tests hr ha)

end Sys2Proof.Machine

/-! ## Louvre: matching, walks and scrub passes (R96, R97, R104, R112, R115) -/

namespace Sys2Proof.Machine

/-! ### Records of a table's width (R95, R104) -/

theorem lvBits_mem {w : Nat} (h : w < 3) : lvBits w ∈ [32, 64, 128] := by
  interval_cases w <;> decide

theorem lvRecord_bounded {t : LvTable} {write : Bool} {b : Bytes} {r : LvRecord} (h : lvRecord t write b = .ok r) :
    r.entry.key < 2 ^ lvBits t.width ∧ r.entry.care < 2 ^ lvBits t.width := by
  have hpos := Nat.two_pow_pos (lvBits t.width)
  unfold lvRecord at h
  dsimp only at h
  split_ifs at h
  injection h with h
  subst h
  exact ⟨Nat.mod_lt _ hpos, Nat.mod_lt _ hpos⟩

theorem lvRecords_bounded (t : LvTable) (write : Bool) (n : Nat) (list : Bytes) :
    ∀ r ∈ (lvRecords t write n list).1, r.entry.key < 2 ^ lvBits t.width ∧ r.entry.care < 2 ^ lvBits t.width := by
  induction n generalizing list with
  | zero => simp [lvRecords]
  | succ n ih =>
    rw [lvRecords]
    cases hr : lvRecord t write (list.take 48) with
    | error e => simp
    | ok r => exact List.forall_mem_cons.mpr ⟨lvRecord_bounded hr, ih _⟩

/-! ### Matches (R96) -/

theorem mod_two_pow_eq_zero_iff (n w : Nat) : n % 2 ^ w = 0 ↔ ∀ i, i < w → n.testBit i = false := by
  constructor
  · intro h i hi
    have hbit := Nat.testBit_mod_two_pow n w i
    simpa [h, hi] using hbit.symm
  · intro h
    refine Nat.eq_of_testBit_eq fun i => ?_
    rw [Nat.testBit_mod_two_pow, Nat.zero_testBit]
    by_cases hi : i < w
    · simp [h i hi]
    · simp [hi]

/-- The bits that an entry compares are those below the width that it cares for. -/
theorem LvEntry.hit_iff (e : LvEntry) (w key : Nat) : e.hit w key = true ↔
    e.valid = true ∧ ∀ i, i < w → e.care.testBit i = true → key.testBit i = e.key.testBit i := by
  have hbit (i : Nat) (hi : i < w) : ((key % 2 ^ w ^^^ e.key) &&& e.care).testBit i = false ↔
      (e.care.testBit i = true → key.testBit i = e.key.testBit i) := by
    simp only [Nat.testBit_and, Nat.testBit_xor, Nat.testBit_mod_two_pow, hi, decide_true, Bool.true_and]
    cases key.testBit i <;> cases e.key.testBit i <;> simp
  have hzero : Nat.land (Nat.xor (key % 2 ^ w) e.key) e.care % 2 ^ w = 0 ↔
      ∀ i, i < w → e.care.testBit i = true → key.testBit i = e.key.testBit i :=
    (mod_two_pow_eq_zero_iff ((key % 2 ^ w ^^^ e.key) &&& e.care) w).trans (forall₂_congr hbit)
  rw [LvEntry.hit, Bool.and_eq_true, beq_iff_eq, hzero]

/-! ### Walks (R97) -/

/-- The order of a walk: descending priority, then ascending index. -/
def LvOrdered (m p : Nat × LvEntry) : Prop := p.2.prio < m.2.prio ∨ (p.2.prio = m.2.prio ∧ m.1 ≤ p.1)

theorem LvOrdered.refl (m : Nat × LvEntry) : LvOrdered m m := .inr ⟨rfl, le_rfl⟩

theorem LvOrdered.trans {m p q : Nat × LvEntry} (h : LvOrdered m p) (g : LvOrdered p q) : LvOrdered m q := by
  unfold LvOrdered at *
  omega

theorem LvOrdered.of_lvBefore {m p : Nat × LvEntry} (h : lvBefore m p = true) : LvOrdered m p := by
  simp only [lvBefore, Bool.or_eq_true, Bool.and_eq_true, decide_eq_true_eq] at h
  unfold LvOrdered
  omega

theorem LvOrdered.of_not_lvBefore {m p : Nat × LvEntry} (h : ¬ lvBefore m p = true) : LvOrdered p m := by
  simp only [lvBefore, Bool.or_eq_true, Bool.and_eq_true, decide_eq_true_eq] at h
  unfold LvOrdered
  omega

theorem lvInsert_eq_orderedInsert (m : Nat × LvEntry) (l : List (Nat × LvEntry)) :
    lvInsert m l = l.orderedInsert (fun a b => lvBefore a b = true) m := by
  induction l with
  | nil => rfl
  | cons x xs ih => rw [lvInsert, List.orderedInsert, ih]

theorem lvInsert_ordered (m : Nat × LvEntry) {l : List (Nat × LvEntry)} (h : l.Pairwise LvOrdered) :
    (lvInsert m l).Pairwise LvOrdered := by
  induction l with
  | nil => exact List.pairwise_singleton _ _
  | cons x xs ih =>
    obtain ⟨hx, hxs⟩ := List.pairwise_cons.mp h
    rw [lvInsert]
    split
    next hbefore =>
      have hmx := LvOrdered.of_lvBefore hbefore
      exact List.pairwise_cons.mpr ⟨List.forall_mem_cons.mpr ⟨hmx, fun p hp => hmx.trans (hx p hp)⟩, h⟩
    next hafter =>
      refine List.pairwise_cons.mpr ⟨fun p hp => ?_, ih hxs⟩
      rw [lvInsert_eq_orderedInsert, List.mem_orderedInsert] at hp
      rcases hp with rfl | hp
      · exact LvOrdered.of_not_lvBefore hafter
      · exact hx p hp

theorem lvWalk_perm (w key : Nat) (es : List (Nat × LvEntry)) : (lvWalk w key es).Perm (es.filter (fun p => p.2.hit w key)) := by
  rw [lvWalk, funext₂ lvInsert_eq_orderedInsert]
  exact List.perm_insertionSort _ _

theorem lvWalk_ordered (w key : Nat) (es : List (Nat × LvEntry)) : (lvWalk w key es).Pairwise LvOrdered := by
  unfold lvWalk
  induction es.filter (fun p => p.2.hit w key) with
  | nil => exact List.Pairwise.nil
  | cons m l ih => exact lvInsert_ordered m ih

/-- A walk begins with the winner: no match comes before it. -/
theorem lvWalk_head {w key : Nat} {es : List (Nat × LvEntry)} {m : Nat × LvEntry} (hm : (lvWalk w key es).head? = some m)
    {p : Nat × LvEntry} (hp : p ∈ es) (hhit : p.2.hit w key = true) : LvOrdered m p := by
  obtain ⟨rest, hwalk⟩ := List.head?_eq_some_iff.mp hm
  have hordered := lvWalk_ordered w key es
  have hmem : p ∈ lvWalk w key es := (lvWalk_perm w key es).mem_iff.mpr (List.mem_filter.mpr ⟨hp, hhit⟩)
  rw [hwalk] at hordered hmem
  rcases List.mem_cons.mp hmem with rfl | hmem
  · exact .refl p
  · exact (List.pairwise_cons.mp hordered).1 p hmem

/-! ### Result records (R112) -/

/-- The flags of the record of a match: VALID, MULTI and RETRIED. -/
theorem lvResultRecord_flags {walk : List (Nat × LvEntry)} {k : Nat} (h : k < walk.length) (retried : Bool) :
    fieldAt (lvResultRecord walk retried true k) 7 1
      = 1 + (if 1 < walk.length then 2 else 0) + (if retried then 4 else 0) := by
  have hflags : 1 + (if 1 < walk.length then 2 else 0) + (if retried then 4 else 0) < 256 := by split_ifs <;> omega
  rw [lvResultRecord, if_pos rfl, List.getElem?_eq_getElem h]
  simpa [fieldAt, leBytes, leNat] using hflags

theorem lvResultRecord_multi {walk : List (Nat × LvEntry)} {k : Nat} (h : k < walk.length) (retried : Bool) :
    bitAt (fieldAt (lvResultRecord walk retried true k) 7 1) 1 = decide (1 < walk.length) := by
  rw [lvResultRecord_flags h]
  by_cases hmulti : 1 < walk.length <;> cases retried <;> simp [hmulti, bitAt]

/-! ### Scrub passes (R115) -/

theorem Dev.lvBank_congr {d e : Dev} (h : e.louvre = d.louvre) (c b : Nat) : e.lvBank c b = d.lvBank c b := by
  rw [Dev.lvBank, Dev.lvBank, h]

theorem Dev.lvTable_congr {d e : Dev} (h : e.louvre = d.louvre) (t : Nat) : e.lvTable t = d.lvTable t := by
  rw [Dev.lvTable, Dev.lvTable, h]

@[simp] theorem Dev.lvBank_setLvBank (d : Dev) (c b : Nat) (x : LvBank) : (d.setLvBank c b x).lvBank c b = x := by
  simp [Dev.lvBank, Dev.setLvBank]

@[simp] theorem Dev.lvBank_setLvTable (d : Dev) (t : Nat) (x : Option LvTable) (c b : Nat) :
    (d.setLvTable t x).lvBank c b = d.lvBank c b := rfl

/-- Damage is a mark of one table. -/
theorem Dev.lvDamage_frame (d : Dev) (t : Nat) : ∃ ts, d.lvDamage t = { d with louvre := { d.louvre with tables := ts } } := by
  unfold Dev.lvDamage
  split
  · exact ⟨_, rfl⟩
  · exact ⟨d.louvre.tables, rfl⟩

theorem Dev.lvTable_lvDamage (d : Dev) (t : Nat) :
    (d.lvDamage t).lvTable t = (d.lvTable t).map (fun x => { x with damaged := true }) := by
  unfold Dev.lvDamage
  cases h : d.lvTable t with
  | none => exact h
  | some x => exact Dev.lvTable_setLvTable _ _ _

theorem Dev.lvBank_lvDamage (d : Dev) (t c b : Nat) : (d.lvDamage t).lvBank c b = d.lvBank c b := by
  obtain ⟨ts, h⟩ := d.lvDamage_frame t
  rw [h]
  rfl

/-- An entry whose shadow word is lost. -/
def LvEntry.lost (e : LvEntry) : LvEntry := ({ e with valid := false } : LvEntry).checked

theorem LvEntry.lost_lost (e : LvEntry) : e.lost.lost = e.lost := rfl

/-- What a scrub pass does at a position whose shadow word is lost. -/
def Dev.lvLose (d : Dev) (c b t p : Nat) : Dev :=
  ((d.setLvBank c b { d.lvBank c b with entries := Sparse.modify {} (d.lvBank c b).entries p LvEntry.lost }).lvDamage t).faultRaise
    (casSource c 5) (p + b * 2 ^ 16 + t % 64 * 2 ^ 18) false

/-- What a scrub pass does for the positions that it repairs from the shadow. -/
def Dev.lvRepair (d : Dev) (c b t : Nat) (repaired : List Nat) : Dev :=
  if repaired.length = 0 then d
  else ((d.fcount (F.LV_VERIFY_STAT_SCRUB_REPAIR c) repaired.length).ocount O.LOUVRE_SCRUB_REPAIR repaired.length).faultRaise
    (casSource c 6) (repaired.headD 0 + b * 2 ^ 16 + t % 64 * 2 ^ 18) false

theorem Dev.lvScrub_eq {d : Dev} {c b t : Nat} (h : (d.lvBank c b).table = some t) (repaired lost : List Nat) :
    d.lvScrub c b repaired lost = lost.foldl (fun d p => d.lvLose c b t p) (d.lvRepair c b t repaired) := by
  simp only [Dev.lvScrub, h]
  rfl

theorem Dev.oget_faultRaise_scrub (d : Dev) (n syn : Nat) (injected : Bool) :
    (d.faultRaise n syn injected).oget O.LOUVRE_SCRUB_REPAIR = d.oget O.LOUVRE_SCRUB_REPAIR :=
  Dev.oget_faultRaise d n syn injected _ (by decide)

theorem Dev.lvRepair_frame (d : Dev) (c b t : Nat) (repaired : List Nat) :
    (d.lvRepair c b t repaired).louvre = d.louvre ∧ (d.lvRepair c b t repaired).mem = d.mem
      ∧ (d.lvRepair c b t repaired).host = d.host := by
  unfold Dev.lvRepair
  split <;> simp

theorem Dev.oget_lvRepair (d : Dev) (c b t : Nat) {repaired : List Nat} (h : repaired ≠ []) :
    (d.lvRepair c b t repaired).oget O.LOUVRE_SCRUB_REPAIR
      = (d.oget O.LOUVRE_SCRUB_REPAIR + repaired.length) % 2 ^ (8 * O.LOUVRE_SCRUB_REPAIR.size) := by
  rw [Dev.lvRepair, if_neg (mt List.length_eq_zero_iff.mp h), Dev.oget_faultRaise_scrub, Dev.oget_ocount, Dev.fcount, Dev.oget_fput]

/-- Beside the fault source that is raised, a lost position is a matter of Louvre. -/
theorem Dev.lvLose_frame (d : Dev) (c b t p : Nat) : (d.lvLose c b t p).mem = d.mem ∧ (d.lvLose c b t p).host = d.host
    ∧ (d.lvLose c b t p).oget O.LOUVRE_SCRUB_REPAIR = d.oget O.LOUVRE_SCRUB_REPAIR := by
  unfold Dev.lvLose
  obtain ⟨ts, hdamage⟩ := Dev.lvDamage_frame
    (d.setLvBank c b { d.lvBank c b with entries := Sparse.modify {} (d.lvBank c b).entries p LvEntry.lost }) t
  rw [hdamage]
  exact ⟨Dev.faultRaise_mem _ _ _ _, Dev.faultRaise_host _ _ _ _, Dev.oget_faultRaise_scrub _ _ _ _⟩

theorem Dev.lvBank_lvLose (d : Dev) (c b t p : Nat) : (d.lvLose c b t p).lvBank c b
    = { d.lvBank c b with entries := Sparse.modify {} (d.lvBank c b).entries p LvEntry.lost } := by
  rw [Dev.lvLose, Dev.lvBank_congr (Dev.faultRaise_louvre _ _ _ _), Dev.lvBank_lvDamage, Dev.lvBank_setLvBank]

theorem Dev.lvTable_lvLose (d : Dev) (c b t p : Nat) :
    (d.lvLose c b t p).lvTable t = (d.lvTable t).map (fun x => { x with damaged := true }) := by
  rw [Dev.lvLose, Dev.lvTable_congr (Dev.faultRaise_louvre _ _ _ _), Dev.lvTable_lvDamage, Dev.lvTable_setLvBank]

/-- The lost positions of a bank become lost entries, and the others stay. -/
theorem Dev.lvBank_lvLose_foldl (c b t : Nat) (lost : List Nat) (d : Dev) (i : Nat) :
    Sparse.get {} ((lost.foldl (fun d p => d.lvLose c b t p) d).lvBank c b).entries i
      = if i ∈ lost then (Sparse.get {} (d.lvBank c b).entries i).lost else Sparse.get {} (d.lvBank c b).entries i := by
  induction lost generalizing d with
  | nil => simp
  | cons p lost ih =>
    rw [List.foldl_cons, ih, Dev.lvBank_lvLose]
    by_cases hp : i = p
    · subst hp
      simp [Sparse.modify, LvEntry.lost_lost]
    · simp [Sparse.modify, Sparse.get_set_ne _ _ _ _ hp, hp]

theorem Dev.lvDamaged_lvLose {d : Dev} {t : Nat} (h : (d.lvTable t).isSome = true) (c b p : Nat) :
    (d.lvLose c b t p).lvDamaged t = true := by
  obtain ⟨x, hx⟩ := Option.isSome_iff_exists.mp h
  rw [Dev.lvDamaged, Dev.lvTable_lvLose, hx]
  rfl

theorem Dev.isSome_lvTable_of_lvDamaged {d : Dev} {t : Nat} (h : d.lvDamaged t = true) : (d.lvTable t).isSome = true := by
  obtain ⟨x, hx, -⟩ := (Option.any_eq_true _ _).mp h
  exact Option.isSome_of_eq_some hx

/-- A table that a lost position has damaged stays so. -/
theorem Dev.lvDamaged_lvLose_foldl {c b t : Nat} {lost : List Nat} (hlost : lost ≠ []) {d : Dev} (h : (d.lvTable t).isSome = true) :
    (lost.foldl (fun d p => d.lvLose c b t p) d).lvDamaged t = true := by
  obtain ⟨p, lost, rfl⟩ := List.exists_cons_of_ne_nil hlost
  exact foldl_keeps (fun e : Dev => e.lvDamaged t = true) _
    (fun e q he => Dev.lvDamaged_lvLose (Dev.isSome_lvTable_of_lvDamaged he) c b q) lost _ (Dev.lvDamaged_lvLose h c b p)

theorem Dev.lvLose_foldl_frame (c b t : Nat) (lost : List Nat) (d : Dev) :
    let r := lost.foldl (fun d p => d.lvLose c b t p) d
    r.mem = d.mem ∧ r.host = d.host ∧ r.oget O.LOUVRE_SCRUB_REPAIR = d.oget O.LOUVRE_SCRUB_REPAIR := by
  refine foldl_keeps (fun e : Dev => e.mem = d.mem ∧ e.host = d.host
    ∧ e.oget O.LOUVRE_SCRUB_REPAIR = d.oget O.LOUVRE_SCRUB_REPAIR) _ (fun e p ⟨hmem, hhost, hcount⟩ => ?_) lost d ⟨rfl, rfl, rfl⟩
  obtain ⟨hmem', hhost', hcount'⟩ := e.lvLose_frame c b t p
  exact ⟨hmem'.trans hmem, hhost'.trans hhost, hcount'.trans hcount⟩

/-- R115: what a scrub pass of a bank that holds a table does. -/
theorem Dev.lvScrub_facts {d : Dev} {c b t : Nat} (h : (d.lvBank c b).table = some t) (repaired lost : List Nat) :
    let r := d.lvScrub c b repaired lost
    (∀ i, Sparse.get {} (r.lvBank c b).entries i
        = if i ∈ lost then (Sparse.get {} (d.lvBank c b).entries i).lost else Sparse.get {} (d.lvBank c b).entries i)
      ∧ (lost ≠ [] → (d.lvTable t).isSome = true → r.lvDamaged t = true)
      ∧ (repaired ≠ [] → r.oget O.LOUVRE_SCRUB_REPAIR
          = (d.oget O.LOUVRE_SCRUB_REPAIR + repaired.length) % 2 ^ (8 * O.LOUVRE_SCRUB_REPAIR.size))
      ∧ r.mem = d.mem ∧ r.host = d.host := by
  intro r
  obtain ⟨hlouvre, hmem, hhost⟩ := d.lvRepair_frame c b t repaired
  obtain ⟨hmem', hhost', hcount⟩ := Dev.lvLose_foldl_frame c b t lost (d.lvRepair c b t repaired)
  simp only [r, Dev.lvScrub_eq h]
  refine ⟨fun i => ?_, fun hlost ht => ?_, fun hrepaired => ?_, hmem'.trans hmem, hhost'.trans hhost⟩
  · rw [Dev.lvBank_lvLose_foldl, Dev.lvBank_congr hlouvre]
  · exact Dev.lvDamaged_lvLose_foldl hlost (by rwa [Dev.lvTable_congr hlouvre])
  · exact hcount.trans (d.oget_lvRepair c b t hrepaired)

/-- Settles O39: the width of records, the bits that a match compares, a walk as an insertion sort of the matches, and a scrub pass
position by position. -/
theorem searchesFindTheBestAndScrubsClearTheLost : Obligations.SearchesFindTheBestAndScrubsClearTheLost := by
  refine ⟨fun b list write n hw => ⟨lvBits_mem hw, lvRecords_bounded _ write n list⟩, fun w key e => e.hit_iff w key,
    fun w key es => ⟨lvWalk_perm w key es, lvWalk_ordered w key es, fun m hm p hp => lvWalk_head hm hp, fun k retried hk => ?_⟩,
    fun s c b repaired lost t hs ht => ?_⟩
  · rw [lvResultRecord_multi hk, (lvWalk_perm w key es).length_eq]
  · obtain ⟨hentries, hdamaged, hcount, hmem, hhost⟩ :=
      Dev.lvScrub_facts ht (repaired.map BitVec.toNat) (lost.map BitVec.toNat)
    refine brings_of (f := fun d => d.lvScrub c.toNat b.toNat (repaired.map BitVec.toNat) (lost.map BitVec.toNat)) rfl hs
      ⟨fun i hi => ?_, fun i hi => ?_, fun hlost => ?_, fun hrepaired => ?_, hmem, hhost⟩
    · rw [hentries, if_pos (List.mem_map_of_mem hi)]
      rfl
    · rw [hentries, if_neg]
      intro hlost
      obtain ⟨k, hk, hki⟩ := List.mem_map.mp hlost
      exact hi k hk hki
    · exact hdamaged (mt List.map_eq_nil_iff.mp hlost)
    · rw [hcount (mt List.map_eq_nil_iff.mp hrepaired), List.length_map]

end Sys2Proof.Machine

/-! ## LOUVRE_SEARCH (R112, R118) -/

namespace Sys2Proof.Machine

/-- The counters of a search are objects. -/
theorem Dev.lvCount_frame (d : Dev) (walk : List (Nat × LvEntry)) : ∃ o, d.lvCount walk = { d with objs := o } := by
  unfold Dev.lvCount
  dsimp only
  split_ifs <;> exact ⟨_, rfl⟩

/-- The records of a walk as a search writes them with no verification failing. -/
def lvRecordsOf (maxm : Nat) (walk : List (Nat × LvEntry)) : Bytes :=
  (List.range maxm).flatMap (lvResultRecord walk false true)

theorem Dev.lvSearchKeys_eq (d : Dev) (t c : Nat) (x : LvTable) (maxm : Nat) (ks : List Nat) (i hits : Nat) (out : Bytes) :
    ∃ o, d.lvSearchKeys t c x maxm none ks i hits out = ({ d with objs := o },
      hits + (ks.filter (fun k => decide (d.lvSearch t c x k ≠ []))).length,
      out ++ ks.flatMap (fun k => lvRecordsOf maxm (d.lvSearch t c x k))) := by
  induction ks generalizing d i hits out with
  | nil => exact ⟨d.objs, by simp [Dev.lvSearchKeys]⟩
  | cons k ks ih =>
    obtain ⟨o, hcount⟩ := d.lvCount_frame (d.lvSearch t c x k)
    obtain ⟨o', hrest⟩ := ih { d with objs := o } (i + 1) (if d.lvSearch t c x k = [] then hits else hits + 1)
      (out ++ lvRecordsOf maxm (d.lvSearch t c x k))
    refine ⟨o', ?_⟩
    have hsearch (k : Nat) : ({ d with objs := o } : Dev).lvSearch t c x k = d.lvSearch t c x k := rfl
    have hstep : d.lvSearchKeys t c x maxm none (k :: ks) i hits out
        = ({ d with objs := o } : Dev).lvSearchKeys t c x maxm none ks (i + 1)
          (if d.lvSearch t c x k = [] then hits else hits + 1) (out ++ lvRecordsOf maxm (d.lvSearch t c x k)) := by
      rw [Dev.lvSearchKeys, hcount]
      simp [lvRecordsOf]
    rw [hstep, hrest]
    simp only [hsearch, List.filter_cons, List.flatMap_cons, List.append_assoc]
    by_cases hmiss : d.lvSearch t c x k = [] <;> simp [hmiss, Nat.add_assoc, Nat.add_comm 1]

/-- A write to a space leaves a calm device calm. -/
theorem Dev.calm_writeSpace {d : Dev} (eng : Bool) (a : Nat) (bs : Bytes) (h : d.calm = true) : (d.writeSpace eng a bs).calm = true := by
  refine Dev.calm_of_idle (Dev.writeSpace_reacts ..) (fun q hq hact => ?_) h
  cases eng with
  | true => exact Dev.engWrite_active hq hact
  | false => exact ⟨q, hq, hact⟩

section
variable {d : Dev} {id : Nat} {c : Cmd} (hc : d.running id opLouvreSearch = some c)
include hc

theorem Dev.louvreSearch_of_unbound (fail : Option (Nat × Bool)) (ht : d.lvTable (fieldAt c.entry 16 1) = none) :
    d.louvreSearch id fail = d.finish id 0 (zeros 8 ++ [1] ++ zeros 7) 0 := by
  simp only [Dev.louvreSearch, hc, ht]

variable {x : LvTable} (ht : d.lvTable (fieldAt c.entry 16 1) = some x)
include ht

theorem Dev.louvreSearch_of_no_copy (fail : Option (Nat × Bool))
    (hcas : bitAt x.mask (searchCas x c.entry) = false ∨ 4 ≤ searchCas x c.entry) :
    d.louvreSearch id fail = d.finish id 0 (zeros 8 ++ [1] ++ zeros 7) 0 := by
  simp only [Dev.louvreSearch, hc, ht, if_pos hcas]

variable (hmask : bitAt x.mask (searchCas x c.entry) = true) (hcas : searchCas x c.entry < 4)
include hmask hcas

theorem Dev.louvreSearch_of_damaged (fail : Option (Nat × Bool)) (hd : d.lvDamaged (fieldAt c.entry 16 1) = true) :
    d.louvreSearch id fail = d.finish id 0x0702 (zeros 16) 0 := by
  have hcopy : ¬ (bitAt x.mask (searchCas x c.entry) = false ∨ 4 ≤ searchCas x c.entry) := by simp [hmask, hcas]
  simp only [Dev.louvreSearch, hc, ht, if_neg hcopy, hd, if_true]

theorem Dev.louvreSearch_of_keys (fail : Option (Nat × Bool)) (hd : d.lvDamaged (fieldAt c.entry 16 1) = false) {keys : Bytes}
    (hkeys : d.readSpace (bitAt (fieldAt c.entry 19 1) 0) (fieldAt c.entry 24 8) (16 * fieldAt c.entry 20 4) = .ok keys) :
    d.louvreSearch id fail = d.searchEnd c x fail 0 (searchKeys x (fieldAt c.entry 20 4) keys) := by
  have hcopy : ¬ (bitAt x.mask (searchCas x c.entry) = false ∨ 4 ≤ searchCas x c.entry) := by simp [hmask, hcas]
  simp only [Dev.louvreSearch, hc, ht, if_neg hcopy, hd, hkeys, Bool.false_eq_true, if_false]

end

/-- The end of a search with no verification failing: the records are written, and the command ends with the counts. -/
theorem Dev.searchEnd_eq (d : Dev) (c : Cmd) (x : LvTable) (st : Nat) (ks : List Nat) :
    let search := d.lvSearch (fieldAt c.entry 16 1) (searchCas x c.entry) x
    let out := ks.flatMap (fun k => lvRecordsOf (fieldAt c.entry 18 1) (search k))
    ∃ o, d.searchEnd c x none st ks = (({ d with objs := o } : Dev).writeSpace (bitAt (fieldAt c.entry 19 1) 1)
      (fieldAt c.entry 32 8) out).finish c.id st
        (result4 ks.length (ks.filter (fun k => decide (search k ≠ []))).length 0 0) out.length := by
  intro search out
  obtain ⟨o, hkeys⟩ :=
    d.lvSearchKeys_eq (fieldAt c.entry 16 1) (searchCas x c.entry) x (fieldAt c.entry 18 1) ks 0 0 []
  refine ⟨o, ?_⟩
  rw [Dev.searchEnd, hkeys, Nat.zero_add, List.nil_append]

theorem exec_louvreSearch (id : Nat) (fail : Option (BitVec 32 × Bool)) (s : State) : exec (.louvreSearch id fail) s
    = serve s (fun d => d.louvreSearch id (fail.map (fun x => (x.1.toNat, x.2)))) := rfl

/-- A LOUVRE_SEARCH that ends at once: nothing of tables and memories changes. -/
theorem louvreSearch_lands_at_once {s : State} {id st : Nat} {fail : Option (BitVec 32 × Bool)} {r : Bytes} (hs : s.dev.serves = true)
    (hcmd : (s.dev.cmd id).isSome = true)
    (hf : s.dev.louvreSearch id (fail.map (fun x => (x.1.toNat, x.2))) = s.dev.finish id st r 0) :
    Lands (.louvreSearch id fail) s (fun d =>
      d.ended id st r ∧ d.louvre = s.dev.louvre ∧ d.mem = s.dev.mem ∧ d.host = s.dev.host) := by
  refine lands_of_quiet (exec_louvreSearch id fail s) hs ?_ ?_ ?_ <;> rw [hf]
  · exact Dev.finish_reacts _ _ _ _ _
  · exact Dev.finish_pipes _ _ _ _ _
  · exact ⟨Dev.finish_ended _ _ _ _ _ hcmd, Dev.finish_louvre _ _ _ _ _, Dev.finish_mem _ _ _ _ _, Dev.finish_host _ _ _ _ _⟩

/-- Settles O41: without a copy to search, or with a damaged one, the command ends at once; otherwise its records are written. -/
theorem louvreSearchWritesItsMatches : Obligations.LouvreSearchWritesItsMatches := by
  intro s id c fail b t n still hs hc
  have hcmd := Dev.running_isSome hc
  refine ⟨fun ht => louvreSearch_lands_at_once hs hcmd (Dev.louvreSearch_of_unbound hc _ ht), fun x ht => ⟨fun hcopy => ?_,
    fun hmask hcas hd => ?_, fun keys hmask hcas hd hkeys => ?_⟩⟩
  · exact louvreSearch_lands_at_once hs hcmd (Dev.louvreSearch_of_no_copy hc ht _ hcopy)
  · exact louvreSearch_lands_at_once hs hcmd (Dev.louvreSearch_of_damaged hc ht hmask hcas _ hd)
  · have hrun : s.dev.louvreSearch id none = _ := Dev.louvreSearch_of_keys hc ht hmask hcas none hd hkeys
    obtain ⟨o, hend⟩ := s.dev.searchEnd_eq c x 0 (searchKeys x n keys)
    have hkeyCount : (searchKeys x n keys).length = n := by simp [searchKeys]
    rw [hend, Dev.cmd_id (Dev.running_cmd hc).1, hkeyCount] at hrun
    refine lands_of (exec_louvreSearch id none s) hs ?_ fun hcalm => ?_ <;> rw [Option.map_none, hrun]
    · refine ⟨Dev.finish_ended _ _ _ _ _ ?_, ?_, fun heng => ?_, fun heng => ?_⟩
      · simpa [Dev.cmd] using hcmd
      · rw [Dev.finish_louvre, Dev.writeSpace_louvre]
      · rw [Dev.finish_host, Dev.finish_mem, heng]
        exact ⟨rfl, rfl⟩
      · rw [Dev.finish_host, heng]
        exact Dev.engWrite_host _ _ _
    · rw [Dev.calm_congr (Dev.finish_reacts _ _ _ _ _) (Dev.finish_pipes _ _ _ _ _)]
      exact Dev.calm_writeSpace _ _ _ hcalm

end Sys2Proof.Machine

/-! ## LOUVRE_LOAD: tables that are bound, written, swapped and unbound (R102 to R106, R134) -/

namespace Sys2Proof.Machine

/-! ### What a change of tables touches -/

/-- Beside Louvre nothing differs. -/
def Dev.LouvreOnly (d e : Dev) : Prop := ∃ l, e = { d with louvre := l }

/-- Beside the banks of Louvre nothing differs. -/
def Dev.BanksOnly (d e : Dev) : Prop := ∃ bs, e = { d with louvre := { d.louvre with banks := bs } }

theorem Dev.LouvreOnly.refl (d : Dev) : d.LouvreOnly d := ⟨_, rfl⟩

theorem Dev.LouvreOnly.trans {d e f : Dev} (h : d.LouvreOnly e) (h' : e.LouvreOnly f) : d.LouvreOnly f := by
  obtain ⟨l, rfl⟩ := h
  obtain ⟨l', rfl⟩ := h'
  exact ⟨l', rfl⟩

theorem Dev.BanksOnly.refl (d : Dev) : d.BanksOnly d := ⟨_, rfl⟩

theorem Dev.BanksOnly.trans {d e f : Dev} (h : d.BanksOnly e) (h' : e.BanksOnly f) : d.BanksOnly f := by
  obtain ⟨bs, rfl⟩ := h
  obtain ⟨bs', rfl⟩ := h'
  exact ⟨bs', rfl⟩

theorem Dev.BanksOnly.louvreOnly {d e : Dev} (h : d.BanksOnly e) : d.LouvreOnly e := by
  obtain ⟨bs, rfl⟩ := h
  exact ⟨_, rfl⟩

theorem Dev.BanksOnly.lvTable {d e : Dev} (h : d.BanksOnly e) (t : Nat) : e.lvTable t = d.lvTable t := by
  obtain ⟨bs, rfl⟩ := h
  rfl

theorem Dev.LouvreOnly.lvNamers {d e : Dev} (h : d.LouvreOnly e) (t : Nat) : e.lvNamers t = d.lvNamers t := by
  obtain ⟨l, rfl⟩ := h
  rfl

theorem Dev.setLvBank_banksOnly (d : Dev) (c b : Nat) (x : LvBank) : d.BanksOnly (d.setLvBank c b x) := ⟨_, rfl⟩

theorem Dev.setLvTable_louvreOnly (d : Dev) (t : Nat) (x : Option LvTable) : d.LouvreOnly (d.setLvTable t x) := ⟨_, rfl⟩

/-- Two banks are one where their places in Louvre are. -/
theorem Dev.lvBank_setLvBank_ite (d : Dev) (c b : Nat) (x : LvBank) (c' b' : Nat) :
    (d.setLvBank c b x).lvBank c' b' = if 4 * c' + b' = 4 * c + b then x else d.lvBank c' b' := by
  split
  · next h => rw [Dev.lvBank, h]; exact Sparse.get_set_self _ _ _ _
  · next h => exact Sparse.get_set_ne _ _ _ _ h

/-! ### How a LOUVRE_LOAD ends (R106) -/

/-- The result of a LOUVRE_LOAD. -/
def Dev.lvAnswer (d : Dev) (t records fail : Nat) (noEffect : Bool) : Bytes :=
  leBytes 4 records ++ leBytes 4 fail ++ leBytes 1 (b2n noEffect) ++ leBytes 1 (d.lvHeld t) ++ leBytes 2 (d.lvNamers t) ++ zeros 4

theorem Dev.lvResult_eq (d : Dev) (id t st records fail : Nat) (noEffect : Bool) :
    d.lvResult id t st records fail noEffect = d.finish id st (d.lvAnswer t records fail noEffect) 0 := rfl

theorem Dev.lvLoad_running {d : Dev} {id op : Nat} {c : Cmd} (h : d.lvLoad id op = some c) : d.running id opLouvreLoad = some c := by
  unfold Dev.lvLoad at h
  split at h
  · split_ifs at h
    rwa [← h]
  · cases h

/-- A LOUVRE_LOAD that ends, after a change of Louvre or without one. -/
theorem lands_of_lvResult {i : Instr} {s : State} {f : Dev → Dev} {e : Dev} {id op t st records fail : Nat} {noEffect : Bool} {c : Cmd}
    (h : exec i s = serve s f) (hs : s.dev.serves = true) (hc : s.dev.lvLoad id op = some c)
    (hf : f s.dev = e.lvResult id t st records fail noEffect) (he : s.dev.LouvreOnly e) :
    Lands i s (fun d => d.ended id st (e.lvAnswer t records fail noEffect)
      ∧ d.louvre = e.louvre ∧ d.mem = s.dev.mem ∧ d.host = s.dev.host) := by
  have hcmd : (s.dev.cmd id).isSome = true := Dev.running_isSome (Dev.lvLoad_running hc)
  rw [Dev.lvResult_eq] at hf
  obtain ⟨l, rfl⟩ := he
  refine lands_of_quiet h hs ?_ ?_ ?_ <;> rw [hf]
  · exact Dev.finish_reacts _ _ _ _ _
  · exact Dev.finish_pipes _ _ _ _ _
  · exact ⟨Dev.finish_ended _ _ _ _ _ hcmd, Dev.finish_louvre _ _ _ _ _, Dev.finish_mem _ _ _ _ _, Dev.finish_host _ _ _ _ _⟩

/-- A LOUVRE_LOAD that ends without a change of Louvre. -/
theorem lands_idle_of_lvResult {i : Instr} {s : State} {f : Dev → Dev} {id op t st records fail : Nat} {noEffect : Bool} {c : Cmd}
    (h : exec i s = serve s f) (hs : s.dev.serves = true) (hc : s.dev.lvLoad id op = some c)
    (hf : f s.dev = s.dev.lvResult id t st records fail noEffect) :
    Lands i s (fun d => (d.louvre = s.dev.louvre ∧ d.mem = s.dev.mem ∧ d.host = s.dev.host)
      ∧ d.ended id st (s.dev.lvAnswer t records fail noEffect)) :=
  (lands_of_lvResult h hs hc hf (.refl _)).imp fun _ hd => hd.symm

/-! ### Tables are unbound (R103, R104) -/

theorem Dev.lvUnbind_louvreOnly (d : Dev) (t : Nat) : d.LouvreOnly (d.lvUnbind t) := ⟨_, rfl⟩

theorem Dev.lvTable_lvUnbind (d : Dev) (t : Nat) : (d.lvUnbind t).lvTable t = none := Dev.lvTable_setLvTable _ _ _

theorem Dev.lvTable_lvUnbind_ne (d : Dev) {t u : Nat} (h : u ≠ t) : (d.lvUnbind t).lvTable u = d.lvTable u :=
  Dev.lvTable_setLvTable_ne _ _ h

theorem Dev.lvBank_lvUnbind (d : Dev) (t c b : Nat) : ((d.lvUnbind t).lvBank c b).table ≠ some t := by
  refine Sparse.get_forall (P := fun x : LvBank => x.table ≠ some t) (by simp) (fun q hq => ?_) (4 * c + b)
  obtain ⟨p, -, hp⟩ := List.mem_filterMap.mp hq
  simp only [Option.ite_none_left_eq_some, Option.some.injEq] at hp
  obtain ⟨-, rfl⟩ := hp
  dsimp only
  split
  · simp
  · assumption

/-- An unbound table holds no bank. -/
theorem Dev.lvHeld_unbound {d : Dev} {t : Nat} (h : d.lvTable t = none) : d.lvHeld t = 0 := by
  rw [Dev.lvHeld, h]
  rfl

/-- No LOOKUP is under way on a table that no context names. -/
theorem Ctx.not_looksUp_of_unnamed {d : Dev} {t : Nat} (h : d.lvNamers t = 0) {p : Nat × Ctx} (hp : p ∈ d.pipes.ctxs)
    {e : Node × NodeRun} (he : e ∈ p.2.prog.nodes.zip p.2.nodes) : p.2.looksUp t e.1 e.2 = false := by
  have hnamer := List.filter_eq_nil_iff.mp (List.length_eq_zero_iff.mp h) p hp
  rw [Bool.eq_false_iff]
  intro hlooks
  simp only [Ctx.looksUp, Bool.and_eq_true] at hlooks
  obtain ⟨⟨⟨⟨hstate, hop⟩, htable⟩, -⟩, -⟩ := hlooks
  refine hnamer (Bool.and_eq_true_iff.mpr ⟨by simp [hstate], List.any_eq_true.mpr ⟨e.1, (List.of_mem_zip he).1, ?_⟩⟩)
  rw [hop, htable, Bool.and_self]

/-- The old copy of a table that no LOOKUP uses is unbound at once. -/
theorem Dev.lvRetire_unused {d : Dev} {t : Nat} (h : d.lvTable t = none ∨ d.lvNamers t = 0) (owner : Option Nat) :
    d.lvRetire t owner = d.lvUnbind t := by
  unfold Dev.lvRetire
  refine if_pos (h.symm.imp (fun hnamers => ?_) fun htable => by rw [htable]; rfl)
  refine List.filter_eq_nil_iff.mpr fun p hp hused => ?_
  obtain ⟨e, he, hlooks⟩ := List.any_eq_true.mp (Bool.and_eq_true_iff.mp hused).2
  exact Bool.false_ne_true ((Ctx.not_looksUp_of_unnamed hnamers hp he).symm.trans hlooks)

/-! ### Tables are bound (R100, R102, R103) -/

theorem Dev.lvBindCopy_banksOnly (d : Dev) (t c : Nat) (free : List Nat) (lists : List (List LvEntry)) :
    d.BanksOnly (d.lvBindCopy t c free lists) :=
  foldl_keeps d.BanksOnly _ (fun e _ he => he.trans (e.setLvBank_banksOnly _ _ _)) _ d (.refl d)

/-- What a table that is bound leaves: Louvre alone differs, and of the numbers the one that is bound. -/
theorem Dev.lvBind_frame {d e : Dev} {t : Nat} {x : LvTable} {es : List LvEntry} (hunused : d.lvTable t = none ∨ d.lvNamers t = 0)
    (h : d.lvBind t x es = some e) :
    d.LouvreOnly e ∧ e.lvTable t = some x ∧ ∀ u, u ≠ t → e.lvTable u = d.lvTable u := by
  simp only [Dev.lvBind, Dev.lvRetire_unused hunused] at h
  split_ifs at h
  obtain rfl := Option.some.inj h
  have hcopies := foldl_keeps (d.lvUnbind t).BanksOnly
    (fun e c => e.lvBindCopy t c (d.freeBanks c) (lvPlace x es)) (fun e _ he => he.trans (e.lvBindCopy_banksOnly _ _ _ _))
    x.casements _ (.refl _)
  refine ⟨((d.lvUnbind_louvreOnly t).trans hcopies.louvreOnly).trans (Dev.setLvTable_louvreOnly _ _ _), Dev.lvTable_setLvTable _ _ _,
    fun u hu => ?_⟩
  rw [Dev.lvTable_setLvTable_ne _ _ hu, hcopies.lvTable, Dev.lvTable_lvUnbind_ne _ hu]

/-! ### CREATE and SWAP (R102, R103) -/

section
variable {d : Dev} {b list : Bytes} (hlist : d.lvList b = .ok list) {rs : List LvRecord × Nat}
  (hrs : lvRecords (lvTableOf b) false (fieldAt b 32 4) list = rs)
include hlist hrs

theorem Dev.lvCreate_of_failed (id : Nat) (h : rs.2 ≠ 0) :
    d.lvCreate id b = d.lvResult id (fieldAt b 17 1) rs.2 0 rs.1.length false := by
  simp only [Dev.lvCreate, hlist, hrs, if_pos h]

variable (h : rs.2 = 0)
include h

theorem Dev.lvCreate_of_bind (id : Nat) {e : Dev}
    (hbind : d.lvBind (fieldAt b 17 1) (lvTableOf b) (rs.1.map LvRecord.entry) = some e) :
    d.lvCreate id b = e.lvResult id (fieldAt b 17 1) 0 (fieldAt b 32 4) noRecord false := by
  simp only [Dev.lvCreate, hlist, hrs, if_neg (not_not.mpr h), hbind]

theorem Dev.lvCreate_of_full (id : Nat)
    (hbind : d.lvBind (fieldAt b 17 1) (lvTableOf b) (rs.1.map LvRecord.entry) = none) :
    d.lvCreate id b = d.lvResult id (fieldAt b 17 1) 0x0303 0 noRecord false := by
  simp only [Dev.lvCreate, hlist, hrs, if_neg (not_not.mpr h), hbind]

end

/-- A table is bound: the number has it, the other numbers and the memories are as before, and the command ends with its count. -/
theorem lands_bound {i : Instr} {s : State} {f : Dev → Dev} {id op t n : Nat} {c : Cmd} {x : LvTable} {es : List LvEntry} {e : Dev}
    (h : exec i s = serve s f) (hs : s.dev.serves = true) (hc : s.dev.lvLoad id op = some c)
    (hunused : s.dev.lvTable t = none ∨ s.dev.lvNamers t = 0) (hbind : s.dev.lvBind t x es = some e)
    (hf : f s.dev = e.lvResult id t 0 n noRecord false) :
    Lands i s (fun d => d.lvTable t = some x ∧ (∀ u, u ≠ t → u < 64 → d.lvTable u = s.dev.lvTable u) ∧ d.louvre = e.louvre
      ∧ d.ended id 0 (e.lvAnswer t n noRecord false) ∧ d.mem = s.dev.mem ∧ d.host = s.dev.host) := by
  obtain ⟨honly, hself, hothers⟩ := Dev.lvBind_frame hunused hbind
  refine (lands_of_lvResult h hs hc hf honly).imp fun d ⟨hended, hlouvre, hmem, hhost⟩ => ?_
  exact ⟨(Dev.lvTable_congr hlouvre t).trans hself, fun u hu _ => (Dev.lvTable_congr hlouvre u).trans (hothers u hu),
    hlouvre, hended, hmem, hhost⟩

theorem Dev.louvreCreate_of_bound {d : Dev} {id : Nat} {c : Cmd} (hc : d.lvLoad id 0 = some c)
    (ht : (d.lvTable (fieldAt c.entry 17 1)).isSome = true) :
    d.louvreCreate id = d.lvResult id (fieldAt c.entry 17 1) 0x0303 0 noRecord false := by
  simp only [Dev.louvreCreate, hc, if_pos ht]

theorem Dev.louvreCreate_of_unbound {d : Dev} {id : Nat} {c : Cmd} (hc : d.lvLoad id 0 = some c)
    (ht : d.lvTable (fieldAt c.entry 17 1) = none) : d.louvreCreate id = d.lvCreate id c.entry := by
  simp [Dev.louvreCreate, hc, ht]

theorem Dev.louvreSwap_of_named {d : Dev} {id : Nat} {c : Cmd} (hc : d.lvLoad id 2 = some c)
    (ht : d.lvNamers (fieldAt c.entry 17 1) ≠ 0) :
    d.louvreSwap id = d.lvResult id (fieldAt c.entry 17 1) 0 0 noRecord true := by
  simp only [Dev.louvreSwap, hc, if_pos ht]

theorem Dev.louvreSwap_of_unnamed {d : Dev} {id : Nat} {c : Cmd} (hc : d.lvLoad id 2 = some c)
    (ht : d.lvNamers (fieldAt c.entry 17 1) = 0) : d.louvreSwap id = d.lvCreate id c.entry := by
  simp [Dev.louvreSwap, hc, ht]

/-! ### UNLOAD (R104, R134) -/

theorem Dev.louvreUnload_of_kept {d : Dev} {id : Nat} {c : Cmd} (hc : d.lvLoad id 3 = some c)
    (h : d.lvNamers (fieldAt c.entry 17 1) ≠ 0 ∨ d.lvTable (fieldAt c.entry 17 1) = none
      ∨ d.lvBuilt (fieldAt c.entry 17 1) = true) :
    d.louvreUnload id = d.lvResult id (fieldAt c.entry 17 1) 0 0 noRecord true := by
  simp only [Dev.louvreUnload, hc, Option.isNone_iff_eq_none, if_pos h]

theorem Dev.louvreUnload_of_free {d : Dev} {id : Nat} {c : Cmd} (hc : d.lvLoad id 3 = some c)
    (hnamers : d.lvNamers (fieldAt c.entry 17 1) = 0) (ht : (d.lvTable (fieldAt c.entry 17 1)).isSome = true)
    (hbuilt : d.lvBuilt (fieldAt c.entry 17 1) = false) :
    d.louvreUnload id
      = (d.lvUnbind (fieldAt c.entry 17 1)).lvResult id (fieldAt c.entry 17 1) 0 0 noRecord false := by
  have hfree : ¬ (d.lvNamers (fieldAt c.entry 17 1) ≠ 0 ∨ (d.lvTable (fieldAt c.entry 17 1)).isNone = true
      ∨ d.lvBuilt (fieldAt c.entry 17 1) = true) := by
    simp [hnamers, hbuilt, Option.isSome_iff_ne_none.mp ht]
  simp only [Dev.louvreUnload, hc, if_neg hfree]

/-- The result for an unbound table that no context names: neither banks nor contexts. -/
theorem Dev.lvAnswer_lvUnbind {d : Dev} {t : Nat} (h : d.lvNamers t = 0) :
    (d.lvUnbind t).lvAnswer t 0 noRecord false = leBytes 4 0 ++ leBytes 4 noRecord ++ zeros 8 := by
  rw [Dev.lvAnswer, Dev.lvHeld_unbound (d.lvTable_lvUnbind t), (d.lvUnbind_louvreOnly t).lvNamers, h]
  decide

/-- A table that no context stands against is unbound from every bank. -/
theorem louvreUnload_lands {s : State} {id : Nat} {c : Cmd} (hs : s.dev.serves = true) (hc : s.dev.lvLoad id 3 = some c)
    (hnamers : s.dev.lvNamers (fieldAt c.entry 17 1) = 0) (ht : (s.dev.lvTable (fieldAt c.entry 17 1)).isSome = true)
    (hbuilt : s.dev.lvBuilt (fieldAt c.entry 17 1) = false) :
    Lands (.louvreUnload id) s (fun d => d.lvTable (fieldAt c.entry 17 1) = none
      ∧ (∀ cas k, (d.lvBank cas k).table ≠ some (fieldAt c.entry 17 1))
      ∧ (∀ u, u ≠ fieldAt c.entry 17 1 → d.lvTable u = s.dev.lvTable u)
      ∧ d.ended id 0 (leBytes 4 0 ++ leBytes 4 noRecord ++ zeros 8)) := by
  refine (lands_of_lvResult (f := fun d => d.louvreUnload id) rfl hs hc (Dev.louvreUnload_of_free hc hnamers ht hbuilt)
    (Dev.lvUnbind_louvreOnly _ _)).imp fun d ⟨hended, hlouvre, _, _⟩ => ⟨?_, fun cas k => ?_, fun u hu => ?_, ?_⟩
  · rw [Dev.lvTable_congr hlouvre, Dev.lvTable_lvUnbind]
  · rw [Dev.lvBank_congr hlouvre]
    exact Dev.lvBank_lvUnbind _ _ _ _
  · rw [Dev.lvTable_congr hlouvre, Dev.lvTable_lvUnbind_ne _ hu]
  · rwa [Dev.lvAnswer_lvUnbind hnamers] at hended

/-! ### Records are written (R102, R105) -/

/-- What writes of entries leave: in the banks, entries alone differ. -/
structure Dev.EntriesOnly (d e : Dev) : Prop where
  banks : d.BanksOnly e
  bank : ∀ c b, ∃ es, e.lvBank c b = { d.lvBank c b with entries := es }

theorem Dev.EntriesOnly.refl (d : Dev) : d.EntriesOnly d := ⟨.refl d, fun _ _ => ⟨_, rfl⟩⟩

theorem Dev.EntriesOnly.trans {d e f : Dev} (h : d.EntriesOnly e) (h' : e.EntriesOnly f) : d.EntriesOnly f := by
  refine ⟨h.banks.trans h'.banks, fun c b => ?_⟩
  obtain ⟨es, hes⟩ := h.bank c b
  obtain ⟨es', hes'⟩ := h'.bank c b
  exact ⟨es', by rw [hes', hes]⟩

theorem Dev.EntriesOnly.table {d e : Dev} (h : d.EntriesOnly e) (c b : Nat) : (e.lvBank c b).table = (d.lvBank c b).table := by
  obtain ⟨es, hes⟩ := h.bank c b
  rw [hes]

theorem Dev.EntriesOnly.ordinal {d e : Dev} (h : d.EntriesOnly e) (c b : Nat) :
    (e.lvBank c b).ordinal = (d.lvBank c b).ordinal := by
  obtain ⟨es, hes⟩ := h.bank c b
  rw [hes]

theorem Dev.setLvBank_entriesOnly (d : Dev) (c b : Nat) (es : Sparse LvEntry) :
    d.EntriesOnly (d.setLvBank c b { d.lvBank c b with entries := es }) := by
  refine ⟨d.setLvBank_banksOnly _ _ _, fun c' b' => ?_⟩
  rw [Dev.lvBank_setLvBank_ite]
  split
  · next h => exact ⟨es, by rw [Dev.lvBank, Dev.lvBank, h]⟩
  · exact ⟨_, rfl⟩

/-- The banks of a Casement that hold a table, by the ordinals that they have. -/
theorem Dev.banksOf_map_fst (d : Dev) (t c : Nat) : (d.banksOf t c).map Prod.fst
    = (List.range 4).filterMap (fun b => if (d.lvBank c b).table = some t then some (d.lvBank c b).ordinal else none) := by
  simp only [Dev.banksOf, List.filterMap_map, List.map_filterMap]
  refine congrFun (congrArg _ (funext fun b => ?_)) _
  simp only [Function.comp_apply]
  split <;> rfl

theorem Dev.EntriesOnly.lvHeld {d e : Dev} (h : d.EntriesOnly e) (t : Nat) : e.lvHeld t = d.lvHeld t := by
  have hbanks (c : Nat) : (e.banksOf t c).length = (d.banksOf t c).length := by
    rw [← List.length_map (f := Prod.fst), ← List.length_map (f := Prod.fst) (as := d.banksOf t c), Dev.banksOf_map_fst,
      Dev.banksOf_map_fst]
    simp only [h.table, h.ordinal]
  simp only [Dev.lvHeld, h.banks.lvTable, hbanks]

theorem Dev.EntriesOnly.lvAnswer {d e : Dev} (h : d.EntriesOnly e) (t records fail : Nat) (noEffect : Bool) :
    e.lvAnswer t records fail noEffect = d.lvAnswer t records fail noEffect := by
  rw [Dev.lvAnswer, Dev.lvAnswer, h.lvHeld, h.banks.louvreOnly.lvNamers]

/-- The write of an entry at one bank, where it is a bank of the table's ordinal. -/
def Dev.lvPutBank (t : Nat) (x : LvTable) (ordinal pos : Nat) (v : LvEntry) (d : Dev) (p : Nat × Nat) : Dev :=
  if (d.lvBank p.1 p.2).table = some t ∧ (x.layout = 0 ∨ (d.lvBank p.1 p.2).ordinal = ordinal) then
    d.setLvBank p.1 p.2
      { d.lvBank p.1 p.2 with entries := Sparse.set {} (d.lvBank p.1 p.2).entries pos v.checked }
  else d

/-- The write of an entry goes from bank to bank of the table's Casements. -/
theorem Dev.lvPut_eq (d : Dev) (t : Nat) (x : LvTable) (ordinal pos : Nat) (v : LvEntry) : d.lvPut t x ordinal pos v
    = (x.casements ×ˢ List.range 4).foldl (Dev.lvPutBank t x ordinal pos v) d := by
  simp only [SProd.sprod, List.product, List.foldl_flatMap, List.foldl_map]
  rfl

theorem Dev.lvPutBank_entriesOnly (t : Nat) (x : LvTable) (ordinal pos : Nat) (v : LvEntry) (d : Dev) (p : Nat × Nat) :
    d.EntriesOnly (Dev.lvPutBank t x ordinal pos v d p) := by
  unfold Dev.lvPutBank
  split
  · exact d.setLvBank_entriesOnly _ _ _
  · exact .refl d

theorem Dev.lvPut_entriesOnly (d : Dev) (t : Nat) (x : LvTable) (ordinal pos : Nat) (v : LvEntry) :
    d.EntriesOnly (d.lvPut t x ordinal pos v) := by
  rw [Dev.lvPut_eq]
  exact foldl_keeps d.EntriesOnly _ (fun e p he => he.trans (Dev.lvPutBank_entriesOnly t x ordinal pos v e p)) _ d (.refl d)

theorem Dev.lvWriteRecord_entriesOnly {d e : Dev} {t : Nat} {x : LvTable} {r : LvRecord} (h : d.lvWriteRecord t x r = some e) :
    d.EntriesOnly e := by
  unfold Dev.lvWriteRecord at h
  dsimp only at h
  split at h
  · split at h
    · obtain ⟨i, -, rfl⟩ := Option.map_eq_some_iff.mp h
      exact d.lvPut_entriesOnly _ _ _ _ _
    · split at h <;> obtain rfl := Option.some.inj h
      · exact d.lvPut_entriesOnly _ _ _ _ _
      · exact .refl d
  · obtain rfl := Option.some.inj h
    exact d.lvPut_entriesOnly _ _ _ _ _

theorem Dev.lvWriteAll_entriesOnly (t : Nat) (x : LvTable) (rs : List LvRecord) (d : Dev) (n : Nat) :
    d.EntriesOnly (d.lvWriteAll t x rs n).1 := by
  induction rs generalizing d n with
  | nil => exact .refl d
  | cons r rs ih =>
    rw [Dev.lvWriteAll]
    split
    · next e he => exact (Dev.lvWriteRecord_entriesOnly he).trans (ih e (n + 1))
    · exact .refl d

/-- Where nothing stops the writes, every record is counted. -/
theorem Dev.lvWriteAll_count (t : Nat) (x : LvTable) (rs : List LvRecord) (d : Dev) (n : Nat) (h : (d.lvWriteAll t x rs n).2.2 = 0) :
    (d.lvWriteAll t x rs n).2.1 = n + rs.length := by
  induction rs generalizing d n with
  | nil => rfl
  | cons r rs ih =>
    rw [Dev.lvWriteAll] at h ⊢
    split at h
    · next e he => rw [ih e (n + 1) h, List.length_cons, Nat.add_assoc, Nat.add_comm 1]
    · cases h

/-! ### The place of an entry (R99, R105) -/

/-- What an element of a list brings about, and the others keep, holds after a fold. -/
theorem foldl_of_mem {α β : Type} {P : β → Prop} {f : β → α → β} {a : α} {l : List α} (ha : a ∈ l) (hP : ∀ b, P (f b a))
    (hkeep : ∀ b a, P b → P (f b a)) (b : β) : P (l.foldl f b) := by
  obtain ⟨l₁, l₂, rfl⟩ := List.append_of_mem ha
  rw [List.foldl_append, List.foldl_cons]
  exact foldl_keeps P f hkeep l₂ _ (hP _)

/-- A bank has an entry at a position, where it is a bank of the table's ordinal. -/
def Dev.lvPlaced (t : Nat) (x : LvTable) (ordinal pos : Nat) (v : LvEntry) (c b : Nat) (d : Dev) : Prop :=
  (d.lvBank c b).table = some t → (x.layout = 0 ∨ (d.lvBank c b).ordinal = ordinal) →
    Sparse.get {} (d.lvBank c b).entries pos = v.checked

section
variable (t : Nat) (x : LvTable) (ordinal pos : Nat) (v : LvEntry)

theorem Dev.lvPlaced_lvPutBank (d : Dev) (c b : Nat) : Dev.lvPlaced t x ordinal pos v c b (Dev.lvPutBank t x ordinal pos v d (c, b)) := by
  unfold Dev.lvPutBank Dev.lvPlaced
  split
  · intro _ _
    rw [Dev.lvBank_setLvBank, Sparse.get_set_self]
  · next hother => exact fun htable hordinal => absurd ⟨htable, hordinal⟩ hother

theorem Dev.lvPlaced_keep {d : Dev} {c b : Nat} (p : Nat × Nat) (h : Dev.lvPlaced t x ordinal pos v c b d) :
    Dev.lvPlaced t x ordinal pos v c b (Dev.lvPutBank t x ordinal pos v d p) := by
  unfold Dev.lvPutBank Dev.lvPlaced
  split
  · rw [Dev.lvBank_setLvBank_ite]
    split
    · exact fun _ _ => Sparse.get_set_self _ _ _ _
    · exact h
  · exact h

/-- An entry stands at its position in every copy. -/
theorem Dev.lvPlaced_lvPut (d : Dev) {c b : Nat} (hc : c ∈ x.casements) (hb : b < 4) :
    Dev.lvPlaced t x ordinal pos v c b (d.lvPut t x ordinal pos v) := by
  rw [Dev.lvPut_eq]
  exact foldl_of_mem (List.mem_product.mpr ⟨hc, List.mem_range.mpr hb⟩) (fun e => Dev.lvPlaced_lvPutBank t x ordinal pos v e c b)
    (fun _ p => Dev.lvPlaced_keep t x ordinal pos v p) d

end

/-- One record of a table without index steering: it is put at its index. -/
theorem Dev.lvWriteAll_single (d : Dev) (t : Nat) {x : LvTable} (h : x.layout ≠ 1) (r : LvRecord) :
    (d.lvWriteAll t x [r] 0).1 = d.lvPut t x (r.index / bankEntries) (r.index % bankEntries) r.entry := by
  simp only [Dev.lvWriteAll, Dev.lvWriteRecord, if_neg h]

/-! ### WRITE (R102, R105, R134) -/

theorem Dev.louvreWrite_of_closed {d : Dev} {id : Nat} {c : Cmd} (hc : d.lvLoad id 1 = some c)
    (h : d.lvTable (fieldAt c.entry 17 1) = none ∨ d.lvBuilt (fieldAt c.entry 17 1) = true) :
    d.louvreWrite id = d.lvResult id (fieldAt c.entry 17 1) 0 0 noRecord true := by
  have hclosed : (d.lvTable (fieldAt c.entry 17 1)).filter (fun _ => !d.lvBuilt (fieldAt c.entry 17 1)) = none := by
    rcases h with h | h <;> simp [h]
  simp only [Dev.louvreWrite, hc, hclosed]

/-- A WRITE into a table that is bound and not built, none of whose records meets a full bank: it ends with the status of the record
that failed to read, if one did. -/
theorem Dev.louvreWrite_of_open {d : Dev} {id : Nat} {c : Cmd} {y : LvTable} {list : Bytes} (hc : d.lvLoad id 1 = some c)
    (ht : d.lvTable (fieldAt c.entry 17 1) = some y) (hbuilt : d.lvBuilt (fieldAt c.entry 17 1) = false)
    (hlist : d.lvList c.entry = .ok list) :
    let ws := lvRecords y true (fieldAt c.entry 32 4) list
    let v := d.lvWriteAll (fieldAt c.entry 17 1) y ws.1 0
    v.2.2 = 0 → d.louvreWrite id = v.1.lvResult id (fieldAt c.entry 17 1) ws.2 ws.1.length
      (if ws.2 = 0 then noRecord else ws.1.length) false := by
  intro ws v hv
  have hopen : (d.lvTable (fieldAt c.entry 17 1)).filter (fun _ => !d.lvBuilt (fieldAt c.entry 17 1)) = some y := by
    simp [ht, hbuilt]
  have hcount : v.2.1 = ws.1.length := (Dev.lvWriteAll_count _ y ws.1 d 0 hv).trans (Nat.zero_add _)
  have hwrite : d.louvreWrite id = v.1.lvResult id (fieldAt c.entry 17 1) (if v.2.2 ≠ 0 then v.2.2 else ws.2) v.2.1
      (if (if v.2.2 ≠ 0 then v.2.2 else ws.2) = 0 then noRecord else v.2.1) false := by
    simp only [Dev.louvreWrite, hc, hopen, hlist, v, ws]
  rw [hwrite, if_neg (not_not.mpr hv), hcount]

/-- A WRITE lands with its records written, as far as they read. -/
theorem louvreWrite_lands {s : State} {id : Nat} {c : Cmd} {y : LvTable} {list : Bytes} (hs : s.dev.serves = true)
    (hc : s.dev.lvLoad id 1 = some c) (ht : s.dev.lvTable (fieldAt c.entry 17 1) = some y)
    (hbuilt : s.dev.lvBuilt (fieldAt c.entry 17 1) = false) (hlist : s.dev.lvList c.entry = .ok list) :
    let ws := lvRecords y true (fieldAt c.entry 32 4) list
    let v := s.dev.lvWriteAll (fieldAt c.entry 17 1) y ws.1 0
    v.2.2 = 0 → Lands (.louvreWrite id) s (fun d =>
      d.ended id ws.2 (s.dev.lvAnswer (fieldAt c.entry 17 1) ws.1.length (if ws.2 = 0 then noRecord else ws.1.length) false)
      ∧ d.louvre = v.1.louvre ∧ d.mem = s.dev.mem ∧ d.host = s.dev.host) := by
  intro ws v hv
  have hentries : s.dev.EntriesOnly v.1 := Dev.lvWriteAll_entriesOnly _ y ws.1 s.dev 0
  rw [← hentries.lvAnswer]
  exact lands_of_lvResult (f := fun d => d.louvreWrite id) rfl hs hc (Dev.louvreWrite_of_open hc ht hbuilt hlist hv)
    hentries.banks.louvreOnly

/-! ### The obligation -/

/-- CREATE and SWAP alike, once their number is free to be bound: a record that fails, a table that is bound, and one that does not
fit. -/
theorem lvCreate_lands {i : Instr} {s : State} {f : Dev → Dev} {id op : Nat} {c : Cmd} {list : Bytes} (h : exec i s = serve s f)
    (hs : s.dev.serves = true) (hc : s.dev.lvLoad id op = some c) (hf : f s.dev = s.dev.lvCreate id c.entry)
    (hunused : s.dev.lvTable (fieldAt c.entry 17 1) = none ∨ s.dev.lvNamers (fieldAt c.entry 17 1) = 0)
    (hlist : s.dev.lvList c.entry = .ok list) :
    let t := fieldAt c.entry 17 1
    let x := lvTableOf c.entry
    let n := fieldAt c.entry 32 4
    let rs := lvRecords x false n list
    let refused := fun (st fail : Nat) (d : Dev) => (d.louvre = s.dev.louvre ∧ d.mem = s.dev.mem ∧ d.host = s.dev.host)
      ∧ d.ended id st (s.dev.lvAnswer t 0 fail false)
    (rs.2 ≠ 0 → Lands i s (refused rs.2 rs.1.length))
    ∧ (∀ e, rs.2 = 0 → s.dev.lvBind t x (rs.1.map LvRecord.entry) = some e → Lands i s (fun d =>
        d.lvTable t = some x ∧ (∀ u, u ≠ t → u < 64 → d.lvTable u = s.dev.lvTable u) ∧ d.louvre = e.louvre
        ∧ d.ended id 0 (e.lvAnswer t n noRecord false) ∧ d.mem = s.dev.mem ∧ d.host = s.dev.host))
    ∧ (rs.2 = 0 → s.dev.lvBind t x (rs.1.map LvRecord.entry) = none → Lands i s (refused 0x0303 noRecord)) := by
  refine ⟨fun hfail => ?_, fun e hread hbind => ?_, fun hread hbind => ?_⟩
  · exact lands_idle_of_lvResult h hs hc (hf.trans (Dev.lvCreate_of_failed hlist rfl id hfail))
  · exact lands_bound h hs hc hunused hbind (hf.trans (Dev.lvCreate_of_bind hlist rfl hread id hbind))
  · exact lands_idle_of_lvResult h hs hc (hf.trans (Dev.lvCreate_of_full hlist rfl hread id hbind))

/-- Settles O40: CREATE and SWAP by what binding a table gives, UNLOAD by what unbinding leaves, and WRITE by what its records put
into the banks. -/
theorem louvreLoadsBindTables : Obligations.LouvreLoadsBindTables := by
  intro s id c list b t n x rs result idle nothing refused binds hs
  refine ⟨fun hc ht => ?_, fun hc ht hlist => ?_, fun hc hnamed => ?_, fun hc hunnamed hlist => ?_, fun hc => louvreUnload_lands hs hc,
    fun hc hkept => ?_, fun hc hclosed => ?_, fun y hc ht hbuilt hlist => ⟨fun hread hput => ?_, fun hfail hput => ?_⟩⟩
  · exact lands_idle_of_lvResult (f := fun d => d.louvreCreate id) rfl hs hc (Dev.louvreCreate_of_bound hc ht)
  · exact lvCreate_lands (f := fun d => d.louvreCreate id) rfl hs hc (Dev.louvreCreate_of_unbound hc ht) (.inl ht) hlist
  · exact lands_idle_of_lvResult (f := fun d => d.louvreSwap id) rfl hs hc (Dev.louvreSwap_of_named hc hnamed)
  · exact lvCreate_lands (f := fun d => d.louvreSwap id) rfl hs hc (Dev.louvreSwap_of_unnamed hc hunnamed) (.inr hunnamed) hlist
  · exact lands_idle_of_lvResult (f := fun d => d.louvreUnload id) rfl hs hc (Dev.louvreUnload_of_kept hc hkept)
  · exact lands_idle_of_lvResult (f := fun d => d.louvreWrite id) rfl hs hc (Dev.louvreWrite_of_closed hc hclosed)
  · refine (louvreWrite_lands hs hc ht hbuilt hlist hput).imp fun d ⟨hended, hkept⟩ => ?_
    rw [if_pos hread, hread] at hended
    refine ⟨hended, hkept, fun r hr hlayout cas hcas k hk htable hordinal => ?_⟩
    have hentries := Dev.lvWriteAll_entriesOnly t y [r] s.dev 0
    have hplaced := Dev.lvPlaced_lvPut t y (r.index / bankEntries) (r.index % bankEntries) r.entry s.dev hcas hk
    rw [← Dev.lvWriteAll_single _ _ hlayout] at hplaced
    rw [Dev.lvBank_congr hkept.1, hr]
    exact hplaced (by rwa [hentries.table]) (by rwa [hentries.ordinal])
  · have hlands := louvreWrite_lands hs hc ht hbuilt hlist hput
    rwa [if_neg hfail] at hlands

end Sys2Proof.Machine

/-! ## STRIP_DISPATCH and the waits of Latch (R41, R43, R175 to R178, R186) -/

namespace Sys2Proof.Machine

/-! ### Nodes that are put -/

theorem Ctx.node_setNode (x : Ctx) (n : Nat) (y : NodeRun) (k : Nat) :
    (x.setNode n y).node k = if k = n ∧ n < x.nodes.length then y else x.node k := by
  simp only [Ctx.node, Ctx.setNode, List.getD_eq_getElem?_getD, List.getElem?_set]
  by_cases hn : n = k
  · subst hn
    by_cases hlt : n < x.nodes.length <;> simp [hlt]
  · simp [hn, Ne.symm hn]

/-- What a put node has in common with the one in its place, every node has kept. -/
theorem Dev.node_setNode_keeps {α : Type} (f : NodeRun → α) {d : Dev} {a b : Nat} {y : NodeRun} (h : f y = f ((d.ctx a).node b))
    (c n : Nat) : f (((d.setNode a b y).ctx c).node n) = f ((d.ctx c).node n) := by
  by_cases hc : c = a
  · subst hc
    rw [Dev.setNode, Dev.ctx_setCtx, Ctx.node_setNode]
    split_ifs with hn
    · rw [h, hn.1]
    · rfl
  · rw [Dev.setNode, Dev.ctx_setCtx_ne _ _ hc]

/-- A node that is put without age has none; neither has one that is not there. -/
theorem Dev.aged_setNode (d : Dev) (c n : Nat) {y : NodeRun} (h : y.aged = 0) : (((d.setNode c n y).ctx c).node n).aged = 0 := by
  rw [Dev.setNode, Dev.ctx_setCtx, Ctx.node_setNode]
  split_ifs with hn
  · exact h
  · have hout : (d.ctx c).nodes.length ≤ n := Nat.le_of_not_lt fun hlt => hn ⟨rfl, hlt⟩
    rw [Ctx.node, List.getD_eq_default _ _ hout]

/-! ### The grant of a Pane's lanes (R43, R177) -/

/-- A grant changes contexts by the affinity of the node of one strip of that Pane alone. -/
theorem Dev.grant_ctxs (d : Dev) (p : Nat) : (d.grant p).pipes.ctxs = d.pipes.ctxs ∨ ∃ w l, w ∈ d.pipes.works ∧ w.pane = p
    ∧ (d.grant p).pipes.ctxs = (d.setNode w.ctx w.node { (d.ctx w.ctx).node w.node with affinity := l }).pipes.ctxs := by
  unfold Dev.grant
  dsimp only
  split
  · exact .inl rfl
  · split
    · exact .inl rfl
    · next w hw =>
      obtain ⟨r, -, hfound⟩ := Option.bind_eq_some_iff.mp hw
      obtain ⟨⟨hmem, hpane⟩, -⟩ : (w ∈ d.pipes.works ∧ w.pane = p) ∧ _ := by
        simpa only [List.mem_filter, decide_eq_true_eq] using List.mem_of_find?_eq_some hfound
      exact .inr ⟨w, _, hmem, hpane, rfl⟩

/-- Contexts without a strip on the Pane are as they were. -/
theorem Dev.ctx_grant {d : Dev} {p b : Nat} (h : ∀ w ∈ d.pipes.works, w.ctx = b → w.pane ≠ p) : (d.grant p).ctx b = d.ctx b := by
  rcases d.grant_ctxs p with hctxs | ⟨w, l, hmem, hpane, hctxs⟩
  · exact Dev.ctx_congr hctxs b
  · rw [Dev.ctx_congr hctxs, Dev.setNode, Dev.ctx_setCtx_ne _ _ fun hb => h w hmem hb.symm hpane]

theorem Dev.aged_grant (d : Dev) (p c n : Nat) : (((d.grant p).ctx c).node n).aged = ((d.ctx c).node n).aged := by
  rcases d.grant_ctxs p with hctxs | ⟨w, l, -, -, hctxs⟩
  · rw [Dev.ctx_congr hctxs]
  · rw [Dev.ctx_congr hctxs]
    exact Dev.node_setNode_keeps NodeRun.aged (by rfl) c n

/-- A grant touches the pipelines alone, and not the Latches. -/
theorem Dev.grant_frame (d : Dev) (p : Nat) :
    ∃ ws ps cs, d.grant p = { d with pipes := { d.pipes with works := ws, panes := ps, ctxs := cs } } := by
  rcases d.grant_cases p with h | ⟨w, ps, cs, -, -, -, h⟩
  · exact ⟨_, _, _, h⟩
  · exact ⟨_, _, _, h⟩

/-- A strip on a Pane stays there when lanes are granted, queued or running. -/
theorem Dev.work_grant {d : Dev} {v : Work} (hv : v ∈ d.pipes.works) (p : Nat) :
    ∃ w ∈ (d.grant p).pipes.works, w.ctx = v.ctx ∧ w.node = v.node ∧ w.pane = v.pane := by
  rcases d.grant_cases p with h | ⟨w, ps, cs, -, -, -, h⟩
  · rw [h]
    exact ⟨v, hv, rfl, rfl, rfl⟩
  · rw [h]
    by_cases hvw : v = w
    · exact ⟨_, List.mem_cons_self, hvw ▸ ⟨rfl, rfl, rfl⟩⟩
    · exact ⟨v, List.mem_cons_of_mem _ ((List.mem_erase_of_ne hvw).mpr hv), rfl, rfl, rfl⟩

/-! ### One dispatch (R176, R177) -/

/-- Beside fields, objects, what is drawn, Sill and the Panes nothing differs. -/
def Dev.OffRuns (d t : Dev) : Prop :=
  ∃ f o u s ps, t = { d with flds := f, objs := o, free := u, sill := s, pipes := { d.pipes with panes := ps } }

theorem Dev.OffRuns.refl (d : Dev) : d.OffRuns d := ⟨_, _, _, _, _, rfl⟩

theorem Dev.OffRuns.trans {d e t : Dev} (h : d.OffRuns e) (h' : e.OffRuns t) : d.OffRuns t := by
  obtain ⟨f, o, u, s, ps, rfl⟩ := h
  obtain ⟨f', o', u', s', ps', rfl⟩ := h'
  exact ⟨f', o', u', s', ps', rfl⟩

theorem Dev.offRuns_fput (d : Dev) (f : Fld) (v : Nat) : d.OffRuns (d.fput f v) := ⟨_, _, _, _, _, rfl⟩

theorem Dev.offRuns_ocount (d : Dev) (o : Obj) (n : Nat) : d.OffRuns (d.ocount o n) := ⟨_, _, _, _, _, rfl⟩

/-- The streams of nodes that leave a Pane are a matter of Sill. -/
theorem Dev.releaseStreams_frame (d : Dev) (c : Nat) (p : Nat → Bool) : ∃ s, d.releaseStreams c p = { d with sill := s } := by
  unfold Dev.releaseStreams
  refine foldl_keeps (fun e : Dev => ∃ s, e = { d with sill := s }) _ (fun e b he => ?_) _ d ⟨_, rfl⟩
  obtain ⟨s, rfl⟩ := he
  exact ⟨_, rfl⟩

/-- R174: a node that fires on absent input takes a value that the spec leaves open. -/
def Dev.drawnFor (d : Dev) (absent : Bool) : Dev := if absent then d.draw.2 else d

theorem Dev.drawnFor_offRuns (d : Dev) (absent : Bool) : d.OffRuns (d.drawnFor absent) := by
  cases absent
  · exact .refl d
  · exact ⟨_, _, _, _, _, rfl⟩

/-- R178: the node is admitted to the Pane, and the streams of those that leave for it are released. -/
def Dev.seats (d : Dev) (p : Nat) (q : Nat × Nat) : Dev :=
  match d.residents p q with
  | some l =>
    let out := (d.pane p).resident.filter (fun r => !l.contains r)
    let d := if out = [] then d else d.releaseStreams (paneCas p) (fun o => out.contains (o / 1024, o % 1024))
    d.setPane p { d.pane p with resident := l }
  | none => d

theorem Dev.seats_offRuns (d : Dev) (p : Nat) (q : Nat × Nat) : d.OffRuns (d.seats p q) := by
  unfold Dev.seats
  split
  · dsimp only
    split_ifs
    · exact ⟨_, _, _, _, _, rfl⟩
    · obtain ⟨s, h⟩ := d.releaseStreams_frame (paneCas p)
        (fun o => ((d.pane p).resident.filter (fun r => !List.contains _ r)).contains (o / 1024, o % 1024))
      rw [h]
      exact ⟨_, _, _, _, _, rfl⟩
  · exact .refl d

/-- A dispatch is counted by its step of R177, and a re-dispatch again. -/
def Dev.dispatchCounted (d : Dev) (cas step : Nat) (again : Bool) : Dev :=
  let d := (d.fcount64 (F.LT_DISPATCH_LO_COUNT cas) (F.LT_DISPATCH_HI_COUNT cas) 1).ocount O.DISPATCHES 1
  let d := d.ocount (if step = 1 then O.AFFINITY_DISPATCHES else if step = 4 then O.CROSS_DISPATCHES else O.LOCAL_DISPATCHES) 1
  if again then (d.fcount (F.LT_REDISPATCH_COUNT cas) 1).ocount O.REDISPATCHED 1 else d

theorem Dev.dispatchCounted_offRuns (d : Dev) (cas step : Nat) (again : Bool) : d.OffRuns (d.dispatchCounted cas step again) := by
  have hcounts (lo hi : Fld) (o : Obj) : d.OffRuns (((d.fcount64 lo hi 1).ocount O.DISPATCHES 1).ocount o 1) :=
    (((d.offRuns_fput lo _).trans (Dev.offRuns_fput _ hi _)).trans (Dev.offRuns_ocount _ _ 1)).trans (Dev.offRuns_ocount _ o 1)
  cases again
  · exact hcounts _ _ _
  · exact (hcounts _ _ _).trans ((Dev.offRuns_fput _ _ _).trans (Dev.offRuns_ocount _ _ _))

/-- The strip `w` of a firing goes to a Pane, and its node is put as `y`, by the Latch of Casement `cas`. -/
def Dev.handOver (d : Dev) (cas step : Nat) (absent : Bool) (y : NodeRun) (w : Work) : Dev :=
  let d := ((d.drawnFor absent).setNode w.ctx w.node y).seats w.pane (w.ctx, w.node)
  let d := { d with pipes := { d.pipes with works := d.pipes.works ++ [w] } }
  (d.setLatch cas { d.latch cas with last := w.ctx }).dispatchCounted cas step w.again

/-- What a hand-over leaves: one strip more, the node as it is put, and the context as the last that the Latch served. -/
theorem Dev.handOver_facts (d : Dev) (cas step : Nat) (absent : Bool) (y : NodeRun) (w : Work) :
    (d.handOver cas step absent y w).pipes.works = d.pipes.works ++ [w]
    ∧ (d.handOver cas step absent y w).pipes.ctxs = (d.setNode w.ctx w.node y).pipes.ctxs
    ∧ ((d.handOver cas step absent y w).latch cas).last = w.ctx
    ∧ (d.handOver cas step absent y w).jamb = d.jamb ∧ (d.handOver cas step absent y w).mem = d.mem
    ∧ (d.handOver cas step absent y w).host = d.host := by
  unfold Dev.handOver
  dsimp only
  obtain ⟨f, o, u, s, ps, hcounted⟩ := Dev.dispatchCounted_offRuns _ cas step w.again
  rw [hcounted]
  obtain ⟨f', o', u', s', ps', hseats⟩ := ((d.drawnFor absent).setNode w.ctx w.node y).seats_offRuns w.pane (w.ctx, w.node)
  rw [hseats]
  obtain ⟨f'', o'', u'', s'', ps'', hdrawn⟩ := d.drawnFor_offRuns absent
  rw [hdrawn]
  exact ⟨rfl, rfl, congrArg Latch.last (Dev.latch_setLatch _ cas _), rfl, rfl, rfl⟩

/-- What a SCAN reads for the strip that it forms in the Casement of Pane `p` (R67). -/
def Dev.scanned (d : Dev) (c n p : Nat) : Dev :=
  let x := d.ctx c
  let f := d.fire (paneCas p) c n x
  match (x.node n).st, f.1.st, f.2.1 with
  | .scan s, .scan t, [w] =>
    if (x.prog.sourceOf n).kind ≠ 3 ∧ s.seq < t.seq then d.scanRead (paneCas p) c n p x s w.rows.length else d
  | _, _, _ => d

theorem Dev.scanned_of_no_scan {d : Dev} {c n : Nat} (h : ∀ s, ((d.ctx c).node n).st ≠ .scan s) (p : Nat) : d.scanned c n p = d := by
  unfold Dev.scanned
  dsimp only
  split
  · next s _ _ hs _ _ => exact absurd hs (h s)
  · rfl

/-- A node past a firing that took the strips `ins`, as its dispatch puts it: it is ready no more, and its waits begin anew. -/
def NodeRun.dispatched (y : NodeRun) (ins : List Strip) (prio : Nat) : NodeRun :=
  { y with
    aged := 0, affinityOver := false, crossOver := false, readyAt := none
    replay := y.replay.filter (fun t => !(ins.map Strip.tag).contains t)
    applied := { y.applied with prio := prio } }

/-- A dispatch is a hand-over, and the grant of that Pane's lanes; what a SCAN reads for its strip comes first. -/
theorem Dev.dispatchTo_eq {d : Dev} {cas c n p : Nat} (step : Nat) (h : (d.fire (paneCas p) c n (d.ctx c)).2.2.1 = none) :
    ∃ (absent : Bool) (y : NodeRun) (w : Work), y.aged = 0 ∧ (w.ctx = c ∧ w.node = n ∧ w.pane = p)
      ∧ d.dispatchTo cas c n p step = ((d.scanned c n p).handOver cas step absent y w).grant p := by
  unfold Dev.dispatchTo
  extract_lets x f e
  split
  · next st hst => exact absurd (hst.symm.trans h) (Option.some_ne_none st)
  · exact ⟨f.2.2.2, f.1.dispatched f.2.1 ((e.drawnFor f.2.2.2).priority c),
      { ctx := c, node := n, pane := p, ins := f.2.1, finish := (x.node n).finish, again := (f.2.1.map Strip.tag).any f.1.replay.contains },
      rfl, ⟨rfl, rfl, rfl⟩, rfl⟩

/-- R176, R177: what one dispatch leaves. -/
theorem Dev.dispatchTo_facts {d : Dev} {cas c n p : Nat} (step : Nat) (h : (d.fire (paneCas p) c n (d.ctx c)).2.2.1 = none) :
    let t := d.dispatchTo cas c n p step
    (∃ w ∈ t.pipes.works, w.ctx = c ∧ w.node = n ∧ w.pane = p) ∧ (t.latch cas).last = c ∧ ((t.ctx c).node n).aged = 0
      ∧ ((∀ s, ((d.ctx c).node n).st ≠ .scan s) → t.pipes.works.length = d.pipes.works.length + 1
        ∧ (∀ b, b ≠ c → (∀ w ∈ d.pipes.works, w.ctx = b → w.pane ≠ p) → t.ctx b = d.ctx b)
        ∧ t.jamb = d.jamb ∧ t.mem = d.mem ∧ t.host = d.host) := by
  intro t
  obtain ⟨absent, y, w, hy, ⟨rfl, rfl, rfl⟩, ht⟩ := Dev.dispatchTo_eq (cas := cas) step h
  obtain ⟨hworks, hctxs, hlast, hjamb, hmem, hhost⟩ := (d.scanned w.ctx w.node w.pane).handOver_facts cas step absent y w
  change t = _ at ht
  generalize (d.scanned w.ctx w.node w.pane).handOver cas step absent y w = e at *
  obtain ⟨ws, ps, cs, hframe⟩ := e.grant_frame w.pane
  have hlength := (e.grant_grants w.pane).length
  have haged := (e.aged_grant w.pane w.ctx w.node)
  rw [Dev.ctx_congr hctxs, Dev.aged_setNode _ _ _ hy] at haged
  refine ⟨?_, ?_, ?_, fun hs => ⟨?_, fun b hb hnone => ?_, ?_, ?_, ?_⟩⟩
  · exact ht ▸ Dev.work_grant (hworks ▸ List.mem_append_right _ (List.mem_singleton_self w)) w.pane
  · rw [ht, hframe]
    exact hlast
  · rw [ht]
    exact haged
  all_goals rw [Dev.scanned_of_no_scan hs] at *
  · rw [ht, hlength, hworks, List.length_append, List.length_singleton]
  · rw [ht, Dev.ctx_grant fun v hv hvb => ?_, Dev.ctx_congr hctxs, Dev.setNode, Dev.ctx_setCtx_ne _ _ hb]
    rw [hworks, List.mem_append, List.mem_singleton] at hv
    rcases hv with hv | rfl
    · exact hnone v hv hvb
    · exact absurd hvb.symm hb
  · rw [ht, hframe]
    exact hjamb
  · rw [ht, hframe]
    exact hmem
  · rw [ht, hframe]
    exact hhost

/-! ### The waits (R176, R177) -/

section
variable {d : Dev} {c n : Nat} (hx : (d.ctx c).live = true) (hn : n < (d.ctx c).nodes.length)
include hx hn

theorem Dev.readyChange_of_ready (hready : ((d.ctx c).node n).readyAt.isSome = true) (f : NodeRun → NodeRun) :
    d.readyChange c n f = d.setNode c n (f ((d.ctx c).node n)) := if_pos ⟨hx, hn, hready⟩

theorem Dev.affinityExpiry_of_ready (hready : ((d.ctx c).node n).readyAt.isSome = true) (lapsed : Nat) :
    d.affinityExpiry c n lapsed = d.setNode c n { (d.ctx c).node n with
      affinityOver := true, affinity := ((d.ctx c).node n).affinity.filter (fun p => !bitAt lapsed p) } := by
  simp [Dev.affinityExpiry, hx, hn, hready]

end

/-- Settles O19: a dispatch by what its hand-over and the grant of the lanes leave, and each wait by the node it is put to. -/
theorem dispatchesAndTheWaitsForThem : Obligations.DispatchesAndTheWaitsForThem := by
  constructor
  · intro s c r p step hs hh hhold hdrain hfound hfire
    have hrun : s.dev.stripDispatch c.toNat = s.dev.dispatchTo c.toNat r.ctx r.node p step := by
      simp only [Dev.stripDispatch, hh, hhold, hdrain, hfound, Bool.false_eq_true, or_self, if_false]
    refine brings_of (f := fun d => d.stripDispatch c.toNat) rfl hs ?_
    rw [hrun]
    exact Dev.dispatchTo_facts step hfire
  · intro s c n lapsed x y with_ hs hx hn hready
    refine ⟨fun haging => ?_, fun haging => ?_, ?_, ?_⟩
    · refine brings_of (f := fun d => d.agingTimeout c.toNat n.toNat) rfl hs ?_
      rw [Dev.agingTimeout, if_neg haging]
      exact Dev.readyChange_of_ready hx hn hready _
    · exact brings_of (f := fun d => d.agingTimeout c.toNat n.toNat) rfl hs (if_pos haging)
    · exact brings_of (f := fun d => d.affinityExpiry c.toNat n.toNat lapsed.toNat) rfl hs
        (Dev.affinityExpiry_of_ready hx hn hready lapsed.toNat)
    · exact brings_of (f := fun d => d.crossExpiry c.toNat n.toNat) rfl hs (Dev.readyChange_of_ready hx hn hready _)

end Sys2Proof.Machine

/-! ## Pane self-tests, UNFENCE and BANK_UNFENCE (R116, R187, R190, R191, R435) -/

namespace Sys2Proof.Machine

/-! ### What touches one Pane, or contexts alone -/

/-- Beside contexts nothing differs. -/
def Dev.CtxsOnly (d t : Dev) : Prop := ∃ cs, t = { d with pipes := { d.pipes with ctxs := cs } }

theorem Dev.ctxsOnly_setCtx (d : Dev) (c : Nat) (x : Ctx) : d.CtxsOnly (d.setCtx c x) := ⟨_, rfl⟩

theorem Dev.CtxsOnly.trans {d e t : Dev} (h : d.CtxsOnly e) (h' : e.CtxsOnly t) : d.CtxsOnly t := by
  obtain ⟨cs, rfl⟩ := h
  obtain ⟨cs', rfl⟩ := h'
  exact ⟨cs', rfl⟩

theorem Dev.ctxsOnly_foldl {α : Type} {f : Dev → α → Dev} (hf : ∀ (d : Dev) a, d.CtxsOnly (f d a)) (l : List α) (d : Dev) :
    d.CtxsOnly (l.foldl f d) :=
  foldl_keeps (fun e => d.CtxsOnly e) f (fun e a he => he.trans (hf e a)) l d ⟨_, rfl⟩

/-- Beside Pane `k` no Pane differs, nor do the commands in flight and the bytes of engine memory. -/
def Dev.PaneAlone (d t : Dev) (k : Nat) : Prop :=
  (∀ q, q ≠ k → t.pane q = d.pane q) ∧ t.jamb.cmds = d.jamb.cmds ∧ t.mem.cells = d.mem.cells

theorem Dev.PaneAlone.trans {d e t : Dev} {k : Nat} (h : d.PaneAlone e k) (h' : e.PaneAlone t k) : d.PaneAlone t k := by
  obtain ⟨hpanes, hcmds, hcells⟩ := h
  obtain ⟨hpanes', hcmds', hcells'⟩ := h'
  exact ⟨fun q hq => (hpanes' q hq).trans (hpanes q hq), hcmds'.trans hcmds, hcells'.trans hcells⟩

theorem Dev.paneAlone_setPane (d : Dev) (k : Nat) (x : Pane) : d.PaneAlone (d.setPane k x) k :=
  ⟨fun _ hq => Dev.pane_setPane_ne d x hq, rfl, rfl⟩

theorem Dev.paneAlone_oput (d : Dev) (o : Obj) (v k : Nat) : d.PaneAlone (d.oput o v) k := ⟨fun _ _ => rfl, rfl, rfl⟩

theorem Dev.CtxsOnly.paneAlone {d t : Dev} (h : d.CtxsOnly t) (k : Nat) : d.PaneAlone t k := by
  obtain ⟨cs, rfl⟩ := h
  exact ⟨fun _ _ => rfl, rfl, rfl⟩

theorem Dev.paneAlone_faultRaise (d : Dev) (n syn : Nat) (injected : Bool) (k : Nat) : d.PaneAlone (d.faultRaise n syn injected) k :=
  ⟨fun q _ => by simp [Dev.pane], congrArg Kept.cmds (d.kept_faultRaise n syn injected), by simp⟩

/-! ### A self-test begins (R181, R187, R190) -/

theorem Dev.paneAlone_holdPane (d : Dev) (p : Nat) (b : Bool) (k : Nat) : d.PaneAlone (d.holdPane p b) k :=
  ⟨fun _ _ => rfl, rfl, rfl⟩

theorem Dev.paneHeld_holdPane (d : Dev) (p : Nat) (b : Bool) : (d.holdPane p b).paneHeld p = b := by
  have hbit : p % 24 < 24 := Nat.mod_lt _ (by decide)
  rw [Dev.paneHeld, Dev.holdPane, Dev.fget_fput, bitAt_eq_testBit, Nat.testBit_mod_two_pow, ← bitAt_eq_testBit, bitAt_setBit,
    if_pos rfl]
  simp [F.LT_PANE_HOLD_HOLD, hbit]

theorem Dev.toMatching_ctxsOnly (d : Dev) (c n : Nat) : d.CtxsOnly (d.toMatching c n) := Dev.ctxsOnly_setCtx _ _ _

theorem Dev.matchWithConsumers_ctxsOnly (d : Dev) (c n : Nat) : d.CtxsOnly (d.matchWithConsumers c n) :=
  (d.toMatching_ctxsOnly c n).trans (Dev.ctxsOnly_foldl (fun e (a : Edge) => e.toMatching_ctxsOnly c a.dst) _ _)

theorem Dev.testBegin_ctxsOnly (d : Dev) (p : Nat) :
    ((d.setPane p { d.pane p with testReq := false, draining := true }).holdPane p true).CtxsOnly (d.testBegin p) := by
  refine Dev.ctxsOnly_foldl (fun e q => ?_) _ _
  split_ifs
  · exact e.matchWithConsumers_ctxsOnly _ _
  · exact ⟨_, rfl⟩

/-- R187: what a self-test that begins leaves. -/
theorem Dev.testBegin_facts (d : Dev) (p : Nat) :
    (d.testBegin p).pane p = { d.pane p with testReq := false, draining := true } ∧ (d.testBegin p).paneHeld p = true
    ∧ (d.testBegin p).pipes.works = d.pipes.works ∧ (d.testBegin p).objs = d.objs ∧ d.PaneAlone (d.testBegin p) p := by
  have halone := ((d.paneAlone_setPane p { d.pane p with testReq := false, draining := true }).trans
    (Dev.paneAlone_holdPane _ p true p)).trans ((d.testBegin_ctxsOnly p).paneAlone p)
  have hheld := Dev.paneHeld_holdPane (d.setPane p { d.pane p with testReq := false, draining := true }) p true
  obtain ⟨cs, h⟩ := d.testBegin_ctxsOnly p
  refine ⟨?_, ?_, ?_, ?_, halone⟩
  · rw [h]
    exact Dev.pane_setPane d p _
  · rw [h]
    exact hheld
  · rw [h]
    rfl
  · rw [h]
    rfl

/-- R187, R190: no test is under way on the Pane, no fence and no hold keeps it from one, and its Casement is in service. -/
def Dev.mayTest (d : Dev) (p : Nat) : Prop :=
  (d.pane p).draining = false ∧ (d.pane p).fenced = false ∧ d.casUp (paneCas p) = true ∧ d.paneHeld p = false

theorem Dev.mayTest_congr {d e : Dev} {p : Nat} (hd : (e.pane p).draining = (d.pane p).draining)
    (hf : (e.pane p).fenced = (d.pane p).fenced) (hflds : e.flds = d.flds) : e.mayTest p ↔ d.mayTest p := by
  simp only [Dev.mayTest, Dev.casUp, Dev.paneHeld, Dev.fget, hd, hf, hflds]

theorem Dev.testPending_of_free {d : Dev} {p : Nat} (hreq : (d.pane p).testReq = true) (h : d.mayTest p) :
    d.testPending p = d.testBegin p := if_pos ⟨hreq, h⟩

theorem Dev.testPending_of_not_free {d : Dev} {p : Nat} (h : ¬ d.mayTest p) : d.testPending p = d := if_neg fun hc => h hc.2

theorem Dev.testPending_of_unasked {d : Dev} {p : Nat} (h : (d.pane p).testReq = false) : d.testPending p = d :=
  if_neg fun hc => absurd hc.1 (by simp [h])

/-- A pending test neither fences the Pane nor ends a fence, whether it begins or not. -/
theorem Dev.testPending_facts (d : Dev) (p : Nat) : ((d.testPending p).pane p).fenced = (d.pane p).fenced
    ∧ ((d.testPending p).pane p).unfencing = (d.pane p).unfencing ∧ (d.testPending p).objs = d.objs
    ∧ d.PaneAlone (d.testPending p) p := by
  unfold Dev.testPending
  dsimp only
  split_ifs
  · obtain ⟨hpane, -, -, hobjs, halone⟩ := d.testBegin_facts p
    exact ⟨by rw [hpane], by rw [hpane], hobjs, halone⟩
  · exact ⟨rfl, rfl, rfl, fun _ _ => rfl, rfl, rfl⟩

/-! ### What a self-test comes to (R187, R435) -/

theorem Dev.orphanRuns_ctxsOnly (d : Dev) (p : Nat) : d.CtxsOnly (d.orphanRuns p) :=
  Dev.ctxsOnly_foldl (fun e _ => e.ctxsOnly_setCtx _ _) _ _

theorem Dev.orphanRuns_of_calm {d : Dev} (h : d.calm = true) (p : Nat) : d.orphanRuns p = d := by
  simp only [Dev.calm, Bool.and_eq_true, List.isEmpty_iff] at h
  rw [Dev.orphanRuns, h.2, List.foldl_nil]

/-- Source 3 of a Pane, which a failed self-test raises, is counted. -/
theorem Dev.fget_faultRaise_pane (d : Dev) {k : Nat} (hk : k < 96) (syn : Nat) (injected : Bool) :
    (d.faultRaise (4 * k + 3) syn injected).fget (F.FC_SRC_COUNT (4 * k + 3)) = satAdd 16 (d.fget (F.FC_SRC_COUNT (4 * k + 3))) 1 := by
  have hlisted : faultListed (4 * k + 3) = true := if_pos (by omega)
  rw [Dev.fget_faultRaise _ _ _ _ _ hlisted (.inl (by simp only [F.FC_SRC_COUNT, fldKey]; omega)), Dev.faultCount, Dev.for_,
    Dev.fget_fput_ne _ _ (by simp only [F.FC_SRC_COUNT, F.FC_STICKY_BITS, fldKey]; omega), Dev.fget_fcount]
  exact satAdd_mod 16 _ 1

/-- The result of a Pane's self-test is no counter that the raising of a source counts. -/
theorem Dev.oget_faultRaise_result (d : Dev) {k : Nat} (hk : k < 96) (n syn : Nat) (injected : Bool) :
    (d.faultRaise n syn injected).oget (O.SELFTEST_RESULT k) = d.oget (O.SELFTEST_RESULT k) :=
  Dev.oget_faultRaise _ _ _ _ _ (by simp only [O.SELFTEST_RESULT, O.OVERFLOWS, O.FAULTS_CAPTURED, objKey]; omega)

/-- Calm is a matter of what is owed and of contexts. -/
theorem Dev.calm_of_ctxs {d e : Dev} (hr : e.reacts = d.reacts) (hc : e.pipes.ctxs = d.pipes.ctxs) : e.calm = d.calm := by
  simp only [Dev.calm, Dev.activeCtxs, hr, hc]

/-- A test on Pane `p` has ended with a result: the Pane drains no more, and has no residents and no open sort runs. -/
def Dev.testEnd (d : Dev) (p result : Nat) : Dev :=
  ((d.setPane p { d.pane p with draining := false, resident := [], rerun := false }).orphanRuns p).oput (O.SELFTEST_RESULT p) result

theorem Dev.testEnd_facts (d : Dev) (p result : Nat) :
    (d.testEnd p result).pane p = { d.pane p with draining := false, resident := [], rerun := false }
    ∧ (d.testEnd p result).oget (O.SELFTEST_RESULT p) = result % 2 ^ 8 ∧ (d.testEnd p result).flds = d.flds
    ∧ (d.testEnd p result).reacts = d.reacts ∧ d.PaneAlone (d.testEnd p result) p := by
  have halone := ((d.paneAlone_setPane p { d.pane p with draining := false, resident := [], rerun := false }).trans
    ((Dev.orphanRuns_ctxsOnly _ p).paneAlone p)).trans (Dev.paneAlone_oput _ (O.SELFTEST_RESULT p) result p)
  obtain ⟨cs, h⟩ := (d.setPane p { d.pane p with draining := false, resident := [], rerun := false }).orphanRuns_ctxsOnly p
  refine ⟨?_, Dev.oget_oput _ _ _, ?_, ?_, halone⟩
  · rw [Dev.testEnd, h, Dev.pane_oput]
    exact Dev.pane_setPane d p _
  · rw [Dev.testEnd, h]
    rfl
  · rw [Dev.testEnd, h]
    rfl

/-- A test waits for the strips that are on the Pane. -/
theorem Dev.selfTestRun_of_busy {d : Dev} {p : Nat} (h : ∃ w ∈ d.pipes.works, w.pane = p ∧ w.phase ≠ .pooled) (pass : Bool) :
    d.selfTestRun p pass = d := by
  refine if_pos (.inr (.inr (.inr ?_)))
  obtain ⟨w, hw, hpane, hphase⟩ := h
  exact List.any_eq_true.mpr ⟨w, hw, by simp [hpane, hphase]⟩

/-- A tested Pane rejoins, and gives up its hold, but where the failure of its test owes a reaction (R190). -/
def Dev.testedPane (d : Dev) (p : Nat) (stays : Bool) : Dev :=
  let u := d.setPane p { d.pane p with failed := stays }
  if stays then u else (u.holdPane p false).testPending p

theorem Dev.testedPane_facts {d : Dev} {p : Nat} (hreq : (d.pane p).testReq = false) (stays : Bool) :
    let t := d.testedPane p stays
    t.pane p = { d.pane p with failed := stays } ∧ (stays = false → t.paneHeld p = false) ∧ t.objs = d.objs
    ∧ (∀ f : Fld, f.key ≠ (F.LT_PANE_HOLD_HOLD (paneCas p)).key → t.fget f = d.fget f)
    ∧ (t.reacts = d.reacts ∧ t.pipes.ctxs = d.pipes.ctxs) ∧ d.PaneAlone t p := by
  intro t
  cases stays with
  | true => exact ⟨Dev.pane_setPane _ _ _, nofun, rfl, fun f _ => rfl, ⟨rfl, rfl⟩, d.paneAlone_setPane p _⟩
  | false =>
    have ht : t = (d.setPane p { d.pane p with failed := false }).holdPane p false :=
      Dev.testPending_of_unasked (by rw [Dev.holdPane, Dev.pane_fput, Dev.pane_setPane]; exact hreq)
    rw [ht]
    exact ⟨Dev.pane_setPane d p _, fun _ => Dev.paneHeld_holdPane _ p false, rfl, fun f hf => Dev.fget_fput_ne _ _ hf,
      ⟨rfl, rfl⟩, (d.paneAlone_setPane p _).trans (Dev.paneAlone_holdPane _ p false p)⟩

section
variable {d : Dev} {p : Nat} (hdrain : (d.pane p).draining = true) (hh : d.halted = false) (hup : d.casUp (paneCas p) = true)
  (hfree : ∀ w ∈ d.pipes.works, w.pane = p → w.phase = .pooled)
include hdrain hh hup hfree

/-- R187: the test of a drained Pane runs, and the Pane rejoins but where the source that a failure raises owes a reaction. -/
theorem Dev.selfTestRun_of_drained (pass : Bool) :
    let e := d.testEnd p (if pass then 1 else 2)
    let t := if pass then e else e.faultRaise (4 * p + 3) 0 false
    d.selfTestRun p pass = t.testedPane p (decide (e.reacts.length < t.reacts.length)) := by
  have hnone : ¬ d.pipes.works.any (fun w => w.pane == p && w.phase != .pooled) = true := by
    simpa using hfree
  exact if_neg (by simp only [hdrain, hh, hup, hnone, Bool.true_eq_false, Bool.false_eq_true, or_self, not_false_eq_true])

variable (hreq : (d.pane p).testReq = false)
include hreq

theorem Dev.selfTestRun_pass_facts :
    let t := d.selfTestRun p true
    t.pane p = { d.pane p with draining := false, resident := [], rerun := false, failed := false } ∧ t.paneHeld p = false
    ∧ t.oget (O.SELFTEST_RESULT p) = 1 ∧ d.PaneAlone t p ∧ (d.calm = true → t.calm = true) := by
  intro t
  obtain ⟨hpane, hresult, -, hreacts, halone⟩ := d.testEnd_facts p 1
  have hrun : t = (d.testEnd p 1).testedPane p false := by
    simpa using Dev.selfTestRun_of_drained hdrain hh hup hfree true
  obtain ⟨hrejoined, hheld, hobjs, -, ⟨howed, hctxs⟩, halone'⟩ :=
    Dev.testedPane_facts (d := d.testEnd p 1) (by rw [hpane]; exact hreq) false
  rw [hrun]
  refine ⟨hrejoined.trans (by rw [hpane]), hheld rfl, ?_, halone.trans halone', fun hcalm => ?_⟩
  · rw [Dev.oget, hobjs]
    exact hresult
  · rw [Dev.calm_of_ctxs (howed.trans hreacts) (hctxs.trans ?_), hcalm]
    have hstop : (d.setPane p { d.pane p with draining := false, resident := [], rerun := false }).calm = true :=
      (Dev.calm_of_ctxs (d := d) rfl rfl).trans hcalm
    rw [Dev.testEnd, Dev.orphanRuns_of_calm hstop]
    rfl

theorem Dev.selfTestRun_fail_facts (hp : p < 96) :
    let t := d.selfTestRun p false
    (t.pane p).draining = false ∧ t.oget (O.SELFTEST_RESULT p) = 2
    ∧ t.fget (F.FC_SRC_COUNT (4 * p + 3)) = satAdd 16 (d.fget (F.FC_SRC_COUNT (4 * p + 3))) 1 ∧ d.PaneAlone t p := by
  intro t
  obtain ⟨hpane, hresult, hflds, -, halone⟩ := d.testEnd_facts p 2
  have hraised := (d.testEnd p 2).paneAlone_faultRaise (4 * p + 3) 0 false p
  have hcount := Dev.fget_faultRaise_pane (d.testEnd p 2) hp 0 false
  have hkept : ((d.testEnd p 2).faultRaise (4 * p + 3) 0 false).pane p = (d.testEnd p 2).pane p := by simp [Dev.pane]
  rw [hpane] at hkept
  obtain ⟨hrejoined, -, hobjs, hfget, -, halone'⟩ :=
    Dev.testedPane_facts (d := (d.testEnd p 2).faultRaise (4 * p + 3) 0 false) (by rw [hkept]; exact hreq) _
  have hrun : t = _ := Dev.selfTestRun_of_drained hdrain hh hup hfree false
  rw [hrun]
  refine ⟨?_, ?_, ?_, (halone.trans hraised).trans halone'⟩
  · exact (congrArg Pane.draining hrejoined).trans (by rw [hkept])
  · exact (congrArg (Sparse.get _ · _) hobjs).trans ((Dev.oget_faultRaise_result _ hp _ _ _).trans hresult)
  · refine (hfget _ ?_).trans (hcount.trans ?_)
    · simp only [F.FC_SRC_COUNT, F.LT_PANE_HOLD_HOLD, fldKey, paneCas]
      omega
    · rw [Dev.fget, hflds, Dev.fget]

end

/-! ### Writes to a Pane's objects (R191, R389, R435) -/

/-- A write to the dictionary is counted, and wakes the device. -/
def Dev.noted (d : Dev) : Dev := (d.ocount O.DICT_WRITES 1).wake

/-- Of what a Pane's objects act on, device `t` has all as `d` has it. -/
structure Dev.Unacted (d t : Dev) : Prop where
  pipes : t.pipes = d.pipes
  flds : t.flds = d.flds
  louvre : t.louvre = d.louvre
  halted : t.halted = d.halted
  reacts : t.reacts = d.reacts
  jamb : t.jamb = d.jamb
  cells : t.mem.cells = d.mem.cells

theorem Dev.noted_frame (d : Dev) : d.Unacted d.noted where
  pipes := by simp [Dev.noted]
  flds := by simp [Dev.noted]
  louvre := by simp [Dev.noted]
  halted := by simp [Dev.noted]
  reacts := by simp [Dev.noted]
  jamb := by simp [Dev.noted]
  cells := by
    unfold Dev.noted Dev.wake
    split_ifs <;> simp

theorem Dev.pane_noted (d : Dev) (p : Nat) : d.noted.pane p = d.pane p := by rw [Dev.pane, d.noted_frame.pipes, Dev.pane]

theorem Dev.paneAlone_noted (d : Dev) (k : Nat) : d.PaneAlone d.noted k :=
  ⟨fun q _ => d.pane_noted q, by rw [d.noted_frame.jamb], d.noted_frame.cells⟩

/-- The objects that ask for a Pane's test, and for its unfencing, are of type BOOL. -/
theorem boolObj_pane {index sub : Nat} (hpane : 0x5000 ≤ index ∧ index < 0x5C00)
    (h : index % 0x20 = 2 ∧ sub = 1 ∨ index % 0x20 = 8 ∧ sub = 2) : boolObj index sub = true := by
  simp [boolObj, hpane, h]

-- The rows of the dictionary's table that hold these objects of each Pane, found by a search of the table for each of the 96.
theorem selftestReq_row : ∀ p < 96, objRow (0x5002 + 0x20 * p) 1 = some ⟨0x5002, 0x20, 96, 1, 1, 1, .rw, 0⟩ := by decide +kernel

theorem unfence_row : ∀ p < 96, objRow (0x5008 + 0x20 * p) 2 = some ⟨0x5008, 0x20, 96, 2, 1, 1, .rw, 0⟩ := by decide +kernel

theorem bankUnfence_row : ∀ p < 96, objRow (0x5008 + 0x20 * p) 3 = some ⟨0x5008, 0x20, 96, 3, 1, 1, .rw, 0⟩ := by decide +kernel

/-- A byte written to an object of a Pane's record that takes it. -/
theorem Dev.dictStore_pane {d : Dev} {index sub : Nat} {r : ObjRow} (hrec : d.recovering = false) (hrow : objRow index sub = some r)
    (hacc : r.acc = .rw) (hsize : r.size = 1) (hsub : sub < 256) (hpane : 0x5000 ≤ index ∧ index < 0x5C00) (v : Byte) :
    d.dictStore .none index sub [v] = d.noted.writePane r index sub (if boolObj index sub then min (leNat [v]) 1 else leNat [v]) := by
  have hjudge : writeJudge index sub [v].length = .stored := by simp [writeJudge, hrow, hacc, hsize]
  have hkey : objKey index sub / 256 = index ∧ objKey index sub % 256 = sub := by
    simp only [objKey]
    omega
  have hpersist : writePersists index sub [v] = false := by
    have hne : index ≠ 0x1020 := by omega
    simp [writePersists, keepsOver, hkey, hrow, hacc, hne]
  have hwrite : d.noted.writeObj index sub [v] = d.noted.applyObj r index sub (leNat [v]) := by
    simp [Dev.writeObj, hrow, hacc, hsize]
  have happly (e : Dev) (v : Nat) : e.applyObj r index sub v = e.writePane r index sub (if boolObj index sub then min v 1 else v) := by
    unfold Dev.applyObj
    dsimp only
    repeat rw [if_neg (by omega)]
    exact if_pos hpane
  have hreset : index ≠ 0x20B0 := by omega
  have hstored : d.dictStore .none index sub [v] = d.noted.writeObj index sub [v] := by
    unfold Dev.dictStore
    simp only [hrec, hjudge, hpersist, hreset, Dev.answerWrite, Bool.false_eq_true, if_false, ne_eq, not_true_eq_false, false_and,
      decide_false]
    rfl
  rw [hstored, hwrite, happly]

theorem Dev.recovering_of_serves {d : Dev} (h : d.serves = true) : d.recovering = false := by
  simp only [Dev.serves, Bool.and_eq_true, Bool.not_eq_true'] at h
  exact h.2

/-! ### SELFTEST_REQ (R187, R191) -/

/-- The Pane's self-test is requested, and has not begun. -/
def Dev.asked (d : Dev) (p : Nat) : Dev := d.noted.setPane p { d.pane p with testReq := true }

theorem Dev.asked_facts (d : Dev) (p : Nat) :
    (d.asked p).pane p = { d.pane p with testReq := true } ∧ (d.asked p).pipes.works = d.pipes.works ∧ d.PaneAlone (d.asked p) p
    ∧ (d.asked p).calm = d.calm :=
  ⟨Dev.pane_setPane _ _ _, by rw [Dev.asked, Dev.setPane_pipes_works, d.noted_frame.pipes],
    (d.paneAlone_noted p).trans (Dev.paneAlone_setPane _ p _),
    Dev.calm_of_ctxs d.noted_frame.reacts (by rw [Dev.asked, Dev.setPane_pipes_ctxs, d.noted_frame.pipes])⟩

theorem Dev.asked_mayTest (d : Dev) (p : Nat) : (d.asked p).mayTest p ↔ d.mayTest p :=
  Dev.mayTest_congr (by rw [Dev.asked, Dev.pane_setPane]) (by rw [Dev.asked, Dev.pane_setPane]) d.noted_frame.flds

theorem Dev.selfTestWrite_eq {d : Dev} {p : Nat} (hs : d.serves = true) (hp : p < 96) :
    d.selfTestWrite p = (d.asked p).testPending p := by
  have hplace : (0x5002 + 0x20 * p - 0x5000) / 0x20 = p ∧ (0x5002 + 0x20 * p) % 0x20 = 2 := by omega
  have hone : min (leNat [1]) 1 ≠ 0 := by decide
  rw [Dev.selfTestWrite, Dev.dictStore_pane (Dev.recovering_of_serves hs) (selftestReq_row p hp) rfl rfl (by decide) (by omega),
    if_pos (boolObj_pane (by omega) (by omega))]
  simp only [Dev.writePane, hplace, hone, if_false, Dev.selfTestReq, d.pane_noted, Dev.asked]

/-! ### UNFENCE (R435) -/

/-- A write of one to a Pane's UNFENCE asks for its test where the Pane is fenced and the device runs. -/
theorem Dev.unfenceWrite_eq {d : Dev} {p : Nat} (hs : d.serves = true) (hp : p < 96) : d.dictStore .none (0x5008 + 0x20 * p) 2 [1]
    = if (d.pane p).fenced = true ∧ d.halted = false then d.noted.setPane p { d.pane p with unfencing := true } else d.noted := by
  have hplace : (0x5008 + 0x20 * p - 0x5000) / 0x20 = p ∧ (0x5008 + 0x20 * p) % 0x20 = 8 := by omega
  rw [Dev.dictStore_pane (Dev.recovering_of_serves hs) (unfence_row p hp) rfl rfl (by decide) (by omega),
    if_pos (boolObj_pane (by omega) (by omega))]
  have hone : min (leNat [1]) 1 ≠ 0 := by decide
  simp only [Dev.writePane, hplace, d.pane_noted, d.noted_frame.halted, hone, ne_eq, not_false_eq_true, true_and]

theorem Dev.unfenceRun_of_fenced {d : Dev} {p : Nat} (hs : d.serves = true) (hp : p < 96) (hf : (d.pane p).fenced = true)
    (hh : d.halted = false) : ∃ e : Dev, e.pane p = { d.pane p with unfencing := true } ∧ e.flds = d.flds ∧ e.halted = false
      ∧ d.PaneAlone e p ∧ ∀ pass, d.unfenceRun p pass = e.unfence p pass := by
  unfold Dev.unfenceRun
  split
  · next hasked => exact ⟨d, by rw [← hasked], rfl, hh, ⟨fun _ _ => rfl, rfl, rfl⟩, fun _ => rfl⟩
  · rw [Dev.unfenceWrite_eq hs hp, if_pos ⟨hf, hh⟩]
    exact ⟨_, Dev.pane_setPane _ _ _, d.noted_frame.flds, d.noted_frame.halted.trans hh,
      (d.paneAlone_noted p).trans (Dev.paneAlone_setPane _ p _), fun _ => rfl⟩

theorem Dev.unfenceRun_of_unfenced {d : Dev} {p : Nat} (hs : d.serves = true) (hp : p < 96) (hf : (d.pane p).fenced = false)
    (pass : Bool) : d.unfenceRun p pass = d ∨ d.unfenceRun p pass = d.noted := by
  have hidle {e : Dev} (he : (e.pane p).fenced = false) : e.unfence p pass = e := if_pos (.inl he)
  unfold Dev.unfenceRun
  split
  · exact .inl (hidle hf)
  · rw [Dev.unfenceWrite_eq hs hp, if_neg (by simp [hf])]
    exact .inr (hidle (by rw [d.pane_noted, hf]))

theorem Dev.rejoinHold_facts (d : Dev) (p : Nat) (failed : Bool) :
    (d.rejoinHold p failed).pipes = d.pipes ∧ (d.rejoinHold p failed).objs = d.objs ∧ d.PaneAlone (d.rejoinHold p failed) p := by
  cases failed with
  | true => exact ⟨rfl, rfl, d.paneAlone_holdPane p false p⟩
  | false => exact ⟨rfl, rfl, fun _ _ => rfl, rfl, rfl⟩

section
variable {d : Dev} {p : Nat} (hf : (d.pane p).fenced = true) (hh : d.halted = false)
include hf hh

/-- A fenced Pane whose test passes is fenced no more. -/
theorem Dev.unfence_pass_facts :
    let t := d.unfence p true
    (t.pane p).fenced = false ∧ (t.pane p).unfencing = false ∧ t.oget (O.SELFTEST_RESULT p) = 1 ∧ d.PaneAlone t p := by
  intro t
  obtain ⟨hpipes, hobjs, halone⟩ := ((d.oput (O.SELFTEST_RESULT p) 1).setPane p
    { d.pane p with fenced := false, unfencing := false, failed := false }).rejoinHold_facts p (d.pane p).failed
  have ht : t = (((d.oput (O.SELFTEST_RESULT p) 1).setPane p
      { d.pane p with fenced := false, unfencing := false, failed := false }).rejoinHold p (d.pane p).failed).testPending p :=
    if_neg (by simp [hf, hh])
  have hstart := ((d.paneAlone_oput (O.SELFTEST_RESULT p) 1 p).trans (Dev.paneAlone_setPane _ p
    { d.pane p with fenced := false, unfencing := false, failed := false })).trans halone
  generalize Dev.rejoinHold _ p (d.pane p).failed = e at *
  obtain ⟨hfenced, hunfencing, hobjs', halone'⟩ := e.testPending_facts p
  have hpane : e.pane p = { d.pane p with fenced := false, unfencing := false, failed := false } := by
    rw [Dev.pane, hpipes]
    exact Dev.pane_setPane _ _ _
  rw [ht]
  refine ⟨by rw [hfenced, hpane], by rw [hunfencing, hpane], ?_, hstart.trans halone'⟩
  rw [Dev.oget, hobjs', hobjs]
  exact Dev.oget_oput d _ 1

/-- A fenced Pane whose test fails stays fenced, and its source is raised. -/
theorem Dev.unfence_fail_facts (hp : p < 96) :
    let t := d.unfence p false
    t.pane p = { d.pane p with unfencing := false } ∧ t.oget (O.SELFTEST_RESULT p) = 2
    ∧ t.fget (F.FC_SRC_COUNT (4 * p + 3)) = satAdd 16 (d.fget (F.FC_SRC_COUNT (4 * p + 3))) 1 ∧ d.PaneAlone t p := by
  intro t
  have ht : t = ((d.oput (O.SELFTEST_RESULT p) 2).setPane p { d.pane p with unfencing := false }).faultRaise (4 * p + 3) 0 false :=
    if_neg (by simp [hf, hh])
  rw [ht]
  refine ⟨?_, ?_, (Dev.fget_faultRaise_pane _ hp 0 false).trans (by rw [Dev.fget_setPane, Dev.fget_oput]),
    ((d.paneAlone_oput (O.SELFTEST_RESULT p) 2 p).trans (Dev.paneAlone_setPane _ p _)).trans
      (Dev.paneAlone_faultRaise _ (4 * p + 3) 0 false p)⟩
  · rw [Dev.pane, Dev.faultRaise_pipes]
    exact Dev.pane_setPane _ _ _
  · rw [Dev.oget_faultRaise_result _ hp, Dev.oget_setPane, Dev.oget_oput]
    rfl

end

/-! ### BANK_UNFENCE (R116, R435) -/

theorem mem_setBits {n w i : Nat} : i ∈ setBits n w ↔ i < w ∧ bitAt n i = true := by
  simp [setBits]

/-- A write to BANK_UNFENCE stores a value, and mirrors it at most. -/
theorem Dev.bankWrite_frame {d : Dev} {c : Nat} (hs : d.serves = true) (hc : c < 4) (v : Byte) :
    ∃ o f, d.dictStore .none (0x5008 + 0x20 * (24 * c)) 3 [v] = { d.noted with objs := o, flds := f } := by
  have hplace : (0x5008 + 0x20 * (24 * c) - 0x5000) / 0x20 = 24 * c ∧ (0x5008 + 0x20 * (24 * c)) % 0x20 = 8 := by omega
  rw [Dev.dictStore_pane (Dev.recovering_of_serves hs) (bankUnfence_row (24 * c) (by omega)) rfl rfl (by decide) (by omega)]
  generalize (if boolObj _ 3 = true then _ else _ : Nat) = v'
  simp only [Dev.writePane, hplace, Nat.mul_mod_right, if_true, Dev.storeValue]
  split <;> exact ⟨_, _, rfl⟩

theorem Dev.lvUnfence_banksOnly (d : Dev) (c b : Nat) (pass : Bool) : d.BanksOnly (d.lvUnfence c b pass) := by
  unfold Dev.lvUnfence
  dsimp only
  split_ifs
  · exact d.setLvBank_banksOnly c b _
  · exact .refl d

/-- The test of a bank returns it unbound where it was fenced and the test passes, and no other bank. -/
theorem Dev.lvBank_lvUnfence (d : Dev) (c b : Nat) (pass : Bool) (c' b' : Nat) : (d.lvUnfence c b pass).lvBank c' b'
    = if 4 * c' + b' = 4 * c + b ∧ pass = true ∧ (d.lvBank c b).fenced = true then { shadow := (d.lvBank c b).shadow }
      else d.lvBank c' b' := by
  unfold Dev.lvUnfence
  dsimp only
  split
  · next h => rw [Dev.lvBank_setLvBank_ite]; simp only [h, and_true]
  · next h => rw [if_neg fun hc => h ⟨hc.2.2, hc.2.1⟩]

/-- The tests of some banks of a Casement. -/
def Dev.lvUnfences (d : Dev) (c pass : Nat) (bs : List Nat) : Dev := bs.foldl (fun d b => d.lvUnfence c b (bitAt pass b)) d

theorem Dev.lvUnfences_banksOnly (d : Dev) (c pass : Nat) (bs : List Nat) : d.BanksOnly (d.lvUnfences c pass bs) :=
  foldl_keeps (fun e => d.BanksOnly e) _ (fun e b he => he.trans (e.lvUnfence_banksOnly c b _)) bs d (.refl d)

theorem Dev.lvBank_lvUnfences (c pass : Nat) (bs : List Nat) (d : Dev) (b : Nat) : (d.lvUnfences c pass bs).lvBank c b
    = if b ∈ bs ∧ bitAt pass b = true ∧ (d.lvBank c b).fenced = true then { shadow := (d.lvBank c b).shadow } else d.lvBank c b := by
  induction bs generalizing d with
  | nil => simp [Dev.lvUnfences]
  | cons a bs ih =>
    have hstep := d.lvBank_lvUnfence c a (bitAt pass a) c b
    rw [show d.lvUnfences c pass (a :: bs) = (d.lvUnfence c a (bitAt pass a)).lvUnfences c pass bs from rfl, ih, hstep]
    by_cases hab : b = a
    · subst hab
      by_cases hback : bitAt pass b = true ∧ (d.lvBank c b).fenced = true
      · simp [hback]
      · simp [hback]
    · simp [hab]

theorem Dev.lvBank_lvUnfences_ne {c pass : Nat} {bs : List Nat} (hbs : ∀ b ∈ bs, b < 4) {a b : Nat} (ha : a ≠ c) (hb : b < 4)
    (d : Dev) : (d.lvUnfences c pass bs).lvBank a b = d.lvBank a b := by
  induction bs generalizing d with
  | nil => rfl
  | cons k bs ih =>
    have hk := hbs k List.mem_cons_self
    refine (ih (fun i hi => hbs i (List.mem_cons_of_mem _ hi)) (d.lvUnfence c k (bitAt pass k))).trans ?_
    rw [Dev.lvBank_lvUnfence, if_neg (by omega)]

theorem bitAt_clear_foldl (l : List Nat) (v i : Nat) :
    bitAt (l.foldl (fun v b => setBit v b false) v) i = (bitAt v i && !l.contains i) := by
  induction l generalizing v with
  | nil => simp
  | cons b l ih =>
    rw [List.foldl_cons, ih, bitAt_setBit]
    by_cases h : i = b <;> simp [h]

/-- The bits of a mask of four, cleared in a value, leave nothing in common with the mask. -/
theorem clear_setBits_and {mask : Nat} (hm : mask < 2 ^ 4) (v w : Nat) :
    ((setBits mask 4).foldl (fun v b => setBit v b false) v % 2 ^ w) &&& mask = 0 := by
  refine Nat.eq_of_testBit_eq fun i => ?_
  rw [Nat.testBit_and, Nat.testBit_mod_two_pow, ← bitAt_eq_testBit, ← bitAt_eq_testBit, bitAt_clear_foldl, Nat.zero_testBit]
  by_cases hbit : bitAt mask i = true
  · have hi : i < 4 := by
      by_contra hge
      rw [bitAt_eq_testBit, Nat.testBit_lt_two_pow (hm.trans_le (Nat.pow_le_pow_right two_pos (Nat.le_of_not_lt hge)))] at hbit
      exact Bool.false_ne_true hbit
    have hmem : i ∈ setBits mask 4 := mem_setBits.mpr ⟨hi, hbit⟩
    simp [hmem]
  · simp [hbit]

/-- What the tests of the banks of a mask leave. -/
theorem Dev.bankUnfence_facts {d : Dev} (hh : d.halted = false) (c : Nat) {mask : Nat} (hm : mask < 2 ^ 4) (pass : Nat) :
    let t := d.bankUnfence c mask pass
    (∀ b, b < 4 → t.lvBank c b = if bitAt mask b = true ∧ bitAt pass b = true ∧ (d.lvBank c b).fenced = true
        then { shadow := (d.lvBank c b).shadow } else d.lvBank c b)
    ∧ (∀ a b, a ≠ c → a < 4 → b < 4 → t.lvBank a b = d.lvBank a b)
    ∧ t.oget (O.BANK_UNFENCE (24 * c)) &&& mask = 0 ∧ t.reacts = d.reacts ∧ t.pipes = d.pipes := by
  intro t
  have ht : t = (d.lvUnfences c pass (setBits mask 4)).oput (O.BANK_UNFENCE (24 * c))
      ((setBits mask 4).foldl (fun v b => setBit v b false) ((d.lvUnfences c pass (setBits mask 4)).oget (O.BANK_UNFENCE (24 * c)))) := by
    simp only [t, Dev.bankUnfence, hh, Bool.false_eq_true, if_false, Dev.lvUnfences]
  rw [ht]
  refine ⟨fun b hb => ?_, fun a b ha _ hb => ?_, ?_, ?_⟩
  · refine (Dev.lvBank_lvUnfences c pass _ d b).trans ?_
    simp only [mem_setBits, hb, true_and]
  · exact Dev.lvBank_lvUnfences_ne (fun i hi => (mem_setBits.mp hi).1) ha hb d
  · rw [Dev.oget_oput]
    exact clear_setBits_and hm _ _
  · obtain ⟨bs, h⟩ := d.lvUnfences_banksOnly c pass (setBits mask 4)
    rw [h]
    exact ⟨rfl, rfl⟩

theorem Dev.bankUnfenceRun_eq {d : Dev} {c : Nat} (hs : d.serves = true) (hc : c < 4) (mask pass : Nat) :
    ∃ e : Dev, e.louvre = d.louvre ∧ e.halted = d.halted ∧ e.reacts = d.reacts ∧ e.pipes = d.pipes
      ∧ d.bankUnfenceRun c mask pass = e.bankUnfence c mask pass := by
  unfold Dev.bankUnfenceRun
  split
  · exact ⟨d, rfl, rfl, rfl, rfl, rfl⟩
  · obtain ⟨o, f, h⟩ := d.bankWrite_frame hs hc (BitVec.ofNat 8 mask)
    rw [h]
    exact ⟨{ d.noted with objs := o, flds := f }, d.noted_frame.louvre, d.noted_frame.halted, d.noted_frame.reacts,
      d.noted_frame.pipes, rfl⟩

/-! ### The obligation -/

/-- Settles O55: a test asked for by whether it begins, a test and an unfence by their outcome, and the banks of a mask by theirs. -/
theorem fencesEndWithATest : Obligations.FencesEndWithATest := by
  intro s p c mask pass hs hp k x free raised alone
  refine ⟨fun hfree => ?_, fun hbusy => ?_, fun hdrain hh hup => ⟨fun hon b => ?_, fun hdrained hreq => ⟨?_, ?_⟩⟩,
    fun hf hh => ⟨?_, ?_⟩, fun hf b => ?_, fun hh => ?_⟩
  · obtain ⟨hpane, hworks, halone, -⟩ := s.dev.asked_facts k
    refine brings_of (f := fun d => d.selfTestWrite k) rfl hs ?_
    rw [Dev.selfTestWrite_eq hs hp, Dev.testPending_of_free (by rw [hpane]) ((s.dev.asked_mayTest k).mpr hfree)]
    obtain ⟨hbegun, hheld, hworks', -, halone'⟩ := (s.dev.asked k).testBegin_facts k
    exact ⟨by rw [hbegun], by rw [hbegun], hheld, hworks'.trans hworks, halone.trans halone'⟩
  · obtain ⟨hpane, hworks, halone, hcalm⟩ := s.dev.asked_facts k
    have hrun : s.dev.selfTestWrite k = s.dev.asked k := by
      rw [Dev.selfTestWrite_eq hs hp, Dev.testPending_of_not_free (mt (s.dev.asked_mayTest k).mp hbusy)]
    refine lands_of (f := fun d => d.selfTestWrite k) rfl hs ?_ fun h => ?_
    · rw [hrun]
      exact ⟨hpane, hworks, halone⟩
    · rw [hrun, hcalm, h]
  · have hrun := Dev.selfTestRun_of_busy hon b
    exact lands_of (f := fun d => d.selfTestRun k b) rfl hs hrun fun h => by rw [hrun, h]
  · obtain ⟨hpane, hheld, hresult, halone, hcalm⟩ := Dev.selfTestRun_pass_facts hdrain hh hup hdrained hreq
    exact lands_of (f := fun d => d.selfTestRun k true) rfl hs ⟨hpane, hheld, hresult, halone⟩ hcalm
  · exact brings_of (f := fun d => d.selfTestRun k false) rfl hs (Dev.selfTestRun_fail_facts hdrain hh hup hdrained hreq hp)
  · obtain ⟨e, hpane, -, hh', halone, hrun⟩ := Dev.unfenceRun_of_fenced hs hp hf hh
    obtain ⟨hfenced, hunfencing, hresult, halone'⟩ := Dev.unfence_pass_facts (by rw [hpane]; exact hf) hh'
    refine brings_of (f := fun d => d.unfenceRun k true) rfl hs ?_
    rw [hrun]
    exact ⟨hfenced, hunfencing, hresult, halone.trans halone'⟩
  · obtain ⟨e, hpane, hflds, hh', halone, hrun⟩ := Dev.unfenceRun_of_fenced hs hp hf hh
    obtain ⟨hstill, hresult, hcount, halone'⟩ := Dev.unfence_fail_facts (by rw [hpane]; exact hf) hh' hp
    refine brings_of (f := fun d => d.unfenceRun k false) rfl hs ?_
    rw [hrun]
    exact ⟨hstill.trans (by rw [hpane]), hresult, hcount.trans (by rw [Dev.fget, hflds, Dev.fget]), halone.trans halone'⟩
  · rcases Dev.unfenceRun_of_unfenced hs hp hf b with hrun | hrun
    · refine lands_of (f := fun d => d.unfenceRun k b) rfl hs ?_ fun h => by rw [hrun, h]
      rw [hrun]
      exact ⟨rfl, fun _ _ => rfl, rfl, rfl⟩
    · refine lands_of (f := fun d => d.unfenceRun k b) rfl hs ?_ fun h => ?_
      · rw [hrun]
        exact ⟨s.dev.noted_frame.pipes, s.dev.paneAlone_noted k⟩
      · rw [hrun, Dev.calm_congr s.dev.noted_frame.reacts s.dev.noted_frame.pipes, h]
  · obtain ⟨e, hlouvre, hhalted, hreacts, hpipes, hrun⟩ := Dev.bankUnfenceRun_eq hs c.isLt mask.toNat pass.toNat
    obtain ⟨hbanks, hothers, hasked, hreacts', hpipes'⟩ := Dev.bankUnfence_facts (hhalted.trans hh) c.toNat mask.isLt pass.toNat
    refine lands_of (f := fun d => d.bankUnfenceRun c.toNat mask.toNat pass.toNat) rfl hs ?_ fun h => ?_
    · simp only [Dev.lvBank_congr hlouvre] at hbanks hothers
      rw [hrun]
      exact ⟨hbanks, hothers, hasked⟩
    · rw [hrun, Dev.calm_congr (hreacts'.trans hreacts) (hpipes'.trans hpipes), h]

end Sys2Proof.Machine

/-! ## Writes to engine memory from outside the Casements (R200, R215) -/

namespace Sys2Proof.Machine

theorem Dev.engByte_of_unimplemented {d : Dev} {a : Nat} (h : d.implemented a = false) : d.engByte a = 0 :=
  if_neg (by simp [h])

theorem Dev.calm_engWrite {d : Dev} (a : Nat) (bs : Bytes) (h : d.calm = true) : (d.engWrite a bs).calm = true :=
  Dev.calm_of_idle (Dev.engWrite_reacts d a bs) (fun _ hq hact => Dev.engWrite_active hq hact) h

/-- Settles O44: memory after the write is memory with its bytes, address by address. -/
theorem outsideWritesReachMemory : Obligations.OutsideWritesReachMemory := by
  intro s addr bytes hs hplain
  have hmem : (s.dev.engWrite addr.toNat bytes).memWith s.dev addr.toNat bytes :=
    Dev.memWith_engWrite hplain rfl (Dev.engWrite_ordering288 ..)
  refine lands_of (f := fun d => d.engWrite addr.toNat bytes) rfl hs
    ⟨fun i hi himp => ?_, fun a ha => ?_, fun a ha => ?_, Dev.engWrite_host .., Dev.engWrite_jamb ..⟩ (Dev.calm_engWrite _ _)
  · rw [hmem, if_pos ⟨by omega, by omega, himp⟩, Nat.add_sub_cancel_left]
  · rw [hmem, if_neg (by omega)]
  · rw [hmem, if_neg (by simp [ha]), Dev.engByte_of_unimplemented ha]

end Sys2Proof.Machine

/-! ## Requests, fills and prefetches of a Sill (R195, R196, R198, R203, R204, R211) -/

namespace Sys2Proof.Machine

/-! ### Counters, banks and sets of a Sill -/

theorem Dev.oget_congr {d e : Dev} (h : e.objs = d.objs) (o : Obj) : e.oget o = d.oget o := by
  rw [Dev.oget, Dev.oget, h]

theorem Dev.sbank_congr {d e : Dev} (h : e.sill = d.sill) (c b : Nat) : e.sbank c b = d.sbank c b := by
  rw [Dev.sbank, Dev.sbank, h]

@[simp] theorem Dev.sbank_fcount (d : Dev) (f : Fld) (n c b : Nat) : (d.fcount f n).sbank c b = d.sbank c b :=
  Dev.sbank_congr (Dev.fcount_sill ..) c b

@[simp] theorem Dev.sbank_fcount64 (d : Dev) (lo hi : Fld) (n c b : Nat) : (d.fcount64 lo hi n).sbank c b = d.sbank c b :=
  Dev.sbank_congr (Dev.fcount64_sill ..) c b

@[simp] theorem Dev.sbank_ocount (d : Dev) (o : Obj) (n c b : Nat) : (d.ocount o n).sbank c b = d.sbank c b :=
  Dev.sbank_congr (Dev.ocount_sill ..) c b

/-- The banks of a Sill after one of them is put. -/
theorem Dev.sbank_setSbank (d : Dev) (c b b' : Nat) (x : SBank) :
    (d.setSbank c b x).sbank c b' = if b' = b then x else d.sbank c b' := by
  split
  · next h => rw [h]; exact Sparse.get_set_self ..
  · exact Sparse.get_set_ne _ _ _ _ (by unfold bankKey; omega)

@[simp] theorem Dev.sbank_setSbank_self (d : Dev) (c b : Nat) (x : SBank) : (d.setSbank c b x).sbank c b = x := by
  rw [Dev.sbank_setSbank, if_pos rfl]

/-- The bank of the same number in another Sill. -/
theorem Dev.sbank_setSbank_away (d : Dev) {c c' : Nat} (b : Nat) (x : SBank) (h : c' ≠ c) :
    (d.setSbank c b x).sbank c' b = d.sbank c' b :=
  Sparse.get_set_ne _ _ _ _ (by unfold bankKey; omega)

/-- The set of a line in Casement c's Sill. -/
def Dev.lineSet (d : Dev) (c line : Nat) : SSet := Sparse.get {} (d.sbank c (sillBank line)).sets (sillSet line)

theorem Dev.lineSet_congr {d e : Dev} {c line : Nat} (h : (e.sbank c (sillBank line)).sets = (d.sbank c (sillBank line)).sets) :
    e.lineSet c line = d.lineSet c line := by
  rw [Dev.lineSet, Dev.lineSet, h]

/-- One more miss register stands in a line's bank on `e` than on `d`. -/
def Dev.TakesRegister (d e : Dev) (c line : Nat) (reqs : List SReq) (prefetch : Bool) : Prop :=
  ∃ x : MissReg, x.line = line ∧ x.reqs = reqs ∧ x.prefetch = prefetch
    ∧ (e.sbank c (sillBank line)).mrs = (d.sbank c (sillBank line)).mrs ++ [x]

theorem Dev.TakesRegister.congr {d d' e e' : Dev} {c line : Nat} {reqs : List SReq} {prefetch : Bool}
    (h : d.TakesRegister e c line reqs prefetch) (hd : (d'.sbank c (sillBank line)).mrs = (d.sbank c (sillBank line)).mrs)
    (he : (e'.sbank c (sillBank line)).mrs = (e.sbank c (sillBank line)).mrs) : d'.TakesRegister e' c line reqs prefetch := by
  obtain ⟨x, hline, hreqs, hprefetch, hmrs⟩ := h
  exact ⟨x, hline, hreqs, hprefetch, by rw [he, hmrs, hd]⟩

/-! ### Copies of a line -/

theorem Dev.sillCopy_of_find {d : Dev} {c line w : Nat} {l : SLine}
    (h : (d.lineSet c line).find line = some (w, l)) : d.sillCopy c line = some l := by
  rw [Dev.lineSet] at h
  simp [Dev.sillCopy, h]

theorem Dev.takeCopy_of_none {d : Dev} {c line : Nat} (h : d.sillCopy c line = none) : d.takeCopy c line = none := by
  simp only [Dev.sillCopy, Option.or_eq_none_iff, Option.map_eq_none_iff] at h
  obtain ⟨hset, hvictims, hwbuf⟩ := h
  simp only [Dev.takeCopy, hset, hvictims, hwbuf]

/-! ### Prefetch streams (R203) -/

/-- Device `e` is `d` but for the prefetch streams of Casement `c`'s Sill. -/
structure Dev.MovesStreams (d e : Dev) (c : Nat) : Prop where
  rest : ∃ t, e = { d with sill := t }
  bank : ∀ b, ∃ p, e.sbank c b = { d.sbank c b with streams := p }

theorem Dev.MovesStreams.refl (d : Dev) (c : Nat) : d.MovesStreams d c := ⟨⟨_, rfl⟩, fun _ => ⟨_, rfl⟩⟩

theorem Dev.MovesStreams.trans {d e t : Dev} {c : Nat} (h : d.MovesStreams e c) (k : e.MovesStreams t c) : d.MovesStreams t c := by
  refine ⟨?_, fun b => ?_⟩
  · obtain ⟨x, rfl⟩ := h.rest
    obtain ⟨y, rfl⟩ := k.rest
    exact ⟨y, rfl⟩
  · obtain ⟨p, hp⟩ := h.bank b
    obtain ⟨r, hr⟩ := k.bank b
    exact ⟨r, by rw [hr, hp]⟩

theorem Dev.movesStreams_setSbank (d : Dev) (c b : Nat) (p : List PfStream) :
    d.MovesStreams (d.setSbank c b { d.sbank c b with streams := p }) c := by
  refine ⟨⟨_, rfl⟩, fun b' => ?_⟩
  rw [Dev.sbank_setSbank]
  split
  · next h => exact ⟨p, by rw [h]⟩
  · exact ⟨_, rfl⟩

theorem Dev.newStream_moves (d : Dev) (c line : Nat) (p : PfStream) : d.MovesStreams (d.newStream c line p) c :=
  d.movesStreams_setSbank ..

theorem Dev.declareStream_moves (d : Dev) (c owner line limit : Nat) : d.MovesStreams (d.declareStream c owner line limit) c := by
  unfold Dev.declareStream
  dsimp only
  split
  · exact d.newStream_moves ..
  · split
    · exact .refl d c
    · exact d.movesStreams_setSbank ..

theorem Dev.trainStream_moves (d : Dev) (c owner line : Nat) : d.MovesStreams (d.trainStream c owner line) c := by
  unfold Dev.trainStream
  dsimp only
  split
  · split
    · exact .refl d c
    · exact d.movesStreams_setSbank ..
  · split
    · exact .refl d c
    · exact d.movesStreams_setSbank ..
  · exact d.newStream_moves ..

/-- A stream holds no line. -/
theorem Dev.MovesStreams.sillHolds {d e : Dev} {c : Nat} (h : d.MovesStreams e c) (line : Nat) :
    e.sillHolds c line = d.sillHolds c line := by
  obtain ⟨p, hp⟩ := h.bank (sillBank line)
  rw [Dev.sillHolds, hp]
  rfl

/-! ### Readers of poison (R211) -/

theorem Dev.failReaders_ends (v : Dev × List Nat) : v.1.EndsRuns (Dev.failReaders v) :=
  Dev.endsRuns_foldl (fun d o => d.failCtx_ends (o / 1024) 0x0703) v.2 v.1

theorem Dev.failCtx_of_live {d : Dev} {c : Nat} (st : Nat) (h : (d.ctx c).live = true) : ((d.failCtx c st).ctx c).ending = some st := by
  simp only [Ctx.live, Bool.and_eq_true, Bool.or_eq_true, Option.isNone_iff_eq_none] at h
  obtain ⟨hstate, hending⟩ := h
  have hactive : (d.ctx c).active = true := by
    rcases hstate with h2 | h4
    · simp [Ctx.active, h2]
    · simp [Ctx.active, h4]
  rw [(Dev.failCtx_moves st hactive hending).self]

/-- What stands in a bank, the counters and both memories once streams have moved and readers have failed. -/
theorem Dev.MovesStreams.then_ends {d e t : Dev} {c : Nat} (h : d.MovesStreams e c) (k : e.EndsRuns t) :
    (∀ line, t.lineSet c line = d.lineSet c line) ∧ (∀ b, (t.sbank c b).mrs = (d.sbank c b).mrs) ∧ t.objs = d.objs
      ∧ t.mem = d.mem ∧ t.host = d.host := by
  obtain ⟨p, b, g, n, rfl⟩ := k
  have hbank (b' : Nat) : ∃ x, Dev.sbank { e with pipes := p, bifold := b, hinge := g, net := n } c b'
      = { d.sbank c b' with streams := x } := h.bank b'
  refine ⟨fun line => Dev.lineSet_congr ?_, fun b' => ?_, ?_⟩
  · obtain ⟨x, hx⟩ := hbank (sillBank line)
    rw [hx]
  · obtain ⟨x, hx⟩ := hbank b'
    rw [hx]
  · obtain ⟨x, rfl⟩ := h.rest
    exact ⟨rfl, rfl, rfl⟩

/-! ### A request that is served (R198) -/

theorem Dev.retryWaiting_of_nil {d : Dev} {c b : Nat} (h : (d.sbank c b).waiting = []) : d.retryWaiting c b = (d, []) :=
  if_pos h

theorem Dev.request_of_serve {d e : Dev} {c line : Nat} {cls : SClass} {q : SReq} (h : d.serve c line cls q = some e)
    (declared : Bool) :
    ∃ t, e.MovesStreams t c ∧ d.request c line cls q declared = some (t, (d.sillCopy c line).elim [] q.meets) := by
  rw [Dev.request, h, Option.map_some]
  refine ⟨_, ?_, congrArg (fun x => some (_, x)) ?_⟩
  · split
    · exact e.trainStream_moves ..
    · exact .refl e c
  · cases d.sillCopy c line <;> rfl

/-! ### Hits (R195, R196, R204) -/

section
variable (d : Dev) (c : Nat) (used : Bool)

@[simp] theorem Dev.hitCount_sill : (d.hitCount c used).sill = d.sill := by
  unfold Dev.hitCount
  cases used <;> simp

@[simp] theorem Dev.hitCount_pipes : (d.hitCount c used).pipes = d.pipes := by
  unfold Dev.hitCount
  cases used <;> simp

@[simp] theorem Dev.hitCount_mem : (d.hitCount c used).mem = d.mem := by
  unfold Dev.hitCount
  cases used <;> simp

@[simp] theorem Dev.hitCount_host : (d.hitCount c used).host = d.host := by
  unfold Dev.hitCount
  cases used <;> simp

@[simp] theorem Dev.sbank_hitCount (b : Nat) : (d.hitCount c used).sbank c b = d.sbank c b :=
  Dev.sbank_congr (d.hitCount_sill c used) c b

@[simp] theorem Dev.oget_hitCount :
    (d.hitCount c used).oget O.SILL_HITS = (d.oget O.SILL_HITS + 1) % 2 ^ (8 * O.SILL_HITS.size) := by
  unfold Dev.hitCount
  dsimp only
  split
  · rw [Dev.oget_ocount_ne _ _ (by decide), Dev.oget_fcount, Dev.oget_ocount, Dev.oget_fcount64]
  · rw [Dev.oget_ocount, Dev.oget_fcount64]

end

theorem Dev.hit_facts (d : Dev) (c line w : Nat) (l : SLine) (q : SReq) :
    Sparse.get none ((d.hit c line w l q).lineSet c line).ways w = some (({ l with prefetched := false }).write q)
      ∧ ((d.hit c line w l q).sbank c (sillBank line)).mrs = (d.sbank c (sillBank line)).mrs
      ∧ (d.hit c line w l q).oget O.SILL_HITS = (d.oget O.SILL_HITS + 1) % 2 ^ (8 * O.SILL_HITS.size)
      ∧ (d.hit c line w l q).pipes = d.pipes ∧ (d.hit c line w l q).mem = d.mem ∧ (d.hit c line w l q).host = d.host := by
  simp [Dev.hit, Dev.lineSet, SSet.put]

theorem Dev.serve_of_find {d : Dev} {c line w : Nat} {l : SLine}
    (h : (d.lineSet c line).find line = some (w, l)) (cls : SClass) (q : SReq) :
    d.serve c line cls q = some (d.hit c line w l q) := by
  rw [Dev.lineSet] at h
  simp only [Dev.serve, h]

/-! ### Misses (R198) -/

/-- Asking for a fill: the register says how far it has come, and a controller's queue may hold it. -/
theorem Dev.issueFill_facts (d : Dev) (c : Nat) (r : MissReg) :
    ((d.issueFill c r).1.line = r.line ∧ (d.issueFill c r).1.reqs = r.reqs ∧ (d.issueFill c r).1.prefetch = r.prefetch)
    ∧ ∃ banks, (d.issueFill c r).2 = { d with mem := { d.mem with banks := banks } } := by
  unfold Dev.issueFill Dev.mcEnter
  dsimp only
  split
  · next v hv =>
    split at hv
    · cases hv
    · obtain rfl := Option.some.inj hv
      refine ⟨⟨rfl, rfl, rfl⟩, ?_⟩
      split
      · exact ⟨_, rfl⟩
      · exact ⟨_, rfl⟩
  · exact ⟨⟨rfl, rfl, rfl⟩, _, rfl⟩

theorem Dev.missAdd_facts (d : Dev) (c : Nat) (r : MissReg) :
    d.TakesRegister (d.missAdd c r) c r.line r.reqs r.prefetch
    ∧ (d.missAdd c r).objs = d.objs ∧ (d.missAdd c r).mem.cells = d.mem.cells ∧ (d.missAdd c r).host = d.host := by
  obtain ⟨⟨hline, hreqs, hprefetch⟩, banks, hfill⟩ := d.issueFill_facts c r
  unfold Dev.missAdd
  refine ⟨⟨_, hline, hreqs, hprefetch, ?_⟩, ?_, ?_, ?_⟩
  · rw [Dev.sbank_setSbank_self, hfill]
    rfl
  all_goals simp [hfill]

theorem Dev.serve_of_miss {d : Dev} {c line : Nat} {q : SReq}
    (hfind : (d.lineSet c line).find line = none)
    (hrecall : (d.sbank c (sillBank line)).recallable line = false)
    (hmrs : ∀ r ∈ (d.sbank c (sillBank line)).mrs, r.line ≠ line) (hwhole : q.whole = false)
    (hroom : (d.sbank c (sillBank line)).mrs.length < 16) (cls : SClass) :
    ∃ e, d.serve c line cls q = some e ∧ d.TakesRegister e c line [q] false
      ∧ e.oget O.SILL_MISSES = (d.oget O.SILL_MISSES + 1) % 2 ^ (8 * O.SILL_MISSES.size)
      ∧ e.mem.cells = d.mem.cells ∧ e.host = d.host := by
  have hmerge : (d.sbank c (sillBank line)).mrs.find? (fun r => r.line = line ∧ r.held = []) = none :=
    List.find?_eq_none.mpr fun r hr => by simp [hmrs r hr]
  obtain ⟨hadded, hobjs, hcells, hhost⟩ := d.missAdd_facts c { line := line, cls := cls, reqs := [q] }
  refine ⟨((d.missAdd c { line := line, cls := cls, reqs := [q] }).fcount64 (F.SL_MISS_LO_COUNT c) (F.SL_MISS_HI_COUNT c) 1).ocount
    O.SILL_MISSES 1, ?_, hadded.congr rfl (by rw [Dev.sbank_ocount, Dev.sbank_fcount64]), ?_, ?_, ?_⟩
  · rw [Dev.lineSet] at hfind
    simp only [Dev.serve, hfind, hrecall, hmerge, hwhole, Bool.false_eq_true, if_false, Nat.not_le.mpr hroom]
  · rw [Dev.oget_ocount, Dev.oget_fcount64, Dev.oget_congr hobjs]
  · simp [hcells]
  · simp [hhost]

/-! ### SILL_REQUEST -/

section
variable {d : Dev} {c line : Nat} {q : SReq} (hup : d.casUp c = true) (hh : d.halted = false)
  (himp : d.implemented (line * 128) = true) (hwait : (d.sbank c (sillBank line)).waiting = []) (herr : d.sillInjected c = none)
include hup hh himp hwait herr

/-- A request that meets no error and no request that waits: streams apart, the device is as its service leaves it. -/
theorem Dev.sillRequest_of_serve {e : Dev} {cls : SClass}
    (hserve : d.serve c line (if q.write = [] then cls else .table) q = some e) (limit : Option Nat) :
    ∃ t, e.MovesStreams t c
      ∧ d.sillRequest c q.owner q.pane line cls limit q.write none = (t, (d.sillCopy c line).elim [] q.meets) := by
  obtain ⟨t, ht, hreq⟩ := Dev.request_of_serve hserve limit.isSome
  rw [Dev.sillRequest, if_neg (by simp [hup, hh, himp])]
  simp only [Dev.retryWaiting_of_nil hwait, herr, ite_self, hreq, List.nil_append]
  cases limit with
  | none => exact ⟨t, ht, rfl⟩
  | some stop => exact ⟨_, ht.trans (t.declareStream_moves c q.owner line stop), rfl⟩

/-- A request for a line of a set: the line as it serves it, and the pipeline that asked where it reads poison. -/
theorem Dev.sillRequest_of_hit {w : Nat} {l : SLine}
    (hfind : (d.lineSet c line).find line = some (w, l)) (cls : SClass)
    (limit : Option Nat) :
    ∃ u, Dev.failReaders (d.sillRequest c q.owner q.pane line cls limit q.write none) = u
      ∧ Sparse.get none (u.lineSet c line).ways w = some (({ l with prefetched := false }).write q)
      ∧ (u.sbank c (sillBank line)).mrs = (d.sbank c (sillBank line)).mrs
      ∧ u.oget O.SILL_HITS = (d.oget O.SILL_HITS + 1) % 2 ^ (8 * O.SILL_HITS.size)
      ∧ (q.write = [] → l.poison ≠ 0 → (d.ctx (q.owner / 1024)).live = true → (u.ctx (q.owner / 1024)).ending = some 0x0703)
      ∧ u.mem = d.mem ∧ u.host = d.host := by
  obtain ⟨t, ht, hreq⟩ := Dev.sillRequest_of_serve (cls := cls) hup hh himp hwait herr (Dev.serve_of_find hfind _ q) limit
  obtain ⟨hway, hmrs, hcount, hpipes, hmem, hhost⟩ := d.hit_facts c line w l q
  rw [Dev.sillCopy_of_find hfind] at hreq
  obtain ⟨hset', hmrs', hobjs', hmem', hhost'⟩ := ht.then_ends (Dev.failReaders_ends (t, q.meets l))
  refine ⟨_, congrArg Dev.failReaders hreq, ?_, (hmrs' _).trans hmrs, (Dev.oget_congr hobjs' _).trans hcount,
    fun hread hpoison hlive => ?_, hmem'.trans hmem, hhost'.trans hhost⟩
  · rw [Option.elim_some, hset', hway]
  · have hmeets : q.meets l = [q.owner] := if_pos ⟨hread, hpoison⟩
    have hctx : t.ctx (q.owner / 1024) = d.ctx (q.owner / 1024) := by
      obtain ⟨x, rfl⟩ := ht.rest
      exact Dev.ctx_congr (congrArg Pipes.ctxs hpipes) _
    rw [Option.elim_some, hmeets]
    exact Dev.failCtx_of_live 0x0703 (by rw [hctx]; exact hlive)

theorem Dev.sillRequest_of_miss
    (hfind : (d.lineSet c line).find line = none)
    (hrecall : (d.sbank c (sillBank line)).recallable line = false)
    (hmrs : ∀ r ∈ (d.sbank c (sillBank line)).mrs, r.line ≠ line) (hwhole : q.whole = false)
    (hroom : (d.sbank c (sillBank line)).mrs.length < 16) (cls : SClass) (limit : Option Nat) :
    ∃ u, Dev.failReaders (d.sillRequest c q.owner q.pane line cls limit q.write none) = u
      ∧ d.TakesRegister u c line [q] false
      ∧ u.oget O.SILL_MISSES = (d.oget O.SILL_MISSES + 1) % 2 ^ (8 * O.SILL_MISSES.size)
      ∧ u.mem.cells = d.mem.cells ∧ u.host = d.host := by
  obtain ⟨e, hserve, hadded, hcount, hcells, hhost⟩ := Dev.serve_of_miss hfind hrecall hmrs hwhole hroom _
  obtain ⟨t, ht, hreq⟩ := Dev.sillRequest_of_serve (cls := cls) hup hh himp hwait herr hserve limit
  obtain ⟨-, hmrs', hobjs', hmem', hhost'⟩ := ht.then_ends (Dev.failReaders_ends (t, _))
  exact ⟨_, congrArg Dev.failReaders hreq, hadded.congr rfl (hmrs' _), (Dev.oget_congr hobjs' _).trans hcount,
    (congrArg Mem.cells hmem').trans hcells, hhost'.trans hhost⟩

end

/-! ### Lines that are installed (R195, R199, R200) -/

theorem SBank.evict_of_room {k : SBank} (h : k.wbuf.length < 16) (l : SLine) :
    ∃ v w, k.evict l = some { k with victims := v, wbuf := w } := by
  unfold SBank.evict
  split
  · exact ⟨_, _, rfl⟩
  · rw [if_neg (Nat.not_le.mpr h)]
    exact ⟨_, _, rfl⟩

/-- The line of an outside write leaves the other Sills' banks of its number as they are. -/
theorem Dev.sbank_sillSnoop_away (d : Dev) {c k : Nat} (line : Nat) (h : c ≠ k) :
    (d.sillSnoop k line).sbank c (sillBank line) = d.sbank c (sillBank line) := by
  unfold Dev.sillSnoop
  dsimp only
  rw [Dev.sbank_setSbank_away _ _ _ h]
  refine Dev.sbank_congr ?_ c _
  repeat' split
  all_goals simp

theorem Dev.sbank_writeBack (d : Dev) (c : Nat) (l : SLine) :
    (d.writeBack c l).sbank c (sillBank l.line) = d.sbank c (sillBank l.line) := by
  rw [Dev.writeBack, Dev.sbank_ocount, Dev.writeOut, Dev.sbank_congr (Dev.writeLine_sill ..)]
  refine foldl_keeps (fun e : Dev => e.sbank c (sillBank l.line) = d.sbank c (sillBank l.line)) _ (fun e k he => ?_) _ d rfl
  split
  · next h => rw [Dev.sbank_sillSnoop_away _ _ h.1.symm, he]
  · exact he

/-- With room in the write-back buffer a line finds its place, where its class has ways; else its dirty words go to memory. -/
theorem Dev.install_of_room {d : Dev} {c : Nat} {l : SLine} (h : (d.sbank c (sillBank l.line)).wbuf.length < 16) (cls : SClass) :
    ∃ e, d.install c cls l = some e ∧ (e.sbank c (sillBank l.line)).mrs = (d.sbank c (sillBank l.line)).mrs
      ∧ (e.sbank c (sillBank l.line)).waiting = (d.sbank c (sillBank l.line)).waiting ∧ e.host = d.host
      ∧ (d.ways c cls ≠ 0 → e.mem = d.mem
        ∧ ∃ w, Sparse.get none (e.lineSet c l.line).ways w = some l) := by
  unfold Dev.install
  dsimp only
  by_cases hways : d.ways c cls = 0
  · rw [if_pos hways]
    split
    · exact ⟨d, rfl, rfl, rfl, rfl, fun hne => absurd hways hne⟩
    · exact ⟨_, rfl, by rw [Dev.sbank_writeBack], by rw [Dev.sbank_writeBack], Dev.writeBack_host .., fun hne => absurd hways hne⟩
  · rw [if_neg hways]
    have hput (k : SBank) := Dev.sbank_setSbank_self d c (sillBank l.line) k
    cases hold : Sparse.get none (Sparse.get {} (d.sbank c (sillBank l.line)).sets (sillSet l.line)).ways
        ((Sparse.get {} (d.sbank c (sillBank l.line)).sets (sillSet l.line)).take (d.ways c cls)) with
    | none =>
      exact ⟨_, rfl, by rw [hput], by rw [hput], rfl,
        fun _ => ⟨rfl, _, by rw [Dev.lineSet, hput, Sparse.get_set_self, Sparse.get_set_self]⟩⟩
    | some old =>
      obtain ⟨v, w, hevict⟩ := SBank.evict_of_room h old
      simp only [hevict]
      exact ⟨_, rfl, by rw [hput], by rw [hput], rfl,
        fun _ => ⟨rfl, _, by rw [Dev.lineSet, hput, Sparse.get_set_self, Sparse.get_set_self]⟩⟩

/-! ### Fills that land (R198) -/

/-- The line that a register's fill brings, with what its merged requests write. -/
def MissReg.landed (r : MissReg) (line : Nat) : SLine :=
  r.reqs.foldl (fun l q => l.write q)
    { line := line, data := fit 128 (r.fill.getD ([], 0)).1, poison := (r.fill.getD ([], 0)).2
      prefetched := r.prefetch && r.reqs.isEmpty }

theorem MissReg.landed_line (r : MissReg) (line : Nat) : (r.landed line).line = line :=
  foldl_keeps (fun l : SLine => l.line = line) (fun l q => l.write q) (fun _ _ h => h) r.reqs _ rfl

/-- The class in which a register's line is installed: written lines are TABLE. -/
def MissReg.landedClass (r : MissReg) : SClass := if r.reqs.any (fun q => q.write ≠ []) then .table else r.cls

theorem SLine.foldl_write_fst (reqs : List SReq) (l : SLine) (bad : List Nat) :
    (reqs.foldl (fun (a : SLine × List Nat) q => (a.1.write q, a.2 ++ q.meets a.1)) (l, bad)).1
      = reqs.foldl (fun l q => l.write q) l :=
  (List.foldl_hom Prod.fst fun _ _ => rfl).symm

section
variable (d : Dev)

@[simp] theorem Dev.maintEnd_sill : d.maintEnd.sill = d.sill := by
  rw [Dev.maintEnd, foldl_sill _ _ _ fun e m => Dev.finish_sill ..]

@[simp] theorem Dev.maintEnd_mem : d.maintEnd.mem = d.mem := by
  rw [Dev.maintEnd, foldl_mem _ _ _ fun e m => Dev.finish_mem ..]

@[simp] theorem Dev.maintEnd_host : d.maintEnd.host = d.host := by
  rw [Dev.maintEnd, foldl_host _ _ _ fun e m => Dev.finish_host ..]

end

/-- A served fill of a line that its Sill holds nowhere else, without held operations or requests that wait. -/
theorem Dev.fillLand_of_install {d e : Dev} {c line : Nat} {r : MissReg}
    (hr : (d.sbank c (sillBank line)).mrs.find? (fun r => r.line = line ∧ r.served) = some r) (hheld : r.held = [])
    (hcopy : d.sillCopy c line = none) (hinstall : d.install c r.landedClass (r.landed line) = some e)
    (hwait : (e.sbank c (sillBank line)).waiting = []) :
    ∃ bad, d.fillLand c line = ((e.setSbank c (sillBank line) { e.sbank c (sillBank line) with
      mrs := (e.sbank c (sillBank line)).mrs.erase r }).maintEnd, bad) := by
  rw [MissReg.landedClass, MissReg.landed] at hinstall
  unfold Dev.fillLand
  simp only [hr, hheld, Dev.takeCopy_of_none hcopy, Option.getD_none, List.foldl_nil, SLine.foldl_write_fst, hinstall]
  rw [Dev.retryWaiting_of_nil (by rw [Dev.sbank_setSbank_self]; exact hwait)]
  exact ⟨_, rfl⟩

theorem Dev.fillLand_facts {d : Dev} {c line : Nat} {r : MissReg}
    (hr : (d.sbank c (sillBank line)).mrs.find? (fun r => r.line = line ∧ r.served) = some r) (hheld : r.held = [])
    (hroom : (d.sbank c (sillBank line)).wbuf.length < 16) (hcopy : d.sillCopy c line = none)
    (hwait : (d.sbank c (sillBank line)).waiting = []) :
    ((d.fillLand c line).1.sbank c (sillBank line)).mrs = (d.sbank c (sillBank line)).mrs.erase r
    ∧ (d.fillLand c line).1.host = d.host
    ∧ (d.ways c r.landedClass ≠ 0 → (d.fillLand c line).1.mem = d.mem
      ∧ ∃ w, Sparse.get none ((d.fillLand c line).1.lineSet c line).ways w = some (r.landed line)) := by
  obtain ⟨e, hinstall, hmrs, hwaiting, hhost, hplace⟩ :=
    Dev.install_of_room (l := r.landed line) ((r.landed_line line).symm ▸ hroom) r.landedClass
  rw [r.landed_line] at hmrs hwaiting hplace
  obtain ⟨bad, hland⟩ := Dev.fillLand_of_install hr hheld hcopy hinstall (hwaiting.trans hwait)
  have hbank := (Dev.sbank_congr (Dev.maintEnd_sill _) c (sillBank line)).trans (e.sbank_setSbank_self c (sillBank line)
    { e.sbank c (sillBank line) with mrs := (e.sbank c (sillBank line)).mrs.erase r })
  rw [hland]
  refine ⟨by rw [hbank, hmrs], by simp [hhost], fun hways => ?_⟩
  obtain ⟨hmem, w, hw⟩ := hplace hways
  exact ⟨by simp [hmem], w, by rw [Dev.lineSet_congr (d := e) (by rw [hbank]), hw]⟩

/-! ### Prefetches (R203, R204) -/

section
variable {d : Dev} {c b i line : Nat} {v : PfStream} (hv : (d.sbank c b).streams[i]? = some v)
  (hen : d.fgetB (F.SL_CTL_PF_EN c) = true) (hup : d.casUp c = true) (hh : d.halted = false)
  (htarget : v.target (d.pfDistance c) (d.pfConfirm c) = some line) (hholds : d.sillHolds c line = false)
  (himp : d.implemented (line * 128) = true)
  (hlimit : ((d.sbank c (sillBank line)).mrs.filter MissReg.prefetch).length < d.pfLimit c)
  (hroom : (d.sbank c (sillBank line)).mrs.length < 16)
include hv hen hup hh htarget hholds himp hlimit hroom

theorem Dev.sillPrefetch_eq :
    ∃ e, d.MovesStreams e c ∧ d.sillPrefetch c b i
      = ((e.missAdd c { line := line, cls := if v.declared then .stream else .table, prefetch := true }).fcount
        (F.SL_PF_ISSUED c) 1).ocount O.SILL_PF_ISSUED 1 := by
  obtain ⟨e, he⟩ : ∃ e, e = d.setSbank c b { d.sbank c b with
    streams := (d.sbank c b).streams.set i { v with ahead := v.ahead + 1 } } := ⟨_, rfl⟩
  have hmoves : d.MovesStreams e c := he ▸ d.movesStreams_setSbank ..
  have hlimit_e : e.pfLimit c = d.pfLimit c := by rw [he]; rfl
  have himp_e : e.implemented (line * 128) = true := by rw [he]; exact himp
  obtain ⟨p, hbank⟩ := hmoves.bank (sillBank line)
  refine ⟨e, hmoves, ?_⟩
  rw [Dev.sillPrefetch]
  simp only [hv, htarget]
  rw [if_neg (by simp [hen, hup, hh]), ← he, if_neg]
  simp [hmoves.sillHolds, hholds, hbank, hlimit_e, himp_e, hlimit, hroom]

theorem Dev.sillPrefetch_facts :
    d.TakesRegister (d.sillPrefetch c b i) c line [] true
    ∧ (d.sillPrefetch c b i).oget O.SILL_PF_ISSUED = (d.oget O.SILL_PF_ISSUED + 1) % 2 ^ (8 * O.SILL_PF_ISSUED.size)
    ∧ (d.sillPrefetch c b i).mem.cells = d.mem.cells ∧ (d.sillPrefetch c b i).host = d.host := by
  obtain ⟨e, he, hrun⟩ := Dev.sillPrefetch_eq hv hen hup hh htarget hholds himp hlimit hroom
  obtain ⟨hadded, hobjs, hcells, hhost⟩ :=
    e.missAdd_facts c { line := line, cls := if v.declared then .stream else .table, prefetch := true }
  obtain ⟨-, hmrs', hobjs', hmem', hhost'⟩ := he.then_ends (.refl e)
  rw [hrun]
  refine ⟨hadded.congr (hmrs' _).symm (by rw [Dev.sbank_ocount, Dev.sbank_fcount]), ?_, ?_, ?_⟩
  · rw [Dev.oget_ocount, Dev.oget_fcount, Dev.oget_congr hobjs, Dev.oget_congr hobjs']
  · simp [hcells, hmem']
  · simp [hhost, hhost']

end

/-! ### The obligation -/

/-- Settles O43: a hit and a miss by how the request is served, streams and failing readers apart; a fill by its line's place; a
prefetch by its register. -/
theorem sillServesRequests : Obligations.SillServesRequests := by
  intro s c ctx node p line cls limit write b k set q hs hup hh hwait
  have hexec : exec (.sillRequest c ctx node p line cls limit write none) s = serve s (fun d => Dev.failReaders
      (d.sillRequest c.toNat q.owner q.pane line.toNat cls (limit.map BitVec.toNat) q.write none)) := rfl
  refine ⟨fun himp herr => ⟨fun w l hfind => ?_, fun hfind hrecall hmrs hwhole hroom => ?_⟩, fun r hr hheld hroom hcopy => ?_,
    fun bank i v next hv hen htarget hholds himp hlimit hroom => ?_⟩
  · obtain ⟨u, hu, hway, hmrs, hcount, hfail, hmem, hhost⟩ :=
      Dev.sillRequest_of_hit (q := q) hup hh himp hwait herr hfind cls (limit.map BitVec.toNat)
    have howner : q.owner / 1024 = ctx.toNat := by simp only [q]; omega
    rw [howner] at hfail
    refine brings_of hexec hs ?_
    rw [hu]
    exact ⟨hway, hmrs, hcount, fun hread => hfail (congrArg (List.map _) hread), hmem, hhost⟩
  · obtain ⟨u, hu, ⟨x, hline, hreqs, hprefetch, hadded⟩, hcount, hcells, hhost⟩ :=
      Dev.sillRequest_of_miss (q := q) hup hh himp hwait herr hfind hrecall hmrs hwhole hroom cls (limit.map BitVec.toNat)
    refine brings_of hexec hs ?_
    rw [hu, hadded]
    exact ⟨⟨x, List.mem_append_right _ (List.mem_singleton_self x), hline, hreqs, hprefetch⟩, List.length_append, hcount, hcells,
      hhost⟩
  · obtain ⟨hmrs, hhost, hplace⟩ := Dev.fillLand_facts hr hheld hroom hcopy hwait
    obtain ⟨hset', hmrs', -, hmem', hhost'⟩ := (Dev.MovesStreams.refl _ c.toNat).then_ends
      (Dev.failReaders_ends (s.dev.fillLand c.toNat line.toNat))
    refine brings_of (f := fun d => Dev.failReaders (d.fillLand c.toNat line.toNat)) rfl hs
      ⟨(hmrs' _).trans hmrs, hhost'.trans hhost, fun hways => ?_⟩
    obtain ⟨hmem, hline⟩ := hplace hways
    rw [← hset'] at hline
    exact ⟨hmem'.trans hmem, hline⟩
  · obtain ⟨⟨x, hline, hreqs, hprefetch, hadded⟩, hcount, hcells, hhost⟩ :=
      Dev.sillPrefetch_facts hv hen hup hh htarget hholds himp hlimit hroom
    refine brings_of (f := fun d => d.sillPrefetch c.toNat bank.toNat i.toNat) rfl hs ?_
    rw [hadded]
    exact ⟨⟨x, List.mem_append_right _ (List.mem_singleton_self x), hline, hprefetch, hreqs⟩, hcount, hcells, hhost⟩

end Sys2Proof.Machine

/-! ## Memory keeps its canonical form (R215, R231, R427) -/

namespace Sys2Proof.Machine

/-! ### The ways of answering -/

/-- Memory has its canonical form in the state that a command is answered with, where it is answered with one. -/
def CanonicalAfter (o : Host.Outcome State Fault Refusal) : Prop := ∀ t, o = .next t → Memory.wf t.dev = true

theorem canonicalAfter_next {t : State} (h : Memory.wf t.dev = true) : CanonicalAfter (.next t) := by
  rintro _ ⟨⟩
  exact h

/-- A happening that the device meets in every state, and what follows it. -/
theorem settled_canonical {s : State} {d : Dev} (h : Memory.wf d = true) :
    CanonicalAfter (.next { s with dev := d.settle }) := canonicalAfter_next (d.settle_wf h)

theorem canonicalAfter_unlessTest (s : State) {d : Dev} (h : Memory.wf d = true) : CanonicalAfter (unlessTest s d) := by
  unfold unlessTest
  split
  · rintro _ ⟨⟩
  · exact settled_canonical h

section

variable {s : State} {f : Dev → Dev} (h : Memory.wf s.dev = true) (hf : ∀ d, Memory.wf d = true → Memory.wf (f d) = true)
include h hf

theorem serve_canonical : CanonicalAfter (serve s f) := canonicalAfter_next (Dev.served_wf _ _ h hf)

theorem serveAlone_canonical : CanonicalAfter (serveAlone s f) := canonicalAfter_next (Dev.servedAlone_wf _ _ h hf)

theorem servePowered_canonical : CanonicalAfter (servePowered s f) := canonicalAfter_next (Dev.servedPowered_wf _ _ h hf)

theorem serveTest_canonical : CanonicalAfter (serveTest s f) := by
  unfold serveTest
  split
  · exact canonicalAfter_unlessTest s (hf _ h)
  · exact canonicalAfter_next h

theorem servePoweredTest_canonical : CanonicalAfter (servePoweredTest s f) := by
  unfold servePoweredTest
  split
  · exact canonicalAfter_unlessTest s (hf _ h)
  · exact canonicalAfter_next h

end

/-! ### The commands -/

/-- Each command is answered in one of these ways, by an operation that keeps the canonical form. -/
theorem exec_canonical {s : State} (h : Memory.wf s.dev = true) : ∀ i, CanonicalAfter (exec i s)
  | .sqProducerDoorbell _ _ _ => serveAlone_canonical h fun d hd => d.wake.doorbellWrite_wf _ _ _ _ (d.wake_wf hd)
  | .cqConsumerDoorbell _ _ _ => serveAlone_canonical h fun d hd => d.wake.doorbellWrite_wf _ _ _ _ (d.wake_wf hd)
  | .entryFetch _ => serve_canonical h fun d => d.entryFetch_wf _
  | .commandDispatch _ => serve_canonical h fun d => d.commandDispatch_wf _
  | .completionPost _ => serveAlone_canonical h fun d => d.completionPost_wf _
  | .coalesceTimeout _ => serveAlone_canonical h fun d => d.coalesceTimeout_wf _
  | .qctlCreate _ => serveAlone_canonical h fun d => d.qctlCreate_wf _
  | .qctlDelete _ => serve_canonical h fun d => d.qctlDelete_wf _
  | .qctlFlush _ => serve_canonical h fun d => d.qctlFlush_wf _
  | .qctlResume _ => serveAlone_canonical h fun d => d.qctlResume_wf _
  | .cancelDoorbell _ _ => serve_canonical h fun d => d.cancelDoorbell_wf _ _
  | .nop _ => serveAlone_canonical h fun d => d.nopRun_wf _
  | .pipeLoad _ => serve_canonical h fun d => d.pipeLoad_wf _
  | .pipeRun _ => serve_canonical h fun d => d.pipeRun_wf _
  | .pipeCancel _ => serve_canonical h fun d => d.pipeCancel_wf _
  | .pipePark _ => serve_canonical h fun d => d.pipePark_wf _
  | .pipeResume _ => serve_canonical h fun d => d.pipeResume_wf _
  | .pipeUnload _ => serve_canonical h fun d => d.pipeUnload_wf _
  | .store _ => serve_canonical h fun d => d.storeRun_wf _
  | .storeCommit _ => serve_canonical h fun d => d.storeCommit_wf _
  | .storeDrainWrite _ _ => serve_canonical h fun d => d.storeDrain_wf _ _
  | .storeRelease _ => serve_canonical h fun d => d.storeRelease_wf _
  | .fetch _ _ => serve_canonical h fun d => d.fetchRun_wf _ _
  | .storeSync _ => serveAlone_canonical h fun d => d.storeSync_wf _
  | .dma _ => serve_canonical h fun d => d.dmaStart_wf _
  | .hingeDescriptorDone _ => serve_canonical h fun d => d.hingeDone_wf _
  | .compress _ => serve_canonical h fun d => d.bifoldRun_wf _ _ _
  | .decompress _ => serve_canonical h fun d => d.bifoldRun_wf _ _ _
  | .digest _ => serve_canonical h fun d hd => Dev.ksSettle_wf _ (d.digestRun_wf _ hd)
  | .louvreCreate _ => serve_canonical h fun d => d.louvreCreate_wf _
  | .louvreWrite _ => serve_canonical h fun d => d.louvreWrite_wf _
  | .louvreSwap _ => serve_canonical h fun d => d.louvreSwap_wf _
  | .louvreUnload _ => serve_canonical h fun d => d.louvreUnload_wf _
  | .louvreSearch _ _ => serve_canonical h fun d => d.louvreSearch_wf _ _
  | .cacheFlush _ => serve_canonical h fun d => d.cacheMaint_wf _ _
  | .cacheInvalidate _ => serve_canonical h fun d => d.cacheMaint_wf _ _
  | .cacheFlushInvalidate _ => serve_canonical h fun d => d.cacheMaint_wf _ _
  | .cachePreload _ => serve_canonical h fun d => d.cacheMaint_wf _ _
  | .attestIdentity _ => serve_canonical h fun d => d.attestIdentity_wf _
  | .attestSeal _ => serve_canonical h fun d => d.attestSeal_wf _
  | .stripDispatch _ => serve_canonical h fun d => d.stripDispatch_wf _
  | .nodeStripBoundary _ _ _ _ => serve_canonical h fun d => d.stripBoundary_wf _ _ _ _
  | .sealWrite _ => serve_canonical h fun d => d.sealWrite_wf _
  | .agingTimeout _ _ => serve_canonical h fun d => d.agingTimeout_wf _ _
  | .affinityWaitExpiry _ _ _ => serve_canonical h fun d => d.affinityExpiry_wf _ _ _
  | .crossWaitExpiry _ _ => serve_canonical h fun d => d.crossExpiry_wf _ _
  | .selftestReq _ => serve_canonical h fun d => d.selfTestWrite_wf _
  | .paneSelftestRun _ _ => serve_canonical h fun d => d.selfTestRun_wf _ _
  | .sillRequest _ _ _ _ _ _ _ _ _ => serve_canonical h fun d hd => Dev.failReaders_wf _ (d.sillRequest_wf _ _ _ _ _ _ _ _ hd)
  | .sillFillLand _ _ => serve_canonical h fun d hd => Dev.failReaders_wf _ (d.fillLand_wf _ _ hd)
  | .sillInvalidation _ _ => serve_canonical h fun d => d.engWrite_wf _ _
  | .sillPrefetch _ _ _ => serve_canonical h fun d => d.sillPrefetch_wf _ _ _
  | .louvreScrubPass _ _ _ _ => serve_canonical h fun d => d.lvScrub_wf _ _ _ _
  | .bifoldBlockStart _ => serve_canonical h fun d => d.blockStart_wf _
  | .bifoldBlockDone _ _ _ => serve_canonical h fun d => d.blockDone_wf _ _ _
  | .refreshInterval _ => serve_canonical h fun d => d.refreshInterval_wf _
  | .memoryRequest _ _ => serve_canonical h fun d hd => Dev.failReaders_wf _ (d.memRequest_wf _ _ hd)
  | .powerDownTimeout _ _ => serve_canonical h fun d => d.powerDown_wf _ _
  | .memoryHot _ _ => serveAlone_canonical h fun d => d.memoryTemp_wf _ _
  | .mcRetrainGo _ => serve_canonical h fun d => d.retrainGo_wf _
  | .memoryRetrainDone _ _ => serve_canonical h fun d => d.retrainDone_wf _ _
  | .remapCopyDone => serve_canonical h fun d => d.remapDone_wf
  | .patrolScrubPass _ => serve_canonical h fun d => d.scrubPass_wf _
  | .pwrFailAssert => servePowered_canonical h fun d => d.pwrFailAssert_wf
  | .pwrFailDeassert => servePowered_canonical h fun d => d.pwrFailDeassert_wf
  | .nvmeTimeout _ _ => serve_canonical h fun d => d.nvmeTimeout_wf _ _
  | .driveReadyTimeout _ => serve_canonical h fun d => d.readyTimeout_wf _
  | .driveRemoved _ => canonicalAfter_next (s.dev.slotRemoved_wf _ h)
  | .driveInserted _ _ => canonicalAfter_next (s.dev.slotInserted_wf _ _ h)
  | .thrDiscard _ => serve_canonical h fun d => d.discardCommand_wf _
  | .hingeBusError _ _ _ _ => serve_canonical h fun d => d.hingeBusError_wf _ _ _ _
  | .hingeRestart => serve_canonical h fun d => d.hingeRestart_wf
  | .haltTimeoutExpiry => serve_canonical h fun d => d.haltTimeout_wf
  | .hingeChStop _ => serve_canonical h fun d => d.hingeStop_wf _
  | .hingeChGo _ => serve_canonical h fun d => d.hingeGo_wf _
  | .dgCtxAllocRead => serveAlone_canonical h fun d => d.dgAllocRead_wf
  | .dgStart _ _ => serve_canonical h fun d => d.dgControl_wf _ _ _ _ _
  | .dgDataWrite _ _ _ => serve_canonical h fun d => d.dgData_wf _ _
  | .dgFinal _ _ => serve_canonical h fun d => d.dgControl_wf _ _ _ _ _
  | .dgRelease _ _ => serve_canonical h fun d => d.dgControl_wf _ _ _ _ _
  | .dgResultRead _ _ => serveAlone_canonical h fun d => d.dgWord_wf _ _
  | .ksLoad _ _ _ => serve_canonical h fun d => d.ksCommand_wf _
  | .ksClear _ => serve_canonical h fun d => d.ksCommand_wf _
  | .ksExport _ => serve_canonical h fun d => d.ksCommand_wf _
  | .epochCommit _ => serve_canonical h fun d => d.dictStore_wf _ _ _ _
  | .dataFrameRx _ _ _ => serve_canonical h fun d hd => d.wake.dataFrameRx_wf _ _ _ (d.wake_wf hd)
  | .endFrameRx _ _ _ => serve_canonical h fun d hd => d.wake.endFrameRx_wf _ _ _ (d.wake_wf hd)
  | .creditFrameRx _ _ _ => serve_canonical h fun d hd => d.wake.creditFrameRx_wf _ _ _ (d.wake_wf hd)
  | .putFrameRx _ _ _ _ => serveTest_canonical h fun d hd => d.wake.putFrameRx_wf _ _ _ _ (d.wake_wf hd)
  | .putAckRx _ _ _ => serve_canonical h fun d hd => d.wake.putAckRx_wf _ _ _ (d.wake_wf hd)
  | .helloRx _ _ _ => serve_canonical h fun d hd => d.wake.helloRx_wf _ _ _ (d.wake_wf hd)
  | .rejectRx _ _ _ => serve_canonical h fun d hd => d.wake.rejectRx_wf _ _ _ (d.wake_wf hd)
  | .cancelFrameRx _ _ _ => serve_canonical h fun d hd => d.wake.cancelFrameRx_wf _ _ _ (d.wake_wf hd)
  | .fabricCancelSend => serve_canonical h fun d => d.fabricCancelSend_wf
  | .shuffleStripSend _ _ => serve_canonical h fun d => d.stripSend_wf _ _
  | .retxTimeout _ => serve_canonical h fun d => d.retransmit_wf _
  | .creditAckTimeout _ => serve_canonical h fun d => d.creditAck_wf _
  | .helloTimer _ => serve_canonical h fun d => d.helloTimer_wf _
  | .peerLost _ _ => serve_canonical h fun d => d.peerLost_wf _ _
  | .cancelRepeatTimer => serve_canonical h fun d => d.cancelRepeat_wf
  | .cancelMemoryExpiry => serveAlone_canonical h fun d => d.cancelForget_wf
  | .fabricPortLinkChange _ _ => serve_canonical h fun d => d.portLink_wf _ _
  | .trPutGo _ _ _ => serve_canonical h fun d => d.putCommand_wf _ _ _
  | .sashRead _ _ => settled_canonical (s.dev.sashRead_wf _ _ h)
  | .sashWrite _ _ => settled_canonical (s.dev.sashWrite_wf _ _ h)
  | .enumerate _ _ => settled_canonical (s.dev.enumerate_wf _ _ h)
  | .sashCancelRx _ _ => settled_canonical (s.dev.sashCancelRx_wf _ _ h)
  | .sashRelay _ _ => settled_canonical (s.dev.sashRelay_wf _ _ h)
  | .sashLinkChange _ _ => settled_canonical (s.dev.sashLink_wf _ _ h)
  | .sashSnapshotTimeout _ => canonicalAfter_next (s.dev.snapshotTimeout_wf _ h)
  | .dictRead => servePowered_canonical h fun d => d.windowGo_wf _
  | .dictWrite => servePowered_canonical h fun d => d.windowGo_wf _
  | .rwpPersistDone => settled_canonical (Memory.wf_ite (s.dev.persistDone_wf h) h)
  | .restoreDefaults => settled_canonical (Memory.wf_ite (s.dev.restoreGo_wf h) h)
  | .faultSourceRaised _ _ _ => serve_canonical h fun d => d.sourceRaised_wf _ _ _
  | .handshakeWatchdog _ => serve_canonical h fun d => d.watchdog_wf _
  | .fcRecordClear _ => serveAlone_canonical h fun d => d.recordClear_wf _
  | .fiArm _ _ _ => serveAlone_canonical h fun d => d.fiArm_wf _ _ _
  | .unfence _ _ => serve_canonical h fun d => d.unfenceRun_wf _ _
  | .bankUnfence _ _ _ => serve_canonical h fun d => d.bankUnfenceRun_wf _ _ _
  | .powerOn _ _ _ => settled_canonical (s.dev.powerOn_wf _ _ _ h)
  | .deviceReset _ => serve_canonical h fun d => d.deviceReset_wf _
  | .linkReset => canonicalAfter_next (s.dev.perstAssert_wf h)
  | .functionLevelReset => serve_canonical h fun d => d.functionReset_wf
  | .shelfDarkAssert => settled_canonical (s.dev.shelfDarkAssert_wf h)
  | .parkOkAssert _ => settled_canonical (s.dev.parkOkAssert_wf _ h)
  | .shelfDarkDeassert _ => settled_canonical (s.dev.shelfDarkDeassert_wf _ h)
  | .casementGateTimeout _ => serve_canonical h fun d => d.gate_wf _
  | .casementUngate _ => serve_canonical h fun d => d.ungate_wf _
  | .idleTimeout => serve_canonical h fun d => d.idleEnter_wf
  | .idleExit => serve_canonical h fun d => d.wake_wf
  | .thermtrip => servePowered_canonical h fun d => d.thermTrip_wf
  | .refclkLoss => settled_canonical (s.dev.refclkLoss_wf h)
  | .avsStep _ _ _ _ => serve_canonical h fun d => d.avsStep_wf _ _ _ _
  | .crateWindowClose _ => serveAlone_canonical h fun d => d.crateWindow_wf _
  | .flashWrite _ _ _ => servePowered_canonical h fun d hd => d.lmCommand_wf _ _ _ _ _ hd fun e => e.flashWrite_wf _ _ _
  | .activateLintel _ _ => servePowered_canonical h fun d hd => d.lmCommand_wf _ _ _ _ _ hd fun e => e.activateLintel_wf _ _
  | .handoffTimeout => serve_canonical h fun d => d.handoffEnd_wf
  | .activateCasement _ _ _ => servePowered_canonical h
      fun d hd => d.lmCommand_wf _ _ _ _ _ hd fun e => e.activateCasement_wf _ _ _
  | .firmwareCommit _ => servePowered_canonical h fun d hd => d.lmCommand_wf _ _ _ _ _ hd fun e => e.firmwareCommit_wf _
  | .recover _ => servePowered_canonical h fun d hd => d.lmCommand_wf _ _ _ _ _ hd fun e => e.recover_wf _
  | .fuseRead _ => serveAlone_canonical h fun d => d.fuseRead_wf _
  | .fuseProgram _ => serveAlone_canonical h fun d => d.fuseProgram_wf _
  | .bar4Access _ _ => serve_canonical h fun d => d.bar4Access_wf _ _
  | .registerWrite _ _ _ _ => servePoweredTest_canonical h fun d => d.registerWrite_wf _ _ _ _
  | .powerLoss _ => settled_canonical (s.dev.powerLoss_wf _ h)
  | .refclkReturn _ => settled_canonical (s.dev.refclkReturn_wf _ h)
  | .perstNDeassert => canonicalAfter_next (s.dev.perstDeassert_wf h)
  | .pfcPauseRx _ _ _ => serve_canonical h fun d => d.pfcPause_wf _ _ _
  | .driveReadyAgain _ => serve_canonical h fun d => d.readyAgain_wf _
  | .digestBlockCompressed _ => serve_canonical h fun d => d.digestBlock_wf _

/-- Settles O5: a step is a command or a tick, and each keeps the canonical form. -/
theorem memoryStaysCanonical : Obligations.MemoryStaysCanonical := by
  intro s t h
  cases hq : s.pending with
  | nil =>
    rw [step_of_pending_nil hq]
    exact canonicalAfter_next (s.dev.tick_wf h) t
  | cons i q =>
    rw [step_of_pending_cons hq]
    exact exec_canonical (s := { s with pending := q }) h i t

end Sys2Proof.Machine

/-! ## Requests of the memory controllers (R221 to R223) -/

namespace Sys2Proof.Machine

/-! ### What enters the bank queues -/

/-- From `d` to `e` the bank queues of the controllers grow at their ends alone: their open rows, the rotation of each controller
and host memory stay. -/
structure Dev.Enters (d e : Dev) : Prop where
  queue : ∀ k, (d.mbank k).queue <+: (e.mbank k).queue
  row : ∀ k, (e.mbank k).open_ = (d.mbank k).open_
  subs : e.mem.subs = d.mem.subs
  host : e.host = d.host

/-- The same, and the requests that wait in the Sills stay as well. -/
structure Dev.Feeds (d e : Dev) : Prop extends d.Enters e where
  waits : ∀ k, (Sparse.get {} e.sill k).waiting = (Sparse.get {} d.sill k).waiting

theorem Dev.mbank_congr {d e : Dev} (h : e.mem.banks = d.mem.banks) (k : Nat) : e.mbank k = d.mbank k := by
  rw [Dev.mbank, Dev.mbank, h]

theorem Dev.mbank_setMbank (d : Dev) (k : Nat) (x : Bank) (j : Nat) :
    (d.setMbank k x).mbank j = if j = k then x else d.mbank j := by
  split
  · next h => rw [h]; exact Sparse.get_set_self ..
  · next h => exact Sparse.get_set_ne _ _ _ _ h

theorem Dev.Enters.of_banks {d e : Dev} (hb : e.mem.banks = d.mem.banks) (hs : e.mem.subs = d.mem.subs) (hh : e.host = d.host) :
    d.Enters e where
  queue k := by rw [Dev.mbank_congr hb]
  row k := by rw [Dev.mbank_congr hb]
  subs := hs
  host := hh

theorem Dev.Enters.of_mem {d e : Dev} (hm : e.mem = d.mem) (hh : e.host = d.host) : d.Enters e :=
  .of_banks (by rw [hm]) (by rw [hm]) hh

theorem Dev.Enters.refl (d : Dev) : d.Enters d := .of_mem rfl rfl

theorem Dev.Enters.trans {d e t : Dev} (h : d.Enters e) (k : e.Enters t) : d.Enters t where
  queue j := (h.queue j).trans (k.queue j)
  row j := (k.row j).trans (h.row j)
  subs := k.subs.trans h.subs
  host := k.host.trans h.host

theorem Dev.Feeds.of_sill {d e : Dev} (h : d.Enters e) (hs : e.sill = d.sill) : d.Feeds e :=
  { h with waits := fun k => by rw [hs] }

theorem Dev.Feeds.refl (d : Dev) : d.Feeds d := .of_sill (.refl d) rfl

theorem Dev.Feeds.trans {d e t : Dev} (h : d.Feeds e) (k : e.Feeds t) : d.Feeds t :=
  { h.toEnters.trans k.toEnters with waits := fun j => (k.waits j).trans (h.waits j) }

theorem Dev.feeds_foldl {α : Type} {f : Dev → α → Dev} (hf : ∀ (d : Dev) a, d.Feeds (f d a)) (l : List α) (d : Dev) :
    d.Feeds (l.foldl f d) :=
  foldl_keeps (fun e => d.Feeds e) f (fun e a he => he.trans (hf e a)) l d (.refl d)

/-! ### Sills and memory -/

theorem Dev.setSbank_enters (d : Dev) (c b : Nat) (x : SBank) : d.Enters (d.setSbank c b x) := .of_mem rfl rfl

/-- A bank of a Sill is put with the requests that wait in it. -/
theorem Dev.Feeds.setSbank {d e : Dev} {c b : Nat} {x : SBank} (h : d.Feeds e) (hx : x.waiting = (d.sbank c b).waiting) :
    d.Feeds (e.setSbank c b x) where
  toEnters := h.toEnters.trans (e.setSbank_enters c b x)
  waits k := by
    by_cases hk : k = bankKey c b
    · rw [hk]
      exact (congrArg SBank.waiting (Sparse.get_set_self ..)).trans hx
    · exact (congrArg SBank.waiting (Sparse.get_set_ne _ _ _ _ hk)).trans (h.waits k)

theorem Dev.ocount_enters (d : Dev) (o : Obj) (n : Nat) : d.Enters (d.ocount o n) :=
  .of_mem (Dev.ocount_mem ..) (Dev.ocount_host ..)

theorem Dev.fcount_enters (d : Dev) (f : Fld) (n : Nat) : d.Enters (d.fcount f n) :=
  .of_mem (Dev.fcount_mem ..) (Dev.fcount_host ..)

theorem Dev.fcount64_enters (d : Dev) (lo hi : Fld) (n : Nat) : d.Enters (d.fcount64 lo hi n) :=
  .of_mem (Dev.fcount64_mem ..) (Dev.fcount64_host ..)

theorem Dev.poison_feeds (d : Dev) (a : Nat) : d.Feeds (d.poison a) := by
  unfold Dev.poison
  split
  · exact .of_sill (.of_banks rfl rfl rfl) rfl
  · exact .refl d

theorem Dev.memWriteAt_feeds (d : Dev) (ps : List (Nat × Byte)) : d.Feeds (d.memWriteAt ps) :=
  .of_sill (.of_banks rfl rfl rfl) rfl

theorem Dev.memWrite_enters (d : Dev) (a : Nat) (bs : Bytes) : d.Enters (d.memWrite a bs) := .of_banks rfl rfl rfl

theorem Dev.writeLine_feeds (d : Dev) (l : SLine) : d.Feeds (d.writeLine l) :=
  (d.memWriteAt_feeds _).trans (Dev.feeds_foldl (fun e _ => e.poison_feeds _) _ _)

theorem Dev.sillSnoop_feeds (d : Dev) (c line : Nat) : d.Feeds (d.sillSnoop c line) := by
  unfold Dev.sillSnoop
  dsimp only
  refine Dev.Feeds.setSbank ?_ rfl
  split
  on_goal 1 => split
  on_goal 2 => refine .trans ?_ (Dev.writeLine_feeds ..)
  all_goals
    split
    · split
      · exact .refl d
      · exact d.writeLine_feeds _
    · exact .refl d

theorem Dev.snoopIf_feeds (d : Dev) (c line : Nat) (p : Prop) [Decidable p] : d.Feeds (if p then d.sillSnoop c line else d) := by
  split
  · exact d.sillSnoop_feeds c line
  · exact .refl d

theorem Dev.writeBack_feeds (d : Dev) (c : Nat) (l : SLine) : d.Feeds (d.writeBack c l) :=
  ((Dev.feeds_foldl (fun e k => e.snoopIf_feeds k l.line _) _ d).trans (Dev.writeLine_feeds _ l)).trans
    (.of_sill (Dev.ocount_enters ..) rfl)

theorem Dev.mcEnter_feeds {d e : Dev} {write : Bool} {line cas : Nat} (h : d.mcEnter write line cas = some e) : d.Feeds e := by
  unfold Dev.mcEnter at h
  dsimp only at h
  split at h
  · cases h
  · obtain rfl := Option.some.inj h
    refine .of_sill ⟨fun k => ?_, fun k => ?_, rfl, rfl⟩ rfl
    all_goals rw [Dev.mbank_setMbank]; split
    · next hk => rw [hk]; exact List.prefix_append ..
    · exact List.prefix_rfl
    · next hk => rw [hk]
    · rfl

theorem Dev.issueFill_feeds (d : Dev) (c : Nat) (r : MissReg) : d.Feeds (d.issueFill c r).2 := by
  unfold Dev.issueFill
  dsimp only
  split
  · next v hv =>
    dsimp only
    split
    · exact .refl d
    · exact Dev.mcEnter_feeds hv
  · exact .refl d

theorem Dev.missAdd_enters (d : Dev) (c : Nat) (r : MissReg) : d.Enters (d.missAdd c r) :=
  (d.issueFill_feeds c r).toEnters.trans (Dev.setSbank_enters ..)

/-! ### Requests that are served -/

theorem Dev.install_enters {d e : Dev} {c : Nat} {cls : SClass} {l : SLine} (h : d.install c cls l = some e) : d.Enters e := by
  unfold Dev.install at h
  dsimp only at h
  split at h
  · obtain rfl := Option.some.inj h
    split
    · exact .refl d
    · exact (d.writeBack_feeds c l).toEnters
  · split at h
    · cases h
    · obtain rfl := Option.some.inj h
      exact d.setSbank_enters ..

theorem Dev.hitCount_enters (d : Dev) (c : Nat) (used : Bool) : d.Enters (d.hitCount c used) :=
  .of_mem (d.hitCount_mem c used) (d.hitCount_host c used)

theorem Dev.hit_enters (d : Dev) (c line w : Nat) (l : SLine) (q : SReq) : d.Enters (d.hit c line w l q) :=
  (d.setSbank_enters ..).trans (Dev.hitCount_enters ..)

theorem Dev.recall_enters {d e : Dev} {c line : Nat} {cls : SClass} {q : SReq} (h : d.recall c line cls q = some e) :
    d.Enters e := by
  unfold Dev.recall at h
  dsimp only at h
  split at h
  on_goal 3 => cases h
  all_goals
    obtain ⟨t, ht, rfl⟩ := Option.map_eq_some_iff.mp h
    exact (((d.setSbank_enters ..).trans (Dev.install_enters ht)).trans
      ((Dev.fcount_enters ..).trans (Dev.ocount_enters ..))).trans (Dev.hitCount_enters ..)

theorem Dev.serve_enters {d e : Dev} {c line : Nat} {cls : SClass} {q : SReq} (h : d.serve c line cls q = some e) :
    d.Enters e := by
  unfold Dev.serve at h
  dsimp only at h
  split at h
  · obtain rfl := Option.some.inj h
    exact d.hit_enters ..
  · split at h
    · exact Dev.recall_enters h
    · split at h
      · split at h
        · cases h
        · obtain rfl := Option.some.inj h
          exact (d.setSbank_enters ..).trans (Dev.ocount_enters ..)
      · split at h
        · obtain ⟨t, ht, rfl⟩ := Option.map_eq_some_iff.mp h
          exact ((Dev.feeds_foldl (fun e k => e.snoopIf_feeds k line _) _ d).trans (Dev.mcEnter_feeds ht)).toEnters.trans
            (t.memWrite_enters ..)
        · split at h
          · cases h
          · obtain rfl := Option.some.inj h
            exact (d.missAdd_enters ..).trans ((Dev.fcount64_enters ..).trans (Dev.ocount_enters ..))

theorem Dev.request_enters {d : Dev} {c line : Nat} {cls : SClass} {q : SReq} {declared : Bool} {v : Dev × List Nat}
    (h : d.request c line cls q declared = some v) : d.Enters v.1 := by
  obtain ⟨e, he, rfl⟩ := Option.map_eq_some_iff.mp h
  refine (Dev.serve_enters he).trans ?_
  dsimp only
  split
  · obtain ⟨x, hx⟩ := (e.trainStream_moves c q.owner line).rest
    rw [hx]
    exact .of_mem rfl rfl
  · exact .refl e

theorem Dev.serveWaiting_enters (c b : Nat) (ws : List SWait) :
    ∀ (d : Dev) (keep : List SWait) (bad : List Nat), d.Enters (d.serveWaiting c b ws keep bad).1 := by
  induction ws with
  | nil => exact fun d _ _ => d.setSbank_enters ..
  | cons w rest ih =>
    intro d keep bad
    unfold Dev.serveWaiting
    split
    · next hv => exact (Dev.request_enters hv).trans (ih ..)
    · exact ih ..

theorem Dev.retryWaiting_enters (d : Dev) (c b : Nat) : d.Enters (d.retryWaiting c b).1 := by
  unfold Dev.retryWaiting
  dsimp only
  split
  · exact .refl d
  · exact (d.setSbank_enters ..).trans (Dev.serveWaiting_enters ..)

theorem Dev.retryAll_enters (d : Dev) : d.Enters d.retryAll.1 :=
  foldl_keeps (fun a : Dev × List Nat => d.Enters a.1) (fun a key =>
    ((a.1.retryWaiting (key / 16) (key % 16)).1, a.2 ++ (a.1.retryWaiting (key / 16) (key % 16)).2))
    (fun a _ ha => ha.trans (a.1.retryWaiting_enters ..)) (d.sill.map Prod.fst) (d, []) (.refl d)

/-- Where nothing waits, nothing is tried again. -/
theorem Dev.retryAll_of_no_waits {d : Dev} (h : ∀ k, (Sparse.get {} d.sill k).waiting = []) : d.retryAll = (d, []) := by
  refine foldl_keeps (fun a : Dev × List Nat => a = (d, [])) _ (fun a key ha => ?_) _ _ rfl
  rw [ha]
  simp only [Dev.retryWaiting_of_nil (h _), List.append_nil]

/-! ### What waits upstream of a controller -/

theorem Dev.mcUpstream_feeds (d : Dev) (s : Nat) : d.Feeds (d.mcUpstream s) := by
  unfold Dev.mcUpstream
  refine Dev.feeds_foldl (fun d key => ?_) _ d
  dsimp only
  refine .trans (Dev.feeds_foldl (fun d w => ?_) _ d) (Dev.feeds_foldl (fun d r => ?_) _ _)
  · split
    · exact .refl d
    · next e he =>
      refine .trans ?_ (Dev.writeBack_feeds ..)
      exact .trans (Dev.mcEnter_feeds he) (.setSbank (.refl e) rfl)
  · exact .trans (d.issueFill_feeds _ r) (.setSbank (.refl _) rfl)

/-! ### The request that is served -/

theorem Dev.fiFires_congr {d e : Dev} (h : e.flds = d.flds) (n : Nat) : e.fiFires n = d.fiFires n := by
  simp only [Dev.fiFires, Dev.fgetB, Dev.fget, h]

theorem Dev.memInjected_eq_none_iff (d : Dev) (far : Bool) :
    d.memInjected far = none ↔ (d.fiFires (if far then 451 else 448) || d.fiFires ((if far then 451 else 448) + 1)) = false := by
  simp only [Dev.memInjected, ite_eq_right_iff, reduceCtorEq, imp_false, Bool.not_eq_true]

theorem Dev.neighbour_frame (d : Dev) (s : Nat) : ∃ f o, d.neighbour s = { d with free := f, objs := o } := by
  unfold Dev.neighbour
  dsimp only
  split
  · exact ⟨_, _, rfl⟩
  · exact ⟨_, _, rfl⟩

/-- What the Sills learn of a served request: their banks alone move, and what waits in them stays. -/
theorem Dev.mcServed_frame (d : Dev) (q : MReq) :
    (∃ x, d.mcServed q = { d with sill := x })
      ∧ ∀ k, (Sparse.get {} (d.mcServed q).sill k).waiting = (Sparse.get {} d.sill k).waiting := by
  have hkeep : (∃ x, d = { d with sill := x }) ∧ ∀ k, (Sparse.get {} d.sill k).waiting = (Sparse.get {} d.sill k).waiting :=
    ⟨⟨_, rfl⟩, fun _ => rfl⟩
  have hput (y : SBank) (hy : y.waiting = (d.sbank q.cas (sillBank q.line)).waiting) :
      (∃ x, d.setSbank q.cas (sillBank q.line) y = { d with sill := x })
        ∧ ∀ k, (Sparse.get {} (d.setSbank q.cas (sillBank q.line) y).sill k).waiting = (Sparse.get {} d.sill k).waiting :=
    ⟨⟨_, rfl⟩, (Dev.Feeds.setSbank (.refl d) hy).waits⟩
  unfold Dev.mcServed
  dsimp only
  split
  · exact hkeep
  · split
    · split
      · exact hput _ rfl
      · exact hkeep
    · split
      · exact hput _ rfl
      · exact hkeep

/-- Whether a controller is in its write mode (R221). -/
def Dev.mcWriting (d : Dev) (s : Nat) : Bool :=
  if 12 ≤ d.writesAt s then true else if d.writesAt s ≤ 4 then false else (d.sub s).writing

/-- The bank that a controller serves next, with its request and its count of open-row requests taken ahead (R221). -/
def Dev.mcPick (d : Dev) (s : Nat) : Option (Nat × MReq × Nat) :=
  ((List.range 256).map (fun i => ((d.sub s).lastBank + 1 + i) % 256)).findSome? (fun b =>
    ((d.mbank (mbankKey s b)).pick (d.mcWriting s)).map (fun p => (b, p)))

/-- The device of a controller that has taken a request from its bank, whose row it opens. -/
def Dev.mcTaken (d : Dev) (s b : Nat) (q : MReq) (hits : Nat) : Dev :=
  let k := mbankKey s b
  let e := d.setMbank k { queue := (d.mbank k).queue.erase q, open_ := some q.row, hits := hits }
  e.setSub s { d.sub s with
    writing := d.mcWriting s, lastBank := b, powerDown := setBit (d.sub s).powerDown (e.rankOf s b) false }

/-- The same with what an activate draws and counts for the rows beside its own; an open row needs none (R225). -/
def Dev.mcActivated (d : Dev) (s b : Nat) (q : MReq) (hits : Nat) : Dev :=
  if decide ((d.mbank (mbankKey s b)).open_ ≠ some q.row) then (d.mcTaken s b q hits).neighbour s else d.mcTaken s b q hits

theorem Dev.mcActivated_frame (d : Dev) (s b : Nat) (q : MReq) (hits : Nat) :
    ∃ f o, d.mcActivated s b q hits = { d.mcTaken s b q hits with free := f, objs := o } := by
  unfold Dev.mcActivated
  split
  · exact Dev.neighbour_frame ..
  · exact ⟨_, _, rfl⟩

theorem Dev.mcServe_of_pick {d : Dev} {s b hits : Nat} {q : MReq} (hblocked : d.subBlocked s = false)
    (hpick : (d.mcUpstream s).mcPick s = some (b, q, hits))
    (hinjected : (d.mcUpstream s).memInjected (decide (192 ≤ s)) = none) :
    d.mcServe s none = ((d.mcUpstream s).mcActivated s b q hits).mcServed q := by
  have hnone : ((d.mcUpstream s).mcActivated s b q hits).memInjected (decide (192 ≤ s)) = none := by
    obtain ⟨f, o, hactivated⟩ := (d.mcUpstream s).mcActivated_frame s b q hits
    have hflds : ((d.mcUpstream s).mcActivated s b q hits).flds = (d.mcUpstream s).flds := by
      rw [hactivated]
      rfl
    rw [Dev.memInjected_eq_none_iff] at hinjected ⊢
    rwa [Dev.fiFires_congr hflds, Dev.fiFires_congr hflds]
  simp only [Dev.mcPick, Dev.mcWriting] at hpick
  simp only [Dev.mcActivated, Dev.mcTaken, Dev.mcWriting] at hnone ⊢
  rw [Dev.mcServe, if_neg (by simp [hblocked])]
  simp only [hpick, hnone, ite_self]

/-- What a served request leaves of the banks, the rotation, both memories and the requests that wait. -/
theorem Dev.mcServed_facts (e : Dev) (s b : Nat) (q : MReq) (hits : Nat) :
    let t := (e.mcActivated s b q hits).mcServed q
    (∀ j, t.mbank j = if j = mbankKey s b then
      { queue := (e.mbank (mbankKey s b)).queue.erase q, open_ := some q.row, hits := hits } else e.mbank j)
    ∧ (t.sub s).lastBank = b ∧ (t.sub s).writing = e.mcWriting s ∧ t.mem.cells = e.mem.cells ∧ t.host = e.host
    ∧ ∀ k, (Sparse.get {} t.sill k).waiting = (Sparse.get {} e.sill k).waiting := by
  intro t
  obtain ⟨f, o, hactivated⟩ := e.mcActivated_frame s b q hits
  obtain ⟨⟨x, hserved⟩, hwaits⟩ := (e.mcActivated s b q hits).mcServed_frame q
  have hmem : t.mem = (e.mcTaken s b q hits).mem := by simp only [t, hserved, hactivated]
  have hsub : t.sub s = (e.mcTaken s b q hits).sub s := by rw [Dev.sub, Dev.sub, hmem]
  have hself : (e.mcTaken s b q hits).sub s = _ := Sparse.get_set_self ..
  refine ⟨fun j => ?_, ?_, ?_, ?_, ?_, fun k => ?_⟩
  · rw [Dev.mbank_congr (congrArg Mem.banks hmem)]
    exact e.mbank_setMbank ..
  · rw [hsub, hself]
  · rw [hsub, hself]
  · rw [hmem]
    rfl
  · simp only [t, hserved, hactivated]
    rfl
  · rw [hwaits, hactivated]
    rfl

/-- Settles O46: the request that is served is the one the model picks; what follows in the Sills lets the bank queues grow. -/
theorem controllersServeOneRequest : Obligations.ControllersServeOneRequest := by
  intro s sub b hits q e x n writing key hs hblocked hpick hinjected
  refine brings_of (f := fun d => Dev.failReaders (d.memRequest sub.toNat none)) rfl hs ?_
  obtain ⟨t, ht⟩ : ∃ t, t = (e.mcActivated sub.toNat b q hits).mcServed q := ⟨_, rfl⟩
  have hserve : s.dev.mcServe sub.toNat none = t := (Dev.mcServe_of_pick hblocked hpick hinjected).trans ht.symm
  obtain ⟨hbanks, hlast, hwriting, hcells, hhost, hwaits⟩ := e.mcServed_facts sub.toNat b q hits
  rw [← ht] at hbanks hlast hwriting hcells hhost hwaits
  have hupstream : s.dev.Feeds e := s.dev.mcUpstream_feeds sub.toNat
  have hretry : t.Enters t.retryAll.1 := t.retryAll_enters
  obtain ⟨-, hmem, hhost'⟩ := Dev.endsRuns_jamb (Dev.failReaders_ends t.retryAll)
  have hself : t.mbank key = _ := (hbanks key).trans (if_pos rfl)
  have hbank (k : Nat) := Dev.mbank_congr (congrArg Mem.banks hmem) k
  have hsub : (Dev.failReaders t.retryAll).sub sub.toNat = t.sub sub.toNat := by rw [Dev.sub, Dev.sub, hmem, hretry.subs]
  rw [Dev.memRequest, hserve]
  refine ⟨?_, ?_, ?_, ?_, ?_, fun hnone => ?_⟩
  · rw [hbank]
    simpa [hself] using hretry.queue key
  · rw [hbank, hretry.row, hself]
  · rw [hsub, hlast]
  · rw [hsub, hwriting]
    rfl
  · rw [hhost', hretry.host, hhost, hupstream.host]
  · have hquiet (k : Nat) : (Sparse.get {} t.sill k).waiting = [] := by
      rw [hwaits, hupstream.waits]
      exact Sparse.get_forall (P := fun k : SBank => k.waiting = []) rfl hnone k
    rw [Dev.retryAll_of_no_waits hquiet] at hbank hmem ⊢
    refine ⟨?_, fun j hj => ?_, ?_⟩
    · rw [hbank, hself]
    · rw [hbank, hbanks, if_neg hj]
    · rw [hmem, hcells]

end Sys2Proof.Machine

/-! ## Retrains, remaps and scrub passes (R229, R230, R233, R234) -/

namespace Sys2Proof.Machine

/-! ### The list of retrains -/

theorem Dev.chan_congr {d e : Dev} (h : e.mem.chans = d.mem.chans) (ch : Nat) : e.chan ch = d.chan ch := by
  rw [Dev.chan, Dev.chan, h]

theorem Dev.retrains_congr {d e : Dev} (h : e.mem = d.mem) (far : Bool) : e.retrains far = d.retrains far := by
  rw [Dev.retrains, Dev.retrains, h]

/-- The channel at the head of the list is the one that retrains. -/
theorem Dev.chan_setRetrains (d : Dev) (far : Bool) (l : List Nat) (ch : Nat) :
    (d.setRetrains far l).chan ch = if l.head? = some ch then { d.chan ch with state := 1 } else d.chan ch := by
  cases l with
  | nil => cases far <;> rfl
  | cons first rest =>
    have hput (e : Dev) (he : e.mem.chans = d.mem.chans) :
        (e.setChan first { e.chan first with state := 1 }).chan ch
          = if first = ch then { d.chan ch with state := 1 } else d.chan ch := by
      split
      · next h => rw [h, Dev.chan_setChan, Dev.chan_congr he]
      · next h => rw [Dev.chan_setChan_ne _ _ (Ne.symm h), Dev.chan_congr he]
    simp only [List.head?_cons, Option.some.injEq]
    cases far <;> exact hput _ rfl

/-- Putting the list of retrains changes the records of the channels and the list itself. -/
theorem Dev.setRetrains_frame (d : Dev) (far : Bool) (l : List Nat) :
    (d.setRetrains far l).retrains far = l ∧ ∃ m, d.setRetrains far l = { d with mem := m } ∧ m.cells = d.mem.cells := by
  cases l <;> cases far <;> exact ⟨rfl, _, rfl, rfl⟩

/-! ### MC_RETRAIN_GO -/

theorem Dev.retrainRequest_of_new {d : Dev} {ch : Nat} (hch : ch < 104) (hup : d.chanUp ch = true)
    (hnew : (d.retrains (decide (96 ≤ ch))).contains ch = false) (hstate : (d.chan ch).state < 2) (asked : Bool) :
    d.retrainRequest ch asked = (d.setChan ch { d.chan ch with requested := asked, retried := false }).setRetrains
      (decide (96 ≤ ch)) (d.retrains (decide (96 ≤ ch)) ++ [ch]) := by
  rw [Dev.retrainRequest, if_neg (by simp [hup, hch])]
  dsimp only
  rw [hnew, if_neg (by decide), if_neg (by omega)]

/-- A retrain that software asks for joins the list, and runs where it is alone. -/
theorem Dev.retrainRequest_facts {d : Dev} {ch : Nat} (hch : ch < 104) (hup : d.chanUp ch = true)
    (hnew : (d.retrains (decide (96 ≤ ch))).contains ch = false) (hstate : (d.chan ch).state < 2) :
    let t := d.retrainRequest ch true
    (t.retrains (decide (96 ≤ ch)) = d.retrains (decide (96 ≤ ch)) ++ [ch] ∧ (t.chan ch).requested = true
      ∧ (d.retrains (decide (96 ≤ ch)) = [] → (t.chan ch).state = 1) ∧ t.mem.cells = d.mem.cells)
    ∧ t.reacts = d.reacts ∧ t.pipes = d.pipes := by
  intro t
  have ht : t = _ := Dev.retrainRequest_of_new hch hup hnew hstate true
  obtain ⟨hlist, m, hframe, hcells⟩ := (d.setChan ch { d.chan ch with requested := true, retried := false }).setRetrains_frame
    (decide (96 ≤ ch)) (d.retrains (decide (96 ≤ ch)) ++ [ch])
  have hchan : t.chan ch = _ := (congrArg (fun e : Dev => e.chan ch) ht).trans (Dev.chan_setRetrains ..)
  rw [Dev.chan_setChan] at hchan
  refine ⟨⟨?_, ?_, fun halone => ?_, ?_⟩, ?_, ?_⟩
  · rw [ht, hlist]
  · rw [hchan]
    split <;> rfl
  · rw [hchan, halone, if_pos (by rfl)]
  · rw [ht, hframe]
    exact hcells
  · rw [ht, hframe]
    rfl
  · rw [ht, hframe]
    rfl

/-! ### MEMORY_RETRAIN_DONE -/

/-- A channel's record after a retrain that has passed: back in service, and trained at a temperature. -/
def Chan.trained (x : Chan) (temp : Nat) : Chan := { x with state := 0, trainedAt := temp, requested := false, retried := false }

/-- The end of a channel's retrain is reported where software asked for it, and counted. -/
def Dev.retrainCounted (d : Dev) (ch : Nat) : Dev :=
  (if (d.chan ch).requested then d.fputB F.MC_RETRAIN_DONE true else d).ocount O.RETRAINS 1

theorem Dev.retrainCounted_facts (d : Dev) (ch : Nat) :
    ((d.chan ch).requested = true → (d.retrainCounted ch).fget F.MC_RETRAIN_DONE = 1)
    ∧ (d.retrainCounted ch).oget O.RETRAINS = (d.oget O.RETRAINS + 1) % 2 ^ (8 * O.RETRAINS.size)
    ∧ (d.retrainCounted ch).mem = d.mem ∧ (d.retrainCounted ch).reacts = d.reacts ∧ (d.retrainCounted ch).pipes = d.pipes := by
  refine ⟨fun hasked => ?_, ?_⟩
  · rw [Dev.retrainCounted, if_pos hasked, Dev.fget_ocount]
    exact Dev.fget_fputB d F.MC_RETRAIN_DONE true
  · rw [Dev.retrainCounted, Dev.oget_ocount]
    split <;> simp

section
variable {d : Dev} {far : Bool} {first : Nat} {rest : List Nat} (hlist : d.retrains far = first :: rest)
include hlist

theorem Dev.retrainDone_of_pass :
    d.retrainDone far true
      = ((d.retrainCounted first).setChan first ((d.chan first).trained (d.chanTemp first))).setRetrains far rest := by
  rw [Dev.retrainDone, Dev.retrainCounted]
  simp only [hlist]
  cases (d.chan first).requested <;> rfl

theorem Dev.retrainDone_of_first_failure (hretried : (d.chan first).retried = false) :
    d.retrainDone far false = ((d.fputB F.MC_RETRAIN_FAIL true).setChan first { d.chan first with retried := true }).faultRaise
      454 (memSyndrome 0 first 0) false := by
  rw [Dev.retrainDone]
  simp [hlist, hretried]

theorem Dev.retrainDone_pass_facts (hrest : rest.contains first = false) :
    let t := d.retrainDone far true
    (t.retrains far = rest ∧ (t.chan first).state = 0 ∧ (t.chan first).trainedAt = d.chanTemp first
      ∧ (∀ next more, rest = next :: more → (t.chan next).state = 1)
      ∧ ((d.chan first).requested = true → t.fget F.MC_RETRAIN_DONE = 1)
      ∧ t.oget O.RETRAINS = (d.oget O.RETRAINS + 1) % 2 ^ (8 * O.RETRAINS.size) ∧ t.mem.cells = d.mem.cells)
    ∧ t.reacts = d.reacts ∧ t.pipes = d.pipes := by
  intro t
  have ht : t = _ := Dev.retrainDone_of_pass hlist
  obtain ⟨hdone, hcount, hmem, hreacts, hpipes⟩ := d.retrainCounted_facts first
  obtain ⟨hretrains, m, hframe, hcells⟩ :=
    ((d.retrainCounted first).setChan first ((d.chan first).trained (d.chanTemp first))).setRetrains_frame far rest
  have hchan (ch : Nat) : t.chan ch = _ := (congrArg (fun e : Dev => e.chan ch) ht).trans (Dev.chan_setRetrains ..)
  have hfirst : t.chan first = (d.chan first).trained (d.chanTemp first) := by
    rw [hchan, if_neg fun h => ?_, Dev.chan_setChan]
    simp [List.mem_of_mem_head? h] at hrest
  refine ⟨⟨?_, by rw [hfirst]; rfl, by rw [hfirst]; rfl, fun next more hnext => ?_, fun hasked => ?_, ?_, ?_⟩, ?_, ?_⟩
  · rw [ht, hretrains]
  · rw [hchan, if_pos (by rw [hnext, List.head?_cons])]
  · rw [← hdone hasked, ht, hframe]
    rfl
  · rw [← hcount, ht, hframe]
    rfl
  · rw [ht, hframe]
    exact hcells.trans ((Dev.setChan_mem_cells ..).trans (congrArg Mem.cells hmem))
  · rw [ht, hframe]
    exact hreacts
  · rw [ht, hframe]
    exact hpipes

theorem Dev.retrainDone_fail_facts (hretried : (d.chan first).retried = false) :
    let t := d.retrainDone far false
    t.retrains far = d.retrains far ∧ (t.chan first).retried = true ∧ t.fget F.MC_RETRAIN_FAIL = 1
      ∧ t.mem.cells = d.mem.cells := by
  intro t
  have ht : t = _ := Dev.retrainDone_of_first_failure hlist hretried
  have hmem : t.mem = ((d.fputB F.MC_RETRAIN_FAIL true).setChan first { d.chan first with retried := true }).mem := by
    rw [ht, Dev.faultRaise_mem]
  refine ⟨?_, ?_, ?_, ?_⟩
  · rw [Dev.retrains, hmem]
    rfl
  · rw [Dev.chan_congr (congrArg Mem.chans hmem), Dev.chan_setChan]
  · rw [ht, Dev.fget_faultRaise _ _ _ _ _ (by decide) (by decide), Dev.faultCount, Dev.for_, Dev.fget_fput_ne _ _ (by decide),
      Dev.fget_fcount_ne _ _ (by decide)]
    exact Dev.fget_fputB d F.MC_RETRAIN_FAIL true
  · rw [hmem]
    rfl

end

/-! ### REMAP_COPY_DONE -/

/-- A recorded state is the channel's, and its object survives the write of the persisted copy (R394). -/
theorem Dev.recordChan_facts (d : Dev) {ch : Nat} (hch : ch < 96) {st : Nat} (hst : st < 256) :
    let t := d.recordChan ch st
    (t.chan ch).state = st ∧ t.oget (O.CH_STATE ch) = st ∧ t.mem.remaps = d.mem.remaps ∧ t.reacts = d.reacts
      ∧ t.pipes = d.pipes := by
  have hstate : (O.CH_STATE ch).key ≠ O.PERSIST_STATE.key := by simp [O.CH_STATE, O.PERSIST_STATE, objKey]; omega
  have hwrites : (O.CH_STATE ch).key ≠ O.PERSIST_WRITES.key := by simp [O.CH_STATE, O.PERSIST_WRITES, objKey]; omega
  refine ⟨?_, ?_, rfl, rfl, rfl⟩
  · exact congrArg Chan.state (Dev.chan_setChan ..)
  · rw [Dev.recordChan, Dev.persistWrite]
    dsimp only
    rw [Dev.oget_ocount_ne _ _ hwrites, Dev.oget_oput_ne _ _ hstate]
    exact (Dev.oget_oput ..).trans (Nat.mod_eq_of_lt hst)

theorem Dev.remapDone_eq {d : Dev} {first r : Nat} {rest : List Nat} (hremaps : d.mem.remaps = first :: rest)
    (hreserve : (d.chan first).reserveAt = some r) :
    ∃ c p, d.remapDone = Dev.recordChan { d with mem := { d.mem with cells := c, poison := p, remaps := rest } } first 3 := by
  rw [Dev.remapDone]
  simp only [hremaps, hreserve]
  exact ⟨_, _, rfl⟩

/-! ### Errors found in memory -/

/-- From `d` to `e` no byte of either memory changes, and no scrub pass is counted. -/
structure Dev.KeepsBytes (d e : Dev) : Prop where
  cells : e.mem.cells = d.mem.cells
  host : e.host = d.host
  passes : e.oget O.SCRUB_PASSES = d.oget O.SCRUB_PASSES

namespace Dev.KeepsBytes

theorem refl (d : Dev) : d.KeepsBytes d := ⟨rfl, rfl, rfl⟩

theorem trans {d e t : Dev} (h : d.KeepsBytes e) (k : e.KeepsBytes t) : d.KeepsBytes t :=
  ⟨k.cells.trans h.cells, k.host.trans h.host, k.passes.trans h.passes⟩

theorem ite {d e t : Dev} {p : Prop} [Decidable p] (h : d.KeepsBytes e) (k : d.KeepsBytes t) :
    d.KeepsBytes (if p then e else t) := by
  split <;> assumption

theorem poison (d : Dev) (a : Nat) : d.KeepsBytes (d.poison a) := by
  unfold Dev.poison
  split
  · exact ⟨rfl, rfl, rfl⟩
  · exact refl d

theorem setChan (d : Dev) (ch : Nat) (x : Chan) : d.KeepsBytes (d.setChan ch x) := ⟨rfl, rfl, rfl⟩

/-- A counter of errors, in its register and in its object. -/
theorem count (d : Dev) (f : Fld) {o : Obj} (h : O.SCRUB_PASSES.key ≠ o.key) : d.KeepsBytes ((d.fcount f 1).ocount o 1) :=
  ⟨rfl, rfl, by rw [Dev.oget_ocount_ne _ _ h, Dev.oget_fcount]⟩

theorem faultRaise (d : Dev) (n syn : Nat) (injected : Bool) : d.KeepsBytes (d.faultRaise n syn injected) :=
  ⟨by rw [Dev.faultRaise_mem], Dev.faultRaise_host .., d.oget_faultRaise n syn injected _ (by decide)⟩

theorem nearUncorrected (d : Dev) (ch : Nat) : d.KeepsBytes (d.nearUncorrected ch) := by
  unfold Dev.nearUncorrected
  exact .ite (setChan ..) (.trans (setChan ..) (faultRaise ..))

theorem memError (d : Dev) (line : Nat) (e : MemErr) (injected : Bool) : d.KeepsBytes (d.memError line e injected) := by
  unfold Dev.memError
  dsimp only
  refine .ite ?_ ?_
  · refine .trans ?_ (.ite (refl _) (nearUncorrected ..))
    refine .trans ?_ (faultRaise ..)
    refine .trans ?_ (.ite (count _ _ (by decide)) (count _ _ (by decide)))
    exact .ite (.trans (poison ..) (poison ..)) (poison ..)
  · refine .trans ?_ (faultRaise ..)
    exact .ite (count _ _ (by decide)) (count _ _ (by decide))

end Dev.KeepsBytes

theorem Dev.scrubPass_facts {d : Dev} (hen : d.fgetB F.MC_CTL_SCRUB_EN = true) (hself : d.mem.selfRefresh = false)
    (found : List (Nat × MemErr)) :
    (d.scrubPass found).oget O.SCRUB_PASSES = (d.oget O.SCRUB_PASSES + 1) % 2 ^ (8 * O.SCRUB_PASSES.size)
      ∧ (d.scrubPass found).mem.cells = d.mem.cells ∧ (d.scrubPass found).host = d.host := by
  rw [Dev.scrubPass, if_neg (by simp [hen, hself])]
  obtain ⟨hcells, hhost, hpasses⟩ := foldl_keeps (fun e => d.KeepsBytes e)
    (fun d p => if d.implemented (p.1 * 128) then d.memError p.1 p.2 false else d)
    (fun e p he => he.trans (.ite (.memError ..) (.refl e))) found d (.refl d)
  exact ⟨by rw [Dev.oget_ocount, hpasses], hcells, hhost⟩

/-! ### The obligation -/

/-- Settles O47: a request by its place in the list, the end of a retrain by its outcome, a remap by its record, a pass by its
errors. -/
theorem retrainsRunInTurn : Obligations.RetrainsRunInTurn := by
  intro s ch far found n away hs
  refine ⟨fun hch hup hnew hstate => ?_, fun first rest hlist => ⟨fun hrest => ?_, fun hretried => ?_⟩,
    fun first rest r hfirst hremaps hreserve => ?_, fun hen hself => ?_⟩
  · obtain ⟨hfacts, hreacts, hpipes⟩ :=
      Dev.retrainRequest_facts (d := s.dev.fput F.MC_RETRAIN_CHANNEL n) hch hup hnew hstate
    exact lands_of_quiet (f := fun d => d.retrainGo (.software ch)) rfl hs hreacts hpipes hfacts
  · obtain ⟨hfacts, hreacts, hpipes⟩ := Dev.retrainDone_pass_facts hlist hrest
    exact lands_of_quiet (f := fun d => d.retrainDone far true) rfl hs hreacts hpipes hfacts
  · exact brings_of (f := fun d => d.retrainDone far false) rfl hs (Dev.retrainDone_fail_facts hlist hretried)
  · obtain ⟨c, p, hrun⟩ := Dev.remapDone_eq hremaps hreserve
    obtain ⟨hstate, hobj, hrest, hreacts, hpipes⟩ := Dev.recordChan_facts
      { s.dev with mem := { s.dev.mem with cells := c, poison := p, remaps := rest } } hfirst (by decide : 3 < 256)
    rw [← hrun] at hstate hobj hrest hreacts hpipes
    exact lands_of_quiet (f := fun d => d.remapDone) rfl hs hreacts hpipes ⟨hstate, hrest, hobj⟩
  · exact brings_of (f := fun d => d.scrubPass (found.map (fun x => (x.1.toNat, x.2)))) rfl hs (Dev.scrubPass_facts hen hself _)

end Sys2Proof.Machine

/-! ## The work rings of Jamb (chapter 10) -/

namespace Sys2Proof.Machine

/-! ### Reads of queues and commands -/

theorem Dev.queue_congr {d e : Dev} (h : e.jamb.queues = d.jamb.queues) (q : Nat) : e.queue q = d.queue q := by
  rw [Dev.queue, Dev.queue, h]

theorem Dev.cmd_congr {d e : Dev} (h : e.jamb.cmds = d.jamb.cmds) (id : Nat) : e.cmd id = d.cmd id := by
  rw [Dev.cmd, Dev.cmd, h]

@[simp] theorem Dev.queue_mirror (d : Dev) (p q : Nat) : (d.mirror p).queue q = d.queue q :=
  Dev.queue_congr (congrArg Jamb.queues (Dev.mirror_jamb ..)) q

/-- A command that the engine drops is gone. -/
theorem Dev.cmd_dropCmd (d : Dev) (id : Nat) : (d.dropCmd id).cmd id = none := by
  simp [Dev.cmd, Dev.dropCmd]

/-- A command counts as backlogged by its phase alone. -/
theorem Dev.backlogOf_addCmd {c : Cmd} (d : Dev) (q : Nat) (h : c.phase ≠ .backlogged) : (d.addCmd c).backlogOf q = d.backlogOf q := by
  simp [Dev.backlogOf, Dev.addCmd, List.filter_append, h]

/-! ### Telling the host: the mirror and the interrupt (R244, R260, R261) -/

/-- Device `t` is `d` after queue `q` has told the host where it stands. Of queues and commands only the completions pending may have
changed, and of host memory only the mirror. -/
structure Dev.Signals (d t : Dev) (q : Nat) : Prop where
  queue : ∃ n, t.queue q = { d.queue q with pend := n }
  other : ∀ p, p ≠ q → t.queue p = d.queue p
  cmds : t.jamb.cmds = d.jamb.cmds
  backlog : t.jamb.backlog = d.jamb.backlog
  host : (d.queue q).cfg.mirEn = false → t.host = d.host
  calm : d.calm = true → t.calm = true

theorem Dev.Signals.trans {d e t : Dev} {q : Nat} (h : d.Signals e q) (k : e.Signals t q) : d.Signals t q := by
  obtain ⟨n, hn⟩ := h.queue
  obtain ⟨m, hm⟩ := k.queue
  refine ⟨⟨m, by rw [hm, hn]⟩, fun p hp => (k.other p hp).trans (h.other p hp), k.cmds.trans h.cmds, k.backlog.trans h.backlog,
    fun hoff => (k.host ?_).trans (h.host hoff), k.calm ∘ h.calm⟩
  rw [hn]
  exact hoff

/-- What leaves Jamb, host memory and calm as they are may come with it. -/
theorem Dev.signals_of_jamb {d t : Dev} (q : Nat) (hj : t.jamb = d.jamb) (hh : t.host = d.host) (hr : t.reacts = d.reacts)
    (hp : t.pipes = d.pipes) : d.Signals t q :=
  have hqueue := Dev.queue_congr (congrArg Jamb.queues hj)
  ⟨⟨_, hqueue q⟩, fun p _ => hqueue p, congrArg Jamb.cmds hj, congrArg Jamb.backlog hj, fun _ => hh, (Dev.calm_congr hr hp).trans⟩

/-- A queue that keeps no mirror writes none. -/
theorem Dev.mirror_of_off {d : Dev} {q : Nat} (h : (d.queue q).cfg.mirEn = false) : d.mirror q = d := by
  simp [Dev.mirror, h]

theorem Dev.calm_mirror {d : Dev} (q : Nat) (h : d.calm = true) : (d.mirror q).calm = true := by
  unfold Dev.mirror
  dsimp only
  split
  · exact Dev.calm_writeSpace _ _ _ h
  · exact h

theorem Dev.mirror_signals (d : Dev) (q : Nat) : d.Signals (d.mirror q) q where
  queue := ⟨_, d.queue_mirror q q⟩
  other p _ := d.queue_mirror q p
  cmds := congrArg Jamb.cmds (Dev.mirror_jamb ..)
  backlog := congrArg Jamb.backlog (Dev.mirror_jamb ..)
  host hoff := congrArg Dev.host (Dev.mirror_of_off hoff)
  calm := Dev.calm_mirror q

/-- A vector that is raised is no matter of queues or commands. -/
theorem Dev.raiseVector_jamb (d : Dev) (v : Nat) : (d.raiseVector v).jamb.queues = d.jamb.queues
    ∧ (d.raiseVector v).jamb.cmds = d.jamb.cmds ∧ (d.raiseVector v).jamb.backlog = d.jamb.backlog := by
  unfold Dev.raiseVector
  dsimp only
  split_ifs <;> exact ⟨rfl, rfl, rfl⟩

@[simp] theorem Dev.queue_raiseVector (d : Dev) (v q : Nat) : (d.raiseVector v).queue q = d.queue q :=
  Dev.queue_congr (d.raiseVector_jamb v).1 q

theorem Dev.raiseVector_signals (d : Dev) (v q : Nat) : d.Signals (d.raiseVector v) q := by
  obtain ⟨-, hcmds, hbacklog⟩ := d.raiseVector_jamb v
  exact ⟨⟨_, d.queue_raiseVector v q⟩, fun p _ => d.queue_raiseVector v p, hcmds, hbacklog, fun _ => Dev.raiseVector_host ..,
    fun h => (Dev.calm_congr (Dev.raiseVector_reacts ..) (Dev.raiseVector_pipes ..)).trans h⟩

/-- No completion is pending any more. -/
theorem Dev.cleared_signals (d : Dev) (q : Nat) : d.Signals (d.setQueue q { d.queue q with pend := 0 }) q :=
  ⟨⟨0, Dev.queue_setQueue ..⟩, fun _ hp => Dev.queue_setQueue_ne _ _ hp, rfl, rfl, fun _ => rfl, id⟩

/-- The interrupt of a queue: its mirror, then its message, after which nothing is pending. -/
theorem Dev.queueIrq_of_on {d : Dev} {q : Nat} (h : (d.queue q).cfg.irqEn = true) :
    d.queueIrq q = ((d.mirror q).setQueue q { d.queue q with pend := 0 }).raiseVector (d.queue q).cfg.vector := by
  simp only [Dev.queueIrq, h, if_true]

theorem Dev.queueIrq_of_off {d : Dev} {q : Nat} (h : (d.queue q).cfg.irqEn = false) : d.queueIrq q = d.mirror q := by
  simp only [Dev.queueIrq, h, Bool.false_eq_true, if_false]

theorem Dev.queueIrq_signals (d : Dev) (q : Nat) : d.Signals (d.queueIrq q) q := by
  have hmirror := d.mirror_signals q
  cases hon : (d.queue q).cfg.irqEn with
  | false =>
    rw [Dev.queueIrq_of_off hon]
    exact hmirror
  | true =>
    have hcleared := (d.mirror q).cleared_signals q
    rw [Dev.queue_mirror] at hcleared
    rw [Dev.queueIrq_of_on hon]
    exact (hmirror.trans hcleared).trans (Dev.raiseVector_signals ..)

/-! ### Raising a vector (R238, R261) -/

theorem Dev.raiseVector_of_open {d : Dev} {v : Nat} (hv : v < 2048) (h : (Sparse.get {} d.jamb.msix v).masked = false) :
    d.raiseVector v = d.emit (.msix v (Sparse.get {} d.jamb.msix v).addr (Sparse.get {} d.jamb.msix v).data) := by
  simp [Dev.raiseVector, hv, h]

theorem Dev.raiseVector_of_masked {d : Dev} {v : Nat} (hv : v < 2048) (h : (Sparse.get {} d.jamb.msix v).masked = true) :
    d.raiseVector v = { d with jamb := { d.jamb with
      msix := Sparse.set {} d.jamb.msix v { Sparse.get {} d.jamb.msix v with pending := true } } } := by
  simp [Dev.raiseVector, hv, h]

theorem Dev.coalesceTimeout_of_pending {d : Dev} {q : Nat} (h : (d.queue q).pend ≠ 0) : d.coalesceTimeout q = d.queueIrq q :=
  if_neg h

/-- Settles O12: the message of the vector, or its pending bit, by whether the vector is masked. -/
theorem coalesceTimeoutSendsTheInterrupt : Obligations.CoalesceTimeoutSendsTheInterrupt := by
  intro s q x m hs hpend hon hv
  refine gives_of (f := fun d => d.coalesceTimeout q.toNat) rfl hs ?_
  rw [Dev.coalesceTimeout_of_pending hpend, Dev.queueIrq_of_on hon]
  generalize he : (s.dev.mirror q.toNat).setQueue q.toNat { x with pend := 0 } = e
  have hpending : (e.queue q.toNat).pend = 0 := by rw [← he, Dev.queue_setQueue]
  have hmsix : e.jamb.msix = s.dev.jamb.msix := by rw [← he, Dev.setQueue_jamb_msix, Dev.mirror_jamb]
  have hout : e.out = s.dev.out := by rw [← he, Dev.setQueue_out, Dev.mirror_out]
  have hm : Sparse.get {} e.jamb.msix x.cfg.vector = m := by rw [hmsix]
  refine ⟨?_, fun hopen => ?_, fun hmasked => ?_⟩
  · rw [Dev.queue_raiseVector, hpending]
  · rw [Dev.raiseVector_of_open hv (hm ▸ hopen), hm, Dev.emit, hout]
  · rw [Dev.raiseVector_of_masked hv (hm ▸ hmasked), hm]
    exact ⟨hout, Sparse.get_set_self ..⟩

/-! ### CREATE and RESUME (R245, R263) -/

theorem sizeOk_iff (n : Nat) : sizeOk n = true ↔ 6 ≤ n ∧ n ≤ 20 := by
  simp [sizeOk]

/-- A rejected command changes the one flag. -/
theorem Dev.qctlReject_facts (d : Dev) :
    d.qctlReject.fget F.JB_STAT_CMD_REJECT = 1 ∧ d.qctlReject.jamb = d.jamb ∧ d.qctlReject.mem = d.mem
      ∧ d.qctlReject.host = d.host :=
  ⟨Dev.fget_fputB .., rfl, rfl, rfl⟩

/-- A queue is put, and its mirror written. -/
theorem Dev.putQueue_facts (d : Dev) (q : Nat) (x : Queue) :
    ((d.setQueue q x).mirror q).queue q = x ∧ (∀ p, p ≠ q → ((d.setQueue q x).mirror q).queue p = d.queue p)
      ∧ ((d.setQueue q x).mirror q).jamb.cmds = d.jamb.cmds := by
  refine ⟨?_, fun p hp => ?_, ?_⟩
  · rw [Dev.queue_mirror, Dev.queue_setQueue]
  · rw [Dev.queue_mirror, Dev.queue_setQueue_ne _ _ hp]
  · rw [Dev.mirror_jamb, Dev.setQueue_jamb_cmds]

/-- Settles O7: each command by whether it is accepted. -/
theorem createAndResumeMakeAQueueActive : Obligations.CreateAndResumeMakeAQueueActive := by
  refine ⟨fun s q hs => ⟨fun hok => ?_, fun hok => ?_⟩, fun s q hs => ⟨fun herr => ?_, fun herr => ?_⟩⟩
  · obtain ⟨habsent, hsq, hsq', hcq, hcq'⟩ := hok
    refine gives_of (f := fun d => d.qctlCreate q.toNat) rfl hs ?_
    rw [Dev.qctlCreate, if_pos ⟨habsent, (sizeOk_iff _).mpr ⟨hsq, hsq'⟩, (sizeOk_iff _).mpr ⟨hcq, hcq'⟩⟩]
    exact s.dev.putQueue_facts _ _
  · refine gives_of (f := fun d => d.qctlCreate q.toNat) rfl hs ?_
    rw [Dev.qctlCreate, if_neg (by simpa only [sizeOk_iff, and_assoc] using hok)]
    exact s.dev.qctlReject_facts
  · refine gives_of (f := fun d => d.qctlResume q.toNat) rfl hs ?_
    rw [Dev.qctlResume, if_pos herr]
    exact s.dev.putQueue_facts _ _
  · refine gives_of (f := fun d => d.qctlResume q.toNat) rfl hs ?_
    rw [Dev.qctlResume, if_neg herr]
    exact s.dev.qctlReject_facts

/-! ### FLUSH and DELETE of a queue with nothing in flight (R265, R266) -/

section
variable {d : Dev} {q : Nat} (h : ∀ c ∈ d.jamb.cmds, c.queue ≠ q)
include h

theorem Dev.flushWork_of_idle : d.flushWork q = d := by
  have hnone : d.jamb.cmds.filter (fun c => decide (c.queue = q)) = [] := by simpa using h
  simp only [Dev.flushWork, hnone, List.filter_nil, List.foldl_nil]

theorem Dev.nothingRuns_of_idle :
    d.jamb.cmds.any (fun c => decide (c.queue = q) && decide (c.phase ≠ .backlogged)) = false := by
  simpa using fun c hc hq => absurd hq (h c hc)

/-- A flush of such a queue is over at once. -/
theorem Dev.settleQueue_of_flushing (hst : (d.queue q).st = .flushing) :
    d.settleQueue q = d.setQueue q { d.queue q with st := .active } := by
  simp only [Dev.settleQueue, Dev.nothingRuns_of_idle h, Bool.false_eq_true, if_false, hst]

/-- A delete of such a queue is over at once. -/
theorem Dev.settleQueue_of_deleting (hst : (d.queue q).st = .deleting) :
    (d.settleQueue q).queue q = {} ∧ ∀ p, p ≠ q → (d.settleQueue q).queue p = d.queue p := by
  simp only [Dev.settleQueue, Dev.nothingRuns_of_idle h, Bool.false_eq_true, if_false, hst]
  exact ⟨Dev.queue_setQueue .., fun p hp => Dev.queue_setQueue_ne _ _ hp⟩

end

/-- The device on which a flush of a queue with nothing in flight has ended. -/
theorem Dev.qctlFlush_of_idle {d : Dev} {q : Nat} (h : ∀ c ∈ d.jamb.cmds, c.queue ≠ q)
    (hst : (d.queue q).st = .active ∨ (d.queue q).st = .error) :
    let x : Queue := { d.queue q with st := .flushing, flushTo := (d.queue q).sqP, sqC := (d.queue q).sqP }
    d.qctlFlush q = (((d.setQueue q x).setQueue q { x with st := .active }).mirror q).ocount O.FLUSHES 1 := by
  intro x
  rw [Dev.qctlFlush, if_pos hst]
  dsimp only
  rw [Dev.flushWork_of_idle (d := d.setQueue q x) h,
    Dev.settleQueue_of_flushing (d := d.setQueue q x) h (by rw [Dev.queue_setQueue]), Dev.queue_setQueue]

/-- What a queue loses as its delete begins: its completions in the backlog, and its entries that are not fetched. -/
def Dev.deleteBegun (d : Dev) (q : Nat) : Dev :=
  ({ d with jamb := { d.jamb with
    backlog := d.jamb.backlog.filter (fun i => !(d.jamb.cmds.any (fun c => decide (c.id = i ∧ c.queue = q))))
    cmds := d.jamb.cmds.filter (fun (c : Cmd) => !(decide (c.queue = q) && decide (c.phase = .backlogged))) } } : Dev).setQueue q
      { d.queue q with st := .deleting, flushTo := (d.queue q).sqP, sqC := (d.queue q).sqP, stall := false }

theorem Dev.deleteBegun_idle {d : Dev} {q : Nat} (h : ∀ c ∈ d.jamb.cmds, c.queue ≠ q) :
    ∀ c ∈ (d.deleteBegun q).jamb.cmds, c.queue ≠ q :=
  fun c hc => h c (List.mem_of_mem_filter hc)

/-- The device on which a delete of a queue with nothing in flight has ended. -/
theorem Dev.qctlDelete_of_idle {d : Dev} {q : Nat} (h : ∀ c ∈ d.jamb.cmds, c.queue ≠ q)
    (hst : (d.queue q).st = .active ∨ (d.queue q).st = .error) :
    d.qctlDelete q = (((d.deleteBegun q).mirror q).settleQueue q).ocount O.FLUSHES 1 := by
  have hwork := Dev.flushWork_of_idle (Dev.deleteBegun_idle h)
  rw [Dev.qctlDelete, if_neg (by rcases hst with hst | hst <;> simp [hst])]
  dsimp only
  rw [if_neg (by rcases hst with hst | hst <;> simp [hst])]
  exact congrArg (fun e : Dev => ((e.mirror q).settleQueue q).ocount O.FLUSHES 1) hwork

theorem Dev.calm_settleQueue {d : Dev} (q : Nat) (h : d.calm = true) : (d.settleQueue q).calm = true :=
  (Dev.calm_congr (Dev.settleQueue_reacts ..) (Dev.settleQueue_pipes ..)).trans h

theorem qctlFlush_lands {s : State} {q : BitVec 16} (hs : s.dev.serves = true)
    (hst : (s.dev.queue q.toNat).st = .active ∨ (s.dev.queue q.toNat).st = .error) (h : ∀ c ∈ s.dev.jamb.cmds, c.queue ≠ q.toNat) :
    Lands (.qctlFlush q) s (fun d =>
      (d.queue q.toNat).st = .active ∧ (d.queue q.toNat).sqC = (s.dev.queue q.toNat).sqP
      ∧ (d.queue q.toNat).sqP = (s.dev.queue q.toNat).sqP ∧ ∀ p, p ≠ q.toNat → d.queue p = s.dev.queue p) := by
  have hrun := Dev.qctlFlush_of_idle h hst
  refine lands_of (f := fun d => d.qctlFlush q.toNat) rfl hs ?_ fun hcalm => ?_
  · simp only [hrun, Dev.queue_ocount, Dev.queue_mirror, Dev.queue_setQueue, true_and]
    intro p hp
    rw [Dev.queue_setQueue_ne _ _ hp, Dev.queue_setQueue_ne _ _ hp]
  · simp only [hrun]
    exact Dev.calm_mirror _ hcalm

theorem qctlDelete_lands {s : State} {q : BitVec 16} (hs : s.dev.serves = true)
    (hst : (s.dev.queue q.toNat).st = .active ∨ (s.dev.queue q.toNat).st = .error) (h : ∀ c ∈ s.dev.jamb.cmds, c.queue ≠ q.toNat) :
    Lands (.qctlDelete q) s (fun d => d.queue q.toNat = {} ∧ ∀ p, p ≠ q.toNat → d.queue p = s.dev.queue p) := by
  have hrun := Dev.qctlDelete_of_idle h hst
  have hst' : (((s.dev.deleteBegun q.toNat).mirror q.toNat).queue q.toNat).st = .deleting := by
    rw [Dev.queue_mirror, Dev.deleteBegun, Dev.queue_setQueue]
  obtain ⟨hself, hother⟩ := Dev.settleQueue_of_deleting (d := (s.dev.deleteBegun q.toNat).mirror q.toNat)
    (by rw [Dev.mirror_jamb]; exact Dev.deleteBegun_idle h) hst'
  refine lands_of (f := fun d => d.qctlDelete q.toNat) rfl hs ?_ fun hcalm => ?_
  · simp only [hrun, Dev.queue_ocount]
    refine ⟨hself, fun p hp => ?_⟩
    rw [hother p hp, Dev.queue_mirror, Dev.deleteBegun, Dev.queue_setQueue_ne _ _ hp]
    rfl
  · simp only [hrun]
    exact Dev.calm_settleQueue _ (Dev.calm_mirror _ hcalm)

/-- A command that is rejected. -/
theorem lands_of_reject {i : Instr} {s : State} {f : Dev → Dev} (h : exec i s = serve s f) (hs : s.dev.serves = true)
    (hf : f s.dev = s.dev.qctlReject) : Lands i s (fun d => d.fget F.JB_STAT_CMD_REJECT = 1 ∧ d.jamb = s.dev.jamb) := by
  obtain ⟨hflag, hjamb, -, -⟩ := s.dev.qctlReject_facts
  refine lands_of_quiet h hs ?_ ?_ ?_ <;> rw [hf]
  · exact Dev.qctlReject_reacts _
  · exact Dev.qctlReject_pipes _
  · exact ⟨hflag, hjamb⟩

/-- Settles O8: a flush and a delete of a queue with nothing in flight run to their end, and of an absent queue they are rejected. -/
theorem flushAndDeleteEndAnIdleQueue : Obligations.FlushAndDeleteEndAnIdleQueue := by
  refine fun s q hs => ⟨fun hst h => ⟨qctlFlush_lands hs hst h, qctlDelete_lands hs hst h⟩, fun habsent => ⟨?_, ?_⟩⟩
  · exact lands_of_reject (f := fun d => d.qctlFlush q.toNat) rfl hs (if_neg (by simp [habsent]))
  · exact lands_of_reject (f := fun d => d.qctlDelete q.toNat) rfl hs (if_pos (.inl habsent))

/-! ### Completions: the ring and the backlog (R243, R255, R259) -/

/-- A queue that is neither flushed nor deleted has no end to reach. -/
theorem Dev.settleQueue_of_active {d : Dev} {q : Nat} (h : (d.queue q).st = .active) : d.settleQueue q = d := by
  simp only [Dev.settleQueue, h, ite_self]

/-- What a completion that is written changes of Jamb. -/
theorem Dev.writeCqe_jamb (d : Dev) (c : Cmd) : (d.writeCqe c).jamb
    = ((d.setQueue c.queue { d.queue c.queue with cqP := (d.queue c.queue).cqP + 1, pend := (d.queue c.queue).pend + 1 }).dropCmd
        c.id).jamb := by
  simp [Dev.writeCqe, Dev.setQueue, Dev.dropCmd]

theorem Dev.queue_writeCqe (d : Dev) (c : Cmd) : (d.writeCqe c).queue c.queue
    = { d.queue c.queue with cqP := (d.queue c.queue).cqP + 1, pend := (d.queue c.queue).pend + 1 } := by
  rw [Dev.queue_congr (congrArg Jamb.queues (d.writeCqe_jamb c)), Dev.queue_dropCmd, Dev.queue_setQueue]

theorem Dev.cmd_writeCqe (d : Dev) (c : Cmd) : (d.writeCqe c).cmd c.id = none := by
  rw [Dev.cmd_congr (congrArg Jamb.cmds (d.writeCqe_jamb c)), Dev.cmd_dropCmd]

theorem Dev.writeCqe_backlog (d : Dev) (c : Cmd) : (d.writeCqe c).jamb.backlog = d.jamb.backlog.filter (fun i => i ≠ c.id) :=
  congrArg Jamb.backlog (d.writeCqe_jamb c)

/-- An entry for a ring in host memory stands there. -/
theorem Dev.writeCqe_host {d : Dev} {c : Cmd} (h : (d.queue c.queue).cfg.cqEng = false) : (d.writeCqe c).host
    = (d.hostWrite ((d.queue c.queue).cfg.cqBase + (d.queue c.queue).cqP.toNat % (d.queue c.queue).cqSize * 32) (cqEntry c)).host := by
  simp [Dev.writeCqe, Dev.writeSpace, h]

theorem Dev.calm_writeCqe {d : Dev} (c : Cmd) (h : d.calm = true) : (d.writeCqe c).calm = true :=
  Dev.calm_writeSpace (d.queue c.queue).cfg.cqEng _ (cqEntry c) h

/-- A completion that finds room is written, and the queue tells the host. -/
theorem Dev.post_room {d : Dev} {c : Cmd} (hst : (d.queue c.queue).st = .active) (hroom : (d.queue c.queue).cqRoom = true)
    (hfirst : d.backlogOf c.queue = 0) : (d.writeCqe c).Signals (d.post c) c.queue := by
  have hactive : ((d.writeCqe c).queue c.queue).st = .active := by rw [Dev.queue_writeCqe, hst]
  rw [Dev.post, if_neg (by simp [hst]), if_pos ⟨hroom, hfirst⟩]
  dsimp only
  rw [Dev.settleQueue_of_active hactive]
  split
  · exact Dev.queueIrq_signals ..
  · exact Dev.mirror_signals ..

/-- A completion goes behind the others of the backlog. -/
def Dev.waiting (d : Dev) (c : Cmd) : Dev :=
  let e := d.mapCmd c.id (fun k => { k with phase := .backlogged })
  { e with jamb := { e.jamb with backlog := d.jamb.backlog ++ [c.id] } }

theorem Dev.queue_waiting (d : Dev) (c : Cmd) (p : Nat) : (d.waiting c).queue p = d.queue p := rfl

/-- A completion goes behind the others of the backlog, and its queue stalls. -/
def Dev.stalled (d : Dev) (c : Cmd) : Dev := (d.waiting c).setQueue c.queue { d.queue c.queue with stall := true }

theorem Dev.queue_stalled (d : Dev) (c : Cmd) : (d.stalled c).queue c.queue = { d.queue c.queue with stall := true } :=
  Dev.queue_setQueue ..

theorem Dev.queue_stalled_ne (d : Dev) {c : Cmd} {p : Nat} (h : p ≠ c.queue) : (d.stalled c).queue p = d.queue p :=
  Dev.queue_setQueue_ne _ _ h

/-- Only the completion that stalls its queue interrupts. -/
theorem Dev.toBacklog_eq (d : Dev) (c : Cmd) : ∃ n, d.toBacklog c =
    if (d.queue c.queue).stall then (d.waiting c).fput F.JB_BACKLOG_PEAK n
    else (((d.stalled c).fput F.JB_BACKLOG_PEAK n).ocount O.STALLS 1).queueIrq c.queue := ⟨_, rfl⟩

/-- A queue that is stalled already stays as it is. -/
theorem Dev.stalled_signals {d : Dev} {c : Cmd} (h : (d.queue c.queue).stall = true) : (d.stalled c).Signals (d.waiting c) c.queue := by
  refine ⟨⟨(d.queue c.queue).pend, ?_⟩, fun p hp => ?_, rfl, rfl, fun _ => rfl, id⟩
  · rw [Dev.queue_stalled, Dev.queue_waiting, ← h]
  · rw [Dev.queue_stalled_ne _ hp, Dev.queue_waiting]

theorem Dev.toBacklog_signals (d : Dev) (c : Cmd) : (d.stalled c).Signals (d.toBacklog c) c.queue := by
  obtain ⟨n, hrun⟩ := d.toBacklog_eq c
  rw [hrun]
  split
  next hstall => exact (Dev.stalled_signals hstall).trans (Dev.signals_of_jamb _ rfl rfl rfl rfl)
  next =>
    have hcounted : (d.stalled c).Signals (((d.stalled c).fput F.JB_BACKLOG_PEAK n).ocount O.STALLS 1) c.queue :=
      Dev.signals_of_jamb _ rfl rfl rfl rfl
    exact hcounted.trans (Dev.queueIrq_signals ..)

/-- A completion that finds no room, or others before it, goes into the backlog, and the queue tells the host. -/
theorem Dev.post_full {d : Dev} {c : Cmd} (hst : (d.queue c.queue).st = .active)
    (hfull : ¬ ((d.queue c.queue).cqRoom = true ∧ d.backlogOf c.queue = 0)) : (d.stalled c).Signals (d.post c) c.queue := by
  have hback := d.toBacklog_signals c
  have hactive : ((d.toBacklog c).queue c.queue).st = .active := by
    obtain ⟨n, hn⟩ := hback.queue
    rw [hn, Dev.queue_stalled, hst]
  rw [Dev.post, if_neg (by simp [hst]), if_neg hfull, Dev.settleQueue_of_active hactive]
  exact hback.trans (Dev.mirror_signals ..)

theorem Dev.completionPost_of_finished {d : Dev} {id : Nat} {c : Cmd} (hc : d.cmd id = some c) (hp : c.phase = .finished)
    (hrun : d.halted = false) : d.completionPost id = d.post c := by
  simp [Dev.completionPost, hc, hp, hrun]

/-- Settles O11: a completion finds room or does not, and its queue tells the host of it. -/
theorem completionsGoToTheRingOrTheBacklog : Obligations.CompletionsGoToTheRingOrTheBacklog := by
  refine ⟨fun s id c hs hrun hc hp hst hroom hfirst => ?_, fun s id c hs hrun hc hp hst hroom => ?_⟩
  · refine gives_of (f := fun d => d.completionPost id) rfl hs ?_
    obtain rfl := Dev.cmd_id hc
    rw [Dev.completionPost_of_finished hc hp hrun]
    have hpost := Dev.post_room hst hroom hfirst
    obtain ⟨n, hn⟩ := hpost.queue
    rw [Dev.queue_writeCqe] at hn
    refine ⟨by rw [hn], ?_, fun heng hmir => ?_⟩
    · rw [Dev.cmd_congr hpost.cmds, Dev.cmd_writeCqe]
    · rw [hpost.host (by rw [Dev.queue_writeCqe]; exact hmir), Dev.writeCqe_host heng]
  · refine gives_of (f := fun d => d.completionPost id) rfl hs ?_
    obtain rfl := Dev.cmd_id hc
    rw [Dev.completionPost_of_finished hc hp hrun]
    have hpost := Dev.post_full hst (by simp [hroom])
    obtain ⟨n, hn⟩ := hpost.queue
    rw [Dev.queue_stalled] at hn
    refine ⟨by rw [hn], by rw [hn], hpost.backlog, ?_⟩
    rw [Dev.cmd_congr hpost.cmds]
    exact (Dev.cmd_mapCmd s.dev c.id (fun k => { k with phase := .backlogged }) fun _ => rfl).trans (by rw [hc]; rfl)

/-! ### Reads of memory by devices that hold the same memory -/

namespace Dev.MapsAs
variable {d e : Dev} (h : e.MapsAs d)
include h

/- The definition is unfolded as a function: unfolded at an address, the kernel evaluates the region that it matches on, down to a product
with 2^30 that it counts out. -/
theorem nearMap (a : Nat) : e.nearMap a = d.nearMap a := by
  have hdef : Dev.nearMap = Dev.nearMap := rfl
  conv_rhs at hdef => delta Dev.nearMap
  rw [hdef]
  beta_reduce
  rw [h.localOf, h.parkBytes, h.stackList]

theorem farSubs : e.farSubs = d.farSubs := by
  obtain ⟨-, cells, poison, hm⟩ := h
  simp only [Dev.farSubs, hm]

theorem farMap (a : Nat) : e.farMap a = d.farMap a := by
  rw [Dev.farMap, Dev.farMap, h.farSubs]

theorem chanOf (a : Nat) : e.chanOf a = d.chanOf a := by
  simp only [Dev.chanOf, h.nearMap, h.farMap]

theorem reserveBase : e.reserveBase = d.reserveBase := by
  have hfar := h.farBytes
  obtain ⟨-, cells, poison, hm⟩ := h
  simp only [Dev.reserveBase, hfar, hm]

theorem physical (a : Nat) : e.physical a = d.physical a := by
  simp only [Dev.physical, h.chan, h.chanOf, h.nearMap, h.reserveBase, h.stackBytes]

theorem offline (a : Nat) : e.offline a = d.offline a := by
  simp only [Dev.offline, h.chan, h.chanOf, h.physical]

end Dev.MapsAs

/-- Device `e` holds the host and engine memory of `d`, and meets the same failures of the host. -/
structure Dev.ReadsAs (e d : Dev) : Prop where
  mem : e.mem = d.mem
  ordering : e.ordering288 = d.ordering288
  host : e.host = d.host
  hostBad : e.hostBad = d.hostBad

namespace Dev.ReadsAs
variable {d e : Dev} (h : e.ReadsAs d)
include h

theorem mapsAs : e.MapsAs d := ⟨h.ordering, d.mem.cells, d.mem.poison, h.mem⟩

theorem poisoned (a n : Nat) : e.poisoned a n = d.poisoned a n := by
  have hat : e.poisonedAt = d.poisonedAt := by
    funext b
    simp only [Dev.poisonedAt, h.mapsAs.implemented, h.mapsAs.offline, h.mapsAs.physical, h.mem]
  rw [Dev.poisoned, Dev.poisoned, hat]

theorem engBytes (a n : Nat) : e.engBytes a n = d.engBytes a n := by
  simp only [Dev.engBytes, Dev.engByte, h.mapsAs.implemented, h.mapsAs.physical, h.mem]

theorem readSpace (eng : Bool) (a n : Nat) : e.readSpace eng a n = d.readSpace eng a n := by
  have hfails : e.hostFails a n = d.hostFails a n := by rw [Dev.hostFails, Dev.hostFails, h.hostBad]
  have hbytes : e.hostBytes a n = d.hostBytes a n := by rw [Dev.hostBytes, Dev.hostBytes, h.host]
  rw [Dev.readSpace, Dev.readSpace, h.poisoned, h.engBytes, hfails, hbytes]

theorem sqSlot (x : Queue) (i : BitVec 32) : e.sqSlot x i = d.sqSlot x i := h.readSpace ..

theorem sqSlots (x : Queue) (n : Nat) (i : BitVec 32) : e.sqSlots x n i = d.sqSlots x n i := by
  induction n generalizing i with
  | zero => rfl
  | succ n ih => simp only [Dev.sqSlots, h.sqSlot, ih]

theorem dataList (entry : Bytes) (addr count first : Nat) (eng : Bool) :
    e.dataList entry addr count first eng = d.dataList entry addr count first eng := by
  simp only [Dev.dataList, h.readSpace]

theorem gather (es : List Elem) (n : Nat) : e.gather es n = d.gather es n := by
  induction es generalizing n with
  | nil => rfl
  | cons x es ih => simp only [Dev.gather, h.readSpace, ih]

end Dev.ReadsAs

/-! ### Fetch (R257, R263) -/

/-- The rotation has come to a queue. -/
def Dev.turned (d : Dev) (q : Nat) : Dev := { d with jamb := { d.jamb with rot := q } }

theorem Dev.readsAs_turned (d : Dev) (q : Nat) : (d.turned q).ReadsAs d := ⟨rfl, rfl, rfl, rfl⟩

/-- A turn of a queue of weight 1 is one fetch. -/
theorem Dev.entryFetch_of_turn {d : Dev} {q : Nat} (hrun : d.halted = false) (hpark : d.life.parking = false)
    (hturn : d.nextTurn = some q) (hw : (d.queue q).cfg.weight ≤ 1) : d.entryFetch none = (d.turned q).fetchOne q := by
  have hone : max 1 ((d.turned q).queue q).cfg.weight = 1 := max_eq_left hw
  rw [Dev.entryFetch, if_neg (by simp [hrun, hpark])]
  simp only [hturn]
  exact congrArg ((d.turned q).fetchMany q) hone

section
variable {d : Dev} {q : Nat} {head b : Bytes} (hready : d.fetchable q = true)
  (hhead : d.sqSlot (d.queue q) (d.queue q).sqC = .ok head) (hlo : 1 ≤ fieldAt head 1 1) (hhi : fieldAt head 1 1 ≤ 64)
  (hcover : fieldAt head 1 1 ≤ ((d.queue q).sqP - (d.queue q).sqC).toNat)
  (hread : d.sqSlots (d.queue q) (fieldAt head 1 1) (d.queue q).sqC = .ok b)
include hready hhead hlo hhi hcover hread

theorem Dev.fetchOne_eq : d.fetchOne q =
    if entryStatus b ≠ 0 then d.fetchFail q (entryStatus b) (fieldAt head 4 4)
    else (((d.addCmd { id := d.jamb.nextCmd, queue := q, slot := (d.queue q).sqC, opcode := fieldAt b 0 1
                       flags := fieldAt b 2 2, tag := fieldAt head 4 4, entry := b }).setQueue q
      { d.queue q with sqC := (d.queue q).sqC + BitVec.ofNat 32 (fieldAt head 1 1) }).ocount O.COMMANDS 1).mirror q := by
  have hlen : ¬ (fieldAt head 1 1 < 1 ∨ 64 < fieldAt head 1 1) := by omega
  simp only [Dev.fetchOne, hready, hhead, hlen, hread, Nat.not_lt.mpr hcover, Bool.true_eq_false, if_false]

/-- An entry that passes: one command more, and the consumer index past the entry. -/
theorem Dev.fetchOne_passes (hst : entryStatus b = 0) :
    (d.fetchOne q).jamb.cmds = d.jamb.cmds ++
      [{ id := d.jamb.nextCmd, queue := q, slot := (d.queue q).sqC, opcode := fieldAt b 0 1, flags := fieldAt b 2 2
         tag := fieldAt head 4 4, entry := b }]
    ∧ (d.fetchOne q).queue q = { d.queue q with sqC := (d.queue q).sqC + BitVec.ofNat 32 (fieldAt head 1 1) }
    ∧ (d.fetchOne q).jamb.rot = d.jamb.rot ∧ (d.calm = true → (d.fetchOne q).calm = true) := by
  rw [Dev.fetchOne_eq hready hhead hlo hhi hcover hread, if_neg (not_not.mpr hst), Dev.mirror_jamb, Dev.queue_mirror]
  exact ⟨rfl, Dev.queue_setQueue .., rfl, fun hcalm => Dev.calm_mirror q hcalm⟩

end

/-- The completion of an entry that fails a check. -/
def Dev.refused (d : Dev) (q status tag : Nat) : Cmd :=
  { id := d.jamb.nextCmd, queue := q, slot := (d.queue q).sqC, opcode := 0, flags := 0, tag := tag, entry := [], phase := .finished
    status := status }

/-- It has no result (R255). -/
theorem Dev.cqEntry_refused (d : Dev) (q status tag : Nat) :
    cqEntry (d.refused q status tag) = leBytes 4 tag ++ leBytes 2 q ++ leBytes 2 status ++ zeros 24 := by
  have hnone : leBytes 4 0 ++ (fit 16 [] ++ zeros 4) = zeros 24 := by decide
  simp only [cqEntry, Dev.refused, List.append_assoc, ← hnone]

/-- The device on which that completion is posted. -/
def Dev.refusing (d : Dev) (q status tag : Nat) : Dev := d.addCmd (d.refused q status tag)

/-- The queue stops at the entry. -/
def Dev.stopped (e : Dev) (q : Nat) : Dev := e.setQueue q { e.queue q with st := .error, errIdx := (e.queue q).sqC }

/-- A failed check: its completion is posted, the queue stops, and it tells the host so. -/
theorem Dev.fetchFail_signals (d : Dev) (q status tag : Nat) :
    (((d.refusing q status tag).post (d.refused q status tag)).stopped q).Signals (d.fetchFail q status tag) q := by
  generalize hpost : (d.refusing q status tag).post (d.refused q status tag) = e
  have hcounted : (e.stopped q).Signals (((e.stopped q).countPoison status).ocount O.MALFORMED 1) q :=
    Dev.signals_of_jamb _ (Dev.countPoison_jamb ..) (Dev.countPoison_host ..) (Dev.countPoison_reacts ..) (Dev.countPoison_pipes ..)
  have hrun : d.fetchFail q status tag = (((e.stopped q).countPoison status).ocount O.MALFORMED 1).queueIrq q := by
    subst hpost
    rfl
  rw [hrun]
  exact hcounted.trans (Dev.queueIrq_signals ..)

/-- What a failed check leaves, from the device `p` with its completion in the ring or the backlog. -/
theorem Dev.fetchFail_of_post {d p : Dev} {q status tag : Nat}
    (h : p.Signals ((d.refusing q status tag).post (d.refused q status tag)) q) :
    (∃ n, (d.fetchFail q status tag).queue q = { p.queue q with st := .error, errIdx := (p.queue q).sqC, pend := n })
      ∧ (d.fetchFail q status tag).jamb.backlog = p.jamb.backlog
      ∧ ((p.queue q).cfg.mirEn = false → (d.fetchFail q status tag).host = p.host)
      ∧ (p.calm = true → (d.fetchFail q status tag).calm = true) := by
  have hfail := d.fetchFail_signals q status tag
  obtain ⟨m, hm⟩ := h.queue
  obtain ⟨n, hn⟩ := hfail.queue
  rw [Dev.stopped, Dev.queue_setQueue, hm] at hn
  refine ⟨⟨n, hn⟩, hfail.backlog.trans h.backlog, fun hoff => (hfail.host ?_).trans (h.host hoff),
    fun hcalm => hfail.calm (h.calm hcalm)⟩
  rw [Dev.stopped, Dev.queue_setQueue, hm]
  exact hoff

/-- A failed check whose completion finds room. -/
theorem Dev.fetchFail_room {d : Dev} {q : Nat} (status tag : Nat) (hst : (d.queue q).st = .active)
    (hroom : (d.queue q).cqRoom = true) (hfirst : d.backlogOf q = 0) :
    (∃ n, (d.fetchFail q status tag).queue q
        = { d.queue q with st := .error, errIdx := (d.queue q).sqC, cqP := (d.queue q).cqP + 1, pend := n })
      ∧ (d.fetchFail q status tag).jamb.backlog = d.jamb.backlog.filter (fun i => i ≠ d.jamb.nextCmd)
      ∧ ((d.queue q).cfg.cqEng = false → (d.queue q).cfg.mirEn = false → (d.fetchFail q status tag).host
          = (d.hostWrite ((d.queue q).cfg.cqBase + (d.queue q).cqP.toNat % (d.queue q).cqSize * 32)
              (leBytes 4 tag ++ leBytes 2 q ++ leBytes 2 status ++ zeros 24)).host)
      ∧ (d.calm = true → (d.fetchFail q status tag).calm = true) := by
  have hpost := Dev.post_room (d := d.refusing q status tag) (c := d.refused q status tag) hst hroom
    ((Dev.backlogOf_addCmd d q (by simp [Dev.refused])).trans hfirst)
  have hqueue : ((d.refusing q status tag).writeCqe (d.refused q status tag)).queue q
      = { d.queue q with cqP := (d.queue q).cqP + 1, pend := (d.queue q).pend + 1 } := Dev.queue_writeCqe _ (d.refused q status tag)
  obtain ⟨hself, hback, hhost, hcalm⟩ := Dev.fetchFail_of_post hpost
  rw [hqueue] at hself hhost
  refine ⟨hself, hback.trans (Dev.writeCqe_backlog ..), fun heng hmir => ?_, fun h => hcalm (Dev.calm_writeCqe _ h)⟩
  rw [hhost hmir, Dev.writeCqe_host heng, Dev.cqEntry_refused]
  rfl

/-- A failed check whose completion goes into the backlog. -/
theorem Dev.fetchFail_full {d : Dev} {q : Nat} (status tag : Nat) (hst : (d.queue q).st = .active)
    (hfull : ¬ ((d.queue q).cqRoom = true ∧ d.backlogOf q = 0)) :
    (∃ n, (d.fetchFail q status tag).queue q
        = { d.queue q with st := .error, errIdx := (d.queue q).sqC, stall := true, pend := n })
      ∧ (d.fetchFail q status tag).jamb.backlog = d.jamb.backlog ++ [d.jamb.nextCmd]
      ∧ (d.calm = true → (d.fetchFail q status tag).calm = true) := by
  have hsame : (d.refusing q status tag).backlogOf q = d.backlogOf q := Dev.backlogOf_addCmd d q (by simp [Dev.refused])
  have hpost := Dev.post_full (d := d.refusing q status tag) (c := d.refused q status tag) hst (fun h => hfull ⟨h.1, hsame ▸ h.2⟩)
  have hqueue : ((d.refusing q status tag).stalled (d.refused q status tag)).queue q = { d.queue q with stall := true } :=
    Dev.queue_stalled _ (d.refused q status tag)
  obtain ⟨hself, hback, -, hcalm⟩ := Dev.fetchFail_of_post hpost
  rw [hqueue] at hself
  exact ⟨hself, hback, hcalm⟩

/-- A queue whose turn comes is ACTIVE. -/
theorem Dev.active_of_fetchable {d : Dev} {q : Nat} (h : d.fetchable q = true) : (d.queue q).st = .active := by
  simp only [Dev.fetchable, Bool.and_eq_true, decide_eq_true_eq] at h
  obtain ⟨⟨⟨⟨hst, -⟩, -⟩, -⟩, -⟩ := h
  exact hst

/-- Settles O9: an entry that passes is fetched; one that fails has its completion posted, to the ring or to the backlog. -/
theorem fetchTakesOrRefusesTheNextEntry : Obligations.FetchTakesOrRefusesTheNextEntry := by
  refine ⟨fun s q head b hs hrun hpark hturn hready hw hhead hlo hhi hcover hread hst => ?_,
    fun s q head b hs hrun hpark hturn hready hw hhead hlo hhi hcover hread hst => ?_⟩
  all_goals
    have hfetch := Dev.entryFetch_of_turn hrun hpark hturn hw
    rw [← (s.dev.readsAs_turned q).sqSlot] at hhead
    rw [← (s.dev.readsAs_turned q).sqSlots] at hread
  · obtain ⟨hcmds, hqueue, hrot, hcalm⟩ := Dev.fetchOne_passes (d := s.dev.turned q) hready hhead hlo hhi hcover hread hst
    rw [← hfetch] at hcmds hqueue hrot hcalm
    exact lands_of (f := fun d => d.entryFetch none) rfl hs ⟨hcmds, hqueue, hrot⟩ hcalm
  · have hactive := Dev.active_of_fetchable hready
    rw [Dev.fetchOne_eq (d := s.dev.turned q) hready hhead hlo hhi hcover hread, if_pos hst] at hfetch
    by_cases hroom : (s.dev.queue q).cqRoom = true ∧ s.dev.backlogOf q = 0
    · obtain ⟨⟨n, hqueue⟩, hback, hhost, hcalm⟩ :=
        Dev.fetchFail_room (d := s.dev.turned q) (entryStatus b) (fieldAt head 4 4) hactive hroom.1 hroom.2
      rw [← hfetch] at hqueue hback hhost hcalm
      refine lands_of (f := fun d => d.entryFetch none) rfl hs ?_ hcalm
      rw [hqueue]
      exact ⟨rfl, rfl, rfl, fun _ _ => ⟨rfl, hback, hhost⟩, fun h => absurd (hroom.1.symm.trans h) (by decide)⟩
    · obtain ⟨⟨n, hqueue⟩, hback, hcalm⟩ :=
        Dev.fetchFail_full (d := s.dev.turned q) (entryStatus b) (fieldAt head 4 4) hactive hroom
      rw [← hfetch] at hqueue hback hcalm
      refine lands_of (f := fun d => d.entryFetch none) rfl hs ?_ hcalm
      rw [hqueue]
      exact ⟨rfl, rfl, rfl, fun h h0 => absurd ⟨h, h0⟩ hroom, fun _ => ⟨rfl, rfl, hback⟩⟩

/-! ### Dispatch (R257) -/

/-- A command that fixes nothing at its dispatch. -/
theorem Dev.commandDispatch_of_plain {d : Dev} {q : Nat} {c : Cmd} (hq : d.dispatches q = true) (hc : d.nextDispatch q = some c)
    (hsync : c.opcode ≠ opStoreSync) (hdigest : c.opcode ≠ opDigest) (hattest : c.opcode ≠ opAttest) :
    d.commandDispatch q = d.markDispatched c.id := by
  simp only [Dev.commandDispatch, hq, hc, hsync, hdigest, hattest, Bool.true_eq_false, if_false]

/-- Settles O10: only what such a command needs to be dispatched changes. -/
theorem dispatchTakesTheOldestFetchedCommand : Obligations.DispatchTakesTheOldestFetchedCommand := by
  intro s q c hs hq hc hsync hdigest hattest
  have hrun := Dev.commandDispatch_of_plain hq hc hsync hdigest hattest
  refine lands_of_quiet (f := fun d => d.commandDispatch q.toNat) rfl hs ?_ ?_ ?_ <;> rw [hrun]
  · exact Dev.markDispatched_reacts ..
  · exact Dev.markDispatched_pipes ..
  · exact ⟨rfl, rfl⟩

/-! ### NOP (R254) -/

/-- A NOP that runs ends with a zero result. -/
theorem Dev.nopRun_eq {d : Dev} {id : Nat} {k : Cmd} (h : d.running id opNop = some k) : d.nopRun id = d.finish id 0 (zeros 16) 0 := by
  simp only [Dev.nopRun, h]

/-- A number is zero where each byte that spells it is. -/
theorem leNat_eq_zero_iff (b : Bytes) : leNat b = 0 ↔ ∀ x ∈ b, x = 0 := by
  induction b with
  | nil => simp [leNat]
  | cons x b ih =>
    have hx : x.toNat = 0 ↔ x = 0 := by rw [← BitVec.toNat_inj]; rfl
    simp [leNat, ih, hx]

/-- Bytes that must be zero spell zero. -/
theorem zeroAt_iff (b : Bytes) (lo hi : Nat) : zeroAt b lo hi = true ↔ fieldAt b lo (hi - lo) = 0 := by
  simp only [zeroAt, fieldAt, leNat_eq_zero_iff, List.all_eq_true, beq_iff_eq]

/-- The header rules of R247. -/
theorem headerOk_iff (b : Bytes) : headerOk b = true ↔ fieldAt b 2 2 < 4 ∧ fieldAt b 8 8 = 0 := by
  simp only [headerOk, Bool.and_eq_true, decide_eq_true_eq, zeroAt_iff]

/-- What the checks of a NOP's entry come to: none looks behind its header. -/
theorem entryStatus_of_nop {b : Bytes} (h : fieldAt b 0 1 = opNop) :
    entryStatus b = if fieldAt b 1 1 < 1 ∨ 64 < fieldAt b 1 1 then 0x0101
      else if fieldAt b 2 2 < 4 ∧ fieldAt b 8 8 = 0 then 0 else 0x0103 := by
  have hlen : opLengths opNop = some (1, 64) := by decide
  have hfields : fieldsOk opNop b (fieldAt b 1 1) = true := by simp [fieldsOk]
  simp only [entryStatus, h, hlen, hfields, headerOk_iff, Bool.and_true, ne_eq, not_true_eq_false, false_and, if_false]

/-- Settles O13: what a NOP does, and what the checks of its entry come to. -/
theorem nopCompletesWithZero : Obligations.NopCompletesWithZero := by
  refine ⟨fun s id k hs hk => ?_, fun b h _ => entryStatus_of_nop h⟩
  refine gives_of (f := fun d => d.nopRun id) rfl hs ?_
  rw [Dev.nopRun_eq hk]
  exact ⟨Dev.finish_ended _ _ _ _ _ (Dev.running_isSome hk), rfl⟩

/-! ### Doorbells (R242) -/

/-- What is awake stays awake. -/
theorem Dev.wake_of_awake {d : Dev} (h : d.life.idle = false) : d.wake = d := by
  simp [Dev.wake, h]

theorem Dev.wake_life (d : Dev) : d.wake.life = { d.life with idle := false } := by
  unfold Dev.wake
  split
  · rfl
  next h => rw [← show d.life.idle = false by simpa using h]

/-- Whether the engine serves is a matter of its life and of the firmware's stage. -/
theorem Dev.serves_congr {d e : Dev} (hs : e.life.supplies = d.life.supplies) (hp : e.life.parked = d.life.parked)
    (hf : e.fget F.LM_STAT_STAGE = d.fget F.LM_STAT_STAGE) : e.serves = d.serves := by
  simp only [Dev.serves, Dev.powered, Dev.recovering, hs, hp, hf]

/-- An SQ producer doorbell leaves an engine that serves awake and serving. -/
theorem Dev.sqDoorbell_frame (d : Dev) (q : Nat) (n : BitVec 32) :
    (d.sqDoorbell q n).life = d.life ∧ (d.sqDoorbell q n).fget F.LM_STAT_STAGE = d.fget F.LM_STAT_STAGE := by
  unfold Dev.sqDoorbell
  dsimp only
  split
  · exact ⟨rfl, rfl⟩
  · exact ⟨rfl, (Dev.fget_ocount ..).trans (Dev.fget_fcount_ne _ _ (by decide))⟩

theorem sqProducerDoorbell32 {s : State} (hs : s.dev.serves = true) (q : BitVec 16) (v : BitVec 64) :
    exec (.sqProducerDoorbell q 32 v) s = .next { s with dev := s.dev.wake.sqDoorbell q.toNat (BitVec.ofNat 32 v.toNat) } :=
  serveAlone_of (fun d => d.wake.doorbellWrite q.toNat false 32 v.toNat) hs

theorem sqProducerDoorbell64 {s : State} (hs : s.dev.serves = true) (q : BitVec 16) (v : BitVec 64) :
    exec (.sqProducerDoorbell q 64 v) s = .next { s with dev :=
      (s.dev.wake.sqDoorbell q.toNat (BitVec.ofNat 32 v.toNat)).cqDoorbell q.toNat (BitVec.ofNat 32 (v.toNat / 2 ^ 32)) } :=
  serveAlone_of (fun d => d.wake.doorbellWrite q.toNat false 64 v.toNat) hs

theorem cqConsumerDoorbell32 {s : State} (hs : s.dev.serves = true) (q : BitVec 16) (v : BitVec 64) :
    exec (.cqConsumerDoorbell q 32 v) s = .next { s with dev := s.dev.wake.cqDoorbell q.toNat (BitVec.ofNat 32 v.toNat) } :=
  serveAlone_of (fun d => d.wake.doorbellWrite q.toNat true 32 v.toNat) hs

/-- A 64-bit write is a 32-bit write of each doorbell. -/
theorem sqProducerDoorbell64_eq {s t : State} (hs : s.dev.serves = true) (q : BitVec 16) (v : BitVec 64)
    (h : exec (.sqProducerDoorbell q 32 v) s = .next t) :
    exec (.sqProducerDoorbell q 64 v) s = exec (.cqConsumerDoorbell q 32 (v >>> 32)) t := by
  rw [sqProducerDoorbell32 hs] at h
  rw [sqProducerDoorbell64 hs]
  obtain ⟨hlife, hstage⟩ := s.dev.wake.sqDoorbell_frame q.toNat (BitVec.ofNat 32 v.toNat)
  rw [Dev.wake_life] at hlife
  generalize s.dev.wake.sqDoorbell q.toNat (BitVec.ofNat 32 v.toNat) = e at h hlife hstage ⊢
  obtain rfl := Host.Outcome.next.inj h
  have hwoken : s.dev.wake.fget F.LM_STAT_STAGE = s.dev.fget F.LM_STAT_STAGE := by rw [Dev.fget, Dev.wake_flds, Dev.fget]
  have hserves : e.serves = true := (Dev.serves_congr (by rw [hlife]) (by rw [hlife]) (hstage.trans hwoken)).trans hs
  rw [cqConsumerDoorbell32 (s := { s with dev := e }) hserves, Dev.wake_of_awake (by rw [hlife]), BitVec.toNat_ushiftRight,
    Nat.shiftRight_eq_div_pow]

/-- A queue that neither is absent nor is being deleted takes doorbells. -/
theorem Queue.takesDoorbells_iff (x : Queue) : x.takesDoorbells = true ↔ x.st ≠ .absent ∧ x.st ≠ .deleting := by
  simp [Queue.takesDoorbells]

/-- Completions that leave the backlog leave the consumer index where it is. -/
theorem Dev.cqC_drainBacklog (q : Nat) (l : List Nat) (d : Dev) : ((d.drainBacklog q l).queue q).cqC = (d.queue q).cqC := by
  induction l generalizing d with
  | nil =>
    unfold Dev.drainBacklog
    dsimp only
    split
    · rw [Dev.queue_setQueue]
    · rfl
  | cons i rest ih =>
    unfold Dev.drainBacklog
    split
    next c hc =>
      split
      next h =>
        obtain ⟨rfl, -⟩ := h
        dsimp only
        rw [ih]
        split
        · obtain ⟨n, hn⟩ := ((d.writeCqe c).queueIrq_signals c.queue).queue
          rw [hn, Dev.queue_writeCqe]
        · rw [Dev.queue_writeCqe]
      next => exact ih d
    next => exact ih d

theorem Dev.sqDoorbell_of_ok {d : Dev} {q : Nat} {n : BitVec 32} (ht : (d.queue q).takesDoorbells = true)
    (hn : (n - (d.queue q).sqP).toNat ≤ (d.queue q).sqSize - ((d.queue q).sqP - (d.queue q).sqC).toNat) :
    d.sqDoorbell q n = d.setQueue q { d.queue q with sqP := n } :=
  if_pos ⟨ht, hn⟩

theorem Dev.cqDoorbell_of_ok {d : Dev} {q : Nat} {n : BitVec 32} (ht : (d.queue q).takesDoorbells = true)
    (hn : (n - (d.queue q).cqC).toNat ≤ ((d.queue q).cqP - (d.queue q).cqC).toNat) :
    ((d.cqDoorbell q n).queue q).cqC = n
      ∧ (d.backlogOf q = 0 → d.cqDoorbell q n = d.setQueue q { d.queue q with cqC := n }) := by
  rw [Dev.cqDoorbell, if_pos ⟨ht, hn⟩]
  refine ⟨?_, fun hnone => if_pos hnone⟩
  dsimp only
  split
  · rw [Dev.queue_setQueue]
  · rw [Dev.queue_mirror, Dev.cqC_drainBacklog, Dev.queue_setQueue]

/-- What a doorbell write that is ignored does: it is counted, and that is all. -/
theorem Dev.badDoorbell_facts (d : Dev) :
    d.badDoorbell.fget F.JB_BADDB_COUNT = min (d.fget F.JB_BADDB_COUNT + 1) (2 ^ F.JB_BADDB_COUNT.width - 1)
      ∧ d.badDoorbell.jamb = d.jamb ∧ d.badDoorbell.mem = d.mem ∧ d.badDoorbell.host = d.host := by
  refine ⟨?_, rfl, rfl, rfl⟩
  rw [Dev.badDoorbell, Dev.fget_ocount, Dev.fget_fcount, satAdd_mod, satAdd]

/-- A queue that takes no doorbells, or whose index would go further than the rule allows, does not follow a write. -/
theorem Queue.not_follows {x : Queue} {far allowed : Nat} (h : x.st = .absent ∨ x.st = .deleting ∨ allowed < far) :
    ¬ (x.takesDoorbells = true ∧ far ≤ allowed) := by
  rw [Queue.takesDoorbells_iff]
  rintro ⟨⟨habsent, hdeleting⟩, hn⟩
  exact h.elim habsent fun h => h.elim hdeleting (Nat.not_lt.mpr hn)

theorem Dev.sqDoorbell_of_bad {d : Dev} {q : Nat} {n : BitVec 32} (h : (d.queue q).st = .absent ∨ (d.queue q).st = .deleting
      ∨ (d.queue q).sqSize - ((d.queue q).sqP - (d.queue q).sqC).toNat < (n - (d.queue q).sqP).toNat) :
    d.sqDoorbell q n = d.badDoorbell :=
  if_neg (Queue.not_follows h)

theorem Dev.cqDoorbell_of_bad {d : Dev} {q : Nat} {n : BitVec 32} (h : (d.queue q).st = .absent ∨ (d.queue q).st = .deleting
      ∨ ((d.queue q).cqP - (d.queue q).cqC).toNat < (n - (d.queue q).cqC).toNat) :
    d.cqDoorbell q n = d.badDoorbell :=
  if_neg (Queue.not_follows h)

/-- A write of another width is ignored. -/
theorem Dev.doorbellWrite_of_width (d : Dev) (q : Nat) (consumer : Bool) {w : Nat} (v : Nat) (h32 : w ≠ 32) (h64 : w ≠ 64) :
    d.doorbellWrite q consumer w v = d.badDoorbell := by
  simp only [Dev.doorbellWrite, h32, h64, false_and, if_false]

/-- Settles O6: a write that the rule allows, a write of 64 bits, and the writes that are ignored. -/
theorem doorbellsMoveTheirIndexOrAreCounted : Obligations.DoorbellsMoveTheirIndexOrAreCounted := by
  refine ⟨fun s q v hs habsent hdeleting => ?_, fun s t q v hs h => sqProducerDoorbell64_eq hs q v h,
    fun s q w v hs => ⟨fun h32 h64 => ⟨?_, ?_⟩, fun hbad => ?_, fun hbad => ?_⟩⟩
  · have htakes : (s.dev.wake.queue q.toNat).takesDoorbells = true := (Queue.takesDoorbells_iff _).mpr ⟨habsent, hdeleting⟩
    refine ⟨fun hn => ⟨?_, ?_⟩, fun hn => ⟨_, cqConsumerDoorbell32 hs q v, Dev.cqDoorbell_of_ok htakes hn⟩⟩
    · rw [sqProducerDoorbell32 hs, Dev.sqDoorbell_of_ok htakes hn]
    · rw [Dev.doorbellRead, Dev.queue_setQueue]
      rfl
  · exact gives_of rfl hs (Dev.doorbellWrite_of_width _ _ false v.toNat h32 h64 ▸ s.dev.wake.badDoorbell_facts)
  · exact gives_of rfl hs (Dev.doorbellWrite_of_width _ _ true v.toNat h32 h64 ▸ s.dev.wake.badDoorbell_facts)
  · exact ⟨_, sqProducerDoorbell32 hs q v, Dev.sqDoorbell_of_bad hbad ▸ s.dev.wake.badDoorbell_facts⟩
  · exact ⟨_, cqConsumerDoorbell32 hs q v, Dev.cqDoorbell_of_bad hbad ▸ s.dev.wake.badDoorbell_facts⟩

/-! ### CANCEL_DOORBELL (R269, R270) -/

/-- What a cancel makes of a context, in whatever state it is. -/
def Ctx.afterCancel (x : Ctx) (st : Nat) : Ctx :=
  if x.state = 5 then x.parkedFailed st
  else if (x.state = 2 ∨ x.state = 4) ∧ x.ending ≠ some 0x0401 then x.cancelled st
  else x

theorem Ctx.afterCancel_of_parked {x : Ctx} (st : Nat) (h : x.state = 5) : (x.afterCancel st).state = 7 := by
  rw [Ctx.afterCancel, if_pos h]
  rfl

theorem Ctx.cancelled_state (x : Ctx) (st : Nat) : (x.cancelled st).state = 3 := by
  unfold Ctx.cancelled
  split <;> rfl

theorem Ctx.afterCancel_of_runs {x : Ctx} (st : Nat) (h : x.state = 2 ∨ x.state = 4) (hf : x.ending ≠ some 0x0401) :
    (x.afterCancel st).state = 3 := by
  rw [Ctx.afterCancel, if_neg (Ctx.not_parked_of_runs h), if_pos ⟨h, hf⟩, Ctx.cancelled_state]

theorem Ctx.afterCancel_of_still {x : Ctx} (st : Nat) (h : x.state ∉ [2, 4, 5] ∨ (x.state ≠ 5 ∧ x.ending = some 0x0401)) :
    x.afterCancel st = x := by
  simp only [List.mem_cons, List.not_mem_nil, or_false, not_or] at h
  rw [Ctx.afterCancel, if_neg (by tauto), if_neg (by tauto)]

/-- A second cancel adds nothing. -/
theorem Ctx.afterCancel_twice (x : Ctx) (st : Nat) : (x.afterCancel st).afterCancel st = x.afterCancel st := by
  by_cases h5 : x.state = 5
  · exact Ctx.afterCancel_of_still st (.inl (by simp [Ctx.afterCancel_of_parked st h5]))
  · by_cases hrun : (x.state = 2 ∨ x.state = 4) ∧ x.ending ≠ some 0x0401
    · exact Ctx.afterCancel_of_still st (.inl (by simp [Ctx.afterCancel_of_runs st hrun.1 hrun.2]))
    · have hsame : x.afterCancel st = x := by rw [Ctx.afterCancel, if_neg h5, if_neg hrun]
      rw [hsame, hsame]

/-- A context that has not been loaded has nothing to cancel. -/
theorem Ctx.afterCancel_free (st : Nat) : ({} : Ctx).afterCancel st = {} :=
  Ctx.afterCancel_of_still st (.inl (by decide))

/-- A cancel moves its context, and no other. -/
theorem Dev.cancelCtx_afterCancel (d : Dev) (c st : Nat) : d.MovesCtx (d.cancelCtx c st) c ((d.ctx c).afterCancel st) := by
  by_cases h5 : (d.ctx c).state = 5
  · rw [Dev.cancelCtx_of_parked st h5, Ctx.afterCancel, if_pos h5]
    exact d.movesCtx_setCtx c _
  · by_cases hrun : ((d.ctx c).state = 2 ∨ (d.ctx c).state = 4) ∧ (d.ctx c).ending ≠ some 0x0401
    · rw [Ctx.afterCancel, if_neg h5, if_pos hrun]
      exact Dev.cancelCtx_moves st hrun.1 hrun.2
    · rw [Dev.cancelCtx_of_still st h5 (by tauto), Ctx.afterCancel, if_neg h5, if_neg hrun]
      exact ⟨.refl d, rfl, fun _ _ => rfl⟩

/-- Cancels of contexts one after another: each of them is cancelled, however often it is named, and no other. -/
theorem Dev.cancelAll_facts (st : Nat) (l : List Nat) (d : Dev) :
    d.EndsRuns (l.foldl (fun d c => d.cancelCtx c st) d)
      ∧ ∀ b, (l.foldl (fun d c => d.cancelCtx c st) d).ctx b = if b ∈ l then (d.ctx b).afterCancel st else d.ctx b := by
  induction l generalizing d with
  | nil => exact ⟨.refl d, fun _ => rfl⟩
  | cons c l ih =>
    obtain ⟨hends, hself, hother⟩ := d.cancelCtx_afterCancel c st
    obtain ⟨hrest, hctx⟩ := ih (d.cancelCtx c st)
    refine ⟨hends.trans hrest, fun b => ?_⟩
    rw [List.foldl_cons, hctx]
    by_cases hb : b = c
    · subst hb
      rw [hself, Ctx.afterCancel_twice, ite_self, if_pos List.mem_cons_self]
    · rw [hother b hb]
      simp only [List.mem_cons, hb, false_or]

/-- A write to CANCEL_DOORBELL counts, and cancels what it names. -/
theorem Dev.cancelDoorbell_facts (d : Dev) (all : Bool) (c : Nat) :
    (d.ocount O.CANCEL_DOORBELLS 1).EndsRuns (d.cancelDoorbell all c)
      ∧ ∀ b, (d.cancelDoorbell all c).ctx b = if all = true ∨ b = c then (d.ctx b).afterCancel 0x0402 else d.ctx b := by
  have hkeys : (if all then d.pipes.ctxs.map Prod.fst else [c]).foldl (fun d c => d.cancelCtx c 0x0402)
      (d.ocount O.CANCEL_DOORBELLS 1) = d.cancelDoorbell all c := by
    cases all <;> rfl
  obtain ⟨hends, hctx⟩ := Dev.cancelAll_facts 0x0402 (if all then d.pipes.ctxs.map Prod.fst else [c]) (d.ocount O.CANCEL_DOORBELLS 1)
  rw [hkeys] at hends hctx
  refine ⟨hends, fun b => ?_⟩
  rw [hctx, Dev.ctx_ocount]
  cases all with
  | false => simp
  | true =>
    by_cases hb : b ∈ d.pipes.ctxs.map Prod.fst
    · simp only [if_true, hb, true_or]
    · have hfree : d.ctx b = {} := Sparse.get_of_not_mem ({} : Ctx) hb
      simp only [if_true, hb, if_false, true_or, hfree, Ctx.afterCancel_free]

/-- Settles O18: what the doorbell names is cancelled, by the state that it is in. -/
theorem cancelDoorbellEndsContexts : Obligations.CancelDoorbellEndsContexts := by
  intro s c all hs
  obtain ⟨hends, hctx⟩ := s.dev.cancelDoorbell_facts all c.toNat
  obtain ⟨hjamb, hmem, hhost⟩ := Dev.endsRuns_jamb hends
  refine brings_of (f := fun d => d.cancelDoorbell all c.toNat) rfl hs
    ⟨fun b hb => ⟨fun hrun hf => ?_, fun hparked => ?_⟩, fun b hb => ?_, ?_, hjamb, hmem, hhost⟩
  · rw [hctx, if_pos hb, Ctx.afterCancel_of_runs _ hrun hf]
  · rw [hctx, if_pos hb, Ctx.afterCancel_of_parked _ hparked]
  · rw [hctx]
    rcases hb with ⟨hall, hb⟩ | hstill
    · rw [if_neg (by simp [hall, hb])]
    · rw [Ctx.afterCancel_of_still _ hstill, ite_self]
  · obtain ⟨p, b, g, n, hd⟩ := hends
    rw [hd]
    exact Dev.oget_ocount s.dev O.CANCEL_DOORBELLS 1

/-! ### DIGEST (R249, R319) -/

/-- Device `t` is `d` but for register fields and for what the digest unit and the key store hold. -/
def Dev.Rekeys (d t : Dev) : Prop := ∃ f g, t = { d with flds := f, dig := g }

theorem Dev.Rekeys.facts {d t : Dev} (h : d.Rekeys t) :
    t.jamb = d.jamb ∧ t.host = d.host ∧ t.mem = d.mem ∧ t.reacts = d.reacts ∧ t.pipes = d.pipes := by
  obtain ⟨f, g, rfl⟩ := h
  exact ⟨rfl, rfl, rfl, rfl, rfl⟩

theorem Dev.Rekeys.readsAs {d t : Dev} (h : d.Rekeys t) : t.ReadsAs d := by
  obtain ⟨f, g, rfl⟩ := h
  exact ⟨rfl, rfl, rfl, rfl⟩

/-- The context of a DIGEST goes, and the key store's slots stay. -/
theorem Dev.digestFree_frame (d : Dev) (id : Nat) :
    d.Rekeys (d.digestFree id) ∧ (d.digestFree id).dig.slots = d.dig.slots := by
  unfold Dev.digestFree
  split
  · exact ⟨⟨_, _, rfl⟩, rfl⟩
  · exact ⟨⟨_, _, rfl⟩, rfl⟩

/-- An operation of the key store acts on its registers and its slots. -/
theorem Dev.ksAct_rekeys (d : Dev) (o : KsOp) : d.Rekeys (d.ksAct o) := by
  have hwindow (e : Dev) (b : Bytes) : ∃ f, e.setKsWindow b = { e with flds := f } :=
    foldl_keeps (fun t : Dev => ∃ f, t = { e with flds := f }) _ (by rintro _ i ⟨f, rfl⟩; exact ⟨_, rfl⟩) _ e ⟨_, rfl⟩
  unfold Dev.ksAct
  dsimp only
  split
  · split
    · exact ⟨_, _, rfl⟩
    · exact ⟨_, _, rfl⟩
  · exact ⟨_, _, rfl⟩
  · obtain ⟨f, hf⟩ := hwindow ((d.fputB F.KS_CMD_GO false).fputB F.KS_STAT_BUSY false)
      (((d.fputB F.KS_CMD_GO false).fputB F.KS_STAT_BUSY false).slot o.slot).data
    rw [hf]
    exact ⟨_, _, rfl⟩
  · exact ⟨_, _, rfl⟩

/-- An operation that waited for a slot acts in the same way. -/
theorem Dev.ksSettle_rekeys (d : Dev) : d.Rekeys d.ksSettle := by
  unfold Dev.ksSettle
  split
  next o _ =>
    split
    · exact ⟨_, _, rfl⟩
    · obtain ⟨f, g, hact⟩ := ({ d with dig := { d.dig with ksPending := none } } : Dev).ksAct_rekeys o
      exact ⟨f, g, hact⟩
  next => exact ⟨_, _, rfl⟩

/-- What the data of a DIGEST digests to, under the key that it names where HMAC is set. -/
def Dev.digestsTo (d : Dev) (b m r : Bytes) : Prop :=
  bitAt (fieldAt b 17 1) 0 = false ∧ r = digestOf (fieldAt b 16 1) m
    ∨ bitAt (fieldAt b 17 1) 0 = true ∧ ∃ key, d.hmacKey (fieldAt b 18 1) = .ok key ∧ r = hmacOf (fieldAt b 16 1) key m

theorem Dev.digestDeliver_of_result {d : Dev} {c : Cmd} {m r : Bytes} (st : Nat) (h : d.digestsTo c.entry m r) :
    d.digestDeliver c st m true = (d.writeSpace (bitAt (fieldAt c.entry 17 1) 6) (fieldAt c.entry 40 8) r).finish c.id st
      (result4 m.length r.length 0 0) r.length := by
  rcases h with ⟨hplain, rfl⟩ | ⟨hhmac, key, hkey, rfl⟩
  · simp only [Dev.digestDeliver, Dev.dgResult, hplain, Bool.false_eq_true, if_false, if_true]
  · simp only [Dev.digestDeliver, Dev.dgResult, hhmac, hkey, if_true]

section
variable {d : Dev} {id : Nat} {c : Cmd} {es : List Elem} {m : Bytes} (hc : d.running id opDigest = some c)
  (hlist : d.dataList c.entry (fieldAt c.entry 24 8) (fieldAt c.entry 32 2) 0 (bitAt (fieldAt c.entry 17 1) 7) = .ok es)
  (hread : d.gather es (min (elemTotal es) (fieldAt c.entry 20 4)) = .ok m)
include hc hlist hread

/-- A DIGEST whose data is read. -/
theorem Dev.digestRun_eq : d.digestRun id =
    if lengthStatus (elemTotal es) (fieldAt c.entry 20 4) = 0x0201
    then (d.digestFree id).finish id (lengthStatus (elemTotal es) (fieldAt c.entry 20 4)) (result4 m.length 0 0 0) 0
    else (d.digestFree id).digestDeliver c (lengthStatus (elemTotal es) (fieldAt c.entry 20 4)) m
      ((List.range 64).any (fun k => d.dgctx k = digestFresh c)) := by
  have hreads := (d.digestFree_frame id).1.readsAs
  simp only [Dev.digestRun, hc, hreads.dataList, hreads.gather, hlist, hread]

/-- A DIGEST whose context nothing has touched writes what its data digests to. -/
theorem Dev.digestRun_writes {r : Bytes} (hlong : lengthStatus (elemTotal es) (fieldAt c.entry 20 4) ≠ 0x0201)
    (hr : d.digestsTo c.entry m r) (hfresh : (List.range 64).any (fun k => d.dgctx k = digestFresh c) = true) :
    d.digestRun id = ((d.digestFree id).writeSpace (bitAt (fieldAt c.entry 17 1) 6) (fieldAt c.entry 40 8) r).finish id
      (lengthStatus (elemTotal es) (fieldAt c.entry 20 4)) (result4 m.length r.length 0 0) r.length := by
  have hslot (k : Nat) : (d.digestFree id).slot k = d.slot k := by
    rw [Dev.slot, Dev.slot, (d.digestFree_frame id).2]
  have hkey (k : Nat) : (d.digestFree id).hmacKey k = d.hmacKey k := by rw [Dev.hmacKey, Dev.hmacKey, hslot]
  have hkept : (d.digestFree id).digestsTo c.entry m r := by simpa only [Dev.digestsTo, hkey] using hr
  rw [Dev.digestRun_eq hc hlist hread, if_neg hlong, hfresh, Dev.digestDeliver_of_result _ hkept, Dev.cmd_id (Dev.running_cmd hc).1]

end

/-- A command ends, and then an operation of the key store acts that waited for it. -/
theorem Dev.finish_ksSettle_facts (d : Dev) {id : Nat} (st : Nat) (r : Bytes) (n : Nat) (h : (d.cmd id).isSome = true) :
    (d.finish id st r n).ksSettle.ended id st r ∧ (d.finish id st r n).ksSettle.host = d.host
      ∧ (d.finish id st r n).ksSettle.mem = d.mem ∧ (d.finish id st r n).ksSettle.calm = d.calm := by
  have hkeys := (d.finish id st r n).ksSettle_rekeys
  obtain ⟨hjamb, hhost, hmem, hreacts, hpipes⟩ := hkeys.facts
  obtain ⟨k, hk, hended⟩ := Dev.finish_ended d id st r n h
  refine ⟨⟨k, (Dev.cmd_congr (congrArg Jamb.cmds hjamb) id).trans hk, hended⟩, hhost.trans (Dev.finish_host ..),
    hmem.trans (Dev.finish_mem ..), ?_⟩
  rw [Dev.calm_congr hreacts hpipes, Dev.calm_congr (Dev.finish_reacts ..) (Dev.finish_pipes ..)]

/-- Settles O37: a list that falls short of LENGTH, and one that does not. -/
theorem digestCommandWritesTheDigest : Obligations.DigestCommandWritesTheDigest := by
  intro s id c es m r b hmac st hs hc hlist hread
  obtain ⟨hjamb, hhost, hmem, hreacts, hpipes⟩ := (s.dev.digestFree_frame id).1.facts
  have hsame : (s.dev.digestFree id).calm = s.dev.calm := Dev.calm_congr hreacts hpipes
  have hcmd : ((s.dev.digestFree id).cmd id).isSome = true :=
    (congrArg Option.isSome (Dev.cmd_congr (congrArg Jamb.cmds hjamb) id)).trans (Dev.running_isSome hc)
  refine ⟨fun hshort => ?_, fun hlong hr hfresh => ?_⟩
  · have hrun := Dev.digestRun_eq hc hlist hread
    rw [if_pos hshort] at hrun
    obtain ⟨hended, hhost', hmem', hcalm⟩ := Dev.finish_ksSettle_facts _ st (result4 m.length 0 0 0) 0 hcmd
    rw [← hrun] at hended hhost' hmem' hcalm
    exact lands_of (f := fun d => (d.digestRun id).ksSettle) rfl hs ⟨hended, hhost'.trans hhost, hmem'.trans hmem⟩
      fun h => hcalm.trans (hsame.trans h)
  · have hrun := Dev.digestRun_writes hc hlist hread hlong hr hfresh
    have hcmd' : (((s.dev.digestFree id).writeSpace (bitAt (fieldAt b 17 1) 6) (fieldAt b 40 8) r).cmd id).isSome = true :=
      (congrArg Option.isSome (Dev.cmd_congr (congrArg Jamb.cmds (Dev.writeSpace_jamb ..)) id)).trans hcmd
    obtain ⟨hended, hhost', hmem', hcalm⟩ := Dev.finish_ksSettle_facts _ st (result4 m.length r.length 0 0) r.length hcmd'
    rw [← hrun] at hended hhost' hmem' hcalm
    refine lands_of (f := fun d => (d.digestRun id).ksSettle) rfl hs ⟨hended, fun heng => ⟨?_, ?_⟩, fun heng => ?_⟩
      fun h => hcalm.trans (Dev.calm_writeSpace _ _ _ (hsame.trans h))
    · rw [hhost', heng]
      exact congrArg (fun h => Sparse.setAll 0 h _) hhost
    · rw [hmem', heng]
      exact hmem
    · rw [hhost', heng]
      exact (Dev.engWrite_host ..).trans hhost

end Sys2Proof.Machine

/-! ## STOREs begin and commit, and a STORE_SYNC ends (R276 to R278, R280, R283, R287) -/

namespace Sys2Proof.Machine

/-! ### What a STORE's checks come to (R276, R287, R288) -/

section
variable {d : Dev} {id : Nat} {c : Cmd} (hc : d.running id opStore = some c) (hg : d.stg id = none)
include hc hg

/-- R288: to an empty slot. -/
theorem Dev.storeRun_of_empty (hx : (d.drive (fieldAt c.entry 16 1)).empty = true) :
    d.storeRun id = d.finish id 0x0601 (zeros 16) 0 := by
  simp [Dev.storeRun, hc, hg, hx]

section
variable (hx : (d.drive (fieldAt c.entry 16 1)).empty = false)
  (hr : (d.drive (fieldAt c.entry 16 1)).ready = true ∨ (d.drive (fieldAt c.entry 16 1)).resetting = true)
include hx hr

/-- R287: to a namespace that the drive does not have. -/
theorem Dev.storeRun_of_absent (hns : (d.drive (fieldAt c.entry 16 1)).space (fieldAt c.entry 20 4) = none) :
    d.storeRun id = d.finish id 0x0602 (zeros 16) 0 := by
  rcases hr with hr | hr <;> simp [Dev.storeRun, hc, hg, hx, hr, hns]

section
variable {ns : NSpace} (hns : (d.drive (fieldAt c.entry 16 1)).space (fieldAt c.entry 20 4) = some ns)
include hns

/-- R276: to an extent that cannot hold it. -/
theorem Dev.storeRun_of_small (hsmall : fieldAt c.entry 36 4 * ns.lbaSize < storeNeeds c.entry) :
    d.storeRun id = d.finish id 0x0202 (zeros 16) 0 := by
  rcases hr with hr | hr <;> simp [Dev.storeRun, hc, hg, hx, hr, hns, hsmall]

variable (hroom : storeNeeds c.entry ≤ fieldAt c.entry 36 4 * ns.lbaSize)
include hroom

/-- With a list that is at fault. -/
theorem Dev.storeRun_of_badList {e : Nat}
    (hes : d.dataList c.entry (fieldAt c.entry 40 8) (fieldAt c.entry 48 2) 0 (bitAt (fieldAt c.entry 17 1) 7) = .error e) :
    d.storeRun id = d.finish id e (zeros 16) 0 := by
  rcases hr with hr | hr <;> simp [Dev.storeRun, hc, hg, hx, hr, hns, Nat.not_lt.mpr hroom, hes]

variable {es : List Elem}
  (hes : d.dataList c.entry (fieldAt c.entry 40 8) (fieldAt c.entry 48 2) 0 (bitAt (fieldAt c.entry 17 1) 7) = .ok es)
include hes

/-- With a list that supplies another length. -/
theorem Dev.storeRun_of_length (hlen : lengthStatus (elemTotal es) (fieldAt c.entry 32 4) ≠ 0) :
    d.storeRun id = d.finish id (lengthStatus (elemTotal es) (fieldAt c.entry 32 4)) (zeros 16) 0 := by
  rcases hr with hr | hr <;> simp [Dev.storeRun, hc, hg, hx, hr, hns, Nat.not_lt.mpr hroom, hes, hlen]

/-- R277: a STORE that passes its checks begins. -/
theorem Dev.storeRun_of_good (hlen : lengthStatus (elemTotal es) (fieldAt c.entry 32 4) = 0) :
    d.storeRun id = d.storeBegin c ns.lbaSize es := by
  rcases hr with hr | hr <;> simp [Dev.storeRun, hc, hg, hx, hr, hns, Nat.not_lt.mpr hroom, hes, hlen]

end

end

end

/-- A STORE that a check ends takes no unit. -/
theorem store_lands_ended {s : State} {id st : Nat} (hs : s.dev.serves = true) (hcmd : (s.dev.cmd id).isSome = true)
    (hrun : s.dev.storeRun id = s.dev.finish id st (zeros 16) 0) :
    Lands (.store id) s (fun d => d.ended id st (zeros 16) ∧ d.thr = s.dev.thr ∧ d.hinge = s.dev.hinge) := by
  refine lands_of_quiet (f := fun d => d.storeRun id) rfl hs ?_ ?_ ?_ <;> rw [hrun]
  · exact Dev.finish_reacts _ _ _ _ _
  · exact Dev.finish_pipes _ _ _ _ _
  · exact ⟨Dev.finish_ended _ _ _ _ _ hcmd, Dev.finish_thr _ _ _ _ _, Dev.finish_hinge _ _ _ _ _⟩

/-! ### A STORE takes its units (R277) -/

/-- The device with those units in use. -/
def Dev.takeUnits (d : Dev) (us : List Nat) : Dev := us.foldl (fun d u => d.setUnit u { d.tunit u with used := true }) d

theorem Dev.takeUnits_frame (d : Dev) (us : List Nat) : ∃ u, d.takeUnits us = { d with thr := { d.thr with units := u } } := by
  refine foldl_keeps (fun e : Dev => ∃ u, e = { d with thr := { d.thr with units := u } }) _ (fun e u he => ?_) us d ⟨_, rfl⟩
  obtain ⟨u', rfl⟩ := he
  exact ⟨_, rfl⟩

theorem Dev.tunit_takeUnits (us : List Nat) (d : Dev) (k : Nat) :
    (d.takeUnits us).tunit k = if k ∈ us then { d.tunit k with used := true } else d.tunit k := by
  induction us generalizing d with
  | nil => simp [Dev.takeUnits]
  | cons u us ih =>
    have hcons : d.takeUnits (u :: us) = (d.setUnit u { d.tunit u with used := true }).takeUnits us := rfl
    rw [hcons, ih]
    by_cases hk : k = u
    · subst hk
      simp
    · simp [Dev.tunit_setUnit_ne d _ hk, hk]

/-- The STORE that a command begins, with the units it takes. -/
def Cmd.begun (c : Cmd) (lbaSize : Nat) (us : List Nat) : Stg :=
  { cmd := c.id, disp := c.disp, slot := fieldAt c.entry 16 1, nsid := fieldAt c.entry 20 4, lba := fieldAt c.entry 24 8
    lbas := fieldAt c.entry 36 4, lbaSize := lbaSize, length := fieldAt c.entry 32 4, form := storeForm c.entry
    phase := .pulling, units := us }

/-- With units enough a STORE begins on those written least, and beyond Threshold only Hinge has work from it. -/
theorem Dev.storeBegin_facts {d : Dev} {c : Cmd} {n : Nat} (hn : ceilDiv (fieldAt c.entry 32 4) Config.unitBytes = n)
    (hus : (d.leastWritten n).length = n) (hsafe : d.thr.pfSafe = false) (lbaSize : Nat) (es : List Elem) :
    let t := d.storeBegin c lbaSize es
    t.thr.stores = d.thr.stores ++ [c.begun lbaSize (d.leastWritten n)]
      ∧ (∀ k, t.tunit k = if k ∈ d.leastWritten n then { d.tunit k with used := true } else d.tunit k)
      ∧ t.jamb = d.jamb ∧ t.mem = d.mem ∧ t.host = d.host ∧ t.reacts = d.reacts ∧ t.pipes = d.pipes := by
  subst hn
  obtain ⟨u, hu⟩ := d.takeUnits_frame (d.leastWritten (ceilDiv (fieldAt c.entry 32 4) Config.unitBytes))
  have hunits := Dev.tunit_takeUnits (d.leastWritten (ceilDiv (fieldAt c.entry 32 4) Config.unitBytes)) d
  intro t
  simp only [t, Dev.storeBegin, hus, Nat.lt_irrefl, hsafe, Bool.false_eq_true, or_self, if_false]
  rw [← Dev.takeUnits]
  rw [hu] at hunits ⊢
  exact ⟨rfl, hunits, rfl, rfl, rfl, rfl, rfl⟩

/-- Settles O22: a STORE's checks in the order in which they are made, and the units that it takes once it passes them. -/
theorem storeTakesItsUnits : Obligations.StoreTakesItsUnits := by
  intro s id c b x n us es fails hs hc hg
  have ends {st : Nat} (hrun : s.dev.storeRun id = s.dev.finish id st (zeros 16) 0) : Lands (.store id) s (fails st) :=
    store_lands_ended hs (Dev.running_isSome hc) hrun
  refine ⟨fun hx => ends (Dev.storeRun_of_empty hc hg hx), fun hx hr hns => ends (Dev.storeRun_of_absent hc hg hx hr hns),
    fun ns hx hr hns => ⟨fun hsmall => ends (Dev.storeRun_of_small hc hg hx hr hns hsmall),
      fun e hroom hes => ends (Dev.storeRun_of_badList hc hg hx hr hns hroom hes),
      fun l hroom hes hlen => ends (Dev.storeRun_of_length hc hg hx hr hns hroom hes hlen),
      fun l hroom hes hlen hus hsafe => ?_⟩⟩
  obtain ⟨hstores, hunits, hjamb, hmem, hhost, hreacts, hpipes⟩ := Dev.storeBegin_facts rfl hus hsafe ns.lbaSize l
  refine lands_of_quiet (f := fun d => d.storeRun id) rfl hs ?_ ?_ ?_ <;>
    rw [Dev.storeRun_of_good hc hg hx hr hns hroom hes hlen]
  · exact hreacts
  · exact hpipes
  · refine ⟨hstores, fun u hu => ?_, fun u hu => ?_, hjamb, hmem, hhost⟩
    · rw [hunits, if_pos hu]
    · rw [hunits, if_neg hu]

/-! ### The commit of a STORE (R277, R278, R283) -/

/-- The device once a STORE's commit record has landed, before its command ends. -/
def Dev.commitRecord (d : Dev) (g : Stg) : Dev :=
  let x := d.drive g.slot
  let e := d.mapStores (fun h => h = g)
    (fun h => { h with phase := .staged, seq := d.thr.nextSeq, serial := x.serial, nguid := x.nguid })
  ({ e with thr := { e.thr with nextSeq := d.thr.nextSeq + 1 } }).ocount O.STORE_BYTES g.length

/-- Beyond Threshold, counters and commands, device `t` is as `d`. -/
structure Dev.CommitsOnly (d t : Dev) : Prop where
  drives : t.drives = d.drives
  mem : t.mem = d.mem
  host : t.host = d.host
  queues : t.jamb.queues = d.jamb.queues
  pipes : t.pipes = d.pipes
  reacts : t.reacts = d.reacts

theorem Dev.CommitsOnly.refl (d : Dev) : d.CommitsOnly d := ⟨rfl, rfl, rfl, rfl, rfl, rfl⟩

theorem Dev.CommitsOnly.trans {d e t : Dev} (h : d.CommitsOnly e) (k : e.CommitsOnly t) : d.CommitsOnly t :=
  ⟨k.drives.trans h.drives, k.mem.trans h.mem, k.host.trans h.host, k.queues.trans h.queues, k.pipes.trans h.pipes,
    k.reacts.trans h.reacts⟩

theorem Dev.commitRecord_finish_commitsOnly (d : Dev) (g : Stg) (id st : Nat) (r : Bytes) (hst : st ≠ 0x0703) :
    d.CommitsOnly ((d.commitRecord g).finish id st r 0) := by
  rw [Dev.finish, Dev.countPoison, if_neg hst]
  exact ⟨rfl, rfl, rfl, rfl, rfl, rfl⟩

section
variable {d : Dev} {id : Nat} {g : Stg} {c : Cmd} (hg : d.stg id = some g) (hc : d.running id opStore = some c)
include hg hc

theorem Dev.storeCommit_eq : d.storeCommit id =
    if g.phase ≠ .landed ∨ d.thr.pfSafe = true ∨ d.earlierStore c.disp (g.slot, g.nsid, g.lba, g.lbas) = true then d
    else (d.commitRecord g).finish id 0 (result4 g.length 0 0 1) 0 := by
  simp only [Dev.storeCommit, hg, hc, Dev.commitRecord]

/-- A STORE whose turn has not come, or that power loss holds back, waits. -/
theorem Dev.storeCommit_of_waits
    (h : d.thr.pfSafe = true ∨ d.earlierStore c.disp (g.slot, g.nsid, g.lba, g.lbas) = true) : d.storeCommit id = d := by
  rw [Dev.storeCommit_eq hg hc, if_pos (.inr h)]

theorem Dev.storeCommit_of_due (hp : g.phase = .landed) (hsafe : d.thr.pfSafe = false)
    (he : d.earlierStore c.disp (g.slot, g.nsid, g.lba, g.lbas) = false) :
    d.storeCommit id = (d.commitRecord g).finish id 0 (result4 g.length 0 0 1) 0 := by
  rw [Dev.storeCommit_eq hg hc, if_neg (by simp [hp, hsafe, he])]

end

/-- Whether it commits a STORE or not, a commit is a matter of Threshold, counters and commands. -/
theorem Dev.storeCommit_commitsOnly (d : Dev) (id : Nat) : d.CommitsOnly (d.storeCommit id) := by
  cases hg : d.stg id with
  | none => simpa only [Dev.storeCommit, hg] using CommitsOnly.refl d
  | some g =>
    cases hc : d.running id opStore with
    | none => simpa only [Dev.storeCommit, hg, hc] using CommitsOnly.refl d
    | some c =>
      rw [Dev.storeCommit_eq hg hc]
      split
      · exact CommitsOnly.refl d
      · exact d.commitRecord_finish_commitsOnly g id 0 _ (by decide)

/-- R283: so are the commits of all that has landed when power is about to go. -/
theorem Dev.commitLanded_commitsOnly (d : Dev) : d.CommitsOnly d.commitLanded := by
  have hround (e : Dev) : e.CommitsOnly (e.thr.stores.foldl (fun d g => d.storeCommit g.cmd) e) :=
    foldl_keeps e.CommitsOnly _ (fun t g ht => ht.trans (t.storeCommit_commitsOnly g.cmd)) _ e (.refl e)
  exact foldl_keeps d.CommitsOnly _ (fun t _ ht => ht.trans (hround t)) _ d (.refl d)

/-- R283: what the assertion of PWR_FAIL_N brings about. -/
theorem pwrFailAssert_brings {s : State} (hp : s.dev.powered = true) :
    Brings .pwrFailAssert s (fun d =>
      d.thr.pfSafe = true ∧ d.life.pwrFail = true ∧ d.drives = s.dev.drives ∧ d.mem = s.dev.mem ∧ d.host = s.dev.host
      ∧ d.jamb.queues = s.dev.jamb.queues) := by
  obtain ⟨drives, mem, host, queues, -, -⟩ :
      s.dev.CommitsOnly (if s.dev.thr.pfSafe then s.dev else s.dev.commitLanded) := by
    split
    · exact .refl _
    · exact s.dev.commitLanded_commitsOnly
  exact ⟨s.dev.pwrFailAssert, servePowered_of Dev.pwrFailAssert hp, rfl, rfl, drives, mem, host, queues⟩

/-- R283: what its deassertion lands. -/
theorem pwrFailDeassert_lands {s : State} (hp : s.dev.powered = true) :
    Lands .pwrFailDeassert s (fun d =>
      d = { s.dev with thr := { s.dev.thr with pfSafe := false }, life := { s.dev.life with pwrFail := false } }) := by
  have hexec : exec .pwrFailDeassert s = .next { s with dev := s.dev.pwrFailDeassert.settle } :=
    servePowered_of Dev.pwrFailDeassert hp
  refine ⟨s.dev.pwrFailDeassert, hexec, rfl, fun hcalm => ?_⟩
  have hkept : s.dev.pwrFailDeassert.calm = s.dev.calm := Dev.calm_congr rfl rfl
  rw [hexec, Dev.settle_calm _ (hkept.trans hcalm)]

section
variable {s : State} {id : Nat} {g : Stg} {c : Cmd} (hs : s.dev.serves = true) (hg : s.dev.stg id = some g)
  (hc : s.dev.running id opStore = some c)
include hs hg hc

/-- R277: the commit of a landed STORE whose turn has come. -/
theorem storeCommit_lands (hp : g.phase = .landed) (hsafe : s.dev.thr.pfSafe = false)
    (he : s.dev.earlierStore c.disp (g.slot, g.nsid, g.lba, g.lbas) = false) :
    let x := s.dev.drive g.slot
    Lands (.storeCommit id) s (fun d =>
      d.thr.stores = s.dev.thr.stores.map (fun h =>
        if h = g then { h with phase := .staged, seq := s.dev.thr.nextSeq, serial := x.serial, nguid := x.nguid } else h)
      ∧ d.thr.nextSeq = s.dev.thr.nextSeq + 1 ∧ d.ended id 0 (result4 g.length 0 0 1)
      ∧ d.mem = s.dev.mem ∧ d.host = s.dev.host ∧ d.drives = s.dev.drives) := by
  obtain ⟨drives, mem, host, -, pipes, reacts⟩ := s.dev.storeCommit_commitsOnly id
  refine lands_of_quiet (f := fun d => d.storeCommit id) rfl hs reacts pipes ⟨?_, ?_, ?_, mem, host, drives⟩ <;>
    rw [Dev.storeCommit_of_due hg hc hp hsafe he]
  · rw [Dev.finish_thr]
    simp [Dev.commitRecord, Dev.mapStores]
  · rw [Dev.finish_thr]
    rfl
  · exact Dev.finish_ended _ _ _ _ _ (Dev.running_isSome (d := s.dev) hc)

/-- R278, R283: until then nothing happens. -/
theorem storeCommit_waits_lands
    (h : s.dev.thr.pfSafe = true ∨ s.dev.earlierStore c.disp (g.slot, g.nsid, g.lba, g.lbas) = true) :
    Lands (.storeCommit id) s (fun d => d = s.dev) := by
  obtain ⟨-, -, -, -, pipes, reacts⟩ := s.dev.storeCommit_commitsOnly id
  exact lands_of_quiet (f := fun d => d.storeCommit id) rfl hs reacts pipes (Dev.storeCommit_of_waits hg hc h)

end

/-- Settles O23: a landed STORE commits or waits by its turn and by PF_SAFE, which PWR_FAIL_N sets and clears. -/
theorem storesCommitInTheirTurnWhilePowerLasts : Obligations.StoresCommitInTheirTurnWhilePowerLasts :=
  ⟨fun _ _ _ _ hs hg hc hp => ⟨storeCommit_lands hs hg hc hp, storeCommit_waits_lands hs hg hc⟩,
    fun _ hp => ⟨pwrFailAssert_brings hp, pwrFailDeassert_lands hp⟩⟩

/-! ### What a STORE_SYNC waits for (R280) -/

/-- The STOREs that a STORE_SYNC covers and that have not been released. -/
def Dev.syncLeft (d : Dev) (y : Sync) : List Stg :=
  d.thr.stores.filter (fun g => decide (g.phase = .staged) && y.covered.contains g.seq)

section
variable {d : Dev} {id : Nat} {c : Cmd} {y : Sync} (hc : d.running id opStoreSync = some c)
  (hy : d.thr.syncs.find? (fun s => s.cmd = id) = some y)
include hc hy

theorem Dev.storeSync_of_released (hleft : d.syncLeft y = []) :
    d.storeSync id = (d.dropSync id).finish id 0 (result4 y.counted 0 0 0) 0 := by
  rw [Dev.syncLeft] at hleft
  simp only [Dev.storeSync, hc, hy, hleft, List.findSome?_nil, if_true]

theorem Dev.storeSync_of_held {st : Nat} (hheld : (d.syncLeft y).findSome? Stg.held = some st) :
    d.storeSync id = (d.dropSync id).finish id st (result4 y.counted 0 0 0) 0 := by
  rw [Dev.syncLeft] at hheld
  simp only [Dev.storeSync, hc, hy, hheld]

end

/-- A STORE_SYNC that ends leaves every STORE and every drive as it is. -/
theorem storeSync_gives {s : State} {id st : Nat} {c : Cmd} {r : Bytes} (hs : s.dev.serves = true)
    (hc : s.dev.running id opStoreSync = some c) (hrun : s.dev.storeSync id = (s.dev.dropSync id).finish id st r 0) :
    Gives (.storeSync id) s (fun d => d.ended id st r ∧ d.thr.stores = s.dev.thr.stores ∧ d.drives = s.dev.drives) := by
  refine gives_of (f := fun d => d.storeSync id) rfl hs ?_
  rw [hrun, Dev.finish_thr, Dev.finish_drives]
  exact ⟨Dev.finish_ended _ _ _ _ _ (Dev.running_isSome (d := s.dev) hc), rfl, rfl⟩

/-- Settles O25: a STORE_SYNC ends with nothing left that it covers, or with the status of what is held. -/
theorem syncWaitsForItsStores : Obligations.SyncWaitsForItsStores :=
  fun _ _ _ _ hs hc hy =>
    ⟨fun hleft => storeSync_gives hs hc (Dev.storeSync_of_released hc hy hleft),
      fun _ hheld => storeSync_gives hs hc (Dev.storeSync_of_held hc hy hheld)⟩

end Sys2Proof.Machine

/-! ## The block that Bifold builds decodes to its input (R293, R297 to R302) -/

namespace Sys2Proof.Machine

/-! ### Bytes that spell a number, and the length of a digest -/

@[simp] theorem leBytes_length : ∀ n v : Nat, (leBytes n v).length = n
  | 0, _ => rfl
  | n + 1, v => congrArg (· + 1) (leBytes_length n (v / 256))

theorem leNat_leBytes : ∀ n v : Nat, leNat (leBytes n v) = v % 256 ^ n
  | 0, v => (Nat.mod_one v).symm
  | n + 1, v => by
    rw [leBytes, leNat, leNat_leBytes n, BitVec.toNat_ofNat, Nat.pow_succ' (m := 256), Nat.mod_mul]

@[simp] theorem beBytes_length (n v : Nat) : (beBytes n v).length = n := by
  rw [beBytes, List.length_reverse, leBytes_length]

theorem shaBlock_length {w : Nat} (am : ShaAmounts) (ks h : List (BitVec w)) (b : Bytes) (hh : h.length = 8) :
    (shaBlock am ks h b).length = 8 := by
  rw [shaBlock, List.length_zipWith, hh, ShaState.words]
  rfl

theorem shaBlocks_length {w : Nat} (am : ShaAmounts) (ks : List (BitVec w)) (n : Nat) (h : List (BitVec w)) (b : Bytes)
    (hh : h.length = 8) : (shaBlocks am ks n h b).length = 8 := by
  induction n generalizing h b with
  | zero => exact hh
  | succ n ih => exact ih _ _ (shaBlock_length am ks h _ hh)

theorem sha384_length (m : Bytes) : (sha384 m).length = 48 := by
  have hwords := shaBlocks_length sha512Amounts sha512K ((shaPad 128 16 m).length / 128) sha384Init (shaPad 128 16 m) rfl
  simp only [sha384, shaWhole, List.length_take, List.length_flatMap, beBytes_length, List.map_const', List.sum_replicate,
    hwords]
  rfl

/-! ### The header of a block that is built (R293) -/

/-- The trailer of a block of an input. -/
def StoreForm.trailerOf (f : StoreForm) (input : Bytes) : Bytes := if f.trailer then sha384 input else []

theorem StoreForm.trailerOf_length (f : StoreForm) (input : Bytes) :
    (f.trailerOf input).length = if f.trailer then 48 else 0 := by
  unfold StoreForm.trailerOf
  split
  · exact sha384_length input
  · rfl

/-- The column descriptor as a block of `n` bytes of input carries it (R297). -/
def StoreForm.columnFor (f : StoreForm) (n : Nat) : Bytes :=
  (leBytes 8 f.column).take 4 ++ leBytes 4 (blockRows (leBytes 8 f.column) n)

/-- Its header, as the decoder reads it. -/
def StoreForm.headFor (f : StoreForm) (kind : Nat) (input body : Bytes) : BHead :=
  { flags := kind + (if f.trailer then 8 else 0), effort := f.effort % 256, ulen := input.length, slen := body.length
    column := f.columnFor input.length }

section
variable (f : StoreForm) (kind : Nat) (input body : Bytes)

@[simp] theorem StoreForm.headFor_ulen : (f.headFor kind input body).ulen = input.length := rfl
@[simp] theorem StoreForm.headFor_slen : (f.headFor kind input body).slen = body.length := rfl

theorem drop_blockBytes : (blockBytes f kind input body).drop 32 = body ++ f.trailerOf input := rfl

theorem blockBytes_length :
    (blockBytes f kind input body).length = 32 + body.length + (if f.trailer then 48 else 0) := by
  rw [← f.trailerOf_length input]
  simp [blockBytes, StoreForm.trailerOf, zeros]
  omega

theorem headOf_blockBytes (hk : kind < 8) (hi : input.length < 2 ^ 32) (hb : body.length < 2 ^ 32) :
    headOf (blockBytes f kind input body) = f.headFor kind input body := by
  have hflags : fieldAt (blockBytes f kind input body) 5 1 = kind + (if f.trailer then 8 else 0) := by
    change leNat (leBytes 1 (kind + (if f.trailer then 8 else 0))) = _
    rw [leNat_leBytes, Nat.mod_eq_of_lt (by split <;> omega)]
  have heffort : fieldAt (blockBytes f kind input body) 6 1 = f.effort % 256 := leNat_leBytes 1 f.effort
  have hulen : fieldAt (blockBytes f kind input body) 8 4 = input.length :=
    (leNat_leBytes 4 input.length).trans (Nat.mod_eq_of_lt hi)
  have hslen : fieldAt (blockBytes f kind input body) 12 4 = body.length :=
    (leNat_leBytes 4 body.length).trans (Nat.mod_eq_of_lt hb)
  have hcolumn : sliceAt (blockBytes f kind input body) 16 8 = f.columnFor input.length := rfl
  rw [headOf, hflags, heffort, hulen, hslen, hcolumn, StoreForm.headFor]

end

/-! ### The checks of R302 on a block that is built -/

/-- What the decoder takes from FLAGS: one kind, RAW or not, the trailer, and nothing above it. -/
theorem StoreForm.headFor_flags (f : StoreForm) {kind : Nat} (input body : Bytes) (hkind : kind = 1 ∨ kind = 2 ∨ kind = 4) :
    let h := f.headFor kind input body
    b2n (bitAt h.flags 0) + b2n (bitAt h.flags 1) + b2n (bitAt h.flags 2) = 1 ∧ h.flags < 16
      ∧ h.raw = decide (kind = 1) ∧ h.digest = f.trailer := by
  simp only [BHead.raw, BHead.digest, StoreForm.headFor]
  generalize f.trailer = trailer
  rcases hkind with rfl | rfl | rfl <;> cases trailer <;> decide

/-- What a block of up to 1 MiB of input keeps to: it is of one kind, a RAW body is its input, no body is longer, and the column
descriptor is one of R294. -/
structure StoreForm.Keeps (f : StoreForm) (kind : Nat) (input body : Bytes) : Prop where
  isKind : kind = 1 ∨ kind = 2 ∨ kind = 4
  rawBody : kind = 1 → body = input
  inputSize : input.length ≤ 1048576
  bodySize : 1 ≤ body.length ∧ body.length ≤ input.length
  type : fieldAt (leBytes 8 f.column) 0 1 ≤ 0x13
  encoding : fieldAt (leBytes 8 f.column) 2 1 < 6
  nullable : fieldAt (leBytes 8 f.column) 3 1 < 2

section
variable {f : StoreForm} {kind : Nat} {input body : Bytes} (h : f.Keeps kind input body)
include h

theorem StoreForm.Keeps.headOf_eq : headOf (blockBytes f kind input body) = f.headFor kind input body := by
  obtain ⟨hkind, -, hinput, ⟨-, hbody⟩, -⟩ := h
  exact headOf_blockBytes f kind input body (by omega) (by omega) (by omega)

/-- It passes the checks of its header. -/
theorem StoreForm.Keeps.headStatus_eq : headStatus (blockBytes f kind input body) = 0 := by
  have hhead := h.headOf_eq
  obtain ⟨hkind, hraw, hinput, ⟨hsome, hbody⟩, htype, hencoding, hnullable⟩ := h
  obtain ⟨hkinds, hflags, hisRaw, hdigest⟩ := f.headFor_flags input body hkind
  have hslen : if (f.headFor kind input body).raw then body.length = input.length else body.length ≤ 1114112 := by
    rw [hisRaw]
    split
    · next hk => rw [hraw (of_decide_eq_true hk)]
    · omega
  have hstored : (f.headFor kind input body).stored = (blockBytes f kind input body).length := by
    rw [BHead.stored, hdigest, blockBytes_length]
    rfl
  have hmagic : fieldAt (blockBytes f kind input body) 0 4 = blockMagic := (leNat_leBytes 4 blockMagic).trans (by decide)
  have hversion : fieldAt (blockBytes f kind input body) 4 1 = 1 := rfl
  have hzero : fieldAt (blockBytes f kind input body) 7 1 = 0 := rfl
  have hreserved : fieldAt (blockBytes f kind input body) 24 8 = 0 :=
    (congrArg leNat (rfl : _ = zeros 8)).trans (by decide)
  rw [headStatus, hhead]
  exact if_pos ⟨hmagic, hversion, hkinds, hflags, hzero, hreserved, hsome.trans hbody, hinput, hsome, hslen, htype, hencoding,
    hnullable, hstored.le⟩

/-- The decoder finds its body and its trailer, and gives the input back where the body comes to it. -/
theorem StoreForm.Keeps.decodeBlock_eq (noCheck : Bool) (hbody : kind ≠ 1 → inflate body input.length = .ok input) :
    decodeBlock noCheck (blockBytes f kind input body) = (0, input) := by
  obtain ⟨-, -, hisRaw, hdigest⟩ := f.headFor_flags input body h.isKind
  have hfound : ((blockBytes f kind input body).drop 32).take body.length = body := by
    rw [drop_blockBytes, List.take_left]
  have htrailer : ((blockBytes f kind input body).drop (32 + body.length)).take 48 = (f.trailerOf input).take 48 := by
    rw [← List.drop_drop, drop_blockBytes, List.drop_left]
  have hopened : (if (f.headFor kind input body).raw then .ok body else inflate body input.length)
      = (.ok input : Except InflateFault Bytes) := by
    rw [hisRaw]
    split
    · next hk => rw [h.rawBody (of_decide_eq_true hk)]
    · next hk => exact hbody (by simpa using hk)
  have hsum : f.trailer = true → (f.trailerOf input).take 48 = sha384 input := by
    intro ht
    rw [StoreForm.trailerOf, if_pos ht, List.take_of_length_le (sha384_length input).le]
  rw [decodeBlock]
  simp only [h.headOf_eq, h.headStatus_eq, ne_eq, not_true_eq_false, if_false, hdigest, StoreForm.headFor_slen,
    StoreForm.headFor_ulen, hfound, hopened, htrailer]
  exact if_neg fun ⟨ht, _, hne⟩ => hne (hsum ht)

end

/-! ### What a build writes (R298, R299) -/

theorem decodesBack_iff {body input : Bytes} : decodesBack body input = true ↔ inflate body input.length = .ok input := by
  rw [decodesBack]
  split
  · next out h => simp [h]
  · next e h => simp [h]

/-- No output comes of an empty body: there is not even the header of a DEFLATE block in it. -/
theorem inflate_nil (n : Nat) : inflate [] n = .error .outOfBounds := rfl

/-- A block that is built is RAW, or has a shorter body that decodes to its input, with a kind of code by the effort. -/
theorem buildBlock_cases (f : StoreForm) (tag : Nat) (input : Bytes) :
    (buildBlock f tag input).2 = blockBytes f 1 input input ∨ ∃ kind body, (kind = 2 ∨ kind = 4) ∧ body.length < input.length
      ∧ inflate body input.length = .ok input ∧ (buildBlock f tag input).2 = blockBytes f kind input body := by
  rw [buildBlock]
  split
  · exact .inl rfl
  · next h =>
    simp only [Bool.or_eq_true, Bool.not_eq_true', not_or, decide_eq_true_eq, not_le, Bool.not_eq_false] at h
    obtain ⟨⟨hshort, hback⟩, -⟩ := h
    exact .inr ⟨_, _, ite_eq_or_eq _ 2 4, hshort, decodesBack_iff.mp hback, rfl⟩

/-- A block that is built keeps the format, and its body comes to its input. -/
theorem buildBlock_keeps (f : StoreForm) (tag : Nat) {input : Bytes} (hsome : 1 ≤ input.length) (hinput : input.length ≤ 1048576)
    (htype : fieldAt (leBytes 8 f.column) 0 1 ≤ 0x13) (hencoding : fieldAt (leBytes 8 f.column) 2 1 < 6)
    (hnullable : fieldAt (leBytes 8 f.column) 3 1 < 2) :
    ∃ kind body, (buildBlock f tag input).2 = blockBytes f kind input body ∧ f.Keeps kind input body
      ∧ (kind ≠ 1 → inflate body input.length = .ok input) := by
  obtain hraw | ⟨kind, body, hkind, hshort, hbody, hblock⟩ := buildBlock_cases f tag input
  · exact ⟨1, input, hraw, ⟨.inl rfl, fun _ => rfl, hinput, ⟨hsome, le_rfl⟩, htype, hencoding, hnullable⟩, fun h => (h rfl).elim⟩
  · have hne : body ≠ [] := by
      rintro rfl
      cases (inflate_nil input.length).symm.trans hbody
    exact ⟨kind, body, hblock, ⟨.inr hkind, by omega, hinput, ⟨List.length_pos_iff.mpr hne, hshort.le⟩, htype, hencoding,
      hnullable⟩, fun _ => hbody⟩

/-- Settles O32: a block that is built keeps the format, so it passes the decoder's checks and its body, RAW or DEFLATE, comes to
the input. -/
theorem blocksDecodeToTheirInput : Obligations.BlocksDecodeToTheirInput := by
  intro f tag input noCheck col hsome hinput htype hencoding hnullable
  obtain ⟨kind, body, hblock, hkeeps, hbody⟩ := buildBlock_keeps f tag hsome hinput htype hencoding hnullable
  rw [hblock, hkeeps.decodeBlock_eq noCheck hbody, blockBytes_length]
  have hshort := hkeeps.bodySize.2
  refine ⟨rfl, ?_⟩
  split <;> omega

end Sys2Proof.Machine

/-! ## Bifold's engines take and end blocks (R302, R305, R306) -/

namespace Sys2Proof.Machine

/-! ### An engine takes a block (R305) -/

@[simp] theorem BCas.engine_setEngine (x : BCas) (e : Nat) (y : BEngine) : (x.setEngine e y).engine e = y :=
  Sparse.get_set_self _ _ _ _

/-- Device `t` has the jobs and the engines that `d` has. -/
structure Dev.SameEngines (d t : Dev) : Prop where
  jobs : t.bifold.jobs = d.bifold.jobs
  engines : ∀ c, (t.bcas c).engines = (d.bcas c).engines

theorem Dev.SameEngines.engine {d t : Dev} (h : d.SameEngines t) (c e : Nat) : (t.bcas c).engine e = (d.bcas c).engine e :=
  congrArg (fun m => Sparse.get ({} : BEngine) m e) (h.engines c)

/-- A Casement whose queue alone changes keeps its engines. -/
theorem Dev.setBcas_queue_sameEngines (d : Dev) (k : Nat) (q : List BReq) :
    d.SameEngines (d.setBcas k { d.bcas k with queue := q }) where
  jobs := rfl
  engines c := by
    by_cases hc : c = k
    · rw [hc, Dev.bcas_setBcas]
    · rw [Dev.bcas_setBcas_ne d _ hc]

theorem Dev.offerBlock_sameEngines (d : Dev) (r : BReq) : d.SameEngines (d.offerBlock r) := by
  unfold Dev.offerBlock
  split
  · exact d.setBcas_queue_sameEngines _ _
  · exact ⟨rfl, fun _ => rfl⟩

theorem Dev.refillBlocks_sameEngines (d : Dev) : d.SameEngines d.refillBlocks :=
  foldl_keeps d.SameEngines Dev.offerBlock
    (fun t r ht => ⟨(t.offerBlock_sameEngines r).jobs.trans ht.jobs,
      fun c => ((t.offerBlock_sameEngines r).engines c).trans (ht.engines c)⟩) _ _ ⟨rfl, fun _ => rfl⟩

/-- The device whose engine holds a request out of its Casement's queue. -/
def Dev.blockTaken (d : Dev) (c e : Nat) (r : BReq) : Dev :=
  let x := d.bcas c
  d.setBcas c ({ x with queue := x.queue.erase r }.setEngine e { x.engine e with held := some r })

theorem Dev.blockStart_of_takes {d : Dev} {c e : Nat} {r : BReq} (hstop : (d.bcas c).stopped = false)
    (hhalt : d.halted = false) (htake : takable e (d.bcas c).queue = some r)
    (hfind : (List.range 12).find? (fun e =>
      d.engineReady c e && ((d.bcas c).engine e).held.isNone && (takable e (d.bcas c).queue).isSome) = some e) :
    d.blockStart c = (d.blockTaken c e r).refillBlocks := by
  simp only [Dev.blockStart, hstop, hhalt, hfind, htake, Bool.false_eq_true, or_self, if_false, Dev.blockTaken]

/-- What is taken lies on its engine, and its jobs are as they were, and beyond Bifold nothing has changed. -/
theorem Dev.refillBlocks_blockTaken_facts (d : Dev) (c e : Nat) (r : BReq) :
    let t := (d.blockTaken c e r).refillBlocks
    ((t.bcas c).engine e).held = some r ∧ t.bifold.jobs = d.bifold.jobs ∧ ∃ b, t = { d with bifold := b } := by
  have hsame := (d.blockTaken c e r).refillBlocks_sameEngines
  refine ⟨?_, hsame.jobs, Dev.refillBlocks_frame (d.blockTaken c e r)⟩
  rw [hsame.engine, Dev.blockTaken, Dev.bcas_setBcas, BCas.engine_setEngine]

/-! ### What a block comes to (R302, R306) -/

/-- Device `t` is `d` but for counters and for how many open values have been drawn. -/
def Dev.CountedAs (d t : Dev) : Prop := ∃ f o n, t = { d with flds := f, objs := o, free := n }

namespace Dev.CountedAs

variable {d t : Dev}

theorem refl (d : Dev) : d.CountedAs d := ⟨_, _, _, rfl⟩

theorem fcount (h : d.CountedAs t) (f : Fld) (n : Nat) : d.CountedAs (t.fcount f n) := by
  obtain ⟨_, _, _, rfl⟩ := h
  exact ⟨_, _, _, rfl⟩

theorem ocount (h : d.CountedAs t) (o : Obj) (n : Nat) : d.CountedAs (t.ocount o n) := by
  obtain ⟨_, _, _, rfl⟩ := h
  exact ⟨_, _, _, rfl⟩

variable {c : Prop} [Decidable c]

theorem ocountIf (h : d.CountedAs t) (o : Obj) (n : Nat) : d.CountedAs (if c then t.ocount o n else t) := by
  split
  · exact h.ocount o n
  · exact h

theorem countIf (h : d.CountedAs t) (f : Fld) (o : Obj) (n m : Nat) :
    d.CountedAs (if c then (t.fcount f n).ocount o m else t) := by
  split
  · exact (h.fcount f n).ocount o m
  · exact h

end Dev.CountedAs

/-- The device and the number of a build: the effort, or an open number while the test control is off its value (R309). -/
theorem Dev.buildTag_countedAs (d : Dev) (c effort : Nat) :
    d.CountedAs (if d.fget (F.BF_CTL_RSV16 c) = 0xC3 then (effort, d) else (d.draw.1 + 8, d.draw.2)).2 := by
  split
  · exact .refl d
  · exact ⟨_, _, _, rfl⟩

/-- A block that runs is counted. -/
theorem Dev.runBlock_countedAs (d : Dev) (c : Nat) (j : Job) (i : Nat) : d.CountedAs (d.runBlock c j i).1 := by
  rw [Dev.runBlock]
  split
  · have hbuilt := ((d.buildTag_countedAs c j.form.effort).fcount (F.BF_OUT_BUILT c) 1).ocount O.BLOCKS_BUILT 1
    exact (((hbuilt.ocount O.COMPRESS_IN_BYTES _).ocount O.COMPRESS_OUT_BYTES _).ocountIf O.RAW_FALLBACKS 1).ocountIf
      O.TRAILERS_WRITTEN 1
  · exact (((((CountedAs.refl d).countIf (F.BF_ERR_DECOMPRESS c) O.DECOMPRESS_ERRORS 1 1).countIf
      (F.BF_ERR_HEADER c) O.BLOCK_HEADER_ERRORS 1 1).countIf (F.BF_OUT_DECODED c) O.BLOCKS_DECODED 1 1).ocountIf
      O.TRAILERS_CHECKED 1).ocountIf O.TRAILER_MISMATCHES 1

theorem Dev.runBlock_of_decode (d : Dev) (c : Nat) {j : Job} (i : Nat) (h : j.build = false) :
    (d.runBlock c j i).2 = decodeBlock j.noCheck (j.blocks.getD i []) := by
  simp only [Dev.runBlock, h, Bool.false_eq_true, if_false]

theorem Dev.runBlock_of_build (d : Dev) (c : Nat) {j : Job} (i : Nat) (h : j.build = true) :
    ∃ tag, (d.runBlock c j i).2 = (0, (buildBlock j.form tag (j.blocks.getD i [])).2) := by
  simp only [Dev.runBlock, h, if_true]
  exact ⟨_, rfl⟩

/-! ### An engine ends a block (R302) -/

theorem Dev.job_mapJob (d : Dev) (o : BOwner) (f : Job → Job) (hf : ∀ j, (f j).owner = j.owner) :
    (d.mapJob o f).job o = (d.job o).map f := by
  simp only [Dev.job, Dev.mapJob, List.find?_map]
  have hp : ((fun j : Job => decide (j.owner = o)) ∘ fun j => if j.owner = o then f j else j) = fun j => decide (j.owner = o) := by
    funext j
    by_cases h : j.owner = o <;> simp [h, hf]
  rw [hp]
  cases h : d.bifold.jobs.find? (fun j => decide (j.owner = o)) with
  | none => rfl
  | some j =>
    have howner : j.owner = o := by simpa using List.find?_some h
    simp [howner]

/-- The device whose engine has let go of its block. -/
def Dev.blockFreed (d : Dev) (c e : Nat) : Dev :=
  let x := d.bcas c
  d.setBcas c (x.setEngine e { x.engine e with held := none })

section
variable {d : Dev} {c e : Nat} {r : BReq} {j : Job} (hheld : ((d.bcas c).engine e).held = some r) (hhalt : d.halted = false)
  (hjob : d.job r.owner = some j)
include hheld hhalt hjob

theorem Dev.blockDone_of_sound (hfi : d.fiFires (casSource c 9) = false) :
    d.blockDone c e false = ((d.blockFreed c e).runBlock c j r.index).1.mapJob r.owner (fun k =>
      { k with results := k.results ++ [(r.index, ((d.blockFreed c e).runBlock c j r.index).2)] }) := by
  simp only [Dev.blockDone, hheld, hhalt, hjob, hfi, Bool.false_eq_true, if_false, Dev.blockFreed]

theorem Dev.blockDone_of_parity : d.blockDone c e true = d.blockParity c e r (j.offset r.index) false := by
  simp only [Dev.blockDone, hheld, hhalt, hjob, Bool.false_eq_true, if_false, if_true]

/-- The engine is free, the outcome joins the job, and beyond Bifold and counters nothing has changed. -/
theorem Dev.blockDone_facts (hfi : d.fiFires (casSource c 9) = false) :
    let t := d.blockDone c e false
    ((t.bcas c).engine e).held = none
      ∧ t.job r.owner = some { j with results := j.results ++ [(r.index, ((d.blockFreed c e).runBlock c j r.index).2)] }
      ∧ t.jamb = d.jamb ∧ t.mem = d.mem ∧ t.host = d.host := by
  obtain ⟨f, o, n, hrun⟩ := (d.blockFreed c e).runBlock_countedAs c j r.index
  have hfree : (((d.blockFreed c e).bcas c).engine e).held = none := by
    rw [Dev.blockFreed, Dev.bcas_setBcas, BCas.engine_setEngine]
  intro t
  simp only [t, Dev.blockDone_of_sound hheld hhalt hjob hfi]
  refine ⟨?_, ?_, ?_⟩
  · rw [Dev.bcas_mapJob, hrun]
    exact hfree
  · rw [Dev.job_mapJob _ _ _ (by intro _; rfl), hrun]
    exact congrArg _ hjob
  · rw [Dev.mapJob_jamb, Dev.mapJob_mem, Dev.mapJob_host, hrun]
    exact ⟨rfl, rfl, rfl⟩

end

/-! ### A parity error (R306) -/

theorem Dev.roomiest_mem {d : Dev} {cs : List Nat} {k : Nat} (h : d.roomiest cs = some k) : k ∈ cs :=
  (List.mem_filter.mp (List.mem_of_find?_eq_some h)).1

/-- The device whose engine has had a parity error, its block back in a queue or waiting. -/
def Dev.blockReturned (d : Dev) (c e : Nat) (r : BReq) : Dev :=
  let y := (d.bcas c).engine e
  let x := (d.bcas c).setEngine e { y with held := none, errors := y.errors + 1 }
  if (List.range 12).any (fun k => decide (k ≠ e) && d.engineReady c k) then
    d.setBcas c { x with queue := { r with avoid := some e } :: x.queue }
  else
    let d := d.setBcas c x
    match d.roomiest (d.casements.filter (fun k => decide (k ≠ c))) with
    | some k => d.setBcas k { d.bcas k with queue := (d.bcas k).queue ++ [{ r with avoid := none }] }
    | none => { d with bifold := { d.bifold with waiting := d.bifold.waiting ++ [{ r with avoid := none }] } }

theorem Dev.blockParity_eq (d : Dev) (c e : Nat) (r : BReq) (offset : Nat) (injected : Bool) :
    d.blockParity c e r offset injected = if ((d.bcas c).engine e).errors = 0 then d.blockReturned c e r
      else (d.blockReturned c e r).faultRaise (casSource c 9) (e + offset % 2 ^ 32 * 16) injected := rfl

/-- The error is counted on the engine, whichever queue the block goes to; jobs and memories are as they were. -/
theorem Dev.blockReturned_facts (d : Dev) (c e : Nat) (r : BReq) :
    let t := d.blockReturned c e r
    ((t.bcas c).engine e).errors = ((d.bcas c).engine e).errors + 1 ∧ t.bifold.jobs = d.bifold.jobs
      ∧ t.mem = d.mem ∧ t.host = d.host := by
  have hcounted (x y) (q : List BReq) :
      (((d.setBcas c { BCas.setEngine x e y with queue := q }).bcas c).engine e).errors = y.errors := by
    rw [Dev.bcas_setBcas]
    exact congrArg _ (BCas.engine_setEngine x e y)
  unfold Dev.blockReturned
  dsimp only
  split
  · exact ⟨hcounted _ _ _, rfl, rfl, rfl⟩
  · split
    · next k hk =>
      have hne : c ≠ k := (of_decide_eq_true (List.mem_filter.mp (Dev.roomiest_mem hk)).2).symm
      refine ⟨?_, rfl, rfl, rfl⟩
      rw [Dev.bcas_setBcas_ne _ _ hne]
      exact hcounted _ _ _
    · exact ⟨hcounted _ _ _, rfl, rfl, rfl⟩

/-- So it is where the error has raised the engine's fault source. -/
theorem Dev.blockParity_facts (d : Dev) (c e : Nat) (r : BReq) (offset : Nat) (injected : Bool) :
    let t := d.blockParity c e r offset injected
    ((t.bcas c).engine e).errors = ((d.bcas c).engine e).errors + 1 ∧ t.bifold.jobs = d.bifold.jobs
      ∧ t.mem = d.mem ∧ t.host = d.host := by
  rw [Dev.blockParity_eq]
  split
  · exact d.blockReturned_facts c e r
  · simp only [Dev.bcas, Dev.faultRaise_bifold, Dev.faultRaise_mem, Dev.faultRaise_host]
    exact d.blockReturned_facts c e r

/-! ### The commands of an engine -/

/-- Settles O31: an engine takes what it may by how requests enter the queues, and ends its block by what the block comes to or by
the error that it has had. -/
theorem enginesTakeAndEndBlocks : Obligations.EnginesTakeAndEndBlocks := by
  intro s c e r x y hs hhalt
  refine ⟨fun hstop htake hfind => ?_, fun j hheld hjob hfi => ⟨?_, ?_⟩⟩
  · obtain ⟨hhold, hjobs, b, hframe⟩ := s.dev.refillBlocks_blockTaken_facts c.toNat e.toNat r
    refine lands_of_quiet (f := fun d => d.blockStart c.toNat) rfl hs ?_ ?_ ?_ <;>
      rw [Dev.blockStart_of_takes hstop hhalt htake hfind]
    · rw [hframe]
    · rw [hframe]
    · exact ⟨hhold, hjobs, by rw [hframe], by rw [hframe], by rw [hframe]⟩
  · obtain ⟨hfree, hresult, hkept⟩ := Dev.blockDone_facts hheld hhalt hjob hfi
    exact brings_of (f := fun d => d.blockDone c.toNat e.toNat false) rfl hs ⟨hfree, ⟨_, hresult,
      Dev.runBlock_of_decode _ _ _, Dev.runBlock_of_build _ _ _⟩, hkept⟩
  · obtain ⟨herrors, hjobs, hmem, hhost⟩ := s.dev.blockParity_facts c.toNat e.toNat r (j.offset r.index) false
    refine brings_of (f := fun d => d.blockDone c.toNat e.toNat true) rfl hs ?_
    rw [Dev.blockDone_of_parity hheld hhalt hjob]
    exact ⟨herrors, (congrArg _ hjobs).trans hjob, hmem, hhost⟩

end Sys2Proof.Machine

/-! ## How a step ends, and commands of a halted device (R412, R430) -/

namespace Sys2Proof.Machine

/-! ### How a command is answered -/

/-- A command is answered with a state that differs in the device alone, or refused as a write that sets TEST_CTL.MODE. -/
def Answered (s : State) (o : Host.Outcome State Fault Refusal) : Prop :=
  (∃ d, o = .next { s with dev := d }) ∨ o = .refused .testMode

theorem answered_unlessTest (s : State) (d : Dev) : Answered s (unlessTest s d) := by
  unfold unlessTest
  split
  · exact .inr rfl
  · exact .inl ⟨_, rfl⟩

theorem answered_serveTest (s : State) (f : Dev → Dev) : Answered s (serveTest s f) := by
  unfold serveTest
  split
  · exact answered_unlessTest s _
  · exact .inl ⟨s.dev, rfl⟩

theorem answered_servePoweredTest (s : State) (f : Dev → Dev) : Answered s (servePoweredTest s f) := by
  unfold servePoweredTest
  split
  · exact answered_unlessTest s _
  · exact .inl ⟨s.dev, rfl⟩

/-- The commands whose write may set TEST_CTL.MODE. -/
def MayTest (i : Instr) : Prop :=
  (∃ polled off width value, i = .registerWrite polled off width value) ∨ ∃ port good bytes reg, i = .putFrameRx port good bytes reg

/-- Only a register write and a PUT can be refused; every other command is answered with a next state. -/
theorem exec_answered (i : Instr) (s : State) :
    (∃ d, exec i s = .next { s with dev := d }) ∨ (exec i s = .refused .testMode ∧ MayTest i) := by
  cases i with
  | registerWrite polled off width value =>
    exact (answered_servePoweredTest s fun d => d.registerWrite polled off.toNat width.toNat value.toNat).imp id
      fun h => ⟨h, .inl ⟨polled, off, width, value, rfl⟩⟩
  | putFrameRx port good bytes reg =>
    exact (answered_serveTest s fun d => d.wake.putFrameRx port.toNat good bytes reg).imp id
      fun h => ⟨h, .inr ⟨port, good, bytes, reg, rfl⟩⟩
  | _ => exact .inl ⟨_, rfl⟩

/-- Settles O3: a step is a tick, or a command as it is answered. -/
theorem stepNeverFaults : Obligations.StepNeverFaults := by
  intro s
  cases hq : s.pending with
  | nil => exact .inl ⟨_, step_of_pending_nil hq, hq⟩
  | cons i q =>
    rw [step_of_pending_cons hq]
    rcases exec_answered i { s with pending := q } with ⟨d, hd⟩ | ⟨hrefused, hi⟩
    · exact .inl ⟨_, hd, rfl⟩
    · refine .inr ⟨hrefused, hi.imp ?_ ?_⟩
      · rintro ⟨polled, off, width, value, rfl⟩
        exact ⟨polled, off, width, value, rfl⟩
      · rintro ⟨port, good, bytes, reg, rfl⟩
        exact ⟨port, good, bytes, reg, rfl⟩

/-! ### Commands of a halted device -/

/-- Nothing follows a command on a halted device that owes no reaction. -/
theorem Dev.settle_of_halted {d : Dev} (h : d.halted = true) (hr : d.reacts = []) : d.settle = d := by
  simp only [Dev.settle, Dev.reactAll_nil _ _ hr, h, true_or, if_true]

/-- A command that leaves a halted device as it is leaves the state as it is. -/
theorem serve_of_unchanged {s : State} {f : Dev → Dev} (h : s.dev.halted = true) (hr : s.dev.reacts = []) (hf : f s.dev = s.dev) :
    serve s f = .next s := by
  simp only [serve, Dev.served, hf, Dev.settle_of_halted h hr, ite_self]

theorem serveAlone_of_unchanged {s : State} {f : Dev → Dev} (hf : f s.dev = s.dev) : serveAlone s f = .next s := by
  simp only [serveAlone, Dev.servedAlone, hf, ite_self]

/-- No ring command goes on while the device is halted. -/
theorem Dev.running_of_halted {d : Dev} (h : d.halted = true) (id op : Nat) : d.running id op = none := by
  unfold Dev.running
  split
  · exact if_neg fun hrun => Bool.noConfusion (h.symm.trans hrun.2.2)
  · rfl

theorem Dev.lvLoad_of_halted {d : Dev} (h : d.halted = true) (id op : Nat) : d.lvLoad id op = none := by
  unfold Dev.lvLoad
  rw [Dev.running_of_halted h]

theorem Dev.entryFetch_of_halted {d : Dev} (h : d.halted = true) (u : Option Nat) : d.entryFetch u = d := if_pos (.inl h)

theorem Dev.commandDispatch_of_halted {d : Dev} (h : d.halted = true) (q : Nat) : d.commandDispatch q = d :=
  if_pos (by simp only [Dev.dispatches, h, Bool.not_true, Bool.false_and])

theorem Dev.completionPost_of_halted {d : Dev} (h : d.halted = true) (id : Nat) : d.completionPost id = d := by
  unfold Dev.completionPost
  split
  · rfl
  · exact if_pos (.inr h)

/-- Settles O14: each command finds no ring command that goes on, or the halt itself. -/
theorem haltedJambDoesNothing : Obligations.HaltedJambDoesNothing := by
  intro s u q id h hr
  have hrun := fun op => Dev.running_of_halted h id op
  have hload := fun op => Dev.lvLoad_of_halted h id op
  refine ⟨serve_of_unchanged h hr (Dev.entryFetch_of_halted h _), serve_of_unchanged h hr (Dev.commandDispatch_of_halted h _),
    serveAlone_of_unchanged (Dev.completionPost_of_halted h _), ?_⟩
  simp only [List.forall_mem_cons, List.not_mem_nil, false_implies, implies_true, and_true]
  refine ⟨serveAlone_of_unchanged ?nop, serve_of_unchanged h hr ?load, serve_of_unchanged h hr ?run, serve_of_unchanged h hr ?cancel,
    serve_of_unchanged h hr ?park, serve_of_unchanged h hr ?resume, serve_of_unchanged h hr ?unload, serve_of_unchanged h hr ?store,
    serveAlone_of_unchanged ?sync, serve_of_unchanged h hr ?dma, serve_of_unchanged h hr ?compress,
    serve_of_unchanged h hr ?decompress, serve_of_unchanged h hr ?create, serve_of_unchanged h hr ?write,
    serve_of_unchanged h hr ?swap, serve_of_unchanged h hr ?lvUnload, serve_of_unchanged h hr ?flush,
    serve_of_unchanged h hr ?invalidate, serve_of_unchanged h hr ?flushInvalidate, serve_of_unchanged h hr ?preload,
    serve_of_unchanged h hr ?identity, serve_of_unchanged h hr ?sealed⟩
  case nop => simp only [Dev.nopRun, hrun]
  case load => simp only [Dev.pipeLoad, hrun]
  case run => simp only [Dev.pipeRun, hrun]
  case cancel => simp only [Dev.pipeCancel, hrun]
  case park => simp only [Dev.pipePark, hrun]
  case resume => simp only [Dev.pipeResume, hrun]
  case unload => simp only [Dev.pipeUnload, hrun]
  case store => simp only [Dev.storeRun, hrun]
  case sync => simp only [Dev.storeSync, hrun]
  case dma => simp only [Dev.dmaStart, hrun]
  case compress | decompress => simp only [Dev.bifoldRun, hrun]
  case create => simp only [Dev.louvreCreate, hload]
  case write => simp only [Dev.louvreWrite, hload]
  case swap => simp only [Dev.louvreSwap, hload]
  case lvUnload => simp only [Dev.louvreUnload, hload]
  case flush | invalidate | flushInvalidate | preload => simp only [Dev.cacheMaint, hrun]
  case identity => simp only [Dev.attestIdentity, hrun]
  case sealed => simp only [Dev.attestSeal, hrun]

end Sys2Proof.Machine

/-! ## Digest contexts and the key store (R312 to R322) -/

namespace Sys2Proof.Machine

/-! ### What the digest unit and the key store leave alone -/

theorem Dev.Rekeys.trans {d e t : Dev} (h : d.Rekeys e) (k : e.Rekeys t) : d.Rekeys t := by
  obtain ⟨f, g, rfl⟩ := h
  obtain ⟨f', g', rfl⟩ := k
  exact ⟨f', g', rfl⟩

theorem Dev.rekeys_setDgctx (d : Dev) (k : Nat) (x : DgCtx) : d.Rekeys (d.setDgctx k x) := ⟨_, _, rfl⟩

/-- What a served command lands that acts on digest contexts, the key store and register fields alone. -/
theorem lands_of_rekeys {i : Instr} {s : State} {f : Dev → Dev} {P : Dev → Prop} (h : exec i s = serve s f)
    (hs : s.dev.serves = true) (hf : s.dev.Rekeys (f s.dev)) (hP : P (f s.dev)) : Lands i s P := by
  obtain ⟨-, -, -, hreacts, hpipes⟩ := hf.facts
  exact lands_of_quiet h hs hreacts hpipes hP

theorem Dev.setKsWindow_dig (d : Dev) (b : Bytes) : (d.setKsWindow b).dig = d.dig := foldl_dig _ _ d fun _ _ => rfl

/-- An operation of the key store touches no digest context. -/
theorem Dev.ksAct_ctxs (d : Dev) (o : KsOp) : (d.ksAct o).dig.ctxs = d.dig.ctxs := by
  unfold Dev.ksAct
  dsimp only
  split
  · split <;> rfl
  · rfl
  · exact congrArg Dig.ctxs (Dev.setKsWindow_dig ..)
  · rfl

@[simp] theorem Dev.dgctx_ksSettle (d : Dev) (k : Nat) : d.ksSettle.dgctx k = d.dgctx k := by
  unfold Dev.dgctx Dev.ksSettle
  split
  · split
    · rfl
    · rw [Dev.ksAct_ctxs]
  · rfl

/-! ### A write of DG_CTL -/

/-- DG_CTL as a write stores it, before its command bits act. -/
def Dev.dgStored (d : Dev) (k control : Nat) : Dev :=
  ((((d.fput (F.DG_CTL_ALG k) (bits control 1 0)).fput (F.DG_CTL_HMAC k) (bits control 2 2)).fput
    (F.DG_CTL_TO_SLOT k) (bits control 3 3)).fput (F.DG_CTL_KEY_SLOT k) (bits control 9 4)).fput
    (F.DG_CTL_DEST_SLOT k) (bits control 15 10)

theorem Dev.dgControl_eq (d : Dev) (k control : Nat) (start final release : Bool) :
    d.dgControl k control start final release = ((d.dgStored k control).dgCommands k start final release).ksSettle := rfl

theorem Dev.rekeys_dgStored (d : Dev) (k control : Nat) : d.Rekeys (d.dgStored k control) := ⟨_, _, rfl⟩

/-- The fields of DG_CTL read as the write stored them, and the declared length as it stood. -/
theorem Dev.dgStored_fields (d : Dev) (k control : Nat) :
    let e := d.dgStored k control
    e.fget (F.DG_CTL_ALG k) = bits control 1 0 ∧ e.fgetB (F.DG_CTL_HMAC k) = bitAt control 2
      ∧ e.fgetB (F.DG_CTL_TO_SLOT k) = bitAt control 3 ∧ e.fget (F.DG_CTL_KEY_SLOT k) = bits control 9 4
      ∧ e.fget (F.DG_CTL_DEST_SLOT k) = bits control 15 10 ∧ e.fget (F.DG_LEN_LO_LEN k) = d.fget (F.DG_LEN_LO_LEN k)
      ∧ e.fget (F.DG_LEN_HI_LEN k) = d.fget (F.DG_LEN_HI_LEN k) := by
  have hbit (n i : Nat) : (bits n i i % 2 ^ 1 != 0) = bitAt n i := by
    simp only [bits, bitAt, Nat.add_sub_cancel_left, Nat.mod_mod, Nat.pow_one]
    have h : (n >>> i) % 2 < 2 := Nat.mod_lt _ (by omega)
    generalize (n >>> i) % 2 = b at h
    interval_cases b <;> rfl
  have hmod (n hi lo : Nat) : bits n hi lo % 2 ^ (hi + 1 - lo) = bits n hi lo := Nat.mod_mod _ _
  simp (disch := (simp only [F.DG_CTL_ALG, F.DG_CTL_HMAC, F.DG_CTL_TO_SLOT, F.DG_CTL_KEY_SLOT, F.DG_CTL_DEST_SLOT,
    F.DG_LEN_LO_LEN, F.DG_LEN_HI_LEN, fldKey]; omega)) only [Dev.fgetB, Dev.dgStored, Dev.fget_fput, Dev.fget_fput_ne]
  exact ⟨hmod _ 1 0, hbit _ _, hbit _ _, hmod _ 9 4, hmod _ 15 10, trivial, trivial⟩

/-! ### The statement about digest contexts (R312 to R315, R318) -/

/-- A context that is put: it alone changes. -/
theorem Dev.dgctx_of_put {d e t : Dev} {k : Nat} {x : DgCtx} (he : e.dig.ctxs = d.dig.ctxs)
    (ht : t.dig.ctxs = (e.setDgctx k x).dig.ctxs) : t.dgctx k = x ∧ ∀ j, j ≠ k → t.dgctx j = d.dgctx j := by
  have hall (j : Nat) : t.dgctx j = (d.setDgctx k x).dgctx j := by
    simp only [Dev.dgctx, ht, Dev.setDgctx, he]
  exact ⟨(hall k).trans (Dev.dgctx_setDgctx ..), fun j hj => (hall j).trans (Dev.dgctx_setDgctx_ne d x hj)⟩

theorem Dev.ksSettle_ctxs (d : Dev) : d.ksSettle.dig.ctxs = d.dig.ctxs := by
  unfold Dev.ksSettle
  split
  · split
    · rfl
    · exact Dev.ksAct_ctxs _ _
  · rfl

/-- A served command that puts one context, after which an operation of the key store may act that waited. -/
theorem lands_of_put {i : Instr} {s : State} {f : Dev → Dev} {k : Nat} {x : DgCtx} {e : Dev} (h : exec i s = serve s f)
    (hs : s.dev.serves = true) (he : s.dev.Rekeys e) (hctxs : e.dig.ctxs = s.dev.dig.ctxs)
    (hf : f s.dev = e.setDgctx k x ∨ f s.dev = (e.setDgctx k x).ksSettle) :
    Lands i s (fun d => d.dgctx k = x ∧ ∀ j, j ≠ k → d.dgctx j = s.dev.dgctx j) := by
  have hput := he.trans (e.rekeys_setDgctx k x)
  rcases hf with hf | hf
  · exact lands_of_rekeys h hs (hf ▸ hput) (Dev.dgctx_of_put hctxs (by rw [hf]))
  · exact lands_of_rekeys h hs (hf ▸ hput.trans (Dev.ksSettle_rekeys _))
      (Dev.dgctx_of_put hctxs (by rw [hf, Dev.ksSettle_ctxs]))

/-- START begins a message by the fields that its own write stores. -/
theorem Dev.dgControl_start (d : Dev) (k control : Nat) :
    d.dgControl k control true false false = ((d.dgStored k control).setDgctx k
      { alloc := (d.dgctx k).alloc, cmd := (d.dgctx k).cmd, running := true, alg := bits control 1 0
        hmac := bitAt control 2, toSlot := bitAt control 3, keySlot := bits control 9 4, destSlot := bits control 15 10
        declared := d.fget (F.DG_LEN_LO_LEN k) + d.fget (F.DG_LEN_HI_LEN k) * 2 ^ 32 }).ksSettle := by
  obtain ⟨halg, hhmac, htoSlot, hkeySlot, hdestSlot, hlo, hhi⟩ := d.dgStored_fields k control
  rw [Dev.dgControl_eq]
  simp only [Dev.dgCommands, Dev.dgStart, halg, hhmac, htoSlot, hkeySlot, hdestSlot, hlo, hhi, if_true, Bool.false_eq_true,
    if_false]
  rfl

section
variable {d : Dev} {k : Nat} {b : Bytes} (hb : b.length = 4 ∨ b.length = 8) (hrun : (d.dgctx k).running = true)
  (hdone : (d.dgctx k).done = false)
include hb hrun hdone

/-- A data write to a message that has not ended. -/
theorem Dev.dgData_of_running (hfinal : (d.dgctx k).finalReq = false) :
    d.dgData k b = d.setDgctx k (if (d.dgctx k).busy = true then { d.dgctx k with lost := true }
      else if (d.dgctx k).declared ≤ (d.dgctx k).msg.length then { d.dgctx k with overrun := true }
      else { d.dgctx k with msg := (d.dgctx k).msg ++ b.take ((d.dgctx k).declared - (d.dgctx k).msg.length) }) := by
  have hopen : ¬ ((b.length ≠ 4 ∧ b.length ≠ 8) ∨ (d.dgctx k).running = false ∨ (d.dgctx k).done = true) := by
    rw [hrun, hdone]
    simp only [Bool.true_eq_false, Bool.false_eq_true, or_false]
    omega
  simp only [Dev.dgData, if_neg hopen, hfinal, Bool.false_eq_true, or_false]
  split
  · rfl
  · split <;> rfl

end

/-- A block turn of a message whose FINAL has not come. -/
theorem Dev.dgBlock_of_running {d : Dev} {k : Nat} (hrun : (d.dgctx k).running = true) (hdone : (d.dgctx k).done = false)
    (hfinal : (d.dgctx k).finalReq = false) (hfull : algBlock (d.dgctx k).alg ≤ (d.dgctx k).buffered) :
    d.dgBlock k = d.setDgctx k { d.dgctx k with compressed := (d.dgctx k).compressed + algBlock (d.dgctx k).alg } := by
  simp only [Dev.dgBlock, hrun, hdone, hfull, and_self, if_true, Dev.dgctx_setDgctx, hfinal, Bool.false_eq_true, false_and,
    if_false]

/-- Settles O34: each command puts its own context, by what its operation does in the state that the context is in. -/
theorem digestContextsTakeMessages : Obligations.DigestContextsTakeMessages := by
  intro s k control wide data x b others hs
  have hstored := s.dev.rekeys_dgStored k.toNat control.toNat
  have hsame : s.dev.Rekeys s.dev := ⟨_, _, rfl⟩
  have hb : b.length = 4 ∨ b.length = 8 := by
    cases wide
    · exact .inl (leBytes_length ..)
    · exact .inr (leBytes_length ..)
  refine ⟨fun j hfree => ?_, ?_, ?_, fun hrun hdone hfinal => ⟨fun hbusy => ?_, fun hbusy hroom => ?_, fun hbusy hfull => ?_,
    fun hfull => ?_⟩⟩
  · refine gives_of (f := fun d => d.dgAllocRead.2) rfl hs ?_
    simp only [Dev.dgAllocRead, hfree]
    exact Dev.dgctx_of_put rfl rfl
  · exact lands_of_put rfl hs hstored rfl (.inr (s.dev.dgControl_start _ _))
  · exact lands_of_put rfl hs hstored rfl (.inr rfl)
  · refine lands_of_put rfl hs hsame rfl (.inl ?_)
    rw [Dev.dgData_of_running hb hrun hdone hfinal, if_pos hbusy]
  · refine lands_of_put rfl hs hsame rfl (.inl ?_)
    rw [Dev.dgData_of_running hb hrun hdone hfinal, if_neg (ne_true_of_eq_false hbusy), if_neg (Nat.not_le.mpr hroom)]
  · refine lands_of_put rfl hs hsame rfl (.inl ?_)
    rw [Dev.dgData_of_running hb hrun hdone hfinal, if_neg (ne_true_of_eq_false hbusy), if_pos hfull]
  · refine lands_of_put rfl hs hsame rfl (.inr ?_)
    exact congrArg Dev.ksSettle (Dev.dgBlock_of_running hrun hdone hfinal hfull)

/-! ### The end of a message (R316, R317, R320) -/

section
variable {d : Dev} {k : Nat} (hrun : (d.dgctx k).running = true) (hdone : (d.dgctx k).done = false)
  (hfinal : (d.dgctx k).finalReq = false) (hleft : (d.dgctx k).buffered < algBlock (d.dgctx k).alg)
include hrun hdone hfinal hleft

/-- FINAL with no full block left ends the message at once. -/
theorem Dev.dgFinal_of_left : d.dgFinal k = d.dgComplete k := by
  have hopen : ¬ ((d.dgctx k).running = false ∨ (d.dgctx k).done = true ∨ (d.dgctx k).finalReq = true) := by
    simp only [hrun, hdone, hfinal, Bool.true_eq_false, Bool.false_eq_true, or_self, not_false_eq_true]
  simp only [Dev.dgFinal, if_neg hopen, if_neg (Nat.not_le.mpr hleft)]

end

/-- The result of a context's message, where it has one. -/
def Dev.resultIs (d : Dev) (x : DgCtx) (r : Bytes) : Prop :=
  x.hmac = false ∧ r = digestOf x.alg x.msg ∨ x.hmac = true ∧ ∃ key, d.hmacKey x.keySlot = .ok key ∧ r = hmacOf x.alg key x.msg

theorem Dev.dgResult_of_is {d : Dev} {x : DgCtx} {r : Bytes} (h : d.resultIs x r) : d.dgResult x = .ok r := by
  rcases h with ⟨hplain, rfl⟩ | ⟨hhmac, key, hkey, rfl⟩
  · simp only [Dev.dgResult, hplain, Bool.false_eq_true, if_false]
  · simp only [Dev.dgResult, hhmac, hkey, if_true]

section
variable {d : Dev} {k : Nat} (hfinal : (d.dgctx k).finalReq = false) (hlost : (d.dgctx k).lost = false)
include hfinal hlost

/-- A message whose data has not all come ends with SHORT. -/
theorem Dev.dgComplete_of_short (hshort : (d.dgctx k).msg.length < (d.dgctx k).declared) :
    d.dgComplete k = d.setDgctx k
      { d.dgctx k with done := true, compressed := (d.dgctx k).msg.length, short := true } := by
  simp only [Dev.dgComplete, if_neg (ne_true_of_eq_false hlost), if_pos hshort, hfinal]

/-- A message whose data has all come ends with its result. -/
theorem Dev.dgComplete_of_whole {r : Bytes} (hwhole : (d.dgctx k).declared ≤ (d.dgctx k).msg.length)
    (hslot : (d.dgctx k).toSlot = false) (hr : d.resultIs (d.dgctx k) r) :
    d.dgComplete k = d.setDgctx k
      { d.dgctx k with done := true, compressed := (d.dgctx k).msg.length, result := r } := by
  have hresult : d.dgResult { d.dgctx k with done := true, finalReq := false, compressed := (d.dgctx k).msg.length } = .ok r :=
    Dev.dgResult_of_is hr
  simp only [Dev.dgComplete, if_neg (ne_true_of_eq_false hlost), if_neg (Nat.not_lt.mpr hwhole), hresult,
    if_neg (ne_true_of_eq_false hslot), hfinal]

end

/-- FINAL is the only command bit of its write. -/
theorem Dev.dgControl_final (d : Dev) (k control : Nat) :
    d.dgControl k control false true false = ((d.dgStored k control).dgFinal k).ksSettle := rfl

/-- Settles O35: a message by whether its data has all come, and a read of the result by whether the message has ended. -/
theorem finalGivesTheDigest : Obligations.FinalGivesTheDigest := by
  intro s k control word r x hs halloc hrun
  have hstored := s.dev.rekeys_dgStored k.toNat control.toNat
  refine ⟨fun hdone hfinal hleft hlost => ⟨fun hshort => ?_, fun hwhole hslot hr => ?_⟩, fun hdone => ?_, fun hdone => ?_⟩
  · refine (lands_of_put (k := k.toNat) (x := { x with done := true, compressed := x.msg.length, short := true }) rfl hs
      hstored rfl (.inr ?_)).imp fun d hd => hd.1
    rw [Dev.dgControl_final, Dev.dgFinal_of_left (d := s.dev.dgStored k.toNat control.toNat) hrun hdone hfinal hleft,
      Dev.dgComplete_of_short (d := s.dev.dgStored k.toNat control.toNat) hfinal hlost hshort]
    rfl
  · refine (lands_of_put (k := k.toNat) (x := { x with done := true, compressed := x.msg.length, result := r }) rfl hs
      hstored rfl (.inr ?_)).imp fun d hd => hd.1
    rw [Dev.dgControl_final, Dev.dgFinal_of_left (d := s.dev.dgStored k.toNat control.toNat) hrun hdone hfinal hleft,
      Dev.dgComplete_of_whole (d := s.dev.dgStored k.toNat control.toNat) hfinal hlost hwhole hslot hr]
    rfl
  all_goals
    refine gives_of (f := fun d => (d.dgWord k.toNat word.toNat).2) rfl hs ?_
    have hused : ¬ ((s.dev.dgctx k.toNat).alloc = false ∧ (s.dev.dgctx k.toNat).running = false) := by
      rw [show (s.dev.dgctx k.toNat).alloc = true from halloc]
      exact fun h => Bool.noConfusion h.1
    simp only [Dev.dgWord, if_neg hused]
  · rw [if_pos hdone]
    exact Dev.dgctx_setDgctx ..
  · rw [if_neg (ne_false_of_eq_true hdone)]
    split <;> rfl

/-! ### Operations of the key store (R321, R322) -/

/-- KS_CMD as a write stores it, before its operation acts. -/
def Dev.ksStored (d : Dev) (o : KsOp) : Dev :=
  (((d.fput F.KS_CMD_OP o.op).fput F.KS_CMD_SLOT o.slot).fput F.KS_CMD_TYPE o.type).fput F.KS_CMD_LEN o.len

theorem Dev.ksCommand_eq (d : Dev) (o : KsOp) : d.ksCommand o = (d.ksStored o).ksGo o := rfl

section
variable {d : Dev} (o : KsOp) (hp : d.dig.ksPending = none)
include hp

/-- An operation on a slot that is not in use acts at once. -/
theorem Dev.ksCommand_of_free (hu : d.slotInUse o.slot = false) :
    d.ksCommand o = (d.ksStored o).ksAct o := by
  have hp' : (d.ksStored o).dig.ksPending = none := hp
  have hu' : (d.ksStored o).slotInUse o.slot = false := hu
  simp only [Dev.ksCommand_eq, Dev.ksGo, hp', hu', Option.isSome_none, Bool.false_eq_true, if_false]

/-- An operation on a slot in use waits. -/
theorem Dev.ksCommand_of_used (hu : d.slotInUse o.slot = true) :
    d.ksCommand o = { (d.ksStored o).fputB F.KS_STAT_BUSY true with dig := { d.dig with ksPending := some o } } := by
  have hp' : (d.ksStored o).dig.ksPending = none := hp
  have hu' : (d.ksStored o).slotInUse o.slot = true := hu
  simp only [Dev.ksCommand_eq, Dev.ksGo, hp', hu', Option.isSome_none, Bool.false_eq_true, if_false, if_true]
  rfl

end

/-- The key window stands under the fields that an operation writes. -/
theorem Dev.ksWindow_ksStored (d : Dev) (o : KsOp) :
    (((d.ksStored o).fputB F.KS_CMD_GO false).fputB F.KS_STAT_BUSY false).ksWindow = d.ksWindow := by
  unfold Dev.ksWindow
  congr 1
  funext i
  simp (disch := (simp only [F.KS_DATA_DATA, F.KS_CMD_GO, F.KS_STAT_BUSY, F.KS_CMD_OP, F.KS_CMD_SLOT, F.KS_CMD_TYPE,
    F.KS_CMD_LEN, fldKey]; omega)) only [Dev.ksStored, Dev.fget_fput_ne, Dev.fget_fputB_ne]

/-- A word of the key window after bytes are put there. -/
theorem Dev.fget_setKsWindow (d : Dev) (b : Bytes) {i : Nat} (hi : i < 32) :
    (d.setKsWindow b).fget (F.KS_DATA_DATA i) = fieldAt b (4 * i) 4 := by
  have hfold (n : Nat) : i < n → ((List.range n).foldl (fun d i => d.fput (F.KS_DATA_DATA i) (fieldAt b (4 * i) 4)) d).fget
      (F.KS_DATA_DATA i) = fieldAt b (4 * i) 4 := by
    induction n with
    | zero => exact fun h => absurd h (Nat.not_lt_zero i)
    | succ n ih =>
      intro hin
      rw [List.range_succ, List.foldl_append, List.foldl_cons, List.foldl_nil]
      by_cases h : i = n
      · subst h
        rw [Dev.fget_fput]
        exact Nat.mod_eq_of_lt (fieldAt_lt b (4 * i) 4)
      · rw [Dev.fget_fput_ne]
        · exact ih (by omega)
        · simp only [F.KS_DATA_DATA, fldKey]; omega
  exact hfold 32 hi

section
variable {i : Instr} {s : State} {f : Dev → Dev} {o : KsOp} (h : exec i s = serve s f) (ho : f s.dev = s.dev.ksCommand o)
  (hs : s.dev.serves = true) (hp : s.dev.dig.ksPending = none)
include h ho hs hp

/-- An operation on a slot that is not in use lands what it does. -/
theorem ksCommand_lands {P : Dev → Prop} (hu : s.dev.slotInUse o.slot = false) (hP : P ((s.dev.ksStored o).ksAct o)) :
    Lands i s P := by
  have hf := ho.trans (Dev.ksCommand_of_free o hp hu)
  exact lands_of_rekeys h hs (hf ▸ Dev.Rekeys.trans ⟨_, _, rfl⟩ (Dev.ksAct_rekeys _ o)) (hf ▸ hP)

/-- An operation on a slot in use waits. -/
theorem ksCommand_waits (hu : s.dev.slotInUse o.slot = true) :
    Lands i s (fun d => d.dig.ksPending.isSome = true ∧ d.fget F.KS_STAT_BUSY = 1 ∧ ∀ m, d.slot m = s.dev.slot m) := by
  have hf := ho.trans (Dev.ksCommand_of_used o hp hu)
  exact lands_of_rekeys h hs (hf ▸ ⟨_, _, rfl⟩) (hf ▸ ⟨rfl, (s.dev.ksStored o).fget_fputB F.KS_STAT_BUSY true, fun m => rfl⟩)

end

/-- Settles O36: an operation acts on its slot or waits for it. -/
theorem keyStoreOperations : Obligations.KeyStoreOperations := by
  intro s slot type len n others waits hs hp
  let load : KsOp := { op := 1, slot := slot.toNat, type := type.toNat, len := len.toNat }
  let other (op : Nat) : KsOp := { op := op, slot := slot.toNat, type := s.dev.fget F.KS_CMD_TYPE, len := s.dev.fget F.KS_CMD_LEN }
  refine ⟨fun hu => ⟨fun hok => ?_, fun hok => ?_, ?_, ?_⟩, fun hu => ⟨ksCommand_waits (o := load) rfl rfl hs hp hu,
    ksCommand_waits (o := other 2) rfl rfl hs hp hu, ksCommand_waits (o := other 3) rfl rfl hs hp hu⟩⟩
  · refine ksCommand_lands (o := load) rfl rfl hs hp hu ?_
    simp only [Dev.ksAct, load, show loadOk slot.toNat type.toNat len.toNat = true from hok, if_true, Dev.ksWindow_ksStored]
    exact ⟨Dev.slot_setSlot .., fun m hm => Dev.slot_setSlot_ne _ _ hm⟩
  · refine ksCommand_lands (o := load) rfl rfl hs hp hu ?_
    simp only [Dev.ksAct, load, show loadOk slot.toNat type.toNat len.toNat = false from hok, Bool.false_eq_true, if_false]
    exact ⟨Dev.fget_fputB .., rfl⟩
  · refine ksCommand_lands (o := other 2) rfl rfl hs hp hu ?_
    simp only [Dev.ksAct, other]
    exact ⟨Dev.slot_setSlot .., fun m hm => Dev.slot_setSlot_ne _ _ hm⟩
  · refine ksCommand_lands (o := other 3) rfl rfl hs hp hu ?_
    simp only [Dev.ksAct, other]
    exact ⟨fun i hi => Dev.fget_setKsWindow _ _ hi, Dev.setKsWindow_dig ..⟩

end Sys2Proof.Machine

/-! ## Attestation and the seal of a pipeline (R331, R332) -/

namespace Sys2Proof.Machine

/-! ### ATTEST (R332) -/

/-- An output that fits OUT_LEN is written, and its bytes are counted in the result. -/
theorem Dev.attestOut_of_fits {c : Cmd} {out : Bytes} (d : Dev) (h : out.length ≤ fieldAt c.entry 20 4) :
    d.attestOut c out = ((d.writeSpace (bitAt (fieldAt c.entry 17 1) 6) (fieldAt c.entry 24 8) out).ocount
      O.STATEMENTS_SIGNED 1).finish c.id 0 (result4 out.length 0 0 0) out.length :=
  if_neg (Nat.not_lt.mpr h)

/-- An output longer than OUT_LEN ends the command with the bytes needed. -/
theorem Dev.attestOut_of_long {c : Cmd} {out : Bytes} (d : Dev) (h : fieldAt c.entry 20 4 < out.length) :
    d.attestOut c out = d.finish c.id 0x0202 (result4 0 out.length 0 0) 0 :=
  if_pos h

theorem Dev.attestIdentity_of_signed {d : Dev} {id : Nat} {c : Cmd} {v : Bytes} (hc : d.running id opAttest = some c)
    (hkind : fieldAt c.entry 16 1 = 0) (hv : d.signed { form := 0, nonce := sliceAt c.entry 64 32, digest := d.measure } = some v) :
    d.attestIdentity id = d.attestOut c (v ++ fit 96 d.dig.pubKey ++ leBytes 4 d.life.cert.length ++ d.life.cert) := by
  simp only [Dev.attestIdentity, hc, hkind, ne_eq, not_true_eq_false, if_false, hv]

theorem Dev.attestSeal_of_signed {d : Dev} {id : Nat} {c : Cmd} {v : Bytes} (hc : d.running id opAttest = some c)
    (hkind : fieldAt c.entry 16 1 = 1) (hkept : c.result ≠ [])
    (hv : d.signed (Stmt.unpack c.result (sliceAt c.entry 64 32)) = some v) : d.attestSeal id = d.attestOut c v := by
  simp only [Dev.attestSeal, hc, hkind, ne_eq, not_true_eq_false, if_false, hkept, hv]

theorem Dev.attestSeal_of_none {d : Dev} {id : Nat} {c : Cmd} (hc : d.running id opAttest = some c)
    (hkind : fieldAt c.entry 16 1 = 1) (hkept : c.result = []) : d.attestSeal id = d.finish id 0 (zeros 16) 0 := by
  simp only [Dev.attestSeal, hc, hkind, ne_eq, not_true_eq_false, if_false, hkept, if_true]

section
variable {i : Instr} {s : State} {f : Dev → Dev} {id : Nat} {c : Cmd} {out : Bytes} (h : exec i s = serve s f)
  (hs : s.dev.serves = true) (hc : s.dev.running id opAttest = some c) (hf : f s.dev = s.dev.attestOut c out)
include h hs hc hf

theorem attestOut_lands_fits (hfits : out.length ≤ fieldAt c.entry 20 4) :
    Lands i s (fun d => d.ended id 0 (result4 out.length 0 0 0)
      ∧ (bitAt (fieldAt c.entry 17 1) 6 = false →
          d.host = (s.dev.hostWrite (fieldAt c.entry 24 8) out).host ∧ d.mem = s.dev.mem)
      ∧ (bitAt (fieldAt c.entry 17 1) 6 = true → d.host = s.dev.host)) := by
  rw [Dev.attestOut_of_fits _ hfits, Dev.cmd_id (Dev.running_cmd hc).1] at hf
  have hcmd : (((s.dev.writeSpace (bitAt (fieldAt c.entry 17 1) 6) (fieldAt c.entry 24 8) out).ocount
      O.STATEMENTS_SIGNED 1).cmd id).isSome = true :=
    (congrArg Option.isSome (Dev.cmd_congr (congrArg Jamb.cmds (Dev.writeSpace_jamb ..)) id)).trans (Dev.running_isSome hc)
  refine lands_of h hs ?_ fun hcalm => ?_ <;> rw [hf]
  · refine ⟨Dev.finish_ended _ _ _ _ _ hcmd, fun heng => ?_, fun heng => ?_⟩ <;>
      rw [Dev.finish_host, heng]
    · exact ⟨rfl, Dev.finish_mem ..⟩
    · exact Dev.engWrite_host ..
  · rw [Dev.calm_congr (Dev.finish_reacts ..) (Dev.finish_pipes ..)]
    exact Dev.calm_writeSpace _ _ _ hcalm

theorem attestOut_lands_long (hlong : fieldAt c.entry 20 4 < out.length) :
    Lands i s (fun d => d.ended id 0x0202 (result4 0 out.length 0 0) ∧ d.host = s.dev.host ∧ d.mem = s.dev.mem) := by
  rw [Dev.attestOut_of_long _ hlong, Dev.cmd_id (Dev.running_cmd hc).1] at hf
  exact (lands_of_finish h hs (Dev.running_isSome hc) hf).imp fun d ⟨_, hended, hmem, hhost⟩ => ⟨hended, hhost, hmem⟩

end

/-- Settles O38: each KIND by whether its output fits, and KIND 1 with nothing kept. -/
theorem attestWritesItsOutput : Obligations.AttestWritesItsOutput := by
  intro s id c v b report fits long hs hc
  refine ⟨fun hkind hv => ?_, fun hkind hkept hv => ?_, fun hkind hkept => ?_⟩
  · have hf := Dev.attestIdentity_of_signed hc hkind hv
    exact ⟨attestOut_lands_fits (f := fun d => d.attestIdentity id) rfl hs hc hf,
      attestOut_lands_long (f := fun d => d.attestIdentity id) rfl hs hc hf⟩
  · have hf := Dev.attestSeal_of_signed hc hkind hkept hv
    exact ⟨attestOut_lands_fits (f := fun d => d.attestSeal id) rfl hs hc hf,
      attestOut_lands_long (f := fun d => d.attestSeal id) rfl hs hc hf⟩
  · exact (lands_of_finish (f := fun d => d.attestSeal id) rfl hs (Dev.running_isSome hc)
      (Dev.attestSeal_of_none hc hkind hkept)).imp fun d ⟨_, hended, hmem, hhost⟩ => ⟨hended, hhost, hmem⟩

/-! ### A context that closes (R49, R331) -/

theorem Dev.lvSweep_louvreOnly (d : Dev) : d.LouvreOnly d.lvSweep :=
  foldl_keeps (fun e => d.LouvreOnly e) _ (fun e p he => he.trans (e.lvUnbind_louvreOnly p.1)) _ d (.refl d)

/-- A context as it closes. -/
def Ctx.closed (x : Ctx) (state st : Nat) (part : Bool) : Ctx :=
  { x with state := state, partialRun := part, status := st, runCmd := none, waiters := [], ending := none, nodes := []
           dicts := [], sealing := if state = 6 then x.sealing else {} }

/-- A context that closes with its run's command and none that waits for it. -/
theorem Dev.closeCtx_frame {d : Dev} {c id : Nat} (hrun : (d.ctx c).runCmd = some id) (hwait : (d.ctx c).waiters = [])
    (state st : Nat) (part sealed : Bool) : ∃ n s p l,
      d.closeCtx c state st part sealed = (({ d with net := n, sill := s, pipes := p, louvre := l } : Dev).setCtx c
        ((d.ctx c).closed state st part)).finish id st (((d.ctx c).closed state st part).result c false sealed) 0 := by
  obtain ⟨s, hs⟩ := (d.dropFlows c).releaseAllStreams_frame (fun o => o / 1024 == c)
  have hevict : ∃ p, (d.dropFlows c).evictCtx c = { d.dropFlows c with sill := s, pipes := p } := by
    rw [Dev.evictCtx, hs]
    exact ⟨_, rfl⟩
  obtain ⟨p, hp⟩ := hevict
  obtain ⟨l, hl⟩ := ((((d.dropFlows c).evictCtx c).setCtx c ((d.ctx c).closed state st part))).lvSweep_louvreOnly
  refine ⟨(d.dropFlows c).net, s, p, l, ?_⟩
  have hclose : d.closeCtx c state st part sealed
      = ((((d.dropFlows c).evictCtx c).setCtx c ((d.ctx c).closed state st part)).lvSweep).pipeFinish id c st false sealed := by
    simp only [Dev.closeCtx, hrun, hwait, Dev.endWaiters]
    rfl
  rw [hclose, hl, hp, Dev.pipeFinish]
  congr 2
  exact Dev.ctx_setCtx _ c _

/-! ### SEAL_WRITE (R331) -/

/-- A context whose seal is made. -/
def Ctx.sealed (x : Ctx) : Ctx :=
  { x with sealing := { x.sealing with
      written := true, kept := true, digest := x.resultDigest, blocks := x.blocks, rows := x.rowsEmitted } }

/-- The device once a context's seal block has been written and counted. -/
def Dev.sealPut (d : Dev) (c : Nat) (k : Sink) (i : Nat) (stmt : Bytes) : Dev :=
  let x := d.ctx c
  let seq := (x.node k.node).nextSlot
  (((d.setCtx c x.sealed).writeSpace (decide (k.kind ≠ 1)) (k.base + seq * k.block)
    (sealBlock c i seq x.runTag k.block x.skipped stmt)).ocount O.SEALS_WRITTEN 1).ocount O.STATEMENTS_SIGNED 1

section
variable {d : Dev} {c i : Nat} {k : Sink} {stmt : Bytes} (hhalt : d.halted = false) (hlive : (d.ctx c).live = true)
  (hsealed : (d.ctx c).prog.sealed = true) (hdone : d.allDone c (d.ctx c) = true) (hwait : (d.ctx c).sealing.waiting = [])
  (hsink : (d.ctx c).prog.sinks.zipIdx.find? (fun k => k.1.sealHere) = some (k, i))
  (hroom : ((d.ctx c).node k.node).nextSlot < k.slots)
  (hstmt : d.signed ((d.ctx c).sealed.sealStmt c false []) = some stmt)
include hhalt hlive hsealed hdone hwait hsink hroom hstmt

theorem Dev.sealWrite_of_ended : d.sealWrite c = (d.sealPut c k i stmt).closeCtx c 6 0 (d.ctx c).skipped true := by
  have hopen : ¬ (d.halted ∨ (d.ctx c).live = false ∨ (d.ctx c).prog.sealed = false ∨ d.allDone c (d.ctx c) = false
      ∨ (d.ctx c).sealing.waiting ≠ []) := by
    simp only [hhalt, hlive, hsealed, hdone, hwait, Bool.false_eq_true, Bool.true_eq_false, ne_eq, not_true_eq_false, or_self,
      not_false_eq_true]
  unfold Dev.sealWrite
  dsimp only
  rw [if_neg hopen, hsink]
  dsimp only
  rw [if_neg (Nat.not_le.mpr hroom)]
  unfold Ctx.sealed at hstmt
  rw [hstmt]
  rfl

end

/-- A context under a write to a space: its parking tag apart it stays. -/
theorem Dev.writeSpace_ctx (d : Dev) (eng : Bool) (a : Nat) (bs : Bytes) (c : Nat) :
    (d.writeSpace eng a bs).ctx c = { d.ctx c with parkBad := ((d.writeSpace eng a bs).ctx c).parkBad } := by
  have h : { (d.writeSpace eng a bs).ctx c with parkBad := (d.ctx c).parkBad } = d.ctx c := by
    cases eng with
    | true => exact d.engWrite_ctx a bs c
    | false => rfl
  rw [← h]

/-- The seal block reaches memory; the context reads as sealed, but that its parking tag may have been broken. -/
theorem Dev.sealPut_ctx (d : Dev) (c : Nat) (k : Sink) (i : Nat) (stmt : Bytes) :
    ∃ b, (d.sealPut c k i stmt).ctx c = { (d.ctx c).sealed with parkBad := b } := by
  have h := (d.setCtx c (d.ctx c).sealed).writeSpace_ctx (decide (k.kind ≠ 1))
    (k.base + ((d.ctx c).node k.node).nextSlot * k.block)
    (sealBlock c i ((d.ctx c).node k.node).nextSlot (d.ctx c).runTag k.block (d.ctx c).skipped stmt) c
  rw [Dev.ctx_setCtx] at h
  exact ⟨_, h⟩

/-- Settles O21: the block is written, and the context closes behind it. -/
theorem sealClosesThePipeline : Obligations.SealClosesThePipeline := by
  intro s c id k i stmt x seq y hs hhalt hlive hsealed hdone hwait hsink hroom hstmt hrun hwaiters hcmd
  have hwrite := Dev.sealWrite_of_ended hhalt hlive hsealed hdone hwait hsink hroom hstmt
  obtain ⟨b, hb⟩ := s.dev.sealPut_ctx c.toNat k i stmt
  obtain ⟨n, sl, p, l, hclose⟩ := Dev.closeCtx_frame (d := s.dev.sealPut c.toNat k i stmt) (by rw [hb]; exact hrun)
    (by rw [hb]; exact hwaiters) 6 0 x.skipped true
  rw [hb] at hclose
  have hcmd' : ((s.dev.sealPut c.toNat k i stmt).cmd id).isSome = true :=
    (congrArg Option.isSome (Dev.cmd_congr (congrArg Jamb.cmds (Dev.writeSpace_jamb ..)) id)).trans hcmd
  refine brings_of (f := fun d => d.sealWrite c.toNat) rfl hs ?_
  rw [hwrite, hclose]
  have hctx := Dev.ctx_setCtx ({ s.dev.sealPut c.toNat k i stmt with net := n, sill := sl, pipes := p, louvre := l } : Dev)
    c.toNat (({ x.sealed with parkBad := b } : Ctx).closed 6 0 x.skipped)
  refine ⟨?_, ?_, Dev.finish_ended _ _ _ _ _ hcmd', fun hkind => ?_⟩
  · rw [Dev.ctx_congr (congrArg Pipes.ctxs (Dev.finish_pipes ..)), hctx]
    rfl
  · rw [Dev.ctx_congr (congrArg Pipes.ctxs (Dev.finish_pipes ..)), hctx]
    rfl
  · rw [Dev.finish_host]
    show ((s.dev.setCtx c.toNat x.sealed).writeSpace (decide (k.kind ≠ 1)) (k.base + seq * k.block)
      (sealBlock c.toNat i seq x.runTag k.block x.skipped stmt)).host = _
    rw [hkind]
    rfl

end Sys2Proof.Machine

/-! ## Hinge: channels, one descriptor, and the halt (R336 to R348) -/

namespace Sys2Proof.Machine

/-! ### Channels (R336, R342, R343) -/

theorem Dev.leastQueued_le (d : Dev) : ∀ {l : List Nat} {m : Nat}, m ∈ l →
    (d.hchan (d.leastQueued l)).queuedBytes ≤ (d.hchan m).queuedBytes
  | [n], m, h => by rw [List.mem_singleton.mp h]; exact le_rfl
  | n :: k :: rest, m, h => by
    have ih {j : Nat} (hj : j ∈ k :: rest) := d.leastQueued_le hj
    rw [Dev.leastQueued]
    rcases List.mem_cons.mp h with rfl | h
    · split
      · exact le_rfl
      · next hlt => exact Nat.le_of_lt (Nat.lt_of_not_le hlt)
    · split
      · next hle => exact hle.trans (ih h)
      · exact ih h

/-- A served command that puts one channel of Hinge and nothing else. -/
theorem lands_of_setHchan {i : Instr} {s : State} {f : Dev → Dev} {n : Nat} {x : HChan} (h : exec i s = serve s f)
    (hs : s.dev.serves = true) (hf : f s.dev = s.dev.setHchan n x) :
    Lands i s (fun d => d.hchan n = x ∧ (∀ m, m ≠ n → d.hchan m = s.dev.hchan m) ∧ d.jamb = s.dev.jamb
      ∧ d.mem = s.dev.mem ∧ d.host = s.dev.host) := by
  refine lands_of_quiet h hs ?_ ?_ ?_ <;> rw [hf]
  · rfl
  · rfl
  · exact ⟨Dev.hchan_setHchan .., fun m hm => Dev.hchan_setHchan_ne _ _ hm, rfl, rfl, rfl⟩

/-- The list that a DMA command puts on a channel. -/
def Cmd.dmaList (c : Cmd) (id : Nat) : HList :=
  { owner := .dma id, tag := c.tag, count := fieldAt c.entry 18 2, total := fieldAt c.entry 32 8
    at_ := if fieldAt c.entry 24 8 = 0 then .inline 0 else .mem (bitAt (fieldAt c.entry 17 1) 7) (fieldAt c.entry 24 8)
    queued := fieldAt c.entry 32 8 }

theorem Dev.dmaStart_of_new {d : Dev} {id : Nat} {c : Cmd} (hc : d.running id opDma = some c)
    (hnew : d.hinge.chans.any (fun p => p.2.lists.any (fun l => l.owner == .dma id)) = false) :
    d.dmaStart id = d.enqueueList (if fieldAt c.entry 16 1 = 0xFF then d.leastQueued poolCommand else fieldAt c.entry 16 1)
      (c.dmaList id) := by
  simp only [Dev.dmaStart, hc, hnew, Bool.false_eq_true, if_false]
  rfl

/-- Settles O28: a DMA puts the channel that its list joins, and a stop and GO put the channel that they name. -/
theorem dmaJoinsAChannelThatStopsAndGoes : Obligations.DmaJoinsAChannelThatStopsAndGoes := by
  constructor
  · intro s id c ch n hs hc hnew
    refine (lands_of_setHchan (f := fun d => d.dmaStart id) rfl hs (Dev.dmaStart_of_new hc hnew)).imp
      fun d ⟨hself, hothers, hkept⟩ => ⟨⟨c.dmaList id, rfl, rfl, rfl, rfl, hself⟩, hothers, fun hany m hm => ?_, hkept⟩
    simp only [n, hany, if_true]
    exact s.dev.leastQueued_le hm
  · intro s n hs x others
    refine ⟨?_, lands_of_setHchan (f := fun d => d.hingeGo n.toNat) rfl hs rfl, fun hstop => ?_⟩
    · refine lands_of_setHchan (f := fun d => d.hingeStop n.toNat) rfl hs ?_
      simp only [Dev.hingeStop, x]
      split <;> rfl
    · have hstill : s.dev.hingeDone n.toNat = s.dev := if_pos (.inr (.inr (.inl hstop)))
      exact lands_of_quiet (f := fun d => d.hingeDone n.toNat) rfl hs (by rw [hstill]) (by rw [hstill]) hstill

/-! ### One descriptor of one line (R338, R341) -/

/-- Addresses of a line that does not wrap. -/
theorem streamAddr_of_line {base len i : Nat} (stride : Int) (hi : i < len) (h : base + len ≤ 2 ^ 64) :
    streamAddr base len stride i = base + i := by
  have hsum : Int.ofNat base + Int.ofNat 0 * stride + Int.ofNat i = ((base + i : Nat) : Int) := by simp
  rw [streamAddr, Nat.div_eq_of_lt hi, Nat.mod_eq_of_lt hi, hsum, show ((2 : Int) ^ 64) = ((2 ^ 64 : Nat) : Int) by norm_num,
    ← Int.natCast_mod, Int.toNat_natCast]
  exact Nat.mod_eq_of_lt (by omega)

theorem map_streamAddr_of_line {base len : Nat} (stride : Int) (h : base + len ≤ 2 ^ 64) :
    (List.range len).map (streamAddr base len stride) = (List.range len).map (base + ·) :=
  List.map_congr_left fun _ hi => streamAddr_of_line stride (List.mem_range.mp hi) h

/-- A source that meets no destination byte is read as it stands, with nothing drawn. -/
theorem Dev.streamBytes_of_apart (d : Dev) (same eng : Bool) (dsts : List Nat) :
    ∀ (as : List Nat) (j : Nat), (∀ a ∈ as, a ∉ dsts) → d.streamBytes same eng dsts as j = (as.map (d.spaceByte eng), d)
  | [], _, _ => rfl
  | a :: as, j, h => by
    have hfree : ¬ (same && (dsts.take j).contains a) = true := by
      simp only [Bool.and_eq_true, List.contains_iff_mem, not_and]
      exact fun _ hmem => h a List.mem_cons_self (List.mem_of_mem_take hmem)
    rw [Dev.streamBytes, if_neg hfree,
      d.streamBytes_of_apart same eng dsts as (j + 1) fun b hb => h b (List.mem_cons_of_mem a hb)]
    rfl

/-- A range that no failing read meets has no fault. -/
theorem Dev.hostFault_of_readable {d : Dev} {a n : Nat} (h : d.hostFails a n = false) :
    d.hostFault ((List.range n).map (a + ·)) = none := by
  simp only [Dev.hostFault, List.findSome?_eq_none_iff, List.mem_map, List.mem_range, forall_exists_index, and_imp,
    forall_apply_eq_imp_iff₂, Option.map_eq_none_iff, List.find?_eq_none, decide_eq_true_eq]
  simp only [Dev.hostFails, List.any_eq_false, decide_eq_true_eq] at h
  intro i hi r hr hin
  exact h r hr (by omega)

theorem hostBytes_of_line (d : Dev) {a n : Nat} (h : a + n ≤ 2 ^ 64) :
    d.hostBytes a n = ((List.range n).map (a + ·)).map (d.spaceByte false) := by
  rw [Dev.hostBytes, List.map_map]
  refine List.map_congr_left fun i hi => ?_
  have := List.mem_range.mp hi
  rw [Nat.mod_eq_of_lt (by omega)]
  rfl

/-- Addresses below the end of the host's space stand for themselves. -/
theorem addressed_mod {bs : Bytes} {a : Nat} (h : a + bs.length ≤ 2 ^ 64) :
    (addressed a bs).map (fun p => (p.1 % 2 ^ 64, p.2)) = addressed a bs := by
  induction bs generalizing a with
  | nil => rfl
  | cons b bs ih =>
    rw [List.length_cons] at h
    rw [addressed, List.map_cons, ih (by omega), Nat.mod_eq_of_lt (by omega)]

/-- A byte of host memory after a write that does not wrap. -/
theorem Dev.get_hostWrite (d : Dev) {a : Nat} {bs : Bytes} (h : a + bs.length ≤ 2 ^ 64) (i : Nat) :
    Sparse.get 0 (d.hostWrite a bs).host i = if a ≤ i ∧ i < a + bs.length then bs.getD (i - a) 0 else Sparse.get 0 d.host i := by
  have hall := Sparse.get_setAll_addressed (fun _ => true) bs a d.host i
  rw [List.filter_true] at hall
  rw [Dev.hostWrite, addressed_mod h, hall]
  simp only [and_true]

theorem Dev.hostBytes_hostWrite (d : Dev) {a : Nat} {bs : Bytes} (h : a + bs.length ≤ 2 ^ 64) :
    (d.hostWrite a bs).hostBytes a bs.length = bs := by
  refine List.ext_getElem (by simp [Dev.hostBytes]) fun i hi hi' => ?_
  simp only [Dev.hostBytes, List.getElem_map, List.getElem_range]
  rw [Nat.mod_eq_of_lt (by omega), d.get_hostWrite h, if_pos (by omega)]
  simp [hi']

/-- A whole line of host memory that is moved to another place of host memory: its bytes are written there. -/
theorem Dev.moveDesc_of_line {d : Dev} {x : Desc} {k : Nat} (hsrc : x.srcEng = false) (hdst : x.dstEng = false)
    (hswap : x.swap = 0) (hk : 0 < k) (hlen : x.srcLen = k) (hdlen : x.dstLen = k) (hs : x.src + k ≤ 2 ^ 64)
    (hd : x.dst + k ≤ 2 ^ 64) (hapart : x.src + k ≤ x.dst ∨ x.dst + k ≤ x.src) (hread : d.hostFails x.src k = false) :
    d.moveDesc x k = .ok ((((d.hostWrite x.dst (d.hostBytes x.src k)).ocount O.HINGE_BYTES_READ k).ocount
      O.HINGE_BYTES_WRITTEN k).ocount O.HINGE_DESCRIPTORS 1) := by
  have hround : roundUp k ((swapUnit x.swap).getD 1) = k := by simp [hswap, swapUnit, roundUp]
  have hsrcs : x.srcAddrs k = (List.range k).map (x.src + ·) := by
    rw [Desc.srcAddrs, hlen, map_streamAddr_of_line _ hs]
  have hdsts : x.dstAddrs k = (List.range k).map (x.dst + ·) := by
    rw [Desc.dstAddrs, hdlen, map_streamAddr_of_line _ hd]
  have hstream : d.streamBytes true false ((List.range k).map (x.dst + ·)) ((List.range k).map (x.src + ·)) 0
      = (d.hostBytes x.src k, d) := by
    rw [hostBytes_of_line d hs]
    refine d.streamBytes_of_apart true false _ _ 0 ?_
    simp only [List.mem_map, List.mem_range, not_exists, not_and]
    rintro _ ⟨i, hi, rfl⟩ j hj
    omega
  have hbytes : (d.hostBytes x.src k).length = k := by simp [Dev.hostBytes]
  have haddr : ((Int.ofNat x.dst + Int.ofNat 0 * x.dstStride) % 2 ^ 64).toNat = x.dst := by
    have h := streamAddr_of_line x.dstStride hk hd
    rwa [streamAddr, Nat.zero_div, Nat.zero_mod,
      show Int.ofNat x.dst + Int.ofNat 0 * x.dstStride + Int.ofNat 0 = Int.ofNat x.dst + Int.ofNat 0 * x.dstStride
        from Int.add_zero _] at h
  have hlines : d.writeLines x (k / x.dstLen + 1) 0 (d.hostBytes x.src k) = d.hostWrite x.dst (d.hostBytes x.src k) := by
    have hne : d.hostBytes x.src k ≠ [] := fun h => by rw [h] at hbytes; exact absurd hbytes (by simp; omega)
    rw [hdlen, Nat.div_self hk, Dev.writeLines, if_neg hne]
    dsimp only
    rw [haddr, hdlen, List.take_of_length_le (by omega), List.drop_of_length_le (by omega), Dev.writeLines, if_pos rfl, hdst]
    rfl
  unfold Dev.moveDesc
  dsimp only
  rw [hround, hsrcs, hdsts, hsrc, hdst, if_neg (fun h => Bool.noConfusion h.1), if_neg Bool.false_ne_true,
    Dev.hostFault_of_readable hread]
  dsimp only
  rw [beq_self_eq_true, hstream, hswap]
  simp only [swapBytes, List.take_of_length_le (Nat.le_of_eq hbytes), hlines]

/-- The list at the head of a channel goes; no other channel changes. -/
theorem Dev.leaveList_facts (d : Dev) (n : Nat) :
    ((d.leaveList n).hchan n).lists = (d.hchan n).lists.tail ∧ (∀ m, m ≠ n → (d.leaveList n).hchan m = d.hchan m)
      ∧ ∃ h, d.leaveList n = { d with hinge := h } := by
  have hpop : (d.popList n).hchan n = { d.hchan n with lists := (d.hchan n).lists.tail, abandoned := false } :=
    Dev.hchan_setHchan ..
  have hothers (m : Nat) (hm : m ≠ n) : (d.popList n).hchan m = d.hchan m := Dev.hchan_setHchan_ne _ _ hm
  unfold Dev.leaveList Dev.atBoundary
  dsimp only
  split
  · refine ⟨?_, fun m hm => (Dev.hchan_setHchan_ne _ _ hm).trans (hothers m hm), _, rfl⟩
    rw [Dev.hchan_setHchan, hpop]
  · exact ⟨by rw [hpop], hothers, _, rfl⟩

section
variable {d e : Dev} {n id : Nat} {c : Cmd} {l : HList} {rest : List HList} {k : Nat}

/-- A channel whose head is a DMA's list takes that list's next descriptor. -/
theorem Dev.hingeDone_of_dma (hhalt : d.halted = false) (hh : d.hinge.halt = false) (hhold : d.fgetB F.JB_STAT_HOLD = false)
    (hstop : (d.hchan n).stopped = false) (hlists : (d.hchan n).lists = l :: rest) (howner : l.owner = .dma id)
    (hc : d.cmd id = some c) : d.hingeDone n = d.dmaStep n l c := by
  have hopen : ¬ (d.halted ∨ d.hinge.halt = true ∨ (d.hchan n).stopped = true ∨ d.fgetB F.JB_STAT_HOLD = true) := by
    simp only [hhalt, hh, hstop, hhold, Bool.false_eq_true, or_self, not_false_eq_true]
  have hgoes : d.pullRests l = false := by simp only [Dev.pullRests, howner]
  unfold Dev.hingeDone
  dsimp only
  rw [if_neg hopen, hlists]
  simp only [hgoes, Bool.false_eq_true, if_false, howner, hc]

/-- A list's one descriptor, which moves all that the command declares, ends the command. -/
theorem Dev.dmaStep_of_only (hat : l.at_ = .inline 0) (hdone : l.done = 0) (hmoved : l.moved = 0) (hcount : l.count = 1)
    (htotal : l.total = k) (hok : descOk (sliceAt c.entry 64 64) = true) (hsize : (descOf (sliceAt c.entry 64 64)).size = k)
    (hmove : d.moveDesc (descOf (sliceAt c.entry 64 64)) k = .ok e) :
    d.dmaStep n l c = (e.leaveList n).finish c.id 0 (leBytes 4 1 ++ zeros 4 ++ leBytes 8 k) k := by
  have hdesc : d.dmaDesc c l.at_ = .ok (sliceAt c.entry 64 64) := by rw [hat]; rfl
  unfold Dev.dmaStep
  rw [hdesc]
  simp only [hok, Bool.true_eq_false, if_false, hmoved, htotal, hsize, Nat.sub_zero, Nat.min_self, hmove, le_refl, decide_true,
    hdone, hcount, b2n, if_true, Nat.zero_add, Nat.lt_irrefl, HList.dmaResult]

end

/-- A channel is read from Hinge's state alone. -/
theorem Dev.hchan_of_hinge {d e : Dev} (h : e.hinge = d.hinge) (m : Nat) : e.hchan m = d.hchan m := by
  unfold Dev.hchan
  rw [h]

/-- A move of a line leaves all of the device but host memory and the counters. -/
theorem Dev.moveDesc_of_line_frame {d : Dev} {x : Desc} {k : Nat} (hsrc : x.srcEng = false) (hdst : x.dstEng = false)
    (hswap : x.swap = 0) (hk : 0 < k) (hlen : x.srcLen = k) (hdlen : x.dstLen = k) (hs : x.src + k ≤ 2 ^ 64)
    (hd : x.dst + k ≤ 2 ^ 64) (hapart : x.src + k ≤ x.dst ∨ x.dst + k ≤ x.src) (hread : d.hostFails x.src k = false) :
    ∃ e, d.moveDesc x k = .ok e ∧ e.host = (d.hostWrite x.dst (d.hostBytes x.src k)).host ∧ e.jamb = d.jamb
      ∧ e.hinge = d.hinge ∧ e.mem = d.mem ∧ e.pipes = d.pipes ∧ e.reacts = d.reacts :=
  ⟨_, Dev.moveDesc_of_line hsrc hdst hswap hk hlen hdlen hs hd hapart hread, by simp, by simp, by simp, by simp, by simp,
    by simp⟩

/-- Settles O29: the descriptor writes its source bytes at its destination, and its list and command end. -/
theorem descriptorCopiesHostMemory : Obligations.DescriptorCopiesHostMemory := by
  intro s n id c l rest x k hs hhalt hh hhold hstop hlists howner hat hdone hmoved hcount htotal hc hok hsrc hdst hswap hk hcount1
    hdlen hdcount hsfit hdfit hapart hread
  have hsize : x.size = k := by rw [Desc.size, hcount1, Nat.mul_one]
  obtain ⟨e, hmove, hhost, hjamb, hhinge, hmem, hpipes, hreacts⟩ :=
    Dev.moveDesc_of_line_frame (d := s.dev) hsrc hdst hswap hk rfl hdlen hsfit hdfit hapart hread
  have hrun : s.dev.hingeDone n.toNat = _ := (Dev.hingeDone_of_dma hhalt hh hhold hstop hlists howner hc).trans
    (Dev.dmaStep_of_only hat hdone hmoved hcount htotal hok hsize hmove)
  rw [Dev.cmd_id hc] at hrun
  have hbytes : (s.dev.hostBytes x.src k).length = k := by simp [Dev.hostBytes]
  have hfit : x.dst + (s.dev.hostBytes x.src k).length ≤ 2 ^ 64 := by rw [hbytes]; exact hdfit
  have hsame (m : Nat) : e.hchan m = s.dev.hchan m := Dev.hchan_of_hinge hhinge m
  obtain ⟨hleft, hothers, h, hframe⟩ := e.leaveList_facts n.toNat
  have hcmd : ((e.leaveList n.toNat).cmd id).isSome = true := by
    rw [hframe]
    exact Option.isSome_of_eq_some ((congrArg (fun j => Dev.cmd { s.dev with jamb := j } id) hjamb).trans hc)
  have hhost' : (s.dev.hingeDone n.toNat).host = (s.dev.hostWrite x.dst (s.dev.hostBytes x.src k)).host := by
    rw [hrun, Dev.finish_host, hframe, ← hhost]
  have hchan (m : Nat) : (s.dev.hingeDone n.toNat).hchan m = (e.leaveList n.toNat).hchan m :=
    Dev.hchan_of_hinge (by rw [hrun, Dev.finish_hinge]) m
  refine lands_of_quiet (f := fun d => d.hingeDone n.toNat) rfl hs ?_ ?_ ⟨?_, fun a ha => ?_, ?_, ?_, fun m hm => ?_, ?_⟩
  · rw [hrun, Dev.finish_reacts, hframe, ← hreacts]
  · rw [hrun, Dev.finish_pipes, hframe, ← hpipes]
  · have hback := s.dev.hostBytes_hostWrite hfit
    rw [hbytes] at hback
    rw [Dev.hostBytes, hhost']
    exact hback
  · rw [hhost', s.dev.get_hostWrite hfit, hbytes, if_neg (by omega)]
  · rw [hrun]
    exact Dev.finish_ended _ _ _ _ _ hcmd
  · rw [hchan, hleft, hsame]
    exact congrArg List.tail hlists
  · rw [hchan, hothers m hm, hsame]
  · rw [hrun, Dev.finish_mem, hframe, ← hmem]

end Sys2Proof.Machine

/-! ## Register writes and BAR4 (R399 to R405, R412, R413) -/

namespace Sys2Proof.Machine

/-! ### A write that leaves TEST_CTL.MODE zero -/

/-- What a register write lands where it leaves the device out of test mode and starts nothing that follows. -/
theorem lands_of_register {s : State} {polled : Bool} {off : BitVec 26} {width : BitVec 4} {value : BitVec 64} {d : Dev}
    {P : Dev → Prop} (hs : s.dev.powered = true) (hd : s.dev.registerWrite polled off.toNat width.toNat value.toNat = d)
    (hmode : d.fget F.TEST_CTL_MODE = 0) (hr : d.reacts = s.dev.reacts) (hp : d.pipes = s.dev.pipes) (hP : P d) :
    Lands (.registerWrite polled off width value) s P := by
  have hexec : exec (.registerWrite polled off width value) s = .next { s with dev := d.settle } := by
    have hserve : exec (.registerWrite polled off width value) s
        = servePoweredTest s (fun d => d.registerWrite polled off.toNat width.toNat value.toNat) := rfl
    rw [hserve, servePoweredTest, if_pos hs, hd, unlessTest, if_neg (fun h => h hmode)]
  refine ⟨d, hexec, hP, fun hcalm => ?_⟩
  rw [hexec, Dev.settle_calm d ((Dev.calm_congr hr hp).trans hcalm)]

/-! ### Slow blocks -/

/-- A slow block's WPEND is bit 31 of a register outside the fast blocks. -/
theorem wpend_key (b : Nat) : (wpend b).key % 32 = 31 ∧ (wpend b).width = 1 := by
  unfold wpend
  split <;> decide

theorem Dev.fget_wpend_ne (d : Dev) {f : Fld} (b : Nat) (x : Bool) (h : f.key % 32 ≠ 31) :
    (d.fputB (wpend b) x).fget f = d.fget f :=
  Dev.fget_fputB_ne d x fun he => h (he ▸ (wpend_key b).1)

/-- Waiting for WPEND touches no other field and nothing else of the device. -/
theorem Dev.poll_frame (d : Dev) (off : Nat) : ∃ f, d.poll off = { d with flds := f } := by
  unfold Dev.poll
  split <;> exact ⟨_, rfl⟩

theorem Dev.fget_poll (d : Dev) (off : Nat) {f : Fld} (h : f.key % 32 ≠ 31) : (d.poll off).fget f = d.fget f := by
  unfold Dev.poll
  split
  · rfl
  · exact d.fget_wpend_ne _ _ h

/-- No digest context's data register lies in a slow block. -/
theorem dgDataAt_of_slow {off b : Nat} (h : slowBlock off = some b) : dgDataAt off = none ∧ b < 6 := by
  unfold slowBlock at h
  constructor
  · refine if_neg fun hd => ?_
    grind
  · grind

/-! ### The registers of the statement -/

theorem regAt_testCtl : regAt 0x10 = some ⟨⟨.TEST_CTL, 0x10, [], [⟨3, 0, .rw, 0⟩, ⟨7, 4, .rw, 0⟩, ⟨23, 8, .rw, 11675⟩,
    ⟨31, 24, .ro, 0⟩]⟩, []⟩ := by decide +kernel

theorem regAt_aptBase : regAt 0xC = some ⟨⟨.APT_BASE, 0xC, [], [⟨11, 0, .rw, 0⟩, ⟨31, 12, .ro, 0⟩]⟩, []⟩ := by decide +kernel

theorem regAt_lmAddrLo : regAt 0x10008 = some ⟨⟨.LM_ADDR_LO, 0x10008, [], [⟨31, 0, .rw, 0⟩]⟩, []⟩ := by decide +kernel

theorem mirrorsAt_fast : mirrorsAt 0x10 = [] ∧ mirrorsAt 0xC = [] ∧ mirrorsAt 0x10008 = [] := by decide +kernel

/-- The identity block and the mailbox answer in every state. -/
theorem Dev.present_fast (d : Dev) : d.present 0x10 = true ∧ d.present 0xC = true ∧ d.present 0x10008 = true := by
  simp [Dev.present, blockCas]

/-- A register write of four bytes outside the slow blocks and the digest data goes to its register at once. -/
theorem Dev.registerWrite_of_fast (d : Dev) (polled : Bool) {off : Nat} (v : Nat) {x : Found} (hslow : slowBlock off = none)
    (hdata : dgDataAt off = none) (ho : off % 4 = 0) (hthere : d.present off = true) (hx : regAt off = some x) :
    d.registerWrite polled off 4 v = d.regWrite x off (v % 2 ^ 32) := by
  have hpoll : (if polled = true then d.poll off else d) = d := by
    unfold Dev.poll
    rw [hslow]
    exact ite_self d
  simp only [Dev.registerWrite, hpoll, ho, hdata, Dev.busWrite, hslow, Dev.applyWrite, hthere, hx, ne_eq, not_true_eq_false,
    if_false, if_true, Bool.true_eq_false]

/-- A write of TEST_CTL stores its fields. -/
theorem Dev.registerWrite_testCtl (d : Dev) (polled : Bool) (v : Nat) : d.registerWrite polled 0x10 4 v
    = ((d.fput F.TEST_CTL_MODE (bits (v % 2 ^ 32) 3 0)).fput ⟨fldKey 0x10 4, 4, 0⟩ (bits (v % 2 ^ 32) 7 4)).fput
      ⟨fldKey 0x10 8, 16, 11675⟩ (bits (v % 2 ^ 32) 23 8) := by
  rw [Dev.registerWrite_of_fast d polled v (by decide) (by decide) (by decide) d.present_fast.1 regAt_testCtl, Dev.regWrite]
  simp only [mirrorsAt_fast.1, List.foldl, Dev.fieldWrite, Dev.regActs, Found.fld]
  rfl

/-- A field is cut to its width. -/
theorem Dev.fput_congr (d : Dev) {f : Fld} {v w : Nat} (h : v % 2 ^ f.width = w % 2 ^ f.width) : d.fput f v = d.fput f w := by
  rw [Dev.fput, h, Dev.fput]

/-- A write of APT_BASE stores its field. -/
theorem Dev.registerWrite_aptBase (d : Dev) (polled : Bool) (v : Nat) :
    d.registerWrite polled 0xC 4 v = d.fput F.APT_BASE_BASE (bits (v % 2 ^ 32) 11 0) := by
  rw [Dev.registerWrite_of_fast d polled v (by decide) (by decide) (by decide) d.present_fast.2.1 regAt_aptBase, Dev.regWrite]
  simp only [mirrorsAt_fast.2.1, List.foldl, Dev.fieldWrite, Dev.regActs, Found.fld]
  rfl

theorem bits_aptBase (v : Nat) : bits (v % 2 ^ 32) 11 0 % 2 ^ 12 = v % 2 ^ 12 := by
  rw [bits, Nat.shiftRight_zero]
  omega

/-- A write of LM_ADDR_LO whose crossing is free begins it and stores its field. -/
theorem Dev.busWrite_lmAddrLo {d : Dev} {v : Nat} (h : d.fgetB (wpend 0) = false) :
    d.busWrite 0x10008 v = (d.fputB (wpend 0) true).fput F.LM_ADDR_LO_ADDR (bits v 31 0) := by
  have hslow : slowBlock 0x10008 = some 0 := by decide
  simp only [Dev.busWrite, hslow, Dev.applyWrite, d.present_fast.2.2, (d.fputB (wpend 0) true).present_fast.2.2, h, regAt_lmAddrLo,
    Bool.true_eq_false, Bool.false_eq_true, if_false, Dev.regWrite, mirrorsAt_fast.2.2, List.foldl, Dev.fieldWrite, Dev.regActs, Found.fld]
  rfl

/-- A write to a slow block whose crossing is under way is discarded and counted. -/
theorem Dev.busWrite_of_busy {d : Dev} {off b v : Nat} (hslow : slowBlock off = some b) (hthere : d.present off = true)
    (hbusy : d.fgetB (wpend b) = true) :
    d.busWrite off v = (d.for_ F.GL_STAT_POST_DROP (2 ^ b)).fcount F.GL_STAT_DROP_COUNT 1 := by
  unfold Dev.busWrite
  rw [hslow]
  dsimp only
  rw [hthere, if_neg (by decide), if_pos hbusy]

/-- A write that is not aligned, or of another width than four or eight bytes, does nothing more than wait. -/
theorem Dev.registerWrite_of_ignored (d : Dev) (polled : Bool) {off width : Nat} (v : Nat)
    (h : off % 4 ≠ 0 ∨ (width ≠ 4 ∧ width ≠ 8)) :
    d.registerWrite polled off width v = if polled then d.poll off else d := by
  unfold Dev.registerWrite
  dsimp only
  rcases h with h | ⟨h4, h8⟩
  · rw [if_pos h]
  · simp only [h4, h8, or_self, if_false]
    split
    · rfl
    · split <;> rfl

/-- An aligned write of four bytes outside the digest data goes to the bus, after the wait where there is one. -/
theorem Dev.registerWrite_of_four (d : Dev) (polled : Bool) {off v : Nat} (hdata : dgDataAt off = none) (ho : off % 4 = 0) :
    d.registerWrite polled off 4 v = (if polled then d.poll off else d).busWrite off (v % 2 ^ 32) := by
  unfold Dev.registerWrite
  simp only [ho, ne_eq, not_true_eq_false, if_false, hdata, if_true]

/-- A bit set in a field of the width that it lies in is read back. -/
theorem bitAt_or_pow {n b w : Nat} (h : b < w) : bitAt ((n ||| 2 ^ b) % 2 ^ w) b = true := by
  rw [bitAt_eq_testBit, Nat.testBit_mod_two_pow, Nat.testBit_or, Nat.testBit_two_pow_self, Bool.or_true, Bool.and_true]
  exact decide_eq_true h

/-! ### BAR4 -/

/-- Waking touches only the idle state and self-refresh. -/
theorem Dev.wake_form (d : Dev) : ∃ l r, d.wake = { d with life := l, mem := { d.mem with selfRefresh := r } } := by
  unfold Dev.wake
  split
  · exact ⟨_, _, rfl⟩
  · exact ⟨d.life, d.mem.selfRefresh, rfl⟩

/-- What the map of engine memory is made of is as it was before the wake. -/
theorem Dev.mem_wake (d : Dev) : ∃ r, d.wake.mem = { d.mem with selfRefresh := r } := by
  obtain ⟨l, r, hw⟩ := d.wake_form
  rw [hw]
  exact ⟨r, rfl⟩

theorem Dev.parkBytes_wake (d : Dev) : d.wake.parkBytes = d.parkBytes := by
  obtain ⟨r, hm⟩ := d.mem_wake
  simp only [Dev.parkBytes, hm]

theorem Dev.stackList_wake (d : Dev) : d.wake.stackList = d.stackList := by
  obtain ⟨r, hm⟩ := d.mem_wake
  simp only [Dev.stackList, hm]

theorem Dev.stackBytes_wake (d : Dev) : d.wake.stackBytes = d.stackBytes := by simp only [Dev.stackBytes, Dev.wake_ordering288]

theorem Dev.nearEnd_wake (d : Dev) : d.wake.nearEnd = d.nearEnd := by
  simp only [Dev.nearEnd, Dev.interleaved, Dev.parkBytes_wake, Dev.stackList_wake, Dev.stackBytes_wake]

theorem Dev.farBytes_wake (d : Dev) : d.wake.farBytes = d.farBytes := by
  obtain ⟨r, hm⟩ := d.mem_wake
  simp only [Dev.farBytes, hm]

theorem Dev.localOf_wake (d : Dev) (a : Nat) : d.wake.localOf a = d.localOf a := by
  obtain ⟨r, hm⟩ := d.mem_wake
  simp only [Dev.localOf, Dev.parkBytes_wake, hm]

theorem Dev.implemented_wake (d : Dev) (a : Nat) : d.wake.implemented a = d.implemented a := by
  simp only [Dev.implemented, Dev.localOf_wake, Dev.parkBytes_wake, Dev.nearEnd_wake, Dev.farBytes_wake]

/- The definition is unfolded as a function, as for `Dev.MapsAs.nearMap`: the kernel does not evaluate the region it matches on. -/
theorem Dev.nearMap_wake (d : Dev) (a : Nat) : d.wake.nearMap a = d.nearMap a := by
  have hdef : Dev.nearMap = Dev.nearMap := rfl
  conv_rhs at hdef => delta Dev.nearMap
  rw [hdef]
  beta_reduce
  rw [Dev.localOf_wake, Dev.parkBytes_wake, Dev.stackList_wake]

theorem Dev.farMap_wake (d : Dev) (a : Nat) : d.wake.farMap a = d.farMap a := by
  obtain ⟨r, hm⟩ := d.mem_wake
  have hsubs : d.wake.farSubs = d.farSubs := by simp only [Dev.farSubs, hm]
  rw [Dev.farMap, Dev.farMap, hsubs]

theorem Dev.chan_wake (d : Dev) (ch : Nat) : d.wake.chan ch = d.chan ch := by
  obtain ⟨r, hm⟩ := d.mem_wake
  simp only [Dev.chan, hm]

theorem Dev.physical_wake (d : Dev) (a : Nat) : d.wake.physical a = d.physical a := by
  have hbase : d.wake.reserveBase = d.reserveBase := by
    obtain ⟨r, hm⟩ := d.mem_wake
    simp only [Dev.reserveBase, Dev.farBytes_wake, hm]
  simp only [Dev.physical, Dev.chanOf, Dev.nearMap_wake, Dev.farMap_wake, Dev.chan_wake, Dev.stackBytes_wake, hbase]

/-- Waking touches no byte of engine memory. -/
theorem Dev.engByte_wake (d : Dev) (a : Nat) : d.wake.engByte a = d.engByte a := by
  have hcells : d.wake.mem.cells = d.mem.cells := by
    obtain ⟨r, hm⟩ := d.mem_wake
    rw [hm]
  rw [Dev.engByte, Dev.engByte, d.implemented_wake, d.physical_wake, hcells]

theorem Dev.plainMem_wake {d : Dev} {a n : Nat} (h : d.plainMem a n) : d.wake.plainMem a n :=
  ⟨fun ch => d.chan_wake ch ▸ h.1 ch,
    fun c hc l hl => (congrArg (fun k => Dev.sillHolds { d with sill := k } c l) d.wake_sill).trans (h.2 c hc l hl)⟩

/-- Settles O60: each register's fields are stored as its row says, and BAR4 reaches engine memory as a write of the engine. -/
theorem hostAccessesReachTheirTarget : Obligations.HostAccessesReachTheirTarget := by
  intro s polled off width value at_ bytes n e o a polledDev
  refine ⟨fun hs => ⟨fun hv => ?_, fun hmode => ⟨fun ho => ?_, ?_, fun hfree => ?_, fun b hslow hthere hbusy ho => ?_⟩⟩,
    fun hs => ⟨?_, fun hplain hfit => ?_⟩⟩
  · have hmode : (s.dev.registerWrite polled 0x10 4 value.toNat).fget F.TEST_CTL_MODE ≠ 0 := by
      rw [Dev.registerWrite_testCtl, Dev.fget_fput_ne _ _ (by decide), Dev.fget_fput_ne _ _ (by decide), Dev.fget_fput, bits,
        Nat.shiftRight_zero]
      show value.toNat % 2 ^ 32 % 2 ^ 4 % 2 ^ 4 ≠ 0
      omega
    have hserve : exec (.registerWrite polled 0x10 4 value) s
      = servePoweredTest s (fun d => d.registerWrite polled 0x10 4 value.toNat) := rfl
    rw [hserve, servePoweredTest, if_pos hs, unlessTest, if_pos hmode]
  · obtain ⟨f, hf⟩ : ∃ f, polledDev = { e with flds := f } := by
      show ∃ f, (if polled = true then e.poll o else e) = _
      split
      · exact e.poll_frame o
      · exact ⟨e.flds, rfl⟩
    refine lands_of_register (d := polledDev) hs ?_ ?_ (by rw [hf]) (by rw [hf]) rfl
    · exact Dev.registerWrite_of_ignored e polled value.toNat (ho.imp id fun h =>
        ⟨fun h4 => h.1 (BitVec.eq_of_toNat_eq h4), fun h8 => h.2 (BitVec.eq_of_toNat_eq h8)⟩)
    · show (if polled = true then e.poll o else e).fget F.TEST_CTL_MODE = 0
      split
      · exact (e.fget_poll o (by decide)).trans hmode
      · exact hmode
  · exact lands_of_register hs (e.registerWrite_aptBase polled value.toNat)
      ((Dev.fget_fput_ne _ _ (by decide)).trans hmode) rfl rfl (e.fput_congr (bits_aptBase _))
  · obtain ⟨f, hf⟩ : ∃ f, (if polled = true then e.poll 0x10008 else e) = { e with flds := f } := by
      split
      · exact e.poll_frame 0x10008
      · exact ⟨e.flds, rfl⟩
    have hopen : (if polled = true then e.poll 0x10008 else e).fgetB (wpend 0) = false := by
      split
      · exact congrArg (· != 0) (Dev.fget_fputB e (wpend 0) false)
      · next h => exact hfree.resolve_left h
    have hwrite := (e.registerWrite_of_four polled (v := value.toNat) (by decide) (by decide)).trans (Dev.busWrite_lmAddrLo hopen)
    rw [hf] at hwrite
    refine lands_of_register hs hwrite ?_ rfl rfl ⟨?_, ?_, rfl, rfl, rfl, rfl, rfl⟩
    · rw [Dev.fget_fput_ne _ _ (by decide), Dev.fget_wpend_ne _ _ _ (by decide), ← hf]
      split
      · exact (e.fget_poll _ (by decide)).trans hmode
      · exact hmode
    · rw [Dev.fget_fput, bits, Nat.shiftRight_zero]
      show value.toNat % 2 ^ 32 % 2 ^ 32 % 2 ^ 32 = _
      simp only [Nat.mod_mod]
    · rw [Dev.fgetB, Dev.fget_fput_ne _ _ (by decide), Dev.fget_fputB]
      rfl
  · obtain ⟨hdata, hb⟩ := dgDataAt_of_slow hslow
    have hpost : b < F.GL_STAT_POST_DROP.width := hb
    refine lands_of_register hs ((e.registerWrite_of_four false hdata ho).trans (Dev.busWrite_of_busy hslow hthere hbusy)) ?_ rfl rfl
      ⟨?_, ?_, rfl, rfl, rfl, rfl, rfl⟩
    · rw [Dev.fget_fcount_ne _ _ (by decide), Dev.for_, Dev.fget_fput_ne _ _ (by decide)]
      exact hmode
    · rw [Dev.fget_fcount, Dev.for_, Dev.fget_fput_ne _ _ (by decide)]
      exact satAdd_mod ..
    · rw [Dev.fget_fcount_ne _ _ (by decide), Dev.for_, Dev.fget_fput]
      exact bitAt_or_pow hpost
  · exact lands_of_quiet (f := fun d => d.bar4Access at_.toNat (.read n)) rfl hs (Dev.wake_reacts _) (Dev.wake_pipes _) rfl
  · have hact : e.bar4Access at_.toNat (.write bytes) = e.wake.engWrite a bytes := by
      have ha : e.wake.aperture at_.toNat = a := congrArg (fun f => Dev.aperture { e with flds := f } at_.toNat) e.wake_flds
      rw [Dev.bar4Access, Dev.bar4Write, ha, List.take_of_length_le (by omega)]
    have hmem : (e.wake.engWrite a bytes).memWith e.wake a bytes :=
      Dev.memWith_engWrite (Dev.plainMem_wake hplain) rfl (Dev.engWrite_ordering288 ..)
    refine lands_of (f := fun d => d.bar4Access at_.toNat (.write bytes)) rfl hs ?_ ?_
    · rw [show s.dev.bar4Access at_.toNat (.write bytes) = _ from hact]
      refine ⟨fun i hi himp => ?_, fun k hk => ?_, ?_, ?_⟩
      · rw [hmem, if_pos ⟨by omega, by omega, (e.implemented_wake _).trans himp⟩, Nat.add_sub_cancel_left]
      · rw [hmem, if_neg (by omega), Dev.engByte_wake]
      · rw [Dev.engWrite_host, Dev.wake_host]
      · rw [Dev.engWrite_jamb, Dev.wake_jamb]
    · rw [show s.dev.bar4Access at_.toNat (.write bytes) = _ from hact]
      exact fun hc => Dev.calm_engWrite _ _ ((Dev.calm_congr (Dev.wake_reacts _) (Dev.wake_pipes _)).trans hc)

end Sys2Proof.Machine

/-! ## Epochs (R355, R357) -/

namespace Sys2Proof.Machine

/-! ### Pipelines that fail, and what Transom holds -/

/-- What Transom of device `t` holds is what it holds of `d`, but for flows, frames that wait and cancels that are owed. -/
def Dev.KeepsNet (d t : Dev) : Prop := ∃ x r q c, t.net = { d.net with tx := x, rx := r, txq := q, cancels := c }

theorem Dev.KeepsNet.refl (d : Dev) : d.KeepsNet d := ⟨_, _, _, _, rfl⟩

theorem Dev.KeepsNet.trans {d e t : Dev} (h : d.KeepsNet e) (k : e.KeepsNet t) : d.KeepsNet t := by
  obtain ⟨x, r, q, c, h⟩ := h
  obtain ⟨x', r', q', c', k⟩ := k
  exact ⟨x', r', q', c', by rw [k, h]⟩

theorem Dev.KeepsNet.of_net {d t : Dev} (h : t.net = d.net) : d.KeepsNet t := ⟨_, _, _, _, h⟩

theorem Dev.stopNodes_keepsNet (d : Dev) (c : Nat) : d.KeepsNet (d.stopNodes c) := by
  unfold Dev.stopNodes
  dsimp only
  obtain ⟨b, h, hjobs⟩ := Dev.dropJobs_frame _ _
  rw [hjobs]
  exact ⟨_, _, _, _, rfl⟩

theorem Dev.oweCancel_keepsNet (d : Dev) (x : Ctx) : d.KeepsNet (d.oweCancel x) := by
  unfold Dev.oweCancel
  split
  · exact ⟨_, _, _, _, rfl⟩
  · exact .refl d

/-- A pipeline that fails loses its flows, and owes a cancel. -/
theorem Dev.failCtx_keepsNet (d : Dev) (c st : Nat) : d.KeepsNet (d.failCtx c st) := by
  unfold Dev.failCtx
  dsimp only
  split
  · exact .refl d
  · exact ((d.stopNodes_keepsNet c).trans (Dev.oweCancel_keepsNet _ _)).trans (.of_net rfl)

/-- A pipeline that runs on, and one that has failed with a status. -/
def Ctx.failsWith (x : Ctx) (st : Nat) : Prop := x.ending = some st ∨ (x.active = true ∧ x.ending = none)

/-- A failure with a status ends a pipeline that runs on, and leaves one that has failed with it as it is. -/
theorem Dev.failCtx_ends_with {d : Dev} {c st : Nat} (h : (d.ctx c).failsWith st) : ((d.failCtx c st).ctx c).ending = some st := by
  rcases h with h | ⟨hact, hend⟩
  · rw [Dev.failCtx_of_ended st (.inr (by rw [h]; rfl)), h]
  · rw [(Dev.failCtx_moves st hact hend).self]

theorem Dev.failCtx_other {d : Dev} {b c st : Nat} (h : b ≠ c) : (d.failCtx c st).ctx b = d.ctx b := by
  by_cases ha : (d.ctx c).active = true ∧ (d.ctx c).ending = none
  · exact (Dev.failCtx_moves st ha.1 ha.2).other b h
  · rw [Dev.failCtx_of_ended st (by simpa [Option.isSome_iff_ne_none, or_iff_not_imp_left] using ha)]

/-- The pipelines of a list that a test picks fail with a status. -/
def Dev.failEach (st : Nat) (p : Nat × Ctx → Bool) (l : List (Nat × Ctx)) (d : Dev) : Dev :=
  l.foldl (fun d q => if p q then d.failCtx q.1 st else d) d

theorem Dev.failEach_ends (st : Nat) (p : Nat × Ctx → Bool) (l : List (Nat × Ctx)) (d : Dev) : d.EndsRuns (d.failEach st p l) := by
  refine Dev.endsRuns_foldl (fun d q => ?_) l d
  split
  · exact Dev.failCtx_ends ..
  · exact .refl d

theorem Dev.failEach_keepsNet (st : Nat) (p : Nat × Ctx → Bool) (l : List (Nat × Ctx)) (d : Dev) :
    d.KeepsNet (d.failEach st p l) := by
  refine foldl_keeps (fun e => d.KeepsNet e) _ (fun e q he => ?_) l d (.refl d)
  split
  · exact he.trans (Dev.failCtx_keepsNet ..)
  · exact he

/-- Each pipeline that the test picks has failed with the status, where nothing else ended it before. -/
theorem Dev.failEach_ending {st : Nat} {p : Nat × Ctx → Bool} {c : Nat} : ∀ {l : List (Nat × Ctx)} {d : Dev},
    (d.ctx c).failsWith st → ((d.ctx c).ending = some st ∨ ∃ q ∈ l, q.1 = c ∧ p q = true) →
      ((d.failEach st p l).ctx c).ending = some st
  | [], d, _, h => h.resolve_right (by simp)
  | q :: l, d, hfails, h => by
    have hnext : (Dev.ctx (if p q = true then d.failCtx q.1 st else d) c).failsWith st
        ∧ ((Dev.ctx (if p q = true then d.failCtx q.1 st else d) c).ending = some st ∨ ∃ r ∈ l, r.1 = c ∧ p r = true) := by
      by_cases hc : p q = true ∧ q.1 = c
      · obtain ⟨hp, rfl⟩ := hc
        rw [if_pos hp]
        have hend := Dev.failCtx_ends_with hfails
        exact ⟨.inl hend, .inl hend⟩
      · have hsame : Dev.ctx (if p q = true then d.failCtx q.1 st else d) c = d.ctx c := by
          split
          · next hp => exact Dev.failCtx_other fun he => hc ⟨hp, he.symm⟩
          · rfl
        rw [hsame]
        refine ⟨hfails, h.imp_right fun ⟨r, hr, hrc, hrp⟩ => ?_⟩
        rcases List.mem_cons.mp hr with rfl | hr
        · exact absurd ⟨hrp, hrc⟩ hc
        · exact ⟨r, hr, hrc, hrp⟩
    exact Dev.failEach_ending (l := l) (d := if p q = true then d.failCtx q.1 st else d) hnext.1 hnext.2

/-- A context that is active stands among the active ones. -/
theorem Dev.mem_activeCtxs {d : Dev} {c : Nat} (h : (d.ctx c).active = true) : (c, d.ctx c) ∈ d.activeCtxs := by
  refine List.mem_filter.mpr ⟨Sparse.get_mem_of_ne fun h0 => ?_, h⟩
  rw [Dev.ctx, h0] at h
  exact Bool.noConfusion h

/-- On a calm device no pipeline is there to fail. -/
theorem Dev.failEach_of_calm {d e : Dev} (st : Nat) (p : Nat × Ctx → Bool) (h : d.calm = true) : e.failEach st p d.activeCtxs = e := by
  simp only [Dev.calm, Bool.and_eq_true, List.isEmpty_iff] at h
  rw [Dev.failEach, h.2]
  rfl

theorem Dev.membersLost_frame (d : Dev) (gone : List Nat) : d.KeepsNet (d.membersLost gone) ∧ d.EndsRuns (d.membersLost gone) :=
  ⟨Dev.failEach_keepsNet 0x0501 (fun q => q.2.prog.fabric && q.2.members.any gone.contains) d.activeCtxs d,
    Dev.failEach_ends 0x0501 (fun q => q.2.prog.fabric && q.2.members.any gone.contains) d.activeCtxs d⟩

theorem Dev.membersLost_of_calm {d : Dev} {gone : List Nat} (h : d.calm = true) : d.membersLost gone = d :=
  Dev.failEach_of_calm 0x0501 (fun q => q.2.prog.fabric && q.2.members.any gone.contains) h

/-- R375: members that leave the fabric take the pipelines with them whose epoch holds them. -/
theorem Dev.membersLost_ending {d : Dev} {gone : List Nat} {c n : Nat} (hact : (d.ctx c).active = true)
    (hfab : (d.ctx c).prog.fabric = true) (hend : (d.ctx c).ending = none) (hn : n ∈ (d.ctx c).members) (hgone : n ∈ gone) :
    ((d.membersLost gone).ctx c).ending = some 0x0501 := by
  refine Dev.failEach_ending (p := fun q => q.2.prog.fabric && q.2.members.any gone.contains) (.inr ⟨hact, hend⟩)
    (.inr ⟨_, Dev.mem_activeCtxs hact, rfl, ?_⟩)
  simp only [hfab, Bool.true_and, List.any_eq_true, List.contains_iff_mem]
  exact ⟨n, hn, hgone⟩

/-! ### A commit (R355) -/

/-- A value that is stored, of an object that no persist and no reset waits for. -/
theorem Dev.dictStore_of_stored {d : Dev} {index sub : Nat} {value : Bytes} {r : ObjRow} (hrec : d.recovering = false)
    (hrow : objRow index sub = some r) (hacc : r.acc ≠ .ro) (hsize : value.length = r.size)
    (hpersist : writePersists index sub value = false) (hreset : index ≠ 0x20B0) :
    d.dictStore .none index sub value = d.noted.applyObj r index sub (leNat value) := by
  have hjudge : writeJudge index sub value.length = .stored := by simp [writeJudge, hrow, hacc, hsize]
  have hwrite : d.noted.writeObj index sub value = d.noted.applyObj r index sub (leNat value) := by
    simp [Dev.writeObj, hrow, hacc, hsize]
  unfold Dev.dictStore
  simp only [hrec, hjudge, hpersist, hreset, Dev.answerWrite, Bool.false_eq_true, if_false, ne_eq, not_true_eq_false, false_and,
    decide_false]
  exact hwrite

theorem epochCommit_row : objRow 0x6110 2 = some ⟨0x6110, 0x0, 1, 0x2, 1, 4, .wo, 0x0⟩ := by decide +kernel

/-- The write of EPOCH_COMMIT. -/
theorem Dev.dictStore_epoch {d : Dev} (hrec : d.recovering = false) (epoch : BitVec 32) :
    d.dictStore .none 0x6110 2 (leBytes 4 epoch.toNat) = d.noted.epochCommit epoch.toNat := by
  have hbool : boolObj 0x6110 2 = false := by decide
  have hpersist : writePersists 0x6110 2 (leBytes 4 epoch.toNat) = false := by
    rw [writePersists, Bool.or_eq_false_iff]
    exact ⟨by decide +kernel, rfl⟩
  rw [Dev.dictStore_of_stored hrec epochCommit_row (by decide) (leBytes_length 4 _) hpersist (by decide), leNat_leBytes,
    Nat.mod_eq_of_lt (by omega), Dev.applyObj, hbool]
  rfl

theorem Dev.noted_oget (d : Dev) {o : Obj} (h : o.key ≠ O.DICT_WRITES.key) : d.noted.oget o = d.oget o := by
  rw [Dev.noted, Dev.oget, Dev.wake_objs, ← Dev.oget, Dev.oget_ocount_ne _ _ h]

theorem Dev.engBytes_wake (d : Dev) (a n : Nat) : d.wake.engBytes a n = d.engBytes a n := by
  simp only [Dev.engBytes, Dev.engByte_wake]

/-- The peer table reads as it did before the write was noted. -/
theorem Dev.peerEntry_noted (d : Dev) (n : Nat) : d.noted.peerEntry n = d.peerEntry n := by
  have hcount : (d.ocount O.DICT_WRITES 1).ReadsAs d := ⟨rfl, rfl, rfl, rfl⟩
  have hbytes (a : Nat) : d.noted.engBytes a 32 = d.engBytes a 32 := by rw [Dev.noted, Dev.engBytes_wake, hcount.engBytes]
  rw [Dev.peerEntry, hbytes, d.noted_oget (o := O.PEER_TABLE_ADDR) (by decide), Dev.peerEntry]

theorem Dev.nodeId_noted (d : Dev) : d.noted.nodeId = d.nodeId := congrArg (Sparse.get _ · _) d.noted_frame.flds

theorem Dev.net_noted (d : Dev) : d.noted.net = d.net := by rw [Dev.noted, Dev.wake_net, Dev.ocount_net]

/-- A table written key by key. -/
theorem Sparse.get_foldl_set {α : Type} [DecidableEq α] (z : α) (g : Nat → α) (k : Nat) : ∀ (l : List Nat) (m : Sparse α),
    Sparse.get z (l.foldl (fun m n => Sparse.set z m n (g n)) m) k = if k ∈ l then g k else Sparse.get z m k
  | [], m => by simp
  | n :: l, m => by
    rw [List.foldl_cons, Sparse.get_foldl_set z g k l]
    by_cases hk : k ∈ l
    · simp [hk]
    · by_cases hn : k = n
      · subst hn
        simp [hk, Sparse.get_set_self]
      · simp [hk, hn, Sparse.get_set_ne]

/-- PUT channels that end are a matter of their own table and of the fields. -/
theorem Dev.cutPuts_frame (d : Dev) (p : Nat → Bool) : ∃ f u, d.cutPuts p = { d with flds := f, net := { d.net with puts := u } } := by
  refine foldl_keeps (fun e : Dev => ∃ f u, e = { d with flds := f, net := { d.net with puts := u } }) _ (fun e q he => ?_) _ d
    ⟨d.flds, d.net.puts, rfl⟩
  obtain ⟨f, u, rfl⟩ := he
  unfold Dev.endPut
  dsimp only
  split <;> exact ⟨_, _, rfl⟩

/-- Device d with an epoch and its members in force; pipelines have yet to learn of it. -/
def Dev.inForce (d : Dev) (epoch : Nat) (new : List Nat) : Dev :=
  ({ d with net := { d.net with
      epoch := epoch, members := new, txq := d.net.txq.filter (fun f => new.contains f.dst)
      peers := new.foldl (fun m n => Sparse.set {} m n ((d.peer n).ofEntry (d.peerEntry n))) [] } } : Dev).cutPuts
    (fun n => !new.contains n)

/-- The members of running fabric pipelines that are not of the new epoch. -/
def Dev.goneFrom (d : Dev) (new : List Nat) : List Nat :=
  (d.activeCtxs.flatMap (fun q => if q.2.prog.fabric then q.2.members else [])).filter (fun n => !new.contains n)

/-- What a commit may put in force. -/
def Dev.commits (d : Dev) (epoch : Nat) (new : List Nat) : Prop :=
  d.netUp = true ∧ d.net.epoch < epoch ∧ d.nodeId ∈ new ∧ ∀ n ∈ new, entryValid (d.peerEntry n) = true

theorem Dev.epochCommit_of_valid {d : Dev} {epoch : Nat} (h : d.commits epoch (setBits (d.oget O.MEMBER_STAGE) 8192)) :
    d.epochCommit epoch = (d.inForce epoch (setBits (d.oget O.MEMBER_STAGE) 8192)).membersLost
      (d.goneFrom (setBits (d.oget O.MEMBER_STAGE) 8192)) := by
  obtain ⟨hup, hlater, hself, hvalid⟩ := h
  exact if_pos ⟨hup, hlater, List.contains_iff_mem.mpr hself, List.all_eq_true.mpr hvalid⟩

theorem Dev.epochCommit_of_invalid {d : Dev} {epoch : Nat} (h : ¬ d.commits epoch (setBits (d.oget O.MEMBER_STAGE) 8192)) :
    d.epochCommit epoch = d.fputB F.TR_STAT_COMMIT_ERR true :=
  if_neg fun ⟨hup, hlater, hself, hvalid⟩ => h ⟨hup, hlater, List.contains_iff_mem.mp hself, List.all_eq_true.mp hvalid⟩

/-- What is in force after a commit. -/
theorem Dev.inForce_facts (d : Dev) (epoch : Nat) (new : List Nat) :
    let t := d.inForce epoch new
    t.net.epoch = epoch ∧ t.net.members = new ∧ (∀ n ∈ new, t.peer n = (d.peer n).ofEntry (d.peerEntry n))
      ∧ (∀ n, n ∉ new → t.peer n = {}) ∧ t.pipes = d.pipes ∧ t.reacts = d.reacts ∧ t.jamb = d.jamb ∧ t.host = d.host := by
  unfold Dev.inForce
  obtain ⟨f, u, h⟩ := Dev.cutPuts_frame _ _
  rw [h]
  refine ⟨rfl, rfl, fun n hn => ?_, fun n hn => ?_, rfl, rfl, rfl, rfl⟩
  · exact (Sparse.get_foldl_set ..).trans (if_pos hn)
  · exact (Sparse.get_foldl_set ..).trans (if_neg hn)

theorem Dev.KeepsNet.facts {d t : Dev} (h : d.KeepsNet t) :
    t.net.epoch = d.net.epoch ∧ t.net.members = d.net.members ∧ t.net.peers = d.net.peers := by
  obtain ⟨x, r, q, c, h⟩ := h
  rw [h]
  exact ⟨rfl, rfl, rfl⟩

/-- What a commit needs is read as it was before the write was noted. -/
theorem Dev.commits_noted {d : Dev} {epoch : Nat} {new : List Nat} : d.noted.commits epoch new ↔ d.commits epoch new := by
  simp only [Dev.commits, Dev.netUp, Dev.nodeId_noted, Dev.net_noted, Dev.peerEntry_noted]

/-- Settles O48: the members in force are written peer by peer, and what fails with the members gone keeps them. -/
theorem epochsAreCommitted : Obligations.EpochsAreCommitted := by
  intro s epoch hs new ok
  have hstore := Dev.dictStore_epoch (Dev.recovering_of_serves hs) epoch
  have hstage : s.dev.noted.oget O.MEMBER_STAGE = s.dev.oget O.MEMBER_STAGE := s.dev.noted_oget (by decide)
  have hnoted := s.dev.noted_frame
  constructor
  · intro hok
    have hcommit : s.dev.dictStore .none 0x6110 2 (leBytes 4 epoch.toNat) = _ := hstore.trans
      (Dev.epochCommit_of_valid (hstage.symm ▸ Dev.commits_noted.mpr hok))
    rw [hstage] at hcommit
    obtain ⟨hepoch, hmembers, hin, hout, hpipes, hreacts, hjamb, hhost⟩ := s.dev.noted.inForce_facts epoch.toNat new
    obtain ⟨hnet, hends⟩ := Dev.membersLost_frame (s.dev.noted.inForce epoch.toNat new) (s.dev.noted.goneFrom new)
    obtain ⟨hepoch', hmembers', hpeers⟩ := hnet.facts
    obtain ⟨hjamb', -, hhost'⟩ := Dev.endsRuns_jamb hends
    have hctx (c : Nat) : (s.dev.noted.inForce epoch.toNat new).ctx c = s.dev.ctx c :=
      Dev.ctx_congr (congrArg Pipes.ctxs (hpipes.trans hnoted.pipes)) c
    refine lands_of (f := fun d => d.dictStore .none 0x6110 2 (leBytes 4 epoch.toNat)) rfl hs ?_ fun hcalm => ?_
    · rw [hcommit]
      refine ⟨hepoch'.trans hepoch, hmembers'.trans hmembers, fun n hn => ?_, fun n hn => ?_, ?_, ?_, ?_⟩
      · rw [Dev.peer, hpeers, ← Dev.peer, hin n hn, Dev.peerEntry_noted, Dev.peer, Dev.net_noted, ← Dev.peer]
      · rw [Dev.peer, hpeers, ← Dev.peer, hout n hn]
      · rintro c hact hfab hend ⟨n, hn, hnew⟩
        have hgone : n ∈ s.dev.noted.goneFrom new := by
          have hmem := Dev.mem_activeCtxs hact
          refine List.mem_filter.mpr ⟨List.mem_flatMap.mpr ⟨(c, s.dev.ctx c), ?_, by rwa [if_pos hfab]⟩, by simpa using hnew⟩
          rwa [Dev.activeCtxs, hnoted.pipes]
        rw [← hctx c] at hact hfab hend hn
        exact Dev.membersLost_ending hact hfab hend hn hgone
      · rw [hjamb', hjamb, hnoted.jamb]
      · rw [hhost', hhost, Dev.noted, Dev.wake_host, Dev.ocount_host]
    · have hquiet : (s.dev.noted.inForce epoch.toNat new).calm = true :=
        (Dev.calm_congr (hreacts.trans hnoted.reacts) (hpipes.trans hnoted.pipes)).trans hcalm
      rw [hcommit, Dev.membersLost_of_calm hquiet]
      exact hquiet
  · intro hok
    have hrefuse : s.dev.dictStore .none 0x6110 2 (leBytes 4 epoch.toNat) = _ := hstore.trans
      (Dev.epochCommit_of_invalid (hstage.symm ▸ mt Dev.commits_noted.mp hok))
    refine lands_of_quiet (f := fun d => d.dictStore .none 0x6110 2 (leBytes 4 epoch.toNat)) rfl hs ?_ ?_ ?_
    · rw [hrefuse, Dev.fputB_reacts, hnoted.reacts]
    · rw [hrefuse, Dev.fputB_pipes, hnoted.pipes]
    · rw [hrefuse]
      refine ⟨Dev.fget_fputB .., s.dev.net_noted, hnoted.pipes, hnoted.jamb, ?_⟩
      rw [Dev.fputB_host, Dev.noted, Dev.wake_host, Dev.ocount_host]

end Sys2Proof.Machine

/-! ## Sources that are raised, records and injections (R418, R419, R422 to R427, R430, R432, R434) -/

namespace Sys2Proof.Machine

/-! ### What a raising comes to (R419, R422) -/

theorem effectiveSeverity_idem (n sev : Nat) : effectiveSeverity n (effectiveSeverity n sev) = effectiveSeverity n sev := by
  unfold effectiveSeverity
  grind

theorem effectiveSeverity_five (n : Nat) : effectiveSeverity n 5 = 5 := by
  simp [effectiveSeverity]

theorem effectiveSeverity_le (n : Nat) {sev : Nat} (h : sev ≤ 5) : effectiveSeverity n sev ≤ 5 := by
  unfold effectiveSeverity
  grind

/-- Source n has been raised once more on device `t`: it is counted, and its sticky bit is set. -/
def Dev.Counted (d t : Dev) (n : Nat) : Prop :=
  t.fget (F.FC_SRC_COUNT n) = satAdd 16 (d.fget (F.FC_SRC_COUNT n)) 1 ∧ bitAt (t.fget (F.FC_STICKY_BITS (n / 32))) (n % 32) = true

theorem faultListed_lt {n : Nat} (h : faultListed n = true) : n < 478 := by
  unfold faultListed at h
  grind

theorem Dev.faultCount_counted (d : Dev) {n : Nat} (h : faultListed n = true) : d.Counted (d.faultCount n) n := by
  have hn := faultListed_lt h
  have hkey : (F.FC_SRC_COUNT n).key ≠ (F.FC_STICKY_BITS (n / 32)).key := by
    simp only [F.FC_SRC_COUNT, F.FC_STICKY_BITS, fldKey]
    omega
  constructor
  · rw [Dev.faultCount, Dev.for_, Dev.fget_fput_ne _ _ hkey, Dev.fget_fcount]
    exact satAdd_mod ..
  · exact Dev.bitAt_for_ _ _ (show n % 32 < 32 by omega)

theorem Dev.fget_faultCount (d : Dev) {n : Nat} (hn : n < 478) {g : Fld} (h : g.key < fldKey 0xB00100 0 ∨ fldKey 0xB01000 0 ≤ g.key) :
    (d.faultCount n).fget g = d.fget g := by
  simp only [fldKey] at h
  rw [Dev.faultCount, Dev.for_, Dev.fget_fput_ne, Dev.fget_fcount_ne]
  all_goals simp only [F.FC_SRC_COUNT, F.FC_STICKY_BITS, fldKey]; omega

theorem Dev.oget_faultCount (d : Dev) (n : Nat) (o : Obj) : (d.faultCount n).oget o = d.oget o := by
  rw [Dev.oget, Dev.faultCount_objs, Dev.oget]

/-! ### Capture and merge (R423, R424) -/

/-- A free record takes the error. -/
theorem Dev.faultCapture_free {d : Dev} {n : Nat} (sev syn : Nat) (injected : Bool)
    (h : d.fgetB (F.FC_REC_STAT_VALID (collectorOf n)) = false) :
    let i := collectorOf n
    let t := (d.faultCapture n sev syn injected).1
    (d.faultCapture n sev syn injected).2 = sev ∧ t.fget (F.FC_REC_STAT_VALID i) = 1 ∧ t.fget (F.FC_REC_STAT_OVERFLOW i) = 0
      ∧ t.fget (F.FC_REC_STAT_SOURCE i) = n % 2 ^ 9 ∧ t.fget (F.FC_REC_STAT_SEV i) = sev % 2 ^ 3
      ∧ t.fget (F.FC_REC_STAT_INJ i) = b2n injected % 2
      ∧ (∀ j, j < 4 → t.fget (F.FC_REC_SYN_SYN i j) = syn / 2 ^ (32 * j) % 2 ^ 32)
      ∧ t.fget (F.FC_REC_TIME_LO_TIME i) = d.timeBase % 2 ^ 32 ∧ t.fget (F.FC_REC_TIME_HI_TIME i) = d.timeBase / 2 ^ 32 % 2 ^ 32
      ∧ t.oget O.FAULTS_CAPTURED = (d.oget O.FAULTS_CAPTURED + 1) % 2 ^ 64 := by
  have hi := collectorOf_le n
  unfold Dev.faultCapture
  dsimp only
  generalize collectorOf n = i at *
  rw [if_neg (by simp [h])]
  simp only [List.foldl_cons, List.foldl_nil]
  have hsyn (j : Nat) (hj : j < 4) : j = 0 ∨ j = 1 ∨ j = 2 ∨ j = 3 := by omega
  refine ⟨trivial, ?_, ?_, ?_, ?_, ?_, fun j hj => ?_, ?_, ?_, ?_⟩
  case refine_6 =>
    rcases hsyn j hj with rfl | rfl | rfl | rfl <;>
    simp (disch := (simp only [F.FC_REC_SYN_SYN, F.FC_REC_TIME_LO_TIME, F.FC_REC_TIME_HI_TIME, fldKey]; omega)) only
      [Dev.ocount, Dev.fget_oput, Dev.fget_fput, Dev.fget_fput_ne] <;> rfl
  case refine_9 =>
    rw [Dev.oget_ocount]
    simp only [Dev.oget_fput, Dev.fputB]
    rfl
  all_goals
    simp (disch := (simp only [F.FC_REC_STAT_SOURCE, F.FC_REC_STAT_SEV, F.FC_REC_STAT_INJ, F.FC_REC_STAT_OVERFLOW,
      F.FC_REC_STAT_VALID, F.FC_REC_SYN_SYN, F.FC_REC_TIME_LO_TIME, F.FC_REC_TIME_HI_TIME, fldKey]; omega)) only
      [Dev.ocount, Dev.fget_oput, Dev.fget_fput, Dev.fget_fput_ne, Dev.fget_fputB, Dev.fget_fputB_ne, Dev.fput_timeBase,
        Dev.fputB_timeBase]
    rfl

/-- A record that is held stays; the error only marks it. -/
theorem Dev.faultCapture_held {d : Dev} {n : Nat} (sev syn : Nat) (injected : Bool)
    (h : d.fgetB (F.FC_REC_STAT_VALID (collectorOf n)) = true) :
    let i := collectorOf n
    let t := (d.faultCapture n sev syn injected).1
    (d.faultCapture n sev syn injected).2 = max sev (d.fget (F.FC_REC_STAT_SEV i)) ∧ t.fget (F.FC_REC_STAT_OVERFLOW i) = 1
      ∧ t.oget O.OVERFLOWS = (d.oget O.OVERFLOWS + 1) % 2 ^ 64
      ∧ ∀ f : Fld, f.key ≠ (F.FC_REC_STAT_OVERFLOW i).key → f.key ≠ (F.FC_REC_STAT_INJ i).key → t.fget f = d.fget f := by
  unfold Dev.faultCapture
  dsimp only
  generalize collectorOf n = i at *
  rw [if_pos h]
  have hne : (F.FC_REC_STAT_OVERFLOW i).key ≠ (F.FC_REC_STAT_INJ i).key := by
    simp only [F.FC_REC_STAT_OVERFLOW, F.FC_REC_STAT_INJ, fldKey]
    omega
  have hsev : (F.FC_REC_STAT_SEV i).key ≠ (F.FC_REC_STAT_INJ i).key ∧ (F.FC_REC_STAT_SEV i).key ≠ (F.FC_REC_STAT_OVERFLOW i).key := by
    simp only [F.FC_REC_STAT_SEV, F.FC_REC_STAT_OVERFLOW, F.FC_REC_STAT_INJ, fldKey]
    omega
  refine ⟨?_, ?_, ?_, fun f hover hinj => ?_⟩
  · rw [Dev.fget_fputB_ne _ _ hsev.1, Dev.ocount, Dev.fget_oput, Dev.fget_fputB_ne _ _ hsev.2]
  · rw [Dev.fget_fputB_ne _ _ hne, Dev.ocount, Dev.fget_oput, Dev.fget_fputB]
    rfl
  · rw [Dev.fputB, Dev.oget_fput, Dev.oget_ocount, Dev.fputB, Dev.oget_fput]
    rfl
  · rw [Dev.fget_fputB_ne _ _ hinj, Dev.ocount, Dev.fget_oput, Dev.fget_fputB_ne _ _ hover]

/-! ### A source that is raised -/

theorem Dev.faultRaise_unlisted {d : Dev} {n : Nat} (h : faultListed n = false) (syn : Nat) (injected : Bool) :
    d.faultRaise n syn injected = d :=
  if_neg (by simp [h])

theorem Dev.severity_faultCount (d : Dev) (n : Nat) : (d.faultCount n).severity n = d.severity n := by
  rw [Dev.severity, Dev.faultCount, Dev.for_, Dev.fget_fput_ne, Dev.fget_fcount_ne, Dev.severity]
  all_goals simp only [F.FC_SRC_COUNT, F.FC_SRC_SEV, F.FC_STICKY_BITS, fldKey]; omega

/-- At severity 0 a source is counted and nothing more. -/
theorem Dev.faultRaise_silent {d : Dev} {n : Nat} (hn : faultListed n = true) (h : effectiveSeverity n (d.severity n) = 0)
    (syn : Nat) (injected : Bool) : d.faultRaise n syn injected = d.faultCount n := by
  rw [Dev.faultRaise, if_pos hn]
  dsimp only
  rw [Dev.severity_faultCount, if_pos h]

theorem Dev.faultCapture_reacts (d : Dev) (n sev syn : Nat) (injected : Bool) :
    (d.faultCapture n sev syn injected).1.reacts = d.reacts := by
  unfold Dev.faultCapture
  dsimp only
  split <;> simp

/-- What a source of severity 1 or more captures, or merges into the record held. -/
def Dev.captured (d : Dev) (n syn : Nat) (injected : Bool) : Dev × Nat :=
  (d.faultCount n).faultCapture n (effectiveSeverity n (d.severity n)) syn injected

/-- Beyond what it captures a source brings an interrupt, and from severity 3 on a reaction that is owed. -/
theorem Dev.faultRaise_captured {d : Dev} {n : Nat} (hn : faultListed n = true) (h : effectiveSeverity n (d.severity n) ≠ 0)
    (syn : Nat) (injected : Bool) :
    let t := d.faultRaise n syn injected
    let c := d.captured n syn injected
    let act := effectiveSeverity n c.2
    t.flds = c.1.flds ∧ t.objs = c.1.objs ∧ t.reacts = if act < 3 then d.reacts else d.reacts ++ [(n, act, syn)] := by
  have ht : d.faultRaise n syn injected = if effectiveSeverity n (d.captured n syn injected).2 < 3
      then (d.captured n syn injected).1.faultIrq
      else { (d.captured n syn injected).1.faultIrq with
        reacts := (d.captured n syn injected).1.faultIrq.reacts
          ++ [(n, effectiveSeverity n (d.captured n syn injected).2, syn)] } := by
    rw [Dev.faultRaise, if_pos hn]
    dsimp only
    rw [Dev.severity_faultCount, if_neg h, Dev.captured]
  have howed : (d.captured n syn injected).1.reacts = d.reacts := (Dev.faultCapture_reacts ..).trans (Dev.faultCount_reacts ..)
  intro t c act
  simp only [t, ht, c, act]
  generalize d.captured n syn injected = c at howed
  split
  · exact ⟨Dev.faultIrq_flds _, Dev.faultIrq_objs _, (Dev.faultIrq_reacts _).trans howed⟩
  · exact ⟨Dev.faultIrq_flds _, Dev.faultIrq_objs _, by rw [Dev.faultIrq_reacts, howed]⟩

/-- A source of the table that is raised is counted. -/
theorem Dev.faultRaise_counted (d : Dev) {n : Nat} (hn : faultListed n = true) (syn : Nat) (injected : Bool) :
    d.Counted (d.faultRaise n syn injected) n := by
  have hlt := faultListed_lt hn
  obtain ⟨hcount, hbit⟩ := d.faultCount_counted hn
  constructor
  · rw [Dev.fget_faultRaise _ _ _ _ _ hn (.inl ?_), hcount]
    simp only [F.FC_SRC_COUNT, fldKey]
    omega
  · rw [Dev.fget_faultRaise _ _ _ _ _ hn (.inl ?_)]
    · exact hbit
    · simp only [F.FC_STICKY_BITS, fldKey]
      omega

/-! ### The poison that a source brings (R420) -/

/-- What a source's syndrome names is poisoned, where the source hurts it. -/
def Dev.poisonNamed (d : Dev) (n syn : Nat) (hurt : Bool) : Dev :=
  if hurt = false then d
  else if n = 457 then d.poisonThr (syn % 2 ^ 48)
  else if n = 449 then d.poison (syn % 2 ^ 48)
  else if n = 452 then (d.poison (syn % 2 ^ 48 / 64 * 64)).poison (syn % 2 ^ 48 / 64 * 64 + 32)
  else d

theorem Dev.sourceRaised_eq (d : Dev) (n syn : Nat) :
    d.sourceRaised n syn false = (d.faultRaise n syn false).poisonNamed n syn (decide (2 ≤ d.faultAction n)) := by
  rw [Dev.sourceRaised, if_neg (by simp)]
  rfl

theorem Dev.sourceRaised_injected {d : Dev} {n : Nat} (h : d.fiFires n = true) (syn : Nat) :
    d.sourceRaised n syn true = ((d.faultRaise n syn true).fiConsume).poisonNamed n syn (decide (2 ≤ d.faultAction n)) := by
  rw [Dev.sourceRaised, if_neg (by simp [h])]
  rfl

theorem Dev.poison_frame (d : Dev) (a : Nat) : ∃ m, d.poison a = { d with mem := m } := by
  unfold Dev.poison
  split
  · exact ⟨_, rfl⟩
  · exact ⟨d.mem, rfl⟩

theorem Dev.poisonThr_frame (d : Dev) (a : Nat) : ∃ t, d.poisonThr a = { d with thr := t } := ⟨_, rfl⟩

/-- Poison is a matter of the memories and of Threshold. -/
theorem Dev.poisonNamed_frame (d : Dev) (n syn : Nat) (hurt : Bool) :
    ∃ m t, d.poisonNamed n syn hurt = { d with mem := m, thr := t } := by
  generalize hlow : syn % 2 ^ 48 = a
  have hpoison (a : Nat) : ∃ m t, d.poison a = { d with mem := m, thr := t } := by
    obtain ⟨m, h⟩ := d.poison_frame a
    exact ⟨m, d.thr, h⟩
  unfold Dev.poisonNamed
  rw [hlow]
  split_ifs
  · exact ⟨d.mem, d.thr, rfl⟩
  · obtain ⟨t, h⟩ := d.poisonThr_frame a
    exact ⟨d.mem, t, h⟩
  · exact hpoison _
  · obtain ⟨m, t, h⟩ := hpoison (a / 64 * 64)
    rw [h]
    obtain ⟨m', h'⟩ := Dev.poison_frame { d with mem := m, thr := t } (a / 64 * 64 + 32)
    exact ⟨m', t, h'⟩
  · exact ⟨d.mem, d.thr, rfl⟩

/-- The same sector is poisoned on every device with the same memory. -/
theorem Dev.poison_mem_congr {d e : Dev} (hm : e.mem = d.mem) (ho : e.ordering288 = d.ordering288) (a : Nat) :
    (e.poison a).mem = (d.poison a).mem := by
  have hmap : e.MapsAs d := ⟨ho, d.mem.cells, d.mem.poison, hm⟩
  unfold Dev.poison
  rw [hmap.implemented, hmap.physical, hm]
  split
  · rfl
  · exact hm

/-- The action of a source whose record is free is its own. -/
theorem Dev.faultAction_free {d : Dev} {n : Nat} (h : d.fgetB (F.FC_REC_STAT_VALID (collectorOf n)) = false) :
    d.faultAction n = effectiveSeverity n (d.severity n) := by
  unfold Dev.faultAction
  dsimp only
  split
  · next h0 => exact h0.symm
  · rw [if_neg (by simp [h])]

/-! ### Injections (R432, R434) -/

/-- What follows an injection: it is counted, and disarmed under MODE 1. -/
theorem Dev.fiConsume_facts (d : Dev) :
    d.fiConsume.oget O.INJECTIONS = (d.oget O.INJECTIONS + 1) % 2 ^ 32 ∧ d.fiConsume.fget F.FI_STAT_FIRED = 1
      ∧ d.fiConsume.fget F.FI_CTL_ARM = (if d.fget F.FI_CTL_MODE = 1 then 0 else d.fget F.FI_CTL_ARM)
      ∧ ∀ f : Fld, fldKey 0xB00100 0 ≤ f.key → d.fiConsume.fget f = d.fget f := by
  have hmode : (((d.fcount F.FI_STAT_INJECTED 1).fputB F.FI_STAT_FIRED true).ocount O.INJECTIONS 1).fget F.FI_CTL_MODE
      = d.fget F.FI_CTL_MODE := by
    rw [Dev.ocount, Dev.fget_oput, Dev.fget_fputB_ne _ _ (by decide), Dev.fget_fcount_ne _ _ (by decide)]
  have hcount : (((d.fcount F.FI_STAT_INJECTED 1).fputB F.FI_STAT_FIRED true).ocount O.INJECTIONS 1).oget O.INJECTIONS
      = (d.oget O.INJECTIONS + 1) % 2 ^ 32 := by
    rw [Dev.oget_ocount, Dev.fputB, Dev.oget_fput, Dev.oget_fcount]
    rfl
  have hfired : (((d.fcount F.FI_STAT_INJECTED 1).fputB F.FI_STAT_FIRED true).ocount O.INJECTIONS 1).fget F.FI_STAT_FIRED = 1 := by
    rw [Dev.ocount, Dev.fget_oput, Dev.fget_fputB]
    rfl
  have hother (f : Fld) (h : fldKey 0xB00100 0 ≤ f.key) :
      (((d.fcount F.FI_STAT_INJECTED 1).fputB F.FI_STAT_FIRED true).ocount O.INJECTIONS 1).fget f = d.fget f := by
    simp only [fldKey] at h
    rw [Dev.ocount, Dev.fget_oput, Dev.fget_fputB_ne, Dev.fget_fcount_ne]
    all_goals simp only [F.FI_STAT_INJECTED, F.FI_STAT_FIRED, fldKey]; omega
  have harm : (((d.fcount F.FI_STAT_INJECTED 1).fputB F.FI_STAT_FIRED true).ocount O.INJECTIONS 1).fget F.FI_CTL_ARM
      = d.fget F.FI_CTL_ARM := by
    rw [Dev.ocount, Dev.fget_oput, Dev.fget_fputB_ne _ _ (by decide), Dev.fget_fcount_ne _ _ (by decide)]
  unfold Dev.fiConsume
  dsimp only
  rw [hmode]
  split
  · refine ⟨hcount, (Dev.fget_fputB_ne _ _ (by decide)).trans hfired, Dev.fget_fputB .., fun f h => ?_⟩
    rw [Dev.fget_fputB_ne, hother f h]
    simp only [fldKey] at h
    simp only [F.FI_CTL_ARM, fldKey]
    omega
  · exact ⟨hcount, hfired, harm, hother⟩

/-- The operands of an injection. -/
def Dev.fiOperands (d : Dev) (source bits mode : Nat) : Dev :=
  ((d.fput F.FI_CTL_SOURCE source).fput F.FI_CTL_BITS bits).fput F.FI_CTL_MODE mode

theorem Dev.fiOperands_facts (d : Dev) (source bits mode : Nat) :
    let t := d.fiOperands source bits mode
    t.fget F.FI_CTL_SOURCE = source % 2 ^ 9 ∧ t.fget F.FI_CTL_BITS = bits % 2 ^ 2 ∧ t.fget F.FI_CTL_MODE = mode % 2 ^ 2
      ∧ t.fget F.FI_CTL_ARM = d.fget F.FI_CTL_ARM := by
  refine ⟨?_, ?_, Dev.fget_fput .., ?_⟩
  · rw [Dev.fiOperands, Dev.fget_fput_ne _ _ (by decide), Dev.fget_fput_ne _ _ (by decide), Dev.fget_fput]
    rfl
  · rw [Dev.fiOperands, Dev.fget_fput_ne _ _ (by decide), Dev.fget_fput]
    rfl
  · rw [Dev.fiOperands, Dev.fget_fput_ne _ _ (by decide), Dev.fget_fput_ne _ _ (by decide), Dev.fget_fput_ne _ _ (by decide)]

/-- Arming is a matter of ARM and UNSUPPORTED alone. -/
theorem Dev.fiArm_eq (d : Dev) (source bits mode : Nat) : d.fiArm source bits mode =
    if fiUnsupported source then
      (if fiMode mode = 0 then (d.fiOperands source bits mode).fputB F.FI_CTL_ARM false
        else d.fiOperands source bits mode).fputB F.FI_STAT_UNSUPPORTED true
    else (d.fiOperands source bits mode).fputB F.FI_CTL_ARM (decide (fiMode mode ≠ 0)) := by
  unfold Dev.fiArm Dev.fiWrite
  by_cases hu : fiUnsupported source = true
  · simp only [hu, and_self, if_true]
    rfl
  · by_cases hm : fiMode mode = 0
    · simp only [hu, hm, and_false, if_false, if_true, Bool.false_eq_true]
      rfl
    · simp only [hu, hm, and_false, if_false, if_true, Bool.false_eq_true, not_false_eq_true, ne_eq, decide_true]
      rfl

/-- What a write that arms an injection stores. -/
theorem Dev.fiArm_facts (d : Dev) (source bits mode : Nat) :
    let t := d.fiArm source bits mode
    t.fget F.FI_CTL_SOURCE = source % 2 ^ 9 ∧ t.fget F.FI_CTL_BITS = bits % 2 ^ 2 ∧ t.fget F.FI_CTL_MODE = mode % 2 ^ 2
      ∧ t.fget F.FI_CTL_ARM = (if fiMode mode = 0 then 0 else if fiUnsupported source then d.fget F.FI_CTL_ARM else 1)
      ∧ (fiUnsupported source = true → t.fget F.FI_STAT_UNSUPPORTED = 1) ∧ t.objs = d.objs := by
  obtain ⟨hsource, hbits, hmode, harm⟩ := d.fiOperands_facts source bits mode
  intro t
  have ht : t = _ := d.fiArm_eq source bits mode
  by_cases hu : fiUnsupported source = true
  · rw [if_pos hu] at ht
    have hkeep (f : Fld) (hf : f.key ≠ F.FI_STAT_UNSUPPORTED.key) : t.fget f
        = Dev.fget (if fiMode mode = 0 then (d.fiOperands source bits mode).fputB F.FI_CTL_ARM false
          else d.fiOperands source bits mode) f := by
      rw [ht, Dev.fget_fputB_ne _ _ hf]
    have hrest (f : Fld) (hf : f.key ≠ F.FI_STAT_UNSUPPORTED.key) (ha : f.key ≠ F.FI_CTL_ARM.key) :
        t.fget f = (d.fiOperands source bits mode).fget f := by
      rw [hkeep f hf]
      split
      · exact Dev.fget_fputB_ne _ _ ha
      · rfl
    refine ⟨(hrest _ (by decide) (by decide)).trans hsource, (hrest _ (by decide) (by decide)).trans hbits,
      (hrest _ (by decide) (by decide)).trans hmode, ?_, fun _ => ?_, ?_⟩
    · rw [hkeep _ (by decide), if_pos hu]
      split
      · exact Dev.fget_fputB ..
      · exact harm
    · rw [ht, Dev.fget_fputB]
      rfl
    · rw [ht]
      split <;> rfl
  · rw [if_neg hu] at ht
    have hrest (f : Fld) (ha : f.key ≠ F.FI_CTL_ARM.key) : t.fget f = (d.fiOperands source bits mode).fget f := by
      rw [ht, Dev.fget_fputB_ne _ _ ha]
    refine ⟨(hrest _ (by decide)).trans hsource, (hrest _ (by decide)).trans hbits, (hrest _ (by decide)).trans hmode, ?_,
      fun h => absurd h hu, by rw [ht]; rfl⟩
    rw [ht, Dev.fget_fputB, if_neg hu]
    by_cases hm : fiMode mode = 0
    · rw [if_pos hm, hm]
      rfl
    · rw [if_neg hm, decide_eq_true hm]
      rfl

/-! ### The commands -/

/-- A source that is not of the table does nothing. -/
theorem Dev.sourceRaised_unlisted {d : Dev} {n : Nat} (h : faultListed n = false) (syn : Nat) : d.sourceRaised n syn false = d := by
  have hne (m : Nat) (hm : faultListed m = true) : n ≠ m := fun he => by simp [he, hm] at h
  rw [Dev.sourceRaised_eq, Dev.faultRaise_unlisted h, Dev.poisonNamed, if_neg (hne 457 (by decide)), if_neg (hne 449 (by decide)),
    if_neg (hne 452 (by decide)), ite_self]

/-- A source whose record is free poisons by its own severity. -/
theorem Dev.sourceRaised_poison {d : Dev} {n : Nat} (syn : Nat)
    (h : d.fgetB (F.FC_REC_STAT_VALID (collectorOf n)) = false) :
    let t := d.sourceRaised n syn false
    let sev := effectiveSeverity n (d.severity n)
    (sev < 2 → t.mem = d.mem ∧ t.thr = d.thr) ∧ (2 ≤ sev → n = 449 → t.mem = (d.poison (syn % 2 ^ 48)).mem)
      ∧ (2 ≤ sev → n = 457 → t.thr = (d.poisonThr (syn % 2 ^ 48)).thr) := by
  intro t sev
  have ht : t = (d.faultRaise n syn false).poisonNamed n syn (decide (2 ≤ sev)) := by
    rw [show sev = d.faultAction n from (Dev.faultAction_free h).symm]
    exact d.sourceRaised_eq n syn
  rw [ht]
  refine ⟨fun hlow => ?_, fun hhigh hn => ?_, fun hhigh hn => ?_⟩
  · rw [Dev.poisonNamed, if_pos (decide_eq_false (by omega))]
    exact ⟨Dev.faultRaise_mem .., Dev.faultRaise_thr ..⟩
  · rw [Dev.poisonNamed, if_neg (by simp [hhigh]), if_neg (by omega), if_pos hn]
    exact Dev.poison_mem_congr (Dev.faultRaise_mem ..) (Dev.faultRaise_ordering288 ..) _
  · rw [Dev.poisonNamed, if_neg (by simp [hhigh]), if_pos hn, Dev.poisonThr, Dev.mapStores, Dev.faultRaise_thr]
    rfl

/-- The records' registers stand behind the counts. -/
theorem Dev.recKey_le (i : Nat) : fldKey 0xB01000 0 ≤ (F.FC_REC_STAT_VALID i).key := by
  simp only [F.FC_REC_STAT_VALID, fldKey]
  omega

/-- What a raised source leaves, read through the poison that it brings. -/
theorem Dev.sourceRaised_frame (d : Dev) (n syn : Nat) :
    let t := d.sourceRaised n syn false
    let r := d.faultRaise n syn false
    (∀ f, t.fget f = r.fget f) ∧ (∀ o, t.oget o = r.oget o) ∧ t.reacts = r.reacts ∧ t.pipes = d.pipes ∧ t.halted = d.halted := by
  obtain ⟨m, h, hframe⟩ := (d.faultRaise n syn false).poisonNamed_frame n syn (decide (2 ≤ d.faultAction n))
  intro t r
  have ht : t = { r with mem := m, thr := h } := (d.sourceRaised_eq n syn).trans hframe
  rw [ht]
  exact ⟨fun _ => rfl, fun _ => rfl, rfl, Dev.faultRaise_pipes .., Dev.faultRaise_halted ..⟩

/-- A source of severity 5 brings the reaction of severity 5, merged into a record or not. -/
theorem Dev.sourceRaised_five {d : Dev} {n : Nat} (hn : faultListed n = true) (h5 : d.severity n = 5) (howed : d.reacts = [])
    (hrec : d.fget (F.FC_REC_STAT_SEV (collectorOf n)) ≤ 5) (syn : Nat) : (d.sourceRaised n syn false).reacts = [(n, 5, syn)] := by
  have hsev : effectiveSeverity n (d.severity n) = 5 := by rw [h5, effectiveSeverity_five]
  have hkey : fldKey 0xB01000 0 ≤ (F.FC_REC_STAT_SEV (collectorOf n)).key := by
    simp only [F.FC_REC_STAT_SEV, fldKey]
    omega
  have hmerged : (d.captured n syn false).2 = 5 := by
    rw [Dev.captured, hsev]
    cases hv : (d.faultCount n).fgetB (F.FC_REC_STAT_VALID (collectorOf n)) with
    | false => exact (Dev.faultCapture_free 5 syn false hv).1
    | true =>
      rw [(Dev.faultCapture_held 5 syn false hv).1, Dev.fget_faultCount _ (faultListed_lt hn) (.inr hkey)]
      exact Nat.max_eq_left hrec
  obtain ⟨-, -, hreacts, -, -⟩ := d.sourceRaised_frame n syn
  obtain ⟨-, -, hadd⟩ := Dev.faultRaise_captured hn (by rw [hsev]; decide) syn false
  rw [hreacts, hadd, hmerged, effectiveSeverity_five, if_neg (by decide), howed, List.nil_append]

/-- A reaction of severity 5 halts the device, whatever else follows the command. -/
theorem Dev.settle_halts {d : Dev} {n syn : Nat} (h : d.reacts = [(n, 5, syn)]) : d.settle.halted = true := by
  have hreact : Dev.reactAll 4096 d = ({ d with reacts := [] } : Dev).halt n syn := by
    have howed : (({ d with reacts := [] } : Dev).halt n syn).reacts = [] := by
      unfold Dev.halt
      split
      · rfl
      · exact Dev.faultIrq_reacts _
    rw [Dev.reactAll, h]
    exact Dev.reactAll_nil _ _ howed
  have hhalted := (({ d with reacts := [] } : Dev).halt_frame n syn).1
  rw [Dev.settle, hreact, if_pos (.inl hhalted), hhalted]

section
variable {d : Dev} {n : Nat} (hn : faultListed n = true) (h0 : effectiveSeverity n (d.severity n) ≠ 0) (syn : Nat)
include hn h0

/-- The fields and the objects of a raised source are those of what it captures. -/
theorem Dev.sourceRaised_captured :
    let t := d.sourceRaised n syn false
    let c := d.captured n syn false
    (∀ f, t.fget f = c.1.fget f) ∧ (∀ o, t.oget o = c.1.oget o)
      ∧ t.reacts = if effectiveSeverity n c.2 < 3 then d.reacts else d.reacts ++ [(n, effectiveSeverity n c.2, syn)] := by
  obtain ⟨hfget, hoget, hreacts, -, -⟩ := d.sourceRaised_frame n syn
  obtain ⟨hflds, hobjs, howed⟩ := Dev.faultRaise_captured hn h0 syn false
  refine ⟨fun f => (hfget f).trans ?_, fun o => (hoget o).trans ?_, hreacts.trans howed⟩
  · rw [Dev.fget, hflds, Dev.fget]
  · rw [Dev.oget, hobjs, Dev.oget]

theorem Dev.sourceRaised_free (hv : d.fgetB (F.FC_REC_STAT_VALID (collectorOf n)) = false) :
    let i := collectorOf n
    let sev := effectiveSeverity n (d.severity n)
    let t := d.sourceRaised n syn false
    t.fget (F.FC_REC_STAT_VALID i) = 1 ∧ t.fget (F.FC_REC_STAT_OVERFLOW i) = 0
      ∧ t.fget (F.FC_REC_STAT_SOURCE i) = n ∧ t.fget (F.FC_REC_STAT_SEV i) = sev ∧ t.fget (F.FC_REC_STAT_INJ i) = 0
      ∧ (∀ j, j < 4 → t.fget (F.FC_REC_SYN_SYN i j) = syn / 2 ^ (32 * j) % 2 ^ 32)
      ∧ t.fget (F.FC_REC_TIME_LO_TIME i) = d.timeBase % 2 ^ 32 ∧ t.fget (F.FC_REC_TIME_HI_TIME i) = d.timeBase / 2 ^ 32 % 2 ^ 32
      ∧ t.oget O.FAULTS_CAPTURED = (d.oget O.FAULTS_CAPTURED + 1) % 2 ^ 64
      ∧ t.reacts = if sev < 3 then d.reacts else d.reacts ++ [(n, sev, syn)] := by
  intro i sev t
  have hlt := faultListed_lt hn
  have hvalid : (d.faultCount n).fgetB (F.FC_REC_STAT_VALID i) = false := by
    rw [Dev.fgetB, Dev.fget_faultCount _ hlt (.inr (Dev.recKey_le i)), ← Dev.fgetB, hv]
  have hsev : sev < 2 ^ 3 := Nat.lt_of_le_of_lt (effectiveSeverity_le n (Nat.min_le_left 5 _)) (by decide)
  obtain ⟨hact, hrvalid, hover, hsource, hrsev, hinj, hsyn, hlo, hhi, hcap⟩ :=
    Dev.faultCapture_free (d := d.faultCount n) sev syn false hvalid
  rw [Dev.faultCount_timeBase] at hlo hhi
  rw [Dev.oget_faultCount] at hcap
  obtain ⟨hfld, hobj, howed⟩ := Dev.sourceRaised_captured hn h0 syn
  rw [show (d.captured n syn false).2 = sev from hact, effectiveSeverity_idem] at howed
  exact ⟨(hfld _).trans hrvalid, (hfld _).trans hover, ((hfld _).trans hsource).trans (Nat.mod_eq_of_lt (by omega)),
    ((hfld _).trans hrsev).trans (Nat.mod_eq_of_lt hsev), (hfld _).trans hinj, fun j hj => (hfld _).trans (hsyn j hj),
    (hfld _).trans hlo, (hfld _).trans hhi, (hobj _).trans hcap, howed⟩

theorem Dev.sourceRaised_held (hv : d.fgetB (F.FC_REC_STAT_VALID (collectorOf n)) = true) :
    let i := collectorOf n
    let t := d.sourceRaised n syn false
    t.fget (F.FC_REC_STAT_OVERFLOW i) = 1 ∧ t.oget O.OVERFLOWS = (d.oget O.OVERFLOWS + 1) % 2 ^ 64
      ∧ ∀ f ∈ [F.FC_REC_STAT_VALID i, F.FC_REC_STAT_SOURCE i, F.FC_REC_STAT_SEV i, F.FC_REC_TIME_LO_TIME i,
          F.FC_REC_TIME_HI_TIME i, F.FC_REC_SYN_SYN i 0, F.FC_REC_SYN_SYN i 1, F.FC_REC_SYN_SYN i 2, F.FC_REC_SYN_SYN i 3],
        t.fget f = d.fget f := by
  intro i t
  have hlt := faultListed_lt hn
  have hvalid : (d.faultCount n).fgetB (F.FC_REC_STAT_VALID i) = true := by
    rw [Dev.fgetB, Dev.fget_faultCount _ hlt (.inr (Dev.recKey_le i)), ← Dev.fgetB, hv]
  obtain ⟨-, hover, hcap, hkeep⟩ :=
    Dev.faultCapture_held (d := d.faultCount n) (effectiveSeverity n (d.severity n)) syn false hvalid
  rw [Dev.oget_faultCount] at hcap
  obtain ⟨hfld, hobj, -⟩ := Dev.sourceRaised_captured hn h0 syn
  refine ⟨(hfld _).trans hover, (hobj _).trans hcap, fun f hf => ?_⟩
  have hplace : fldKey 0xB01000 0 ≤ f.key ∧ f.key ≠ (F.FC_REC_STAT_OVERFLOW i).key ∧ f.key ≠ (F.FC_REC_STAT_INJ i).key := by
    simp only [List.mem_cons, List.not_mem_nil, or_false] at hf
    rcases hf with rfl | rfl | rfl | rfl | rfl | rfl | rfl | rfl | rfl <;>
    simp only [F.FC_REC_STAT_SOURCE, F.FC_REC_STAT_SEV, F.FC_REC_STAT_INJ, F.FC_REC_STAT_OVERFLOW, F.FC_REC_STAT_VALID,
      F.FC_REC_SYN_SYN, F.FC_REC_TIME_LO_TIME, F.FC_REC_TIME_HI_TIME, fldKey] <;> omega
  obtain ⟨hrecord, ho, hj⟩ := hplace
  exact (hfld f).trans ((hkeep f ho hj).trans (Dev.fget_faultCount _ hlt (.inr hrecord)))

end

/-- A source of the table that is raised is counted, whatever it captures and poisons. -/
theorem Dev.sourceRaised_counted (d : Dev) {n : Nat} (hn : faultListed n = true) (syn : Nat) :
    d.Counted (d.sourceRaised n syn false) n := by
  obtain ⟨hfget, -, -, -, -⟩ := d.sourceRaised_frame n syn
  obtain ⟨hcount, hsticky⟩ := d.faultRaise_counted hn syn false
  exact ⟨(hfget _).trans hcount, (congrArg (bitAt · _) (hfget _)).trans hsticky⟩

/-- At severity 0 nothing is captured and nothing is owed. -/
theorem Dev.sourceRaised_silent {d : Dev} {n : Nat} (hn : faultListed n = true) (h0 : effectiveSeverity n (d.severity n) = 0)
    (syn i : Nat) : (d.sourceRaised n syn false).fget (F.FC_REC_STAT_VALID i) = d.fget (F.FC_REC_STAT_VALID i)
      ∧ (d.sourceRaised n syn false).reacts = d.reacts := by
  obtain ⟨hfget, -, hreacts, -, -⟩ := d.sourceRaised_frame n syn
  have hsilent := Dev.faultRaise_silent hn h0 syn false
  constructor
  · rw [hfget, hsilent, Dev.fget_faultCount _ (faultListed_lt hn) (.inr (Dev.recKey_le i))]
  · rw [hreacts, hsilent, Dev.faultCount_reacts]

/-- A check whose bits an armed injection inverts is counted as one, and raises its source. -/
theorem Dev.sourceInjected_facts {d : Dev} {n : Nat} (hf : d.fiFires n = true) (syn : Nat) :
    let t := d.sourceRaised n syn true
    t.oget O.INJECTIONS = (d.oget O.INJECTIONS + 1) % 2 ^ 32 ∧ t.fget F.FI_STAT_FIRED = 1
      ∧ t.fget F.FI_CTL_ARM = (if d.fget F.FI_CTL_MODE = 1 then 0 else d.fget F.FI_CTL_ARM)
      ∧ (faultListed n = true → d.Counted t n) := by
  intro t
  obtain ⟨m, h, hframe⟩ :=
    ((d.faultRaise n syn true).fiConsume).poisonNamed_frame n syn (decide (2 ≤ d.faultAction n))
  have ht : t = { (d.faultRaise n syn true).fiConsume with mem := m, thr := h } :=
    (Dev.sourceRaised_injected hf syn).trans hframe
  have hfget (f : Fld) : t.fget f = (d.faultRaise n syn true).fiConsume.fget f := by rw [ht, Dev.fget, Dev.fget]
  obtain ⟨hcount, hfired, harm, hother⟩ := (d.faultRaise n syn true).fiConsume_facts
  have hctl (f : Fld) (hlow : f.key < fldKey 0xB00100 0) : (d.faultRaise n syn true).fget f = d.fget f := by
    cases hn : faultListed n with
    | false => rw [Dev.faultRaise_unlisted hn]
    | true =>
      rw [Dev.fget_faultRaise _ _ _ _ _ hn (.inl (hlow.trans (by decide))), Dev.fget_faultCount _ (faultListed_lt hn) (.inl hlow)]
  rw [hctl _ (by decide), hctl _ (by decide)] at harm
  rw [Dev.oget_faultRaise _ _ _ _ _ (by decide)] at hcount
  refine ⟨?_, (hfget _).trans hfired, (hfget _).trans harm, fun hn => ?_⟩
  · exact (congrArg (fun e => Dev.oget e O.INJECTIONS) ht).trans hcount
  · obtain ⟨hcounted, hsticky⟩ := d.faultRaise_counted hn syn true
    exact ⟨(hfget _).trans ((hother _ (by simp only [F.FC_SRC_COUNT, fldKey]; omega)).trans hcounted),
      (congrArg (bitAt · _) ((hfget _).trans (hother _ (by simp only [F.FC_STICKY_BITS, fldKey]; omega)))).trans hsticky⟩

theorem faultListed_watchdog {c : Nat} (h : c < 4) : faultListed (casSource c 12) = true := by
  have h1 : ¬ casSource c 12 < 384 := by unfold casSource; omega
  have h2 : casSource c 12 < 448 := by unfold casSource; omega
  have h3 : (casSource c 12 - 384) % 16 ≤ 13 := by unfold casSource; omega
  rw [faultListed, if_neg h1, if_pos h2]
  exact decide_eq_true h3

/-- A cleared record is free, and keeps what it held. -/
theorem Dev.recordClear_facts (d : Dev) (r : Nat) :
    let t := d.recordClear r
    t.fget (F.FC_REC_STAT_VALID r) = 0 ∧ t.fget (F.FC_REC_STAT_OVERFLOW r) = 0
      ∧ t.fget (F.FC_REC_STAT_SOURCE r) = d.fget (F.FC_REC_STAT_SOURCE r)
      ∧ t.fget (F.FC_REC_STAT_SEV r) = d.fget (F.FC_REC_STAT_SEV r) ∧ t.objs = d.objs ∧ t.pipes = d.pipes := by
  refine ⟨?_, Dev.fget_fputB .., ?_, ?_, rfl, rfl⟩ <;>
  simp (disch := (simp only [F.FC_REC_STAT_SOURCE, F.FC_REC_STAT_SEV, F.FC_REC_STAT_OVERFLOW, F.FC_REC_STAT_VALID, fldKey]; omega))
    only [Dev.recordClear, Dev.fget_fputB, Dev.fget_fputB_ne, b2n]
  rfl

/-- Settles O54: a source is counted and captured or merged before what it poisons, and a reaction of severity 5 halts. -/
theorem faultSourcesAreRecorded : Obligations.FaultSourcesAreRecorded := by
  intro s n syn c record bits mode hs
  dsimp only
  obtain ⟨-, -, -, hpipes, -⟩ := s.dev.sourceRaised_frame n.toNat syn.toNat
  refine ⟨fun hk => ?_, fun hk => ⟨fun h0 => ?_, fun h0 hv => ?_, fun h0 hv => ?_, fun h5 howed hrec => ?_⟩, fun hf => ?_, fun hf => ?_,
    fun hup hh => ?_, fun hdown => ?_, ?_, ?_⟩
  · have hsame := Dev.sourceRaised_unlisted (d := s.dev) hk syn.toNat
    exact lands_of_quiet (f := fun d => d.sourceRaised n.toNat syn.toNat false) rfl hs (by rw [hsame]) (by rw [hsame]) hsame
  · obtain ⟨hvalid, hreacts⟩ := Dev.sourceRaised_silent hk h0 syn.toNat (collectorOf n.toNat)
    exact lands_of_quiet (f := fun d => d.sourceRaised n.toNat syn.toNat false) rfl hs hreacts hpipes
      ⟨s.dev.sourceRaised_counted hk _, hvalid, hreacts⟩
  · obtain ⟨hvalid, hover, hsource, hsev, hinj, hsyn, hlo, hhi, hcap, hreacts⟩ := Dev.sourceRaised_free hk h0 syn.toNat hv
    exact brings_of (f := fun d => d.sourceRaised n.toNat syn.toNat false) rfl hs ⟨s.dev.sourceRaised_counted hk _, hvalid, hover,
      hsource, hsev, hinj, hsyn, hlo, hhi, hcap, hreacts, Dev.sourceRaised_poison syn.toNat hv⟩
  · exact brings_of (f := fun d => d.sourceRaised n.toNat syn.toNat false) rfl hs
      ⟨s.dev.sourceRaised_counted hk _, Dev.sourceRaised_held hk h0 syn.toNat hv⟩
  · exact ⟨_, serve_of (fun d => d.sourceRaised n.toNat syn.toNat false) hs,
      Dev.settle_halts (Dev.sourceRaised_five hk h5 howed hrec syn.toNat)⟩
  · have hsame : s.dev.sourceRaised n.toNat syn.toNat true = s.dev := if_pos ⟨rfl, hf⟩
    exact lands_of_quiet (f := fun d => d.sourceRaised n.toNat syn.toNat true) rfl hs (by rw [hsame]) (by rw [hsame]) hsame
  · exact brings_of (f := fun d => d.sourceRaised n.toNat syn.toNat true) rfl hs (Dev.sourceInjected_facts hf syn.toNat)
  · have hraise : s.dev.watchdog c.toNat = s.dev.faultRaise (casSource c.toNat 12) 0 false := by
      rw [Dev.watchdog, if_neg (by simp [hup, hh])]
    refine brings_of (f := fun d => d.watchdog c.toNat) rfl hs ?_
    rw [hraise]
    exact s.dev.faultRaise_counted (faultListed_watchdog c.isLt) 0 false
  · have hsame : s.dev.watchdog c.toNat = s.dev := if_pos hdown
    exact lands_of_quiet (f := fun d => d.watchdog c.toNat) rfl hs (by rw [hsame]) (by rw [hsame]) hsame
  · exact gives_of (f := fun d => d.recordClear record.toNat) rfl hs (s.dev.recordClear_facts record.toNat)
  · obtain ⟨hsource, hbits, hmode, harm, hunsupported, hobjs⟩ := s.dev.fiArm_facts n.toNat bits.toNat mode.toNat
    refine gives_of (f := fun d => d.fiArm n.toNat bits.toNat mode.toNat) rfl hs ⟨hsource.trans (Nat.mod_eq_of_lt n.isLt),
      hbits.trans (Nat.mod_eq_of_lt bits.isLt), hmode.trans (Nat.mod_eq_of_lt mode.isLt), fun hm => ?_, fun hm => ?_, hunsupported, hobjs⟩
    · refine harm.trans (if_pos ?_)
      rcases hm with rfl | rfl <;> rfl
    · refine harm.trans (if_neg ?_)
      rcases hm with rfl | rfl <;> decide

end Sys2Proof.Machine

/-! ## Links, windows and persists of the chain (R385, R388, R391 to R394) -/

namespace Sys2Proof.Machine

/-! ### Commands of the pins and of the powered device -/

theorem lands_of_powered {i : Instr} {s : State} {f : Dev → Dev} {P : Dev → Prop} (h : exec i s = servePowered s f)
    (hs : s.dev.powered = true) (hr : (f s.dev).reacts = s.dev.reacts) (hp : (f s.dev).pipes = s.dev.pipes) (hP : P (f s.dev)) :
    Lands i s P := by
  rw [servePowered_of f hs] at h
  exact ⟨f s.dev, h, hP, fun hcalm => by rw [h, Dev.settle_calm _ ((Dev.calm_congr hr hp).trans hcalm)]⟩

theorem brings_of_powered {i : Instr} {s : State} {f : Dev → Dev} {P : Dev → Prop} (h : exec i s = servePowered s f)
    (hs : s.dev.powered = true) (hP : P (f s.dev)) : Brings i s P :=
  ⟨f s.dev, h.trans (servePowered_of f hs), hP⟩

theorem lands_of_always {i : Instr} {s : State} {f : Dev → Dev} {d : Dev} {P : Dev → Prop} (h : exec i s = serveAlways s f)
    (hd : f s.dev = d) (hr : d.reacts = s.dev.reacts) (hp : d.pipes = s.dev.pipes) (hP : P d) : Lands i s P := by
  rw [serveAlways, hd] at h
  exact ⟨d, h, hP, fun hcalm => by rw [h, Dev.settle_calm _ ((Dev.calm_congr hr hp).trans hcalm)]⟩

/-! ### Sash frames of the engine's own -/

/-- A message of the engine's own goes out where its link is up, and only counts beside that. -/
theorem Dev.sashSend_frame (d : Dev) (out : Bool) (m : SashMsg) :
    ∃ o l, d.sashSend out m = { d with objs := o, out := d.out ++ l } := by
  unfold Dev.sashSend Dev.sashPut
  split
  · exact ⟨_, _, rfl⟩
  · exact ⟨d.objs, [], by rw [List.append_nil]⟩

theorem Dev.sashSend_up {d : Dev} {out : Bool} (h : bitAt d.sash.links (b2n out) = true) (m : SashMsg) :
    (d.sashSend out m).out = d.out ++ [.sash out (etherFrame sashGroup d.sashMac m.payload)] := by
  unfold Dev.sashSend Dev.sashPut
  rw [if_pos h, if_pos h]
  rfl

theorem Dev.notify_frame (d : Dev) (event : Nat) : ∃ o l, d.notify event = { d with objs := o, out := d.out ++ l } := by
  unfold Dev.notify
  split
  · exact ⟨d.objs, [], by rw [List.append_nil]⟩
  · exact d.sashSend_frame _ _

theorem Dev.notify_out {d : Dev} (hen : d.oget O.NOTIFY_EN ≠ 0) (hup : bitAt d.sash.links 0 = true) (event : Nat) :
    (d.notify event).out = d.out ++ [.sash false (etherFrame sashGroup d.sashMac
      { type := 0xA0, flags := 1, src := d.sash.addr, body := leBytes 1 event ++ zeros 1 ++ leBytes 2 d.sash.addr
        : SashMsg }.payload)] := by
  rw [Dev.notify, if_neg hen]
  exact Dev.sashSend_up hup _

theorem Dev.respond_frame (d : Dev) (m : SashMsg) : ∃ o l, d.respond m = { d with objs := o, out := d.out ++ l } := by
  unfold Dev.respond
  split
  · exact ⟨d.objs, [], by rw [List.append_nil]⟩
  · exact d.sashSend_frame _ _

/-- An engine that reports itself notes that it has. -/
theorem Dev.reportSelf_frame (d : Dev) : ∃ o l b, d.reportSelf = { d with objs := o, out := d.out ++ l, sash := { d.sash with fresh := b } } := by
  unfold Dev.reportSelf
  split
  · obtain ⟨o, l, h⟩ := Dev.notify_frame { d with sash := { d.sash with fresh := false } } 3
    exact ⟨o, l, false, h⟩
  · exact ⟨d.objs, [], d.sash.fresh, by rw [List.append_nil]⟩

/-- A link is marked up or down; one that goes down raises source 476. -/
def Dev.linkMarked (d : Dev) (out up : Bool) : Dev :=
  let e : Dev := { d with sash := { d.sash with links := setBit d.sash.links (b2n out) up } }
  if up then e else e.faultRaise 476 0 false

theorem Dev.linkMarked_facts (d : Dev) (out up : Bool) :
    let t := d.linkMarked out up
    t.sash = { d.sash with links := setBit d.sash.links (b2n out) up } ∧ t.oget O.NOTIFY_EN = d.oget O.NOTIFY_EN
      ∧ t.life = d.life ∧ t.pipes = d.pipes ∧ t.mem = d.mem ∧ t.host = d.host := by
  unfold Dev.linkMarked
  dsimp only
  split
  · exact ⟨rfl, rfl, rfl, rfl, rfl, rfl⟩
  · refine ⟨?_, (Dev.oget_faultRaise _ _ _ _ _ (by decide)).trans rfl, ?_, ?_, ?_, ?_⟩ <;> simp

theorem Dev.sashMac_congr {d e : Dev} (h : e.life = d.life) : e.sashMac = d.sashMac := by
  simp only [Dev.sashMac, Dev.mac, Dev.fuseBytes, h]

/-- A link that changes: the other one keeps its state, and a change of chain-out is announced upstream. -/
theorem Dev.sashLink_facts {d : Dev} {out up : Bool} (hlive : d.chainLive = true) (hchange : bitAt d.sash.links (b2n out) ≠ up) :
    let t := d.sashLink out up
    bitAt t.sash.links (b2n out) = up ∧ bitAt t.sash.links (b2n (!out)) = bitAt d.sash.links (b2n (!out))
      ∧ (out = true → d.oget O.NOTIFY_EN ≠ 0 → bitAt d.sash.links 0 = true →
        ∃ l, t.out = l ++ [Out.sash false (etherFrame sashGroup d.sashMac
          { type := 0xA0, flags := 1, src := d.sash.addr
            body := leBytes 1 (if up then 1 else 2) ++ zeros 1 ++ leBytes 2 d.sash.addr : SashMsg }.payload)])
      ∧ t.pipes = d.pipes ∧ t.mem = d.mem ∧ t.host = d.host := by
  obtain ⟨hsash, hnotify, hlife, hpipes, hmem, hhost⟩ := d.linkMarked_facts out up
  have hrun : d.sashLink out up = if out then (d.linkMarked out up).notify (if up then 1 else 2) else (d.linkMarked out up).reportSelf :=
    if_neg (by simp [hlive, hchange])
  have hself : bitAt (setBit d.sash.links (b2n out) up) (b2n out) = up := by rw [bitAt_setBit, if_pos rfl]
  have hother : bitAt (setBit d.sash.links (b2n out) up) (b2n (!out)) = bitAt d.sash.links (b2n (!out)) := by
    rw [bitAt_setBit, if_neg (by cases out <;> decide)]
  intro t
  cases out with
  | true =>
    have ht : t = (d.linkMarked true up).notify (if up then 1 else 2) := hrun.trans (if_pos rfl)
    obtain ⟨o, l, hframe⟩ := (d.linkMarked true up).notify_frame (if up then 1 else 2)
    refine ⟨?_, ?_, fun _ hen hup => ?_, ?_, ?_, ?_⟩
    · rw [ht, hframe, hsash]
      exact hself
    · rw [ht, hframe, hsash]
      exact hother
    · have hchain : bitAt (d.linkMarked true up).sash.links 0 = true := by
        rw [hsash]
        exact hother.trans hup
      rw [ht, Dev.notify_out (hnotify ▸ hen) hchain, Dev.sashMac_congr hlife, hsash]
      exact ⟨_, rfl⟩
    · rw [ht, hframe, ← hpipes]
    · rw [ht, hframe, ← hmem]
    · rw [ht, hframe, ← hhost]
  | false =>
    have ht : t = (d.linkMarked false up).reportSelf := hrun.trans (if_neg Bool.false_ne_true)
    obtain ⟨o, l, b, hframe⟩ := (d.linkMarked false up).reportSelf_frame
    refine ⟨?_, ?_, fun h => Bool.noConfusion h, ?_, ?_, ?_⟩
    · rw [ht, hframe, hsash]
      exact hself
    · rw [ht, hframe, hsash]
      exact hother
    · rw [ht, hframe, ← hpipes]
    · rw [ht, hframe, ← hmem]
    · rw [ht, hframe, ← hhost]

/-! ### The window's data words (R391, R392) -/

/-- Word i of a value that is put into the window: its bytes, and behind them what the word held. -/
def windowWord (v old : Bytes) (i : Nat) : Bytes := (v.drop (4 * i)).take 4 ++ old.drop ((v.drop (4 * i)).take 4).length

theorem windowWord_length (v : Bytes) {old : Bytes} (h : old.length = 4) (i : Nat) : (windowWord v old i).length = 4 := by
  simp only [windowWord, List.length_append, List.length_drop, List.length_take, h]
  omega

/-- The words of a value give it back. -/
theorem take_flatMap_windowWord (m : Nat) : ∀ (old : Nat → Bytes) (v : Bytes), (∀ i, (old i).length = 4) → v.length ≤ 4 * m →
    ((List.range m).flatMap (fun i => windowWord v (old i) i)).take v.length = v := by
  induction m with
  | zero =>
    intro old v _ hv
    rw [List.eq_nil_of_length_eq_zero (l := v) (by omega)]
    rfl
  | succ m ih =>
    intro old v hold hv
    have hnext (i : Nat) : windowWord v (old (i + 1)) (i + 1) = windowWord (v.drop 4) (old (i + 1)) i := by
      rw [windowWord, windowWord, List.drop_drop, Nat.mul_add, Nat.mul_one, Nat.add_comm (4 * i)]
    rw [List.range_succ_eq_map, List.flatMap_cons, List.flatMap_map]
    simp only [Nat.succ_eq_add_one, hnext]
    rcases Nat.lt_or_ge v.length 4 with hshort | hlong
    · have hword : windowWord v (old 0) 0 = v ++ (old 0).drop v.length := by
        rw [windowWord, Nat.mul_zero, List.drop_zero, List.take_of_length_le (by omega)]
      rw [hword, List.append_assoc, List.take_left']
      rfl
    · have hword : windowWord v (old 0) 0 = v.take 4 := by
        rw [windowWord, Nat.mul_zero, List.drop_zero, List.drop_of_length_le, List.append_nil]
        rw [hold, List.length_take]
        omega
      have hlen : (v.take 4).length = 4 := by rw [List.length_take]; omega
      have hrest := ih (fun i => old (i + 1)) (v.drop 4) (fun i => hold (i + 1)) (by rw [List.length_drop]; omega)
      rw [List.length_drop] at hrest
      rw [hword, List.take_append, hlen, hrest, List.take_of_length_le (by omega), List.take_append_drop]

theorem leBytes_leNat (w : Bytes) : leBytes w.length (leNat w) = w := by
  induction w with
  | nil => rfl
  | cons b w ih =>
    have hlow : BitVec.ofNat 8 (b.toNat + 256 * leNat w) = b := BitVec.eq_of_toNat_eq (by
      rw [BitVec.toNat_ofNat]
      have := b.isLt
      omega)
    have hhigh : (b.toNat + 256 * leNat w) / 256 = leNat w := by
      have := b.isLt
      omega
    rw [List.length_cons, leBytes, leNat, hlow, hhigh, ih]

/-- One word of the window takes its bytes of a value. -/
def Dev.windowStep (v : Bytes) (d : Dev) (i : Nat) : Dev :=
  d.fput (F.DICT_DATA_DATA i) (leNat (windowWord v (leBytes 4 (d.fget (F.DICT_DATA_DATA i))) i))

theorem Dev.windowPut_eq (d : Dev) (v : Bytes) : d.windowPut v = (List.range (ceilDiv v.length 4)).foldl (Dev.windowStep v) d := rfl

theorem dataKey (i : Nat) : (F.DICT_DATA_DATA i).key = fldKey 0x19000 0 + 128 * i := by
  simp only [F.DICT_DATA_DATA, fldKey]
  omega

/-- The words that have taken their bytes read them, the others as before. -/
theorem Dev.fget_windowSteps (v : Bytes) (d : Dev) (m i : Nat) :
    ((List.range m).foldl (Dev.windowStep v) d).fget (F.DICT_DATA_DATA i)
      = if i < m then leNat (windowWord v (leBytes 4 (d.fget (F.DICT_DATA_DATA i))) i) else d.fget (F.DICT_DATA_DATA i) := by
  induction m with
  | zero => rfl
  | succ m ih =>
    rw [List.range_succ, List.foldl_append, List.foldl_cons, List.foldl_nil, Dev.windowStep]
    by_cases h : i = m
    · subst h
      rw [Dev.fget_fput, ih, if_neg (Nat.lt_irrefl i), if_pos (Nat.lt_succ_self i)]
      have hlen := windowWord_length v (leBytes_length 4 (d.fget (F.DICT_DATA_DATA i))) i
      have hlt := leNat_lt (windowWord v (leBytes 4 (d.fget (F.DICT_DATA_DATA i))) i)
      rw [hlen] at hlt
      exact Nat.mod_eq_of_lt hlt
    · have hkey : (F.DICT_DATA_DATA i).key ≠ (F.DICT_DATA_DATA m).key := by
        rw [dataKey, dataKey]
        omega
      rw [Dev.fget_fput_ne _ _ hkey, ih]
      by_cases hlt : i < m
      · rw [if_pos hlt, if_pos (by omega)]
      · rw [if_neg hlt, if_neg (by omega)]

/-- A value put into the window stands there; registers before the window keep what they hold. -/
theorem Dev.windowPut_facts (d : Dev) (v : Bytes) :
    (d.windowPut v).windowBytes v.length = v ∧ (∃ f, d.windowPut v = { d with flds := f })
      ∧ ∀ f : Fld, f.key < fldKey 0x19000 0 → (d.windowPut v).fget f = d.fget f := by
  refine ⟨?_, ?_, fun f hf => ?_⟩
  · have hwords : (List.range (ceilDiv v.length 4)).flatMap (fun i => leBytes 4 ((d.windowPut v).fget (F.DICT_DATA_DATA i)))
        = (List.range (ceilDiv v.length 4)).flatMap (fun i => windowWord v (leBytes 4 (d.fget (F.DICT_DATA_DATA i))) i) := by
      refine List.flatMap_congr fun i hi => ?_
      rw [Dev.windowPut_eq, Dev.fget_windowSteps, if_pos (List.mem_range.mp hi)]
      have h := leBytes_leNat (windowWord v (leBytes 4 (d.fget (F.DICT_DATA_DATA i))) i)
      rwa [windowWord_length v (leBytes_length 4 _)] at h
    rw [Dev.windowBytes, hwords]
    exact take_flatMap_windowWord _ _ v (fun i => leBytes_length 4 _) (by unfold ceilDiv; split <;> omega)
  · refine foldl_keeps (fun e : Dev => ∃ f, e = { d with flds := f }) _ (fun e i he => ?_) _ d ⟨d.flds, rfl⟩
    obtain ⟨f, rfl⟩ := he
    exact ⟨_, rfl⟩
  · refine foldl_keeps (fun e : Dev => e.fget f = d.fget f) _ (fun e i he => ?_) _ d rfl
    refine (Dev.fget_fput_ne _ _ ?_).trans he
    rw [dataKey]
    omega

theorem Dev.windowBytes_length (d : Dev) (n : Nat) : (d.windowBytes n).length = n := by
  have hm : n ≤ ceilDiv n 4 * 4 := by unfold ceilDiv; split <;> omega
  rw [Dev.windowBytes, List.length_take, List.length_flatMap]
  simp only [leBytes_length, List.map_const', List.sum_replicate, List.length_range, smul_eq_mul]
  exact Nat.min_eq_left hm

theorem Dev.windowBytes_congr {d e : Dev} (h : ∀ i, e.fget (F.DICT_DATA_DATA i) = d.fget (F.DICT_DATA_DATA i)) (n : Nat) :
    e.windowBytes n = d.windowBytes n := by
  simp only [Dev.windowBytes, h]

/-! ### An access of the window (R391, R392) -/

/-- The end of an access is a matter of the window's control and status. -/
theorem Dev.windowEnd_facts (d : Dev) :
    d.windowEnd.fget F.DICT_STAT_BUSY = 0 ∧ d.windowEnd.fget F.DICT_STAT_DONE = 1 ∧ (∃ f, d.windowEnd = { d with flds := f })
      ∧ ∀ f : Fld, fldKey 0x1800C 2 ≤ f.key → d.windowEnd.fget f = d.fget f := by
  refine ⟨?_, ?_, ⟨_, rfl⟩, fun f hf => ?_⟩
  · rw [Dev.windowEnd, Dev.fget_fputB_ne _ _ (by decide), Dev.fget_fputB_ne _ _ (by decide), Dev.fget_fputB_ne _ _ (by decide),
      Dev.fget_fputB]
    rfl
  · rw [Dev.windowEnd, Dev.fget_fputB_ne _ _ (by decide), Dev.fget_fputB_ne _ _ (by decide), Dev.fget_fputB]
    rfl
  · simp only [fldKey] at hf
    rw [Dev.windowEnd, Dev.fget_fputB_ne, Dev.fget_fputB_ne, Dev.fget_fputB_ne, Dev.fget_fputB_ne]
    all_goals simp only [F.DICT_STAT_BUSY, F.DICT_STAT_DONE, F.DICT_CTL_READ, F.DICT_CTL_WRITE, fldKey]; omega

/-- An access of the window begins: the window is busy, and the access's bit is set. -/
def Dev.opened (d : Dev) (write : Bool) : Dev :=
  (d.fputB F.DICT_STAT_BUSY true).fputB (if write then F.DICT_CTL_WRITE else F.DICT_CTL_READ) true

theorem Dev.fget_opened (d : Dev) (write : Bool) {f : Fld} (hb : f.key ≠ F.DICT_STAT_BUSY.key)
    (hr : f.key ≠ F.DICT_CTL_READ.key) (hw : f.key ≠ F.DICT_CTL_WRITE.key) : (d.opened write).fget f = d.fget f := by
  rw [Dev.opened, Dev.fget_fputB_ne, Dev.fget_fputB_ne _ _ hb]
  cases write <;> assumption

/-- What an open window serves. -/
theorem Dev.windowGo_of_open {d : Dev} (hbusy : d.fgetB F.DICT_STAT_BUSY = false) (hrec : d.recovering = false)
    (htest : d.fget F.DICT_CTL_RSV8 = 0xD1) (hhand : d.life.handoff = none) (write : Bool) :
    d.windowGo write = (d.opened write).serveWindow write (d.fget F.DICT_ADDR_INDEX) (d.fget F.DICT_ADDR_SUB)
      (d.fget F.DICT_LEN_LEN) (if write then d.windowBytes (min (d.fget F.DICT_LEN_LEN) 4096) else []) := by
  have hfld (f : Fld) (hf : fldKey 0x1800C 2 ≤ f.key ∨ f.key < fldKey 0x18008 0) : (d.opened write).fget f = d.fget f := by
    simp only [fldKey] at hf
    refine d.fget_opened write ?_ ?_ ?_ <;>
      simp only [F.DICT_STAT_BUSY, F.DICT_CTL_READ, F.DICT_CTL_WRITE, fldKey] <;> omega
  have hbytes (n : Nat) : (d.opened write).windowBytes n = d.windowBytes n :=
    Dev.windowBytes_congr (fun i => hfld _ (.inl (by rw [dataKey]; simp only [fldKey]; omega))) n
  unfold Dev.windowGo
  rw [if_neg (by simp [hbusy, hrec]), if_neg (by simp [htest])]
  dsimp only
  change (if (d.opened write).life.handoff.isSome = true then _ else (d.opened write).serveWindow write
    ((d.opened write).fget F.DICT_ADDR_INDEX) ((d.opened write).fget F.DICT_ADDR_SUB) ((d.opened write).fget F.DICT_LEN_LEN)
    (if write = true then (d.opened write).windowBytes (min ((d.opened write).fget F.DICT_LEN_LEN) 4096) else [])) = _
  have hopen : (d.opened write).life.handoff = none := hhand
  rw [hopen, if_neg (by simp), hfld _ (.inr (by decide)), hfld _ (.inr (by decide)), hfld _ (.inr (by decide)), hbytes]

section
variable {d : Dev} (hbusy : d.fgetB F.DICT_STAT_BUSY = false) (hrec : d.recovering = false)
  (htest : d.fget F.DICT_CTL_RSV8 = 0xD1) (hhand : d.life.handoff = none)
include hbusy hrec htest hhand

/-- A read of the window: the value stands in the data words, and its length in DICT_TOTAL. -/
theorem Dev.windowRead_facts
    (hlen : ((d.opened false).dictValue (d.fget F.DICT_ADDR_INDEX) (d.fget F.DICT_ADDR_SUB)).length ≤ 4096) :
    let v := (d.opened false).dictValue (d.fget F.DICT_ADDR_INDEX) (d.fget F.DICT_ADDR_SUB)
    let t := d.windowGo false
    (t.windowBytes v.length = v ∧ t.fget F.DICT_TOTAL_TOTAL = v.length ∧ t.fget F.DICT_STAT_BUSY = 0 ∧ t.fget F.DICT_STAT_DONE = 1
      ∧ t.pipes = d.pipes ∧ t.jamb = d.jamb ∧ t.mem = d.mem ∧ t.host = d.host) ∧ t.reacts = d.reacts := by
  intro v t
  obtain ⟨hput, ⟨f, hframe⟩, -⟩ := ((d.opened false).ocount O.DICT_READS 1).windowPut_facts v
  have ht : t = ((((d.opened false).ocount O.DICT_READS 1).windowPut v).fput F.DICT_TOTAL_TOTAL v.length).windowEnd :=
    Dev.windowGo_of_open hbusy hrec htest hhand false
  obtain ⟨hbusy', hdone, ⟨g, hend⟩, hkeep⟩ :=
    ((((d.opened false).ocount O.DICT_READS 1).windowPut v).fput F.DICT_TOTAL_TOTAL v.length).windowEnd_facts
  have hdata (i : Nat) : t.fget (F.DICT_DATA_DATA i)
      = (((d.opened false).ocount O.DICT_READS 1).windowPut v).fget (F.DICT_DATA_DATA i) := by
    rw [ht, hkeep, Dev.fget_fput_ne]
    all_goals
      rw [dataKey]
      simp only [F.DICT_TOTAL_TOTAL, fldKey]
      omega
  have hsame : t.pipes = d.pipes ∧ t.jamb = d.jamb ∧ t.mem = d.mem ∧ t.host = d.host ∧ t.reacts = d.reacts := by
    rw [ht, hend, hframe]
    exact ⟨rfl, rfl, rfl, rfl, rfl⟩
  obtain ⟨hpipes, hjamb, hmem, hhost, hreacts⟩ := hsame
  refine ⟨⟨(Dev.windowBytes_congr hdata _).trans hput, ?_, ht ▸ hbusy', ht ▸ hdone, hpipes, hjamb, hmem, hhost⟩, hreacts⟩
  rw [ht, hkeep _ (by decide), Dev.fget_fput]
  exact Nat.mod_eq_of_lt (Nat.lt_of_le_of_lt hlen (by decide))

/-- A write of the window hands its bytes to the dictionary. -/
theorem Dev.windowWrite_eq (hlen : d.fget F.DICT_LEN_LEN ≤ 4096) :
    d.windowGo true = (d.opened true).dictStore .window (d.fget F.DICT_ADDR_INDEX) (d.fget F.DICT_ADDR_SUB)
      (d.windowBytes (d.fget F.DICT_LEN_LEN)) := by
  rw [Dev.windowGo_of_open hbusy hrec htest hhand true, Dev.serveWindow, if_pos rfl, if_neg (by omega), if_pos rfl,
    Nat.min_eq_left hlen]

end

theorem Dev.opened_reacts (d : Dev) (write : Bool) : (d.opened write).reacts = d.reacts := rfl

theorem Dev.opened_pipes (d : Dev) (write : Bool) : (d.opened write).pipes = d.pipes := rfl

/-- RECOVERY is told from a field that an access of the window leaves alone. -/
theorem Dev.recovering_opened (d : Dev) (write : Bool) : (d.opened write).recovering = d.recovering := by
  rw [Dev.recovering, d.fget_opened write (by decide) (by decide) (by decide), Dev.recovering]

/-- The answer to a window's write is a matter of the window's status. -/
theorem Dev.answerWindow_facts (d : Dev) (w : Written) :
    let t := d.answerWrite .window w
    t.fget F.DICT_STAT_APPLIED = b2n (decide (w ≠ .length)) ∧ (w = .length → t.fget F.DICT_STAT_LENERR = 1)
      ∧ t.fget F.DICT_STAT_BUSY = 0 ∧ t.fget F.DICT_STAT_DONE = 1 ∧ ∃ f, t = { d with flds := f } := by
  have hanswer : d.answerWrite .window w = ((if w = .length then d.fputB F.DICT_STAT_LENERR true else d).fputB F.DICT_STAT_APPLIED
      (decide (w ≠ .length))).windowEnd := rfl
  obtain ⟨hbusy, hdone, ⟨f, hend⟩, hkeep⟩ := ((if w = .length then d.fputB F.DICT_STAT_LENERR true else d).fputB
    F.DICT_STAT_APPLIED (decide (w ≠ .length))).windowEnd_facts
  refine ⟨?_, fun hw => ?_, hbusy, hdone, ?_⟩
  · rw [hanswer, hkeep _ (by decide), Dev.fget_fputB]
    cases decide (w ≠ .length) <;> rfl
  · rw [hanswer, hkeep _ (by decide), Dev.fget_fputB_ne _ _ (by decide), if_pos hw, Dev.fget_fputB]
    rfl
  · rw [hanswer, hend]
    split <;> exact ⟨_, rfl⟩

/-- A value that is stored through the window. -/
theorem Dev.windowStore_of_stored {d : Dev} {index sub : Nat} {value : Bytes} (hrec : d.recovering = false)
    (hjudge : writeJudge index sub value.length = .stored) (hpersist : writePersists index sub value = false)
    (hreset : index ≠ 0x20B0) :
    d.dictStore .window index sub value = (d.noted.writeObj index sub value).answerWrite .window .stored := by
  unfold Dev.dictStore
  simp only [hrec, hjudge, hpersist, hreset, Bool.false_eq_true, if_false, ne_eq, not_true_eq_false, false_and, decide_false]
  rfl

theorem Dev.windowStore_of_length {d : Dev} {index sub : Nat} {value : Bytes} (hrec : d.recovering = false)
    (hjudge : writeJudge index sub value.length = .length) :
    d.dictStore .window index sub value = d.noted.answerWrite .window .length := by
  unfold Dev.dictStore
  simp only [hrec, hjudge, Bool.false_eq_true, if_false]
  rfl

/-! ### Persists (R394) -/

/-- The copy that is programmed is the newest one. -/
theorem Dev.persistWrite_newest (d : Dev) :
    d.persistWrite.life.newest = some { seq := (d.life.newest.map Persisted.seq).getD 0 + 1, objs := d.rwpObjs } := by
  have hlife : d.persistWrite.life.newest = Life.newest { d.life with persisted :=
    { seq := (d.life.newest.map Persisted.seq).getD 0 + 1, objs := d.rwpObjs } :: d.life.newest.toList } := rfl
  rw [hlife]
  generalize d.life.newest = newest
  cases newest with
  | none => rfl
  | some q =>
    have hnewer : ¬ q.seq + 1 < q.seq := by omega
    simp only [Life.newest, Option.toList, Option.map_some, Option.getD_some, List.foldl_cons, List.foldl_nil, hnewer, if_false]

/-- The answer to a write is a matter of the window's status, of counters and of what goes out. -/
theorem Dev.answerWrite_frame (d : Dev) (a : Asker) (w : Written) :
    ∃ f o l, d.answerWrite a w = { d with flds := f, objs := o, out := d.out ++ l } := by
  cases a with
  | sash m =>
    obtain ⟨o, l, h⟩ := d.respond_frame (m.answer m.src (if w = .length then 1 else 0) m.dst (decide (w ≠ .length)) [])
    exact ⟨d.flds, o, l, h⟩
  | window =>
    obtain ⟨-, -, -, -, f, h⟩ := d.answerWindow_facts w
    exact ⟨f, d.objs, [], by rw [h, List.append_nil]⟩
  | none => exact ⟨d.flds, d.objs, [], by rw [Dev.answerWrite, List.append_nil]⟩

/-- Where no request is held none is served. -/
theorem Dev.serveHeld_none {d : Dev} (h : d.sash.held = []) : d.serveHeld = d := by
  unfold Dev.serveHeld
  split
  · rfl
  · simp only [h, List.foldl_nil]
    exact congrArg (fun l => { d with sash := { d.sash with held := l } }) h.symm

/-- The end of a persist: the copy is the newest, its write is answered, and nothing is under way. -/
theorem Dev.persistDone_facts {d : Dev} {a : Asker} (ha : d.sash.persist = some a) (hheld : d.sash.held = []) :
    let t := d.persistDone
    (t.sash.persist = none ∧ t.life.newest = some { seq := (d.life.newest.map Persisted.seq).getD 0 + 1, objs := d.rwpObjs }
      ∧ t.pipes = d.pipes ∧ t.jamb = d.jamb ∧ t.mem = d.mem ∧ t.host = d.host) ∧ t.reacts = d.reacts := by
  intro t
  obtain ⟨f, o, l, hanswer⟩ := Dev.answerWrite_frame { d.persistWrite with sash := { d.persistWrite.sash with persist := none } } a .stored
  have ht : t = { d.persistWrite with
      sash := { d.persistWrite.sash with persist := none }, flds := f, objs := o, out := d.persistWrite.out ++ l } := by
    show d.persistDone = _
    unfold Dev.persistDone
    rw [ha]
    dsimp only
    rw [hanswer]
    exact Dev.serveHeld_none hheld
  rw [ht]
  exact ⟨⟨rfl, d.persistWrite_newest, rfl, rfl, rfl, rfl⟩, rfl⟩

/-- A restore leaves no persisted object that differs from its default; beside objects it touches the fields that mirror them. -/
theorem Dev.restoreDefaults_facts (d : Dev) :
    d.restoreDefaults.rwpObjs = [] ∧ ∃ f o, d.restoreDefaults = { d with flds := f, objs := o } := by
  have hframe : ∃ f, d.restoreDefaults = { d with flds := f, objs := d.objs.filter (fun p => !keepsOver p.1) } := by
    refine foldl_keeps (fun e : Dev => ∃ f, e = { d with flds := f, objs := d.objs.filter (fun p => !keepsOver p.1) }) _
      (fun e p he => ?_) d.rwpObjs _ ⟨d.flds, rfl⟩
    obtain ⟨f, rfl⟩ := he
    split
    · exact ⟨_, rfl⟩
    · exact ⟨f, rfl⟩
  obtain ⟨f, h⟩ := hframe
  refine ⟨?_, f, _, h⟩
  rw [Dev.rwpObjs, h]
  exact List.filter_eq_nil_iff.mpr fun p hp => by simpa using (List.mem_filter.mp hp).2

theorem restore_row : objRow 0x1020 2 = some ⟨0x1020, 0x0, 1, 0x2, 1, 4, .wo, 0x0⟩ := by decide +kernel

theorem restore_judged : writeJudge 0x1020 2 (leBytes 4 0x52535444).length = .stored
    ∧ writePersists 0x1020 2 (leBytes 4 0x52535444) = true := by decide +kernel

/-- A restore with no persist under way takes place, and is persisted. -/
theorem Dev.restoreGo_facts {d : Dev} (hrec : d.recovering = false) (hp : d.sash.persist = none) :
    let t := d.restoreGo
    (t.rwpObjs = [] ∧ t.sash.persist = some .none ∧ t.pipes = d.pipes ∧ t.jamb = d.jamb ∧ t.host = d.host)
      ∧ t.reacts = d.reacts := by
  have hwrite : d.noted.writeObj 0x1020 2 (leBytes 4 0x52535444) = d.noted.restoreDefaults := by
    rw [Dev.writeObj, restore_row]
    rfl
  obtain ⟨hempty, f, o, hframe⟩ := d.noted.restoreDefaults_facts
  intro t
  have ht : t = { d.noted.restoreDefaults with sash := { d.noted.restoreDefaults.sash with persist := some .none } } := by
    show d.restoreGo = _
    rw [← hwrite]
    unfold Dev.restoreGo Dev.dictStore
    simp only [hrec, restore_judged, hp, Bool.false_eq_true, if_false, if_true, ne_eq, not_true_eq_false, Option.isSome_none]
    rfl
  have hnoted := d.noted_frame
  rw [ht]
  refine ⟨⟨hempty, rfl, ?_, ?_, ?_⟩, ?_⟩
  · rw [hframe, ← hnoted.pipes]
  · rw [hframe, ← hnoted.jamb]
  · rw [hframe]
    exact (Dev.wake_host _).trans (Dev.ocount_host ..)
  · rw [hframe, ← hnoted.reacts]

/-- A restore while a persist is under way waits for it. -/
theorem Dev.restoreGo_held {d : Dev} (hrec : d.recovering = false) (hp : d.sash.persist ≠ none) :
    d.restoreGo = { d with sash := { d.sash with held := d.sash.held ++ [.store .none 0x1020 2 (leBytes 4 0x52535444)] } } := by
  unfold Dev.restoreGo Dev.dictStore
  simp only [hrec, restore_judged, Option.isSome_iff_ne_none.mpr hp, Bool.false_eq_true, if_false, if_true, ne_eq, not_true_eq_false]

/-- Settles O53: each link, access of the window and persist by the facts of its operation. -/
theorem windowsLinksAndPersists : Obligations.WindowsLinksAndPersists := by
  intro s out up assembly
  dsimp only
  refine ⟨fun hlive hchange => ?_, ⟨_, rfl, rfl⟩, fun ⟨hs, hrec, hbusy, htest, hhand⟩ => ⟨fun hlen => ?_, fun hlen hreset hjudge hpersist => ?_,
    fun hlen hjudge => ?_⟩, fun a hlive ha hheld => ?_, fun hlive hrec => ⟨fun hp => ?_, fun hp => ?_⟩⟩
  · exact serveAlways_brings (fun d => d.sashLink out up) rfl (Dev.sashLink_facts hlive hchange)
  · obtain ⟨hfacts, hreacts⟩ := Dev.windowRead_facts hbusy hrec htest hhand hlen
    exact lands_of_powered (f := fun d => d.windowGo false) rfl hs hreacts hfacts.2.2.2.2.1 hfacts
  · have hlength : (s.dev.windowBytes (s.dev.fget F.DICT_LEN_LEN)).length = s.dev.fget F.DICT_LEN_LEN := Dev.windowBytes_length ..
    have hrun := (Dev.windowWrite_eq hbusy hrec htest hhand hlen).trans
      (Dev.windowStore_of_stored ((s.dev.recovering_opened true).trans hrec) (hlength.symm ▸ hjudge) hpersist hreset)
    obtain ⟨happlied, -, hbusy', hdone, f, hframe⟩ := Dev.answerWindow_facts ((s.dev.opened true).noted.writeObj
      (s.dev.fget F.DICT_ADDR_INDEX) (s.dev.fget F.DICT_ADDR_SUB) (s.dev.windowBytes (s.dev.fget F.DICT_LEN_LEN))) .stored
    refine brings_of_powered (f := fun d => d.windowGo true) rfl hs ?_
    rw [hrun]
    refine ⟨happlied, hbusy', hdone, ?_, ?_, ?_, ?_⟩ <;> rw [hframe] <;> rfl
  · have hlength : (s.dev.windowBytes (s.dev.fget F.DICT_LEN_LEN)).length = s.dev.fget F.DICT_LEN_LEN := Dev.windowBytes_length ..
    have hrun := (Dev.windowWrite_eq hbusy hrec htest hhand hlen).trans
      (Dev.windowStore_of_length ((s.dev.recovering_opened true).trans hrec) (hlength.symm ▸ hjudge))
    obtain ⟨happlied, hlenerr, hbusy', hdone, f, hframe⟩ := (s.dev.opened true).noted.answerWindow_facts .length
    have hnoted := (s.dev.opened true).noted_frame
    refine lands_of_powered (f := fun d => d.windowGo true) rfl hs ?_ ?_ ?_
    · rw [hrun, hframe, ← Dev.opened_reacts s.dev true, ← hnoted.reacts]
    · rw [hrun, hframe, ← Dev.opened_pipes s.dev true, ← hnoted.pipes]
    · rw [hrun]
      refine ⟨happlied, hlenerr rfl, hbusy', ?_, ?_⟩
      · rw [hframe, ← Dev.opened_pipes s.dev true, ← hnoted.pipes]
      · rw [hframe]
        exact Dev.wake_objs _
  · obtain ⟨⟨hnone, hnewest, hpipes, hrest⟩, hreacts⟩ := Dev.persistDone_facts ha hheld
    exact lands_of_always (f := fun d => if d.chainLive then d.persistDone else d) rfl (if_pos hlive) hreacts hpipes
      ⟨hnone, hnewest, hpipes, hrest⟩
  · obtain ⟨⟨hempty, hpersist, hpipes, hrest⟩, hreacts⟩ := Dev.restoreGo_facts hrec hp
    exact lands_of_always (f := fun d => if d.chainLive then d.restoreGo else d) rfl (if_pos hlive) hreacts hpipes
      ⟨hempty, hpersist, hpipes, hrest⟩
  · exact lands_of_always (f := fun d => if d.chainLive then d.restoreGo else d) rfl
      ((if_pos hlive).trans (Dev.restoreGo_held hrec hp)) rfl rfl rfl

end Sys2Proof.Machine

/-! ## Fabric frames that go out, and cancels that come (R360, R371, R372) -/

namespace Sys2Proof.Machine

/-! ### What sending touches -/

/-- Device `t` is `d` with frames sent: of Transom only peers, kept frames and the credit of senders differ, of the objects only the
two counters of frames sent. -/
def Dev.SendsOut (d t : Dev) : Prop :=
  (∃ p q r o l, t = { d with net := { d.net with peers := p, txq := q, rx := r }, objs := o, out := d.out ++ l })
    ∧ ∀ x : Obj, x.key ≠ O.FRAMES_TX.key → x.key ≠ O.BYTES_TX.key → t.oget x = d.oget x

theorem Dev.SendsOut.refl (d : Dev) : d.SendsOut d := ⟨⟨d.net.peers, d.net.txq, d.net.rx, d.objs, [], by rw [List.append_nil]⟩, fun _ _ _ => rfl⟩

theorem Dev.SendsOut.trans {d e t : Dev} (h : d.SendsOut e) (k : e.SendsOut t) : d.SendsOut t := by
  obtain ⟨⟨p, q, r, o, l, h⟩, hobj⟩ := h
  obtain ⟨⟨p', q', r', o', l', k⟩, kobj⟩ := k
  refine ⟨⟨p', q', r', o', l ++ l', ?_⟩, fun x hf hb => (kobj x hf hb).trans (hobj x hf hb)⟩
  rw [k, h]
  simp only [List.append_assoc]

theorem Dev.sendsOut_foldl {α : Type} {f : Dev → α → Dev} (hf : ∀ (d : Dev) a, d.SendsOut (f d a)) (l : List α) (d : Dev) :
    d.SendsOut (l.foldl f d) :=
  foldl_keeps (fun e => d.SendsOut e) f (fun e a he => he.trans (hf e a)) l d (.refl d)

/-- A frame goes out and is counted, or is kept. -/
theorem Dev.putOnWire_sendsOut (d : Dev) (f : Frame) : d.SendsOut (d.putOnWire f) := by
  unfold Dev.putOnWire
  split
  · split
    · exact ⟨⟨d.net.peers, _, d.net.rx, d.objs, [], by rw [List.append_nil]⟩, fun _ _ _ => rfl⟩
    · refine ⟨⟨d.net.peers, d.net.txq, d.net.rx, _, [_], rfl⟩, fun x hf hb => ?_⟩
      rw [Dev.oget_ocount_ne _ _ hb, Dev.oget_ocount_ne _ _ hf, Dev.oget, Dev.emit_objs, Dev.oget]
  · exact ⟨⟨d.net.peers, _, d.net.rx, d.objs, [], by rw [List.append_nil]⟩, fun _ _ _ => rfl⟩

theorem Dev.setPeer_sendsOut (d : Dev) (n : Nat) (p : Peer) : d.SendsOut (d.setPeer n p) :=
  ⟨⟨_, d.net.txq, d.net.rx, d.objs, [], by rw [List.append_nil]; rfl⟩, fun _ _ _ => rfl⟩

theorem Dev.takeCredit_sendsOut (d : Dev) (flow node : Nat) : d.SendsOut (d.takeCredit flow node).2 := by
  unfold Dev.takeCredit
  split
  · exact .refl d
  · exact ⟨⟨d.net.peers, d.net.txq, _, d.objs, [], by rw [List.append_nil]⟩, fun _ _ _ => rfl⟩

theorem Dev.sendFrame_sendsOut (d : Dev) (f : Frame) : d.SendsOut (d.sendFrame f) := by
  unfold Dev.sendFrame
  split
  · exact .refl d
  · have hcredit : d.SendsOut (if f.flow = 0 ∨ f.type = 7 then (0, d) else d.takeCredit f.flow f.dst).2 := by
      split
      · exact .refl d
      · exact d.takeCredit_sendsOut _ _
    exact (hcredit.trans (Dev.setPeer_sendsOut _ _ _)).trans (Dev.putOnWire_sendsOut _ _)

/-- What is left alone by what goes out. -/
theorem Dev.SendsOut.frame {d t : Dev} (h : d.SendsOut t) :
    t.flds = d.flds ∧ t.host = d.host ∧ t.jamb = d.jamb ∧ t.mem = d.mem ∧ t.pipes = d.pipes ∧ t.sash = d.sash ∧ t.life = d.life
      ∧ t.halted = d.halted ∧ t.reacts = d.reacts := by
  obtain ⟨⟨p, q, r, o, l, h⟩, -⟩ := h
  rw [h]
  exact ⟨rfl, rfl, rfl, rfl, rfl, rfl, rfl, rfl, rfl⟩

theorem Dev.SendsOut.net {d t : Dev} (h : d.SendsOut t) : ∃ p q r, t.net = { d.net with peers := p, txq := q, rx := r } := by
  obtain ⟨⟨p, q, r, o, l, h⟩, -⟩ := h
  exact ⟨p, q, r, by rw [h]⟩

/-! ### Cancels (R371, R372) -/

theorem Dev.cancelSend_facts (d : Dev) (i : CancelId) (dsts : List Nat) :
    ∃ e n, d.SendsOut e ∧ d.cancelSend i dsts = { e with net := { e.net with repeats := n } } := by
  have hsent : d.SendsOut (d.cancelFrames i dsts) := Dev.sendsOut_foldl (fun d n => d.sendFrame_sendsOut _) dsts d
  unfold Dev.cancelSend
  dsimp only
  split
  · exact ⟨_, (d.cancelFrames i dsts).net.repeats, hsent, rfl⟩
  · exact ⟨_, _, hsent, rfl⟩

theorem Dev.cancelCtx_keepsNet (d : Dev) (c st : Nat) : d.KeepsNet (d.cancelCtx c st) := by
  unfold Dev.cancelCtx
  dsimp only
  split
  · exact .of_net rfl
  · split
    · exact (d.failCtx_keepsNet c st).trans (.of_net rfl)
    · exact .refl d

/-- The contexts that a cancel names. -/
def Dev.cancelled (d : Dev) (payload : Bytes) : List Nat :=
  (d.pipes.ctxs.filter (fun q => q.2.prog.fabric && q.2.prog.query == (cancelOf payload).query)).map Prod.fst

theorem Dev.mem_cancelled {d : Dev} {payload : Bytes} {c : Nat} (hf : (d.ctx c).prog.fabric = true)
    (hq : (d.ctx c).prog.query = sliceAt payload 0 16) : c ∈ d.cancelled payload := by
  have hne : d.ctx c ≠ {} := fun h => by
    rw [h] at hf
    exact Bool.noConfusion hf
  refine List.mem_map.mpr ⟨(c, d.ctx c), List.mem_filter.mpr ⟨Sparse.get_mem_of_ne hne, ?_⟩, rfl⟩
  simp [hf, hq, cancelOf]

/-- A cancel that has come ends what it names, and is remembered; beside that it is sent on. -/
theorem Dev.cancelArrived_facts (d : Dev) (payload : Bytes) :
    let t := d.cancelArrived payload
    (∀ c, t.ctx c = if c ∈ d.cancelled payload then (d.ctx c).afterCancel 0x0402 else d.ctx c)
      ∧ cancelOf payload ∈ t.net.remembered ∧ (∀ x : Obj, x.key ≠ O.FRAMES_TX.key → x.key ≠ O.BYTES_TX.key → t.oget x = d.oget x)
      ∧ t.flds = d.flds ∧ t.reacts = d.reacts ∧ t.jamb = d.jamb ∧ t.mem = d.mem ∧ t.host = d.host := by
  intro t
  obtain ⟨hends, hctx⟩ := Dev.cancelAll_facts 0x0402 (d.cancelled payload) d
  have hnet : d.KeepsNet ((d.cancelled payload).foldl (fun d c => d.cancelCtx c 0x0402) d) :=
    foldl_keeps (fun e => d.KeepsNet e) _ (fun e c he => he.trans (e.cancelCtx_keepsNet c 0x0402)) _ d (.refl d)
  generalize hg : (d.cancelled payload).foldl (fun d c => d.cancelCtx c 0x0402) d = g at hends hctx hnet
  have hremembered : g.net.remembered = d.net.remembered := by
    obtain ⟨x, r, q, c, h⟩ := hnet
    rw [h]
  obtain ⟨p, b, h, n, hends⟩ := hends
  have ht : t = if d.net.remembered.contains (cancelOf payload) = true then { g with net := { g.net with cancels := d.net.cancels } }
      else ({ g with net := { g.net with cancels := d.net.cancels, remembered := d.net.remembered ++ [cancelOf payload] } } : Dev).cancelSend
        (cancelOf payload) (treeTargets (Dev.membersOf { g with net := { g.net with cancels := d.net.cancels, remembered :=
          d.net.remembered ++ [cancelOf payload] } } (cancelOf payload).epoch) (cancelOf payload).origin g.nodeId) := by
    rw [← hremembered, ← hg]
    rfl
  rw [ht]
  split
  · next hknown =>
    refine ⟨hctx, ?_, ?_, ?_, ?_, ?_, ?_, ?_⟩
    · exact hremembered ▸ List.contains_iff_mem.mp hknown
    all_goals rw [hends]
    exact fun _ _ _ => rfl
  · generalize hk : ({ g with net := { g.net with cancels := d.net.cancels, remembered := d.net.remembered ++ [cancelOf payload] } } : Dev) = k
    obtain ⟨e, n, hsent, heq⟩ := k.cancelSend_facts (cancelOf payload)
      (treeTargets (k.membersOf (cancelOf payload).epoch) (cancelOf payload).origin g.nodeId)
    obtain ⟨hflds, hhost, hjamb, hmem, hpipes, -, -, -, hreacts⟩ := hsent.frame
    obtain ⟨q, tq, r, hnet'⟩ := hsent.net
    have hobj := hsent.2
    rw [heq]
    rw [← hk] at hflds hhost hjamb hmem hpipes hreacts hnet' hobj
    rw [hends] at hflds hhost hjamb hmem hreacts hobj
    refine ⟨fun c => (Dev.ctx_congr (congrArg Pipes.ctxs hpipes) c).trans (hctx c), ?_, hobj, hflds, hreacts, hjamb, hmem, hhost⟩
    change cancelOf payload ∈ e.net.remembered
    rw [hnet']
    exact List.mem_append_right _ (List.mem_singleton_self _)

end Sys2Proof.Machine

/-! ## Sash frames that are served (R379 to R390, R396) -/

namespace Sys2Proof.Machine

/-! ### Frames that arrive -/

section
variable {d : Dev} {out : Bool} {bytes : Bytes} (hlive : d.chainLive = true) (hup : bitAt d.sash.links (b2n out) = true)
  (hframe : sashFrame bytes = true)
include hlive hup hframe

theorem Dev.sashArrives_of_bad (hm : parseSash bytes = none) (act : SashAct) (k : Dev → SashMsg → Dev) :
    d.sashArrives act out bytes k = (d.ocount O.SASH_FRAMES_RX 1).ocount O.SASH_FRAMES_DROPPED 1 := by
  rw [Dev.sashArrives, if_neg (by simp [hlive, hup, hframe]), hm]

theorem Dev.sashArrives_of_act {m : SashMsg} (hm : parseSash bytes = some m) (hway : m.wrongWay out = false) {act : SashAct}
    (hact : d.sashAct m = act) (k : Dev → SashMsg → Dev) :
    d.sashArrives act out bytes k = k ((d.ocount O.SASH_FRAMES_RX 1).relay out bytes m) m := by
  rw [Dev.sashArrives, if_neg (by simp [hlive, hup, hframe]), hm]
  dsimp only
  rw [hway, if_neg Bool.false_ne_true, if_pos hact]

end

/-- A frame of the engine's own act that is not a cancel comes from upstream: the link upstream is up. -/
theorem SashMsg.down_of_act {d : Dev} {m : SashMsg} {act : SashAct} (hact : d.sashAct m = act)
    (h : act = .read ∨ act = .write ∨ act = .enumerate) : m.up = false := by
  unfold Dev.sashAct at hact
  split_ifs at hact with hconsumed hcancel hcast hup <;> subst hact
  all_goals first
    | exact Bool.eq_false_iff.mpr hup
    | simp at h

theorem SashMsg.type_of_read {d : Dev} {m : SashMsg} (hact : d.sashAct m = .read) : m.type = 1 := by
  unfold Dev.sashAct at hact
  split_ifs at hact
  assumption

theorem SashMsg.type_of_write {d : Dev} {m : SashMsg} (hact : d.sashAct m = .write) : m.type = 2 := by
  unfold Dev.sashAct at hact
  split_ifs at hact
  assumption

theorem Dev.link_of_down {d : Dev} {m : SashMsg} {out : Bool} (hdown : m.up = false) (hway : m.wrongWay out = false)
    (hup : bitAt d.sash.links (b2n out) = true) : bitAt d.sash.links 0 = true := by
  cases out with
  | false => exact hup
  | true => simp [SashMsg.wrongWay, hdown] at hway

/-! ### What relaying and answering leave -/

/-- Device `t` is `d` with objects counted and frames sent. -/
def Dev.OnlySends (d t : Dev) : Prop := ∃ o l, t = { d with objs := o, out := d.out ++ l }

theorem Dev.OnlySends.facts {d t : Dev} (h : d.OnlySends t) :
    t.sash = d.sash ∧ t.flds = d.flds ∧ t.life = d.life ∧ t.reacts = d.reacts ∧ t.pipes = d.pipes ∧ t.jamb = d.jamb ∧ t.mem = d.mem
      ∧ t.host = d.host := by
  obtain ⟨o, l, h⟩ := h
  rw [h]
  exact ⟨rfl, rfl, rfl, rfl, rfl, rfl, rfl, rfl⟩

theorem Dev.sashPut_onlySends (d : Dev) (out : Bool) (b : Bytes) : d.OnlySends (d.sashPut out b) := by
  unfold Dev.sashPut
  split
  · exact ⟨d.objs, [_], rfl⟩
  · exact ⟨d.objs, [], by rw [List.append_nil]⟩

theorem Dev.ocount_onlySends (d : Dev) (o : Obj) (n : Nat) : d.OnlySends (d.ocount o n) := ⟨_, [], by rw [List.append_nil]; rfl⟩

theorem Dev.OnlySends.trans {d e t : Dev} (h : d.OnlySends e) (k : e.OnlySends t) : d.OnlySends t := by
  obtain ⟨o, l, rfl⟩ := h
  obtain ⟨p, r, rfl⟩ := k
  exact ⟨p, l ++ r, by simp only [List.append_assoc]⟩

theorem Dev.relay_onlySends (d : Dev) (out : Bool) (bytes : Bytes) (m : SashMsg) : d.OnlySends (d.relay out bytes m) := by
  unfold Dev.relay
  split
  · exact (d.sashPut_onlySends _ _).trans (Dev.ocount_onlySends _ _ _)
  · exact ⟨d.objs, [], by rw [List.append_nil]⟩

theorem Dev.relay_out (d : Dev) (out : Bool) (bytes : Bytes) (m : SashMsg) :
    (d.relay out bytes m).out = if d.relays m = true ∧ bitAt d.sash.links (b2n (!out)) = true
      then d.out ++ [Out.sash (!out) (hopped bytes m)] else d.out := by
  unfold Dev.relay
  split
  · next h => rw [Dev.ocount_out, Dev.sashPut, if_pos h.2]; rfl
  · rfl

theorem Dev.oget_relay (d : Dev) (out : Bool) (bytes : Bytes) (m : SashMsg) {x : Obj} (h : x.key ≠ O.SASH_FRAMES_RELAYED.key) :
    (d.relay out bytes m).oget x = d.oget x := by
  unfold Dev.relay
  split
  · rw [Dev.oget_ocount_ne _ _ h, Dev.sashPut]
    split <;> rfl
  · rfl

theorem Dev.respond_onlySends (d : Dev) (m : SashMsg) : d.OnlySends (d.respond m) := d.respond_frame m

theorem Dev.respond_out {d : Dev} {m : SashMsg} (hsrc : m.src ≠ 0) (hup : bitAt d.sash.links 0 = true) :
    (d.respond m).out = d.out ++ [.sash false (etherFrame sashGroup d.sashMac m.payload)] := by
  rw [Dev.respond, if_neg hsrc]
  exact Dev.sashSend_up hup m

/-! ### READ and WRITE (R387 to R390) -/

/-- A READ from offset 0 is answered with the first bytes of the value, which is kept while there are more. -/
theorem Dev.serveRead_first {d : Dev} {addr : Nat} {m : SashMsg} (haddr : addr ≠ 0) (hup : bitAt d.sash.links 0 = true)
    (hoff : fieldAt m.body 4 4 = 0) :
    let v := d.dictValue (fieldAt m.body 0 2) (fieldAt m.body 2 1)
    let part := v.take (min 1468 (fieldAt m.body 12 2))
    let snap := if part.length < v.length then some (m.tid, objKey (fieldAt m.body 0 2) (fieldAt m.body 2 1), v) else none
    let t := d.serveRead addr m
    t.out = d.out ++ [.sash false (etherFrame sashGroup d.sashMac (m.answer addr 0 v.length false part).payload)]
      ∧ { d with sash := { d.sash with snap := snap } }.OnlySends t := by
  intro v part snap t
  let e : Dev := { d.ocount O.DICT_READS 1 with sash := { (d.ocount O.DICT_READS 1).sash with snap := snap } }
  have ht : t = e.respond (m.answer addr 0 v.length false part) := by
    change d.serveRead addr m = _
    unfold Dev.serveRead
    cases d.sash.snap with
    | none =>
      simp only [Option.getD_none, Option.isSome_none, Bool.false_eq_true, if_false, hoff, if_true, List.drop_zero, Nat.zero_add,
        decide_eq_true_eq]
      rfl
    | some q =>
      simp only [ne_eq, not_true, and_false, Option.getD_none, Option.isSome_none, Bool.false_eq_true, if_false, hoff, if_true,
        List.drop_zero, Nat.zero_add, decide_eq_true_eq]
      rfl
  have hcounted : { d with sash := { d.sash with snap := snap } }.OnlySends e := ⟨_, [], by rw [List.append_nil]; rfl⟩
  refine ⟨?_, ht ▸ hcounted.trans (Dev.respond_onlySends _ _)⟩
  rw [ht]
  exact Dev.respond_out (d := e) haddr hup

/-- What a WRITE does that does not continue the assembly kept. -/
theorem Dev.serveWrite_new {d : Dev} {addr : Nat} {m : SashMsg} (hprior : ∀ a, d.sash.asm = some a → a.tid ≠ m.tid) :
    let key := objKey (fieldAt m.body 0 2) (fieldAt m.body 2 1)
    let total := fieldAt m.body 8 4
    let piece := (m.body.drop 16).take (fieldAt m.body 12 2)
    d.serveWrite addr m = if fieldAt m.body 4 4 = 0 then
        if total < piece.length then d.outOfSequence addr m
        else if piece.length < total then
          ({ d with sash := { d.sash with asm := some { tid := m.tid, key := key, total := total, bytes := piece } } } : Dev).respond
            (m.answer addr 0 piece.length false [])
        else ({ d with sash := { d.sash with asm := none } } : Dev).dictStore (.sash { m with src := addr, dst := piece.length })
          (key / 256) (key % 256) piece
      else d.outOfSequence addr m := by
  unfold Dev.serveWrite
  cases hasm : d.sash.asm with
  | none => by_cases hoff : fieldAt m.body 4 4 = 0 <;> simp only [hoff, if_true, if_false]
  | some a => by_cases hoff : fieldAt m.body 4 4 = 0 <;> simp only [hprior a hasm, hoff, if_true, if_false]

/-- A value that is stored, and not persisted, is written before the answer goes out. -/
theorem Dev.dictStore_answered {d : Dev} {m : SashMsg} {index sub : Nat} {v : Bytes} (hrec : d.recovering = false)
    (hindex : index ≠ 0x20B0) (hstored : writeJudge index sub v.length = .stored) (hkept : writePersists index sub v = false) :
    d.dictStore (.sash m) index sub v = ((d.ocount O.DICT_WRITES 1).wake.writeObj index sub v).respond
      (m.answer m.src 0 m.dst true []) := by
  unfold Dev.dictStore
  simp only [hrec, Bool.false_eq_true, if_false, hstored, ne_eq, not_true, hkept, hindex, false_and, decide_false]
  rfl

theorem objKey_div (index : Nat) (b : Bytes) (i : Nat) : objKey index (fieldAt b i 1) / 256 = index := by
  have hbyte : fieldAt b i 1 < 256 := fieldAt_lt b i 1
  unfold objKey
  omega

theorem objKey_mod (index : Nat) (b : Bytes) (i : Nat) : objKey index (fieldAt b i 1) % 256 = fieldAt b i 1 := by
  have hbyte : fieldAt b i 1 < 256 := fieldAt_lt b i 1
  unfold objKey
  omega

theorem Dev.acceptRequest_busy {d : Dev} {m : SashMsg} (hbody : wellBodied m = true) (hheld : 8 ≤ d.heldCount) :
    d.acceptRequest m = d.respond (m.answer d.sash.addr 3 0 false []) := by
  rw [Dev.acceptRequest, if_neg (by simp [hbody]), if_pos hheld]

theorem Dev.acceptRequest_served {d : Dev} {m : SashMsg} (hbody : wellBodied m = true) (hheld : d.heldCount < 8)
    (hhand : d.life.handoff = none) :
    d.acceptRequest m = if m.type = 1 then d.serveRead d.sash.addr m else d.serveWrite d.sash.addr m := by
  rw [Dev.acceptRequest, if_neg (by simp [hbody]), if_neg (by omega), if_neg (by simp [hhand])]
  rfl

theorem Dev.heldCount_congr {d e : Dev} (h : e.sash = d.sash) : e.heldCount = d.heldCount := by
  simp only [Dev.heldCount, h]

/-! ### The frames by their acts -/

/-- A frame that arrives is counted, and relayed where it is not for the engine alone. -/
def Dev.received (d : Dev) (out : Bool) (bytes : Bytes) (m : SashMsg) : Dev := (d.ocount O.SASH_FRAMES_RX 1).relay out bytes m

theorem Dev.received_facts (d : Dev) (out : Bool) (bytes : Bytes) (m : SashMsg) :
    let r := d.received out bytes m
    r.sash = d.sash ∧ r.flds = d.flds ∧ r.life = d.life ∧ r.reacts = d.reacts ∧ r.pipes = d.pipes ∧ r.jamb = d.jamb ∧ r.mem = d.mem
      ∧ r.host = d.host :=
  ((d.ocount_onlySends O.SASH_FRAMES_RX 1).trans (Dev.relay_onlySends _ out bytes m)).facts

/-- The contexts, memories and commands of an engine stand still. -/
def Dev.OthersKept (d t : Dev) : Prop := t.pipes = d.pipes ∧ t.jamb = d.jamb ∧ t.mem = d.mem ∧ t.host = d.host

theorem Dev.OnlySends.others {d t : Dev} (h : d.OnlySends t) : d.OthersKept t := by
  obtain ⟨-, -, -, -, hpipes, hjamb, hmem, hhost⟩ := h.facts
  exact ⟨hpipes, hjamb, hmem, hhost⟩

theorem Dev.OthersKept.trans {d e t : Dev} (h : d.OthersKept e) (k : e.OthersKept t) : d.OthersKept t :=
  ⟨k.1.trans h.1, k.2.1.trans h.2.1, k.2.2.1.trans h.2.2.1, k.2.2.2.trans h.2.2.2⟩

theorem Dev.received_others (d : Dev) (out : Bool) (bytes : Bytes) (m : SashMsg) : d.OthersKept (d.received out bytes m) :=
  ((d.ocount_onlySends O.SASH_FRAMES_RX 1).trans (Dev.relay_onlySends _ out bytes m)).others

/-- The address an ENUMERATE gives, or none beyond 0xFFE. -/
def enumerated (m : SashMsg) : Nat := if 0xFFE < fieldAt m.body 0 2 + m.hops then 0 else fieldAt m.body 0 2 + m.hops

/-- The engine takes the address of an ENUMERATE. -/
def Dev.numbered (d : Dev) (m : SashMsg) : Dev := { d with sash := { d.sash with addr := enumerated m, hops := m.hops } }

/-- The answer to an ENUMERATE. -/
def Dev.enumReply (d : Dev) (m : SashMsg) : SashMsg :=
  { type := 0x90, flags := 3, src := enumerated m, tid := m.tid
    body := leBytes 2 (enumerated m) ++ leBytes 2 (b2n (decide (0xFFE < fieldAt m.body 0 2 + m.hops))
        + (if bitAt d.sash.links 1 then 0 else 2))
      ++ d.readObj 0x1010 1 ++ d.readObj 0x6100 1 ++ zeros 2 ++ d.readObj 0x9000 1 }

section
variable {s : State} {out : Bool} {bytes : Bytes} {m : SashMsg} (hlive : s.dev.chainLive = true)
  (hup : bitAt s.dev.sash.links (b2n out) = true) (hframe : sashFrame bytes = true) (hm : parseSash bytes = some m)
  (hway : m.wrongWay out = false)
include hlive hup hframe hm hway

theorem lands_of_arrives {i : Instr} {act : SashAct} {k : Dev → SashMsg → Dev} {P : Dev → Prop}
    (h : exec i s = serveAlways s (fun d => d.sashArrives act out bytes k)) (hact : s.dev.sashAct m = act)
    (hr : (k (s.dev.received out bytes m) m).reacts = (s.dev.received out bytes m).reacts)
    (hp : (k (s.dev.received out bytes m) m).pipes = (s.dev.received out bytes m).pipes)
    (hP : P (k (s.dev.received out bytes m) m)) : Lands i s P := by
  obtain ⟨-, -, -, hreacts, hpipes, -, -, -⟩ := s.dev.received_facts out bytes m
  exact lands_of_always h (Dev.sashArrives_of_act hlive hup hframe hm hway hact k) (hr.trans hreacts) (hp.trans hpipes) hP

theorem sashRelay_lands (hact : s.dev.sashAct m = .none) : Lands (.sashRelay out bytes) s (fun d =>
    d.out = (if s.dev.relays m = true ∧ bitAt s.dev.sash.links (b2n (!out)) = true
      then s.dev.out ++ [Out.sash (!out) (hopped bytes m)] else s.dev.out)
    ∧ d.sash = s.dev.sash ∧ s.dev.OthersKept d) := by
  obtain ⟨hsash, -, -, -, -, -, -, -⟩ := s.dev.received_facts out bytes m
  refine lands_of_arrives hlive hup hframe hm hway (k := fun d _ => d) rfl hact rfl rfl
    ⟨?_, hsash, s.dev.received_others out bytes m⟩
  have hrelays : (s.dev.ocount O.SASH_FRAMES_RX 1).relays m = s.dev.relays m := by
    simp only [Dev.relays, Dev.consumes, Dev.ocount_sash]
  rw [Dev.received, Dev.relay_out, Dev.ocount_out, Dev.ocount_sash, hrelays]

theorem enumerate_lands (hact : s.dev.sashAct m = .enumerate) : Lands (.enumerate out bytes) s (fun d =>
    d.sash.addr = enumerated m ∧ d.sash.hops = m.hops
    ∧ (∃ a : SashMsg, d.out = (s.dev.received out bytes m).out ++ [Out.sash false (etherFrame sashGroup s.dev.sashMac a.payload)]
      ∧ a.type = 0x90 ∧ a.tid = m.tid) ∧ s.dev.OthersKept d) := by
  obtain ⟨hsash, -, hlife, -, -, -, -, -⟩ := s.dev.received_facts out bytes m
  have hlink : bitAt ((s.dev.received out bytes m).numbered m).sash.links 0 = true :=
    (congrArg (fun x : Sash => bitAt x.links 0) hsash).trans
      (Dev.link_of_down (SashMsg.down_of_act hact (.inr (.inr rfl))) hway hup)
  have hmac : ((s.dev.received out bytes m).numbered m).sashMac = s.dev.sashMac := Dev.sashMac_congr hlife
  let reply : SashMsg := ((s.dev.received out bytes m).numbered m).enumReply m
  have hsent : ((s.dev.received out bytes m).numbered m).OnlySends (((s.dev.received out bytes m).numbered m).sashSend false reply) :=
    Dev.sashSend_frame _ _ _
  obtain ⟨hs, -, -, hreacts, hpipes, -, -, -⟩ := hsent.facts
  refine lands_of_arrives hlive hup hframe hm hway 
    (k := fun d m => (d.numbered m).sashSend false ((d.numbered m).enumReply m)) rfl hact hreacts hpipes
    ⟨congrArg Sash.addr hs, congrArg Sash.hops hs, ⟨reply, ?_, rfl, rfl⟩, ?_⟩
  · rw [Dev.sashSend_up hlink reply, hmac]
    rfl
  · exact (s.dev.received_others out bytes m).trans hsent.others

theorem sashRead_lands (hact : s.dev.sashAct m = .read) (hbody : wellBodied m = true) (hheld : s.dev.heldCount < 8)
    (hhand : s.dev.life.handoff = none) (haddr : s.dev.sash.addr ≠ 0) (hoff : fieldAt m.body 4 4 = 0) :
    let v := (s.dev.received out bytes m).dictValue (fieldAt m.body 0 2) (fieldAt m.body 2 1)
    let part := v.take (min 1468 (fieldAt m.body 12 2))
    Lands (.sashRead out bytes) s (fun d =>
      d.out = (s.dev.received out bytes m).out ++ [Out.sash false (etherFrame sashGroup s.dev.sashMac
        (m.answer s.dev.sash.addr 0 v.length false part).payload)]
      ∧ d.sash.snap = (if part.length < v.length then some (m.tid, objKey (fieldAt m.body 0 2) (fieldAt m.body 2 1), v) else none)
      ∧ s.dev.OthersKept d) := by
  intro v part
  obtain ⟨hsash, -, hlife, -, -, -, -, -⟩ := s.dev.received_facts out bytes m
  have hothers := s.dev.received_others out bytes m
  have hlink : bitAt (s.dev.received out bytes m).sash.links 0 = true :=
    hsash ▸ Dev.link_of_down (SashMsg.down_of_act hact (.inl rfl)) hway hup
  obtain ⟨hout, hkept⟩ := Dev.serveRead_first (addr := s.dev.sash.addr) haddr hlink hoff
  have hserved : (s.dev.received out bytes m).acceptRequest m = (s.dev.received out bytes m).serveRead s.dev.sash.addr m := by
    rw [Dev.acceptRequest_served hbody (Dev.heldCount_congr hsash ▸ hheld) (hlife ▸ hhand), if_pos (SashMsg.type_of_read hact), hsash]
  obtain ⟨hs, -, -, hreacts, hpipes, -, -, -⟩ := hkept.facts
  refine lands_of_arrives hlive hup hframe hm hway (k := fun d m => d.acceptRequest m) rfl hact ?_ ?_ ?_
  all_goals rw [hserved]
  · exact hreacts
  · exact hpipes
  · exact ⟨hout.trans (by rw [Dev.sashMac_congr (d := s.dev) hlife]), congrArg Sash.snap hs,
      hothers.trans (Dev.OthersKept.trans ⟨rfl, rfl, rfl, rfl⟩ hkept.others)⟩

/-- A request beyond eight is answered BUSY. -/
theorem accept_busy_lands {i : Instr} {act : SashAct}
    (h : exec i s = serveAlways s (fun d => d.sashArrives act out bytes (fun d m => d.acceptRequest m)))
    (hact : s.dev.sashAct m = act) (hdown : m.up = false) (hbody : wellBodied m = true) (hheld : 8 ≤ s.dev.heldCount)
    (haddr : s.dev.sash.addr ≠ 0) :
    Lands i s (fun d => d.out = (s.dev.received out bytes m).out ++ [Out.sash false (etherFrame sashGroup s.dev.sashMac
        (m.answer s.dev.sash.addr 3 0 false []).payload)] ∧ d.sash = s.dev.sash ∧ s.dev.OthersKept d) := by
  obtain ⟨hsash, -, hlife, -, -, -, -, -⟩ := s.dev.received_facts out bytes m
  have hlink : bitAt (s.dev.received out bytes m).sash.links 0 = true := hsash ▸ Dev.link_of_down hdown hway hup
  have hsent := (s.dev.received out bytes m).respond_onlySends (m.answer s.dev.sash.addr 3 0 false [])
  have hserved : (s.dev.received out bytes m).acceptRequest m
      = (s.dev.received out bytes m).respond (m.answer s.dev.sash.addr 3 0 false []) := by
    rw [Dev.acceptRequest_busy hbody (Dev.heldCount_congr hsash ▸ hheld), hsash]
  obtain ⟨hs, -, -, hreacts, hpipes, -, -, -⟩ := hsent.facts
  refine lands_of_arrives hlive hup hframe hm hway h hact ?_ ?_ ?_
  all_goals rw [hserved]
  · exact hreacts
  · exact hpipes
  · refine ⟨?_, hs.trans hsash, (s.dev.received_others out bytes m).trans hsent.others⟩
    rw [Dev.respond_out haddr hlink, Dev.sashMac_congr (d := s.dev) hlife]

section
variable (hact : s.dev.sashAct m = .write) (hbody : wellBodied m = true) (hheld : s.dev.heldCount < 8)
  (hhand : s.dev.life.handoff = none) (haddr : s.dev.sash.addr ≠ 0)
include hact hbody hheld hhand

omit hlive hup hframe hm hway in
theorem Dev.acceptRequest_write : (s.dev.received out bytes m).acceptRequest m
    = (s.dev.received out bytes m).serveWrite s.dev.sash.addr m := by
  obtain ⟨hsash, -, hlife, -, -, -, -, -⟩ := s.dev.received_facts out bytes m
  have htype : ¬ m.type = 1 := by
    rw [SashMsg.type_of_write hact]
    decide
  rw [Dev.acceptRequest_served hbody (Dev.heldCount_congr hsash ▸ hheld) (hlife ▸ hhand), if_neg htype, hsash]

include haddr

/-- A WRITE that only changes what is kept of an assembly, and is answered. -/
theorem sashWrite_lands_of {asm : Option Assembly} {a : SashMsg} (ha : a.src = s.dev.sash.addr)
    (hserved : (s.dev.received out bytes m).serveWrite s.dev.sash.addr m
      = ({ s.dev.received out bytes m with sash := { (s.dev.received out bytes m).sash with asm := asm } } : Dev).respond a) :
    Lands (.sashWrite out bytes) s (fun d =>
      d.out = (s.dev.received out bytes m).out ++ [Out.sash false (etherFrame sashGroup s.dev.sashMac a.payload)]
      ∧ d.sash.asm = asm ∧ s.dev.OthersKept d) := by
  obtain ⟨hsash, -, hlife, -, -, -, -, -⟩ := s.dev.received_facts out bytes m
  generalize he : ({ s.dev.received out bytes m with sash := { (s.dev.received out bytes m).sash with asm := asm } } : Dev) = e at hserved
  have hlink : bitAt e.sash.links 0 = true := by
    rw [← he]
    exact (congrArg (fun x : Sash => bitAt x.links 0) hsash).trans (Dev.link_of_down (SashMsg.down_of_act hact (.inr (.inl rfl))) hway hup)
  have hmac : e.sashMac = s.dev.sashMac := Dev.sashMac_congr (he ▸ hlife)
  have hsent := e.respond_onlySends a
  obtain ⟨hs, -, -, hreacts, hpipes, -, -, -⟩ := hsent.facts
  have haccepted := (Dev.acceptRequest_write (out := out) (bytes := bytes) hact hbody hheld hhand).trans hserved
  refine lands_of_arrives hlive hup hframe hm hway (k := fun d m => d.acceptRequest m) rfl hact ?_ ?_ ?_
  all_goals rw [haccepted]
  · rw [hreacts, ← he]
  · rw [hpipes, ← he]
  · refine ⟨?_, ?_, (s.dev.received_others out bytes m).trans (Dev.OthersKept.trans ?_ hsent.others)⟩
    · rw [Dev.respond_out (ha ▸ haddr) hlink, hmac, ← he]
    · rw [hs, ← he]
    · rw [← he]
      exact ⟨rfl, rfl, rfl, rfl⟩

omit haddr in
/-- A WRITE that comes whole, and need not be persisted, is written and then answered. -/
theorem sashWrite_brings (hprior : ∀ a, s.dev.sash.asm = some a → a.tid ≠ m.tid) (hoff : fieldAt m.body 4 4 = 0)
    (hwhole : ((m.body.drop 16).take (fieldAt m.body 12 2)).length = fieldAt m.body 8 4) (hrec : s.dev.recovering = false)
    (hindex : fieldAt m.body 0 2 ≠ 0x20B0)
    (hstored : writeJudge (fieldAt m.body 0 2) (fieldAt m.body 2 1) ((m.body.drop 16).take (fieldAt m.body 12 2)).length = .stored)
    (hkept : writePersists (fieldAt m.body 0 2) (fieldAt m.body 2 1) ((m.body.drop 16).take (fieldAt m.body 12 2)) = false) :
    Brings (.sashWrite out bytes) s (fun d =>
      d = ((({ s.dev.received out bytes m with sash := { (s.dev.received out bytes m).sash with asm := none } } : Dev).ocount
          O.DICT_WRITES 1).wake.writeObj (fieldAt m.body 0 2) (fieldAt m.body 2 1)
            ((m.body.drop 16).take (fieldAt m.body 12 2))).respond
        (m.answer s.dev.sash.addr 0 ((m.body.drop 16).take (fieldAt m.body 12 2)).length true [])) := by
  obtain ⟨hsash, hflds, -, -, -, -, -, -⟩ := s.dev.received_facts out bytes m
  have hrec' : ({ s.dev.received out bytes m with sash := { (s.dev.received out bytes m).sash with asm := none } } : Dev).recovering
      = false := by
    rw [← hrec]
    simp only [Dev.recovering, Dev.fget, hflds]
  refine serveAlways_brings (fun d => d.sashWrite out bytes) rfl ?_
  rw [Dev.sashWrite, Dev.sashArrives_of_act hlive hup hframe hm hway hact]
  refine (Dev.acceptRequest_write hact hbody hheld hhand).trans ?_
  rw [Dev.serveWrite_new (hsash ▸ hprior), if_pos hoff, if_neg (by omega), if_neg (by omega), objKey_div, objKey_mod,
    Dev.dictStore_answered hrec' hindex hstored hkept]
  rfl

end

/-- A CANCEL ends the contexts of its query and is remembered, unless CANCEL_RX is cleared. -/
theorem sashCancelRx_brings (hact : s.dev.sashAct m = .cancel) : Brings (.sashCancelRx out bytes) s (fun d =>
    (s.dev.oget O.CANCEL_RX = 0 → s.dev.OthersKept d)
    ∧ (s.dev.oget O.CANCEL_RX ≠ 0 →
      (∀ c, (s.dev.ctx c).prog.fabric = true → (s.dev.ctx c).prog.query = sliceAt m.body 0 16 →
        ((s.dev.ctx c).state = 2 ∨ (s.dev.ctx c).state = 4 → (s.dev.ctx c).ending ≠ some 0x0401 → (d.ctx c).state = 3)
        ∧ ((s.dev.ctx c).state = 5 → (d.ctx c).state = 7))
      ∧ cancelOf m.body ∈ d.net.remembered)
    ∧ d.oget O.SASH_CANCELS_RX = (s.dev.oget O.SASH_CANCELS_RX + 1) % 2 ^ (8 * O.SASH_CANCELS_RX.size)) := by
  have hobj : ∀ x : Obj, x.key ≠ O.SASH_FRAMES_RX.key → x.key ≠ O.SASH_FRAMES_RELAYED.key →
      (s.dev.received out bytes m).oget x = s.dev.oget x := fun x hrx hrel => by
    rw [Dev.received, Dev.oget_relay _ _ _ _ hrel, Dev.oget_ocount_ne _ _ hrx]
  have hcounted : ((s.dev.received out bytes m).ocount O.SASH_CANCELS_RX 1).oget O.SASH_CANCELS_RX
      = (s.dev.oget O.SASH_CANCELS_RX + 1) % 2 ^ (8 * O.SASH_CANCELS_RX.size) := by
    rw [Dev.oget_ocount, hobj _ (by decide) (by decide)]
  have hset : ((s.dev.received out bytes m).ocount O.SASH_CANCELS_RX 1).oget O.CANCEL_RX = s.dev.oget O.CANCEL_RX := by
    rw [Dev.oget_ocount_ne _ _ (by decide), hobj _ (by decide) (by decide)]
  have hothers := (s.dev.received_others out bytes m).trans (Dev.ocount_onlySends _ O.SASH_CANCELS_RX 1).others
  have hctx : ∀ c, ((s.dev.received out bytes m).ocount O.SASH_CANCELS_RX 1).ctx c = s.dev.ctx c :=
    Dev.ctx_congr (congrArg Pipes.ctxs hothers.1)
  have hrun : s.dev.sashCancelRx out bytes = if s.dev.oget O.CANCEL_RX = 0 then (s.dev.received out bytes m).ocount O.SASH_CANCELS_RX 1
      else ((s.dev.received out bytes m).ocount O.SASH_CANCELS_RX 1).cancelArrived m.body := by
    rw [Dev.sashCancelRx, Dev.sashArrives_of_act hlive hup hframe hm hway hact, ← hset]
    rfl
  refine serveAlways_brings (fun d => d.sashCancelRx out bytes) rfl ?_
  rw [hrun]
  generalize (s.dev.received out bytes m).ocount O.SASH_CANCELS_RX 1 = n at hcounted hothers hctx
  obtain ⟨hends, hremembered, hoget, -⟩ := n.cancelArrived_facts m.body
  split
  · next hoff => exact ⟨fun _ => hothers, fun h => absurd hoff h, hcounted⟩
  · next hon =>
    refine ⟨fun h => absurd h hon, fun _ => ⟨fun c hfabric hquery => ?_, hremembered⟩, (hoget _ (by decide) (by decide)).trans hcounted⟩
    rw [hends c, if_pos (Dev.mem_cancelled (hctx c ▸ hfabric) (hctx c ▸ hquery)), hctx c]
    exact ⟨Ctx.afterCancel_of_runs 0x0402, Ctx.afterCancel_of_parked 0x0402⟩

end

/-- Settles O52: a frame that R381 drops is only counted; any other is relayed and handed to its act. -/
theorem chainFramesAreServed : Obligations.ChainFramesAreServed := by
  unfold Obligations.ChainFramesAreServed
  intro s out bytes
  dsimp only
  intro hlive hup hframe
  refine ⟨fun hbad => ?_, fun m hm hway => ⟨?_, ?_, ?_, ?_, ?_, ?_⟩⟩
  · have hdropped : ∀ {i : Instr} {act : SashAct} {k : Dev → SashMsg → Dev},
        exec i s = serveAlways s (fun d => d.sashArrives act out bytes k) →
        Lands i s (fun d => d = (s.dev.ocount O.SASH_FRAMES_RX 1).ocount O.SASH_FRAMES_DROPPED 1) := fun h =>
      lands_of_always h (Dev.sashArrives_of_bad hlive hup hframe hbad _ _) (by simp) (by simp) rfl
    exact ⟨hdropped rfl, hdropped rfl, hdropped rfl, hdropped rfl, hdropped rfl⟩
  · exact sashRelay_lands hlive hup hframe hm hway
  · exact enumerate_lands hlive hup hframe hm hway
  · rintro hact ⟨hbody, hheld, hhand, haddr⟩ hoff
    exact sashRead_lands hlive hup hframe hm hway hact hbody hheld hhand haddr hoff
  · rintro hact ⟨hbody, hheld, hhand, haddr⟩ hprior
    have hsash : (s.dev.received out bytes m).sash = s.dev.sash := (s.dev.received_facts out bytes m).1
    have hnew := Dev.serveWrite_new (addr := s.dev.sash.addr) (hsash ▸ hprior)
    refine ⟨fun hoff => ?_, fun hoff hshort => ?_, ?_⟩
    · exact sashWrite_lands_of hlive hup hframe hm hway hact hbody hheld hhand haddr rfl (hnew.trans (if_neg hoff))
    · refine sashWrite_lands_of hlive hup hframe hm hway hact hbody hheld hhand haddr rfl ?_
      rw [hnew, if_pos hoff, if_neg (by omega), if_pos hshort]
    · exact sashWrite_brings hlive hup hframe hm hway hact hbody hheld hhand hprior
  · intro hbody hheld haddr
    exact ⟨fun hact => accept_busy_lands hlive hup hframe hm hway rfl hact (SashMsg.down_of_act hact (.inl rfl)) hbody hheld haddr,
      fun hact => accept_busy_lands hlive hup hframe hm hway rfl hact (SashMsg.down_of_act hact (.inr (.inl rfl))) hbody hheld haddr⟩
  · exact sashCancelRx_brings hlive hup hframe hm hway

end Sys2Proof.Machine

/-! ## Frames that go, and fabric timers (R352, R353, R360 to R363, R371, R372) -/

namespace Sys2Proof.Machine

/-! ### Frames that go out or are kept -/

/-- Two peers are reached the same way, and owed the same acknowledgement. -/
def Peer.SameWay (p q : Peer) : Prop := q.addr = p.addr ∧ q.mac = p.mac ∧ q.vlan = p.vlan ∧ q.rxSeq = p.rxSeq

theorem Peer.SameWay.refl (p : Peer) : p.SameWay p := ⟨rfl, rfl, rfl, rfl⟩

theorem Peer.SameWay.trans {p q r : Peer} (h : p.SameWay q) (k : q.SameWay r) : p.SameWay r :=
  ⟨k.1.trans h.1, k.2.1.trans h.2.1, k.2.2.1.trans h.2.2.1, k.2.2.2.trans h.2.2.2⟩

/-- Frames of two devices travel the same way. -/
def Dev.SameWays (w d : Dev) : Prop := d.life = w.life ∧ ∀ n, (w.peer n).SameWay (d.peer n)

theorem Dev.SameWays.refl (d : Dev) : d.SameWays d := ⟨rfl, fun _ => .refl _⟩

theorem Dev.SameWays.trans {d e t : Dev} (h : d.SameWays e) (k : e.SameWays t) : d.SameWays t :=
  ⟨k.1.trans h.1, fun n => (h.2 n).trans (k.2 n)⟩

theorem Dev.SameWays.of_net {d t : Dev} (hlife : t.life = d.life) (hpeers : t.net.peers = d.net.peers) : d.SameWays t :=
  ⟨hlife, fun n => by rw [Dev.peer, Dev.peer, hpeers]; exact .refl _⟩

theorem Dev.SameWays.carriage {w d : Dev} (h : w.SameWays d) (f : Frame) (port : Nat) : d.carriage f port = w.carriage f port := by
  obtain ⟨haddr, hmac, hvlan, -⟩ := h.2 f.dst
  have hoact : ∀ o, d.oact o = w.oact o := fun o => by rw [Dev.oact, Dev.oact, h.1]
  unfold Dev.carriage
  dsimp only
  rw [haddr, hmac, hvlan, hoact O.VLAN_ID, hoact O.IP_ADDR, hoact O.UDP_PORT]

/-- A frame has gone out, under the fields that device `w` sends under, or is kept. -/
def Dev.Goes (w d : Dev) (f : Frame) : Prop := (∃ port, Out.frame (w.carriage f port) f.bytes ∈ d.out) ∨ f ∈ d.net.txq

/-- Device `t` is `d` after more has been sent: what has gone out and what is kept stands, and nothing else moves. -/
structure Dev.Emits (d t : Dev) : Prop where
  flds : t.flds = d.flds
  halted : t.halted = d.halted
  pipes : t.pipes = d.pipes
  jamb : t.jamb = d.jamb
  mem : t.mem = d.mem
  host : t.host = d.host
  reacts : t.reacts = d.reacts
  out : ∃ l, t.out = d.out ++ l
  kept : ∀ f ∈ d.net.txq, f ∈ t.net.txq
  ways : d.SameWays t

theorem Dev.Emits.refl (d : Dev) : d.Emits d :=
  ⟨rfl, rfl, rfl, rfl, rfl, rfl, rfl, ⟨[], by rw [List.append_nil]⟩, fun _ h => h, .refl d⟩

theorem Dev.Emits.trans {d e t : Dev} (h : d.Emits e) (k : e.Emits t) : d.Emits t where
  flds := k.flds.trans h.flds
  halted := k.halted.trans h.halted
  pipes := k.pipes.trans h.pipes
  jamb := k.jamb.trans h.jamb
  mem := k.mem.trans h.mem
  host := k.host.trans h.host
  reacts := k.reacts.trans h.reacts
  out := by
    obtain ⟨l, hl⟩ := h.out
    obtain ⟨r, hr⟩ := k.out
    exact ⟨l ++ r, by rw [hr, hl, List.append_assoc]⟩
  kept f hf := k.kept f (h.kept f hf)
  ways := h.ways.trans k.ways

theorem Dev.Emits.goes {w d t : Dev} {f : Frame} (h : d.Emits t) (hf : w.Goes d f) : w.Goes t f := by
  obtain ⟨l, hl⟩ := h.out
  rcases hf with ⟨port, hport⟩ | hkept
  · exact .inl ⟨port, hl ▸ List.mem_append_left _ hport⟩
  · exact .inr (h.kept f hkept)

theorem Dev.putOnWire_emits (d : Dev) (f : Frame) : d.Emits (d.putOnWire f) := by
  have hkeep : d.Emits { d with net := { d.net with txq := d.net.txq ++ [f] } } :=
    ⟨rfl, rfl, rfl, rfl, rfl, rfl, rfl, ⟨[], by rw [List.append_nil]⟩, fun _ h => List.mem_append_left _ h, .of_net rfl rfl⟩
  unfold Dev.putOnWire
  split
  · next p _ =>
    split
    · exact hkeep
    · refine ⟨?_, ?_, ?_, ?_, ?_, ?_, ?_, ⟨[Out.frame (d.carriage f p) f.bytes], ?_⟩, ?_, .of_net ?_ ?_⟩ <;> simp [Dev.emit]
  · exact hkeep

/-- A frame that is put on the wire goes. -/
theorem Dev.putOnWire_goes {w d : Dev} (h : w.SameWays d) (f : Frame) : w.Goes (d.putOnWire f) f := by
  unfold Dev.putOnWire
  split
  · next p _ =>
    split
    · exact .inr (List.mem_append_right _ (List.mem_singleton_self _))
    · refine .inl ⟨p, ?_⟩
      rw [← h.carriage]
      exact List.mem_append_right _ (List.mem_singleton_self _)
  · exact .inr (List.mem_append_right _ (List.mem_singleton_self _))

/-- What is written of a peer leaves the way to it. -/
theorem Dev.setPeer_sameWays {d : Dev} {n : Nat} {p : Peer} (h : (d.peer n).SameWay p) : d.SameWays (d.setPeer n p) := by
  refine ⟨rfl, fun k => ?_⟩
  by_cases hk : k = n
  · subst hk
    rw [Dev.peer_setPeer]
    exact h
  · rw [Dev.peer_setPeer_ne _ _ hk]
    exact .refl _

theorem Dev.setPeer_emits {d : Dev} {n : Nat} {p : Peer} (h : (d.peer n).SameWay p) : d.Emits (d.setPeer n p) :=
  ⟨rfl, rfl, rfl, rfl, rfl, rfl, rfl, ⟨[], by rw [List.append_nil]; rfl⟩, fun _ h => h, Dev.setPeer_sameWays h⟩

theorem Dev.takeCredit_emits (d : Dev) (flow node : Nat) : d.Emits (d.takeCredit flow node).2 := by
  unfold Dev.takeCredit
  split
  · exact .refl d
  · exact ⟨rfl, rfl, rfl, rfl, rfl, rfl, rfl, ⟨[], by rw [List.append_nil]⟩, fun _ h => h, .of_net rfl rfl⟩

/-- A frame as it is sent: with the sender's node, an acknowledgement, credit and a number of the stream. -/
def Frame.SentAs (f g : Frame) (ack : Nat) : Prop := ∃ src credits fseq, g = { f with src := src, ack := ack, credits := credits, fseq := fseq }

/-- What SEND makes of a frame, and of its peer. -/
theorem Dev.sendFrame_split {d : Dev} (hup : d.netUp = true) (hrun : d.halted = false) (f : Frame) :
    ∃ e g p, d.Emits e ∧ d.sendFrame f = (e.setPeer f.dst p).putOnWire g ∧ f.SentAs g (d.peer f.dst).rxSeq
      ∧ (e.peer f.dst).SameWay p ∧ p.ackDue = false := by
  have hcredit : d.Emits (if f.flow = 0 ∨ f.type = 7 then (0, d) else d.takeCredit f.flow f.dst).2 := by
    split
    · exact .refl d
    · exact d.takeCredit_emits _ _
  have hsend : ¬ (d.netUp = false ∨ d.halted = true) := by simp [hup, hrun]
  unfold Dev.sendFrame
  rw [if_neg hsend]
  dsimp only
  generalize (if f.flow = 0 ∨ f.type = 7 then (0, d) else d.takeCredit f.flow f.dst) = c at hcredit
  have hack : (c.2.peer f.dst).rxSeq = (d.peer f.dst).rxSeq := (hcredit.ways.2 f.dst).2.2.2
  refine ⟨c.2, _, _, hcredit, rfl, ⟨c.2.nodeId, c.1, if f.sequenced then (c.2.peer f.dst).txSeq else 0, ?_⟩, ?_, ?_⟩
  · rw [← hack]
  · exact iteInduction (motive := fun p => (c.2.peer f.dst).SameWay p) (fun _ => ⟨rfl, rfl, rfl, rfl⟩) fun _ => ⟨rfl, rfl, rfl, rfl⟩
  · exact iteInduction (motive := fun p : Peer => p.ackDue = false) (fun _ => rfl) fun _ => rfl

theorem Dev.sendFrame_emits (d : Dev) (f : Frame) : d.Emits (d.sendFrame f) := by
  by_cases hsend : d.netUp = false ∨ d.halted = true
  · rw [Dev.sendFrame, if_pos hsend]
    exact .refl d
  · simp only [not_or, Bool.not_eq_false, Bool.not_eq_true] at hsend
    obtain ⟨e, g, p, he, hf, -, hway, -⟩ := Dev.sendFrame_split hsend.1 hsend.2 f
    rw [hf]
    exact (he.trans (Dev.setPeer_emits hway)).trans (Dev.putOnWire_emits _ _)

/-- A frame that is sent goes, with the acknowledgement its peer is owed; none is owed then. -/
theorem Dev.sendFrame_goes {w d : Dev} (hup : d.netUp = true) (hrun : d.halted = false) (h : w.SameWays d) (f : Frame) :
    (∃ g, w.Goes (d.sendFrame f) g ∧ f.SentAs g (w.peer f.dst).rxSeq) ∧ ((d.sendFrame f).peer f.dst).ackDue = false := by
  obtain ⟨e, g, p, he, hf, hg, hway, hdue⟩ := Dev.sendFrame_split hup hrun f
  rw [hf]
  refine ⟨⟨g, Dev.putOnWire_goes ((h.trans he.ways).trans (Dev.setPeer_sameWays hway)) g, (h.2 f.dst).2.2.2 ▸ hg⟩, ?_⟩
  have hpeers : ((e.setPeer f.dst p).putOnWire g).net.peers = (e.setPeer f.dst p).net.peers := by
    unfold Dev.putOnWire
    split
    · split <;> rfl
    · rfl
  rw [Dev.peer, hpeers, ← Dev.peer, Dev.peer_setPeer, hdue]

theorem Dev.emits_foldl {α : Type} {f : Dev → α → Dev} (hf : ∀ (d : Dev) a, d.Emits (f d a)) (l : List α) (d : Dev) :
    d.Emits (l.foldl f d) :=
  foldl_keeps (fun e => d.Emits e) f (fun e a he => he.trans (hf e a)) l d (.refl d)

/-- Where each step sends a frame for its element, as far as that is of the elements in question, each one's frame goes in the end. -/
theorem Dev.goes_foldl_of {α : Type} {f : Dev → α → Dev} {w d₀ : Dev} {Q : α → Prop} {P : α → Frame → Prop}
    (hf : ∀ (d : Dev) a, d.Emits (f d a)) (hgo : ∀ d a, Q a → d₀.Emits d → ∃ g, w.Goes (f d a) g ∧ P a g) :
    ∀ (l : List α) (d : Dev), d₀.Emits d → ∀ a ∈ l, Q a → ∃ g, w.Goes (l.foldl f d) g ∧ P a g
  | [], _, _, _, ha, _ => absurd ha List.not_mem_nil
  | b :: l, d, hd, a, ha, hQ => by
    rcases List.mem_cons.mp ha with rfl | hl
    · obtain ⟨g, hg, hP⟩ := hgo d a hQ hd
      exact ⟨g, (Dev.emits_foldl hf l (f d a)).goes hg, hP⟩
    · exact Dev.goes_foldl_of hf hgo l (f d b) (hd.trans (hf d b)) a hl hQ

/-- Where each step sends a frame for its element, every element's frame goes in the end. -/
theorem Dev.goes_foldl {α : Type} {f : Dev → α → Dev} {w d₀ : Dev} {P : α → Frame → Prop} (hf : ∀ (d : Dev) a, d.Emits (f d a))
    (hgo : ∀ d a, d₀.Emits d → ∃ g, w.Goes (f d a) g ∧ P a g) (l : List α) (d : Dev) (hd : d₀.Emits d) :
    ∀ a ∈ l, ∃ g, w.Goes (l.foldl f d) g ∧ P a g := fun a ha =>
  Dev.goes_foldl_of (Q := fun _ => True) hf (fun d a _ => hgo d a) l d hd a ha trivial

/-- A device with no frame kept. -/
def Dev.unqueued (d : Dev) : Dev := { d with net := { d.net with txq := [] } }

/-- Frames that were kept go when the wire is drained. -/
theorem Dev.drainWire_goes {w d : Dev} (h : w.SameWays d) {f : Frame} (hf : f ∈ d.net.txq) : w.Goes d.drainWire f := by
  obtain ⟨g, hg, rfl⟩ := Dev.goes_foldl (w := w) (P := fun a g => a = g) (d₀ := d.unqueued) Dev.putOnWire_emits
    (fun e a he => ⟨a, Dev.putOnWire_goes (h.trans ((Dev.SameWays.of_net rfl rfl).trans he.ways)) a, rfl⟩) d.net.txq d.unqueued
    (.refl _) f hf
  exact hg

/-! ### Timers (R360 to R362) -/

/-- A device whose sequenced frames for a peer are taken out of the queue, to be sent again: one more round. -/
def Dev.anotherRound (d : Dev) (n : Nat) : Dev :=
  (({ d with net := { d.net with txq := d.net.txq.filter (fun f => !(f.sequenced && f.dst == n)) } } : Dev).setPeer n
    { d.peer n with rounds := (d.peer n).rounds + 1, ackDue := false }).ocount O.RETRANSMITS 1

theorem Dev.anotherRound_facts (d : Dev) (n : Nat) :
    let t := d.anotherRound n
    d.SameWays t ∧ t.peer n = { d.peer n with rounds := (d.peer n).rounds + 1, ackDue := false }
      ∧ t.oget O.RETRANSMITS = (d.oget O.RETRANSMITS + 1) % 2 ^ (8 * O.RETRANSMITS.size) ∧ t.pipes = d.pipes ∧ t.mem = d.mem
      ∧ t.host = d.host ∧ t.reacts = d.reacts := by
  have hpeer : (d.anotherRound n).peer n = { d.peer n with rounds := (d.peer n).rounds + 1, ackDue := false } := by
    rw [Dev.anotherRound, Dev.ocount, Dev.peer_oput, Dev.peer_setPeer]
  refine ⟨⟨by rw [Dev.anotherRound, Dev.ocount_life]; rfl, fun k => ?_⟩, hpeer, ?_, ?_, ?_, ?_, ?_⟩
  · by_cases hk : k = n
    · rw [hk, hpeer]
      exact ⟨rfl, rfl, rfl, rfl⟩
    · rw [Dev.anotherRound, Dev.ocount, Dev.peer_oput, Dev.peer_setPeer_ne _ _ hk]
      exact .refl _
  · rw [Dev.anotherRound, Dev.oget_ocount]
    rfl
  all_goals
    rw [Dev.anotherRound]
    simp

theorem Dev.putOnWire_peer (d : Dev) (f : Frame) (n : Nat) : (d.putOnWire f).peer n = d.peer n := by
  unfold Dev.putOnWire
  split
  · split
    · rfl
    · simp [Dev.peer]
  · rfl

/-- R360: all that a peer has not acknowledged goes out again, and the round is counted. -/
theorem Dev.retransmit_facts {d : Dev} {n : Nat} (hleft : (d.peer n).unacked ≠ []) (hrun : d.halted = false) :
    let t := d.retransmit n
    ((∀ f ∈ (d.peer n).unacked, d.Goes t { f with ack := (d.peer n).rxSeq }) ∧ (t.peer n).unacked = (d.peer n).unacked
      ∧ (t.peer n).rounds = (d.peer n).rounds + 1
      ∧ t.oget O.RETRANSMITS = (d.oget O.RETRANSMITS + 1) % 2 ^ (8 * O.RETRANSMITS.size)
      ∧ t.pipes = d.pipes ∧ t.mem = d.mem ∧ t.host = d.host) ∧ t.reacts = d.reacts := by
  let resend : Dev → Frame → Dev := fun e f => e.putOnWire { f with ack := (d.peer n).rxSeq }
  have ht : d.retransmit n = (d.peer n).unacked.foldl resend (d.anotherRound n) := by
    rw [Dev.retransmit, if_neg (by simp [hleft, hrun])]
    rfl
  obtain ⟨hways, hpeer, hcount, hpipes, hmem, hhost, hreacts⟩ := d.anotherRound_facts n
  have hemits := Dev.emits_foldl (f := resend) (fun e f => e.putOnWire_emits _) (d.peer n).unacked (d.anotherRound n)
  have hsends := Dev.sendsOut_foldl (f := resend) (fun e f => e.putOnWire_sendsOut _) (d.peer n).unacked (d.anotherRound n)
  have hsame : ((d.peer n).unacked.foldl resend (d.anotherRound n)).peer n = (d.anotherRound n).peer n :=
    foldl_keeps (fun e : Dev => e.peer n = (d.anotherRound n).peer n) resend (fun e f he => (Dev.putOnWire_peer _ _ _).trans he) _ _ rfl
  intro t
  rw [show t = _ from ht]
  refine ⟨⟨fun f hf => ?_, ?_, ?_, ?_, hemits.pipes.trans hpipes, hemits.mem.trans hmem, hemits.host.trans hhost⟩,
    hemits.reacts.trans hreacts⟩
  · obtain ⟨g, hg, rfl⟩ := Dev.goes_foldl (w := d) (P := fun f g => { f with ack := (d.peer n).rxSeq } = g)
      (d₀ := d.anotherRound n) (fun e f => e.putOnWire_emits _)
      (fun e f he => ⟨_, Dev.putOnWire_goes (hways.trans he.ways) _, rfl⟩) (d.peer n).unacked _ (.refl _) f hf
    exact hg
  · rw [hsame, hpeer]
  · rw [hsame, hpeer]
  · rw [hsends.2 _ (by decide) (by decide), hcount]

/-- R360: what is owed to a peer goes out in a CREDIT frame. -/
theorem Dev.creditAck_facts {d : Dev} {n : Nat} (hup : d.netUp = true) (hrun : d.halted = false) (hdue : (d.peer n).ackDue = true) :
    let t := d.creditAck n
    ((∃ f : Frame, d.Goes t f ∧ f.type = 3 ∧ f.dst = n ∧ f.ack = (d.peer n).rxSeq) ∧ (t.peer n).ackDue = false
      ∧ t.pipes = d.pipes ∧ t.mem = d.mem ∧ t.host = d.host) ∧ t.reacts = d.reacts := by
  obtain ⟨f, hf, htype, hdst⟩ : ∃ f : Frame, d.creditAck n = d.sendFrame f ∧ f.type = 3 ∧ f.dst = n := by
    unfold Dev.creditAck
    rw [if_neg (by simp [hdue])]
    exact ⟨_, rfl, rfl, rfl⟩
  have hemits := d.sendFrame_emits f
  obtain ⟨⟨g, hg, src, credits, fseq, hsent⟩, hpaid⟩ := Dev.sendFrame_goes hup hrun (.refl d) f
  intro t
  rw [show t = _ from hf]
  refine ⟨⟨⟨g, hg, ?_, ?_, ?_⟩, hdst ▸ hpaid, hemits.pipes, hemits.mem, hemits.host⟩, hemits.reacts⟩
  · rw [hsent, ← htype]
  · rw [hsent, ← hdst]
  · rw [hsent, hdst]

/-- R361: a peer that shares a flow is greeted. -/
theorem Dev.helloTimer_facts {d : Dev} {n : Nat} (hup : d.netUp = true) (hrun : d.halted = false) (hshares : d.sharesFlow n = true) :
    let t := d.helloTimer n
    ((∃ f : Frame, d.Goes t f ∧ f.type = 6 ∧ f.dst = n ∧ f.ack = (d.peer n).rxSeq)
      ∧ t.pipes = d.pipes ∧ t.mem = d.mem ∧ t.host = d.host) ∧ t.reacts = d.reacts := by
  let hello : Frame := { type := 6, cls := 6, src := 0, dst := n, epoch := d.net.epoch }
  have hf : d.helloTimer n = d.sendFrame hello := if_pos hshares
  have hemits := d.sendFrame_emits hello
  obtain ⟨⟨g, hg, src, credits, fseq, hsent⟩, -⟩ := Dev.sendFrame_goes hup hrun (.refl d) hello
  intro t
  rw [show t = _ from hf]
  exact ⟨⟨⟨g, hg, by rw [hsent], by rw [hsent], by rw [hsent]⟩, hemits.pipes, hemits.mem, hemits.host⟩, hemits.reacts⟩

/-! ### Cancels that go out (R371, R372) -/

/-- CANCEL frames go to each of their destinations. -/
theorem Dev.cancelFrames_goes {w d : Dev} (hup : d.netUp = true) (hrun : d.halted = false) (h : w.SameWays d) (i : CancelId)
    (dsts : List Nat) : ∀ k ∈ dsts, ∃ f : Frame, w.Goes (d.cancelFrames i dsts) f ∧ f.type = 8 ∧ f.cls = 7 ∧ f.dst = k ∧ f.payload = i.payload := by
  refine Dev.goes_foldl (w := w) (P := fun k (f : Frame) => f.type = 8 ∧ f.cls = 7 ∧ f.dst = k ∧ f.payload = i.payload) (d₀ := d)
    (fun e k => e.sendFrame_emits _) (fun e k he => ?_) dsts d (.refl d)
  have hup' : e.netUp = true := by rw [← hup, Dev.netUp, Dev.netUp, Dev.nodeId, Dev.nodeId, Dev.fget, Dev.fget, he.flds]
  obtain ⟨⟨g, hg, src, credits, fseq, hsent⟩, -⟩ := Dev.sendFrame_goes hup' (he.halted.trans hrun) (h.trans he.ways)
    { type := 8, cls := 7, src := 0, dst := k, epoch := e.net.epoch, payload := i.payload }
  exact ⟨g, hg, by rw [hsent], by rw [hsent], by rw [hsent], by rw [hsent]⟩

theorem Dev.cancelFrames_emits (d : Dev) (i : CancelId) (dsts : List Nat) : d.Emits (d.cancelFrames i dsts) :=
  Dev.emits_foldl (fun e _ => e.sendFrame_emits _) dsts d

theorem Dev.cancelFrames_sendsOut (d : Dev) (i : CancelId) (dsts : List Nat) : d.SendsOut (d.cancelFrames i dsts) :=
  Dev.sendsOut_foldl (fun e _ => e.sendFrame_sendsOut _) dsts d

/-- A change of what is kept of cancels moves nothing that goes. -/
theorem Dev.emits_cancels (d : Dev) (c : List (CancelId × List Nat)) (m : List CancelId) (r : List CancelSent) :
    d.Emits { d with net := { d.net with cancels := c, remembered := m, repeats := r } } :=
  ⟨rfl, rfl, rfl, rfl, rfl, rfl, rfl, ⟨[], by rw [List.append_nil]⟩, fun _ h => h, .of_net rfl rfl⟩

theorem Dev.cancelSend_goes {w d : Dev} (hup : d.netUp = true) (hrun : d.halted = false) (h : w.SameWays d) (i : CancelId)
    (dsts : List Nat) : ∀ k ∈ dsts, ∃ f : Frame, w.Goes (d.cancelSend i dsts) f ∧ f.type = 8 ∧ f.cls = 7 ∧ f.dst = k ∧ f.payload = i.payload := by
  intro k hk
  obtain ⟨f, hf, hfacts⟩ := Dev.cancelFrames_goes hup hrun h i dsts k hk
  refine ⟨f, ?_, hfacts⟩
  unfold Dev.cancelSend
  dsimp only
  rw [if_neg (List.ne_nil_of_mem hk)]
  exact (Dev.emits_cancels _ _ _ _).goes hf

theorem Dev.cancelSend_emits (d : Dev) (i : CancelId) (dsts : List Nat) : d.Emits (d.cancelSend i dsts) := by
  unfold Dev.cancelSend
  dsimp only
  split
  · exact d.cancelFrames_emits i dsts
  · exact (d.cancelFrames_emits i dsts).trans (Dev.emits_cancels _ _ _ _)

/-- A cancel is announced over the chain by frames alone. -/
theorem Dev.sashCancel_frame (d : Dev) (p : Bytes) : ∃ o l, d.sashCancel p = { d with objs := o, out := d.out ++ l } := by
  obtain ⟨o, l, h⟩ := d.sashSend_frame true { type := 0x20, dst := 0xFFF, src := d.sash.addr, body := p }
  obtain ⟨o', l', h'⟩ := (d.sashSend true { type := 0x20, dst := 0xFFF, src := d.sash.addr, body := p }).sashSend_frame false
    { type := 0x20, dst := 0xFFF, src := d.sash.addr, body := p, flags := 1 }
  refine ⟨o', l ++ l', ?_⟩
  unfold Dev.sashCancel
  dsimp only
  rw [h', h, List.append_assoc]

theorem Dev.sashCancel_emits (d : Dev) (p : Bytes) : d.Emits (d.sashCancel p) := by
  obtain ⟨o, l, h⟩ := d.sashCancel_frame p
  rw [h]
  exact ⟨rfl, rfl, rfl, rfl, rfl, rfl, rfl, ⟨l, rfl⟩, fun _ h => h, .of_net rfl rfl⟩

/-- R371: the cancel owed longest goes to its targets and is remembered. -/
theorem Dev.fabricCancelSend_facts {d : Dev} {i : CancelId} {dsts : List Nat} {rest : List (CancelId × List Nat)}
    (hup : d.netUp = true) (hrun : d.halted = false) (howed : d.net.cancels = (i, dsts) :: rest) :
    let t := d.fabricCancelSend
    ((∀ k ∈ dsts, ∃ f : Frame, d.Goes t f ∧ f.type = 8 ∧ f.cls = 7 ∧ f.dst = k ∧ f.payload = i.payload)
      ∧ t.net.cancels = rest ∧ i ∈ t.net.remembered ∧ t.pipes = d.pipes ∧ t.mem = d.mem ∧ t.host = d.host) ∧ t.reacts = d.reacts := by
  let known := if d.net.remembered.contains i then d.net.remembered else d.net.remembered ++ [i]
  have hknown : i ∈ known := by
    change i ∈ (if _ then _ else _)
    split
    · next h => exact List.contains_iff_mem.mp h
    · exact List.mem_append_right _ (List.mem_singleton_self _)
  let e : Dev := { d with net := { d.net with cancels := rest, remembered := known } }
  have he : d.Emits e := d.emits_cancels rest known d.net.repeats
  obtain ⟨u, n, hu, hsend⟩ := e.cancelSend_facts i dsts
  obtain ⟨p, q, r, hnet⟩ := hu.net
  have ht : d.fabricCancelSend = if (e.cancelSend i dsts).oget O.CANCEL_TX = 0 then e.cancelSend i dsts
      else (e.cancelSend i dsts).sashCancel i.payload := by
    unfold Dev.fabricCancelSend
    rw [howed]
    dsimp only
    rw [if_neg (by simp [hrun])]
  have hlast : (e.cancelSend i dsts).Emits d.fabricCancelSend ∧ d.fabricCancelSend.net = (e.cancelSend i dsts).net := by
    rw [ht]
    split
    · exact ⟨.refl _, rfl⟩
    · obtain ⟨o, l, h⟩ := (e.cancelSend i dsts).sashCancel_frame i.payload
      exact ⟨Dev.sashCancel_emits _ _, by rw [h]⟩
  have hall := (he.trans (e.cancelSend_emits i dsts)).trans hlast.1
  refine ⟨⟨fun k hk => ?_, ?_, ?_, hall.pipes, hall.mem, hall.host⟩, hall.reacts⟩
  · obtain ⟨f, hf, hfacts⟩ := Dev.cancelSend_goes (w := d) (d := e) hup hrun he.ways i dsts k hk
    exact ⟨f, hlast.1.goes hf, hfacts⟩
  · rw [hlast.2, hsend, hnet]
  · rw [hlast.2, hsend, hnet]
    exact hknown

/-- R372: a cancel sent before is sent again, and repeated once more at most. -/
theorem Dev.cancelRepeat_facts {d : Dev} {r : CancelSent} {rest : List CancelSent} (hup : d.netUp = true) (hrun : d.halted = false)
    (hsent : d.net.repeats = r :: rest) :
    let t := d.cancelRepeat
    ((∀ k ∈ r.dsts, ∃ f : Frame, d.Goes t f ∧ f.type = 8 ∧ f.cls = 7 ∧ f.dst = k ∧ f.payload = r.id.payload)
      ∧ t.net.repeats = rest ++ (if 1 < r.left then [{ r with left := r.left - 1 }] else [])
      ∧ t.pipes = d.pipes ∧ t.mem = d.mem ∧ t.host = d.host) ∧ t.reacts = d.reacts := by
  let e := d.cancelFrames r.id r.dsts
  let left := rest ++ (if 1 < r.left then [{ r with left := r.left - 1 }] else [])
  have ht : d.cancelRepeat = { e with net := { e.net with repeats := left } } := by
    unfold Dev.cancelRepeat
    rw [hsent]
    dsimp only
    rw [if_neg (by simp [hrun])]
  have hlast : e.Emits { e with net := { e.net with repeats := left } } := e.emits_cancels _ _ left
  have hall := (d.cancelFrames_emits r.id r.dsts).trans hlast
  intro t
  rw [show t = _ from ht]
  refine ⟨⟨fun k hk => ?_, rfl, hall.pipes, hall.mem, hall.host⟩, hall.reacts⟩
  obtain ⟨f, hf, hfacts⟩ := Dev.cancelFrames_goes hup hrun (.refl d) r.id r.dsts k hk
  exact ⟨f, hlast.goes hf, hfacts⟩

/-! ### Peers that are given up (R361) -/

/-- A peer that is lost is marked and counted, and its fault source raised. -/
def Dev.peerGone (d : Dev) (n : Nat) : Dev :=
  (((d.setPeer n { d.peer n with lost := true }).raiseVector (d.oget O.LOST_VECTOR)).ocount O.PEERS_LOST 1).faultRaise 466 0 false

theorem Dev.peerGone_facts (d : Dev) (n : Nat) :
    let t := d.peerGone n
    (t.peer n).lost = true ∧ t.oget O.PEERS_LOST = (d.oget O.PEERS_LOST + 1) % 2 ^ (8 * O.PEERS_LOST.size)
      ∧ t.pipes = d.pipes ∧ t.mem = d.mem ∧ t.host = d.host := by
  have hnet : (d.peerGone n).net = (d.setPeer n { d.peer n with lost := true }).net := by
    rw [Dev.peerGone, Dev.faultRaise_net, Dev.ocount_net, Dev.raiseVector_net]
  refine ⟨?_, ?_, ?_, ?_, ?_⟩
  · rw [Dev.peer, hnet, ← Dev.peer, Dev.peer_setPeer]
  · rw [Dev.peerGone, Dev.oget_faultRaise _ _ _ _ _ (by decide), Dev.oget_ocount, Dev.oget, Dev.raiseVector_objs]
    rfl
  all_goals
    rw [Dev.peerGone]
    simp

/-- R361: a peer is lost, and the pipelines of the fabric that it is a member of fail. -/
theorem Dev.peerLost_facts {d : Dev} {n : Nat} {silent : Bool} (hrun : d.halted = false) (hmember : n ∈ d.net.members)
    (hnew : (d.peer n).lost = false)
    (hdue : (if silent then d.sharesFlow n else !(d.peer n).unacked.isEmpty && decide (d.retxLimit ≤ (d.peer n).rounds)) = true) :
    let t := d.peerLost n silent
    (t.peer n).lost = true ∧ t.oget O.PEERS_LOST = (d.oget O.PEERS_LOST + 1) % 2 ^ (8 * O.PEERS_LOST.size)
      ∧ (∀ c, (d.ctx c).active = true → (d.ctx c).prog.fabric = true → (d.ctx c).ending = none → n ∈ (d.ctx c).members →
          (t.ctx c).ending = some 0x0501) ∧ t.mem = d.mem ∧ t.host = d.host := by
  have ht : d.peerLost n silent = ((d.peerGone n).cutPuts (fun k => k == n)).membersLost [n] := by
    unfold Dev.peerLost
    dsimp only
    rw [if_neg (by simp [hrun, hmember, hnew, hdue])]
    rfl
  obtain ⟨hlost, hcount, hpipes, hmem, hhost⟩ := d.peerGone_facts n
  obtain ⟨f, u, hcut⟩ := (d.peerGone n).cutPuts_frame (fun k => k == n)
  generalize (d.peerGone n).cutPuts (fun k => k == n) = e at ht hcut
  obtain ⟨hnet, p, b, h, w, hends⟩ := e.membersLost_frame [n]
  have hctx : ∀ c, e.ctx c = d.ctx c := Dev.ctx_congr (by rw [hcut, ← hpipes])
  intro t
  rw [show t = _ from ht]
  refine ⟨?_, ?_, fun c hact hfab hend hn => ?_, ?_, ?_⟩
  · rw [Dev.peer, hnet.facts.2.2, hcut]
    exact hlost
  · rw [hends, hcut]
    exact hcount
  · exact Dev.membersLost_ending (hctx c ▸ hact) (hctx c ▸ hfab) (hctx c ▸ hend) (hctx c ▸ hn) (List.mem_singleton_self n)
  · rw [hends, hcut]
    exact hmem
  · rw [hends, hcut]
    exact hhost

/-- Settles O50: every timer sends frames that go, or gives a peer up whose pipelines fail with it. -/
theorem fabricTimersSendAndGiveUp : Obligations.FabricTimersSendAndGiveUp := by
  unfold Obligations.FabricTimersSendAndGiveUp
  intro s node silent hs hrun
  dsimp only
  refine ⟨fun hleft => ?_, fun hup hdue => ?_, fun hup hshares => ?_, fun hshares => ?_, fun hmember hnew hdue => ?_, fun hidle => ?_,
    fun i dsts rest hup howed => ?_, fun r rest hup hsent => ?_, ?_⟩
  · obtain ⟨hfacts, hreacts⟩ := Dev.retransmit_facts hleft hrun
    exact lands_of_quiet (f := fun d => d.retransmit node.toNat) rfl hs hreacts hfacts.2.2.2.2.1 hfacts
  · obtain ⟨hfacts, hreacts⟩ := Dev.creditAck_facts hup hrun hdue
    exact lands_of_quiet (f := fun d => d.creditAck node.toNat) rfl hs hreacts hfacts.2.2.1 hfacts
  · obtain ⟨hfacts, hreacts⟩ := Dev.helloTimer_facts hup hrun hshares
    exact lands_of_quiet (f := fun d => d.helloTimer node.toNat) rfl hs hreacts hfacts.2.1 hfacts
  · have hstill : s.dev.helloTimer node.toNat = s.dev := if_neg (by simp [hshares])
    exact lands_of_quiet (f := fun d => d.helloTimer node.toNat) rfl hs (congrArg Dev.reacts hstill) (congrArg Dev.pipes hstill) hstill
  · exact brings_of (f := fun d => d.peerLost node.toNat silent) rfl hs (Dev.peerLost_facts hrun hmember hnew hdue)
  · have hstill : s.dev.peerLost node.toNat silent = s.dev := by
      unfold Dev.peerLost
      dsimp only
      refine if_pos (.inr ?_)
      simpa [List.contains_iff_mem] using hidle
    exact lands_of_quiet (f := fun d => d.peerLost node.toNat silent) rfl hs (congrArg Dev.reacts hstill) (congrArg Dev.pipes hstill) hstill
  · obtain ⟨hfacts, hreacts⟩ := Dev.fabricCancelSend_facts hup hrun howed
    exact lands_of_quiet (f := fun d => d.fabricCancelSend) rfl hs hreacts hfacts.2.2.2.1 hfacts
  · obtain ⟨hfacts, hreacts⟩ := Dev.cancelRepeat_facts hup hrun hsent
    exact lands_of_quiet (f := fun d => d.cancelRepeat) rfl hs hreacts hfacts.2.2.1 hfacts
  · exact gives_of (f := fun d => d.cancelForget) rfl hs rfl

end Sys2Proof.Machine

/-! ## Ports, PUT channels and SHUFFLE_OUT strips (R353, R363, R365, R374) -/

namespace Sys2Proof.Machine

/-! ### Links and pauses (R353, R363) -/

theorem Dev.drainWire_emits (d : Dev) : d.unqueued.Emits d.drainWire := Dev.emits_foldl Dev.putOnWire_emits _ _

theorem Dev.drainWire_sendsOut (d : Dev) : d.unqueued.SendsOut d.drainWire := Dev.sendsOut_foldl Dev.putOnWire_sendsOut _ _

/-- What drains of the wire moves of Transom only peers, kept frames and the credit of senders. -/
theorem Dev.drainWire_net (d : Dev) : ∃ p q r, d.drainWire.net = { d.net with peers := p, txq := q, rx := r } := by
  obtain ⟨p, q, r, h⟩ := d.drainWire_sendsOut.net
  exact ⟨p, q, r, h⟩

/-- A port's link is marked; one that goes down raises source 467. -/
def Dev.portMarked (d : Dev) (port : Nat) (up : Bool) : Dev :=
  let e : Dev := { d with net := { d.net with links := setBit d.net.links port up, paused := Sparse.set 0 d.net.paused port 0 } }
  if up then e else e.faultRaise 467 0 false

theorem Dev.portMarked_facts (d : Dev) (port : Nat) (up : Bool) :
    let t := d.portMarked port up
    t.net = { d.net with links := setBit d.net.links port up, paused := Sparse.set 0 d.net.paused port 0 } ∧ t.life = d.life
      ∧ t.pipes = d.pipes ∧ t.mem = d.mem := by
  unfold Dev.portMarked
  dsimp only
  split
  · exact ⟨rfl, rfl, rfl, rfl⟩
  · refine ⟨?_, ?_, ?_, ?_⟩ <;> simp

/-- R353: a link changes; nothing stays paused there, and what was kept goes. -/
theorem Dev.portLink_facts {d : Dev} {port : Nat} {up : Bool} (hchange : bitAt d.net.links port ≠ up) :
    let t := d.portLink port up
    bitAt t.net.links port = up ∧ Sparse.get 0 t.net.paused port = 0 ∧ (∀ f ∈ d.net.txq, d.Goes t f)
      ∧ (∀ k, k ≠ port → bitAt t.net.links k = bitAt d.net.links k) ∧ t.pipes = d.pipes ∧ t.mem = d.mem := by
  have ht : d.portLink port up = (d.portMarked port up).drainWire := by
    unfold Dev.portLink Dev.portMarked
    rw [if_neg hchange]
    cases up <;> rfl
  obtain ⟨hnet, hlife, hpipes, hmem⟩ := d.portMarked_facts port up
  have hgoes : ∀ f ∈ d.net.txq, d.Goes (d.portMarked port up).drainWire f := fun f hf =>
    Dev.drainWire_goes (.of_net hlife (by rw [hnet])) (by rw [hnet]; exact hf)
  have hemits := (d.portMarked port up).drainWire_emits
  obtain ⟨p, q, r, hdrained⟩ := (d.portMarked port up).drainWire_net
  intro t
  rw [show t = _ from ht, hdrained, hnet]
  dsimp only
  refine ⟨?_, ?_, hgoes, fun k hk => ?_, hemits.pipes.trans hpipes, hemits.mem.trans hmem⟩
  · rw [bitAt_setBit, if_pos rfl]
  · simp
  · rw [bitAt_setBit, if_neg hk]

theorem bitAt_foldl_setBit (g : Nat → Bool) (k : Nat) : ∀ (l : List Nat) (v : Nat),
    bitAt (l.foldl (fun v c => setBit v c (g c)) v) k = if k ∈ l then g k else bitAt v k
  | [], v => by simp
  | c :: l, v => by
    rw [List.foldl_cons, bitAt_foldl_setBit g k l, bitAt_setBit]
    by_cases hl : k ∈ l
    · simp [hl]
    · by_cases hk : k = c
      · simp [hk]
      · simp [hl, hk]

/-- R363: a pause frame sets the classes it names, and what was kept goes where it now can. -/
theorem Dev.pfcPause_facts {d : Dev} {port : Nat} (named paused : Nat) (hrun : d.halted = false) (hup : bitAt d.net.links port = true) :
    let t := d.pfcPause port named paused
    ((∀ k, k < 7 → bitAt (Sparse.get 0 t.net.paused port) k
        = if bitAt named k then bitAt paused k else bitAt (Sparse.get 0 d.net.paused port) k)
      ∧ (∀ f ∈ d.net.txq, d.Goes t f) ∧ t.pipes = d.pipes ∧ t.jamb = d.jamb ∧ t.mem = d.mem ∧ t.host = d.host) ∧ t.reacts = d.reacts := by
  let now := (setBits named 7).foldl (fun v c => setBit v c (bitAt paused c)) (Sparse.get 0 d.net.paused port)
  let e : Dev := { d with net := { d.net with paused := Sparse.set 0 d.net.paused port now } }
  have ht : d.pfcPause port named paused = e.drainWire := by
    unfold Dev.pfcPause
    rw [if_neg (by simp [hrun, hup])]
  have hemits := e.drainWire_emits
  obtain ⟨p, q, r, hdrained⟩ := e.drainWire_net
  intro t
  rw [show t = _ from ht, hdrained]
  refine ⟨⟨fun k hk => ?_, fun f hf => Dev.drainWire_goes (d := e) (.of_net rfl rfl) hf, hemits.pipes, hemits.jamb, hemits.mem,
    hemits.host⟩, hemits.reacts⟩
  change bitAt (Sparse.get 0 (Sparse.set 0 d.net.paused port now) port) k = _
  rw [Sparse.get_set_self, bitAt_foldl_setBit]
  simp only [mem_setBits, hk, true_and]

/-! ### PUT channels (R374) -/

theorem Dev.SendsOut.readsAs {d t : Dev} (h : d.SendsOut t) : t.ReadsAs d := by
  obtain ⟨⟨p, q, r, o, l, h⟩, -⟩ := h
  rw [h]
  exact ⟨rfl, rfl, rfl, rfl⟩

theorem Dev.Goes.of_sameWays {w d t : Dev} {f : Frame} (h : w.SameWays d) (hf : d.Goes t f) : w.Goes t f := by
  simpa only [Dev.Goes, h.carriage] using hf

theorem Dev.setPut_emits (d : Dev) (n : Nat) (x : Put) : d.Emits (d.setPut n x) :=
  ⟨rfl, rfl, rfl, rfl, rfl, rfl, rfl, ⟨[], by rw [List.append_nil]; rfl⟩, fun _ h => h, .of_net rfl rfl⟩

theorem Dev.putChan_setPut (d : Dev) (n : Nat) (x : Put) : (d.setPut n x).putChan n = x := by
  exact Sparse.get_set_self _ _ _ _

theorem Dev.netUp_congr {d e : Dev} (h : e.flds = d.flds) : e.netUp = d.netUp := by
  rw [Dev.netUp, Dev.netUp, Dev.nodeId, Dev.nodeId, Dev.fget, Dev.fget, h]

theorem Dev.payloadLimit_congr {d e : Dev} (h : e.life = d.life) : e.payloadLimit = d.payloadLimit := by
  rw [Dev.payloadLimit, Dev.payloadLimit, Dev.oact, Dev.oact, h]

theorem Dev.payloadLimit_pos (d : Dev) : 0 < d.payloadLimit := by
  unfold Dev.payloadLimit
  split <;> decide

/-- The next frame of a PUT channel. -/
def Dev.putFrame (d : Dev) (x : Put) : Frame :=
  { type := 4, cls := d.dataClass, src := 0, dst := x.node, epoch := d.net.epoch, tag := x.dst
    frag := x.sent / d.payloadLimit, off := x.sent
    payload := d.engBytes (x.src + x.sent) (min d.payloadLimit (x.len - x.sent))
    flags := b2n (decide (x.sent + min d.payloadLimit (x.len - x.sent) = x.len)) }

/-- A PUT channel sends its next frame. -/
def Dev.putNext (d : Dev) (n : Nat) : Dev :=
  let x := d.putChan n
  (d.sendFrame (d.putFrame x)).setPut n
    { x with sent := x.sent + min d.payloadLimit (x.len - x.sent), open_ := x.open_ ++ [x.sent] }

/-- A channel that may send, of bytes that are not poisoned, sends its next frame and goes on. -/
theorem Dev.pumpPut_next {d : Dev} {n : Nat} (k : Nat) (hbusy : (d.putChan n).busy = true)
    (hmore : (d.putChan n).sent < (d.putChan n).len) (hopen : (d.putChan n).open_.length < 64)
    (hclean : d.poisoned ((d.putChan n).src + (d.putChan n).sent) (min d.payloadLimit ((d.putChan n).len - (d.putChan n).sent)) = false) :
    d.pumpPut n (k + 1) = (d.putNext n).pumpPut n k := by
  rw [Dev.pumpPut]
  dsimp only
  rw [if_neg (by simp [hbusy]; omega), Dev.readSpace, if_pos rfl, if_neg (by simp [hclean])]
  rfl

theorem Dev.putNext_facts {d : Dev} (n : Nat) (hup : d.netUp = true) (hrun : d.halted = false) :
    let x := d.putChan n
    let t := d.putNext n
    d.Emits t ∧ t.ReadsAs d
      ∧ t.putChan n = { x with sent := x.sent + min d.payloadLimit (x.len - x.sent), open_ := x.open_ ++ [x.sent] }
      ∧ ∃ g, d.Goes t g ∧ (d.putFrame x).SentAs g (d.peer x.node).rxSeq := by
  have hreads := (d.sendFrame_sendsOut (d.putFrame (d.putChan n))).readsAs
  have hput := (d.sendFrame (d.putFrame (d.putChan n))).setPut_emits n
    { d.putChan n with sent := (d.putChan n).sent + min d.payloadLimit ((d.putChan n).len - (d.putChan n).sent)
                       open_ := (d.putChan n).open_ ++ [(d.putChan n).sent] }
  obtain ⟨⟨g, hg, hsent⟩, -⟩ := Dev.sendFrame_goes hup hrun (.refl d) (d.putFrame (d.putChan n))
  exact ⟨(d.sendFrame_emits _).trans hput, ⟨hreads.mem, hreads.ordering, hreads.host, hreads.hostBad⟩, Dev.putChan_setPut _ _ _,
    g, hput.goes hg, hsent⟩

/-- R374: what a PUT channel sends in k turns, while it has fewer than 64 frames outstanding and meets no poison. -/
theorem Dev.pumpPut_facts (n : Nat) : ∀ (k : Nat) (d : Dev), d.netUp = true → d.halted = false → (d.putChan n).busy = true →
    (d.putChan n).open_.length + k ≤ 64 → (d.putChan n).sent ≤ (d.putChan n).len →
    (∀ o j, o + j ≤ (d.putChan n).len → d.poisoned ((d.putChan n).src + o) j = false) →
    let x := d.putChan n
    let t := d.pumpPut n k
    d.Emits t ∧ (∃ l, t.putChan n = { x with sent := min x.len (x.sent + k * d.payloadLimit), open_ := l })
      ∧ ∀ i, i < k → x.sent + i * d.payloadLimit < x.len → ∃ f : Frame, d.Goes t f ∧ f.type = 4 ∧ f.dst = x.node
        ∧ f.off = x.sent + i * d.payloadLimit ∧ f.frag = (x.sent + i * d.payloadLimit) / d.payloadLimit
        ∧ f.payload = d.engBytes (x.src + (x.sent + i * d.payloadLimit)) (min d.payloadLimit (x.len - (x.sent + i * d.payloadLimit)))
  | 0, d, _, _, _, _, hle, _ => by
    refine ⟨.refl d, ⟨(d.putChan n).open_, ?_⟩, fun i hi => absurd hi (Nat.not_lt_zero i)⟩
    rw [Nat.zero_mul, Nat.add_zero, Nat.min_eq_right hle]
    rfl
  | k + 1, d, hup, hrun, hbusy, hopen, hle, hclean => by
    have hpos := d.payloadLimit_pos
    generalize hx : d.putChan n = x at *
    by_cases hdone : x.len ≤ x.sent
    · have hstop : d.pumpPut n (k + 1) = d := by
        rw [Dev.pumpPut, hx]
        exact if_pos (.inr (.inl hdone))
      dsimp only
      rw [hstop, hx]
      refine ⟨.refl d, ⟨x.open_, ?_⟩, fun i _ hi => by omega⟩
      rw [Nat.min_eq_left (by omega)]
      exact congrArg (fun k => { x with sent := k }) (Nat.le_antisymm hle hdone)
    · obtain ⟨hemits, hreads, hchan, g, hg, hsent⟩ := Dev.putNext_facts n hup hrun
      have hnext := Dev.pumpPut_next (d := d) (n := n) k (hx ▸ hbusy) (by rw [hx]; omega) (by rw [hx]; omega)
        (by rw [hx]; exact hclean x.sent _ (by omega))
      rw [hx] at hchan hsent
      have hlimit : (d.putNext n).payloadLimit = d.payloadLimit := Dev.payloadLimit_congr hemits.ways.1
      obtain ⟨hrest, ⟨l, hlast⟩, hframes⟩ := Dev.pumpPut_facts n k (d.putNext n) (by rw [Dev.netUp_congr hemits.flds, hup])
        (hemits.halted.trans hrun) (by rw [hchan]; exact hbusy) (by rw [hchan]; simp; omega) (by rw [hchan]; dsimp only; omega)
        (fun o j hoj => by
          rw [hchan] at hoj ⊢
          rw [hreads.poisoned]
          exact hclean o j hoj)
      rw [hchan, hlimit] at hlast hframes
      dsimp only at hlast hframes ⊢
      rw [hnext]
      refine ⟨hemits.trans hrest, ⟨l, ?_⟩, fun i hi hin => ?_⟩
      · rw [hlast]
        have hsum : (k + 1) * d.payloadLimit = k * d.payloadLimit + d.payloadLimit := Nat.succ_mul ..
        congr 1
        omega
      · cases i with
        | zero =>
          obtain ⟨src, credits, fseq, rfl⟩ := hsent
          refine ⟨_, hrest.goes hg, rfl, rfl, ?_, ?_, ?_⟩ <;> simp [Dev.putFrame]
        | succ i =>
          have hsum : (i + 1) * d.payloadLimit = i * d.payloadLimit + d.payloadLimit := Nat.succ_mul ..
          have hfull : min d.payloadLimit (x.len - x.sent) = d.payloadLimit := by omega
          have hoff : x.sent + d.payloadLimit + i * d.payloadLimit = x.sent + (i + 1) * d.payloadLimit := by omega
          obtain ⟨f, hf, hfacts⟩ := hframes i (by omega) (by rw [hfull, hoff]; exact hin)
          rw [hfull, hoff, hreads.engBytes] at hfacts
          exact ⟨f, hf.of_sameWays hemits.ways, hfacts⟩

/-- The fields that a command of a PUT channel writes. -/
def Dev.putAsked (d : Dev) (n node : Nat) (reg : Bool) : Dev := (d.fput (F.TR_PUT_CTL_NODE n) node).fputB (F.TR_PUT_CTL_DST_REG n) reg

theorem Dev.putAsked_facts (d : Dev) (n : Nat) {node : Nat} (reg : Bool) (hnode : node < 2 ^ 13) :
    let t := d.putAsked n node reg
    t.fget (F.TR_PUT_CTL_NODE n) = node ∧ t.fgetB (F.TR_PUT_CTL_DST_REG n) = reg
      ∧ t.fget (F.TR_PUT_SRC_LO_ADDR n) = d.fget (F.TR_PUT_SRC_LO_ADDR n) ∧ t.fget (F.TR_PUT_SRC_HI_ADDR n) = d.fget (F.TR_PUT_SRC_HI_ADDR n)
      ∧ t.fget (F.TR_PUT_LEN_LEN n) = d.fget (F.TR_PUT_LEN_LEN n) ∧ t.netUp = d.netUp := by
  have hother : ∀ f : Fld, f.key ≠ (F.TR_PUT_CTL_NODE n).key → f.key ≠ (F.TR_PUT_CTL_DST_REG n).key →
      (d.putAsked n node reg).fget f = d.fget f := fun f hn hr => by
    rw [Dev.putAsked, Dev.fget_fputB_ne _ _ hr, Dev.fget_fput_ne _ _ hn]
  refine ⟨?_, ?_, ?_, ?_, ?_, ?_⟩
  · rw [Dev.putAsked, Dev.fget_fputB_ne _ _ (by simp only [F.TR_PUT_CTL_NODE, F.TR_PUT_CTL_DST_REG, fldKey]; omega), Dev.fget_fput]
    exact Nat.mod_eq_of_lt hnode
  · rw [Dev.putAsked, Dev.fgetB, Dev.fget_fputB]
    cases reg <;> rfl
  · refine hother _ ?_ ?_ <;> simp only [F.TR_PUT_SRC_LO_ADDR, F.TR_PUT_CTL_NODE, F.TR_PUT_CTL_DST_REG, fldKey] <;> omega
  · refine hother _ ?_ ?_ <;> simp only [F.TR_PUT_SRC_HI_ADDR, F.TR_PUT_CTL_NODE, F.TR_PUT_CTL_DST_REG, fldKey] <;> omega
  · refine hother _ ?_ ?_ <;> simp only [F.TR_PUT_LEN_LEN, F.TR_PUT_CTL_NODE, F.TR_PUT_CTL_DST_REG, fldKey] <;> omega
  · have hnode' : (d.putAsked n node reg).fget F.TR_NODE_NODE = d.fget F.TR_NODE_NODE := by
      refine hother _ ?_ ?_ <;> simp only [F.TR_NODE_NODE, F.TR_PUT_CTL_NODE, F.TR_PUT_CTL_DST_REG, fldKey] <;> omega
    rw [Dev.netUp, Dev.netUp, Dev.nodeId, Dev.nodeId, hnode']

/-- R374: a PUT channel that ends is done, with ERR or without, and free. -/
theorem Dev.endPut_facts (d : Dev) (n : Nat) (err : Bool) :
    let t := d.endPut n err
    t.fget (F.TR_PUT_STAT_DONE n) = 1 ∧ (err = true → t.fget (F.TR_PUT_STAT_ERR n) = 1) ∧ t.putChan n = {}
      ∧ (t.pipes = d.pipes ∧ t.jamb = d.jamb ∧ t.mem = d.mem ∧ t.host = d.host) ∧ t.reacts = d.reacts := by
  have hchan : ∀ f, ({ d with flds := f, net := { d.net with puts := Sparse.set {} d.net.puts n {} } } : Dev).putChan n = {} := fun _ => by
    unfold Dev.putChan
    simp
  cases err with
  | false => exact ⟨by rw [Dev.endPut]; simp; rfl, fun h => Bool.noConfusion h, hchan _, ⟨rfl, rfl, rfl, rfl⟩, rfl⟩
  | true =>
    refine ⟨?_, fun _ => ?_, hchan _, ⟨rfl, rfl, rfl, rfl⟩, rfl⟩
    · rw [Dev.endPut]
      dsimp only
      rw [if_pos rfl, Dev.fget_fputB_ne _ _ (by simp only [F.TR_PUT_STAT_DONE, F.TR_PUT_STAT_ERR, fldKey]; omega), Dev.fget_fputB]
      rfl
    · rw [Dev.endPut]
      dsimp only
      rw [if_pos rfl, Dev.fget_fputB]
      rfl

/-- A PUT channel as it starts. -/
def Dev.putStart (d : Dev) (n node : Nat) (reg : Bool) : Put :=
  { busy := true, node := node, reg := reg
    src := d.fget (F.TR_PUT_SRC_LO_ADDR n) + d.fget (F.TR_PUT_SRC_HI_ADDR n) * 2 ^ 32
    dst := (d.putAsked n node reg).fget (F.TR_PUT_DST_LO_ADDR n) + (d.putAsked n node reg).fget (F.TR_PUT_DST_HI_ADDR n) * 2 ^ 32
    len := d.fget (F.TR_PUT_LEN_LEN n) }

section
variable {d : Dev} {n node : Nat} {reg : Bool} (hnode : node < 2 ^ 13) (hrun : d.halted = false) (hfree : (d.putChan n).busy = false)
include hnode hrun hfree

theorem Dev.putCommand_of_refused (h : d.netUp = false ∨ node ∉ d.net.members ∨ (d.peer node).lost = true) :
    d.putCommand n node reg = (d.putAsked n node reg).endPut n true := by
  obtain ⟨haim, -, -, -, -, hup⟩ := d.putAsked_facts n reg hnode
  change (d.putAsked n node reg).putGo n = _
  unfold Dev.putGo
  dsimp only
  rw [haim, hup, if_neg (by rintro (h | h) <;> simp_all [Dev.putAsked, Dev.putChan])]
  refine if_pos ?_
  rcases h with h | h | h
  · exact .inl h
  · exact .inr (.inl (by simpa [List.contains_iff_mem, Dev.putAsked] using h))
  · exact .inr (.inr (by simpa [Dev.putAsked, Dev.peer] using h))

theorem Dev.putCommand_of_member (h : ¬ (d.netUp = false ∨ node ∉ d.net.members ∨ (d.peer node).lost = true)) :
    d.putCommand n node reg = if d.fget (F.TR_PUT_LEN_LEN n) = 0 then (d.putAsked n node reg).endPut n false
      else ((d.putAsked n node reg).setPut n (d.putStart n node reg)).pumpPut n 64 := by
  obtain ⟨haim, hreg, hlo, hhi, hlen, hup⟩ := d.putAsked_facts n reg hnode
  change (d.putAsked n node reg).putGo n = _
  unfold Dev.putGo
  dsimp only
  rw [haim, hup, hlen, if_neg (by rintro (h | h) <;> simp_all [Dev.putAsked, Dev.putChan]), if_neg, hreg, hlo, hhi]
  · rfl
  · simpa [List.contains_iff_mem, Dev.putAsked, Dev.peer] using h

end

/-- What asking a PUT channel leaves. -/
theorem Dev.putAsked_frame (d : Dev) (n node : Nat) (reg : Bool) : ∃ f, d.putAsked n node reg = { d with flds := f } := ⟨_, rfl⟩

/-- R374: a channel whose target is no member ends with ERR. -/
theorem Dev.putCommand_refused_facts {d : Dev} {n node : Nat} {reg : Bool} (hnode : node < 2 ^ 13) (hrun : d.halted = false)
    (hfree : (d.putChan n).busy = false) (h : d.netUp = false ∨ node ∉ d.net.members ∨ (d.peer node).lost = true) :
    let t := d.putCommand n node reg
    (t.fget (F.TR_PUT_STAT_DONE n) = 1 ∧ t.fget (F.TR_PUT_STAT_ERR n) = 1 ∧ (t.putChan n).busy = false
      ∧ t.pipes = d.pipes ∧ t.jamb = d.jamb ∧ t.mem = d.mem ∧ t.host = d.host) ∧ t.reacts = d.reacts := by
  obtain ⟨hdone, herr, hchan, hidle, hreacts⟩ := (d.putAsked n node reg).endPut_facts n true
  intro t
  rw [show t = _ from Dev.putCommand_of_refused hnode hrun hfree h]
  exact ⟨⟨hdone, herr rfl, by rw [hchan], hidle⟩, hreacts⟩

/-- R374: a channel that is to send nothing ends at once. -/
theorem Dev.putCommand_empty_facts {d : Dev} {n node : Nat} {reg : Bool} (hnode : node < 2 ^ 13) (hrun : d.halted = false)
    (hfree : (d.putChan n).busy = false) (h : ¬ (d.netUp = false ∨ node ∉ d.net.members ∨ (d.peer node).lost = true))
    (hlen : d.fget (F.TR_PUT_LEN_LEN n) = 0) :
    let t := d.putCommand n node reg
    (t.fget (F.TR_PUT_STAT_DONE n) = 1 ∧ (t.putChan n).busy = false
      ∧ t.pipes = d.pipes ∧ t.jamb = d.jamb ∧ t.mem = d.mem ∧ t.host = d.host) ∧ t.reacts = d.reacts := by
  obtain ⟨hdone, -, hchan, hidle, hreacts⟩ := (d.putAsked n node reg).endPut_facts n false
  intro t
  rw [show t = _ from (Dev.putCommand_of_member hnode hrun hfree h).trans (if_pos hlen)]
  exact ⟨⟨hdone, by rw [hchan], hidle⟩, hreacts⟩

/-- R374: a channel with bytes to send starts with the frames it may send. -/
theorem Dev.putCommand_sends_facts {d : Dev} {n node : Nat} {reg : Bool} (hnode : node < 2 ^ 13) (hrun : d.halted = false)
    (hfree : (d.putChan n).busy = false) (h : ¬ (d.netUp = false ∨ node ∉ d.net.members ∨ (d.peer node).lost = true))
    (hlen : 0 < d.fget (F.TR_PUT_LEN_LEN n)) :
    let src := d.fget (F.TR_PUT_SRC_LO_ADDR n) + d.fget (F.TR_PUT_SRC_HI_ADDR n) * 2 ^ 32
    let len := d.fget (F.TR_PUT_LEN_LEN n)
    let limit := d.payloadLimit
    let t := d.putCommand n node reg
    (∀ o k, o + k ≤ len → d.poisoned (src + o) k = false) →
    ((t.putChan n).busy = true ∧ (t.putChan n).node = node ∧ (t.putChan n).reg = reg ∧ (t.putChan n).len = len
      ∧ (t.putChan n).sent = min len (64 * limit)
      ∧ (∀ i, i < 64 → i * limit < len → ∃ f : Frame, d.Goes t f ∧ f.type = 4 ∧ f.dst = node ∧ f.off = i * limit ∧ f.frag = i
          ∧ f.payload = d.engBytes (src + i * limit) (min limit (len - i * limit)))
      ∧ t.pipes = d.pipes ∧ t.jamb = d.jamb ∧ t.mem = d.mem ∧ t.host = d.host) ∧ t.reacts = d.reacts := by
  intro src len limit t hclean
  let e := (d.putAsked n node reg).setPut n (d.putStart n node reg)
  have ht : t = e.pumpPut n 64 := (Dev.putCommand_of_member hnode hrun hfree h).trans (if_neg (by omega))
  have hchan : e.putChan n = d.putStart n node reg := Dev.putChan_setPut _ _ _
  have hreads : e.ReadsAs d := ⟨rfl, rfl, rfl, rfl⟩
  have hlimit : e.payloadLimit = limit := Dev.payloadLimit_congr rfl
  have hup : e.netUp = true := by
    have hasked := (d.putAsked_facts n reg hnode).2.2.2.2.2
    exact hasked.trans (by simpa using fun hdown => h (.inl hdown))
  obtain ⟨hemits, ⟨l, hlast⟩, hframes⟩ := Dev.pumpPut_facts n 64 e hup hrun (by rw [hchan]; rfl) (by rw [hchan]; exact le_rfl)
    (by rw [hchan]; exact Nat.zero_le _) (fun o k hok => by
      rw [hchan] at hok ⊢
      rw [hreads.poisoned]
      exact hclean o k hok)
  rw [hchan, hlimit] at hlast hframes
  rw [ht]
  refine ⟨⟨?_, ?_, ?_, ?_, ?_, fun i hi hil => ?_, hemits.pipes, hemits.jamb, hemits.mem, hemits.host⟩, hemits.reacts⟩
  · rw [hlast]; rfl
  · rw [hlast]; rfl
  · rw [hlast]; rfl
  · rw [hlast]; rfl
  · rw [hlast]
    change min len (0 + 64 * limit) = _
    rw [Nat.zero_add]
  · have hsent : (d.putStart n node reg).sent + i * limit = i * limit := Nat.zero_add _
    have hframe := hframes i hi
    rw [hsent] at hframe
    obtain ⟨f, hf, htype, hdst, hoff, hfrag, hpayload⟩ := hframe hil
    refine ⟨f, hf.of_sameWays (.of_net rfl rfl), htype, hdst, hoff, ?_, ?_⟩
    · rw [hfrag, Nat.mul_div_cancel _ d.payloadLimit_pos]
    · rw [hpayload, hreads.engBytes]
      rfl

/-- R374: a channel that is busy takes no notice. -/
theorem Dev.putCommand_busy_facts {d : Dev} {n node : Nat} {reg : Bool} (hbusy : (d.putChan n).busy = true) :
    let t := d.putCommand n node reg
    (t.net = d.net ∧ t.pipes = d.pipes ∧ t.jamb = d.jamb ∧ t.mem = d.mem ∧ t.host = d.host) ∧ t.reacts = d.reacts := by
  have ht : d.putCommand n node reg = d.putAsked n node reg := if_pos (.inr hbusy)
  intro t
  rw [show t = _ from ht]
  exact ⟨⟨rfl, rfl, rfl, rfl, rfl⟩, rfl⟩

/-! ### SHUFFLE_OUT (R365) -/

theorem Dev.txFlow_congr {d e : Dev} (h : e.net.tx = d.net.tx) (c n : Nat) : e.txFlow c n = d.txFlow c n := by
  rw [Dev.txFlow, Dev.txFlow, h]

theorem Dev.SendsOut.txFlow {d t : Dev} (h : d.SendsOut t) (c n : Nat) : t.txFlow c n = d.txFlow c n := by
  obtain ⟨p, q, r, hnet⟩ := h.net
  exact Dev.txFlow_congr (by rw [hnet]) c n

/-- A change of a SHUFFLE_OUT's flow is what is read of it. -/
theorem Dev.txFlow_mapTx (d : Dev) (c n : Nat) {f : TxFlow → TxFlow} (hctx : ∀ t, (f t).ctx = t.ctx) (hnode : ∀ t, (f t).node = t.node) :
    (d.mapTx c n f).txFlow c n = (d.txFlow c n).map f := by
  have hfind : ∀ l : List TxFlow, (l.map (fun t => if t.ctx = c ∧ t.node = n then f t else t)).find? (fun t => decide (t.ctx = c ∧ t.node = n))
      = (l.find? (fun t => decide (t.ctx = c ∧ t.node = n))).map f := fun l => by
    induction l with
    | nil => rfl
    | cons t l ih =>
      by_cases ht : t.ctx = c ∧ t.node = n
      · simp [ht, hctx, hnode]
      · simp only [List.map_cons, if_neg ht, List.find?_cons, decide_eq_false ht, ih]
  exact hfind d.net.tx

theorem Dev.mapTx_emits (d : Dev) (c n : Nat) (f : TxFlow → TxFlow) : d.Emits (d.mapTx c n f) :=
  ⟨rfl, rfl, rfl, rfl, rfl, rfl, rfl, ⟨[], by rw [List.append_nil]; rfl⟩, fun _ h => h, .of_net rfl rfl⟩

theorem Dev.nodeId_congr {d e : Dev} (h : e.flds = d.flds) : e.nodeId = d.nodeId := by rw [Dev.nodeId, Dev.nodeId, Dev.fget, Dev.fget, h]

section
variable {d : Dev} {c n : Nat} {t : TxFlow} (hup : d.netUp = true) (hrun : d.halted = false) (ht : d.txFlow c n = some t)
include hup hrun ht

/-- R365: of a strip of another node go the fragments that credit allows. -/
theorem Dev.sendStrip_facts {x : TxStrip} (hstrips : t.strips = [x]) (hdst : x.dst ≠ d.nodeId) (hsent : x.sent = 0) (epoch : Nat) :
    let limit := d.payloadLimit
    let count := ceilDiv x.bytes.length limit
    let k := min (Sparse.get 0 t.credit x.dst) count
    let s := d.sendStrip c n t.flow epoch x
    d.Emits s
      ∧ (∃ u, s.txFlow c n = some u ∧ u.strips = (if count ≤ k then [] else [{ x with sent := k }])
        ∧ Sparse.get 0 u.credit x.dst = Sparse.get 0 t.credit x.dst - k ∧ u.inputOver = t.inputOver)
      ∧ ∀ i, i < k → ∃ f : Frame, d.Goes s f ∧ f.type = 1 ∧ f.dst = x.dst ∧ f.flow = t.flow ∧ f.tag = x.num ∧ f.frag = i
        ∧ f.epoch = epoch ∧ f.payload = (x.bytes.drop (i * limit)).take limit := by
  intro limit count k s
  let step : Dev → Nat → Dev := fun e i => e.sendFrame (e.fragment t.flow epoch x i)
  let after : TxFlow → TxFlow := fun t => { t with
    credit := Sparse.set 0 t.credit x.dst (Sparse.get 0 t.credit x.dst - k)
    strips := if count ≤ k then t.strips.filter (fun y => decide (y.dst ≠ x.dst ∨ y.num ≠ x.num))
      else t.strips.map (fun y => if y.dst = x.dst ∧ y.num = x.num then { y with sent := y.sent + k } else y) }
  have hs : s = ((List.range k).foldl step d).mapTx c n after := by
    change d.sendStrip c n t.flow epoch x = _
    unfold Dev.sendStrip
    simp only [hdst, decide_false, Bool.false_eq_true, if_false, ht, hsent, Option.map_some, Option.getD_some, Nat.sub_zero, Nat.zero_add]
    rfl
  have hemits : d.Emits ((List.range k).foldl step d) := Dev.emits_foldl (fun e i => e.sendFrame_emits _) _ d
  have hsends : d.SendsOut ((List.range k).foldl step d) := Dev.sendsOut_foldl (fun e i => e.sendFrame_sendsOut _) _ d
  have hflow : s.txFlow c n = some (after t) := by
    rw [hs, Dev.txFlow_mapTx (f := after) _ _ _ (fun _ => rfl) (fun _ => rfl), hsends.txFlow, ht]
    rfl
  refine ⟨hs ▸ hemits.trans (Dev.mapTx_emits _ _ _ _), ⟨after t, hflow, ?_, Sparse.get_set_self _ _ _ _, rfl⟩, fun i hi => ?_⟩
  · change (if count ≤ k then _ else _) = _
    rw [hstrips]
    split
    · simp
    · simp [hsent]
  · obtain ⟨f, hf, hfacts⟩ := Dev.goes_foldl (w := d) (d₀ := d) (f := step) (P := fun i (f : Frame) => f.type = 1 ∧ f.dst = x.dst ∧ f.flow = t.flow
        ∧ f.tag = x.num ∧ f.frag = i ∧ f.epoch = epoch ∧ f.payload = (x.bytes.drop (i * limit)).take limit)
      (fun e i => e.sendFrame_emits _) (fun e i he => by
        obtain ⟨⟨g, hg, src, credits, fseq, rfl⟩, -⟩ := Dev.sendFrame_goes (w := d) ((Dev.netUp_congr he.flds).trans hup)
          (he.halted.trans hrun) he.ways (e.fragment t.flow epoch x i)
        have hlimit : e.payloadLimit = limit := Dev.payloadLimit_congr he.ways.1
        refine ⟨_, hg, rfl, rfl, rfl, rfl, rfl, rfl, ?_⟩
        rw [Dev.fragment, hlimit]) (List.range k) d (.refl d) i (List.mem_range.mpr hi)
    exact ⟨f, by rw [hs]; exact (Dev.mapTx_emits _ _ _ _).goes hf, hfacts⟩

/-- R365: a closed strip goes as far as credit allows, while the input goes on. -/
theorem Dev.stripSend_strip {x : TxStrip} (hopen : t.inputOver = false) (hstrips : t.strips = [x]) (hdst : x.dst ≠ d.nodeId)
    (hsent : x.sent = 0) : d.stripSend c n = d.sendStrip c n t.flow (d.ctx c).epoch x := by
  obtain ⟨-, ⟨u, hu, -, -, hover⟩, -⟩ := Dev.sendStrip_facts hup hrun ht hstrips hdst hsent (d.ctx c).epoch
  unfold Dev.stripSend
  simp only [ht, hrun, Bool.false_eq_true, if_false, hstrips, List.foldl_cons, List.foldl_nil]
  rw [Dev.sendEnds, hu]
  exact if_pos (hover.trans hopen)

end

/-! ### END (R365, R369) -/

theorem Dev.endIn_emits (d : Dev) (src : Nat) (f : Frame) : d.Emits (d.endIn src f) := by
  unfold Dev.endIn
  split
  · constructor <;> simp [Dev.SameWays.of_net]
  · exact ⟨rfl, rfl, rfl, rfl, rfl, rfl, rfl, ⟨[], by rw [List.append_nil]; rfl⟩, fun _ h => h, .of_net rfl rfl⟩

theorem Dev.endIn_txFlow (d : Dev) (src : Nat) (f : Frame) (c n : Nat) : (d.endIn src f).txFlow c n = d.txFlow c n := by
  unfold Dev.endIn
  split
  · exact Dev.txFlow_congr (by simp) c n
  · rfl

/-- The END that a destination has not had goes to it. -/
def Dev.endTo (c n epoch : Nat) (t : TxFlow) (d : Dev) (k : Nat) : Dev :=
  if t.ended.contains k = true then d
  else
    let f : Frame := { type := 2, cls := d.dataClass, src := d.nodeId, dst := k, epoch := epoch, flow := t.flow, tag := Sparse.get 0 t.counts k }
    (if k = d.nodeId then d.endIn k f else d.sendFrame f).mapTx c n (fun t => { t with ended := t.ended ++ [k] })

theorem Dev.endTo_emits (c n epoch : Nat) (t : TxFlow) (d : Dev) (k : Nat) : d.Emits (d.endTo c n epoch t k) := by
  unfold Dev.endTo
  split
  · exact .refl d
  · dsimp only
    refine Dev.Emits.trans (e := if k = d.nodeId then _ else _) ?_ (Dev.mapTx_emits _ _ _ _)
    split
    · exact d.endIn_emits _ _
    · exact d.sendFrame_emits _

/-- A destination that has had its END is noted with the others. -/
theorem Dev.endTo_txFlow {c n epoch : Nat} {t u : TxFlow} {d : Dev} (k : Nat) (hu : d.txFlow c n = some u) (hsub : t.ended ⊆ u.ended) :
    ∃ v, (d.endTo c n epoch t k).txFlow c n = some v ∧ u.ended ⊆ v.ended ∧ k ∈ v.ended := by
  unfold Dev.endTo
  split
  · next h => exact ⟨u, hu, List.Subset.refl _, hsub (List.contains_iff_mem.mp h)⟩
  · have hsame : ∀ f : Frame, (if k = d.nodeId then d.endIn k f else d.sendFrame f).txFlow c n = some u := fun f => by
      split
      · rw [Dev.endIn_txFlow, hu]
      · rw [(d.sendFrame_sendsOut f).txFlow, hu]
    refine ⟨{ u with ended := u.ended ++ [k] }, ?_, List.subset_append_left _ _, List.mem_append_right _ (List.mem_singleton_self k)⟩
    dsimp only
    rw [Dev.txFlow_mapTx (f := fun t => { t with ended := t.ended ++ [k] }) _ _ _ (fun _ => rfl) (fun _ => rfl), hsame]
    rfl

theorem Dev.endTo_foldl_txFlow {c n epoch : Nat} {t : TxFlow} : ∀ (l : List Nat) (d : Dev) (u : TxFlow), d.txFlow c n = some u →
    t.ended ⊆ u.ended → ∃ v, (l.foldl (Dev.endTo c n epoch t) d).txFlow c n = some v ∧ u.ended ⊆ v.ended ∧ ∀ k ∈ l, k ∈ v.ended
  | [], d, u, hu, _ => ⟨u, hu, List.Subset.refl _, fun _ h => absurd h List.not_mem_nil⟩
  | k :: l, d, u, hu, hsub => by
    obtain ⟨v, hv, huv, hk⟩ := Dev.endTo_txFlow (epoch := epoch) k hu hsub
    obtain ⟨w, hw, hvw, hl⟩ := Dev.endTo_foldl_txFlow l _ v hv (List.Subset.trans hsub huv)
    refine ⟨w, hw, List.Subset.trans huv hvw, fun j hj => ?_⟩
    rcases List.mem_cons.mp hj with rfl | hj
    · exact hvw hk
    · exact hl j hj

/-- R365: END goes to every destination, once the input has ended and the strips have gone. -/
theorem Dev.stripSend_ends {d : Dev} {c n : Nat} {t : TxFlow} (hup : d.netUp = true) (hrun : d.halted = false)
    (ht : d.txFlow c n = some t) (hover : t.inputOver = true) (hstrips : t.strips = []) :
    let nodes := shuffleNodes ((d.ctx c).prog.node n).param
    let s := d.stripSend c n
    ((∃ u, s.txFlow c n = some u ∧ ∀ k ∈ nodes, k ∈ u.ended)
      ∧ (∀ k ∈ nodes, k ≠ d.nodeId → k ∉ t.ended → ∃ f : Frame, d.Goes s f ∧ f.type = 2 ∧ f.dst = k ∧ f.flow = t.flow
        ∧ f.tag = Sparse.get 0 t.counts k)
      ∧ s.pipes = d.pipes ∧ s.jamb = d.jamb ∧ s.mem = d.mem ∧ s.host = d.host) ∧ s.reacts = d.reacts := by
  intro nodes s
  have hs : s = nodes.foldl (Dev.endTo c n (d.ctx c).epoch t) d := by
    change d.stripSend c n = _
    unfold Dev.stripSend Dev.sendEnds
    simp only [ht, hrun, Bool.false_eq_true, if_false, hstrips, List.foldl_nil, hover, Bool.true_eq_false, List.any_nil, or_false]
    rfl
  have hemits : d.Emits s := hs ▸ Dev.emits_foldl (Dev.endTo_emits c n (d.ctx c).epoch t) nodes d
  obtain ⟨u, hu, -, hended⟩ := Dev.endTo_foldl_txFlow (epoch := (d.ctx c).epoch) nodes d t ht (List.Subset.refl _)
  refine ⟨⟨⟨u, hs ▸ hu, hended⟩, fun k hk hother hnew => ?_, hemits.pipes, hemits.jamb, hemits.mem, hemits.host⟩, hemits.reacts⟩
  have hgo : ∀ (e : Dev) (k : Nat), k ≠ d.nodeId ∧ k ∉ t.ended → d.Emits e → ∃ g, d.Goes (e.endTo c n (d.ctx c).epoch t k) g
      ∧ (g.type = 2 ∧ g.dst = k ∧ g.flow = t.flow ∧ g.tag = Sparse.get 0 t.counts k) := fun e k ⟨hother, hnew⟩ he => by
    obtain ⟨⟨g, hg, src, credits, fseq, hsent⟩, -⟩ := Dev.sendFrame_goes (w := d) ((Dev.netUp_congr he.flds).trans hup)
      (he.halted.trans hrun) he.ways { type := 2, cls := e.dataClass, src := e.nodeId, dst := k, epoch := (d.ctx c).epoch, flow := t.flow
                                       tag := Sparse.get 0 t.counts k }
    refine ⟨g, ?_, by rw [hsent], by rw [hsent], by rw [hsent], by rw [hsent]⟩
    unfold Dev.endTo
    rw [if_neg (by simpa [List.contains_iff_mem] using hnew), Dev.nodeId_congr he.flds]
    dsimp only
    rw [if_neg hother, ← Dev.nodeId_congr he.flds]
    exact (Dev.mapTx_emits _ _ _ _).goes hg
  rw [hs]
  exact Dev.goes_foldl_of (Dev.endTo_emits c n (d.ctx c).epoch t) hgo nodes d (.refl d) k hk ⟨hother, hnew⟩

/-- Settles O51: links and pauses drain what was kept, and channels and strips send frame after frame. -/
theorem portsPutsAndShufflesMove : Obligations.PortsPutsAndShufflesMove := by
  unfold Obligations.PortsPutsAndShufflesMove
  intro s port up named paused ch node reg c n t
  dsimp only
  intro hs
  have hport : 1 - port.toNat ≠ port.toNat := by omega
  refine ⟨fun hchange => ?_, fun hrun hup => ?_, fun hrun hfree => ⟨fun hrefused => ?_, fun hmember hlen => ?_, fun hmember hlen hclean => ?_⟩,
    fun hrun hbusy => ?_, fun hrun hup ht => ⟨fun x hopen hstrips hdst hsent => ?_, fun hover hstrips => ?_⟩⟩
  · obtain ⟨hself, hpaused, hgoes, hother, hpipes, hmem⟩ := Dev.portLink_facts hchange
    exact brings_of (f := fun d => d.portLink port.toNat up) rfl hs ⟨hself, hpaused, hgoes, hother _ hport, hpipes, hmem⟩
  · obtain ⟨hfacts, hreacts⟩ := Dev.pfcPause_facts named.toNat paused.toNat hrun hup
    exact lands_of_quiet (f := fun d => d.pfcPause port.toNat named.toNat paused.toNat) rfl hs hreacts hfacts.2.2.1 hfacts
  · obtain ⟨hfacts, hreacts⟩ := Dev.putCommand_refused_facts (reg := reg) node.isLt hrun hfree hrefused
    exact lands_of_quiet (f := fun d => d.putCommand ch.toNat node.toNat reg) rfl hs hreacts hfacts.2.2.2.1 hfacts
  · obtain ⟨hfacts, hreacts⟩ := Dev.putCommand_empty_facts (reg := reg) node.isLt hrun hfree hmember hlen
    exact lands_of_quiet (f := fun d => d.putCommand ch.toNat node.toNat reg) rfl hs hreacts hfacts.2.2.1 hfacts
  · obtain ⟨hfacts, hreacts⟩ := Dev.putCommand_sends_facts (reg := reg) node.isLt hrun hfree hmember hlen hclean
    exact lands_of_quiet (f := fun d => d.putCommand ch.toNat node.toNat reg) rfl hs hreacts hfacts.2.2.2.2.2.2.1 hfacts
  · obtain ⟨hfacts, hreacts⟩ := Dev.putCommand_busy_facts (node := node.toNat) (reg := reg) hbusy
    exact lands_of_quiet (f := fun d => d.putCommand ch.toNat node.toNat reg) rfl hs hreacts hfacts.2.1 hfacts
  · obtain ⟨hemits, ⟨u, hu, hleft, hcredit, -⟩, hframes⟩ := Dev.sendStrip_facts hup hrun ht hstrips hdst hsent (s.dev.ctx c.toNat).epoch
    have hsend := Dev.stripSend_strip hup hrun ht hopen hstrips hdst hsent
    rw [← hsend] at hemits hu hframes
    exact lands_of_quiet (f := fun d => d.stripSend c.toNat n.toNat) rfl hs hemits.reacts hemits.pipes
      ⟨⟨u, hu, hleft, hcredit⟩, hframes, hemits.pipes, hemits.jamb, hemits.mem, hemits.host⟩
  · obtain ⟨hfacts, hreacts⟩ := Dev.stripSend_ends hup hrun ht hover hstrips
    exact lands_of_quiet (f := fun d => d.stripSend c.toNat n.toNat) rfl hs hreacts hfacts.2.2.1 hfacts

end Sys2Proof.Machine

/-! ## Fabric frames that are received (R357 to R362, R368, R369, R372, R374) -/

namespace Sys2Proof.Machine

/-! ### A frame that arrives (R358, R360) -/

/-- A frame is counted. -/
def Dev.frameCounted (d : Dev) (bytes : Bytes) : Dev := (d.ocount O.FRAMES_RX 1).ocount O.BYTES_RX bytes.length

theorem Dev.receive_of_bad {d : Dev} {type port : Nat} {good : Bool} {bytes : Bytes} (hrun : d.halted = false)
    (hlink : bitAt d.net.links port = true) (hup : d.netUp = true) (hbad : good = false ∨ parseFrame bytes = none)
    (k : Dev → Frame → Dev) : d.receive type port good bytes k = (d.frameCounted bytes).frameDrop := by
  unfold Dev.receive
  rw [if_neg (by simp [hrun, hlink])]
  dsimp only
  rw [if_neg (by simp [hup])]
  rcases hbad with hbad | hbad
  · rw [if_pos hbad]
    rfl
  · rw [hbad]
    split <;> rfl

theorem Dev.receive_of_frame {d : Dev} {port : Nat} {bytes : Bytes} {f : Frame} (hrun : d.halted = false)
    (hlink : bitAt d.net.links port = true) (hup : d.netUp = true) (hf : parseFrame bytes = some f) (hdst : f.dst = d.nodeId)
    (hsrc : f.src ∈ d.net.members) (k : Dev → Frame → Dev) :
    d.receive f.type port true bytes k = k ((d.frameCounted bytes).acked f.src f.ack) f := by
  unfold Dev.receive
  rw [if_neg (by simp [hrun, hlink])]
  dsimp only
  rw [if_neg (by simp [hup]), if_neg (by decide), hf]
  dsimp only
  rw [if_neg (by simp), if_neg (by simp [hdst, hsrc])]
  rfl

/-- The frames of a stream that an acknowledgement leaves. -/
def Peer.leftOf (p : Peer) (ack : Nat) : List Frame := p.unacked.filter (fun g => decide ((g.fseq + 2 ^ 32 - ack) % 2 ^ 32 < 2 ^ 31))

/-- An acknowledgement takes frames out of the stream. -/
theorem Dev.acked_facts (d : Dev) (n ack : Nat) :
    (∃ p, d.acked n ack = { d with net := { d.net with peers := p } }) ∧ ((d.acked n ack).peer n).unacked = (d.peer n).leftOf ack
      ∧ ((d.acked n ack).peer n).rxSeq = (d.peer n).rxSeq := by
  unfold Dev.acked
  dsimp only
  split
  · next h => exact ⟨⟨d.net.peers, rfl⟩, (List.filter_eq_self.mpr (List.length_filter_eq_length_iff.mp h)).symm, rfl⟩
  · exact ⟨⟨_, rfl⟩, by rw [Dev.peer_setPeer]; rfl, by rw [Dev.peer_setPeer]⟩

/-- The engine as a frame finds it: awake, the frame counted, what it acknowledges taken out. -/
def Dev.arrived (d : Dev) (bytes : Bytes) (f : Frame) : Dev := (d.wake.frameCounted bytes).acked f.src f.ack

theorem Dev.arrived_facts (d : Dev) (bytes : Bytes) (f : Frame) :
    let t := d.arrived bytes f
    (∃ o p, t = { d.wake with objs := o, net := { d.net with peers := p } })
      ∧ (t.peer f.src).unacked = (d.peer f.src).leftOf f.ack ∧ (t.peer f.src).rxSeq = (d.peer f.src).rxSeq
      ∧ ∀ x : Obj, x.key ≠ O.FRAMES_RX.key → x.key ≠ O.BYTES_RX.key → t.oget x = d.oget x := by
  have hnet : (d.wake.frameCounted bytes).net = d.net := by simp [Dev.frameCounted]
  have hpeer : ∀ n, (d.wake.frameCounted bytes).peer n = d.peer n := fun n => by rw [Dev.peer, hnet, Dev.peer]
  obtain ⟨⟨p, h⟩, hleft, hseq⟩ := (d.wake.frameCounted bytes).acked_facts f.src f.ack
  refine ⟨⟨(d.wake.frameCounted bytes).objs, p, ?_⟩, by rw [Dev.arrived, hleft, hpeer], by rw [Dev.arrived, hseq, hpeer],
    fun x hf hb => ?_⟩
  · rw [Dev.arrived, h, hnet]
    rfl
  · rw [Dev.arrived, h]
    change (d.wake.frameCounted bytes).oget x = _
    rw [Dev.frameCounted, Dev.oget_ocount_ne _ _ hb, Dev.oget_ocount_ne _ _ hf, Dev.oget, Dev.wake_objs, Dev.oget]

/-- Pipelines, commands and the host stand still. -/
def Dev.StandsStill (d t : Dev) : Prop := t.pipes = d.pipes ∧ t.jamb = d.jamb ∧ t.host = d.host

/-- The frames that a frame acknowledges have left their stream. -/
def Dev.Acked (d : Dev) (f : Frame) (t : Dev) : Prop := (t.peer f.src).unacked = (d.peer f.src).leftOf f.ack

/-- ... and the frame itself has been taken as the next of its own. -/
def Dev.Next (d : Dev) (f : Frame) (t : Dev) : Prop :=
  d.Acked f t ∧ (t.peer f.src).rxSeq = ((d.peer f.src).rxSeq + 1) % 2 ^ 32

theorem Dev.arrived_still (d : Dev) (bytes : Bytes) (f : Frame) :
    d.StandsStill (d.arrived bytes f) ∧ (d.arrived bytes f).reacts = d.reacts ∧ (d.arrived bytes f).net.rx = d.net.rx
      ∧ (d.arrived bytes f).net.tx = d.net.tx ∧ (d.arrived bytes f).net.puts = d.net.puts := by
  obtain ⟨⟨o, p, h⟩, -⟩ := d.arrived_facts bytes f
  rw [h]
  exact ⟨⟨d.wake_pipes, d.wake_jamb, d.wake_host⟩, d.wake_reacts, rfl, rfl, rfl⟩

/-- A frame that is taken as the next of its stream. -/
def Dev.taken (d : Dev) (f : Frame) : Dev :=
  d.setPeer f.src { d.peer f.src with rxSeq := ((d.peer f.src).rxSeq + 1) % 2 ^ 32, ackDue := true, ackFlow := f.flow }

theorem Dev.accept_of_next {d : Dev} {f : Frame} (h : f.fseq = (d.peer f.src).rxSeq) : d.accept f = some (d.taken f) := if_pos h

theorem Dev.accept_of_other {d : Dev} {f : Frame} (h : f.fseq ≠ (d.peer f.src).rxSeq) : d.accept f = none := if_neg h

theorem Dev.taken_peer (d : Dev) (f : Frame) :
    ((d.taken f).peer f.src).unacked = (d.peer f.src).unacked ∧ ((d.taken f).peer f.src).rxSeq = ((d.peer f.src).rxSeq + 1) % 2 ^ 32 := by
  rw [Dev.taken, Dev.peer_setPeer]
  exact ⟨rfl, rfl⟩

/-! ### Flows and their epochs (R357, R362) -/

theorem Dev.flowCtx_congr {d e : Dev} (htx : e.net.tx = d.net.tx) (hrx : e.net.rx = d.net.rx) (flow : Nat) : e.flowCtx flow = d.flowCtx flow := by
  simp only [Dev.flowCtx, Dev.rxFlow, htx, hrx]

theorem Dev.rxFlow_congr {d e : Dev} (hrx : e.net.rx = d.net.rx) (flow : Nat) : e.rxFlow flow = d.rxFlow flow := by
  rw [Dev.rxFlow, Dev.rxFlow, hrx]

/-- A frame of the local pipeline's epoch, or of no flow that runs, goes on. -/
theorem Dev.epochGuard_of_same {d : Dev} {f : Frame} (h : ∀ c, d.flowCtx f.flow = some c → (d.ctx c).epoch = f.epoch) (k : Dev → Dev) :
    d.epochGuard f k = k d := by
  unfold Dev.epochGuard
  split
  · rfl
  · next c hc => exact if_pos (h c hc).symm

theorem Dev.epochGuard_of_other {d : Dev} {f : Frame} {c : Nat} (hc : d.flowCtx f.flow = some c) (h : (d.ctx c).epoch ≠ f.epoch)
    (k : Dev → Dev) : ∃ g, d.epochGuard f k = (d.sendFrame g).failCtx c 0x0502 := by
  unfold Dev.epochGuard
  rw [hc]
  dsimp only
  rw [if_neg (Ne.symm h)]
  exact ⟨_, rfl⟩

/-- The sender of a flow at a node. -/
def Dev.sender (d : Dev) (flow node : Nat) : Option RxSender := (d.rxFlow flow).bind (fun r => r.senders.find? (fun x => x.node = node))

/-- A flow with a sender changed. -/
def RxFlow.mapSender (r : RxFlow) (node : Nat) (g : RxSender → RxSender) : RxFlow :=
  { r with senders := r.senders.map (fun s => if s.node = node then g s else s) }

theorem Dev.rxFlow_mapSender (d : Dev) (flow node : Nat) (g : RxSender → RxSender) :
    (d.mapSender flow node g).rxFlow flow = (d.rxFlow flow).map (fun r => r.mapSender node g) := by
  have hfind : ∀ l : List RxFlow, (l.map (fun r => if r.flow = flow then r.mapSender node g else r)).find? (fun r => r.flow = flow)
      = (l.find? (fun r => r.flow = flow)).map (fun r => r.mapSender node g) := fun l => by
    induction l with
    | nil => rfl
    | cons r l ih =>
      by_cases hr : r.flow = flow
      · simp [hr, RxFlow.mapSender]
      · simp only [List.map_cons, if_neg hr, List.find?_cons, decide_eq_false hr, ih]
  exact hfind d.net.rx

theorem RxFlow.find_mapSender (r : RxFlow) (node : Nat) {g : RxSender → RxSender} (hg : ∀ s, (g s).node = s.node) :
    (r.mapSender node g).senders.find? (fun x => x.node = node) = (r.senders.find? (fun x => x.node = node)).map g := by
  have hfind : ∀ l : List RxSender, (l.map (fun s => if s.node = node then g s else s)).find? (fun x => x.node = node)
      = (l.find? (fun x => x.node = node)).map g := fun l => by
    induction l with
    | nil => rfl
    | cons s l ih =>
      by_cases hs : s.node = node
      · simp [hs, hg]
      · simp only [List.map_cons, if_neg hs, List.find?_cons, decide_eq_false hs, ih]
  exact hfind r.senders

theorem RxSender.place_node (s : RxSender) (f : Frame) : (s.place f).node = s.node := by
  unfold RxSender.place
  split <;> rfl

section
variable {d : Dev} {flow node : Nat} {r : RxFlow} {x : RxSender} (hr : d.rxFlow flow = some r)
  (hx : r.senders.find? (fun x => x.node = node) = some x)
include hr hx

theorem Dev.mapSender_finds {g : RxSender → RxSender} (hg : ∀ s, (g s).node = s.node) :
    (d.mapSender flow node g).rxFlow flow = some (r.mapSender node g)
      ∧ (r.mapSender node g).senders.find? (fun x => x.node = node) = some (g x) := by
  rw [Dev.rxFlow_mapSender, hr, RxFlow.find_mapSender _ _ hg, hx]
  exact ⟨rfl, rfl⟩

/-- R368: a fragment joins its strip, and what is whole is emitted. -/
theorem Dev.dataIn_of_sender {f : Frame} (hf : f.flow = flow) :
    d.dataIn node f = (d.mapSender flow node (fun s => s.place f)).emitReceived flow node (x.place f).strips.length := by
  obtain ⟨hrx, hfind⟩ := Dev.mapSender_finds hr hx (g := fun s => s.place f) (fun s => s.place_node f)
  subst hf
  unfold Dev.dataIn
  rw [hr]
  dsimp only
  rw [hrx]
  simp only [hfind, Option.map_some, Option.getD_some]

/-- A sender whose next strip is not whole emits nothing. -/
theorem Dev.emitReceived_of_unready (h : x.ready = none) (k : Nat) : d.emitReceived flow node k = d := by
  cases k with
  | zero => rfl
  | succ k =>
    unfold Dev.emitReceived
    rw [hr]
    dsimp only
    rw [hx]
    dsimp only
    rw [h]

/-- A strip of the schema expected is put before the SHUFFLE_IN. -/
theorem Dev.emitReceived_one {z : RxStrip} {v : Bytes} (h : x.ready = some (z, v)) (hnode : r.node < (d.ctx r.ctx).nodes.length)
    (hsum : fieldAt v 16 8 = schemaSum ((d.ctx r.ctx).prog.node r.node).schema) :
    let nd := (d.ctx r.ctx).prog.node r.node
    let t := d.emitReceived flow node 1
    t.net.peers = d.net.peers
      ∧ ((t.ctx r.ctx).node r.node).rx = ((d.ctx r.ctx).node r.node).rx
          ++ [denseStrip (tagOf r.ctx r.node (r.emitted * 256)) (deserialize nd.schema v) (nd.schema.map (fun _ => 0))] := by
  intro nd t
  have ht : t = d.emitReceived flow node 1 := rfl
  unfold Dev.emitReceived at ht
  rw [hr] at ht
  dsimp only at ht
  rw [hx] at ht
  dsimp only at ht
  rw [h] at ht
  dsimp only at ht
  rw [if_neg (by simp [hsum])] at ht
  unfold Dev.emitReceived at ht
  refine ⟨by rw [ht]; rfl, ?_⟩
  rw [ht]
  change (((d.setNode r.ctx r.node _).ctx r.ctx).node r.node).rx = _
  rw [Dev.setNode, Dev.ctx_setCtx, Ctx.node_setNode, if_pos ⟨rfl, hnode⟩]

end

/-! ### What each type of frame does -/

/-- A frame taken as the next of its stream, and its credit returned. -/
def Dev.credited (d : Dev) (f : Frame) : Dev := (d.taken f).addCredit f.flow f.src f.credits

/-- The flows that send, with the credit that a frame returns. -/
def creditedFlows (l : List TxFlow) (f : Frame) : List TxFlow := l.map (fun t => if t.flow = f.flow
  then { t with credit := Sparse.set 0 t.credit f.src (Sparse.get 0 t.credit f.src + f.credits) } else t)

theorem Dev.credited_shape (d : Dev) (f : Frame) :
    ∃ p, d.credited f = { d with net := { d.net with peers := p, tx := creditedFlows d.net.tx f } } := ⟨_, rfl⟩

theorem Dev.credited_peer (d : Dev) (f : Frame) (n : Nat) : (d.credited f).peer n = (d.taken f).peer n := rfl

/-- What the next frame of a stream finds. -/
theorem Dev.credited_facts (d : Dev) (bytes : Bytes) (f : Frame) :
    let t := (d.arrived bytes f).credited f
    d.Next f t ∧ d.StandsStill t ∧ t.reacts = d.reacts ∧ t.net.rx = d.net.rx ∧ t.net.tx = creditedFlows d.net.tx f
      ∧ ∀ x : Obj, x.key ≠ O.FRAMES_RX.key → x.key ≠ O.BYTES_RX.key → t.oget x = d.oget x := by
  obtain ⟨-, hleft, hseq, hobj⟩ := d.arrived_facts bytes f
  obtain ⟨hstill, hreacts, hrx, htx, -⟩ := d.arrived_still bytes f
  obtain ⟨hunacked, hnext⟩ := (d.arrived bytes f).taken_peer f
  obtain ⟨p, hshape⟩ := (d.arrived bytes f).credited_shape f
  refine ⟨⟨?_, ?_⟩, ?_⟩
  · rw [Dev.Acked, Dev.credited_peer, hunacked, hleft]
  · rw [Dev.credited_peer, hnext, hseq]
  · rw [hshape]
    exact ⟨hstill, hreacts, hrx, by rw [← htx], hobj⟩

section
variable {d : Dev} {bytes : Bytes} {f : Frame} (hseq : f.fseq = (d.peer f.src).rxSeq)
include hseq

theorem Dev.accept_arrived : (d.arrived bytes f).accept f = some ((d.arrived bytes f).taken f) :=
  Dev.accept_of_next (by rw [(d.arrived_facts bytes f).2.2.1, hseq])

/-- A frame of the stream that is the next and of the epoch of its pipeline, or of no flow that runs, is handed on. -/
theorem Dev.accepted_arrived (hepoch : ∀ c, d.flowCtx f.flow = some c → (d.ctx c).epoch = f.epoch) (k : Dev → Dev) :
    (match (d.arrived bytes f).accept f with
      | none => d.arrived bytes f
      | some e => e.epochGuard f (fun e => k (e.addCredit f.flow f.src f.credits)) : Dev) = k ((d.arrived bytes f).credited f) := by
  obtain ⟨⟨hpipes, -, -⟩, -, hrx, htx, -⟩ := d.arrived_still bytes f
  rw [Dev.accept_arrived hseq]
  refine Dev.epochGuard_of_same (fun c hc => ?_) _
  have hflow : ((d.arrived bytes f).taken f).flowCtx f.flow = d.flowCtx f.flow := Dev.flowCtx_congr htx hrx _
  rw [hflow] at hc
  have hctx : ((d.arrived bytes f).taken f).ctx c = d.ctx c := Dev.ctx_congr (congrArg Pipes.ctxs hpipes) c
  rw [hctx]
  exact hepoch c hc

end

/-- A flow that is not known: the frame is counted. -/
theorem Dev.dataIn_of_unknown {d : Dev} {src : Nat} {f : Frame} (h : d.rxFlow f.flow = none) : d.dataIn src f = d.ocount O.FLOW_UNKNOWN 1 := by
  unfold Dev.dataIn
  rw [h]

theorem Dev.endIn_of_known {d : Dev} {src : Nat} {f : Frame} {r : RxFlow} (h : d.rxFlow f.flow = some r) :
    d.endIn src f = d.mapSender f.flow src (fun s => { s with count := some f.tag }) := by
  unfold Dev.endIn
  rw [h]

/-- The epoch of a flow that SHUFFLE_IN takes in. -/
theorem Dev.flowCtx_of_rx {d : Dev} {flow c : Nat} {r : RxFlow} (hr : d.rxFlow flow = some r) (h : d.flowCtx flow = some c) : c = r.ctx := by
  unfold Dev.flowCtx at h
  rw [hr] at h
  split at h
  · simp at h
  · simpa using h.symm

section
variable {s : State} {port : BitVec 1} {bytes : Bytes} {f : Frame} (hs : s.dev.serves = true) (hrun : s.dev.halted = false)
  (hlink : bitAt s.dev.net.links port.toNat = true) (hup : s.dev.netUp = true)
include hs hrun hlink hup

/-- A damaged frame is dropped and counted. -/
theorem dropped_lands {i : Instr} {type : Nat} {good : Bool} {k : Dev → Frame → Dev} (hbad : good = false ∨ parseFrame bytes = none)
    (h : exec i s = serve s (fun d => d.wake.receive type port.toNat good bytes k)) :
    Lands i s (fun d => d.oget O.FRAMES_DROPPED = (s.dev.oget O.FRAMES_DROPPED + 1) % 2 ^ (8 * O.FRAMES_DROPPED.size)
      ∧ d.net = s.dev.net ∧ d.pipes = s.dev.pipes ∧ d.jamb = s.dev.jamb ∧ d.host = s.dev.host) := by
  have ht : s.dev.wake.receive type port.toNat good bytes k = (s.dev.wake.frameCounted bytes).frameDrop := by
    refine Dev.receive_of_bad ?_ ?_ ?_ hbad k
    · rw [Dev.wake_halted, hrun]
    · rw [Dev.wake_net, hlink]
    · rw [Dev.netUp_congr s.dev.wake_flds, hup]
  refine lands_of_quiet h hs ?_ ?_ ?_
  · rw [ht]
    simp [Dev.frameDrop, Dev.frameCounted]
  · rw [ht]
    simp [Dev.frameDrop, Dev.frameCounted]
  · rw [ht]
    refine ⟨?_, ?_, ?_, ?_, ?_⟩
    · rw [Dev.frameDrop, Dev.oget_ocount, Dev.frameCounted, Dev.oget_ocount_ne _ _ (by decide), Dev.oget_ocount_ne _ _ (by decide),
        Dev.oget, Dev.wake_objs, Dev.oget]
    all_goals simp [Dev.frameDrop, Dev.frameCounted]

variable (hf : parseFrame bytes = some f) (hdst : f.dst = s.dev.nodeId) (hsrc : f.src ∈ s.dev.net.members)
include hf hdst hsrc

omit hs in
theorem receive_arrived (k : Dev → Frame → Dev) :
    s.dev.wake.receive f.type port.toNat true bytes k = k (s.dev.arrived bytes f) f := by
  refine Dev.receive_of_frame ?_ ?_ ?_ hf ?_ ?_ k
  · rw [Dev.wake_halted, hrun]
  · rw [Dev.wake_net, hlink]
  · rw [Dev.netUp_congr s.dev.wake_flds, hup]
  · rw [Dev.nodeId_congr s.dev.wake_flds, hdst]
  · rw [Dev.wake_net]
    exact hsrc

/-- What a frame of its type brings about, from what is done with it once it has arrived. -/
theorem brings_of_frame {i : Instr} {type : Nat} {k : Dev → Frame → Dev} {t : Dev} {P : Dev → Prop} (htype : f.type = type)
    (h : exec i s = serve s (fun d => d.wake.receive type port.toNat true bytes k)) (ht : k (s.dev.arrived bytes f) f = t) (hP : P t) :
    Brings i s P := by
  subst htype
  refine brings_of h hs ?_
  rw [receive_arrived hrun hlink hup hf hdst hsrc k, ht]
  exact hP

theorem lands_of_frame {i : Instr} {type : Nat} {k : Dev → Frame → Dev} {t : Dev} {P : Dev → Prop} (htype : f.type = type)
    (h : exec i s = serve s (fun d => d.wake.receive type port.toNat true bytes k)) (ht : k (s.dev.arrived bytes f) f = t)
    (hr : t.reacts = s.dev.reacts) (hp : t.pipes = s.dev.pipes) (hP : P t) : Lands i s P := by
  subst htype
  have hrec := (receive_arrived hrun hlink hup hf hdst hsrc k).trans ht
  refine lands_of_quiet h hs ?_ ?_ ?_
  · rw [hrec, hr]
  · rw [hrec, hp]
  · rw [hrec]
    exact hP

/-! ### HELLO, CREDIT, REJECT and CANCEL (R357, R361, R362, R372) -/

theorem helloRx_lands (htype : f.type = 6) : Lands (.helloRx port true bytes) s (fun d =>
    s.dev.Acked f d ∧ s.dev.StandsStill d ∧ d.net.rx = s.dev.net.rx) := by
  obtain ⟨hstill, hreacts, hrx, -, -⟩ := s.dev.arrived_still bytes f
  exact lands_of_frame hs hrun hlink hup hf hdst hsrc htype (k := fun d _ => d) rfl rfl hreacts hstill.1
    ⟨(s.dev.arrived_facts bytes f).2.1, hstill, hrx⟩

theorem creditFrameRx_lands (htype : f.type = 3) (hepoch : ∀ c, s.dev.flowCtx f.flow = some c → (s.dev.ctx c).epoch = f.epoch) :
    Lands (.creditFrameRx port true bytes) s (fun d =>
      s.dev.Acked f d ∧ s.dev.StandsStill d ∧ d.net.tx = creditedFlows s.dev.net.tx f) := by
  obtain ⟨hstill, hreacts, hrx, htx, -⟩ := s.dev.arrived_still bytes f
  have hflow : (s.dev.arrived bytes f).flowCtx f.flow = s.dev.flowCtx f.flow := Dev.flowCtx_congr htx hrx _
  have hctx : ∀ c, (s.dev.arrived bytes f).ctx c = s.dev.ctx c := Dev.ctx_congr (congrArg Pipes.ctxs hstill.1)
  have ht := Dev.epochGuard_of_same (d := s.dev.arrived bytes f) (f := f) (fun c hc => by
    rw [hctx]
    exact hepoch c (hflow ▸ hc)) (fun d => d.addCredit f.flow f.src f.credits)
  have hflows : ((s.dev.arrived bytes f).addCredit f.flow f.src f.credits).net.tx = creditedFlows (s.dev.arrived bytes f).net.tx f := rfl
  exact lands_of_frame hs hrun hlink hup hf hdst hsrc htype
    (k := fun d f => d.epochGuard f (fun d => d.addCredit f.flow f.src f.credits)) rfl ht hreacts hstill.1
    ⟨(s.dev.arrived_facts bytes f).2.1, hstill, hflows.trans (by rw [htx])⟩

theorem creditFrameRx_brings (htype : f.type = 3) {c : Nat} (hc : s.dev.flowCtx f.flow = some c) (hepoch : (s.dev.ctx c).epoch ≠ f.epoch) :
    Brings (.creditFrameRx port true bytes) s (fun d =>
      (s.dev.ctx c).active = true → (s.dev.ctx c).ending = none → (d.ctx c).ending = some 0x0502) := by
  obtain ⟨hstill, -, hrx, htx, -⟩ := s.dev.arrived_still bytes f
  have hflow : (s.dev.arrived bytes f).flowCtx f.flow = s.dev.flowCtx f.flow := Dev.flowCtx_congr htx hrx _
  have hctx : (s.dev.arrived bytes f).ctx c = s.dev.ctx c := Dev.ctx_congr (congrArg Pipes.ctxs hstill.1) c
  obtain ⟨g, ht⟩ := Dev.epochGuard_of_other (d := s.dev.arrived bytes f) (hflow.trans hc) (hctx ▸ hepoch)
    (fun d => d.addCredit f.flow f.src f.credits)
  refine brings_of_frame hs hrun hlink hup hf hdst hsrc htype
    (k := fun d f => d.epochGuard f (fun d => d.addCredit f.flow f.src f.credits)) rfl ht fun hact hend => ?_
  have hsame : ((s.dev.arrived bytes f).sendFrame g).ctx c = s.dev.ctx c :=
    (Dev.ctx_congr (congrArg Pipes.ctxs (Dev.sendFrame_emits _ g).pipes) c).trans hctx
  exact Dev.failCtx_ends_with (.inr ⟨hsame ▸ hact, hsame ▸ hend⟩)

theorem rejectRx_brings (htype : f.type = 7) {c : Nat} (hc : s.dev.flowCtx f.flow = some c)
    (hepoch : (s.dev.ctx c).epoch = fieldAt f.payload 0 4) :
    Brings (.rejectRx port true bytes) s (fun d => s.dev.Acked f d
      ∧ ((s.dev.ctx c).active = true → (s.dev.ctx c).ending = none → (d.ctx c).ending = some 0x0502)) := by
  obtain ⟨hstill, -, hrx, htx, -⟩ := s.dev.arrived_still bytes f
  have hflow : (s.dev.arrived bytes f).flowCtx f.flow = s.dev.flowCtx f.flow := Dev.flowCtx_congr htx hrx _
  have hctx : (s.dev.arrived bytes f).ctx c = s.dev.ctx c := Dev.ctx_congr (congrArg Pipes.ctxs hstill.1) c
  have hpeers := ((s.dev.arrived bytes f).failCtx_keepsNet c 0x0502).facts.2.2
  refine brings_of_frame hs hrun hlink hup hf hdst hsrc htype (t := (s.dev.arrived bytes f).failCtx c 0x0502)
    (k := fun d f => match d.flowCtx f.flow with
      | some c => if (d.ctx c).epoch = fieldAt f.payload 0 4 then d.failCtx c 0x0502 else d
      | none => d) rfl ?_ ⟨?_, fun hact hend => ?_⟩
  · rw [hflow, hc]
    dsimp only
    rw [hctx, if_pos hepoch]
  · rw [Dev.Acked, Dev.peer, hpeers]
    exact (s.dev.arrived_facts bytes f).2.1
  · exact Dev.failCtx_ends_with (.inr ⟨hctx ▸ hact, hctx ▸ hend⟩)

theorem cancelFrameRx_brings (htype : f.type = 8) : Brings (.cancelFrameRx port true bytes) s (fun d =>
    (∀ c, (s.dev.ctx c).prog.fabric = true → (s.dev.ctx c).prog.query = sliceAt f.payload 0 16 →
      ((s.dev.ctx c).state = 2 ∨ (s.dev.ctx c).state = 4 → (s.dev.ctx c).ending ≠ some 0x0401 → (d.ctx c).state = 3)
      ∧ ((s.dev.ctx c).state = 5 → (d.ctx c).state = 7))
    ∧ cancelOf f.payload ∈ d.net.remembered
    ∧ d.oget O.CANCELS_RX = (s.dev.oget O.CANCELS_RX + 1) % 2 ^ (8 * O.CANCELS_RX.size)) := by
  obtain ⟨hstill, -⟩ := s.dev.arrived_still bytes f
  have hobj := (s.dev.arrived_facts bytes f).2.2.2
  have hctx : ∀ c, ((s.dev.arrived bytes f).ocount O.CANCELS_RX 1).ctx c = s.dev.ctx c :=
    Dev.ctx_congr (congrArg Pipes.ctxs ((Dev.ocount_pipes _ _ _).trans hstill.1))
  have hcounted : ((s.dev.arrived bytes f).ocount O.CANCELS_RX 1).oget O.CANCELS_RX
      = (s.dev.oget O.CANCELS_RX + 1) % 2 ^ (8 * O.CANCELS_RX.size) := by
    rw [Dev.oget_ocount, hobj _ (by decide) (by decide)]
  obtain ⟨hends, hremembered, hoget, -⟩ := ((s.dev.arrived bytes f).ocount O.CANCELS_RX 1).cancelArrived_facts f.payload
  refine brings_of_frame hs hrun hlink hup hf hdst hsrc htype (k := fun d f => (d.ocount O.CANCELS_RX 1).cancelArrived f.payload) rfl rfl
    ⟨fun c hfabric hquery => ?_, hremembered, (hoget _ (by decide) (by decide)).trans hcounted⟩
  rw [hends c, if_pos (Dev.mem_cancelled (hctx c ▸ hfabric) (hctx c ▸ hquery)), hctx c]
  exact ⟨Ctx.afterCancel_of_runs 0x0402, Ctx.afterCancel_of_parked 0x0402⟩

end

end Sys2Proof.Machine

/-! ## DATA, END, PUT_ACK and PUT frames (R360, R368, R369, R374) -/

namespace Sys2Proof.Machine

/-! ### Flows that SHUFFLE_IN takes in -/

/-- What a DATA or END frame that is not the next leaves. -/
theorem Dev.accept_arrived_other {d : Dev} {bytes : Bytes} {f : Frame} (hseq : f.fseq ≠ (d.peer f.src).rxSeq) :
    (d.arrived bytes f).accept f = none :=
  Dev.accept_of_other (by rw [(d.arrived_facts bytes f).2.2.1]; exact hseq)

theorem Dev.credited_rxFlow (d : Dev) (bytes : Bytes) (f : Frame) (flow : Nat) :
    ((d.arrived bytes f).credited f).rxFlow flow = d.rxFlow flow :=
  Dev.rxFlow_congr (d.credited_facts bytes f).2.2.2.1 flow

/-- A change of a sender leaves streams, pipelines and what sends as they are. -/
theorem Dev.mapSender_keeps {d t : Dev} {f : Frame} (flow node : Nat) (g : RxSender → RxSender) (hnext : d.Next f t)
    (hstill : d.StandsStill t) :
    d.Next f (t.mapSender flow node g) ∧ d.StandsStill (t.mapSender flow node g) ∧ (t.mapSender flow node g).reacts = t.reacts
      ∧ (t.mapSender flow node g).net.tx = t.net.tx := ⟨hnext, hstill, rfl, rfl⟩

section
variable {s : State} {port : BitVec 1} {bytes : Bytes} {f : Frame} (hs : s.dev.serves = true) (hrun : s.dev.halted = false)
  (hlink : bitAt s.dev.net.links port.toNat = true) (hup : s.dev.netUp = true)
  (hf : parseFrame bytes = some f) (hdst : f.dst = s.dev.nodeId) (hsrc : f.src ∈ s.dev.net.members)
include hs hrun hlink hup hf hdst hsrc

theorem dataFrameRx_lands_other (htype : f.type = 1) (hseq : f.fseq ≠ (s.dev.peer f.src).rxSeq) :
    Lands (.dataFrameRx port true bytes) s (fun d => s.dev.Acked f d ∧ s.dev.StandsStill d
      ∧ (d.peer f.src).rxSeq = (s.dev.peer f.src).rxSeq ∧ d.net.rx = s.dev.net.rx ∧ d.net.tx = s.dev.net.tx) := by
  obtain ⟨hstill, hreacts, hrx, htx, -⟩ := s.dev.arrived_still bytes f
  obtain ⟨-, hacked, hkept, -⟩ := s.dev.arrived_facts bytes f
  refine lands_of_frame hs hrun hlink hup hf hdst hsrc htype (i := .dataFrameRx port true bytes) (t := s.dev.arrived bytes f)
    (k := fun d f => match d.accept f with
      | none => d
      | some d => d.epochGuard f (fun d => (d.addCredit f.flow f.src f.credits).dataIn f.src f))
    rfl ?_ hreacts hstill.1 ⟨hacked, hstill, hkept, hrx, htx⟩
  rw [Dev.accept_arrived_other hseq]

section
variable (hseq : f.fseq = (s.dev.peer f.src).rxSeq) (hepoch : ∀ c, s.dev.flowCtx f.flow = some c → (s.dev.ctx c).epoch = f.epoch)
include hseq hepoch

/-- A DATA frame that is the next of its stream reaches its flow. -/
theorem dataFrameRx_lands {t : Dev} {P : Dev → Prop} (htype : f.type = 1)
    (ht : ((s.dev.arrived bytes f).credited f).dataIn f.src f = t) (hr : t.reacts = s.dev.reacts) (hp : t.pipes = s.dev.pipes)
    (hP : P t) : Lands (.dataFrameRx port true bytes) s P :=
  lands_of_frame hs hrun hlink hup hf hdst hsrc htype
    (k := fun d f => match d.accept f with
      | none => d
      | some d => d.epochGuard f (fun d => (d.addCredit f.flow f.src f.credits).dataIn f.src f))
    rfl ((Dev.accepted_arrived hseq hepoch (fun d => d.dataIn f.src f)).trans ht) hr hp hP

theorem dataFrameRx_brings {t : Dev} {P : Dev → Prop} (htype : f.type = 1)
    (ht : ((s.dev.arrived bytes f).credited f).dataIn f.src f = t) (hP : P t) : Brings (.dataFrameRx port true bytes) s P :=
  brings_of_frame hs hrun hlink hup hf hdst hsrc htype
    (k := fun d f => match d.accept f with
      | none => d
      | some d => d.epochGuard f (fun d => (d.addCredit f.flow f.src f.credits).dataIn f.src f))
    rfl ((Dev.accepted_arrived hseq hepoch (fun d => d.dataIn f.src f)).trans ht) hP

/-- An END frame that is the next of its stream reaches its flow. -/
theorem endFrameRx_lands {t : Dev} {P : Dev → Prop} (htype : f.type = 2)
    (ht : ((s.dev.arrived bytes f).credited f).endIn f.src f = t) (hr : t.reacts = s.dev.reacts) (hp : t.pipes = s.dev.pipes)
    (hP : P t) : Lands (.endFrameRx port true bytes) s P :=
  lands_of_frame hs hrun hlink hup hf hdst hsrc htype
    (k := fun d f => match d.accept f with
      | none => d
      | some d => d.epochGuard f (fun d => (d.addCredit f.flow f.src f.credits).endIn f.src f))
    rfl ((Dev.accepted_arrived hseq hepoch (fun d => d.endIn f.src f)).trans ht) hr hp hP

end

theorem dataFrameRx_lands_unknown (htype : f.type = 1) (hseq : f.fseq = (s.dev.peer f.src).rxSeq) (hctx : s.dev.flowCtx f.flow = none)
    (hflow : s.dev.rxFlow f.flow = none) :
    Lands (.dataFrameRx port true bytes) s (fun d => s.dev.Next f d ∧ s.dev.StandsStill d
      ∧ d.oget O.FLOW_UNKNOWN = (s.dev.oget O.FLOW_UNKNOWN + 1) % 2 ^ (8 * O.FLOW_UNKNOWN.size)) := by
  obtain ⟨hnext, hstill, hreacts, -, -, hobj⟩ := s.dev.credited_facts bytes f
  have ht := Dev.dataIn_of_unknown (d := (s.dev.arrived bytes f).credited f) (src := f.src) ((s.dev.credited_rxFlow bytes f f.flow).trans hflow)
  refine dataFrameRx_lands hs hrun hlink hup hf hdst hsrc hseq (fun c hc => by simp [hctx] at hc) htype ht
    (by rw [Dev.ocount_reacts, hreacts]) (by rw [Dev.ocount_pipes, hstill.1]) ⟨?_, ?_, ?_⟩
  · simpa [Dev.Next, Dev.Acked, Dev.ocount] using hnext
  · simpa [Dev.StandsStill] using hstill
  · rw [Dev.oget_ocount, hobj _ (by decide) (by decide)]

section
variable {r : RxFlow} {x : RxSender} (hr : s.dev.rxFlow f.flow = some r)
  (hx : r.senders.find? (fun x => x.node = f.src) = some x) (hepoch : (s.dev.ctx r.ctx).epoch = f.epoch)
  (hseq : f.fseq = (s.dev.peer f.src).rxSeq)
include hr hx hepoch hseq

/-- A fragment whose strip is not whole, or not the next, joins it. -/
theorem dataFrameRx_lands_part (htype : f.type = 1) (hpart : (x.place f).ready = none) :
    Lands (.dataFrameRx port true bytes) s (fun d => s.dev.Next f d ∧ s.dev.StandsStill d ∧ d.sender f.flow f.src = some (x.place f)
      ∧ d.net.tx = creditedFlows s.dev.net.tx f) := by
  obtain ⟨hnext, hstill, hreacts, -, htx, -⟩ := s.dev.credited_facts bytes f
  have hr' := (s.dev.credited_rxFlow bytes f f.flow).trans hr
  have hdata := Dev.dataIn_of_sender hr' hx (f := f) rfl
  obtain ⟨hrx, hfind⟩ := Dev.mapSender_finds hr' hx (g := fun s => s.place f) (fun s => s.place_node f)
  rw [Dev.emitReceived_of_unready hrx hfind hpart] at hdata
  obtain ⟨hnext', hstill', hreacts', htx'⟩ := Dev.mapSender_keeps f.flow f.src (fun s => s.place f) hnext hstill
  refine dataFrameRx_lands hs hrun hlink hup hf hdst hsrc hseq (fun c hc => ?_) htype hdata (hreacts'.trans hreacts) hstill'.1
    ⟨hnext', hstill', ?_, htx'.trans htx⟩
  · rw [Dev.flowCtx_of_rx hr hc, hepoch]
  · rw [Dev.sender, hrx]
    exact hfind

/-- A strip that is whole, and the only one under way, goes to the SHUFFLE_IN. -/
theorem dataFrameRx_brings_strip (htype : f.type = 1) {z : RxStrip} {v : Bytes} (htag : f.tag = x.next)
    (honly : ∀ z ∈ x.strips, z.tag = x.next) (hwhole : (x.place f).ready = some (z, v)) (hnode : r.node < (s.dev.ctx r.ctx).nodes.length)
    (hsum : fieldAt v 16 8 = schemaSum ((s.dev.ctx r.ctx).prog.node r.node).schema) :
    let nd := (s.dev.ctx r.ctx).prog.node r.node
    Brings (.dataFrameRx port true bytes) s (fun d => s.dev.Next f d
      ∧ ((d.ctx r.ctx).node r.node).rx = ((s.dev.ctx r.ctx).node r.node).rx
        ++ [denseStrip (tagOf r.ctx r.node (r.emitted * 256)) (deserialize nd.schema v) (nd.schema.map (fun _ => 0))]) := by
  obtain ⟨hnext, hstill, -⟩ := s.dev.credited_facts bytes f
  have hr' := (s.dev.credited_rxFlow bytes f f.flow).trans hr
  have hdata := Dev.dataIn_of_sender hr' hx (f := f) rfl
  obtain ⟨hrx, hfind⟩ := Dev.mapSender_finds hr' hx (g := fun s => s.place f) (fun s => s.place_node f)
  have hone : (x.place f).strips.length = 1 := by
    unfold RxSender.place
    rw [if_neg (by omega)]
    dsimp only
    rw [List.filter_eq_nil_iff.mpr fun y hy => by simp [honly y hy, htag]]
    rfl
  have hctx : (((s.dev.arrived bytes f).credited f).mapSender f.flow f.src (fun s => s.place f)).ctx r.ctx = s.dev.ctx r.ctx :=
    Dev.ctx_congr (congrArg Pipes.ctxs hstill.1) r.ctx
  rw [hone] at hdata
  obtain ⟨hpeers, hstrip⟩ := Dev.emitReceived_one hrx hfind hwhole (hctx.symm ▸ hnode) (hctx.symm ▸ hsum)
  refine dataFrameRx_brings hs hrun hlink hup hf hdst hsrc hseq (fun c hc => ?_) htype hdata ⟨?_, ?_⟩
  · rw [Dev.flowCtx_of_rx hr hc, hepoch]
  · rw [Dev.Next, Dev.Acked, Dev.peer, hpeers]
    exact (Dev.mapSender_keeps f.flow f.src (fun s => s.place f) hnext hstill).1
  · rw [← hctx]
    exact hstrip

theorem endFrameRx_lands_known (htype : f.type = 2) : Lands (.endFrameRx port true bytes) s (fun d => s.dev.Next f d ∧ s.dev.StandsStill d
    ∧ d.sender f.flow f.src = some { x with count := some f.tag }) := by
  obtain ⟨hnext, hstill, hreacts, -⟩ := s.dev.credited_facts bytes f
  have hr' := (s.dev.credited_rxFlow bytes f f.flow).trans hr
  obtain ⟨hrx, hfind⟩ := Dev.mapSender_finds hr' hx (g := fun s => { s with count := some f.tag }) (fun _ => rfl)
  obtain ⟨hnext', hstill', hreacts', -⟩ := Dev.mapSender_keeps f.flow f.src (fun s => { s with count := some f.tag }) hnext hstill
  refine endFrameRx_lands hs hrun hlink hup hf hdst hsrc hseq (fun c hc => ?_) htype (Dev.endIn_of_known hr') (hreacts'.trans hreacts)
    hstill'.1 ⟨hnext', hstill', ?_⟩
  · rw [Dev.flowCtx_of_rx hr hc, hepoch]
  · rw [Dev.sender, hrx]
    exact hfind

end

/-! ### PUT_ACK and PUT (R374) -/

/-- A PUT_ACK takes a frame off its channel, which ends with the last one. -/
theorem putAckRx_lands (htype : f.type = 5) {n : Nat} {x : Put} (hfind : s.dev.net.puts.find?
      (fun q => q.2.busy && q.2.node == f.src && q.2.dst == f.tag && !q.2.open_.isEmpty) = some (n, x)) (hsent : x.len ≤ x.sent) :
    Lands (.putAckRx port true bytes) s (fun d => s.dev.StandsStill d
      ∧ (x.open_.tail ≠ [] → d.putChan n = { x with open_ := x.open_.tail })
      ∧ (x.open_.tail = [] → d.putChan n = {} ∧ d.fget (F.TR_PUT_STAT_DONE n) = 1)) := by
  obtain ⟨hstill, hreacts, -, -, hputs⟩ := s.dev.arrived_still bytes f
  have ht : (s.dev.arrived bytes f).putAcked f.src f.tag = if x.open_.tail = [] then
      ((s.dev.arrived bytes f).setPut n { x with open_ := x.open_.tail }).endPut n false
      else (s.dev.arrived bytes f).setPut n { x with open_ := x.open_.tail } := by
    unfold Dev.putAcked
    rw [hputs, hfind]
    dsimp only
    by_cases hlast : x.open_.tail = []
    · rw [if_pos ⟨hlast, hsent⟩, if_pos hlast]
    · rw [if_neg (fun h => hlast h.1), if_neg hlast, Dev.pumpPut, Dev.putChan_setPut]
      exact if_pos (.inr (.inl hsent))
  have hput := (s.dev.arrived bytes f).setPut_emits n { x with open_ := x.open_.tail }
  have hkept : s.dev.StandsStill ((s.dev.arrived bytes f).setPut n { x with open_ := x.open_.tail }) :=
    ⟨hput.pipes.trans hstill.1, hput.jamb.trans hstill.2.1, hput.host.trans hstill.2.2⟩
  by_cases hlast : x.open_.tail = []
  · rw [if_pos hlast] at ht
    obtain ⟨hdone, -, hchan, ⟨hpipes, hjamb, -, hhost⟩, hreacts'⟩ :=
      ((s.dev.arrived bytes f).setPut n { x with open_ := x.open_.tail }).endPut_facts n false
    exact lands_of_frame hs hrun hlink hup hf hdst hsrc htype (k := fun d f => d.putAcked f.src f.tag) rfl ht
      (hreacts'.trans (hput.reacts.trans hreacts)) (hpipes.trans hkept.1)
      ⟨⟨hpipes.trans hkept.1, hjamb.trans hkept.2.1, hhost.trans hkept.2.2⟩, fun h => absurd hlast h, fun _ => ⟨hchan, hdone⟩⟩
  · rw [if_neg hlast] at ht
    exact lands_of_frame hs hrun hlink hup hf hdst hsrc htype (k := fun d f => d.putAcked f.src f.tag) rfl ht
      (hput.reacts.trans hreacts) hkept.1 ⟨hkept, fun _ => Dev.putChan_setPut _ _ _, fun h => absurd h hlast⟩

end

/-- The acknowledgement of a PUT. -/
def Dev.putReply (d : Dev) (f : Frame) : Frame := { type := 5, cls := 6, src := 0, dst := f.src, epoch := d.net.epoch, tag := f.tag }

/-- A frame of no flow, outside the streams, leaves both streams of every peer as they are. -/
theorem Dev.sendFrame_streams (d : Dev) {g : Frame} (hflow : g.flow = 0) (hseq : g.sequenced = false) (n : Nat) :
    ((d.sendFrame g).peer n).unacked = (d.peer n).unacked ∧ ((d.sendFrame g).peer n).rxSeq = (d.peer n).rxSeq := by
  unfold Dev.sendFrame
  split
  · exact ⟨rfl, rfl⟩
  · have hout : ∀ a c, Frame.sequenced { g with src := a, ack := c, credits := 0, fseq := 0, flow := 0 } = false := fun _ _ => hseq
    dsimp only
    simp only [hflow, true_or, if_true, hseq, hout, Bool.false_eq_true, if_false, Dev.putOnWire_peer]
    by_cases hn : n = g.dst
    · rw [hn, Dev.peer_setPeer]
      exact ⟨rfl, rfl⟩
    · rw [Dev.peer_setPeer_ne _ _ hn]
      exact ⟨rfl, rfl⟩

theorem Dev.ReadsAs.engByte {d e : Dev} (h : e.ReadsAs d) (a : Nat) : e.engByte a = d.engByte a := by
  rw [Dev.engByte, Dev.engByte, h.mapsAs.implemented, h.mapsAs.physical, h.mem]

/-- A PUT that is the next of its stream is written and acknowledged. -/
def Dev.putDone (d : Dev) (bytes : Bytes) (f : Frame) : Dev :=
  let w := ((d.arrived bytes f).taken f).engWrite (f.tag + f.off) f.payload
  w.sendFrame (w.putReply f)

theorem Dev.putDone_facts {d : Dev} {bytes : Bytes} {f : Frame} (hplain : d.plainMem (f.tag + f.off) f.payload.length) :
    let t := d.putDone bytes f
    d.Next f t ∧ t.host = d.host ∧ t.flds = d.flds
      ∧ ∀ a, t.engByte a = if f.tag + f.off ≤ a ∧ a < f.tag + f.off + f.payload.length ∧ d.implemented a = true
          then f.payload.getD (a - (f.tag + f.off)) 0 else d.engByte a := by
  obtain ⟨⟨o, p, hshape⟩, hleft, hseq, -⟩ := d.arrived_facts bytes f
  obtain ⟨hunacked, hnext⟩ := (d.arrived bytes f).taken_peer f
  generalize hu : (d.arrived bytes f).taken f = u at hunacked hnext
  have hureads : u.ReadsAs d.wake := by
    rw [← hu, hshape]
    exact ⟨rfl, rfl, rfl, rfl⟩
  have huplain : u.plainMem (f.tag + f.off) f.payload.length := by
    rw [← hu, hshape]
    exact Dev.plainMem_wake hplain
  have huhost : u.host = d.host ∧ u.flds = d.flds := by
    rw [← hu, hshape]
    exact ⟨d.wake_host, d.wake_flds⟩
  let w := u.engWrite (f.tag + f.off) f.payload
  have hpeer : ∀ n, w.peer n = u.peer n := fun n => by rw [Dev.peer, Dev.engWrite_net, Dev.peer]
  have ht : d.putDone bytes f = w.sendFrame (w.putReply f) := by rw [Dev.putDone, hu]
  obtain ⟨hkept, hnum⟩ := w.sendFrame_streams (g := w.putReply f) rfl rfl f.src
  have hemits := w.sendFrame_emits (w.putReply f)
  have hmem := Dev.memWith_engWrite (t := w.sendFrame (w.putReply f)) huplain hemits.mem
    ((w.sendFrame_sendsOut (w.putReply f)).readsAs.ordering.trans (Dev.engWrite_ordering288 ..))
  intro t
  rw [show t = _ from ht]
  refine ⟨⟨?_, ?_⟩, ?_, ?_, fun a => ?_⟩
  · rw [Dev.Acked, hkept, hpeer, hunacked, hleft]
  · rw [hnum, hpeer, hnext, hseq]
  · rw [hemits.host, Dev.engWrite_host, huhost.1]
  · rw [hemits.flds, Dev.engWrite_flds, huhost.2]
  · rw [hmem a, hureads.engByte, d.engByte_wake, hureads.mapsAs.implemented, d.implemented_wake]

section
variable {s : State} {port : BitVec 1} {bytes : Bytes} {f : Frame} (hs : s.dev.serves = true) (hrun : s.dev.halted = false)
  (hlink : bitAt s.dev.net.links port.toNat = true) (hup : s.dev.netUp = true)
  (hf : parseFrame bytes = some f) (hdst : f.dst = s.dev.nodeId) (hsrc : f.src ∈ s.dev.net.members)
include hs hrun hlink hup hf hdst hsrc

theorem putFrameRx_brings (htype : f.type = 4) (hseq : f.fseq = (s.dev.peer f.src).rxSeq) (hmode : s.dev.fget F.TEST_CTL_MODE = 0)
    (hplain : s.dev.plainMem (f.tag + f.off) f.payload.length) :
    Brings (.putFrameRx port true bytes false) s (fun d => s.dev.Next f d ∧ d.host = s.dev.host
      ∧ (∀ i, i < f.payload.length → s.dev.implemented (f.tag + f.off + i) = true →
          d.engByte (f.tag + f.off + i) = f.payload.getD i 0)
      ∧ ∀ a, a < f.tag + f.off ∨ f.tag + f.off + f.payload.length ≤ a → d.engByte a = s.dev.engByte a) := by
  obtain ⟨hnext, hhost, hflds, hbytes⟩ := Dev.putDone_facts (bytes := bytes) hplain
  have ht : s.dev.wake.putFrameRx port.toNat true bytes false = s.dev.putDone bytes f := by
    rw [Dev.putFrameRx, ← htype, receive_arrived hrun hlink hup hf hdst hsrc, Dev.accept_arrived hseq]
    rfl
  have hserve : exec (.putFrameRx port true bytes false) s = serveTest s (fun d => d.wake.putFrameRx port.toNat true bytes false) := rfl
  have hfree : (s.dev.putDone bytes f).fget F.TEST_CTL_MODE = 0 := by rw [Dev.fget, hflds, ← Dev.fget, hmode]
  refine ⟨s.dev.putDone bytes f, ?_, hnext, hhost, fun i hi himp => ?_, fun a ha => ?_⟩
  · rw [hserve, serveTest, if_pos hs, ht, unlessTest, if_neg (fun h => h hfree)]
  · rw [hbytes, if_pos ⟨by omega, by omega, himp⟩, Nat.add_sub_cancel_left]
  · rw [hbytes, if_neg (by omega)]

end

/-- Settles O49: a frame is dropped, or takes what it acknowledges out of its stream and is received by its type. -/
theorem framesOfMembersAreReceived : Obligations.FramesOfMembersAreReceived := by
  unfold Obligations.FramesOfMembersAreReceived
  intro s port b hs hrun hlink hup
  dsimp only
  refine ⟨fun good hbad => ?_, fun f hf hdst hsrc => ⟨?_, ?_, ?_, ?_, ?_, fun r x hr hx hepoch hseq => ⟨?_, ?_, ?_⟩, ?_, ?_, ?_, ?_⟩⟩
  · exact ⟨dropped_lands hs hrun hlink hup hbad rfl, dropped_lands hs hrun hlink hup hbad rfl, dropped_lands hs hrun hlink hup hbad rfl,
      dropped_lands hs hrun hlink hup hbad rfl, dropped_lands hs hrun hlink hup hbad rfl, dropped_lands hs hrun hlink hup hbad rfl,
      dropped_lands hs hrun hlink hup hbad rfl⟩
  · exact helloRx_lands hs hrun hlink hup hf hdst hsrc
  · exact creditFrameRx_lands hs hrun hlink hup hf hdst hsrc
  · exact fun c htype hc hepoch => creditFrameRx_brings hs hrun hlink hup hf hdst hsrc htype hc hepoch
  · exact dataFrameRx_lands_other hs hrun hlink hup hf hdst hsrc
  · exact dataFrameRx_lands_unknown hs hrun hlink hup hf hdst hsrc
  · exact dataFrameRx_lands_part hs hrun hlink hup hf hdst hsrc hr hx hepoch hseq
  · exact fun z v htype htag honly hwhole hnode hsum =>
      dataFrameRx_brings_strip hs hrun hlink hup hf hdst hsrc hr hx hepoch hseq htype htag honly hwhole hnode hsum
  · exact endFrameRx_lands_known hs hrun hlink hup hf hdst hsrc hr hx hepoch hseq
  · exact fun n x htype hfind hsent => putAckRx_lands hs hrun hlink hup hf hdst hsrc htype hfind hsent
  · exact fun c htype hc hepoch => rejectRx_brings hs hrun hlink hup hf hdst hsrc htype hc hepoch
  · exact cancelFrameRx_brings hs hrun hlink hup hf hdst hsrc
  · exact putFrameRx_brings hs hrun hlink hup hf hdst hsrc

end Sys2Proof.Machine

/-! ## What follows a command: what it leaves alone -/

namespace Sys2Proof.Machine

/-! ### Host memory, the contexts and Hinge -/

/-- The three parts of the device that this development follows through `Dev.settle`. -/
def Dev.aside (d : Dev) : Sparse Byte × Sparse Ctx × Hinge := (d.host, d.pipes.ctxs, d.hinge)

theorem Dev.aside_eq {d e : Dev} (hhost : e.host = d.host) (hctxs : e.pipes.ctxs = d.pipes.ctxs) (hhinge : e.hinge = d.hinge) :
    e.aside = d.aside := by
  rw [Dev.aside, hhost, hctxs, hhinge, Dev.aside]

/-- Whatever else a device is put together with, its three parts are those of `d` where they are taken from it. -/
@[simp] theorem Dev.aside_mk (d : Dev) (a b e f g h i j k l m n o p q r s t u v w x) :
    (Dev.mk a b d.host e f g h i j k l m d.hinge d.pipes n o p q r s t u v w x).aside = d.aside :=
  Dev.aside_eq rfl rfl rfl

@[simp] theorem Dev.aside_mk_pipes (d : Dev) (a b e f g h i j k l m n o p q r s t u v w x w₁ w₂ w₃ w₄) :
    (Dev.mk a b d.host e f g h i j k l m d.hinge (Pipes.mk d.pipes.ctxs w₁ w₂ w₃ w₄) n o p q r s t u v w x).aside
      = d.aside := Dev.aside_eq rfl rfl rfl

theorem foldl_aside {α : Type} (g : Dev → α → Dev) (l : List α) (d : Dev) (h : ∀ d a, (g d a).aside = d.aside) :
    (l.foldl g d).aside = d.aside :=
  foldl_keeps (fun e => e.aside = d.aside) g (fun b a hb => (h b a).trans hb) l d rfl

section
variable (d : Dev) (c b n : Nat)

@[simp] theorem Dev.fput_aside (f : Fld) (v : Nat) : (d.fput f v).aside = d.aside := Dev.aside_eq rfl rfl rfl
@[simp] theorem Dev.fputB_aside (f : Fld) (v : Bool) : (d.fputB f v).aside = d.aside := Dev.fput_aside ..
@[simp] theorem Dev.fcount_aside (f : Fld) : (d.fcount f n).aside = d.aside := Dev.fput_aside ..
@[simp] theorem Dev.oput_aside (o : Obj) (v : Nat) : (d.oput o v).aside = d.aside := Dev.aside_eq rfl rfl rfl
@[simp] theorem Dev.ocount_aside (o : Obj) : (d.ocount o n).aside = d.aside := Dev.oput_aside ..
@[simp] theorem Dev.emit_aside (o : Out) : (d.emit o).aside = d.aside := Dev.aside_eq rfl rfl rfl
@[simp] theorem Dev.setChan_aside (x : Chan) : (d.setChan c x).aside = d.aside := Dev.aside_eq rfl rfl rfl
@[simp] theorem Dev.setSbank_aside (x : SBank) : (d.setSbank c b x).aside = d.aside := Dev.aside_eq rfl rfl rfl
@[simp] theorem Dev.setBcas_aside (x : BCas) : (d.setBcas c x).aside = d.aside := Dev.aside_eq rfl rfl rfl
@[simp] theorem Dev.mapJob_aside (o : BOwner) (f : Job → Job) : (d.mapJob o f).aside = d.aside := Dev.aside_eq rfl rfl rfl
@[simp] theorem Dev.setLvBank_aside (x : LvBank) : (d.setLvBank c b x).aside = d.aside := Dev.aside_eq rfl rfl rfl
@[simp] theorem Dev.setLvTable_aside (x : Option LvTable) : (d.setLvTable n x).aside = d.aside := Dev.aside_eq rfl rfl rfl
@[simp] theorem Dev.mapTx_aside (f : TxFlow → TxFlow) : (d.mapTx c n f).aside = d.aside := Dev.aside_eq rfl rfl rfl
@[simp] theorem Dev.setPane_aside (x : Pane) : (d.setPane n x).aside = d.aside := Dev.aside_eq rfl rfl rfl
@[simp] theorem Dev.setLatch_aside (x : Latch) : (d.setLatch c x).aside = d.aside := Dev.aside_eq rfl rfl rfl
@[simp] theorem Dev.setWork_aside (w v : Work) : (d.setWork w v).aside = d.aside := Dev.aside_eq rfl rfl rfl

@[simp] theorem Dev.writeOut_aside (l : SLine) : (d.writeOut c l).aside = d.aside :=
  Dev.aside_eq (Dev.writeOut_host ..) (congrArg Pipes.ctxs (Dev.writeOut_pipes ..)) (Dev.writeOut_hinge ..)

@[simp] theorem Dev.writeBack_aside (l : SLine) : (d.writeBack c l).aside = d.aside :=
  Dev.aside_eq (Dev.writeBack_host ..) (congrArg Pipes.ctxs (Dev.writeBack_pipes ..)) (Dev.writeBack_hinge ..)

@[simp] theorem Dev.poison_aside (a : Nat) : (d.poison a).aside = d.aside :=
  Dev.aside_eq (Dev.poison_host ..) (congrArg Pipes.ctxs (Dev.poison_pipes ..)) (Dev.poison_hinge ..)

@[simp] theorem Dev.faultIrq_aside : d.faultIrq.aside = d.aside :=
  Dev.aside_eq (Dev.faultIrq_host ..) (congrArg Pipes.ctxs (Dev.faultIrq_pipes ..)) (Dev.faultIrq_hinge ..)

@[simp] theorem Dev.faultRaise_aside (syn : Nat) (injected : Bool) : (d.faultRaise n syn injected).aside = d.aside :=
  Dev.aside_eq (Dev.faultRaise_host ..) (congrArg Pipes.ctxs (Dev.faultRaise_pipes ..)) (Dev.faultRaise_hinge ..)

@[simp] theorem Dev.finish_aside (id status : Nat) (result : Bytes) (len : Nat) :
    (d.finish id status result len).aside = d.aside :=
  Dev.aside_eq (Dev.finish_host ..) (congrArg Pipes.ctxs (Dev.finish_pipes ..)) (Dev.finish_hinge ..)

@[simp] theorem Dev.maintEnd_aside : d.maintEnd.aside = d.aside := by
  rw [Dev.maintEnd, foldl_aside _ _ _ fun e m => Dev.finish_aside ..]
  rfl

end

end Sys2Proof.Machine

/-! ## What follows a command: the operations of Bifold, Sill, channels and Louvre

None of these writes host memory, a context or Hinge. One lemma per operation that `Dev.settle` reaches, in the order of the
model. -/

namespace Sys2Proof.Machine

section
variable (d : Dev) (c b n t ch ctx : Nat) (o : BOwner) (p : Nat → Bool)

/-! ### Bifold and Hinge queues -/

@[simp] theorem Dev.draw_aside : d.draw.2.aside = d.aside := Dev.aside_eq rfl rfl rfl

@[simp] theorem Dev.offerBlock_aside (r : BReq) : (d.offerBlock r).aside = d.aside := by
  unfold Dev.offerBlock
  split <;> simp

@[simp] theorem Dev.refillBlocks_aside : d.refillBlocks.aside = d.aside := by
  simp [Dev.refillBlocks, foldl_aside]

@[simp] theorem Dev.unqueue_aside : (d.unqueue o).aside = d.aside := by
  simp only [Dev.unqueue]
  rw [Dev.aside_mk, foldl_aside]
  exact fun d c => Dev.setBcas_aside ..

@[simp] theorem Dev.abandonBlocks_aside : (d.abandonBlocks o).aside = d.aside := by
  simp only [Dev.abandonBlocks]
  rw [foldl_aside]
  exact fun d c => Dev.setBcas_aside ..

@[simp] theorem Dev.bifoldLeave_aside (atOnce : Bool) : (d.bifoldLeave c atOnce).aside = d.aside := by
  simp [Dev.bifoldLeave, foldl_aside]

@[simp] theorem Dev.nvmeStatus_aside (slot st : Nat) : (d.nvmeStatus slot st).aside = d.aside := Dev.oput_aside ..

/-! ### Sill and the memory channels -/

@[simp] theorem Dev.persistWrite_aside : d.persistWrite.aside = d.aside := by
  simp [Dev.persistWrite]

@[simp] theorem Dev.releaseStreams_aside : (d.releaseStreams c p).aside = d.aside :=
  foldl_aside _ _ d fun _ _ => rfl

@[simp] theorem Dev.releaseAllStreams_aside : (d.releaseAllStreams p).aside = d.aside := by
  unfold Dev.releaseAllStreams
  split <;> simp

@[simp] theorem Dev.hold_aside (line : Nat) (cls : SClass) (q : SReq) (declared : Bool) :
    (d.hold c line cls q declared).aside = d.aside := by
  unfold Dev.hold
  dsimp only
  split_ifs <;> simp

@[simp] theorem Dev.maintActs_aside (cmd : Option Nat) (written dropped : Nat) :
    (d.maintActs cmd written dropped).aside = d.aside := by
  unfold Dev.maintActs
  split <;> simp

@[simp] theorem Dev.commitBank_aside (owner : Nat) : (d.commitBank c owner b).aside = d.aside := by
  unfold Dev.commitBank
  refine (foldl_aside _ _ _ fun d w => by simp).trans (foldl_aside _ _ _ fun d l => ?_)
  dsimp only
  split
  · rfl
  · split <;> simp

@[simp] theorem Dev.commitLines_aside (owner : Nat) : (d.commitLines c owner).aside = d.aside := by
  unfold Dev.commitLines
  split <;> simp [foldl_aside]

@[simp] theorem Dev.flushBank_aside : (d.flushBank c b).aside = d.aside := by
  unfold Dev.flushBank
  have hput (d : Dev) (line : Nat) (q : SReq) : (if q.write = [] then d else
      d.writeOut c (({ line := line, data := (d.lineRead line).1 } : SLine).write q)).aside = d.aside := by
    split <;> simp
  simp only []
  rw [foldl_aside, foldl_aside, foldl_aside, foldl_aside]
  · intro d l
    split <;> simp
  · intro d w
    split <;> simp
  · exact fun d r => foldl_aside _ _ d fun d q => hput d r.line q
  · exact fun d w => hput d w.line w.req

@[simp] theorem Dev.sillClear_aside (flush : Bool) : (d.sillClear c flush).aside = d.aside := by
  unfold Dev.sillClear
  split_ifs <;> simp [foldl_aside]

@[simp] theorem Dev.setRetrains_aside (far : Bool) (l : List Nat) : (d.setRetrains far l).aside = d.aside := by
  unfold Dev.setRetrains
  (repeat' split) <;> simp

@[simp] theorem Dev.recordChan_aside (st : Nat) : (d.recordChan ch st).aside = d.aside := by
  simp [Dev.recordChan]

@[simp] theorem Dev.retireChan_aside : (d.retireChan ch).aside = d.aside := by
  unfold Dev.retireChan
  dsimp only
  split
  · rfl
  · split_ifs <;> simp

/-! ### Louvre -/

@[simp] theorem Dev.lvDamage_aside : (d.lvDamage t).aside = d.aside := by
  unfold Dev.lvDamage
  split <;> simp

@[simp] theorem Dev.lvCount_aside (walk : List (Nat × LvEntry)) : (d.lvCount walk).aside = d.aside := by
  unfold Dev.lvCount
  split_ifs <;> simp

@[simp] theorem Dev.lvUnbind_aside : (d.lvUnbind t).aside = d.aside := by
  simp [Dev.lvUnbind]

@[simp] theorem Dev.lvBindCopy_aside (free : List Nat) (lists : List (List LvEntry)) :
    (d.lvBindCopy t c free lists).aside = d.aside :=
  foldl_aside _ _ d fun _ _ => rfl

@[simp] theorem Dev.lvSweep_aside : d.lvSweep.aside = d.aside := by
  simp [Dev.lvSweep, foldl_aside]

@[simp] theorem Dev.lvVerifyFail_aside (index : Nat) (retry again injected : Bool) :
    (d.lvVerifyFail c t index retry again injected).aside = d.aside := by
  unfold Dev.lvVerifyFail
  split <;> simp

@[simp] theorem Dev.lvVerify_aside (index shadow : Nat) (retry twice : Bool) :
    (d.lvVerify c t index shadow retry twice).1.aside = d.aside := by
  unfold Dev.lvVerify
  split_ifs <;> simp

@[simp] theorem Dev.lvClearBank_aside (fenced : Bool) : (d.lvClearBank c b fenced).aside = d.aside := Dev.aside_eq rfl rfl rfl

@[simp] theorem Dev.lvDropCopy_aside : (d.lvDropCopy t c).aside = d.aside := by
  unfold Dev.lvDropCopy
  split <;> simp

@[simp] theorem Dev.lvLoseBank_aside : (d.lvLoseBank c b).aside = d.aside := by
  unfold Dev.lvLoseBank
  dsimp only
  split
  · simp
  · split_ifs <;> simp

@[simp] theorem Dev.lvLoseCasement_aside : (d.lvLoseCasement c).aside = d.aside := by
  unfold Dev.lvLoseCasement
  refine foldl_aside _ _ d fun d b => ?_
  split <;> simp

@[simp] theorem Dev.lvRelease_aside : (d.lvRelease t ctx).aside = d.aside := by
  unfold Dev.lvRelease
  split <;> simp

end

end Sys2Proof.Machine

/-! ## What follows a command: the work of the nodes, which leaves its context to the strip's commit -/

namespace Sys2Proof.Machine

section
variable (d : Dev) (c n ctx home i pane : Nat) (body : Bytes) (s : List ColTy) (nd : Node) (x : Strip)

/-! ### LOUVRE_BUILD, LOOKUP and the joins -/

@[simp] theorem Dev.runLvBuild_aside (es : List LvEntry) (rows : Nat) : (d.runLvBuild body s es rows x).dev.aside = d.aside := by
  simp [Dev.runLvBuild]

@[simp] theorem Dev.lookupRows_aside (t : Nat) (tbl : LvTable) (fs : List KField) (l : List (Bool × Row)) :
    (d.lookupRows t c tbl s fs l).2.aside = d.aside := by
  induction l generalizing d with
  | nil => rfl
  | cons q l ih =>
    simp only [Dev.lookupRows]
    split <;> simp [ih]

@[simp] theorem Dev.runLookup_aside (t : Nat) (ap : Applied) (verify : Option (Nat × Bool)) :
    (d.runLookup c t nd s ap verify x).dev.aside = d.aside := by
  unfold Dev.runLookup
  dsimp only
  repeat' split
  all_goals simp

@[simp] theorem Dev.hjAppend_aside (k : Nat) (st : HjSt) (r : Row) : (d.hjAppend body s k st r).1.aside = d.aside := by
  unfold Dev.hjAppend
  dsimp only
  split_ifs <;> simp

@[simp] theorem Dev.runHjBuild_aside (k : Nat) (st : HjSt) : (d.runHjBuild body s k st x).dev.aside = d.aside :=
  foldl_keeps (fun v : Dev × HjSt => v.1.aside = d.aside) _ (fun _ _ hv => (Dev.hjAppend_aside ..).trans hv) _ _ rfl

@[simp] theorem Dev.probeKey_aside (b : Built) (usePf : Bool) (key : Row) : (d.probeKey b c usePf key).1.aside = d.aside := by
  unfold Dev.probeKey
  dsimp only
  repeat' split
  all_goals simp

@[simp] theorem Dev.probeRow_aside (b : Built) (r : Row) : (d.probeRow b c body r).1.aside = d.aside := by
  simp [Dev.probeRow]

@[simp] theorem Dev.probeRows_aside (b : Built) (l : List (Bool × Row)) : (d.probeRows b c body l).1.aside = d.aside := by
  induction l generalizing d with
  | nil => rfl
  | cons q l ih =>
    simp only [Dev.probeRows]
    rw [ih]
    split <;> simp

@[simp] theorem Dev.runProbe_aside (b : Built) (matched : List Nat) : (d.runProbe b c nd matched x).dev.aside = d.aside := by
  unfold Dev.runProbe
  dsimp only
  split <;> simp

/-! ### Sorts and aggregations -/

@[simp] theorem Dev.countTrunc_aside (e : Nat) (sorted : List SEntry) : (d.countTrunc e sorted).aside = d.aside := by
  unfold Dev.countTrunc
  split <;> simp

@[simp] theorem Dev.runSortRun_aside (st : SortSt) : (d.runSortRun ctx n pane body s st x).dev.aside = d.aside := by
  simp [Dev.runSortRun, foldl_aside]

@[simp] theorem Dev.runTopk_aside (cas : Nat) (parts : Sparse TopPart) : (d.runTopk cas body s parts x).dev.aside = d.aside := Dev.aside_eq rfl rfl rfl

@[simp] theorem Dev.aggRow_aside (loc : Nat) (r : Row) (a : AggSt) : (d.aggRow pane body s loc r a).1.aside = d.aside := by
  unfold Dev.aggRow
  dsimp only
  split_ifs <;> simp

@[simp] theorem Dev.runAgg_aside (a : AggSt) : (d.runAgg pane body s a x).dev.aside = d.aside := by
  unfold Dev.runAgg
  split
  · rfl
  · exact foldl_keeps (fun v : Dev × AggSt => v.1.aside = d.aside) _ (fun _ _ hv => (Dev.aggRow_aside ..).trans hv) _ _ rfl

@[simp] theorem Dev.countNulls_aside (k : CState) : (d.countNulls ctx k).aside = d.aside := by
  simp [Dev.countNulls]

@[simp] theorem Dev.runPartition_aside (dicts : List Nat) (a : AggSt) (p : Nat) :
    (d.runPartition ctx n body s dicts a p).dev.aside = d.aside := by
  unfold Dev.runPartition
  dsimp only
  split_ifs <;> simp

@[simp] theorem Dev.sortAggOut_aside (dicts : List Nat) (seq : Nat) (last : Bool) (done : List Group) :
    (d.sortAggOut ctx n body s dicts seq last done).2.2.aside = d.aside := by
  simp [Dev.sortAggOut]

@[simp] theorem Dev.runSortAgg_aside (g : Option Group) (done : List Group) (seq : Nat) :
    (d.runSortAgg ctx n body s g done seq x).dev.aside = d.aside := by
  unfold Dev.runSortAgg
  split <;> simp

@[simp] theorem Dev.endSortAgg_aside (dicts : List Nat) (g : Option Group) (done : List Group) (seq : Nat) :
    (d.endSortAgg ctx n body s dicts g done seq).2.aside = d.aside := by
  simp [Dev.endSortAgg]

@[simp] theorem Dev.runRange_aside (k : Ctx) (m : MergeSt) : (d.runRange c k n m i).dev.aside = d.aside := by
  unfold Dev.runRange
  split <;> rfl

@[simp] theorem Dev.runFinish_aside (k : Ctx) : (d.runFinish c k n x).dev.aside = d.aside := by
  unfold Dev.runFinish
  split
  · simp
  · dsimp only
    split <;> simp
  · rfl

/-! ### SCAN and SHUFFLE_OUT -/

@[simp] theorem Dev.resultBlock_aside (sink seq flags slot : Nat) (rows : List Row) :
    (d.resultBlock ctx sink seq flags slot s rows).2.aside = d.aside := Dev.aside_eq rfl rfl rfl

@[simp] theorem Dev.serialize_aside (rows : List Row) : (d.serialize s rows).2.aside = d.aside := Dev.aside_eq rfl rfl rfl

@[simp] theorem Dev.closeStaging_aside (dst : Nat) (rows : List (Nat × Row)) : (d.closeStaging ctx n s dst rows).aside = d.aside := by
  unfold Dev.closeStaging
  dsimp only
  repeat' split
  all_goals simp

@[simp] theorem Dev.stageRow_aside (flush dst p : Nat) (st : Sparse (List (Nat × Row))) (r : Row) :
    (d.stageRow ctx n flush s st dst p r).1.aside = d.aside := by
  unfold Dev.stageRow
  dsimp only
  split_ifs <;> simp

@[simp] theorem Dev.runShuffleOut_aside (st : Sparse (List (Nat × Row))) : (d.runShuffleOut ctx n body s st x).dev.aside = d.aside := by
  refine foldl_keeps (fun v : Dev × Sparse (List (Nat × Row)) => v.1.aside = d.aside) _ (fun _ _ hv => ?_) _ _ rfl
  exact foldl_keeps (fun v : Dev × Sparse (List (Nat × Row)) => v.1.aside = d.aside) _
    (fun _ _ hv => (Dev.stageRow_aside ..).trans hv) _ _ hv

@[simp] theorem Dev.endShuffleOut_aside (st : Sparse (List (Nat × Row))) : (d.endShuffleOut ctx n s st).aside = d.aside := by
  simp [Dev.endShuffleOut, foldl_aside]

@[simp] theorem Dev.releaseCredit_aside (count : Nat) : (d.releaseCredit ctx n count).aside = d.aside := Dev.aside_eq rfl rfl rfl

@[simp] theorem Dev.dropFlows_aside : (d.dropFlows ctx).aside = d.aside := Dev.aside_eq rfl rfl rfl

/-! ### One strip of a node -/

@[simp] theorem Dev.runPlain_aside (k : Ctx) (y : Option Strip) : (d.runPlain c k nd x y).dev.aside = d.aside := by
  unfold Dev.runPlain
  split_ifs <;> simp

@[simp] theorem Dev.runNode_aside (w : Work) : (d.runNode w).dev.aside = d.aside := by
  unfold Dev.runNode
  dsimp only
  repeat' split
  all_goals simp

end

end Sys2Proof.Machine

/-! ## What follows a command: what a watch sees of it

A watch is on host memory, and on one list that brings a block of a SCAN of one pipeline. `Dev.settle` never writes host memory; and
where a pipeline without a program ends up failed with UNCORRECTED, its lists were not cut in `Dev.settle`, since nothing there fails
such a pipeline with that status. -/

namespace Sys2Proof.Machine

/-! ### The watch -/

/-- What is watched: the bytes of host memory, and a list on a channel that reads a block of a node of a context. -/
structure Watch where
  host : Sparse Byte
  ctx : Nat
  node : Nat
  block : BReq
  chan : Nat
  list : HList
  isRead : list.owner = .scan block
  ofCtx : block.owner = .scan ctx node

/-- A context is listed twice or has a program. -/
def Loose (c : Nat) (m : Sparse Ctx) : Prop :=
  1 < m.countP (fun p => p.1 == c) ∨ (Sparse.get {} m c).prog ≠ {}

/-- A context is listed twice, has a program, or has not failed with UNCORRECTED. -/
def Spared (c : Nat) (m : Sparse Ctx) : Prop := Loose c m ∨ (Sparse.get {} m c).ending ≠ some 0x0702

/-- Host memory is what it was, and the watched list stands on its channel, or its context is spared. -/
def Watch.Kept (q : Watch) (v : Sparse Byte × Sparse Ctx × Hinge) : Prop :=
  v.1 = q.host ∧ (Spared q.ctx v.2.1 ∨ q.list ∈ (Sparse.get {} v.2.2.chans q.chan).lists)

theorem Watch.kept_iff {q : Watch} {d : Dev} :
    q.Kept d.aside ↔ d.host = q.host ∧ (Spared q.ctx d.pipes.ctxs ∨ q.list ∈ (d.hchan q.chan).lists) := Iff.rfl

/-! ### Contexts -/

theorem Sparse.countP_insert {α : Type} (m : Sparse α) (k c : Nat) (v : α) :
    m.countP (fun p => p.1 == c) ≤ (Sparse.insert m k v).countP (fun p => p.1 == c) := by
  induction m with
  | nil => simp
  | cons p m ih =>
    simp only [Sparse.insert]
    split
    next heq => simp [List.countP_cons, heq]
    next =>
      split
      · simp [List.countP_cons]
      · simp only [List.countP_cons]
        omega

theorem Sparse.countP_erase {α : Type} (m : Sparse α) {k c : Nat} (h : c ≠ k) :
    (Sparse.erase m k).countP (fun p => p.1 == c) = m.countP (fun p => p.1 == c) := by
  rw [Sparse.erase, List.countP_filter]
  refine List.countP_congr fun p _ => ?_
  simp only [ne_eq, decide_not, Bool.and_eq_true, beq_iff_eq, Bool.not_eq_true', decide_eq_false_iff_not, and_iff_left_iff_imp]
  rintro rfl
  exact h

theorem Loose.set_self {c : Nat} {m : Sparse Ctx} {x : Ctx} (h : Loose c m) (hx : x ≠ {})
    (hprog : x.prog = (Sparse.get {} m c).prog) : Loose c (Sparse.set {} m c x) := by
  rcases h with htwo | hp
  · refine .inl (htwo.trans_le ?_)
    rw [Sparse.set, if_neg hx]
    exact Sparse.countP_insert m c c x
  · exact .inr (by rw [Sparse.get_set_self, hprog]; exact hp)

theorem Loose.set_ne {c k : Nat} {m : Sparse Ctx} {x : Ctx} (h : Loose c m) (hk : c ≠ k) : Loose c (Sparse.set {} m k x) := by
  rw [Loose, Sparse.get_set_ne {} {} m x hk]
  refine h.imp_left fun htwo => ?_
  rw [Sparse.set]
  split
  · rwa [Sparse.countP_erase m hk]
  · exact htwo.trans_le (Sparse.countP_insert m k c x)

theorem Spared.of_ending {c : Nat} {m : Sparse Ctx} {x : Ctx} (h : x.ending ≠ some 0x0702) : Spared c (Sparse.set {} m c x) :=
  .inr (by rwa [Sparse.get_set_self])

theorem Spared.set_ne {c k : Nat} {m : Sparse Ctx} {x : Ctx} (h : Spared c m) (hk : c ≠ k) :
    Spared c (Sparse.set {} m k x) := by
  rcases h with hloose | he
  · exact .inl (hloose.set_ne hk)
  · exact .inr (by rwa [Sparse.get_set_ne {} {} m x hk])

/-- A context that is put back with its program, and with no other status than it had, stays spared. -/
theorem Spared.set {c k : Nat} {m : Sparse Ctx} {x : Ctx} (h : Spared c m) (hprog : x = {} ∨ x.prog = (Sparse.get {} m k).prog)
    (hending : x.ending = some 0x0702 → (Sparse.get {} m k).ending = some 0x0702) : Spared c (Sparse.set {} m k x) := by
  by_cases hk : c = k
  · subst hk
    by_cases hx : x = {}
    · exact .of_ending (by rw [hx]; simp)
    · rcases h with hloose | he
      · exact .inl (hloose.set_self hx (hprog.resolve_left hx))
      · exact .of_ending fun h => he (hending h)
  · exact h.set_ne hk

section
variable {q : Watch} {d : Dev}

theorem Watch.Kept.setCtx {c : Nat} {x : Ctx} (h : q.Kept d.aside) (hprog : x = {} ∨ x.prog = (d.ctx c).prog)
    (hending : x.ending = some 0x0702 → (d.ctx c).ending = some 0x0702) : q.Kept (d.setCtx c x).aside :=
  ⟨h.1, h.2.imp_left fun hs => hs.set hprog hending⟩

theorem Watch.Kept.setCtx_ne {c : Nat} {x : Ctx} (h : q.Kept d.aside) (hc : c ≠ q.ctx) : q.Kept (d.setCtx c x).aside :=
  ⟨h.1, h.2.imp_left fun hs => hs.set_ne hc.symm⟩

/-! ### Lists on channels -/

theorem Dev.hchan_cutLists (d : Dev) (p : Owner → Bool) (st n : Nat) :
    (d.cutLists p st).hchan n = (d.hchan n).cut d.hinge.halt p st := by
  have hmap : ∀ m : Sparse HChan, Sparse.get {} (m.map fun r => (r.1, r.2.cut d.hinge.halt p st)) n
      = (Sparse.get {} m n).cut d.hinge.halt p st := by
    intro m
    induction m with
    | nil => rfl
    | cons r m ih =>
      simp only [List.map_cons, Sparse.get]
      split
      · rfl
      · exact ih
  exact hmap d.hinge.chans

theorem HChan.mem_cut {x : HChan} {halt : Bool} {p : Owner → Bool} {st : Nat} {l : HList} (hl : l ∈ x.lists)
    (hp : p l.owner = false) : l ∈ (x.cut halt p st).lists := by
  unfold HChan.cut
  split
  next hnil => simp [hnil] at hl
  next a t hlists =>
    have htail : l = a ∨ l ∈ t.filter (fun l => !p l.owner) := by
      rw [hlists] at hl
      exact (List.mem_cons.mp hl).imp_right fun hmem => List.mem_filter.mpr ⟨hmem, by simp [hp]⟩
    dsimp only
    split_ifs with ha
    · exact List.mem_cons.mpr htail
    · exact htail.resolve_left fun e => ha (e ▸ hp)
    · exact List.mem_cons_of_mem _ (htail.resolve_left fun e => ha (e ▸ hp))

theorem Watch.Kept.cutLists {p : Owner → Bool} {st : Nat} (h : q.Kept d.aside)
    (hp : p q.list.owner = true → Spared q.ctx d.pipes.ctxs) : q.Kept (d.cutLists p st).aside := by
  obtain ⟨hhost, hmark⟩ := Watch.kept_iff.mp h
  refine Watch.kept_iff.mpr ⟨hhost, hmark.elim .inl fun hmem => ?_⟩
  cases hcut : p q.list.owner with
  | true => exact .inl (hp hcut)
  | false => exact .inr (by rw [Dev.hchan_cutLists]; exact HChan.mem_cut hmem hcut)

theorem Watch.Kept.issueList {pool : List Nat} {w : Owner} {tag : Nat} {work : List EDesc} (h : q.Kept d.aside) :
    q.Kept (d.issueList pool w tag work).aside := by
  obtain ⟨hhost, hmark⟩ := Watch.kept_iff.mp h
  refine Watch.kept_iff.mpr ⟨hhost, hmark.imp_right fun hmem => ?_⟩
  unfold Dev.issueList Dev.enqueueList
  by_cases hn : q.chan = d.leastQueued pool
  · rw [← hn, Dev.hchan_setHchan]
    exact List.mem_append_left _ hmem
  · rwa [Dev.hchan_setHchan_ne _ _ hn]

/-! ### Jobs of Bifold -/

theorem Watch.reads_iff (q : Watch) {o : BOwner} : q.list.owner.reads o = true ↔ o = .scan q.ctx q.node := by
  rw [q.isRead, Owner.reads, q.ofCtx, beq_iff_eq, eq_comm]

theorem Dev.dropJob_aside (d : Dev) (o : BOwner) :
    (d.dropJob o).aside = (((d.unqueue o).abandonBlocks o).cutLists (fun w => w.reads o) 0x0402).aside := by
  simp only [Dev.dropJob]
  rw [Dev.refillBlocks_aside, Dev.aside_mk]

theorem Watch.Kept.dropJob {o : BOwner} (h : q.Kept d.aside) (ho : o = .scan q.ctx q.node → Spared q.ctx d.pipes.ctxs) :
    q.Kept (d.dropJob o).aside := by
  have hbase : ((d.unqueue o).abandonBlocks o).aside = d.aside := by simp
  rw [Dev.dropJob_aside]
  refine Watch.Kept.cutLists (by rwa [hbase]) fun hreads => ?_
  have hctxs : ((d.unqueue o).abandonBlocks o).pipes.ctxs = d.pipes.ctxs := congrArg (·.2.1) hbase
  rw [hctxs]
  exact ho (q.reads_iff.mp hreads)

end

end Sys2Proof.Machine

/-! ## What follows a command: the nodes of pipelines -/

namespace Sys2Proof.Machine

section
variable {q : Watch} {d r : Dev} {c n p k t : Nat} {x : Ctx} {w : Work}

theorem Watch.Kept.foldl {α : Type} {g : Dev → α → Dev} (hg : ∀ e a, q.Kept e.aside → q.Kept (g e a).aside) (l : List α)
    (h : q.Kept d.aside) : q.Kept (l.foldl g d).aside :=
  foldl_keeps (fun e => q.Kept e.aside) g hg l d h

/-! ### Operations that touch neither contexts, Hinge nor host memory -/

@[simp] theorem Dev.lookupBoundary_aside : (d.lookupBoundary t).aside = d.aside := Dev.aside_eq rfl rfl rfl

@[simp] theorem Dev.oweCancel_aside : (d.oweCancel x).aside = d.aside := by
  unfold Dev.oweCancel
  split <;> rfl

@[simp] theorem Dev.pipeFinish_aside (id st : Nat) (noEffect sealed : Bool) :
    (d.pipeFinish id c st noEffect sealed).aside = d.aside := Dev.finish_aside ..

@[simp] theorem Dev.evictCtx_aside : (d.evictCtx c).aside = d.aside := by
  simp [Dev.evictCtx]

/-! ### Nodes of a context -/

@[simp] theorem Watch.Kept.setNode (y : NodeRun) (h : q.Kept d.aside) : q.Kept (d.setNode c n y).aside :=
  h.setCtx (.inr rfl) id

@[simp] theorem Watch.Kept.toStore (port : Nat) (s : Strip) (h : q.Kept d.aside) : q.Kept (d.toStore c n port s).aside := by
  unfold Dev.toStore
  dsimp only
  split <;> simp [h]

@[simp] theorem Watch.Kept.toMatching (h : q.Kept d.aside) : q.Kept (d.toMatching c n).aside := h.setNode _

@[simp] theorem Watch.Kept.matchWithConsumers (h : q.Kept d.aside) : q.Kept (d.matchWithConsumers c n).aside :=
  .foldl (fun _ _ he => he.toMatching) _ h.toMatching

theorem Watch.Kept.addChunk {key : Nat} (h : q.Kept d.aside) (hr : d.addChunk c n key = some r) : q.Kept r.aside := by
  obtain ⟨m, -, rfl⟩ := Option.map_eq_some_iff.mp hr
  exact h.setNode _

theorem Watch.Kept.addChunks {key m : Nat} (h : q.Kept d.aside) (hr : d.addChunks c n key m = some r) : q.Kept r.aside := by
  induction m generalizing d with
  | zero => exact Option.some.inj hr ▸ h
  | succ m ih =>
    obtain ⟨e, hadd, hrest⟩ := Option.bind_eq_some_iff.mp hr
    exact ih (h.addChunk hadd) hrest

theorem Watch.Kept.growAreas {l : List (Nat × Nat)} (h : q.Kept d.aside) (hr : d.growAreas c n l = some r) : q.Kept r.aside := by
  induction l generalizing d with
  | nil => exact Option.some.inj hr ▸ h
  | cons a l ih =>
    obtain ⟨e, hadd, hrest⟩ := Option.bind_eq_some_iff.mp hr
    exact ih (h.addChunks hadd) hrest

theorem Watch.Kept.takeChunks (h : q.Kept d.aside) (hr : d.takeChunks c n = some r) : q.Kept r.aside := h.growAreas hr

@[simp] theorem Watch.Kept.freeArea (key : Nat) (h : q.Kept d.aside) : q.Kept (d.freeArea c n key).aside := h.setNode _

@[simp] theorem Watch.Kept.grant (h : q.Kept d.aside) : q.Kept (d.grant p).aside := by
  unfold Dev.grant
  dsimp only
  split
  · exact h
  · split <;> simp [h]

/-! ### Tables of the Louvre -/

/-- Contexts whose keys, programs and statuses stand are spared as before. -/
theorem Spared.map {m : Sparse Ctx} {f : Nat × Ctx → Nat × Ctx} (h : Spared c m) (hkey : ∀ p, (f p).1 = p.1)
    (hprog : ∀ p, (f p).2.prog = p.2.prog) (hending : ∀ p, (f p).2.ending = p.2.ending) : Spared c (m.map f) := by
  have hcount : (m.map f).countP (fun p => p.1 == c) = m.countP (fun p => p.1 == c) := by
    rw [List.countP_map]
    exact List.countP_congr fun p _ => by simp [hkey]
  have hget (m : Sparse Ctx) : (Sparse.get {} (m.map f) c).prog = (Sparse.get {} m c).prog
      ∧ (Sparse.get {} (m.map f) c).ending = (Sparse.get {} m c).ending := by
    induction m with
    | nil => exact ⟨rfl, rfl⟩
    | cons p m ih =>
      rw [List.map_cons, ← Prod.mk.eta (p := f p), ← Prod.mk.eta (p := p), hkey]
      simp only [Sparse.get]
      split
      · exact ⟨hprog p, hending p⟩
      · exact ih
  rwa [Spared, Loose, hcount, (hget m).1, (hget m).2]

@[simp] theorem Watch.Kept.lvRetire (owner : Option Nat) (h : q.Kept d.aside) : q.Kept (d.lvRetire t owner).aside := by
  unfold Dev.lvRetire
  dsimp only
  split
  · simpa using h
  · refine ⟨h.1, h.2.imp_left fun hs => hs.map (fun p => ?_) (fun p => ?_) fun p => ?_⟩ <;> split <;> rfl

theorem Watch.Kept.lvBind {y : LvTable} {es : List LvEntry} (h : q.Kept d.aside) (hr : d.lvBind t y es = some r) :
    q.Kept r.aside := by
  unfold Dev.lvBind at hr
  dsimp only at hr
  split_ifs at hr
  obtain rfl := Option.some.inj hr
  rw [Dev.setLvTable_aside, foldl_aside _ _ _ fun e c => Dev.lvBindCopy_aside ..]
  exact h.lvRetire _

theorem Watch.Kept.bindOwners {seed : Nat} {ts : List ColTy} {st : HjSt} {l : List (Nat × Nat)} (h : q.Kept d.aside)
    (hr : d.bindOwners c t seed ts st l = some r) : q.Kept r.aside := by
  induction l generalizing d with
  | nil => exact Option.some.inj hr ▸ h
  | cons a l ih =>
    simp only [Dev.bindOwners] at hr
    split at hr
    · simp at hr
    · split at hr
      next hbind => exact ih (Watch.Kept.lvBind (by simpa using h) hbind) hr
      next => simp at hr

@[simp] theorem Watch.Kept.loadPrefilter (body : Bytes) (cas : List Nat) (st : HjSt) (h : q.Kept d.aside) :
    q.Kept (d.loadPrefilter c body cas st).1.aside := by
  unfold Dev.loadPrefilter
  dsimp only
  split
  · simp [h]
  · split
    next hbind => exact Watch.Kept.lvBind (by simpa using h) hbind
    next => simp [h]

theorem Watch.Kept.endHjBuild {body : Bytes} {s : List ColTy} {cas : List Nat} {st : HjSt} {v : Dev × HjSt} (h : q.Kept d.aside)
    (hr : d.endHjBuild c body s cas st = some v) : q.Kept v.1.aside := by
  unfold Dev.endHjBuild at hr
  dsimp only at hr
  split at hr
  · obtain ⟨e, hbind, rfl⟩ := Option.map_eq_some_iff.mp hr
    exact h.bindOwners hbind
  · split at hr <;> obtain rfl := Option.some.inj hr
    · exact h.loadPrefilter ..
    · exact h

/-! ### Blocks asked for and blocks sent -/

theorem Watch.Kept.askBlock {home i : Nat} {noCheck : Bool} {y : ScanCol} {v : Dev × ScanCol} (h : q.Kept d.aside)
    (hr : d.askBlock c n home i noCheck y = some v) : q.Kept v.1.aside := by
  unfold Dev.askBlock at hr
  extract_lets b slotOk at hr
  split at hr
  · simp at hr
  · split at hr
    · split at hr
      · simp at hr
      · split at hr <;> obtain rfl := Option.some.inj hr
        · dsimp only
          split <;> simp [h]
        · exact h
    · obtain rfl := Option.some.inj hr
      dsimp only
      refine Watch.Kept.issueList ?_
      split <;> simp [h]

@[simp] theorem Watch.Kept.askBlocks (home i : Nat) (noCheck : Bool) (m : Nat) (y : ScanCol) (h : q.Kept d.aside) :
    q.Kept (d.askBlocks c n home i noCheck m y).1.aside := by
  induction m generalizing d y with
  | zero => exact h
  | succ m ih =>
    simp only [Dev.askBlocks]
    split
    next hask => exact ih _ (h.askBlock hask)
    next => exact h

@[simp] theorem Watch.Kept.sendBlock (sink seq : Nat) (s : Sink) (body : Bytes) (h : q.Kept d.aside) :
    q.Kept (d.sendBlock c sink seq s body).aside := by
  unfold Dev.sendBlock
  dsimp only
  split
  · exact h.issueList.setCtx (.inr rfl) id
  · exact h.issueList

theorem Watch.Kept.closeBlock {rows : List Row} {last : Bool} {e : EmitSt} {v : Dev × EmitSt} (h : q.Kept d.aside)
    (hr : d.closeBlock c n rows last e = some v) : q.Kept v.1.aside := by
  unfold Dev.closeBlock at hr
  dsimp only at hr
  split at hr
  · simp at hr
  · obtain rfl := Option.some.inj hr
    simp [h]

@[simp] theorem Watch.Kept.closeBlocks (l : List (List Row)) (e : EmitSt) (h : q.Kept d.aside) :
    q.Kept (d.closeBlocks c n l e).1.aside := by
  induction l generalizing d e with
  | nil => exact h
  | cons b l ih =>
    simp only [Dev.closeBlocks]
    split
    next hclose => exact ih _ (h.closeBlock hclose)
    next => exact h

@[simp] theorem Watch.Kept.emitRows (e : EmitSt) (h : q.Kept d.aside) : q.Kept (d.emitRows c n e).1.aside := by
  unfold Dev.emitRows
  dsimp only
  split <;> simp [h]

end

end Sys2Proof.Machine

/-! ## What follows a command: how pipelines fail by themselves

Of a pipeline without a program no work fails with UNCORRECTED. -/

namespace Sys2Proof.Machine

section
variable (d : Dev) (c n pane : Nat) (body : Bytes) (s : List ColTy) (x : Strip)

/-! ### The work of a node -/

theorem Dev.runLvBuild_fail (es : List LvEntry) (rows : Nat) : (d.runLvBuild body s es rows x).fail ≠ some 0x0702 := by
  simp only [Dev.runLvBuild]
  split <;> simp

theorem Dev.runHjBuild_fail (k : Nat) (st : HjSt) : (d.runHjBuild body s k st x).fail ≠ some 0x0702 := by
  simp only [Dev.runHjBuild]
  split <;> simp

theorem Dev.runAgg_fail (a : AggSt) : (d.runAgg pane body s a x).fail ≠ some 0x0702 := by
  simp only [Dev.runAgg]
  split <;> simp

theorem Dev.runSortAgg_fail (g : Option Group) (done : List Group) (seq : Nat) :
    (d.runSortAgg c n body s g done seq x).fail ≠ some 0x0702 := by
  simp only [Dev.runSortAgg]
  split <;> simp

theorem Dev.runPartition_fail (dicts : List Nat) (a : AggSt) (p : Nat) :
    (d.runPartition c n body s dicts a p).fail ≠ some 0x0702 := by
  simp only [Dev.runPartition]
  split_ifs <;> simp

theorem Dev.runRange_fail (k : Ctx) (m : MergeSt) (i : Nat) : (d.runRange c k n m i).fail ≠ some 0x0702 := by
  simp only [Dev.runRange]
  split_ifs <;> simp

theorem Dev.runFinish_fail (k : Ctx) : (d.runFinish c k n x).fail ≠ some 0x0702 := by
  unfold Dev.runFinish
  split
  · apply Dev.runRange_fail
  · dsimp only
    split
    · simp
    · apply Dev.runPartition_fail
  · simp

theorem Dev.runPlain_fail (k : Ctx) (nd : Node) (y : Option Strip) : (d.runPlain c k nd x y).fail ≠ some 0x0702 := by
  simp only [Dev.runPlain]
  split_ifs <;> simp

/-! ### Probes of a build that PATH does not send to owner tables -/

theorem Dev.readBucket_fail (b : Built) (p h : Nat) (key : Row) : (d.readBucket b p h key).fail ≠ some 0x0702 := by
  unfold Dev.readBucket
  split
  · simp
  · dsimp only
    split <;> simp

theorem Dev.probeKey_fail {b : Built} (hpath : fieldAt b.body 0 1 ≠ 1) (usePf : Bool) (key : Row) :
    (d.probeKey b c usePf key).2.fail ≠ some 0x0702 := by
  unfold Dev.probeKey
  dsimp only
  rw [if_neg hpath]
  split
  · simp
  · split
    · simp
    · apply Dev.readBucket_fail
    · apply Dev.readBucket_fail

theorem Dev.probeRows_fail {b : Built} (hpath : fieldAt b.body 0 1 ≠ 1) (l : List (Bool × Row)) :
    (d.probeRows b c body l).2.2 ≠ some 0x0702 := by
  induction l generalizing d with
  | nil => simp [Dev.probeRows]
  | cons a l ih =>
    simp only [Dev.probeRows, ne_eq, Option.or_eq_some_iff, not_or, not_and]
    refine ⟨?_, fun _ => ih _⟩
    split
    · exact Dev.probeKey_fail _ _ hpath _ _
    · simp

theorem Dev.runProbe_fail {b : Built} (hpath : fieldAt b.body 0 1 ≠ 1) (nd : Node) (matched : List Nat) :
    (d.runProbe b c nd matched x).fail ≠ some 0x0702 := by
  simp only [Dev.runProbe]
  split
  · exact Dev.probeRows_fail _ _ _ hpath _
  · simp

/-! ### A strip of a pipeline without a program -/

theorem Dev.runNode_fail {w : Work} (hprog : (d.ctx w.ctx).prog = {}) : (d.runNode w).fail ≠ some 0x0702 := by
  have hop : ((d.ctx w.ctx).prog.node w.node).op = 0 := by rw [hprog]; rfl
  have hpath (nd : Node) : fieldAt ((d.ctx w.ctx).built w.ctx nd).body 0 1 ≠ 1 := by
    have hbody : ((d.ctx w.ctx).built w.ctx nd).body = [] := by simp only [Ctx.built, hprog]; rfl
    rw [hbody]
    decide
  unfold Dev.runNode
  dsimp only
  split
  · simp
  · split
    · apply Dev.runFinish_fail
    · split
      · simp
      · split
        · simp
        · split
          · apply Dev.runLvBuild_fail
          · apply Dev.runHjBuild_fail
          · exact Dev.runProbe_fail _ _ _ (hpath _) _ _
          · simp [Dev.runSortRun]
          · simp
          · simp [Dev.runTopk]
          · apply Dev.runAgg_fail
          · apply Dev.runSortAgg_fail
          · simp [Dev.runShuffleOut]
          · simp
          · simp
          · rw [hop, if_neg (by decide), if_neg (by decide)]
            apply Dev.runPlain_fail

end

section
variable {q : Watch} {d r : Dev} {c n : Nat} {x : Ctx} {w : Work}

/-! ### A pipeline that fails -/

theorem Dev.dropJob_host_ctxs (o : BOwner) :
    (d.dropJob o).host = d.host ∧ (d.dropJob o).pipes.ctxs = d.pipes.ctxs := by
  have hbase : ((d.unqueue o).abandonBlocks o).aside = d.aside := by simp
  have hjob := d.dropJob_aside o
  generalize (d.unqueue o).abandonBlocks o = e at hbase hjob
  exact ⟨(congrArg (·.1) hjob).trans (congrArg (·.1) hbase), (congrArg (·.2.1) hjob).trans (congrArg (·.2.1) hbase)⟩

/-- The nodes of a context stop; its program and state stand. -/
theorem Dev.stopNodes_host_ctxs (d : Dev) (c : Nat) : (d.stopNodes c).host = d.host
    ∧ ∃ x : Ctx, x.prog = (d.ctx c).prog ∧ x.state = (d.ctx c).state
      ∧ (d.stopNodes c).pipes.ctxs = Sparse.set {} d.pipes.ctxs c x := by
  unfold Dev.stopNodes
  extract_lets mine p e₁ e₂ x
  have he : e₂.host = d.host ∧ e₂.pipes.ctxs = d.pipes.ctxs :=
    foldl_keeps (fun e : Dev => e.host = d.host ∧ e.pipes.ctxs = d.pipes.ctxs) _
      (fun e o he => ⟨(Dev.dropJob_host_ctxs o).1.trans he.1, (Dev.dropJob_host_ctxs o).2.trans he.2⟩) _ _ ⟨rfl, rfl⟩
  have hx : x = d.ctx c := by
    rw [Dev.ctx, ← he.2]
    rfl
  refine ⟨he.1, { x with nodes := x.nodes.map fun y => { home := y.home, areas := y.areas } },
    by rw [← hx], by rw [← hx], ?_⟩
  rw [← he.2]
  rfl

theorem Watch.Kept.stopNodes_ne (h : q.Kept d.aside) (hc : c ≠ q.ctx) : q.Kept (d.stopNodes c).aside := by
  unfold Dev.stopNodes
  extract_lets mine p e₁ e₂ x
  have he : q.Kept e₂.aside := by
    refine List.foldlRecOn _ _ (motive := fun e : Dev => q.Kept e.aside) h fun e he o ho => ?_
    refine he.dropJob fun heq => absurd (List.mem_filter.mp ho).2 ?_
    simpa [heq, mine] using Ne.symm hc
  exact Watch.Kept.setCtx (by rwa [Dev.dropFlows_aside]) (.inr rfl) id

/-- A watched pipeline fails with UNCORRECTED only where it has a program or is listed twice. -/
theorem Watch.Kept.failCtx_of {st : Nat} (h : q.Kept d.aside) (hst : st = 0x0702 → c = q.ctx → Loose q.ctx d.pipes.ctxs) :
    q.Kept (d.failCtx c st).aside := by
  unfold Dev.failCtx
  extract_lets x e
  split
  · exact h
  next hactive =>
    by_cases hc : c = q.ctx
    · obtain ⟨hhost, y, hprog, hstate, hctxs⟩ := d.stopNodes_host_ctxs c
      have he : e.aside = (d.stopNodes c).aside := Dev.oweCancel_aside
      have hectxs : e.pipes.ctxs = Sparse.set {} d.pipes.ctxs c y := (congrArg (·.2.1) he).trans hctxs
      refine ⟨(congrArg (·.1) he).trans (hhost.trans h.1), ?_⟩
      rw [← hc]
      by_cases hstatus : st = 0x0702
      · have hy : y ≠ {} := by
          rintro rfl
          have hidle : x.active = false := by simp [Ctx.active, x, ← hstate]
          exact hactive (.inl hidle)
        have hloose : Loose c e.pipes.ctxs := by
          rw [hectxs]
          exact (hc ▸ hst hstatus hc).set_self hy hprog
        exact .inl (.inl (hloose.set_self (fun hz => by simpa using congrArg Ctx.ending hz) rfl))
      · exact .inl (.of_ending (by simpa using hstatus))
    · exact Watch.Kept.setCtx_ne (by simpa [e] using h.stopNodes_ne hc) hc

@[simp] theorem Watch.Kept.failCtx {st : Nat} (hst : st ≠ 0x0702) (h : q.Kept d.aside) : q.Kept (d.failCtx c st).aside :=
  h.failCtx_of fun he => absurd he hst

end

end Sys2Proof.Machine

/-! ## What follows a command: contexts and boundaries, and the whole -/

namespace Sys2Proof.Machine

section
variable {q : Watch} {d r : Dev} {c n p k : Nat} {x : Ctx} {w : Work}

/-! ### Reading through what is left alone -/

theorem Dev.ctx_of_aside {e : Dev} (he : e.aside = d.aside) (c : Nat) : e.ctx c = d.ctx c := by
  have hctxs : e.pipes.ctxs = d.pipes.ctxs := congrArg (·.2.1) he
  rw [Dev.ctx, hctxs, Dev.ctx]

theorem Watch.Kept.of_aside {e : Dev} (h : q.Kept d.aside) (he : e.aside = d.aside) : q.Kept e.aside := he ▸ h

theorem Watch.Kept.ite {b : Prop} [Decidable b] {e : Dev} (h : q.Kept d.aside) (he : q.Kept e.aside) :
    q.Kept (if b then d else e).aside := by
  split
  · exact h
  · exact he

/-! ### The ends of contexts -/

@[simp] theorem Watch.Kept.freeCtx (h : q.Kept d.aside) : q.Kept (d.freeCtx c).aside := by
  unfold Dev.freeCtx
  exact Watch.Kept.setCtx (by rwa [foldl_aside _ _ _ fun _ _ => Dev.lvUnbind_aside ..]) (.inl rfl) (by simp)

@[simp] theorem Watch.Kept.endWaiters (st : Nat) (l : List Nat) (h : q.Kept d.aside) : q.Kept (d.endWaiters c st l).aside := by
  induction l generalizing d with
  | nil => exact h
  | cons id l ih =>
    simp only [Dev.endWaiters]
    refine ih ?_
    split
    · exact h
    · split_ifs <;> simp [h]

@[simp] theorem Watch.Kept.closeCtx (state st : Nat) (part sealed : Bool) (h : q.Kept d.aside) :
    q.Kept (d.closeCtx c state st part sealed).aside := by
  unfold Dev.closeCtx
  extract_lets x e₁ e₂ e₃ e₄
  have he : q.Kept e₃.aside := by
    have h₁ : e₁.aside = d.aside := by simp [e₁]
    rw [Dev.lvSweep_aside]
    exact (h.of_aside h₁).setCtx (.inr (by rw [Dev.ctx_of_aside h₁])) (by simp)
  refine Watch.Kept.endWaiters _ _ ?_
  simp only [e₄]
  split
  · rwa [Dev.pipeFinish_aside]
  · exact he

/-! ### Strips that commit and node strip boundaries -/

@[simp] theorem Watch.Kept.modeAt (h : q.Kept d.aside) : q.Kept (d.modeAt c n).aside := by
  unfold Dev.modeAt
  dsimp only
  split_ifs <;> simp [h]

@[simp] theorem Watch.Kept.sourceDone (h : q.Kept d.aside) : q.Kept (d.sourceDone w).aside := by
  have hset (m : Nat) : q.Kept (d.setCtx w.ctx { d.ctx w.ctx with stripsDone := m }).aside := h.setCtx (.inr rfl) id
  unfold Dev.sourceDone
  dsimp only
  split
  · rw [foldl_aside _ _ _ fun _ _ => Dev.releaseCredit_aside ..]
    exact hset _
  · exact hset _

theorem Dev.emitRows_status (d : Dev) (c n : Nat) (e : EmitSt) : (d.emitRows c n e).2.2 ≠ some 0x0702 := by
  simp only [Dev.emitRows]
  split <;> simp

@[simp] theorem Watch.Kept.emitDone (rows : Nat) (h : q.Kept d.aside) : q.Kept (d.emitDone w rows).aside := by
  unfold Dev.emitDone
  split
  next e _ =>
    have he {y : NodeRun} : q.Kept ((d.emitRows w.ctx w.node e).1.setCtx w.ctx
        ({ (d.emitRows w.ctx w.node e).1.ctx w.ctx with
          rowsEmitted := ((d.emitRows w.ctx w.node e).1.ctx w.ctx).rowsEmitted + rows }.setNode w.node y)).aside :=
      (h.emitRows e).setCtx (.inr rfl) id
    dsimp only
    split
    next st hst => exact he.failCtx fun heq => Dev.emitRows_status d w.ctx w.node e (heq ▸ hst)
    next => exact he
  next => exact h

@[simp] theorem Watch.Kept.applyAt (h : q.Kept d.aside) : q.Kept (d.applyAt c n).aside := by
  unfold Dev.applyAt
  dsimp only
  split <;> simp [h]

@[simp] theorem Watch.Kept.commit (h : q.Kept d.aside) : q.Kept (d.commit w).aside := by
  have hmade : q.Kept (d.runNode w).dev.aside := by rwa [Dev.runNode_aside]
  unfold Dev.commit
  dsimp only
  split
  next st hfail =>
    refine hmade.failCtx_of fun hst hc => ?_
    have hctxs : (d.runNode w).dev.pipes.ctxs = d.pipes.ctxs := congrArg (·.2.1) (Dev.runNode_aside d w)
    rw [hctxs, ← hc]
    exact .inr fun hprog => Dev.runNode_fail d hprog (hst ▸ hfail)
  next =>
    split
    · exact hmade
    · split <;> simp [h]

@[simp] theorem Watch.Kept.enterFinish (out : List Strip) (h : q.Kept d.aside) : q.Kept (d.enterFinish c n out).aside := h.setNode _

@[simp] theorem Watch.Kept.startPass (m : MergeSt) (h : q.Kept d.aside) : q.Kept (d.startPass c n m).aside := by
  have hset : q.Kept ((d.enterFinish c n (m.tokens c n)).setNode c n
      { ((d.enterFinish c n (m.tokens c n)).ctx c).node n with st := .merge m }).aside := (h.enterFinish _).setNode _
  unfold Dev.startPass
  dsimp only
  split
  next => exact hset.failCtx (by decide)
  next htake => exact hset.takeChunks htake

@[simp] theorem Watch.Kept.rangeDone (h : q.Kept d.aside) : q.Kept (d.rangeDone c n).aside := by
  unfold Dev.rangeDone
  extract_lets x body
  split
  · split
    · exact h
    · extract_lets width merged d₁ d₂ y d₃ next p
      have h₁ : q.Kept d₁.aside := .foldl (fun _ _ he => he.of_aside (Dev.countTrunc_aside ..)) _ h
      have h₂ : q.Kept d₂.aside := h₁.ite (h₁.of_aside (Dev.ocount_aside ..))
      split
      · exact h₂.setNode _
      · exact ((h₂.freeArea _).ite (h₂.freeArea _)).startPass _
  · exact h

@[simp] theorem Watch.Kept.boundary (st : OpSt) (count : Nat) (h : q.Kept d.aside) : q.Kept (d.boundary w st count).aside := by
  unfold Dev.boundary
  extract_lets d₁ x nd y t at_ splits src d₂ d₃ d₄ d₅
  have h₂ : q.Kept d₂.aside := h.of_aside ((Dev.aside_eq rfl rfl rfl).trans (Dev.commitLines_aside ..))
  have h₃ : q.Kept d₃.aside := h₂.setNode _
  have h₄ : q.Kept d₄.aside := h₃.sourceDone.ite h₃
  have h₅ : q.Kept d₅.aside := (h₄.emitDone _).ite h₄
  split
  next => exact h₅.failCtx (by decide)
  next htake => exact (h₅.takeChunks htake).applyAt.modeAt.rangeDone

/-! ### What a node does by itself -/

@[simp] theorem Watch.Kept.deliver (port : Nat) (s : Strip) (h : q.Kept d.aside) : q.Kept (d.deliver c n port s).aside := by
  refine .foldl (fun e a he => ?_) _ h
  dsimp only
  split_ifs <;> simp [he]

theorem Watch.Kept.countStall {port : Nat} {s : Strip} (h : q.Kept d.aside) (hr : d.countStall c n x port s = some r) :
    q.Kept r.aside := by
  unfold Dev.countStall at hr
  dsimp only at hr
  split at hr
  · split at hr
    · simp at hr
    · obtain rfl := Option.some.inj hr
      simp [h]
  · simp at hr

theorem Watch.Kept.stallNext (h : q.Kept d.aside) (hr : d.stallNext c x n = some r) : q.Kept r.aside := by
  rcases Option.or_eq_some_iff.mp hr with hr | ⟨-, hr⟩
  · obtain ⟨_, -, ha⟩ := List.exists_of_findSome?_eq_some hr
    exact h.countStall ha
  · obtain ⟨w, -, hw⟩ := List.exists_of_findSome?_eq_some hr
    obtain ⟨p, -, hp⟩ := List.exists_of_findSome?_eq_some hw
    obtain ⟨s, -, hs⟩ := Option.bind_eq_some_iff.mp hp
    split at hs
    · exact h.countStall hs
    · simp at hs

theorem Watch.Kept.enterStore (h : q.Kept d.aside) (hr : d.enterStore c x n = some r) : q.Kept r.aside := by
  unfold Dev.enterStore at hr
  dsimp only at hr
  split at hr
  · simp at hr
  · split at hr
    · obtain rfl := Option.some.inj hr
      simp [h]
    · split at hr
      · obtain rfl := Option.some.inj hr
        simp [h]
      · simp at hr

theorem Watch.Kept.drainHold (h : q.Kept d.aside) (hr : d.drainHold c x n = some r) : q.Kept r.aside := by
  obtain ⟨s, -, rfl⟩ := Option.map_eq_some_iff.mp hr
  simp [h]

theorem Watch.Kept.commitNext (h : q.Kept d.aside) (hr : d.commitNext c x n = some r) : q.Kept r.aside := by
  obtain ⟨w, -, rfl⟩ := Option.map_eq_some_iff.mp hr
  exact h.commit

theorem Watch.Kept.boundaryNext (h : q.Kept d.aside) (hr : d.boundaryNext c x n = some r) : q.Kept r.aside := by
  unfold Dev.boundaryNext at hr
  split at hr
  · simp at hr
  · obtain ⟨w, -, hw⟩ := List.exists_of_findSome?_eq_some hr
    split at hw
    · simp at hw
    · obtain ⟨m, -, rfl⟩ := Option.map_eq_some_iff.mp hw
      exact h.boundary ..

theorem Dev.askBlock_ctxs {home i : Nat} {noCheck : Bool} {y : ScanCol} {v : Dev × ScanCol}
    (hr : d.askBlock c n home i noCheck y = some v) : v.1.pipes.ctxs = d.pipes.ctxs := by
  unfold Dev.askBlock at hr
  extract_lets b slotOk at hr
  split at hr
  · simp at hr
  · split at hr
    · split at hr
      · simp at hr
      · split at hr <;> obtain rfl := Option.some.inj hr
        · dsimp only
          split <;> rfl
        · rfl
    · obtain rfl := Option.some.inj hr
      dsimp only
      split <;> rfl

theorem Dev.askBlocks_ctxs (d : Dev) (home i : Nat) (noCheck : Bool) (m : Nat) (y : ScanCol) :
    (d.askBlocks c n home i noCheck m y).1.pipes.ctxs = d.pipes.ctxs := by
  induction m generalizing d y with
  | zero => rfl
  | succ m ih =>
    simp only [Dev.askBlocks]
    split
    next hask => exact (ih ..).trans (Dev.askBlock_ctxs hask)
    next => rfl

/-- The context that a step is about is the one listed, unless its number is listed twice. -/
theorem Watch.Kept.scanBlocks (h : q.Kept d.aside) (hx : c = q.ctx → Loose q.ctx d.pipes.ctxs ∨ d.ctx c = x)
    (hr : d.scanBlocks c x n = some r) : q.Kept r.aside := by
  unfold Dev.scanBlocks at hr
  extract_lets nd skip noCheck y at hr
  split at hr
  next s _ =>
    split at hr
    next => simp at hr
    next hkind =>
      extract_lets v skipped e x₁ at hr
      have hv : q.Kept v.1.aside ∧ v.1.pipes.ctxs = d.pipes.ctxs := by
        refine foldl_keeps (fun a : Dev × ScanSt × List (List Datum) × Option Nat =>
          q.Kept a.1.aside ∧ a.1.pipes.ctxs = d.pipes.ctxs) _ (fun a i ha => ?_) _ _ ⟨h, rfl⟩
        dsimp only
        split
        · exact ⟨ha.1.askBlocks .., (Dev.askBlocks_ctxs ..).trans ha.2⟩
        · exact ha
      have hprog : x.prog ≠ {} := fun hp => hkind (by rw [hp]; simp [Prog.sourceOf])
      split at hr
      next =>
        obtain rfl := Option.some.inj hr
        refine hv.1.failCtx_of fun _ hc => ?_
        rw [hv.2]
        refine (hx hc).elim id fun hctx => .inr ?_
        rw [← hc]
        exact fun hp => hprog (hctx ▸ hp)
      next =>
        split at hr
        next =>
          split at hr
          · obtain rfl := Option.some.inj hr
            exact h.failCtx (by decide)
          · simp at hr
        next =>
          obtain rfl := Option.some.inj hr
          exact (hv.1.of_aside (Dev.ocount_aside ..)).setCtx (.inr rfl) id
  next => simp at hr

/-- The jobs of a context that has a program are dropped. -/
theorem Watch.Kept.dropJobs (l : List BOwner) (h : q.Kept d.aside)
    (hl : ∀ o ∈ l, o = .scan q.ctx q.node → Spared q.ctx d.pipes.ctxs) : q.Kept (l.foldl Dev.dropJob d).aside := by
  refine (List.foldlRecOn l _ (motive := fun e : Dev => q.Kept e.aside ∧ e.pipes.ctxs = d.pipes.ctxs) ⟨h, rfl⟩
    fun e he o ho => ⟨he.1.dropJob fun heq => ?_, (Dev.dropJob_host_ctxs o).2.trans he.2⟩).1
  rw [he.2]
  exact hl o ho heq

theorem Spared.of_prog {m : Sparse Ctx} (h : (Sparse.get {} m c).prog ≠ {}) : Spared c m := .inl (.inr h)

@[simp] theorem Watch.Kept.endNode (h : q.Kept d.aside) : q.Kept (d.endNode c n).aside := by
  unfold Dev.endNode
  extract_lets d₁ x nd y d₂ d₃ src
  have h₂ : q.Kept d₂.aside := (h.of_aside (Dev.releaseAllStreams_aside ..)).setNode _
  have h₃ : d₃.aside = d₂.aside := by
    simp only [d₃]
    split
    · exact Dev.lvSweep_aside _
    · rfl
  split
  next hop =>
    rw [← List.foldl_map (f := fun i => scanOwner c n i) (g := Dev.dropJob)]
    refine (h₂.of_aside h₃).dropJobs _ fun o ho heq => .of_prog ?_
    obtain ⟨i, -, rfl⟩ := List.mem_map.mp ho
    obtain ⟨hc, -⟩ := BOwner.scan.inj heq
    have hctx : (d₃.ctx q.ctx).prog = x.prog := by
      rw [Dev.ctx_of_aside h₃, ← hc]
      simp only [d₂, x, Dev.setNode, Dev.ctx_setCtx]
      rfl
    intro hp
    have hempty : x.prog = {} := hctx.symm.trans hp
    simp [nd, hempty, Prog.node] at hop
  next =>
    split
    · exact ((h₂.of_aside h₃).setNode _).setNode _
    · exact h₂.of_aside h₃

@[simp] theorem Watch.Kept.startMerge (h : q.Kept d.aside) : q.Kept (d.startMerge c x n).aside := by
  unfold Dev.startMerge
  dsimp only
  split_ifs <;> simp [h]

@[simp] theorem Watch.Kept.inputEnds (h : q.Kept d.aside) : q.Kept (d.inputEnds c x n).aside := by
  unfold Dev.inputEnds
  extract_lets nd y s hold
  have hhold {e : Dev} (l : List Strip) (he : q.Kept e.aside) : q.Kept (hold e l).aside := he.setNode _
  split
  · split
    next hbind => exact (h.lvBind hbind).endNode
    next => simp [h]
  · split
    next v hend =>
      split
      next htake => exact Watch.Kept.endNode (((h.endHjBuild hend).setNode _).takeChunks htake)
      next => simp [h]
    next => simp [h]
  · simp [h]
  · simp [h, foldl_aside]
  · simp [h]
  · simp [h]
  · exact hhold _ (by simpa using h)
  · split
    next hclose => exact ((h.closeBlock hclose).setNode _).endNode
    next => simp [h]
  · exact hhold _ (by simpa using h)
  · split <;> simp [h]

theorem Watch.Kept.nodeEnds (h : q.Kept d.aside) (hr : d.nodeEnds c x n = some r) : q.Kept r.aside := by
  unfold Dev.nodeEnds at hr
  dsimp only at hr
  split_ifs at hr <;> obtain rfl := Option.some.inj hr <;> simp [h]

theorem Watch.Kept.nodeStep (h : q.Kept d.aside) (hx : c = q.ctx → Loose q.ctx d.pipes.ctxs ∨ d.ctx c = x)
    (hr : d.nodeStep c x n = some r) : q.Kept r.aside := by
  simp only [Dev.nodeStep, Option.or_eq_some_iff] at hr
  rcases hr with hr | ⟨-, hr | ⟨-, hr | ⟨-, hr | ⟨-, hr | ⟨-, hr | ⟨-, hr | ⟨-, hr⟩⟩⟩⟩⟩⟩⟩
  · exact h.drainHold hr
  · exact h.boundaryNext hr
  · exact h.enterStore hr
  · split at hr
    · obtain rfl := Option.some.inj hr
      simp [h]
    · simp at hr
  · exact h.commitNext hr
  · exact h.scanBlocks hx hr
  · exact h.nodeEnds hr
  · exact h.stallNext hr

@[simp] theorem Watch.Kept.parkGather (h : q.Kept d.aside) : q.Kept (d.parkGather c).aside := by
  unfold Dev.parkGather
  extract_lets x s fits tables d₁ d₂ d₃ d₄ d₅
  split
  next =>
    have h₁ : (d₁.evictCtx c).aside = d.aside :=
      (Dev.evictCtx_aside ..).trans (foldl_aside _ _ _ fun _ _ => Dev.lvUnbind_aside ..)
    have hx : (d₁.evictCtx c).ctx c = x := Dev.ctx_of_aside h₁ c
    have h₂ : q.Kept d₂.aside := (h.of_aside h₁).setCtx (.inr (by rw [hx])) (by rw [hx]; exact id)
    have h₃ : q.Kept d₃.aside := by
      have hin (nd : Node) (hnd : nd ∈ x.prog.nodes) (l : List Nat) (o : BOwner)
          (ho : o ∈ l.map fun i => scanOwner c nd.id i) (heq : o = .scan q.ctx q.node) : Spared q.ctx d₂.pipes.ctxs := by
        obtain ⟨i, -, rfl⟩ := List.mem_map.mp ho
        obtain ⟨hc, -⟩ := BOwner.scan.inj heq
        refine .of_prog ?_
        rw [← hc]
        simp only [d₂, Dev.setCtx, Sparse.get_set_self]
        exact fun hp => by simp [hp] at hnd
      refine (List.foldlRecOn _ _ (motive := fun e : Dev => q.Kept e.aside ∧ e.pipes.ctxs = d₂.pipes.ctxs) ⟨h₂, rfl⟩
        fun e he nd hnd => ?_).1
      rw [← List.foldl_map (f := fun i => scanOwner c nd.id i) (g := Dev.dropJob)]
      refine ⟨he.1.dropJobs _ (by rw [he.2]; exact hin nd hnd _), ?_⟩
      exact (foldl_keeps (fun a : Dev => a.pipes.ctxs = e.pipes.ctxs) _
        (fun a o ha => (Dev.dropJob_host_ctxs o).2.trans ha) _ _ rfl).trans he.2
    have h₄ : q.Kept d₄.aside := by
      simp only [d₄]
      split
      · exact h₃.of_aside (Dev.pipeFinish_aside ..)
      · exact h₃
    exact .foldl (fun _ _ he => he.of_aside (Dev.pipeFinish_aside ..)) _ h₄
  next =>
    split
    · exact h.failCtx (by decide)
    · exact .foldl (fun _ _ he => he.of_aside (Dev.pipeFinish_aside ..)) _ (h.setCtx (.inr rfl) id)

theorem Watch.Kept.parkStep (h : q.Kept d.aside) (hr : d.parkStep c x = some r) : q.Kept r.aside := by
  unfold Dev.parkStep at hr
  dsimp only at hr
  split at hr
  · simp at hr
  · split at hr
    · split at hr
      · split at hr <;> obtain rfl := Option.some.inj hr
        next hclose => exact (h.closeBlock hclose).setNode _
        next => simp [h]
      · simp at hr
    · split at hr
      · simp at hr
      · obtain rfl := Option.some.inj hr
        simp [h]

theorem Watch.Kept.ctxStep (h : q.Kept d.aside) (hx : c = q.ctx → Loose q.ctx d.pipes.ctxs ∨ d.ctx c = x)
    (hr : d.ctxStep c x = some r) : q.Kept r.aside := by
  unfold Dev.ctxStep at hr
  split at hr
  · split at hr
    · simp at hr
    · obtain rfl := Option.some.inj hr
      simp [h]
  · split at hr
    next hstep =>
      obtain rfl := Option.some.inj hr
      obtain ⟨n, -, hn⟩ := List.exists_of_findSome?_eq_some hstep
      exact h.nodeStep hx hn
    next =>
      split_ifs at hr
      · obtain rfl := Option.some.inj hr
        simp [h]
      · exact h.parkStep hr

@[simp] theorem Watch.Kept.readyNode (h : q.Kept d.aside) : q.Kept (d.readyNode c n).aside := by
  unfold Dev.readyNode
  dsimp only
  split_ifs
  · exact h
  · exact h.setNode _
  · exact h.setNode _

@[simp] theorem Watch.Kept.readiness (h : q.Kept d.aside) : q.Kept d.readiness.aside :=
  .foldl (fun _ _ he => he.grant) _ (.foldl (fun _ _ he => .foldl (fun _ _ he => he.readyNode) _ he) _ h)

/-- A context that is listed is what its number reads as, unless the number is listed twice. -/
theorem Sparse.get_of_mem {α : Type} {z : α} {m : Sparse α} {v : α} (hmem : (c, v) ∈ m) :
    1 < m.countP (fun p => p.1 == c) ∨ Sparse.get z m c = v := by
  induction m with
  | nil => simp at hmem
  | cons p m ih =>
    rcases List.mem_cons.mp hmem with rfl | htail
    · exact .inr (by simp [Sparse.get])
    · by_cases hp : p.1 = c
      · have hone : 0 < m.countP (fun p => p.1 == c) := List.countP_pos_iff.mpr ⟨_, htail, by simp⟩
        refine .inl ?_
        rw [List.countP_cons, if_pos (by simp [hp])]
        omega
      · simpa [List.countP_cons, Sparse.get, hp, Ne.symm hp] using ih htail

theorem Watch.Kept.pipeStep (h : q.Kept d.aside) (hr : d.pipeStep = some r) : q.Kept r.aside := by
  obtain ⟨a, ha, hstep⟩ := List.exists_of_findSome?_eq_some hr
  refine h.ctxStep (fun hc => ?_) hstep
  rw [← hc]
  exact (Sparse.get_of_mem (List.mem_filter.mp ha).1).imp_left .inl

/-! ### Fences and the halt -/

@[simp] theorem Watch.Kept.returnWorks (f cut : Work → Bool) (h : q.Kept d.aside) : q.Kept (d.returnWorks f cut).aside := by
  unfold Dev.returnWorks
  refine .foldl (fun e a he => ?_) _ (.foldl (fun e w he => ?_) _ h)
  · split <;> simp [he]
  · dsimp only
    split <;> simp [he]

@[simp] theorem Watch.Kept.forgetPane (h : q.Kept d.aside) : q.Kept (d.forgetPane p).aside := by
  unfold Dev.forgetPane
  refine .foldl (fun e a he => ?_) _ h
  exact he.setCtx (.inr rfl) id

@[simp] theorem Watch.Kept.orphanRuns (h : q.Kept d.aside) : q.Kept (d.orphanRuns p).aside := by
  unfold Dev.orphanRuns
  refine .foldl (fun e a he => ?_) _ h
  exact he.setCtx (.inr rfl) id

@[simp] theorem Watch.Kept.moveNodes (cas moved : List Nat) (h : q.Kept d.aside) : q.Kept (d.moveNodes c cas moved).aside :=
  .foldl (fun _ _ he => (he.setNode _).matchWithConsumers) _ h

@[simp] theorem Dev.moveScanBlocks_aside (d : Dev) (k : Nat) (atOnce : Bool) : (d.moveScanBlocks k atOnce).aside = d.aside := by
  simp only [Dev.moveScanBlocks]
  rw [foldl_aside, Dev.setBcas_aside]
  intro d r
  split <;> rfl

@[simp] theorem Watch.Kept.moveHomes (fence : Bool) (h : q.Kept d.aside) : q.Kept (d.moveHomes k fence).aside := by
  refine .foldl (fun e a he => ?_) _ h
  dsimp only
  split_ifs <;> simp [he]

@[simp] theorem Dev.fenceEvent_aside (d : Dev) : d.fenceEvent.aside = d.aside := by
  simp [Dev.fenceEvent]

@[simp] theorem Dev.holdPane_aside (d : Dev) (p : Nat) (b : Bool) : (d.holdPane p b).aside = d.aside := Dev.fput_aside ..

@[simp] theorem Watch.Kept.afterFence (h : q.Kept d.aside) : q.Kept (d.afterFence k).aside := by
  unfold Dev.afterFence
  extract_lets d₁
  have h₁ : q.Kept d₁.aside := .foldl (fun e a he => (he.failCtx (by decide)).ite he) _ h
  split
  · refine .foldl (fun e a he => ?_) _ h₁
    dsimp only
    split_ifs
    · exact he
    · exact he.failCtx (by decide)
    · exact he.moveNodes ..
  · exact h₁

@[simp] theorem Watch.Kept.paneFence (h : q.Kept d.aside) : q.Kept (d.paneFence p).aside := by
  unfold Dev.paneFence
  extract_lets x d₁ d₂ d₃
  split
  · exact h
  · have h₂ : q.Kept d₂.aside :=
      (Watch.Kept.ite (h.of_aside (Dev.holdPane_aside ..)) h).of_aside (Dev.setPane_aside ..)
    have h₃ : q.Kept d₃.aside := ((h₂.returnWorks _ _).orphanRuns).forgetPane
    exact (h₃.of_aside (Dev.fenceEvent_aside _)).afterFence

@[simp] theorem Watch.Kept.lookupsLost (h : q.Kept d.aside) : q.Kept d.lookupsLost.aside := by
  unfold Dev.lookupsLost
  refine .foldl (fun e a he => ?_) _ h
  exact (he.failCtx (by decide)).ite he

@[simp] theorem Watch.Kept.ownersLost (h : q.Kept d.aside) : q.Kept (d.ownersLost k).aside := by
  unfold Dev.ownersLost
  refine .foldl (fun e a he => ?_) _ h
  exact (he.failCtx (by decide)).ite he

@[simp] theorem Watch.Kept.casementFence (h : q.Kept d.aside) : q.Kept (d.casementFence k).aside := by
  unfold Dev.casementFence
  extract_lets d₁ d₂ d₃ d₄ d₅ d₆ d₇
  split
  · exact h
  · have h₂ : q.Kept d₂.aside := by
      refine .foldl (fun e i he => ?_) _ (by simpa [d₁] using h)
      refine Watch.Kept.forgetPane ?_
      split <;> simp [he]
    have h₄ : q.Kept d₄.aside := .foldl (fun _ _ he => he.orphanRuns) _ (h₂.returnWorks _ _)
    have h₅ : q.Kept d₅.aside := (h₄.moveHomes _).of_aside (Dev.moveScanBlocks_aside ..)
    have h₆ : q.Kept d₆.aside := h₅.of_aside ((Dev.sillClear_aside ..).trans (Dev.bifoldLeave_aside ..))
    have h₇ : q.Kept d₇.aside := (h₆.of_aside (Dev.lvLoseCasement_aside ..)).lookupsLost.ownersLost
    exact (h₇.of_aside ((Dev.fenceEvent_aside _).trans (Dev.setLatch_aside ..))).afterFence

@[simp] theorem Dev.halt_aside (d : Dev) (n syn : Nat) : (d.halt n syn).aside = d.aside := by
  unfold Dev.halt
  split
  · rfl
  · simp

@[simp] theorem Dev.engineFence_aside (d : Dev) (c e : Nat) : (d.engineFence c e).aside = d.aside := by
  unfold Dev.engineFence
  dsimp only
  split
  · rfl
  · rw [Dev.fenceEvent_aside]
    split
    · rfl
    · split <;> simp

@[simp] theorem Watch.Kept.fenceUnit (syn : Nat) (h : q.Kept d.aside) : q.Kept (d.fenceUnit n syn).aside := by
  unfold Dev.fenceUnit
  dsimp only
  split_ifs <;> simp [h]

@[simp] theorem Watch.Kept.react (act syn : Nat) (h : q.Kept d.aside) : q.Kept (d.react n act syn).aside := by
  unfold Dev.react
  split_ifs <;> simp [h]

/-! ### After a command -/

theorem Watch.Kept.reactAll (m : Nat) (h : q.Kept d.aside) : q.Kept (Dev.reactAll m d).aside := by
  induction m generalizing d with
  | zero => exact h
  | succ m ih =>
    simp only [Dev.reactAll]
    split
    · exact h
    · exact ih (Watch.Kept.react _ _ h)

theorem Watch.Kept.flow (m : Nat) (h : q.Kept d.aside) : q.Kept (Dev.flow m d).aside := by
  induction m generalizing d with
  | zero => exact h
  | succ m ih =>
    simp only [Dev.flow]
    split
    · exact h
    · split
      next => exact h
      next hstep => exact ih ((h.pipeStep hstep).reactAll _)

theorem Watch.Kept.settle (h : q.Kept d.aside) : q.Kept d.settle.aside := by
  unfold Dev.settle
  dsimp only
  split
  · exact h.reactAll 4096
  · exact ((h.reactAll 4096).flow _).readiness

end

/-- Nothing that follows a command writes host memory. -/
theorem Dev.settle_host (d : Dev) : d.settle.host = d.host := by
  obtain ⟨c, hc⟩ := Infinite.exists_notMem_finset (d.pipes.ctxs.map Prod.fst).toFinset
  let read : BReq := { owner := .scan c 0, index := 0 }
  let q : Watch := { host := d.host, ctx := c, node := 0, block := read, chan := 0, list := { owner := .scan read, tag := 0 }
                     isRead := rfl, ofCtx := rfl }
  have hspared : Spared c d.pipes.ctxs := .inr (by
    rw [show Sparse.get {} d.pipes.ctxs c = {} from Sparse.get_of_not_mem _ (by simpa using hc)]
    simp)
  have hkept : q.Kept d.settle.aside := Watch.Kept.settle ⟨rfl, .inl hspared⟩
  exact hkept.1

end Sys2Proof.Machine

/-! ## RECOVER of a dark shelf (R244, R441, R449) -/

namespace Sys2Proof.Machine

/-- The public key of the secret number 1: the base point. -/
def recoveryKey : Bytes := beBytes 48 g384.x ++ beBytes 48 g384.y

/-- A Lintel image of version 1 with an empty body, signed with the secret number 1 and the nonce 1. -/
def recoveryImage : Bytes :=
  leBytes 4 0x57464C46 ++ leBytes 2 1 ++ leBytes 2 1 ++ leBytes 4 1 ++ zeros 20
    ++ beBytes 48 0x38b060a751ac96384cd9327eb1b1e36a21fdb71114be07434c0cc7bf63f6e1da274edebfe76f65fbd51ad2f14898b95b
    ++ recoveryKey
    ++ beBytes 48 g384.x
    ++ beBytes 48 0x87b82c3d4d7559fd598b52e70e9b58dc19ab0192e9bee0cc0b343444e8707fd5466e704db8b821a92d24f08491db716c
    ++ zeros 240

/-- The fuse words of the first signer: the SHA-384 of `recoveryKey`. -/
def recoveryFuses : Sparse Nat := (List.range 12).map fun i => (12 + i,
  0x654b811f19e108eab70600d86aa5f04bfad296f7d87d69500977a9c8d122aa9478e155e5cfb05280eb82b571b14d9da1 / 2 ^ (32 * i) % 2 ^ 32)

/-- A queue with an entry to take that keeps its mirror at host address 0. -/
def mirroredQueue : Queue := { st := .active, cfg := { mirEn := true }, sqC := 1, sqP := 1 }

/-- Bytes at an address as host memory keeps them: no cell for a zero. -/
def hostCells (a : Nat) (bs : Bytes) : Sparse Byte := (addressed a bs).filter fun p => p.2 ≠ 0

theorem get_hostCells (a : Nat) (bs : Bytes) (k : Nat) :
    Sparse.get 0 (hostCells a bs) k = if a ≤ k then bs.getD (k - a) 0 else 0 := by
  induction bs generalizing a with
  | nil => simp [hostCells, addressed, Sparse.get]
  | cons b bs ih =>
    have hrest : Sparse.get 0 (hostCells a (b :: bs)) k = if k = a then b else Sparse.get 0 (hostCells (a + 1) bs) k := by
      by_cases hb : b = 0
      · have hcells : hostCells a (b :: bs) = hostCells (a + 1) bs := List.filter_cons_of_neg (by simpa using hb)
        rw [hcells]
        split
        next heq => rw [ih, if_neg (by omega), hb]
        next => rfl
      · have hcells : hostCells a (b :: bs) = (a, b) :: hostCells (a + 1) bs := List.filter_cons_of_pos (by simpa using hb)
        rw [hcells, Sparse.get]
    rw [hrest, ih]
    rcases Nat.lt_trichotomy k a with hlt | rfl | hgt
    · rw [if_neg (by omega), if_neg (by omega), if_neg (by omega)]
    · simp
    · rw [if_neg (by omega), if_pos (by omega), if_pos (by omega), show k - a = k - (a + 1) + 1 by omega, List.getD_cons_succ]

theorem Dev.hostBytes_hostCells {d : Dev} {a : Nat} {bs : Bytes} (hhost : d.host = hostCells a bs)
    (hfit : a + bs.length ≤ 2 ^ 64) : d.hostBytes a bs.length = bs := by
  refine List.ext_getElem (by simp [Dev.hostBytes]) fun i hi hi' => ?_
  simp only [Dev.hostBytes, List.getElem_map, List.getElem_range]
  rw [Nat.mod_eq_of_lt (by omega), hhost, get_hostCells, if_pos (by omega)]
  simp [hi']

/-- A part that trusts the signer, in RECOVERY on a dark shelf, with that queue; RECOVER is to take the image at host address
0x1000. -/
def darkRecovery : Dev :=
  ((({ host := hostCells 0x1000 recoveryImage, life := { shelfDark := true, fused := recoveryFuses }
       jamb := { queues := [(0, mirroredQueue)] } } : Dev).fput
    F.LM_STAT_STAGE 5).fput F.LM_LEN_LEN 512).fput F.LM_ADDR_LO_ADDR 0x1000

/-- The device as the mailbox gives RECOVER to Lintel. -/
def recoverPosted : Dev :=
  ((((darkRecovery.fput F.LM_CMD_OP 5).fput F.LM_CMD_SLOT 0).fputB F.LM_CMD_PART false).fput F.LM_CMD_CASEMENT 0).fputB
    F.LM_CMD_GO true

/-- What runs once RECOVER has taken an image (R441). -/
def Dev.recovered (d : Dev) (b : Bytes) (t : Tests) : Dev :=
  ((({ d with life := { d.life with running := runningOf b, slot := 2 } } : Dev).fputB F.LM_STAT_RECOVERED true).fput
    F.LM_STAT_STAGE 3).firmwareStart.bringUp t

theorem Dev.recover_of_accepted {d : Dev} {b : Bytes} (t : Tests) (hstage : d.fget F.LM_STAT_STAGE = 5)
    (hread : d.hostFails d.lmAddr d.lmLen = false) (hbytes : d.hostBytes d.lmAddr d.lmLen = b)
    (hgood : imageReject d.trust 1 b = 0) : d.recover t = (d.recovered b t).lmEnd 5 0 0 := by
  simp only [Dev.recover, hstage, hread, hbytes, hgood, ne_eq, not_true_eq_false, Bool.false_eq_true, if_false, Dev.recovered]

@[simp] theorem Dev.lmEnd_host (d : Dev) (op code check : Nat) : (d.lmEnd op code check).host = d.host := by
  simp [Dev.lmEnd]

theorem recoveryImage_accepted : imageReject darkRecovery.trust 1 recoveryImage = 0 := by
  decide +kernel

theorem recoveryImage_length : recoveryImage.length = 512 := by
  simp only [recoveryImage, recoveryKey, zeros, List.length_append, List.length_replicate, leBytes_length, beBytes_length]

theorem darkRecovery_fields :
    darkRecovery.fget F.LM_STAT_STAGE = 5 ∧ darkRecovery.lmAddr = 0x1000 ∧ darkRecovery.lmLen = 512
      ∧ recoverPosted.fget F.LM_STAT_STAGE = 5 ∧ recoverPosted.lmAddr = 0x1000 ∧ recoverPosted.lmLen = 512 := by
  decide +kernel

theorem hostBytes_recoveryImage {d : Dev} (hhost : d.host = hostCells 0x1000 recoveryImage) :
    d.hostBytes 0x1000 512 = recoveryImage := by
  have hbytes := Dev.hostBytes_hostCells hhost (by rw [recoveryImage_length]; decide)
  rwa [recoveryImage_length] at hbytes

/-- Once READY, the dark shelf parks at once (R449): its queue is flushed, and the mirror of the flushed queue is written. -/
theorem recovered_writes_mirror :
    Sparse.get 0 (recoverPosted.recovered recoveryImage {}).host 0 = 1 ∧ Sparse.get 0 darkRecovery.host 0 = 0 := by
  decide +kernel

theorem exec_recover_darkRecovery :
    exec (.recover {}) { dev := darkRecovery }
      = .next { dev := ((recoverPosted.recovered recoveryImage {}).lmEnd 5 0 0).settle } := by
  obtain ⟨-, -, -, hstage, haddr, hlen⟩ := darkRecovery_fields
  have hposted : recoverPosted.recover {} = (recoverPosted.recovered recoveryImage {}).lmEnd 5 0 0 :=
    Dev.recover_of_accepted {} hstage rfl (by rw [haddr, hlen]; exact hostBytes_recoveryImage rfl)
      recoveryImage_accepted
  have hserve : exec (.recover {}) { dev := darkRecovery }
      = .next { dev := (recoverPosted.mailbox 5 fun d => d.recover {}).settle } := servePowered_of _ rfl
  have hserves : ¬ ((recoverPosted.fget F.LM_STAT_STAGE = 5 ∧ 5 ≠ 5) ∨ (recoverPosted.life.parked = true ∧ 5 ≠ 1 ∧ 5 ≠ 4)) := by
    rintro (⟨-, hop⟩ | ⟨hparked, -⟩)
    · exact hop rfl
    · exact Bool.false_ne_true hparked
  rw [hserve, Dev.mailbox, if_neg hserves, hposted]

/-- Refutes O59: of a RECOVER of a good image the statement says that the command leaves host memory as it was, and what follows
the command never writes there (`Dev.settle_host`); but a shelf that is dark parks as soon as the engine is READY, which flushes
its queues and writes the mirror of one that keeps it. -/
theorem not_firmwareAndFuses : ¬ Obligations.FirmwareAndFuses := by
  unfold Obligations.FirmwareAndFuses
  intro h
  obtain ⟨hstage, haddr, hlen, -⟩ := darkRecovery_fields
  obtain ⟨hwritten, hbefore⟩ := recovered_writes_mirror
  obtain ⟨-, -, hrecover, -⟩ := h { dev := darkRecovery } 0 false false false 0 {} 0
  have hgood : imageReject darkRecovery.trust 1 (darkRecovery.hostBytes darkRecovery.lmAddr darkRecovery.lmLen) = 0 := by
    rw [haddr, hlen, hostBytes_recoveryImage rfl, recoveryImage_accepted]
  obtain ⟨d, hexec, -, -, -, -, -, hhost⟩ := (hrecover rfl hstage rfl rfl).2 hgood
  rw [exec_recover_darkRecovery] at hexec
  have hsettled : d.settle.host = ((recoverPosted.recovered recoveryImage {}).lmEnd 5 0 0).settle.host :=
    congrArg (fun s : State => s.dev.host) (Host.Outcome.next.inj hexec).symm
  rw [Dev.settle_host, Dev.settle_host, Dev.lmEnd_host, hhost] at hsettled
  rw [hsettled, hwritten] at hbefore
  simp at hbefore

end Sys2Proof.Machine

/-! ## HALT_TIMEOUT where a channel is listed twice (R347) -/

namespace Sys2Proof.Machine

/-- A block that a SCAN of context 0 reads. -/
def scanRead : BReq := { owner := .scan 0 0, index := 0 }

/-- The list that brings it. -/
def scanList : HList := { owner := .scan scanRead, tag := 0 }

/-- Hinge halted, with channel 2 listed twice, by a DMA that reads host memory and by a list that writes a result block of
context 0, and with a SCAN's list of the same context on channel 3. -/
def twiceListed : Dev :=
  { hinge := { halt := true, chans := [
      (2, { lists := [{ owner := .dma 0, tag := 0, at_ := .inline 0 }] }),
      (2, { lists := [{ owner := .emit 0 0, tag := 0 }] }),
      (3, { lists := [scanList] })] }
    jamb := { cmds := [{ id := 0, queue := 0, slot := 0, flags := 0, entry := [], phase := .dispatched, tag := 0, opcode := opDma }] }
    pipes := { ctxs := [(0, { state := 2 })] }
    bifold := { jobs := [{ owner := .scan 0 0, build := false, blocks := [] }] } }

/-- The SCAN's list is watched. -/
def scanWatch : Watch where
  host := []
  ctx := 0
  node := 0
  block := scanRead
  chan := 3
  list := scanList
  isRead := rfl
  ofCtx := rfl

theorem twiceListed_ends_dma : ∀ p ∈ twiceListed.hinge.chans, ∀ l ∈ p.2.lists.head?,
    l.drop.isSome = true ∨ bitAt twiceListed.abortMask p.1 = true ∨ twiceListed.readsHost l = true → l.owner = .dma 0 := by
  decide +kernel

theorem twiceListed_expires :
    (let d := twiceListed.haltTimeout.settle
     d.host = [] ∧ d.pipes.ctxs.countP (fun p => p.1 == 0) = 1 ∧ (d.ctx 0).prog = {} ∧ (d.ctx 0).ending = some 0x0702
      ∧ scanList ∉ (d.hchan 3).lists) := by
  decide +kernel

theorem twiceListed_cuts : ¬ scanWatch.Kept twiceListed.haltTimeout.settle.aside := by
  obtain ⟨-, hcount, hprog, hending, hlist⟩ := twiceListed_expires
  rintro ⟨-, ((htwo | hp) | he) | hmem⟩
  · exact absurd htwo (by rw [show scanWatch.ctx = 0 from rfl]; exact hcount ▸ by decide)
  · exact hp hprog
  · exact he hending
  · exact hlist hmem

/-- Refutes O30: a channel that the state lists twice is aborted whole for its first list. Its second ends with UNCORRECTED, which
fails the pipeline it writes for and cuts the SCAN's list on channel 3, while the statement says that channel 3 keeps it. Nothing
that follows the expiry fails a pipeline without a program so (`Watch.Kept.settle`). -/
theorem not_busErrorHaltsHingeUntilItRestarts : ¬ Obligations.BusErrorHaltsHingeUntilItRestarts := by
  unfold Obligations.BusErrorHaltsHingeUntilItRestarts
  intro h
  obtain ⟨d, hexec, -, hkeeps⟩ := (h.2 { dev := twiceListed } rfl rfl rfl).2
  have hkept := hkeeps 3 (by decide) (fun p hp l hl he => ⟨0, twiceListed_ends_dma p hp l hl he⟩) (by decide) (by decide +kernel) (by decide +kernel)
  have hsettled : d.settle = twiceListed.haltTimeout.settle := by
    have hserve : exec .haltTimeoutExpiry { dev := twiceListed } = .next { dev := twiceListed.haltTimeout.settle } := serve_of _ rfl
    rw [hserve] at hexec
    exact congrArg State.dev (Host.Outcome.next.inj hexec).symm
  have hhost : d.host = [] := by
    rw [← d.settle_host, hsettled]
    exact twiceListed_expires.1
  refine twiceListed_cuts (hsettled ▸ Watch.Kept.settle ⟨hhost, .inr ?_⟩)
  have hlists : (d.hchan 3).lists = [scanList] := by rw [hkept]; decide
  exact hlists ▸ List.mem_singleton_self _

end Sys2Proof.Machine
